-- ==== Sys2Proof/Word.lean ====
section
/-!
DEFINITION. Word.lean: the word types of the MZ7256 model and their plainest arithmetic.
Bit vectors are used for what the manual reads as bits: bytes, registers, the device-time counter, wrapping counts.
-/

namespace Sys2Proof

/-- A byte of a frame, a Shaving, a record or a link body. -/
abbrev Byte := BitVec 8
/-- A 16-bit word: the epoch (R100), error and flag words. -/
abbrev W16 := BitVec 16
/-- A 32-bit word: a register of the register file (R301). -/
abbrev W32 := BitVec 32
/-- A 64-bit count of device-time ticks, 245,760,000 to the second (R97). -/
abbrev Tick := BitVec 64

/-- Ticks in one second of device time (R97). -/
def ticksPerSecond : Nat := 245760000

/-- Clamp a natural number into a range whose ends are both legal (R329). -/
def clampNat (lo hi v : Nat) : Nat := if v < lo then lo else if hi < v then hi else v

/-- Clamp an integer into a range whose ends are both legal (R329). -/
def clampInt (lo hi v : Int) : Int := if v < lo then lo else if hi < v then hi else v

/-- A count that stops at its ceiling instead of wrapping. -/
def satNat (ceiling v : Nat) : Nat := if ceiling < v then ceiling else v

end Sys2Proof
end

