-- ==== Sys2Proof/Syntax.lean ====
section
/-!
DEFINITION. Syntax.lean: the commands of the block, one constructor per row of spec/opcode_table.json, and the operands
they carry. A row of the Gokixel command set carries the command frame. A row that is an event outside or inside the
device carries what only the outside or the analogue path knows: the rest is computed from the state.
-/

namespace Sys2Proof

/-- An object handle: a 16-bit index and a 16-bit generation (R16, R331). -/
structure Handle where
  index : Nat := 0
  gen   : Nat := 0
  deriving DecidableEq, Repr

/-- A Gokixel command frame as the Headstock takes it, without its opcode, which the command row names (R323).
`port` is the port of the command ring it arrived in; `portField` is the byte the header carries. -/
structure CmdFrame where
  port      : Nat := 0
  tag       : Nat := 0
  flags     : Byte := 0
  portField : Nat := 0
  target    : Handle := {}
  planSeq   : W32 := 0
  payload   : List Byte := []
  deriving DecidableEq, Repr

/-- The supply rails of the table Supplies, in its order (R82). -/
inductive Rail where
  | vddAon | vddCore | vddMem | vdda12 | vdda18 | vddioB | vddioA | vddPcie | vddPa
  deriving DecidableEq, Repr

/-- The loops whose loss R95 lists, with the subject codes of LOOP_LOST (R550). -/
inductive Loop where
  | sysPll | sPll | aPll | wordClock | linkSynth | ref
  deriving DecidableEq, Repr

/-- The chain kinds and their rate codes 0 to 5 (R152). -/
inductive Kind where
  | am | drm30 | drmPlus | fm | dab | tap
  deriving DecidableEq, Repr

/-- The classes of objects that OBJECT_REMOVED names, codes 0 to 5 (R384). -/
inductive ObjClass where
  | branch | probe | tap | follow | blend | pcm
  deriving DecidableEq, Repr

/-- The owner of a chisel chain (R24), in the Role order of R176. -/
inductive ChainOwner where
  | reception (i : Nat) | branch (i : Nat) | probe (i : Nat) | tap (i : Nat)
  deriving DecidableEq, Repr

/-- What a word of the Timber store holds when an uncorrectable error is found in it (R542). -/
inductive TimberUse where
  | chainSamples (o : ChainOwner) | softValues (r : Nat) | delayLine (b : Nat) | staging (ring : Nat)
  | snapshot (r : Nat) | other
  deriving DecidableEq, Repr

/-- The three events that disable every PCIe ring (R295). -/
inductive PcieDown where
  | hotReset | linkDown | busMasterClear
  deriving DecidableEq, Repr

/-- How a RING_PUSH transaction ends: chip select rising or STOP, or a repeated START on the two-wire bus (R299, R391). -/
inductive PushEnd where
  | stop | repeatedStart
  deriving DecidableEq, Repr

/-- What the outside gives the device at power-up: the strap pin, the rails, the clocks, the bus and the units' self-tests
(R72 to R77, R86, R401, R501, R533, R542). -/
structure BootInputs where
  /-- Voltage at CFG in tenths of a millivolt (R77). -/
  cfgTenthMv   : Nat := 0
  /-- Rails above their good threshold (R82). -/
  rails        : List Rail := []
  /-- nRESET low at this instant (R72). -/
  nresetLow    : Bool := false
  /-- Islands I0 to I16 whose clock is good when the sequence releases them; the others wait for ISLAND_CLOCK_GOOD or ISLAND_HELD
  (R74, R75). -/
  clocksGood   : BitVec 17 := BitVec.allOnes 17
  /-- SCL pulses until SDA is high: 0 when it is high at once, 10 or more when it stays low (R401). -/
  sdaPulses    : Nat := 0
  /-- The Mortise power-up tests of R501. -/
  selfTest     : Bool := true
  /-- Engines that pass their self-test (R533). -/
  enginesOk    : BitVec 16 := BitVec.allOnes 16
  /-- Tuners T0 to T3 and the HF input that pass their retest (R542). -/
  tunersOk     : BitVec 5 := BitVec.allOnes 5
  /-- Retained-store regions 0 to 4 whose CRC-32 fails (R45). -/
  regionsBad   : List Nat := []
  /-- Seconds since the last duty-cycle ledger snapshot (R59). -/
  outageSeconds : Nat := 0
  deriving DecidableEq, Repr

/-- One 1 ms measurement of a 10 MHz reference (R104, R105): edges were seen, their frequency against REF in mHz, and where the
reference's mean phase lies in device time against the end of the window, in 1/64 tick. -/
structure TenMhzMeas where
  present  : Bool := true
  milliHz  : Nat := 10000000000
  sub      : Int := 0
  deriving DecidableEq, Repr

/-- What a tuner's AGC sees over one interval: composite power at the ball in 0.1 dBm, samples at full scale, samples seen
and whether the interval lies in a link transmission (R127, R130, R145). -/
structure AgcMeas where
  powerTenthDbm : Int := 0
  clipped       : Nat := 0
  samples       : Nat := 0
  partnerPowerTenthDbm : Int := 0
  partnerClipped : Nat := 0
  /-- Samples at full scale and samples over the last 1 s (R130). -/
  clippedLastS : Nat := 0
  samplesLastS : Nat := 0
  deriving DecidableEq, Repr

/-- One raster point of a survey spectrum: its band and frequency, the power in its coverage band, and the powers that placements of
the sweep, by their numbers, measure at its image (R252, R255). -/
structure SurveyPoint where
  band      : Nat := 0
  freq      : Nat := 0
  powerTenthDbm : Int := 0
  images    : List (Nat × Int) := []
  deriving DecidableEq, Repr

/-- A service a survey candidate declares (R252). -/
structure SurveyService where
  identity  : Nat := 0
  component : Nat := 0
  codec     : Nat := 0xFF
  label     : List Byte := []
  charset   : Byte := 0
  deriving DecidableEq, Repr

/-- What a survey candidate yielded within its dwell (R252): whether its reception acquired, the PI codes read with their flags, the EId or DRM service
identifier decoded. -/
structure SurveyFind where
  stamp     : Tick := 0
  acquired  : Bool := false
  qualityTenthDb : Int := 0
  pis       : List (Nat × Nat) := []
  identity  : Option Nat := none
  label     : List Byte := []
  charset   : Byte := 0
  services  : List SurveyService := []
  deriving DecidableEq, Repr

/-- What a chain's sources give one block: the device time of its first sample at the ADC in 1/64 tick, and the samples at
the scale of exponent 24, before saturation, referred to the antenna ball or to the input of an external amplifier (R128, R133,
R167, R168, R109). -/
structure ChainIn where
  adc64   : Int := 0
  samples : List (Int × Int) := []
  deriving DecidableEq, Repr

/-- A service component that a digital reception's configuration declares (R208, R209). -/
structure CompDecl where
  /-- An audio component; data components are not programmes (R208). -/
  audio     : Bool := true
  service   : Nat := 0
  component : Nat := 0
  sub       : Nat := 0
  codec     : Nat := 0xFF
  bitRate   : Nat := 0
  protection : Nat := 0
  sampleRate : Nat := 0
  audioMode : Nat := 0
  deriving DecidableEq, Repr

/-- One valid occurrence of announcement or alarm signalling, or of its absence (R247, R248). -/
structure AlertSignal where
  source  : Nat := 0
  type    : Nat := 0
  on      : Bool := true
  alarm   : Bool := false
  cluster : Nat := 0
  target  : Nat := 0
  deriving DecidableEq, Repr

/-- An alternative arrival that side data signals (R259). -/
structure CandSignal where
  freq    : Nat := 0
  kind    : Kind := .fm
  deriving DecidableEq, Repr

/-- A multiplex reconfiguration that the signal announces (R222): the CIF or superframe count now, the CIFs or superframes from now to the
announced instant, negative once it has passed, and what the new configuration declares. -/
structure Reconf where
  count : Nat := 0
  delay : Int := 0
  comps : List CompDecl := []
  deriving DecidableEq, Repr

/-- What Rasp decodes of the next CIF of a DAB reception: its three FIBs and the content of the FIGs they carry; announcement signalling
stands with the number of the FIB that carries it (R208, R222, R241, R247, R259). -/
structure DabCif where
  fibs       : List (List Byte) := []
  ensemble   : Option Nat := none
  comps      : Option (List CompDecl) := none
  reconf     : Option Reconf := none
  alerts     : List (Nat × AlertSignal) := []
  cands      : List CandSignal := []
  /-- Linkage: type and value of an identity, type and value of the one linked to it (R258). -/
  links      : List (Nat × Nat × Nat × Nat) := []
  deriving DecidableEq, Repr

/-- What Rasp decodes of the next transmission frame of a DRM reception: its FAC block (R245). -/
structure DrmFrame where
  facBits  : Nat := 72
  fac      : List Byte := []
  crcOk    : Bool := true
  position : Nat := 0
  services : Option (List Nat) := none
  mode     : Nat := 0
  occupancy : Nat := 0
  msc      : Nat := 0
  /-- A hierarchical mapping of 64-QAM (R207). -/
  hierarchical : Bool := false
  /-- The SDC is 16-QAM, not 4-QAM (R207). -/
  sdc16    : Bool := false
  longInt  : Bool := false
  deriving DecidableEq, Repr

/-- One superframe of a DRM reception with its SDC block (R245). -/
structure DrmSuper where
  sdc      : List Byte := []
  crcOk    : Bool := true
  erasures : Bool := false
  afsIndex : Nat := 0
  comps    : Option (List CompDecl) := none
  reconf   : Option Reconf := none
  alerts   : List AlertSignal := []
  cands    : List CandSignal := []
  /-- Linkage: type and value of an identity, type and value of the one linked to it (R258). -/
  links    : List (Nat × Nat × Nat × Nat) := []
  deriving DecidableEq, Repr

/-- One AU or MP2 frame of a transport unit, with its check results (R231, R232). -/
structure AuIn where
  bytes  : List Byte := []
  crcOk  : Bool := true
  deriving DecidableEq, Repr

/-- What a transport unit's PAD held (R242): an X-PAD data group, a segment of a dynamic label or of a DRM text message with a
valid CRC, or the MOT segment of a data group, which stands in the list as a data group too. -/
inductive PadIn where
  | group (appType : Nat) (crcOk : Bool) (data : List Byte)
  | label (charset : Byte) (toggle : Bool) (seg : Nat) (last : Bool) (text : List Byte)
  | text (charset : Byte) (toggle : Bool) (seg : Nat) (last : Bool) (text : List Byte)
  | mot (tid : Nat) (seg : Nat) (last : Bool) (header : Bool) (directory : Bool) (declared : Nat) (crcOk : Bool)
      (data : List Byte)
  deriving DecidableEq, Repr

/-- One transport unit as Viterbi decoding and energy dispersal leave it (R220, R229): an MP2 frame, a DAB+ superframe before its
Reed-Solomon decoding or a DRM audio superframe. -/
structure TransportIn where
  /-- MP2, bits 0 and 1: header and scale-factor CRC failed (R231). -/
  status      : Nat := 0
  /-- DRM: the SDC audio information of the service (R233). -/
  params      : Nat := 0
  /-- Bits compared and differing in the channel bit-error estimate (R236). -/
  bitsChecked : Nat := 0
  bitsDiffering : Nat := 0
  /-- DAB+: five logical frames with the outer code (R221). xHE-AAC: the payload as transmitted (R233). -/
  raw         : List Byte := []
  /-- The MP2 frame, or a DRM superframe's AUs. -/
  aus         : List AuIn := []
  /-- PAD, each with the number of the AU that carries its last byte (R242). -/
  pad         : List (Nat × PadIn) := []
  deriving DecidableEq, Repr

/-- What Rasp reads of a digital probe's channel beside its demodulation: the identity it carries, whether its control channel passes
its checks, and its MSC constellation by R237 (R262, R266, R267). -/
structure GaugeIn where
  freq     : Nat := 0
  kind     : Kind := .dab
  identity : Option Nat := none
  checked  : Bool := false
  msc      : Nat := 0
  deriving DecidableEq, Repr

/-- What a follower port sees on its pins (R289): FS periods that brought no FS, the frame rate's distance from 48 kHz of the APLL in ppm,
and BCLKs in a frame. -/
structure FollowerMeas where
  missing : Nat := 0
  ppm     : Int := 0
  bclks   : Nat := 512
  deriving DecidableEq, Repr

/-- The statistics of one element selection (R515, R517): whether they could be gathered, activity per mille, and the mismatch
estimated for each of the 18 elements of I and of Q. -/
structure ElemStats where
  gathered : Bool := true
  activity : Nat := 0
  mismatchI : List Int := []
  mismatchQ : List Int := []
  deriving DecidableEq, Repr

/-- One IQ estimate of a tuner window (R515, R521): the qualifier measures and the estimate, with the 7 taps of its
delay-mismatch filter. -/
structure IqEst where
  gathered  : Bool := true
  powerTenthDbm : Int := 0
  strongest : Nat := 0
  signals   : Nat := 0
  gain      : Int := 0
  phase     : Int := 0
  taps      : List Int := []
  image     : Nat := 0
  partnerPowerTenthDbm : Int := 0
  deriving DecidableEq, Repr

/-- An alignment measurement (R523): the new setting in 1/256 tick by the comparator, for a ganged pair the setting refined by
cross-correlation, and the lower in-window power of the pair's two tuners in 0.1 dBm. -/
structure AlignMeas where
  target  : Int := 0
  refined : Int := 0
  powerTenthDbm : Int := 0
  deriving DecidableEq, Repr

/-- What a Grain assessment measures (R526, R527): each island's degradation in 0.01 % and the VDD_CORE in mV that the
worst island would need for an 8 % margin at 125 degrees, at the full and at the reduced clock plan. -/
structure GrainMeas where
  degradation : List Nat := []
  needMv      : Nat := 0
  needReducedMv : Nat := 0
  margin      : Int := 0
  deriving DecidableEq, Repr

/-- One symbol period of a link detector: the power in each bin of its transform, and for the watch lane the bin of the frame
in reception (R421, R425). -/
structure LinkPeriod where
  bins : List Nat := []
  own  : Option Nat := none
  deriving DecidableEq, Repr

/-- A candidate of a link detector (R422): its sweep length, six consecutive up-chirp periods, the down-chirp periods of the four
that follow, the timing between the two in chips, the device time in 1/64 tick at which its first down-chirp began at the
receiver (R423), its carrier offset, and the last four symbols of the frame in reception (R425). -/
structure LinkCand where
  sl        : Nat := 4
  ups       : List LinkPeriod := []
  downs     : List LinkPeriod := []
  apart     : Int := 0
  sync64    : Int := 0
  offsetHz  : Int := 0
  current   : List LinkPeriod := []
  /-- The addressing field of the frame in reception, once its first body block is decoded (R426). -/
  addressing : Option W32 := none
  deriving DecidableEq, Repr

/-- The coded body bits that a link detector decided, in the order sent, the symbol periods they stood in, and the power
received in 0.1 dBm (R424, R476). -/
structure LinkRx where
  bits    : List Bool := []
  symbols : List LinkPeriod := []
  power   : Int := 0
  deriving DecidableEq, Repr

/-- How a controller transfer on the two-wire bus ends (R400), with what it acknowledged and read. -/
structure BusResult where
  result : Nat := 0
  acked  : Nat := 0
  read   : List Byte := []
  deriving DecidableEq, Repr

/-- The commands of the MZ7256, in the order of spec/opcode_table.json. -/
inductive Instr where
  /-- POWER_ON_RESET (R64). VDD_AON falls below 0.62 V or is below 0.70 V rising, and power-on reset asserts with the reach of R65. -/
  | powerOnReset
  /-- POR_RELEASE (R86). Power-on reset releases 2 ms after VDD_AON rises above 0.70 V, and the power-on sequence runs. -/
  | porRelease (b : BootInputs)
  /-- NRESET_ACCEPTED (R67). A low pulse on nRESET is accepted, the islands outside AON reset, and the link PA turns off within 25 µs. -/
  | nresetAccepted (widthNs : Nat)
  /-- NRESET_RELEASE (R89). The rising edge of an accepted nRESET, or the end of a pending settings-store write, starts reset sequencing without the strap read or the reload. -/
  | nresetRelease (b : BootInputs)
  /-- ISLAND_CLOCK_GOOD (R74). An island's clock-good signal opens the gate on its reset release. -/
  | islandClockGood (i : Nat)
  /-- ISLAND_HELD (R75). An island whose clock is not good within 5 ms of its release stays in reset and is marked in ISLANDS_HELD. -/
  | islandHeld (i : Nat)
  /-- SEQUENCE_REPEAT (R76). If I1, I5, I6 or I11 is held, the Chuck repeats the sequence 100 ms later, and after two repeats the device halts. -/
  | sequenceRepeat (b : BootInputs)
  /-- HALT_BUS_READ (R76). While the device is halted, a two-wire read at the strap address returns the four bytes of RESET_CAUSE, and a write is NAKed. -/
  | haltBusRead (isWrite : Bool)
  /-- SELF_TEST_RERUN (R502). A failed power-up test is rerun once 100 ms later, and a second failure halts the device. -/
  | selfTestRerun (pass : Bool) (b : BootInputs)
  /-- AON_CRYSTAL_SWITCH (R93). After 1,024 good cycles of the 32.768 kHz crystal, the Chuck switches from the RC to the crystal at a cycle boundary. -/
  | aonCrystalSwitch
  /-- AON_RC_TIMEOUT (R93). With no good crystal 1.5 s after reset release, the Chuck stays on the RC and sets AON_RC. -/
  | aonRcTimeout
  /-- RAIL_GOOD (R82). A required rail rises above its good threshold, and the device starts once all required rails are good. -/
  | railGood (r : Rail)
  /-- VDD_PA_LOW (R84). VDD_PA falls below its good threshold, so the link receives but does not transmit. -/
  | vddPaLow
  /-- WAKE_HIGH (R42). WAKE is recognised high in HOLD, and the device enters IDLE and then the resume mode. -/
  | wakeHigh (widthUs : Nat)
  /-- TWO_WIRE_WAKE (R393). A transaction to the device's address in HOLD is NAKed and wakes the device. -/
  | twoWireWake
  /-- AON_ALARM (R364). The AON alarm falls due: in HOLD it wakes the device, otherwise it is cleared without effect. -/
  | aonAlarm
  /-- MODE_TRANSITION_DONE (R36). The device completes entry to the new mode, and the held SET_MODE response and any held commands follow. -/
  | modeTransitionDone
  /-- SETTINGS_COMMIT_TIMER (R50). 1 s after the last change of a run, or 5 s after its first, the settings record is written. -/
  | settingsCommitTimer
  /-- LINK_COUNTERS_SNAPSHOT (R50). Every 60 s while the link is configured, the link counters record is written. -/
  | linkCountersSnapshot
  /-- RECORD_WRITE_DONE (R54). A settings-store record write completes with its magic written, and a response that waits on it is sent. -/
  | recordWriteDone
  /-- CAL_RECORD_WRITE (R509). At most once in any 60 s, the calibration record is written with every qualified change made since the last write. -/
  | calRecordWrite
  /-- LOOP_LOSS_OF_LOCK (R95). A loop's error stays outside its lock window for 16 reference cycles, and the effects for that loop apply. -/
  | loopLossOfLock (l : Loop)
  /-- LOOP_RELOCK_ATTEMPT (R95). Every 1 ms the Chuck restarts the lock sequence of an unlocked loop. -/
  | loopRelockAttempt (l : Loop)
  /-- LOOP_RELOCK (R95). A loop regains lock, buffers drain, and HEALTH_NOTE reports the outage. -/
  | loopRelock (l : Loop) (outageUs : Nat)
  /-- KERF_BUFFER_FULL (R171). A window's Kerf input buffer fills while Kerf's clock is stopped, and the newest samples are discarded. -/
  | kerfBufferFull (w : Nat)
  /-- REF_STOP (R602). REF stops, Plumb freezes and coasts at once, and device time passes to the AON clock. -/
  | refStop
  /-- REF_RETURN (R95). REF returns, device time passes back to REF, and all loops relock. -/
  | refReturn
  /-- PPS_EDGE (R104). A PPS edge on TREF is accepted or ignored, and Plumb handles Δ by R106. -/
  | ppsEdge (rising : Bool) (sub : Int)
  /-- TEN_MHZ_WINDOW (R104). At the end of each 1 ms window with a 10 MHz reference, Plumb takes one measurement as the accepted edge. -/
  | tenMhzWindow (m : TenMhzMeas)
  /-- REFERENCE_LOST (R104). A PPS reference with no accepted edge for 2.5 s is lost, and Plumb enters COASTING. -/
  | referenceLost
  /-- PLUMB_STEP (R106). At the device-time second boundary after four agreeing edges, the counter steps by Δ, and the epoch advances. -/
  | plumbStep
  /-- TIME_SET_APPLY (R101). At the next second boundary the counter is set to S seconds, the epoch advances, and TIME_SET responds. -/
  | timeSetApply
  /-- WORD_CLOCK_LOST (R290). The host word clock has no edge for 100 µs or is off frequency, and the APLL freezes its frequency. -/
  | wordClockLost
  /-- WORD_CLOCK_LOCKED (R290). The APLL locks to the host word clock on WCLK_IN. -/
  | wordClockLocked
  /-- GET_IDENTITY (R361). Returns the device identity, grade, release, image, host configuration, build, serial and rollback counter. -/
  | getIdentity (f : CmdFrame)
  /-- SET_MODE (R34). Starts a permitted mode transition and responds once the new mode is entered. -/
  | setMode (f : CmdFrame)
  /-- FACTORY_DEFAULTS (R61). Writes an empty plan and shipped settings and applies them to the retained store. -/
  | factoryDefaults (f : CmdFrame)
  /-- PORT_DECLARE (R363). Sets the declared SPI and two-wire clocks and widths that admission uses. -/
  | portDeclare (f : CmdFrame)
  /-- GET_PORT_DECLARE (R363). Returns the port declarations in force. -/
  | getPortDeclare (f : CmdFrame)
  /-- ALARM_SET (R364). Sets the AON alarm as a device-time second. -/
  | alarmSet (f : CmdFrame)
  /-- GET_ALARM (R364). Returns the AON alarm setting. -/
  | getAlarm (f : CmdFrame)
  /-- ECHO (R355). Returns its payload unchanged. -/
  | echo (f : CmdFrame)
  /-- UNASSIGNED_OPCODE (R355). A command frame with an opcode that release 1.4 does not assign is answered MALFORMED with detail 1. -/
  | unassignedOpcode (opcode : Nat) (f : CmdFrame)
  /-- TIME_CONFIG (R365). Sets the timing reference, APLL source, TREF offset and the per-port D_ext. -/
  | timeConfig (f : CmdFrame)
  /-- GET_TIME_CONFIG (R365). Returns the time configuration applied. -/
  | getTimeConfig (f : CmdFrame)
  /-- TIME_SET (R366). Requests that device time be set to a whole number of seconds at the next second boundary. -/
  | timeSet (f : CmdFrame)
  /-- WINDOW_OPEN (R120). Opens a window on a tuner chosen by R605, or holds the open behind a close in progress. -/
  | windowOpen (f : CmdFrame)
  /-- WINDOW_OPEN_DONE (R120). Kerf accepts the window's first samples, and WINDOW_OPEN responds. -/
  | windowOpenDone (w : Nat)
  /-- WINDOW_RETUNE (R121). Starts the retune steps for a changed port, width or LO. -/
  | windowRetune (f : CmdFrame)
  /-- RETUNE_DONE (R121). Kerf accepts samples at the new LO, the chains restart with GAP_BEFORE, and the retune responds. -/
  | retuneDone (w : Nat)
  /-- WINDOW_CLOSE (R124). Stops the window's samples, uncovers its receptions and starts the gain ramp-down. -/
  | windowClose (f : CmdFrame)
  /-- WINDOW_CLOSED (R124). The close ramp ends, the tuner enters WARM, and WINDOW_CLOSED is posted with held commands then handled. -/
  | windowClosed (w : Nat)
  /-- LINGER_EXPIRY (R124). A WARM tuner's linger time ends and the tuner goes OFF. -/
  | lingerExpiry (t : Nat)
  /-- GET_WINDOW (R148). Returns the window's applied settings, state, powers and counts. -/
  | getWindow (f : CmdFrame)
  /-- WINDOW_GANG (R134). Makes a free tuner the diversity partner of an open window. -/
  | windowGang (f : CmdFrame)
  /-- WINDOW_UNGANG (R137). Ends ganging and removes the window's diversity branches. -/
  | windowUngang (f : CmdFrame)
  /-- LNA_CONFIG (R131). Assigns the LNA enables to ports, with polarity, declared gain and bypass loss. -/
  | lnaConfig (f : CmdFrame)
  /-- GET_LNA_CONFIG (R369). Returns the LNA configuration. -/
  | getLnaConfig (f : CmdFrame)
  /-- TUNER_FAILURE (R138). A tuner's synthesiser cannot lock within 1 ms, or its ADC or island fails, and its window is handed over or marked FAILED. -/
  | tunerFailure (t : Nat)
  /-- FAILED_WINDOW_REOPEN (R606). A window marked FAILED opens by R605 once a tuner becomes WARM or OFF. -/
  | failedWindowReopen (w : Nat)
  /-- AGC_UPDATE (R127). The tuner AGC reduces gain on clipping or raises it by up to 0.5 dB per 10 ms, compensated in Kerf. -/
  | agcUpdate (w : Nat) (m : AgcMeas)
  /-- LNA_BYPASS (R132). After 100 ms at minimum gain and clipping, the external amplifier is bypassed and compensated. -/
  | lnaBypass (n : Nat)
  /-- LNA_RETURN (R132). After 2 s with 10 dB of gain headroom on every tuner of the port, the external amplifier returns to service. -/
  | lnaReturn (n : Nat)
  /-- AGC_FREEZE_CAP (R145). 50 ms into a link transmission, the frozen tuner AGCs resume running. -/
  | agcFreezeCap
  /-- SURVEY_CONFIG (R251). Sets up to 8 survey bands, passes and threshold. -/
  | surveyConfig (f : CmdFrame)
  /-- GET_SURVEY_CONFIG (R251). Returns the survey configuration. -/
  | getSurveyConfig (f : CmdFrame)
  /-- SURVEY_LIST (R370). Returns entries of the survey list. -/
  | surveyList (f : CmdFrame)
  /-- SURVEY_SPECTRUM_DONE (R252). After 200 ms of spectrum measurement, candidates are found and confirmation chains start. -/
  | surveySpectrumDone (pts : List SurveyPoint)
  /-- SURVEY_DWELL_END (R252). A candidate's dwell ends and it yields entries if acquired, or is counted as rejected. -/
  | surveyDwellEnd (c : Nat) (r : SurveyFind)
  /-- SURVEY_PASS_END (R253). A pass ends with a summary entry, and either the next pass starts or SURVEY_DONE is posted and the windows close. -/
  | surveyPassEnd
  /-- RECEPTION_ADD (R371). Creates a reception with its chain and options, and for AM and FM also its programme. -/
  | receptionAdd (f : CmdFrame)
  /-- RECEPTION_SET (R371). Changes a reception's window, chain block or options. -/
  | receptionSet (f : CmdFrame)
  /-- RECEPTION_REMOVE (R210). Starts removing a reception, its programmes and its follow object. -/
  | receptionRemove (f : CmdFrame)
  /-- RECEPTION_REMOVED (R336). A reception's shut-down ends, its resources are released, and RECEPTION_REMOVED is posted. -/
  | receptionRemoved (r : Nat)
  /-- GET_RECEPTION (R372). Returns the reception's applied settings and state. -/
  | getReception (f : CmdFrame)
  /-- BRANCH_ADD (R373). Adds a diversity branch to a reception on a ganged window. -/
  | branchAdd (f : CmdFrame)
  /-- BRANCH_REMOVE (R336). Starts removing a diversity branch. -/
  | branchRemove (f : CmdFrame)
  /-- TAP_ADD (R373). Creates a raw sub-band tap on a window. -/
  | tapAdd (f : CmdFrame)
  /-- TAP_REMOVE (R336). Starts removing a raw tap. -/
  | tapRemove (f : CmdFrame)
  /-- OBJECT_REMOVED (R336). A probe, tap, branch, follow object, blend pair or PCM output finishes shutting down and OBJECT_REMOVED is posted. -/
  | objectRemoved (cls : ObjClass) (i : Nat)
  /-- GET_CHAIN (R176). Returns the status of an object's chain. -/
  | getChain (f : CmdFrame)
  /-- ALERT_SET (R246). Sets a reception's alert type mask, options and cluster. -/
  | alertSet (f : CmdFrame)
  /-- GET_ALERT (R246). Returns a reception's alert settings. -/
  | getAlert (f : CmdFrame)
  /-- CHAIN_BLOCK (R167). A chain completes a block of up to 256 samples with time-stamp, flags and exponent, and writes any IQ Shaving. -/
  | chainBlock (o : ChainOwner) (b : ChainIn)
  /-- SETTLE_COUNT_DONE (R165). A chain's settle count of UNSETTLED outputs ends, and it enters RUNNING. -/
  | settleCountDone (o : ChainOwner)
  /-- CHAIN_BANK_CHANGED (R162). At the next block boundary a chain stops, takes its new bank, restarts and posts CHAIN_BANK_CHANGED. -/
  | chainBankChanged (o : ChainOwner)
  /-- DELAY_CHANGE_APPLY (R173). At the next block boundary a chain's programmed delay change takes effect. -/
  | delayChangeApply (o : ChainOwner)
  /-- FREQUENCY_CHANGE_APPLY (R174). At the next block boundary a chain restarts on its new sub-band and NCO setting. -/
  | frequencyChangeApply (o : ChainOwner)
  /-- RECEPTION_ACQUIRED (R182). A searching reception meets its acquisition conditions, enters ACQUIRED and posts RECEPTION_ACQUIRED. -/
  | receptionAcquired (r : Nat)
  /-- RECEPTION_LOST (R182). An acquired reception's carrier-to-noise stays below threshold less 3 dB for its time, and it returns to SEARCHING. -/
  | receptionLost (r : Nat)
  /-- TRACKING_HOLD_EXPIRY (R184). The tracking hold elapses with no settled output, and the reception goes to SEARCHING with cause 1. -/
  | trackingHoldExpiry (r : Nat)
  /-- PILOT_DECISION (R194). An FM reception is decided STEREO or mono by its pilot. -/
  | pilotDecision (r : Nat)
  /-- SYNC_LOOP_FALLBACK (R192). A synchronous AM loop unlocked for 100 ms cross-fades the audio to the envelope detector. -/
  | syncLoopFallback (r : Nat)
  /-- SYNC_LOOP_RESTORE (R192). A synchronous AM loop locked again for 200 ms cross-fades the audio back. -/
  | syncLoopRestore (r : Nat)
  /-- MPX_SHAVING (R197). An FM reception completes an MPX Shaving of up to 960 samples. -/
  | mpxShaving (r : Nat)
  /-- RDS_BLOCK (R199). An RDS stream completes a 26-bit block, corrected and flagged, and gains or loses synchronisation. -/
  | rdsBlock (r : Nat) (stream : Nat)
  /-- MEASUREMENT_INTERVAL_END (R202). A measured programme's interval ends, and its measurement record is produced. -/
  | measurementIntervalEnd (p : Nat)
  /-- MOMENTARY_LOUDNESS (R205). Every 100 ms of audio a momentary loudness value is computed, and silence that has ended is reported. -/
  | momentaryLoudness (p : Nat)
  /-- SILENCE_BEGAN (R205). Momentary loudness stays below the threshold for the silence time, and PROGRAMME_SILENCE with state 1 is posted. -/
  | silenceBegan (p : Nat)
  /-- DAB_CIF (R241). A DAB reception completes a CIF period, checks its FIBs, writes a FIG Shaving and judges acquisition. -/
  | dabCif (r : Nat) (c : DabCif)
  /-- DRM_FRAME (R245). A DRM reception completes a transmission frame, checks its FAC and writes a FAC Shaving. -/
  | drmFrame (r : Nat) (d : DrmFrame)
  /-- DRM_SUPERFRAME (R245). A DRM reception completes a superframe and writes an SDC Shaving. -/
  | drmSuperframe (r : Nat) (d : DrmSuper)
  /-- CONTROL_CHANNEL_TIMEOUT (R224). No FIB passes for 2 s, or 10 FAC blocks or 10 frame syncs fail, and the digital reception is lost. -/
  | controlChannelTimeout (r : Nat)
  /-- DECODE_RESUMED (R214). Enough GU become free, and a suspended decode resumes. -/
  | decodeResumed (p : Nat)
  /-- RECEPTION_RECONFIGURED (R222). A multiplex reconfiguration takes effect at its announced CIF count or superframe. -/
  | receptionReconfigured (r : Nat)
  /-- PROGRAMME_ABSENT_EXPIRY (R210). A programme ABSENT for 60 s is removed, and PROGRAMME_REMOVED is posted. -/
  | programmeAbsentExpiry (p : Nat)
  /-- TRANSPORT_UNIT (R229). An MP2 frame, DAB+ superframe or DRM audio superframe is decoded, concealed if it failed, and delivered. -/
  | transportUnit (p : Nat) (u : TransportIn)
  /-- MOT_IDLE_EXPIRY (R243). A MOT object with no new segment for 60 s is abandoned. -/
  | motIdleExpiry (p : Nat) (tid : Nat)
  /-- PROGRAMME_SELECT (R374). Selects or deselects a programme for decoding, by handle or as a standing selection. -/
  | programmeSelect (f : CmdFrame)
  /-- PROGRAMME_MEASURE (R375). Turns a programme's measurement on or off and sets its interval and silence settings. -/
  | programmeMeasure (f : CmdFrame)
  /-- GET_PROGRAMME (R376). Returns a programme's identity and its selection and measurement state. -/
  | getProgramme (f : CmdFrame)
  /-- PROGRAMME_LIST (R359). Returns the handles of a reception's programmes. -/
  | programmeList (f : CmdFrame)
  /-- PCM_ROUTE (R283). Creates or changes a PCM output's source, port, slots, mode and gain. -/
  | pcmRoute (f : CmdFrame)
  /-- PCM_REMOVE (R336). Starts removing a PCM output. -/
  | pcmRemove (f : CmdFrame)
  /-- GET_PCM (R377). Returns a PCM output's settings, start depth and underruns. -/
  | getPcm (f : CmdFrame)
  /-- TDM_CONFIG (R287). Requests a new configuration of one TDM or I²S port. -/
  | tdmConfig (f : CmdFrame)
  /-- TDM_CONFIG_APPLY (R287). After the outputs fade out, the port takes its new configuration at a frame boundary and fades back in. -/
  | tdmConfigApply (port : Nat)
  /-- GET_TDM_CONFIG (R377). Returns one port's TDM configuration. -/
  | getTdmConfig (f : CmdFrame)
  /-- PCM_UNDERRUN (R285). An output FIFO underruns, the output fades to silence, and its start depth rises by 1 ms. -/
  | pcmUnderrun (o : Nat)
  /-- PCM_FIFO_REFILLED (R285). An output FIFO reaches its start depth, and playing starts or fades back in. -/
  | pcmFifoRefilled (o : Nat)
  /-- PCM_SHAVING (R286). A bound PCM output completes a Shaving of up to 240 frames. -/
  | pcmShaving (o : Nat)
  /-- FOLLOWER_PORT_LOST (R289). A follower port sees no FS for 3 frames or a bad rate, and stops its outputs. -/
  | followerPortLost (port : Nat) (m : FollowerMeas)
  /-- FOLLOWER_PORT_RESUME (R289). After 16 good frames a follower port resumes with a 10 ms fade-in. -/
  | followerPortResume (port : Nat) (good : Nat)
  /-- RING_BIND (R378). Binds or unbinds an object's output to a ring and charges its planned rate. -/
  | ringBind (f : CmdFrame)
  /-- GET_BIND (R378). Returns an output's binding and planned rate. -/
  | getBind (f : CmdFrame)
  /-- GET_PORT_LOAD (R28). Returns each host port's planned rate and budget. -/
  | getPortLoad (f : CmdFrame)
  /-- FOLLOW_SET (R256). Creates or changes a follow object. -/
  | followSet (f : CmdFrame)
  /-- FOLLOW_REMOVE (R336). Starts removing a follow object. -/
  | followRemove (f : CmdFrame)
  /-- GET_FOLLOW (R274). Returns a follow object's header and candidate entries. -/
  | getFollow (f : CmdFrame)
  /-- PROBE_ADD (R261). Creates a fixed or attached probe with its chain. -/
  | probeAdd (f : CmdFrame)
  /-- PROBE_SET (R379). Changes a probe in place. -/
  | probeSet (f : CmdFrame)
  /-- PROBE_REMOVE (R336). Starts removing a probe. -/
  | probeRemove (f : CmdFrame)
  /-- GET_PROBE (R274). Returns the probe's current candidate entry. -/
  | getProbe (f : CmdFrame)
  /-- BLEND_SET (R275). Creates or changes a blend pair. -/
  | blendSet (f : CmdFrame)
  /-- BLEND_REMOVE (R379). Starts removing a blend pair, and ends any fade at once on the incoming branch. -/
  | blendRemove (f : CmdFrame)
  /-- BLEND_FADE (R279). Requests a fade to a named branch. -/
  | blendFade (f : CmdFrame)
  /-- GET_BLEND (R281). Returns a blend pair's settings and state. -/
  | getBlend (f : CmdFrame)
  /-- GAUGE_METRIC (R266). Every 100 ms Gauge updates each arrival's metric and decides on loss or quality switches. -/
  | gaugeMetric (fo : Nat) (m : List GaugeIn)
  /-- RETARGET (R270). At the next block boundary of both chains, the probe's and the reception's chains exchange. -/
  | retarget (fo : Nat)
  /-- PROBE_DWELL_END (R263). An attached probe's dwell ends, and it moves to the next captured candidate. -/
  | probeDwellEnd (pr : Nat)
  /-- GLANCE_END (R264). A glance's dwell ends, and its tuner is released through the close ramp. -/
  | glanceEnd (fo : Nat)
  /-- CANDIDATE_EXPIRY (R259). A learned candidate not signalled for 600 s is dropped. -/
  | candidateExpiry (fo : Nat) (freq : Nat) (kind : Kind)
  /-- REJECTION_EXPIRY (R262). 300 s after rejection a candidate may be probed again. -/
  | rejectionExpiry (fo : Nat) (freq : Nat) (kind : Kind)
  /-- SCARF_CORRELATION (R276). Every 500 ms Scarf measures the offset between branches and updates alignment. -/
  | scarfCorrelation (b : Nat)
  /-- FADE_END (R278). A Scarf fade ends, held requests and held chain changes apply, and draining begins. -/
  | fadeEnd (b : Nat)
  /-- DRAIN_DONE (R280). The delay line reaches 0, and the pair shows ALIGNED. -/
  | drainDone (b : Nat)
  /-- BUILD_DONE (R280). The delay line holds the full offset, and the held fade starts. -/
  | buildDone (b : Nat)
  /-- ALIGNMENT_WAIT_EXPIRY (R279). A request waiting while UNALIGNED fades after the alignment wait with the last known offset. -/
  | alignmentWaitExpiry (b : Nat)
  /-- BANK_LOAD (R159). Loads a user coefficient bank for a kind, with a new generation. -/
  | bankLoad (f : CmdFrame)
  /-- GET_BANK (R157). Returns a bank's kind and coefficients. -/
  | getBank (f : CmdFrame)
  /-- CURVE_LOAD (R282). Loads a user curve table. -/
  | curveLoad (f : CmdFrame)
  /-- GET_CURVE (R282). Returns a curve table. -/
  | getCurve (f : CmdFrame)
  /-- CAL_RUN (R380). Triggers the named calibrations on the named targets, and responds when the last run ends. -/
  | calRun (f : CmdFrame)
  /-- CAL_CONFIG (R381). Sets the calibration temperature step ΔT. -/
  | calConfig (f : CmdFrame)
  /-- GET_CAL (R525). Returns the calibration state of each ADC. -/
  | getCal (f : CmdFrame)
  /-- GET_AGEING (R531). Returns Grain's margin, degradation and plan. -/
  | getAgeing (f : CmdFrame)
  /-- SUPPLY_CONFIG (R530). Sets the adaptive supply output option, PMIC, settle time, ceiling and floor. -/
  | supplyConfig (f : CmdFrame)
  /-- GET_SUPPLY_CONFIG (R530). Returns the supply configuration. -/
  | getSupplyConfig (f : CmdFrame)
  /-- TEMPERATURE_COMPARISON (R511). Every 1 s each ADC's island temperature is compared with its reference and triggers runs beyond ΔT.
  The operands are the readings of the sensors of islands 0 to 16. -/
  | temperatureComparison (temps : List Int)
  /-- PENDING_RUN_START (R513). A pending run starts within 1 s after its window opens, or when the previous element selection allows. -/
  | pendingRunStart (a : Nat)
  /-- ELEMENT_STATISTICS_DONE (R517). 200 ms of code density is collected, and the run either qualifies and interrupts the ADC or is unqualified. -/
  | elementStatisticsDone (a : Nat) (m : ElemStats)
  /-- ELEMENT_INTERRUPTION_END (R517). The element selection interruption ends, the new choice takes effect, and the window resumes with GAP_BEFORE. -/
  | elementInterruptionEnd (a : Nat)
  /-- FADE_DEFER_EXPIRY (R520). An interruption deferred by a fade runs after 2 s. -/
  | fadeDeferExpiry (a : Nat)
  /-- CAL_RETRY (R514). 60 s after an unqualified run, a statistics-only retry runs. -/
  | calRetry (a : Nat)
  /-- IQ_ESTIMATE (R521). Every 1 s, or on a trigger, 40 ms of data give an IQ estimate that sets a new correction target. -/
  | iqEstimate (a : Nat) (m : IqEst)
  /-- IQ_RAMP_END (R521). The 100 ms IQ correction ramp reaches its target. -/
  | iqRampEnd (a : Nat)
  /-- ALIGNMENT_STEP (R523). An alignment line moves 1/256 tick toward its new setting, at most once per 1 ms. -/
  | alignmentStep (a : Nat) (m : AlignMeas)
  /-- GRAIN_ASSESSMENT (R527). Every 24 h of operation and at power-on reset, Grain assesses degradation and re-plans. -/
  | grainAssessment (m : GrainMeas)
  /-- AVS_RAISE (R526). Margin below 8 % raises VDD_CORE by 5 mV, repeated every 1 ms. -/
  | avsRaise (margins : List Int)
  /-- AVS_LOWER (R526). Margin above 12 % for 10 s lowers VDD_CORE by 5 mV. -/
  | avsLower (margins : List Int)
  /-- CLOCK_PLAN_CHANGE (R528). The reduced dividers take effect at the next IDLE, HOLD or reset, or 7 days after the assessment. -/
  | clockPlanChange
  /-- LINK_CONFIG (R406). Sets the link role, identity, power and detection settings, stopping the link on an identity change. -/
  | linkConfig (f : CmdFrame)
  /-- GET_LINK_CONFIG (R440). Returns the link configuration applied. -/
  | getLinkConfig (f : CmdFrame)
  /-- LINK_SEND (R462). Queues a link frame with the next frame counter. -/
  | linkSend (f : CmdFrame)
  /-- LINK_STOP (R433). Drops queued frames, abandons reception, and sends the radio to SLEEP after any frame on air. -/
  | linkStop (f : CmdFrame)
  /-- LINK_STOPPED (R433). The link radio is down, LINK_STOPPED is posted, and held commands are handled. -/
  | linkStopped
  /-- GATHER_CONFIG (R447). Sets the superframe, slot, freshness and channel configuration. -/
  | gatherConfig (f : CmdFrame)
  /-- GATHER_CONFIG_APPLY (R447). A gather configuration change takes effect at the next superframe boundary. -/
  | gatherConfigApply
  /-- GET_GATHER_CONFIG (R447). Returns the gather configuration. -/
  | getGatherConfig (f : CmdFrame)
  /-- GET_LINK_STATS (R477). Returns the link statistics. -/
  | getLinkStats (f : CmdFrame)
  /-- BEACON_TRANSMIT (R448). At T0 of each superframe a gatherer sends its beacon with tags, or drops it for duty cycle. -/
  | beaconTransmit
  /-- BEACON_WINDOW_OPEN (R454). A SYNCED node starts listening for the beacon at T0 less its guard, or enters LOST when g would exceed 500 ms. -/
  | beaconWindowOpen
  /-- BEACON_MISSED (R454). The beacon window ends without a qualified beacon. -/
  | beaconMissed
  /-- SEARCH_WINDOW (R455). A LOST node opens a doubling search window around the estimated T0. -/
  | searchWindow
  /-- FRAME_QUALIFIED (R422). A detector or watch lane qualifies a candidate from preamble and sync pair, and capture rules apply. -/
  | frameQualified (lane : Nat) (c : LinkCand)
  /-- HEADER_CHECK (R424). At the end of the last header symbol the header is checked and the frame kept or abandoned. -/
  | headerCheck (lane : Nat) (sl : Nat) (bits : List Bool)
  /-- FRAME_RECEIVED (R424). A frame's body is decoded and checked, then handled by the gatherer or node checks. -/
  | frameReceived (lane : Nat) (sl : Nat) (m : LinkRx)
  /-- SLOT_TRANSMIT (R457). A SYNCED node starts its frame at the hashed slot on the hashed channel. -/
  | slotTransmit
  /-- FALLBACK_TRANSMIT (R460). A LOST node sends a frame in a hop slot on the hop channel. -/
  | fallbackTransmit
  /-- DOWNLINK_TRANSMIT (R466). A gatherer sends queued downlinks back to back in the downlink window. -/
  | downlinkTransmit
  /-- RADIO_TRANSITION_DONE (R429). A link radio state transition completes, and a held transmission starts within its guard or is deferred. -/
  | radioTransitionDone
  /-- TRANSMIT_KILL (R547). A transmission running 10 ms past its airtime, or a watchdog expiry, cuts the PA within 50 µs. -/
  | transmitKill
  /-- RECENT_FRAME_EXPIRY (R472). A recent-frames entry is removed W + 9 superframes after it entered. -/
  | recentFrameExpiry
  /-- RING28_ENTRY_TAKEN (R468). A host link frame entry is taken from ring 28 into the transmit queue, or discarded. -/
  | ring28EntryTaken
  /-- KEY_INSTALL (R485). Unwraps and installs a key into a slot. -/
  | keyInstall (f : CmdFrame)
  /-- KEY_ZEROISE (R488). Zeroises the named key slots. -/
  | keyZeroise (f : CmdFrame)
  /-- FW_UPDATE_BEGIN (R497). Chooses the target image slot and starts staging. -/
  | fwUpdateBegin (f : CmdFrame)
  /-- FW_UPDATE_PART (R497). Writes image data into the target slot. -/
  | fwUpdatePart (f : CmdFrame)
  /-- FW_UPDATE_COMMIT (R497). Verifies and validates the staged image, or raises the rollback counter. -/
  | fwUpdateCommit (f : CmdFrame)
  /-- REGION_PROFILE_INSTALL (R499). Verifies and installs a regulatory profile. -/
  | regionProfileInstall (f : CmdFrame)
  /-- TEST_UNLOCK (R504). Checks a signed TEST unlock token against serial and challenge. -/
  | testUnlock (f : CmdFrame)
  /-- GET_SECURITY (R506). Returns the Mortise status. -/
  | getSecurity (f : CmdFrame)
  /-- ENTROPY_TEST_FAILURE (R503). A continuous entropy test fails, the Mortise enters its error state, and the link stops. -/
  | entropyTestFailure
  /-- DRBG_RESEED (R500). After 2^20 requests the DRBG is reseeded. -/
  | drbgReseed
  /-- BUS_XFER (R399). Queues a controller transfer on the two-wire bus or configures attention messages. -/
  | busXfer (f : CmdFrame)
  /-- CONTROLLER_TRANSFER_END (R400). A controller transfer ends with a result, and BUS_XFER responds. -/
  | controllerTransferEnd (r : BusResult)
  /-- GPIO_CONFIG (R382). Sets one GPIO ball's function, level and pull. -/
  | gpioConfig (f : CmdFrame)
  /-- GET_GPIO (R382). Returns GPIO levels and configurations. -/
  | getGpio (f : CmdFrame)
  /-- PLAN_BEGIN (R348). Discards any staged plan and opens staging with a new stage number. -/
  | planBegin (f : CmdFrame)
  /-- PLAN_PART (R348). Stores one part of the staged plan data. -/
  | planPart (f : CmdFrame)
  /-- PLAN_COMMIT (R350). Checks, admits and applies the staged plan, or the active plan as it stands. -/
  | planCommit (f : CmdFrame)
  /-- PLAN_DISCARD (R348). Empties the staging area. -/
  | planDiscard (f : CmdFrame)
  /-- GET_PLAN (R383). Returns the active plan rendered as plan entries. -/
  | getPlan (f : CmdFrame)
  /-- RING_POP (R298). Returns the entry at HEAD of a device-produced ring with its length and consumes it if read whole. -/
  | ringPop (port : Nat) (ring : Nat) (clocked : Nat)
  /-- RING_PUSH (R299). Accepts one whole entry into a host-produced ring, or discards it with BUSY or PUSH_MALFORMED. -/
  | ringPush (port : Nat) (ring : Nat) (bytes : List Byte) (ending : PushEnd)
  /-- STATUS (R297). Returns the SPI or two-wire status byte. -/
  | status (port : Nat)
  /-- BARE_READ (R390). A two-wire read without instruction pops ring 10 if it holds an entry, otherwise ring 6. -/
  | bareRead (clocked : Nat)
  /-- TWO_WIRE_STUCK_TIMEOUT (R392). SCL low for 25 ms in a transaction makes the device release SDA and abandon it. -/
  | twoWireStuckTimeout
  /-- REG_WRITE (R301). An aligned 32-bit write to a register that has no row of its own is applied per its field access. -/
  | regWrite (port : Nat) (off : Nat) (val : W32) (nbytes : Nat)
  /-- DT_LO_READ (R102). A read of DT_LO latches DT_HI and TIME_STATUS into the port's shadows. -/
  | dtLoRead (port : Nat) (wide : Bool)
  /-- DT_HI_READ (R102). A read of DT_HI returns and consumes its waiting shadow, or the live value. -/
  | dtHiRead (port : Nat)
  /-- TIME_STATUS_READ (R102). A read of TIME_STATUS returns and consumes its waiting shadow, or the live value. -/
  | timeStatusRead (port : Nat)
  /-- INT_CLEAR (R320). Writing 1s to INT_CLEAR clears the matching INT_STATUS bits. -/
  | intClear (mask : W32)
  /-- DOORBELL (R322). Writing a DOORBELL bit makes the device fetch from that host-produced ring. -/
  | doorbell (mask : W32)
  /-- HEAD_WRITE (R305). The host writes the HEAD it owns on a PCIe ring, or is refused with POINTER_ERROR. -/
  | headWrite (port : Nat) (ring : Nat) (val : W32)
  /-- TAIL_WRITE (R305). The host writes the TAIL it owns on a PCIe ring, or is refused with POINTER_ERROR or BUSY. -/
  | tailWrite (port : Nat) (ring : Nat) (val : W32)
  /-- RING_ENABLE_WRITE (R304). Setting or clearing ENABLE puts a ring in or out of service. -/
  | ringEnableWrite (port : Nat) (ring : Nat) (policy : W32)
  /-- QUOTA_WRITE (R311). A QUOTA write is clamped and applied, and staged excess is dropped by policy. -/
  | quotaWrite (port : Nat) (ring : Nat) (val : W32)
  /-- RING_STATUS_CLEAR (R303). W1C writes clear BUSY, POINTER_ERROR or DROPPED with DROP_COUNT. -/
  | ringStatusClear (ring : Nat) (val : W32)
  /-- FETCH_TIMER (R322). 1 ms after a TAIL write without a doorbell the device fetches the ring. -/
  | fetchTimer (ring : Nat)
  /-- HOST_RING_FETCH_DONE (R310). A fetch of a host-produced PCIe ring entry completes, and the device takes it and advances HEAD. -/
  | hostRingFetchDone (ring : Nat) (bytes : List Byte)
  /-- STAGED_ENTRY_DMA (R312). A staged entry moves to the PCIe host buffer when it fits, and TAIL advances. -/
  | stagedEntryDma (ring : Nat)
  /-- RING_DISABLE_DRAINED (R304). Once every DMA write of a disabled PCIe ring completes, ENABLED falls. -/
  | ringDisableDrained (ring : Nat)
  /-- INT_TIMEOUT (R320). The oldest unnotified entry waits TIMEOUT × 100 µs, and the ring's INT_STATUS bit sets. -/
  | intTimeout (ring : Nat)
  /-- PCIE_RINGS_DISABLED (R295). Hot reset, link down or Bus Master Enable cleared disables every PCIe ring. -/
  | pcieRingsDisabled (cause : PcieDown)
  /-- BUS_MASTER_ENABLE (R295). The host sets Bus Master Enable, and DMA begins for enabled PCIe rings. -/
  | busMasterEnable
  /-- PCIE_RETRAIN (R29). The PCIe link retrains to a lower generation or width, and the new budget is reported. -/
  | pcieRetrain (gen : Nat) (width : Nat)
  /-- ATTENTION_MESSAGE (R398). When a ring mask bit rises and the bus is free, the device sends an attention message. -/
  | attentionMessage
  /-- ATTENTION_RETRY (R398). A NAKed attention message is sent again every 1 ms. -/
  | attentionRetry
  /-- ATTENTION_REPEAT (R398). While the mask is not 0, an acknowledged attention message repeats every 100 ms. -/
  | attentionRepeat
  /-- SUPPLY_WRITE (R396). The device writes VOUT_COMMAND to the PMIC to set VDD_CORE. -/
  | supplyWrite (r : BusResult)
  /-- SUPPLY_WRITE_RETRY (R396). After three NAKed supply writes the device retries every 1 s. -/
  | supplyWriteRetry
  /-- BUS_NOT_FREE_TIMEOUT (R395). A controller transfer that cannot start within 100 ms ends with result 6. -/
  | busNotFreeTimeout
  /-- BUS_RECOVERY_REPEAT (R402). After BUS_STUCK, recovery repeats every 1 s until SDA is released. -/
  | busRecoveryRepeat (pulses : Nat)
  /-- WATCHDOG_EXPIRY (R66). The Headstock watchdog expires, Gokixel restarts, and the PA turns off. -/
  | watchdogExpiry
  /-- HEADSTOCK_FAULT (R544). A Headstock exception or uncorrectable ECC error restarts Gokixel. -/
  | headstockFault (ecc : Bool)
  /-- FIRMWARE_RESTARTED (R354). Gokixel finishes restarting, answers RESTARTED, and posts FIRMWARE_RESTARTED. -/
  | firmwareRestarted
  /-- RESTART_DELAY_EXPIRY (R546). After 4 restarts in 60 s, a further restart waits at least 1 s after the previous one. -/
  | restartDelayExpiry
  /-- RESTART_SPACING_END (R546). 60 s without a restart ends the spacing. -/
  | restartSpacingEnd
  /-- ENGINE_PROGRESS_CHECK (R533). Every 1 ms the Headstock checks engine progress and declares a stalled engine failed. -/
  | engineProgressCheck (stalled : BitVec 16) (ecc : BitVec 16)
  /-- CONTEXT_SNAPSHOT (R534). Contexts are snapshotted to Timber at least every 10 ms. -/
  | contextSnapshot
  /-- TIMBER_SCRUB (R540). The scrub engine reads and corrects every Timber word once every 64 s. -/
  | timberScrub (words : List Nat)
  /-- TIMBER_ECC_ERROR (R541). An ECC error is found, corrected or poisoned, and the row may be spared. -/
  | timberEccError (word : Nat) (holds : TimberUse) (bad : Bool)
  /-- BLOCK_FAULT (R543). An uncorrected fault in a unit without spare stops work that depends on it. -/
  | blockFault (island : Nat)
  /-- HEALTH_LOG_DELIVERY (R549). 1 s after its first occurrence a merged health-log entry is delivered. -/
  | healthLogDelivery
  /-- CONTROL_TUNE (R559). In COMPAT, writing CONTROL.TUNE applies TUNE_FREQ and BANDWIDTH with the LO placement rule. -/
  | controlTune
  /-- CONTROL_POWER_DOWN (R557). In COMPAT, writing CONTROL.POWER_DOWN enters HOLD by SET_MODE. -/
  | controlPowerDown
  /-- CONTROL_DEFAULTS (R557). In COMPAT, writing CONTROL.DEFAULTS runs FACTORY_DEFAULTS. -/
  | controlDefaults
  /-- UPDATE_KEY_UPDATE (R552). Writing 0x55 then 0xAA to UPDATE_KEY within 100 ms enters UPDATE from COMPAT. -/
  | updateKeyUpdate (gapMs : Nat)
  /-- UPDATE_KEY_ZEROISE (R552). Writing 0x5A then 0xA5 to UPDATE_KEY within 100 ms zeroises all key slots. -/
  | updateKeyZeroise (gapMs : Nat)
  /-- CH_CTRL_WRITE (R558). In COMPAT, a CH_CTRL write applies the channel's standard, frequency and service and re-places the LO. -/
  | chCtrlWrite (c : Nat) (v : Byte)
  /-- IRQ_FLAGS_WRITE (R557). In COMPAT, writing 1s to IRQ_FLAGS clears them. -/
  | irqFlagsWrite (v : Byte)
  /-- FIFO_LEVEL_READ (R557). In COMPAT, reading FIFO_LEVEL clears FIFO_OVERFLOW. -/
  | fifoLevelRead
  /-- FIFO_DATA_READ (R561). In COMPAT, reading FIFO_DATA returns the next group byte and removes the group at its twelfth byte. -/
  | fifoDataRead
  /-- COMPAT_REG_WRITE (R555). In COMPAT, a write to an emulated register with no row of its own stores the value applied. -/
  | compatRegWrite (off : Nat) (bytes : List Byte)
  /-- DOWNLINK_WINDOW_OPEN (R466). At the start of each superframe's downlink window a SYNCED node turns its receiver to the beacon channel and listens until the slot region starts. -/
  | downlinkWindowOpen
  /-- TRANSMISSION_END (R145). A link frame's airtime ends with the PA ramp-down: LINK_PA_EN goes inactive 10 µs later, the tuner AGC freeze ends 50 µs later, a last downlink copy yields its transmit report, and a held GPIO4 change applies. -/
  | transmissionEnd
  /-- VDD_PA_GOOD (R84). VDD_PA rises back above its 2.97 V good threshold, and the link may transmit again. -/
  | vddPaGood
  /-- BUS_FREE (R395). The two-wire bus becomes free after a STOP and t_BUF, or 50 µs of idle, and the highest-priority queued controller transfer or arbitration retry starts. -/
  | busFree
  /-- PCIE_LINK_TRAINED (R87). The PCIe link completes training, after power-up, a hot reset or a link-down, and PORT_STATUS reports the generation, width and budget used by admission. -/
  | pcieLinkTrained (gen : Nat) (width : Nat)
  deriving DecidableEq, Repr

end Sys2Proof
end

