-- ==== Sys2Proof/Decode.lean ====
section
/-!
DEFINITION. Decode.lean: the command that a word of the opcode table spells. The table gives no row any bits: the commands
reach the block as frames, register accesses and events, so no word spells one.
-/

namespace Sys2Proof

/-- The command that a word of `nbits` bits spells: none, since every row of the table has an empty list of fields. -/
def decodeTableWord (_nbits _w : Nat) : Option Instr := none

end Sys2Proof
end

