-- ==== Sys2Proof/Machine/State.lean ====
section
/-!
DEFINITION. State.lean: the state of the MZ7256 as plain data. Every field carries its reset value, with the rule of spec/
that names it; a value the specification does not give carries its mark and its row of the assumption log. Objects that a
command creates are lists of records, empty at reset; the defaults of their fields are the values at creation.
-/

namespace Sys2Proof.Machine

/-- The eight major modes, codes 0x0 to 0x7 (the table Major modes, R49). -/
inductive Mode where
  /-- 0x0 -/
  | idle
  /-- 0x1 -/
  | survey
  /-- 0x2 -/
  | serve
  /-- 0x3 -/
  | sentry
  /-- 0x4 -/
  | compat
  /-- 0x5 -/
  | update
  /-- 0x6 -/
  | test
  /-- 0x7 -/
  | hold
  deriving DecidableEq, Repr

/-- How far the reset sequencer has come (R72 to R76, R86 to R90). -/
inductive BootStage where
  /-- power-on reset asserted (R64) -/
  | porHeld
  /-- waiting for a required rail (R82) -/
  | waitRails
  /-- power-on work complete, every other island in reset until nRESET releases (R72) -/
  | waitNreset
  /-- waiting for I1's clock-good signal, before the two-wire bus recovery and the reload (R74, R86 step 4) -/
  | timeGated
  /-- waiting for another island's clock-good signal (R74) -/
  | gated
  /-- a required island was held; the sequence is repeated 100 ms later (R76) -/
  | retry
  /-- a Mortise power-up test failed; step 9 is rerun 100 ms later (R502) -/
  | selfTestRetry
  /-- the sequence has completed (step 13) -/
  | running
  /-- recovery boot: the resident loader runs (R90) -/
  | recovery
  /-- only the AON island runs (R76) -/
  | halted
  /-- an accepted nRESET holds the islands in reset (R67, R69) -/
  | nresetHeld
  deriving DecidableEq, Repr

/-- The RESET_CAUSE register's fields, written at the reset they describe (R91). -/
structure ResetCause where
  /-- CAUSE, 0 power-on reset (R91). -/
  cause : Nat := 0
  /-- RECOVERY (R91). -/
  recovery : Bool := false
  /-- BUS_STUCK (R91). -/
  busStuck : Bool := false
  /-- WRITE_FINISHED (R91). -/
  writeFinished : Bool := false
  /-- NRESET_COUNT, saturating at 255 (R91). -/
  nresetCount : Nat := 0
  /-- ISLANDS_HELD, bit n - 1 for island In (R91). -/
  held : BitVec 16 := 0
  deriving DecidableEq, Repr

/-- The reset sequencer, the rails, the strap reading and the islands (chapter 03). -/
structure PowerS where
  /-- Power-on reset asserted (R64). -/
  porAsserted : Bool := true
  /-- An nRESET low level is in force (R67). DESIGN CHOICE, log 1. -/
  nresetLow : Bool := false
  /-- Where the reset sequence stands (R86). -/
  stage : BootStage := .porHeld
  /-- Rails above their good threshold (R82). DESIGN CHOICE, log 1. -/
  railsGood : List Rail := []
  /-- When VDD_AON rose above 0.70 V under the power-on reset in force (R64). -/
  aonAt : Option Nat := none
  /-- STRAP bits 3:0, read at the last power-on reset (R81). DESIGN CHOICE, log 1. -/
  strapCode : Nat := 0
  /-- The strap has been read in this power-on reset (R77). -/
  strapRead : Bool := false
  /-- The retained-store reload of this power-on reset has completed (R73). -/
  reloadDone : Bool := false
  /-- I1 has been released since power-on reset, so that device time runs (R99). -/
  counting : Bool := false
  /-- Islands I0 to I16 out of reset (R74). -/
  released : BitVec 17 := 0
  /-- Clock-good signals of islands I0 to I16 (R74). DESIGN CHOICE, log 1. -/
  clockGood : BitVec 17 := 0
  /-- RESET_CAUSE (R91). -/
  rc : ResetCause := {}
  /-- Repeats of the whole sequence made for a held island (R76). -/
  attempts : Nat := 0
  /-- Reruns of step 9 made (R502). -/
  reruns : Nat := 0
  /-- The reset now sequenced is a power-on reset (R73). -/
  byPor : Bool := true
  /-- Step 12 reached: host ports open (R604). -/
  ready : Bool := false
  /-- Step 13 reached: command frames accepted (R88). -/
  commands : Bool := false
  /-- The Chuck runs on the 32.768 kHz crystal (R93). -/
  aonCrystal : Bool := false
  /-- The 1.5 s of R93 have ended or the crystal was taken (R93). -/
  aonDecided : Bool := false
  /-- The stay on the RC has been posted (R93). The model's own. -/
  aonNoted : Bool := false
  /-- AON_STATUS.WAKE_PIN (R302). DESIGN CHOICE, log 1. -/
  wakePin : Bool := false
  /-- AON_STATUS.RETAINED_OK, 0 after power-on reset (R302). -/
  retainedOk : Bool := false
  /-- When the wait the sequence is in began (R75). The model's own. -/
  stepAt : Nat := 0
  /-- When power-on reset was released (R93). The model's own. -/
  releasedAt : Nat := 0
  /-- What the outside gave the sequence now running (R86). The model's own. -/
  boot : BootInputs := {}
  deriving DecidableEq, Repr

/-- PORT_DECLARE: the declarations of R28 (R363). -/
structure PortDecl where
  /-- SCK in kHz (R363). -/
  sckKhz : Nat := 20000
  /-- SPI width (R363). -/
  spiQuad : Nat := 0
  /-- SCL in kHz (R363). -/
  sclKhz : Nat := 400
  deriving DecidableEq, Repr

/-- TIME_CONFIG (R365). -/
structure TimeConfig where
  /-- Reference: 0 none, 1 PPS rising, 2 PPS falling, 3 10 MHz (R365). DESIGN CHOICE, log 2. -/
  ref : Nat := 0
  /-- APLL source: 0 device time, 1 host word clock (R94). -/
  apll : Nat := 0
  /-- TREF offset in ns (R365). DESIGN CHOICE, log 2. -/
  trefNs : Nat := 0
  /-- D_ext of ports 0 to 6 in 0.25 ns (R365). DESIGN CHOICE, log 2. -/
  dExt : List Nat := [0, 0, 0, 0, 0, 0, 0]
  deriving DecidableEq, Repr

/-- One entry of LNA_CONFIG (R369). -/
structure LnaEntry where
  /-- Port, 0xFF none (R369). DESIGN CHOICE, log 2. -/
  port : Nat := 0xFF
  /-- 0 active high (R369). DESIGN CHOICE, log 2. -/
  polarity : Nat := 0
  /-- Declared gain in 0.5 dB (R369). DESIGN CHOICE, log 2. -/
  gain : Nat := 0
  /-- Bypass loss in 0.5 dB (R369). DESIGN CHOICE, log 2. -/
  loss : Nat := 0
  deriving DecidableEq, Repr

/-- One band of SURVEY_CONFIG (R251). -/
structure SurveyBand where
  /-- Standard, rate codes 0 to 4 (R251). -/
  kind : Nat := 0
  /-- Port (R251). -/
  port : Nat := 0
  /-- Raster in kHz (R251). -/
  raster : Nat := 0
  /-- Start in Hz (R251). -/
  start : Nat := 0
  /-- Stop in Hz (R251). -/
  stop : Nat := 0
  /-- Dwell in ms (R251). -/
  dwell : Nat := 0
  deriving DecidableEq, Repr

/-- SURVEY_CONFIG as applied (R251). -/
structure SurveyConfig where
  /-- Passes, 0 continuous (R251). DESIGN CHOICE, log 2. -/
  passes : Nat := 0
  /-- Threshold in 0.1 dB (R251). -/
  threshold : Nat := 100
  /-- The bands (R251). DESIGN CHOICE, log 2. -/
  bands : List SurveyBand := []
  deriving DecidableEq, Repr

/-- TDM_CONFIG of one port (R287). -/
structure TdmConfig where
  /-- 0 TDM, 1 I2S (R287). -/
  format : Nat := 0
  /-- 0 controller, 1 follower (R287). -/
  role : Nat := 0
  /-- FS shape (R287). -/
  fsShape : Nat := 0
  /-- FS polarity (R287). -/
  fsPolarity : Nat := 0
  /-- Data delay (R287). -/
  delay : Nat := 1
  /-- BCLK edge (R287). -/
  edge : Nat := 0
  /-- Idle slots (R287). -/
  idle : Nat := 0
  deriving DecidableEq, Repr

/-- SUPPLY_CONFIG (R530). -/
structure SupplyConfig where
  /-- 0 fixed supply, 1 PMBus (R530). -/
  output : Nat := 0
  /-- PMIC address (R530). -/
  addr : Nat := 0x60
  /-- Bus speed code (R530). -/
  speed : Nat := 1
  /-- Settle time (R530). -/
  settleMs : Nat := 2
  /-- Ceiling in mV (R530). -/
  ceiling : Nat := 850
  /-- Floor in mV (R530). -/
  floor : Nat := 650
  deriving DecidableEq, Repr

/-- LINK_CONFIG (R405). -/
structure LinkConfig where
  /-- 0 off, 1 node, 2 gatherer (R405). DESIGN CHOICE, log 2. -/
  role : Nat := 0
  /-- Uplink sweep length (R405). -/
  sl : Nat := 4
  /-- Uplink code rate (R405). -/
  rate : Nat := 0
  /-- Front-end control bits 1:0 (R405). DESIGN CHOICE, log 2. -/
  frontEnd : Nat := 0
  /-- Network ID (R405). DESIGN CHOICE, log 2. -/
  net : Nat := 0
  /-- Own ID (R405). DESIGN CHOICE, log 2. -/
  own : Nat := 1
  /-- Transmit power in 0.5 dB (R405). -/
  power : Int := 28
  /-- Front-end gain in 0.5 dB (R405). DESIGN CHOICE, log 2. -/
  feGain : Nat := 0
  /-- Detection threshold in 0.5 dB (R405). -/
  detect : Nat := 12
  /-- Capture margin in dB (R405). -/
  capture : Nat := 6
  /-- Repeat budget (R405). -/
  repeats : Nat := 3
  /-- Beacon channel in Hz (R405). DESIGN CHOICE, log 2. -/
  beacon : Nat := 410000000
  /-- External delay in 0.25 ns (R405). DESIGN CHOICE, log 2. -/
  extDelay : Nat := 0
  deriving DecidableEq, Repr

/-- A link channel: a centre and a sweep width (R407). -/
structure LinkChannel where
  /-- Centre in Hz (R447). DESIGN CHOICE, log 2. -/
  centre : Nat := 410000000
  /-- 0 150 kHz, 1 300 kHz, 2 600 kHz (R447). DESIGN CHOICE, log 2. -/
  width : Nat := 1
  deriving DecidableEq, Repr

/-- GATHER_CONFIG (R447). -/
structure GatherConfig where
  /-- Superframe exponent (R447). -/
  p : Nat := 6
  /-- Freshness window (R447). -/
  w : Nat := 2
  /-- Slot count M (R447). DESIGN CHOICE, log 2. -/
  slots : Nat := 1
  /-- Slot length (R447). DESIGN CHOICE, log 2. -/
  slotMs : Nat := 10
  /-- Slot region start (R447). DESIGN CHOICE, log 2. -/
  startMs : Nat := 500
  /-- Downlink window (R447). DESIGN CHOICE, log 2. -/
  downMs : Nat := 0
  /-- Group addresses (R447). DESIGN CHOICE, log 2. -/
  groups : List Nat := [0, 0, 0, 0]
  /-- Channel set (R447). DESIGN CHOICE, log 2. -/
  channels : List LinkChannel := [{}]
  deriving DecidableEq, Repr

/-- GPIO_CONFIG of one ball (R382). -/
structure GpioConfig where
  /-- Function: input (R573). -/
  func : Nat := 0
  /-- Output level (R382). DESIGN CHOICE, log 2. -/
  level : Nat := 0
  /-- Pull: down (R573). -/
  pull : Nat := 2
  deriving DecidableEq, Repr

/-- The restored fields of a ring descriptor (R303, R603). -/
structure RingSettings where
  /-- SIZE (R603). -/
  size : Nat := 12
  /-- QUOTA in bytes (R603). -/
  quota : Nat := 0
  /-- DROP (R603). -/
  dropNewest : Bool := false
  /-- PORT (R603). -/
  port : Nat := 3
  /-- THRESHOLD in KB (R603). -/
  threshold : Nat := 0
  /-- TIMEOUT in 100 us (R603). -/
  timeout : Nat := 0
  /-- ENABLE (R603). -/
  enable : Bool := false
  deriving DecidableEq, Repr

/-- The restored fields of a COMPAT channel block (R557). -/
structure CompatChannel where
  /-- CH_CTRL.ENABLE (R557). -/
  enable : Bool := false
  /-- CH_CTRL.STANDARD (R557). DESIGN CHOICE, log 2. -/
  standard : Nat := 0
  /-- CH_CTRL.RDS (R557). DESIGN CHOICE, log 2. -/
  rds : Bool := false
  /-- CH_FREQ applied (R557). DESIGN CHOICE, log 2. -/
  freqKhz : Nat := 64000
  /-- CH_SERVICE (R557). DESIGN CHOICE, log 2. -/
  service : Nat := 0
  deriving DecidableEq, Repr

/-- The restored registers of the emulated OMN-T1 map (R557). -/
structure CompatSettings where
  /-- IRQ_ENABLE (R557). -/
  irqEnable : BitVec 4 := 0
  /-- TUNE_FREQ applied (R557). -/
  tuneKhz : Nat := 98000
  /-- BANDWIDTH (R557). -/
  bandwidth : Nat := 2
  /-- GAIN (R557). -/
  gain : Nat := 0xFF
  /-- AUDIO_SOURCE (R557). -/
  audio : Nat := 0xFF
  /-- PHYS_LO (R557). DESIGN CHOICE, log 2. -/
  physKhz : Nat := 98000
  /-- Channel blocks (R557). -/
  channels : List CompatChannel := [{}, {}, {}, {}]
  deriving DecidableEq, Repr

/-- The settings region of the retained store: every setting made by SET and CONFIG commands (R45). -/
structure Settings where
  /-- MODE.CURRENT, the current mode (R58). -/
  mode : Mode := .idle
  /-- MODE.RESUME (R41). -/
  resume : Mode := .idle
  /-- AON_STATUS.LAST_WAKE (R302). -/
  lastWake : Nat := 0
  /-- Port declarations (R363). -/
  ports : PortDecl := {}
  /-- AON alarm second, 0 none (R364). -/
  alarm : Nat := 0
  /-- TIME_CONFIG (R365). -/
  time : TimeConfig := {}
  /-- LNA_CONFIG (R369). -/
  lna : List LnaEntry := [{}, {}, {}, {}]
  /-- SURVEY_CONFIG (R251). -/
  survey : SurveyConfig := {}
  /-- TDM_CONFIG (R287). -/
  tdm : List TdmConfig := [{}, {}, {}, {}]
  /-- CAL_CONFIG step in degrees (R381). -/
  calStep : Nat := 6
  /-- SUPPLY_CONFIG (R530). -/
  supply : SupplyConfig := {}
  /-- LINK_CONFIG (R405). -/
  link : LinkConfig := {}
  /-- GATHER_CONFIG (R447). -/
  gather : GatherConfig := {}
  /-- GPIO_CONFIG (R382). -/
  gpio : List GpioConfig := List.replicate 24 {}
  /-- Attention address changed by BUS_XFER operation 3; none is the shipped one of the host configuration (R397). -/
  attnAddr : Option Nat := none
  /-- Attention speed code (R397). -/
  attnSpeed : Nat := 1
  /-- Restored ring fields; the shipped values follow the strap (R603). -/
  rings : List RingSettings := List.replicate 32 {}
  /-- COMPAT registers (R557). -/
  compat : CompatSettings := {}
  deriving DecidableEq, Repr

/-- The record kinds of R50 and the key slots of R484. -/
inductive RecordKind where
  /-- 0x0001 -/
  | settings
  /-- 0x0002 -/
  | plan
  /-- 0x0003 -/
  | calibration
  /-- 0x0004 -/
  | profile
  /-- 0x0005 -/
  | counters
  /-- 0x0100 + slot -/
  | key (slot : Nat)
  deriving DecidableEq, Repr

/-- A sub-band of the regulatory profile (R435, R499). -/
structure SubBand where
  /-- Start in Hz (R499). -/
  start : Nat := 0
  /-- Stop in Hz (R499). -/
  stop : Nat := 0
  /-- Maximum power in 0.5 dB (R499). -/
  power : Int := 0
  /-- Maximum sweep width code (R499). -/
  width : Nat := 0
  /-- Duty budget in s per hour (R499). -/
  budget : Nat := 0
  deriving DecidableEq, Repr

/-- The regulatory profile as installed (R499). -/
structure Profile where
  /-- Profile version (R499). -/
  version : Nat := 0
  /-- Region code (R499). -/
  region : Nat := 0
  /-- Sub-bands (R499). -/
  subs : List SubBand := []
  /-- The container it came in, as installed (R499). -/
  container : List Byte := []
  deriving DecidableEq, Repr

/-- Calibration results of one converter (R509). -/
structure CalAdc where
  /-- Spare elements I (R525). DESIGN CHOICE, log 3. -/
  spareI : Nat × Nat := (16, 17)
  /-- Spare elements Q (R525). DESIGN CHOICE, log 3. -/
  spareQ : Nat × Nat := (16, 17)
  /-- Mismatch estimates of the 18 elements, I (R508, R509). DESIGN CHOICE, log 3. -/
  mismatchI : List Int := []
  /-- Mismatch estimates of the 18 elements, Q (R508, R509). DESIGN CHOICE, log 3. -/
  mismatchQ : List Int := []
  /-- Alignment line in 1/256 tick, starting from the fused value (R508). DESIGN CHOICE, log 3. -/
  align : Int := 0
  deriving DecidableEq, Repr

/-- An element choice computed, with the mismatch it was computed from (R517). -/
structure ElemChoice where
  /-- Spare elements I (R525). -/
  spareI : Nat × Nat := (16, 17)
  /-- Spare elements Q (R525). -/
  spareQ : Nat × Nat := (16, 17)
  /-- Mismatch estimates I (R509). -/
  mismatchI : List Int := []
  /-- Mismatch estimates Q (R509). -/
  mismatchQ : List Int := []
  deriving DecidableEq, Repr

/-- One stored IQ correction point of a tuner table (R510). -/
structure IqPoint where
  /-- Tuner (R510). -/
  tuner : Nat := 0
  /-- Port; ports 8 and up are T0's direct-conversion table (R510). -/
  port : Nat := 0
  /-- Point 0 to 23 (R510). -/
  point : Nat := 0
  /-- Gain correction (R510). -/
  gain : Int := 0
  /-- Phase correction (R510). -/
  phase : Int := 0
  /-- Taps of the delay-mismatch filter (R510, R521). -/
  taps : List Int := []
  /-- Predicted image rejection in 0.1 dB (R522). -/
  image : Nat := 0
  deriving DecidableEq, Repr

/-- The calibration record (R509). -/
structure CalRecord where
  /-- Element choices and alignment values (R509). DESIGN CHOICE, log 3. -/
  adcs : List CalAdc := [{}, {}, {}, {}, {}]
  /-- IQ table points that differ from zero correction (R510). -/
  iq : List IqPoint := []
  /-- Degradation per island in 0.01 % (R527). DESIGN CHOICE, log 3. -/
  degradation : List Nat := List.replicate 17 0
  /-- AVS floor in mV, the stage below 3 % (R527). -/
  avsFloor : Nat := 650
  /-- Delta-T limit, the stage below 3 % (R527). -/
  dtLimit : Nat := 20
  /-- The reduced clock plan has been decided (R528). -/
  reduced : Bool := false
  /-- Operating hours (R531). DESIGN CHOICE, log 3. -/
  hours : Nat := 0
  deriving DecidableEq, Repr

/-- The link counters record: the reservation and the ledger snapshot (R50). -/
structure Counters where
  /-- End of the current block of 1,024 (R50). DESIGN CHOICE, log 2. -/
  reserved : Nat := 0
  /-- The reservation was lost: no transmission until a new link key (R58). -/
  lost : Bool := false
  /-- Ledger snapshot, buckets per sub-band (R50). DESIGN CHOICE, log 2. -/
  ledgers : List (List (Int × Nat)) := []
  /-- Spans of seconds counted as fully used in every ledger (R58). DESIGN CHOICE, log 2. -/
  full : List (Int × Int) := []
  /-- Device-time second of the snapshot (R59). DESIGN CHOICE, log 2. -/
  snapSecond : Nat := 0
  deriving DecidableEq, Repr

/-- The plan record: the encoded plan, the programme tables that belong to it, the generation counters and the plan sequence (R45, R208, R332, R347). -/
structure PlanRecord where
  /-- The encoded active plan, as GET_PLAN renders it (R45). -/
  bytes : List Byte := []
  /-- Programmes: index, generation, reception, declaration (R208). -/
  progs : List (Nat × Nat × Nat × CompDecl) := []
  /-- Generation counters per class (R332). -/
  gens : List (List Nat) := []
  /-- Plan sequence (R347). -/
  seq : W32 := 0
  deriving DecidableEq, Repr

/-- What the payload of a settings-store copy holds; the byte coding of each payload is the device's own (R50). -/
inductive Content where
  /-- kind 0x0001 -/
  | settings (c : Settings)
  /-- kind 0x0002 -/
  | plan (p : PlanRecord)
  /-- kind 0x0003 -/
  | calibration (c : CalRecord)
  /-- kind 0x0004 -/
  | profile (p : Option Profile)
  /-- kind 0x0005 -/
  | counters (c : Counters)
  /-- key slot -/
  | key (k : Option (List Byte))
  /-- zeros -/
  | blank
  deriving DecidableEq, Repr

/-- One copy of a record in the settings store: the fields of its header (R51) and its payload. -/
structure StoreCopy where
  /-- Magic, 0x5354_4D5A in a valid copy (R51). DESIGN CHOICE, log 2. -/
  magic : W32 := 0x53544D5A
  /-- Kind (R51). DESIGN CHOICE, log 2. -/
  kind : Nat := 0
  /-- Sequence number (R51). DESIGN CHOICE, log 2. -/
  seq : W32 := 1
  /-- Payload length (R51). DESIGN CHOICE, log 2. -/
  length : Nat := 0
  /-- Check word, CRC-32 of header bytes 0 to 15 and the payload in a valid copy (R52). DESIGN CHOICE, log 2. -/
  check : W32 := 0
  /-- Payload (R50). DESIGN CHOICE, log 2. -/
  content : Content := .blank
  deriving DecidableEq, Repr

/-- The A and B copies of one record kind and the copy in use (R50, R54). -/
structure CopyPair where
  /-- Copy A (R50). DESIGN CHOICE, log 2. -/
  a : StoreCopy := {}
  /-- Copy B (R50). DESIGN CHOICE, log 2. -/
  b : StoreCopy := { magic := 0 }
  /-- The copy in use is B (R54). -/
  useB : Bool := false
  deriving DecidableEq, Repr

/-- Who waits for a response whose command was handled (R36, R56, R120, R524). -/
structure Deferred where
  /-- Port of the command ring (R326). -/
  port : Nat := 0
  /-- Opcode (R323). -/
  opcode : Nat := 0
  /-- Tag (R323). -/
  tag : Nat := 0
  /-- Handle the response carries (R323). -/
  target : Handle := {}
  /-- CLAMPED (R330). -/
  clamped : Bool := false
  /-- HELD (R324). -/
  held : Bool := false
  /-- QUEUED (R338). -/
  queued : Bool := false
  /-- Payload known when the command was handled (R326). -/
  payload : List Byte := []
  deriving DecidableEq, Repr

/-- The device event a deferred response waits for. -/
inductive WaitKey where
  /-- WINDOW_OPEN_DONE (R120) -/
  | windowOpen (w : Nat)
  /-- RETUNE_DONE (R121) -/
  | retune (w : Nat)
  /-- the RETUNE_DONE of a retune that waits for another operation (R121, R123) -/
  | retuneNext (w : Nat)
  /-- the end of the interruption a close waits for (R520) -/
  | closing (w : Nat)
  /-- MODE_TRANSITION_DONE (R36) -/
  | mode
  /-- the end of a settings-store write (R56, R61) -/
  | write (job : Nat)
  /-- the next second boundary (R101) -/
  | timeSet
  /-- the last run of a CAL_RUN (R524) -/
  | calRun
  /-- the end of a controller transfer (R400) -/
  | transfer (id : Nat)
  /-- the objects a PLAN_COMMIT starts (R350) -/
  | commit
  /-- LINK_STOPPED, for a LINK_CONFIG that stops the link (R406) -/
  | linkStop
  /-- the end of a zeroisation (R488) -/
  | zeroise
  deriving DecidableEq, Repr

/-- A deferred response and its event. -/
structure DeferredResp where
  /-- The event waited for (R36). -/
  key : WaitKey := .mode
  /-- The response (R326). -/
  resp : Deferred := {}
  deriving DecidableEq, Repr

/-- A settings-store write: running at the head of the queue, waiting behind it (R54, R55). -/
structure WriteJob where
  /-- Job number (R54). The model's own. -/
  id : Nat := 0
  /-- Record kind (R50). -/
  kind : RecordKind := .settings
  /-- Payload to write (R54). -/
  content : Content := .blank
  /-- Payload length (R51). -/
  length : Nat := 0
  /-- The other copy is written as well (R487). -/
  bothCopies : Bool := false
  deriving DecidableEq, Repr

/-- A firmware image slot and its control word (R494). -/
structure ImageSlot where
  /-- The control word's magic (R494). DESIGN CHOICE, log 2. -/
  control : W32 := 0x4B435453
  /-- Install sequence (R494). DESIGN CHOICE, log 2. -/
  install : W32 := 1
  /-- The image magic (R494). DESIGN CHOICE, log 2. -/
  magic : W32 := 0x474B5849
  /-- Certificate block and signature verify (R495). DESIGN CHOICE, log 2. -/
  authentic : Bool := true
  /-- Release major (R494). -/
  major : Nat := 1
  /-- Release minor (R494). -/
  minor : Nat := 4
  /-- Release patch (R494). DESIGN CHOICE, log 2. -/
  patch : Nat := 0
  /-- Rollback index (R494). DESIGN CHOICE, log 2. -/
  rollback : Nat := 0
  /-- Build (R494). DESIGN CHOICE, log 2. -/
  build : Nat := 0
  deriving DecidableEq, Repr

/-- The settings store and its writer (chapter 02, R484, R494). -/
structure StoreS where
  /-- Kind 0x0001 (R50). DESIGN CHOICE, log 2. -/
  settings : CopyPair := { a := { kind := 1, check := 0x3B4C63A4 } }
  /-- Kind 0x0002 (R50). DESIGN CHOICE, log 2. -/
  plan : CopyPair := { a := { kind := 2, check := 0x4CD2B154 } }
  /-- Kind 0x0003 (R50). DESIGN CHOICE, log 2. -/
  cal : CopyPair := { a := { kind := 3, check := 0xD777FD3B } }
  /-- Kind 0x0004 (R50). DESIGN CHOICE, log 2. -/
  profile : CopyPair := { a := { kind := 4, check := 0xA3EF14B4 } }
  /-- Kind 0x0005 (R50). DESIGN CHOICE, log 2. -/
  counters : CopyPair := { a := { kind := 5, check := 0x384A58DB } }
  /-- Key region: a device leaves the factory with no keys (R486). -/
  keys : List CopyPair := [{ a := { magic := 0 } }, { a := { magic := 0 } }, { a := { magic := 0 } }]
  /-- Firmware image slots (R494). DESIGN CHOICE, log 2. -/
  images : List ImageSlot := [{}, { control := 0, magic := 0, authentic := false }]
  /-- Writes begun and waiting (R54). -/
  queue : List WriteJob := []
  /-- Next job number (R54). The model's own. -/
  nextJob : Nat := 0
  /-- When the oldest unwritten settings change was made (R50). -/
  dirtyFirst : Option Nat := none
  /-- When the newest unwritten settings change was made (R50). -/
  dirtyLast : Option Nat := none
  /-- A qualified result differs from the stored one (R509). -/
  calDirty : Bool := false
  /-- When the calibration record was last written (R509). -/
  calLastWrite : Option Nat := none
  /-- MODE.RESTORE_SOURCE (R49). DESIGN CHOICE, log 1. -/
  restoreSource : Nat := 0
  deriving DecidableEq, Repr

/-- Lock state of a loop (R95). -/
inductive LoopState where
  /-- in lock -/
  | locked
  /-- out of lock since this instant -/
  | lost (since : Nat)
  deriving DecidableEq, Repr

/-- The loops, REF and the device-time counter's sources (chapter 04). -/
structure ClockS where
  /-- Ticks since power was first applied, by which timers are kept (R92). The model's own. -/
  elapsed : Nat := 0
  /-- REF runs (R98). DESIGN CHOICE, log 1. -/
  refOn : Bool := false
  /-- SYSPLL_LOCKED (R102). -/
  sysPll : LoopState := .lost 0
  /-- SPLL_LOCKED (R102). -/
  sPll : LoopState := .lost 0
  /-- APLL lock (R95). -/
  aPll : LoopState := .lost 0
  /-- Link synthesiser (R95). -/
  linkSynth : LoopState := .locked
  /-- Host word clock (R290). DESIGN CHOICE, log 1. -/
  wordClock : LoopState := .lost 0
  /-- The APLL holds its last frequency (R95). -/
  apllFrozen : Bool := false
  /-- A loss of the word clock is not yet reported (R95). -/
  wordLost : Bool := false
  /-- When REF last stopped (R95). DESIGN CHOICE, log 1. -/
  refOffAt : Nat := 0
  /-- Outages to post when the Headstock runs again: loop code and us (R95). -/
  owed : List (Nat × Nat) := []
  /-- Windows whose input buffer is full (R171). -/
  kerfFull : List Nat := []
  /-- The Headstock watchdog is suspended (R95). DESIGN CHOICE, log 1. -/
  wdogSuspended : Bool := true
  deriving DecidableEq, Repr

/-- The Plumb states, codes 0 to 5 (R102, R106). -/
inductive Plumb where
  /-- 0 -/
  | free
  /-- 1 -/
  | acquiring
  /-- 2 -/
  | locked
  /-- 3 -/
  | coasting
  /-- 4 -/
  | qualifying
  /-- 5 -/
  | slewing
  deriving DecidableEq, Repr

/-- A step of device time that was made (R110, R111). The model's own. -/
structure StepMark where
  /-- The epoch it began (R110). -/
  epoch : W16 := 0
  /-- Counter value in that epoch at which it took effect (R111). -/
  at' : Tick := 0
  /-- Signed change of the counter (R111). -/
  change : Int := 0
  deriving DecidableEq, Repr

/-- An antenna instant: its time-stamp and the epoch this is read in (R110). -/
structure Instant where
  /-- Epoch (R110). -/
  epoch : W16 := 0
  /-- Time-stamp in that epoch (R109). -/
  tick : Tick := 0
  deriving DecidableEq, Repr

/-- One host port's pair of time shadows (R102). -/
structure Shadow where
  /-- DT_HI shadow waiting (R102). -/
  hi : Option W32 := none
  /-- TIME_STATUS shadow waiting (R102). -/
  status : Option W32 := none
  deriving DecidableEq, Repr

/-- Device time and Plumb (chapter 04). -/
structure TimeS where
  /-- The device-time counter (R99). -/
  count : Tick := 0
  /-- Position within a tick, in 1/64 tick (R97). -/
  sub : Nat := 0
  /-- The epoch (R99). -/
  epoch : W16 := 0
  /-- STATE (R99). -/
  plumb : Plumb := .free
  /-- Edges in a row within 100 ns (R106). DESIGN CHOICE, log 1. -/
  near : Nat := 0
  /-- Agreeing edges while QUALIFYING (R106). DESIGN CHOICE, log 1. -/
  agree : Nat := 0
  /-- The first delta of QUALIFYING (R106). DESIGN CHOICE, log 1. -/
  first : Int := 0
  /-- Delta of the last accepted edge (R385). -/
  lastDelta : Option Int := none
  /-- Control value: the correction in force, nominal after power-on reset (R601). -/
  control : Int := 0
  /-- Phase the slew still has to turn, in 1/64 tick (R106). -/
  slewLeft : Int := 0
  /-- Phase the slew turns in a second, in 1/64 tick (R106). -/
  slewRate : Nat := 0
  /-- Delta of the last accepted edge, less the steps made since: what the 50 ppm test compares with (R106). -/
  rateDelta : Option Int := none
  /-- The AON clock counts device time; it follows REF at an AON clock edge (R98). -/
  onAon : Bool := false
  /-- When the reference type was last set (R104). DESIGN CHOICE, log 1. -/
  refAt : Nat := 0
  /-- Plumb has locked since the reference type was set (R106). -/
  everLocked : Bool := false
  /-- TIME_COASTING to post when the Headstock runs again (R602). -/
  coasted : Option (List Byte) := none
  /-- Step decided and awaiting its second boundary (R106). -/
  step : Option Int := none
  /-- TIME_SET awaiting its second boundary (R101). -/
  setTo : Option Nat := none
  /-- When the last edge was accepted (R104). -/
  lastEdge : Option Nat := none
  /-- AON_COUNT (R102). -/
  aonCount : Bool := false
  /-- The ports' shadows (R102). -/
  shadows : List Shadow := [{}, {}, {}]
  /-- Steps made, the latest first (R111). -/
  steps : List StepMark := []
  deriving DecidableEq, Repr

/-- The Headstock: responses and commands in hand, and its restarts (chapters 12, 19). -/
structure HeadS where
  /-- Responses waiting for a device event (R524). -/
  deferred : List DeferredResp := []
  /-- Commands held behind shut-downs: opcode and frame (R339). -/
  held : List (Nat × CmdFrame) := []
  /-- Frames that would be held while 16 are: their rings wait behind them (R339). -/
  blocked : List (Nat × CmdFrame) := []
  /-- A Gokixel restart is running (R352). -/
  restarting : Bool := false
  /-- Cause of the restart (R354). DESIGN CHOICE, log 1. -/
  restartCause : Nat := 0
  /-- Restarts since the last power-on reset (R354). -/
  restarts : Nat := 0
  /-- AON_STATUS.WDOG_EXPIRIES (R302). -/
  expiries : Nat := 0
  /-- Instants of the restarts in the last 60 s (R546). -/
  recent : List Nat := []
  /-- Restarts are spaced (R546). -/
  spaced : Bool := false
  /-- RESTARTS_SPACED has been posted for the spacing in force (R546). -/
  spacingNoted : Bool := false
  /-- A restart waits for its delay (R546). -/
  delayed : Bool := false
  /-- When the last restart began (R546). DESIGN CHOICE, log 1. -/
  lastRestart : Nat := 0
  /-- Commands answered RESTARTED (R354). -/
  answered : Nat := 0
  /-- A staged plan was discarded (R354). -/
  stagedLost : Bool := false
  /-- MODE.TARGET and TRANSITION (R49). -/
  transition : Option Mode := none
  /-- Wake source that became active during entry to HOLD (R43). -/
  wakePending : Option Nat := none
  /-- Notes to post once a host port is open: code, island, value (R45). The model's own. -/
  bootEvents : List (Nat × Nat × Nat) := []
  /-- Creation order of the next object (R538). The model's own. -/
  serial : Nat := 0
  deriving DecidableEq, Repr

/-- Tuner states, codes 0 to 3 (R119). -/
inductive TunerState where
  /-- 0 -/
  | off
  /-- 1 -/
  | warm
  /-- 2 -/
  | locked
  /-- 3 -/
  | serving
  deriving DecidableEq, Repr

/-- What a tuner is used for. -/
inductive TunerRole where
  /-- no window -/
  | unused
  /-- serves a window (R605) -/
  | window (w : Nat)
  /-- partner of a ganged window (R134) -/
  | partner (w : Nat)
  /-- held by a glance (R264) -/
  | glance (fo : Nat)
  /-- ramping down (R124) -/
  | releasing (w : Nat)
  /-- serves a placement of the survey (R252) -/
  | survey
  /-- ramping down after a glance or an ungang, then WARM for this many seconds (R137, R264) -/
  | freeing (linger : Nat)
  /-- ramping down from a glance that gave way, then serving a window or as its partner (R265) -/
  | yielding (w : Nat) (partner : Bool)
  deriving DecidableEq, Repr

/-- A tuner T0 to T3, or the HF input as number 4 (chapter 05). -/
structure Tuner where
  /-- Tuner state (R119). -/
  state : TunerState := .off
  /-- What it is used for (R112). -/
  role : TunerRole := .unused
  /-- The port it takes while it is used (R112). DESIGN CHOICE, log 1. -/
  port : Nat := 0
  /-- HEALTH.TUNERS_FAILED or HF_FAILED (R302). -/
  failed : Bool := false
  /-- Gain, or attenuation of the HF input (R121). DESIGN CHOICE, log 1. -/
  gain : Int := 60
  /-- Last gain used per port and LO (R121). -/
  lastGains : List (Nat × Nat × Int) := []
  /-- When its linger time ends (R124). -/
  lingerAt : Option Nat := none
  /-- Since when it has been at minimum gain and clipping (R132). -/
  clipAt : Option Nat := none
  /-- Since when it has had 10 dB above its minimum (R132). -/
  above10At : Option Nat := none
  /-- Gains that caused clipping, and when (R127). -/
  clipGains : List (Int × Nat) := []
  /-- When its gain was last raised (R127). DESIGN CHOICE, log 1. -/
  raisedAt : Nat := 0
  /-- Since when its AGC is frozen by a transmission (R145). -/
  frozenAt : Option Nat := none
  deriving DecidableEq, Repr

/-- The life of a window. -/
inductive WinState where
  /-- never opened or closed -/
  | closed
  /-- WINDOW_OPEN under way (R120) -/
  | opening
  /-- samples accepted -/
  | open
  /-- the steps of R121 run -/
  | retuning
  /-- the ramp of R124 runs -/
  | closing
  /-- FAILED: no tuner serves it (R138, R606) -/
  | failed
  /-- in the plan, not running in this mode (R38) -/
  | stopped
  deriving DecidableEq, Repr

/-- What GET_WINDOW shows of a closed window's tuners (R148). -/
structure WinLast where
  /-- Serving tuner (R148). -/
  tuner : Option Nat := none
  /-- Gain (R148). -/
  gain : Int := 0
  /-- Partner tuner and partner port (R148). -/
  partner : Option (Nat × Nat) := none
  /-- Partner gain (R148). -/
  partnerGain : Int := 0
  deriving DecidableEq, Repr

/-- Window W0 to W4 (chapter 05). -/
structure Window where
  /-- Generation (R331). DESIGN CHOICE, log 1. -/
  gen : Nat := 0
  /-- Life (R148). -/
  state : WinState := .closed
  /-- An object of the active plan (R38). -/
  inPlan : Bool := false
  /-- Marked for SENTRY (R38). -/
  sentry : Bool := false
  /-- Applied port (R115). DESIGN CHOICE, log 1. -/
  port : Nat := 0
  /-- AGC mode (R115). DESIGN CHOICE, log 1. -/
  agc : Nat := 0
  /-- Fixed gain in 0.5 dB (R115). DESIGN CHOICE, log 1. -/
  fixedGain : Nat := 0
  /-- Applied width (R115). DESIGN CHOICE, log 1. -/
  widthKhz : Nat := 6000
  /-- Applied LO in Hz (R115). DESIGN CHOICE, log 1. -/
  lo : Nat := 24000000
  /-- Linger time in s (R115). -/
  linger : Nat := 1
  /-- Serving tuner (R148). -/
  tuner : Option Nat := none
  /-- Partner tuner and partner port (R148). -/
  partner : Option (Nat × Nat) := none
  /-- Clip count (R148). -/
  clips : W32 := 0
  /-- TX overlap count (R148). -/
  txOverlap : W32 := 0
  /-- Retunes and hand-overs (R148). -/
  retunes : W32 := 0
  /-- Composite power in 0.1 dBm (R148). DESIGN CHOICE, log 1. -/
  power : Int := 0
  /-- Image rejection in 0.1 dB (R148). DESIGN CHOICE, log 1. -/
  image : Nat := 0
  /-- When WINDOW_CLIPPING was last posted (R130). -/
  clipNoteAt : Option Nat := none
  /-- A close that waits for an element selection interruption (R520). -/
  closeAfter : Bool := false
  /-- Port, width and LO of a retune that waits for another operation (R123). -/
  retuneTo : Option (Nat × Nat × Nat) := none
  /-- Creation order (R383). The model's own. -/
  created : Nat := 0
  /-- The tuners it was last served by (R148). -/
  last : WinLast := {}
  deriving DecidableEq, Repr

/-- Antenna ports, tuners and windows (chapter 05). -/
structure FrontS where
  /-- Tuners T0 to T3 and the HF input (R119). -/
  tuners : List Tuner := List.replicate 5 {}
  /-- Windows W0 to W4 (R114). -/
  windows : List Window := List.replicate 9 {}
  /-- External amplifiers bypassed (R132). DESIGN CHOICE, log 1. -/
  bypassed : List Bool := [false, false, false, false]
  /-- End of the AGC freeze after the transmission now ending (R145). DESIGN CHOICE, log 1. -/
  txUntil : Option Nat := none
  deriving DecidableEq, Repr

/-- Chain states, codes 0 to 4 (R156). -/
inductive ChainState where
  /-- 0 -/
  | free
  /-- 1 -/
  | stopped
  /-- 2 -/
  | waiting
  /-- 3 -/
  | settling
  /-- 4 -/
  | running
  deriving DecidableEq, Repr

/-- Chain changes not yet applied (R162, R163, R173, R174). -/
structure Pending where
  /-- Bank change awaiting a block boundary (R162). -/
  bank : Option Handle := none
  /-- Bank change held by a cross-fade (R163). -/
  bankHeld : Option Handle := none
  /-- Delay change awaiting a block boundary (R173). -/
  delay : Option (Nat × Nat) := none
  /-- Delay change held by a cross-fade (R173). -/
  delayHeld : Option (Nat × Nat) := none
  /-- Frequency or window change awaiting a block boundary (R174). -/
  freq : Option (Nat × Nat) := none
  /-- Kind that an attached probe takes with it (R261). -/
  kind : Option Kind := none
  deriving DecidableEq, Repr

/-- A sample block (R167). -/
structure Block where
  /-- Time-stamp of its first sample (R109). -/
  stamp : Tick := 0
  /-- Epoch (R110). -/
  epoch : W16 := 0
  /-- Scale exponent (R168). -/
  exponent : Nat := 0
  /-- Leading UNSETTLED samples (R167). -/
  unsettled : Nat := 0
  /-- GAP_BEFORE and its lost count (R172). -/
  gap : Option Nat := none
  /-- Samples (R167). -/
  samples : List (Int × Int) := []
  deriving DecidableEq, Repr

/-- A chisel chain with its owner (chapter 06). -/
structure Chain where
  /-- Chain kind (R152). -/
  kind : Kind := .fm
  /-- Chain state (R156). -/
  state : ChainState := .stopped
  /-- Window it reads (R118). -/
  window : Nat := 0
  /-- Applied frequency in Hz, or a tap's sub-band index (R154). -/
  freq : Nat := 0
  /-- Bank in use (R154). -/
  bank : Handle := {}
  /-- Delay, whole samples (R154). -/
  delay : Nat := 0
  /-- Delay, fraction (R154). -/
  frac : Nat := 0
  /-- Changes not yet applied (R173). -/
  pend : Pending := {}
  /-- Outputs still to be marked UNSETTLED (R165). -/
  settle : Nat := 0
  /-- Outputs to come that belong to a settle count that has been declared done (R165). -/
  owedUnsettled : Nat := 0
  /-- FIR delay line, the newest sample first (R160). -/
  fir : List (Int × Int) := []
  /-- FIR outputs that the resampler of a DAB chain holds, the newest first (R152). -/
  resamp : List (Int × Int) := []
  /-- Ticks of input since the last output (R152). -/
  firTicks : Nat := 0
  /-- Samples of the open block, in the unit of the bank's scale (R167). -/
  openSamples : List (Int × Int) := []
  /-- Time-stamp of its first sample, in its epoch (R109). -/
  openStamp : Tick := 0
  /-- Leading UNSETTLED outputs of the open block (R167). -/
  openUnsettled : Nat := 0
  /-- GAP_BEFORE of the open block and its lost count (R172). -/
  openGap : Option Nat := none
  /-- The channel is covered (R118). -/
  covered : Bool := false
  /-- Antenna instant of the last output, by the present count (R172). -/
  lastOut : Option Tick := none
  /-- Device time at which the gap begins that follows the samples Kerf has buffered (R171). -/
  gapAt : Option Int := none
  /-- GAP_BEFORE owed to the next block, with blocks lost besides the span (R118). -/
  gapLost : Option Nat := none
  /-- Epoch of the open block (R110). -/
  epoch : W16 := 0
  /-- Exponent of the last block (R176). -/
  exponent : Nat := 0
  /-- Blocks written (R176). -/
  blocks : W32 := 0
  /-- Blocks with GAP_BEFORE (R176). -/
  gaps : W32 := 0
  /-- Blocks overwritten (R176). -/
  overruns : W32 := 0
  /-- Output ring: the four most recent blocks, oldest first (R169). -/
  ring : List Block := []
  /-- How many of them, the latest, the engine has not taken (R169). -/
  untaken : Nat := 0
  deriving DecidableEq, Repr

/-- Analogue options block (R178). -/
structure AnaOpts where
  /-- Detection (R178). -/
  detection : Nat := 0
  /-- De-emphasis (R178). -/
  deemph : Nat := 0
  /-- Stereo mode (R178). -/
  stereo : Nat := 0
  /-- Equaliser (R178). -/
  eq : Nat := 0
  /-- Soft mute (R178). -/
  softMute : Nat := 0
  /-- RDS variant (R178). -/
  rbds : Nat := 0
  /-- RDS streams (R178). -/
  streams : Nat := 0
  /-- Noise blanker (R178). -/
  blanker : Nat := 0
  /-- Acquisition threshold in 0.1 dB (R178). -/
  threshold : Nat := 0
  /-- Overdeviation limit in 100 Hz (R178). -/
  overdev : Nat := 0
  deriving DecidableEq, Repr

/-- Digital options block (R215). -/
structure DigOpts where
  /-- Expected identity (R215). -/
  identity : Nat := 0
  /-- Robustness mode (R215). -/
  mode : Nat := 0
  /-- Spectrum occupancy (R215). -/
  occupancy : Nat := 0
  deriving DecidableEq, Repr

/-- Reception states, codes 0 to 2 (R181). -/
inductive RxState where
  /-- 0 -/
  | searching
  /-- 1 -/
  | acquired
  /-- 2 -/
  | holding
  deriving DecidableEq, Repr

/-- An active alert of a reception (R248, R249). -/
structure Alert where
  /-- Alert number (R248). -/
  number : W16 := 0
  /-- Class (R247). -/
  cls : Nat := 0
  /-- Type (R247). -/
  type : Nat := 0
  /-- Source (R247). -/
  source : Nat := 0
  /-- Cluster (R249). -/
  cluster : Nat := 0
  /-- Target identity (R249). -/
  target : Nat := 0
  /-- Consecutive valid occurrences without the signalling (R248). -/
  without : Nat := 0
  /-- Character set and text of its target programme when it began (R249). -/
  text : Byte × List Byte := (0, [])
  deriving DecidableEq, Repr

/-- Alert settings (R246). -/
structure AlertCfg where
  /-- Type mask (R246). -/
  mask : Nat := 1
  /-- Options (R246). -/
  options : Nat := 0
  /-- Cluster (R246). -/
  cluster : Nat := 255
  deriving DecidableEq, Repr

/-- One frame of audio (R188, R189, R230, R286): 24-bit values, L and R alike on one channel. -/
structure AudioFrame where
  /-- Antenna instant (R189, R230). -/
  at' : Instant := {}
  /-- Left. -/
  l : Int := 0
  /-- Right. -/
  r : Int := 0
  /-- Left and right before soft mute and blend, where these shape the audio (R196, R203). -/
  unshaped : Option (Int × Int) := none
  /-- Flagged CONCEALED (R185, R235). -/
  concealed : Bool := false
  /-- Programme index, as PCM Shavings name it (R286). -/
  prog : Nat := 0xFFFF
  deriving DecidableEq, Repr

/-- Loudness of a programme (R204, R205). -/
structure Loud where
  /-- Audio released since the last momentary value, oldest first (R205). -/
  todo : List AudioFrame := []
  /-- K-weighted squares of the latest 3 s of audio, oldest first, none where concealed (R203 to R205). -/
  window : List (Option Nat) := []
  /-- State of the K-weighting of each channel (R203). -/
  filt : ((Int × Int) × (Int × Int)) × ((Int × Int) × (Int × Int)) := (((0, 0), (0, 0)), ((0, 0), (0, 0)))
  /-- The latest unconcealed frames, the newest first, from which the true peak is interpolated (R203). -/
  line : List (Int × Int) := []
  /-- Frames of the window that belong to the integrated measure, less those of an earlier one that are still to come (R204). -/
  since : Int := 0
  /-- Powers of the 400 ms blocks that may enter the integrated measure (R203, R204). -/
  gate : List Nat := []
  /-- Unconcealed audio in the integrated measure, in ticks (R206). -/
  integrated : Nat := 0
  /-- True peak of the interval in 0.1 dBTP (R206). -/
  peak : Option Int := none
  deriving DecidableEq, Repr

/-- The carrier loop of an AM reception (R191, R192, R203). -/
structure CarrierLoop where
  /-- Phase in 1/2^32 turn (R186). -/
  phase : Int := 0
  /-- Frequency against the chain's in mHz (R191). -/
  freq : Int := 0
  /-- The same in 1/10^9 Hz. -/
  fine : Int := 0
  /-- In-phase component, averaged (R191). -/
  inPhase : Int := 0
  /-- Power of the turned outputs, averaged (R191). -/
  power : Nat := 0
  /-- Carrier estimate (R191). -/
  carrier : Nat := 0
  /-- Sideband power (R191). -/
  side : Nat := 0
  /-- In lock (R182). -/
  locked : Bool := false
  /-- Ticks for which it has been in lock (R192). -/
  lockedFor : Nat := 0
  /-- Ticks for which it has been out of lock (R192). -/
  unlockedFor : Nat := 0
  deriving DecidableEq, Repr, Inhabited

/-- A chain output as a demodulator takes it. -/
structure DemIn where
  /-- Antenna instant (R109). -/
  at' : Instant := {}
  /-- Value, in 1/2^24 of the step of exponent 0 (R168). -/
  x : Int × Int := (0, 0)
  /-- Settled (R165). -/
  settled : Bool := true
  deriving DecidableEq, Repr

/-- The AM demodulator (R190 to R193). -/
structure AmState where
  /-- The last two outputs, the newest first, of which the newer waits for its neighbour (R193). -/
  line : List DemIn := []
  /-- Envelopes of the last 250 ms, the newest first (R190). -/
  env : List Nat := []
  /-- Ages, in outputs, of those the noise blanker replaced within the last 100 ms (R193). -/
  replaced : List Nat := []
  /-- Outputs since the blanker's 100 ms interval began (R193). -/
  pos : Nat := 0
  /-- Blanking is suspended for the rest of the interval (R193). -/
  blankOff : Bool := false
  /-- The carrier loop (R191). -/
  loop : CarrierLoop := {}
  /-- Envelope audio stands in since a loss of lock (R192). -/
  fellBack : Bool := false
  /-- Outputs turned by the loop, the newest first (R191). -/
  turned : List (Int × Int) := []
  /-- Detector that gives the audio (R190, R191). -/
  using' : Nat := 0
  /-- Detector that a cross-fade leaves (R179, R192). -/
  leaving : Nat := 0
  /-- Frames left of the cross-fade (R179, R192). -/
  cross : Nat := 0
  deriving DecidableEq, Repr

/-- The multipath equaliser (R195): taps in 1/2^16. -/
structure Equaliser where
  /-- Feedforward taps of the main path and of the branch (R195). -/
  ff : List (List (Int × Int)) := []
  /-- Feedback taps (R195). -/
  fb : List (Int × Int) := []
  /-- Its latest inputs per path, the newest first (R195). -/
  line : List (List (Int × Int)) := []
  /-- Its latest decisions, the newest first (R195). -/
  decided : List (Int × Int) := []
  deriving DecidableEq, Repr, Inhabited

/-- The pilot loop (R194). -/
structure PilotLoop where
  /-- Phase in 1/2^32 turn (R186). -/
  phase : Int := 0
  /-- Frequency error in 0.01 Hz (R203). -/
  offset : Int := 0
  /-- The same in 1/10^9 Hz. -/
  fine : Int := 0
  /-- MPX times the loop's sine and cosine, averaged, in 1/2^16 of 0.01 Hz (R194). -/
  mix : Int × Int := (0, 0)
  /-- Pilot deviation in Hz (R194). -/
  deviation : Nat := 0
  /-- In lock (R194). -/
  locked : Bool := false
  /-- Ticks for which it has been in lock (R194). -/
  lockedFor : Nat := 0
  /-- Ticks for which the deviation has been below 3 kHz (R194). -/
  belowFor : Nat := 0
  deriving DecidableEq, Repr, Inhabited

/-- One MPX sample at 192 kS/s (R197). -/
structure MpxSample where
  /-- Antenna instant (R189). -/
  at' : Instant := {}
  /-- Deviation in 0.01 Hz. -/
  v : Int := 0
  /-- From an UNSETTLED output or following a break (R197). -/
  concealed : Bool := false
  /-- The first behind a break (R197). -/
  first : Bool := false
  deriving DecidableEq, Repr

/-- The FM demodulator (R194 to R197). -/
structure FmState where
  /-- The equaliser (R195). -/
  eq : Equaliser := {}
  /-- The last output before the discriminator (R194). -/
  prev : Int × Int := (0, 0)
  /-- The latest MPX samples at 384 kS/s in 0.01 Hz, the newest first (R194). -/
  mpx : List Int := []
  /-- The latest products of the MPX and the regenerated 38 kHz carrier (R194). -/
  diff : List Int := []
  /-- The pilot loop (R194). -/
  pilot : PilotLoop := {}
  /-- Ticks since the last audio frame (R194). -/
  audioTicks : Nat := 0
  /-- Ticks since the last MPX sample (R197). -/
  mpxTicks : Nat := 0
  /-- State of the de-emphasis, L and R (R179, R194). -/
  deemph : Int × Int := (0, 0)
  /-- The same before blend (R203). -/
  deemphFull : Int × Int := (0, 0)
  /-- Separation in 1/480,000 (R196). -/
  separation : Nat := 0
  /-- Frames left of the ramp after a change of stereo mode (R179). -/
  ramp : Nat := 0
  /-- The next MPX sample is the first behind a break (R197). -/
  split : Bool := false
  /-- MPX samples to deliver, oldest first (R197). -/
  out : List MpxSample := []
  /-- Antenna instant of the next of them (R536). -/
  outNext : Option Instant := none
  /-- Samples and squares in (0.01 Hz)^2 of the last 60 s of settled, unconcealed MPX, the newest first (R203). -/
  power : List (Nat × Nat) := []
  deriving DecidableEq, Repr

/-- Sums over settled outputs (R182, R203). -/
structure Moments where
  /-- Outputs. -/
  n : Nat := 0
  /-- Of the squared magnitudes. -/
  m2 : Nat := 0
  /-- Of their squares. -/
  m4 : Nat := 0
  /-- AM: of the carrier's squared estimates. -/
  carrier : Nat := 0
  /-- AM: of the squared quadrature components. -/
  quad : Nat := 0
  /-- Of the frequency offsets in 0.01 Hz (R600). -/
  offset : Int := 0
  deriving DecidableEq, Repr

/-- What an analogue reception's measures are taken from, over one programme's interval (R203). -/
structure AnaMeas where
  /-- Moments after the equaliser (R203). -/
  sums : Moments := {}
  /-- Squared magnitudes of the chain's own outputs (R203). -/
  power : Nat := 0
  /-- Magnitudes (R203). -/
  env : Nat := 0
  /-- Largest positive and negative excursion in 0.1 % (R203). -/
  peaks : Nat × Nat := (0, 0)
  /-- Largest MPX magnitude in 0.01 Hz (R203). -/
  maxDev : Nat := 0
  /-- Outputs above the overdeviation limit (R203). -/
  overCount : Nat := 0
  deriving DecidableEq, Repr

/-- The demodulation of an analogue reception on its engine (chapter 07). -/
structure Demod where
  /-- Antenna instant at which the next chain output is due, by the count of outputs (R184). -/
  due : Option Instant := none
  /-- The outputs now taken follow a break or are UNSETTLED (R185). -/
  inBreak : Bool := false
  /-- Options in use, which follow the setting after a chain block (R179). -/
  opts : AnaOpts := {}
  /-- Settled input since SEARCHING was entered, in ticks (R194). -/
  settledFor : Nat := 0
  /-- Moments of each block of the last 200 ms of settled input, the newest first (R182). -/
  moments : List Moments := []
  /-- Ticks for which the carrier-to-noise ratio has been below the threshold less 3 dB (R182). -/
  lowFor : Nat := 0
  /-- AM (R190). -/
  am : AmState := {}
  /-- FM (R194). -/
  fm : FmState := {}
  /-- Weights of the main output and the branch's in 1/2^16, re-estimated every 1 ms (R136). -/
  weights : (Int × Int) × (Int × Int) := ((65536, 0), (0, 0))
  /-- Outputs of the main chain and of the branch since the weights were estimated (R136). -/
  pairs : List ((Int × Int) × (Int × Int)) := []
  /-- The branch's outputs, oldest first (R136). -/
  branch : List DemIn := []
  /-- The interval's measures (R203). -/
  meas : AnaMeas := {}
  deriving DecidableEq, Repr

/-- The stages in which a digital reception finds its signal (R216). -/
inductive SyncStage where
  /-- DAB: the null symbol; DRM: the robustness mode. -/
  | coarse
  /-- The frequency offset within a carrier spacing. -/
  | fine
  /-- The whole-carrier offset; DRM: the spectrum occupancy. -/
  | whole
  /-- The place of the FFT window. -/
  | place
  /-- Complete: every symbol is tracked. -/
  | track
  deriving DecidableEq, Repr

/-- What the engine keeps of one carrier (R218). -/
structure Carrier where
  /-- Channel estimate. -/
  h : Int × Int := (0, 0)
  /-- Variance of its decisions or of its gain references. -/
  var : Nat := 0
  /-- Null-symbol powers of the last 8 frames, the newest first. -/
  nulls : List Nat := []
  deriving DecidableEq, Repr

/-- A multiplex reconfiguration still to come (R222). -/
structure Announced where
  /-- The count at which it takes effect. -/
  count : Nat := 0
  /-- CIFs or superframes to go. -/
  left : Nat := 0
  /-- What the new configuration declares. -/
  comps : List CompDecl := []
  deriving DecidableEq, Repr

/-- A CIF, or a DRM transmission frame, that the engine has completed (R228). -/
structure FrameMark where
  /-- Its nominal instant (R228). -/
  at' : Instant := {}
  /-- Its place in the frame or superframe. -/
  pos : Nat := 0
  /-- R216 is complete and the frame's synchronisation was found (R224). -/
  sync : Bool := true
  /-- Its control channel's symbols are lost (R226, R241). -/
  lost : Bool := false
  deriving DecidableEq, Repr

/-- The OFDM demodulation of a digital reception on its engine (R216 to R219, R226 to R228). -/
structure Ofdm where
  /-- Outputs not yet in a symbol, oldest first; none where one is missing or UNSETTLED (R226). -/
  line : List (Option (Int × Int)) := []
  /-- Antenna instant of the first of them (R228). -/
  lineAt : Instant := {}
  /-- The branch's outputs beside them, none where there is none (R136). -/
  second : List (Option (Int × Int)) := []
  /-- The branch's outputs and their instants, oldest first (R136). -/
  branch : List DemIn := []
  /-- Stage (R216). -/
  stage : SyncStage := .coarse
  /-- Robustness mode, 0 to 4 for A to E (R216). -/
  mode : Nat := 0
  /-- Spectrum occupancy (R216). -/
  occupancy : Nat := 0
  /-- Frequency offset in 0.01 Hz (R216, R236). -/
  freq : Int := 0
  /-- Start of the FFT window, in outputs from the start of the guard interval (R217). -/
  window : Nat := 0
  /-- Number of the next symbol of the frame (R216). -/
  symbol : Nat := 0
  /-- Position of the frame in its superframe, as the FAC tells it (R245). -/
  position : Nat := 0
  /-- Nominal instant of the CIF or frame in progress (R228). -/
  frameAt : Instant := {}
  /-- Impulse-response energy by output (R217). -/
  impulse : List Nat := []
  /-- Carriers of the main path, and of the branch (R136, R218). -/
  carriers : List Carrier × List Carrier := ([], [])
  /-- Carriers of the previous symbol, none when it is lost (R226). -/
  prev : Option (List (Int × Int) × List (Int × Int)) := none
  /-- Cells of the DRM frame so far on both paths, by symbol; none for a lost one (R136, R218, R226). -/
  cells : List (Option (List (Int × Int) × List (Int × Int))) := []
  /-- Soft values of the CIF or frame in progress before they are scaled, 0 for an erasure (R219). -/
  soft : List Int := []
  /-- Soft values of the frame's control channel: the FIC, or the FAC and SDC cells (R219, R220). -/
  control : List Int := []
  /-- Which of the FIC's symbols are lost in this frame (R226, R241). -/
  ficLost : List Bool := []
  /-- The frame's synchronisation was found (R224). -/
  found : Bool := false
  /-- The de-interleave reservation: soft values by CIF or frame, the newest first (R219, R227). -/
  deint : List (List Int) := []
  /-- CIFs or frames completed and not yet reported, oldest first (R228). -/
  marks : List FrameMark := []
  /-- Nominal instants of the latest CIFs or frames that were reported, the newest first (R228, R229). -/
  past : List Instant := []
  /-- Running sums of the impulse-response energy by output (R236). -/
  echoes : List Nat := []
  /-- Running sums for the measures (R236): settled outputs and their squared magnitudes, reference-point and error-vector power, symbol
  power and its count, null-symbol power and its count, squared phase steps of the channel estimates in (1/2^32 turn)^2 and their
  count. -/
  sums : List Nat := []
  deriving DecidableEq, Repr

/-- An RDS group being framed (R240). -/
structure RdsGroup where
  /-- Antenna instant of the first bit of block A (R240). -/
  at' : Instant := {}
  /-- Information words and error flags so far (R240). -/
  blocks : List (Nat × Nat) := []
  /-- Offset C' received (R240). -/
  typeB : Bool := false
  /-- MMBS group (R201). -/
  mmbs : Bool := false
  deriving DecidableEq, Repr

/-- One bit of an RDS stream (R198). -/
structure RdsBit where
  /-- The bit (R198). -/
  v : Bool := false
  /-- Antenna instant at which it began (R240). -/
  at' : Instant := {}
  /-- It lies in a break (R186). -/
  broken : Bool := false
  deriving DecidableEq, Repr

/-- One RDS data stream of an FM reception (R198 to R201). -/
structure RdsStream where
  /-- Block synchronisation (R199). -/
  sync : Bool := false
  /-- Position of the next block in its group (R199). -/
  pos : Nat := 0
  /-- Recent error-free offsets and the numbers of their first bits, while out of synchronisation (R199). -/
  recent : List (Nat × Nat) := []
  /-- Bit clock: nineteenths of a tick since the last bit ended (R186, R198). -/
  clock : Nat := 0
  /-- The bit in progress lies in a break in part (R186). -/
  touched : Bool := false
  /-- Phase of its own carrier in 1/2^32 turn (R186, R198). -/
  carrier : Int := 0
  /-- Frequency of that carrier against the subcarrier's in 1/10^9 Hz (R198). -/
  fine : Int := 0
  /-- Sums over the first and the second half of the bit, in phase and in quadrature (R198). -/
  halves : (Int × Int) × (Int × Int) := ((0, 0), (0, 0))
  /-- The last biphase symbol (R198). -/
  symbol : Bool := false
  /-- Magnitudes of the bits' symbols in the interval, and how many (R203). -/
  level : Nat × Nat := (0, 0)
  /-- Bits received and not yet in a block, oldest first (R198). -/
  bits : List RdsBit := []
  /-- Number of the first of them (R199). -/
  bitNo : Nat := 0
  /-- The latest blocks in a row that carry offset E, with their flags, oldest first (R201). -/
  eRun : List (Nat × Nat) := []
  /-- Antenna instant of the first of them (R201). -/
  eAt : Instant := {}
  /-- Uncorrectable among the last 50 blocks (R199). -/
  history : List Bool := []
  /-- Group in progress (R240). -/
  group : Option RdsGroup := none
  /-- Antenna instant of the last group delivered (R536). -/
  sent : Option Instant := none
  /-- Blocks received since synchronisation was first gained (R206). -/
  received : Nat := 0
  /-- Blocks corrected (R206). -/
  corrected : Nat := 0
  /-- Blocks uncorrectable (R206). -/
  bad : Nat := 0
  /-- Last PI code from a block of flag 0 or 1 (R262). -/
  pi : Option Nat := none
  /-- PI code read twice in a row (R262). -/
  identity : Option Nat := none
  /-- Group type and A/B flag of the radiotext being assembled (R249). -/
  rtFlag : Option Nat := none
  /-- Radiotext segments received (R249). -/
  rt : List (Nat × List Byte) := []
  deriving DecidableEq, Repr

/-- A reception (chapters 07, 08). -/
structure Reception where
  /-- Index (R331). -/
  idx : Nat := 0
  /-- Generation (R332). -/
  gen : Nat := 0
  /-- Kind (R371). -/
  kind : Kind := .fm
  /-- Window named (R371). -/
  window : Nat := 0
  /-- Its chain (R24). -/
  chain : Chain := {}
  /-- Analogue options (R178). -/
  ana : AnaOpts := {}
  /-- Digital options (R215). -/
  dig : DigOpts := {}
  /-- Marked for SENTRY (R38). -/
  sentry : Bool := false
  /-- Shut down, completion event to come (R336). -/
  removing : Bool := false
  /-- Shed (R539). -/
  shed : Bool := false
  /-- While shed: the coverage last reported (R118). -/
  shedCovered : Bool := false
  /-- Creation order (R538). -/
  serial : Nat := 0
  /-- State, meaningful while covered and running (R181). -/
  rx : RxState := .searching
  /-- When SEARCHING was last entered (R183). -/
  since : Nat := 0
  /-- Antenna instant of the last settled output (R184). -/
  lastSettled : Option Instant := none
  /-- Entries to SEARCHING (R206). -/
  losses : W16 := 0
  /-- Pilot decision (R194). -/
  stereo : Option Bool := none
  /-- Synchronous audio in use (R192). -/
  syncAudio : Bool := false
  /-- Analogue demodulation (R181). -/
  dem : Demod := {}
  /-- Digital demodulation (R216). -/
  ofdm : Ofdm := {}
  /-- Their last snapshots, with the RDS streams' (R534). -/
  snap : Demod × Ofdm × List RdsStream := ({}, {}, [])
  /-- RDS streams (R198). -/
  rds : List RdsStream := []
  /-- The present break is a migration break (R535). -/
  bridge : Bool := false
  /-- CIF periods or FAC blocks in a row that passed (R223). -/
  goodRun : Nat := 0
  /-- FAC blocks in a row that failed, or CIFs without a FIB (R224). -/
  badRun : Nat := 0
  /-- Frames in a row without frame synchronisation (R224). -/
  noSync : Nat := 0
  /-- Ensemble identifier received (R237). -/
  ensemble : Nat := 0
  /-- DRM service identifiers received (R215). -/
  services : List Nat := []
  /-- Components the configuration declares (R208). -/
  declared : List CompDecl := []
  /-- Components found beyond the limit, with the order in which they were found (R211). -/
  untracked : List (Nat × CompDecl) := []
  /-- A reconfiguration announced (R222). -/
  announced : Option Announced := none
  /-- CIFs by number, from the instants of those reported (R221). -/
  cifNo : Nat := 0
  /-- Nominal instant of the CIF last reported (R221). -/
  cifAt : Option Instant := none
  /-- The FAC last received declares a hierarchical mapping (R207). -/
  hierarchical : Bool := false
  /-- The FAC last received declares a 16-QAM SDC (R207). -/
  sdc16 : Bool := false
  /-- PROGRAMMES_UNTRACKED posted (R211). -/
  untrackedNoted : Bool := false
  /-- CIFs skipped since the last FIG Shaving (R241). -/
  figLost : Nat := 0
  /-- Robustness mode, occupancy, constellation, interleaving (R237). -/
  drm : List Nat := [0, 0, 0, 0]
  /-- Control blocks, failures, SDC blocks, failures (R237). -/
  control : List Nat := [0, 0, 0, 0]
  /-- Alert settings (R246). -/
  alertCfg : AlertCfg := {}
  /-- Active alerts (R248). -/
  alerts : List Alert := []
  /-- Next alert number (R248). -/
  alertNext : W16 := 0
  /-- Announcements seen once: source, type, count (R248). -/
  alertSeen : List (Nat × Nat × Nat) := []
  /-- Chain blocks with GAP_BEFORE (R206). -/
  gapsSeen : Nat := 0
  /-- Reconfigurations seen (R237). -/
  reconfigs : Nat := 0
  deriving DecidableEq, Repr

/-- What every other chain owner and object shares. -/
structure SimpleObj where
  /-- Index (R331). -/
  idx : Nat := 0
  /-- Generation (R332). -/
  gen : Nat := 0
  /-- Marked for SENTRY (R38). -/
  sentry : Bool := false
  /-- Shut down, completion event to come (R336). -/
  removing : Bool := false
  /-- Shed (R539). -/
  shed : Bool := false
  /-- Creation order (R538). -/
  serial : Nat := 0
  deriving DecidableEq, Repr

/-- A diversity branch (R136). -/
structure Branch where
  /-- Object (R136). -/
  o : SimpleObj := {}
  /-- Its reception (R373). -/
  reception : Nat := 0
  /-- Its chain (R24). -/
  chain : Chain := {}
  deriving DecidableEq, Repr

/-- A raw sub-band tap (R152). -/
structure Tap where
  /-- Object (R152). -/
  o : SimpleObj := {}
  /-- Window (R373). -/
  window : Nat := 0
  /-- Its chain (R24). -/
  chain : Chain := {}
  deriving DecidableEq, Repr

/-- Candidate states, codes 0 to 5 (R274). -/
inductive CandState where
  /-- 0 -/
  | unchecked
  /-- 1 -/
  | probing
  /-- 2 -/
  | verified
  /-- 3 -/
  | rejected
  /-- 4 -/
  | outside
  /-- 5 -/
  | glanced
  deriving DecidableEq, Repr

/-- A candidate entry of a follow object (R259, R274). -/
structure Cand where
  /-- Frequency (R274). -/
  freq : Nat := 0
  /-- Standard (R274). -/
  kind : Kind := .fm
  /-- Origin bits (R274). -/
  origin : Nat := 0
  /-- State (R274). -/
  state : CandState := .unchecked
  /-- Metric in 0.1 dB (R274). -/
  metric : Option Int := none
  /-- When the metric was computed (R274). -/
  metricAt : Nat := 0
  /-- The measure at the latest instants 100 ms apart, at most ten, the newest first (R266). -/
  samples : List (Option Int) := []
  /-- Running sums of reference-point and error-vector power at the newest of them (R236, R266). -/
  sumsMark : Nat × Nat := (0, 0)
  /-- What they were measured on: a reception, or a probe (R267). -/
  source : Option (Bool × Nat) := none
  /-- Identity as received (R274). -/
  identity : Nat := 0
  /-- When a source last signalled it (R259). -/
  signalled : Nat := 0
  /-- When it was rejected (R262). -/
  rejectedAt : Nat := 0
  /-- Since when it beats the current reception (R268). -/
  beatSince : Option Nat := none
  /-- A probe is acquired on it (R267). -/
  acquired : Bool := false
  deriving DecidableEq, Repr

/-- A following probe (R261). -/
structure Probe where
  /-- Object (R261). -/
  o : SimpleObj := {}
  /-- Follow object (R261). -/
  follow : Option Handle := none
  /-- Attachment that takes effect at the end of the dwell (R379). -/
  nextFollow : Option (Option Handle) := none
  /-- Its chain (R24). -/
  chain : Chain := {}
  /-- Chain block given, with the bank it prefers (R261). -/
  block : List Byte := []
  /-- Rate code given (R261). -/
  kind : Kind := .fm
  /-- When its dwell began (R263). -/
  dwellAt : Nat := 0
  /-- Candidate entry of a probe without a follow object (R274). -/
  entry : Cand := {}
  /-- Analogue demodulation of its channel (R270). -/
  dem : Demod := {}
  /-- Digital demodulation of its channel (R270). -/
  ofdm : Ofdm := {}
  /-- RDS streams of its channel (R262, R270). -/
  rds : List RdsStream := []
  deriving DecidableEq, Repr

/-- A switch decision not yet carried out (R268, R273). -/
structure Decision where
  /-- Cause (R272). -/
  cause : Nat := 0
  /-- Member to switch to (R269). -/
  member : Option Nat := none
  /-- Candidate to retarget to (R270). -/
  cand : Option (Nat × Kind) := none
  /-- Probe that holds it (R270). -/
  probe : Nat := 0
  deriving DecidableEq, Repr

/-- A follow object (R256, R257). -/
structure Follow where
  /-- Object (R256). -/
  o : SimpleObj := {}
  /-- Settings applied (R257). -/
  payload : List Byte := []
  /-- Serving reception (R257). -/
  serving : Nat := 0
  /-- Blend pair (R257). -/
  blend : Option Nat := none
  /-- 0 advise, 1 switch (R257). -/
  mode : Nat := 0
  /-- Sources (R257). -/
  sources : Nat := 15
  /-- Hysteresis in 0.5 dB (R257). -/
  hyst : Nat := 12
  /-- Digital preference in 0.5 dB (R257). -/
  pref : Int := 0
  /-- Hold in 100 ms (R257). -/
  hold : Nat := 20
  /-- Identities, type and value (R258). -/
  idents : List (Nat × Nat) := []
  /-- Members (R257). -/
  members : List Nat := []
  /-- Current reception (R257). -/
  current : Nat := 0
  /-- Current metric (R274). -/
  currentMetric : Option Int := none
  /-- Candidates (R259). -/
  cands : List Cand := []
  /-- Switches since creation (R274). -/
  switches : W32 := 0
  /-- When it last switched (R268). -/
  lastSwitch : Option Nat := none
  /-- Decision being carried out (R273). -/
  pending : Option Decision := none
  /-- Decision held behind it (R273). -/
  heldDecision : Option Decision := none
  /-- Decision last advised in mode 0 (R268). -/
  advised : Option Decision := none
  /-- When the metrics were last computed (R266). -/
  gaugeAt : Option Nat := none
  /-- A current reception that is lost has had its probes sent down the captured candidates by their last metric (R268). -/
  touring : Bool := false
  /-- Antenna instant at which the last metric interval ended (R272). -/
  metricEnd : Instant := {}
  /-- Glance: tuner, frequency, kind, since (R264). -/
  glance : Option (Nat × Nat × Kind × Nat) := none
  deriving DecidableEq, Repr

/-- A MOT object in reassembly (R243). -/
structure MotObj where
  /-- Transport ID (R243). -/
  tid : Nat := 0
  /-- When its last segment arrived (R243). -/
  lastAt : Nat := 0
  /-- A MOT directory (R243). -/
  directory : Bool := false
  /-- Size its header declares, 0 while unknown (R243). -/
  declared : Nat := 0
  /-- Header segments received (R243). -/
  header : List (Nat × List Byte) := []
  /-- Body segments received (R243). -/
  body : List (Nat × List Byte) := []
  /-- Number of the last header segment (R243). -/
  headerLast : Option Nat := none
  /-- Number of the last body segment (R243). -/
  bodyLast : Option Nat := none
  deriving DecidableEq, Repr

/-- Segments of a dynamic label or a text message under one toggle bit (R242). -/
structure LabelSet where
  /-- Toggle bit (R242). -/
  toggle : Bool := false
  /-- Character set, from the first segment (R242). -/
  charset : Byte := 0
  /-- Segments received (R242). -/
  parts : List (Nat × List Byte) := []
  /-- Number of the last segment (R242). -/
  last : Option Nat := none
  deriving DecidableEq, Repr

/-- A programme (R208, R177). -/
structure Programme where
  /-- Index (R331). -/
  idx : Nat := 0
  /-- Generation (R332). -/
  gen : Nat := 0
  /-- Its reception (R208). -/
  reception : Nat := 0
  /-- Identity and configuration (R209). -/
  decl : CompDecl := {}
  /-- ABSENT since (R210). -/
  absentAt : Option Nat := none
  /-- Selected for decoding (R374). -/
  selected : Bool := false
  /-- Reserve flag (R374). -/
  reserve : Bool := false
  /-- Decode charge (R213). -/
  charge : Nat := 0
  /-- Decoding suspended (R214). -/
  suspended : Bool := false
  /-- Shed by step 2 or 4, 0 not shed (R538). -/
  shedStep : Nat := 0
  /-- Order in which the selection was made (R538). -/
  serial : Nat := 0
  /-- Measured (R375). -/
  measured : Bool := false
  /-- Interval in 100 ms (R375). -/
  interval : Nat := 10
  /-- Interval from the next one on (R202). -/
  nextInterval : Nat := 10
  /-- Silence threshold (R375). -/
  threshold : Int := -60
  /-- Silence time in s (R375). -/
  silenceS : Nat := 10
  /-- Antenna instant at which the interval began (R202). -/
  intervalAt : Option Instant := none
  /-- The reception's counts when the interval began (R206). -/
  marks : List Nat := []
  /-- The reception's impulse-response sums when the interval began (R236). -/
  echoMark : List Nat := []
  /-- The reception's losses when the programme was created (R206). -/
  lossesAt : W16 := 0
  /-- First value below the threshold (R205). -/
  belowSince : Option Instant := none
  /-- Unconcealed time below the threshold (R205). -/
  belowMs : Nat := 0
  /-- Silence reported (R205). -/
  silent : Bool := false
  /-- Audio held back for 2 ms, oldest first (R185). -/
  hold : List AudioFrame := []
  /-- Antenna instant of the next frame of its audio (R185, R235). -/
  audioNext : Option Instant := none
  /-- Its audio is in a break that it fades back from (R185). -/
  broken : Bool := false
  /-- Frames left of the fade-in (R185, R235). -/
  fadeIn : Nat := 0
  /-- Audio of the last unit that decoded well (R235). -/
  lastGood : List (Int × Int) := []
  /-- Loudness (R204). -/
  loud : Loud := {}
  /-- Antenna instant of the last decoded sample (R608). -/
  lastAudio : Instant := {}
  /-- Concealed audio in the interval, in ticks (R206). -/
  concealed : Nat := 0
  /-- Bits checked and differing, RS codewords, bytes corrected, codewords uncorrectable and superframe synchronisation failures in the
  interval (R237). -/
  checks : List Nat := []
  /-- Superframes in a row whose firecode passed, by logical-frame phase while synchronisation is not held (R221). -/
  firecodes : List Nat := []
  /-- Superframes in a row whose firecode failed while it is held (R221). -/
  misses : Nat := 0
  /-- The logical-frame phase at which synchronisation is or was last held (R221). -/
  phase : Nat := 0
  /-- Superframe synchronisation is held (R221). -/
  superSync : Bool := false
  /-- Audio units since the interval began (R237). -/
  units : Nat := 0
  /-- Audio units that failed (R237). -/
  unitFails : Nat := 0
  /-- The last unit failed (R235). -/
  lastUnitFailed : Bool := false
  /-- When a unit last failed its check (R266). -/
  failedAt : Option Nat := none
  /-- Last complete label (R242). -/
  label : Option (Byte × Bool × List Byte) := none
  /-- Segments of the label or text message in reception (R242). -/
  labelSet : LabelSet := {}
  /-- MOT objects in reassembly (R243). -/
  mot : List MotObj := []
  /-- Objects abandoned since the last delivered (R244). -/
  motAbandoned : Nat := 0
  deriving DecidableEq, Repr

/-- A standing selection or measurement setting made by identity (R212, R375). -/
structure Standing where
  /-- Reception (R212). -/
  reception : Nat := 0
  /-- Service identifier (R212). -/
  service : Nat := 0
  /-- Component (R212). -/
  component : Nat := 0
  /-- Selection made, with its reserve flag (R212). -/
  select : Option Bool := none
  /-- Measurement made: interval, threshold, silence time (R375). -/
  measure : Option (Nat × Int × Nat) := none
  /-- Order in which it was made (R538). -/
  serial : Nat := 0
  deriving DecidableEq, Repr

/-- A PCM output (R283). -/
structure PcmOut where
  /-- Object (R283). -/
  o : SimpleObj := {}
  /-- Source handle (R283). -/
  source : Handle := {}
  /-- Class of the source: 0 programme, 1 follow object, 2 blend pair, 3 none (R283). -/
  sourceCls : Nat := 3
  /-- TDM port, 0xFF host only (R283). -/
  port : Nat := 0xFF
  /-- First slot (R283). -/
  slot : Nat := 0
  /-- Channel mode (R283). -/
  chMode : Nat := 0
  /-- Mute (R283). -/
  mute : Nat := 0
  /-- Gain in 0.5 dB (R283). -/
  gain : Int := 0
  /-- Start depth in 0.25 ms (R377). -/
  depth : Nat := 1
  /-- Underruns since routed (R377). -/
  underruns : W32 := 0
  /-- Playing (R285). -/
  playing : Bool := false
  /-- Source frames that make part of a 48 kHz frame yet, in 1/48,000 of a source frame period (R285). -/
  carry : Nat := 0
  /-- Output FIFO: frames at 48 kHz, oldest first (R285). -/
  fifo : List AudioFrame := []
  /-- Frames played and not yet in a PCM Shaving (R286). -/
  played : List AudioFrame := []
  /-- Frames left of a fade-in, and its length (R284, R285). -/
  fade : Nat × Nat := (0, 0)
  /-- Frames left of a fade-in of the TDM port alone, and its length (R95). -/
  portFade : Nat × Nat := (0, 0)
  /-- Antenna instant that the next frame played would have, and its programme (R285). -/
  nextAt : Instant := {}
  /-- Programme of the last frame played (R286). -/
  lastProg : Nat := 0xFFFF
  /-- Frames of the source that a cross-fade leaves, oldest first (R284). -/
  leaving : List AudioFrame := []
  /-- Frames left of the cross-fade, and its length (R269, R284). -/
  cross : Nat × Nat := (0, 0)
  deriving DecidableEq, Repr

/-- Receptions, programmes and everything that owns a chain (chapters 06 to 10). -/
structure ProgS where
  /-- Receptions (R23). -/
  receptions : List Reception := []
  /-- Diversity branches (R23). -/
  branches : List Branch := []
  /-- Raw taps (R331). -/
  taps : List Tap := []
  /-- Probes (R23). -/
  probes : List Probe := []
  /-- Follow objects (R256). -/
  follows : List Follow := []
  /-- Programmes (R208). -/
  programmes : List Programme := []
  /-- Standing selections and measurements (R212). -/
  standing : List Standing := []
  /-- PCM outputs (R283). -/
  pcms : List PcmOut := []
  deriving DecidableEq, Repr

/-- Generation counters per class (R331, R332), which survive every reset. -/
structure Gens where
  /-- Receptions (R332). DESIGN CHOICE, log 1. -/
  reception : List Nat := List.replicate 256 0
  /-- Branches (R332). DESIGN CHOICE, log 1. -/
  branch : List Nat := List.replicate 32 0
  /-- Programmes (R332). DESIGN CHOICE, log 1. -/
  programme : List Nat := List.replicate 1024 0
  /-- Probes (R332). DESIGN CHOICE, log 1. -/
  probe : List Nat := List.replicate 32 0
  /-- Taps (R332). DESIGN CHOICE, log 1. -/
  tap : List Nat := List.replicate 320 0
  /-- Follow objects (R332). DESIGN CHOICE, log 1. -/
  follow : List Nat := List.replicate 32 0
  /-- Blend pairs (R332). DESIGN CHOICE, log 1. -/
  blend : List Nat := List.replicate 8 0
  /-- PCM outputs (R332). DESIGN CHOICE, log 1. -/
  pcm : List Nat := List.replicate 32 0
  /-- Banks 0 to 31 and curve tables 0 to 3, which no load advances (R335). DESIGN CHOICE, log 1. -/
  fixed : Nat := 0
  deriving DecidableEq, Repr

/-- Blend pair states, codes 0 to 4 (R281). -/
inductive BlendState where
  /-- 0 -/
  | unaligned
  /-- 1 -/
  | aligned
  /-- 2 -/
  | fading
  /-- 3 -/
  | draining
  /-- 4 -/
  | building
  deriving DecidableEq, Repr

/-- What Scarf keeps of a branch for its correlations (R276). -/
structure BranchEnv where
  /-- Mono sum at 48 kHz, the latest 12 s (R276). -/
  audio : List Int := []
  /-- Envelope in steps of 2 ms, the latest 12 s (R276). -/
  steps : List Byte := []
  /-- Audio that makes no step yet (R276). -/
  part : List Int := []
  deriving DecidableEq, Repr

/-- A blend pair (R275 to R281). -/
structure Blend where
  /-- Object (R275). -/
  o : SimpleObj := {}
  /-- Branch A (R275). -/
  a : Handle := {}
  /-- Branch B (R275). -/
  b : Handle := {}
  /-- Curve (R275). -/
  curve : Nat := 0
  /-- Level matching (R275). -/
  level : Nat := 1
  /-- Fade length (R275). -/
  fadeMs : Nat := 400
  /-- Correlation range (R275). -/
  range : Nat := 4000
  /-- Drain rate in 0.5 % (R275). -/
  drain : Nat := 6
  /-- Alignment wait in 100 ms (R275). -/
  wait : Nat := 20
  /-- Change of branch held until the fade ends (R275). -/
  heldBranch : Option (Handle × Handle) := none
  /-- State (R281). -/
  state : BlendState := .unaligned
  /-- Previous state (R281). -/
  prev : BlendState := .unaligned
  /-- 0 A, 1 B (R281). -/
  playing : Nat := 0
  /-- UNALIGNED_FADE (R281). -/
  unalignedFade : Bool := false
  /-- NO_AUDIO (R281). -/
  noAudio : Bool := false
  /-- OFFSET_STEP (R281). -/
  offsetStep : Bool := false
  /-- Request held, naming the branch (R279). -/
  request : Option Nat := none
  /-- Request waiting for alignment, naming the branch (R279). -/
  waiting : Option Nat := none
  /-- When the alignment wait began (R279). -/
  waitAt : Nat := 0
  /-- D in 48 kHz samples (R281). -/
  offset : Int := 0
  /-- Delay in the line (R281). -/
  delay : Nat := 0
  /-- Last normalised peak (R281). -/
  peak : Nat := 0
  /-- Agreeing measurements (R277). -/
  agree : List Int := []
  /-- Measurements without a peak (R277). -/
  misses : Nat := 0
  /-- When the drain, build or fade began (R280). -/
  motionAt : Nat := 0
  /-- When the fade began (R278). -/
  fadeAt : Nat := 0
  /-- The held request follows a loss decision (R279). -/
  requestLoss : Bool := false
  /-- Curve copied at the start of the fade (R278). -/
  copied : List Nat := []
  /-- Length of the fade in progress, in ms (R278). -/
  fadeNow : Nat := 0
  /-- Frames of the fade that have been played (R278). -/
  fadePos : Nat := 0
  /-- Audio of branch A and of branch B that has not been played, oldest first (R276, R280). -/
  lines : List AudioFrame × List AudioFrame := ([], [])
  /-- Source frames that make part of a 48 kHz frame yet, for each branch (R276). -/
  carry : Nat × Nat := (0, 0)
  /-- Envelopes of branch A and of branch B (R276). -/
  env : BranchEnv × BranchEnv := ({}, {})
  /-- When the branches were last correlated (R276). -/
  corrAt : Option Nat := none
  /-- Samples by which the delay is yet to change by time-scaling (R277). -/
  slip : Int := 0
  /-- What the playing branch has played, the latest 4 s (R277). -/
  past : List AudioFrame := []
  /-- What a splice leaves, yet to be faded out (R277). -/
  splice : List AudioFrame := []
  /-- Gain applied to branch B, in 1/96,000 dB (R278). -/
  gainB : Int := 0
  /-- The branches are aligned (R277). -/
  aligned : Bool := false
  /-- Epoch of the last change (R281). -/
  epoch : W16 := 0
  /-- Device time of the last change (R281). -/
  stamp : Tick := 0
  deriving DecidableEq, Repr

/-- A user coefficient bank 32 to 63 (R158, R159). -/
structure Bank where
  /-- Generation (R159). DESIGN CHOICE, log 1. -/
  gen : Nat := 0
  /-- Kind named by the last BANK_LOAD (R158). -/
  kind : Option Nat := none
  /-- Coefficients (R159). -/
  taps : List Int := []
  deriving DecidableEq, Repr

/-- A curve table 4 to 15 (R282). -/
structure Curve where
  /-- Generation (R331). DESIGN CHOICE, log 1. -/
  gen : Nat := 0
  /-- Points, none while never loaded (R282). -/
  points : Option (List Nat) := none
  deriving DecidableEq, Repr

/-- Blend pairs, coefficient banks, curves and TDM ports (chapters 06, 10). -/
structure MixS where
  /-- Blend pairs (R275). -/
  blends : List Blend := []
  /-- User banks 32 to 63 (R158). -/
  banks : List Bank := List.replicate 32 {}
  /-- Curve tables 4 to 15 (R282). -/
  curves : List Curve := List.replicate 12 {}
  /-- TDM configuration in use, which follows the setting at a frame boundary (R287). -/
  tdm : List TdmConfig := [{}, {}, {}, {}]
  /-- Follower ports without a frame sync (R289). DESIGN CHOICE, log 1. -/
  followerLost : List Bool := [false, false, false, false]
  deriving DecidableEq, Repr

/-- A PLAN_COMMIT whose shut-downs run (R350). -/
structure PlanCommit where
  /-- Who is to be answered; none after a restart of the Headstock (R350). -/
  resp : Option Deferred := none
  /-- The plan data, empty for the plan as it stands (R349). -/
  bytes : List Byte := []
  /-- It declared 0 parts (R346). -/
  asStands : Bool := false
  /-- VOLATILE (R347). -/
  keep : Bool := false
  deriving DecidableEq, Repr

/-- The active plan and the staging area (chapter 12). -/
structure PlanS where
  /-- Active plan sequence (R344). DESIGN CHOICE, log 1. -/
  seq : W32 := 0
  /-- The active plan was committed as volatile (R47). DESIGN CHOICE, log 1. -/
  volatile : Bool := false
  /-- Bindings: output code, source handle, class, ring (R315). -/
  binds : List (Nat × Handle × Nat × Nat) := []
  /-- Stage number (R348). DESIGN CHOICE, log 1. -/
  stage : W16 := 0
  /-- Staged plan: parts and length (R348). -/
  staged : Option (Nat × Nat) := none
  /-- Parts received: number, offset, data (R348). -/
  parts : List (Nat × Nat × List Byte) := []
  /-- A commit that waits for the shut-downs of the objects it removes (R350). -/
  committing : Option PlanCommit := none
  /-- Objects of a committed plan wait for its windows (R350). -/
  starting : Bool := false
  deriving DecidableEq, Repr

/-- The header of a staged Shaving, completed when it is delivered (R316). -/
structure ShavingHdr where
  /-- Kind (R316). -/
  kind : Nat := 0
  /-- UNSETTLED (R316). -/
  unsettled : Bool := false
  /-- REPEAT (R316). -/
  again : Bool := false
  /-- CONCEALED (R316). -/
  concealed : Bool := false
  /-- EPOCH_CHANGED (R316). -/
  epochChanged : Bool := false
  /-- GAP_BEFORE (R316). -/
  gap : Bool := false
  /-- Lost count (R316). -/
  lost : Nat := 0
  /-- Source handle (R316). -/
  source : Handle := {}
  /-- Programme index (R316). -/
  prog : Nat := 0xFFFF
  /-- Epoch (R316). -/
  epoch : W16 := 0
  /-- Time-stamp (R316). -/
  stamp : Tick := 0
  /-- Ring sequence (R316). -/
  seq : W32 := 0
  deriving DecidableEq, Repr

/-- A staged entry of a ring (R306, R312). -/
structure Entry where
  /-- Header of a Shaving, none for a frame (R316). -/
  head : Option ShavingHdr := none
  /-- Payload of a Shaving, or the whole frame (R306). -/
  bytes : List Byte := []
  /-- Pieces of one MOT object share a number above 0 (R312). -/
  group : Nat := 0
  deriving DecidableEq, Repr

/-- A ring's descriptor state and contents (R303 to R314). -/
structure Ring where
  /-- BASE_LO (R303). -/
  baseLo : W32 := 0
  /-- BASE_HI (R303). -/
  baseHi : W32 := 0
  /-- HEAD (R303). -/
  head : W32 := 0
  /-- TAIL (R303). -/
  tail : W32 := 0
  /-- ENABLED (R303). -/
  enabled : Bool := false
  /-- BUSY (R303). -/
  busy : Bool := false
  /-- POINTER_ERROR (R303). -/
  pointerError : Bool := false
  /-- DROPPED (R303). -/
  dropped : Bool := false
  /-- DROP_COUNT (R303). -/
  dropCount : Nat := 0
  /-- Ring sequence (R309). -/
  seq : W32 := 0
  /-- Entries staged, oldest first; command frames waiting in a host-produced ring (R312). -/
  entries : List Entry := []
  /-- Blocks lost per source since its last delivered block (R313). -/
  lost : List (Handle × Nat) := []
  /-- An event-ring drop not yet flagged (R314). -/
  eventsLost : Bool := false
  /-- Bytes made visible and not notified (R320). -/
  unnotified : Nat := 0
  /-- When the oldest of them became visible (R320). -/
  unnotifiedAt : Option Nat := none
  /-- BUSY was set and HEAD has not advanced since (R320). -/
  busyPending : Bool := false
  /-- The device examines the ring (R310). DESIGN CHOICE, log 1. -/
  fetching : Bool := false
  /-- Staging taken by MOT objects in reassembly (R244). -/
  motSpace : Nat := 0
  /-- The MOT object of which a piece has left the staging, 0 for none: the rest of it is not dropped (R312). -/
  begun : Nat := 0
  /-- Bytes of host-memory buffer that the frames fetched and not yet taken occupy (R305). -/
  fetched : Nat := 0
  deriving DecidableEq, Repr

/-- An entry of the MSI-X table, as PCI Express Base 3.0 lays it out (R294, R301). PRESUMED, log 128. -/
structure MsixVector where
  /-- Message address, bits 31:2. -/
  addrLo : W32 := 0
  /-- Message address, bits 63:32. -/
  addrHi : W32 := 0
  /-- Message data. -/
  data : W32 := 0
  /-- Vector control, the mask bit. -/
  masked : Bool := true
  deriving DecidableEq, Repr

/-- Host ports, registers and rings (chapter 11). -/
structure PortS where
  /-- The rings (R293). -/
  rings : List Ring := List.replicate 32 {}
  /-- INT_STATUS (R319). -/
  intStatus : W32 := 0
  /-- INT_MASK (R319). -/
  intMask : W32 := 0xFFFFF0FF
  /-- DIAG_WINDOW (R302). -/
  diag : Nat := 0
  /-- SPI status byte PUSH_OK (R299). -/
  pushOk : Bool := false
  /-- SPI status byte BUSY (R299). -/
  pushBusy : Bool := false
  /-- SPI status byte PUSH_MALFORMED (R299). -/
  pushBad : Bool := false
  /-- When the last SPI push ended, and the three bits before it: they may be read for 180 ns more (R593). -/
  pushPast : Option (Nat × Bool × Bool × Bool) := none
  /-- PCIE_GEN (R302). -/
  pcieGen : Nat := 0
  /-- PCIE_WIDTH (R302). -/
  pcieWidth : Nat := 0
  /-- BUS_MASTER (R302). -/
  busMaster : Bool := false
  /-- BAR0, bits 31:16 of its address (R294). PRESUMED, log 128. -/
  bar0 : W32 := 0
  /-- BAR2, bits 31:22 of its address (R294). PRESUMED, log 128. -/
  bar2Lo : W32 := 0
  /-- BAR2, bits 63:32 of its address (R294). PRESUMED, log 128. -/
  bar2Hi : W32 := 0
  /-- The MSI-X table (R294). -/
  msix : List MsixVector := List.replicate 32 {}
  /-- The MSI-X pending bits (R294). PRESUMED, log 128. -/
  pba : W32 := 0
  /-- TEMP.JUNCTION (R302). DESIGN CHOICE, log 1. -/
  junction : Int := 0
  /-- TEMP.ISLAND (R302). DESIGN CHOICE, log 1. -/
  hotIsland : Nat := 0
  /-- Ports whose planned rate exceeds their budget (R29). -/
  overBudget : List Bool := [false, false, false]
  /-- Responses that do not fit their ring (R314). -/
  respWait : List (Nat × Entry) := []
  /-- Last epoch each source wrote in each ring (R110). -/
  seen : List (Nat × Handle × W16) := []
  deriving DecidableEq, Repr

/-- A controller transfer (R395). -/
inductive XferKind where
  /-- bus recovery -/
  | recovery
  /-- supply write -/
  | supply
  /-- attention message -/
  | attention
  /-- BUS_XFER -/
  | user (op addr speed : Nat) (wr : List Byte) (rd : Nat)
  deriving DecidableEq, Repr

/-- A queued controller transfer. -/
structure Xfer where
  /-- Transfer number (R395). The model's own. -/
  id : Nat := 0
  /-- What is sent (R395). -/
  kind : XferKind := .attention
  /-- Retries made (R403). -/
  retries : Nat := 0
  /-- When it was queued (R395). -/
  queuedAt : Nat := 0
  deriving DecidableEq, Repr

/-- The two-wire block as controller (chapter 14). -/
structure BusS where
  /-- Transfers waiting and in progress (R395). -/
  queue : List Xfer := []
  /-- Transfer in progress (R395). -/
  active : Option Nat := none
  /-- Next transfer number (R395). The model's own. -/
  next : Nat := 0
  /-- BUS_STUCK in force (R402). -/
  stuck : Bool := false
  /-- Ring mask last seen (R397). -/
  attnMask : BitVec 24 := 0
  /-- The last attention message was acknowledged (R398). DESIGN CHOICE, log 1. -/
  attnAcked : Bool := false
  /-- When the last attention message ended (R398). -/
  attnAt : Option Nat := none
  /-- When the last supply write ended (R396). DESIGN CHOICE, log 1. -/
  supplyAt : Nat := 0
  /-- When the last recovery ended (R402). DESIGN CHOICE, log 1. -/
  recoveryAt : Nat := 0
  /-- Consecutive supply writes NAKed (R396). -/
  supplyFails : Nat := 0
  /-- Lowering of VDD_CORE stopped (R396). -/
  supplyStopped : Bool := false
  /-- LINEAR16 exponent read from VOUT_MODE (R396). -/
  voutExp : Option Int := none
  /-- Gokixel has taken over the adaptive supply (R83). -/
  firstCommand : Bool := false
  deriving DecidableEq, Repr

/-- Link states, codes 0 to 3 (R451). -/
inductive LinkState where
  /-- 0 -/
  | off
  /-- 1 -/
  | lost
  /-- 2 -/
  | synced
  /-- 3 -/
  | gathering
  deriving DecidableEq, Repr

/-- Radio states, codes 0 to 4 (R429). -/
inductive Radio where
  /-- 0 -/
  | sleep
  /-- 1 -/
  | standby
  /-- 2 -/
  | synth
  /-- 3 -/
  | rx
  /-- 4 -/
  | tx
  deriving DecidableEq, Repr

/-- A frame of the transmit queue (R462). -/
structure TxFrame where
  /-- Frame counter (R462). -/
  counter : Nat := 0
  /-- Destination (R462). -/
  dest : Nat := 0
  /-- Payload (R462). -/
  payload : List Byte := []
  /-- Repeats used (R464). -/
  repeats : Nat := 0
  /-- Attempt number (R456). -/
  attempt : Nat := 0
  /-- It has been on air (R464). -/
  onAir : Bool := false
  /-- SFN of its previous copy (R492). -/
  lastSfn : Option Nat := none
  /-- It awaits acknowledgement (R463). -/
  awaiting : Bool := false
  /-- Earliest superframe of its next copy (R456). -/
  dueSfn : Nat := 0
  /-- REPEAT was set in the last copy (R464). -/
  again : Bool := false
  /-- Hop slot of the last copy, when it was a fallback frame (R460). -/
  lastHop : Option Nat := none
  /-- Channel, sweep length, width, rate and power of the last copy (R476). -/
  lastTx : Option (Nat × Nat × Nat × Nat × Int) := none
  deriving DecidableEq, Repr

/-- The transmission in progress (R411, R434). -/
structure OnAir where
  /-- Counter of the queued frame sent, none for a beacon (R434). -/
  frame : Option Nat := none
  /-- When it began (R423). -/
  started : Nat := 0
  /-- Its airtime (R420). -/
  airtime : Nat := 0
  /-- It is the last copy of a downlink (R466). -/
  last : Bool := false
  /-- Centre (R407). -/
  channel : Nat := 0
  deriving DecidableEq, Repr

/-- A transmission that fell due while the synthesiser was settling (R431). -/
structure HeldTx where
  /-- Its frame (R431). -/
  counter : Nat := 0
  /-- Its superframe (R431). -/
  sfn : Nat := 0
  /-- Its scheduled start (R431). -/
  due : Nat := 0
  /-- Start guard (R458). -/
  guardTicks : Nat := 0
  /-- Hop slot of a fallback frame (R460). -/
  hop : Option Nat := none
  /-- Channel drawn: centre (R457). -/
  centre : Nat := 0
  /-- Channel drawn: width (R457). -/
  width : Nat := 0
  deriving DecidableEq, Repr

/-- A frame being received by a detector (R424). -/
structure RxFrame where
  /-- Lane (R471). -/
  lane : Nat := 0
  /-- Sweep length (R422). -/
  sl : Nat := 4
  /-- Antenna instant of its sync pair (R423). -/
  sync : Instant := {}
  /-- Carrier offset in Hz (R422). -/
  offsetHz : Int := 0
  /-- Header word once its check has passed (R412). -/
  header : Option (BitVec 24) := none
  /-- Protected (R426). -/
  guarded : Bool := false
  deriving DecidableEq, Repr

/-- The Burlar link (chapters 15, 16). -/
structure LinkS where
  /-- Link state (R451). DESIGN CHOICE, log 1. -/
  state : LinkState := .off
  /-- Stopped by LINK_STOP (R433). -/
  stopped : Bool := false
  /-- LINK_STOPPED to come (R433). -/
  stopping : Bool := false
  /-- Settings that take effect at LINK_STOPPED (R406). -/
  newConfig : Option LinkConfig := none
  /-- Radio state (R429). DESIGN CHOICE, log 1. -/
  radio : Radio := .sleep
  /-- Transition in progress (R430). -/
  radioTo : Option Radio := none
  /-- When it completes (R430). DESIGN CHOICE, log 1. -/
  radioAt : Nat := 0
  /-- Transmission held until the radio reaches SYNTH (R431). -/
  heldTx : Option HeldTx := none
  /-- End of the node's current receive window (R408). DESIGN CHOICE, log 1. -/
  listenTo : Nat := 0
  /-- Superframe whose beacon window or search window is open (R454). -/
  beaconSfn : Option Nat := none
  /-- Superframe in which a frame was last scheduled (R456). -/
  slotSfn : Option Nat := none
  /-- Frame counter (R467). DESIGN CHOICE, log 1. -/
  counter : Nat := 0
  /-- Reservation high-water mark (R50). DESIGN CHOICE, log 1. -/
  reserved : Nat := 0
  /-- Link counters available (R467). -/
  counterOk : Bool := true
  /-- Ledger buckets per sub-band: device-time second and units (R469). -/
  buckets : List (List (Int × Nat)) := []
  /-- Spans of seconds, from and up to, whose buckets count as fully used in every ledger (R58). -/
  allUsed : List (Int × Int) := []
  /-- Transmit queue (R462). -/
  queue : List TxFrame := []
  /-- Transmission in progress (R434). -/
  air : Option OnAir := none
  /-- Frames being received (R424). -/
  rx : List RxFrame := []
  /-- Gatherer time less device time (R453). -/
  offset : Option Int := none
  /-- Gatherer followed (R452). -/
  gatherer : Option Nat := none
  /-- SFN of the last accepted beacon (R452). -/
  lastSfn : Option Nat := none
  /-- Device time of the last accepted beacon, in ticks (R454). DESIGN CHOICE, log 1. -/
  lastBeacon : Nat := 0
  /-- Timing and channels taken from the last beacon (R453). DESIGN CHOICE, log 1. -/
  net : GatherConfig := {}
  /-- Search window in s (R455). DESIGN CHOICE, log 1. -/
  window : Nat := 0
  /-- Tags of the last accepted beacon (R463). -/
  heard : List Nat := []
  /-- Recent frames: node, counter, superframe of entry (R472). -/
  recent : List (Nat × Nat × Nat) := []
  /-- Tags to send: tag, sync instant, beacons missed (R473). -/
  tags : List (Nat × Nat × Nat) := []
  /-- Configuration awaiting the superframe boundary (R447). -/
  gatherTo : Option GatherConfig := none
  /-- Configuration of GPIO4 that waits for the frame on air (R583). -/
  gpio4 : Option GpioConfig := none
  /-- When the link counters record was last written for the 60 s snapshot (R50). DESIGN CHOICE, log 1. -/
  snapAt : Nat := 0
  /-- The downlink window of this superframe is not used (R449). -/
  downBlocked : Bool := false
  deriving DecidableEq, Repr

/-- GET_LINK_STATS counts (R477). -/
structure LinkStats where
  /-- Counts at offsets 0 to 84 (R477). -/
  c : List W32 := List.replicate 22 0
  /-- Abandoned for own transmission, offset 164 (R477). -/
  own : W32 := 0
  /-- LINK_DRIVE_LIMITED posted since the last LINK_CONFIG (R441). -/
  driveNoted : Bool := false
  deriving DecidableEq, Repr

/-- The Mortise's state, codes 0 to 2 (R506). -/
inductive ModuleState where
  /-- 0 -/
  | operational
  /-- 1 -/
  | error
  /-- 2 -/
  | recovery
  deriving DecidableEq, Repr

/-- The Mortise (chapter 17). -/
structure MortiseS where
  /-- Module state (R506). -/
  state : ModuleState := .operational
  /-- Keys in use (R483). -/
  keys : List (Option (List Byte)) := [none, none, none]
  /-- Rollback counter (R496). DESIGN CHOICE, log 1. -/
  rollback : Nat := 0
  /-- Image running (R506). DESIGN CHOICE, log 1. -/
  running : Nat := 0
  /-- Current challenge (R504). DESIGN CHOICE, log 1. -/
  challenge : List Byte := List.replicate 16 0
  /-- TEST unlocked (R504). -/
  unlocked : Bool := false
  /-- Continuous-test failures (R506). -/
  entropyFails : Nat := 0
  /-- DRBG requests since the last reseed (R500). -/
  requests : Nat := 0
  /-- Update in progress: target slot and image length (R497). -/
  fwSlot : Option (Nat × Nat) := none
  /-- Image data written: offset and bytes (R497). -/
  fwData : List (Nat × List Byte) := []
  /-- Regulatory profile in force (R499). -/
  profile : Option Profile := none
  /-- Slots being zeroised (R488). -/
  zeroising : List Nat := []
  deriving DecidableEq, Repr

/-- A calibration run asked for or triggered (R513, R524). -/
structure CalRun where
  /-- Converter (R513). -/
  adc : Nat := 0
  /-- 0 element, 1 IQ, 2 alignment (R380). -/
  kind : Nat := 0
  /-- Asked for by CAL_RUN (R524). -/
  asked : Bool := false
  /-- Result (R380). -/
  result : Option Nat := none
  deriving DecidableEq, Repr

/-- Calibration state of one converter (R525). -/
structure AdcCal where
  /-- Element selection pending (R525). DESIGN CHOICE, log 1. -/
  pending : Bool := false
  /-- When its trigger came (R518). DESIGN CHOICE, log 1. -/
  pendingAt : Nat := 0
  /-- The pending run belongs to a CAL_RUN (R524). -/
  asked : Bool := false
  /-- In the statistics phase (R517). -/
  stats : Bool := false
  /-- In the interruption (R517). -/
  interrupted : Bool := false
  /-- Interruption deferred by a fade (R520). -/
  deferred : Bool := false
  /-- When its statistics, its deferral or its interruption began (R517). DESIGN CHOICE, log 1. -/
  phaseAt : Nat := 0
  /-- Choice computed (R517). -/
  choice : Option ElemChoice := none
  /-- Reference temperature (R511). DESIGN CHOICE, log 1. -/
  reference : Int := 0
  /-- Current reading (R525). DESIGN CHOICE, log 1. -/
  temp : Int := 0
  /-- Last element result (R525). -/
  elemResult : Nat := 0xFF
  /-- Second of the last applied interruption (R525). DESIGN CHOICE, log 1. -/
  lastRun : Nat := 0
  /-- Activity of the last run (R525). DESIGN CHOICE, log 1. -/
  activity : Nat := 0
  /-- Unqualified runs since the last reset (R525). -/
  unqualified : W16 := 0
  /-- Runs applied since the last reset (R525). -/
  applied : W16 := 0
  /-- Last element run unqualified (R525). -/
  elemBad : Bool := false
  /-- Last triggered IQ run unqualified (R525). -/
  iqBad : Bool := false
  /-- Triggered IQ run in progress, asked for by CAL_RUN (R513). -/
  iqTriggered : Option Bool := none
  /-- IQ ramp in progress (R521). -/
  ramp : Bool := false
  /-- Gain correction (R525). DESIGN CHOICE, log 1. -/
  gain : Int := 0
  /-- Phase correction (R525). DESIGN CHOICE, log 1. -/
  phase : Int := 0
  /-- Target gain correction (R521). DESIGN CHOICE, log 1. -/
  gainTo : Int := 0
  /-- Target phase correction (R521). DESIGN CHOICE, log 1. -/
  phaseTo : Int := 0
  /-- Taps of the delay-mismatch filter (R521). DESIGN CHOICE, log 1. -/
  taps : List Int := []
  /-- Target taps (R521). DESIGN CHOICE, log 1. -/
  tapsTo : List Int := []
  /-- An unqualified element selection waits for its retry (R514). -/
  retry : Bool := false
  /-- When the last unqualified run ended (R514). DESIGN CHOICE, log 1. -/
  retryAt : Nat := 0
  /-- When the IQ ramp began (R521). DESIGN CHOICE, log 1. -/
  rampAt : Nat := 0
  /-- Alignment run in progress, asked for by CAL_RUN (R523). -/
  aligning : Option Bool := none
  /-- When the line last moved (R523). DESIGN CHOICE, log 1. -/
  alignAt : Nat := 0
  /-- When CAL_UNQUALIFIED was last posted per kind (R516). -/
  notedAt : List (Nat × Nat) := []
  deriving DecidableEq, Repr

/-- Jig, Grain and the adaptive supply (chapter 18). -/
structure CalS where
  /-- Calibration values in force (R509). DESIGN CHOICE, log 3. -/
  record : CalRecord := {}
  /-- Source: fuse fallback (R525). DESIGN CHOICE, log 1. -/
  fromFuses : Bool := false
  /-- Record writes since power-on reset (R525). -/
  writes : W32 := 0
  /-- Converters (R525). -/
  adcs : List AdcCal := List.replicate 5 {}
  /-- Runs of the outstanding CAL_RUN (R524). -/
  runs : List CalRun := []
  /-- VDD_CORE target in mV (R83). DESIGN CHOICE, log 1. -/
  vdd : Nat := 800
  /-- Canary margins in 0.1 % (R526). DESIGN CHOICE, log 1. -/
  margins : List Int := List.replicate 17 100
  /-- When the loop last raised VDD_CORE (R526). DESIGN CHOICE, log 1. -/
  raisedAt : Nat := 0
  /-- Since when the margin stays above 12 % (R526). -/
  above12At : Option Nat := none
  /-- The dividers in use are the reduced ones (R528). -/
  dividersReduced : Bool := false
  /-- When the reduction was decided (R528). -/
  reducedAt : Option Nat := none
  /-- When operation outside HOLD last began to count (R531). -/
  opSince : Nat := 0
  /-- Operation not yet counted in whole hours (R531). -/
  opTicks : Nat := 0
  /-- Second of the last assessment (R531). DESIGN CHOICE, log 1. -/
  lastAssess : Nat := 0
  /-- Operation outside HOLD at the last assessment since power-on, in ticks; none until the one of the power-on reset (R527). -/
  assessOp : Option Nat := none
  deriving DecidableEq, Repr

/-- A health-log entry (R549). -/
structure LogEntry where
  /-- Note code (R549). -/
  code : Nat := 0
  /-- Island (R549). -/
  island : Nat := 0xFF
  /-- Posted (R549). -/
  posted : Bool := false
  /-- Subject (R549). -/
  subject : Nat := 0
  /-- Value (R549). -/
  value : Nat := 0
  /-- Repeat count (R549). -/
  count : Nat := 1
  /-- Epoch (R549). -/
  epoch : W16 := 0
  /-- Device time (R549). -/
  time : Tick := 0
  /-- First occurrence (R549). -/
  firstAt : Nat := 0
  /-- Log sequence (R549). -/
  seq : W32 := 0
  /-- Delivered (R549). -/
  delivered : Bool := false
  deriving DecidableEq, Repr

/-- One Gouge engine (R533). -/
structure Engine where
  /-- In service (R533). DESIGN CHOICE, log 1. -/
  working : Bool := true
  /-- How long it has made no progress (R533). -/
  stalledMs : Nat := 0
  deriving DecidableEq, Repr

/-- Engines, Timber and the health log (chapter 19). -/
structure HealthS where
  /-- Engines (R533). -/
  engines : List Engine := List.replicate 16 {}
  /-- GU_LIMIT last announced (R302). -/
  limit : Nat := 14000
  /-- When the last scrub of Timber ended (R540). DESIGN CHOICE, log 1. -/
  scrubAt : Nat := 0
  /-- Outputs whose next Shaving follows a migration break: output code, class and source (R536). -/
  breaks : List (Nat × Nat × Handle) := []
  /-- Spare rows used per bank (R541). -/
  sparesUsed : List Nat := List.replicate 128 0
  /-- Rows relocated into the reserve (R541). -/
  relocated : Nat := 0
  /-- Correctable errors seen: word and time (R541). -/
  rowErrors : List (Nat × Nat) := []
  /-- Rows spared or relocated (R541). -/
  sparedRows : List Nat := []
  /-- Receptions whose snapshot is invalid (R542). -/
  badSnapshots : List Nat := []
  /-- When the contexts were last snapshotted (R534). DESIGN CHOICE, log 1. -/
  snapshotAt : Nat := 0
  /-- Islands with a BLOCK_FAULT (R543). -/
  blockFaults : List Nat := []
  /-- Engine each context runs on (R534). -/
  contexts : List (ChainOwner × Nat) := []
  /-- Health log (R548). -/
  log : List LogEntry := []
  /-- Next log sequence (R549). -/
  logSeq : W32 := 0
  deriving DecidableEq, Repr

/-- A survey record (R255). -/
structure SurveyEntry where
  /-- The record (R255). -/
  bytes : List Byte := []
  /-- Standard (R254). -/
  kind : Nat := 0
  /-- Frequency (R254). -/
  freq : Nat := 0
  /-- Pass in which it was found (R254). -/
  pass : Nat := 0
  deriving DecidableEq, Repr

/-- Where a placement of the survey stands (R252). -/
inductive SweepStage where
  /-- not begun -/
  | waiting
  /-- its tuner takes the opening steps (R120) -/
  | opening
  /-- samples are accepted -/
  | up
  /-- its candidates are confirmed, or no tuner can serve it -/
  | past
  deriving DecidableEq, Repr

/-- A survey candidate being confirmed (R252). -/
structure SurveyCand where
  /-- Band (R252). -/
  band : Nat := 0
  /-- Frequency (R252). -/
  freq : Nat := 0
  /-- Power (R252). -/
  power : Int := 0
  /-- Image power (R255). -/
  image : Option Int := none
  /-- When its dwell began (R252). -/
  since : Nat := 0
  /-- It holds a chain (R252). -/
  running : Bool := false
  deriving DecidableEq, Repr

/-- A placement of the survey (R252). -/
structure SurveyWin where
  /-- Band (R252). -/
  band : Nat := 0
  /-- Tuner, 4 for the HF input (R252). -/
  tuner : Nat := 0
  /-- Port (R251). -/
  port : Nat := 0
  /-- LO in Hz (R252). -/
  lo : Nat := 0
  /-- Width (R252). -/
  widthKhz : Nat := 0
  /-- Where it stands (R252). -/
  stage : SweepStage := .waiting
  deriving DecidableEq, Repr

/-- SURVEY mode (R251 to R255). -/
structure SurveyS where
  /-- Entries kept (R254). -/
  list : List SurveyEntry := []
  /-- Pass number (R255). -/
  pass : Nat := 0
  /-- When the pass began (R255). DESIGN CHOICE, log 1. -/
  passAt : Nat := 0
  /-- Configuration of this pass (R251). DESIGN CHOICE, log 1. -/
  cfg : SurveyConfig := {}
  /-- Candidates (R252). -/
  cands : List SurveyCand := []
  /-- Placements of the pass (R252). -/
  wins : List SurveyWin := []
  /-- Candidates of the pass (R255). DESIGN CHOICE, log 1. -/
  candidates : Nat := 0
  /-- Entries of the pass (R255). DESIGN CHOICE, log 1. -/
  entries : Nat := 0
  /-- Candidates rejected (R255). DESIGN CHOICE, log 1. -/
  rejected : Nat := 0
  /-- Identities found this pass (R255). -/
  idents : List (Nat × Nat × Nat) := []
  /-- SURVEY_LIST_FULL posted this pass (R254). -/
  fullNoted : Bool := false
  /-- A pass runs (R253). -/
  running : Bool := false
  /-- When the placements now up had all opened, and their spectrum began (R252). -/
  spectrumAt : Option Nat := none
  /-- The placements now up have their spectrum (R252). -/
  measured : Bool := false
  deriving DecidableEq, Repr

/-- The OMN-T1 emulation beyond its settings (chapter 20). -/
structure CompatS where
  /-- STATUS.READY (R557). -/
  ready : Bool := false
  /-- STATUS.FIFO_OVERFLOW (R557). -/
  overflow : Bool := false
  /-- IRQ_FLAGS (R557). -/
  irq : BitVec 4 := 0
  /-- RDS FIFO (R561). -/
  fifo : List (List Byte) := []
  /-- Bytes of the first group read (R561). -/
  fifoPos : Nat := 0
  /-- First byte of an UPDATE_KEY sequence and when it was written (R552). -/
  key : Option (Byte × Nat) := none
  /-- TUNE_FREQ written, not applied (R558). -/
  tuneFreq : Option Nat := none
  /-- BANDWIDTH written, not applied (R558). -/
  tuneBw : Option Nat := none
  /-- A newer tune, its frequency in kHz and its bandwidth code, that waits for the running retune (R560). -/
  tuneAgain : Option (Nat × Nat) := none
  /-- An applied tune sets TUNE_DONE when its retune ends (R557). -/
  applyDone : Bool := false
  /-- CH_FREQ written, not applied (R558). -/
  chFreq : List (Option Nat) := [none, none, none, none]
  /-- CH_SERVICE written, not applied (R558). -/
  chService : List (Option Nat) := [none, none, none, none]
  /-- Reception of each channel (R554). -/
  chRx : List (Option Nat) := [none, none, none, none]
  /-- CH_CTRL value waiting for a removal (R560). -/
  chWait : List (Option Nat) := [none, none, none, none]
  /-- STATUS.ACQUIRED as last reported (R557). -/
  acquired : BitVec 4 := 0
  deriving DecidableEq, Repr

/-- What the block puts on its pins and buses: an append-only trace (the model's own). -/
inductive Output where
  /-- a register value returned to a port -/
  | reg (port off : Nat) (v : W32)
  /-- a 64-bit read -/
  | regs64 (port : Nat) (lo hi : W32)
  /-- bytes returned by a pop -/
  | pop (port ring : Nat) (bytes : List Byte)
  /-- a status byte -/
  | statusByte (port : Nat) (v : Byte)
  /-- a NAK on the two-wire bus, at this byte of the transaction: 0 the address, 1 the instruction, 2 a ring, 3 + k byte k of
  an entry -/
  | nak (i : Nat)
  /-- a two-wire read while halted -/
  | haltBytes (bytes : List Byte)
  /-- a DMA write to host memory -/
  | dma (ring : Nat) (addr : Tick) (bytes : List Byte)
  /-- an MSI-X message: the write of a vector's data to its address -/
  | msix (vector : Nat) (addr : Tick) (data : W32)
  /-- a controller write -/
  | busWrite (addr : Nat) (bytes : List Byte)
  /-- a controller read -/
  | busRead (addr : Nat) (count : Nat)
  /-- a bus recovery -/
  | recovery (pulses : Nat) (stuck : Bool)
  /-- a link frame: chirps by direction and cyclic start -/
  | onAir (channel width sl rate : Nat) (drive : Int) (chirps : List (Bool × Nat))
  /-- the link PA is turned off -/
  | paOff
  /-- frames of a TDM or I2S port on one pair of slots: BCLKs in a frame, the BCLK after the FS edge at which the first slot begins, and the
  words of both slots, first bit in bit 31; then what the slots carry once the output has stopped: idle, driven to 0 or not (R288, R289,
  R291) -/
  | slots (port bclks start : Nat) (words : List (W32 × W32)) (idle : Option Bool)
  /-- a byte read from the emulated map -/
  | compatByte (off : Nat) (v : Byte)
  deriving DecidableEq, Repr

/-- The whole state of the block. -/
structure State where
  /-- Commands waiting, first in first out (R17). The model's own. -/
  pending : List Instr := []
  /-- Reset, strap, supplies (R86). -/
  pwr : PowerS := {}
  /-- Settings (R45). -/
  set : Settings := {}
  /-- Settings store (R50). -/
  store : StoreS := {}
  /-- Clocks (R95). -/
  clk : ClockS := {}
  /-- Device time (R97). -/
  time : TimeS := {}
  /-- Headstock (R17). -/
  head : HeadS := {}
  /-- Front end (R119). -/
  front : FrontS := {}
  /-- Objects (R23). -/
  prog : ProgS := {}
  /-- Generation counters (R332). -/
  gens : Gens := {}
  /-- Blends, banks, curves (R275). -/
  mix : MixS := {}
  /-- Plan (R344). -/
  plan : PlanS := {}
  /-- Host ports (R303). -/
  port : PortS := {}
  /-- Two-wire controller (R395). -/
  bus : BusS := {}
  /-- Link (R451). -/
  link : LinkS := {}
  /-- Link statistics (R477). -/
  stats : LinkStats := {}
  /-- Mortise (R483). -/
  sec : MortiseS := {}
  /-- Calibration (R525). -/
  cal : CalS := {}
  /-- Resilience (R549). -/
  health : HealthS := {}
  /-- Survey (R254). -/
  survey : SurveyS := {}
  /-- Emulation (R557). -/
  compat : CompatS := {}
  /-- What the block put on its pins and buses, oldest first (R293). The model's own. -/
  out : List Output := []
  /-- Counter that free values are drawn by (R30). The model's own. -/
  fresh : Nat := 0
  deriving DecidableEq, Repr

/-- Why the block stops: it never does. Every command is answered, refused by its status, or has no effect, so no meaning ends
in a fault. Safe: no behaviour is left out by a stop. -/
inductive Fault where
  deriving DecidableEq, Repr

/-- Why the block refuses. -/
inductive Refusal where
  /-- Raised by exec's arm of a command that has no meaning yet. Safe: nothing is claimed of it. -/
  | notModelled (mnemonic : String)
  deriving DecidableEq, Repr

/-- The block right after power is first applied: power-on reset asserted (R64), every field at the value its declaration
gives, nothing pending. -/
def State.reset : State := {}

end Sys2Proof.Machine
end

