-- ==== Sys2Proof/Config.lean ====
section
/-!
DEFINITION. Config.lean: what one device fixes (fuses, firmware image) and the free values, as constants without a body.
Nothing can be proved of their values, so a claim holds for every device and for every outcome the manual leaves open.
A free value is drawn with the counter `fresh` of the state, which advances at every draw.
-/

namespace Sys2Proof.Config

/-- Grade, 0 MZ7256-IFB or 1 MZ7256-EFB (R2, R361). -/
opaque grade : Byte
/-- Device serial number from the fuses (R361). -/
opaque serial : BitVec 64
/-- SHA-256 of the root public key, from the fuses (R493). -/
opaque rootKeyHash : List Byte
/-- The taps of the default banks, part of the signed image (R157), in 1/2^17. -/
opaque defaultTap : Nat → Nat → Int
/-- The resampler of a DAB chain: its output from the FIR's latest outputs, newest first, and its phase (R152). -/
opaque resample : List (Int × Int) → Nat → Int × Int
/-- Whether a quotient that lies between two steps goes to the upper one (log 136). -/
opaque roundsUp : Int → Int → Bool
/-- What a number divided by 0 gives, where the manual states no result (log 136). -/
opaque noRatio : Int → Int
/-- The signal moment of R203 where 2 M2^2 is below M4, from the count and the sums (log 136). -/
opaque noMoment : Nat → Nat → Nat → Nat
/-- The curve of a fade or cross-fade whose shape is not stated, from 0 to 1, in 1/2^24 (R179, R192, R235, R285). -/
opaque fadeCurve : Nat → Nat → Nat
/-- An output interpolated from its neighbours (R193). -/
opaque interpolate : Int × Int → Int × Int → Int × Int
/-- The taps of the phasing method for the upper sideband in 1/2^16, where they reject the lower one (R191). -/
opaque phasingTap : Nat → Int × Int
/-- The taps of the FM engine's filters in 1/2^16, where they meet the response stated: 0 of L + R and L - R, 1 of the MPX output (R188, R194,
R197). -/
opaque fmTap : Nat → Nat → Int
/-- The step of the equaliser's adaptation, in 1/2^16 (R195). -/
opaque modulusStep : Nat
/-- The gains in phase and frequency of the carrier loops of the RDS streams (R198). -/
opaque rdsGain : Nat × Nat
/-- By how many nineteenths of a tick the bit clock of an RDS stream moves, from the halves of its bit (R198). -/
opaque rdsTiming : (Int × Int) × (Int × Int) → Int
/-- The deviation of an RDS stream's subcarrier in 10 Hz, from the mean magnitude of its symbols (R203). -/
opaque rdsInjection : Nat → Nat → Nat
/-- Maximum-ratio weights in 1/2^16 from the latest outputs of two paths (R136). -/
opaque mrcWeights : List ((Int × Int) × (Int × Int)) → (Int × Int) × (Int × Int)
/-- Frame `k` of what a decoder makes of one MP2 frame or AU (R234). -/
opaque decoded : CompDecl → Nat → List Byte → Nat → Int × Int
/-- Is a component's part of what the time de-interleaver holds, newest frame first, built from erasures (R220, R226, R231)? -/
opaque builtFromErased : List (List Int) → CompDecl → Bool
/-- Frame `k` of source frames at a rate converted to 48 kHz (R276, R285). -/
opaque converted : Nat → List (Int × Int) → Nat → Int × Int
/-- Frame `k` of frames played in the time of `n` with their pitch kept (R277, R280). -/
opaque timeScaled : List (Int × Int) → Nat → Nat → Int × Int
/-- Where the null symbol begins in a DAB reception's envelope, if it is found (R216). -/
opaque findNull : List Nat → Option Nat
/-- Does a DAB symbol of a power stand out as the null symbol beside the others' power (R224)? -/
opaque nullSeen : Nat → Nat → Bool
/-- The robustness mode that the guard correlation of a DRM30 signal shows (R216). -/
opaque drmMode : List (Int × Int) → Option Nat
/-- The spectrum occupancy that the frequency and gain references of a DRM30 signal show (R216). -/
opaque drmOccupancy : Nat → List (Int × Int) → Nat
/-- Where a DRM transmission frame begins, if it is found (R216). -/
opaque drmStart : Nat → List (Int × Int) → Option Nat
/-- Are the references of a DRM frame found where they belong (R224)? -/
opaque drmSeen : List (Option (List (Int × Int))) → Bool
/-- The whole-carrier offset of the phase reference symbol, or of a DRM frame's frequency references, in carriers (R216). -/
opaque wholeOffset : Kind → Nat → Int → List (Int × Int) → Int
/-- The carriers of a symbol, corrected by a frequency in 0.01 Hz and for the place of the FFT window, in the order of the coded bits (R216,
R218). -/
opaque carriers : Kind → Nat → Nat → Int → Nat → List (Int × Int) → List (Int × Int)
/-- What a DRM cell carries: 0 MSC, 1 FAC, 2 SDC; from mode, occupancy, the frame's position in its superframe, symbol and carrier (R219). -/
opaque cellKind : Nat → Nat → Nat → Nat → Nat → Nat
/-- Channel estimates from the carriers of the phase reference symbol (R218). -/
opaque phaseReference : List (Int × Int) → List (Int × Int)
/-- A channel estimate refined by a decision on its carrier (R218). -/
opaque refined : Int × Int → Int × Int → Int × Int
/-- The impulse response's energy by output, from the channel estimates (R216, R217). -/
opaque impulse : List (Int × Int) → List Nat
/-- The frequency offset after one more symbol, in 0.01 Hz (R216). -/
opaque trackFrequency : Int → List (Int × Int) → List (Int × Int) → Int
/-- Outputs by which the next symbol begins later, or earlier, by the sampling offset (R216). -/
opaque sampleSlip : List (Int × Int) → Int
/-- The gain reference of a DRM cell: mode, occupancy, symbol and carrier (R218). -/
opaque gainReference : Nat → Nat → Nat → Nat → Option (Int × Int)
/-- The channel at a symbol and carrier, interpolated from the estimates at the gain references (R218). -/
opaque interpolated : List (Nat × Nat × (Int × Int)) → Nat → Nat → Int × Int
/-- The distances of a DRM cell's coded bits from their decision boundaries, and the nearest point, by constellation (R219, R236). -/
opaque demapped : Nat → Int × Int → List Int × (Int × Int)
/-- Coded bits that a DRM symbol carries of a kind of cell: mode, occupancy, position of the frame, kind, constellation and symbol (R226). -/
opaque symbolBits : Nat → Nat → Nat → Nat → Nat → Nat → Nat
/-- Analogue delay D_an per port 0 to 6 and tuner, and of LINK_RF as port 7, in 1/64 tick, from the fuses and the temperature
model (R109, R423). -/
opaque analogueDelay : Nat → Nat → Nat
/-- Delay of a falling TREF edge, in 1/64 tick, from the fuses (R599). -/
opaque fallingEdge : Int
/-- The bytes of a record's payload in the settings store, whose coding is the device's own (R50, R51). -/
opaque recordCode : Machine.Content → List Byte
/-- The byte at an address of the Timber store, whose layout follows the plan and is not documented (R296). -/
opaque timberByte : Machine.State → Nat → Byte
/-- A byte of the DRBG, or of an operation whose bytes the manual leaves open (R500). -/
opaque freeByte : Nat → Byte
/-- A number the manual leaves open. -/
opaque freeNat : Nat → Nat
/-- A signed number the manual leaves open. -/
opaque freeInt : Nat → Int
/-- A choice the manual leaves open: an nRESET pulse of 5 to 20 us (R67), a WAKE level of 30 to 65 us (R574). -/
opaque freeBool : Nat → Bool

end Sys2Proof.Config
end

