-- ==== Sys2Proof/Machine/Ops.lean ====
section
/-!
DEFINITION. Ops.lean: the operations every family shares. Byte order and check codes, handles, time, the staging of rings,
events, health notes, responses, the settings-store writer and free values.
-/

namespace Sys2Proof.Machine

/-! ### Bytes (R6, R7) -/

/-- The low `n` bytes of a number, little-endian (R6). -/
def leBytes : Nat → Nat → List Byte
  | 0, _ => []
  | n + 1, v => BitVec.ofNat 8 v :: leBytes n (v / 256)

/-- The low `n` bytes of a signed number in two's complement, little-endian (R6). -/
def leInt (n : Nat) (v : Int) : List Byte := leBytes n (v % (256 ^ n : Nat)).toNat

/-- A little-endian list of bytes as a number (R6). -/
def ofLe : List Byte → Nat
  | [] => 0
  | b :: bs => b.toNat + 256 * ofLe bs

/-- `n` bytes of a payload from an offset; bytes beyond the end read 0. -/
def field (p : List Byte) (off n : Nat) : Nat := ofLe ((p.drop off).take n)

/-- A signed little-endian field of `n` bytes. -/
def fieldInt (p : List Byte) (off n : Nat) : Int :=
  let v := field p off n
  if v < 256 ^ n / 2 then (v : Int) else (v : Int) - (256 ^ n : Nat)

/-- `n` zero bytes: a reserved field (R5). -/
def zeros (n : Nat) : List Byte := List.replicate n 0

/-- A list of bytes made exactly `n` long. -/
def padTo (n : Nat) (l : List Byte) : List Byte := l.take n ++ zeros (n - l.length)

/-- Round up to a multiple of 8 (R306). -/
def pad8 (n : Nat) : Nat := (n + 7) / 8 * 8

/-! ### Check codes -/

/-- One bit step of a most-significant-first CRC register of 16 bits with polynomial 0x1021 (R317). -/
def crc16Step (r : BitVec 16) : BitVec 16 := if r.msb then (r <<< 1) ^^^ 0x1021 else r <<< 1

/-- The CRC-16 of R317: polynomial 0x1021, initial value 0xFFFF, no reflection, no final XOR. -/
def crc16 (bs : List Byte) : BitVec 16 :=
  bs.foldl (fun r b => (List.range 8).foldl (fun x _ => crc16Step x) (r ^^^ ((b.setWidth 16 : BitVec 16) <<< 8))) 0xFFFF

/-- One bit step of the CRC-8 register with polynomial 0x07 (R413). -/
def crc8Step (r : BitVec 8) : BitVec 8 := if r.msb then (r <<< 1) ^^^ 0x07 else r <<< 1

/-- The CRC-8 of R413: polynomial 0x07, initial value 0, no reflection, no final XOR. -/
def crc8 (bs : List Byte) : BitVec 8 :=
  bs.foldl (fun r b => (List.range 8).foldl (fun x _ => crc8Step x) (r ^^^ b)) 0

/-- One bit step of the reflected CRC-32 register (R52). -/
def crc32Step (r : BitVec 32) : BitVec 32 := if r.getLsbD 0 then (r >>> 1) ^^^ 0xEDB88320 else r >>> 1

/-- The CRC-32 of R52: polynomial 0x04C11DB7, reflected, initial value and final XOR 0xFFFFFFFF. -/
def crc32 (bs : List Byte) : BitVec 32 :=
  bs.foldl (fun r b => (List.range 8).foldl (fun x _ => crc32Step x) (r ^^^ b.setWidth 32)) 0xFFFFFFFF ^^^ 0xFFFFFFFF

/-! ### Handles (R16, R331 to R333) -/

/-- A handle as its 4 bytes: index in bits 15:0, generation in bits 31:16 (R316). -/
def handleBytes (h : Handle) : List Byte := leBytes 2 h.index ++ leBytes 2 h.gen

/-- The handle at an offset of a payload. -/
def handleAt (p : List Byte) (off : Nat) : Handle := { index := field p off 2, gen := field p (off + 2) 2 }

/-- A handle as one 32-bit number, for the Subject field of a note (R385). -/
def handleNum (h : Handle) : Nat := h.index + 65536 * h.gen

/-- The next generation of an index (R332). -/
def nextGen (g : Nat) : Nat := (g + 1) % 65536

/-! ### Lists -/

/-- Replace the element at an index. -/
def setAt {α : Type} (l : List α) (i : Nat) (x : α) : List α := l.set i x

/-- Change the element at an index. -/
def modAt {α : Type} (l : List α) (i : Nat) (g : α → α) : List α :=
  match l[i]? with
  | some x => l.set i (g x)
  | none => l

/-! ### Codes -/

/-- The code of a mode (the table Major modes). -/
def Mode.code : Mode → Nat
  | .idle => 0 | .survey => 1 | .serve => 2 | .sentry => 3 | .compat => 4 | .update => 5 | .test => 6 | .hold => 7

/-- The mode of a code 0 to 7; larger codes are clamped to 7 (R362). -/
def Mode.ofCode : Nat → Mode
  | 0 => .idle | 1 => .survey | 2 => .serve | 3 => .sentry | 4 => .compat | 5 => .update | 6 => .test | _ => .hold

/-- The rate code of a chain kind (R152). -/
def kindCode : Kind → Nat
  | .am => 0 | .drm30 => 1 | .drmPlus => 2 | .fm => 3 | .dab => 4 | .tap => 5

/-- The chain kind of a rate code; codes above 4 are clamped to DAB (R371). -/
def kindOf : Nat → Kind
  | 0 => .am | 1 => .drm30 | 2 => .drmPlus | 3 => .fm | _ => .dab

/-- The code of a Plumb state (R102). -/
def Plumb.code : Plumb → Nat
  | .free => 0 | .acquiring => 1 | .locked => 2 | .coasting => 3 | .qualifying => 4 | .slewing => 5

/-- The host configuration that the strap selected (R78). -/
def hostConfig (s : State) : Nat := s.pwr.strapCode / 4

/-- Is the unit of an island free of an uncorrected fault since the last reset (R543)? -/
def unitUp (s : State) (island : Nat) : Bool := !s.health.blockFaults.contains island

/-- Is a host port open: 0 PCIe, 1 SPI, 2 two-wire (R292), and its unit without a fault (R543)? -/
def portOpen (s : State) (p : Nat) : Bool :=
  s.pwr.ready && ((p == 2 && unitUp s 0) || (p == 1 && hostConfig s == 1 && unitUp s 8) ||
    (p == 0 && hostConfig s == 2 && unitUp s 7))

/-! ### Time -/

/-- The clock by which timers are kept. -/
def now (s : State) : Nat := s.clk.elapsed

/-- Ticks in `n` milliseconds. -/
def ms (n : Nat) : Nat := n * 245760

/-- The current device-time second (R97). -/
def second (s : State) : Nat := s.time.count.toNat / ticksPerSecond

/-- Does device time advance: not while power-on reset is asserted and not before I1 was released (R99)? Once started it counts on
the AON clock even in a halt (R76, R98, R547). -/
def timeRuns (s : State) : Bool := !s.pwr.porAsserted && s.pwr.counting

/-- Does the clock of an island run: the AON clock and the Mortise's own always do, every other needs REF and the loop that its row
of the table Clock sources and loops names (R93, R94, R95)? -/
def clockRuns (s : State) (island : Nat) : Bool :=
  if island = 0 || island = 11 then true
  else if !s.clk.refOn then false
  else if 2 ≤ island && island ≤ 6 then s.clk.sysPll == .locked
  else if island = 9 then s.clk.aPll == .locked
  else if island = 10 then s.clk.linkSynth == .locked
  else if 12 ≤ island then s.clk.sPll == .locked
  else true

/-- What a rate in 1/64 tick per second comes to between two instants (R97, R601). -/
def rateOver (rate : Int) (a b : Nat) : Int :=
  rate * (b : Int) / (ticksPerSecond : Int) - rate * (a : Int) / (ticksPerSecond : Int)

/-- What the slew in progress still turns between two instants, in 1/64 tick (R106). -/
def slewPart (s : State) (a b : Nat) : Int :=
  let turn : Int := (rateOver (s.time.slewRate : Int) a b).toNat
  if 0 ≤ s.time.slewLeft then min s.time.slewLeft turn else max s.time.slewLeft (-turn)

/-- What the corrected clock counts on REF between two instants, in 1/64 tick (R97, R601). -/
def refGain (s : State) (a b : Nat) : Int := (64 * (b - a) : Nat) + rateOver s.time.control a b + slewPart s a b

/-- The AON clock edge after an instant (R98). -/
def aonEdge (a : Nat) : Nat := (a / 7500 + 1) * 7500

/-- What the AON clock counts between two instants, in ticks: 7,500 at each of its edges (R98). -/
def aonGain (a b : Nat) : Nat := 7500 * (b / 7500 - a / 7500)

/-- What device time counts between two instants: ticks on the AON clock, 1/64 ticks on REF, and whether the AON clock counts
afterwards. The hand-over waits for an AON clock edge, up to which the clock left behind makes no count of REF (R97, R98). -/
def counted (s : State) (a b : Nat) : Nat × Int × Bool :=
  let e := aonEdge a
  match s.time.onAon, s.clk.refOn with
  | false, true => (0, refGain s a b, false)
  | true, false => (aonGain a b, 0, true)
  | false, false => if b < e then (0, 0, false) else (aonGain e b, 0, true)
  | true, true => if b < e then (0, 0, true) else (7500, refGain s e b, false)

/-- Let `n` ticks pass: timers always advance, device time while it runs, by the clock that counts it (R97, R98, R601). -/
def pass (n : Nat) (s : State) : State :=
  let a := s.clk.elapsed
  let (aon, ref, on) := counted s a (a + n)
  let x := (64 * (aon : Int) + (s.time.sub : Int) + ref).toNat
  let t := { s with clk := { s.clk with elapsed := a + n } }
  if timeRuns s then
    { t with time := { s.time with
        count := s.time.count + BitVec.ofNat 64 (x / 64)
        sub := x % 64
        slewLeft := if on then s.time.slewLeft else s.time.slewLeft - slewPart s a (a + n)
        onAon := on
        aonCount := s.time.aonCount || 0 < aon } }
  else t

/-- Let time pass until a timer is due; nothing passes when it is already due. -/
def passTo (due : Nat) (s : State) : State := pass (due - s.clk.elapsed) s

/-! ### Free values -/

/-- A number the manual leaves open. -/
def drawNat (s : State) : Nat × State := (Config.freeNat s.fresh, { s with fresh := s.fresh + 1 })

/-- A signed number the manual leaves open. -/
def drawInt (s : State) : Int × State := (Config.freeInt s.fresh, { s with fresh := s.fresh + 1 })

/-- A choice the manual leaves open. -/
def drawBool (s : State) : Bool × State := (Config.freeBool s.fresh, { s with fresh := s.fresh + 1 })

/-- `n` bytes the manual leaves open, such as random bytes of the DRBG (R500). -/
def drawBytes (n : Nat) (s : State) : List Byte × State :=
  ((List.range n).map (fun i => Config.freeByte (s.fresh + i)), { s with fresh := s.fresh + n })

/-- Append to the trace of what the block puts on its pins and buses. -/
def emit (o : Output) (s : State) : State := { s with out := s.out ++ [o] }

/-! ### Rings (R303 to R314) -/

/-- A ring of the file; an index the device lacks reads as a ring that was never used. -/
def ringAt (s : State) (n : Nat) : Ring := s.port.rings.getD n {}

/-- The restored settings of a ring. -/
def ringSet (s : State) (n : Nat) : RingSettings := s.set.rings.getD n {}

/-- Change one ring. -/
def modRing (n : Nat) (g : Ring → Ring) (s : State) : State :=
  { s with port := { s.port with rings := modAt s.port.rings n g } }

/-- Change one ring's restored settings. -/
def modRingSet (n : Nat) (g : RingSettings → RingSettings) (s : State) : State :=
  { s with set := { s.set with rings := modAt s.set.rings n g } }

/-- Is the ring produced by the host: 0 to 2 and 28 (R293)? -/
def hostProduced (n : Nat) : Bool := n < 3 || n == 28

/-- Is the ring one of the Headstock's own: 3, 7 and 11 (R293)? -/
def internalRing (n : Nat) : Bool := n == 3 || n == 7 || n == 11

/-- The port of a ring: fixed for rings 0 to 11, POLICY.PORT above (R293, R303). -/
def ringPort (s : State) (n : Nat) : Nat :=
  if n < 12 then (if n % 4 == 3 then 3 else n % 4) else (ringSet s n).port

/-- Is the ring's buffer in host memory (R307)? -/
def inHostMemory (s : State) (n : Nat) : Bool := ringPort s n == 0

/-- The largest k with 2^k at most n, for n up to 2^32; 0 for 0. -/
def log2Floor (n : Nat) : Nat := Nat.log2 n

/-- SIZE of a ring as it reads: the log2 of the buffer in host memory, or of QUOTA (R307). -/
def ringSize (s : State) (n : Nat) : Nat :=
  if inHostMemory s n then (ringSet s n).size else log2Floor (ringSet s n).quota

/-- Bytes of a ring in use: (TAIL - HEAD) mod 2^32 (R305). -/
def ringUsed (r : Ring) : Nat := (r.tail - r.head).toNat

/-- The bytes an entry carries: a frame, or a Shaving with its 32-byte header (R306). -/
def entryBytes (e : Entry) : Nat := match e.head with
  | some _ => 32 + e.bytes.length
  | none => e.bytes.length

/-- What an entry occupies: its length rounded up to a multiple of 8 (R306). -/
def entrySpace (e : Entry) : Nat := pad8 (entryBytes e)

/-- The bytes skipped before an entry of `len` bytes written at byte count `tail`, so that it does not straddle the end of
a buffer of 2^size bytes (R306). -/
def skipBefore (tail : W32) (size len : Nat) : Nat :=
  let rest := 2 ^ size - tail.toNat % 2 ^ size
  if rest < len then rest else 0

/-- Staging held by a device-produced ring: its entries and the MOT objects in reassembly (R244, R311). -/
def stagedBytes (r : Ring) : Nat := (r.entries.map entrySpace).sum + r.motSpace

/-- Does an entry fit a ring's staging (R311, R312)? Rings whose buffer is the staging itself count skips as used. -/
def fits (s : State) (n len : Nat) : Bool :=
  let r := ringAt s n
  let q := (ringSet s n).quota
  if inHostMemory s n then stagedBytes r + len ≤ q
  else ringUsed r + skipBefore r.tail (log2Floor q) len + len + r.motSpace ≤ q && 0 < q

/-- HEAD of an SPI or two-wire ring after its front entry of `len` bytes is consumed or dropped (R305, R306). -/
def headAfter (head : W32) (size len : Nat) : W32 :=
  head + BitVec.ofNat 32 (skipBefore head size len) + BitVec.ofNat 32 len

/-- Remove the front entry of a ring whose buffer is its staging, advancing HEAD. -/
def popFront (s : State) (n : Nat) : State :=
  modRing n (fun r => match r.entries with
    | [] => r
    | e :: es => { r with entries := es
                          begun := e.group
                          head := if inHostMemory s n then r.head
                            else headAfter r.head (log2Floor (ringSet s n).quota) (entrySpace e) }) s

/-- TAIL of a ring whose buffer is its staging, recomputed from HEAD for the entries it holds. -/
def repack (n : Nat) (s : State) : State :=
  if inHostMemory s n then s
  else
    let size := log2Floor (ringSet s n).quota
    modRing n (fun r => { r with
      tail := r.entries.foldl (fun t e => t + BitVec.ofNat 32 (skipBefore t size (entrySpace e)) +
        BitVec.ofNat 32 (entrySpace e)) r.head }) s

/-- The Shaving's flag byte (R316). -/
def shavingFlags (h : ShavingHdr) : Nat :=
  h.unsettled.toNat + 2 * h.gap.toNat + 4 * h.again.toNat + 8 * h.concealed.toNat + 16 * h.epochChanged.toNat

/-- Header bytes 0 to 27 of a Shaving (R316). -/
def shavingHead (h : ShavingHdr) (len : Nat) : List Byte :=
  leBytes 2 0xB7E5 ++ leBytes 1 h.kind ++ leBytes 1 (shavingFlags h) ++ leBytes 2 len ++
  leBytes 2 (if h.gap then h.lost else 0) ++ handleBytes h.source ++ leBytes 2 h.prog ++
  leBytes 2 h.epoch.toNat ++ leBytes 8 h.stamp.toNat ++ leBytes 4 h.seq.toNat

/-- The bytes of an entry as delivered: a Shaving with its header CRC, or the frame (R316, R317). -/
def renderEntry (e : Entry) : List Byte := match e.head with
  | none => e.bytes
  | some h =>
    let hd := shavingHead h e.bytes.length
    hd ++ leBytes 2 (crc16 hd).toNat ++ zeros 2 ++ e.bytes

/-- Charge `k` lost blocks of a source to its next block: the first one still staged, or the ring's table (R313). -/
def chargeLost (src : Handle) (k : Nat) : List Entry → List Entry × Bool
  | [] => ([], false)
  | e :: es =>
    match e.head with
    | some h =>
      if h.source == src then
        ({ e with head := some { h with gap := true, lost := satNat 65535 (h.lost + k) } } :: es, true)
      else
        let (r, b) := chargeLost src k es
        (e :: r, b)
    | none =>
      let (r, b) := chargeLost src k es
      (e :: r, b)

/-- Lost blocks of a source for its next block offered to a ring to report (R313). -/
def oweLost (src : Handle) (k : Nat) (r : Ring) : Ring :=
  let old := ((r.lost.find? (fun x => x.1 == src)).map (·.2)).getD 0
  { r with lost := (src, satNat 65535 (old + k)) :: r.lost.filter (fun x => x.1 != src) }

/-- Record that the oldest blocks of a source were lost in a ring: the next one delivered is the first still staged (R313). -/
def noteLost (src : Handle) (k : Nat) (r : Ring) : Ring :=
  let (es, done) := chargeLost src k r.entries
  if done then { r with entries := es } else oweLost src k r

/-- Count one dropped block in a ring's descriptor (R312). -/
def countDrop (r : Ring) : Ring := { r with dropped := true, dropCount := satNat 65535 (r.dropCount + 1) }

/-- Hand the EPOCH_CHANGED of a dropped block to the first block of its source that is still staged (R110). -/
def chargeEpoch (src : Handle) : List Entry → List Entry × Bool
  | [] => ([], false)
  | e :: es =>
    let (r, b) := chargeEpoch src es
    match e.head with
    | some h => if h.source == src then ({ e with head := some { h with epochChanged := true } } :: es, true) else (e :: r, b)
    | none => (e :: r, b)

/-- A block that carried EPOCH_CHANGED was dropped: the next block of its source carries it (R110). -/
def passEpoch (n : Nat) (h : ShavingHdr) (s : State) : State :=
  if !h.epochChanged then s
  else
    let (es, done) := chargeEpoch h.source (ringAt s n).entries
    if done then modRing n (fun r => { r with entries := es }) s
    else { s with port := { s.port with seen := s.port.seen.map (fun x =>
      if x.1 == n && x.2.1 == h.source then (x.1, x.2.1, h.epoch - 1) else x) } }

/-- The number of entries of a block that begins with an entry: one, or all pieces of one MOT object (R244, R312). -/
def blockLength (e : Entry) (es : List Entry) : Nat :=
  if e.group = 0 then 1 else 1 + (es.takeWhile (fun x => x.group == e.group)).length

/-- The pieces at a ring's front that belong to a block part of which has left: they are never dropped (R312). -/
def sparedPieces (r : Ring) : Nat := if r.begun = 0 then 0 else (r.entries.takeWhile (fun x => x.group == r.begun)).length

/-- Take `k` entries behind the first `i` out of a ring; HEAD passes them where they stand in front, and TAIL falls back where
they do not. -/
def cutEntries (n i k : Nat) (s : State) : State :=
  if i = 0 then (List.range k).foldl (fun t _ => popFront t n) s
  else repack n (modRing n (fun r => { r with entries := r.entries.take i ++ r.entries.drop (i + k) }) s)

/-- What the drop of a block leaves behind: DROPPED and its count, the loss for the next event or the next block of its source
(R312 to R314, R110). -/
def droppedBlock (n : Nat) (e : Entry) (s : State) : State :=
  let s := modRing n countDrop s
  match e.head with
  | some h => passEpoch n h (modRing n (noteLost h.source (h.lost + 1)) s)
  | none => if 8 ≤ n && n < 11 then modRing n (fun r => { r with eventsLost := true }) s else s

/-- Drop the oldest block of a device-produced ring that has not begun to leave it (R312). -/
def dropOldest (s : State) (n : Nat) : State :=
  let i := sparedPieces (ringAt s n)
  match (ringAt s n).entries.drop i with
  | [] => s
  | e :: es => droppedBlock n e (cutEntries n i (blockLength e es) s)

/-- Drop oldest blocks until an entry of `len` bytes fits, at most `fuel` blocks (R312). -/
def dropUntilFits (n len : Nat) : Nat → State → State
  | 0, s => s
  | fuel + 1, s => if fits s n len then s else dropUntilFits n len fuel (dropOldest s n)

/-! ### Interrupts (R319 to R321) -/

/-- A vector of the MSI-X table (R294). -/
def msixAt (s : State) (n : Nat) : MsixVector := s.port.msix.getD n {}

/-- Send MSI-X vector n: a write of its data to its address. While the vector is masked, or the endpoint may not master the bus, its
pending bit sets instead, as PCI Express Base 3.0 has it (R294, R321, log 128). -/
def sendMsix (n : Nat) (s : State) : State :=
  let v := msixAt s n
  if v.masked || !s.port.busMaster || s.port.pcieGen = 0 then
    { s with port := { s.port with pba := s.port.pba ||| (1#32 <<< n) } }
  else emit (.msix n (v.addrHi ++ v.addrLo) v.data) { s with port := { s.port with pba := s.port.pba &&& ~~~(1#32 <<< n) } }

/-- Set an INT_STATUS bit; a PCIe ring whose unmasked bit rises sends its MSI-X vector (R320, R321). -/
def raiseInt (n : Nat) (s : State) : State :=
  let old := s.port.intStatus.getLsbD n
  let s := { s with port := { s.port with intStatus := s.port.intStatus ||| (1#32 <<< n) } }
  if !old && !s.port.intMask.getLsbD n && ringPort s n == 0 then sendMsix n s else s

/-- An entry of `len` bytes becomes visible to the host (R320). -/
def madeVisible (n len : Nat) (s : State) : State :=
  let th := (ringSet s n).threshold
  let r := ringAt s n
  if th = 0 || th * 1024 ≤ r.unnotified + len then
    raiseInt n (modRing n (fun r => { r with unnotified := 0, unnotifiedAt := none }) s)
  else
    modRing n (fun r => { r with unnotified := r.unnotified + len
                                 unnotifiedAt := some (r.unnotifiedAt.getD (now s)) }) s

/-- Put an entry that fits at the back of a device-produced ring's staging. On an SPI or two-wire ring it is visible at
once while the ring is enabled (R305, R307, R312). -/
def stageEntry (n : Nat) (e : Entry) (s : State) : State :=
  let len := entrySpace e
  let s1 := modRing n (fun r => { r with
    entries := r.entries ++ [e]
    tail := if inHostMemory s n then r.tail
      else r.tail + BitVec.ofNat 32 (skipBefore r.tail (log2Floor (ringSet s n).quota) len) + BitVec.ofNat 32 len }) s
  if !inHostMemory s n && (ringSet s n).enable then madeVisible n len s1 else s1

/-- Does a ring drop its newest block (R303)? Rings 8 to 10 and 28 to 31 follow fixed rules (R314). -/
def dropsNewest (s : State) (n : Nat) : Bool := (ringSet s n).dropNewest && 12 ≤ n && n < 28

/-- Does a block carry EPOCH_CHANGED: it is the first of its source in the ring with its epoch, which a step began (R110)? -/
def firstOfEpoch (s : State) (n : Nat) (h : ShavingHdr) : Bool :=
  match s.port.seen.find? (fun x => x.1 == n && x.2.1 == h.source) with
  | some x => x.2.2 != h.epoch
  | none => s.time.steps.any (fun m => m.epoch == h.epoch)

/-- The header of a block as its ring completes it: ring sequence, the losses owed to its source, EPOCH_CHANGED (R313, R110). -/
def ringHeader (s : State) (n : Nat) (h : ShavingHdr) : ShavingHdr :=
  let r := ringAt s n
  let owed := ((r.lost.find? (fun x => x.1 == h.source)).map (·.2)).getD 0
  { h with seq := r.seq, gap := h.gap || 0 < owed, lost := satNat 65535 (h.lost + owed), epochChanged := firstOfEpoch s n h }

/-- Stage a block whose header is complete; its source has now written its epoch (R110). -/
def stageShaving (n : Nat) (h : ShavingHdr) (payload : List Byte) (group : Nat) (s : State) : State :=
  stageEntry n { head := some h, bytes := payload, group := group } { s with port := { s.port with
    seen := (n, h.source, h.epoch) :: s.port.seen.filter (fun x => !(x.1 == n && x.2.1 == h.source)) } }

/-- A block takes the next ring sequence, and the losses of its source with it (R313). -/
def takeSequence (n : Nat) (src : Handle) (s : State) : State :=
  modRing n (fun r => { r with seq := r.seq + 1, lost := r.lost.filter (fun x => x.1 != src) }) s

/-- Offer a block to a data ring, or to rings 28 to 31: where it does not fit and the ring's policy is to drop the oldest, blocks
drop first; then it takes the next ring sequence, carries the losses of its source, and is staged or lost (R312 to R314, R110). -/
def offerShaving (n : Nat) (h : ShavingHdr) (payload : List Byte) (group : Nat) (s : State) : State :=
  let len := entrySpace { head := some h, bytes := payload, group := group }
  let s := if dropsNewest s n then s else dropUntilFits n len (ringAt s n).entries.length s
  let h := ringHeader s n h
  let s := takeSequence n h.source s
  if fits s n len then stageShaving n h payload group s
  else modRing n (fun r => oweLost h.source (h.lost + 1) (countDrop r)) s

/-! ### Frames, events and notes -/

/-- The bytes of a frame (R323). -/
def frameBytes (opcode tag flags port : Nat) (target : Handle) (seq : W32) (payload : List Byte) : List Byte :=
  leBytes 2 opcode ++ leBytes 2 tag ++ leBytes 2 payload.length ++ leBytes 1 flags ++ leBytes 1 port ++
  handleBytes target ++ leBytes 4 seq.toNat ++ payload

/-- Write one event frame to one event ring, dropping the oldest events when it does not fit; the next event written after
a drop carries EVENTS_LOST (R314, R324). -/
def writeEvent (n code : Nat) (src : Handle) (payload : List Byte) (cause : Option Nat) (s : State) : State :=
  let flags (lost : Bool) := 16 * lost.toNat + (if cause.isSome then 32 else 0)
  let len := pad8 (16 + payload.length)
  let dropping := !fits s n len
  let s := dropUntilFits n len (ringAt s n).entries.length s
  let lost := (ringAt s n).eventsLost || dropping
  let e : Entry := { bytes := frameBytes code (cause.getD 0) (flags lost) (ringPort s n) src s.plan.seq payload }
  if fits s n len then
    stageEntry n e (modRing n (fun r => { r with eventsLost := false }) s)
  else modRing n (fun r => { countDrop r with eventsLost := true }) s

/-- The event rings an event goes to: every enabled one, or, if none is enabled, those of the open ports, where it is
staged (R293). -/
def eventRings (s : State) : List Nat :=
  let on := [8, 9, 10].filter (fun n => (ringSet s n).enable)
  if on.isEmpty then [8, 9, 10].filter (fun n => portOpen s (ringPort s n)) else on

/-- Post an event (R293, R324, R342). In COMPAT no event reaches the host (R554). -/
def post (code : Nat) (src : Handle) (payload : List Byte) (cause : Option Nat) (s : State) : State :=
  if s.set.mode = .compat then s
  else (eventRings s).foldl (fun t n => writeEvent n code src payload cause t) s

/-- Post several events in order. -/
def postAll (es : List (Nat × Handle × List Byte)) (cause : Option Nat) (s : State) : State :=
  es.foldl (fun t e => post e.1 e.2.1 e.2.2 cause t) s

/-- The payload of HEALTH_NOTE (R385). -/
def notePayload (code island subject value : Nat) (s : State) : List Byte :=
  leBytes 2 code ++ leBytes 1 island ++ zeros 1 ++ leBytes 4 subject ++ leBytes 4 value ++ zeros 2 ++
  leBytes 2 s.time.epoch.toNat ++ leBytes 8 s.time.count.toNat

/-- Enter a note in the health log, merging it with an entry of the same code, island and subject less than 1 s old; the
event is posted only for the first occurrence that is to be posted (R548, R549, R385, log 84). -/
def logNote (posted : Bool) (code island subject value : Nat) (cause : Option Nat) (s : State) : State :=
  let same (e : LogEntry) := e.code == code && e.island == island && e.subject == subject &&
    now s < e.firstAt + ticksPerSecond
  if s.health.log.any same then
    let told := s.health.log.any (fun e => same e && e.posted)
    let s := { s with health := { s.health with log := s.health.log.map (fun e =>
        if same e then
          { e with count := satNat 65535 (e.count + 1), posted := e.posted || posted
                   value := if posted && !told then value else e.value }
        else e) } }
    if posted && !told then post 0x8101 {} (notePayload code island subject value s) cause s else s
  else
    let e : LogEntry := { code := code, island := island, posted := posted, subject := subject, value := value
                          epoch := s.time.epoch, time := s.time.count, firstAt := now s, seq := s.health.logSeq }
    let l := s.health.log ++ [e]
    let s := { s with health := { s.health with
      log := if 2048 < l.length then l.drop 1 else l
      logSeq := s.health.logSeq + 1 } }
    if posted then post 0x8101 {} (notePayload code island subject value s) cause s else s

/-- Post a HEALTH_NOTE and enter it in the health log (R385, R548). -/
def note (code island subject value : Nat) (s : State) : State := logNote true code island subject value none s

/-- A HEALTH_NOTE that a command causes (R342). -/
def noteBy (code island subject value : Nat) (cause : Nat) (s : State) : State :=
  logNote true code island subject value (some cause) s

/-- A note that goes to the health log only (R550). -/
def noteLog (code island subject value : Nat) (s : State) : State := logNote false code island subject value none s

/-! ### Responses (R326 to R330, R342) -/

/-- What a handled command answers. -/
structure Reply where
  status  : Nat := 0
  clamped : Bool := false
  held    : Bool := false
  target  : Handle := {}
  payload : List Byte := []
  deriving DecidableEq, Repr

/-- A failed check: status, detail and the payload offset at fault (R327, R328). -/
structure Fail where
  status : Nat
  detail : Nat
  off    : Nat := 0xFFFF
  deriving DecidableEq, Repr

/-- Put a response into its ring, or let it wait while it does not fit or others wait before it (R314). -/
def writeResponse (p : Nat) (e : Entry) (s : State) : State :=
  let n := 4 + p
  if s.port.respWait.any (fun x => x.1 == p) || !fits s n (entrySpace e) then
    { s with port := { s.port with respWait := s.port.respWait ++ [(p, e)] } }
  else stageEntry n e s

/-- Write the response of a command (R326). Port 3 is the Headstock's internal ring, whose responses no host sees (R293,
R554). -/
def respond (op : Nat) (d : Deferred) (r : Reply) (s : State) : State :=
  if 2 < d.port then s
  else
    let flags := r.status % 16 + 16 * (r.clamped || d.clamped).toNat + 32 * (r.held || d.held).toNat + 64 * d.queued.toNat
    writeResponse d.port { bytes := frameBytes op d.tag flags d.port r.target s.plan.seq r.payload } s

/-- The 4-byte payload of a response that failed (R328). -/
def failPayload (x : Fail) : List Byte := leBytes 2 x.detail ++ leBytes 2 x.off

/-- Who is to be answered for a frame. -/
def deferredOf (op : Nat) (f : CmdFrame) (queued : Bool) : Deferred :=
  { port := f.port, opcode := op, tag := f.tag, target := f.target, queued := queued }

/-- Send the deferred responses that wait for an event (R36, R101, R524), completing each with a reply. -/
def release (key : WaitKey) (r : Deferred → Reply) (s : State) : State :=
  let due := s.head.deferred.filter (fun x => x.key == key)
  let s := { s with head := { s.head with deferred := s.head.deferred.filter (fun x => x.key != key) } }
  due.foldl (fun t x => respond x.resp.opcode x.resp (r x.resp) t) s

/-- Register a deferred response. -/
def deferOn (key : WaitKey) (d : Deferred) (s : State) : State :=
  { s with head := { s.head with deferred := s.head.deferred ++ [{ key := key, resp := d }] } }

/-- The reply of a deferred response that carries what was known when it was handled. -/
def plainReply (d : Deferred) : Reply := { target := d.target, payload := d.payload }

/-! ### The settings store's writer (R54, R55) -/

/-- The magic of a valid copy (R51). -/
def storeMagic : W32 := 0x53544D5A

/-- Header bytes 0 to 15 of a copy: magic, kind, reserved, sequence and length (R51). -/
def headerStart (c : StoreCopy) : List Byte :=
  leBytes 4 c.magic.toNat ++ leBytes 2 c.kind ++ zeros 2 ++ leBytes 4 c.seq.toNat ++ leBytes 4 c.length

/-- The payload of a copy, `length` bytes. A key is its own bytes (R483) and a profile its container (R499); the coding of the other
records is the device's own (log 123). -/
def payloadBytes (c : StoreCopy) : List Byte := match c.content with
  | .blank => zeros c.length
  | .key k => padTo c.length (k.getD [])
  | .profile p => padTo c.length ((p.map (·.container)).getD [])
  | x => padTo c.length (Config.recordCode x)

/-- The check word of a copy: CRC-32 over header bytes 0 to 15 and the payload (R52). -/
def copyCheck (c : StoreCopy) : W32 := crc32 (headerStart c ++ payloadBytes c)

/-- A copy as it stands in the settings store: its header of 32 bytes and its payload (R51). -/
def copyBytes (c : StoreCopy) : List Byte :=
  headerStart c ++ leBytes 4 c.check.toNat ++ zeros 12 ++ payloadBytes c

/-- Is a copy valid for its kind (R53)? The length bound is the kind's largest payload (R50). -/
def copyValid (kind maxLen : Nat) (c : StoreCopy) : Bool :=
  c.magic == storeMagic && c.kind == kind && c.length ≤ maxLen && c.check == copyCheck c

/-- A copy with its check word. -/
def sealCopy (c : StoreCopy) : StoreCopy := { c with check := copyCheck c }

/-- The number of a record kind (R50, R484). -/
def RecordKind.num : RecordKind → Nat
  | .settings => 1 | .plan => 2 | .calibration => 3 | .profile => 4 | .counters => 5 | .key i => 0x100 + i

/-- The largest payload of a record kind (R50, R483). -/
def RecordKind.maxLen : RecordKind → Nat
  | .settings => 8192 | .plan => 65536 | .calibration => 16384 | .profile => 4096 | .counters => 36864 | .key _ => 32

/-- The copies of a record kind. -/
def pairOf (st : StoreS) : RecordKind → CopyPair
  | .settings => st.settings | .plan => st.plan | .calibration => st.cal | .profile => st.profile
  | .counters => st.counters | .key i => st.keys.getD i {}

/-- Change the copies of a record kind. -/
def modPair (k : RecordKind) (g : CopyPair → CopyPair) (st : StoreS) : StoreS := match k with
  | .settings => { st with settings := g st.settings }
  | .plan => { st with plan := g st.plan }
  | .calibration => { st with cal := g st.cal }
  | .profile => { st with profile := g st.profile }
  | .counters => { st with counters := g st.counters }
  | .key i => { st with keys := modAt st.keys i g }

/-- The target copy of a write, true for B (R54 step 1). -/
def targetB (k : RecordKind) (p : CopyPair) : Bool :=
  let a := copyValid k.num k.maxLen p.a
  let b := copyValid k.num k.maxLen p.b
  if !a then false else if !b then true else !p.useB

/-- The sequence number of the copy to be written (R54 step 3). -/
def writeSeq (k : RecordKind) (p : CopyPair) : W32 :=
  if copyValid k.num k.maxLen p.a || copyValid k.num k.maxLen p.b then (if p.useB then p.b.seq else p.a.seq) + 1 else 1

/-- Step 2 of R54: the target's magic is overwritten. -/
def beginWrite (k : RecordKind) (p : CopyPair) : CopyPair :=
  if targetB k p then { p with b := { p.b with magic := 0 } } else { p with a := { p.a with magic := 0 } }

/-- Steps 3 and 4 of R54 for the target chosen at step 1, which `beginWrite` left invalid. -/
def endWrite (j : WriteJob) (p : CopyPair) : CopyPair :=
  let c := sealCopy { magic := storeMagic, kind := j.kind.num, seq := writeSeq j.kind p, length := j.length, content := j.content }
  let toB := targetB j.kind p
  let p := if toB then { p with b := c, useB := true } else { p with a := c, useB := false }
  if j.bothCopies then (if toB then { p with a := c } else { p with b := c }) else p

/-- Is a write a zeroisation of a key slot (R488)? -/
def zeroising (j : WriteJob) : Bool := match j.kind, j.content with
  | .key _, .blank => true
  | _, _ => false

/-- A write begins: step 2 of R54, or step 1 of R488, which overwrites the magic of both copies. -/
def beginJob (j : WriteJob) (p : CopyPair) : CopyPair :=
  if zeroising j then { p with a := { p.a with magic := 0 }, b := { p.b with magic := 0 } } else beginWrite j.kind p

/-- A write ends: steps 3 and 4 of R54, or step 2 of R488, which leaves zeros in both copies. -/
def endJob (j : WriteJob) (p : CopyPair) : CopyPair :=
  let z : StoreCopy := { magic := 0, kind := 0, seq := 0, length := 0, check := 0 }
  if zeroising j then { p with a := z, b := z } else endWrite j p

/-- Queue a settings-store write; the first of the queue is in progress (R54). Answers the job's number. -/
def queueWrite (k : RecordKind) (c : Content) (len : Nat) (both : Bool) (s : State) : Nat × State :=
  let j : WriteJob := { id := s.store.nextJob, kind := k, content := c, length := len, bothCopies := both }
  let st := { s.store with queue := s.store.queue ++ [j], nextJob := s.store.nextJob + 1 }
  let st := if s.store.queue.isEmpty then modPair k (beginJob j) st else st
  (j.id, { s with store := st })

/-! ### The two-wire controller's queue (R395) -/

/-- The rings of the attention message's ring mask, in bit order (R397). -/
def attnRings : List Nat := [2, 6, 10] ++ (List.range 16).map (· + 12) ++ [28, 29, 30, 31]

/-- The ring mask: a two-wire ring's bit is 1 while its INT_STATUS bit is 1 and unmasked (R397). -/
def ringMask (s : State) : BitVec 24 :=
  (attnRings.zipIdx).foldl (fun v x =>
    if s.port.intStatus.getLsbD x.1 && !s.port.intMask.getLsbD x.1 && ringPort s x.1 == 2 then v ||| (1#24 <<< x.2) else v) 0

/-- Bits that fell are no longer seen as set, so that a later rise counts (R398). -/
def attnFall (s : State) : State := { s with bus := { s.bus with attnMask := s.bus.attnMask &&& ringMask s } }

/-- Queue a controller transfer. -/
def queueXfer (k : XferKind) (s : State) : State :=
  { s with bus := { s.bus with
      queue := s.bus.queue ++ [{ id := s.bus.next, kind := k, queuedAt := now s }], next := s.bus.next + 1 } }

/-- Queue a supply write, unless one waits already: it carries the voltage target of the moment it is sent (R396). -/
def queueSupply (s : State) : State :=
  if s.set.supply.output = 1 && s.bus.firstCommand && !s.bus.queue.any (fun x => x.kind == .supply && s.bus.active != some x.id) then queueXfer .supply s
  else s

/-- A setting changed: the settings record is to be written within 1 s of the last change, 5 s of the first (R50). -/
def settingsDirty (s : State) : State :=
  { s with store := { s.store with dirtyFirst := some (s.store.dirtyFirst.getD (now s)), dirtyLast := some (now s) } }

/-- Change the settings and mark them for writing (R45, R50). -/
def setSettings (x : Settings) (s : State) : State := settingsDirty { s with set := x }

/-- The plan changed: its sequence advances by 1 (R344). -/
def bumpPlan (s : State) : State := { s with plan := { s.plan with seq := s.plan.seq + 1 } }

end Sys2Proof.Machine
end

