-- ==== Sys2Proof/Machine/Calc.lean ====
section
/-!
DEFINITION. Calc.lean: the arithmetic of signals: quotients, sines, angles, exponentials, medians and correlations, by series in
fixed point of 30 decimal places (R185, R191, R193, R194, R196, R276, R283). The number formats of the engines are not stated (log
136).
-/

namespace Sys2Proof.Machine

/-- A quotient in whole steps; between two of them it goes to either, and by 0 it is open (log 136). -/
def quot (a b : Int) : Int := if b = 0 then Config.noRatio a else if a % b = 0 then a / b else a / b + (Config.roundsUp a b).toNat

/-- The unit of the fixed-point series. -/
def calcOne : Int := 10 ^ 30

/-- Pi in the fixed-point unit. -/
def calcPi : Int := 3141592653589793238462643383280

/-- The natural logarithm of 10 in the fixed-point unit. -/
def calcLn10 : Int := 2302585092994045684017991454684

/-- The sine of an angle of at most a quarter turn, in radians, by its power series. -/
def sineSeries (x : Int) : Int :=
  let x2 := x * x / calcOne
  ((List.range 20).foldl (fun (a : Int × Int) k =>
    (a.1 + a.2, -(a.2 * x2 / calcOne) / ((2 * k + 2) * (2 * k + 3) : Nat))) (0, x)).1

/-- The sine of `k/den` of a quarter turn, for `k` up to `den`. -/
def quarterSine (k den : Int) : Int := if k = den then calcOne else sineSeries (calcPi * k / (2 * den))

/-- The sine of `num/den` of a turn. -/
def sineTurn (num den : Int) : Int :=
  let r := 4 * (num % den)
  let k := r % den
  match (r / den).toNat with
  | 0 => quarterSine k den
  | 1 => quarterSine (den - k) den
  | 2 => -quarterSine k den
  | _ => -quarterSine (den - k) den

/-- The sine of a phase in 1/2^32 turn, in 1/2^30 (R191, R194). -/
def sinePhase (phase : Int) : Int := quot (sineTurn phase 4294967296 * 1073741824) calcOne

/-- The exponential of a number in the fixed-point unit: a power series of its 4,096th part, squared twelve times. -/
def expFixed (y : Int) : Int :=
  let z := y / 4096
  let s := ((List.range 16).foldl (fun (a : Int × Int) k => (a.1 + a.2, a.2 * z / calcOne / ((k + 1 : Nat) : Int))) (0, calcOne)).1
  (List.range 12).foldl (fun (v : Int) _ => v * v / calcOne) s

/-- The gain of `num/den` dB, in 1/2^24 (R196, R278, R283). -/
def gainOfDb (num den : Int) : Int := quot (expFixed (calcLn10 * num / (20 * den)) * 16777216) calcOne

/-- The raised-cosine curve from 0 to 1 at a frame of a number of frames, in 1/2^24 (R185). -/
def raisedCosine (pos len : Nat) : Int :=
  if len ≤ pos then 16777216 else quot ((calcOne - sineTurn (2 * pos + len : Nat) (4 * len : Nat)) * 8388608) calcOne

/-- A number in the upper half plane has turned at least by a phase below half a turn. -/
def turnedBy (x : Int × Int) (p : Int) : Bool :=
  0 ≤ sineTurn (p + 1073741824) 4294967296 * x.2 - sineTurn p 4294967296 * x.1

/-- The angle of a number in the upper half plane in 1/2^32 turn, rounded down: bit by bit from the highest. -/
def upperAngle (x : Int × Int) : Int :=
  ((List.range 31).map (fun i => (2 : Int) ^ (30 - i))).foldl (fun a b => if turnedBy x (a + b) then a + b else a) 0

/-- The angle of a complex number in 1/2^32 turn, from -2^31 to 2^31; between two steps it goes to either, and that of 0 is open (R194;
log 136). -/
def angleOf (x : Int × Int) : Int :=
  if x.1 = 0 && x.2 = 0 then Config.noRatio 0
  else if x.2 = 0 then (if 0 < x.1 then 0 else 2147483648)
  else if 0 < x.2 then upperAngle x + (Config.roundsUp x.1 x.2).toNat
  else upperAngle (-x.1, -x.2) - 2147483648 + (Config.roundsUp x.1 x.2).toNat

/-- The median of a list: the middle value, or the mean of the two middle ones (R193). -/
def medianOf (l : List Nat) : Nat :=
  let m := l.mergeSort (fun a b => a ≤ b)
  let n := m.length
  if n % 2 = 1 then m.getD (n / 2) 0 else (quot (m.getD (n / 2) 0 + m.getD (n / 2 - 1) 0 : Nat) 2).toNat

/-- The sum of the products of two lists. -/
def dot (a b : List Int) : Int := (List.zipWith (· * ·) a b).sum

/-- The correlation of two lists about their means, over the product of their deviations, in 0.001; 0 where it is negative or one of them does not
vary (R276; log 140). -/
def correlationOf (a b : List Int) : Nat :=
  let n : Int := min a.length b.length
  let num := n * dot a b - a.sum * b.sum
  let den := (n * dot a a - a.sum * a.sum) * (n * dot b b - b.sum * b.sum)
  if num ≤ 0 || den ≤ 0 then 0 else min 1000 (Nat.sqrt (1000000 * num * num / den).toNat)

/-- The squared response of a filter's complex taps at `num/den` of the sample rate, in the taps' unit squared. -/
def responseSq (taps : List (Int × Int)) (num den : Int) : Int :=
  let z := taps.zipIdx.foldl (fun (a : Int × Int) x =>
    let c := sineTurn (den - 4 * num * x.2) (4 * den)
    let s := sineTurn (num * x.2) den
    (a.1 + (x.1.1 * c + x.1.2 * s) / 10 ^ 15, a.2 + (x.1.2 * c - x.1.1 * s) / 10 ^ 15)) (0, 0)
  (z.1 * z.1 + z.2 * z.2) / 10 ^ 30

end Sys2Proof.Machine
end

