-- ==== Sys2Proof/Machine/Protocol.lean ====
section
/-!
DEFINITION. Protocol.lean: how the Headstock takes a command frame, checks it in the order of R327, holds it behind a
shut-down, executes it and answers it (chapter 12).
-/

namespace Sys2Proof.Machine

/-- The frame's bytes as the host wrote them (R323). -/
def ringFrame (op : Nat) (f : CmdFrame) : List Byte :=
  frameBytes op f.tag f.flags.toNat f.portField f.target f.planSeq f.payload

/-- HEAD of a host-produced ring has advanced: after a push or TAIL write that set BUSY, its INT_STATUS bit sets (R320). -/
def headAdvanced (n : Nat) (s : State) : State :=
  if (ringAt s n).busyPending then raiseInt n (modRing n (fun r => { r with busyPending := false }) s) else s

/-- A frame leaves the front of its host-produced ring: HEAD passes it, in host memory too (R305). -/
def frameTaken (n : Nat) (s : State) : State :=
  headAdvanced n (modRing n (fun r => { r with head := r.head + BitVec.ofNat 32 r.fetched, fetched := 0 }) (popFront s n))

/-- Does a frame come next from its port: it stands at the front of its command ring, or the ring is empty and the frame was handed
over directly (R341, log 9)? While 16 commands are held, a frame that would be held keeps the later ones of its port back (R339). -/
def frameNext (s : State) (op : Nat) (f : CmdFrame) : Bool :=
  (match (ringAt s f.port).entries with
    | e :: _ => 2 < f.port || e.bytes == ringFrame op f
    | [] => true) &&
  (s.head.held.length < 16 || s.head.blocked.all (fun x => x.2.port != f.port || x == (op, f)))

/-- Take the frame out of its command ring when it stands at the ring's front (R305, R341). A frame that is not there was
handed over directly. The first command taken hands the adaptive supply to Gokixel (R83). -/
def consume (op : Nat) (f : CmdFrame) (s : State) : State :=
  let s := if s.bus.firstCommand then s else queueSupply { s with bus := { s.bus with firstCommand := true } }
  let s := { s with head := { s.head with blocked := s.head.blocked.filter (fun x => x.2.port != f.port) } }
  match (ringAt s f.port).entries with
  | e :: _ => if f.port < 3 && e.bytes == ringFrame op f then frameTaken f.port s else s
  | [] => s

/-- Can the Headstock take a command frame from a port now: the ports are open and step 13 is reached (R88), no mode
transition runs (R88), no restart runs (R353), no PLAN_COMMIT waits for its shut-downs (R350), the device is not in HOLD, the Headstock's clock runs (R95), its island has
no fault (R543) and no response of that port waits for its ring (R314). In COMPAT only the emulation's internal ring carries
commands (R356), and in every other mode only the open host ports do. -/
def portTakes (s : State) (p : Nat) : Bool :=
  s.pwr.commands && s.set.mode != .hold && s.head.transition.isNone && s.plan.committing.isNone && !s.head.restarting && !s.head.delayed &&
  s.clk.refOn && s.clk.sysPll == .locked && unitUp s 6 &&
  !s.port.respWait.any (fun x => x.1 == p) &&
  (if s.set.mode = .compat then p == 3 else portOpen s p)

/-- Can the Headstock take a command frame that reached it now? -/
def canTake (s : State) (f : CmdFrame) : Bool := portTakes s f.port

/-- How a handle named in a command stands against its class (R333). -/
inductive HandleState where
  | outOfRange
  | stale
  | gone
  | live
  deriving DecidableEq, Repr

/-- Judge a handle against the class's current generations and whether the object exists and is not being shut down. -/
def judge (h : Handle) (gen : Option Nat) (alive : Bool) : HandleState := match gen with
  | none => .outOfRange
  | some g => if h.gen ≠ g then .stale else if alive then .live else .gone

/-- The STALE check of a handle: detail 1 for the target, 2 for a handle in the payload (R328). -/
def staleIf (j : HandleState) (detail off : Nat) : Option Fail :=
  if j = .stale then some { status := 2, detail := detail, off := off } else none

/-- The NO_OBJECT check of a handle (R328). -/
def missingIf (j : HandleState) (detail off : Nat) : Option Fail :=
  if j = .outOfRange ∨ j = .gone then some { status := 3, detail := detail, off := off } else none

/-- A check that fails with a status and detail. -/
def failIf (c : Bool) (status detail off : Nat) : Option Fail :=
  if c then some { status := status, detail := detail, off := off } else none

/-- Of the failures of one check, the one with the lowest detail, the first on a tie (R328). -/
def lowest : List (Option Fail) → Option Fail
  | [] => none
  | none :: l => lowest l
  | some x :: l => match lowest l with
    | some y => if y.detail < x.detail then some y else some x
    | none => some x

/-- What a command is checked against, in the order of R327. -/
structure Checks where
  /-- The payload length is one the command accepts (R325, R355). -/
  lenOk  : Bool
  /-- Further structural faults of the payload. -/
  bad    : List (Option Fail) := []
  /-- Generations and stage numbers. -/
  stale  : List (Option Fail) := []
  /-- Existence of the objects named. -/
  noObj  : List (Option Fail) := []
  /-- Security lock, reserved objects and regulatory lock. -/
  denied : List (Option Fail) := []
  /-- Modes in which the command is accepted. -/
  modes  : List Mode
  /-- The function is available in the current mode (R33, R34). -/
  modeOk : Bool := true
  /-- The command waits behind a shut-down (R338). -/
  holds  : Bool := false
  /-- A resource held by another object. -/
  busy   : List (Option Fail) := []
  /-- Admission. -/
  cap    : List (Option Fail) := []
  /-- A parameter is clamped: a refusal by a check after clamping says so too (R327, R330). -/
  clamps : Bool := false

/-- The opcodes the resident loader of recovery boot accepts (R498). -/
def recoveryOpcodes : List Nat := [0x0D01, 0x0D07, 0x0100, 0x0D02, 0x0D03, 0x0D04]

/-- The first failing check of R327, up to the mode check. -/
def earlyFail (s : State) (op : Nat) (f : CmdFrame) (c : Checks) : Option Fail :=
  (lowest (failIf (!c.lenOk) 6 2 0xFFFF :: failIf (f.portField ≠ f.port && f.port < 3) 6 3 0xFFFF :: c.bad)).or
  ((lowest (failIf (f.flags.getLsbD 0 && f.planSeq != s.plan.seq) 2 3 0xFFFF :: c.stale)).or
  ((lowest c.noObj).or
  ((lowest c.denied).or
  (failIf (s.pwr.stage == .recovery && !recoveryOpcodes.contains op) 8 5 0xFFFF |>.or
    (failIf (!(c.modes.contains s.set.mode || s.pwr.stage == .recovery) || !c.modeOk) 8 s.set.mode.code 0xFFFF)))))

/-- The checks after clamping: BUSY and NO_CAPACITY (R327). -/
def lateFail (c : Checks) : Option Fail := (lowest c.busy).or (lowest c.cap)

/-- Answer a command that failed a check. The device state is otherwise unchanged (R327). -/
def refuse (op : Nat) (d : Deferred) (x : Fail) (s : State) : State :=
  respond op d { status := x.status, target := d.target, payload := failPayload x } s

/-- A command already taken: check it, hold it behind a shut-down, or execute it and answer. `body` gives the reply, or
none when the response waits for a device event. -/
def handle (op : Nat) (f : CmdFrame) (queued : Bool) (c : Checks) (body : State → State × Option Reply) (s : State) :
    State :=
  let d := deferredOf op f queued
  match earlyFail s op f c with
  | some x => refuse op d x s
  | none =>
    if c.holds then { s with head := { s.head with held := s.head.held ++ [(op, f)] } }
    else match lateFail c with
      | some x => refuse op { d with clamped := c.clamps } x s
      | none => match body s with
        | (t, some r) => respond op d r t
        | (t, none) => t

/-- A frame stays where it is: it would be the seventeenth held command, and its ring waits behind it (R339). -/
def blockPort (op : Nat) (f : CmdFrame) (s : State) : State :=
  { s with head := { s.head with blocked := (op, f) :: s.head.blocked.filter (fun x => x.2.port != f.port) } }

/-- A command frame as the Headstock meets it: left where it is while it cannot be taken, while others of its ring come before it, or
while it would be the seventeenth held command (R339, R341); taken and handled otherwise. -/
def command (op : Nat) (f : CmdFrame) (c : State → Checks) (body : State → State × Option Reply) (s : State) : State :=
  if !canTake s f || !frameNext s op f then s
  else if (earlyFail s op f (c s)).isNone && (c s).holds && 16 ≤ s.head.held.length then blockPort op f s
  else
    let t := consume op f s
    handle op f false (c t) body t

/-- A held command whose resource's shut-down has ended is handled; any other stays held (R338). -/
def rerunOne (still : Nat → CmdFrame → State → Bool) (h : Nat → CmdFrame → State → State) (t : State) (x : Nat × CmdFrame) :
    State :=
  if still x.1 x.2 t then t else h x.1 x.2 { t with head := { t.head with held := t.head.held.erase x } }

/-- Handle again, in their order of arrival, the held commands of some opcodes whose resource is back, with QUEUED set (R338,
R339). -/
def rerunHeld (ops : List Nat) (still : Nat → CmdFrame → State → Bool) (h : Nat → CmdFrame → State → State) (s : State) :
    State :=
  (s.head.held.filter (fun x => ops.contains x.1)).foldl (rerunOne still h) s

/-- The tag of the command that waits for an event, the cause of what the event posts (R324, R342). -/
def waiterTag (key : WaitKey) (s : State) : Option Nat := (s.head.deferred.find? (fun x => x.key == key)).map (·.resp.tag)

/-- Modes of the index tables of chapter 13. -/
def modesAll : List Mode := [.idle, .survey, .serve, .sentry, .update, .test]
/-- "All, C". -/
def modesAllC : List Mode := [.idle, .survey, .serve, .sentry, .update, .test, .compat]
/-- I, Y, S, E. -/
def modesIYSE : List Mode := [.idle, .survey, .serve, .sentry]
/-- I, S, E. -/
def modesISE : List Mode := [.idle, .serve, .sentry]
/-- I, S. -/
def modesIS : List Mode := [.idle, .serve]

/-- A reply that carries a payload and the frame's target. -/
def replyWith (f : CmdFrame) (p : List Byte) : Option Reply := some { target := f.target, payload := p }

end Sys2Proof.Machine
end

