-- ==== Sys2Proof/Machine/Admission.lean ====
section
/-!
DEFINITION. Admission.lean: the four shared resources, the object limits and the delay pool, and what every object is
charged (R19 to R29, R155, R213, R443).
-/

namespace Sys2Proof.Machine

/-! ### Gouge units (R21, R22) -/

/-- Gouge engines in service (R302). -/
def enginesWorking (s : State) : Nat := (s.health.engines.filter (·.working)).length

/-- The GU limit: 14,000 while 14 or more engines work, 1,000 for each otherwise, times 6/7 once the reduced clock plan is
decided (R21, R528). -/
def guLimit (s : State) : Nat :=
  let base := if 14 ≤ enginesWorking s then 14000 else 1000 * enginesWorking s
  if s.cal.record.reduced then base * 6 / 7 else base

/-- The cost of a reception by kind, the equaliser included (R22). -/
def kindCost (k : Kind) (eq : Nat) : Nat := match k with
  | .am => 6 | .fm => 14 + (if eq = 1 then 10 else 0) | .drm30 => 22 | .drmPlus => 30 | .dab => 36 | .tap => 0

/-- What a reception is charged; a shed one is not (R539). -/
def receptionCost (r : Reception) : Nat := if r.shed then 0 else kindCost r.kind r.ana.eq

/-- The cost of decoding a codec (R22, R213): MP2 10, HE-AAC v2 and the AAC of DRM 30, xHE-AAC 44; an unknown codec at the
standard's maximum. -/
def codecCost (k : Kind) (codec : Nat) : Nat := match codec with
  | 0 => 10 | 1 => 30 | 2 => 30 | 3 => 44
  | _ => if k = .dab then 30 else 44

/-- The standard's maximum decode cost (R213). -/
def maxDecode (k : Kind) : Nat := if k = .dab then 30 else 44

/-- Is a kind analogue? -/
def analogue (k : Kind) : Bool := k == .am || k == .fm

/-- Is a kind DRM? -/
def isDrm (k : Kind) : Bool := k == .drm30 || k == .drmPlus

/-- A reception by its index. -/
def receptionAt (s : State) (i : Nat) : Option Reception := s.prog.receptions.find? (·.idx == i)

/-- A programme by its index. -/
def programmeAt (s : State) (i : Nat) : Option Programme := s.prog.programmes.find? (·.idx == i)

/-- The kind of a reception by index; an index without a reception counts as DAB. -/
def kindAt (s : State) (i : Nat) : Kind := ((receptionAt s i).map (·.kind)).getD .dab

/-- Does a standing setting name this programme (R212)? -/
def standingFits (p : Programme) (x : Standing) : Bool :=
  p.reception == x.reception && p.decl.service == x.service && p.decl.component == x.component

/-- Is a standing setting without its programme present? -/
def unbound (s : State) (x : Standing) : Bool := !s.prog.programmes.any (fun p => standingFits p x)

/-- GU of the receptions and their branches: half the reception's cost each; a branch whose reception has been removed costs none
(R22; DESIGN CHOICE, log 160). -/
def guReceptions (s : State) : Nat :=
  (s.prog.receptions.map receptionCost).sum +
  (s.prog.branches.map (fun b => if b.o.shed then 0
    else ((receptionAt s b.reception).map receptionCost).getD 0 / 2)).sum

/-- GU of decodes: the charge of every selected programme, and the standard's maximum for a selection whose programme is not
present (R212, R213). -/
def guDecodes (s : State) : Nat :=
  (s.prog.programmes.map (fun p => if p.selected && p.shedStep = 0 then p.charge else 0)).sum +
  (s.prog.standing.map (fun x => if x.select.isSome && unbound s x then maxDecode (kindAt s x.reception) else 0)).sum

/-- Is a reception shed? -/
def isShed (s : State) (i : Nat) : Bool := ((receptionAt s i).map (·.shed)).getD false

/-- GU of measurements: 2 for each (R22, R375). -/
def guMeasures (s : State) : Nat :=
  (s.prog.programmes.map (fun p => if p.measured && !isShed s p.reception then 2 else 0)).sum +
  (s.prog.standing.map (fun x => if x.measure.isSome && unbound s x then 2 else 0)).sum

/-- GU of outputs, blend pairs and probes (R22). -/
def guOthers (s : State) : Nat :=
  4 * s.prog.pcms.length + (s.mix.blends.map (fun b => if b.o.shed then 0 else 12)).sum +
  (s.prog.probes.map (fun p => if p.o.shed then 0 else 6)).sum

/-- GU of the link role (R443). -/
def guLink (l : LinkConfig) (g : GatherConfig) : Nat :=
  if l.role = 1 then 20 else if l.role = 2 then 90 * g.channels.length else 0

/-- The link settings accepted last, in force or waiting for LINK_STOPPED (R406). -/
def chargedLink (s : State) : LinkConfig := s.link.newConfig.getD s.set.link

/-- The gather settings accepted last, in force or waiting for a superframe boundary (R447). -/
def chargedGather (s : State) : GatherConfig := s.link.gatherTo.getD s.set.gather

/-- GU charged for the link: while a change waits, the link in force keeps what it holds (R18), and what was accepted is
granted already (R406, R443). -/
def guLinkUsed (s : State) : Nat := max (guLink s.set.link s.set.gather) (guLink (chargedLink s) (chargedGather s))

/-- All GU charged. -/
def guUsed (s : State) : Nat := guReceptions s + guDecodes s + guMeasures s + guOthers s + guLinkUsed s

/-! ### Chains, Timber and the delay pool -/

/-- Chains assigned to objects and to the survey's candidates (R24, R252). -/
def chainsUsed (s : State) : Nat :=
  (s.survey.cands.filter (·.running)).length + s.prog.receptions.length + s.prog.branches.length + s.prog.probes.length + s.prog.taps.length

/-- Timber reserved, in bytes (R25); the link's table is held until LINK_STOPPED (R18). -/
def timberUsed (s : State) : Nat :=
  1024 * (337 * (s.prog.receptions.filter (·.kind == .dab)).length +
    185 * (s.prog.receptions.filter (fun r => isDrm r.kind)).length + 778 * s.mix.blends.length + 2048 + 2048 +
    (if (chargedLink s).role = 0 && s.set.link.role = 0 then 0 else 1024)) +
  (s.set.rings.map (·.quota)).sum

/-- The planning pool in bytes (R25). -/
def timberPool : Nat := 32256 * 1024

/-- What a delay draws from the delay pool (R155). -/
def delayBytes (whole frac : Nat) : Nat := if whole = 0 ∧ frac = 0 then 0 else 4 * (whole + 1)

/-- What a chain draws: the larger of its delay and of a change not yet applied (R155, R173). -/
def chainDelay (c : Chain) : Nat :=
  let of (d : Option (Nat × Nat)) := match d with
    | some (w, f) => delayBytes w f
    | none => 0
  max (delayBytes c.delay c.frac) (max (of c.pend.delay) (of c.pend.delayHeld))

/-- The delay pool in use (R155). -/
def delayUsed (s : State) : Nat :=
  (s.prog.receptions.map (fun r => chainDelay r.chain)).sum + (s.prog.branches.map (fun b => chainDelay b.chain)).sum +
  (s.prog.probes.map (fun p => chainDelay p.chain)).sum + (s.prog.taps.map (fun t => chainDelay t.chain)).sum

/-! ### Port budgets and planned rates (R26 to R28, R238) -/

/-- A port's budget in bit/s: PCIe at its trained link, SPI and two-wire as declared; 0 for a port that is closed or none
(R27, R28, R315). -/
def budget (s : State) (p : Nat) : Nat :=
  if p = 0 ∧ hostConfig s = 2 then
    let full := if s.port.pcieGen = 3 then 11028000000 else if s.port.pcieGen = 2 then 5600000000
      else if s.port.pcieGen = 1 then 2800000000 else 0
    if s.port.pcieWidth = 2 then full else if s.port.pcieWidth = 1 then full / 2 else 0
  else if p = 1 ∧ hostConfig s = 1 then
    s.set.ports.sckKhz * (if s.set.ports.spiQuad = 1 then 2800 else 700)
  else if p = 2 then s.set.ports.sclKhz * 622
  else 0

/-- The planned rate of an IQ output in bit/s: blocks of 1,064 bytes (R170). -/
def iqRate : Kind → Nat
  | .am => 798000 | .drm30 => 1596000 | .drmPlus => 6384000 | .fm => 12768000 | .dab => 68096000 | .tap => 127680000

/-- A planned rate that is no whole number of bit/s, to the nearest, halves up, as the figures of R238 are rounded. -/
def nearestDiv (a b : Nat) : Nat := (2 * a + b) / (2 * b)

/-- The planned rate of a programme's compressed output (R231 to R233): one MP2 frame of 24 or 48 ms, one DAB+ superframe of
120 ms with its table for six AUs, or one DRM audio superframe; log 12 says what of this the specification leaves open. -/
def compressedRate (k : Kind) (d : CompDecl) : Nat :=
  if k = .dab ∧ d.codec = 0 then
    if d.sampleRate = 24000 then nearestDiv ((6 * d.bitRate + 40) * 8000) 48 else nearestDiv ((3 * d.bitRate + 40) * 8000) 24
  else if k = .dab then nearestDiv ((d.bitRate * 110 / 8 + 60) * 8000) 120
  else if k = .drm30 then (d.bitRate * 50 + 40) * 20
  else (d.bitRate * 25 + 40) * 40

/-- The planned rate of the link-frame stream for link settings (R476). -/
def linkRate (l : LinkConfig) (g : GatherConfig) : Nat :=
  if l.role = 2 then 1536 * (g.channels.length * g.slots + 1) / 2 ^ g.p
  else if l.role = 1 then 1536 * 2 / 2 ^ g.p else 0

/-- The planned rate of a binding in bit/s: output code, source index and class of the source (R26, R238, R378, R476). The IQ output of an
attached probe is charged by its present kind, and a move to another kind does not judge the budget again (DESIGN CHOICE, log 161). -/
def outputRate (s : State) (code idx : Nat) (cls : Nat) : Nat :=
  let rk := kindAt s idx
  match code with
  | 0 => if cls = 1 then
           iqRate (((s.prog.branches.find? (·.o.idx == idx)).map (·.chain.kind)).getD .fm)
         else if cls = 2 then iqRate (((s.prog.probes.find? (·.o.idx == idx)).map (·.chain.kind)).getD .fm)
         else if cls = 3 then iqRate .tap else iqRate rk
  | 1 => 3136000
  | 2 => 3136000
  | 3 => match programmeAt s idx with
    | some p => compressedRate (kindAt s p.reception) p.decl
    | none => 0
  | 4 => 4385 * ((List.range 4).filter (fun i =>
      (((receptionAt s idx).map (·.ana.streams)).getD 0) / 2 ^ i % 2 = 1)).length
  | 5 => 42667
  | 6 => 8000
  | 7 => 32000
  | 8 => 32000
  | 9 => if rk = .drm30 then 1120 else 4480
  | 10 => if rk = .drm30 then 7093 else 21280
  | 11 => 1000
  | 12 => nearestDiv 12800 (((programmeAt s idx).map (fun p => max 1 p.nextInterval)).getD 10)
  | 13 => 76800
  | 14 => max (linkRate s.set.link s.set.gather) (linkRate (chargedLink s) (chargedGather s))
  | _ => 0

/-- The planned rate of all streams bound to rings of a port (R26). -/
def planned (s : State) (p : Nat) : Nat :=
  (s.plan.binds.map (fun b => if ringPort s b.2.2.2 = p then outputRate s b.1 b.2.1.index b.2.2.1 else 0)).sum

/-! ### The admission decision (R19, R23, R29, R328) -/

/-- Selections counted against the 160 programmes decoded at once (R212). -/
def decodesUsed (s : State) : Nat :=
  (s.prog.programmes.filter (fun p => p.selected && !analogue (kindAt s p.reception))).length +
  (s.prog.standing.filter (fun x => x.select.isSome && unbound s x)).length

/-- A dimension refuses a change that leaves it above its limit, unless the change does not raise it. -/
def exceeds (limit old new : Nat) : Bool := limit < new && old < new

/-- Receptions of the kinds that have further limits (R23). -/
def countKind (s : State) (g : Kind → Bool) : Nat := (s.prog.receptions.filter (fun r => g r.kind)).length

/-- Objects marked for SENTRY (R31). -/
def sentryReceptions (s : State) : Nat := (s.prog.receptions.filter (·.sentry)).length

/-- The object limits of R23. -/
def objectsOver (old new : State) : Bool :=
  exceeds 256 old.prog.receptions.length new.prog.receptions.length ||
  exceeds 24 (countKind old (· == .dab)) (countKind new (· == .dab)) ||
  exceeds 48 (countKind old isDrm) (countKind new isDrm) ||
  exceeds 1024 old.prog.programmes.length new.prog.programmes.length ||
  exceeds 160 (decodesUsed old) (decodesUsed new) ||
  exceeds 32 old.prog.pcms.length new.prog.pcms.length || exceeds 8 old.mix.blends.length new.mix.blends.length ||
  exceeds 32 old.prog.probes.length new.prog.probes.length || exceeds 32 old.prog.branches.length new.prog.branches.length ||
  exceeds 32 old.prog.follows.length new.prog.follows.length

/-- The tighter object count of SENTRY: 8 receptions (R31, R33). The emulation never asks for more receptions than its 4
channels (R32). -/
def modeOver (old new : State) : Bool :=
  new.set.mode == .sentry && exceeds 8 (sentryReceptions old) (sentryReceptions new)

/-- PCM outputs marked for SENTRY, of which 2 are available there (R31). -/
def sentryPcms (s : State) : Nat := (s.prog.pcms.filter (·.o.sentry)).length

/-! ### The length of the encoded plan (R46, R349) -/

/-- The length of an entry of the encoded plan: a frame header and its payload, to a multiple of 4 bytes (R349). -/
def entrySize (payload : Nat) : Nat := (16 + payload + 3) / 4 * 4

/-- What the settings stated for a reception add to the encoded plan: its alerts, its standing settings, and those of its
programmes that were made by handle. -/
def settingsLength (s : State) (r : Reception) : Nat :=
  (if r.alertCfg = {} then 0 else entrySize 4) +
  ((s.prog.standing.filter (fun x => x.reception = r.idx)).map (fun x =>
    (if x.select.isSome then entrySize 12 else 0) + (if x.measure.isSome then entrySize 16 else 0))).sum +
  ((s.prog.programmes.filter (fun p => p.reception = r.idx)).map (fun p =>
    (if p.selected && !s.prog.standing.any (fun x => standingFits p x && x.select.isSome) then entrySize 12 else 0) +
    (if p.measured && !s.prog.standing.any (fun x => standingFits p x && x.measure.isSome) then entrySize 16 else 0))).sum

/-- The length in bytes of the encoded active plan: what GET_PLAN renders (R46, R383). -/
def planLength (s : State) : Nat :=
  entrySize 388 * (s.mix.banks.filter (·.kind.isSome)).length + entrySize 516 * (s.mix.curves.filter (·.points.isSome)).length +
  ((s.front.windows.filter (fun x => x.inPlan && x.state != .closing && !x.closeAfter)).map (fun x =>
    entrySize 16 + (if x.partner.isSome then entrySize 4 else 0))).sum +
  ((s.prog.receptions.filter (fun r => !r.removing)).map (fun r => entrySize 32 + settingsLength s r)).sum +
  entrySize 4 * (s.prog.branches.filter (fun b => !b.o.removing)).length +
  entrySize 16 * (s.prog.taps.filter (fun t => !t.o.removing)).length +
  entrySize 20 * (s.prog.probes.filter (fun p => !p.o.removing)).length +
  entrySize 132 * (s.prog.follows.filter (fun f => !f.o.removing)).length +
  entrySize 16 * (s.mix.blends.filter (fun b => !b.o.removing)).length +
  entrySize 16 * (s.prog.pcms.filter (fun x => !x.o.removing)).length + entrySize 4 * s.plan.binds.length

/-- The encoded active plan is at most 64 KB: a command that would take it further is refused as one beyond an object limit,
which the specification does not say (R46; log 130). -/
def planOver (old new : State) : Option Fail := failIf (exceeds 65536 (planLength old) (planLength new)) 4 5 0xFFFF

/-- Is some object shed (R539)? -/
def anyShed (s : State) : Bool :=
  s.prog.receptions.any (·.shed) || s.prog.branches.any (·.o.shed) || s.prog.probes.any (·.o.shed) ||
  s.mix.blends.any (·.o.shed) || s.prog.programmes.any (fun p => p.shedStep ≠ 0)

/-- The admission checks on the state after the change against the state before it, with the detail codes of R328. While any
object is shed, every command that would add GU is refused (R539). -/
def admission (old new : State) : List (Option Fail) :=
  [ failIf (exceeds (guLimit new) (guUsed old) (guUsed new) || (anyShed old && guUsed old < guUsed new)) 4 1 0xFFFF,
    failIf (exceeds 320 (chainsUsed old) (chainsUsed new)) 4 2 0xFFFF,
    failIf (exceeds timberPool (timberUsed old) (timberUsed new)) 4 3 0xFFFF,
    failIf ([0, 1, 2, 3].any (fun p => exceeds (budget new p) (planned old p) (planned new p))) 4 4 0xFFFF,
    failIf (objectsOver old new) 4 5 0xFFFF,
    failIf (exceeds 786432 (delayUsed old) (delayUsed new)) 4 6 0xFFFF,
    failIf (modeOver old new) 4 7 0xFFFF,
    planOver old new ]

end Sys2Proof.Machine
end

