-- ==== Sys2Proof/Machine/Kerf.lean ====
section
/-!
DEFINITION. Kerf.lean: the operations on chisel chains: where a channel is covered, chain blocks, banks, group delay and
time-stamps, starts, stops, gaps and coverage (chapter 06, and R112 to R118 of chapter 05).
-/

namespace Sys2Proof.Machine

/-! ### Chain kinds (R152, R164, R165) -/

/-- Ticks per output sample of a kind. -/
def ticksPerOut : Kind → Nat
  | .am => 10240 | .drm30 => 5120 | .drmPlus => 1280 | .fm => 640 | .dab => 120 | .tap => 64

/-- Ticks per FIR input sample of a kind (the table Chain stages); 0 where the FIR is bypassed. -/
def ticksPerFir : Kind → Nat
  | .am => 5120 | .drm30 => 2560 | .drmPlus => 640 | .fm => 320 | .dab => 64 | .tap => 0

/-- Group delay of every stage but the FIR, in ticks (the table Group delay per kind). -/
def fixedDelay (k : Kind) (w : Nat) : Nat := match k with
  | .am => 1564 + 1440 + 49280
  | .drm30 => 1564 + 1440 + 21120
  | .drmPlus => 1536 + 640 + 3520
  | .fm => 1536 + 640
  | .dab => 1536 + 720
  | .tap => if w = 4 then 1564 else 1536

/-- The settle count of a kind (R165). -/
def settleCount (k : Kind) (w : Nat) : Nat := match k with
  | .am => 58 | .drm30 => 57 | .drmPlus => 57 | .fm => 55 | .dab => 89
  | .tap => if w = 4 then 49 else 48

/-- Half the coverage band of a kind, in Hz (R117). -/
def halfBand : Kind → Nat
  | .am => 5000 | .drm30 => 10000 | .drmPlus => 50000 | .fm => 150000 | .dab => 768000 | .tap => 1440000

/-- Is a kind ever covered in a window (R152)? -/
def kindInWindow (k : Kind) (w : Nat) : Bool := match k with
  | .am | .drm30 => w == 4
  | .tap => w < 5
  | _ => w != 4

/-- A frequency clamped into a kind's legal range and then to its grid, halves up (R152, R154). Between the two DAB ranges
the nearer end is taken, the lower on a tie. -/
def clampFreq (k : Kind) (f : Nat) : Nat :=
  let grid (v : Nat) := (v + 500) / 1000 * 1000
  match k with
  | .am => clampNat 148500 26100000 f
  | .drm30 => clampNat 148500 30000000 f
  | .drmPlus => grid (clampNat 30000000 174000000 f)
  | .fm => grid (clampNat 64000000 108000000 f)
  | .dab => grid (if f ≤ 846000000 then clampNat 174000000 240000000 f else clampNat 1452000000 1492000000 f)
  | .tap => f

/-! ### Windows and coverage (R114, R117, R139, R143, R149) -/

/-- A window of the device. -/
def windowAt (s : State) (w : Nat) : Window := s.front.windows.getD w {}

/-- Change a window. -/
def modWindow (w : Nat) (g : Window → Window) (s : State) : State :=
  { s with front := { s.front with windows := modAt s.front.windows w g } }

/-- A tuner of the device; number 4 is the HF input. -/
def tunerAt (s : State) (t : Nat) : Tuner := s.front.tuners.getD t {}

/-- Change a tuner. -/
def modTuner (t : Nat) (g : Tuner → Tuner) (s : State) : State :=
  { s with front := { s.front with tuners := modAt s.front.tuners t g } }

/-- The handle of a window. -/
def windowHandle (s : State) (w : Nat) : Handle := { index := w, gen := (windowAt s w).gen }

/-- Is a window open: it is accepting samples, or in the gap of a retune? -/
def windowOpen (s : State) (w : Nat) : Bool := (windowAt s w).state == .open || (windowAt s w).state == .retuning

/-- The width a window runs at: at most 12 MHz in SENTRY (R31, R33). -/
def runWidth (s : State) (w : Nat) : Nat :=
  if s.set.mode = .sentry then min 12000 (windowAt s w).widthKhz else (windowAt s w).widthKhz

/-- The spectrum of a window by its applied settings, in Hz: above the LO in native placement, about the LO on the
direct-conversion path of COMPAT, 0.1 to 40 MHz for W4 (R114, R139, R143). -/
def windowBand (s : State) (w : Nat) : Nat × Nat :=
  let x := windowAt s w
  if w = 4 then (100000, 40000000)
  else if s.set.mode = .compat then (x.lo - x.widthKhz * 500, x.lo + x.widthKhz * 500)
  else (x.lo + 6000000, x.lo + 6000000 + runWidth s w * 1000)

/-- The centre of a sub-band of a window, below 0 for the lowest sub-bands of a low window (R149). -/
def subbandCentre (s : State) (w k : Nat) : Int :=
  if w = 4 then (k : Int) * 960000 else ((windowAt s w).lo : Int) + ((k : Int) - 128) * 960000

/-- The channel's frequency: as applied, or a tap's sub-band centre (R154). -/
def channelFreq (s : State) (c : Chain) : Int := if c.kind = .tap then subbandCentre s c.window c.freq else c.freq

/-- Is a channel of a kind covered by a window (R117, R152)? -/
def covers (s : State) (w : Nat) (k : Kind) (f : Int) : Bool :=
  let b := windowBand s w
  kindInWindow k w && windowOpen s w && ((b.1 + halfBand k : Nat) : Int) ≤ f && f + halfBand k ≤ b.2

/-- The window that captures a channel, the lowest that covers it (R260). -/
def capturedBy (s : State) (k : Kind) (f : Int) : Option Nat := (List.range 5).find? (fun w => covers s w k f)

/-- Is a chain's channel covered now? -/
def chainCovered (s : State) (c : Chain) : Bool := covers s c.window c.kind (channelFreq s c)

/-- The sub-band whose centre is nearest the channel's frequency, the lower index on a tie; a tap reads its own (R153). For a
frequency outside the window the nearest index that exists (log 134). -/
def subbandOf (s : State) (c : Chain) : Nat :=
  if c.kind = .tap then c.freq
  else
    let rel : Int := if c.window = 4 then (c.freq : Int)
      else (c.freq : Int) - ((windowAt s c.window).lo : Int) + 128 * 960000
    (clampInt 0 (if c.window = 4 then 63 else 255) ((rel + 479999) / 960000)).toNat

/-- The difference that the NCO takes out, in Hz: the centre of the sub-band less the channel's frequency (R153). -/
def shiftHz (s : State) (c : Chain) : Int := subbandCentre s c.window (subbandOf s c) - channelFreq s c

/-- Round a ratio to the nearest integer, halves up. -/
def roundDiv (a : Int) (b : Nat) : Int := (2 * a + b) / (2 * b)

/-- The step of the NCO's 32-bit phase word at each sample of 3.84 MS/s, for a shift in Hz (R153), the nearest one with halves up. DESIGN
CHOICE, log 14. -/
def ncoStep (hz : Int) : W32 := BitVec.ofInt 32 (roundDiv (hz * 4294967296) 3840000)

/-- The frequency of a phase step in mHz, to the nearest (R153). -/
def ncoMilliHz (w : W32) : Int := roundDiv (w.toInt * 3840000000) 4294967296

/-- The NCO shift in mHz: minus the difference of the frequency and the sub-band's centre, as the phase word has it (R153). -/
def ncoShift (s : State) (c : Chain) : Int := ncoMilliHz (ncoStep (shiftHz s c))

/-! ### Coefficient banks (R157 to R161) -/

/-- The kind of a default bank, 0 to 31 (R157). -/
def defaultBankKind : Nat → Option Kind
  | 0 => some .am | 1 => some .am | 2 => some .am | 4 => some .drm30 | 6 => some .drmPlus
  | 8 => some .fm | 9 => some .fm | 10 => some .fm | 12 => some .dab | _ => none

/-- The default bank of a kind (R152). -/
def defaultBank : Kind → Nat
  | .am => 1 | .drm30 => 4 | .drmPlus => 6 | .fm => 8 | .dab => 12 | .tap => 0xFFFF

/-- A user bank by its number 32 to 63. -/
def userBank (s : State) (i : Nat) : Bank := s.mix.banks.getD (i - 32) {}

/-- The current generation of a bank: that of a default bank advances by R335 alone (R331). -/
def bankGen (s : State) (i : Nat) : Nat := if i < 32 then s.gens.fixed else (userBank s i).gen

/-- Is a bank valid for a kind (R158)? -/
def bankValid (s : State) (k : Kind) (i : Nat) : Bool :=
  if i < 32 then defaultBankKind i == some k else i < 64 && (userBank s i).kind == some (kindCode k)

/-- The handle of the default bank of a kind; a tap has none (R154). -/
def defaultBankHandle (s : State) (k : Kind) : Handle := { index := defaultBank k, gen := if k = .tap then 0 else s.gens.fixed }

/-- The bank a chain starts on: whatever its user bank holds now, or the default when that is for another kind (R161). -/
def startBank (s : State) (k : Kind) (h : Handle) : Handle :=
  if k = .tap then defaultBankHandle s .tap
  else if bankValid s k h.index then { index := h.index, gen := bankGen s h.index } else defaultBankHandle s k

/-- A tap of a default bank: from the signed image, symmetric about 47.5 and in the range of a coefficient (R157, R159). -/
def defaultTap (i n : Nat) : Int := clampInt (-131072) 131071 (Config.defaultTap i (min n (95 - n)))

/-- The taps of a bank; a default bank's come from the signed image (R157). -/
def bankTaps (s : State) (i : Nat) : List Int :=
  if i < 32 then (List.range 96).map (defaultTap i) else (userBank s i).taps

/-- The sum of a list of integers. -/
def sumInt (l : List Int) : Int := l.foldl (· + ·) 0

/-- Is a bank with |S| below 1/64 (R160)? A default bank never is. -/
def bankUnscaled (s : State) (i : Nat) : Bool := 32 ≤ i && i < 64 && (sumInt (bankTaps s i)).natAbs < 2048

/-- The FIR's share of the group delay in 1/64 tick: its centroid times the input sample; 47.5 for a default or an unscaled
bank (R157, R164). -/
def firDelay64 (s : State) (k : Kind) (i : Nat) : Int :=
  let t : Int := 64 * ticksPerFir k
  if i < 32 || 64 ≤ i || bankUnscaled s i then t * 95 / 2
  else
    let taps := bankTaps s i
    let num := sumInt ((taps.zipIdx).map (fun x => (x.2 : Int) * x.1))
    let den := sumInt taps
    if den < 0 then roundDiv (-(num * t)) den.natAbs else roundDiv (num * t) den.natAbs

/-- D_grp of a chain in 1/64 tick (R164). -/
def groupDelay64 (s : State) (c : Chain) : Int := 64 * (fixedDelay c.kind c.window : Int) + firDelay64 s c.kind c.bank.index

/-! ### Time-stamps (R109) -/

/-- D_prog in 1/64 tick (R109, R154). -/
def progDelay64 (c : Chain) : Int := ((c.delay * 64 + c.frac) * ticksPerOut c.kind : Nat)

/-- The antenna port and tuner a chain's samples come through: a branch's are its partner's. -/
def chainInput (s : State) (o : ChainOwner) (c : Chain) : Nat × Nat :=
  let w := windowAt s c.window
  if c.window = 4 then (6, 4)
  else match o, w.partner with
    | .branch _, some (t, p) => (p, t)
    | _, _ => (w.port, w.tuner.getD c.window)

/-- D_an in 1/64 tick. -/
def analogueDelay64 (s : State) (o : ChainOwner) (c : Chain) : Nat :=
  let x := chainInput s o c
  Config.analogueDelay x.1 x.2

/-- D_ext in units of 0.25 ns. -/
def extDelay (s : State) (o : ChainOwner) (c : Chain) : Nat := s.set.time.dExt.getD (chainInput s o c).1 0

/-- The antenna instant of the sample an ADC took at `adc64`, in 1/64 tick of device time: rounded to the nearest tick,
halves up (R109). A quarter nanosecond is 393,216/100,000 of a 1/64 tick. -/
def antennaStamp (s : State) (o : ChainOwner) (c : Chain) (adc64 : Int) : Tick :=
  let x := adc64 - groupDelay64 s c - progDelay64 c - (analogueDelay64 s o c : Int)
  BitVec.ofInt 64 (roundDiv (x * 100000 - 393216 * (extDelay s o c : Int)) 6400000)

/-- Device time now in 1/64 tick. -/
def now64 (s : State) : Int := ((s.time.count.toNat * 64 + s.time.sub : Nat) : Int)

/-- The antenna instant of what reaches the ADC now, by the present count. -/
def stampNow (s : State) (o : ChainOwner) (c : Chain) : Tick := antennaStamp s o c (now64 s)

/-- A time-stamp of the present count as an instant of the epoch it lies in: before the antenna instant of a step it is read in
the epoch, and by the count, that the step ended (R110). -/
def inEpoch : List StepMark → W16 → Tick → Instant
  | [], e, t => { epoch := e, tick := t }
  | x :: xs, e, t => if t.toInt < x.at'.toInt then inEpoch xs (e - 1) (t - BitVec.ofInt 64 x.change) else { epoch := e, tick := t }

/-- The instant that a time-stamp of the present count names (R110). -/
def instantAt (s : State) (t : Tick) : Instant := inEpoch s.time.steps s.time.epoch t

/-- The time-stamp of an instant by the present count: Change of every later step is added (R111). -/
def inNow (s : State) (i : Instant) : Tick :=
  ((s.time.steps.takeWhile (fun x => x.epoch != i.epoch)).map (·.change)).foldl (fun t d => t + BitVec.ofInt 64 d) i.tick

/-- The antenna instant of what reaches the ADC now (R109, R110). -/
def instantNow (s : State) (o : ChainOwner) (c : Chain) : Instant := instantAt s (stampNow s o c)

/-- Ticks from one instant to a time-stamp of the present count, 0 when it lies before. -/
def ticksSince (s : State) (i : Instant) (t : Tick) : Nat := (t - inNow s i).toInt.toNat

/-- An instant moved on by ticks of its own count. -/
def Instant.later (i : Instant) (n : Nat) : Instant := { i with tick := i.tick + BitVec.ofNat 64 n }

/-- The Total correction of GET_CHAIN in 1/64 tick, to the nearest (R176). -/
def totalCorrection (s : State) (o : ChainOwner) (c : Chain) : Int :=
  groupDelay64 s c + progDelay64 c + (analogueDelay64 s o c : Int) + roundDiv (393216 * (extDelay s o c : Int)) 100000

/-! ### Owners and their chains (R24) -/

/-- The chain of an owner. -/
def chainOf (s : State) : ChainOwner → Option Chain
  | .reception i => (receptionAt s i).map (·.chain)
  | .branch i => (s.prog.branches.find? (·.o.idx == i)).map (·.chain)
  | .probe i => (s.prog.probes.find? (·.o.idx == i)).map (·.chain)
  | .tap i => (s.prog.taps.find? (·.o.idx == i)).map (·.chain)

/-- Change a reception. -/
def modReception (i : Nat) (g : Reception → Reception) (s : State) : State :=
  { s with prog := { s.prog with receptions := s.prog.receptions.map (fun r => if r.idx = i then g r else r) } }

/-- Change a programme. -/
def modProgramme (i : Nat) (g : Programme → Programme) (s : State) : State :=
  { s with prog := { s.prog with programmes := s.prog.programmes.map (fun p => if p.idx = i then g p else p) } }

/-- Change the chain of an owner. -/
def modChain (o : ChainOwner) (g : Chain → Chain) (s : State) : State := match o with
  | .reception i => modReception i (fun r => { r with chain := g r.chain }) s
  | .branch i => { s with prog := { s.prog with
      branches := s.prog.branches.map (fun b => if b.o.idx = i then { b with chain := g b.chain } else b) } }
  | .probe i => { s with prog := { s.prog with
      probes := s.prog.probes.map (fun p => if p.o.idx = i then { p with chain := g p.chain } else p) } }
  | .tap i => { s with prog := { s.prog with
      taps := s.prog.taps.map (fun t => if t.o.idx = i then { t with chain := g t.chain } else t) } }

/-- Change every chain. -/
def mapChains (g : Chain → Chain) (s : State) : State :=
  { s with prog := { s.prog with
      receptions := s.prog.receptions.map (fun r => { r with chain := g r.chain })
      branches := s.prog.branches.map (fun b => { b with chain := g b.chain })
      probes := s.prog.probes.map (fun p => { p with chain := g p.chain })
      taps := s.prog.taps.map (fun t => { t with chain := g t.chain }) } }

/-- Every owner of a chain, receptions first. -/
def owners (s : State) : List ChainOwner :=
  s.prog.receptions.map (fun r => .reception r.idx) ++ s.prog.branches.map (fun b => .branch b.o.idx) ++
  s.prog.probes.map (fun p => .probe p.o.idx) ++ s.prog.taps.map (fun t => .tap t.o.idx)

/-- The owners whose chain reads a window. -/
def ownersOn (s : State) (w : Nat) : List ChainOwner :=
  (owners s).filter (fun o => ((chainOf s o).map (fun c => c.window == w)).getD false)

/-- The handle of an owner with its generation. -/
def ownerHandle (s : State) : ChainOwner → Handle
  | .reception i => { index := i, gen := ((receptionAt s i).map (·.gen)).getD 0 }
  | .branch i => { index := i, gen := ((s.prog.branches.find? (·.o.idx == i)).map (·.o.gen)).getD 0 }
  | .probe i => { index := i, gen := ((s.prog.probes.find? (·.o.idx == i)).map (·.o.gen)).getD 0 }
  | .tap i => { index := i, gen := ((s.prog.taps.find? (·.o.idx == i)).map (·.o.gen)).getD 0 }

/-- The Role code of an owner (R176). -/
def roleCode : ChainOwner → Nat
  | .reception _ => 0 | .branch _ => 1 | .probe _ => 2 | .tap _ => 3

/-- Is an owner being shut down? -/
def ownerRemoving (s : State) : ChainOwner → Bool
  | .reception i => ((receptionAt s i).map (·.removing)).getD false
  | .branch i => ((s.prog.branches.find? (·.o.idx == i)).map (·.o.removing)).getD false
  | .probe i => ((s.prog.probes.find? (·.o.idx == i)).map (·.o.removing)).getD false
  | .tap i => ((s.prog.taps.find? (·.o.idx == i)).map (·.o.removing)).getD false

/-- Is a chain started: its object runs in the current mode? -/
def chainStarted (c : Chain) : Bool := c.state == .waiting || c.state == .settling || c.state == .running

/-- Does a chain produce outputs? -/
def chainProducing (c : Chain) : Bool := c.state == .settling || c.state == .running

/-- Does a chain claim its window (R119, R151)? -/
def chainClaims (c : Chain) : Bool := chainProducing c || (c.state == .waiting && c.covered)

/-- Does Kerf compute a sub-band of a window: a chain that claims it reads it (R151)? -/
def subbandComputed (s : State) (w k : Nat) : Bool :=
  (owners s).any (fun o => ((chainOf s o).map (fun c => c.window == w && chainClaims c && subbandOf s c == k)).getD false)

/-- The tuners' LOCKED and SERVING states follow the chains that claim their windows (R119). -/
def refreshTuners (s : State) : State :=
  let claimed (w : Nat) : Bool := (owners s).any (fun o => ((chainOf s o).map (fun c => c.window == w && chainClaims c)).getD false)
  let one (t : Tuner) : Tuner := match t.role with
    | .window w => if t.state == .locked || t.state == .serving then
        { t with state := if claimed w then .serving else .locked } else t
    | .partner w => if t.state == .locked || t.state == .serving then
        { t with state := if claimed w then .serving else .locked } else t
    | _ => t
  { s with front := { s.front with tuners := s.front.tuners.map one } }

/-- Does a chain feed a Scarf cross-fade in progress: a programme of its reception is a branch of a fading pair (R163,
R279)? -/
def feedsFade (s : State) (o : ChainOwner) : Bool :=
  let r : Option Nat := match o with
    | .reception i => some i
    | .branch i => (s.prog.branches.find? (·.o.idx == i)).map (·.reception)
    | _ => none
  match r with
  | none => false
  | some i => s.mix.blends.any (fun b => b.state == .fading &&
      s.prog.programmes.any (fun p => p.reception == i &&
        (b.a == { index := p.idx, gen := p.gen } || b.b == { index := p.idx, gen := p.gen })))

/-! ### Chain changes (R162, R172 to R175) -/

/-- Restart a chain: it marks its settle count anew and takes the bank's present contents (R161, R165, R166). -/
def restart (s : State) (c : Chain) : Chain :=
  { c with state := .settling, settle := settleCount c.kind c.window, owedUnsettled := 0, gapAt := none
           bank := startBank s c.kind c.bank }

/-- A delay that decreases by n whole samples at a block boundary discards the n oldest, so the next block has a gap of n/256 whole
blocks, whatever its time-stamps span (R173). -/
def countDiscard (c : Chain) : Chain := match c.pend.delay with
  | some (d, _) => if d < c.delay then { c with gapLost := some (c.gapLost.getD 0 + (c.delay - d) / 256), lastOut := none } else c
  | none => c

/-- Apply the pending changes that are not held; the second part says that the bank changed. At a gap the samples that a smaller
delay discards lie in the span between the time-stamps, and are not counted again (R172, R175). -/
def applyPending (c : Chain) : Chain × Bool :=
  let c1 := match c.pend.bank with
    | some h => { c with bank := h }
    | none => c
  let c2 := match c.pend.freq with
    | some (f, w) => { c1 with freq := f, window := w, kind := c.pend.kind.getD c1.kind }
    | none => c1
  let c3 := match c.pend.delay with
    | some (d, x) => { c2 with delay := d, frac := x }
    | none => c2
  ({ c3 with pend := { c.pend with bank := none, freq := none, kind := none, delay := none } }, c.pend.bank.isSome)

/-- Post CHAIN_BANK_CHANGED (R162, R384). -/
def postBankChanged (o : ChainOwner) (cause : Option Nat) (s : State) : State :=
  match chainOf s o with
  | some c => post 0x8506 (ownerHandle s o) (handleBytes c.bank ++ leBytes 1 (roleCode o) ++ zeros 3) cause s
  | none => s

/-- The next block of a chain carries GAP_BEFORE. -/
def oweGap (c : Chain) : Chain := { c with gapLost := some (c.gapLost.getD 0) }

/-- An acquired reception meets a break of its chain's settled outputs: it holds, from the last of them on (R181, R184). -/
def holdOver (o : ChainOwner) (s : State) : State := match o with
  | .reception i =>
    match chainOf s o with
    | some c => modReception i (fun r => { r with
        bridge := false
        rx := if r.rx = .acquired then .holding else r.rx
        lastSettled := if c.state = .running && r.lastSettled.isNone then some (instantNow s o c) else r.lastSettled }) s
    | none => s
  | _ => s

/-- The payload of a coverage event (R385). -/
def coveragePayload (s : State) (o : ChainOwner) (c : Chain) : List Byte :=
  let i := instantNow s o c
  handleBytes (windowHandle s c.window) ++ leBytes 2 i.epoch.toNat ++ zeros 2 ++ leBytes 8 i.tick.toNat

/-- Stop the chain of an object: it keeps its assignment (R38, R156). Held and pending changes become its settings. -/
def stopChain (c : Chain) : Chain :=
  if chainStarted c then { c with state := .stopped, settle := 0, covered := false, lastOut := none, gapLost := none
                                  gapAt := none, ring := [], untaken := 0, owedUnsettled := 0, openSamples := [], openUnsettled := 0
                                  openGap := none }
  else c

/-- Does an object run in a mode: all of them in SERVE, the marked ones in SENTRY, the emulation's in COMPAT (R38, R554)? -/
def runsIn (m : Mode) (marked : Bool) : Bool := m == .serve || m == .compat || (m == .sentry && marked)

/-! ### Applying a chain block (R154, R155) -/

/-- A chain block as read and clamped. -/
structure ChainBlock where
  freq    : Nat
  bank    : Handle
  delay   : Nat
  frac    : Nat
  clamped : Bool
  /-- The bank handle names a bank with another generation (R154). -/
  stale   : Bool
  deriving DecidableEq, Repr

/-- Read a chain block at an offset for a kind in a window (R154). -/
def readChainBlock (s : State) (k : Kind) (w : Nat) (p : List Byte) (off : Nat) : ChainBlock :=
  let f := field p off 4
  let h := handleAt p (off + 4)
  let d := field p (off + 8) 2
  let x := field p (off + 10) 1
  let f' := if k = .tap then satNat (if w = 4 then 63 else 255) f else clampFreq k f
  let stale := k != .tap && h.index < 64 && h.gen != bankGen s h.index
  let bank := if k = .tap || 64 ≤ h.index || !bankValid s k h.index then defaultBankHandle s k else h
  { freq := f', bank := bank, delay := satNat 4095 d, frac := satNat 63 x
    clamped := f' != f || 4095 < d || 63 < x ||
      (k != .tap && h.index != 0xFFFF && bank.index != h.index)
    stale := stale }

/-- The new chain of an object that a command creates (R154, R156). -/
def newChain (k : Kind) (w : Nat) (b : ChainBlock) : Chain :=
  { kind := k, state := .stopped, window := w, freq := b.freq, bank := b.bank, delay := b.delay, frac := b.frac }

/-- Change the chain of an existing object to a chain block. A chain that is not started takes it at once; a producing one
at its next block boundary; a waiting one now, as no block is open. Bank and delay changes on a started chain that feeds a
cross-fade are held (R162, R163, R173, R174). -/
def changeChain (held : Bool) (w : Nat) (b : ChainBlock) (c : Chain) : Chain :=
  let f' := c.freq != b.freq || c.window != w
  let bankNew := c.kind != .tap && c.bank != b.bank
  let delayNew := c.delay != b.delay || c.frac != b.frac
  if chainProducing c then
    let p := c.pend
    let p := { p with freq := if f' then some (b.freq, w) else none, kind := none }
    let p := if held then { p with bankHeld := if bankNew then some b.bank else none
                                   delayHeld := if delayNew then some (b.delay, b.frac) else none }
      else { p with bank := if bankNew then some b.bank else none, bankHeld := none
                    delay := if delayNew then some (b.delay, b.frac) else none, delayHeld := none }
    { c with pend := p }
  else if held && chainStarted c then
    { c with freq := b.freq, window := w
             pend := { bankHeld := if bankNew then some b.bank else none
                       delayHeld := if delayNew then some (b.delay, b.frac) else none } }
  else { c with freq := b.freq, window := w, bank := b.bank, delay := b.delay, frac := b.frac, pend := {} }

/-- Is a chain change held by the cross-fade it feeds? -/
def changeHeld (held : Bool) (b : ChainBlock) (c : Chain) : Bool :=
  held && chainStarted c && ((c.kind != .tap && c.bank != b.bank) || c.delay != b.delay || c.frac != b.frac)

/-- The held changes of a chain become pending at the end of its cross-fade (R163, R173). -/
def releaseHeld (c : Chain) : Chain :=
  { c with pend := { c.pend with
      bank := c.pend.bankHeld.or c.pend.bank, bankHeld := none
      delay := c.pend.delayHeld.or c.pend.delay, delayHeld := none } }

/-- The chain settings as a command reads them back: those last applied or accepted (R359). -/
def chainBlockBytes (c : Chain) : List Byte :=
  let f := (c.pend.freq.map (·.1)).getD c.freq
  let b := (c.pend.bankHeld.or c.pend.bank).getD c.bank
  let d := (c.pend.delayHeld.or c.pend.delay).getD (c.delay, c.frac)
  leBytes 4 f ++ handleBytes b ++ leBytes 2 d.1 ++ leBytes 1 d.2 ++ zeros 1

/-- The window a chain's settings name. -/
def chainWindow (c : Chain) : Nat := (c.pend.freq.map (·.2)).getD c.window

/-! ### Creating objects (R331, R332) -/

/-- The lowest index below a limit that a list of used indices leaves free. -/
def freeIndex (limit : Nat) (used : List Nat) : Option Nat := (List.range limit).find? (fun i => !used.contains i)

/-- The next serial number, which orders objects by creation (R383, R538). -/
def takeSerial (s : State) : Nat × State := (s.head.serial, { s with head := { s.head with serial := s.head.serial + 1 } })

/-- The bindings of a source are removed with it (R360). Classes: 0 reception, 1 branch, 2 probe, 3 tap, 4 programme,
5 PCM output, 6 the device. -/
def unbind (cls : Nat) (h : Handle) (s : State) : State :=
  { s with plan := { s.plan with binds := s.plan.binds.filter (fun b => !(b.2.1 == h && b.2.2.1 == cls)) } }

end Sys2Proof.Machine
end

