-- ==== Sys2Proof/Machine/Dsp.lean ====
section
/-!
DEFINITION. Dsp.lean: the arithmetic that demodulation and measurement share: quotients, complex numbers, levels in dB, and the
moments of chain outputs (R168, R203). The number formats of the engines are not stated (log 136).
-/

namespace Sys2Proof.Machine

/-! ### Numbers -/

/-- A product of complex numbers. -/
def cmul (x y : Int × Int) : Int × Int := (x.1 * y.1 - x.2 * y.2, x.1 * y.2 + x.2 * y.1)

/-- A complex number's conjugate. -/
def conj (x : Int × Int) : Int × Int := (x.1, -x.2)

/-- A sum of complex numbers. -/
def cadd (x y : Int × Int) : Int × Int := (x.1 + y.1, x.2 + y.2)

/-- A complex number divided by a scale. -/
def cdiv (x : Int × Int) (n : Int) : Int × Int := (quot x.1 n, quot x.2 n)

/-- The squared magnitude of a complex number. -/
def normSq (x : Int × Int) : Nat := x.1.natAbs * x.1.natAbs + x.2.natAbs * x.2.natAbs

/-- The magnitude of a complex number, in whole steps. -/
def magnitude (x : Int × Int) : Nat := Nat.sqrt (normSq x)

/-- A complex number turned back by a phase in 1/2^32 turn. -/
def turnBack (phase : Int) (x : Int × Int) : Int × Int :=
  cdiv (cmul x (sinePhase (phase + 1073741824), -sinePhase phase)) 1073741824

/-- Taps on a delay line, both the newest first. -/
def convolved (taps line : List (Int × Int)) : Int × Int := (taps.zip line).foldl (fun a x => cadd a (cmul x.1 x.2)) (0, 0)

/-- An instant moved by ticks of its own count. -/
def Instant.moved (i : Instant) (n : Int) : Instant := { i with tick := i.tick + BitVec.ofInt 64 n }

/-- Ticks from one instant of a count to a later one of the same count, 0 when it lies before or in another epoch. -/
def Instant.until (i j : Instant) : Nat := if i.epoch = j.epoch then (j.tick - i.tick).toInt.toNat else 0

/-- Does an instant lie before another of the same epoch? -/
def Instant.before (i j : Instant) : Bool := i.epoch == j.epoch && (i.tick - j.tick).toInt < 0

/-! ### Levels in dB -/

/-- Is 10 log10(a/b) at least `k`, in steps of 10/n dB? It is (a/b)^n against 10^k. -/
def dbAtLeast (n a b : Nat) (k : Int) : Bool :=
  if 0 ≤ k then b ^ n * 10 ^ k.toNat ≤ a ^ n else b ^ n ≤ a ^ n * 10 ^ (-k).toNat

/-- 10 log10(a/b) in steps of 10/n dB, rounded down and kept within limits. -/
def dbFloor (n a b : Nat) (lo hi : Int) : Int :=
  lo + (((List.range (hi - lo).toNat).filter (fun (i : Nat) => dbAtLeast n a b (lo + 1 + i))).length : Nat)

/-- 10 log10(a/b) in steps of 10/n dB, kept within limits; between two steps it goes to either (log 136). -/
def dbValue (n a b : Nat) (lo hi : Int) : Int :=
  let k := dbFloor n a b lo hi
  if !dbAtLeast n a b lo || k = hi || dbAtLeast n b a (-k) then k else k + (Config.roundsUp a b).toNat

/-- The mean power of chain outputs in 0.1 dBm: full scale at exponent 0 is 0 dBm (R168, R203); none without outputs or power. -/
def powerTenth (n sum : Nat) : Option Int :=
  if n = 0 || sum = 0 then none else some (dbValue 100 sum (n * 2 ^ 78) (-2400) 600)

/-! ### Moments (R182, R203) -/

/-- The sum of two sets of moments. -/
def Moments.add (a b : Moments) : Moments :=
  { n := a.n + b.n, m2 := a.m2 + b.m2, m4 := a.m4 + b.m4, carrier := a.carrier + b.carrier, quad := a.quad + b.quad
    offset := a.offset + b.offset }

/-- The latest blocks' moments that cover a number of outputs, the newest first. -/
def coverOutputs : Nat → List Moments → List Moments
  | _, [] => []
  | n, m :: l => if n = 0 then [] else m :: coverOutputs (n - m.n) l

/-- Signal and noise by which the carrier-to-noise ratio is judged: the M2M4 estimate for FM, the carrier and the quadrature
component for AM (R203). -/
def signalNoise (k : Kind) (m : Moments) : Nat × Nat :=
  if k = .am then (m.carrier, m.quad)
  else
    let s := if 2 * m.m2 * m.m2 < m.n * m.m4 then Config.noMoment m.n m.m2 m.m4 else Nat.sqrt (2 * m.m2 * m.m2 - m.n * m.m4)
    (s, m.m2 - s)

/-- Limits of the carrier-to-noise ratio in 0.1 dB (R203). -/
def cnLimits (k : Kind) : Int × Int := if k = .am then (-50, 600) else (-50, 500)

/-- Is the carrier-to-noise ratio at least a level in 0.1 dB (R182)? Without settled input it is not. -/
def cnAtLeast (k : Kind) (m : Moments) (level : Int) : Bool :=
  let x := signalNoise k m
  m.n != 0 && dbAtLeast 100 x.1 x.2 level

/-- The carrier-to-noise ratio in 0.1 dB, rounded down (R196). -/
def cnFloor (k : Kind) (m : Moments) : Int :=
  let x := signalNoise k m
  if m.n = 0 then (cnLimits k).1 else dbFloor 100 x.1 x.2 (cnLimits k).1 (cnLimits k).2

/-- The carrier-to-noise ratio as reported, in 0.1 dB (R203). -/
def cnValue (k : Kind) (m : Moments) : Option Int :=
  let x := signalNoise k m
  if m.n = 0 then none else some (dbValue 100 x.1 x.2 (cnLimits k).1 (cnLimits k).2)

/-! ### Blocks as a demodulator takes them -/

/-- A sample of a block in the step of exponent 24 (R168). -/
def fineSample (e : Nat) (x : Int × Int) : Int × Int := (x.1 * 2 ^ (24 - e), x.2 * 2 ^ (24 - e))

/-- The outputs of a block with their antenna instants (R109, R165). -/
def blockOutputs (per : Nat) (b : Block) : List DemIn :=
  b.samples.zipIdx.map (fun x => { at' := { epoch := b.epoch, tick := b.stamp + BitVec.ofNat 64 (per * x.2) }
                                   x := fineSample b.exponent x.1, settled := b.unsettled ≤ x.2 })

/-- The branch's output beside one of the main chain: that of the antenna instant nearest to it, within half an output period
(R136). -/
def branchBeside (per : Nat) (i : Instant) (l : List DemIn) : Option (Int × Int) :=
  (l.find? (fun y => y.settled && y.at'.epoch == i.epoch && 2 * (y.at'.tick - i.tick).toInt.natAbs ≤ per)).map (·.x)

/-- The branch's outputs that can still stand beside one of the main chain. -/
def branchLater (per : Nat) (i : Instant) (l : List DemIn) : List DemIn :=
  l.filter (fun y => y.at'.epoch != i.epoch || (i.tick - y.at'.tick).toInt ≤ per)

end Sys2Proof.Machine
end

