-- ==== Sys2Proof/Machine/Audio.lean ====
section
/-!
DEFINITION. Audio.lean: the audio of a programme: the 2 ms hold with its fades, concealed silence, and loudness (R185, R188,
R203 to R205, R235).
-/

namespace Sys2Proof.Machine

/-! ### The hold and the fades (R181, R185) -/

/-- A 24-bit sample kept in range. -/
def clamp24 (v : Int) : Int := clampInt (-8388608) 8388607 v

/-- A value at a point of the raised-cosine curve from silence (R185). -/
def raised (pos len : Nat) (v : Int) : Int := quot (v * raisedCosine pos len) 16777216

/-- A frame at a point of the raised-cosine curve, flagged CONCEALED (R185). -/
def raisedFrame (pos len : Nat) (f : AudioFrame) : AudioFrame :=
  { f with l := raised pos len f.l, r := raised pos len f.r, concealed := true }

/-- The last `n` frames held fade to silence (R185). -/
def fadeTail (n : Nat) (l : List AudioFrame) : List AudioFrame :=
  let k := l.length - n
  l.take k ++ ((l.drop k).zipIdx.map (fun x => raisedFrame (l.length - k - 1 - x.2) n x.1))

/-- What a demodulator gives the audio of its programme at one frame. -/
inductive AudioIn where
  /-- audio -/
  | live (f : AudioFrame)
  /-- nothing, in a break that is bridged (R185) -/
  | broken (at' : Instant)
  /-- nothing, while the reception searches (R181) -/
  | muted (at' : Instant)
  deriving DecidableEq, Repr

/-- The antenna instant of a frame. -/
def AudioIn.at' : AudioIn → Instant
  | .live f => f.at' | .broken i => i | .muted i => i

/-- A concealed frame of silence. -/
def silentFrame (i : Instant) (prog : Nat) : AudioFrame := { at' := i, concealed := true, prog := prog }

/-- One more frame of a programme's audio, with `n` frames in 1 ms, `per` ticks apart. At a break the last 1 ms of what is held fades out;
silence lasts as long as the break; 1 ms fades in from the first frame behind it. A frame that was there already is not repeated
(R185, R536). -/
def holdFrame (n per : Nat) (p : Programme) (x : AudioIn) : Programme :=
  if (p.audioNext.map (fun i => x.at'.before { i with tick := i.tick - BitVec.ofNat 64 (per / 2) })).getD false then p
  else
    let p := { p with audioNext := some (x.at'.later per) }
    match x with
    | .live f =>
      let left := if p.broken then n else p.fadeIn
      let f := { f with prog := p.idx }
      { p with hold := p.hold ++ [if 0 < left then raisedFrame (n - left) n f else f], broken := false, fadeIn := left - 1 }
    | .broken i =>
      { p with hold := (if p.broken then p.hold else fadeTail n p.hold) ++ [silentFrame i p.idx], broken := true, fadeIn := 0 }
    | .muted i => { p with hold := p.hold ++ [silentFrame i p.idx], broken := false, fadeIn := 0 }

/-- The frames held for 2 ms or more are released (R185). -/
def releaseHold (n : Nat) (p : Programme) : Programme × List AudioFrame :=
  let k := p.hold.length - 2 * n
  ({ p with hold := p.hold.drop k }, p.hold.take k)

/-! ### Loudness (R203 to R205) -/

/-- Audio frames per second of a programme: AM 24 kS/s, FM 48 kS/s, MP2 48 or 24 kS/s, HE-AAC v2 of DAB+ 48 or 32 kS/s, DRM as the SDC
declares (R188, R234). -/
def audioRate (k : Kind) (d : CompDecl) : Nat := match k with
  | .am => 24000
  | .fm => 48000
  | .dab => if d.codec = 0 && d.sampleRate = 24000 then 24000 else if d.codec = 1 && d.sampleRate = 32000 then 32000 else 48000
  | _ => if d.sampleRate = 0 then 48000 else d.sampleRate

/-- Channels of a programme's audio: one for AM and for a mono digital programme (R188, R204, R234). -/
def audioChannels (k : Kind) (d : CompDecl) : Nat := match k with
  | .am => 1
  | .fm => 2
  | _ => if d.audioMode = 0 then 1 else 2

/-- A frame's values as they are measured: before soft mute and blend (R196, R203). -/
def measured (f : AudioFrame) : Int × Int := f.unshaped.getD (f.l, f.r)

/-- The unconcealed values of frames, as they are measured (R203, R204). -/
def unconcealed (l : List AudioFrame) : List (Int × Int) := (l.filter (fun f => !f.concealed)).map measured

/-- The K-weighting of ITU-R BS.1770 at a sample rate: numerator and denominator of its shelf and denominator of its high pass, whose numerator is
1, -2, 1, in 1/2^30. The Recommendation gives them at 48 kHz; those of other rates follow from the same analogue filters
(PRESUMED, log 174). -/
def kWeighting (rate : Nat) : List Int := match rate with
  | 9600 => [1460955177, -1156065220, 415808724, -596460765, 243417621, -2094574598, 1021485385]
  | 12000 => [1504329890, -1549872685, 550534482, -884742261, 315992124, -2105052786, 1031730682]
  | 16000 => [1549726446, -1966639091, 731925518, -1182762878, 424033927, -2115582272, 1042077704]
  | 19200 => [1573335789, -2185358998, 843571265, -1336168857, 493975089, -2120866411, 1047289755]
  | 24000 => [1597620697, -2411844756, 971638773, -1492753041, 576425930, -2126163566, 1052527711]
  | 32000 => [1622614914, -2646654855, 1118445211, -1652537089, 673200536, -2131473802, 1057791734]
  | 38400 => [1635382220, -2767314765, 1199722643, -1733580630, 727628904, -2134133846, 1060433570]
  | _ => [1648327767, -2890186776, 1286764483, -1815331593, 786495243, -2136797184, 1063081984]

/-- One value through a filter of second order: its output and next state. -/
def biquad (b0 b1 b2 a1 a2 x : Int) (st : Int × Int) : Int × (Int × Int) :=
  let y := (b0 * x + st.1) / 1073741824
  (y, (b1 * x - a1 * y + st.2, b2 * x - a2 * y))

/-- One value, K-weighted, in 1/2^8 (R203). -/
def kWeighted (rate : Nat) (x : Int) (st : (Int × Int) × (Int × Int)) : Int × ((Int × Int) × (Int × Int)) :=
  let c (i : Nat) : Int := (kWeighting rate).getD i 0
  let y := biquad (c 0) (c 1) (c 2) (c 3) (c 4) (256 * x) st.1
  let z := biquad 1073741824 (-2147483648) 1073741824 (c 5) (c 6) y.1 st.2
  (z.1, (y.2, z.2))

/-- One frame's K-weighted square over its channels, none where it is concealed, which leaves the filters as they are (R203, R204). -/
def weighFrame (rate channels : Nat) (f : AudioFrame) (st : ((Int × Int) × (Int × Int)) × ((Int × Int) × (Int × Int))) :
    Option Nat × (((Int × Int) × (Int × Int)) × ((Int × Int) × (Int × Int))) :=
  if f.concealed then (none, st)
  else
    let l := kWeighted rate (measured f).1 st.1
    let r := if channels = 1 then (0, st.2) else kWeighted rate (measured f).2 st.2
    (some (l.1.natAbs * l.1.natAbs + r.1.natAbs * r.1.natAbs), (l.2, r.2))

/-- Frames K-weighted one after another. -/
def weighFrames (rate channels : Nat) :
    List AudioFrame → (((Int × Int) × (Int × Int)) × ((Int × Int) × (Int × Int))) →
      List (Option Nat) × (((Int × Int) × (Int × Int)) × ((Int × Int) × (Int × Int)))
  | [], st => ([], st)
  | f :: l, st =>
    let a := weighFrame rate channels f st
    let b := weighFrames rate channels l a.2
    (a.1 :: b.1, b.2)

/-- The mean power of weighted frames; none where all of them are concealed (R204). -/
def framesPower (l : List (Option Nat)) : Option Nat :=
  let v := l.filterMap id
  if v.isEmpty then none else some (v.sum / v.length)

/-- The loudness of a power: -0.691 dB and its level, in 0.1 LUFS, from -200 LUFS up (R203; log 174). -/
def lufsOf (p : Nat) : Int := dbValue 100 (p * 852903703) (1000000000 * 2 ^ 62) (-2000) 200

/-- The last `n` entries of a list. -/
def lastFrames {α : Type} (n : Nat) (l : List α) : List α := l.drop (l.length - n)

/-- The loudness in 0.1 LUFS of the latest part of the audio that a programme keeps, in ms (R203). -/
def loudnessOver (rate msec : Nat) (x : Loud) : Option Int :=
  (framesPower (lastFrames (rate * msec / 1000) x.window)).map lufsOf

/-- The mean of a list of numbers. -/
def meanNat (l : List Nat) : Nat := l.sum / max 1 l.length

/-- Gated integrated loudness: the blocks above -70 LUFS, and of these the ones above their mean less 10 LU (R203). -/
def integratedLoudness (x : Loud) : Option Int :=
  let a := x.gate.filter (fun p => -700 ≤ lufsOf p)
  let b := a.filter (fun p => meanNat a ≤ 10 * p)
  if b.isEmpty then none else some (lufsOf (meanNat b))

/-- The larger of two peaks. -/
def maxPeak (a : Option Int) (b : Int) : Option Int := some (max (a.getD b) b)

/-- The filters of ITU-R BS.1770 that interpolate four times, in 1/2^13: two of them, of which the others are the mirror images (PRESUMED, log
174). -/
def peakTaps : List (List Int) :=
  let a : List Int := [14, 90, -161, 272, -487, 1125, 7964, -838, 390, -218, 122, -68]
  let b : List Int := [-239, 240, -424, 730, -1364, 3810, 6388, -1641, 832, -477, 271, -155]
  [a, b, b.reverse, a.reverse]

/-- The largest magnitude that four times oversampling finds at the newest of the latest values, in 1/2^13 (R203). -/
def oversampled (l : List Int) : Nat := (peakTaps.map (fun t => (dot t l).natAbs)).foldl max 0

/-- The true peak of values that follow the latest ones, in 0.1 dBTP: of all channels the largest (R203). -/
def truePeak (channels : Nat) : List (Int × Int) → List (Int × Int) → Nat
  | [], _ => 0
  | v :: l, line =>
    let line := (v :: line).take 12
    let a := oversampled (line.map (·.1))
    let b := if channels = 1 then 0 else oversampled (line.map (·.2))
    max (max a b) (truePeak channels l line)

/-- Released audio joins what the loudness of a programme is taken from; concealed audio does not count (R203, R204). -/
def loudTake (per channels : Nat) (l : List AudioFrame) (x : Loud) : Loud :=
  let v := unconcealed l
  { x with
    todo := x.todo ++ l, integrated := x.integrated + per * v.length, line := (v.reverse ++ x.line).take 11
    peak := if v.isEmpty then x.peak
      else maxPeak x.peak (dbValue 100 (truePeak channels v x.line ^ 2) (2 ^ 72) (-2000) 200) }

/-- The next 100 ms of audio enter the measures; a block of 400 ms enters the integrated one when all of it is audio since that began
(R203 to R205). -/
def loudStep (rate channels : Nat) (x : Loud) : Loud :=
  let n := rate / 10
  let w := weighFrames rate channels (x.todo.take n) x.filt
  let x := { x with
    window := lastFrames (3 * rate) (x.window ++ w.1), todo := x.todo.drop n, filt := w.2, since := x.since + (n : Nat) }
  { x with gate := match framesPower (lastFrames (4 * n) x.window) with
      | some p => if 4 * (n : Int) ≤ x.since then x.gate ++ [p] else x.gate
      | none => x.gate }

/-- The integrated measure starts again, with the audio that is yet to come (R204, R235). -/
def loudRestart (x : Loud) : Loud := { x with gate := [], integrated := 0, since := -(x.todo.length : Int) }

end Sys2Proof.Machine
end

