-- ==== Sys2Proof/Machine/Analogue.lean ====
section
/-!
DEFINITION. Analogue.lean: what a Gouge engine does with the chain blocks of an AM or FM reception: detectors, carrier and pilot
loops, noise blanker, equaliser, stereo, MPX, RDS bits and the measures (R136, R179, R184 to R186, R188 to R198, R203).
-/

namespace Sys2Proof.Machine

/-- What demodulation takes from its reception while it works on a block. -/
structure DemCtx where
  /-- The reception is ACQUIRED or HOLDING, so its audio is given (R181). -/
  audio  : Bool
  /-- Synchronous audio in use (R192). -/
  sync   : Bool
  /-- Decided STEREO (R194). -/
  stereo : Bool
  /-- Carrier-to-noise ratio over the last 200 ms, in 0.1 dB (R196). -/
  cn     : Int
  deriving DecidableEq, Repr

/-- What one output gives the audio, `u` before soft mute and blend: nothing heard while the reception searches, concealed silence over
UNSETTLED outputs (R181, R185, R203). -/
def audioOf (c : DemCtx) (settled : Bool) (i : Instant) (v u : Int × Int) : AudioIn :=
  if !c.audio then .muted i else if !settled then .broken i else .live { at' := i, l := v.1, r := v.2, unshaped := some u }

/-- Soft mute: no attenuation at 20 dB or more, rising linearly to 20 dB at 8 dB or less (R196). -/
def softMuted (on : Bool) (cn v : Int) : Int :=
  if !on || 200 ≤ cn then v
  else quot (v * gainOfDb (-(200 - max 80 cn)) 6) 16777216

/-! ### AM (R189 to R193) -/

/-- D_dem of an AM reception (R189). -/
def amDelay (o : AnaOpts) : Nat := if 2 ≤ o.detection then 61440 else 20480

/-- The phase step of a frequency in mHz over ticks, in 1/2^32 turn (R186). -/
def phaseStep (milliHz : Int) (ticks : Nat) : Int := quot (milliHz * ticks * 4294967296) 245760000000

/-- The carrier loop's frequency after a phase error in 1/2^32 turn, in 1/10^9 Hz: the integral part of a loop of second order with 20 Hz noise
bandwidth and a damping of 0.707; out of lock the turn from the output before pulls it in as well (R191; log 175). -/
def carrierFine (l : CarrierLoop) (err turn : Int) : Int :=
  l.fine + quot (err * 1600000000) (27 * 4294967296) + if l.locked then 0 else quot (turn * 24000000000000) (512 * 4294967296)

/-- The carrier loop's next state on an output that it has turned, after the output before; averages are of 20 Hz, and it is in lock while the carrier holds at least half
of the power (R191; log 175). -/
def carrierStep (l : CarrierLoop) (before z : Int × Int) : CarrierLoop :=
  let err := angleOf z
  let fine := carrierFine l err (angleOf (cmul z (conj before)))
  let freq := quot fine 1000000
  let inPhase := l.inPhase + quot (z.1 - l.inPhase) 191
  let power := ((l.power : Int) + quot ((normSq z : Int) - l.power) 191).toNat
  let c := inPhase.toNat
  { l with
    phase := (l.phase + phaseStep freq 10240 + quot err 450) % 4294967296, fine := fine, freq := freq, inPhase := inPhase
    power := power, carrier := c, side := power - c * c, locked := decide (power ≤ 2 * (c * c)) && c != 0 }

/-- The carrier loop on one output that it has turned: while the carrier lies more than 20 dB below the sidebands it holds; it
locks only within 250 Hz (R191, R600). -/
def carrierNext (l : CarrierLoop) (before z : Int × Int) : CarrierLoop :=
  let y := carrierStep l before z
  let n := if 100 * (y.carrier * y.carrier) < y.side then
      { y with phase := l.phase + phaseStep l.freq 10240, fine := l.fine, freq := l.freq, locked := l.locked } else y
  let locked := n.locked && (l.locked || n.freq.natAbs ≤ 250000)
  { n with
    locked := locked, lockedFor := if locked then l.lockedFor + 10240 else 0
    unlockedFor := if locked then 0 else l.unlockedFor + 10240 }

/-- Does the noise blanker replace an output: its envelope exceeds the running median by 12 dB or more, and the share of 10 % in
100 ms is not reached (R193)? -/
def blanks (a : AmState) (x : Int × Int) : Bool :=
  let m := medianOf a.env
  !a.blankOff && a.replaced.length < 240 && m ^ 10 * 1000000 ≤ normSq x ^ 5

/-- The blanker after one output (R193). -/
def blankerNext (hit : Bool) (a : AmState) : AmState :=
  let old := (a.replaced.map (· + 1)).filter (· < 2400)
  let l := if hit then 0 :: old else old
  { a with replaced := l, pos := (a.pos + 1) % 2400, blankOff := a.pos + 1 < 2400 && (a.blankOff || 240 ≤ l.length) }

/-- A filter of 255 taps that passes the upper sideband with twice its amplitude: the in-phase component less the Hilbert transform of the quadrature one,
in 1/2^16. -/
def hilbertTaps : List (Int × Int) :=
  (List.range 255).map (fun (i : Nat) =>
    let n : Int := (i : Int) - 127
    let w : Int := 54 * calcOne + 46 * (sineTurn (4 * n + 254) 1016)
    if n = 0 then (65536, 0)
    else if n % 2 = 0 then (0, 0)
    else (0, quot (2 * 65536 * w) (calcPi * n * 100)))

/-- Does a filter reject the lower sideband by at least 40 dB at every 100 Hz from 200 Hz to 5 kHz (R191)? -/
def sidebandOk (taps : List (Int × Int)) : Bool :=
  (List.range 49).all (fun (i : Nat) =>
    10000 * responseSq taps (-(200 + 100 * i : Nat)) 24000 ≤ responseSq taps (200 + 100 * i : Nat) 24000 &&
    responseSq taps (-(200 + 100 * i : Nat)) 24000 < responseSq taps (200 + 100 * i : Nat) 24000)

/-- The taps of the phasing method for the upper sideband: the device's own, where these reject the other one as R191 says (log 175). -/
def phasingTaps : List (Int × Int) :=
  let l := (List.range 256).map Config.phasingTap
  if sidebandOk l then l else hilbertTaps

/-- The phasing method on the outputs the loop has turned, the newest first: the upper sideband, or by the mirrored taps the lower
one (R191). -/
def phased (upper : Bool) (l : List (Int × Int)) : Int :=
  quot ((convolved (if upper then phasingTaps else phasingTaps.map conj) l).1) 65536

/-- A detector's output, full scale at 100 % modulation (R188, R190, R191). -/
def detected (k : Nat) (a : AmState) : Int := match k with
  | 0 => quot (((a.env.headD 0 : Nat) * a.env.length - (a.env.sum : Nat) : Int) * 8388608) (a.env.sum : Nat)
  | 1 => quot (((a.turned.headD (0, 0)).1 - a.loop.carrier) * 8388608) a.loop.carrier
  | k => quot (phased (k == 3) a.turned * 8388608) a.loop.carrier

/-- The audio of the detector in use, over a cross-fade of 10 ms from the one before (R179, R192). -/
def amAudio (a : AmState) : Int :=
  let g : Int := Config.fadeCurve (240 - a.cross) 240
  if a.cross = 0 then detected a.using' a
  else quot (detected a.using' a * g + detected a.leaving a * (16777216 - g)) 16777216

/-- A change of detector begins its cross-fade (R179, R192). -/
def chooseDetector (k : Nat) (a : AmState) : AmState :=
  if a.using' = k then { a with cross := a.cross - 1 } else { a with leaving := a.using', using' := k, cross := 240 }

/-- The measures of one settled AM output (R203). -/
def amMeasure (raw : Int × Int) (a : AmState) (m : AnaMeas) : AnaMeas :=
  let e := a.env.headD 0
  let z := a.turned.headD (0, 0)
  let x := quot (((e : Int) * a.env.length - (a.env.sum : Nat)) * 1000) (a.env.sum : Nat)
  { m with
    sums := m.sums.add
      { n := 1, m2 := e * e, m4 := e ^ 4, carrier := a.loop.carrier ^ 2, quad := z.2.natAbs ^ 2, offset := quot a.loop.freq 10 }
    power := m.power + normSq raw, env := m.env + e
    peaks := (max m.peaks.1 x.toNat, max m.peaks.2 (-x).toNat) }

/-- One AM output with its neighbours known: blanker, envelope, loop, detectors, soft mute (R190 to R193, R196). -/
def amOutput (c : DemCtx) (next prev : Int × Int) (x : DemIn) (d : Demod) : Demod × List AudioIn :=
  let hit := d.opts.blanker = 1 && blanks d.am x.x
  let v := if hit then Config.interpolate prev next else x.x
  let a := blankerNext hit d.am
  let z := turnBack a.loop.phase v
  let a := if x.settled then { a with
      env := (magnitude v :: a.env).take 6000, loop := carrierNext a.loop (a.turned.headD z) z, turned := (z :: a.turned).take 256 }
    else { a with turned := (z :: a.turned).take 256
                  loop := { a.loop with phase := a.loop.phase + phaseStep a.loop.freq 10240 } }
  let a := chooseDetector (if c.sync then d.opts.detection else 0) a
  let u := clamp24 (amAudio a)
  let v := softMuted (d.opts.softMute = 1) c.cn u
  ({ d with am := a, meas := if x.settled then amMeasure x.x a d.meas else d.meas },
    [audioOf c x.settled (x.at'.moved (-(amDelay d.opts : Int))) (v, v) (u, u)])

/-- An AM output is taken; the one before it goes on (R193). -/
def amTake (c : DemCtx) (y : DemIn) (d : Demod) : Demod × List AudioIn :=
  let d1 := { d with am := { d.am with line := (y :: d.am.line).take 2 } }
  match d.am.line with
  | [] => (d1, [])
  | [x] => amOutput c y.x y.x x d1
  | x :: w :: _ => amOutput c y.x w.x x d1

/-! ### The multipath equaliser (R195) -/

/-- A section of 32 taps that passes its input at position 8. -/
def singleTap : List (Int × Int) := List.replicate 8 (0, 0) ++ [(65536, 0)] ++ List.replicate 23 (0, 0)

/-- An equaliser as it is turned on. -/
def freshEqualiser : Equaliser := { ff := [singleTap, singleTap], fb := List.replicate 16 (0, 0), line := [[], []], decided := [] }

/-- Shift a section by taps, its ends filled with 0. -/
def shiftTaps (k : Int) (l : List (Int × Int)) : List (Int × Int) :=
  (List.range 32).map (fun (i : Nat) => if 0 ≤ (i : Int) + k then l.getD ((i : Int) + k).toNat (0, 0) else (0, 0))

/-- The place of the largest tap of a section, and its squared magnitude. -/
def largestTap (l : List (Int × Int)) : Nat × Nat :=
  l.zipIdx.foldl (fun a x => if a.2 < normSq x.1 then (x.2, normSq x.1) else a) (8, 0)

/-- The largest feedforward tap is kept at position 8 (R195). -/
def recentre (e : Equaliser) : Equaliser :=
  let big := (e.ff.map largestTap).foldl (fun a x => if a.2 < x.2 then x else a) (8, 0)
  { e with ff := e.ff.map (shiftTaps ((big.1 : Int) - 8)) }

/-- A value of unit modulus, in 1/2^16: the decision that feeds back (R195). -/
def unitModulus (y : Int × Int) : Int × Int := cdiv (y.1 * 65536, y.2 * 65536) (magnitude y)

/-- Two paths combined by weights (R136). -/
def weighed (w : (Int × Int) × (Int × Int)) (x y : Int × Int) : Int × Int := cdiv (cadd (cmul w.1 x) (cmul w.2 y)) 65536

/-- One section's taps after an adaptation step: each moves against its input by the error `g` of the modulus times the output
(R195). -/
def adaptTaps (g : Int) (z : Int × Int) (scale : Int) (l : List (Int × Int)) (taps : List (Int × Int)) : List (Int × Int) :=
  taps.zipIdx.map (fun t =>
    let c := cmul z (conj (l.getD t.2 (0, 0)))
    (t.1.1 - quot (g * c.1) scale, t.1.2 - quot (g * c.2) scale))

/-- The equaliser's taps after an adaptation step on its output by the constant-modulus criterion: the modulus asked for is that of its input of
constant envelope, and the step's size is the device's own (R195; log 175). -/
def adaptEqualiser (e : Equaliser) (z : Int × Int) : Equaliser :=
  let x := e.line.getD 0 []
  let m2 : Int := ((x.map normSq).sum : Nat)
  let m4 : Int := ((x.map (fun v => normSq v ^ 2)).sum : Nat)
  let r := m4 / m2
  let g : Int := ((Config.modulusStep % 4096 + 1 : Nat) : Int) * ((normSq z : Int) - r)
  if m2 = 0 || r = 0 then e
  else { e with
    ff := e.ff.zipIdx.map (fun t => adaptTaps g z (r * r) (e.line.getD t.2 []) t.1)
    fb := adaptTaps g z (4294967296 * r) e.decided e.fb }

/-- The equaliser on one output of each path, combined ahead of the shared feedback section; over UNSETTLED outputs its taps
stay unchanged (R136, R186, R195). -/
def equalise (settled : Bool) (w : (Int × Int) × (Int × Int)) (x y : Int × Int) (e : Equaliser) : Equaliser × (Int × Int) :=
  let l1 := (x :: e.line.getD 0 []).take 32
  let l2 := (y :: e.line.getD 1 []).take 32
  let f (i : Nat) (l : List (Int × Int)) := cdiv (convolved (e.ff.getD i []) l) 65536
  let z := cadd (weighed w (f 0 l1) (f 1 l2)) (cdiv (convolved e.fb e.decided) 65536)
  let e := { e with line := [l1, l2] }
  let e := if settled then recentre (adaptEqualiser e z) else e
  ({ e with decided := (unitModulus z :: e.decided).take 16 }, z)

/-! ### FM (R194, R196, R197) -/

/-- D_dem of FM audio (R189). -/
def fmDelay (o : AnaOpts) : Nat := if o.eq = 1 then 28160 else 23040
/-- D_dem of FM MPX (R189). -/
def mpxDelay (o : AnaOpts) : Nat := if o.eq = 1 then 12800 else 7680

/-- The pilot loop advanced by ticks (R186). -/
def pilotAdvance (ticks : Nat) (p : PilotLoop) : PilotLoop :=
  { p with phase := p.phase + phaseStep (19000000 + 10 * p.offset) ticks }

/-- The pilot loop's next state on an MPX sample: the MPX times its sine and cosine, averaged over 50 Hz, gives the pilot's amplitude and phase error,
which a loop of second order with 5 Hz noise bandwidth and a damping of 0.707 follows. It is in lock while the error stays below a
half (R194; log 175). -/
def pilotStep (p : PilotLoop) (f : Int) : PilotLoop :=
  let avg (a s : Int) : Int := a + quot (quot (f * 65536 * s) 1073741824 - a) 1222
  let mix := (avg p.mix.1 (sinePhase p.phase), avg p.mix.2 (sinePhase (p.phase + 1073741824)))
  let err := angleOf mix
  let fine := p.fine + quot (err * 6250000) (27 * 4294967296)
  { p with
    phase := (p.phase + phaseStep (19000000 + 10 * p.offset) 640 + quot err 28800) % 4294967296
    fine := fine, offset := quot fine 10000000, mix := mix, deviation := (quot (2 * mix.1) 6553600).toNat
    locked := decide (0 < mix.1) && decide (2 * mix.2.natAbs ≤ mix.1.natAbs) }

/-- The pilot loop on one MPX sample, with the times of R194. -/
def pilotNext (p : PilotLoop) (f : Int) : PilotLoop :=
  let y := pilotStep p f
  { y with lockedFor := if y.locked then p.lockedFor + 640 else 0
           belowFor := if y.deviation < 3000 then p.belowFor + 640 else 0 }

/-- The separation that the stereo mode, the pilot decision and the carrier-to-noise ratio ask for, in 1/480,000 (R196). -/
def separationAsked (o : AnaOpts) (c : DemCtx) : Nat :=
  if !c.stereo || o.stereo = 2 then 0
  else if o.stereo = 1 then 480000
  else (clampInt 0 480000 ((c.cn - 220) * 480000 / 130)).toNat

/-- The separation at the next audio frame: a change of mode ramps over 20 ms; in mode 0 it follows the carrier-to-noise ratio at
10 % in 100 ms (R179, R196). -/
def separationNext (o : AnaOpts) (c : DemCtx) (m : FmState) : FmState :=
  let t := separationAsked o c
  if 0 < m.ramp then { m with separation := ((m.separation : Int) + ((t : Int) - m.separation) / m.ramp).toNat, ramp := m.ramp - 1 }
  else if c.stereo && o.stereo = 0 then
    { m with separation := if t < m.separation then max t (m.separation - 10) else min t (m.separation + 10) }
  else { m with separation := t }

/-- The share of its input that a de-emphasis of 50 or 75 us takes at each frame of 48 kS/s: 1 less the exponential of a frame over its time, in 1/2^24 (R178;
log 175). -/
def deemphasis (k : Nat) : Int := quot ((calcOne - expFixed (if k = 0 then -5 * calcOne / 12 else -5 * calcOne / 18)) * 16777216) calcOne

/-- De-emphasis of one channel from its state, with a gain of 0 dB at 0 Hz; setting 2 is none (R178, R188, R194). -/
def deemphasised (k : Nat) (y x : Int) : Int := if k = 2 then x else y + quot ((x - y) * deemphasis k) 16777216

/-- May a filter of the audio paths be the device's: its gain at 0 Hz is 1, so that 100 kHz of deviation is full scale (R188)? -/
def audioFilterOk (taps : List Int) : Bool := taps.sum == 65536

/-- May a filter be that of the MPX output: flat within 0.1 dB at every 1 kHz from 0 to 80 kHz (R197)? -/
def mpxFilterOk (taps : List Int) : Bool :=
  audioFilterOk taps && (List.range 81).all (fun (i : Nat) =>
    let h := responseSq (taps.map (fun t => (t, 0))) (1000 * i : Nat) 384000
    977237 * 4294967296 ≤ 1000000 * h && 1000000 * h ≤ 1023293 * 4294967296)

/-- The taps of a filter of the FM engine in 1/2^16, 0 that of L + R and L - R and 1 that of the MPX output: the device's own, where they are what R188 and R197 say
(log 175). -/
def fmTaps (k : Nat) : List Int :=
  let l := (List.range 256).map (Config.fmTap k)
  if (if k = 0 then audioFilterOk l else mpxFilterOk l) then l else [65536]

/-- A filter of the FM engine on the latest samples, the newest first (R194, R197). -/
def fmFiltered (k : Nat) (l : List Int) : Int := quot (dot (fmTaps k) l) 65536

/-- A deviation in 0.01 Hz as a sample: full scale at 100 kHz (R188). -/
def fmSample (v : Int) : Int := clamp24 (quot (v * 8388608) 10000000)

/-- One audio frame, as heard and as it is measured: L + R and L - R by the separation, de-emphasis, soft mute (R188, R194, R196). Before
blend the separation is full where the reception is STEREO (R203). -/
def fmFrame (o : AnaOpts) (c : DemCtx) (m : FmState) : FmState × (Int × Int) × (Int × Int) :=
  let m := separationNext o c m
  let sum := fmFiltered 0 m.mpx
  let all := if c.stereo && o.stereo ≠ 2 then fmFiltered 0 m.diff else 0
  let dif := quot (fmFiltered 0 m.diff * m.separation) 480000
  let y := (deemphasised o.deemph m.deemph.1 (sum + dif), deemphasised o.deemph m.deemph.2 (sum - dif))
  let u := (deemphasised o.deemph m.deemphFull.1 (sum + all), deemphasised o.deemph m.deemphFull.2 (sum - all))
  let v (x : Int) := softMuted (o.softMute = 1) c.cn (fmSample x)
  ({ m with deemph := y, deemphFull := u }, (v y.1, v y.2), (fmSample u.1, fmSample u.2))

/-- An MPX sample joins those to deliver; one that was there already is not repeated (R197, R536). -/
def mpxPush (i : Instant) (concealed : Bool) (m : FmState) : FmState :=
  if (m.outNext.map (fun n => i.before { n with tick := n.tick - 640 })).getD false then m
  else { m with out := m.out ++ [{ at' := i, v := fmFiltered 1 m.mpx, concealed := concealed, first := m.split }]
                outNext := some (i.later 1280), split := false }

/-- The measures of one settled FM output (R203). -/
def fmMeasure (o : AnaOpts) (raw z : Int × Int) (f : Int) (m : AnaMeas) : AnaMeas :=
  { m with
    sums := m.sums.add { n := 1, m2 := normSq z, m4 := normSq z ^ 2, offset := f }
    power := m.power + normSq raw, env := m.env + magnitude z
    maxDev := max m.maxDev f.natAbs, overCount := m.overCount + (decide (o.overdev * 10000 < f.natAbs)).toNat }

/-! ### RDS bits (R186, R198) -/

/-- The bit clock of a stream passes ticks from an instant on. Each bit that ends is kept; one that lies in a break in part is
broken (R186, R198). A bit lasts 3,932,160/19 ticks. -/
def rdsAdvance (ticks : Nat) (i : Instant) (good bit : Bool) (x : RdsStream) : RdsStream :=
  let c := x.clock + 19 * ticks
  let k := c / 3932160
  let bits := (List.range k).map (fun (j : Nat) => ({
    v := bit, at' := i.moved (((3932160 * j : Nat) : Int) / 19 - (x.clock : Int) / 19), broken := !good || (j == 0 && x.touched) } : RdsBit))
  { x with
    clock := c % 3932160, bits := x.bits ++ bits
    touched := if k = 0 then x.touched || !good else !good && c % 3932160 ≠ 0 }

/-- The subcarrier of an RDS stream in mHz (R198). -/
def rdsCarrier (k : Nat) : Int := match k with
  | 0 => 57000000 | 1 => 66500000 | 2 => 71250000 | _ => 76000000

/-- The carrier of a stream passes ticks (R186, R198). -/
def rdsTurn (k ticks : Nat) (x : RdsStream) : RdsStream :=
  { x with carrier := (x.carrier + phaseStep (rdsCarrier k + quot x.fine 1000000) ticks) % 4294967296 }

/-- An MPX sample, turned by the stream's own carrier, joins the half of the bit in which it lies (R198). -/
def rdsMix (f : Int) (x : RdsStream) : RdsStream :=
  let v := (quot (f * sinePhase x.carrier) 1073741824, quot (f * sinePhase (x.carrier + 1073741824)) 1073741824)
  { x with halves := if x.clock < 1966080 then (cadd x.halves.1 v, x.halves.2) else (x.halves.1, cadd x.halves.2 v) }

/-- The biphase symbol of a bit: its first half less its second. -/
def rdsSymbol (x : RdsStream) : Int × Int := (x.halves.1.1 - x.halves.2.1, x.halves.1.2 - x.halves.2.2)

/-- At the end of a bit the carrier follows the phase of its symbol, by a loop of the device's own (R198; log 175). -/
def rdsLoop (x : RdsStream) : RdsStream :=
  let z := rdsSymbol x
  let err := angleOf (if z.1 < 0 then (-z.1, -z.2) else z)
  { x with
    carrier := (x.carrier + quot (err * (Config.rdsGain.1 % 65536 : Nat)) 65536) % 4294967296
    fine := x.fine + quot (err * (Config.rdsGain.2 % 65536 : Nat)) 65536
    halves := ((0, 0), (0, 0)), symbol := decide (0 ≤ z.1), level := (x.level.1 + z.1.natAbs, x.level.2 + 1) }

/-- In the middle of a bit its clock moves by up to a sixteenth of a bit, by a loop of the device's own (R198; log 175). -/
def rdsRetime (x y : RdsStream) : RdsStream :=
  if x.clock < 1966080 && 1966080 ≤ y.clock then
    { y with clock := ((y.clock : Int) + clampInt (-245760) 245760 (Config.rdsTiming x.halves)).toNat }
  else y

/-- A stream on one MPX sample: its carrier and clock go on, and the end of a bit gives the change of its symbol (R186, R198). Over UNSETTLED
outputs the loops only advance. -/
def rdsOutput (k : Nat) (i : Instant) (settled good : Bool) (f : Int) (x : RdsStream) : RdsStream :=
  let x := if settled then rdsMix f x else x
  let ends : Bool := 3932160 ≤ x.clock + 12160
  let y := rdsTurn k 640 (rdsAdvance 640 i good (decide (0 ≤ (rdsSymbol x).1) != x.symbol) x)
  if ends && settled then rdsLoop y else if ends then { y with halves := ((0, 0), (0, 0)) }
  else if settled then rdsRetime x y else y

/-- Change the streams that are selected (R198). -/
def mapStreams (o : AnaOpts) (g : Nat → RdsStream → RdsStream) (l : List RdsStream) : List RdsStream :=
  l.zipIdx.map (fun x => if o.streams.testBit x.2 then g x.2 x.1 else x.1)

/-! ### One output, one break, one block -/

/-- One FM output: combination, equaliser, discriminator, loops, audio, MPX, RDS bits and measures (R136, R194 to R198). -/
def fmOutput (c : DemCtx) (y : DemIn) (second : Int × Int) (d : Demod) (rds : List RdsStream) :
    Demod × List RdsStream × List AudioIn :=
  let e := if d.opts.eq = 1 then equalise (y.settled && !d.inBreak) d.weights y.x second d.fm.eq else (d.fm.eq, weighed d.weights y.x second)
  let z := e.2
  let m := d.fm
  let f := quot (angleOf (cmul z (conj m.prev)) * 38400000) 4294967296
  let p := if y.settled then pilotNext m.pilot f else pilotAdvance 640 m.pilot
  let m := { m with
    eq := e.1, prev := z, mpx := (f :: m.mpx).take 1024, pilot := p
    diff := (quot (2 * f * sinePhase (2 * p.phase)) 1073741824 :: m.diff).take 1024
    audioTicks := m.audioTicks + 640, mpxTicks := m.mpxTicks + 640, split := m.split || (!y.settled && !d.inBreak) }
  let m := if 1280 ≤ m.mpxTicks then
      mpxPush (y.at'.moved (-(mpxDelay d.opts : Int))) (!y.settled || d.inBreak) { m with mpxTicks := m.mpxTicks - 1280 } else m
  let a := if 5120 ≤ m.audioTicks then
      let x := fmFrame d.opts c { m with audioTicks := m.audioTicks - 5120 }
      (x.1, [audioOf c y.settled (y.at'.moved (-(fmDelay d.opts : Int))) x.2.1 x.2.2])
    else (m, [])
  ({ d with fm := a.1, inBreak := !y.settled, meas := if y.settled then fmMeasure d.opts y.x z f d.meas else d.meas },
    mapStreams d.opts (fun k x => rdsOutput k (y.at'.moved (-(mpxDelay d.opts : Int))) y.settled (y.settled && !d.inBreak) f x)
      rds, a.2)

/-- The weights of two paths, re-estimated every 1 ms; without the branch the main path alone (R136, R137). How they are estimated is
open, log 164. -/
def weigh (per : Nat) (x : Int × Int) (second : Option (Int × Int)) (d : Demod) : Demod := match second with
  | none => { d with weights := ((65536, 0), (0, 0)), pairs := [] }
  | some y =>
    let l := (x, y) :: d.pairs
    if ms 1 ≤ per * l.length then { d with weights := Config.mrcWeights l, pairs := [] } else { d with pairs := l }

/-- One output of an analogue reception's chain. -/
def demodOutput (k : Kind) (c : DemCtx) (y : DemIn) (d : Demod) (rds : List RdsStream) : Demod × List RdsStream × List AudioIn :=
  let per := ticksPerOut k
  let second := branchBeside per y.at' d.branch
  let d := weigh per y.x second { d with branch := branchLater per y.at' d.branch, due := some (y.at'.later per) }
  if k = .am then
    let a := amTake c { y with x := weighed d.weights y.x (second.getD (0, 0)) } d
    ({ a.1 with inBreak := !y.settled }, rds, a.2)
  else fmOutput c y (second.getD (0, 0)) d rds

/-- The outputs of a block, one after another. -/
def demodOutputs (k : Kind) (c : DemCtx) : List DemIn → Demod → List RdsStream → Demod × List RdsStream × List AudioIn
  | [], d, rds => (d, rds, [])
  | y :: l, d, rds =>
    let a := demodOutput k c y d rds
    let b := demodOutputs k c l a.1 a.2.1
    (b.1, b.2.1, a.2.2 ++ b.2.2)

/-- The AM output that waits for its neighbour goes on without it (R185, R193). -/
def amFlush (c : DemCtx) (d : Demod) : Demod × List AudioIn := match d.am.line with
  | [] => (d, [])
  | [x] => amOutput c x.x x.x x d
  | x :: w :: _ => amOutput c w.x w.x x d

/-- A break of some ticks: loops and clocks advance by its length, and silence lasts as long, its frames where those of the unbroken input would have been
(R185, R186). -/
def demodBreak (k : Kind) (c : DemCtx) (gap : Nat) (d : Demod) (rds : List RdsStream) : Demod × List RdsStream × List AudioIn :=
  let from' := d.due.getD {}
  let per : Nat := if k = .am then 10240 else 5120
  let delay := if k = .am then amDelay d.opts else fmDelay d.opts
  let w := if k = .am then amFlush c d else (d, [])
  let d := w.1
  let t : Nat := gap + if k = .am then 0 else d.fm.audioTicks
  let start : Int := if k = .am then 0 else (per : Int) - d.fm.audioTicks - 640
  let quiet := (List.range (t / per)).map (fun (j : Nat) =>
    let i := from'.moved (start + (per * j : Nat) - (delay : Int))
    if c.audio then AudioIn.broken i else .muted i)
  ({ d with
      inBreak := true
      am := { d.am with line := [], loop := { d.am.loop with phase := d.am.loop.phase + phaseStep d.am.loop.freq gap } }
      fm := { d.fm with pilot := pilotAdvance gap d.fm.pilot, audioTicks := t % per, mpxTicks := (d.fm.mpxTicks + gap) % 1280
                        split := true } },
    mapStreams d.opts (fun k x => rdsTurn k gap (rdsAdvance gap (from'.moved (-(mpxDelay d.opts : Int))) false false x)) rds,
    w.2 ++ quiet)

/-- The moments that one block added (R182). -/
def blockMoments (old new : Moments) : Moments :=
  { n := new.n - old.n, m2 := new.m2 - old.m2, m4 := new.m4 - old.m4, carrier := new.carrier - old.carrier, quad := new.quad - old.quad
    offset := new.offset - old.offset }

/-- The moments of the last 200 ms of settled input (R182). -/
def recentMoments (k : Kind) (d : Demod) : Moments :=
  (coverOutputs (ms 200 / ticksPerOut k) d.moments).foldl Moments.add {}

/-- Options come into force after a block: a synchronous detector is used at once where the loop is in lock, a change of stereo mode
ramps, an equaliser that is turned on starts from a single tap (R179, R195). Answers whether synchronous audio is in use. -/
def adoptOptions (o : AnaOpts) (sync : Bool) (d : Demod) : Demod × Bool :=
  ({ d with
      opts := o
      fm := { d.fm with
        ramp := if o.stereo = d.opts.stereo then d.fm.ramp else 960
        eq := if o.eq = 1 && d.opts.eq = 0 then freshEqualiser else d.fm.eq }
      am := { d.am with fellBack := d.am.fellBack && o.detection = d.opts.detection } },
    if o.detection = d.opts.detection then sync else o.detection ≠ 0 && d.am.loop.locked)

/-- What follows a block: the moments of the last 200 ms, how long the ratio has been low, the BS.412 window (R182, R203). -/
def afterBlock (k : Kind) (audio : Bool) (old : AnaMeas) (power : Nat × Nat) (d : Demod) : Demod :=
  let m := blockMoments old.sums d.meas.sums
  let d := { d with moments := if m.n = 0 then d.moments else coverOutputs (ms 200 / ticksPerOut k) (m :: d.moments) }
  { d with
    settledFor := d.settledFor + m.n * ticksPerOut k
    lowFor := if m.n = 0 then d.lowFor
      else if cnAtLeast k (recentMoments k d) ((d.opts.threshold : Int) - 30) then 0 else d.lowFor + m.n * ticksPerOut k
    fm := if !audio || power.1 = 0 then d.fm else { d.fm with power := keep 23040000 (power :: d.fm.power) } }
where
  /-- The latest entries that cover a number of samples. -/
  keep : Nat → List (Nat × Nat) → List (Nat × Nat)
    | _, [] => []
    | n, x :: l => if n = 0 then [] else x :: keep (n - x.1) l

/-- Count and sum of squares of the MPX of a block's settled outputs: the newest samples of the line (R203). -/
def blockPower (settled : Nat) (d : Demod) : Nat × Nat :=
  (settled, ((d.fm.mpx.take settled).map (fun f => f.natAbs * f.natAbs)).sum)

/-- A stream that is no longer selected is not decoded (R198). -/
def selectStreams (m : Nat) (l : List RdsStream) : List RdsStream :=
  l.zipIdx.map (fun x => if m / 2 ^ x.2 % 2 = 1 then x.1 else {})

/-- An analogue reception's engine takes a block, `gap` ticks after the last output it took. -/
def demodBlock (r : Reception) (gap : Nat) (b : Block) : Reception × List AudioIn :=
  let audio := r.rx != .searching
  let c : DemCtx := { audio := audio, sync := r.syncAudio, stereo := r.stereo == some true, cn := cnFloor r.kind (recentMoments r.kind r.dem) }
  let x := if gap = 0 then (r.dem, r.rds, []) else demodBreak r.kind c gap r.dem r.rds
  let y := demodOutputs r.kind c (blockOutputs (ticksPerOut r.kind) b) x.1 x.2.1
  let d := afterBlock r.kind audio x.1.meas (blockPower (b.samples.length - b.unsettled) y.1) y.1
  let o := adoptOptions r.ana r.syncAudio d
  ({ r with dem := o.1, rds := if r.kind = .fm then selectStreams o.1.opts.streams y.2.1 else y.2.1, syncAudio := o.2 }, x.2.2 ++ y.2.2)

end Sys2Proof.Machine
end

