-- ==== Sys2Proof/Machine/Ofdm.lean ====
section
/-!
DEFINITION. Ofdm.lean: what a Gouge engine does with the chain blocks of a DAB or DRM reception: synchronisation, channel estimates,
soft values, erasures and nominal instants (R136, R216 to R219, R226 to R228, R598).
-/

namespace Sys2Proof.Machine

/-! ### Symbols (the table OFDM parameters at the chain output) -/

/-- Useful part, guard interval and symbols of a frame, in chain outputs. -/
def ofdmShape (k : Kind) (mode : Nat) : Nat × Nat × Nat :=
  if k = .dab then (2048, 504, 76)
  else match mode with
    | 0 => (1152, 128, 15) | 1 => (1024, 256, 15) | 2 => (704, 256, 20) | 3 => (448, 352, 24) | _ => (432, 48, 40)

/-- Outputs of the null symbol of DAB mode I. -/
def nullOutputs : Nat := 2656

/-- Outputs of a whole frame. -/
def frameOutputs (k : Kind) : Nat := if k = .dab then 196608 else 19200

/-- Outputs of symbol `l` of a frame; the null symbol is DAB's symbol 0. -/
def symbolOutputs (k : Kind) (mode l : Nat) : Nat :=
  if k = .dab && l = 0 then nullOutputs else (ofdmShape k mode).1 + (ofdmShape k mode).2.1

/-- The carrier spacing in 0.01 Hz. -/
def carrierSpacing (k : Kind) (mode : Nat) : Int := quot (24576000000 / (ticksPerOut k : Int)) (ofdmShape k mode).1

/-- The largest offset from the chain's frequency that is resolved, in 0.01 Hz (R216). -/
def pullIn : Kind → Nat
  | .dab => 2500000 | .drmPlus => 200000 | _ => 20000

/-- Outputs with 0 in the place of those that are missing. -/
def filled (l : List (Option (Int × Int))) : List (Int × Int) := l.map (·.getD (0, 0))

/-- Drop outputs from the front of the line. -/
def dropOutputs (k : Kind) (n : Nat) (o : Ofdm) : Ofdm :=
  { o with line := o.line.drop n, second := o.second.drop n, lineAt := o.lineAt.later (n * ticksPerOut k) }

/-! ### The FFT window (R217) -/

/-- Impulse-response energy within the guard interval of a window start. -/
def guardEnergy (useful guard : Nat) (imp : List Nat) (w : Nat) : Nat :=
  ((List.range (guard + 1)).map (fun j => imp.getD ((w + useful - j) % useful) 0)).sum

/-- The window start that maximises the energy within the guard interval, the earliest on a tie (R217; DESIGN CHOICE, log 156). -/
def placeWindow (useful guard : Nat) (imp : List Nat) : Nat :=
  ((List.range (guard + 1)).foldl (fun (a : Nat × Nat) w =>
    if a.2 < guardEnergy useful guard imp w then (w, guardEnergy useful guard imp w) else a) (0, guardEnergy useful guard imp 0)).1

/-- The window follows a new impulse response, whose energy is summed for the measures (R216, R217, R236). -/
def followWindow (shape : Nat × Nat × Nat) (imp : List Nat) (o : Ofdm) : Ofdm :=
  { o with
    impulse := imp, window := placeWindow shape.1 shape.2.1 imp
    echoes := (List.range (max o.echoes.length imp.length)).map (fun i => o.echoes.getD i 0 + imp.getD i 0) }

/-- Impulse-response energy beyond the guard interval of the window, which counts as noise on every carrier (R217; log 175). -/
def beyondGuard (shape : Nat × Nat × Nat) (o : Ofdm) : Nat :=
  o.impulse.sum - guardEnergy shape.1 shape.2.1 o.impulse o.window

/-- Delays at which the impulse response lies within 20 dB of its strongest path, with the energies (R236). -/
def pathsOf (imp : List Nat) : List (Nat × Nat) :=
  let top := imp.foldl max 0
  (imp.zipIdx.filter (fun x => top ≤ 100 * x.1 && 0 < x.1)).map (fun x => (x.2, x.1))

/-! ### Channel estimates and soft values (R218, R219) -/

/-- The noise variance of a carrier: for DAB the larger of its decisions' variance and its mean null-symbol power, with the energy beyond
the guard interval (R217, R218). -/
def carrierNoise (beyond : Nat) (c : Carrier) : Nat := max c.var (c.nulls.sum / max 1 c.nulls.length) + beyond

/-- The nearest pi/4-DQPSK point has both parts at this magnitude: its amplitude is the carrier's |H|^2 (DESIGN CHOICE, log 168). -/
def dqpskPart (c : Carrier) : Nat := normSq c.h * 46341 / 65536

/-- The error of a differential decision about its nearest point (R218). -/
def dqpskError (c : Carrier) (d : Int × Int) : Nat :=
  normSq ((d.1.natAbs : Int) - dqpskPart c, (d.2.natAbs : Int) - dqpskPart c)

/-- A carrier after a differential decision: its estimate is refined, and its variance is filtered over 16 symbols (R218). -/
def estimateNext (c : Carrier) (z d : Int × Int) : Carrier :=
  let e := dqpskError c d / max 1 (normSq c.h)
  { c with h := Config.refined c.h z, var := c.var + e / 16 - c.var / 16 }

/-- A bit's soft value before scaling: its distance from the decision boundary times |H|^2 over the noise variance (R219). -/
def softOf (beyond : Nat) (c : Carrier) (part : Int) : Int := quot (part * 65536) (carrierNoise beyond c)

/-- Soft values scaled to an rms of 2 over a CIF or frame and rounded to -3 to 3: the magnitude is how many of 0.5, 1.5 and 2.5 the scaled one
reaches, so that halves go away from 0 (R219; DESIGN CHOICE, log 14). -/
def scaleSoft (l : List Int) : List Int :=
  let sq := (l.map (fun v => v.natAbs * v.natAbs)).sum
  l.map (fun v =>
    let m := (([1, 3, 5] : List Nat).filter (fun t => 0 < sq && t * t * sq ≤ 16 * (v.natAbs * v.natAbs) * l.length)).length
    if v < 0 then -(m : Int) else m)

/-- Add to running sums. -/
def addSums (a b : List Nat) : List Nat := (List.range 10).map (fun i => a.getD i 0 + b.getD i 0)

/-! ### DAB symbols (R216 to R219, R226, R598) -/

/-- The null symbol: its power on each carrier enters the mean over 8 frames, and it shows whether the frame is in place (R218,
R224). -/
def dabNull (z : Option (List (Int × Int) × List (Int × Int))) (o : Ofdm) : Ofdm := match z with
  | none => { o with found := false, prev := none }
  | some z =>
    let p := (z.1.map normSq).sum
    let near := (match o.prev with
      | some x => (x.1.map normSq).sum
      | none => 0)
    let next (old : List Carrier) (z : List (Int × Int)) : List Carrier :=
      if z.isEmpty then old
      else z.zipIdx.map (fun x => let c := old.getD x.2 {}; { c with nulls := (normSq x.1 :: c.nulls).take 8 })
    { o with
      found := Config.nullSeen p near, prev := none, carriers := (next o.carriers.1 z.1, next o.carriers.2 z.2)
      sums := addSums o.sums [0, 0, 0, 0, 0, 0, p, z.1.length, 0, 0] }

/-- New channel estimates of a path. -/
def withEstimates (z : List (Int × Int)) (l : List Carrier) : List Carrier :=
  (Config.phaseReference z).zipIdx.map (fun x => { l.getD x.2 {} with h := x.1 })

/-- Squared phase steps of channel estimates, and how many (R236). -/
def phaseSteps (a b : List Carrier) : Nat × Nat :=
  ((((a.zip b).map (fun x => (angleOf (cmul x.2.h (conj x.1.h))).natAbs ^ 2)).sum), min a.length b.length)

/-- The phase reference symbol: channel estimates, impulse response and window (R216 to R218). -/
def dabReference (shape : Nat × Nat × Nat) (z : Option (List (Int × Int) × List (Int × Int))) (o : Ofdm) : Ofdm := match z with
  | none => { o with prev := none }
  | some z =>
    let c := withEstimates z.1 o.carriers.1
    let imp := Config.impulse (c.map (·.h))
    let d := phaseSteps o.carriers.1 c
    { followWindow shape imp o with
      carriers := (c, withEstimates z.2 o.carriers.2), prev := some z
      sums := addSums o.sums [0, 0, 0, 0, 0, 0, 0, 0, d.1, d.2] }

/-- The differential products of two symbols. -/
def differential (z y : List (Int × Int)) : List (Int × Int) := (z.zip y).map (fun x => cmul x.1 (conj x.2))

/-- The soft values of one path's differential decisions: all real parts, then all imaginary parts. -/
def softPath (beyond : Nat) (c : List Carrier) (d : List (Int × Int)) : List Int :=
  (c.zip d).map (fun x => softOf beyond x.1 x.2.1) ++ (c.zip d).map (fun x => softOf beyond x.1 x.2.2)

/-- The values of two paths added, each already weighted by its carrier's noise: maximum-ratio combining per carrier and symbol
(R136). -/
def addPaths (a b : List Int) : List Int := a.zipIdx.map (fun x => x.1 + b.getD x.2 0)

/-- A data symbol of DAB: soft values by differential decisions, or erasures where it or its reference is lost; the window follows the
refined estimates (R216 to R219, R226). -/
def dabSymbol (z : Option (List (Int × Int) × List (Int × Int))) (o : Ofdm) : Ofdm × List Int := match z, o.prev with
  | some z, some y =>
    let d := differential z.1 y.1
    let d2 := differential z.2 y.2
    let c := o.carriers
    let next (c : List Carrier) (z d : List (Int × Int)) : List Carrier := (c.zip (z.zip d)).map (fun x => estimateNext x.1 x.2.1 x.2.2)
    let main := next c.1 z.1 d
    let beyond := beyondGuard (ofdmShape .dab 0) o
    ({ followWindow (ofdmShape .dab 0) (Config.impulse (main.map (·.h))) o with
        carriers := (main, next c.2 z.2 d2), prev := some z, freq := Config.trackFrequency o.freq z.1 y.1
        sums := addSums o.sums [0, 0, ((c.1.zip d).map (fun x => 2 * dqpskPart x.1 ^ 2)).sum, ((c.1.zip d).map (fun x => dqpskError x.1 x.2)).sum,
          (z.1.map normSq).sum, z.1.length, 0, 0, 0, 0] },
      addPaths (softPath beyond c.1 d) (softPath beyond c.2 d2))
  | z, _ => ({ o with prev := z }, List.replicate 3072 0)

/-- Are a CIF's FIBs lost: one of the FIC symbols that carry them is (R226, R241)? -/
def fibsLost (c : Nat) (l : List Bool) : Bool := match c with
  | 0 => l.getD 0 true
  | 1 => l.getD 0 true || l.getD 1 true
  | 2 => l.getD 1 true || l.getD 2 true
  | _ => l.getD 2 true

/-- Has a CIF or frame of this instant been completed before (R536)? -/
def seenFrame (o : Ofdm) : Bool := match (o.marks.getLast?.map (fun m => m.at')).or o.past.head? with
  | some i => i.epoch == o.frameAt.epoch && (o.frameAt.tick - i.tick).toInt ≤ 0
  | none => false

/-- A CIF or frame is complete: its soft values go to the de-interleave reservation, and it is marked, unless that was done before (R219,
R228, R536). -/
def completeFrame (span pos : Nat) (lost : Bool) (o : Ofdm) : Ofdm :=
  { o with
    deint := (scaleSoft o.soft :: o.deint).take span, soft := []
    marks := if seenFrame o then o.marks else o.marks ++ [{ at' := o.frameAt, pos := pos, sync := o.found, lost := lost }] }

/-- One DAB symbol, at the front of the line (R216 to R219, R226, R228). -/
def dabStep (z : Option (List (Int × Int) × List (Int × Int))) (o : Ofdm) : Ofdm :=
  let l := o.symbol
  if l = 0 then dabNull z { o with ficLost := [] }
  else if l = 1 then dabReference (ofdmShape .dab 0) z o
  else
    let lost := z.isNone || o.prev.isNone
    let o := if l % 18 = 5 then { o with frameAt := o.lineAt } else o
    let x := dabSymbol z o
    let o := x.1
    if l ≤ 4 then
      let fic := (if l = 2 then [] else o.control) ++ x.2
      { o with ficLost := o.ficLost ++ [lost], control := if l = 4 then scaleSoft fic else fic }
    else
      let o := { o with soft := o.soft ++ x.2 }
      if l % 18 = 4 then completeFrame 16 ((l - 5) / 18) (fibsLost ((l - 5) / 18) o.ficLost) o else o

/-! ### DRM frames (R216, R218, R219, R226) -/

/-- A frame's cells on the main path, or on the branch's. -/
def pathCells (o : Ofdm) (branch : Bool) : List (List (Int × Int)) :=
  o.cells.map (fun x => match x with
    | some y => if branch then y.2 else y.1
    | none => [])

/-- The gain references of a path's cells: symbol, carrier, value received and reference (R218). -/
def gainCells (o : Ofdm) (cells : List (List (Int × Int))) : List (Nat × Nat × (Int × Int) × (Int × Int)) :=
  cells.zipIdx.flatMap (fun x => x.1.zipIdx.filterMap (fun y =>
    (Config.gainReference o.mode o.occupancy x.2 y.2).map (fun g => (x.2, y.2, y.1, g))))

/-- The channel at a cell, interpolated over time and frequency (R218). -/
def channelAt (refs : List (Nat × Nat × (Int × Int) × (Int × Int))) (l k : Nat) : Int × Int :=
  Config.interpolated (refs.map (fun x => (x.1, x.2.1, cdiv (cmul x.2.2.1 (conj x.2.2.2)) (normSq x.2.2.2)))) l k

/-- The residual at gain references after the interpolation, averaged over the frame: those of carrier `k`, or all where it has none
(R218). -/
def gainNoise (refs : List (Nat × Nat × (Int × Int) × (Int × Int))) (k : Nat) : Nat :=
  let own := refs.filter (fun x => x.2.1 == k)
  let use := if own.isEmpty then refs else own
  let err (x : Nat × Nat × (Int × Int) × (Int × Int)) : Nat :=
    let y := cmul (channelAt refs x.1 x.2.1) x.2.2.2
    normSq (x.2.2.1.1 - y.1, x.2.2.1.2 - y.2)
  (use.map err).sum / max 1 use.length

/-- What a path gives a cell by maximum ratio: its value and its gain, each over its noise, with the energy beyond the guard interval, in
1/2^16 (R136, R217). -/
def pathGain (beyond : Nat) (refs : List (Nat × Nat × (Int × Int) × (Int × Int))) (l k : Nat) (z : Int × Int) : (Int × Int) × Int :=
  let h := channelAt refs l k
  let n := gainNoise refs k + beyond
  let y := cmul z (conj h)
  (cdiv (y.1 * 65536, y.2 * 65536) n, quot (normSq h * 65536) n)

/-- Soft values of a data cell of a constellation from what its paths give, with its reference-point and error-vector power (R136, R218,
R219, R236). -/
def cellSoft (con : Nat) (l : List ((Int × Int) × Int)) : List Int × Nat × Nat :=
  let g := (l.map (·.2)).foldl (· + ·) 0
  let e := cdiv (let y := l.foldl (fun a x => cadd a x.1) (0, 0); (y.1 * 65536, y.2 * 65536)) g
  let d := Config.demapped con e
  (d.1.map (fun v => quot (v * g) 65536), normSq d.2, normSq (e.1 - d.2.1, e.2 - d.2.2))

/-- The soft values of the cells of a kind in one symbol of a DRM frame: erasures where it is lost, else those of its cells, at their
constellation (R136, R219, R226). -/
def symbolSoft (kind con l : Nat) (o : Ofdm) (x : Option (List (Int × Int) × List (Int × Int))) : List (List Int × Nat × Nat) := match x with
  | none => [(List.replicate (Config.symbolBits o.mode o.occupancy o.position kind con l) 0, 0, 0)]
  | some y =>
    let main := gainCells o (pathCells o false)
    let other := gainCells o (pathCells o true)
    let beyond := beyondGuard (ofdmShape .drm30 o.mode) o
    (y.1.zipIdx.filter (fun z => (Config.gainReference o.mode o.occupancy l z.2).isNone &&
      Config.cellKind o.mode o.occupancy o.position l z.2 == kind)).map (fun z =>
        cellSoft con (pathGain beyond main l z.2 z.1 :: (y.2[z.2]?.map (pathGain beyond other l z.2)).toList))

/-- The carriers of a path after a DRM frame (R218). -/
def frameCarriers (o : Ofdm) (branch : Bool) : List Carrier :=
  let refs := gainCells o (pathCells o branch)
  let n := ((pathCells o branch).map List.length).foldl max 0
  (List.range n).map (fun k => { h := channelAt refs 0 k, var := gainNoise refs k })

/-- Constellations of a DRM frame's MSC and SDC cells by R237; the FAC's are 4-QAM (R207). -/
structure DrmCells where
  /-- MSC. -/
  msc : Nat := 0
  /-- SDC. -/
  sdc : Nat := 1
  deriving DecidableEq, Repr

/-- A DRM frame is complete: estimates from its gain references, soft values of its MSC cells and of its FAC and SDC cells, erasures for
lost symbols (R218, R219, R226). -/
def drmFrame (con : DrmCells) (span : Nat) (o : Ofdm) : Ofdm :=
  let of (kind con : Nat) := o.cells.zipIdx.flatMap (fun x => symbolSoft kind con x.2 o x.1)
  let msc := of 0 con.msc
  let control := of 1 1 ++ of 2 con.sdc
  let soft := msc ++ control
  let c := frameCarriers o false
  let d := phaseSteps o.carriers.1 c
  completeFrame span o.position (o.cells.all (·.isNone)) { o with
    soft := msc.flatMap (·.1), control := scaleSoft (control.flatMap (·.1)), carriers := (c, frameCarriers o true)
    found := Config.drmSeen (o.cells.map (fun x => x.map (·.1))), cells := []
    sums := addSums o.sums [0, 0, (soft.map (·.2.1)).sum, (soft.map (·.2.2)).sum, 0, 0, 0, 0, d.1, d.2] }

/-- The window follows the estimates at the latest symbol, from the gain references of the frame so far (R216, R217). -/
def followCells (o : Ofdm) : Ofdm :=
  let refs := gainCells o (pathCells o false)
  let n := ((pathCells o false).map List.length).foldl max 0
  followWindow (ofdmShape .drm30 o.mode) (Config.impulse ((List.range n).map (channelAt refs (o.cells.length - 1)))) o

/-- One DRM symbol. -/
def drmStep (con : DrmCells) (span : Nat) (z : Option (List (Int × Int) × List (Int × Int))) (o : Ofdm) : Ofdm :=
  let o := if o.symbol = 0 then { o with frameAt := o.lineAt } else o
  let o := { o with
    cells := o.cells ++ [z]
    freq := match z, o.prev with
      | some x, some y => Config.trackFrequency o.freq x.1 y.1
      | _, _ => o.freq
    prev := z }
  let o := if z.isSome then followCells o else o
  if o.symbol + 1 = (ofdmShape .drm30 o.mode).2.2 then drmFrame con span o else o

/-! ### Stages and symbols (R216, R226) -/

/-- The frequency offset within one carrier spacing, from the correlation of a symbol's guard interval (R216). -/
def guardOffset (k : Kind) (mode : Nat) (l : List (Int × Int)) : Int :=
  let p := ofdmShape k mode
  let c := ((l.take p.2.1).zip (l.drop p.1)).foldl (fun a x => cadd a (cmul x.2 (conj x.1))) (0, 0)
  quot (angleOf c * carrierSpacing k mode) 4294967296

/-- What a stage of acquisition does with the outputs at hand, which hold a frame and a symbol at least (R216). -/
def acquireStep (k : Kind) (opt : DigOpts) (o : Ofdm) : Ofdm :=
  let l := filled o.line
  let first := if k = .dab then nullOutputs else 0
  let p := ofdmShape k o.mode
  match o.stage with
  | .coarse =>
    if k = .dab then match Config.findNull (l.map magnitude) with
      | some n => { dropOutputs k n o with stage := .fine }
      | none => dropOutputs k (frameOutputs k) o
    else
      let mode := if k = .drmPlus then some 4 else if opt.mode = 0 then Config.drmMode l else some (opt.mode - 1)
      match mode with
      | some m => match Config.drmStart m l with
        | some n => { dropOutputs k n o with stage := .fine, mode := m }
        | none => dropOutputs k (frameOutputs k) o
      | none => dropOutputs k (frameOutputs k) o
  | .fine => { o with stage := .whole, freq := guardOffset k o.mode (l.drop first) }
  | .whole =>
    let f := o.freq + Config.wholeOffset k o.mode o.freq ((l.drop (first + p.2.1)).take p.1) * carrierSpacing k o.mode
    if f.natAbs ≤ pullIn k then
      { o with stage := .place, freq := f, occupancy := if k != .drm30 then 0 else if opt.occupancy = 6 then Config.drmOccupancy o.mode l
                                                        else opt.occupancy }
    else { dropOutputs k (frameOutputs k) o with stage := .coarse }
  | _ =>
    let z := Config.carriers k o.mode o.occupancy o.freq p.2.1 ((l.drop (first + p.2.1)).take p.1)
    let imp := Config.impulse (Config.phaseReference z)
    { followWindow p imp o with stage := .track, symbol := 0, found := true }

/-- The carriers of the symbol at the front of the line by its FFT window, on both paths; none when a sample of its useful part, which ends
the symbol, is missing (R217, R226). Where the branch's part is not whole it adds nothing. -/
def symbolCarriers (k : Kind) (o : Ofdm) : Option (List (Int × Int) × List (Int × Int)) :=
  let u := (ofdmShape k o.mode).1
  let n := symbolOutputs k o.mode o.symbol
  let useful (l : List (Option (Int × Int))) := (l.take n).drop (n - u)
  let of (l : List (Option (Int × Int))) := Config.carriers k o.mode o.occupancy o.freq o.window (filled ((l.drop o.window).take u))
  if (useful o.line).any (·.isNone) then none
  else some (of o.line, if (useful o.second).any (·.isNone) || (useful o.second).length < u then [] else of o.second)

/-- One symbol is taken from the line and tracked (R216, R226). -/
def trackStep (k : Kind) (con : DrmCells) (span : Nat) (o : Ofdm) : Ofdm :=
  let z := symbolCarriers k o
  let n := symbolOutputs k o.mode o.symbol
  let slip : Int := clampInt (-1) 1 ((z.map (fun x => Config.sampleSlip x.1)).getD 0)
  let p := (ofdmShape k o.mode).2.2
  let o := if k = .dab then dabStep z o else drmStep con span z o
  dropOutputs k ((n : Int) + slip).toNat { o with symbol := if k = .dab then (if o.symbol = p then 0 else o.symbol + 1) else (o.symbol + 1) % p }

/-- Work through the line as far as it goes. -/
def ofdmRun (k : Kind) (opt : DigOpts) (con : DrmCells) (span : Nat) : Nat → Ofdm → Ofdm
  | 0, o => o
  | fuel + 1, o =>
    if o.stage = .track then
      if symbolOutputs k o.mode o.symbol + 1 ≤ o.line.length then ofdmRun k opt con span fuel (trackStep k con span o) else o
    else if 2 * frameOutputs k ≤ o.line.length then ofdmRun k opt con span fuel (acquireStep k opt o) else o

/-- Frames over which cells are de-interleaved: one in short mode, 5 for DRM30 or 6 for DRM+ in long mode; 16 CIFs for DAB (R220). -/
def interleaveSpan (r : Reception) : Nat :=
  if r.kind = .dab then 16 else if r.drm.getD 3 0 = 0 then 1 else if r.kind = .drmPlus then 6 else 5

/-- Outputs join the line, missing where they are UNSETTLED, with the branch's beside them; a gap is as many missing ones. The line's instant
goes by the block's time-stamp, whose epoch it takes (R110, R136, R226, R228). -/
def joinOutputs (k : Kind) (gap : Nat) (l : List DemIn) (o : Ofdm) : Ofdm :=
  let per := ticksPerOut k
  let hole : List (Option (Int × Int)) := List.replicate ((2 * gap + per) / (2 * per)) none
  { o with
    lineAt := match l with
      | y :: _ => y.at'.moved (-(((o.line.length + hole.length) * per : Nat) : Int))
      | [] => o.lineAt
    line := o.line ++ hole ++ l.map (fun y => if y.settled then some y.x else none)
    second := o.second ++ hole ++ l.map (fun y => branchBeside per y.at' o.branch)
    branch := o.branch.filter (fun y => l.all (fun z => y.at'.epoch != z.at'.epoch || (z.at'.tick - y.at'.tick).toInt ≤ per))
    sums := addSums o.sums [(l.filter (·.settled)).length, ((l.filter (·.settled)).map (fun y => normSq y.x)).sum] }

/-- A digital reception's engine takes a block, `gap` ticks after the last output it took. -/
def ofdmBlock (r : Reception) (gap : Nat) (b : Block) : Reception :=
  let l := blockOutputs (ticksPerOut r.kind) b
  let o := joinOutputs r.kind gap l r.ofdm
  { r with
    ofdm := ofdmRun r.kind r.dig { msc := r.drm.getD 2 0, sdc := if r.sdc16 then 2 else 1 } (interleaveSpan r) (o.line.length + 8) o
    dem := { r.dem with due := (l.getLast?.map (fun y => y.at'.later (ticksPerOut r.kind))).or r.dem.due } }

end Sys2Proof.Machine
end

