-- ==== Sys2Proof/Machine/Operands.lean ====
section
/-!
DEFINITION. Operands.lean: what a meaning does with its operands before its effect: the guard on the units an operand
names.
-/

namespace Sys2Proof.Machine

/-- The outcome of an event whose operand names a unit by number: its effect where the device has that unit and the clock of its island
runs, and none otherwise (R94, R112, R331, log 133). -/
def within (s : State) (ok : Bool) (t : State) : Host.Outcome State Fault Refusal := .next (if ok then t else s)

end Sys2Proof.Machine
end

