-- ==== Sys2Proof/Machine/Rds.lean ====
section
/-!
DEFINITION. Rds.lean: the blocks of an RDS stream: offsets, correction, synchronisation and framing (R198 to R201, R206, R240, R262).
-/

namespace Sys2Proof.Machine

/-! ### RDS blocks (R198 to R201): the code of IEC 62106, log 26 -/

/-- The offset words: 0 A, 1 B, 2 C, 3 D, 4 C', 5 E. -/
def offsetWord : Nat → Nat
  | 0 => 0x0FC | 1 => 0x198 | 2 => 0x168 | 3 => 0x1B4 | 4 => 0x350 | _ => 0

/-- The remainder of a 26-bit word by the generator polynomial 0x5B9. -/
def rdsRemainder (w : Nat) : Nat :=
  (List.range 16).foldl (fun v i => if v.testBit (25 - i) then v ^^^ (0x5B9 * 2 ^ (15 - i)) else v) w

/-- The offset word A, B, C, D or C' of an error-free block (R199). -/
def exactOffset (w : Nat) : Option Nat := (List.range 5).find? (fun k => rdsRemainder w == offsetWord k)

/-- The bursts of up to 5 bits, shortest first: length and pattern. -/
def rdsBursts : List (Nat × Nat) :=
  [(1, 1), (2, 3), (3, 5), (3, 7), (4, 9), (4, 11), (4, 13), (4, 15), (5, 17), (5, 19), (5, 21), (5, 23), (5, 25),
    (5, 27), (5, 29), (5, 31)]

/-- Correct a burst of up to 5 bits in a block with a known offset word: the burst length and the word (R200). -/
def correctBurst (w off : Nat) : Option (Nat × Nat) :=
  (rdsBursts.flatMap (fun b => (List.range (27 - b.1)).map (fun i => (b.1, w ^^^ (b.2 * 2 ^ i))))).find?
    (fun x => rdsRemainder x.2 == off)

/-- The offset words that a block position may carry: C or C' at the third (R200). -/
def positionOffsets (pos : Nat) : List Nat := if pos = 2 then [2, 4] else [pos]

/-- A block judged at its position: error flag, word, and the offset it carries (R200). A block that a break overlaps is
delivered with flag 3 (R186). -/
def judgeBlock (w pos : Nat) (broken : Bool) (offs : List Nat) : Nat × Nat × Nat :=
  if broken then (3, w, pos)
  else match offs.find? (fun k => rdsRemainder w == offsetWord k) with
    | some k => (0, w, k)
    | none =>
      let fixes := offs.filterMap (fun k => (correctBurst w (offsetWord k)).map (fun x => (x.1, x.2, k)))
      match fixes with
      | [] => (3, w, pos)
      | x :: l => let b := l.foldl (fun y z => if z.1 < y.1 then z else y) x
        (if b.1 ≤ 2 then 1 else 2, b.2.1, b.2.2)

/-- The place of an offset word in the group. -/
def offsetPos (k : Nat) : Nat := if k = 4 then 2 else k

/-- Does a block complete block synchronisation with an earlier one, both given by offset and first bit: right order, right spacing,
both within four block periods (R199)? -/
def gainsSync (recent : List (Nat × Nat)) (k at' : Nat) : Bool :=
  recent.any (fun x => [1, 2, 3].any (fun n => at' - x.2 = 26 * n && (offsetPos x.1 + n) % 4 = offsetPos k))

/-- The information word of a block: its upper 16 bits. -/
def infoWord (w : Nat) : Nat := w / 1024 % 65536

/-- A word of bits, the first the highest. -/
def bitsWord (l : List RdsBit) : Nat := l.foldl (fun v b => 2 * v + b.v.toNat) 0

/-- Bits leave a stream. -/
def dropBits (n : Nat) (x : RdsStream) : RdsStream := { x with bits := x.bits.drop n, bitNo := x.bitNo + n }

/-- Synchronisation is given up: the search starts anew. -/
def loseSync (x : RdsStream) : RdsStream :=
  { x with sync := false, pos := 0, recent := [], history := [], group := none, eRun := [] }

/-- Outside synchronisation a stream tries one bit after another for a block without error, which no break overlaps, until two of them
gain synchronisation or its bits run out; it corrects nothing (R199). Offset E has no place in the order of the offsets (R201). -/
def rdsSearch : Nat → RdsStream → RdsStream
  | 0, x => x
  | fuel + 1, x =>
    if x.bits.length < 26 then x
    else
      let l := x.bits.take 26
      match (if l.any (·.broken) then none else exactOffset (bitsWord l)) with
      | none => rdsSearch fuel (dropBits 1 x)
      | some k =>
        if gainsSync x.recent k x.bitNo then { dropBits 26 (loseSync x) with sync := true, pos := (offsetPos k + 1) % 4 }
        else rdsSearch fuel (dropBits 1 { x with recent := ((k, x.bitNo) :: x.recent).filter (fun y => x.bitNo - y.2 < 104) })

/-- The offsets that a block in synchronisation is judged by: those of its position, and in RBDS mode E where the block carries it without
error or follows blocks that do (R200, R201). -/
def judgedOffsets (rbds : Bool) (w : Nat) (x : RdsStream) : List Nat :=
  positionOffsets x.pos ++ (if rbds && (!x.eRun.isEmpty || rdsRemainder w == 0) then [5] else [])

/-- The MMBS group that an E block completes as the fourth in a row, and the run after it (R201). -/
def rdsRun (isE : Bool) (w flag : Nat) (at' : Instant) (x : RdsStream) : RdsStream × List RdsGroup :=
  if !isE then ({ x with eRun := [] }, [])
  else
    let run := x.eRun ++ [(infoWord w, flag)]
    let first := if x.eRun.isEmpty then at' else x.eAt
    if run.length < 4 then ({ x with eRun := run, eAt := first }, [])
    else ({ x with eRun := [] }, [{ at' := first, blocks := run, mmbs := true }])

/-- One block of a stream in synchronisation: judged, counted and framed, with the groups it completes. A group whose four blocks all
carry E goes out as MMBS alone (R199 to R201, R206, R240). -/
def rdsBlock (rbds : Bool) (x0 : RdsStream) : RdsStream × List RdsGroup :=
  let l := x0.bits.take 26
  let w := bitsWord l
  let at' := (l.headD {}).at'
  let x := dropBits 26 x0
  let j := judgeBlock w x.pos (l.any (·.broken)) (judgedOffsets rbds w x)
  let isE : Bool := j.2.2 = 5
  let r := rdsRun isE j.2.1 j.1 at' x
  let x := r.1
  let g0 : RdsGroup := if x.pos = 0 then { at' := at', mmbs := true } else x.group.getD {}
  let started := x.pos = 0 || x.group.isSome
  let g := { g0 with
    blocks := g0.blocks ++ [if isE then (infoWord w, 3) else (infoWord j.2.1, j.1)]
    typeB := g0.typeB || j.2.2 = 4, mmbs := g0.mmbs && isE }
  let hist := ((j.1 == 3) :: x.history).take 50
  let y := { x with
    received := x.received + 1, corrected := x.corrected + (if j.1 = 1 || j.1 = 2 then 1 else 0)
    bad := x.bad + (if j.1 = 3 then 1 else 0), history := hist, pos := (x.pos + 1) % 4
    pi := if x.pos = 0 && j.1 < 2 && !isE then some (infoWord j.2.1) else x.pi
    identity := if x.pos = 0 && j.1 < 2 && !isE && x.pi = some (infoWord j.2.1) then x.pi else x.identity
    group := if started && x.pos < 3 then some g else none }
  (if 45 ≤ (hist.filter id).length then loseSync y else y,
    (if started && x.pos = 3 && !g.mmbs then [g] else []) ++ r.2)

/-- A stream with its next step: a block in synchronisation, or the search for it (R199). -/
def rdsNext (rbds : Bool) (x : RdsStream) : RdsStream × List RdsGroup :=
  if !x.sync then (rdsSearch x.bits.length x, [])
  else if x.bits.length < 26 then (x, [])
  else rdsBlock rbds x

/-- A stream that goes on until its bits are used up, without delivering groups (R262). -/
def rdsDrain : Nat → RdsStream → RdsStream
  | 0, x => x
  | fuel + 1, x => if x.bits.length < 26 then x else rdsDrain fuel (rdsNext false x).1

end Sys2Proof.Machine
end

