-- ==== Sys2Proof/Machine/Sound.lean ====
section
/-!
DEFINITION. Sound.lean: where released audio goes: loudness, Scarf's delay lines and fades, and the PCM outputs with their FIFOs
(R204, R269, R276 to R286).
-/

namespace Sys2Proof.Machine

/-! ### Curve tables (R282) -/

/-- The unit of the fixed-point arithmetic of the fixed tables. -/
def curveOne : Int := 10 ^ 24

/-- sin(pi n / 510) by its power series, in units of `curveOne`. -/
def curveSin (n : Nat) : Int :=
  let x : Int := 3141592653589793238462643 * n / 510
  let x2 := x * x / curveOne
  ((List.range 16).foldl (fun (a : Int × Int) k =>
    (a.1 + a.2, -(a.2 * x2 / curveOne) / ((2 * k + 2) * (2 * k + 3) : Nat))) (0, x)).1

/-- Point `n` of a fixed table: equal-power, linear, raised cosine, step at point 128; rounded to the nearest (R282, log 14). -/
def fixedPoint (table n : Nat) : Nat := match table with
  | 0 => (roundDiv (curveSin n * 65535) (10 ^ 24)).toNat
  | 1 => n * 257
  | 2 => (roundDiv (curveSin n * curveSin n / curveOne * 65535) (10 ^ 24)).toNat
  | _ => if 128 ≤ n then 65535 else 0

/-- The 256 points of a table; one never loaded behaves as table 0 (R282). -/
def curvePoints (s : State) (table : Nat) : List Nat :=
  if table < 4 then (List.range 256).map (fixedPoint table)
  else ((s.mix.curves.getD (table - 4) {}).points).getD ((List.range 256).map (fixedPoint 0))

/-! ### Objects that route audio -/

/-- A blend pair by its index. -/
def blendAt (s : State) (i : Nat) : Option Blend := s.mix.blends.find? (·.o.idx == i)

/-- Change a blend pair. -/
def modBlend (i : Nat) (g : Blend → Blend) (s : State) : State :=
  { s with mix := { s.mix with blends := s.mix.blends.map (fun b => if b.o.idx = i then g b else b) } }

/-- A follow object by its index. -/
def followAt (s : State) (i : Nat) : Option Follow := s.prog.follows.find? (·.o.idx == i)

/-- Change a PCM output. -/
def modPcm (i : Nat) (g : PcmOut → PcmOut) (s : State) : State :=
  { s with prog := { s.prog with pcms := s.prog.pcms.map (fun x => if x.o.idx = i then g x else x) } }

/-- Does the object have an identity that an arrival of a kind carries (R257, R262)? -/
def ownIdentity (f : Follow) (k : Kind) (v : Nat) : Bool :=
  f.idents.contains ((match k with
    | .fm => 1
    | .dab => 2
    | _ => 3 : Nat), v)

/-- The programme of a reception that carries the object's service: an analogue reception's own; a digital one's with one of
the object's identities. -/
def serviceProgramme (s : State) (f : Follow) (i : Nat) : Option Programme :=
  s.prog.programmes.find? (fun p => p.reception == i &&
    (analogue (kindAt s i) || ownIdentity f (kindAt s i) p.decl.service))

/-- The ring an output is bound to. -/
def boundRing (s : State) (code cls : Nat) (h : Handle) : Option Nat :=
  (s.plan.binds.find? (fun b => b.1 == code && b.2.1 == h && b.2.2.1 == cls)).map (·.2.2.2)

/-- The handle of a programme. -/
def programmeHandle (p : Programme) : Handle := { index := p.idx, gen := p.gen }

/-! ### Conversion to 48 kHz (R276, R285) -/

/-- Source frames at a rate as frames at 48 kHz, with what is carried of a source frame in 1/48,000 of its period (R276, R285). -/
def to48 (rate carry : Nat) (l : List AudioFrame) : List AudioFrame × Nat :=
  let total := carry + 48000 * l.length
  let v := l.map (fun f => (f.l, f.r))
  if rate = 48000 then (l, carry)
  else ((List.range (total / rate)).map (fun j =>
    let f := l.getD (min (j * rate / 48000) (l.length - 1)) {}
    let y := Config.converted rate v j
    { f with at' := (l.headD {}).at'.later (5120 * j), l := y.1, r := y.2 }), total % rate)

/-! ### Scarf (R276 to R280) -/

/-- The branch whose content arrives earlier: A where B lags it (R276). -/
def earlier (b : Blend) : Nat := if 0 < b.offset then 0 else 1

/-- The full offset, in samples (R280). -/
def fullOffset (b : Blend) : Nat := b.offset.natAbs

/-- Samples by which a drain or build has moved since it began: the drain rate of the time passed, at 5,120 ticks for each
sample (R280). -/
def moved (s : State) (b : Blend) : Nat := (now s - b.motionAt) / 5120 * (b.drain * 5) / 1000

/-- Samples of a small change of the offset that the line has followed since its motion began, at 0.1 % (R277). -/
def slipped (s : State) (b : Blend) : Int :=
  let n : Int := ((now s - b.motionAt) / 5120 / 1000 : Nat)
  clampInt (-n) n b.slip

/-- The delay now in the line (R277, R280). -/
def lineNow (s : State) (b : Blend) : Nat :=
  let d := if b.state = .draining then b.delay - moved s b
    else if b.state = .building then min (fullOffset b) (b.delay + moved s b)
    else b.delay
  ((d : Int) + slipped s b).toNat

/-- Frames that the line of a branch holds back: its delay while it is the earlier one (R280). -/
def heldBack (s : State) (b : Blend) (br : Nat) : Nat := if br = earlier b then lineNow s b else 0

/-- The gain of a curve at `num/den` of the fade, in 1/(65,535 den), interpolated linearly between points (R278). -/
def curveGain (c : List Nat) (num den : Nat) : Nat :=
  let i := num * 255 / den
  c.getD i 65535 * (den - num * 255 % den) + c.getD (i + 1) (c.getD i 65535) * (num * 255 % den)

/-- A frame of a fade: the incoming branch by g(x), the outgoing one by g(1 - x); programme and time-stamp are those of the larger
gain (R278, R286). -/
def fadeFrame (c : List Nat) (num den : Nat) (x y : AudioFrame) : AudioFrame :=
  let g := curveGain c num den
  let h := curveGain c (den - num) den
  let mix (a b : Int) : Int := clamp24 (quot (a * g + b * h) (65535 * den))
  let f := if h ≤ g then x else y
  { f with l := mix x.l y.l, r := mix x.r y.r, concealed := x.concealed || y.concealed }

/-- The line of a branch. -/
def lineOf (b : Blend) (br : Nat) : List AudioFrame := if br = 0 then b.lines.1 else b.lines.2

/-- Put the lines of the branch given and of the other one. -/
def putLines (br : Nat) (x y : List AudioFrame) (b : Blend) : Blend :=
  { b with lines := if br = 0 then (x, y) else (y, x) }

/-- Frames in a number of frames' time: as they are, or played faster or slower with their pitch kept (R277, R280). -/
def inTime (n : Nat) (l : List AudioFrame) : List AudioFrame :=
  if l.length = n || l.isEmpty then l
  else (List.range n).map (fun j =>
    let f := l.getD (j * l.length / n) {}
    let y := Config.timeScaled (l.map (fun f => (f.l, f.r))) n j
    { f with l := y.1, r := y.2 })

/-- A frame within a splice, `pos` frames of 480 into it: what the branch plays now comes in over what it leaves, flagged (R277). -/
def spliceFrame (pos : Nat) (x y : AudioFrame) : AudioFrame :=
  let g : Int := Config.fadeCurve pos 480
  { x with l := y.l + quot ((x.l - y.l) * g) 16777216, r := y.r + quot ((x.r - y.r) * g) 16777216, concealed := true }

/-- What Scarf plays when `n` frames have come on the branch it plays, and the pair with its lines after it (R277, R278, R280). -/
def scarfPlay (s : State) (n : Nat) (b : Blend) : Blend × List AudioFrame :=
  let x := lineOf b b.playing
  let y := lineOf b (1 - b.playing)
  let k := x.length - heldBack s b b.playing
  if b.state = .fading then
    let k := min k (y.length - heldBack s b (1 - b.playing))
    let len := 48 * b.fadeNow
    ({ putLines b.playing (x.drop k) (y.drop k) b with fadePos := b.fadePos + k },
      ((x.take k).zip (y.take k)).zipIdx.map (fun z => fadeFrame b.copied (min len (b.fadePos + z.2)) len z.1.1 z.1.2))
  else
    let done := 480 - b.splice.length
    ({ putLines b.playing (x.drop k) (lastFrames (heldBack s b (1 - b.playing)) y) b with
        past := lastFrames 192000 (b.past ++ x.take k), splice := b.splice.drop n },
      (inTime n (x.take k)).zipIdx.map (fun z => match b.splice[z.2]? with
        | some old => spliceFrame (done + z.2) z.1 old
        | none => z.1))

/-- The log rms of 2 ms from its sum of squares, as a byte in 0.5 dB steps, of which 255 is full scale of the mono sum (R276; log 140). -/
def envelopeStep (sum : Nat) : Byte := BitVec.ofInt 8 (255 + dbValue 20 sum (96 * 2 ^ 48) (-255) 0)

/-- An envelope with more audio: a step for every 2 ms (R276). -/
def takeEnvelope (l : List AudioFrame) (e : BranchEnv) : BranchEnv :=
  let m := l.map (fun f => f.l + f.r)
  let x := e.part ++ m
  let n := x.length / 96
  let new := (List.range n).map (fun (i : Nat) =>
    envelopeStep ((((x.drop (96 * i)).take 96).map (fun v => v.natAbs * v.natAbs)).sum))
  let audio := e.audio ++ m
  let steps := e.steps ++ new
  { audio := audio.drop (audio.length - 576000), steps := steps.drop (steps.length - 6000), part := x.drop (96 * n) }

/-- The largest of a list's values with its argument, the first of equals. -/
def peakOf {α : Type} (g : α → Int) : List α → Option (α × Int)
  | [] => none
  | a :: l => match peakOf g l with
    | some x => if g a < x.2 then some x else some (a, g a)
    | none => some (a, g a)

/-- The normalised correlation of two stretches of envelope in 0.001, about their means (R276; log 140). -/
def normalisedMatch (a b : List Byte) : Nat := correlationOf (a.map (fun x => (x.toNat : Int))) (b.map (fun x => (x.toNat : Int)))

/-- One correlation: the 4 s at the middle of A's envelope against B's over the lags of the range, the peak refined on the audio within
2 ms: the normalised peak in 0.001, and the offset in samples. None until both envelopes hold 12 s (R276; log 140). -/
def correlation (b : Blend) : Option (Nat × Int) :=
  if b.env.1.steps.length < 6000 || b.env.2.steps.length < 6000 then none
  else
    let mid := (b.env.1.steps.drop 2000).take 2000
    let n := b.range / 2
    let best := peakOf (fun (i : Nat) => (normalisedMatch mid ((b.env.2.steps.drop (2000 - n + i)).take 2000) : Int)) (List.range (2 * n + 1))
    best.map (fun x =>
      let lag : Int := ((x.1 : Int) - n) * 96
      let a := (b.env.1.audio.drop 192000).take 192000
      let fine := peakOf (fun (j : Nat) => dot a ((b.env.2.audio.drop (192000 + lag - 96 + j).toNat).take 192000)) (List.range 193)
      (x.2.toNat, lag - 96 + ((fine.map (·.1)).getD 96 : Nat)))

/-- A branch's short-term loudness in 0.1 LUFS (R278). -/
def branchLoudness (s : State) (h : Handle) : Option Int := (programmeAt s h.index).bind (fun p =>
  loudnessOver (audioRate (kindAt s p.reception) p.decl) 3000 p.loud)

/-- Is a branch's programme silent or its audio concealed (R205, R276)? -/
def branchQuiet (s : State) (h : Handle) : Bool := match programmeAt s h.index with
  | some p => p.silent || p.broken || p.lastUnitFailed || ((p.hold.getLast?).map (·.concealed)).getD false
  | none => true

/-- Level matching: the gain of branch B moves to branch A's short-term loudness less B's, within 12 dB, by no more than 0.5 dB per
second, while no fade runs and neither branch is silent or concealed (R278). -/
def matchLevel (s : State) (n : Nat) (b : Blend) : Blend :=
  match branchLoudness s b.a, branchLoudness s b.b with
  | some x, some y =>
    if b.level = 0 || b.state = .fading || branchQuiet s b.a || branchQuiet s b.b then b
    else
      let t := clampInt (-1152000) 1152000 ((x - y) * 9600)
      { b with gainB := b.gainB + clampInt (-(n : Int)) n (t - b.gainB) }
  | _, _ => b

/-- A frame of branch B at the gain of level matching (R278). -/
def levelled (b : Blend) (f : AudioFrame) : AudioFrame :=
  if b.level = 0 || b.gainB = 0 then f
  else
    let g (v : Int) : Int := clamp24 (quot (v * gainOfDb b.gainB 96000) 16777216)
    { f with l := g f.l, r := g f.r }

/-- Frames of a branch reach a pair: they join its line of at most 12 s, and the playing branch's make Scarf play (R276, R278,
R280). -/
def feedBlend (s : State) (br rate : Nat) (l : List AudioFrame) (b : Blend) : Blend × List AudioFrame :=
  let x := to48 rate (if br = 0 then b.carry.1 else b.carry.2) l
  let b := matchLevel s x.1.length { b with carry := if br = 0 then (x.2, b.carry.2) else (b.carry.1, x.2) }
  let b := { b with env := if br = 0 then (takeEnvelope x.1 b.env.1, b.env.2) else (b.env.1, takeEnvelope x.1 b.env.2) }
  let b := putLines br (lastFrames 576000 (lineOf b br ++ (if br = 1 then x.1.map (levelled b) else x.1))) (lineOf b (1 - br)) b
  if br = b.playing then scarfPlay s x.1.length b else (b, [])

/-! ### PCM outputs (R284, R285) -/

/-- Does a PCM output play through a pair: as its source, or for a follow object whose pair has the current reception's programme as a
branch? In SENTRY it plays none (R269, R284). -/
def playsBlend (s : State) (i : Nat) (x : PcmOut) : Bool :=
  s.set.mode == .serve && (match blendAt s i with
    | some b => (x.sourceCls == 2 && x.source == { index := i, gen := b.o.gen }) ||
      (x.sourceCls == 1 && (match followAt s x.source.index with
        | some f => f.o.gen == x.source.gen && f.blend == some i && !b.o.removing && !b.o.shed &&
          ((serviceProgramme s f f.current).map (fun p => programmeHandle p == b.a || programmeHandle p == b.b)).getD false
        | none => false))
    | none => false)

/-- Does a PCM output play a programme itself: as its source, as the current reception's programme of its follow object, or in SENTRY
as that of the serving reception or as branch A (R284)? -/
def playsProgramme (s : State) (p : Programme) (x : PcmOut) : Bool := match x.sourceCls with
  | 0 => x.source == programmeHandle p
  | 1 => match followAt s x.source.index with
    | some f => f.o.gen == x.source.gen && !(s.mix.blends.any (fun b => playsBlend s b.o.idx x)) &&
      ((serviceProgramme s f (if s.set.mode = .sentry then f.serving else f.current)).map (·.idx)) == some p.idx
    | none => false
  | 2 => match blendAt s x.source.index with
    | some b => s.set.mode == .sentry && b.o.gen == x.source.gen && b.a == programmeHandle p
    | none => false
  | _ => false

/-- Does an output play in the present mode, with the TDM ports and rate converters free of a fault (R291, R543)? In COMPAT only the emulation's, on TDM0 (R554). -/
def pcmRuns (s : State) (x : PcmOut) : Bool :=
  unitUp s 9 && runsIn s.set.mode x.o.sentry && (s.set.mode != .compat || (x.port == 0 && x.slot == 0)) &&
  (s.set.mode != .sentry || decide ((s.prog.pcms.filter (fun y => y.o.sentry && y.o.serial < x.o.serial)).length < 2))

/-- Does a TDM port run: not in HOLD, the clock of I9 runs, and a follower's frames are good (R94, R289, R291)? -/
def portClocked (s : State) (port : Nat) : Bool :=
  s.set.mode != .hold && clockRuns s 9 && !s.mix.followerLost.getD port false

/-- Does an output's port carry audio; one without a port needs none (R283)? -/
def portRuns (s : State) (port : Nat) : Bool := 4 ≤ port || portClocked s port

/-- Frames fade along a curve whose shape is not stated: from a point of it in, or to silence (R285, R287, R291). -/
def fadeFrames (up : Bool) (pos len : Nat) (l : List AudioFrame) : List AudioFrame :=
  l.zipIdx.map (fun x =>
    let k := min len (pos + x.2)
    let g : Int := Config.fadeCurve (if up then k else len - k) len
    if k = len then (if up then x.1 else { x.1 with l := 0, r := 0 })
    else { x.1 with l := quot (x.1.l * g) 16777216, r := quot (x.1.r * g) 16777216 })

/-- A value at a gain in 0.5 dB (R283). -/
def gained (g : Int) (v : Int) : Int := if g = 0 then v else quot (v * gainOfDb g 2) 16777216

/-- One frame after channel mode, gain and mute, as 24-bit values (R283, R286). -/
def mixFrame (x : PcmOut) (f : AudioFrame) : AudioFrame :=
  let half := quot (f.l + f.r) 2
  let m : Int × Int := match x.chMode with
    | 0 => (f.l, f.r)
    | 1 => (half, half)
    | 2 => (f.l, f.l)
    | 3 => (f.r, f.r)
    | _ => (f.r, f.l)
  if x.mute = 1 then { f with l := 0, r := 0 } else { f with l := clamp24 (gained x.gain m.1), r := clamp24 (gained x.gain m.2) }

/-- The next frames of an output's FIFO as it plays them: over a cross-fade with the source that it leaves, and over a fade-in (R284,
R285, R286). -/
def playFrames (s : State) (n : Nat) (x : PcmOut) : PcmOut × List AudioFrame :=
  let l := x.fifo.take n
  let y := l.zipIdx.map (fun z =>
    if z.2 < x.cross.1 then fadeFrame (curvePoints s 0) (x.cross.2 - (x.cross.1 - z.2)) x.cross.2 z.1 (x.leaving.getD z.2 { z.1 with l := 0, r := 0 })
    else z.1)
  let y := if x.fade.1 = 0 then y else fadeFrames true (x.fade.2 - x.fade.1) x.fade.2 y
  ({ x with fifo := x.fifo.drop n, leaving := x.leaving.drop n, cross := (x.cross.1 - n, x.cross.2), fade := (x.fade.1 - n, x.fade.2) }, y)

/-- Is an output bound to a ring (R286)? -/
def pcmBound (s : State) (x : PcmOut) : Bool := (boundRing s 2 5 { index := x.o.idx, gen := x.o.gen }).isSome

/-- Frames of its source reach an output's FIFO. A playing output that no ring takes has played as many as came (R285). -/
def feedPcm (s : State) (rate : Nat) (l : List AudioFrame) (x : PcmOut) : PcmOut :=
  let y := to48 rate x.carry l
  let x := { x with fifo := x.fifo ++ y.1, carry := y.2 }
  if x.playing && !pcmBound s x then
    let z := playFrames s (x.fifo.length - 12 * x.depth) x
    { z.1 with played := z.1.played ++ z.2 }
  else x

/-! ### TDM and I2S frames (R288, R289, R291) -/

/-- A slot's 32 bits: the 24 of the value first, then 8 zeros (R288). -/
def slotWord (v : Int) : W32 := ((BitVec.ofInt 24 v).setWidth 32 : W32) <<< 8

/-- What a port sends of an output's frames on its slot pair: 512 BCLKs a frame, 32 a slot, after the data delay; I2S 64 after 1. Once it has
stopped its slots are idle (R287 to R289, R291). -/
def slotFrames (s : State) (idle : Bool) (x : PcmOut) (l : List AudioFrame) : Output :=
  let c := s.mix.tdm.getD x.port {}
  let i2s := c.format = 1
  .slots x.port (if i2s then 64 else 512) ((if i2s then 1 else c.delay) + 32 * x.slot) (l.map (fun f => (slotWord f.l, slotWord f.r)))
    (if idle then some (c.idle == 0) else none)

/-- Frames that an output has played, after channel mode, gain and mute, go out on its port, if that runs, over the port's fade-in (R95,
R288). -/
def drivePort (x : PcmOut) (l : List AudioFrame) (s : State) : State :=
  if 4 ≤ x.port || l.isEmpty || !portClocked s x.port then s
  else
    let y := l.map (mixFrame x)
    emit (slotFrames s (!pcmRuns s x || x.o.removing) x (if x.portFade.1 = 0 then y else fadeFrames true (x.portFade.2 - x.portFade.1) x.portFade.2 y))
      (modPcm x.o.idx (fun x => { x with portFade := (x.portFade.1 - l.length, x.portFade.2) }) s)

/-- What outputs that no ring takes have played goes out on their ports. -/
def drivePorts (s : State) : State :=
  (s.prog.pcms.filter (fun x => !x.played.isEmpty && !pcmBound s x)).foldl (fun t x =>
    drivePort x x.played (modPcm x.o.idx (fun x => { x with played := [] }) t)) s

/-- What an output has of its source is left over a cross-fade of a number of frames (R269, R270, R284). -/
def leaveSource (n : Nat) (x : PcmOut) : PcmOut :=
  { x with leaving := x.fifo, fifo := [], carry := 0, cross := if x.playing then (n, n) else (0, 0) }

/-- An output plays its next `n` frames, faded to silence, and fades in again over `m` (R285, R287, R291). -/
def fadeOut (n m : Nat) (x : PcmOut) : PcmOut :=
  { x with played := x.played ++ fadeFrames false 0 n (x.fifo.take n), fifo := x.fifo.drop n, fade := (m, m) }

/-- Outputs stop over a fade-out; the slots of those that no ring takes are idle from then on (R289, R291). -/
def stopPcms (n : Nat) (pick : PcmOut → Bool) (s : State) : State :=
  let stopped := s.prog.pcms.filter (fun x => pick x && x.playing)
  (stopped.filter (fun x => portClocked s x.port && x.port < 4 && !pcmBound s x)).foldl (fun t x => emit (slotFrames t true x []) t)
    (drivePorts { s with prog := { s.prog with pcms := s.prog.pcms.map (fun x =>
      if pick x && x.playing then { fadeOut n 0 x with playing := false } else x) } })

/-- An output turns to a source: a cross-fade of 10 ms on curve 0; without one it plays out and falls silent (R284). -/
def turnTo (cls : Nat) (h : Handle) (x : PcmOut) : PcmOut :=
  if x.source = h && x.sourceCls = cls then x
  else if cls = 3 then { fadeOut 480 0 x with source := h, sourceCls := cls, fifo := [], playing := false }
  else { leaveSource 480 x with source := h, sourceCls := cls }

/-- Frames of a pair's branches reach it, and what Scarf plays the outputs that play it. -/
def feedPair (br rate : Nat) (l : List AudioFrame) (i : Nat) (s : State) : State := match blendAt s i with
  | none => s
  | some b =>
    let x := feedBlend s br rate l b
    let t := modBlend i (fun _ => x.1) s
    drivePorts { t with prog := { t.prog with pcms := t.prog.pcms.map (fun y => if playsBlend s i y then feedPcm s 48000 x.2 y else y) } }

/-! ### Released audio (R185, R204, R206) -/

/-- Audio of a programme is released: it is measured, for its record or for level matching, and goes to the pairs and outputs that take it (R185, R204, R206, R276, R278,
R284). -/
def deliverAudio (i : Nat) (l : List AudioFrame) (s : State) : State := match programmeAt s i with
  | none => s
  | some p =>
    let k := kindAt s p.reception
    let rate := audioRate k p.decl
    let per := ticksPerSecond / rate
    let h := programmeHandle p
    let s := modProgramme i (fun p => if p.measured || s.mix.blends.any (fun b => b.a == h || b.b == h) then { p with
      loud := loudTake per (audioChannels k p.decl) l p.loud
      concealed := p.concealed + per * (l.filter (·.concealed)).length } else p) s
    let s := (s.mix.blends.filter (fun b => b.a == h)).foldl (fun t b => feedPair 0 rate l b.o.idx t) s
    let s := (s.mix.blends.filter (fun b => b.b == h)).foldl (fun t b => feedPair 1 rate l b.o.idx t) s
    drivePorts { s with prog := { s.prog with pcms := s.prog.pcms.map (fun x => if playsProgramme s p x then feedPcm s rate l x else x) } }

/-- Audio of an analogue reception reaches its programme's 2 ms hold, and what leaves the hold is released (R185). -/
def feedAudio (i : Nat) (k : Kind) (l : List AudioIn) (s : State) : State :=
  match s.prog.programmes.find? (fun p => p.reception == i) with
  | none => s
  | some p =>
    let n := audioRate k {} / 1000
    let x := releaseHold n (l.foldl (holdFrame n (ticksPerSecond / audioRate k {})) p)
    deliverAudio p.idx x.2 (modProgramme p.idx (fun _ => x.1) s)

end Sys2Proof.Machine
end

