-- ==== Sys2Proof/Machine/Blocks.lean ====
section
/-!
DEFINITION. Blocks.lean: the samples of a chisel chain: its FIR and resampler, sample blocks with their scale, their output ring
and IQ Shavings, and the closing of a block, which the owner's engine takes (chapters 06 to 08).
-/

namespace Sys2Proof.Machine

/-! ### From the FIR's input to the chain's outputs (R152, R159, R160) -/

/-- Ticks of input that one sample given to a chain stands for: an input of the FIR, or of the sub-band itself for a tap (R152). -/
def ticksPerIn (k : Kind) : Nat := if k = .tap then ticksPerOut .tap else ticksPerFir k

/-- What outputs are divided by to be referred to the antenna: S by its sum of taps, or 1 for a bank that is applied unscaled and for
a tap; samples are held times its sign (R160). -/
def bankScale (s : State) (c : Chain) : Nat :=
  if c.kind = .tap then 1
  else if bankUnscaled s c.bank.index || sumInt (bankTaps s c.bank.index) = 0 then 131072
  else (sumInt (bankTaps s c.bank.index)).natAbs

/-- The taps as applied, with the sign that leaves the scale positive (R160). -/
def bankApplied (s : State) (c : Chain) : List Int :=
  let taps := bankTaps s c.bank.index
  if !bankUnscaled s c.bank.index && sumInt taps < 0 then taps.map (- ·) else taps

/-- The FIR's output: tap 0 on the newest sample, I and Q alike (R159, R160). -/
def firOutput (taps : List Int) (line : List (Int × Int)) : Int × Int :=
  (taps.zip line).foldl (fun a x => (a.1 + x.1 * x.2.1, a.2 + x.1 * x.2.2)) (0, 0)

/-- One input sample passes the FIR and the resampler; the second part is the output, when one falls due (R152, R160). The
resampler of a DAB chain computes it from the FIR's latest outputs in a way that is not stated (log 135). -/
def firTake (taps : List Int) (c : Chain) (x : Int × Int) : Chain × Option (Int × Int) :=
  if c.kind = .tap then (c, some x)
  else
    let line := (x :: c.fir).take 96
    let y := firOutput taps line
    let res := if c.kind = .dab then (y :: c.resamp).take 71 else []
    let t := c.firTicks + ticksPerIn c.kind
    let due := ticksPerOut c.kind ≤ t
    let left := if due then t - ticksPerOut c.kind else t
    ({ c with fir := line, resamp := res, firTicks := left },
      if due then some (if c.kind = .dab then Config.resample res left else y) else none)

/-- Input samples pass a chain's stages; answers its outputs, oldest first. -/
def firRun (taps : List Int) : Chain → List (Int × Int) → Chain × List (Int × Int)
  | c, [] => (c, [])
  | c, x :: xs =>
    let a := firTake taps c x
    let b := firRun taps a.1 xs
    (b.1, a.2.toList ++ b.2)

/-! ### Sample blocks (R167 to R170) -/

/-- Does a sample, given in parts of `d` at the scale of exponent 24, clip at exponent `e` (R168)? -/
def sampleClips (d e : Nat) (x : Int) : Bool := 32767 * d * (2 : Int) ^ (24 - e) < x || x < -32768 * d * (2 : Int) ^ (24 - e)

/-- The largest exponent at which no sample clips; 0 when one clips even there (R168). -/
def blockExponent (d : Nat) (l : List (Int × Int)) : Nat :=
  ((List.range 25).filter (fun e => l.all (fun x => !sampleClips d e x.1 && !sampleClips d e x.2))).foldl max 0

/-- A sample at an exponent, saturated; a value between two steps goes to either, which the manual leaves open (log 17). -/
def scaleSample (d e : Nat) (up : Bool) (x : Int) : Int :=
  let d : Int := d * 2 ^ (24 - e)
  let q := x / d
  let v := if x % d = 0 then q else if up then q + 1 else q
  clampInt (-32768) 32767 v

/-- Scale the samples of a block, drawing one open choice for each component. -/
def scaleBlock (d e : Nat) (l : List (Int × Int)) (s : State) : List (Int × Int) × State :=
  (l.zipIdx.map (fun x => (scaleSample d e (Config.freeBool (s.fresh + 2 * x.2)) x.1.1,
                           scaleSample d e (Config.freeBool (s.fresh + 2 * x.2 + 1)) x.1.2)),
    { s with fresh := s.fresh + 2 * l.length })

/-- The payload of an IQ Shaving (R170). -/
def iqPayload (k : Kind) (b : Block) : List Byte :=
  leBytes 1 b.exponent ++ leBytes 1 (kindCode k) ++ leBytes 2 b.samples.length ++ leBytes 2 b.unsettled ++ zeros 2 ++
  b.samples.flatMap (fun x => leInt 2 x.1 ++ leInt 2 x.2)

/-- The lost count of GAP_BEFORE for a block whose first output is of antenna instant `stamp`: the whole blocks that fit in the span
since the last output, with those owed besides; a chain that made no output yet has no span (R118, R172, R173). -/
def gapCount (c : Chain) (stamp : Tick) : Option Nat := match c.gapLost with
  | none => none
  | some k =>
    let span := match c.lastOut with
      | some e => (stamp - e).toInt.toNat
      | none => 0
    some (satNat 65535 (k + span / (256 * ticksPerOut c.kind)))

/-- Does the engine of a context take its blocks: it works and makes progress (R169, R533)? A tap has no engine. -/
def engineTakes (s : State) (o : ChainOwner) : Bool := match o with
  | .tap _ => true
  | _ => match s.health.contexts.find? (fun x => x.1 == o) with
    | some (_, e) => let g := s.health.engines.getD e {}
      g.working && g.stalledMs = 0
    | none => true

/-- The four most recent blocks of a list. -/
def lastFour (l : List Block) : List Block := l.drop (l.length - 4)

/-- Put a block into the chain's output ring of four. One that the engine has not taken is overwritten when a fifth comes, and the
next one taken carries the loss (R169). Answers the ring, how many blocks of it are not taken, and how many were overwritten. -/
def ringPush (takes : Bool) (b : Block) (l : List Block) (untaken : Nat) : List Block × Nat × Nat :=
  if takes then (lastFour (l ++ [b]), 0, 0)
  else if untaken < 4 then (lastFour (l ++ [b]), untaken + 1, 0)
  else match lastFour l with
    | d :: n :: r => ({ n with gap := some (1 + n.gap.getD 0 + d.gap.getD 0) } :: r ++ [b], 4, 1)
    | r => (r ++ [b], 4, 1)

/-- The open block of a chain as it is written: its time-stamp, its epoch, how many of its samples are unsettled, and the gap before
it (R109, R110, R167, R168). -/
def openBlock (c : Chain) (e : Nat) (sm : List (Int × Int)) : Block :=
  { stamp := c.openStamp, epoch := c.epoch, exponent := e, unsettled := c.openUnsettled, gap := c.openGap, samples := sm }

/-- The chain after its open block is written: its counters and its output ring, which lost `lost` blocks (R167 to R170, R176). -/
def chainAfter (blk : Block) (ring : List Block) (untaken lost : Nat) (c : Chain) : Chain :=
  { c with
    exponent := blk.exponent, blocks := c.blocks + 1, gaps := if blk.gap.isSome then c.gaps + 1 else c.gaps
    openSamples := [], openUnsettled := 0, openGap := none, ring := ring, untaken := untaken
    overruns := c.overruns + BitVec.ofNat 32 lost }

/-- The IQ Shaving of a block, where the chain's IQ output is bound to a ring (R169, R378). -/
def deliverBlock (o : ChainOwner) (k : Kind) (blk : Block) (s : State) : State :=
  match boundRing s 0 (roleCode o) (ownerHandle s o) with
  | some ring => offerShaving ring
      { kind := 0x01, unsettled := blk.unsettled ≠ 0, gap := blk.gap.isSome, lost := blk.gap.getD 0, source := ownerHandle s o
        epoch := blk.epoch, stamp := blk.stamp } (iqPayload k blk) 0 s
  | none => s

/-- A reception counts the blocks of its chain that follow a gap (R206). -/
def countGap (o : ChainOwner) (blk : Block) (s : State) : State := match o with
  | .reception i => modReception i (fun r => { r with gapsSeen := r.gapsSeen + blk.gap.isSome.toNat }) s
  | _ => s

/-! ### What an engine does with a block (R136, R169, R533, R534) -/

/-- The blocks that an engine takes with a new one: those of the ring that it has not taken, oldest first (R169, R534). -/
def takenBlocks (ring : List Block) (untaken : Nat) (b : Block) : List Block := ring.drop (ring.length - untaken) ++ [b]

/-- Ticks from the output that was due to the first of a block, 0 at the start (R184, R186). -/
def blockGap (s : State) (d : Demod) (b : Block) : Nat := match d.due with
  | some i => ticksSince s i (inNow s { epoch := b.epoch, tick := b.stamp })
  | none => 0

/-- The integrated loudness of a reception's programmes starts again (R204, R235). -/
def restartLoudness (i : Nat) (s : State) : State :=
  { s with prog := { s.prog with programmes := s.prog.programmes.map (fun p =>
      if p.reception = i then { p with loud := loudRestart p.loud } else p) } }

/-- Taken by a reception's engine: it is demodulated, and an analogue one's audio goes on. MPX that no ring takes is not kept;
a change of de-emphasis restarts the integrated loudness (R185, R194, R197, R204, R216). -/
def receptionTakes (i : Nat) (s : State) (b : Block) : State := match receptionAt s i with
  | none => s
  | some r =>
    if analogue r.kind then
      let x := demodBlock r (blockGap s r.dem b) b
      let bound := (boundRing s 1 0 { index := i, gen := r.gen }).isSome
      let r' := if bound then x.1 else { x.1 with dem := { x.1.dem with fm := { x.1.dem.fm with out := [] } } }
      let s := feedAudio i r.kind x.2 (modReception i (fun _ => r') s)
      if r.dem.opts.deemph = r.ana.deemph then s else restartLoudness i s
    else modReception i (fun r => ofdmBlock r (blockGap s r.dem b) b) s

/-- A branch's outputs wait beside its reception's chain (R136). -/
def branchTakes (i : Nat) (s : State) (b : Block) : State := match s.prog.branches.find? (·.o.idx == i) with
  | none => s
  | some x =>
    let l := blockOutputs (ticksPerOut x.chain.kind) b
    modReception x.reception (fun r =>
      if analogue r.kind then { r with dem := { r.dem with branch := r.dem.branch ++ l } }
      else { r with ofdm := { r.ofdm with branch := r.ofdm.branch ++ l } }) s

/-- What a probe measures with: a searching reception of its kind, with RDS stream 0, without audio (R261, R262). -/
def probeReception (p : Probe) : Reception :=
  { kind := p.chain.kind, chain := p.chain, ana := { streams := 1, overdev := 1500 }, dem := { p.dem with opts := { streams := 1, overdev := 1500 } }
    ofdm := p.ofdm, dig := { occupancy := 6 }, rds := p.rds }

/-- Taken by a probe's engine: its demodulation and its RDS stream go on, for identity and metric, and so that a retarget can take
them over (R261, R262, R270). -/
def probeTakes (i : Nat) (s : State) (b : Block) : State :=
  { s with prog := { s.prog with probes := s.prog.probes.map (fun p =>
      if p.o.idx = i then
        let r := probeReception p
        let y := if analogue r.kind then (demodBlock r (blockGap s r.dem b) b).1 else ofdmBlock r (blockGap s r.dem b) b
        { p with
          dem := { y.dem with fm := { y.dem.fm with out := [] } }, ofdm := { y.ofdm with marks := [] }
          rds := y.rds.map (fun x => rdsDrain x.bits.length x) }
      else p) } }

/-- A chain's engine takes blocks, one after another. -/
def engineTake (o : ChainOwner) (l : List Block) (s : State) : State := match o with
  | .reception i => l.foldl (receptionTakes i) s
  | .branch i => l.foldl (branchTakes i) s
  | .probe i => l.foldl (probeTakes i) s
  | .tap _ => s

/-- A chain writes its open block, if it holds samples: scaled, into its output ring, as an IQ Shaving, and to its engine (R167 to
R170). -/
def closeBlock (o : ChainOwner) (s : State) : State :=
  match chainOf s o with
  | none => s
  | some c =>
    if c.openSamples.isEmpty then s
    else
      let d := bankScale s c
      let e := blockExponent d c.openSamples
      let x := scaleBlock d e c.openSamples s
      let blk := openBlock c e x.1
      let takes := engineTakes s o
      let pushed := ringPush takes blk c.ring c.untaken
      let s := modChain o (chainAfter blk pushed.1 pushed.2.1 pushed.2.2) x.2
      let s := if 0 < pushed.2.2 then noteLog 0x0403 0xFF (handleNum (ownerHandle s o)) pushed.2.2 s else s
      let s := deliverBlock o c.kind blk (countGap o blk s)
      if takes then engineTake o (takenBlocks c.ring c.untaken blk) s else s

end Sys2Proof.Machine
end

