-- ==== Sys2Proof/Machine/LinkOps.lean ====
section
/-!
DEFINITION. LinkOps.lean: link channels, the regulatory profile as applied, and the harmonics of the link in windows
(R146, R407, R435 to R442).
-/

namespace Sys2Proof.Machine

/-- A sweep width in Hz by its code (R407). -/
def widthHz (code : Nat) : Nat := if code = 0 then 150000 else if code = 1 then 300000 else 600000

/-- A centre clamped into the nearer range, 670 MHz going up, and then to the 25 kHz raster, halves up (R407). -/
def clampCentre (f : Nat) : Nat :=
  let f := if f < 670000000 then clampNat 410000000 480000000 f else clampNat 860000000 930000000 f
  (f + 12500) / 25000 * 25000

/-- Does a sub-band permit a channel: the whole sweep inside it, and its width allowed (R435, R436)? -/
def subPermits (b : SubBand) (f width : Nat) : Bool :=
  width ≤ b.width && b.start + widthHz width / 2 ≤ f && f + widthHz width / 2 ≤ b.stop

/-- The index of the first sub-band that permits a channel. -/
def permittedBy (p : Profile) (f width : Nat) : Option Nat := p.subs.findIdx? (fun b => subPermits b f width)

/-- The raster point nearest a centre that a sub-band permits for a width (R440 step 2). -/
def nearestIn (b : SubBand) (f width : Nat) : Option Nat :=
  let h := widthHz width / 2
  let lo := (b.start + h + 24999) / 25000 * 25000
  let hi := (b.stop - h) / 25000 * 25000
  if width ≤ b.width && b.start + 2 * h ≤ b.stop && lo ≤ hi then some (clampNat lo hi f) else none

/-- The distance of two frequencies. -/
def apart (a b : Nat) : Nat := if a < b then b - a else a - b

/-- Of two raster points, the nearer one to a centre, the lower on a tie (R440). -/
def nearer (f a b : Nat) : Nat :=
  if apart f a < apart f b then a else if apart f b < apart f a then b else min a b

/-- A transmit channel moved into the profile: its width clamped, its centre moved to the nearest permitted point; none when
no point is permitted (R440). A permitted channel stays. -/
def moveChannel (p : Profile) (f width : Nat) : Option (Nat × Nat) :=
  let widest := (p.subs.map (·.width)).foldl max 0
  let w := satNat widest width
  if (permittedBy p f w).isSome then some (f, w)
  else
    let pts := p.subs.filterMap (fun b => nearestIn b f w)
    (pts.foldl (fun acc x => some (match acc with
      | none => x
      | some y => nearer f y x)) none).map (fun x => (x, w))

/-- A transmit channel as applied under the profile in force; without one, as set (R437, R440). -/
def appliedChannel (s : State) (f width : Nat) : Nat × Nat := match s.sec.profile with
  | some p => (moveChannel p f width).getD (f, width)
  | none => (f, width)

/-- The highest power a profile permits, in 0.5 dB (R441). -/
def highestPower (p : Profile) : Int := (p.subs.map (·.power)).foldl max (-20)

/-- The lowest maximum power of a profile, in 0.5 dB (R442). -/
def lowestPower (p : Profile) : Int := (p.subs.map (·.power)).foldl min 60

/-- The channels in use: the beacon channel and the channel set, each after R440 where the device transmits on it: a gatherer on its
beacon channel, a node on the set (R146, R447). -/
def channelsInUse (s : State) : List (Nat × Nat) :=
  let c := s.set.link
  if c.role = 2 then
    appliedChannel s c.beacon 1 :: s.set.gather.channels.map (fun x => (x.centre, x.width))
  else if c.role = 1 then
    let set := if s.link.gatherer.isSome then s.link.net.channels else s.set.gather.channels
    (c.beacon, 1) :: set.map (fun x => appliedChannel s x.centre x.width)
  else []

/-- The harmonics of a channel that reach into a band, in kHz (R146). -/
def harmonicsIn (band : Nat × Nat) (ch : Nat × Nat) : List Nat :=
  let h := widthHz ch.2 / 2
  ([2, 3, 4].filter (fun n => n * (ch.1 - h) ≤ band.2 && band.1 ≤ n * (ch.1 + h))).map (fun n => n * ch.1 / 1000)

/-- Post LINK_HARMONIC for every harmonic of the channels in use inside the open windows named (R146). -/
def noteHarmonics (ws : List Nat) (cause : Option Nat) (s : State) : State :=
  ws.foldl (fun t w =>
    if (windowAt t w).state == .open then
      ((channelsInUse t).flatMap (harmonicsIn (windowBand t w))).foldl
        (fun u k => logNote true 0x0304 0xFF (handleNum (windowHandle u w)) k cause u) t
    else t) s

end Sys2Proof.Machine
end

