-- ==== Sys2Proof/Machine/Objects.lean ====
section
/-!
DEFINITION. Objects.lean: what happens to receptions, programmes and the other objects as they are covered, lost, stopped,
shed and removed (R38, R118, R183, R208 to R214, R248, R249, R336, R538, R539).
-/

namespace Sys2Proof.Machine

/-! ### Programmes -/

/-- Is a programme's standard digital? -/
def digitalProgramme (s : State) (p : Programme) : Bool := !analogue (kindAt s p.reception)

/-- The decode charge now: 0 when not selected (R177, R208). -/
def decodeCharge (p : Programme) : Nat := if p.selected then p.charge else 0

/-- The programme event payload (R208). -/
def programmePayload (s : State) (p : Programme) : List Byte :=
  handleBytes (ownerHandle s (.reception p.reception)) ++ leBytes 4 p.decl.service ++ leBytes 1 p.decl.component ++
  leBytes 1 p.decl.sub ++ leBytes 1 p.decl.codec ++ zeros 1 ++ leBytes 2 p.decl.bitRate ++ leBytes 2 (decodeCharge p)

/-- Post a programme event (R384). -/
def postProgramme (code i : Nat) (cause : Option Nat) (s : State) : State := match programmeAt s i with
  | some p => post code (programmeHandle p) (programmePayload s p) cause s
  | none => s

/-- Post PROGRAMME_SILENCE (R205). -/
def postSilence (p : Programme) (began : Bool) (at' : Instant) (s : State) : State :=
  post 0x8605 (programmeHandle p)
    (leBytes 1 began.toNat ++ zeros 3 ++ leBytes 2 at'.epoch.toNat ++ zeros 2 ++ leBytes 8 at'.tick.toNat) none s

/-- A digital programme stops decoding: its silence timer is reset, and a reported silence ends; nothing is left to conceal with (R235,
R608). -/
def decodingStops (i : Nat) (s : State) : State := match programmeAt s i with
  | none => s
  | some p =>
    let s := if p.silent then postSilence p false p.lastAudio s else s
    modProgramme i (fun p => { p with
      silent := false, belowSince := none, belowMs := 0, audioNext := none, lastGood := [], lastUnitFailed := false }) s

/-- Is a programme's reception running in the present mode and not shed? -/
def receptionRuns (s : State) (i : Nat) : Bool :=
  ((receptionAt s i).map (fun r => chainStarted r.chain && !r.shed && !r.removing)).getD false

/-- Does a programme have audio: analogue ones always, digital ones while selected and decoding (R284, R608)? -/
def hasAudio (s : State) (p : Programme) : Bool :=
  receptionRuns s p.reception &&
  (!digitalProgramme s p || (p.selected && !p.suspended && p.shedStep = 0 && p.absentAt.isNone))

/-! ### Alerts (R246 to R249) -/

/-- The programme of the service that carries an alert, if it is tracked: an FM reception's own one, but for another network's
announcements (R247, R249). -/
def alertTarget (s : State) (r : Reception) (a : Alert) : Option Programme :=
  s.prog.programmes.find? (fun p => p.reception == r.idx && (if analogue r.kind then a.source ≤ 2 else p.decl.service == a.target))

/-- The ALERT payload (R249). -/
def alertPayload (s : State) (r : Reception) (a : Alert) (began : Bool) (reason : Nat) (at' : Instant) : List Byte :=
  let target := (alertTarget s r a).map programmeHandle
  leBytes 2 a.number.toNat ++ leBytes 1 began.toNat ++ leBytes 1 a.cls ++ leBytes 1 a.type ++ leBytes 1 a.source ++
  leBytes 1 (if began then 0 else reason) ++ leBytes 1 a.cluster ++ leBytes 4 a.target ++
  handleBytes (target.getD {}) ++ leBytes 2 at'.epoch.toNat ++ zeros 6 ++ leBytes 8 at'.tick.toNat

/-- The latest complete text of the target programme, for the alert Shaving: character set and text, at most 128 bytes
(R249). An FM reception's radiotext belongs to its one programme. -/
def alertText (s : State) (r : Reception) (a : Alert) : Byte × List Byte :=
  match (alertTarget s r a).bind (·.label) with
  | some l => (l.1, l.2.2.take 128)
  | none => (0, [])

/-- Offer a unit of a side-data or compressed-audio output: the first one after a migration break carries GAP_BEFORE with a lost count
of 0 (R536). -/
def offerUnit (code cls : Nat) (src : Handle) (n : Nat) (h : ShavingHdr) (pay : List Byte) (s : State) : State :=
  let owed := s.health.breaks.contains (code, cls, src)
  offerShaving n { h with gap := h.gap || owed } pay 0
    { s with health := { s.health with breaks := s.health.breaks.filter (fun x => x != (code, cls, src)) } }

/-- Report an alert's begin or end: ALERT, the alert Shaving if bound, and in COMPAT IRQ_FLAGS.ALERT (R249, R557). -/
def reportAlert (i : Nat) (a : Alert) (began : Bool) (reason : Nat) (at' : Instant) (cause : Option Nat) (s : State) : State :=
  match receptionAt s i with
  | none => s
  | some r =>
    let h : Handle := { index := r.idx, gen := r.gen }
    let pay := alertPayload s r a began reason at'
    let s := post 0x8507 h pay cause s
    let s := if s.set.mode = .compat then { s with compat := { s.compat with irq := s.compat.irq ||| 8 } } else s
    match boundRing s 11 0 h with
    | none => s
    | some n =>
      let t := a.text
      offerUnit 11 0 h n { kind := 0x30, source := h, prog := ((alertTarget s r a).map (·.idx)).getD 0xFFFF, epoch := at'.epoch,
                           stamp := at'.tick }
        (pay ++ leBytes 2 t.2.length ++ [t.1] ++ zeros 1 ++ t.2) s

/-- End the active alerts of a reception that a test picks (R248). -/
def endAlerts (i reason : Nat) (pick : Alert → Bool) (at' : Instant) (cause : Option Nat) (s : State) : State :=
  match receptionAt s i with
  | none => s
  | some r =>
    let s := (r.alerts.filter pick).foldl (fun t a => reportAlert i a false reason at' cause t) s
    modReception i (fun r => { r with alerts := r.alerts.filter (fun a => !pick a) }) s

/-! ### The emulation's view of acquisition (R557) -/

/-- STATUS.ACQUIRED as the receptions of the channels stand: ACQUIRED or HOLDING. -/
def compatAcquired (s : State) : BitVec 4 :=
  (List.range 4).foldl (fun v c =>
    let on : Bool := match s.compat.chRx.getD c none with
      | some i => ((receptionAt s i).map (fun r => r.chain.covered && !r.removing && r.rx != .searching)).getD false
      | none => false
    if on then v ||| (1#4 <<< c) else v) 0

/-- A change of STATUS.ACQUIRED sets IRQ_FLAGS.ACQ_CHANGE (R557). -/
def compatRefresh (s : State) : State :=
  if s.set.mode = .compat && compatAcquired s != s.compat.acquired then
    { s with compat := { s.compat with acquired := compatAcquired s, irq := s.compat.irq ||| 2 } }
  else s

/-! ### Acquisition, loss and coverage (R118, R181, R183) -/

/-- Post RECEPTION_LOST (R183, R224). -/
def postLost (i cause : Nat) (at' : Instant) (by' : Option Nat) (s : State) : State :=
  post 0x8501 (ownerHandle s (.reception i))
    (leBytes 1 cause ++ zeros 3 ++ leBytes 2 at'.epoch.toNat ++ zeros 2 ++ leBytes 8 at'.tick.toNat) by' s

/-- A reception in SEARCHING: entering it is a loss, and announcements seen once are forgotten (R206, R248). -/
def enterSearching (r : Reception) : Reception :=
  { r with rx := .searching, losses := if r.rx = .searching then r.losses else r.losses + 1, lastSettled := none, alertSeen := [] }

/-- A reception back in SEARCHING: what acquisition is judged by starts again, and a digital one finds its signal anew with its
de-interleave reservation cleared (R182, R183, R194, R224, R227). -/
def searchAgain (s : State) (r : Reception) : Reception :=
  { enterSearching r with
           since := now s, stereo := none, syncAudio := false, goodRun := 0, badRun := 0, noSync := 0, announced := none
           dem := { r.dem with settledFor := 0, moments := [], lowFor := 0 }
           ofdm := { r.ofdm with
             stage := .coarse, symbol := 0, prev := none, cells := [], soft := [], found := false, deint := [], marks := []
             past := [] } }

/-- RECEPTION_ACQUIRED is posted and the reception is ACQUIRED (R183). -/
def acquire (i : Nat) (at' : Instant) (s : State) : State :=
  match receptionAt s i with
  | none => s
  | some r =>
    let fl := if analogue r.kind then (r.stereo == some true).toNat + 2 * r.syncAudio.toNat else 0
    let s := modReception i (fun r => { r with rx := .acquired, bridge := false }) s
    compatRefresh (post 0x8500 (ownerHandle s (.reception i))
      (leBytes 4 ((now s - r.since) / 245760) ++ leBytes 2 at'.epoch.toNat ++ leBytes 1 fl ++ zeros 1 ++
        leBytes 8 at'.tick.toNat) none s)

/-- A reception leaves ACQUIRED or HOLDING with a cause, and its alerts end: with reason 2 when it became uncovered,
otherwise with reason 1 (R183, R248). In SEARCHING nothing is lost. -/
def loseReception (i cause : Nat) (at' : Instant) (by' : Option Nat) (s : State) : State :=
  match receptionAt s i with
  | none => s
  | some r =>
    let reason := if cause = 3 then 2 else 1
    if r.rx = .searching then endAlerts i reason (fun _ => true) at' by' (modReception i enterSearching s)
    else
      let s := postLost i cause at' by' (restartLoudness i (modReception i (searchAgain s) s))
      compatRefresh (endAlerts i reason (fun _ => true) at' by' s)

/-- RDS synchronisation is given up, with the bits and the bit clocks (R181, R187). -/
def freshRds (r : Reception) : Reception :=
  { r with rds := r.rds.map (fun x => { x with sync := false, pos := 0, recent := [], history := [], group := none, eRun := []
                                               clock := 0, touched := false, bits := [] }) }

/-- OFDM demodulation that starts anew; its running sums run on (R236). -/
def freshOfdm (o : Ofdm) : Ofdm := { sums := o.sums, echoes := o.echoes }

/-- Demodulators as they start, with the options that are set; what has been delivered is not repeated, and running counts run on (R181,
R195, R206). -/
def freshDemod (r : Reception) : Reception :=
  { r with
    announced := none
    dem := { opts := r.ana, fm := { out := r.dem.fm.out, outNext := r.dem.fm.outNext, split := true, eq := if r.ana.eq = 1 then freshEqualiser else {} } }
    ofdm := freshOfdm r.ofdm }

/-! ### Measurement intervals (R202) -/

/-- A reception's running counts: the RDS block counts of its streams, its control-channel counts, its gaps and its
reconfigurations (R206, R237). -/
def rxCounts (r : Reception) : List Nat :=
  (List.range 4).flatMap (fun i => let x := r.rds.getD i {}
    [x.received, x.corrected, x.bad]) ++ padNat 4 r.control ++ [r.gapsSeen, r.reconfigs] ++ padNat 10 r.ofdm.sums
where
  /-- The first `n` numbers of a list, 0 where it is shorter. -/
  padNat (n : Nat) (l : List Nat) : List Nat := (List.range n).map (fun i => l.getD i 0)

/-- A measurement interval of a programme begins at an antenna instant (R202, R203). -/
def beginInterval (s : State) (at' : Instant) (p : Programme) : Programme :=
  { p with intervalAt := some at', interval := p.nextInterval, concealed := 0, units := 0, unitFails := 0, checks := []
           loud := { p.loud with peak := none }
           marks := ((receptionAt s p.reception).map rxCounts).getD []
           echoMark := ((receptionAt s p.reception).map (fun r => r.ofdm.echoes)).getD [] }

/-- The measures of an analogue reception start again with the interval of its programme (R203). -/
def beginMeasures (i : Nat) (s : State) : State :=
  modReception i (fun r => if analogue r.kind then
    { r with dem := { r.dem with meas := {} }, rds := r.rds.map (fun x => { x with level := (0, 0) }) } else r) s

/-- The intervals of a reception's measured programmes begin with its first settled output (R202). -/
def startIntervals (i : Nat) (at' : Instant) (s : State) : State :=
  let due (p : Programme) : Bool := p.reception == i && p.measured && p.intervalAt.isNone
  let s := if s.prog.programmes.any due then beginMeasures i s else s
  { s with prog := { s.prog with programmes := s.prog.programmes.map (fun p => if due p then beginInterval s at' p else p) } }

/-- The audio that programmes of a reception hold is released, and nothing of it goes on (R118, R181, R185). -/
def releaseAudio (i : Nat) (s : State) : State :=
  let s := (s.prog.programmes.filter (fun p => p.reception = i)).foldl (fun t p => deliverAudio p.idx p.hold t) s
  { s with prog := { s.prog with programmes := s.prog.programmes.map (fun p =>
      if p.reception = i then { p with hold := [], audioNext := none, broken := false, fadeIn := 0 } else p) } }

/-- A reception that produces nothing has no measurement interval and no audio (R118, R239). -/
def stopIntervals (i : Nat) (s : State) : State :=
  let s := releaseAudio i s
  { s with prog := { s.prog with programmes := s.prog.programmes.map (fun p =>
      if p.reception = i then { p with intervalAt := none } else p) } }

/-- Is the owner of a chain shed? -/
def ownerShed (s : State) : ChainOwner → Bool
  | .reception i => isShed s i
  | .branch i => ((s.prog.branches.find? (·.o.idx == i)).map (fun b => b.o.shed || isShed s b.reception)).getD false
  | .probe i => ((s.prog.probes.find? (·.o.idx == i)).map (·.o.shed)).getD false
  | .tap _ => false

/-- A branch needs its window's partner and its reception (R136, R137). -/
def inputThere (s : State) (o : ChainOwner) (c : Chain) : Bool := match o with
  | .branch i => (((windowAt s c.window).partner).map (fun x =>
      (tunerAt s x.1).state == .locked || (tunerAt s x.1).state == .serving)).getD false &&
      ((s.prog.branches.find? (·.o.idx == i)).map (fun b => (receptionAt s b.reception).isSome)).getD false
  | _ => true

/-- Do samples reach a chain: its window accepts them, its converter is not offline for an element selection, the SYSPLL and
SPLL are locked, and Kerf and the Timber controller have no fault (R95, R118, R517, R543). -/
def samplesFlow (s : State) (o : ChainOwner) (c : Chain) : Bool :=
  (windowAt s c.window).state == .open && !(s.cal.adcs.getD (chainInput s o c).2 {}).interrupted &&
  s.clk.sysPll == .locked && s.clk.sPll == .locked && unitUp s 2 && unitUp s 5

/-- A probe that starts demodulates anew, with RDS stream 0 (R262). -/
def freshProbe (i : Nat) (s : State) : State :=
  { s with prog := { s.prog with probes := s.prog.probes.map (fun p =>
      if p.o.idx = i then { p with dem := {}, ofdm := {}, rds := [{}] } else p) } }

/-- A probe whose chain `c` leaves for another channel demodulates anew there (R261, R262). -/
def freshOnMove (o : ChainOwner) (c : Chain) (s : State) : State := match o with
  | .probe i => if c.pend.freq.isSome then freshProbe i s else s
  | _ => s

/-- The chain of an owner that is not being shut down: during a shut-down a chain stands as it was (R337). -/
def liveChain (s : State) (o : ChainOwner) : Option Chain := if ownerRemoving s o then none else chainOf s o

/-- A chain restarts: pending changes that are not held are applied first (R166, R175). -/
def restartChain (o : ChainOwner) (s : State) : State :=
  match chainOf s o with
  | none => s
  | some c =>
    let x := applyPending c
    let s := freshOnMove o c (modChain o (fun _ => restart s x.1) s)
    if x.2 then postBankChanged o none s else s

/-- A chain loses its channel: its block closes, pending changes are applied, and it waits with a gap counted from its last output,
or from now when it has made none (R118, R172, R175). -/
def dropChannel (o : ChainOwner) (s : State) : State :=
  let s := closeBlock o s
  match chainOf s o with
  | none => s
  | some c =>
    let x := applyPending (oweGap { c with state := .waiting, covered := false, gapAt := none
                                           lastOut := some (c.lastOut.getD (stampNow s o c)) })
    let s := freshOnMove o c (modChain o (fun _ => x.1) s)
    if x.2 then postBankChanged o none s else s

/-- A reception that searches from the start: nothing of its demodulation survives (R181). -/
def freshSearch (s : State) (r : Reception) : Reception :=
  freshDemod { enterSearching r with since := now s, stereo := none, syncAudio := false, goodRun := 0, badRun := 0, noSync := 0 }

/-- A shed reception produces nothing, but it still becomes uncovered and covered again, as its window does (R118, R539). -/
def judgeShed (cause : Option Nat) (o : ChainOwner) (c : Chain) (s : State) : State := match o with
  | .reception i =>
    let cov := chainCovered s c
    if ((receptionAt s i).map (·.shedCovered)).getD cov = cov then s
    else
      let s := modReception i (fun r => { r with shedCovered := cov }) s
      post (if cov then 0x8503 else 0x8502) (ownerHandle s o) (coveragePayload s o c) cause s
  | _ => s

/-- The outputs of a source that owe GAP_BEFORE after a break: side data and compressed audio (R239, R536). -/
def oweBreaks (cls : Nat) (h : Handle) (s : State) : State :=
  let due := (s.plan.binds.filter (fun b => b.2.1 == h && b.2.2.1 == cls && 3 ≤ b.1 && b.1 ≤ 11)).map (fun b => (b.1, cls, h))
  { s with health := { s.health with breaks := s.health.breaks.filter (fun x => !due.contains x) ++ due } }

/-- Ticks since a chain's last output. -/
def uncoveredTicks (s : State) (o : ChainOwner) (c : Chain) : Nat := match c.lastOut with
  | some t => (stampNow s o c - t).toInt.toNat
  | none => 0

/-- A reception is covered again after a span: the next Shaving of each of its side-data outputs, and of its programmes', carries GAP_BEFORE,
a FIG Shaving with the CIFs that would have fitted in the span (R118, R239). -/
def oweSide (i span : Nat) (s : State) : State :=
  let s := (s.prog.programmes.filter (fun p => p.reception == i)).foldl (fun t p => oweBreaks 4 (programmeHandle p) t)
    (oweBreaks 0 (ownerHandle s (.reception i)) s)
  modReception i (fun r => if r.kind = .dab then { r with figLost := satNat 65535 (r.figLost + span / 5898240) } else r) s

/-- Judge the coverage of one started chain: a chain that loses its channel waits, one that regains it restarts, and a
reception's change is posted (R118, R183). -/
def judgeChain (cause : Option Nat) (o : ChainOwner) (s : State) : State :=
  match chainOf s o with
  | none => s
  | some c =>
    if !chainStarted c || ownerRemoving s o then s
    else if ownerShed s o then judgeShed cause o c s
    else
      let cov := chainCovered s c && inputThere s o c
      let accepting := samplesFlow s o c
      if c.covered && !cov then
        let s := dropChannel o s
        match o with
        | .reception i =>
          let s := post 0x8502 (ownerHandle s o) (coveragePayload s o c) cause s
          stopIntervals i (modReception i freshRds (loseReception i 3 (instantNow s o c) cause s))
        | _ => s
      else if !c.covered && cov then
        let s := modChain o (fun c => { c with covered := true }) s
        let s := if accepting then restartChain o s else s
        match o with
        | .reception i =>
          let s := post 0x8503 (ownerHandle s o) (coveragePayload s o c) cause s
          oweSide i (uncoveredTicks s o c) (modReception i (freshSearch s) s)
        | _ => s
      else if cov && c.state == .waiting && accepting then restartChain o s
      else s

/-- A gap reaches a chain: its block closes, pending changes are applied and it waits; one that moves to another window is judged
there (R172, R175). -/
def gapNow (o : ChainOwner) (s : State) : State :=
  let s := holdOver o (closeBlock o s)
  match chainOf s o with
  | none => s
  | some c =>
    let x := applyPending (oweGap { c with state := .waiting, gapAt := none })
    let s := freshOnMove o c (modChain o (fun _ => x.1) s)
    let s := if x.2 then postBankChanged o none s else s
    if x.1.window = c.window then s else judgeChain none o s

/-- A gap in a chain's input. With Kerf's clock stopped it comes after the samples that are buffered (R171, R172). -/
def gapChain (o : ChainOwner) (s : State) : State :=
  match liveChain s o with
  | none => s
  | some c =>
    if !chainProducing c then s
    else if s.clk.sysPll = .locked then gapNow o s
    else modChain o (fun c => { c with gapAt := some (c.gapAt.getD (s.time.count.toNat : Int)) }) s

/-- A break in a window's input: every chain on it waits (R172). -/
def gapWindow (w : Nat) (s : State) : State := (ownersOn s w).foldl (fun t o => gapChain o t) s

/-- A probe has no window of its own: one whose window does not cover it reads any open window that does (R260, R261). -/
def seekWindow (i : Nat) (s : State) : State :=
  match chainOf s (.probe i) with
  | some c => if chainCovered s c then s else match capturedBy s c.kind c.freq with
    | some w => modChain (.probe i) (fun c => { c with window := w }) s
    | none => s
  | none => s

/-- Judge every chain on a window, and the tuner's state with them (R118, R119, R122). -/
def judgeWindow (cause : Option Nat) (w : Nat) (s : State) : State :=
  let s := (s.prog.probes.filter (fun p => chainStarted p.chain)).foldl (fun t p => seekWindow p.o.idx t) s
  refreshTuners ((ownersOn s w).foldl (fun t o => judgeChain cause o t) s)

/-- Start the chain of an object that begins to run: covered, it settles; uncovered, it waits, and a reception's
RECEPTION_UNCOVERED is posted (R118, R166; log 15). -/
def startOwner (cause : Option Nat) (o : ChainOwner) (s : State) : State :=
  match chainOf s o with
  | none => s
  | some c =>
    if chainStarted c then s
    else
      let s := modChain o (fun c => { c with state := .waiting, covered := true, bank := startBank s c.kind c.bank }) s
      let s := match o with
        | .reception i => modReception i (freshSearch s) s
        | .probe i => freshProbe i s
        | _ => s
      refreshTuners (judgeChain cause o s)

/-- Stop what an owner's chain runs without removing it; a reception's alerts end with reason 2 (R38, R250). -/
def stopOwner (o : ChainOwner) (s : State) : State :=
  match chainOf s o with
  | none => s
  | some c =>
    let s := match o with
      | .reception i => endAlerts i 2 (fun _ => true) (instantNow s o c) none s
      | _ => s
    let s := modChain o (fun c => stopChain (applyPending (releaseHeld c)).1) (closeBlock o s)
    match o with
    | .reception i =>
      let s := (s.prog.programmes.filter (fun p => p.reception = i && digitalProgramme s p)).foldl
        (fun t p => decodingStops p.idx t) s
      stopIntervals i (modReception i (fun r => freshRds (enterSearching r)) s)
    | _ => s

/-! ### Glances (R264, R265) -/

/-- The window of a glance on a tuner: the device has five windows with a number, and one for a glance on each of T0 to T3 (R264). -/
def glanceWindow (t : Nat) : Nat := 5 + t

/-- A glance ends: its window closes, its tuner ramps down, and its candidate keeps the state given, or its own when the glance is abandoned. -/
def endGlance (st : Option CandState) (fo : Nat) (s : State) : State :=
  match s.prog.follows.find? (·.o.idx == fo) with
  | none => s
  | some f =>
    match f.glance with
    | none => s
    | some (t, fr, k, _) =>
      let s := modTuner t (fun x => { x with role := .freeing 1, state := .warm }) s
      let s := { s with prog := { s.prog with follows := s.prog.follows.map (fun x =>
          if x.o.idx = fo then
            { x with glance := none
                     cands := x.cands.map (fun c => if c.freq = fr && c.kind = k && c.state != .rejected then
                       { c with state := st.getD c.state } else c) }
          else x) } }
      judgeWindow none (glanceWindow t) (modWindow (glanceWindow t) (fun _ => {}) s)

/-! ### Blend pairs (R281, R379) -/

/-- The code of a blend state (R281). -/
def BlendState.code : BlendState → Nat
  | .unaligned => 0 | .aligned => 1 | .fading => 2 | .draining => 3 | .building => 4

/-- The BLEND_STATE payload (R281). -/
def blendPayload (b : Blend) : List Byte :=
  leBytes 1 b.state.code ++ leBytes 1 b.prev.code ++ leBytes 1 b.playing ++
  leBytes 1 (b.unalignedFade.toNat + 2 * b.noAudio.toNat + 4 * b.offsetStep.toNat +
    8 * (b.request.isSome || b.waiting.isSome).toNat) ++
  leInt 4 b.offset ++ leBytes 4 b.delay ++ leBytes 2 b.peak ++ leBytes 2 b.epoch.toNat ++ leBytes 8 b.stamp.toNat

/-- Put a pair into a state and post BLEND_STATE if it is another one (R281). -/
def blendTo (i : Nat) (st : BlendState) (cause : Option Nat) (s : State) : State :=
  match s.mix.blends.find? (·.o.idx == i) with
  | none => s
  | some b =>
    if b.state = st then s
    else
      let b' := { b with prev := b.state, state := st, epoch := s.time.epoch, stamp := s.time.count }
      post 0x8901 { index := i, gen := b.o.gen } (blendPayload b') cause (modBlend i (fun _ => b') s)

/-- The chains whose changes a fade held: those changes become pending when it ends (R163, R173). -/
def releaseFadeHolds (s : State) : State :=
  (owners s).foldl (fun t o => if feedsFade t o then t else modChain o releaseHeld t) s

/-- A fade in progress ends at once on the incoming branch, undelayed, and BLEND_STATE is posted (R281, R379, R538). -/
def cutFade (i : Nat) (s : State) : State :=
  match s.mix.blends.find? (·.o.idx == i) with
  | some b =>
    if b.state = .fading then releaseFadeHolds (blendTo i .unaligned none (modBlend i (fun b => { b with
      delay := 0, aligned := false, request := none, waiting := none }) s))
    else s
  | none => s

/-! ### Shedding and restoring (R538, R539) -/

/-- The simple objects' shed flag. -/
def setShed (v : Bool) (o : SimpleObj) : SimpleObj := { o with shed := v }

/-- What is shed next, or restored: a step of the shedding order and an index. -/
def shedOrder (s : State) : List (Nat × Nat × Nat) :=
  let p := (s.prog.probes.filter (fun p => !p.o.removing)).map (fun p => (1, p.o.serial, p.o.idx))
  let d (k : Nat) (res : Bool) := (s.prog.programmes.filter (fun p => p.selected && p.reserve == res &&
    digitalProgramme s p)).map (fun p => (k, p.serial, p.idx))
  let b := (s.prog.branches.filter (fun b => !b.o.removing)).map (fun b => (3, b.o.serial, b.o.idx))
  let x := (s.mix.blends.filter (fun b => !b.o.removing)).map (fun b => (5, b.o.serial, b.o.idx))
  let r := (s.prog.receptions.filter (fun r => !r.removing)).map (fun r => (6, r.serial, r.idx))
  let newest (l : List (Nat × Nat × Nat)) := l.mergeSort (fun a b => b.2.1 ≤ a.2.1)
  newest p ++ newest (d 2 false) ++ newest b ++ newest (d 4 true) ++ newest x ++ newest r

/-- Is an item of the shedding order shed? -/
def itemShed (s : State) (x : Nat × Nat × Nat) : Bool := match x.1 with
  | 1 => ownerShed s (.probe x.2.2)
  | 3 => ((s.prog.branches.find? (·.o.idx == x.2.2)).map (·.o.shed)).getD false
  | 5 => ((s.mix.blends.find? (·.o.idx == x.2.2)).map (·.o.shed)).getD false
  | 6 => isShed s x.2.2
  | _ => ((programmeAt s x.2.2).map (fun p => p.shedStep != 0)).getD false

/-- The handle of an item of the shedding order. -/
def itemHandle (s : State) (x : Nat × Nat × Nat) : Handle := match x.1 with
  | 1 => ownerHandle s (.probe x.2.2)
  | 3 => ownerHandle s (.branch x.2.2)
  | 5 => { index := x.2.2, gen := ((s.mix.blends.find? (·.o.idx == x.2.2)).map (·.o.gen)).getD 0 }
  | 6 => ownerHandle s (.reception x.2.2)
  | _ => ((programmeAt s x.2.2).map programmeHandle).getD {}

/-- The charge a selection would have for a component (R213). -/
def selectionCharge (k : Kind) (reserve : Bool) (codec : Nat) : Nat := if reserve then maxDecode k else codecCost k codec

/-- Recompute a selection's charge after its programme changed: a charge beyond the free GU suspends it and is not made; one
that fits again resumes it (R213, R214). -/
def recharge (i : Nat) (s : State) : State := match programmeAt s i with
  | none => s
  | some p =>
    if !p.selected || analogue (kindAt s p.reception) then s
    else
      let c := selectionCharge (kindAt s p.reception) p.reserve p.decl.codec
      let t := modProgramme i (fun p => { p with charge := c }) s
      if c ≤ p.charge || guUsed t ≤ guLimit t then
        if p.suspended && p.shedStep = 0 then modProgramme i (fun p => { p with suspended := false }) t else t
      else if p.suspended then s
      else decodingStops i (modProgramme i (fun p => { p with suspended := true, loud := loudRestart p.loud }) s)

/-- Post what a recharge did to the decoding: suspended or resumed (R214). -/
def reportDecode (i : Nat) (before : Bool) (cause : Option Nat) (s : State) : State := match programmeAt s i with
  | some p => if p.suspended && !before then postProgramme 0x8603 i cause s
    else if before && !p.suspended then postProgramme 0x8604 i cause s else s
  | none => s

/-- Shed or restore one item, without its report; a decode that is restored is charged for the codec it has now (R214, R538, R539). -/
def setItem (v : Bool) (x : Nat × Nat × Nat) (s : State) : State :=
  let idle (o : ChainOwner) (s : State) : State :=
    if v && ((chainOf s o).map chainStarted).getD false then dropChannel o s else s
  match x.1 with
  | 1 =>
    let s := idle (.probe x.2.2) s
    let s := { s with prog := { s.prog with probes := s.prog.probes.map (fun p => if p.o.idx = x.2.2 then
      { p with o := setShed v p.o } else p) } }
    if v then
      match (s.prog.probes.find? (·.o.idx == x.2.2)).bind (·.follow) with
      | some h => endGlance none h.index s
      | none => s
    else judgeChain none (.probe x.2.2) s
  | 3 =>
    let s := idle (.branch x.2.2) s
    let s := { s with prog := { s.prog with branches := s.prog.branches.map (fun b => if b.o.idx = x.2.2 then
      { b with o := setShed v b.o } else b) } }
    if v then s else judgeChain none (.branch x.2.2) s
  | 5 =>
    let s := modBlend x.2.2 (fun b => { b with o := setShed v b.o }) s
    if v then cutFade x.2.2 s else s
  | 6 =>
    if v then
      let s := match chainOf s (.reception x.2.2) with
        | some c => endAlerts x.2.2 2 (fun _ => true) (instantNow s (.reception x.2.2) c) none s
        | none => s
      stopIntervals x.2.2 (modReception x.2.2 (fun r => freshRds { enterSearching r with shed := true })
        (idle (.reception x.2.2) (modReception x.2.2 (fun r => { r with shedCovered := r.chain.covered }) s)))
    else
      judgeChain none (.reception x.2.2) (modReception x.2.2 (fun r => freshSearch s { r with
        shed := false, chain := if chainStarted r.chain then { r.chain with covered := r.shedCovered } else r.chain }) s)
  | k =>
    if v then decodingStops x.2.2 (modProgramme x.2.2 (fun p => { p with shedStep := k, loud := loudRestart p.loud }) s)
    else match programmeAt s x.2.2 with
      | some p => reportDecode x.2.2 p.suspended none (recharge x.2.2 (modProgramme x.2.2 (fun p => { p with shedStep := 0 }) s))
      | none => s

/-- Report one item shed or restored: HEALTH_NOTE, or the decode events (R214, R538, R539). -/
def reportItem (v : Bool) (x : Nat × Nat × Nat) (s : State) : State :=
  if x.1 = 2 || x.1 = 4 then postProgramme (if v then 0x8603 else 0x8604) x.2.2 none s
  else note (if v then 0x0410 else 0x0411) 0xFF (handleNum (itemHandle s x)) x.1 s

/-- Shed in order until the charge fits the limit; answers what was shed (R538). -/
def shedItems (s : State) : State × List (Nat × Nat × Nat) :=
  (shedOrder s).foldl (fun (a : State × List (Nat × Nat × Nat)) x =>
    if guUsed a.1 ≤ guLimit a.1 || itemShed a.1 x then a else (setItem true x a.1, a.2 ++ [x])) (s, [])

/-- Post CAPACITY_REDUCED when the GU limit has changed since it was last announced (R384, R529). -/
def announceCapacity (s : State) : State :=
  let new := guLimit s
  if new = s.health.limit then s
  else
    let old := s.health.limit
    let s := { s with health := { s.health with limit := new } }
    post 0x8102 {} (leBytes 2 new ++ leBytes 2 old ++ leBytes 1 (enginesWorking s) ++ zeros 1 ++
      leBytes 2 (guUsed s)) none s

/-- Shed what does not fit, announce a changed limit, and report what was shed (R538). -/
def shedToLimit (s : State) : State :=
  let x := shedItems s
  x.2.foldl (fun t i => reportItem true i t) (announceCapacity (refreshTuners x.1))

/-- Restore shed objects in the reverse order as far as the free GU allow (R539). -/
def resumeShed (s : State) : State :=
  ((shedOrder s).reverse.foldl (fun (a : State × Bool) x =>
    if !a.2 || !itemShed a.1 x then a
    else
      let t := setItem false x a.1
      if guUsed t ≤ guLimit t then (refreshTuners (reportItem false x t), true) else (a.1, false)) (s, true)).1

/-! ### Outputs across a migration (R536) -/

/-! ### Shut-downs (R336, R360) -/

/-- Post OBJECT_REMOVED (R384). -/
def postRemoved (cls : Nat) (h : Handle) (cause : Option Nat) (s : State) : State :=
  post 0x8103 h (leBytes 1 cls ++ zeros 3) cause s

/-- A probe is detached from its follow object: it becomes fixed at its last frequency (R257). -/
def detachProbes (fo : Handle) (s : State) : State :=
  { s with prog := { s.prog with probes := s.prog.probes.map (fun p =>
      if p.follow = some fo then { p with follow := none, nextFollow := none } else p) } }

/-- A follow object's shut-down ends (R257, R336). -/
def finishFollow (i : Nat) (cause : Option Nat) (s : State) : State :=
  match s.prog.follows.find? (·.o.idx == i) with
  | none => s
  | some f =>
    let h : Handle := { index := i, gen := f.o.gen }
    let s := detachProbes h (endGlance none i s)
    let s := postRemoved 3 h cause s
    { s with prog := { s.prog with follows := s.prog.follows.filter (fun x => x.o.idx != i) } }

/-- A branch's shut-down ends (R336). -/
def finishBranch (i : Nat) (cause : Option Nat) (s : State) : State :=
  let h := ownerHandle s (.branch i)
  if s.prog.branches.any (·.o.idx == i) then
    let s := postRemoved 0 h cause s
    resumeShed (unbind 1 h { s with prog := { s.prog with branches := s.prog.branches.filter (fun b => b.o.idx != i) } })
  else s

/-- A probe's shut-down ends (R336). -/
def finishProbe (i : Nat) (cause : Option Nat) (s : State) : State :=
  let h := ownerHandle s (.probe i)
  if s.prog.probes.any (·.o.idx == i) then
    let s := postRemoved 1 h cause s
    let s := { s with prog := { s.prog with
      probes := s.prog.probes.filter (fun p => p.o.idx != i) } }
    resumeShed (unbind 2 h s)
  else s

/-- A tap's shut-down ends (R336). -/
def finishTap (i : Nat) (cause : Option Nat) (s : State) : State :=
  let h := ownerHandle s (.tap i)
  if s.prog.taps.any (·.o.idx == i) then
    let s := postRemoved 2 h cause s
    unbind 3 h { s with prog := { s.prog with taps := s.prog.taps.filter (fun t => t.o.idx != i) } }
  else s

/-- A blend pair's shut-down ends (R336, R379). -/
def finishBlend (i : Nat) (cause : Option Nat) (s : State) : State :=
  match s.mix.blends.find? (·.o.idx == i) with
  | none => s
  | some b =>
    let s := postRemoved 4 { index := i, gen := b.o.gen } cause (cutFade i s)
    resumeShed { s with mix := { s.mix with blends := s.mix.blends.filter (fun x => x.o.idx != i) } }

/-- A PCM output's shut-down ends: its slots are free (R336). -/
def finishPcm (i : Nat) (cause : Option Nat) (s : State) : State :=
  match s.prog.pcms.find? (·.o.idx == i) with
  | none => s
  | some x =>
    let h : Handle := { index := i, gen := x.o.gen }
    let s := postRemoved 5 h cause s
    resumeShed (unbind 5 h { s with prog := { s.prog with pcms := s.prog.pcms.filter (fun y => y.o.idx != i) } })

/-- Bytes of a MOT object gathered so far (R244). -/
def motBytes (m : MotObj) : Nat := (m.header.map (·.2.length)).sum + (m.body.map (·.2.length)).sum

/-- A programme's MOT objects in reassembly release their staging; `count` says that they count as abandoned (R244). -/
def dropMot (i : Nat) (count : Bool) (pick : MotObj → Bool) (s : State) : State := match programmeAt s i with
  | none => s
  | some p =>
    let out := p.mot.filter pick
    let s := match boundRing s 8 4 (programmeHandle p) with
      | some n => modRing n (fun r => { r with motSpace := r.motSpace - (out.map motBytes).sum }) s
      | none => s
    modProgramme i (fun p => { p with
      mot := p.mot.filter (fun m => !pick m)
      motAbandoned := if count then satNat 65535 (p.motAbandoned + out.length) else p.motAbandoned }) s

/-- A programme goes, a digital one's decoding with it (R608): PROGRAMME_REMOVED, its bindings with it (R210, R360). -/
def removeProgramme (i : Nat) (cause : Option Nat) (s : State) : State :=
  match programmeAt s i with
  | none => s
  | some p =>
    let s := dropMot i false (fun _ => true) (if analogue (kindAt s p.reception) then s else decodingStops i s)
    let s := postProgramme 0x8602 i cause s
    unbind 4 (programmeHandle p) { s with prog := { s.prog with
      programmes := s.prog.programmes.filter (fun x => x.idx != i) } }

/-- A reception's shut-down ends: its follow object first, its programmes, its alerts, then RECEPTION_REMOVED
(R177, R210, R248, R257, R273). -/
def finishReception (i : Nat) (cause : Option Nat) (s : State) : State :=
  match receptionAt s i with
  | none => s
  | some r =>
    let h : Handle := { index := i, gen := r.gen }
    let s := (s.prog.follows.filter (fun f => f.serving = i)).foldl (fun t f => finishFollow f.o.idx cause t) s
    let s := (s.prog.programmes.filter (fun p => p.reception = i)).foldl (fun t p => removeProgramme p.idx cause t) s
    let s := endAlerts i 2 (fun _ => true) (instantNow s (.reception i) r.chain) cause s
    let s := post 0x8505 h [] cause s
    let s := { s with
      prog := { s.prog with
        receptions := s.prog.receptions.filter (fun x => x.idx != i)
        standing := s.prog.standing.filter (fun x => x.reception != i)
        follows := s.prog.follows.map (fun f => { f with members := f.members.filter (fun m => m != i) }) }
      health := { s.health with badSnapshots := s.health.badSnapshots.filter (fun x => x != i) } }
    resumeShed (refreshTuners (unbind 0 h s))

end Sys2Proof.Machine
end

