-- ==== Sys2Proof/Machine/SideData.lean ====
section
/-!
DEFINITION. SideData.lean: what receptions read from their signal besides audio: RDS groups (R240), alert
signalling (R246 to R249), alternative arrivals (R258, R259), and the programmes a digital configuration declares
(R208 to R214).
-/

namespace Sys2Proof.Machine

/-! ### RDS groups (R240, R249) -/

/-- The groups of a stream that it has not delivered before (R536). -/
def newGroups (l : List RdsGroup) (x : RdsStream) : List RdsGroup :=
  l.filter (fun g => match x.sent with
    | some i => i.epoch != g.at'.epoch || 0 < (g.at'.tick - i.tick).toInt
    | none => true)

/-- A block of a group with error flag 0 or 1 (R200, R247, R259). -/
def goodBlock (g : RdsGroup) (i : Nat) : Option Nat := match g.blocks[i]? with
  | some (v, f) => if f < 2 then some v else none
  | none => none

/-- The RDS group Shaving payload (R240). -/
def rdsPayload (stream : Nat) (g : RdsGroup) : List Byte :=
  let fl := (g.blocks.zipIdx.map (fun x => x.1.2 * 4 ^ x.2)).sum
  leBytes 1 stream ++ leBytes 1 (g.typeB.toNat + 2 * g.mmbs.toNat) ++ leBytes 1 fl ++ zeros 5 ++
  g.blocks.flatMap (fun x => leBytes 2 x.1)

/-! ### Alert signalling (R246 to R248) -/

/-- The alert settings in force: COMPAT watches everything but EON (R246). -/
def alertCfgOf (s : State) (r : Reception) : AlertCfg :=
  if s.set.mode = .compat then { mask := 0xFFFF, options := 0, cluster := 255 } else r.alertCfg

/-- Do two alerts mean the same: source, type and cluster, and for EON the other network (R247)? -/
def sameAlert (sg : AlertSignal) (a : Alert) : Bool :=
  a.source == sg.source && a.type == sg.type && a.cluster == sg.cluster && (sg.source != 3 || a.target == sg.target)

/-- The key under which an announcement seen once is remembered. -/
def alertKey (sg : AlertSignal) : Nat × Nat × Nat :=
  (sg.source, sg.type, sg.cluster + 256 * (if sg.source = 3 then sg.target else 0))

/-- Is an alert watched now: its mode watches, its type and cluster are set, EON only with its option (R246 to R250)? -/
def alertWatched (s : State) (r : Reception) (sg : AlertSignal) : Bool :=
  let c := alertCfgOf s r
  (s.set.mode == .serve || s.set.mode == .sentry || s.set.mode == .compat) &&
  (sg.type == 0 || c.mask.testBit sg.type) && (sg.source != 4 || c.cluster == 255 || c.cluster == sg.cluster) &&
  (sg.source != 3 || c.options % 2 == 1)

/-- One valid occurrence of alert signalling, or of its absence: an emergency begins at the first, an announcement at the
second in a row, and four without it end the alert (R247, R248). -/
def signalAlert (i : Nat) (at' : Instant) (sg : AlertSignal) (s : State) : State :=
  match receptionAt s i with
  | none => s
  | some r =>
    if !alertWatched s r sg then s
    else
      let emergency := sg.source = 1 || sg.source = 2 || sg.alarm
      match r.alerts.find? (sameAlert sg) with
      | some a =>
        if sg.on then modReception i (fun r => { r with
          alerts := r.alerts.map (fun x => if x.number = a.number then { x with without := 0 } else x) }) s
        else if a.without + 1 < 4 then modReception i (fun r => { r with
          alerts := r.alerts.map (fun x => if x.number = a.number then { x with without := x.without + 1 } else x) }) s
        else endAlerts i 0 (fun x => x.number = a.number) at' none s
      | none =>
        if !sg.on then modReception i (fun r => { r with alertSeen := r.alertSeen.filter (fun k => k != alertKey sg) }) s
        else if emergency || r.alertSeen.contains (alertKey sg) then
          let a0 : Alert := { number := r.alertNext, cls := if emergency then 0 else 1, type := sg.type, source := sg.source
                              cluster := sg.cluster, target := sg.target }
          let a := { a0 with text := alertText s r a0 }
          let s := modReception i (fun r => { r with
            alerts := r.alerts ++ [a], alertNext := r.alertNext + 1
            alertSeen := r.alertSeen.filter (fun k => k != alertKey sg) }) s
          reportAlert i a true 0 at' none s
        else modReception i (fun r => { r with alertSeen := alertKey sg :: r.alertSeen }) s

/-! ### Alternative arrivals (R258 to R260) -/

/-- Members and host candidates keep their entries (R259): origin bits 0 and 5. -/
def keptOrigin (o : Nat) : Bool := o.testBit 0 || o.testBit 5

/-- Enter a candidate into a table of at most 32: an entry it has is renewed; a full table loses the learned entry signalled
longest ago (R259). -/
def enterCand (s : State) (f : Nat) (k : Kind) (bit : Nat) (l : List Cand) : List Cand :=
  if l.any (fun c => c.freq = f && c.kind = k) then
    l.map (fun c => if c.freq = f && c.kind = k then { c with origin := c.origin ||| 2 ^ bit, signalled := now s } else c)
  else
    let c : Cand := { freq := f, kind := k, origin := 2 ^ bit, signalled := now s, metricAt := now s
                      state := if (capturedBy s k f).isSome then .unchecked else .outside }
    if l.length < 32 then l ++ [c]
    else
      let learned := l.filter (fun c => !keptOrigin c.origin)
      match learned with
      | [] => l
      | x :: r =>
        let old := r.foldl (fun a b => if b.signalled < a.signalled then b else a) x
        l.filter (fun y => !(y.freq = old.freq && y.kind = old.kind)) ++ [c]

/-- Change a follow object. -/
def modFollow (i : Nat) (g : Follow → Follow) (s : State) : State :=
  { s with prog := { s.prog with follows := s.prog.follows.map (fun f => if f.o.idx = i then g f else f) } }

/-- A reception signals an alternative arrival: the follow objects that serve it or have it as a member take it when their
sources allow it (R257, R259). Follow objects run in SERVE (R256). -/
def learnCand (i bit source : Nat) (ok : Follow → Bool) (f : Nat) (k : Kind) (s : State) : State :=
  if s.set.mode != .serve then s
  else { s with prog := { s.prog with follows := s.prog.follows.map (fun x =>
    if (x.serving = i || x.members.contains i) && x.sources.testBit source && ok x && !x.o.removing
    then { x with cands := enterCand s f k bit x.cands } else x) } }

/-- Linkage joins an identity to the objects that follow the identity it is linked to (R258). -/
def learnLink (i : Nat) (l : Nat × Nat × Nat × Nat) (s : State) : State :=
  { s with prog := { s.prog with follows := s.prog.follows.map (fun x =>
    if (x.serving = i || x.members.contains i) && x.sources.testBit 4 && x.idents.contains (l.1, l.2.1) &&
      !x.idents.contains (l.2.2.1, l.2.2.2) && x.idents.length < 4
    then { x with idents := x.idents ++ [(l.2.2.1, l.2.2.2)] } else x) } }

/-- The frequency of an RDS AF code: FM 1 to 204 from 87.6 MHz (log 26). -/
def afFm (c : Nat) : Option Nat := if 1 ≤ c && c ≤ 204 then some (87500000 + 100000 * c) else none

/-- The frequency of an LF or MF code that follows code 250 (log 26). -/
def afAm (c : Nat) : Option Nat :=
  if 1 ≤ c && c ≤ 15 then some (144000 + 9000 * c)
  else if 16 ≤ c && c ≤ 135 then some (387000 + 9000 * c) else none

/-- The arrivals that a pair of AF codes names. -/
def afPair (v : Nat) : List (Nat × Kind) :=
  let a := v / 256
  let b := v % 256
  if a = 250 then ((afAm b).map (fun f => (f, Kind.am))).toList
  else ((afFm a).map (fun f => (f, Kind.fm))).toList ++ ((afFm b).map (fun f => (f, Kind.fm))).toList

/-- The arrivals that an EON group 14A names for another network (R259): AF list, mapped FM and mapped AM frequencies. -/
def eonPair (variant v tuned : Nat) : List (Nat × Kind) :=
  if variant = 4 then afPair v
  else if 5 ≤ variant && variant ≤ 8 then
    if afFm (v / 256) = some tuned then ((afFm (v % 256)).map (fun f => (f, Kind.fm))).toList else []
  else if variant = 9 then
    if afFm (v / 256) = some tuned then ((afAm (v % 256)).map (fun f => (f, Kind.am))).toList else []
  else []

/-! ### What a complete RDS group says (R247, R249, R259) -/

/-- Radiotext of groups 2A and 2B: segments are gathered under one A/B flag until the text is whole (log 26). -/
def radiotext (g : RdsGroup) (b : Nat) (x : RdsStream) : RdsStream × Option (List Byte) :=
  let vB := g.typeB || b.testBit 11
  let key := b / 16 % 2 + 2 * vB.toNat
  let seg := b % 16
  let two (v : Nat) : List Byte := [BitVec.ofNat 8 (v / 256), BitVec.ofNat 8 v]
  let txt : Option (List Byte) := if vB then (goodBlock g 3).map two
    else match goodBlock g 2, goodBlock g 3 with
      | some c, some d => some (two c ++ two d)
      | _, _ => none
  match txt with
  | none => (x, none)
  | some t =>
    let old := if x.rtFlag = some key then x.rt else []
    let segs := (seg, t) :: old.filter (fun y => y.1 != seg)
    let x := { x with rtFlag := some key, rt := segs }
    let joined := (List.range 16).foldl (fun (a : List Byte × Bool) i =>
      if !a.2 then a else match segs.find? (fun y => y.1 == i) with
        | some y => (a.1 ++ y.2, true)
        | none => (a.1, false)) ([], true)
    let cut := joined.1.takeWhile (fun c => c != 0x0D)
    if joined.2 || cut.length < joined.1.length then (x, some cut) else (x, none)

/-- The alert signalling of a group of the reception's own network: TA with TP, PTY 31, group 9A (R247). For group 9A every other group
with a good block B is a valid occurrence without it (DESIGN CHOICE, log 169). -/
def groupAlerts (g : RdsGroup) (pi : Nat) : List AlertSignal := match goodBlock g 1 with
  | none => []
  | some b =>
    let ty := b / 4096
    let vB := b.testBit 11
    let tp := b.testBit 10
    let ta := b.testBit 4
    (if (ty = 0 || (ty = 15 && vB)) then [{ source := 0, type := 1, on := tp && ta, target := pi }] else []) ++
    [{ source := 1, type := 0, on := b / 32 % 32 = 31, target := pi },
     { source := 2, type := 0, on := ty = 9 && !vB, target := pi }]

/-- The EON announcement signalling of a group: 14B, and variant 13 of 14A (R247). -/
def groupEon (g : RdsGroup) : List AlertSignal := match goodBlock g 1, goodBlock g 3 with
  | some b, some on =>
    if b / 4096 = 14 && b.testBit 11 then [{ source := 3, type := 1, on := b.testBit 3 && b.testBit 4, target := on }]
    else if b / 4096 = 14 && b % 16 = 13 then match goodBlock g 2 with
      | some c => [{ source := 3, type := 1, on := c.testBit 0 && b.testBit 4, target := on }]
      | none => []
    else []
  | _, _ => []

/-- What stream 0's groups tell Gauge: AF lists of group 0A and EON data of group 14A (R259). -/
def groupCands (i tuned : Nat) (g : RdsGroup) (s : State) : State := match goodBlock g 1, goodBlock g 2 with
  | some b, some c =>
    if b / 4096 = 0 && !b.testBit 11 then
      ((afPair c).filter (fun x => x.1 ≠ tuned)).foldl (fun t x => learnCand i 1 0 (fun _ => true) x.1 x.2 t) s
    else if b / 4096 = 14 && !b.testBit 11 then match goodBlock g 3 with
      | some on => (eonPair (b % 16) c tuned).foldl
          (fun t x => learnCand i 2 1 (fun f => f.idents.contains (1, on)) x.1 x.2 t) s
      | none => s
    else s
  | _, _ => s

/-! ### The programmes a configuration declares (R208 to R214) -/

/-- Does a declared component have a programme's identity (R209)? -/
def sameComp (p : Programme) (d : CompDecl) : Bool := p.decl.service == d.service && p.decl.component == d.component

/-- A standing setting binds to the programme that has its identity (R212, R375). -/
def bindStanding (s : State) (p : Programme) : Programme :=
  s.prog.standing.foldl (fun p x =>
    if !standingFits p x then p
    else
      let p := match x.select with
        | some res => { p with selected := true, reserve := res, serial := x.serial
                               charge := selectionCharge (kindAt s p.reception) res p.decl.codec }
        | none => p
      match x.measure with
      | some (iv, th, st) => { p with measured := true, interval := iv, nextInterval := iv, threshold := th, silenceS := st }
      | none => p) p

/-- Create the programme of a declared component: PROGRAMME_FOUND; with no index free it stays untracked (R208, R209, R211). -/
def findProgramme (i : Nat) (d : CompDecl) (s : State) : State :=
  match freeIndex 1024 (s.prog.programmes.map (·.idx)) with
  | none =>
    let (ser, s) := takeSerial s
    modReception i (fun r => if r.untracked.any (fun x => x.2.service == d.service && x.2.component == d.component)
      then r else { r with untracked := r.untracked ++ [(ser, d)] }) s
  | some n =>
    let g := nextGen (s.gens.programme.getD n 0)
    let (ser, s) := takeSerial s
    let p0 : Programme := { idx := n, gen := g, reception := i, decl := d, serial := ser
                            lossesAt := ((receptionAt s i).map (·.losses)).getD 0 }
    let p := bindStanding s p0
    let p := match receptionAt s i with
      | some r => if p.measured && r.chain.state = .running then beginInterval s (instantNow s (.reception i) r.chain) p else p
      | none => p
    let s := { s with
      gens := { s.gens with programme := setAt s.gens.programme n g }
      prog := { s.prog with programmes := s.prog.programmes ++ [p] } }
    let s := modReception i (fun r => { r with
      untracked := r.untracked.filter (fun x => !(x.2.service == d.service && x.2.component == d.component)) }) s
    postProgramme 0x8600 n none s

/-- A declared component against the programme it has: it leaves ABSENT, and a change of codec, bit rate or subchannel posts
PROGRAMME_CHANGED and recomputes the charge; a change of codec restarts the integrated loudness (R209, R210, R213, R235). -/
def renewProgramme (p : Programme) (d : CompDecl) (s : State) : State :=
  let s := modProgramme p.idx (fun p => { p with
    decl := if d.codec = 1 && p.decl.codec = 1 then { d with sampleRate := p.decl.sampleRate, audioMode := p.decl.audioMode } else d
    absentAt := none, loud := if p.decl.codec = d.codec then p.loud else loudRestart p.loud }) s
  if p.decl.codec != d.codec || p.decl.bitRate != d.bitRate || p.decl.sub != d.sub then
    let t := recharge p.idx s
    reportDecode p.idx p.suspended none (postProgramme 0x8601 p.idx none t)
  else s

/-- Post PROGRAMMES_UNTRACKED once for a reception that has untracked components (R211). -/
def noteUntracked (i : Nat) (s : State) : State := match receptionAt s i with
  | some r => if r.untracked.isEmpty || r.untrackedNoted then s
    else note 0x0602 0xFF (handleNum (ownerHandle s (.reception i))) r.untracked.length
      (modReception i (fun r => { r with untrackedNoted := true }) s)
  | none => s

/-! ### The emulation's programmes and audio (R554, R557) -/

/-- A channel of the emulation decodes its service, or the first programme found while CH_SERVICE is 0 (R557). -/
def compatSelect (c : Nat) (s : State) : State :=
  match (s.compat.chRx.getD c none).bind (receptionAt s) with
  | none => s
  | some r =>
    if analogue r.kind then s
    else
      let sv := (s.set.compat.channels.getD c {}).service
      let fit (p : Programme) : Bool := p.reception == r.idx && (sv == 0 || p.decl.service == sv)
      let s := (s.prog.programmes.filter (fun p => p.reception == r.idx && p.selected && !fit p)).foldl (fun t p =>
        modProgramme p.idx (fun p => { p with selected := false, reserve := false, charge := 0, suspended := false, shedStep := 0 })
          (decodingStops p.idx t)) s
      if s.prog.programmes.any (fun p => fit p && p.selected) then s
      else match s.prog.programmes.find? fit with
        | none => s
        | some p =>
          let (ser, s) := takeSerial s
          modProgramme p.idx (fun p => { p with
            selected := true, reserve := false, serial := ser, charge := selectionCharge r.kind false p.decl.codec }) s

/-- The programme whose audio a channel gives. -/
def compatProgramme (s : State) (c : Nat) : Option Programme :=
  match (s.compat.chRx.getD c none).bind (receptionAt s) with
  | none => none
  | some r => s.prog.programmes.find? (fun p => p.reception == r.idx && (analogue r.kind || p.selected))

/-- The emulation's PCM output on TDM0 follows AUDIO_SOURCE (R557). -/
def compatRoute (s : State) : State :=
  let a := s.set.compat.audio
  let want := if a < 4 then compatProgramme s a else none
  let src : Handle × Nat := match want with
    | some p => (programmeHandle p, 0)
    | none => ({ index := 0xFFFF }, 3)
  let mute := if a = 0xFF then 1 else 0
  let depth := if (want.map (digitalProgramme s)).getD false then 80 else 1
  { s with prog := { s.prog with pcms := s.prog.pcms.map (fun x =>
      if x.port = 0 && x.slot = 0 && !x.o.removing && !(x.source == src.1 && x.sourceCls == src.2 && x.mute == mute) then
        { turnTo src.2 src.1 x with mute := mute, depth := depth, underruns := 0 }
      else x) } }

/-- What the emulation decodes and plays follows the programmes there are (R557). -/
def compatFollow (s : State) : State :=
  if s.set.mode = .compat then compatRoute (([0, 1, 2, 3] : List Nat).foldl (fun t c => compatSelect c t) s) else s

/-- One declared component: the programme it names is there again, or a programme is found (R209, R210). -/
def applyComp (i : Nat) (d : CompDecl) (s : State) : State :=
  match s.prog.programmes.find? (fun p => p.reception == i && sameComp p d) with
  | some p => renewProgramme p d s
  | none => findProgramme i d s

/-- A digital reception's configuration declares these components from now on; data components are not programmes (R208 to R211). -/
def applyComps (i : Nat) (all : List CompDecl) (s : State) : State :=
  let l := all.filter (·.audio)
  let gone (p : Programme) : Bool := p.reception = i && p.absentAt.isNone && !l.any (sameComp p)
  let s := { s with prog := { s.prog with programmes := s.prog.programmes.map (fun p =>
    if gone p then { p with absentAt := some (now s) } else p) } }
  let s := modReception i (fun r => { r with
    declared := l
    untracked := r.untracked.filter (fun x => l.any (fun d => d.service == x.2.service && d.component == x.2.component)) }) s
  let s := l.foldl (fun t d => applyComp i d t) s
  compatFollow (noteUntracked i s)

/-- The component without an index that was found earliest, with its reception (R211). -/
def firstUntracked (s : State) : Option (Nat × CompDecl) :=
  ((s.prog.receptions.flatMap (fun r => r.untracked.map (fun d => (r.idx, d)))).foldl (fun (a : Option (Nat × Nat × CompDecl)) x =>
    match a with
    | some y => if x.2.1 < y.2.1 then some x else some y
    | none => some x) none).map (fun x => (x.1, x.2.2))

/-- Indices that have become free go to components as long as there are any, in the order in which they were found (R211). -/
def trackFrom : Nat → State → State
  | 0, s => s
  | fuel + 1, s => match firstUntracked s with
    | some x => if s.prog.programmes.length < 1024 then trackFrom fuel (findProgramme x.1 x.2 s) else s
    | none => s

/-- Indices that have become free go to the components found earliest (R211). -/
def trackMore (s : State) : State := trackFrom ((s.prog.receptions.map (fun r => r.untracked.length)).sum) s

end Sys2Proof.Machine
end

