-- ==== Sys2Proof/Machine/CalOps.lean ====
section
/-!
DEFINITION. CalOps.lean: calibration runs as other operations meet them: abandoning a run, the results of a CAL_RUN, the IQ
table at a retune (R510, R520, R524).
-/

namespace Sys2Proof.Machine

/-- Change the calibration state of one converter. -/
def modAdc (a : Nat) (g : AdcCal → AdcCal) (s : State) : State :=
  { s with cal := { s.cal with adcs := modAt s.cal.adcs a g } }

/-- The calibration state of a converter. -/
def adcAt (s : State) (a : Nat) : AdcCal := s.cal.adcs.getD a {}

/-- Record the result of the asked run of a converter and kind (R380). -/
def runResult (a kind res : Nat) (s : State) : State :=
  { s with cal := { s.cal with runs := s.cal.runs.map (fun r =>
      if r.adc = a ∧ r.kind = kind ∧ r.result.isNone then { r with result := some res } else r) } }

/-- The response payload of a CAL_RUN (R380). -/
def calRunPayload (rs : List CalRun) : List Byte :=
  leBytes 1 rs.length ++ zeros 3 ++
  rs.flatMap (fun r => leBytes 1 r.adc ++ leBytes 1 r.kind ++ leBytes 1 (r.result.getD 0) ++ zeros 1)

/-- When the last run of a CAL_RUN has ended, it is answered, UNQUALIFIED if any result is (R380, R524). -/
def calRunEnds (s : State) : State :=
  let rs := s.cal.runs
  if rs.all (fun r => r.result.isSome) then
    let st := if rs.any (fun r => r.result = some 1) then 0xA else 0
    release .calRun (fun d => { status := st, target := d.target, payload := calRunPayload rs })
      { s with cal := { s.cal with runs := [] } }
  else s

/-- A close during the statistics of an element selection abandons the run: a CAL_RUN's has result 2, an automatic run stays
pending (R520). -/
def abandonRun (a : Nat) (s : State) : State :=
  let x := adcAt s a
  if x.stats || x.deferred then
    let s := modAdc a (fun x => { x with stats := false, deferred := false, choice := none
                                         pending := !x.asked || x.pending, asked := false }) s
    if x.asked then calRunEnds (runResult a 0 2 s) else s
  else s

/-- A tuner that fails during a run abandons it (R520). -/
def dropRun (a : Nat) (s : State) : State :=
  let x := adcAt s a
  let s := modAdc a (fun x => { x with stats := false, deferred := false, interrupted := false, choice := none
                                       pending := false, asked := false, ramp := false, iqTriggered := none }) s
  if x.asked then calRunEnds (runResult a 0 2 s) else s

/-- The window a converter samples for, and whether as the partner of a ganged window. -/
def adcWindow (s : State) (a : Nat) : Option (Nat × Bool) :=
  (([0, 1, 2, 3, 4] : List Nat).find? (fun w => (windowAt s w).tuner == some a)).map (fun w => (w, false)) |>.or
    ((([0, 1, 2, 3, 4] : List Nat).find? (fun w => ((windowAt s w).partner.map (·.1)) == some a)).map (fun w => (w, true)))

/-- The chains that read a converter: on a ganged window the branches read the partner, all others the main tuner (R519). -/
def readersOf (s : State) (a : Nat) : List ChainOwner := match adcWindow s a with
  | none => []
  | some (w, partner) => (ownersOn s w).filter (fun o => partner = (match o with
      | .branch _ => true
      | _ => false : Bool))

/-- Does a chain that reads a converter's window feed a fade in progress (R520)? -/
def adcFeedsFade (s : State) (a : Nat) : Bool := match adcWindow s a with
  | some (w, _) => (ownersOn s w).any (feedsFade s)
  | none => false

/-- Is a converter's window open and not in the steps of a retune (R123)? -/
def adcSteady (s : State) (a : Nat) : Bool := match adcWindow s a with
  | some (w, _) => (windowAt s w).state == .open
  | none => true

/-- An element selection's interruption begins: the converter goes offline and its chains gap (R517, R519). During a retune it is held
until the retune has completed (R123). -/
def beginInterruption (a : Nat) (s : State) : State :=
  if adcSteady s a then
    let s := (readersOf s a).foldl (fun t o => gapChain o t) s
    modAdc a (fun x => { x with stats := false, deferred := false, interrupted := true, phaseAt := now s }) s
  else modAdc a (fun x => { x with stats := false, deferred := true }) s

/-- Interruptions that a fade or a retune deferred begin once no fade needs their chains and no retune runs (R123, R520). -/
def releaseDeferred (s : State) : State :=
  ([0, 1, 2, 3, 4] : List Nat).foldl (fun t a =>
    if (adcAt t a).deferred && !adcFeedsFade t a && adcSteady t a then beginInterruption a t else t) s

/-- The LO range over which a port's 24 table points are spaced: that of the 6 MHz width (R115, R143, R510; log 23). -/
def iqRange (direct : Bool) (port : Nat) : Nat × Nat :=
  if direct then (if port < 4 then (33000000, 297000000) else (1403000000, 1697000000))
  else (if port < 4 then (24000000, 288000000) else (1394000000, 1688000000))

/-- One point of a tuner's table: zero correction where nothing is stored (R510). -/
def iqPoint (s : State) (t port point : Nat) : IqPoint :=
  (s.cal.record.iq.find? (fun x => x.tuner == t && x.port == port && x.point == point)).getD
    { tuner := t, port := port, point := point }

/-- The two points beside an LO and the LO's place between them: point, distance and spacing, scaled by 23. -/
def iqPlace (direct : Bool) (port lo : Nat) : Nat × Nat × Nat :=
  let r := iqRange direct port
  let span := r.2 - r.1
  let x := (clampNat r.1 r.2 lo - r.1) * 23
  let i := min 22 (x / span)
  (i, x - i * span, span)

/-- A retune sets the correction in one step to the value interpolated at the new LO, and the image figure to that of the
nearer point (R510, R522). -/
def iqRetune (w : Nat) (s : State) : State :=
  match (windowAt s w).tuner with
  | none => s
  | some t =>
    let direct := s.set.mode == .compat
    let port := (windowAt s w).port + (if direct then 8 else 0)
    let pl := iqPlace direct (windowAt s w).port (windowAt s w).lo
    let p := iqPoint s t port pl.1
    let q := iqPoint s t port (pl.1 + 1)
    let mix (a b : Int) : Int := a + roundDiv ((b - a) * (pl.2.1 : Int)) pl.2.2
    let g := mix p.gain q.gain
    let f := mix p.phase q.phase
    let ts := (List.range 7).map (fun (k : Nat) => mix (p.taps.getD k 0) (q.taps.getD k 0))
    let im := if 2 * pl.2.1 ≤ pl.2.2 then p.image else q.image
    modWindow w (fun x => { x with image := im })
      (modAdc t (fun x => { x with gain := g, phase := f, gainTo := g, phaseTo := f, taps := ts, tapsTo := ts, ramp := false }) s)

end Sys2Proof.Machine
end

