-- ==== Sys2Proof/Machine/Window.lean ====
section
/-!
DEFINITION. Window.lean: windows and tuners: opening, retuning, closing, ganging, hand-over, gain control and external
amplifiers (chapter 05).
-/

namespace Sys2Proof.Machine

/-! ### Settings (R115, R116, R367) -/

/-- The legal widths in kHz, widest first. -/
def legalWidths : List Nat := [84000, 48000, 24000, 12000, 6000]

/-- The nearest legal width, ties to the larger (R115). -/
def nearestWidth (v : Nat) : Nat :=
  legalWidths.foldl (fun best x => if apart v x < apart v best then x else best) 84000

/-- The LO range of a port for a width (R115). -/
def loRange (port width : Nat) : Nat × Nat :=
  if port < 4 then (24000000, 294000000 - width * 1000) else (1394000000, 1694000000 - width * 1000)

/-- Window settings as clamped. -/
structure WinSettings where
  port   : Nat
  agc    : Nat
  gain   : Nat
  width  : Nat
  lo     : Nat
  linger : Nat
  clamped : Bool
  deriving DecidableEq, Repr

/-- Clamp the window settings in the order of R116. W4 reads only the AGC mode and the fixed gain, which is rounded down to
6 dB steps (R139, R141, R367). In SENTRY the width is at most 12 MHz (R31, R33). -/
def clampWindow (s : State) (w : Nat) (p : List Byte) : WinSettings :=
  let x := windowAt s w
  let agc := field p 1 1
  let g := field p 2 2
  let lg := field p 12 1
  if w = 4 then
    let a := satNat 60 (satNat 124 g) / 12 * 12
    { port := x.port, agc := satNat 1 agc, gain := a, width := x.widthKhz, lo := x.lo, linger := x.linger
      clamped := 1 < agc || a != g }
  else
    let port := satNat 5 (field p 0 1)
    let wd := nearestWidth (field p 4 4)
    let wd := if s.set.mode = .sentry then min wd 12000 else wd
    let r := loRange port wd
    let lo := (clampNat r.1 r.2 (field p 8 4) + 500) / 1000 * 1000
    { port := port, agc := satNat 1 agc, gain := satNat 124 g, width := wd, lo := lo, linger := satNat 60 lg
      clamped := 1 < agc || 124 < g || 60 < lg || port != field p 0 1 || wd != field p 4 4 || lo != field p 8 4 }

/-- Where a window's handle stands (R331, R333); `alive` says whether the command may name it. -/
def judgeWin (s : State) (h : Handle) (alive : Bool) : HandleState :=
  judge h (if h.index < 5 then some (windowAt s h.index).gen else none) alive

/-! ### Choosing a tuner (R605, R606, R138) -/

/-- Is a tuner free for a window: WARM or OFF without a use, or held for a glance, which gives way? -/
def tunerFree (s : State) (t : Nat) : Bool :=
  let x := tunerAt s t
  !x.failed && (match x.role with
    | .unused => true
    | .glance _ => true
    | _ => false)

/-- Does a free tuner count as WARM? -/
def tunerWarm (s : State) (t : Nat) : Bool :=
  let x := tunerAt s t
  tunerFree s t && (x.state == .warm || x.role != .unused)

/-- The lowest-numbered free WARM tuner, or the lowest OFF one (R605). COMPAT runs T0 alone (R32). -/
def anyTuner (s : State) : Option Nat :=
  if s.set.mode = .compat then none else (([0, 1, 2, 3] : List Nat).find? (tunerWarm s)).or (([0, 1, 2, 3] : List Nat).find? (tunerFree s))

/-- The tuner a window opens on (R605); W4 has the HF input alone. -/
def pickTuner (s : State) (w : Nat) : Option Nat :=
  if w = 4 then (if (tunerAt s 4).failed then none else some 4)
  else if tunerFree s w then some w else anyTuner s

/-- Is a tuner held for a glance (R265)? -/
def tunerGlances (s : State) (t : Nat) : Bool := match (tunerAt s t).role with
  | .glance _ => true
  | _ => false

/-- Take a tuner to serve a window, or as its partner, on a port. A glance on it is abandoned, and the use waits for the end of its
ramp (R265). The freeze of a transmission in progress holds for it too (R145). -/
def takeTuner (t w : Nat) (partner : Bool) (port : Nat) (s : State) : State :=
  let use' : TunerRole := if partner then .partner w else .window w
  let role : TunerRole := if tunerGlances s t then .yielding w partner else use'
  let s := match (tunerAt s t).role with
    | .glance fo => endGlance none fo s
    | _ => s
  modTuner t (fun x => { x with role := role, port := port, lingerAt := none, clipAt := none, above10At := none }) s

/-- A tuner's ramp after a glance that gave way has ended: it serves what waited for it (R265). -/
def tunerYielded (u : Tuner) : Tuner := match u.role with
  | .yielding w partner => { u with role := if partner then .partner w else .window w }
  | _ => u

/-- Does a window wait for the ramp of its tuner's abandoned glance (R265)? -/
def windowRamping (s : State) (w : Nat) : Bool := match (windowAt s w).tuner with
  | some t => (tunerAt s t).role == .yielding w false
  | none => false

/-- Bring a window up on a tuner chosen by R605, or mark it FAILED (R606). -/
def openWindow (w : Nat) (s : State) : State :=
  match pickTuner s w with
  | some t => takeTuner t w false (windowAt s w).port (modWindow w (fun x => { x with state := .opening, tuner := some t }) s)
  | none =>
    let s := modWindow w (fun x => { x with state := .failed, tuner := none }) s
    let s := note 0x0303 0xFF (handleNum (windowHandle s w)) (if w = 4 then 4 else 0xFF) s
    judgeWindow none w s

/-- The gain at which a tuner's AGC starts at an LO: the last one used within 10 MHz on the port, or 30 dB (R121). -/
def startGain (x : Tuner) (port lo : Nat) : Int :=
  ((x.lastGains.find? (fun g => g.1 == port && apart g.2.1 lo ≤ 10000000)).map (·.2.2)).getD 60

/-- A tuner uses a gain on a port at an LO, from which an AGC that starts nearby begins (R121). -/
def useGain (port lo : Nat) (g : Int) (u : Tuner) : Tuner :=
  { u with gain := g, lastGains := (port, lo, g) :: u.lastGains.filter (fun x => !(x.1 == port && x.2.1 == lo)) }

/-- A tuner locks at a window's settings (R120, R121). -/
def lockTuner (t port : Nat) (x : Window) (s : State) : State :=
  modTuner t (fun u => { useGain port x.lo
    (if x.agc = 1 then (x.fixedGain : Int) else if t = 4 then u.gain else startGain u port x.lo) u with
    state := .locked, port := port }) s

/-! ### The steps of an open, a retune and a close -/

/-- The partner of a window, where a tuner serves as one, has reached the window's settings (R134, R135). -/
def lockPartner (w : Nat) (s : State) : State := match (windowAt s w).partner with
  | some (t, p) => if (tunerAt s t).role = .partner w then lockTuner t p (windowAt s w) s else s
  | none => s

/-- Begin the retune steps: blocks close, samples are discarded, and the new settings stand (R121, R172). -/
def beginRetune (w : Nat) (dest : Nat × Nat × Nat) (s : State) : State :=
  modWindow w (fun x => { x with state := .retuning, port := dest.1, widthKhz := dest.2.1, lo := dest.2.2, retuneTo := none })
    (gapWindow w s)

/-- The commands whose retune waited are answered at the end of the retune that now runs (R121). -/
def promoteRetunes (w : Nat) (s : State) : State :=
  { s with head := { s.head with deferred := s.head.deferred.map (fun x =>
      if x.key = .retuneNext w then { x with key := .retune w } else x) } }

/-- A retune that waited starts when the operation before it has ended (R123). -/
def startWaitingRetune (w : Nat) (s : State) : State :=
  match (windowAt s w).retuneTo with
  | some dest => if (windowAt s w).state = .open then beginRetune w dest (promoteRetunes w s) else s
  | none => s

/-- The commands that wait for a window's retunes are answered, as none will run. -/
def releaseRetunes (w : Nat) (s : State) : State :=
  release (.retuneNext w) plainReply (release (.retune w) plainReply s)

/-- What GET_WINDOW shows once the window is closed (R148). -/
def rememberTuners (w : Nat) (s : State) : State :=
  modWindow w (fun x => { x with last := {
    tuner := x.tuner
    gain := (x.tuner.map (fun t => (tunerAt s t).gain)).getD 0
    partner := x.partner
    partnerGain := (x.partner.map (fun p => (tunerAt s p.1).gain)).getD 0 } }) s

/-- Begin a close: samples stop, chains lose their input, the tuners that serve it ramp down; a run in its statistics is abandoned, and an
open or retune in progress is answered (R124, R336, R520; log 20). -/
def beginClose (w : Nat) (cause : Option Nat) (s : State) : State :=
  let s := rememberTuners w s
  let x := windowAt s w
  let s := match x.tuner with
    | some t => abandonRun t (modTuner t (fun u => { u with role := .releasing w }) s)
    | none => s
  let s := match x.partner with
    | some (t, _) =>
      if (tunerAt s t).role = .partner w || (tunerAt s t).role = .yielding w true then
        abandonRun t (modTuner t (fun u => { u with role := .releasing w }) s)
      else s
    | none => s
  let s := modWindow w (fun x => { x with state := .closing, retuneTo := none, closeAfter := false }) s
  let s := judgeWindow cause w s
  release (.windowOpen w) plainReply (releaseRetunes w s)

/-- The minimum gain of a window's gain chain: 0 dB of a tuner, 30 dB of attenuation of the HF input (R124, R141). -/
def leastGain (w : Nat) : Int := if w = 4 then 60 else 0

/-- A tuner's ramp ends: its gain is at its minimum, it leaves the crossbar and is WARM for the linger time (R124). -/
def tunerReleased (linger : Nat) (least : Int) (s : State) (u : Tuner) : Tuner :=
  if u.failed then { u with role := .unused, state := .off, lingerAt := none, gain := least }
  else { u with role := .unused, state := .warm, lingerAt := some (now s + linger * ticksPerSecond), gain := least }

/-- Post WINDOW_CLOSED (R384). -/
def postClosed (w : Nat) (cause : Option Nat) (s : State) : State :=
  let x := windowAt s w
  let t := if w = 4 then 0xFF else x.tuner.getD 0xFF
  post 0x8300 (windowHandle s w) (leBytes 1 t ++ zeros 3) cause s

/-- A window is closed: its tuners are WARM, it leaves the plan and WINDOW_CLOSED is posted (R124, R336). -/
def finishClose (w : Nat) (cause : Option Nat) (s : State) : State :=
  let s := postClosed w cause s
  let lg := (windowAt s w).linger
  let s := { s with front := { s.front with tuners := s.front.tuners.map (fun u =>
    if u.role = .releasing w then tunerReleased lg (leastGain w) s u else u) } }
  modWindow w (fun x => { x with state := .closed, inPlan := false, partner := none, tuner := none, closeAfter := false }) s

/-! ### WINDOW_OPEN -/

/-- Is another tuner window open (R126)? -/
def otherOpen (s : State) (w : Nat) : Bool :=
  ([0, 1, 2, 3] : List Nat).any (fun v => v != w && (match (windowAt s v).state with
    | .opening | .open | .retuning | .closing | .failed => true
    | _ => false))

/-- Is the window up, or coming up? -/
def windowUp (s : State) (w : Nat) : Bool := windowOpen s w || (windowAt s w).state == .opening

/-- Is a tuner held by a shut-down that has not finished (R338)? -/
def tunerReleasing (s : State) (t : Nat) : Bool := match (tunerAt s t).role with
  | .releasing _ => true
  | .freeing _ => true
  | _ => false

/-- Does an open of window `w` wait for an operation on its tuner, which serves another window: a hand-over, or an element
selection (R125)? -/
def tunerBusy (s : State) (w : Nat) : Bool :=
  let a := adcAt s w
  let picking := a.stats || a.deferred || a.interrupted
  w < 4 && (match (tunerAt s w).role with
    | .window v => v != w && ((windowAt s v).state == .retuning || (windowAt s v).state == .opening || picking)
    | .yielding v _ => v != w
    | .partner _ => picking
    | _ => false)

/-- The checks of WINDOW_OPEN (R31, R33, R125, R126, R338, R367, R606). -/
def windowOpenChecks (f : CmdFrame) (s : State) : Checks :=
  let w := f.target.index
  let j := judgeWin s f.target true
  { lenOk := f.payload.length = 16
    stale := [staleIf j 1 0xFFFF], noObj := [missingIf j 1 0xFFFF]
    modes := modesISE
    modeOk := !(s.set.mode = .sentry && w = 4)
    holds := (windowAt s w).state == .closing || (windowAt s w).closeAfter || tunerReleasing s w || tunerBusy s w
    busy := [failIf (windowUp s w) 1 1 0xFFFF]
    cap := [failIf (s.set.mode = .sentry && otherOpen s w) 4 7 0xFFFF,
            failIf (w = 4 && (tunerAt s 4).failed) 4 8 0xFFFF,
            failIf (runsIn s.set.mode true && (pickTuner s w).isNone) 4 8 0xFFFF,
            planOver s (modWindow w (fun x => { x with inPlan := true, state := .stopped }) s)]
    clamps := (clampWindow s w f.payload).clamped }

/-- Put a window into the plan with settings and a SENTRY mark: it takes its next generation, and its counts begin anew (R148,
R331, R358). -/
def planWindow (w : Nat) (c : WinSettings) (mark : Bool) (s : State) : State :=
  let (n, s) := takeSerial s
  modWindow w (fun x => { x with
    gen := nextGen x.gen, inPlan := true, sentry := mark, created := n
    port := c.port, agc := c.agc, fixedGain := c.gain, widthKhz := c.width, lo := c.lo, linger := c.linger
    clips := 0, txOverlap := 0, retunes := 0, retuneTo := none, state := .stopped, last := {} }) s

/-- The effect of WINDOW_OPEN: a window opened in SENTRY is marked for it (R38, R358); in IDLE the window waits for its mode, otherwise its tuner is brought up and the response follows
at the first samples (R120, R331, R357, R358). -/
def windowOpenBody (f : CmdFrame) (queued : Bool) (s : State) : State × Option Reply :=
  let w := f.target.index
  let c := clampWindow s w f.payload
  let x := windowAt s w
  let s := bumpPlan (planWindow w c (s.set.mode == .sentry || (x.inPlan && x.sentry)) s)
  let h := windowHandle s w
  if runsIn s.set.mode true then
    let glance := ((pickTuner s w).map (tunerGlances s)).getD false
    let d := { deferredOf 0x0300 f (queued || glance) with target := h, clamped := c.clamped }
    (openWindow w (deferOn (.windowOpen w) d s), none)
  else (s, some { target := h, clamped := c.clamped })

/-- WINDOW_OPEN (R120, R367). -/
def execWindowOpen (f : CmdFrame) (s : State) : Host.Outcome State Fault Refusal :=
  .next (command 0x0300 f (windowOpenChecks f) (windowOpenBody f false) s)

/-- An open of W4 in automatic mode starts from an attenuation that the manual does not give: a free 6 dB step. -/
def hfStart (w : Nat) (s : State) : State :=
  if w = 4 && (windowAt s 4).agc = 0 then
    let (n, s) := drawNat s
    modTuner 4 (fun u => { u with gain := (n % 6 * 12 : Nat) }) s
  else s

/-- A window opens: Kerf accepts its first samples; coverage is judged, and the command is answered (R118, R120, R146). An open that
waits for a ramp has not come so far (R265). -/
def windowOpened (w : Nat) (s : State) : State :=
  if (windowAt s w).state = .opening && !windowRamping s w then
    let cause := (waiterTag (.windowOpen w) s).or (waiterTag .commit s)
    let s := match (windowAt s w).tuner with
      | some t => lockTuner t (windowAt s w).port (windowAt s w) s
      | none => s
    let s := hfStart w (lockPartner w s)
    let s := iqRetune w (modWindow w (fun x => { x with state := .open }) s)
    let s := noteHarmonics [w] cause (judgeWindow cause w s)
    startWaitingRetune w (releaseDeferred (release (.windowOpen w) plainReply s))
  else s

/-! ### WINDOW_RETUNE -/

/-- Is a window's element selection interruption running, on its tuner or its partner's (R123)? -/
def interrupted (s : State) (w : Nat) : Bool :=
  let x := windowAt s w
  ((x.tuner.map (fun t => (adcAt s t).interrupted)).getD false) ||
  ((x.partner.map (fun p => (adcAt s p.1).interrupted)).getD false)

/-- The checks of a command that names a window of the plan or an open one. -/
def windowChecks (f : CmdFrame) (len : Nat) (modes : List Mode) (s : State) : Checks :=
  let j := judgeWin s f.target ((windowAt s f.target.index).inPlan && (windowAt s f.target.index).state != .closing)
  { lenOk := f.payload.length = len, stale := [staleIf j 1 0xFFFF], noObj := [missingIf j 1 0xFFFF], modes := modes
    modeOk := !(s.set.mode = .sentry && f.target.index = 4) }

/-- Change an open or planned window in place: gain and linger fields at once; a changed port, width or LO through the retune
steps, after any operation that is under way. Of several retunes that wait, the last one's settings are taken in one retune, which
answers them all and counts once (DESIGN CHOICE, log 166). The second part says that the retune steps are to run (R121 to R123, R139,
R367). -/
def retuneWindow (w : Nat) (c : WinSettings) (s : State) : State × Bool :=
  let x := windowAt s w
  let s := modWindow w (fun x => { x with agc := c.agc, fixedGain := c.gain, linger := c.linger }) s
  let fix (t : Option Nat) (port : Nat) (s : State) : State := match t with
    | some t => modTuner t (useGain port x.lo (c.gain : Int)) s
    | none => s
  let s := if c.agc = 1 && x.state = .open then
      fix (x.partner.map (·.1)) ((x.partner.map (·.2)).getD 0) (fix x.tuner x.port s)
    else s
  let dest := (c.port, c.width, c.lo)
  let cur := x.retuneTo.getD (x.port, x.widthKhz, x.lo)
  let wait := (modWindow w (fun x => { x with retuneTo := some dest }) s, true)
  if w = 4 || dest = cur then (s, false)
  else match x.state with
    | .open => if interrupted s w then wait else (beginRetune w dest s, true)
    | .opening => wait
    | .retuning => wait
    | _ => (modWindow w (fun x => { x with port := c.port, widthKhz := c.width, lo := c.lo }) s, false)

/-- Does a retune change a setting of its window (R122)? -/
def retuneChanges (x : Window) (w : Nat) (c : WinSettings) : Bool :=
  x.agc != c.agc || x.fixedGain != c.gain || x.linger != c.linger ||
  (w != 4 && (c.port, c.width, c.lo) != x.retuneTo.getD (x.port, x.widthKhz, x.lo))

/-- The effect of WINDOW_RETUNE: the response follows the retune steps, or is given at once where none run. One that changes
nothing does nothing (R122). -/
def windowRetuneBody (f : CmdFrame) (s : State) : State × Option Reply :=
  let w := f.target.index
  let c := clampWindow s w f.payload
  if !retuneChanges (windowAt s w) w c then (s, some { target := f.target, clamped := c.clamped })
  else
    let r := retuneWindow w c (bumpPlan s)
    let key : WaitKey := if (windowAt r.1 w).retuneTo.isSome then .retuneNext w else .retune w
    if r.2 then (deferOn key { deferredOf 0x0301 f false with clamped := c.clamped } r.1, none)
    else (r.1, some { target := f.target, clamped := c.clamped })

/-- WINDOW_RETUNE (R121, R367). -/
def execWindowRetune (f : CmdFrame) (s : State) : Host.Outcome State Fault Refusal :=
  .next (command 0x0301 f (windowChecks f 16 modesISE) (windowRetuneBody f) s)

/-- A retune is done: samples at the new LO, chains restart with GAP_BEFORE, and the retune is answered; the same end completes
a hand-over and the bring-up of a partner (R118, R121, R122, R134, R138, R146). -/
def retuneDone (w : Nat) (s : State) : State :=
  let x := windowAt s w
  let cause := (waiterTag (.retune w) s).or (waiterTag .commit s)
  if windowRamping s w then s
  else if x.state = .retuning then
    let s := match x.tuner with
      | some t => lockTuner t x.port x s
      | none => s
    let s := lockPartner w s
    let s := iqRetune w (modWindow w (fun x => { x with state := .open, retunes := x.retunes + 1 }) s)
    let s := noteHarmonics [w] cause (judgeWindow cause w s)
    startWaitingRetune w (releaseDeferred (release (.retune w) plainReply s))
  else if x.state = .open && (x.partner.map (fun p => (tunerAt s p.1).state == .warm || (tunerAt s p.1).state == .off)).getD false then
    release (.retune w) plainReply (judgeWindow cause w (lockPartner w s))
  else s

/-! ### WINDOW_CLOSE -/

/-- The checks of WINDOW_CLOSE; a second close of a closing window is accepted (R337). -/
def windowCloseChecks (f : CmdFrame) (s : State) : Checks :=
  let x := windowAt s f.target.index
  let j := judgeWin s f.target (x.inPlan || x.state = .closing)
  { lenOk := f.payload.length = 0, stale := [staleIf j 1 0xFFFF], noObj := [missingIf j 1 0xFFFF], modes := modesISE }

/-- The effect of WINDOW_CLOSE: the ramp begins, or, for a window that does not run, the close ends at once (R124, R336,
R520). -/
def windowCloseBody (f : CmdFrame) (s : State) : State × Option Reply :=
  let w := f.target.index
  let x := windowAt s w
  let ok : Option Reply := some { target := f.target }
  if x.state = .closing || x.closeAfter then (s, ok)
  else
    let s := bumpPlan s
    if x.state = .stopped || x.state = .failed then
      (finishClose w (some f.tag) (modWindow w (fun x => { x with tuner := none }) s), ok)
    else if interrupted s w then
      (deferOn (.closing w) (deferredOf 0x0302 f false) (modWindow w (fun x => { x with closeAfter := true }) s), none)
    else (beginClose w (some f.tag) s, ok)

/-- WINDOW_CLOSE (R124). -/
def execWindowClose (f : CmdFrame) (s : State) : Host.Outcome State Fault Refusal :=
  .next (command 0x0302 f (windowCloseChecks f) (windowCloseBody f) s)

/-! ### WINDOW_GANG and WINDOW_UNGANG -/

/-- May a tuner become the partner of a window (R134, R368)? -/
def partnerOk (s : State) (w t : Nat) : Bool :=
  let own := windowAt s t
  w < 4 && (windowAt s w).tuner != some t && (own.state == .closed || own.state == .stopped && !own.inPlan) && tunerFree s t

/-- The checks of WINDOW_GANG (R134, R265, R338, R368). A tuner whose window's close has not finished gives NO_CAPACITY; one that a
glance or an ungang released is waited for. A gang of a window that is already ganged names no free slot for a
second partner. -/
def windowGangChecks (f : CmdFrame) (s : State) : Checks :=
  let w := f.target.index
  let t := satNat 3 (field f.payload 0 1)
  { windowChecks f 4 modesIS s with
    holds := (match (tunerAt s t).role with
      | .freeing _ => true
      | _ => false)
    cap := [failIf (!partnerOk s w t || (windowAt s w).partner.isSome) 4 8 0xFFFF,
            planOver s (modWindow w (fun x => { x with partner := some (t, 0) }) s)]
    clamps := 3 < field f.payload 0 1 || 5 < field f.payload 1 1 }

/-- The effect of WINDOW_GANG: the tuner becomes the partner on its port; while the window is open it is brought to the
window's settings and the response follows, after the ramp of a glance that gives way (R134, R135, R265). -/
def windowGangBody (f : CmdFrame) (queued : Bool) (s : State) : State × Option Reply :=
  let w := f.target.index
  let t := satNat 3 (field f.payload 0 1)
  let p := satNat 5 (field f.payload 1 1)
  let cl := 3 < field f.payload 0 1 || 5 < field f.payload 1 1
  let s := bumpPlan (modWindow w (fun x => { x with partner := some (t, p) }) s)
  if windowUp s w then
    let d := { deferredOf 0x0304 f (queued || tunerGlances s t) with clamped := cl }
    (takeTuner t w true p (deferOn (.retune w) d s), none)
  else
    let s := match (tunerAt s t).role with
      | .glance fo => endGlance none fo s
      | _ => s
    (s, some { target := f.target, clamped := cl })

/-- WINDOW_GANG (R134). -/
def execWindowGang (f : CmdFrame) (s : State) : Host.Outcome State Fault Refusal :=
  .next (command 0x0304 f (windowGangChecks f) (windowGangBody f false) s)

/-- The branches on a window. -/
def branchesOn (s : State) (w : Nat) : List Nat := (s.prog.branches.filter (fun b => b.chain.window = w)).map (·.o.idx)

/-- Begin the removal of a branch; one that does not run is removed at once (R336). -/
def shutBranch (i : Nat) (cause : Nat) (s : State) : State :=
  match s.prog.branches.find? (·.o.idx == i) with
  | none => s
  | some b =>
    if b.o.removing then s
    else if chainStarted b.chain && !b.o.shed then
      { s with prog := { s.prog with branches := s.prog.branches.map (fun x =>
        if x.o.idx = i then { x with o := { x.o with removing := true } } else x) } }
    else finishBranch i (some cause) s

/-- The effect of WINDOW_UNGANG: the branches are removed and the partner is released through a ramp (R137). -/
def windowUngangBody (f : CmdFrame) (s : State) : State × Option Reply :=
  let w := f.target.index
  match (windowAt s w).partner with
  | none => (s, some { target := f.target })
  | some (t, _) =>
    let s := (branchesOn s w).foldl (fun u i => shutBranch i f.tag u) s
    let lg := (windowAt s w).linger
    let s := if (tunerAt s t).role = .partner w || (tunerAt s t).role = .yielding w true then modTuner t (fun u => { u with role := .freeing lg }) (dropRun t s) else s
    (bumpPlan (modWindow w (fun x => { x with partner := none }) s), some { target := f.target })

/-- WINDOW_UNGANG (R137). -/
def execWindowUngang (f : CmdFrame) (s : State) : Host.Outcome State Fault Refusal :=
  .next (command 0x0305 f (windowChecks f 0 modesIS) (windowUngangBody f) s)

/-- Does an open or a gang still wait for its resource (R338)? -/
def openHeld (op : Nat) (f : CmdFrame) (s : State) : Bool :=
  if op = 0x0300 then (windowOpenChecks f s).holds else (windowGangChecks f s).holds

/-- The opens and gangs that waited for an operation are handled again (R125, R338). -/
def rerunOpens (s : State) : State :=
  rerunHeld [0x0300, 0x0304] openHeld (fun op f t =>
    if op = 0x0300 then handle 0x0300 f true (windowOpenChecks f t) (windowOpenBody f true) t
    else handle 0x0304 f true (windowGangChecks f t) (windowGangBody f true) t) s

/-- A placement of the sweep loses its tuner: it waits for another one, its candidates with it, and the spectrum of the others begins
without it (R138, R252; log 173). -/
def sweepLoses (t : Nat) (s : State) : State :=
  let hit (w : SurveyWin) : Bool := w.tuner == t && (w.stage == .opening || w.stage == .up)
  let wins := s.survey.wins.map (fun w => if hit w then { w with stage := if t = 4 then .past else .waiting } else w)
  let up := wins.any (·.stage == .up) && !wins.any (·.stage == .opening)
  { s with survey := { s.survey with
    wins := wins
    cands := s.survey.cands.filter (fun c => !s.survey.wins.any (fun w => hit w && w.band == c.band))
    spectrumAt := if up then some (s.survey.spectrumAt.getD (now s)) else s.survey.spectrumAt } }

/-- A ramp ends: the window closes, its tuner is WARM, and the commands held behind it are handled (R124, R125, R338). For a
tuner that a glance or an ungang released, the number is the tuner's; what took a glance's tuner goes on (R265). -/
def windowClosed (w : Nat) (s : State) : State :=
  let s := match (tunerAt s w).role with
    | .freeing lg => modTuner w (tunerReleased lg 0 s) s
    | .yielding _ _ => modTuner w tunerYielded s
    | _ => s
  rerunOpens (if (windowAt s w).state = .closing then finishClose w none s else s)

/-- LINGER_EXPIRY: a WARM tuner without a use goes OFF when its linger time ends (R113, R124). -/
def execLingerExpiry (t : Nat) (s : State) : Host.Outcome State Fault Refusal :=
  within s (t < 5) (
    match (tunerAt s t).lingerAt with
    | some due =>
      if (tunerAt s t).role = .unused then
        modTuner t (fun u => { u with state := .off, lingerAt := none }) (passTo due s)
      else s
    | none => s)

/-! ### Failures (R137, R138, R606) -/

/-- The tuner that takes over a window: a free one, the lowest WARM first, then the partner that is ganged with it (R138; log 19). A window that was opening goes on
opening, on the other tuner (R120). -/
def handOver (w failed : Nat) (s : State) : State :=
  let x := windowAt s w
  let st : WinState := if x.state = .opening then .opening else .retuning
  let s := gapWindow w s
  match if w = 4 then none else anyTuner s with
  | some t =>
    let s := takeTuner t w false x.port (modWindow w (fun x => { x with state := st, tuner := some t }) s)
    let s := modAdc t (fun a => { a with pending := true, pendingAt := now s }) s
    note 0x0302 0xFF (handleNum (windowHandle s w)) t s
  | none =>
    match x.partner.filter (fun p => (tunerAt s p.1).role == .partner w && !(tunerAt s p.1).failed) with
    | some (t, _) =>
      let s := modTuner t (fun u => { u with role := .window w, port := x.port }) s
      let s := modWindow w (fun x => { x with state := st, tuner := some t, partner := none }) s
      let s := modAdc t (fun a => { a with pending := true, pendingAt := now s }) s
      note 0x0302 0xFF (handleNum (windowHandle s w)) t (judgeWindow none w s)
    | none =>
      let s := modWindow w (fun x => { x with state := .failed, tuner := none, retuneTo := none }) s
      let s := note 0x0303 0xFF (handleNum (windowHandle s w)) failed s
      release (.windowOpen w) plainReply (releaseRetunes w (judgeWindow none w s))

/-- A window loses its partner to a failure, and another free tuner takes its place (R137, R138). -/
def partnerFails (w : Nat) (s : State) : State :=
  let port := ((windowAt s w).partner.map (·.2)).getD 0
  let s := judgeWindow none w (modWindow w (fun x => { x with partner := none }) s)
  match anyTuner s with
  | some u => takeTuner u w true port (modWindow w (fun x => { x with partner := some (u, port) }) s)
  | none => s

/-- A failed tuner leaves what it served (R137, R138, R264). -/
def tunerFails (t : Nat) (s : State) : State :=
  let role := (tunerAt s t).role
  let s := dropRun t (modTuner t (fun u => { u with failed := true, state := .off, role := .unused, lingerAt := none }) s)
  match role with
  | .window w => if windowUp s w then handOver w t s else s
  | .yielding w false => if windowUp s w then handOver w t s else s
  | .partner w => partnerFails w s
  | .yielding w true => partnerFails w s
  | .glance fo => modTuner t (fun u => { u with role := .unused, state := .off }) (endGlance none fo s)
  | .survey => sweepLoses t s
  | .releasing w =>
    if (windowAt s w).tuner = some t then modWindow w (fun x => { x with tuner := none }) s else s
  | _ => s

/-- A window's partner is taken for it; another tuner serves when it is not free, and none ends the gang (R134, R137). -/
def bringPartner (w : Nat) (s : State) : State := match (windowAt s w).partner with
  | none => s
  | some (t, p) =>
    if s.set.mode != .serve || (tunerAt s t).role = .partner w then s
    else if tunerFree s t then takeTuner t w true p s
    else match anyTuner s with
      | some u => takeTuner u w true p (modWindow w (fun x => { x with partner := some (u, p) }) s)
      | none => modWindow w (fun x => { x with partner := none }) s

/-- FAILED_WINDOW_REOPEN: a FAILED window opens by R605 once a tuner is WARM or OFF, and its partner comes up with it (R134, R606). -/
def execFailedWindowReopen (w : Nat) (s : State) : Host.Outcome State Fault Refusal :=
  within s (w < 5) (
    if (windowAt s w).state = .failed && (windowAt s w).inPlan && runsIn s.set.mode (windowAt s w).sentry &&
      (pickTuner s w).isSome then bringPartner w (openWindow w s) else s)

/-! ### Gain control (R127 to R133, R141, R145, R607) -/

/-- The step of a gain chain in 0.5 dB units: 1 for a tuner, 12 for the HF attenuator (R141). -/
def gainStep (t : Nat) : Int := if t = 4 then 12 else 1

/-- The gain at which the AGC settles for a power in 0.1 dBm; the HF input's tie goes either way (R607). -/
def settledGain (t : Nat) (p : Int) (up : Bool) : Int :=
  if t = 4 then
    let q := p + 250
    let n := if up then (q + 30) / 60 else -((30 - q) / 60)
    12 * clampInt 0 5 n
  else clampInt 0 124 ((-48 - p) / 5)

/-- How far a gain is above the minimum gain of its chain, in 0.5 dB: an attenuator's minimum gain is its 30 dB. -/
def aboveMinimum (t : Nat) (g : Int) : Int := if t = 4 then 60 - g else g

/-- Does an interval clip: more than 1 sample in 100,000 at full scale (R127)? -/
def intervalClips (clipped samples : Nat) : Bool := samples < 100000 * clipped

/-- The gains that clipped in the last 2 s, with the one now used where it clips (R127). -/
def clipHistory (s : State) (clipping : Bool) (u : Tuner) : List (Int × Nat) :=
  let recent := u.clipGains.filter (fun g => now s < g.2 + 2 * ticksPerSecond)
  if clipping then (u.gain, now s) :: recent else recent

/-- What a tuner's gain tells the external amplifier of its port: since when it has been at its minimum and clipping, and since when 10 dB
above it (R132). -/
def watchGain (s : State) (t : Nat) (clipping : Bool) (u : Tuner) : Tuner :=
  { u with
    clipAt := if aboveMinimum t u.gain = 0 && clipping then some (u.clipAt.getD (now s)) else none
    above10At := if 20 ≤ aboveMinimum t u.gain then some (u.above10At.getD (now s)) else none }

/-- An interval of a tuner whose gain stands still, in fixed mode or frozen by a transmission: the AGC only counts its clipping
(R127, R129, R132, R145). -/
def holdGain (t clipped samples : Nat) (s : State) : State :=
  let clipping := intervalClips clipped samples
  modTuner t (fun u => watchGain s t clipping { u with clipGains := clipHistory s clipping u }) s

/-- One automatic gain update: gain falls on clipping, by an amount the manual leaves open; otherwise it falls to where it
settles, or rises by at most 0.5 dB per 10 ms, never to a value that caused clipping in the last 2 s (R127, R141). -/
def agcTuner (t port lo : Nat) (p : Int) (clipped samples : Nat) (s : State) : State :=
  let (n, s) := drawNat s
  let (up, s) := drawBool s
  let u := tunerAt s t
  let clipping := intervalClips clipped samples
  let recent := clipHistory s clipping u
  let toward (g : Int) : Int := if t = 4 then g - 12 else g + 1
  let away (g : Int) (k : Nat) : Int := if t = 4 then clampInt 0 60 (g + 12 * ((k % 5 : Nat) + 1)) else clampInt 0 124 (g - ((k % 124 : Nat) + 1))
  let want := settledGain t p up
  let due := u.raisedAt + ms (if t = 4 then 120 else 10) ≤ now s
  let raise := aboveMinimum t u.gain < aboveMinimum t want
  let g' := if clipping then away u.gain n
    else if raise then (if due && !recent.any (fun x => x.1 == toward u.gain) then toward u.gain else u.gain)
    else want
  modTuner t (fun u => watchGain s t clipping (useGain port lo g' { u with
    clipGains := recent
    raisedAt := if !clipping && raise && g' != u.gain then now s else u.raisedAt })) s

/-- Is an external amplifier out of service: bypassed, or its ball not at the alternate function (R132, R583)? -/
def lnaOut (s : State) (i : Nat) : Bool := s.front.bypassed.getD i false || (s.set.gpio.getD i {}).func ≠ 2

/-- Power referred to an external amplifier's input, in 0.1 dBm (R133). -/
def referPower (s : State) (port : Nat) (p : Int) : Int :=
  match (s.set.lna.zipIdx).find? (fun x => x.1.port == port && port < 6) with
  | some (e, i) => if lnaOut s i then p + 5 * (e.loss : Int) else p - 5 * (e.gain : Int)
  | none => p

/-- Is a tuner's gain frozen by a transmission, for at most 50 ms (R145)? -/
def gainFrozen (s : State) (t : Nat) : Bool := match (tunerAt s t).frozenAt with
  | some at' => now s < at' + ms 50 && (match s.front.txUntil with
      | some e => decide (now s < e)
      | none => true)
  | none => false

/-- AGC_UPDATE: the gain follows the composite power, clips are counted, and a high clip rate is noted once a minute
(R127 to R130, R141, R145, R607). -/
def execAgcUpdate (w : Nat) (m : AgcMeas) (s : State) : Host.Outcome State Fault Refusal :=
  within s (w < 5) (
    let x := windowAt s w
    match x.tuner with
    | none => s
    | some t =>
      if x.state ≠ .open then s
      else
        let frozen := gainFrozen s t
        let all := m.clipped + m.partnerClipped
        let s := modWindow w (fun x => { x with
          power := referPower s (if w = 4 then 6 else x.port) m.powerTenthDbm
          clips := x.clips + BitVec.ofNat 32 all
          txOverlap := if frozen then x.txOverlap + BitVec.ofNat 32 all else x.txOverlap }) s
        let s := if frozen || x.agc = 1 then holdGain t m.clipped m.samples s
          else agcTuner t x.port x.lo m.powerTenthDbm m.clipped m.samples s
        let s := match x.partner with
          | some (u, p) => if gainFrozen s u || x.agc = 1 then holdGain u m.partnerClipped m.samples s
              else agcTuner u p x.lo m.partnerPowerTenthDbm m.partnerClipped m.samples s
          | none => s
        if m.samplesLastS < 100000 * m.clippedLastS && (match x.clipNoteAt with
            | some at' => at' + 60 * ticksPerSecond ≤ now s
            | none => true) then
          let s := note 0x0301 0xFF (handleNum (windowHandle s w)) (windowAt s w).clips.toNat s
          modWindow w (fun x => { x with clipNoteAt := some (now s) }) s
        else s)

/-- The tuners that take a port and are not OFF: for a window, as a partner, for a glance, for the survey, or ramping down (R112,
R113). -/
def tunersOnPort (s : State) (port : Nat) : List Nat :=
  ([0, 1, 2, 3] : List Nat).filter (fun t =>
    (tunerAt s t).state != .off && (tunerAt s t).role != .unused && (tunerAt s t).port == port)

/-- LNA_BYPASS: an external amplifier is bypassed after a tuner on its port has been at minimum gain and clipping for 100 ms
(R132). -/
def execLnaBypass (n : Nat) (s : State) : Host.Outcome State Fault Refusal :=
  within s (n < 4) (
    let port := (s.set.lna.getD n {}).port
    let due := (tunersOnPort s port).filterMap (fun t => (tunerAt s t).clipAt)
    match due with
    | [] => s
    | d :: ds =>
      if 5 < port || s.front.bypassed.getD n false then s
      else
        let s := passTo (ds.foldl min d + ms 100) s
        { s with front := { s.front with bypassed := setAt s.front.bypassed n true } })

/-- LNA_RETURN: it returns when every tuner on the port has had 10 dB above its minimum for 2 s (R132). -/
def execLnaReturn (n : Nat) (s : State) : Host.Outcome State Fault Refusal :=
  within s (n < 4) (
    let port := (s.set.lna.getD n {}).port
    let ts := tunersOnPort s port
    if s.front.bypassed.getD n false && ts.all (fun t => (tunerAt s t).above10At.isSome) then
      let s := passTo ((ts.map (fun t => ((tunerAt s t).above10At).getD 0)).foldl max 0 + 2 * ticksPerSecond) s
      { s with front := { s.front with bypassed := setAt s.front.bypassed n false } }
    else s)

/-- AGC_FREEZE_CAP: 50 ms into a transmission each frozen AGC runs again (R145). -/
def execAgcFreezeCap (s : State) : Host.Outcome State Fault Refusal :=
  .next (
    let starts := s.front.tuners.filterMap (·.frozenAt)
    match starts with
    | [] => s
    | a :: as =>
      let s := passTo (as.foldl min a + ms 50) s
      { s with front := { s.front with tuners := s.front.tuners.map (fun u => { u with frozenAt := none }) } })

/-! ### LNA_CONFIG -/

/-- One entry of LNA_CONFIG, clamped (R369). -/
def readLna (p : List Byte) (off : Nat) : LnaEntry :=
  let port := field p off 1
  { port := if port = 0xFF then 0xFF else satNat 5 port
    polarity := satNat 1 (field p (off + 1) 1), gain := satNat 60 (field p (off + 2) 1), loss := satNat 12 (field p (off + 3) 1) }

/-- An LNA entry's bytes. -/
def lnaBytes (e : LnaEntry) : List Byte := leBytes 1 e.port ++ leBytes 1 e.polarity ++ leBytes 1 e.gain ++ leBytes 1 e.loss

/-- The checks of LNA_CONFIG. -/
def lnaConfigChecks (f : CmdFrame) (_ : State) : Checks :=
  { lenOk := f.payload.length = 16, modes := modesIYSE }

/-- The four entries of LNA_CONFIG's payload (R369). -/
def lnaAsked (f : CmdFrame) : List LnaEntry :=
  [readLna f.payload 0, readLna f.payload 4, readLna f.payload 8, readLna f.payload 12]

/-- The effect and the reply of LNA_CONFIG. An entry that is assigned anew stays bypassed if it was (DESIGN CHOICE, log 163). -/
def lnaConfigBody (f : CmdFrame) (s : State) : State × Option Reply :=
  let l := lnaAsked f
  (setSettings { s.set with lna := l } s,
    some { target := f.target, clamped := l.flatMap lnaBytes != f.payload })

/-- LNA_CONFIG (R131, R369). -/
def execLnaConfig (f : CmdFrame) (s : State) : Host.Outcome State Fault Refusal :=
  .next (command 0x0306 f (lnaConfigChecks f) (lnaConfigBody f) s)

/-- The checks of GET_LNA_CONFIG. -/
def getLnaConfigChecks (f : CmdFrame) (_ : State) : Checks :=
  { lenOk := f.payload.length = 0, modes := modesAll }

/-- The effect and the reply of GET_LNA_CONFIG. -/
def getLnaConfigBody (f : CmdFrame) (s : State) : State × Option Reply :=
  (s, replyWith f (s.set.lna.flatMap lnaBytes))

/-- GET_LNA_CONFIG (R359, R369). -/
def execGetLnaConfig (f : CmdFrame) (s : State) : Host.Outcome State Fault Refusal :=
  .next (command 0x0307 f (getLnaConfigChecks f) (getLnaConfigBody f) s)

/-! ### GET_WINDOW -/

/-- The code of a tuner state (R119). -/
def TunerState.code : TunerState → Nat
  | .off => 0 | .warm => 1 | .locked => 2 | .serving => 3

/-- The code of a width (R148). -/
def widthCode (w khz : Nat) : Nat :=
  if w = 4 then 5 else if khz = 6000 then 0 else if khz = 12000 then 1 else if khz = 24000 then 2
  else if khz = 48000 then 3 else 4

/-- Is an external amplifier on (R131), and is it bypassed: bits 0 and 1? -/
def lnaState (s : State) (port : Nat) : Bool × Bool :=
  match (s.set.lna.zipIdx).find? (fun x => x.1.port == port && port < 6) with
  | some (_, i) =>
    let by' := lnaOut s i
    (!by' && !(tunersOnPort s port).isEmpty, by')
  | none => (false, false)

/-- Is a reception uncovered by R118: its window does not cover its channel, or does not run? -/
def uncovered (s : State) (r : Reception) : Bool :=
  !r.removing && !(if chainStarted r.chain then r.chain.covered else chainCovered s r.chain)

/-- The GET_WINDOW response (R148). A window that no tuner serves shows those that served it last; a FAILED window shows none
(log 131). -/
def windowPayload (s : State) (w : Nat) : List Byte :=
  let x := windowAt s w
  let closed := x.state == .closed || x.state == .stopped
  let t := x.tuner
  let serving := if closed then x.last.tuner else t
  let partner := if closed then x.last.partner else x.partner
  let st := if closed then 0 else (t.map (fun t => (tunerAt s t).state.code)).getD 0
  let lna := lnaState s x.port
  let frozen := (t.map (gainFrozen s)).getD false
  let flags := (x.state == .failed).toNat + 2 * partner.isSome.toNat +
    (if w = 4 then 0 else 4 * lna.1.toNat + 8 * lna.2.toNat) + 16 * frozen.toNat + 32 * (interrupted s w).toNat +
    64 * (x.state == .retuning).toNat
  let none' := (s.prog.receptions.filter (fun r => chainWindow r.chain == w && uncovered s r)).length
  handleBytes (windowHandle s w) ++ leBytes 1 st ++ leBytes 1 flags ++
  leBytes 1 (if w = 4 then 0xFF else serving.getD 0xFF) ++ leBytes 1 (if w = 4 then 6 else x.port) ++
  leBytes 4 (if w = 4 then 0 else x.lo) ++ leBytes 1 (widthCode w x.widthKhz) ++
  leBytes 1 ((partner.map (·.1)).getD 0xFF) ++ leBytes 1 ((partner.map (·.2)).getD 0xFF) ++ leBytes 1 x.agc ++
  leInt 2 x.power ++ leInt 2 (if closed then x.last.gain else (t.map (fun t => (tunerAt s t).gain)).getD 0) ++
  leInt 2 (if closed then x.last.partnerGain else (partner.map (fun p => (tunerAt s p.1).gain)).getD 0) ++ leBytes 2 x.image ++
  leBytes 4 x.clips.toNat ++ leBytes 4 x.txOverlap.toNat ++ leBytes 4 x.retunes.toNat ++ leBytes 2 none' ++ zeros 2

/-- The checks of GET_WINDOW. -/
def getWindowChecks (f : CmdFrame) (s : State) : Checks :=
  let j := judgeWin s f.target true
  { lenOk := f.payload.length = 0, stale := [staleIf j 1 0xFFFF], noObj := [missingIf j 1 0xFFFF], modes := modesAllC }

/-- The effect and the reply of GET_WINDOW. -/
def getWindowBody (f : CmdFrame) (s : State) : State × Option Reply :=
  (s, replyWith f (windowPayload s f.target.index))

/-- GET_WINDOW: also of a closed window, with its last settings (R148, R337). -/
def execGetWindow (f : CmdFrame) (s : State) : Host.Outcome State Fault Refusal :=
  .next (command 0x0303 f (getWindowChecks f) (getWindowBody f) s)

end Sys2Proof.Machine
end

