-- ==== Sys2Proof/Machine/Reception.lean ====
section
/-!
DEFINITION. Reception.lean: adding, changing, reading and removing receptions, diversity branches and raw taps, and their
alert settings (R136, R154, R177 to R180, R187, R215, R246, R371 to R373, R176).
-/

namespace Sys2Proof.Machine

/-! ### Options (R178, R215) -/

/-- Read the analogue options; fields that do not apply to the kind are 0 (R178). -/
def readAna (k : Kind) (p : List Byte) (off : Nat) : AnaOpts × Bool :=
  let b (i : Nat) := field p (off + i) 1
  let th := field p (off + 8) 2
  let od := field p (off + 10) 2
  if k = .am then
    ({ detection := satNat 3 (b 0), softMute := satNat 1 (b 4), blanker := satNat 1 (b 7), threshold := satNat 400 th },
      3 < b 0 || 1 < b 4 || 1 < b 7 || 400 < th)
  else
    ({ deemph := satNat 2 (b 1), stereo := satNat 2 (b 2), eq := satNat 1 (b 3), softMute := satNat 1 (b 4)
       rbds := satNat 1 (b 5), streams := b 6 % 16, threshold := satNat 300 th, overdev := clampNat 500 1500 od },
      2 < b 1 || 2 < b 2 || 1 < b 3 || 1 < b 4 || 1 < b 5 || 300 < th || clampNat 500 1500 od != od)

/-- The analogue options as read back. -/
def anaBytes (a : AnaOpts) : List Byte :=
  leBytes 1 a.detection ++ leBytes 1 a.deemph ++ leBytes 1 a.stereo ++ leBytes 1 a.eq ++ leBytes 1 a.softMute ++
  leBytes 1 a.rbds ++ leBytes 1 a.streams ++ leBytes 1 a.blanker ++ leBytes 2 a.threshold ++ leBytes 2 a.overdev ++ zeros 4

/-- Read the digital options; the mode and occupancy apply to DRM30 alone (R215). -/
def readDig (k : Kind) (p : List Byte) (off : Nat) : DigOpts × Bool :=
  let id := field p off 4 % (if k = .dab then 65536 else 16777216)
  let m := field p (off + 4) 1
  let o := field p (off + 5) 1
  if k = .drm30 then ({ identity := id, mode := satNat 4 m, occupancy := satNat 6 o }, 4 < m || 6 < o)
  else ({ identity := id }, false)

/-- The digital options as read back. -/
def digBytes (d : DigOpts) : List Byte :=
  leBytes 4 d.identity ++ leBytes 1 d.mode ++ leBytes 1 d.occupancy ++ zeros 10

/-! ### Creating and changing a reception (R154, R177, R371) -/

/-- The current generation of a reception's index (R331). -/
def genReception (s : State) (i : Nat) : Option Nat := s.gens.reception[i]?

/-- The kind and window a reception payload asks for, clamped. -/
def askedKind (p : List Byte) : Kind := kindOf (field p 0 1)
/-- The window a payload names at an offset, clamped. -/
def askedWindow (p : List Byte) (off : Nat) : Nat := satNat 4 (field p off 1)

/-- The program number used for a full table, so that admission refuses (R177, R211). -/
def freeProgramme (s : State) : Nat := (freeIndex 1024 (s.prog.programmes.map (·.idx))).getD 1024

/-- Create the programme of an analogue reception (R177). -/
def addAnalogueProgramme (i : Nat) (s : State) : State :=
  let n := freeProgramme s
  let g := nextGen (s.gens.programme.getD n 0)
  let (ser, s) := takeSerial s
  { s with
    gens := { s.gens with programme := setAt s.gens.programme n g }
    prog := { s.prog with programmes := s.prog.programmes ++
      [{ idx := n, gen := g, reception := i, decl := { codec := 0xFF }, serial := ser }] } }

/-- Create a reception at an index with a SENTRY mark. The second part says that a value was clamped. -/
def createReception (i : Nat) (mark : Bool) (p : List Byte) (s : State) : State × Bool :=
  let k := askedKind p
  let w := askedWindow p 1
  let cb := readChainBlock s k w p 4
  let a := readAna k p 16
  let d := readDig k p 16
  let g := nextGen (s.gens.reception.getD i 0)
  let (ser, s) := takeSerial s
  let r : Reception := {
    idx := i, gen := g, kind := k, window := w, chain := newChain k w cb, sentry := mark, serial := ser
    ana := if analogue k then a.1 else {}, dig := if analogue k then {} else d.1
    rds := if k = .fm then [{}, {}, {}, {}] else [], since := now s }
  let s := { s with
    gens := { s.gens with reception := setAt s.gens.reception i g }
    prog := { s.prog with receptions := s.prog.receptions ++ [r] } }
  (if analogue k then addAnalogueProgramme i s else s,
    4 < field p 0 1 || 4 < field p 1 1 || cb.clamped || (if analogue k then a.2 else d.2))

/-- Change a reception in place to a payload (R179, R187, R371). Its branches follow it (R154). A search with another robustness mode or
occupancy fixed starts anew (R215, R216). The result says whether a value
was clamped, whether the change is held, and whether the channel moved. -/
def changeReception (i : Nat) (p : List Byte) (s : State) : State × Bool × Bool × Bool :=
  match receptionAt s i with
  | none => (s, false, false, false)
  | some r =>
    let w := askedWindow p 1
    let cb := readChainBlock s r.kind w p 4
    let a := readAna r.kind p 16
    let d := readDig r.kind p 16
    let fade := feedsFade s (.reception i)
    let held := changeHeld fade cb r.chain
    let moved := r.chain.freq != cb.freq || chainWindow r.chain != w
    let s := modReception i (fun r => { r with
      window := w, chain := changeChain fade w cb r.chain
      ana := if analogue r.kind then a.1 else {}, dig := if analogue r.kind then {} else d.1 }) s
    let s := modReception i (fun x => if x.rx = .searching && (x.dig.mode != r.dig.mode || x.dig.occupancy != r.dig.occupancy) then
      { x with ofdm := freshOfdm x.ofdm, goodRun := 0 } else x) s
    let s := { s with prog := { s.prog with branches := s.prog.branches.map (fun b =>
      if b.reception = i then { b with chain := changeChain fade w cb b.chain } else b) } }
    (s, 4 < field p 1 1 || cb.clamped || (if analogue r.kind then a.2 else d.2), held, moved)

/-- Demodulation on another frequency: the equaliser and the BS.412 window restart, and acquisition is judged anew; a digital reception
finds its signal anew (R187, R216). -/
def movedDemod (r : Reception) : Reception :=
  { r with
    dem := { r.dem with
      settledFor := 0, moments := [], lowFor := 0
      fm := { r.dem.fm with eq := if r.dem.opts.eq = 1 then freshEqualiser else {}, power := [] } }
    ofdm := freshOfdm r.ofdm }

/-- The loudness measures of a reception's programmes restart (R187). -/
def freshLoudness (i : Nat) (s : State) : State :=
  { s with prog := { s.prog with programmes := s.prog.programmes.map (fun p =>
      if p.reception = i then { p with loud := {} } else p) } }

/-- A frequency change sends an acquired reception to SEARCHING with cause 2; a chain without an open block is judged at once
(R118, R187). -/
def afterMove (i : Nat) (moved : Bool) (cause : Option Nat) (s : State) : State :=
  if !moved then s
  else match receptionAt s i with
    | none => s
    | some r =>
      let s := loseReception i 2 (instantNow s (.reception i) r.chain) cause s
      let s := freshLoudness i (modReception i (fun r => movedDemod (freshRds r)) s)
      if chainProducing r.chain then s
      else (((s.prog.branches.filter (fun b => b.reception = i)).map (fun b => ChainOwner.branch b.o.idx)).foldl
        (fun t o => judgeChain cause o t) (judgeChain cause (.reception i) s) |> refreshTuners)

/-- The bank handle of a chain block is judged (R154). -/
def bankStale (s : State) (k : Kind) (w : Nat) (p : List Byte) (off : Nat) : Option Fail :=
  failIf (readChainBlock s k w p off).stale 2 2 (off + 4)

/-- The index a creation takes: the lowest free one (R332). A full class takes an index beyond it, which admission refuses. -/
def newReceptionIndex (s : State) : Nat := (freeIndex 256 (s.prog.receptions.map (·.idx))).getD 256

/-- The checks of RECEPTION_ADD. -/
def receptionAddChecks (f : CmdFrame) (s : State) : Checks :=
  let c := createReception (newReceptionIndex s) (s.set.mode == .sentry) f.payload s
  { lenOk := f.payload.length = 32, modes := modesIYSE
    stale := [bankStale s (askedKind f.payload) (askedWindow f.payload 1) f.payload 4]
    cap := admission s c.1, clamps := c.2 }

/-- The effect and the reply of RECEPTION_ADD. -/
def receptionAddBody (f : CmdFrame) (s : State) : State × Option Reply :=
  let i := newReceptionIndex s
  let x := createReception i (s.set.mode == .sentry) f.payload s
  let s := bumpPlan x.1
  let s := if runsIn s.set.mode true then startOwner (some f.tag) (.reception i) s else s
  let ph := ((s.prog.programmes.find? (fun p => p.reception == i)).map programmeHandle).getD {}
  (s, some { target := ownerHandle s (.reception i), clamped := x.2, payload := handleBytes ph })

/-- RECEPTION_ADD (R177, R357, R371). -/
def execReceptionAdd (f : CmdFrame) (s : State) : Host.Outcome State Fault Refusal :=
  .next (command 0x0500 f (receptionAddChecks f) (receptionAddBody f) s)

/-- How the target reception of a command stands. -/
def judgeRx (s : State) (h : Handle) (evenRemoving : Bool) : HandleState :=
  judge h (genReception s h.index) (match receptionAt s h.index with
    | some r => evenRemoving || !r.removing
    | none => false)

/-- The checks of a command that names a reception. -/
def receptionChecks (f : CmdFrame) (lenOk : Bool) (modes : List Mode) (evenRemoving : Bool) (s : State) : Checks :=
  let j := judgeRx s f.target evenRemoving
  { lenOk := lenOk, stale := [staleIf j 1 0xFFFF], noObj := [missingIf j 1 0xFFFF], modes := modes }

/-- The checks of RECEPTION_SET. -/
def receptionSetChecks (f : CmdFrame) (s : State) : Checks :=
  let c := receptionChecks f (f.payload.length = 32) modesIYSE false s
  { c with
    stale := bankStale s (kindAt s f.target.index) (askedWindow f.payload 1) f.payload 4 :: c.stale
    cap := admission s (changeReception f.target.index f.payload s).1
    clamps := (changeReception f.target.index f.payload s).2.1 }

/-- The effect and the reply of RECEPTION_SET. -/
def receptionSetBody (f : CmdFrame) (s : State) : State × Option Reply :=
  let x := changeReception f.target.index f.payload s
  let s := afterMove f.target.index x.2.2.2 (some f.tag) (bumpPlan x.1)
  (s, some { target := f.target, clamped := x.2.1, held := x.2.2.1 })

/-- RECEPTION_SET (R162, R163, R173, R174, R179, R180, R187, R371). -/
def execReceptionSet (f : CmdFrame) (s : State) : Host.Outcome State Fault Refusal :=
  .next (command 0x0501 f (receptionSetChecks f) (receptionSetBody f) s)

/-- Begin the removal of a reception; one that does not run is removed at once (R336). -/
def shutReception (i : Nat) (cause : Nat) (s : State) : State :=
  match receptionAt s i with
  | none => s
  | some r =>
    if r.removing then s
    else if chainStarted r.chain && !r.shed then
      modReception i (fun r => { r with removing := true }) s
    else finishReception i (some cause) s

/-- The effect and the reply of RECEPTION_REMOVE. -/
def receptionRemoveBody (f : CmdFrame) (s : State) : State × Option Reply :=
  let again := ((receptionAt s f.target.index).map (·.removing)).getD false
  let s := if again then s else bumpPlan s
  (compatRefresh (trackMore (shutReception f.target.index f.tag s)), some { target := f.target })

/-- The state code of a reception; an uncovered one has no demodulator state and reads 0 (R181, R372). -/
def rxCode (r : Reception) : Nat :=
  if !r.chain.covered || !chainStarted r.chain then 0
  else match r.rx with
    | .searching => 0
    | .acquired => 1
    | .holding => 2

/-- The 32 bytes of a reception as applied (R359, R371). -/
def receptionBytes (r : Reception) : List Byte :=
  leBytes 1 (kindCode r.kind) ++ leBytes 1 (chainWindow r.chain) ++ zeros 2 ++ chainBlockBytes r.chain ++
  (if analogue r.kind then anaBytes r.ana else digBytes r.dig)

/-- The effect and the reply of GET_RECEPTION. -/
def getReceptionBody (f : CmdFrame) (s : State) : State × Option Reply :=
  (s, match receptionAt s f.target.index with
    | some r => replyWith f (receptionBytes r ++ leBytes 1 (rxCode r) ++ leBytes 1 r.chain.covered.toNat ++
      leBytes 2 (s.prog.programmes.filter (fun p => p.reception = r.idx)).length ++
      leBytes 1 (s.prog.branches.filter (fun b => b.reception = r.idx)).length ++ zeros 3)
    | none => some {})

/-- GET_RECEPTION (R372). -/
def execGetReception (f : CmdFrame) (s : State) : Host.Outcome State Fault Refusal :=
  .next (command 0x0503 f (receptionChecks f (f.payload.length = 0) modesAll true) (getReceptionBody f) s)

/-! ### Diversity branches (R136, R373) -/

/-- Create a branch of a reception at an index. -/
def createBranch (i : Nat) (mark : Bool) (rx : Nat) (s : State) : State :=
  match receptionAt s rx with
  | none => s
  | some r =>
    let g := nextGen (s.gens.branch.getD i 0)
    let (ser, s) := takeSerial s
    let c := r.chain
    let ch : Chain := { kind := r.kind, state := .stopped, window := chainWindow c, freq := (c.pend.freq.map (·.1)).getD c.freq
                        bank := (c.pend.bank).getD c.bank, delay := ((c.pend.delay).getD (c.delay, c.frac)).1
                        frac := ((c.pend.delay).getD (c.delay, c.frac)).2 }
    { s with
      gens := { s.gens with branch := setAt s.gens.branch i g }
      prog := { s.prog with branches := s.prog.branches ++
        [{ o := { idx := i, gen := g, sentry := mark, serial := ser }, reception := rx, chain := ch }] } }

/-- The index a new branch takes. -/
def newBranchIndex (s : State) : Nat := (freeIndex 32 (s.prog.branches.map (·.o.idx))).getD 32

/-- The checks of BRANCH_ADD. -/
def branchAddChecks (f : CmdFrame) (s : State) : Checks :=
  let h := handleAt f.payload 0
  let j := judgeRx s h false
  let w := ((receptionAt s h.index).map (fun r => chainWindow r.chain)).getD 0
  { lenOk := f.payload.length = 4, modes := modesIS, stale := [staleIf j 2 0], noObj := [missingIf j 2 0]
    cap := failIf (windowAt s w).partner.isNone 4 8 0 ::
      admission s (createBranch (newBranchIndex s) false h.index s) }

/-- The effect and the reply of BRANCH_ADD. -/
def branchAddBody (f : CmdFrame) (s : State) : State × Option Reply :=
  let i := newBranchIndex s
  let s := bumpPlan (createBranch i false (handleAt f.payload 0).index s)
  let s := if runsIn s.set.mode true then startOwner (some f.tag) (.branch i) s else s
  (s, some { target := ownerHandle s (.branch i) })

/-- BRANCH_ADD (R136, R373). -/
def execBranchAdd (f : CmdFrame) (s : State) : Host.Outcome State Fault Refusal :=
  .next (command 0x0504 f (branchAddChecks f) (branchAddBody f) s)

/-- How the target of a command stands in a class of simple objects. -/
def judgeObj (h : Handle) (gens : List Nat) (o : Option SimpleObj) (evenRemoving : Bool) : HandleState :=
  judge h gens[h.index]? (match o with
    | some x => evenRemoving || !x.removing
    | none => false)

/-- A branch, probe or tap by its index. -/
def branchObj (s : State) (i : Nat) : Option SimpleObj := (s.prog.branches.find? (·.o.idx == i)).map (·.o)
/-- A probe's shared part. -/
def probeObj (s : State) (i : Nat) : Option SimpleObj := (s.prog.probes.find? (·.o.idx == i)).map (·.o)
/-- A tap's shared part. -/
def tapObj (s : State) (i : Nat) : Option SimpleObj := (s.prog.taps.find? (·.o.idx == i)).map (·.o)

/-- The checks of a command that names an object by its target handle alone. -/
def objChecks (_f : CmdFrame) (lenOk : Bool) (modes : List Mode) (j : HandleState) : Checks :=
  { lenOk := lenOk, stale := [staleIf j 1 0xFFFF], noObj := [missingIf j 1 0xFFFF], modes := modes }

/-- The checks of BRANCH_REMOVE. -/
def branchRemoveChecks (f : CmdFrame) (s : State) : Checks :=
  objChecks f (f.payload.length = 0) modesIS
    (judgeObj f.target s.gens.branch (branchObj s f.target.index) true)

/-- The effect and the reply of BRANCH_REMOVE. -/
def branchRemoveBody (f : CmdFrame) (s : State) : State × Option Reply :=
  let again := ((branchObj s f.target.index).map (·.removing)).getD false
  (shutBranch f.target.index f.tag (if again then s else bumpPlan s), some { target := f.target })

/-- BRANCH_REMOVE (R336, R337). -/
def execBranchRemove (f : CmdFrame) (s : State) : Host.Outcome State Fault Refusal :=
  .next (command 0x0505 f (branchRemoveChecks f) (branchRemoveBody f) s)

/-! ### Raw taps (R152, R154, R373) -/

/-- Create a tap at an index from TAP_ADD's payload. -/
def createTap (i : Nat) (mark : Bool) (p : List Byte) (s : State) : State × Bool :=
  let w := askedWindow p 0
  let cb := readChainBlock s .tap w p 4
  let g := nextGen (s.gens.tap.getD i 0)
  let (ser, s) := takeSerial s
  ({ s with
      gens := { s.gens with tap := setAt s.gens.tap i g }
      prog := { s.prog with taps := s.prog.taps ++
        [{ o := { idx := i, gen := g, sentry := mark, serial := ser }, window := w, chain := newChain .tap w cb }] } },
    4 < field p 0 1 || cb.clamped)

/-- Change a tap in place, as a plan entry does (R357). -/
def changeTap (i : Nat) (p : List Byte) (s : State) : State × Bool :=
  let w := askedWindow p 0
  let cb := readChainBlock s .tap w p 4
  ({ s with prog := { s.prog with taps := s.prog.taps.map (fun t =>
      if t.o.idx = i then { t with window := w, chain := changeChain false w cb t.chain } else t) } },
    4 < field p 0 1 || cb.clamped)

/-- The index a new tap takes. -/
def newTapIndex (s : State) : Nat := (freeIndex 320 (s.prog.taps.map (·.o.idx))).getD 320

/-- The checks of TAP_ADD. -/
def tapAddChecks (f : CmdFrame) (s : State) : Checks :=
  { lenOk := f.payload.length = 16, modes := modesIYSE
    cap := admission s (createTap (newTapIndex s) (s.set.mode == .sentry) f.payload s).1
    clamps := (createTap (newTapIndex s) (s.set.mode == .sentry) f.payload s).2 }

/-- The effect and the reply of TAP_ADD. -/
def tapAddBody (f : CmdFrame) (s : State) : State × Option Reply :=
  let i := newTapIndex s
  let x := createTap i (s.set.mode == .sentry) f.payload s
  let s := bumpPlan x.1
  let s := if runsIn s.set.mode true then startOwner (some f.tag) (.tap i) s else s
  (s, some { target := ownerHandle s (.tap i), clamped := x.2 })

/-- TAP_ADD (R373). -/
def execTapAdd (f : CmdFrame) (s : State) : Host.Outcome State Fault Refusal :=
  .next (command 0x0506 f (tapAddChecks f) (tapAddBody f) s)

/-- Begin the removal of a tap (R336). -/
def shutTap (i : Nat) (cause : Nat) (s : State) : State :=
  match s.prog.taps.find? (·.o.idx == i) with
  | none => s
  | some t =>
    if t.o.removing then s
    else if chainStarted t.chain then
      { s with prog := { s.prog with taps := s.prog.taps.map (fun x =>
        if x.o.idx = i then { x with o := { x.o with removing := true } } else x) } }
    else finishTap i (some cause) s

/-- The checks of TAP_REMOVE. -/
def tapRemoveChecks (f : CmdFrame) (s : State) : Checks :=
  objChecks f (f.payload.length = 0) modesIYSE (judgeObj f.target s.gens.tap (tapObj s f.target.index) true)

/-- The effect and the reply of TAP_REMOVE. -/
def tapRemoveBody (f : CmdFrame) (s : State) : State × Option Reply :=
  let again := ((tapObj s f.target.index).map (·.removing)).getD false
  (shutTap f.target.index f.tag (if again then s else bumpPlan s), some { target := f.target })

/-- TAP_REMOVE (R336, R337). -/
def execTapRemove (f : CmdFrame) (s : State) : Host.Outcome State Fault Refusal :=
  .next (command 0x0507 f (tapRemoveChecks f) (tapRemoveBody f) s)

/-! ### GET_CHAIN (R176) -/

/-- The owner that GET_CHAIN's role and target name (R176, R373). -/
def askedOwner (f : CmdFrame) : ChainOwner := match field f.payload 0 1 with
  | 0 => .reception f.target.index
  | 1 => .branch f.target.index
  | 2 => .probe f.target.index
  | _ => .tap f.target.index

/-- How the owner stands. -/
def judgeOwner (s : State) (h : Handle) : ChainOwner → HandleState
  | .reception _ => judgeRx s h true
  | .branch i => judgeObj h s.gens.branch (branchObj s i) true
  | .probe i => judgeObj h s.gens.probe (probeObj s i) true
  | .tap i => judgeObj h s.gens.tap (tapObj s i) true

/-- The code of a chain state (R156). -/
def ChainState.code : ChainState → Nat
  | .free => 0 | .stopped => 1 | .waiting => 2 | .settling => 3 | .running => 4

/-- The GET_CHAIN response (R176). A chain on a glance's window, which has no number, shows that of its tuner. DESIGN CHOICE, log 172. -/
def chainPayload (s : State) (o : ChainOwner) (c : Chain) : List Byte :=
  let user := 32 ≤ c.bank.index && c.bank.index < 64
  handleBytes (ownerHandle s o) ++ leBytes 1 (roleCode o) ++ leBytes 1 c.state.code ++ leBytes 1 (if c.window < 5 then c.window else c.window - 5) ++
  leBytes 1 (subbandOf s c) ++ leBytes 1 (kindCode c.kind) ++
  leBytes 1 (c.pend.bankHeld.isSome.toNat + 2 * c.pend.delayHeld.isSome.toNat + 4 * user.toNat +
    8 * (user && bankUnscaled s c.bank.index).toNat) ++ zeros 2 ++
  leInt 4 (channelFreq s c) ++ leInt 4 (ncoShift s c) ++ handleBytes c.bank ++ leBytes 2 c.delay ++ leBytes 1 c.frac ++
  zeros 1 ++ leInt 4 (groupDelay64 s c) ++ leInt 4 (totalCorrection s o c) ++ leBytes 2 c.settle ++ leBytes 1 c.exponent ++
  zeros 1 ++ leBytes 4 c.blocks.toNat ++ leBytes 4 c.gaps.toNat ++ leBytes 4 c.overruns.toNat

/-- The checks of GET_CHAIN. -/
def getChainChecks (f : CmdFrame) (s : State) : Checks :=
  objChecks f (f.payload.length = 4) modesAll (judgeOwner s f.target (askedOwner f))

/-- The effect and the reply of GET_CHAIN. -/
def getChainBody (f : CmdFrame) (s : State) : State × Option Reply :=
  (s, match chainOf s (askedOwner f) with
    | some c => some { target := f.target, clamped := 3 < field f.payload 0 1, payload := chainPayload s (askedOwner f) c }
    | none => some {})

/-- GET_CHAIN (R176, R373); a role above 3 is clamped. -/
def execGetChain (f : CmdFrame) (s : State) : Host.Outcome State Fault Refusal :=
  .next (command 0x0508 f (getChainChecks f) (getChainBody f) s)

/-! ### Alert settings (R246, R248) -/

/-- Does a setting watch an alert's type and cluster (R246, R248)? -/
def watches (c : AlertCfg) (source type cluster : Nat) : Bool :=
  (type = 0 || c.mask.testBit type) && (source != 4 || c.cluster = 255 || c.cluster = cluster)

/-- The alert settings of a payload (R246). -/
def readAlerts (p : List Byte) : AlertCfg := { mask := field p 0 2 ||| 1, options := field p 2 1 % 2, cluster := field p 3 1 }

/-- Apply alert settings; alerts they unwatch end with reason 3 (R248). -/
def applyAlertSet (i : Nat) (p : List Byte) (cause : Option Nat) (s : State) : State :=
  let c := readAlerts p
  match receptionAt s i with
  | none => s
  | some r =>
    let s := modReception i (fun r => { r with alertCfg := c }) s
    endAlerts i 3 (fun a => !watches c a.source a.type a.cluster) (instantNow s (.reception i) r.chain) cause s

/-- The effect and the reply of ALERT_SET. -/
def alertSetBody (f : CmdFrame) (s : State) : State × Option Reply :=
  (applyAlertSet f.target.index f.payload (some f.tag) (bumpPlan s), some { target := f.target })

/-- The checks of ALERT_SET. -/
def alertSetChecks (f : CmdFrame) (s : State) : Checks :=
  { receptionChecks f (f.payload.length = 4) modesISE false s with
    cap := [planOver s (modReception f.target.index (fun r => { r with alertCfg := readAlerts f.payload }) s)] }

/-- ALERT_SET (R246). -/
def execAlertSet (f : CmdFrame) (s : State) : Host.Outcome State Fault Refusal :=
  .next (command 0x0509 f (alertSetChecks f) (alertSetBody f) s)

/-- The alert settings as read back. -/
def alertBytes (c : AlertCfg) : List Byte := leBytes 2 c.mask ++ leBytes 1 c.options ++ leBytes 1 c.cluster

/-- The effect and the reply of GET_ALERT. -/
def getAlertBody (f : CmdFrame) (s : State) : State × Option Reply :=
  (s, match receptionAt s f.target.index with
    | some r => replyWith f (alertBytes r.alertCfg)
    | none => some {})

/-- GET_ALERT (R246, R359). -/
def execGetAlert (f : CmdFrame) (s : State) : Host.Outcome State Fault Refusal :=
  .next (command 0x050A f (receptionChecks f (f.payload.length = 0) modesAll true) (getAlertBody f) s)

end Sys2Proof.Machine
end

