-- ==== Sys2Proof/Machine/Bank.lean ====
section
/-!
DEFINITION. Bank.lean: user coefficient banks and curve tables (R157 to R161, R282).
-/

namespace Sys2Proof.Machine

/-! ### Coefficient banks (R157 to R161) -/

/-- The checks of a command that names a bank (R331, R333). -/
def bankChecks (f : CmdFrame) (len : Nat) (modes : List Mode) (s : State) : Checks :=
  let i := f.target.index
  objChecks f (f.payload.length = len) modes (judge f.target (if i < 64 then some (bankGen s i) else none) true)

/-- Does a started chain use a bank (R159)? -/
def bankInUse (s : State) (i : Nat) : Bool :=
  (owners s).any (fun o => ((chainOf s o).map (fun c => chainStarted c && c.kind != .tap && c.bank.index = i)).getD false)

/-- The 96 coefficients of a payload, each clamped, and whether one was (R159). -/
def readTaps (p : List Byte) : List Int × Bool :=
  let raw := (List.range 96).map (fun n => fieldInt p (4 + 4 * n) 4)
  (raw.map (clampInt (-131072) 131071), raw.any (fun v => clampInt (-131072) 131071 v != v))

/-- Load a user bank: it takes a new generation (R159). -/
def loadBank (i : Nat) (p : List Byte) (s : State) : State × Bool :=
  let k := field p 0 1
  let t := readTaps p
  let load (b : Bank) : Bank := { b with gen := nextGen b.gen, kind := some (satNat 4 k), taps := t.1 }
  ({ s with mix := { s.mix with banks := modAt s.mix.banks (i - 32) load } }, 4 < k || t.2)

/-- The checks of BANK_LOAD. -/
def bankLoadChecks (f : CmdFrame) (s : State) : Checks :=
  { bankChecks f 388 modesIYSE s with
    denied := [failIf (f.target.index < 32) 5 2 0xFFFF]
    busy := [failIf (bankInUse s f.target.index) 1 1 0xFFFF]
    cap := [planOver s (loadBank f.target.index f.payload s).1]
    clamps := 4 < field f.payload 0 1 || (readTaps f.payload).2 }

/-- The effect and the reply of BANK_LOAD. -/
def bankLoadBody (f : CmdFrame) (s : State) : State × Option Reply :=
  let x := loadBank f.target.index f.payload s
  (bumpPlan x.1, some { target := { index := f.target.index, gen := bankGen x.1 f.target.index }, clamped := x.2 })

/-- BANK_LOAD (R159): banks 0 to 31 are reserved to the device. -/
def execBankLoad (f : CmdFrame) (s : State) : Host.Outcome State Fault Refusal :=
  .next (command 0x0A00 f (bankLoadChecks f) (bankLoadBody f) s)

/-- A bank as GET_BANK returns it: a bank valid for no kind reads kind 0xFF and zero coefficients (R157, R158, R160). -/
def bankBytes (s : State) (i : Nat) : List Byte :=
  let k : Option Nat := if i < 32 then (defaultBankKind i).map kindCode else (userBank s i).kind
  match k with
  | some k => leBytes 1 k ++ zeros 3 ++ (bankTaps s i).flatMap (leInt 4)
  | none => leBytes 1 0xFF ++ zeros 387

/-- The effect and the reply of GET_BANK. -/
def getBankBody (f : CmdFrame) (s : State) : State × Option Reply :=
  (s, replyWith f (bankBytes s f.target.index))

/-- GET_BANK (R157 to R160). -/
def execGetBank (f : CmdFrame) (s : State) : Host.Outcome State Fault Refusal :=
  .next (command 0x0A01 f (bankChecks f 0 modesAll) (getBankBody f) s)

/-! ### Curve tables (R282) -/

/-- The current generation of a curve table: that of a fixed table advances by R335 alone (R331). -/
def curveGen (s : State) (i : Nat) : Nat := if i < 4 then s.gens.fixed else (s.mix.curves.getD (i - 4) {}).gen

/-- The checks of a command that names a curve table. -/
def curveChecks (f : CmdFrame) (len : Nat) (modes : List Mode) (s : State) : Checks :=
  let i := f.target.index
  objChecks f (f.payload.length = len) modes (judge f.target (if i < 16 then some (curveGen s i) else none) true)

/-- Load a user table: it takes a new generation (R282, R331). -/
def loadCurve (i : Nat) (p : List Byte) (s : State) : State :=
  { s with mix := { s.mix with curves := modAt s.mix.curves (i - 4) (fun c => { c with
      gen := nextGen c.gen, points := some ((List.range 256).map (fun n => field p (4 + 2 * n) 2)) }) } }

/-- The checks of CURVE_LOAD. -/
def curveLoadChecks (f : CmdFrame) (s : State) : Checks :=
  { curveChecks f 516 modesIYSE s with
    denied := [failIf (f.target.index < 4) 5 2 0xFFFF], cap := [planOver s (loadCurve f.target.index f.payload s)] }

/-- The effect and the reply of CURVE_LOAD. -/
def curveLoadBody (f : CmdFrame) (s : State) : State × Option Reply :=
  let s := bumpPlan (loadCurve f.target.index f.payload s)
  (s, some { target := { index := f.target.index, gen := curveGen s f.target.index } })

/-- CURVE_LOAD (R282): tables 0 to 3 are reserved to the device. A fade in progress keeps the points it copied (R278). -/
def execCurveLoad (f : CmdFrame) (s : State) : Host.Outcome State Fault Refusal :=
  .next (command 0x0A02 f (curveLoadChecks f) (curveLoadBody f) s)

/-- The effect and the reply of GET_CURVE. -/
def getCurveBody (f : CmdFrame) (s : State) : State × Option Reply :=
  (s, replyWith f (zeros 4 ++ (curvePoints s f.target.index).flatMap (leBytes 2)))

/-- GET_CURVE (R282): 4 reserved bytes and 256 points. -/
def execGetCurve (f : CmdFrame) (s : State) : Host.Outcome State Fault Refusal :=
  .next (command 0x0A03 f (curveChecks f 0 modesAll) (getCurveBody f) s)

end Sys2Proof.Machine
end

