-- ==== Sys2Proof/Machine/Programme.lean ====
section
/-!
DEFINITION. Programme.lean: selecting, measuring, reading and listing programmes (R208 to R214, R374 to R376).
-/

namespace Sys2Proof.Machine

/-! ### What a command addresses (R374) -/

/-- Does the payload address by identity: byte 2 clamped to 1? -/
def byIdentity (f : CmdFrame) : Bool := field f.payload 2 1 ≠ 0

/-- The identity a payload names: service and component. -/
def askedIdentity (f : CmdFrame) : Nat × Nat := (field f.payload 8 4, field f.payload 3 1)

/-- How a programme handle stands. -/
def judgeProgramme (s : State) (h : Handle) : HandleState :=
  judge h s.gens.programme[h.index]? (programmeAt s h.index).isSome

/-- The reception that identity addressing names. -/
def askedReception (f : CmdFrame) : Nat := (handleAt f.payload 4).index

/-- The programme a command acts on: its target, the one programme of an analogue reception, or the one with the identity. -/
def askedProgramme (f : CmdFrame) (s : State) : Option Programme :=
  if !byIdentity f then programmeAt s f.target.index
  else
    let i := askedReception f
    if analogue (kindAt s i) then s.prog.programmes.find? (fun p => p.reception == i)
    else s.prog.programmes.find? (fun p => p.reception == i && p.decl.service == (askedIdentity f).1 &&
      p.decl.component == (askedIdentity f).2)

/-- The checks of a command that addresses a programme. -/
def programmeChecks (f : CmdFrame) (lenOk : Bool) (s : State) : Checks :=
  let j := if byIdentity f then judgeRx s (handleAt f.payload 4) false else judgeProgramme s f.target
  let d := if byIdentity f then 2 else 1
  let off := if byIdentity f then 4 else 0xFFFF
  { lenOk := lenOk, stale := [staleIf j d off], noObj := [missingIf j d off], modes := modesIYSE }

/-- Does a command make a standing setting: by identity on a digital reception (R212, R374)? -/
def standingAsked (f : CmdFrame) (s : State) : Bool := byIdentity f && !analogue (kindAt s (askedReception f))

/-- Change the standing setting of the identity addressed, made anew where there is none; one that sets nothing goes (R212). -/
def setStanding (f : CmdFrame) (g : Standing → Standing) (s : State) : State :=
  let same (x : Standing) : Bool := x.reception == askedReception f && x.service == (askedIdentity f).1 &&
    x.component == (askedIdentity f).2
  let (ser, s) := takeSerial s
  let old : Standing := (s.prog.standing.find? same).getD
    { reception := askedReception f, service := (askedIdentity f).1, component := (askedIdentity f).2, serial := ser }
  let new := g old
  let rest := s.prog.standing.filter (fun x => !same x)
  { s with prog := { s.prog with
    standing := if new.select.isNone && new.measure.isNone then rest else rest ++ [new] } }

/-! ### Selecting (R212, R213, R374) -/

/-- Select a digital programme; a suspended selection that now fits resumes (R213, R214). -/
def selectOn (i : Nat) (reserve : Bool) (cause : Option Nat) (s : State) : State :=
  let before := ((programmeAt s i).map (·.suspended)).getD false
  let (ser, s) := takeSerial s
  reportDecode i before cause (modProgramme i (fun p => { p with
    selected := true, reserve := reserve, suspended := false, shedStep := 0
    serial := if p.selected then p.serial else ser
    charge := selectionCharge (kindAt s p.reception) reserve p.decl.codec }) s)

/-- Deselect a digital programme; a standing selection of its identity keeps it selected (R212, R608). -/
def selectOff (i : Nat) (s : State) : State :=
  match programmeAt s i with
  | none => s
  | some p =>
    let q := bindStanding s { p with selected := false, reserve := false, charge := 0 }
    if q.selected then modProgramme i (fun p => { p with
      selected := true, reserve := q.reserve, charge := q.charge, serial := q.serial }) s
    else modProgramme i (fun p => { p with selected := false, reserve := false, charge := 0, suspended := false
                                           shedStep := 0 }) (decodingStops i s)

/-- PROGRAMME_SELECT's effect on the plan. -/
def applySelect (f : CmdFrame) (s : State) : State :=
  let on := field f.payload 0 1 ≠ 0
  let res := field f.payload 1 1 ≠ 0
  let s := if standingAsked f s then setStanding f (fun x => { x with select := if on then some res else none }) s else s
  match askedProgramme f s with
  | some p => if analogue (kindAt s p.reception) then s else if on then selectOn p.idx res (some f.tag) s else selectOff p.idx s
  | none => s

/-- Was a value of PROGRAMME_SELECT clamped (R374)? -/
def selectClamped (f : CmdFrame) : Bool :=
  1 < field f.payload 0 1 || 1 < field f.payload 1 1 || 1 < field f.payload 2 1

/-- The checks of PROGRAMME_SELECT. -/
def programmeSelectChecks (f : CmdFrame) (s : State) : Checks :=
  { programmeChecks f (f.payload.length = 12) s with cap := admission s (applySelect f s), clamps := selectClamped f }

/-- The effect and the reply of PROGRAMME_SELECT. -/
def programmeSelectBody (f : CmdFrame) (s : State) : State × Option Reply :=
  let t := resumeShed (bumpPlan (applySelect f s))
  let on := field f.payload 0 1 ≠ 0
  let pay := match askedProgramme f t with
    | some p => handleBytes (programmeHandle p) ++ leBytes 2 (decodeCharge p) ++ zeros 2
    | none => zeros 4 ++ leBytes 2 (if on then maxDecode (kindAt s (askedReception f)) else 0) ++ zeros 2
  (t, some { target := f.target, payload := pay
             clamped := selectClamped f })

/-- PROGRAMME_SELECT (R374). -/
def execProgrammeSelect (f : CmdFrame) (s : State) : Host.Outcome State Fault Refusal :=
  .next (command 0x0600 f (programmeSelectChecks f) (programmeSelectBody f) s)

/-! ### Measuring (R202, R205, R375) -/

/-- The silence threshold a payload asks for: 0 keeps the one in force. -/
def askedThreshold (f : CmdFrame) (old : Int) : Int :=
  let t := fieldInt f.payload 1 1
  if t = 0 then old else clampInt (-90) (-30) t

/-- Turn a programme's measurement on, or change its settings: a new interval takes effect at the end of the current one
(R202). -/
def measureOn (i interval silence : Nat) (th : Int) (s : State) : State :=
  modProgramme i (fun p =>
    let q := { p with measured := true, nextInterval := interval, threshold := th, silenceS := silence }
    if p.measured then q
    else
      let q := { q with loud := {} }
      match receptionAt s p.reception with
      | some r => if r.chain.state = .running && r.chain.covered
          then beginInterval s (instantNow s (.reception r.idx) r.chain) q
          else { q with interval := interval, intervalAt := none }
      | none => q) (match programmeAt s i with
        | some p => if p.measured then s else beginMeasures p.reception s
        | none => s)

/-- Turn a programme's measurement off, with the settings given; a standing setting of its identity keeps it on with its own
settings (R375). -/
def measureOff (i interval silence : Nat) (th : Int) (s : State) : State :=
  modProgramme i (fun p =>
    let q := bindStanding s { p with measured := false }
    if q.measured then { p with nextInterval := q.nextInterval, threshold := q.threshold, silenceS := q.silenceS }
    else { p with
      measured := false, intervalAt := none, silent := false, belowSince := none, belowMs := 0
      interval := interval, nextInterval := interval, threshold := th, silenceS := silence }) s

/-- PROGRAMME_MEASURE's effect on the plan. -/
def applyMeasure (f : CmdFrame) (s : State) : State :=
  let on := field f.payload 0 1 ≠ 0
  let iv := clampNat 1 100 (field f.payload 12 2)
  let st := clampNat 1 600 (field f.payload 14 2)
  let p := askedProgramme f s
  let s := if standingAsked f s then setStanding f (fun x =>
      let old : Int := match x.measure with
        | some y => y.2.1
        | none => (p.map (·.threshold)).getD (-60)
      { x with measure := if on then some (iv, askedThreshold f old, st) else none }) s else s
  match p with
  | some p => (if on then measureOn else measureOff) p.idx iv st (askedThreshold f p.threshold) s
  | none => s

/-- Was a value of PROGRAMME_MEASURE clamped (R375)? -/
def measureClamped (f : CmdFrame) : Bool :=
  let iv := field f.payload 12 2
  let st := field f.payload 14 2
  let th := fieldInt f.payload 1 1
  1 < field f.payload 0 1 || 1 < field f.payload 2 1 || clampNat 1 100 iv != iv || clampNat 1 600 st != st ||
    (th != 0 && clampInt (-90) (-30) th != th)

/-- The checks of PROGRAMME_MEASURE. -/
def programmeMeasureChecks (f : CmdFrame) (s : State) : Checks :=
  { programmeChecks f (f.payload.length = 16) s with cap := admission s (applyMeasure f s), clamps := measureClamped f }

/-- The effect and the reply of PROGRAMME_MEASURE. -/
def programmeMeasureBody (f : CmdFrame) (s : State) : State × Option Reply :=
  (resumeShed (bumpPlan (applyMeasure f s)), some { target := f.target, clamped := measureClamped f })

/-- PROGRAMME_MEASURE (R375). -/
def execProgrammeMeasure (f : CmdFrame) (s : State) : Host.Outcome State Fault Refusal :=
  .next (command 0x0601 f (programmeMeasureChecks f) (programmeMeasureBody f) s)

/-! ### Reading (R359, R376) -/

/-- The checks of GET_PROGRAMME. -/
def getProgrammeChecks (f : CmdFrame) (s : State) : Checks :=
  objChecks f (f.payload.length = 0) modesAll (judgeProgramme s f.target)

/-- The effect and the reply of GET_PROGRAMME. -/
def getProgrammeBody (f : CmdFrame) (s : State) : State × Option Reply :=
  (s, match programmeAt s f.target.index with
    | some p => replyWith f (programmePayload s p ++ leBytes 1 p.absentAt.isSome.toNat ++ leBytes 1 p.selected.toNat ++
      leBytes 1 p.measured.toNat ++ zeros 1 ++ leBytes 2 p.nextInterval ++ leBytes 2 p.silenceS ++
      leInt 1 p.threshold ++ leBytes 1 p.reserve.toNat ++ zeros 2)
    | none => some {})

/-- GET_PROGRAMME (R376). -/
def execGetProgramme (f : CmdFrame) (s : State) : Host.Outcome State Fault Refusal :=
  .next (command 0x0602 f (getProgrammeChecks f) (getProgrammeBody f) s)

/-- The programmes of a reception by rising index (R374). -/
def programmesOf (s : State) (r : Nat) : List Programme :=
  (s.prog.programmes.filter (fun p => p.reception == r)).mergeSort (fun a b => a.idx ≤ b.idx)

/-- The effect and the reply of PROGRAMME_LIST. -/
def programmeListBody (f : CmdFrame) (s : State) : State × Option Reply :=
  let l := programmesOf s f.target.index
  (s, replyWith f (leBytes 2 l.length ++ zeros 2 ++ l.flatMap (fun p => handleBytes (programmeHandle p))))

/-- PROGRAMME_LIST: count and handles, in the order of their indices (R359). -/
def execProgrammeList (f : CmdFrame) (s : State) : Host.Outcome State Fault Refusal :=
  .next (command 0x0603 f (receptionChecks f (f.payload.length = 0) modesAll true) (programmeListBody f) s)

end Sys2Proof.Machine
end

