-- ==== Sys2Proof/Machine/Pcm.lean ====
section
/-!
DEFINITION. Pcm.lean: PCM outputs, TDM and I2S ports, and the end of the shut-down of simple objects (R283 to R291, R336,
R377).
-/

namespace Sys2Proof.Machine

/-! ### Sources (R283, R284) -/

/-- A follow object or a blend pair's shared part, by index. -/
def followObj (s : State) (i : Nat) : Option SimpleObj := (s.prog.follows.find? (·.o.idx == i)).map (·.o)
/-- A blend pair's shared part. -/
def blendObj (s : State) (i : Nat) : Option SimpleObj := (s.mix.blends.find? (·.o.idx == i)).map (·.o)
/-- A PCM output's shared part. -/
def pcmObj (s : State) (i : Nat) : Option SimpleObj := (s.prog.pcms.find? (·.o.idx == i)).map (·.o)

/-- How a handle stands against the three classes a PCM source may have: programme, follow object, blend pair. -/
def judgeSources (s : State) (h : Handle) : List HandleState :=
  [judgeProgramme s h, judgeObj h s.gens.follow (followObj s h.index) false,
   judgeObj h s.gens.blend (blendObj s h.index) false]

/-- The class a source handle names: the first in which it is live (log 28); 3 for none. -/
def sourceClass (s : State) (h : Handle) : Nat := (judgeSources s h).findIdx (· = .live)

/-- How a source handle stands: live in some class, else as it stands against programmes. -/
def judgeSource (s : State) (h : Handle) : HandleState :=
  if (judgeSources s h).contains .live then .live
  else if (judgeSources s h).contains .stale then .stale else judgeProgramme s h

/-- Is the audio of a source digital, so that playing starts at 20 ms (R285)? -/
def digitalSource (s : State) (cls : Nat) (h : Handle) : Bool :=
  let prog (x : Handle) : Bool := ((programmeAt s x.index).map (digitalProgramme s)).getD true
  if cls = 0 then prog h
  else if cls = 1 then ((s.prog.follows.find? (·.o.idx == h.index)).map (fun f => !analogue (kindAt s f.current))).getD true
  else if cls = 2 then ((s.mix.blends.find? (·.o.idx == h.index)).map (fun b => prog b.a || prog b.b)).getD true
  else false

/-! ### Routing (R283 to R285) -/

/-- The TDM settings of a port. -/
def tdmOf (s : State) (port : Nat) : TdmConfig := s.set.tdm.getD port {}

/-- PCM_ROUTE's fields as clamped. -/
structure PcmAsk where
  source  : Handle
  cls     : Nat
  port    : Nat
  slot    : Nat
  chMode  : Nat
  mute    : Nat
  gain    : Int
  clamped : Bool
  deriving DecidableEq, Repr

/-- Read and clamp PCM_ROUTE (R283). -/
def readPcm (s : State) (p : List Byte) : PcmAsk :=
  let h := handleAt p 0
  let b (i : Nat) := field p i 1
  let port := if b 4 = 0xFF then 0xFF else satNat 3 (b 4)
  let i2s := port < 4 && (tdmOf s port).format = 1
  let slot := if i2s then 0 else satNat 14 (b 5) / 2 * 2
  let g := fieldInt p 8 2
  let gain := clampInt (-120) 24 g
  { source := h, cls := if h.index = 0xFFFF then 3 else sourceClass s h, port := port, slot := slot
    chMode := satNat 4 (b 6), mute := satNat 1 (b 7), gain := gain
    clamped := port != b 4 || slot != b 5 || 4 < b 6 || 1 < b 7 || gain != g }

/-- An output with the settings asked: its start depth and underruns begin anew; on other slots it fades in over 1 ms (R284, R285). -/
def setPcm (s : State) (a : PcmAsk) (x : PcmOut) : PcmOut :=
  let moved := x.port != a.port || x.slot != a.slot
  { turnTo a.cls a.source x with
    port := a.port, slot := a.slot, chMode := a.chMode, mute := a.mute, gain := a.gain
    depth := if digitalSource s a.cls a.source then 80 else 1, underruns := 0, fade := if moved then (48, 48) else x.fade }

/-- Create a PCM output at an index. -/
def createPcm (i : Nat) (mark : Bool) (p : List Byte) (s : State) : State × Bool :=
  let a := readPcm s p
  let g := nextGen (s.gens.pcm.getD i 0)
  let (ser, s) := takeSerial s
  let x := setPcm s a { o := { idx := i, gen := g, sentry := mark, serial := ser } }
  ({ s with
      gens := { s.gens with pcm := setAt s.gens.pcm i g }
      prog := { s.prog with pcms := s.prog.pcms ++ [x] } }, a.clamped)

/-- Change a PCM output in place. -/
def changePcm (i : Nat) (p : List Byte) (s : State) : State × Bool :=
  let a := readPcm s p
  ({ s with prog := { s.prog with pcms := s.prog.pcms.map (fun x => if x.o.idx = i then setPcm s a x else x) } }, a.clamped)

/-- The index a new output takes. -/
def newPcmIndex (s : State) : Nat := (freeIndex 32 (s.prog.pcms.map (·.o.idx))).getD 32

/-- The output that holds a slot pair, other than output `i` (R283). -/
def slotHolder (s : State) (port slot i : Nat) : Option PcmOut :=
  s.prog.pcms.find? (fun x => x.o.idx != i && x.port == port && port < 4 && x.slot == slot)

/-- PCM_ROUTE's effect on the plan. -/
def applyPcm (f : CmdFrame) (s : State) : State × Bool :=
  if f.target.index = 0xFFFF then createPcm (newPcmIndex s) (s.set.mode == .sentry) f.payload s
  else changePcm f.target.index f.payload s

/-- The checks of PCM_ROUTE (R283, R338). In SENTRY a third output is not available (R31, R33). -/
def pcmRouteChecks (f : CmdFrame) (s : State) : Checks :=
  let new := f.target.index = 0xFFFF
  let j := if new then HandleState.live else judgeObj f.target s.gens.pcm (pcmObj s f.target.index) false
  let h := handleAt f.payload 0
  let js := if h.index = 0xFFFF then HandleState.live else judgeSource s h
  let a := readPcm s f.payload
  let holder := slotHolder s a.port a.slot f.target.index
  { lenOk := f.payload.length = 16, modes := modesIYSE, modeOk := !(s.set.mode == .sentry && new && 2 ≤ sentryPcms s)
    stale := [staleIf j 1 0xFFFF, staleIf js 2 0], noObj := [missingIf j 1 0xFFFF, missingIf js 2 0]
    holds := (holder.map (·.o.removing)).getD false
    busy := [failIf holder.isSome 1 1 0xFFFF]
    cap := admission s (applyPcm f s).1, clamps := a.clamped }

/-- PCM_ROUTE's effect and reply. -/
def pcmRouteBody (f : CmdFrame) (s : State) : State × Option Reply :=
  let i := if f.target.index = 0xFFFF then newPcmIndex s else f.target.index
  let x := applyPcm f s
  (bumpPlan x.1, some { target := { index := i, gen := x.1.gens.pcm.getD i 0 }, clamped := x.2 })

/-- PCM_ROUTE (R283). -/
def execPcmRoute (f : CmdFrame) (s : State) : Host.Outcome State Fault Refusal :=
  .next (command 0x0700 f (pcmRouteChecks f) (pcmRouteBody f) s)

/-- Begin an output's removal, with a fade-out of 10 ms (DESIGN CHOICE, log 177); one that does not run is removed at once (R336). -/
def shutPcm (i : Nat) (cause : Nat) (s : State) : State :=
  match s.prog.pcms.find? (·.o.idx == i) with
  | none => s
  | some x =>
    if x.o.removing then s
    else if pcmRuns s x then stopPcms 480 (fun y => y.o.idx == i) (modPcm i (fun y => { y with o := { y.o with removing := true } }) s)
    else finishPcm i (some cause) s

/-- The checks of PCM_REMOVE. -/
def pcmRemoveChecks (f : CmdFrame) (s : State) : Checks :=
  objChecks f (f.payload.length = 0) modesIYSE (judgeObj f.target s.gens.pcm (pcmObj s f.target.index) true)

/-- The effect and the reply of PCM_REMOVE. -/
def pcmRemoveBody (f : CmdFrame) (s : State) : State × Option Reply :=
  let again := ((pcmObj s f.target.index).map (·.removing)).getD false
  (shutPcm f.target.index f.tag (if again then s else bumpPlan s), some { target := f.target })

/-- PCM_REMOVE (R336, R337). -/
def execPcmRemove (f : CmdFrame) (s : State) : Host.Outcome State Fault Refusal :=
  .next (command 0x0701 f (pcmRemoveChecks f) (pcmRemoveBody f) s)

/-- PCM_ROUTE's 16 bytes as applied (R359). -/
def pcmBytes (x : PcmOut) : List Byte :=
  handleBytes x.source ++ leBytes 1 x.port ++ leBytes 1 x.slot ++ leBytes 1 x.chMode ++ leBytes 1 x.mute ++ leInt 2 x.gain ++
  zeros 6

/-- The checks of GET_PCM. -/
def getPcmChecks (f : CmdFrame) (s : State) : Checks :=
  objChecks f (f.payload.length = 0) modesAll (judgeObj f.target s.gens.pcm (pcmObj s f.target.index) true)

/-- The effect and the reply of GET_PCM. -/
def getPcmBody (f : CmdFrame) (s : State) : State × Option Reply :=
  (s, match s.prog.pcms.find? (·.o.idx == f.target.index) with
    | some x => replyWith f (pcmBytes x ++ leBytes 2 x.depth ++ zeros 2 ++ leBytes 4 x.underruns.toNat)
    | none => some {})

/-- GET_PCM (R377). -/
def execGetPcm (f : CmdFrame) (s : State) : Host.Outcome State Fault Refusal :=
  .next (command 0x0702 f (getPcmChecks f) (getPcmBody f) s)

/-! ### TDM and I2S ports (R287 to R290) -/

/-- Read and clamp TDM_CONFIG after its port (R287). -/
def readTdm (p : List Byte) : TdmConfig :=
  let b (i : Nat) := satNat 1 (field p i 1)
  { format := b 1, role := b 2, fsShape := b 3, fsPolarity := b 4, delay := b 5, edge := b 6, idle := b 7 }

/-- A port's configuration as read back. -/
def tdmBytes (port : Nat) (c : TdmConfig) : List Byte :=
  leBytes 1 port ++ leBytes 1 c.format ++ leBytes 1 c.role ++ leBytes 1 c.fsShape ++ leBytes 1 c.fsPolarity ++
  leBytes 1 c.delay ++ leBytes 1 c.edge ++ leBytes 1 c.idle

/-- The checks of TDM_CONFIG. -/
def tdmConfigChecks (f : CmdFrame) (_ : State) : Checks :=
  { lenOk := f.payload.length = 8, modes := modesIYSE }

/-- The effect and the reply of TDM_CONFIG. -/
def tdmConfigBody (f : CmdFrame) (s : State) : State × Option Reply :=
  let port := satNat 3 (field f.payload 0 1)
  let c := readTdm f.payload
  (setSettings { s.set with tdm := setAt s.set.tdm port c } s,
    some { target := f.target, clamped := tdmBytes port c != f.payload })

/-- TDM_CONFIG: the setting is taken; the port follows it at a frame boundary (R287). -/
def execTdmConfig (f : CmdFrame) (s : State) : Host.Outcome State Fault Refusal :=
  .next (command 0x0703 f (tdmConfigChecks f) (tdmConfigBody f) s)

/-- The configuration a port is to run with: its setting, but in COMPAT TDM0 runs as I2S controller (R288, R557). -/
def tdmInUse (s : State) (port : Nat) : TdmConfig :=
  if s.set.mode = .compat && port = 0 then { format := 1 } else tdmOf s port

/-- TDM_CONFIG_APPLY: the port takes its configuration at a frame boundary, its outputs faded out over 1 ms before and in after it
(R287). -/
def execTdmConfigApply (port : Nat) (s : State) : Host.Outcome State Fault Refusal :=
  within s (port < 4) (
    let s := drivePorts { s with prog := { s.prog with pcms := s.prog.pcms.map (fun x =>
      if x.port = port && x.playing then fadeOut 48 48 x else x) } }
    { s with mix := { s.mix with
        tdm := setAt s.mix.tdm port (tdmInUse s port)
        followerLost := if (tdmInUse s port).role = 0 then setAt s.mix.followerLost port false else s.mix.followerLost } })

/-- The checks of GET_TDM_CONFIG. -/
def getTdmConfigChecks (f : CmdFrame) (_ : State) : Checks :=
  { lenOk := f.payload.length = 4, modes := modesAll }

/-- The effect and the reply of GET_TDM_CONFIG. -/
def getTdmConfigBody (f : CmdFrame) (s : State) : State × Option Reply :=
  let port := satNat 3 (field f.payload 0 1)
  (s, some { target := f.target, clamped := 3 < field f.payload 0 1, payload := tdmBytes port (tdmOf s port) })

/-- GET_TDM_CONFIG (R359, R377). -/
def execGetTdmConfig (f : CmdFrame) (s : State) : Host.Outcome State Fault Refusal :=
  .next (command 0x0704 f (getTdmConfigChecks f) (getTdmConfigBody f) s)

/-- An output's FIFO runs out: what is in it is played, the last 1 ms of it faded to silence, and it fades in again over 1 ms (R285). -/
def runOut (x : PcmOut) : PcmOut :=
  let k := x.fifo.length - 48
  fadeOut 48 48 { x with played := x.played ++ x.fifo.take k, fifo := x.fifo.drop k }

/-- PCM_UNDERRUN: the output fades to silence, and its start depth rises by 1 ms up to 100 ms (R285). -/
def execPcmUnderrun (o : Nat) (s : State) : Host.Outcome State Fault Refusal :=
  within s (o < 32) (drivePorts (modPcm o (fun x =>
    if x.playing then { runOut x with playing := false, depth := satNat 400 (x.depth + 4), underruns := x.underruns + 1 } else x) s))

/-- PCM_FIFO_REFILLED: the FIFO holds the start depth, and playing starts (R285, R289, R291). -/
def execPcmFifoRefilled (o : Nat) (s : State) : Host.Outcome State Fault Refusal :=
  within s (o < 32) (modPcm o (fun x =>
    if pcmRuns s x && !x.o.removing && portRuns s x.port && 12 * x.depth ≤ x.fifo.length then { x with playing := true } else x) s)

/-- The frames of an output's next PCM Shaving: what it has played, then its FIFO while it plays, or silence flagged CONCEALED whose
time-stamps run on; fewer than 240 only when it does not run (R284 to R286, R291). -/
def shavingFrames (s : State) (x : PcmOut) : PcmOut × List AudioFrame :=
  let n := 240 - x.played.length
  let first := x.played.take 240
  let x := { x with played := x.played.drop 240 }
  let from' := (first.getLast?.map (fun f => f.at'.later 5120)).getD x.nextAt
  if !pcmRuns s x || x.o.removing then (x, first)
  else if x.playing then
    if x.fifo.length < n then ({ x with played := first ++ x.played }, [])
    else let y := playFrames s n x
      (y.1, first ++ y.2)
  else (x, first ++ (List.range n).map (fun (j : Nat) => silentFrame (from'.later (5120 * j)) x.lastProg))

/-- The PCM Shaving's payload (R286). -/
def pcmPayload (x : PcmOut) (l : List AudioFrame) : List Byte :=
  leBytes 2 48000 ++ leBytes 1 2 ++ leBytes 1 x.mute ++ leBytes 2 l.length ++ leBytes 2 (l.filter (·.concealed)).length ++
  l.flatMap (fun f => leInt 4 f.l ++ leInt 4 f.r)

/-- PCM_SHAVING: a bound output writes its next up to 240 frames, with programme and time-stamp of the first; its port sends them too (R286,
R288). -/
def execPcmShaving (o : Nat) (s : State) : Host.Outcome State Fault Refusal :=
  within s (o < 32) (match s.prog.pcms.find? (·.o.idx == o) with
    | none => s
    | some x =>
      let h : Handle := { index := o, gen := x.o.gen }
      let y := shavingFrames s x
      match boundRing s 2 5 h, y.2.getLast? with
      | some ring, some last =>
        let first := y.2.headD {}
        offerShaving ring { kind := 0x03, concealed := y.2.any (·.concealed), source := h, prog := first.prog, epoch := first.at'.epoch
                            stamp := first.at'.tick }
          (pcmPayload x (y.2.map (mixFrame x))) 0
          (drivePort y.1 y.2 (modPcm o (fun _ => { y.1 with nextAt := last.at'.later 5120, lastProg := last.prog }) s))
      | _, _ => s)

/-- Are a follower port's frames outside what R289 allows: no FS for 3 frames, a rate more than 1,000 ppm off, another number of BCLKs? -/
def followerBad (c : TdmConfig) (m : FollowerMeas) : Bool :=
  3 ≤ m.missing || 1000 < m.ppm.natAbs || m.bclks != (if c.format = 1 then 64 else 512)

/-- FOLLOWER_PORT_LOST: a follower port whose frames are not as R289 asks stops its outputs, its slots are idle, and FOLLOWER_PORT_LOST is
noted (R289). -/
def execFollowerPortLost (port : Nat) (m : FollowerMeas) (s : State) : Host.Outcome State Fault Refusal :=
  within s (port < 4) (
    let c := s.mix.tdm.getD port {}
    if c.role = 1 && !s.mix.followerLost.getD port false && followerBad c m then
      note 0x0502 0xFF 0 port { s with
        mix := { s.mix with followerLost := setAt s.mix.followerLost port true }
        prog := { s.prog with pcms := s.prog.pcms.map (fun x => if x.port = port then
          { fadeOut 0 480 x with playing := false } else x) } }
    else s)

/-- FOLLOWER_PORT_RESUME: after 16 consecutive good frames the port resumes with a fade-in of 10 ms (R289). -/
def execFollowerPortResume (port good : Nat) (s : State) : Host.Outcome State Fault Refusal :=
  within s (port < 4 && 16 ≤ good) { s with
    mix := { s.mix with followerLost := setAt s.mix.followerLost port false }
    prog := { s.prog with pcms := s.prog.pcms.map (fun x =>
      if x.port = port && s.mix.followerLost.getD port false && pcmRuns s x && !x.o.removing then
        { x with playing := true, fade := (480, 480) }
      else x) } }

/-! ### The end of a shut-down (R336 to R339) -/

/-- Is an object of a class being shut down? -/
def objRemoving (s : State) (cls : ObjClass) (i : Nat) : Bool :=
  let o : Option SimpleObj := match cls with
    | .branch => branchObj s i
    | .probe => probeObj s i
    | .tap => tapObj s i
    | .follow => followObj s i
    | .blend => blendObj s i
    | .pcm => pcmObj s i
  (o.map (·.removing)).getD false

/-- Finish an object's shut-down (R336). -/
def finishObj (cls : ObjClass) (i : Nat) (cause : Option Nat) (s : State) : State := match cls with
  | .branch => finishBranch i cause s
  | .probe => finishProbe i cause s
  | .tap => finishTap i cause s
  | .follow => finishFollow i cause s
  | .blend => finishBlend i cause s
  | .pcm => finishPcm i cause s

/-- A shut-down ends: its resources are free, and a route held behind the output's slots is handled (R336, R338). -/
def objectRemoved (cls : ObjClass) (i : Nat) (s : State) : State :=
  if objRemoving s cls i then
    rerunHeld [0x0700] (fun _ f t => (pcmRouteChecks f t).holds) (fun op f t => handle op f true (pcmRouteChecks f t) (pcmRouteBody f) t)
      (refreshTuners (finishObj cls i none s))
  else s

end Sys2Proof.Machine
end

