-- ==== Sys2Proof/Machine/Binding.lean ====
section
/-!
DEFINITION. Binding.lean: binding outputs to rings, and port load (R26 to R28, R315, R378).
-/

namespace Sys2Proof.Machine

/-- The classes that have an output, coded as in a binding: 0 reception, 1 branch, 2 probe, 3 tap, 4 programme, 5 PCM output,
6 the device (R378). -/
def outputClasses (code : Nat) : List Nat :=
  if code = 0 then [0, 1, 2, 3]
  else if code = 2 then [5]
  else if code = 1 || code = 4 || code = 5 || code = 9 || code = 10 || code = 11 then [0]
  else if code = 3 || code = 6 || code = 7 || code = 8 || code = 12 then [4]
  else if code = 13 || code = 14 || code = 15 then [6] else []

/-- Does a reception or programme of a kind have an output (R231 to R233, R238, R378)? -/
def kindHasOutput (code : Nat) (k : Kind) : Bool :=
  if code = 1 || code = 4 then k == .fm
  else if code = 5 || code = 7 || code = 8 then k == .dab
  else if code = 9 || code = 10 then isDrm k
  else if code = 3 || code = 6 then !analogue k else true

/-- How a handle stands in a class of a binding. -/
def judgeBound (s : State) (h : Handle) : Nat → HandleState
  | 0 => judgeRx s h false
  | 1 => judgeObj h s.gens.branch (branchObj s h.index) false
  | 2 => judgeObj h s.gens.probe (probeObj s h.index) false
  | 3 => judgeObj h s.gens.tap (tapObj s h.index) false
  | 4 => judgeProgramme s h
  | 5 => judgeObj h s.gens.pcm (pcmObj s h.index) false
  | _ => .live

/-- The class a target handle names for an output: the first in which it is live, else the first (R331, log 28). -/
def boundClass (s : State) (code : Nat) (h : Handle) : Nat :=
  let l := outputClasses code
  (l.find? (fun c => judgeBound s h c = .live)).getD (l.headD 6)

/-- The handle under which a binding is kept: 0 for the device's own outputs. -/
def boundHandle (f : CmdFrame) (cls : Nat) : Handle := if cls = 6 then {} else f.target

/-- The kind of the source, for outputs that only some kinds have. -/
def boundKind (s : State) (cls i : Nat) : Kind :=
  if cls = 4 then ((programmeAt s i).map (fun p => kindAt s p.reception)).getD .dab else kindAt s i

/-- The checks of a command that names an output (R333, R378). -/
def outputChecks (f : CmdFrame) (s : State) : Checks :=
  let code := field f.payload 0 1
  let cls := boundClass s code f.target
  let known := !(outputClasses code).isEmpty
  let j := if known then judgeBound s f.target cls else HandleState.live
  { lenOk := f.payload.length = 4, modes := modesAll
    stale := [staleIf j 1 0xFFFF]
    noObj := [missingIf j 1 0xFFFF,
              failIf (!known || (j = .live && (cls = 0 || cls = 4) && !kindHasOutput code (boundKind s cls f.target.index)))
                3 2 0] }

/-- The ring a binding takes: clamped to the nearest legal one, the lower on a tie (R378). -/
def legalRing (code n : Nat) : Nat :=
  if code = 14 && n = 29 then 29
  else if code = 15 && n = 30 then 30
  else if code = 14 && 29 ≤ n then 29
  else if code = 15 && 29 ≤ n then 30
  else clampNat 12 27 n

/-- Bind or unbind an output; MOT objects gathered in the old ring are abandoned (R244, R315). -/
def applyBind (code cls : Nat) (h : Handle) (ring : Nat) (s : State) : State :=
  let s := if code = 8 then dropMot h.index true (fun _ => true) s else s
  let rest := s.plan.binds.filter (fun b => !(b.1 == code && b.2.1 == h && b.2.2.1 == cls))
  { s with plan := { s.plan with binds := if ring = 0xFF then rest else rest ++ [(code, h, cls, legalRing code ring)] } }

/-- RING_BIND's effect on the plan. -/
def bindFrame (f : CmdFrame) (s : State) : State :=
  let code := field f.payload 0 1
  let cls := boundClass s code f.target
  applyBind code cls (boundHandle f cls) (field f.payload 1 1) s

/-- Was RING_BIND's ring clamped (R315)? -/
def bindClamped (f : CmdFrame) : Bool :=
  field f.payload 1 1 ≠ 0xFF && legalRing (field f.payload 0 1) (field f.payload 1 1) ≠ field f.payload 1 1

/-- The checks of RING_BIND. -/
def ringBindChecks (f : CmdFrame) (s : State) : Checks :=
  { outputChecks f s with
    modes := [.idle, .survey, .serve, .sentry, .test], cap := admission s (bindFrame f s)
    clamps := bindClamped f }

/-- The effect and the reply of RING_BIND. -/
def ringBindBody (f : CmdFrame) (s : State) : State × Option Reply :=
  let code := field f.payload 0 1
  let ring := field f.payload 1 1
  let cls := boundClass s code f.target
  (bumpPlan (bindFrame f s), some {
    target := f.target, clamped := bindClamped f
    payload := leBytes 4 (if ring = 0xFF then 0 else outputRate s code f.target.index cls) })

/-- RING_BIND (R315, R378). -/
def execRingBind (f : CmdFrame) (s : State) : Host.Outcome State Fault Refusal :=
  .next (command 0x0800 f (ringBindChecks f) (ringBindBody f) s)

/-- The effect and the reply of GET_BIND. -/
def getBindBody (f : CmdFrame) (s : State) : State × Option Reply :=
  let code := field f.payload 0 1
  let cls := boundClass s code f.target
  (s, replyWith f (match boundRing s code cls (boundHandle f cls) with
    | some n => leBytes 1 n ++ zeros 3 ++ leBytes 4 (outputRate s code f.target.index cls)
    | none => leBytes 1 0xFF ++ zeros 7))

/-- GET_BIND (R378). -/
def execGetBind (f : CmdFrame) (s : State) : Host.Outcome State Fault Refusal :=
  .next (command 0x0801 f (outputChecks f) (getBindBody f) s)

/-- The checks of GET_PORT_LOAD. -/
def getPortLoadChecks (f : CmdFrame) (_ : State) : Checks :=
  { lenOk := f.payload.length = 0, modes := modesAll }

/-- The effect and the reply of GET_PORT_LOAD. -/
def getPortLoadBody (f : CmdFrame) (s : State) : State × Option Reply :=
  (s, replyWith f (([0, 1, 2] : List Nat).flatMap (fun p =>
    leBytes 4 (planned s p / 1000) ++ leBytes 4 (budget s p / 1000))))

/-- GET_PORT_LOAD (R28). -/
def execGetPortLoad (f : CmdFrame) (s : State) : Host.Outcome State Fault Refusal :=
  .next (command 0x0802 f (getPortLoadChecks f) (getPortLoadBody f) s)

end Sys2Proof.Machine
end

