-- ==== Sys2Proof/Machine/Demod.lean ====
section
/-!
DEFINITION. Demod.lean: analogue demodulation: acquisition and loss, pilot and carrier loops, MPX, RDS, and the measurements
of every programme (chapter 07, R236 and R237 of chapter 08, R240 of chapter 09).
-/

namespace Sys2Proof.Machine

/-! ### Acquisition and loss (R181 to R183, R223, R600) -/

/-- Is a reception receiving: its chain runs on a covered channel? -/
def receiving (r : Reception) : Bool := chainStarted r.chain && r.chain.covered && !r.removing && !r.shed

/-- The antenna instant of the last output that a reception's engine took, or of what reaches the ADC now (R183). -/
def lastTaken (s : State) (r : Reception) : Instant := match r.dem.due with
  | some i => i.moved (-(ticksPerOut r.kind : Int))
  | none => instantNow s (.reception r.idx) r.chain

/-- Do the last 200 ms of settled input meet an analogue reception's threshold, the mean offset of an FM carrier within its pull-in (R182,
R600)? -/
def qualityMet (r : Reception) : Bool :=
  let m := recentMoments r.kind r.dem
  ms 200 ≤ m.n * ticksPerOut r.kind && cnAtLeast r.kind m r.dem.opts.threshold &&
    (r.kind != .fm || m.offset.natAbs ≤ 4000000 * m.n)

/-- Has a DRM30 signal the robustness mode and occupancy that a reception fixes (R215)? -/
def fixedMatch (k : Kind) (d : DigOpts) (mode occupancy : Nat) : Bool :=
  k != .drm30 || ((d.mode = 0 || d.mode = mode + 1) && (d.occupancy = 6 || d.occupancy = occupancy))

/-- The acquisition conditions of R182, R600 and R223: for FM the pilot decision, for AM the carrier loop's lock within its pull-in of 250 Hz; for a digital signal the stages of R216 and three good checks in a row. -/
def acquires (r : Reception) : Bool := match r.kind with
  | .fm => qualityMet r && r.stereo.isSome
  | .am => qualityMet r && r.dem.am.loop.locked && r.dem.am.loop.freq.natAbs ≤ 250000
  | _ => r.ofdm.stage = .track && 3 ≤ r.goodRun && fixedMatch r.kind r.dig (r.drm.getD 0 0) (r.drm.getD 1 0)

/-- RECEPTION_ACQUIRED: a searching reception that meets its conditions becomes ACQUIRED, with synchronous audio where it is set (R179,
R182, R183, R223, R600). -/
def execReceptionAcquired (r : Nat) (s : State) : Host.Outcome State Fault Refusal :=
  within s (r < 256 && clockRuns s 6) (match receptionAt s r with
    | some x =>
      if receiving x && x.chain.state = .running && x.rx = .searching && acquires x then
        acquire r (lastTaken s x) (modReception r (fun x => { x with syncAudio := x.kind = .am && x.dem.opts.detection ≠ 0 }) s)
      else s
    | none => s)

/-- How long the carrier-to-noise ratio must be low before an acquired reception is lost: 1 s for FM, 2 s for AM (R182). -/
def lossTicks (k : Kind) : Nat := if k = .am then ms 2000 else ms 1000

/-- RECEPTION_LOST: the carrier-to-noise ratio of an acquired analogue reception stayed below the threshold less 3 dB for its
time: cause 0 (R182, R183). -/
def execReceptionLost (r : Nat) (s : State) : Host.Outcome State Fault Refusal :=
  within s (r < 256 && clockRuns s 6) (match receptionAt s r with
    | some x =>
      if x.rx = .acquired && receiving x && analogue x.kind && lossTicks x.kind ≤ x.dem.lowFor then loseReception r 0 (lastTaken s x) none s
      else s
    | none => s)

/-! ### Loops (R192, R194) -/

/-- The pilot decision: stereo at 4 kHz or more with the loop locked for 50 ms; mono below 3 kHz for 100 ms, with the loop out of lock,
or when 100 ms of settled input have not met the rule (R194). -/
def decidePilot (old : Option Bool) (d : Demod) : Option Bool :=
  let p := d.fm.pilot
  let stereo := 4000 ≤ p.deviation && p.locked && ms 50 ≤ p.lockedFor
  match old with
  | some true => some (p.locked && p.belowFor < ms 100)
  | some false => some stereo
  | none => if stereo then some true else if ms 100 ≤ d.settledFor then some false else none

/-- PILOT_DECISION: an FM reception is decided STEREO, from full separation on, or mono (R194, R196). -/
def execPilotDecision (r : Nat) (s : State) : Host.Outcome State Fault Refusal :=
  within s (r < 256 && clockRuns s 6) (modReception r (fun x =>
    if x.kind = .fm && receiving x then
      let d := decidePilot x.stereo x.dem
      { x with
        stereo := d
        dem := if d = some true && x.stereo ≠ some true then { x.dem with fm := { x.dem.fm with separation := 480000 } } else x.dem }
    else x) s)

/-- SYNC_LOOP_FALLBACK: the loop was unlocked for 100 ms, so envelope audio stands in, over a cross-fade (R192). -/
def execSyncLoopFallback (r : Nat) (s : State) : Host.Outcome State Fault Refusal :=
  within s (r < 256 && clockRuns s 6) (modReception r (fun x =>
    if x.kind = .am && x.syncAudio && ms 100 ≤ x.dem.am.loop.unlockedFor then
      { x with syncAudio := false, dem := { x.dem with am := { x.dem.am with fellBack := true } } }
    else x) s)

/-- SYNC_LOOP_RESTORE: the loop has been locked again for 200 ms, or has locked after a change into a synchronous mode (R179, R192). -/
def execSyncLoopRestore (r : Nat) (s : State) : Host.Outcome State Fault Refusal :=
  within s (r < 256 && clockRuns s 6) (modReception r (fun x =>
    let a := x.dem.am
    if x.kind = .am && x.rx != .searching && x.dem.opts.detection ≠ 0 && receiving x && a.loop.locked && (!a.fellBack || ms 200 ≤ a.loop.lockedFor) then
      { x with syncAudio := true, dem := { x.dem with am := { a with fellBack := false } } }
    else x) s)

/-! ### MPX (R197) -/

/-- A deviation in 0.01 Hz as an MPX sample: 32,767 is 150 kHz; a value between two steps goes to either (R197, log 136). -/
def mpxSample (v : Int) : Int := clampInt (-32767) 32767 (quot (v * 32767) 15000000)

/-- The samples of the next MPX Shaving: 960, or those up to a break (R197). -/
def mpxRun (l : List MpxSample) : List MpxSample := (l.take 1 ++ (l.drop 1).takeWhile (fun x => !x.first)).take 960

/-- Is the next MPX Shaving complete: it is full, a break follows it, or the reception gives nothing more (R197)? -/
def mpxDue (r : Reception) : Bool :=
  let n := (mpxRun r.dem.fm.out).length
  n = 960 || n < r.dem.fm.out.length || (n != 0 && !chainProducing r.chain)

/-- The MPX Shaving's payload (R197). -/
def mpxPayload (l : List MpxSample) : List Byte :=
  leBytes 2 l.length ++ leBytes 2 (l.takeWhile (·.concealed)).length ++ zeros 4 ++ l.flatMap (fun x => leInt 2 (mpxSample x.v))

/-- MPX_SHAVING: a bound FM reception writes the MPX samples that complete a Shaving (R189, R197). -/
def execMpxShaving (r : Nat) (s : State) : Host.Outcome State Fault Refusal :=
  within s (r < 256 && clockRuns s 6) (match receptionAt s r with
    | some x =>
      let h := ownerHandle s (.reception r)
      match boundRing s 1 0 h with
      | some ring =>
        if x.kind = .fm && mpxDue x then
          let l := mpxRun x.dem.fm.out
          let first := (l.headD {}).at'
          offerShaving ring { kind := 0x02, concealed := (l.headD {}).concealed, source := h, epoch := first.epoch, stamp := first.tick }
            (mpxPayload l) 0
            (modReception r (fun x => { x with dem := { x.dem with fm := { x.dem.fm with out := x.dem.fm.out.drop l.length } } }) s)
        else s
      | none => s
    | none => s)

/-! ### RDS (R198 to R201, R239, R240, R561) -/

/-- Queue a group to the emulation's FIFO: a full one drops its oldest (R561, R557). -/
def fifoPush (g : List Byte) (s : State) : State :=
  let c := s.compat
  let full := 64 ≤ c.fifo.length
  { s with compat := { c with
    fifo := (if full then c.fifo.drop 1 else c.fifo) ++ [g]
    fifoPos := if full then 0 else c.fifoPos
    overflow := c.overflow || full
    irq := if c.fifo.isEmpty then c.irq ||| 4 else c.irq } }

/-- The channels of the emulation that queue a reception's groups (R557). -/
def fifoChannels (s : State) (i : Nat) : List Nat :=
  if s.set.mode = .compat then
    (List.range 4).filter (fun c => s.compat.chRx.getD c none == some i && (s.set.compat.channels.getD c {}).rds)
  else []

/-- A whole group is delivered: to its ring, in SEARCHING only with four valid blocks (R239), to the emulation's FIFO, and stream 0's to alerts, Gauge and the programme's
text (R240, R247, R249, R259, R561). -/
def deliverGroup (i stream : Nat) (g : RdsGroup) (s : State) : State :=
  match receptionAt s i with
  | none => s
  | some r =>
    let h := ownerHandle s (.reception i)
    let ph := ((s.prog.programmes.find? (fun p => p.reception == i)).map (·.idx)).getD 0xFFFF
    let valid := r.rx != .searching || g.blocks.all (fun b => b.2 != 3)
    let s := match (if valid then boundRing s 4 0 h else none) with
      | some ring => offerUnit 4 0 h ring { kind := 0x20, source := h, prog := ph, epoch := g.at'.epoch, stamp := g.at'.tick }
          (rdsPayload stream g) s
      | none => s
    let pay := rdsPayload stream g
    let s := (fifoChannels s i).foldl (fun t c =>
      fifoPush (leBytes 1 c ++ pay.take 1 ++ (pay.drop 2).take 1 ++ (pay.drop 1).take 1 ++ pay.drop 8) t) s
    let s := modReception i (fun r => { r with rds := modAt r.rds stream (fun x => { x with sent := some g.at' }) }) s
    if stream ≠ 0 || g.mmbs then s
    else
      let x := r.rds.getD 0 {}
      let text := if ((goodBlock g 1).map (fun b => b / 4096)) = some 2
        then radiotext g ((goodBlock g 1).getD 0) x else (x, none)
      let s := modReception i (fun r => { r with rds := setAt r.rds 0 text.1 }) s
      let s := match text.2 with
        | some t => modProgramme ph (fun p => { p with label := some (0, false, t) }) s
        | none => s
      let s := groupCands i r.chain.freq g s
      (groupAlerts g (x.pi.getD 0) ++ groupEon g).foldl (fun t sg => signalAlert i g.at' sg t) s

/-- RDS_BLOCK: a selected stream completes a block of the bits it has, or searches through them; the groups it completes are delivered
(R199 to R201, R240, R536). -/
def execRdsBlock (r stream : Nat) (s : State) : Host.Outcome State Fault Refusal :=
  within s (r < 256 && stream < 4 && clockRuns s 6) (match receptionAt s r with
    | some x =>
      if receiving x && x.kind = .fm && x.dem.opts.streams.testBit stream then
        let y := rdsNext (x.dem.opts.rbds = 1) (x.rds.getD stream {})
        let s := modReception r (fun x => { x with rds := setAt x.rds stream y.1 }) s
        (newGroups y.2 y.1).foldl (fun t g => deliverGroup r stream g t) s
      else s
    | none => s)

/-! ### Measurement records (R202 to R206, R236, R237) -/

/-- A signed 16-bit field; a measure without a valid value reads 0x8000 (R203). -/
def measure16 : Option Int → List Byte
  | some v => leInt 2 v
  | none => leBytes 2 0x8000

/-- A signed 32-bit field; a measure without a valid value reads 0x8000_0000 (R203). -/
def measure32 : Option Int → List Byte
  | some v => leInt 4 v
  | none => leBytes 4 0x80000000

/-- An unsigned 16-bit field. -/
def satBytes (v : Int) : List Byte := leBytes 2 (satNat 65535 v.toNat)

/-- How much a running count has grown over the interval. -/
def grown (old now' : List Nat) (i : Nat) : Nat := now'.getD i 0 - old.getD i 0

/-- A count over the interval, from the running count and its value when the interval began. -/
def sinceMark (old now' : List Nat) (i : Nat) : Nat := satNat 65535 (grown old now' i)

/-- Ticks in microseconds. -/
def microsOf (ticks : Nat) : Nat := (quot ((ticks : Int) * 100) 24576).toNat

/-- Milliseconds since a reported silence began (R206). -/
def silenceMs (s : State) (p : Programme) (stop : Instant) : Nat := match p.silent, p.belowSince with
  | true, some b => ticksSince s b (inNow s stop) / 245760
  | _, _ => 0

/-- Does a reception have a diversity branch in use? -/
def diverse (s : State) (i : Nat) : Bool := s.prog.branches.any (fun b => b.reception = i && !b.o.shed && !b.o.removing)

/-- Is a digital programme being decoded: selected, present, neither suspended nor shed? -/
def decoding (p : Programme) : Bool := p.selected && !p.suspended && p.shedStep = 0 && p.absentAt.isNone

/-- The common tail of both records, offsets 74 to 127: loudness, silence, gaps and losses (R203, R206). -/
def recordTail (s : State) (r : Reception) (p : Programme) (audio : Bool) (gaps : Nat) (stop : Instant) : List Byte :=
  let v (x : Option Int) : List Byte := measure16 (if audio then x else none)
  let rate := audioRate r.kind p.decl
  v (loudnessOver rate 400 p.loud) ++ v (loudnessOver rate 3000 p.loud) ++ v (integratedLoudness p.loud) ++ v p.loud.peak ++
  zeros 2 ++ leBytes 4 (p.loud.integrated / ticksPerSecond) ++ leBytes 4 (if audio then silenceMs s p stop else 0) ++
  leBytes 4 (microsOf p.concealed) ++ leBytes 4 gaps ++ leBytes 2 (r.losses - p.lossesAt).toNat ++ zeros 26

/-- MPX power in 0.01 dBr over what the last 60 s hold: 10 log10 of the mean square against (19 kHz)^2/2 (R203). -/
def mpxPower (l : List (Nat × Nat)) : Option Int :=
  let n := (l.map (·.1)).sum
  let sq := (l.map (·.2)).sum
  if n = 0 || sq = 0 then none else some (dbValue 1000 sq (n * 1805000000000) (-12000) 6000)

/-- The echo ratio in 0.1 dB: the energy of all taps but the main one over that of the main one; with a diversity branch, over both
feedforward sections (R195, R203). -/
def echoRatio (diverse : Bool) (e : Equaliser) : Option Int :=
  let ff := if diverse then e.ff else e.ff.take 1
  let main := (ff.map (fun l => normSq (l.getD 8 (0, 0)))).sum
  let all := ((ff.flatten ++ e.fb).map normSq).sum
  if main = 0 || all = main then none else some (dbValue 100 (all - main) main (-1000) 1000)

/-- Standard deviation over mean of the magnitudes, in 0.1 % (R203). -/
def envelopeFluctuation (m : AnaMeas) : Int :=
  quot (Nat.sqrt (1000000 * (m.sums.n * m.sums.m2 - m.env * m.env)) : Nat) (m.env : Nat)

/-- The mean of a signed sum; none over nothing. -/
def meanInt (sum : Int) (n : Nat) : Option Int := if n = 0 then none else some (quot sum n)

/-- The mean magnitude of the symbols of a stream over the interval (R203). -/
def meanLevel (x : RdsStream) : Nat := x.level.1 / max 1 x.level.2

/-- The analogue record (R206); `stop` is the instant at which the interval ends. -/
def analogueRecord (s : State) (r : Reception) (p : Programme) (stop : Instant) : List Byte :=
  let fm : Bool := r.kind == .fm
  let n := rxCounts r
  let m := r.dem.meas
  let f := r.dem.fm
  let d (i : Nat) := sinceMark p.marks n i
  let flags := (r.rx == .acquired).toNat + 2 * (fm && r.stereo == some true).toNat + 4 * r.syncAudio.toNat +
    8 * (fm && r.dem.opts.eq == 1).toNat + 16 * p.silent.toNat + 32 * (p.concealed != 0).toNat + 64 * (diverse s r.idx).toNat +
    128 * (fm && decide ((f.power.map (·.1)).sum < 23040000)).toNat
  let stream (i : Nat) : List Byte := if fm && r.dem.opts.streams.testBit i then
      satBytes (Config.rdsInjection i (meanLevel (r.rds.getD i {}))) ++ leBytes 2 (d (3 * i)) ++ leBytes 2 (d (3 * i + 1)) ++ leBytes 2 (d (3 * i + 2))
    else zeros 8
  let sync := ((List.range 4).map (fun i => ((r.rds.getD i {}).sync).toNat * 2 ^ i)).sum
  leBytes 1 fm.toNat ++ leBytes 1 flags ++ leBytes 2 (p.interval * 100) ++ measure16 (powerTenth m.sums.n m.power) ++
  measure16 (cnValue r.kind m.sums) ++ measure32 (meanInt m.sums.offset m.sums.n) ++
  (if fm then zeros 8 else measure16 (powerTenth m.sums.n m.sums.carrier) ++ satBytes m.peaks.1 ++ satBytes m.peaks.2 ++ zeros 2) ++
  (if fm then leBytes 4 (quot m.maxDev 100).toNat ++ leBytes 4 (microsOf (640 * m.overCount)) ++ measure16 (mpxPower f.power) ++
      satBytes (quot f.pilot.deviation 10) ++ measure16 (if f.pilot.locked then some (clampInt (-32767) 32767 f.pilot.offset) else none) ++
      satBytes (quot f.separation 480) ++ measure16 (if r.dem.opts.eq = 1 then echoRatio (diverse s r.idx) f.eq else none)
    else zeros 18) ++
  satBytes (envelopeFluctuation m) ++ stream 0 ++ stream 1 ++ stream 2 ++ stream 3 ++ leBytes 1 sync ++ zeros 1 ++
  recordTail s r p true (grown p.marks n 16) stop

/-- Does the signal carry another identity than the one expected (R215)? -/
def identityMismatch (r : Reception) : Bool :=
  r.dig.identity ≠ 0 && (if r.kind = .dab then r.ensemble ≠ 0 && r.ensemble ≠ r.dig.identity
    else !r.services.isEmpty && !r.services.contains r.dig.identity)

/-- The variant of a digital record (R237). -/
def digitalVariant (k : Kind) (codec : Nat) : Nat := match k with
  | .drm30 => 4 | .drmPlus => 5 | _ => if codec = 1 then 3 else 2

/-- The ratio of two mean powers in 0.1 dB; none without either (R236). -/
def ratioTenth (a na b nb : Nat) : Option Int :=
  if na = 0 || nb = 0 || a = 0 || b = 0 then none else some (dbValue 100 (a * nb) (b * na) (-1000) 1000)

/-- Chain outputs in 0.1 us, from a number of them times a scale. -/
def outputsTenthUs (k : Kind) (v scale : Nat) : Int := quot ((v * ticksPerOut k * 1000 : Nat) : Int) ((24576 * scale : Nat) : Int)

/-- The rms spread of the impulse-response energy within 20 dB of its strongest path, in 0.1 us (R236). -/
def delaySpread (k : Kind) (imp : List Nat) : Int :=
  let l := pathsOf imp
  let e := (l.map (·.2)).sum
  let d := (l.map (fun x => x.1 * x.2)).sum
  outputsTenthUs k (Nat.sqrt (10000 * (e * (l.map (fun x => x.1 * x.1 * x.2)).sum - d * d))) (100 * e)

/-- From the first to the last path within 20 dB of the strongest, in 0.1 us; energy beyond the guard interval is in it (R217, R236). -/
def echoSpan (k : Kind) (imp : List Nat) : Int :=
  let l := pathsOf imp
  outputsTenthUs k ((l.getLastD (0, 0)).1 - (l.headD (0, 0)).1) 1

/-- The rms rate of change of the channel estimates' phase in 0.1 Hz, from squared steps over a frame (R236). -/
def doppler (k : Kind) (sq n : Nat) : Int :=
  let frame := frameOutputs k * ticksPerOut k
  quot ((Nat.sqrt (sq / max 1 n) * 2457600000 : Nat) : Int) ((frame * 4294967296 : Nat) : Int)

/-- The digital record (R236, R237); `stop` is the instant at which the interval ends. -/
def digitalRecord (s : State) (r : Reception) (p : Programme) (stop : Instant) : List Byte :=
  let dab : Bool := r.kind == .dab
  let n := rxCounts r
  let d (i : Nat) := sinceMark p.marks n i
  let g (i : Nat) := grown p.marks n (18 + i)
  let c (i : Nat) := satNat 65535 (p.checks.getD i 0)
  let echoes := r.ofdm.echoes.zipIdx.map (fun x => x.1 - p.echoMark.getD x.2 0)
  let flags := (r.rx == .acquired).toNat + 2 * (decoding p).toNat + 4 * p.absentAt.isSome.toNat +
    8 * (identityMismatch r).toNat + 16 * (decoding p && p.silent).toNat + 32 * (p.concealed != 0).toNat +
    64 * (diverse s r.idx).toNat + 128 * (d 17 != 0).toNat
  let plus : Bool := dab && p.decl.codec == 1
  leBytes 1 (digitalVariant r.kind p.decl.codec) ++ leBytes 1 flags ++ leBytes 2 (p.interval * 100) ++
  measure16 (powerTenth (g 0) (g 1)) ++ measure16 (ratioTenth (g 2) 1 (g 3) 1) ++
  measure32 (if r.ofdm.stage = .track then some r.ofdm.freq else none) ++
  (if dab then measure16 (ratioTenth (g 4) (g 5) (g 6) (g 7)) else zeros 2) ++
  satBytes (delaySpread r.kind echoes) ++ satBytes (echoSpan r.kind echoes) ++ satBytes (doppler r.kind (g 8) (g 9)) ++
  (if dab then zeros 4 else leBytes 1 (r.drm.getD 0 0) ++ leBytes 1 (if r.kind = .drm30 then r.drm.getD 1 0 else 0) ++
    leBytes 1 (r.drm.getD 2 0) ++ leBytes 1 (r.drm.getD 3 0)) ++
  leBytes 4 (p.checks.getD 0 0) ++ leBytes 4 (p.checks.getD 1 0) ++ leBytes 2 (d 12) ++ leBytes 2 (d 13) ++
  (if dab then zeros 4 else leBytes 2 (d 14) ++ leBytes 2 (d 15)) ++
  (if plus then leBytes 2 (c 2) ++ leBytes 2 (c 3) ++ leBytes 2 (c 4) ++ leBytes 2 (c 5) else zeros 8) ++
  leBytes 2 (satNat 65535 p.units) ++ leBytes 2 (satNat 65535 p.unitFails) ++ leBytes 2 p.decl.bitRate ++
  leBytes 1 p.decl.protection ++ leBytes 1 p.decl.codec ++ leBytes 2 p.decl.sampleRate ++ leBytes 1 p.decl.audioMode ++
  zeros 1 ++ leBytes 4 p.decl.service ++ leBytes 1 p.decl.component ++ leBytes 1 p.decl.sub ++
  (if dab then leBytes 2 r.ensemble else zeros 2) ++ zeros 6 ++
  recordTail s r p (decoding p) (grown p.marks n 16) stop

/-- The silence that stands for audio missing since the programme's last frame (R235, R536). -/
def missingAudio (s : State) (per : Nat) (at' : Instant) (p : Programme) : List AudioFrame := match p.audioNext with
  | none => []
  | some i =>
    (List.range (ticksSince s i (inNow s at') / per)).map (fun (j : Nat) => silentFrame (i.later (per * j)) p.idx)

/-- A decoded digital programme whose reception searches has given silence up to an instant (R235, R237). -/
def searchSilence (i : Nat) (at' : Instant) (s : State) : State := match programmeAt s i with
  | some p =>
    if digitalProgramme s p && decoding p && ((receptionAt s p.reception).map (fun r => r.rx == .searching)).getD false then
      let per := ticksPerSecond / audioRate (kindAt s p.reception) p.decl
      let l := missingAudio s per at' p
      deliverAudio i l (modProgramme i (fun p => { p with
        audioNext := p.audioNext.map (·.later (per * l.length))
        lastAudio := ((l.getLast?).map (·.at')).getD p.lastAudio }) s)
    else s
  | none => s

/-- MEASUREMENT_INTERVAL_END: time reaches the end of a measured programme's interval; its record is written to its ring and
the next interval begins, with a changed length from here on (R202, R203, R206, R236, R237). -/
def execMeasurementIntervalEnd (p : Nat) (s : State) : Host.Outcome State Fault Refusal :=
  within s (p < 1024 && clockRuns s 6) (match programmeAt s p with
    | none => s
    | some x => match receptionAt s x.reception, x.intervalAt with
      | some r, some at' =>
        if x.measured && receiving r then
          let due := at'.later (ms (100 * x.interval))
          let s := pass (inNow s due - stampNow s (.reception r.idx) r.chain).toInt.toNat s
          let s := searchSilence p due s
          let x := (programmeAt s p).getD x
          let pay := if analogue r.kind then analogueRecord s r x due else digitalRecord s r x due
          let s := match boundRing s 12 4 (programmeHandle x) with
            | some ring => offerShaving ring { kind := 0x40, source := programmeHandle x, prog := p, epoch := at'.epoch
                                               stamp := at'.tick } pay 0 s
            | none => s
          modProgramme p (beginInterval s due) (beginMeasures r.idx s)
        else s
      | _, _ => s)

/-! ### Silence (R205, R608) -/

/-- What a momentary value does to the silence timer: concealed audio neither advances nor resets it; a value at or above the threshold
resets it (R205). -/
def silenceStep (v : Option Int) (heard : Nat) (at' : Instant) (p : Programme) : Programme := match v with
  | some v =>
    if heard = 0 then p
    else if v < 10 * p.threshold then { p with
      belowSince := some (p.belowSince.getD at'), belowMs := if p.belowSince.isSome then p.belowMs + heard else 0 }
    else { p with silent := false, belowSince := none, belowMs := 0 }
  | none => p

/-- MOMENTARY_LOUDNESS: every 100 ms of audio a value over the 400 ms that end there; one at or above the threshold ends a reported
silence (R203 to R205). -/
def execMomentaryLoudness (p : Nat) (s : State) : Host.Outcome State Fault Refusal :=
  within s (p < 1024 && clockRuns s 6) (match programmeAt s p with
    | none => s
    | some x =>
      let k := kindAt s x.reception
      let rate := audioRate k x.decl
      let l := x.loud.todo.take (rate / 10)
      if !x.measured || !hasAudio s x || l.length < rate / 10 then s
      else
        let loud := loudStep rate (audioChannels k x.decl) x.loud
        let heard := 100 * (unconcealed l).length / l.length
        let at' := (l.getLastD {}).at'.later (ticksPerSecond / rate)
        let y := silenceStep (loudnessOver rate 400 loud) heard at' { x with loud := loud }
        let s := if x.silent && !y.silent then postSilence x false at' s else s
        modProgramme p (fun _ => y) s)

/-- SILENCE_BEGAN: the loudness has stayed below the threshold for the silence time: PROGRAMME_SILENCE with state 1, naming
the first value below (R205). -/
def execSilenceBegan (p : Nat) (s : State) : Host.Outcome State Fault Refusal :=
  within s (p < 1024 && clockRuns s 6) (match programmeAt s p with
    | none => s
    | some x => match x.belowSince with
      | some b =>
        if x.measured && !x.silent && hasAudio s x && 1000 * x.silenceS ≤ x.belowMs then
          modProgramme p (fun x => { x with silent := true }) (postSilence x true b s)
        else s
      | none => s)

end Sys2Proof.Machine
end

