-- ==== Sys2Proof/Machine/Scarf.lean ====
section
/-!
DEFINITION. Scarf.lean: the operations of blend pairs: alignment, fade requests, fades, drain and build (R275 to R281).
-/

namespace Sys2Proof.Machine

/-- Does a branch of a pair have audio (R275)? -/
def branchAudio (s : State) (h : Handle) : Bool := match programmeAt s h.index with
  | some p => p.gen == h.gen && hasAudio s p
  | none => false

/-- Do both branches of a pair have audio? -/
def pairAudio (s : State) (b : Blend) : Bool := branchAudio s b.a && branchAudio s b.b

/-- The line's delay is brought up to now, and a new motion counts from here. -/
def settleLine (s : State) (b : Blend) : Blend := { b with delay := lineNow s b, slip := b.slip - slipped s b, motionAt := now s }

/-- Change a pair's state after a change of its fields, showing NO_AUDIO as it stands (R281). -/
def blendGo (i : Nat) (st : BlendState) (cause : Option Nat) (s : State) : State :=
  modBlend i (fun b => { b with offsetStep := false })
    (blendTo i st cause (modBlend i (fun b => { b with noAudio := !pairAudio s b }) s))

/-- A fade begins: the curve and the length are copied, the other branch comes in (R278). -/
def startFade (i br : Nat) (cause : Option Nat) (s : State) : State := match blendAt s i with
  | none => s
  | some b =>
    let line := lineNow s b
    let full := b.aligned && (br = earlier b || line = fullOffset b)
    blendGo i .fading cause (modBlend i (fun b => { settleLine s b with
      copied := curvePoints s b.curve, fadeNow := b.fadeMs, fadePos := 0, fadeAt := now s, playing := br, past := [], splice := []
      request := none, waiting := none
      unalignedFade := !full }) s)

/-- A motion of the line begins from the delay already in it (R280). -/
def startMotion (i : Nat) (st : BlendState) (req : Option Nat) (cause : Option Nat) (s : State) : State :=
  blendGo i st cause (modBlend i (fun b => { settleLine s b with request := req, waiting := none }) s)

/-- A fade request, from a follow object or BLEND_FADE; `loss` says that it follows a loss decision. The second part says that
the request is held (R279). -/
def requestFade (i br : Nat) (loss : Bool) (cause : Option Nat) (s : State) : State × Bool := match blendAt s i with
  | none => (s, false)
  | some b =>
    match b.state with
    | .fading =>
      if br = b.playing then (modBlend i (fun b => { b with request := none }) s, false)
      else (modBlend i (fun b => { b with request := some br, requestLoss := loss }) s, true)
    | .building =>
      if br = b.playing then (startMotion i .draining none cause s, false)
      else if loss then (startFade i br cause s, false)
      else (modBlend i (fun b => { b with request := some br }) s, true)
    | _ =>
      if br = b.playing then (modBlend i (fun b => { b with waiting := none }) s, false)
      else if loss then (startFade i br cause s, false)
      else if !b.aligned then (modBlend i (fun b => { b with waiting := some br, waitAt := now s }) s, true)
      else if br = earlier b || lineNow s b = fullOffset b then (startFade i br cause s, false)
      else (startMotion i .building (some br) cause s, true)

/-- The pair's own state while no motion runs. -/
def restState (b : Blend) : BlendState := if b.aligned then .aligned else .unaligned

/-- New branches: alignment begins anew (R275, R277). -/
def newBranches (x : Handle × Handle) (b : Blend) : Blend :=
  { b with a := x.1, b := x.2, heldBranch := none, aligned := false, offset := 0, delay := 0, agree := [], misses := 0
           peak := 0, request := none, waiting := none, lines := ([], []), carry := (0, 0), env := ({}, {}), slip := 0, past := [], splice := [], gainB := 0 }

/-- A fade has ended: a held change of branch applies, the earlier branch's line drains, and what the fade held is released
(R163, R173, R275, R279, R280, R520). -/
def endFade (i : Nat) (s : State) : State := match blendAt s i with
  | none => s
  | some b =>
    let s := modBlend i (fun b => { b with unalignedFade := false }) s
    let s := match b.heldBranch with
      | some x => blendGo i .unaligned none (modBlend i (newBranches x) s)
      | none =>
        if b.playing = earlier b && 0 < b.delay then startMotion i .draining b.request none s
        else blendGo i (restState b) none s
    let s := releaseDeferred (releaseFadeHolds s)
    match (blendAt s i).bind (·.request) with
    | some r => (requestFade i r b.requestLoss none (modBlend i (fun b => { b with request := none }) s)).1
    | none => s

/-! ### Alignment (R276, R277) -/

/-- The line follows a new offset in one step: while the later branch plays it holds the full offset; while the earlier one plays from
the line, its delay moves by the same step (R277, R280). -/
def followOffset (s : State) (d : Int) (b : Blend) : Blend :=
  let c := { settleLine s b with offset := d, slip := 0 }
  if c.playing != earlier c then { c with delay := d.natAbs }
  else if c.delay = 0 || earlier c != earlier b then { c with delay := 0 }
  else { c with delay := ((c.delay : Int) + (d.natAbs : Int) - (fullOffset b : Int)).toNat }

/-- A small change of the offset: the delayed branch follows it by time-scaling (R277). -/
def slipOffset (s : State) (d : Int) (b : Blend) : Blend :=
  let c := settleLine s b
  if earlier { c with offset := d } != earlier c || (c.playing == earlier c && c.delay = 0) then followOffset s d b
  else { c with offset := d, slip := c.slip + (d.natAbs : Int) - (fullOffset c : Int) }

/-- A larger change: where the delayed branch plays, it goes on at the new delay over a splice of 10 ms (R277). -/
def stepOffset (s : State) (d : Int) (b : Blend) : Blend :=
  let c := followOffset s d b
  let old := lineNow s b
  let l := lineOf c c.playing
  let c := { c with offsetStep := true }
  if c.state = .fading || c.playing != earlier c || c.delay = old then c
  else
    let l' := if old < c.delay then lastFrames (c.delay - old) c.past ++ l else l.drop (old - c.delay)
    { putLines c.playing l' (lineOf c (1 - c.playing)) c with splice := l.take 480 }

/-- Do three measurements agree within 1 ms: 48 samples? -/
def threeAgree : List Int → Bool
  | [a, b, c] => (a - b).natAbs ≤ 48 && (a - c).natAbs ≤ 48 && (b - c).natAbs ≤ 48
  | _ => false

/-- A new offset reaches the line: at rest it is taken, while the line moves or a fade runs it is followed as a change is (R277). -/
def newOffset (s : State) (d : Int) (b : Blend) : Blend :=
  if b.state = .unaligned then followOffset s d b
  else if (d - b.offset).natAbs ≤ 48 then slipOffset s d b
  else stepOffset s d b

/-- Alignment is gained: the pair becomes ALIGNED once no motion or fade runs, and a waiting request goes on (R277, R279). -/
def gainAlignment (i : Nat) (d : Int) (s : State) : State :=
  let s := modBlend i (fun b => { newOffset s d b with aligned := true }) s
  match blendAt s i with
  | none => s
  | some b =>
    let s := if b.state = .unaligned then blendGo i .aligned none s else s
    match b.waiting with
    | some r => (requestFade i r false none s).1
    | none => s

/-- Alignment is lost; the last offset is kept (R277). -/
def loseAlignment (i : Nat) (s : State) : State :=
  let s := modBlend i (fun b => { b with aligned := false, agree := [], misses := 0 }) s
  match blendAt s i with
  | some b => if b.state = .aligned then blendGo i .unaligned none s else s
  | none => s

/-- One measurement of a pair whose branches both have audio: its normalised peak in 0.001 and its offset (R277). -/
def correlate (i : Nat) (m : Nat × Int) (s : State) : State := match blendAt s i with
  | none => s
  | some b =>
    let s := modBlend i (fun b => { b with peak := m.1 }) s
    if m.1 < 500 then
      if 6 ≤ b.misses + 1 then loseAlignment i s
      else modBlend i (fun b => { b with misses := b.misses + 1, agree := [] }) s
    else
      let l := (m.2 :: b.agree).take 3
      let s := modBlend i (fun b => { b with agree := l, misses := 0 }) s
      if !b.aligned then (if threeAgree l then gainAlignment i m.2 s else s)
      else if (m.2 - b.offset).natAbs ≤ 48 then modBlend i (slipOffset s m.2) s
      else if threeAgree l then modBlend i (stepOffset s m.2) s
      else s

end Sys2Proof.Machine
end

