-- ==== Sys2Proof/Machine/Gauge.lean ====
section
/-!
DEFINITION. Gauge.lean: the operations of follow objects and probes: candidates, probe moves, the switch metric, decisions
and what a switch does (R256 to R274).
-/

namespace Sys2Proof.Machine

/-- A probe by its index. -/
def probeAt (s : State) (i : Nat) : Option Probe := s.prog.probes.find? (·.o.idx == i)

/-- Change a probe. -/
def modProbe (i : Nat) (g : Probe → Probe) (s : State) : State :=
  { s with prog := { s.prog with probes := s.prog.probes.map (fun p => if p.o.idx = i then g p else p) } }

/-- The handle of a follow object. -/
def followHandle (f : Follow) : Handle := { index := f.o.idx, gen := f.o.gen }

/-- The receptions the service can be played from without acquisition: the serving one and the members (R257). -/
def arrivals (f : Follow) : List Nat := f.serving :: f.members.filter (· != f.serving)

/-- Is a candidate the channel of a reception? -/
def onChannel (c : Cand) (r : Reception) : Bool := c.freq = r.chain.freq && c.kind = r.kind

/-- Change the candidate of a frequency and standard. -/
def modCand (fr : Nat) (k : Kind) (g : Cand → Cand) (f : Follow) : Follow :=
  { f with cands := f.cands.map (fun c => if c.freq = fr && c.kind = k then g c else c) }

/-- The attached probes of a follow object that run. -/
def attached (s : State) (f : Follow) : List Probe :=
  s.prog.probes.filter (fun p => p.follow = some (followHandle f) && !p.o.removing && !p.o.shed)

/-! ### Probe moves (R260 to R263) -/

/-- The bank an attached probe uses for a kind: that of its chain block where valid, else the kind's default (R261). -/
def probeBank (s : State) (k : Kind) (block : List Byte) : Handle :=
  let h := handleAt block 4
  if h.index < 64 && bankValid s k h.index then { index := h.index, gen := bankGen s h.index } else defaultBankHandle s k

/-- The channel a probe is on, or takes at its next block boundary. -/
def probeOnChannel (p : Probe) : Nat × Kind := ((p.chain.pend.freq.map (·.1)).getD p.chain.freq, p.chain.pend.kind.getD p.chain.kind)

/-- Does a probe stand on a candidate's channel, or go to it next? -/
def standsOn (p : Probe) (fr : Nat) (k : Kind) : Bool := probeOnChannel p == (fr, k)

/-- The window through which a probe reads a channel: an open one that covers it, a glance's at it, or the one it has (R260, R264). -/
def probeReads (s : State) (k : Kind) (fr : Nat) (old : Nat) : Nat :=
  (capturedBy s k fr).getD (((([0, 1, 2, 3] : List Nat).map glanceWindow).find? (fun w => covers s w k fr)).getD old)

/-- A probe's chain goes to a channel: a producing one at its next block boundary, with its kind; any other at once (R162, R166, R173,
R174). -/
def moveChain (k : Kind) (w : Nat) (b : ChainBlock) (c : Chain) : Chain :=
  let c' := changeChain false w b c
  if !chainProducing c then { c' with kind := k }
  else if c.kind = k then c'
  else { c' with pend := { c'.pend with freq := some (b.freq, w), kind := some k } }

/-- The settings that a probe's chain block gives its chain on a channel (R261). -/
def probeBlock (s : State) (k : Kind) (fr : Nat) (block : List Byte) : ChainBlock :=
  { freq := fr, bank := probeBank s k block, delay := satNat 4095 (field block 8 2), frac := satNat 63 (field block 10 1)
    clamped := false, stale := false }

/-- Judge a probe's chain that has no open block to wait for (R118, R156). -/
def judgeProbe (i : Nat) (s : State) : State := match (probeAt s i).map (·.chain) with
  | some c => if chainStarted c && !chainProducing c then refreshTuners (judgeChain none (.probe i) (freshProbe i s)) else s
  | none => s

/-- Put a probe's chain on a channel (R261, R174). -/
def tuneProbe (i : Nat) (k : Kind) (fr : Nat) (s : State) : State := match probeAt s i with
  | none => s
  | some p =>
    let w := probeReads s k fr p.chain.window
    judgeProbe i (modProbe i (fun p => { p with
      chain := moveChain k w (probeBlock s k fr p.block) p.chain, dwellAt := now s, entry := { freq := fr, kind := k } }) s)

/-- May a probe check a candidate now: captured, and not rejected (R260, R262)? -/
def probable (s : State) (c : Cand) : Bool := (capturedBy s c.kind c.freq).isSome && c.state != .rejected

/-- The next element after the one a test picks, in turn. -/
def nextAfter (here : Cand → Bool) (l : List Cand) : List Cand :=
  (l.dropWhile (fun c => !here c)).drop 1 ++ l.takeWhile (fun c => !here c) ++ l.filter here

/-- A candidate that no probe is on any more falls back to UNCHECKED, unless it was verified or rejected. -/
def leaveCand (s : State) (c : Cand) : Cand :=
  if c.state = .probing then { c with state := if (capturedBy s c.kind c.freq).isSome then .unchecked else .outside } else c

/-- Move an attached probe to a candidate. -/
def probeOn (i : Nat) (fo : Nat) (c : Cand) (s : State) : State :=
  match probeAt s i with
  | none => s
  | some p =>
    let s := modFollow fo (modCand (probeOnChannel p).1 (probeOnChannel p).2 (leaveCand s)) s
    let s := modFollow fo (modCand c.freq c.kind (fun c => { c with
      state := if c.state = .unchecked || c.state = .outside then .probing else c.state, samples := [], source := none, acquired := false })) s
    tuneProbe i c.kind c.freq s

/-- The candidates in descending order of their last M (R268). -/
def byMetric (l : List Cand) : List Cand := l.mergeSort (fun a b => b.metric.getD (-100000) ≤ a.metric.getD (-100000))

/-- Move an attached probe to the next captured candidate in turn that no other probe of the object is on; while the current reception
is lost the turn goes down the last metrics (R263, R268). -/
def advanceProbe (i : Nat) (s : State) : State := match probeAt s i with
  | none => s
  | some p => match p.follow.bind (fun h => followAt s h.index) with
    | none => s
    | some f =>
      let others := (attached s f).filter (fun q => q.o.idx != i)
      let here (c : Cand) : Bool := standsOn p c.freq c.kind
      let free (c : Cand) : Bool := probable s c && !others.any (fun q => standsOn q c.freq c.kind)
      match (nextAfter here (if f.touring then byMetric f.cands else f.cands)).find? free with
      | some c => if here c then modProbe i (fun p => { p with dwellAt := now s }) s else probeOn i f.o.idx c s
      | none => modProbe i (fun p => { p with dwellAt := now s }) s

/-! ### The metric (R266, R267) -/

/-- The metric M in 0.1 dB of a measure (R266); a digital programme's failed unit caps it at 0 dB. The constellation of a DRM
MSC is coded as in R237. -/
def metricOf (pref : Int) (k : Kind) (msc : Nat) (failed : Bool) (v : Int) : Int :=
  let m : Int := match k with
    | .fm => v - 120
    | .am => v - 100
    | .dab => v - 70 + 5 * pref
    | _ => v - (if msc ≤ 1 then 70 else if msc = 2 then 130 else 190) + 5 * pref
  if failed && !analogue k then min m 0 else m

/-- What a probe needs to be acquired: FM and AM by the carrier-to-noise ratio, AM with its loop in lock, a digital signal by its stages
and its control channel (R216, R262, R267). -/
def probeAcquired (checked : Bool) (r : Reception) : Bool := match r.kind with
  | .fm => qualityMet r
  | .am => qualityMet r && r.dem.am.loop.locked && r.dem.am.loop.freq.natAbs ≤ 250000
  | _ => r.ofdm.stage = .track && checked

/-- The measure of an arrival now: the carrier-to-noise ratio, or the MER since the sums of the measure before (R203, R236, R266). -/
def measureNow (mark : Nat × Nat) (r : Reception) : Option Int :=
  if analogue r.kind then cnValue r.kind (recentMoments r.kind r.dem)
  else ratioTenth (r.ofdm.sums.getD 2 0 - mark.1) 1 (r.ofdm.sums.getD 3 0 - mark.2) 1

/-- The mean of the latest measures that there are. -/
def meanMeasure (l : List (Option Int)) : Option Int :=
  let v := l.filterMap id
  meanInt v.sum v.length

/-- A candidate with one more measure of what arrives on it, received by `src` and demodulated as `r` (R266). -/
def sampleCand (s : State) (pref : Int) (msc : Nat) (failed acquired : Bool) (src : Bool × Nat) (r : Reception) (c : Cand) : Cand :=
  let sums := (r.ofdm.sums.getD 2 0, r.ofdm.sums.getD 3 0)
  let same := c.source == some src
  let l := (measureNow (if same then c.sumsMark else sums) r :: (if same then c.samples else [])).take 10
  let m := (meanMeasure l).map (metricOf pref c.kind msc failed)
  { c with
    samples := l, sumsMark := sums, source := some src, metric := m.or c.metric
    metricAt := if m.isSome then now s else c.metricAt, acquired := acquired }

/-- The identity that a reception's signal carries: the PI code, or the object's own among the services (R262). -/
def receivedIdentity (f : Follow) (r : Reception) : Option Nat := match r.kind with
  | .fm => (r.rds.getD 0 {}).identity
  | .dab => let l := r.declared.map (·.service)
    (l.find? (ownIdentity f .dab)).or l.head?
  | .am => none
  | k => (r.services.find? (ownIdentity f k)).or r.services.head?

/-- A candidate judged by the identity it carries; AM carries none (R262). -/
def judgeIdentity (s : State) (f : Follow) (id : Option Nat) (c : Cand) : Cand :=
  if c.kind = .am then
    if keptOrigin c.origin && c.acquired && c.state != .outside then { c with state := .verified } else c
  else match id with
    | none => c
    | some v =>
      if ownIdentity f c.kind v then
        (if c.state = .glanced || c.state = .outside then { c with identity := v } else { c with identity := v, state := .verified })
      else { c with identity := v, state := .rejected, rejectedAt := now s, beatSince := none }

/-- Has a unit of the programme that a reception has for the object failed its check in the last 1 s (R266)? -/
def unitFailing (s : State) (f : Follow) (i : Nat) : Bool := match serviceProgramme s f i with
  | some p => decoding p && (match p.failedAt with
      | some t => decide (now s < t + ticksPerSecond)
      | none => false)
  | none => false

/-- The reception of an object that stands on a candidate's channel and produces outputs. -/
def receptionOn (s : State) (f : Follow) (c : Cand) : Option Reception :=
  ((arrivals f).filterMap (receptionAt s)).find? (fun r => onChannel c r && chainProducing r.chain && receiving r)

/-- The probe of an object that stands on a candidate's channel and produces outputs. -/
def probeOnto (s : State) (f : Follow) (c : Cand) : Option Probe :=
  (attached s f).find? (fun p => p.chain.freq = c.freq && p.chain.kind = c.kind && p.chain.pend.freq.isNone && chainProducing p.chain)

/-- A candidate after one interval of 100 ms: measured on the reception or the probe that receives it, else without a metric of its
own (R262, R266, R267). -/
def measureCand (s : State) (f : Follow) (l : List GaugeIn) (c : Cand) : Cand :=
  let g := (l.find? (fun g => g.freq = c.freq && g.kind = c.kind)).getD {}
  match receptionOn s f c with
  | some r => judgeIdentity s f (receivedIdentity f r)
      (sampleCand s f.pref (r.drm.getD 2 0) (unitFailing s f r.idx) (r.rx = .acquired) (false, r.idx) r c)
  | none => match probeOnto s f c with
    | some p =>
      let r := probeReception p
      judgeIdentity s f (if c.kind = .fm then (r.rds.getD 0 {}).identity else g.identity)
        (sampleCand s f.pref g.msc false (probeAcquired g.checked r) (true, p.o.idx) r c)
    | none => { c with samples := [], source := none, acquired := false }

/-- Does a member reception stand on a candidate, acquired and able to take the audio? -/
def memberOn (s : State) (f : Follow) (c : Cand) : Option Nat :=
  (arrivals f).find? (fun m => m != f.current && (match receptionAt s m with
    | some r => onChannel c r && r.rx == .acquired && chainStarted r.chain && r.chain.covered && !r.removing && !r.shed
    | none => false : Bool))

/-- The probe of the object that is acquired on a captured candidate of the current reception's kind; a reception that is gone, or is
being removed, takes no probe's chain. -/
def probeWith (s : State) (f : Follow) (c : Cand) : Option Nat :=
  let there : Bool := ((receptionAt s f.current).map (fun r => c.kind = r.kind && !r.removing)).getD false
  if there && c.acquired && (capturedBy s c.kind c.freq).isSome then (probeOnto s f c).map (·.o.idx) else none

/-- Is a candidate eligible (R267)? The current reception's own channel is none. -/
def eligible (s : State) (f : Follow) (c : Cand) : Bool :=
  c.state == .verified && 10 ≤ c.samples.length && c.metric.isSome &&
  !((receptionAt s f.current).map (onChannel c)).getD false &&
  ((memberOn s f c).isSome || (probeWith s f c).isSome)

/-! ### Decisions (R268, R272, R273) -/

/-- Is the current reception lost: gone, SEARCHING, uncovered, or its programme ABSENT or not decoding (R268)? -/
def currentLost (s : State) (f : Follow) : Bool := match receptionAt s f.current with
  | none => true
  | some r => r.removing || r.shed || r.rx == .searching || !r.chain.covered || (match serviceProgramme s f r.idx with
      | some p => p.absentAt.isSome || (p.selected && (p.suspended || p.shedStep ≠ 0))
      | none => false)

/-- The candidate of the highest M, the earliest in the table on a tie. -/
def bestCand : List Cand → Option Cand
  | [] => none
  | c :: l => match bestCand l with
    | some d => if c.metric.getD 0 < d.metric.getD 0 then some d else some c
    | none => some c

/-- The pair's branch that a reception's programme is (R269). -/
def branchOf (s : State) (b : Blend) (i : Nat) : Option Nat :=
  let is (h : Handle) : Bool := s.prog.programmes.any (fun p => p.reception == i && programmeHandle p == h)
  if is b.a then some 0 else if is b.b then some 1 else none

/-- The fade a member switch asks of the object's pair: the pair and the branch, if the old and the new current reception's
programmes are its branches (R269). -/
def switchFade (s : State) (f : Follow) (m : Nat) : Option (Nat × Nat) :=
  match f.blend.bind (blendAt s) with
  | some b =>
    if b.o.removing || b.o.shed then none
    else match branchOf s b f.current, branchOf s b m with
      | some x, some y => if x = y then none else some (b.o.idx, y)
      | _, _ => none
  | none => none

/-- The Audio field of a decision (R272). -/
def switchAudio (s : State) (f : Follow) (d : Decision) : Nat := match d.member with
  | some m => match switchFade s f m with
    | some (i, br) => match blendAt s i with
      | some b => if br = b.playing && b.state != .fading then 4
        else if b.aligned && (d.cause = 0 || br = earlier b || lineNow s b = fullOffset b) then 1 else 2
      | none => 0
    | none => 0
  | none => if analogue (kindAt s f.current) then 0 else 3

/-- Post FOLLOW_SWITCHED for a decision; its time-stamp is given by the present count (R272). -/
def postSwitched (f : Follow) (d : Decision) (dest : Cand) (stamp : Tick) (s : State) : State :=
  let h (i : Nat) := ownerHandle s (.reception i)
  let fromF := ((receptionAt s f.current).map (·.chain.freq)).getD 0
  let met (m : Option Int) : List Byte := match m with
    | some v => leInt 2 v
    | none => leBytes 2 0x8000
  post 0x8900 (followHandle f)
    (leBytes 1 d.cause ++ leBytes 1 (if f.mode = 0 then 2 else if d.member.isSome then 0 else 1) ++
     leBytes 1 (if f.mode = 0 then 4 else switchAudio s f d) ++ zeros 1 ++ handleBytes (h f.current) ++
     handleBytes (h (d.member.getD f.current)) ++ leBytes 4 fromF ++ leBytes 4 dest.freq ++ met f.currentMetric ++ met dest.metric ++
     leBytes 2 (instantAt s stamp).epoch.toNat ++ zeros 6 ++ leBytes 8 (instantAt s stamp).tick.toNat) none s

/-- A switch has been made: it counts, and the hold time begins (R268, R274). -/
def countSwitch (i : Nat) (s : State) : State :=
  modFollow i (fun f => { f with switches := f.switches + 1, lastSwitch := some (now s)
                                 cands := f.cands.map (fun c => { c with beatSince := none }) }) s

/-- Is the fade that an object asked for still being made? -/
def fadeBusy (s : State) (f : Follow) : Bool := match f.blend.bind (blendAt s) with
  | some b => b.state == .fading || b.state == .building || b.waiting.isSome
  | none => false

/-- The outputs that play an object change over in a cross-fade of 5 ms on curve 0 (R269, R270). -/
def crossOutputs (f : Follow) (s : State) : State :=
  { s with prog := { s.prog with pcms := s.prog.pcms.map (fun x =>
      if x.sourceCls = 1 && x.source = followHandle f then leaveSource 240 x else x) } }

/-- Carry out a decision: a member switch at once; a retarget at the next block boundary (R269, R270). -/
def carryOut (i : Nat) (d : Decision) (s : State) : State := match followAt s i with
  | none => s
  | some f => match d.member with
    | some m =>
      if (receptionAt s m).isNone then s
      else
        let s := match switchFade s f m with
          | some (b, br) => (requestFade b br (d.cause = 1) none s).1
          | none => crossOutputs f s
        let s := modFollow i (fun f => { f with current := m, heldDecision := none }) (countSwitch i s)
        match followAt s i with
        | some _ => modFollow i (fun f => { f with pending := if fadeBusy s f then some d else none }) s
        | none => s
    | none => modFollow i (fun f => { f with pending := some d, heldDecision := none }) s

/-- Is a decision held behind the switch being carried out: a retarget not yet applied, or a fade or build in progress
(R273)? A request for the branch that a build would leave cancels the build at once (R279). -/
def mustHold (s : State) (f : Follow) (d : Decision) : Bool := match f.pending with
  | none => false
  | some p =>
    if p.cand.isSome then true
    else match f.blend.bind (blendAt s) with
      | some b => b.state == .fading || (b.state == .building && ((d.member.bind (branchOf s b)) != some b.playing))
      | none => false

/-- A decision is made: FOLLOW_SWITCHED is posted, and it is carried out, held, or in mode 0 only advised (R268, R272, R273). The
same decision is not made again while it stands; one for the switch that is being carried out leaves none held behind it. -/
def switchDecided (i : Nat) (d : Decision) (dest : Cand) (stamp : Tick) (s : State) : State := match followAt s i with
  | none => s
  | some f =>
    if f.mode = 0 then
      if f.advised = some d then s
      else modFollow i (fun f => { f with advised := some d, lastSwitch := some (now s) }) (postSwitched f d dest stamp s)
    else if mustHold s f d then
      if f.heldDecision = some d || (f.pending = some d && f.heldDecision.isNone) then s
      else modFollow i (fun f => { f with heldDecision := if f.pending = some d then none else some d }) (postSwitched f d dest stamp s)
    else carryOut i d (postSwitched f d dest stamp s)

/-- The decision that goes to a candidate. -/
def decisionTo (s : State) (f : Follow) (cause : Nat) (c : Cand) : Decision := match memberOn s f c with
  | some m => { cause := cause, member := some m }
  | none => { cause := cause, cand := some (c.freq, c.kind), probe := (probeWith s f c).getD 0 }

/-- With no eligible candidate, the probes go to the captured candidates of the highest last M as the loss begins; from there their
dwells take them down the list (R263, R268). -/
def lossProbes (i : Nat) (s : State) : State := match followAt s i with
  | none => s
  | some f =>
    if f.touring then s
    else
    let s := modFollow i (fun f => { f with touring := true }) s
    let ps := attached s f
    let l := byMetric (f.cands.filter (fun c => probable s c && !((receptionAt s f.current).map (onChannel c)).getD false))
    let want := l.take ps.length
    let on (c : Cand) (p : Probe) : Bool := standsOn p c.freq c.kind
    let idle := ps.filter (fun p => !want.any (fun c => on c p))
    let need := want.filter (fun c => !ps.any (on c))
    (idle.zip need).foldl (fun t x => probeOn x.1.o.idx i x.2 t) s

/-- Gauge decides for one object (R268). `stamp` ends the metric interval that completes the decision. -/
def gaugeDecide (i : Nat) (stamp : Tick) (s : State) : State := match followAt s i with
  | none => s
  | some f =>
    if s.set.mode != .serve || f.o.removing then s
    else
      let el := f.cands.filter (eligible s f)
      if currentLost s f then
        match bestCand el with
        | some c => if 0 ≤ c.metric.getD 0 then switchDecided i (decisionTo s f 1 c) c stamp s else s
        | none => lossProbes i s
      else
        let s := modFollow i (fun f => { f with
          touring := false, advised := if (f.advised.map (·.cause)) = some 1 then none else f.advised }) s
        let holdT := ms (100 * f.hold)
        let ready := el.filter (fun c => match c.beatSince with
          | some t => t + holdT ≤ now s
          | none => false)
        let rested : Bool := match f.lastSwitch with
          | some t => t + holdT ≤ now s
          | none => true
        match bestCand ready with
        | some c => if rested then switchDecided i (decisionTo s f 0 c) c stamp
            (if f.mode = 0 then modFollow i (fun f => { f with advised := none }) s else s) else s
        | none => s

/-- A switch that is no longer being carried out makes room for the decision held behind it (R273). -/
def resumeSwitch (i : Nat) (s : State) : State := match followAt s i with
  | none => s
  | some f => match f.pending with
    | none => s
    | some p =>
      if p.cand.isSome || fadeBusy s f then s
      else
        let s := modFollow i (fun f => { f with pending := none }) s
        match f.heldDecision with
        | some d => carryOut i d s
        | none => s

/-- Every object that uses a pair, after the pair's state has changed. -/
def resumeSwitches (b : Nat) (s : State) : State :=
  (s.prog.follows.filter (fun f => f.blend = some b)).foldl (fun t f => resumeSwitch f.o.idx t) s

/-- The metric of the current reception and the beat times of the candidates follow the new measurements (R266, R268). -/
def updateBeats (s : State) (f : Follow) : Follow :=
  let cur := (receptionAt s f.current).bind (fun r => (f.cands.find? (fun c => onChannel c r)).bind (·.metric))
  { f with
    currentMetric := cur
    cands := f.cands.map (fun c =>
      let beats : Bool := match cur, c.metric with
        | some m, some v => eligible s f c && m + 5 * (f.hyst : Int) ≤ v
        | _, _ => false
      { c with beatSince := if beats then some (c.beatSince.getD (now s)) else none }) }

end Sys2Proof.Machine
end

