-- ==== Sys2Proof/Machine/Blend.lean ====
section
/-!
DEFINITION. Blend.lean: blend pairs: their commands, correlations, fades, drain and build (R275 to R281, R379).
-/

namespace Sys2Proof.Machine

/-! ### Commands (R275, R279, R379) -/

/-- Apply BLEND_SET's fields to a pair. The second part says that a value was clamped (R275). -/
def setBlend (p : List Byte) (b : Blend) : Blend × Bool :=
  let c := field p 8 1
  let l := field p 9 1
  let fd := field p 10 2
  let rg := field p 12 2
  let dr := field p 14 1
  let wt := field p 15 1
  ({ b with curve := satNat 15 c, level := satNat 1 l, fadeMs := clampNat 50 2000 fd, range := clampNat 100 4000 rg
            drain := clampNat 2 10 dr, wait := satNat 100 wt },
    15 < c || 1 < l || clampNat 50 2000 fd != fd || clampNat 100 4000 rg != rg || clampNat 2 10 dr != dr || 100 < wt)

/-- Create a pair at an index: it plays branch A (R275). -/
def createBlend (i : Nat) (mark : Bool) (p : List Byte) (s : State) : State × Bool :=
  let g := nextGen (s.gens.blend.getD i 0)
  let (ser, s) := takeSerial s
  let x := setBlend p { o := { idx := i, gen := g, sentry := mark, serial := ser }, a := handleAt p 0, b := handleAt p 4 }
  ({ s with gens := { s.gens with blend := setAt s.gens.blend i g }
            mix := { s.mix with blends := s.mix.blends ++ [x.1] } }, x.2)

/-- Does a payload name other branches than a pair has? -/
def otherBranches (p : List Byte) (b : Blend) : Bool := handleAt p 0 != b.a || handleAt p 4 != b.b

/-- Change a pair in place: during a fade a change of branch is held, a later one replacing it (R275). The last part says
that the change is held. -/
def changeBlend (i : Nat) (p : List Byte) (cause : Option Nat) (s : State) : State × Bool × Bool := match blendAt s i with
  | none => (s, false, false)
  | some b =>
    let clamped := (setBlend p b).2
    let other := otherBranches p b
    let s := modBlend i (fun b => (setBlend p (settleLine s b)).1) s
    if b.state = .fading then
      (modBlend i (fun b => { b with heldBranch := if other then some (handleAt p 0, handleAt p 4) else none }) s, clamped, other)
    else if other then
      (blendGo i .unaligned cause (modBlend i (newBranches (handleAt p 0, handleAt p 4)) s), clamped, false)
    else (s, clamped, false)

/-- The index a new pair takes. -/
def newBlendIndex (s : State) : Nat := (freeIndex 8 (s.mix.blends.map (·.o.idx))).getD 8

/-- The checks of BLEND_SET (R275, R333). -/
def blendSetChecks (f : CmdFrame) (s : State) : Checks :=
  let new := f.target.index = 0xFFFF
  let j := if new then HandleState.live else judgeObj f.target s.gens.blend (blendObj s f.target.index) false
  let a := judgeProgramme s (handleAt f.payload 0)
  let b := judgeProgramme s (handleAt f.payload 4)
  { lenOk := f.payload.length = 16, modes := modesIS
    bad := [failIf (handleAt f.payload 0 == handleAt f.payload 4) 6 2 4]
    stale := [staleIf j 1 0xFFFF, staleIf a 2 0, staleIf b 2 4]
    noObj := [missingIf j 1 0xFFFF, missingIf a 2 0, missingIf b 2 4]
    cap := if new then admission s (createBlend (newBlendIndex s) false f.payload s).1 else []
    clamps := (createBlend (newBlendIndex s) false f.payload s).2 }

/-- The effect and the reply of BLEND_SET. -/
def blendSetBody (f : CmdFrame) (s : State) : State × Option Reply :=
  if f.target.index = 0xFFFF then
    let i := newBlendIndex s
    let x := createBlend i false f.payload s
    (bumpPlan x.1, some { target := { index := i, gen := x.1.gens.blend.getD i 0 }, clamped := x.2 })
  else
    let x := changeBlend f.target.index f.payload (some f.tag) s
    (bumpPlan x.1, some { target := f.target, clamped := x.2.1, held := x.2.2 })

/-- BLEND_SET (R275). -/
def execBlendSet (f : CmdFrame) (s : State) : Host.Outcome State Fault Refusal :=
  .next (command 0x0907 f (blendSetChecks f) (blendSetBody f) s)

/-- How a target stands against the blend pairs. -/
def judgeBlend (s : State) (h : Handle) (evenRemoving : Bool) : HandleState :=
  judgeObj h s.gens.blend (blendObj s h.index) evenRemoving

/-- Begin a pair's removal: a fade ends at once on the incoming branch (R336, R379). -/
def shutBlend (i : Nat) (cause : Nat) (s : State) : State := match blendAt s i with
  | none => s
  | some b =>
    if b.o.removing then s
    else if s.set.mode = .serve then
      resumeSwitches i (releaseDeferred (cutFade i (modBlend i (fun b => { b with o := { b.o with removing := true } }) s)))
    else finishBlend i (some cause) s

/-- The checks of BLEND_REMOVE. -/
def blendRemoveChecks (f : CmdFrame) (s : State) : Checks :=
  objChecks f (f.payload.length = 0) modesIS (judgeBlend s f.target true)

/-- The effect and the reply of BLEND_REMOVE. -/
def blendRemoveBody (f : CmdFrame) (s : State) : State × Option Reply :=
  let again := ((blendObj s f.target.index).map (·.removing)).getD false
  (shutBlend f.target.index f.tag (if again then s else bumpPlan s), some { target := f.target })

/-- BLEND_REMOVE (R336, R337, R379). -/
def execBlendRemove (f : CmdFrame) (s : State) : Host.Outcome State Fault Refusal :=
  .next (command 0x0908 f (blendRemoveChecks f) (blendRemoveBody f) s)

/-- The checks of BLEND_FADE. -/
def blendFadeChecks (f : CmdFrame) (s : State) : Checks :=
  objChecks f (f.payload.length = 4) [.serve] (judgeBlend s f.target false)

/-- The effect and the reply of BLEND_FADE. -/
def blendFadeBody (f : CmdFrame) (s : State) : State × Option Reply :=
  let x := requestFade f.target.index (satNat 1 (field f.payload 0 1)) false (some f.tag) s
  (x.1, some { target := f.target, clamped := 1 < field f.payload 0 1, held := x.2 })

/-- BLEND_FADE: a fade request for the branch named (R279, R379). -/
def execBlendFade (f : CmdFrame) (s : State) : Host.Outcome State Fault Refusal :=
  .next (command 0x0909 f (blendFadeChecks f) (blendFadeBody f) s)

/-- A pair's settings as read back (R359). -/
def blendBytes (b : Blend) : List Byte :=
  let x := b.heldBranch.getD (b.a, b.b)
  handleBytes x.1 ++ handleBytes x.2 ++ leBytes 1 b.curve ++ leBytes 1 b.level ++ leBytes 2 b.fadeMs ++ leBytes 2 b.range ++
  leBytes 1 b.drain ++ leBytes 1 b.wait

/-- The checks of GET_BLEND. -/
def getBlendChecks (f : CmdFrame) (s : State) : Checks :=
  objChecks f (f.payload.length = 0) modesAll (judgeBlend s f.target true)

/-- The effect and the reply of GET_BLEND. -/
def getBlendBody (f : CmdFrame) (s : State) : State × Option Reply :=
  (s, match blendAt s f.target.index with
    | some b => replyWith f (blendBytes b ++ blendPayload { b with delay := lineNow s b, noAudio := !pairAudio s b })
    | none => some {})

/-- GET_BLEND: the settings applied and the pair's present state (R281). -/
def execGetBlend (f : CmdFrame) (s : State) : Host.Outcome State Fault Refusal :=
  .next (command 0x090A f (getBlendChecks f) (getBlendBody f) s)

/-! ### What Scarf does by itself (R276 to R280) -/

/-- Does a pair run: in SERVE, neither shut down nor shed (R256, R538)? -/
def blendRuns (s : State) (b : Blend) : Bool := s.set.mode == .serve && !b.o.removing && !b.o.shed

/-- A blend pair on which Scarf works: not once its island has a fault (R543). -/
def scarfAt (s : State) (b : Nat) : Option Blend := if unitUp s 9 then blendAt s b else none

/-- SCARF_CORRELATION: every 500 ms the branches are correlated, but not while one is silent or concealed; a branch without audio leaves
the pair UNALIGNED (R275 to R277). -/
def execScarfCorrelation (b : Nat) (s : State) : Host.Outcome State Fault Refusal :=
  within s (b < 8 && clockRuns s 9 && clockRuns s 6) (match scarfAt s b with
    | some x =>
      if !blendRuns s x then s
      else
        let s := match x.corrAt with
          | some t => passTo (t + ms 500) s
          | none => s
        let s := modBlend b (fun x => { x with corrAt := some (now s), noAudio := !pairAudio s x }) s
        if !pairAudio s x then loseAlignment b s
        else match (if branchQuiet s x.a || branchQuiet s x.b then none else correlation x) with
          | some m => resumeSwitches b (correlate b m s)
          | none => s
    | none => s)

/-- FADE_END: the fade's length has passed (R278, R280). -/
def execFadeEnd (b : Nat) (s : State) : Host.Outcome State Fault Refusal :=
  within s (b < 8 && clockRuns s 9 && clockRuns s 6) (match scarfAt s b with
    | some x =>
      if x.state = .fading then resumeSwitches b (endFade b (passTo (x.fadeAt + ms x.fadeNow) s)) else s
    | none => s)

/-- Ticks in which a line moves by a number of samples (R280). -/
def motionTicks (drain n : Nat) : Nat := (n * 1000 + drain * 5 - 1) / (drain * 5) * 5120

/-- DRAIN_DONE: the earlier branch plays undelayed (R280). -/
def execDrainDone (b : Nat) (s : State) : Host.Outcome State Fault Refusal :=
  within s (b < 8 && clockRuns s 9 && clockRuns s 6) (match scarfAt s b with
    | some x =>
      if x.state = .draining then
        let s := passTo (x.motionAt + motionTicks x.drain x.delay) s
        resumeSwitches b (blendGo b (restState x) none (modBlend b (fun x => { x with delay := 0, slip := 0 }) s))
      else s
    | none => s)

/-- BUILD_DONE: the line holds the full offset and the fade that waited begins (R280). -/
def execBuildDone (b : Nat) (s : State) : Host.Outcome State Fault Refusal :=
  within s (b < 8 && clockRuns s 9 && clockRuns s 6) (match scarfAt s b with
    | some x =>
      if x.state = .building then
        let s := passTo (x.motionAt + motionTicks x.drain (fullOffset x - x.delay)) s
        startFade b (x.request.getD (1 - x.playing)) none s
      else s
    | none => s)

/-- ALIGNMENT_WAIT_EXPIRY: the fade runs with the last known offset, or none (R279). -/
def execAlignmentWaitExpiry (b : Nat) (s : State) : Host.Outcome State Fault Refusal :=
  within s (b < 8 && clockRuns s 6) (match scarfAt s b with
    | some x => match x.waiting with
      | some r => startFade b r none (passTo (x.waitAt + ms (100 * x.wait)) s)
      | none => s
    | none => s)

end Sys2Proof.Machine
end

