-- ==== Sys2Proof/Machine/Flags.lean ====
section
/-!
DEFINITION. Flags.lean: the status words that registers compose from the state: MODE, RESET_CAUSE, STRAP, AON_STATUS,
TIME_STATUS and the SPI status byte.
-/

namespace Sys2Proof.Machine

/-- A Bool in a bit of a number. -/
def bitIf (b : Bool) (i : Nat) : Nat := if b then 2 ^ i else 0

/-- STRAP (R81). -/
def strapWord (s : State) : W32 := BitVec.ofNat 32 (s.pwr.strapCode % 16 + 16 * (0x2C + s.pwr.strapCode % 4))

/-- IDCODE of the test access port (R580, log 122): version 1, part 0x7256, manufacturer 0x55F, bit 0 set. -/
def tapIdcode : W32 := 0x1#4 ++ 0x7256#16 ++ 0x55F#11 ++ 1#1

/-- RESET_CAUSE (R91). -/
def resetCauseWord (s : State) : W32 :=
  let c := s.pwr.rc
  BitVec.ofNat 32 (c.cause % 4 + bitIf c.recovery 2 + bitIf c.busStuck 3 + bitIf c.writeFinished 4 +
    256 * (c.nresetCount % 256) + 65536 * c.held.toNat)

/-- The mode that TARGET shows: the one being entered, or the current one (R49). -/
def targetMode (s : State) : Mode := s.head.transition.getD s.set.mode

/-- MODE (R49). In host configuration 3 RESUME reads 0x4 while COMPAT runs (R551). -/
def modeWord (s : State) : W32 :=
  let resume := if s.set.mode = .compat then 4 else s.set.resume.code
  BitVec.ofNat 32 (s.set.mode.code + 16 * (targetMode s).code + bitIf s.head.transition.isSome 8 +
    512 * (s.store.restoreSource % 4) + 65536 * resume)

/-- AON_STATUS (R302). -/
def aonStatusWord (s : State) : W32 :=
  BitVec.ofNat 32 (bitIf s.pwr.wakePin 0 + 2 * (s.set.lastWake % 8) + bitIf (!s.store.queue.isEmpty) 4 +
    bitIf s.pwr.retainedOk 5 + 256 * satNat 255 s.head.expiries)

/-- REF_TYPE of TIME_STATUS: 0 none, 1 PPS, 2 10 MHz (R102). -/
def refType (ref : Nat) : Nat := if ref = 0 then 0 else if ref = 3 then 2 else 1

/-- TIME_STATUS (R102). -/
def timeStatusWord (s : State) : W32 :=
  BitVec.ofNat 32 (s.time.epoch.toNat + 65536 * s.time.plumb.code + 524288 * refType s.set.time.ref +
    bitIf s.time.aonCount 21 + bitIf (!s.pwr.aonCrystal) 22 + bitIf (s.clk.sPll == .locked) 23 +
    bitIf (s.clk.sysPll == .locked) 24)

end Sys2Proof.Machine
end

