-- ==== Sys2Proof/Machine/Crypto.lean ====
section
/-!
DEFINITION. Crypto.lean: the approved algorithms of the Mortise (R480): AES, CCM, KW, SHA-256 and ECDSA P-256 verification. The manual
names the standards that define them, and these definitions are PRESUMED from those standards (log 33).
-/

namespace Sys2Proof.Machine

/-! ### AES (FIPS 197) -/

/-- The S-box, entry `i` at bits 8 i and up. -/
def sboxTable : Nat :=
  0x16bb54b00f2d99416842e6bf0d89a18cdf2855cee9871e9b948ed9691198f8e19e1dc186b95735610ef6034866b53e708a8bbd4b1f74dde8c6b4a61c2e2578ba08ae7a65eaf4566ca94ed58d6d37c8e779e4959162acd3c25c2406490a3a32e0db0b5ede14b8ee4688902a22dc4f816073195d643d7ea7c41744975fec130ccdd2f3ff1021dab6bcf5389d928f40a351a89f3c507f02f94585334d43fbaaefd0cf584c4a39becb6a5bb1fc20ed00d153842fe329b3d63b52a05a6e1b1a2c830975b227ebe28012079a059618c323c7041531d871f1e5a534ccf73f362693fdb7c072a49cafa2d4adf04759fa7dc982ca76abd7fe2b670130c56f6bf27b777c63

/-- The inverse S-box, entry `i` at bits 8 i and up. -/
def invSboxTable : Nat :=
  0x7d0c2155631469e126d677ba7e042b17619953833cbbebc8b0f52aae4d3be0a0ef9cc9939f7ae52d0d4ab519a97f51605fec8027591012b131c7078833a8dd1ff45acd78fec0db9a2079d2c64b3e56fc1bbe18aa0e62b76f89c5291d711af1476edf751ce837f9e28535ade72274ac9673e6b4f0cecff297eadc674f4111913a6b8a130103bdafc1020f3fca8f1e2cd00645b3b80558e4f70ad3bc8c00abd890849d8da75746155edab9edfd5048706c92b6655dcc5ca4d41698688664f6f87225d18b6d49a25b76b224d92866a12e084ec3fa420b954cee3d23c2a632947b54cbe9dec444438e3487ff2f9b8239e37cfbd7f3819ea340bf38a53630d56a0952

/-- SubBytes of one byte. -/
def subByte (x : Nat) : Nat := sboxTable >>> (8 * x) % 256

/-- InvSubBytes of one byte. -/
def invSubByte (x : Nat) : Nat := invSboxTable >>> (8 * x) % 256

/-- Multiplication by x in GF(2^8). -/
def xtime (a : Nat) : Nat := if a < 128 then 2 * a else (2 * a) ^^^ 0x11B

/-- Multiplication of two bytes in GF(2^8), over the low 4 bits of the second. -/
def gfMul (a b : Nat) : Nat :=
  let t (i : Nat) (v : Nat) : Nat := if b.testBit i then v else 0
  t 0 a ^^^ t 1 (xtime a) ^^^ t 2 (xtime (xtime a)) ^^^ t 3 (xtime (xtime (xtime a)))

/-- XOR of two byte lists. -/
def xorList (a b : List Nat) : List Nat := List.zipWith (· ^^^ ·) a b

/-- The next word of the key schedule, from the words so far, newest first, for a key of `nk` words. -/
def nextKeyWord (nk i rcon : Nat) (ws : List (List Nat)) : List Nat :=
  let last := ws.getD 0 []
  let t := if i % nk = 0 then
      xorList ((last.drop 1 ++ last.take 1).map subByte) [rcon, 0, 0, 0]
    else if 6 < nk && i % nk = 4 then last.map subByte
    else last
  xorList (ws.getD (nk - 1) []) t

/-- `n` further words of the key schedule, newest first. -/
def expandFrom (nk : Nat) : Nat → Nat → Nat → List (List Nat) → List (List Nat)
  | 0, _, _, ws => ws
  | n + 1, i, rcon, ws => expandFrom nk n (i + 1) (if i % nk = 0 then xtime rcon else rcon) (nextKeyWord nk i rcon ws :: ws)

/-- A byte list in groups of `n`. -/
def groupsOf (n : Nat) : Nat → List Nat → List (List Nat)
  | 0, _ => []
  | k + 1, l => l.take n :: groupsOf n k (l.drop n)

/-- The round keys of a 16-byte or 32-byte key, first round first. -/
def roundKeys (key : List Nat) : List (List Nat) :=
  let nk := key.length / 4
  let ws := (expandFrom nk (4 * (nk + 7) - nk) nk 1 (groupsOf 4 nk key).reverse).reverse
  groupsOf 16 (nk + 7) ws.flatten

/-- ShiftRows of a state held by columns. -/
def shiftRows (s : List Nat) : List Nat := ([0, 5, 10, 15, 4, 9, 14, 3, 8, 13, 2, 7, 12, 1, 6, 11] : List Nat).map (s.getD · 0)

/-- InvShiftRows. -/
def invShiftRows (s : List Nat) : List Nat := ([0, 13, 10, 7, 4, 1, 14, 11, 8, 5, 2, 15, 12, 9, 6, 3] : List Nat).map (s.getD · 0)

/-- One output byte of a column mixed with four factors. -/
def mixByte (c : List Nat) (k : List Nat) : Nat := (List.zipWith gfMul c k).foldl (· ^^^ ·) 0

/-- One column mixed by the circulant matrix with this first row. -/
def mixColumn (k : List Nat) (c : List Nat) : List Nat :=
  ([0, 3, 2, 1] : List Nat).map (fun r => mixByte c (k.drop r ++ k.take r))

/-- MixColumns or its inverse. -/
def mixColumns (k : List Nat) (s : List Nat) : List Nat := (groupsOf 4 4 s).flatMap (mixColumn k)

/-- AES encryption of one 16-byte block under a 16-byte or 32-byte key. -/
def aesBlock (key block : List Nat) : List Nat := match roundKeys key with
  | [] => block
  | k :: ks =>
    let round (s : List Nat) (x : List Nat) : List Nat := xorList (mixColumns [2, 3, 1, 1] (shiftRows (s.map subByte))) x
    let s := ks.dropLast.foldl round (xorList block k)
    xorList (shiftRows (s.map subByte)) (ks.getLastD [])

/-- AES decryption of one block. -/
def aesInvBlock (key block : List Nat) : List Nat := match (roundKeys key).reverse with
  | [] => block
  | k :: ks =>
    let round (s : List Nat) (x : List Nat) : List Nat := mixColumns [14, 11, 13, 9] (xorList ((invShiftRows s).map invSubByte) x)
    let s := ks.dropLast.foldl round (xorList block k)
    xorList ((invShiftRows s).map invSubByte) (ks.getLastD [])

/-- Bytes as numbers. -/
def nats (l : List Byte) : List Nat := l.map (·.toNat)

/-- Numbers as bytes. -/
def toBytes (l : List Nat) : List Byte := l.map (BitVec.ofNat 8)

/-- AES of one block of bytes. -/
def aes (key block : List Byte) : List Byte := toBytes (aesBlock (nats key) (nats block))

/-- AES decryption of one block of bytes. -/
def aesInv (key block : List Byte) : List Byte := toBytes (aesInvBlock (nats key) (nats block))

/-! ### CCM (SP 800-38C), with an 8-byte MIC and a 2-byte length field (R417, R491) -/

/-- XOR of two byte strings, as long as the shorter. -/
def xorBytes (a b : List Byte) : List Byte := List.zipWith (· ^^^ ·) a b

/-- A byte string in blocks of 16, the last padded with zeros. -/
def blocks16 (l : List Byte) : List (List Byte) := (List.range ((l.length + 15) / 16)).map (fun i => padTo 16 ((l.drop (16 * i)).take 16))

/-- The low `n` bytes of a number, big-endian. -/
def beBytes (n v : Nat) : List Byte := (leBytes n v).reverse

/-- The CBC-MAC of associated data and message. -/
def ccmMac (key nonce ad msg : List Byte) : List Byte :=
  let b0 := leBytes 1 (if ad.isEmpty then 25 else 89) ++ nonce ++ beBytes 2 msg.length
  let a := if ad.isEmpty then [] else blocks16 (beBytes 2 ad.length ++ ad)
  ((b0 :: a ++ blocks16 msg).foldl (fun x b => aes key (xorBytes x b)) (zeros 16)).take 8

/-- Block `i` of the CCM key stream. -/
def ccmStream (key nonce : List Byte) (i : Nat) : List Byte := aes key (leBytes 1 1 ++ nonce ++ beBytes 2 i)

/-- The message encrypted or decrypted. -/
def ccmCrypt (key nonce msg : List Byte) : List Byte :=
  xorBytes msg ((List.range ((msg.length + 15) / 16)).flatMap (fun i => ccmStream key nonce (i + 1)))

/-- CCM protection: ciphertext and MIC. -/
def ccmProtect (key nonce ad msg : List Byte) : List Byte × List Byte :=
  (ccmCrypt key nonce msg, xorBytes (ccmMac key nonce ad msg) (ccmStream key nonce 0))

/-- CCM opening: the plaintext when the MIC matches. -/
def ccmOpen (key nonce ad cipher mic : List Byte) : Option (List Byte) :=
  let m := ccmCrypt key nonce cipher
  if xorBytes (ccmMac key nonce ad m) (ccmStream key nonce 0) == mic then some m else none

/-! ### KW (SP 800-38F) -/

/-- One step of the unwrapping: the check value and the semiblocks, at step `t` for semiblock `i`. -/
def kwStep (key : List Byte) (st : List Byte × List (List Byte)) (x : Nat × Nat) : List Byte × List (List Byte) :=
  let b := aesInv key (xorBytes st.1 (beBytes 8 x.1) ++ st.2.getD x.2 [])
  (b.take 8, setAt st.2 x.2 (b.drop 8))

/-- The key inside a wrap, or none when the integrity check fails. -/
def kwUnwrap (key data : List Byte) : Option (List Byte) :=
  let n := data.length / 8 - 1
  let r := (List.range n).map (fun i => (data.drop (8 * i + 8)).take 8)
  let steps := ((List.range (6 * n)).map (fun k => (k + 1, k % n))).reverse
  let e := steps.foldl (kwStep key) (data.take 8, r)
  if e.1 == List.replicate 8 0xA6#8 then some e.2.flatten else none

/-! ### SHA-256 (FIPS 180-4) -/

/-- The round constants, entry `i` at bits 32 i and up. -/
def shaTable : Nat :=
  0xc67178f2bef9a3f7a4506ceb90befffa8cc7020884c8781478a5636f748f82ee682e6ff35b9cca4f4ed8aa4a391c0cb334b0bcb52748774c1e376c0819a4c116106aa070f40e3585d6990624d192e819c76c51a3c24b8b70a81a664ba2bfe8a192722c8581c2c92e766a0abb650a735453380d134d2c6dfc2e1b213827b70a851429296706ca6351d5a79147c6e00bf3bf597fc7b00327c8a831c66d983e515276f988da5cb0a9dc4a7484aa2de92c6f240ca1cc0fc19dc6efbe4786e49b69c1c19bf1749bdc06a780deb1fe72be5d74550c7dc3243185be12835b01d807aa98ab1c5ed5923f82a459f111f13956c25be9b5dba5b5c0fbcf71374491428a2f98

/-- The initial hash value. -/
def shaStart : List W32 := [0x6a09e667, 0xbb67ae85, 0x3c6ef372, 0xa54ff53a, 0x510e527f, 0x9b05688c, 0x1f83d9ab, 0x5be0cd19]

/-- One word of the message schedule from the words so far, newest first. -/
def shaSchedule (ws : List W32) : W32 :=
  let w (i : Nat) : W32 := ws.getD (i - 1) 0
  let s0 := (w 15).rotateRight 7 ^^^ (w 15).rotateRight 18 ^^^ (w 15 >>> 3)
  let s1 := (w 2).rotateRight 17 ^^^ (w 2).rotateRight 19 ^^^ (w 2 >>> 10)
  w 16 + s0 + w 7 + s1

/-- One round with its constant and schedule word. -/
def shaRound (h : List W32) (k w : W32) : List W32 := match h with
  | [a, b, c, d, e, f, g, x] =>
    let t1 := x + (e.rotateRight 6 ^^^ e.rotateRight 11 ^^^ e.rotateRight 25) + ((e &&& f) ^^^ (~~~e &&& g)) + k + w
    let t2 := (a.rotateRight 2 ^^^ a.rotateRight 13 ^^^ a.rotateRight 22) + ((a &&& b) ^^^ (a &&& c) ^^^ (b &&& c))
    [t1 + t2, a, b, c, d + t1, e, f, g]
  | _ => h

/-- One block of 16 words. -/
def shaBlock (h : List W32) (block : List W32) : List W32 :=
  let ws := ((List.range 48).foldl (fun l _ => shaSchedule l :: l) block.reverse).reverse
  let r := (ws.zipIdx).foldl (fun x y => shaRound x (BitVec.ofNat 32 (shaTable >>> (32 * y.2))) y.1) h
  List.zipWith (· + ·) h r

/-- A big-endian byte string as a number. -/
def ofBe (l : List Byte) : Nat := ofLe l.reverse

/-- The message with its padding. -/
def shaPad (l : List Byte) : List Byte := l ++ [0x80] ++ zeros ((119 - l.length % 64) % 64) ++ beBytes 8 (8 * l.length)

/-- The words of a message block. -/
def shaWords (l : List Byte) : List W32 := (List.range 16).map (fun i => BitVec.ofNat 32 (ofBe ((l.drop (4 * i)).take 4)))

/-- SHA-256 of a byte string. -/
def sha256 (l : List Byte) : List Byte :=
  let p := shaPad l
  ((List.range (p.length / 64)).foldl (fun h i => shaBlock h (shaWords (p.drop (64 * i)))) shaStart).flatMap (fun w => beBytes 4 w.toNat)

/-! ### ECDSA P-256 verification (FIPS 186-5) -/

/-- The field prime. -/
def curveP : Nat := 0xffffffff00000001000000000000000000000000ffffffffffffffffffffffff
/-- The group order. -/
def curveN : Nat := 0xffffffff00000000ffffffffffffffffbce6faada7179e84f3b9cac2fc632551
/-- The curve's b. -/
def curveB : Nat := 0x5ac635d8aa3a93e7b3ebbd55769886bc651d06b0cc53b0f63bce3c3e27d2604b
/-- The base point. -/
def curveG : Nat × Nat :=
  (0x6b17d1f2e12c4247f8bce6e563a440f277037d812deb33a0f4a13945d898c296,
   0x4fe342e2fe1a7f9b8ee7eb4a7c0f9e162bce33576b315ececbb6406837bf51f5)

/-- Modular power over the exponent's low `n` bits, most significant first. -/
def powMod (b e m : Nat) : Nat → Nat
  | 0 => 1
  | n + 1 =>
    let r := powMod b (e / 2) m n
    r * r % m * (if e % 2 = 1 then b else 1) % m

/-- The inverse modulo a prime of 256 bits. -/
def invMod (a m : Nat) : Nat := powMod a (m - 2) m 256

/-- Subtraction modulo the field prime. -/
def subP (a b : Nat) : Nat := (a + curveP - b % curveP) % curveP

/-- Addition of two points; none is the point at infinity. -/
def addPoint : Option (Nat × Nat) → Option (Nat × Nat) → Option (Nat × Nat)
  | none, q => q
  | p, none => p
  | some (x1, y1), some (x2, y2) =>
    if x1 = x2 && (y1 + y2) % curveP = 0 then none
    else
      let l := if x1 = x2 then subP (3 * x1 * x1) 3 * invMod (2 * y1 % curveP) curveP % curveP
        else subP y2 y1 * invMod (subP x2 x1) curveP % curveP
      let x3 := subP (subP (l * l) x1) x2
      some (x3, subP (l * subP x1 x3) y1)

/-- A multiple of a point, over the factor's low `n` bits. -/
def mulPoint (p : Option (Nat × Nat)) (k : Nat) : Nat → Option (Nat × Nat)
  | 0 => none
  | n + 1 =>
    let h := mulPoint p (k / 2) n
    let d := addPoint h h
    if k % 2 = 1 then addPoint d p else d

/-- Is a pair of coordinates a point of the curve? -/
def onCurve (x y : Nat) : Bool := x < curveP && y < curveP && y * y % curveP == subP (x * x * x + curveB) (3 * x)

/-- Does a 64-byte signature, r then s, over a message verify under a 64-byte public key, X then Y (R493)? -/
def ecdsaVerify (pub msg sig : List Byte) : Bool :=
  let x := ofBe (pub.take 32)
  let y := ofBe ((pub.drop 32).take 32)
  let r := ofBe (sig.take 32)
  let s := ofBe ((sig.drop 32).take 32)
  if !onCurve x y || r = 0 || curveN ≤ r || s = 0 || curveN ≤ s then false
  else
    let w := invMod s curveN
    let e := ofBe (sha256 msg)
    match addPoint (mulPoint (some curveG) (e * w % curveN) 256) (mulPoint (some (x, y)) (r * w % curveN) 256) with
    | some q => q.1 % curveN == r
    | none => false

end Sys2Proof.Machine
end

