-- ==== Sys2Proof/Machine/Bus.lean ====
section
/-!
DEFINITION. Bus.lean: the two-wire block as controller, BUS_XFER, attention messages, supply writes, bus recovery, and the GPIO
balls (R382, R395 to R403, R581 to R583).
-/

namespace Sys2Proof.Machine

/-! ### Transfers (R395 to R400) -/

/-- The attention address and speed in force: the shipped one is 0x12 in host configuration 0 and none in the others (R397). -/
def attention (s : State) : Option (Nat × Nat) :=
  let a := s.set.attnAddr.getD (if hostConfig s = 0 then 0x12 else 0)
  if a = 0 then none else some (a, s.set.attnSpeed)

/-- The attention message: events not yet popped, and the ring mask (R397). -/
def attnBytes (s : State) : List Byte :=
  leBytes 1 (satNat 255 (ringAt s 10).entries.length) ++ leBytes 3 (ringMask s).toNat

/-- The word of VOUT_COMMAND: round(V x 2^-N) (R396). -/
def voutWord (mv : Nat) (n : Int) : Nat :=
  if n ≤ 0 then (mv * 2 ^ n.natAbs * 2 + 1000) / 2000 else (mv * 2 + 1000 * 2 ^ n.natAbs) / (2000 * 2 ^ n.natAbs)

/-- The LINEAR16 exponent of a VOUT_MODE byte: bits 4:0, two's complement (R396). -/
def voutExponent (b : Nat) : Int := if b % 32 < 16 then (b % 32 : Nat) else ((b % 32 : Nat) : Int) - 32

/-- What a transfer puts on the bus (R396, R397, R399). -/
def sendXfer (x : Xfer) (s : State) : State := match x.kind with
  | .recovery => s
  | .supply =>
    let a := s.set.supply.addr
    match s.bus.voutExp with
    | none => emit (.busRead a 1) (emit (.busWrite a [0x20]) s)
    | some n => emit (.busWrite a ([0x21] ++ leBytes 2 (voutWord s.cal.vdd n))) s
  | .attention => match attention s with
    | some (a, _) => emit (.busWrite a (attnBytes s)) s
    | none => s
  | .user op a _ wr rd =>
    let s := if op = 1 then s else emit (.busWrite a wr) s
    if op = 0 then s else emit (.busRead a rd) s

/-- The priority of a transfer, lowest first (R395). -/
def XferKind.rank : XferKind → Nat
  | .recovery => 0 | .supply => 1 | .attention => 2 | .user _ _ _ _ _ => 3

/-- The transfer to be sent next: the highest priority, the earliest of it (R395). -/
def nextXfer (s : State) : Option Xfer :=
  s.bus.queue.foldl (fun (a : Option Xfer) x => match a with
    | none => some x
    | some y => if x.kind.rank < y.kind.rank then some x else a) none

/-- The bus is free: the next transfer starts (R395). -/
def startBus (s : State) : State :=
  if s.bus.active.isSome || s.bus.stuck then s
  else match nextXfer s with
    | some x => sendXfer x { s with bus := { s.bus with active := some x.id } }
    | none => s

/-- A transfer leaves the queue. -/
def dropXfer (id : Nat) (s : State) : State :=
  { s with bus := { s.bus with queue := s.bus.queue.filter (fun x => x.id != id)
                               active := if s.bus.active = some id then none else s.bus.active } }

/-- A transfer ends for now and stays queued: a retry, or a supply write or attention message sent again (R395, R403). -/
def requeue (id : Nat) (g : Xfer → Xfer) (s : State) : State :=
  { s with bus := { s.bus with queue := s.bus.queue.map (fun x => if x.id = id then g x else x), active := none } }

/-- The BUS_XFER response payload (R400). -/
def xferPayload (r : BusResult) : List Byte :=
  leBytes 1 r.result ++ zeros 1 ++ leBytes 2 r.acked ++ leBytes 2 r.read.length ++ zeros 2 ++ r.read

/-- A host's transfer has ended: BUS_XFER responds with OK (R400). -/
def answerXfer (id : Nat) (r : BusResult) (s : State) : State :=
  dropXfer id (release (.transfer id) (fun d => { target := d.target, clamped := d.clamped, payload := xferPayload r }) s)

/-- The bus is found stuck: recovery repeats, and every transfer a host asked for meanwhile ends with result 5
(R401, R402). -/
def busStuck (s : State) : State :=
  (s.bus.queue.filter (fun x => x.kind.rank = 3 && s.bus.active != some x.id)).foldl
    (fun t x => answerXfer x.id { result := 5 } t) { s with bus := { s.bus with stuck := true, recoveryAt := now s } }

/-- A supply write has ended (R396): the exponent is learnt once, then the target follows; the third NAK in a row stops the
lowering and is noted. -/
def supplyEnds (x : Xfer) (r : BusResult) (s : State) : State :=
  let s := { s with bus := { s.bus with supplyAt := now s } }
  if r.result = 0 then
    let first := s.bus.voutExp.isNone
    let s := { s with bus := { s.bus with
      supplyFails := 0, supplyStopped := false
      voutExp := if first then some (voutExponent ((r.read.getD 0 0).toNat)) else s.bus.voutExp } }
    let s := dropXfer x.id s
    if first then queueSupply s else s
  else if r.result = 1 || r.result = 2 then
    let s := { s with bus := { s.bus with supplyFails := s.bus.supplyFails + 1 } }
    if s.bus.supplyFails < 3 then requeue x.id (fun x => { x with queuedAt := now s }) s
    else
      let fresh := !s.bus.supplyStopped
      let s := dropXfer x.id { s with bus := { s.bus with supplyStopped := true } }
      if fresh then note 0x0202 0xFF 0 s.set.supply.addr s else s
  else requeue x.id (fun x => { x with queuedAt := now s }) s

/-- An attention message has ended (R398, R403). -/
def attentionEnds (x : Xfer) (r : BusResult) (s : State) : State :=
  if r.result = 0 then dropXfer x.id { s with bus := { s.bus with attnAcked := true, attnAt := some (now s) } }
  else if r.result = 1 || r.result = 2 then
    dropXfer x.id { s with bus := { s.bus with attnAcked := false, attnAt := some (now s) } }
  else requeue x.id (fun x => { x with queuedAt := now s }) s

/-- A transfer ends with a result; a lost arbitration is retried first (R400, R403). -/
def xferEnds (x : Xfer) (r : BusResult) (s : State) : State :=
  let s := if r.result = 5 then busStuck s else s
  match x.kind with
  | .recovery => dropXfer x.id s
  | .supply => supplyEnds x r s
  | .attention => attentionEnds x r s
  | .user _ _ _ _ rd =>
    if (r.result = 3 && x.retries < 3) || (r.result = 4 && x.retries < 1) then
      requeue x.id (fun x => { x with retries := x.retries + 1 }) s
    else answerXfer x.id { r with read := r.read.take rd } s

/-- CONTROLLER_TRANSFER_END: the transfer in progress ends (R400, R403). -/
def execControllerTransferEnd (r : BusResult) (s : State) : Host.Outcome State Fault Refusal :=
  within s (r.result < 7) (match s.bus.active.bind (fun id => s.bus.queue.find? (fun x => x.id = id)) with
    | some x => xferEnds x r s
    | none => s)

/-- BUS_FREE: the highest-priority transfer starts (R395). -/
def execBusFree (s : State) : Host.Outcome State Fault Refusal := .next (startBus s)

/-- BUS_NOT_FREE_TIMEOUT: the transfer that has waited longest could not start within 100 ms: a host's ends with result 6,
the device's own are queued again (R395). -/
def execBusNotFreeTimeout (s : State) : Host.Outcome State Fault Refusal :=
  .next (
    let waiting := s.bus.queue.filter (fun x => s.bus.active != some x.id)
    match waiting with
    | [] => s
    | x :: l =>
      let x := l.foldl (fun a b => if b.queuedAt < a.queuedAt then b else a) x
      let s := passTo (x.queuedAt + ms 100) s
      match x.kind with
      | .user _ _ _ _ _ => answerXfer x.id { result := 6 } s
      | _ => { s with bus := { s.bus with queue := s.bus.queue.map (fun y => if y.id = x.id then { y with queuedAt := now s } else y) } })

/-! ### BUS_XFER (R399, R400) -/

/-- The device's own two-wire address (R81, R386). -/
def ownAddress (s : State) : Nat := 0x2C + s.pwr.strapCode % 4

/-- The checks of BUS_XFER (R399). -/
def busXferChecks (f : CmdFrame) (s : State) : Checks :=
  let p := f.payload
  let op := satNat 3 (field p 0 1)
  let n := field p 4 2
  let lenOk : Bool := 8 ≤ p.length && p.length == 8 + n && n ≤ 256 && (op != 3 || n == 0 || n == 4)
  { lenOk := lenOk, modes := modesAll
    denied := [failIf (op != 3 && clampNat 0x08 0x77 (field p 1 1) == ownAddress s) 5 2 1] }

/-- BUS_XFER: operation 3 sets the attention message's address; the others queue a transfer, which ends at once with result 5
while the bus is stuck (R399, R400, R402). -/
def busXferBody (f : CmdFrame) (s : State) : State × Option Reply :=
  let p := f.payload
  let op := satNat 3 (field p 0 1)
  let a := clampNat 0x08 0x77 (field p 1 1)
  let sp := satNat 2 (field p 2 1)
  let rd := if op = 0 || op = 3 then 0 else satNat 256 (field p 6 2)
  let clamped := 3 < field p 0 1 || (op != 3 && a != field p 1 1) || (op != 3 && 2 < field p 2 1) || rd != field p 6 2
  if op = 3 then
    let na := if field p 8 1 = 0 then 0 else clampNat 0x08 0x77 (field p 8 1)
    let ns := satNat 2 (field p 9 1)
    let set := field p 4 2 = 4
    let s := if set then setSettings { s.set with attnAddr := some na, attnSpeed := ns } s else s
    let x := (attention s).getD (0, s.set.attnSpeed)
    (s, some { target := f.target, clamped := clamped || (set && (na != field p 8 1 || ns != field p 9 1))
               payload := xferPayload { read := leBytes 1 x.1 ++ leBytes 1 x.2 ++ zeros 2 } })
  else if s.bus.stuck then (s, some { target := f.target, clamped := clamped, payload := xferPayload { result := 5 } })
  else
    let id := s.bus.next
    (deferOn (.transfer id) { deferredOf 0x0F00 f false with clamped := clamped }
      (queueXfer (.user op a sp (p.drop 8) rd) s), none)

/-- BUS_XFER (R399, R400). -/
def execBusXfer (f : CmdFrame) (s : State) : Host.Outcome State Fault Refusal :=
  .next (command 0x0F00 f (busXferChecks f) (busXferBody f) s)

/-! ### Attention messages (R397, R398) -/

/-- Send an attention message when the bus allows. -/
def sendAttention (s : State) : State :=
  if (attention s).isNone then s
  else
    let waits := s.bus.queue.any (fun x => x.kind == .attention && s.bus.active != some x.id)
    startBus (if waits then s else queueXfer .attention s)

/-- ATTENTION_MESSAGE: a bit of the ring mask has risen (R398). -/
def execAttentionMessage (s : State) : Host.Outcome State Fault Refusal :=
  .next (
    let m := ringMask s
    let rose := (m &&& ~~~s.bus.attnMask) != 0
    let s := { s with bus := { s.bus with attnMask := m } }
    if rose then sendAttention s else s)

/-- ATTENTION_RETRY: a NAKed message is sent again after 1 ms, until it is acknowledged or the mask is 0 (R398). -/
def execAttentionRetry (s : State) : Host.Outcome State Fault Refusal :=
  .next (match s.bus.attnAt with
    | some t => if !s.bus.attnAcked && ringMask s != 0 then sendAttention (passTo (t + ms 1) s) else s
    | none => s)

/-- ATTENTION_REPEAT: an acknowledged message is repeated every 100 ms while the mask is not 0 (R398). -/
def execAttentionRepeat (s : State) : Host.Outcome State Fault Refusal :=
  .next (match s.bus.attnAt with
    | some t => if s.bus.attnAcked && ringMask s != 0 then sendAttention (passTo (t + ms 100) s) else s
    | none => s)

/-! ### Supply writes and recovery (R396, R401, R402) -/

/-- SUPPLY_WRITE: the waiting supply write is sent and ends with a result (R396). -/
def execSupplyWrite (r : BusResult) (s : State) : Host.Outcome State Fault Refusal :=
  within s (r.result < 7) (match s.bus.queue.find? (fun x => x.kind == .supply) with
    | some x =>
      if s.bus.active = some x.id then xferEnds x r s
      else if s.bus.active.isSome || s.bus.stuck then s
      else xferEnds x r (sendXfer x { s with bus := { s.bus with active := some x.id } })
    | none => s)

/-- SUPPLY_WRITE_RETRY: after three NAKs the next write is tried every 1 s (R396). -/
def execSupplyWriteRetry (s : State) : Host.Outcome State Fault Refusal :=
  .next (if s.bus.supplyStopped then queueSupply (passTo (s.bus.supplyAt + ticksPerSecond) s) else s)

/-- BUS_RECOVERY_REPEAT: recovery is repeated every 1 s; SDA is released after at most nine pulses, or stays low (R401, R402). -/
def execBusRecoveryRepeat (pulses : Nat) (s : State) : Host.Outcome State Fault Refusal :=
  .next (
    if s.bus.stuck then
      let s := passTo (s.bus.recoveryAt + ticksPerSecond) s
      let still := 9 < pulses
      emit (.recovery (min 9 pulses) still) { s with bus := { s.bus with stuck := still, recoveryAt := now s } }
    else s)

/-! ### GPIO (R382, R573, R581 to R583) -/

/-- A ball's configuration as a GPIO_CONFIG payload gives it. -/
def readGpio (p : List Byte) : Nat × GpioConfig :=
  (satNat 23 (field p 0 1), { func := satNat 2 (field p 1 1), level := satNat 1 (field p 2 1), pull := satNat 2 (field p 3 1) })

/-- Does the host word clock lack its ball: it is the APLL's source and GPIO5 is not at its alternate function (R365, R583)? -/
def wordClockAbsent (s : State) : Bool := s.set.time.apll = 1 && (s.set.gpio.getD 5 {}).func ≠ 2

/-- The checks of GPIO_CONFIG. -/
def gpioConfigChecks (f : CmdFrame) (_ : State) : Checks :=
  { lenOk := f.payload.length = 4, modes := [.idle, .survey, .serve, .sentry, .test] }

/-- Was a field of GPIO_CONFIG clamped (R330, R581)? -/
def gpioClamped (f : CmdFrame) : Bool :=
  23 < field f.payload 0 1 || 2 < field f.payload 1 1 || 1 < field f.payload 2 1 || 2 < field f.payload 3 1

/-- GPIO4 that controls the front end keeps its function until the frame on air has ended (R581). -/
def gpioWaits (s : State) (f : CmdFrame) : Bool :=
  (readGpio f.payload).1 = 4 && s.link.air.isSome && (s.set.gpio.getD 4 {}).func = 2 && (readGpio f.payload).2.func ≠ 2

/-- The effect and the reply of GPIO_CONFIG. -/
def gpioConfigBody (f : CmdFrame) (s : State) : State × Option Reply :=
  let x := readGpio f.payload
  let clamped := gpioClamped f
  let wait := gpioWaits s f
  let before := wordClockAbsent s
  let s := if wait then { s with link := { s.link with gpio4 := some x.2 } }
    else
      let s := setSettings { s.set with gpio := setAt s.set.gpio x.1 x.2 } s
      if x.1 = 4 then { s with link := { s.link with gpio4 := none } } else s
  let s := if !before && wordClockAbsent s then noteBy 0x0108 0xFF 0 0 f.tag s else s
  (s, some { target := f.target, clamped := clamped })

/-- GPIO_CONFIG: GPIO4 leaves its alternate function only when the frame on air ends (R382, R583). -/
def execGpioConfig (f : CmdFrame) (s : State) : Host.Outcome State Fault Refusal :=
  .next (command 0x0F01 f (gpioConfigChecks f) (gpioConfigBody f) s)

/-- Is the emulation's interrupt asserted (R557)? -/
def omnIrq (s : State) : Bool := s.set.mode == .compat && (s.compat.irq &&& s.set.compat.irqEnable) != 0

/-- The level a ball drives, or none where it is an input or a released open-drain output (R581, R582). -/
def drivenLevel (s : State) (i : Nat) : Option Bool :=
  let g := s.set.gpio.getD i {}
  if i = 6 && (hostConfig s = 3 || g.func = 2) then (if omnIrq s then some false else none)
  else if g.func = 1 then some (g.level = 1)
  else if g.func ≠ 2 then none
  else if i < 4 then
    let e := s.set.lna.getD i {}
    let active := e.port < 6 && !(s.front.bypassed.getD i false) && !(tunersOnPort s e.port).isEmpty
    some (active != (e.polarity = 1))
  else if i = 4 then
    let fe := s.set.link.frontEnd
    let active := fe.testBit 0 && s.link.air.isSome
    some (active != fe.testBit 1)
  else none

/-- The checks of GET_GPIO. -/
def getGpioChecks (f : CmdFrame) (_ : State) : Checks :=
  { lenOk := f.payload.length = 0, modes := modesAll }

/-- The payload of GET_GPIO: the levels, a free value for a ball that nothing drives, and the 24 entries (R382). -/
def gpioBytes (s : State) : List Byte :=
  let levels := ((List.range 24).map (fun i =>
    if (drivenLevel s i).getD (Config.freeBool (s.fresh + i)) then 2 ^ i else 0)).sum
  let cfg (i : Nat) : GpioConfig := if i = 4 then s.link.gpio4.getD (s.set.gpio.getD 4 {}) else s.set.gpio.getD i {}
  leBytes 4 levels ++ (List.range 24).flatMap (fun i =>
    let g := cfg i
    leBytes 1 i ++ leBytes 1 g.func ++ leBytes 1 g.level ++ leBytes 1 g.pull)

/-- The effect and the reply of GET_GPIO. -/
def getGpioBody (f : CmdFrame) (s : State) : State × Option Reply :=
  ({ s with fresh := s.fresh + 24 }, replyWith f (gpioBytes s))

/-- GET_GPIO: the pin levels and the configurations; the level of a ball that the device does not drive is the outside's (R382). -/
def execGetGpio (f : CmdFrame) (s : State) : Host.Outcome State Fault Refusal :=
  .next (command 0x0F02 f (getGpioChecks f) (getGpioBody f) s)

end Sys2Proof.Machine
end

