-- ==== Sys2Proof/Machine/Cal.lean ====
section
/-!
DEFINITION. Cal.lean: Jig's calibrations, Grain's assessments and the adaptive supply (chapter 18, R380, R381).
-/

namespace Sys2Proof.Machine

/-! ### Triggers (R511 to R513) -/

/-- The temperature step in force, in degrees (R511). -/
def deltaT (s : State) : Nat := min s.set.calStep s.cal.record.dtLimit

/-- Is a converter in an element selection run (R518)? -/
def elementRun (x : AdcCal) : Bool := x.stats || x.deferred || x.interrupted

/-- Ask for an element selection: one that is pending or running is merged; one that waits for its retry is replaced by a
CAL_RUN (R513, R514). -/
def triggerElement (asked : Bool) (t : Nat) (x : AdcCal) : AdcCal :=
  if elementRun x || (x.pending && !(x.retry && asked)) then { x with asked := x.asked || asked }
  else { x with pending := true, pendingAt := t, retry := false, asked := asked
                notedAt := if asked then x.notedAt else x.notedAt.filter (fun n => n.1 != 0) }

/-- Ask for an IQ run of a tuner (R513). -/
def triggerIq (asked : Bool) (x : AdcCal) : AdcCal := match x.iqTriggered with
  | some a => { x with iqTriggered := some (a || asked) }
  | none => { x with iqTriggered := some asked, notedAt := if asked then x.notedAt else x.notedAt.filter (fun n => n.1 != 1) }

/-- Ask for an alignment run (R513). -/
def triggerAlign (asked : Bool) (x : AdcCal) : AdcCal := match x.aligning with
  | some a => { x with aligning := some (a || asked) }
  | none => { x with aligning := some asked, notedAt := if asked then x.notedAt else x.notedAt.filter (fun n => n.1 != 2) }

/-- A temperature or power-up trigger of a converter (R511 to R513). -/
def triggerAdc (a : Nat) (s : State) : State :=
  modAdc a (fun x => triggerAlign false (let y := triggerElement false (now s) x
    if a < 4 then triggerIq false y else y)) s

/-- After either kind of reset every converter carries a power-up trigger (R512). -/
def powerUpTriggers (s : State) : State := ([0, 1, 2, 3, 4] : List Nat).foldl (fun t a => triggerAdc a t) s

/-- One converter's reading in 1/16 degree against its reference (R511). A trigger whose run waits for a retry changes nothing. -/
def compareTemperature (t : State) (x : Int × Nat) : State :=
  let t := modAdc x.2 (fun c => { c with temp := x.1 }) t
  let c := adcAt t x.2
  if 16 * (deltaT t) < (x.1 - c.reference).natAbs && !c.retry && !c.pending && !elementRun c then triggerAdc x.2 t else t

/-- The readings of the converters' islands among those of the 17 islands: I13 to I16 of T0 to T3, I12 of the HF input (R511). -/
def adcTemps (temps : List Int) : List Int := [13, 14, 15, 16, 12].map (fun i => temps.getD i 0)

/-- The hottest island sensor and its island, the lowest one on a tie (R302). -/
def hottest (temps : List Int) : Int × Nat :=
  temps.zipIdx.foldl (fun a x => if a.1 < x.1 then x else a) (temps.headD 0, 0)

/-- TEMPERATURE_COMPARISON: the readings of the island sensors in 1/16 degree. TEMP shows the hottest, and those of the converters'
islands are compared with the references (R302, R511, log 159). -/
def execTemperatureComparison (temps : List Int) (s : State) : Host.Outcome State Fault Refusal :=
  within s (temps.length = 17) ((adcTemps temps).zipIdx.foldl compareTemperature
    { s with port := { s.port with junction := (hottest temps).1, hotIsland := (hottest temps).2 } })

/-! ### Element selection (R514 to R520) -/

/-- Is a converter's window up and accepting samples? -/
def adcOpen (s : State) (a : Nat) : Bool := match adcWindow s a with
  | some (w, _) => (windowAt s w).state == .open
  | none => false

/-- May another run begin its statistics: no converter is in its own, or deferred (R518)? -/
def statsFree (s : State) : Bool := ([0, 1, 2, 3, 4] : List Nat).all (fun a => !(adcAt s a).stats && !(adcAt s a).deferred)

/-- Begin a run's statistics. -/
def beginStats (a : Nat) (s : State) : State :=
  modAdc a (fun x => { x with pending := false, retry := false, stats := true, phaseAt := now s, choice := none }) s

/-- Is a converter the next of the pending runs that can start (R518)? -/
def firstPending (s : State) (a : Nat) : Bool :=
  let ready (b : Nat) : Bool := (adcAt s b).pending && !(adcAt s b).retry && adcOpen s b && !elementRun (adcAt s b)
  ready a && ([0, 1, 2, 3, 4] : List Nat).all (fun b => !ready b || b = a || (adcAt s a).pendingAt < (adcAt s b).pendingAt ||
    ((adcAt s a).pendingAt = (adcAt s b).pendingAt && a < b))

/-- PENDING_RUN_START: the next pending run starts its statistics (R513, R518, R545). -/
def execPendingRunStart (a : Nat) (s : State) : Host.Outcome State Fault Refusal :=
  within s (a < 5) (if statsFree s && firstPending s a && !s.head.restarting then beginStats a s else s)

/-- CAL_RETRY: 60 s after an unqualified run its statistics are collected again (R514). -/
def execCalRetry (a : Nat) (s : State) : Host.Outcome State Fault Refusal :=
  within s (a < 5) (
    let x := adcAt s a
    if x.pending && x.retry && !s.head.restarting then
      let s := passTo (x.retryAt + 60 * ticksPerSecond) s
      if statsFree s && adcOpen s a then beginStats a s
      else modAdc a (fun x => { x with retry := false, pendingAt := now s }) s
    else s)

/-- Post CAL_UNQUALIFIED as R516 allows: for every failed run of a CAL_RUN, for the first after an automatic trigger, then at
most once an hour. -/
def noteUnqualified (a kind qual : Nat) (v : Int) (asked : Bool) (s : State) : State :=
  let last := ((adcAt s a).notedAt.find? (fun n => n.1 = kind)).map (·.2)
  let due : Bool := asked || (match last with
    | some t => t + 3600 * ticksPerSecond ≤ now s
    | none => true)
  if due then
    let cause := if asked then waiterTag .calRun s else none
    let s := post 0x8B00 {} (leBytes 1 kind ++ leBytes 1 a ++ leBytes 1 qual ++ zeros 1 ++ leInt 4 v) cause s
    modAdc a (fun x => { x with notedAt := (kind, now s) :: x.notedAt.filter (fun n => n.1 != kind) }) s
  else s

/-- The result of a run that a CAL_RUN asked for; the CAL_RUN is answered with its last (R524). -/
def endAsked (a kind res : Nat) (asked : Bool) (s : State) : State := if asked then calRunEnds (runResult a kind res s) else s

/-- The pairs of elements that can be left unused: 16 of the 18 are in use. -/
def sparePairs : List (Nat × Nat) :=
  (List.range 18).flatMap (fun i => ((List.range 18).filter (i < ·)).map (fun j => (i, j)))

/-- How far the errors of the elements in use are from cancelling when a pair is left unused. -/
def residualError (m : List Int) (p : Nat × Nat) : Nat := (m.sum - m.getD p.1 0 - m.getD p.2 0).natAbs

/-- The pairs whose 16 elements in use cancel best (R517). -/
def bestSpares (m : List Int) : List (Nat × Nat) :=
  let least := (sparePairs.map (residualError m)).foldl min (residualError m (0, 1))
  sparePairs.filter (fun p => residualError m p = least)

/-- The pair chosen; between pairs that cancel equally well the choice is free (R517; log 141). -/
def chooseSpares (m : List Int) (s : State) : (Nat × Nat) × State :=
  let l := bestSpares m
  if l.length ≤ 1 then (l.getD 0 (16, 17), s)
  else
    let r := drawNat s
    (l.getD (r.1 % l.length) (16, 17), r.2)

/-- The choice that a qualified run computes: I and Q alike on a tuner, one converter on HF (R517). -/
def computeChoice (a : Nat) (m : ElemStats) (s : State) : ElemChoice × State :=
  let i := chooseSpares (m.mismatchI.take 18) s
  if a = 4 then ({ spareI := i.1, mismatchI := m.mismatchI.take 18 }, i.2)
  else
    let q := chooseSpares (m.mismatchQ.take 18) i.2
    ({ spareI := i.1, spareQ := q.1, mismatchI := m.mismatchI.take 18, mismatchQ := m.mismatchQ.take 18 }, q.2)

/-- ELEMENT_STATISTICS_DONE: 200 ms of code density are collected. A run without enough of it in five times that ends without a result; one below
40 % activity is unqualified; a qualified one interrupts the converter, deferred while a fade needs its chains (R515 to
R520). -/
def execElementStatisticsDone (a : Nat) (m : ElemStats) (s : State) : Host.Outcome State Fault Refusal :=
  within s (a < 5) (
    let x := adcAt s a
    if !x.stats then s
    else
      let s := passTo (x.phaseAt + ms (if m.gathered then 200 else 1000)) s
      if !m.gathered then
        let s := modAdc a (fun x => { x with stats := false, pending := true, retry := true, retryAt := now s, asked := false }) s
        let r := drawNat s
        rerunOpens (endAsked a 0 (r.1 % 256) x.asked (if x.asked then r.2 else s))
      else if m.activity < 400 then
        let s := modAdc a (fun x => { x with
          stats := false, pending := true, retry := true, retryAt := now s, elemResult := 1, activity := m.activity
          unqualified := x.unqualified + 1, elemBad := true, asked := false }) s
        rerunOpens (endAsked a 0 1 x.asked (noteUnqualified a 0 3 m.activity x.asked s))
      else
        let k := computeChoice a m s
        let s := modAdc a (fun x => { x with stats := false, activity := m.activity, elemBad := false, choice := some k.1 }) k.2
        if adcFeedsFade s a then modAdc a (fun x => { x with deferred := true, phaseAt := now s }) s
        else beginInterruption a s)

/-- FADE_DEFER_EXPIRY: after 2 s a deferred interruption runs (R520). -/
def execFadeDeferExpiry (a : Nat) (s : State) : Host.Outcome State Fault Refusal :=
  within s (a < 5) (
    let x := adcAt s a
    if x.deferred then beginInterruption a (passTo (x.phaseAt + 2 * ticksPerSecond) s) else s)

/-- Change the calibration record's values of one converter. -/
def modRecordAdc (a : Nat) (g : CalAdc → CalAdc) (s : State) : State :=
  { s with cal := { s.cal with record := { s.cal.record with adcs := modAt s.cal.record.adcs a g } } }

/-- The calibration record is to be written (R509). -/
def calChanged (s : State) : State := { s with store := { s.store with calDirty := true } }

/-- What waited for an interruption: a retune or a close of the window (R123, R520). -/
def afterInterruption (w : Nat) (s : State) : State :=
  if interrupted s w then s
  else if (windowAt s w).closeAfter then
    let cause := waiterTag (.closing w) s
    release (.closing w) plainReply (beginClose w cause s)
  else startWaitingRetune w s

/-- ELEMENT_INTERRUPTION_END: the new choice takes effect, the window's chains restart, the reference takes the temperature, and
what waited proceeds (R514, R517, R519, R520, R123). -/
def execElementInterruptionEnd (a : Nat) (s : State) : Host.Outcome State Fault Refusal :=
  within s (a < 5) (
    let x := adcAt s a
    if !x.interrupted then s
    else
      let s := passTo (x.phaseAt + (if a = 4 then 294912 else 442368)) s
      let c := x.choice.getD {}
      let s := calChanged (modRecordAdc a (fun r => { r with
        spareI := c.spareI, spareQ := c.spareQ, mismatchI := c.mismatchI, mismatchQ := c.mismatchQ }) s)
      let s := modAdc a (fun x => { x with
        interrupted := false, choice := none, elemResult := 0, applied := x.applied + 1, reference := x.temp
        lastRun := second s % 4294967296, asked := false }) s
      let s := endAsked a 0 0 x.asked s
      match adcWindow s a with
      | some (w, _) => rerunOpens (afterInterruption w (judgeWindow none w s))
      | none => rerunOpens s)

/-! ### IQ correction (R515, R521, R522) -/

/-- Steps of 1 ms that a ramp has made, at most 100 (R521). -/
def rampSteps (s : State) (x : AdcCal) : Nat := if x.ramp then min 100 ((now s - x.rampAt) / ms 1) else 0

/-- The correction reached: gain and phase. -/
def iqNow (s : State) (x : AdcCal) : Int × Int :=
  let n : Int := rampSteps s x
  (x.gain + roundDiv ((x.gainTo - x.gain) * n) 100, x.phase + roundDiv ((x.phaseTo - x.phase) * n) 100)

/-- The taps of the delay-mismatch filter reached (R521). -/
def tapsNow (s : State) (x : AdcCal) : List Int :=
  let n : Int := rampSteps s x
  (List.range 7).map (fun (k : Nat) => x.taps.getD k 0 + roundDiv ((x.tapsTo.getD k 0 - x.taps.getD k 0) * n) 100)

/-- In-window power at a converter, referred to the input of an external amplifier (R133, R515). -/
def powerAt (s : State) (a : Nat) (p : Int) : Int := match adcWindow s a with
  | some (w, partner) =>
    let x := windowAt s w
    referPower s (if w = 4 then 6 else if partner then (x.partner.map (·.2)).getD x.port else x.port) p
  | none => p

/-- The first qualifier that an IQ estimate fails, with its measured value (R515). -/
def iqFails (power : Int) (m : IqEst) : Option (Nat × Int) :=
  if power < -750 then some (0, power)
  else if 800 < m.strongest then some (1, (m.strongest : Int))
  else if m.signals < 3 then some (2, (m.signals : Int))
  else none

/-- IQ_ESTIMATE: 40 ms of data give a target that the correction approaches over 100 ms; a failed qualifier of a triggered run is
reported (R513, R515, R516, R521, R522). -/
def execIqEstimate (a : Nat) (m : IqEst) (s : State) : Host.Outcome State Fault Refusal :=
  within s (a < 4) (
    if !m.gathered || !adcOpen s a || s.head.restarting then s
    else
      let x := adcAt s a
      match iqFails (powerAt s a m.powerTenthDbm) m with
      | some (q, v) => match x.iqTriggered with
        | some asked =>
          let s := modAdc a (fun x => { x with iqBad := true, iqTriggered := none, unqualified := x.unqualified + 1 }) s
          endAsked a 1 1 asked (noteUnqualified a 1 q v asked s)
        | none => s
      | none =>
        let cur := iqNow s x
        let s := modAdc a (fun x => { x with
          gain := cur.1, phase := cur.2, gainTo := m.gain, phaseTo := m.phase, ramp := true, rampAt := now s
          taps := tapsNow s x, tapsTo := m.taps.take 7
          iqBad := if x.iqTriggered.isSome then false else x.iqBad }) s
        match adcWindow s a with
        | some (w, false) => modWindow w (fun y => { y with image := m.image }) s
        | _ => s)

/-- A finished ramp updates the table point nearest the LO; a change of more than 1 dB of image rejection is to be stored (R509,
R510; log 23). -/
def storePoint (a : Nat) (s : State) : State := match adcWindow s a with
  | some (w, partner) =>
    let x := windowAt s w
    let direct := s.set.mode == .compat
    let port := if partner then (x.partner.map (·.2)).getD x.port else x.port
    let pl := iqPlace direct port x.lo
    let n := if 2 * pl.2.1 ≤ pl.2.2 then pl.1 else pl.1 + 1
    let key := port + (if direct then 8 else 0)
    let old := iqPoint s a key n
    let c := adcAt s a
    let p : IqPoint := { tuner := a, port := key, point := n, gain := c.gain, phase := c.phase, taps := c.taps
                         image := if partner then old.image else x.image }
    let s := { s with cal := { s.cal with record := { s.cal.record with
      iq := p :: s.cal.record.iq.filter (fun q => !(q.tuner = a && q.port = key && q.point = n)) } } }
    if 10 < apart old.image p.image then calChanged s else s
  | none => s

/-- IQ_RAMP_END: the correction reaches its target and a triggered run ends (R521, R524). -/
def execIqRampEnd (a : Nat) (s : State) : Host.Outcome State Fault Refusal :=
  within s (a < 4) (
    let x := adcAt s a
    if !x.ramp then s
    else
      let s := passTo (x.rampAt + ms 100) s
      let s := modAdc a (fun x => { x with gain := x.gainTo, phase := x.phaseTo, taps := x.tapsTo, ramp := false, iqTriggered := none }) s
      endAsked a 1 0 (x.iqTriggered = some true) (storePoint a s))

/-! ### Alignment lines (R523) -/

/-- The alignment value that the copy of the record in use holds. -/
def storedAlign (s : State) (a : Nat) : Int :=
  match (if s.store.cal.useB then s.store.cal.b else s.store.cal.a).content with
  | .calibration c => (c.adcs.getD a {}).align
  | _ => 0

/-- ALIGNMENT_STEP: the line moves 1/256 tick towards its new setting, at most once a millisecond; at the setting the run ends. On a
ganged pair the refinement counts only with qualifier 0 on both tuners (R509, R515, R523). -/
def execAlignmentStep (a : Nat) (m : AlignMeas) (s : State) : Host.Outcome State Fault Refusal :=
  within s (a < 5) (
    let x := adcAt s a
    match x.aligning with
    | none => s
    | some asked =>
      if s.clk.sPll != .locked then s
      else
        let ganged : Bool := match adcWindow s a with
          | some (w, _) => (windowAt s w).partner.isSome
          | none => false
        let power := powerAt s a m.powerTenthDbm
        let ok := !ganged || -750 ≤ power
        let dest := clampInt (-256) 256 (if ganged && ok then m.refined else m.target)
        let v := (s.cal.record.adcs.getD a {}).align
        if v = dest then
          let s := modAdc a (fun x => { x with aligning := none }) s
          let s := if ok then s else noteUnqualified a 2 0 power asked s
          let s := if 4 < (storedAlign s a - v).natAbs then calChanged s else s
          endAsked a 2 (if ok then 0 else 1) asked s
        else
          let s := passTo (x.alignAt + ms 1) s
          modAdc a (fun x => { x with alignAt := now s })
            (modRecordAdc a (fun r => { r with align := if v < dest then v + 1 else v - 1 }) s))

/-! ### CAL_RUN, CAL_CONFIG, GET_CAL (R380, R381, R524, R525) -/

/-- The targets of a CAL_RUN, in ascending order: one converter, or those of every open window (R380, R524). -/
def calTargets (s : State) (p : List Byte) : List Nat :=
  if field p 1 1 = 0xFF then ([0, 1, 2, 3, 4] : List Nat).filter (fun a => match adcWindow s a with
    | some (w, _) => windowOpen s w
    | none => false)
  else [satNat 4 (field p 1 1)]

/-- The runs of a CAL_RUN: a kind that does not apply is no run; a closed window's runs are skipped (R380, R524). -/
def calRuns (s : State) (p : List Byte) : List CalRun :=
  (calTargets s p).flatMap (fun a =>
    ([0, 1, 2] : List Nat).filterMap (fun k =>
      if (field p 0 1).testBit k && !(k = 1 && a = 4) then
        some { adc := a, kind := k, asked := true
               result := match adcWindow s a with
                 | some (w, _) => if windowOpen s w then none else some 2
                 | none => some 2 }
      else none))

/-- Trigger one run of a CAL_RUN (R512). -/
def startRun (r : CalRun) (s : State) : State :=
  if r.result.isSome then s
  else modAdc r.adc (fun x => if r.kind = 0 then triggerElement true (now s) x
    else if r.kind = 1 then triggerIq true x else triggerAlign true x) s

/-- The checks of CAL_RUN. -/
def calRunChecks (f : CmdFrame) (s : State) : Checks :=
  { lenOk := f.payload.length = 4, modes := [.survey, .serve, .sentry, .test]
    busy := [failIf (s.head.deferred.any (fun x => x.key == .calRun)) 1 1 0xFFFF]
    clamps := 4 < field f.payload 1 1 && field f.payload 1 1 != 0xFF }

/-- The effect and the reply of CAL_RUN. -/
def calRunBody (f : CmdFrame) (s : State) : State × Option Reply :=
  let rs := calRuns s f.payload
  let d := { deferredOf 0x0B00 f false with clamped := 4 < field f.payload 1 1 && field f.payload 1 1 != 0xFF }
  let s := deferOn .calRun d { s with cal := { s.cal with runs := rs } }
  (calRunEnds (rs.foldl (fun t r => startRun r t) s), none)

/-- CAL_RUN: answered when its last run has ended; BUSY while another is outstanding (R380, R524). -/
def execCalRun (f : CmdFrame) (s : State) : Host.Outcome State Fault Refusal :=
  .next (command 0x0B00 f (calRunChecks f) (calRunBody f) s)

/-- The checks of CAL_CONFIG. -/
def calConfigChecks (f : CmdFrame) (_ : State) : Checks :=
  { lenOk := f.payload.length = 4, modes := modesIYSE }

/-- The effect and the reply of CAL_CONFIG. -/
def calConfigBody (f : CmdFrame) (s : State) : State × Option Reply :=
  let v := field f.payload 0 1
  (setSettings { s.set with calStep := clampNat 2 20 v } s,
    some { target := f.target, clamped := clampNat 2 20 v != v })

/-- CAL_CONFIG (R381). -/
def execCalConfig (f : CmdFrame) (s : State) : Host.Outcome State Fault Refusal :=
  .next (command 0x0B01 f (calConfigChecks f) (calConfigBody f) s)

/-- One ADC entry of GET_CAL (R525). -/
def adcEntry (s : State) (a : Nat) : List Byte :=
  let x := adcAt s a
  let r := s.cal.record.adcs.getD a {}
  let win := adcWindow s a
  let open' : Bool := match win with
    | some (w, _) => windowOpen s w
    | none => false
  let q := iqNow s x
  let im := if a = 4 then 0 else match win with
    | some (w, _) => (windowAt s w).image
    | none => 0
  leBytes 1 (open'.toNat + 2 * x.pending.toNat + 4 * x.ramp.toNat + 8 * x.elemBad.toNat + 16 * x.iqBad.toNat +
    32 * x.deferred.toNat) ++ leBytes 1 x.elemResult ++ leInt 2 x.reference ++ leInt 2 x.temp ++
  leBytes 1 r.spareI.1 ++ leBytes 1 r.spareI.2 ++
  (if a = 4 then [0xFF, 0xFF] else leBytes 1 r.spareQ.1 ++ leBytes 1 r.spareQ.2) ++ zeros 2 ++ leBytes 4 x.lastRun ++
  leBytes 2 im ++ leInt 2 (if a = 4 then 0 else q.1) ++ leInt 2 (if a = 4 then 0 else q.2) ++ leInt 2 r.align ++
  leBytes 2 x.activity ++ leBytes 2 x.unqualified.toNat ++ leBytes 2 x.applied.toNat ++ zeros 2

/-- The checks of GET_CAL. -/
def getCalChecks (f : CmdFrame) (_ : State) : Checks :=
  { lenOk := f.payload.length = 0, modes := modesAll }

/-- The effect and the reply of GET_CAL. -/
def getCalBody (f : CmdFrame) (s : State) : State × Option Reply :=
  let adcs : List Nat := [0, 1, 2, 3, 4]
  let pend := (adcs.map (fun a => if (adcAt s a).pending then 2 ^ a else 0)).sum
  let run := (adcs.find? (fun a => elementRun (adcAt s a))).getD 0xFF
  (s, replyWith f (leBytes 1 s.set.calStep ++ leBytes 1 (deltaT s) ++ leBytes 1 pend ++ leBytes 1 run ++
    leBytes 1 s.cal.fromFuses.toNat ++ zeros 3 ++ leBytes 4 s.cal.writes.toNat ++ zeros 4 ++ adcs.flatMap (adcEntry s)))

/-- GET_CAL (R525). -/
def execGetCal (f : CmdFrame) (s : State) : Host.Outcome State Fault Refusal :=
  .next (command 0x0B02 f (getCalChecks f) (getCalBody f) s)

/-! ### Grain (R526 to R529, R531) -/

/-- The AVS floor in force, never below SUPPLY_CONFIG's (R527). -/
def avsFloor (s : State) : Nat := max s.cal.record.avsFloor s.set.supply.floor

/-- The ceiling in force: with a fixed supply the rail itself counts as it (R530, R531). -/
def ceiling (s : State) : Nat := if s.set.supply.output = 1 then s.set.supply.ceiling else s.cal.vdd

/-- The worst island and its value: the smallest margin, the lowest island on a tie. -/
def worstMargin (l : List Int) : Nat × Int :=
  (l.zipIdx).foldl (fun a x => if x.1 < a.2 then (x.2, x.1) else a) (0, l.getD 0 0)

/-- The row of the ageing plan: AVS floor in mV and step limit in degrees (R527). -/
def ageingRow (worst : Nat) : Nat × Nat :=
  if worst < 300 then (650, 20) else if worst < 600 then (700, 12) else if worst < 900 then (750, 8) else (800, 4)

/-- The two margins of the loop are kept up to date (R526). -/
def setMargins (l : List Int) (s : State) : State := { s with cal := { s.cal with margins := l } }

/-- VDD_CORE is set to a new target (R396, R526). -/
def setVdd (mv : Nat) (s : State) : State :=
  if mv = s.cal.vdd then s else queueSupply { s with cal := { s.cal with vdd := mv } }

/-- Has Gokixel control of the supply: output 1, and a command has been accepted (R83, R531)? -/
def suppliesCore (s : State) : Bool := s.set.supply.output = 1 && s.bus.firstCommand

/-- The margin is measured once the supply has settled after the last write (R530). -/
def supplySettled (s : State) : State := if suppliesCore s then passTo (s.bus.supplyAt + ms s.set.supply.settleMs) s else s

/-- AVS_RAISE: a margin below 8 % raises VDD_CORE by 5 mV, never above the ceiling, and again every 1 ms while it stays
below (R526, R530). -/
def execAvsRaise (margins : List Int) (s : State) : Host.Outcome State Fault Refusal :=
  within s (margins.length = 17) (
    let s := setMargins margins (supplySettled s)
    if (worstMargin margins).2 < 80 then
      let s := { s with cal := { s.cal with above12At := none } }
      if suppliesCore s then
        let s := passTo (s.cal.raisedAt + ms 1) s
        setVdd (min (ceiling s) (s.cal.vdd + 5)) { s with cal := { s.cal with raisedAt := now s } }
      else s
    else s)

/-- AVS_LOWER: a margin above 12 % for 10 s lowers VDD_CORE by 5 mV, never below the floor, and not while supply writes fail
(R396, R526). -/
def execAvsLower (margins : List Int) (s : State) : Host.Outcome State Fault Refusal :=
  within s (margins.length = 17) (
    let s := setMargins margins (supplySettled s)
    if 120 < (worstMargin margins).2 then
      let since := s.cal.above12At.getD (now s)
      let s := passTo (since + 10 * ticksPerSecond) s
      let s := { s with cal := { s.cal with above12At := some (now s) } }
      if suppliesCore s && !s.bus.supplyStopped && avsFloor s ≤ s.cal.vdd - 5 then setVdd (s.cal.vdd - 5) s else s
    else { s with cal := { s.cal with above12At := none } })

/-- Operation outside HOLD, not yet counted in the record, in ticks (R531). -/
def uncounted (s : State) : Nat := s.cal.opTicks + (if s.set.mode = .hold then 0 else now s - s.cal.opSince)

/-- All operation outside HOLD, in ticks (R527, R531). -/
def operated (s : State) : Nat := s.cal.record.hours * (3600 * ticksPerSecond) + uncounted s

/-- An assessment is due: at the power-on reset, then after each 24 h of operation (R527). -/
def assessmentDue (s : State) : State :=
  let s := match s.cal.assessOp with
    | some t => pass (t + 24 * 3600 * ticksPerSecond - operated s) s
    | none => s
  { s with cal := { s.cal with assessOp := some (operated s) } }

/-- GRAIN_ASSESSMENT: degradation only rises; the floor, the step limit and the clock plan follow the ageing plan (R527 to
R529). -/
def execGrainAssessment (m : GrainMeas) (s : State) : Host.Outcome State Fault Refusal :=
  within s (m.degradation.length = 17) (
    if s.head.restarting || s.set.mode = .hold then s
    else
      let s := assessmentDue s
      let old := s.cal.record
      let deg := (old.degradation.zip m.degradation).map (fun x => max x.1 x.2)
      let row := ageingRow (deg.foldl max 0)
      let floor := max old.avsFloor row.1
      let dt := min old.dtLimit row.2
      let reduce := old.reduced || ceiling s < m.needMv
      let s := { s with cal := { s.cal with
        record := { old with degradation := deg, avsFloor := floor, dtLimit := dt, reduced := reduce }
        reducedAt := if reduce && !old.reduced then some (now s) else s.cal.reducedAt
        lastAssess := second s % 4294967296 } }
      let supply := floor != old.avsFloor
      let plan := reduce != old.reduced
      let cal := dt != old.dtLimit
      let s := if deg = old.degradation && !supply && !plan && !cal then s else calChanged s
      let derate := (if 14 ≤ enginesWorking s then 14000 else 1000 * enginesWorking s) - guLimit s
      let s := if supply || plan || cal then
          post 0x8B01 {} (leBytes 1 (supply.toNat + 2 * plan.toNat + 4 * plan.toNat + 8 * cal.toNat) ++ zeros 1 ++
            leBytes 2 derate ++ leBytes 1 (deltaT s) ++ zeros 3) none s
        else s
      let s := announceCapacity s
      let s := if suppliesCore s && s.cal.vdd < avsFloor s then setVdd (min (ceiling s) (avsFloor s)) s else s
      if reduce && ceiling s < m.needReducedMv then note 0x0203 0xFF 0 (m.margin % 4294967296).toNat s else s)

/-- The dividers in use become the reduced ones, and what no longer fits is shed (R528, R538). -/
def reduceDividers (s : State) : State :=
  if s.cal.record.reduced && !s.cal.dividersReduced then
    shedToLimit { s with cal := { s.cal with dividersReduced := true } }
  else s

/-- CLOCK_PLAN_CHANGE: the reduced dividers take effect in IDLE or HOLD, or 7 days after the assessment (R528). -/
def execClockPlanChange (s : State) : Host.Outcome State Fault Refusal :=
  .next (
    if s.cal.record.reduced && !s.cal.dividersReduced then
      let s := if s.set.mode = .idle || s.set.mode = .hold then s
        else passTo ((s.cal.reducedAt.getD (now s)) + 604800 * ticksPerSecond) s
      reduceDividers s
    else s)

/-- Whole hours of operation enter the record (R531). -/
def foldHours (s : State) : State :=
  let h := 3600 * ticksPerSecond
  { s with cal := { s.cal with record := { s.cal.record with hours := s.cal.record.hours + uncounted s / h }
                               opTicks := uncounted s % h, opSince := now s } }

/-- The checks of GET_AGEING. -/
def getAgeingChecks (f : CmdFrame) (_ : State) : Checks :=
  { lenOk := f.payload.length = 0, modes := modesAll }

/-- The payload of GET_AGEING (R531). -/
def ageingBytes (s : State) : List Byte :=
  let w := worstMargin s.cal.margins
  let r := s.cal.record
  let stage := if r.reduced then 2 else if ceiling s ≤ s.cal.vdd then 1 else 0
  let derate := (if 14 ≤ enginesWorking s then 14000 else 1000 * enginesWorking s) - guLimit s
  leInt 2 w.2 ++ leBytes 1 w.1 ++ leBytes 1 stage ++ leBytes 2 (r.degradation.foldl max 0) ++
    leBytes 2 s.cal.vdd ++ leBytes 2 (avsFloor s) ++ leBytes 2 (ceiling s) ++
    leBytes 1 (if s.cal.dividersReduced then 7 else 6) ++ leBytes 1 (if s.cal.dividersReduced then 12 else 10) ++
    leBytes 2 derate ++ leBytes 1 r.dtLimit ++ zeros 3 ++ leBytes 4 (r.hours + uncounted s / (3600 * ticksPerSecond)) ++ leBytes 4 s.cal.lastAssess ++
    (List.range 17).flatMap (fun i => leBytes 2 (r.degradation.getD i 0)) ++ zeros 2

/-- The effect and the reply of GET_AGEING. -/
def getAgeingBody (f : CmdFrame) (s : State) : State × Option Reply := (s, replyWith f (ageingBytes s))

/-- GET_AGEING (R531). -/
def execGetAgeing (f : CmdFrame) (s : State) : Host.Outcome State Fault Refusal :=
  .next (command 0x0B03 f (getAgeingChecks f) (getAgeingBody f) s)

/-! ### SUPPLY_CONFIG (R530) -/

/-- Read and clamp SUPPLY_CONFIG. -/
def readSupply (p : List Byte) : SupplyConfig :=
  let c := clampNat 700 850 (field p 4 2)
  { output := satNat 1 (field p 0 1), addr := clampNat 0x08 0x77 (field p 1 1), speed := satNat 2 (field p 2 1)
    settleMs := clampNat 1 50 (field p 3 1), ceiling := c, floor := clampNat 650 c (field p 6 2) }

/-- The supply settings as read back. -/
def supplyBytes (c : SupplyConfig) : List Byte :=
  leBytes 1 c.output ++ leBytes 1 c.addr ++ leBytes 1 c.speed ++ leBytes 1 c.settleMs ++ leBytes 2 c.ceiling ++
  leBytes 2 c.floor ++ zeros 4

/-- The checks of SUPPLY_CONFIG. -/
def supplyConfigChecks (f : CmdFrame) (_ : State) : Checks :=
  { lenOk := f.payload.length = 12, modes := [.idle] }

/-- The effect and the reply of SUPPLY_CONFIG. -/
def supplyConfigBody (f : CmdFrame) (s : State) : State × Option Reply :=
  let c := readSupply f.payload
  let s := setSettings { s.set with supply := c } s
  let s := if c.output = 1 then
      queueSupply { s with cal := { s.cal with vdd := clampNat (min c.ceiling (avsFloor s)) c.ceiling s.cal.vdd } }
    else s
  (s, some { target := f.target, clamped := (supplyBytes c).take 8 != f.payload.take 8 })

/-- SUPPLY_CONFIG: it takes effect at once (R530). -/
def execSupplyConfig (f : CmdFrame) (s : State) : Host.Outcome State Fault Refusal :=
  .next (command 0x0B04 f (supplyConfigChecks f) (supplyConfigBody f) s)

/-- The checks of GET_SUPPLY_CONFIG. -/
def getSupplyConfigChecks (f : CmdFrame) (_ : State) : Checks :=
  { lenOk := f.payload.length = 0, modes := modesAll }

/-- The effect and the reply of GET_SUPPLY_CONFIG. -/
def getSupplyConfigBody (f : CmdFrame) (s : State) : State × Option Reply :=
  (s, replyWith f (supplyBytes s.set.supply))

/-- GET_SUPPLY_CONFIG (R530). -/
def execGetSupplyConfig (f : CmdFrame) (s : State) : Host.Outcome State Fault Refusal :=
  .next (command 0x0B05 f (getSupplyConfigChecks f) (getSupplyConfigBody f) s)

end Sys2Proof.Machine
end

