-- ==== Sys2Proof/Machine/HostPort.lean ====
section
/-!
DEFINITION. HostPort.lean: the register file, the rings' pointers, pops and pushes, PCIe events and interrupts (chapter 11,
and the target side of chapter 14).
-/

namespace Sys2Proof.Machine

/-- Does the SPI target serve only STATUS: READY still reads 0, before step 12 or in the halt (R604)? -/
def spiWaits (s : State) : Bool := hostConfig s = 1 && !s.pwr.ready && !s.pwr.porAsserted && s.set.mode != .hold

/-- Does a host port answer ring and register transactions now: it is open, the device is not in HOLD, and COMPAT does not
occupy the two-wire address (R292, R393, R604)? -/
def portLive (s : State) (p : Nat) : Bool := portOpen s p && s.set.mode != .hold && s.set.mode != .compat

/-- Responses that wait for room enter their ring in order as far as they fit (R314). -/
def flushResponses (s : State) : State :=
  s.port.respWait.foldl (fun t x =>
    if t.port.respWait.any (fun y => y.1 == x.1 && y != x) && (t.port.respWait.find? (fun y => y.1 == x.1)) != some x then t
    else if fits t (4 + x.1) (entrySpace x.2) then
      stageEntry (4 + x.1) x.2 { t with port := { t.port with respWait := t.port.respWait.erase x } }
    else t) s

/-! ### Register values -/

/-- STATUS word of a ring descriptor (R303); rings 3, 7 and 11 read only ENABLED (R293). -/
def ringStatusWord (s : State) (n : Nat) : W32 :=
  if internalRing n then 1
  else
    let r := ringAt s n
    BitVec.ofNat 32 (bitIf r.enabled 0 + bitIf r.busy 1 + bitIf r.pointerError 2 + bitIf (inHostMemory s n) 3 +
      bitIf r.dropped 4 + 65536 * satNat 65535 r.dropCount)

/-- Is a ring's DROP field fixed at 0: rings 8 to 10 and 29 to 31 (R314)? -/
def dropFixed (n : Nat) : Bool := (8 ≤ n && n ≤ 10) || (29 ≤ n && n ≤ 31)

/-- POLICY word of a ring descriptor (R303, R314). -/
def policyWord (s : State) (n : Nat) : W32 :=
  let r := ringSet s n
  let drop := r.dropNewest && !dropFixed n
  BitVec.ofNat 32 (bitIf drop 0 + 2 * ringPort s n + 256 * r.threshold + 65536 * r.timeout + bitIf r.enable 31)

/-- One word of a ring descriptor (R303, R307). -/
def descriptorWord (s : State) (n k : Nat) : W32 :=
  let r := ringAt s n
  if internalRing n then (if k = 7 then 1 else 0)
  else match k with
    | 0 => if inHostMemory s n then r.baseLo else 0
    | 1 => if inHostMemory s n then r.baseHi else 0
    | 2 => BitVec.ofNat 32 (ringSize s n)
    | 3 => r.head
    | 4 => r.tail
    | 5 => BitVec.ofNat 32 (ringSet s n).quota
    | 6 => policyWord s n
    | _ => ringStatusWord s n

/-- Does ring 30 hold unread entries (R302)? -/
def logPending (s : State) : Bool := !(ringAt s 30).entries.isEmpty || (ringAt s 30).head != (ringAt s 30).tail

/-- HEALTH (R302). -/
def healthWord (s : State) : W32 :=
  let failed := (List.range 4).foldl (fun a i => a + bitIf ((s.front.tuners.getD i {}).failed) (6 + i)) 0
  BitVec.ofNat 32 (enginesWorking s + bitIf (guLimit s < 14000) 5 + failed +
    bitIf ((s.front.tuners.getD 4 {}).failed) 10 + bitIf (logPending s) 11 + 65536 * guLimit s)

/-- TEMP (R302). -/
def tempWord (s : State) : W32 := BitVec.ofNat 32 ((s.port.junction % 65536).toNat + 65536 * (s.port.hotIsland % 32))

/-- PORT_STATUS (R302). -/
def portStatusWord (s : State) : W32 :=
  BitVec.ofNat 32 (s.port.pcieGen + 4 * s.port.pcieWidth + bitIf s.port.busMaster 4 + 65536 * (budget s 0 / 1000000))

/-- A word of the MSI-X table: address, data and vector control of each vector (R294, R301, log 128). -/
def msixWord (s : State) (n k : Nat) : W32 := match k with
  | 0 => (msixAt s n).addrLo
  | 1 => (msixAt s n).addrHi
  | 2 => (msixAt s n).data
  | _ => BitVec.ofNat 32 (msixAt s n).masked.toNat

/-- The live value of a register at an offset (R301, R302). DT_HI and TIME_STATUS are read through their shadows by their
own rows. -/
def readReg (s : State) (off : Nat) : W32 :=
  if 0x1000 ≤ off ∧ off < 0x1400 then descriptorWord s ((off - 0x1000) / 32) ((off - 0x1000) % 32 / 4)
  else if 0x2000 ≤ off ∧ off < 0x2200 then msixWord s ((off - 0x2000) / 16) ((off - 0x2000) % 16 / 4)
  else match off with
    | 0x00 => 0x4D5A7256
    | 0x04 => 0xA1
    | 0x08 => strapWord s
    | 0x0C => resetCauseWord s
    | 0x10 => aonStatusWord s
    | 0x14 => modeWord s
    | 0x18 => healthWord s
    | 0x1C => tempWord s
    | 0x20 => s.time.count.setWidth 32
    | 0x24 => (s.time.count >>> 32).setWidth 32
    | 0x28 => timeStatusWord s
    | 0x30 => s.port.intStatus
    | 0x34 => s.port.intMask
    | 0x40 => portStatusWord s
    | 0x44 => BitVec.ofNat 32 (s.port.diag % 8)
    | 0x3000 => s.port.pba
    | _ => 0

/-! ### Device-time reads (R102) -/

/-- The shadows of a port. -/
def shadowOf (s : State) (p : Nat) : Shadow := s.time.shadows.getD p {}

/-- Change the shadows of a port. -/
def modShadow (p : Nat) (g : Shadow → Shadow) (s : State) : State :=
  { s with time := { s.time with shadows := modAt s.time.shadows p g } }

/-- A register read at a port that is not live: zeros over SPI while it serves only STATUS, otherwise nothing (R604). -/
def readsZero (p off : Nat) (s : State) : State := if p = 1 && spiWaits s then emit (.reg 1 off 0) s else s

/-- A read of DT_LO latches DT_HI and TIME_STATUS; a 64-bit PCIe read returns both words at once and leaves only the
TIME_STATUS shadow (R102). -/
def execDtLoRead (port : Nat) (wide : Bool) (s : State) : Host.Outcome State Fault Refusal :=
  within s (port < 3) (if portLive s port then
    let lo := readReg s 0x20
    let hi := readReg s 0x24
    let s1 := modShadow port (fun _ => { hi := if wide && port == 0 then none else some hi
                                         status := some (timeStatusWord s) }) s
    if wide && port == 0 then emit (.regs64 port lo hi) s1 else emit (.reg port 0x20 lo) s1
  else readsZero port 0x20 s)

/-- A read of DT_HI returns its waiting shadow, once, or the live value (R102). -/
def execDtHiRead (port : Nat) (s : State) : Host.Outcome State Fault Refusal :=
  within s (port < 3) (if portLive s port then
    emit (.reg port 0x24 ((shadowOf s port).hi.getD (readReg s 0x24))) (modShadow port (fun x => { x with hi := none }) s)
  else readsZero port 0x24 s)

/-- A read of TIME_STATUS returns its waiting shadow, once, or the live value (R102). -/
def execTimeStatusRead (port : Nat) (s : State) : Host.Outcome State Fault Refusal :=
  within s (port < 3) (if portLive s port then
    emit (.reg port 0x28 ((shadowOf s port).status.getD (timeStatusWord s)))
      (modShadow port (fun x => { x with status := none }) s)
  else readsZero port 0x28 s)

/-! ### Descriptor writes (R303 to R305, R311) -/

/-- The largest power of two at most n, 0 for 0. -/
def powFloor (n : Nat) : Nat := if n = 0 then 0 else 2 ^ Nat.log2 n

/-- QUOTA as applied (R311): clamped to 0 or 4 KB to 16 MB, to the pool's free space, to a power of two on SPI and two-wire, to at
least 8 KB on rings 4 to 10, and to 0 on host-produced PCIe rings. -/
def clampQuota (s : State) (n v : Nat) : Nat :=
  if hostProduced n && inHostMemory s n then 0
  else
    let q := min (v / 4096 * 4096) 16777216
    let free := timberPool - (timberUsed s - (ringSet s n).quota)
    let q := min q (free / 4096 * 4096)
    let q := if ringPort s n = 1 || ringPort s n = 2 then powFloor q else q
    if 4 ≤ n && n ≤ 10 then max q 8192 else q

/-- Where the newest block of a list of entries begins. -/
def newestAt (l : List Entry) : Nat := match l.getLast? with
  | none => 0
  | some e => if e.group = 0 then l.length - 1 else l.length - (l.reverse.takeWhile (fun x => x.group == e.group)).length

/-- Drop the newest block of a ring, unless it has begun to leave; the next block of its source reports it (R311 to R313 under
DROP_NEWEST). -/
def dropNewestBlock (n : Nat) (s : State) : State :=
  let l := (ringAt s n).entries
  match l[newestAt l]? with
  | none => s
  | some e =>
    if e.group ≠ 0 && e.group == (ringAt s n).begun then s
    else
      let s := repack n (modRing n (fun r => countDrop { r with entries := l.take (newestAt l) }) s)
      match e.head with
      | some h => passEpoch n h (modRing n (oweLost h.source (h.lost + 1)) s)
      | none => s

/-- Drop blocks until the ring's contents fit its QUOTA, at most `fuel` blocks (R311). -/
def shrinkRing (n : Nat) : Nat → State → State
  | 0, s => s
  | k + 1, s =>
    if fits s n 0 || (ringAt s n).entries.isEmpty then s
    else shrinkRing n k (if dropsNewest s n then dropNewestBlock n s else dropOldest s n)

/-- Does a lowered QUOTA drop the excess: data rings, 8 to 10 and 29 to 31 (R311)? -/
def dropsExcess (n : Nat) : Bool := (8 ≤ n && n ≤ 10) || (12 ≤ n && n < 28) || (29 ≤ n && n < 32)

/-- A write to QUOTA (R311). -/
def writeQuota (n v : Nat) (s : State) : State :=
  if internalRing n then s
  else
    let s := modRingSet n (fun x => { x with quota := clampQuota s n v }) s
    let s := repack n s
    let s := if dropsExcess n then shrinkRing n (ringAt s n).entries.length s else s
    flushResponses (settingsDirty s)

/-- Bytes that a ring made visible when it was enabled with entries staged. -/
def enableVisible (n : Nat) (s : State) : State :=
  let k := ((ringAt s n).entries.map entrySpace).sum
  if inHostMemory s n || k = 0 || hostProduced n then s else madeVisible n k s

/-- A write to POLICY, ENABLE included (R303, R304, R309, R314). Ring 31 can be enabled only in TEST (R293, R505). -/
def writePolicy (n : Nat) (v : W32) (s : State) : State :=
  if internalRing n then s
  else
    let old := ringSet s n
    let on := v.getLsbD 31 && (n != 31 || s.set.mode == .test)
    let bound := s.plan.binds.any (fun b => b.2.2.2 == n)
    let port := if n < 12 || old.enable || bound then old.port else (v.toNat / 2) % 4
    let s := modRingSet n (fun x => { x with
      dropNewest := if dropFixed n then x.dropNewest else v.getLsbD 0
      port := port
      threshold := (v.toNat / 256) % 256
      timeout := (v.toNat / 65536) % 256
      enable := on }) s
    let s := if port = old.port then s
      else
        let s := modRingSet n (fun x => { x with quota := clampQuota s n x.quota }) s
        repack n (modRing n (fun r => { r with head := 0, tail := 0 }) s)
    let s := settingsDirty s
    if on && !old.enable then
      enableVisible n (modRing n (fun r => { r with enabled := true, seq := 0 }) s)
    else if !on && old.enable && !(inHostMemory s n && !hostProduced n) then
      modRing n (fun r => { r with enabled := false }) s
    else s

/-- A write to HEAD or TAIL (R305). -/
def writePointer (n : Nat) (isHead : Bool) (v : W32) (s : State) : State :=
  if internalRing n || !inHostMemory s n then s
  else
    let r := ringAt s n
    let mine := isHead == !hostProduced n
    let size := 2 ^ (ringSet s n).size
    let used := if isHead then (r.tail - v).toNat else (v - r.head).toNat
    if !mine then modRing n (fun r => { r with pointerError := true }) s
    else if v.toNat % 8 ≠ 0 && used ≤ size then modRing n (fun r => { r with pointerError := true }) s
    else if size < used then
      modRing n (fun r => { r with pointerError := true, busy := r.busy || !isHead
                                   busyPending := r.busyPending || !isHead }) s
    else if isHead then modRing n (fun r => { r with head := v }) s
    else modRing n (fun r => { r with tail := v }) s

/-- Clear the W1C bits of a ring's STATUS; clearing DROPPED clears DROP_COUNT (R303). -/
def clearRingStatus (n : Nat) (v : W32) (s : State) : State :=
  if internalRing n then s
  else modRing n (fun r => { r with
    busy := r.busy && !v.getLsbD 1
    pointerError := r.pointerError && !v.getLsbD 2
    dropped := r.dropped && !v.getLsbD 4
    dropCount := if v.getLsbD 4 then 0 else r.dropCount }) s

/-- Has a host-produced PCIe ring entries to fetch: it is enabled and HEAD is not TAIL (R319, R322)? -/
def fetchable (s : State) (n : Nat) : Bool :=
  hostProduced n && inHostMemory s n && (ringSet s n).enable && (ringAt s n).head != (ringAt s n).tail

/-- Examine a host-produced PCIe ring (R319, R322). -/
def examine (n : Nat) (s : State) : State :=
  if fetchable s n then modRing n (fun r => { r with fetching := true }) s else s

/-- A DOORBELL write (R319): bits 0, 1, 2 and 28, those of the rings that the host produces. -/
def ringDoorbell (v : W32) (s : State) : State :=
  { s with port := { s.port with
    rings := s.port.rings.mapIdx (fun n r => if v.getLsbD n && fetchable s n then { r with fetching := true } else r) } }

/-- A write to a word of a ring descriptor (R303, R304). -/
def writeDescriptor (n k : Nat) (v : W32) (s : State) : State :=
  let free := !(ringSet s n).enable
  match k with
  | 0 => if free && inHostMemory s n && !internalRing n then
      modRing n (fun r => { r with baseLo := v &&& 0xFFFFF000 }) s else s
  | 1 => if free && inHostMemory s n && !internalRing n then modRing n (fun r => { r with baseHi := v }) s else s
  | 2 => if free && inHostMemory s n && !internalRing n then
      settingsDirty (modRingSet n (fun x => { x with size := clampNat 12 24 (v.toNat % 32) }) s) else s
  | 3 => writePointer n true v s
  | 4 => writePointer n false v s
  | 5 => writeQuota n v.toNat s
  | 6 => writePolicy n v s
  | _ => clearRingStatus n v s

/-- Send the MSI-X vectors whose messages are pending and can be sent now (R294, log 128). -/
def sendPending (s : State) : State :=
  (List.range 32).foldl (fun t n => if t.port.pba.getLsbD n then sendMsix n t else t) s

/-- A write to a word of the MSI-X table; a message pending for a vector is sent once it is unmasked (R294, R301, log 128). -/
def writeMsix (n k : Nat) (v : W32) (s : State) : State :=
  sendPending { s with port := { s.port with msix := modAt s.port.msix n (fun x => match k with
    | 0 => { x with addrLo := v &&& 0xFFFFFFFC }
    | 1 => { x with addrHi := v }
    | 2 => { x with data := v }
    | _ => { x with masked := v.getLsbD 0 }) } }

/-- A write of a register through any port, by its field access (R301). -/
def writeReg (off : Nat) (v : W32) (s : State) : State :=
  if 0x1000 ≤ off ∧ off < 0x1400 ∧ off % 4 = 0 then writeDescriptor ((off - 0x1000) / 32) ((off - 0x1000) % 32 / 4) v s
  else if 0x2000 ≤ off ∧ off < 0x2200 ∧ off % 4 = 0 then writeMsix ((off - 0x2000) / 16) ((off - 0x2000) % 16 / 4) v s
  else match off with
    | 0x34 => attnFall { s with port := { s.port with intMask := v } }
    | 0x38 => attnFall { s with port := { s.port with intStatus := s.port.intStatus &&& ~~~v } }
    | 0x3C => ringDoorbell v s
    | 0x44 => { s with port := { s.port with diag := v.toNat % 8 } }
    | _ => s

/-- REG_WRITE (R301): a write of fewer than four bytes is ignored. -/
def execRegWrite (port off : Nat) (val : W32) (nbytes : Nat) (s : State) : Host.Outcome State Fault Refusal :=
  within s (port < 3) (if portLive s port && 4 ≤ nbytes then writeReg off val s else s)

/-- INT_CLEAR (R319). -/
def execIntClear (mask : W32) (s : State) : Host.Outcome State Fault Refusal :=
  .next (writeReg 0x38 mask s)

/-- DOORBELL (R319, R322). -/
def execDoorbell (mask : W32) (s : State) : Host.Outcome State Fault Refusal :=
  .next (writeReg 0x3C mask s)

/-- HEAD_WRITE (R305). -/
def execHeadWrite (port ring : Nat) (val : W32) (s : State) : Host.Outcome State Fault Refusal :=
  within s (port < 3 && ring < 32) (if portLive s port then writePointer ring true val s else s)

/-- TAIL_WRITE (R305). -/
def execTailWrite (port ring : Nat) (val : W32) (s : State) : Host.Outcome State Fault Refusal :=
  within s (port < 3 && ring < 32) (if portLive s port then writePointer ring false val s else s)

/-- RING_ENABLE_WRITE: a write of POLICY with its ENABLE bit (R303, R304). -/
def execRingEnableWrite (port ring : Nat) (policy : W32) (s : State) : Host.Outcome State Fault Refusal :=
  within s (port < 3 && ring < 32) (if portLive s port then writePolicy ring policy s else s)

/-- QUOTA_WRITE (R311). -/
def execQuotaWrite (port ring : Nat) (val : W32) (s : State) : Host.Outcome State Fault Refusal :=
  within s (port < 3 && ring < 32) (if portLive s port then writeQuota ring val.toNat s else s)

/-- RING_STATUS_CLEAR (R303). -/
def execRingStatusClear (ring : Nat) (val : W32) (s : State) : Host.Outcome State Fault Refusal :=
  within s (ring < 32) (clearRingStatus ring val s)

/-! ### Pops and pushes (R297 to R300, R388 to R391) -/

/-- Does a pop through a port find the ring enabled, on that port and device-produced (R298)? -/
def poppable (s : State) (p n : Nat) : Bool := (ringSet s n).enable && ringPort s n == p && !hostProduced n && !internalRing n

/-- A pop that clocked `clocked` data bytes: the length, the entry and zeros are returned, and the entry is consumed when at
least 4 + L bytes were clocked (R298, R390). -/
def popRing (p n clocked : Nat) (s : State) : State :=
  match (ringAt s n).entries with
  | e :: _ =>
    if poppable s p n then
      let b := renderEntry e
      let s1 := emit (.pop p n (padTo clocked (leBytes 4 b.length ++ b))) s
      if 4 + b.length ≤ clocked then flushResponses (popFront s1 n) else s1
    else emit (.pop p n (padTo clocked (leBytes 4 0))) s
  | [] => emit (.pop p n (padTo clocked (leBytes 4 0))) s

/-- RING_POP over SPI or the two-wire bus (R298, R389). -/
def execRingPop (port ring clocked : Nat) (s : State) : Host.Outcome State Fault Refusal :=
  within s (port < 3 && ring < 32)
    (if port = 1 then
      if portLive s 1 then popRing 1 ring clocked s
      else if spiWaits s then emit (.pop 1 ring (padTo clocked (leBytes 4 0))) s else s
    else if port = 2 && portLive s 2 then
      if ringPort s ring == 2 && !hostProduced ring then popRing 2 ring clocked s else emit (.nak 2) s
    else s)

/-- BARE_READ: a pop of ring 10 if it holds an entry, otherwise of ring 6 (R388, R390). -/
def execBareRead (clocked : Nat) (s : State) : Host.Outcome State Fault Refusal :=
  .next (if portLive s 2 then
    (if (ringAt s 10).entries.isEmpty then popRing 2 6 clocked s else popRing 2 10 clocked s) else s)

/-- Registers as a serial port reads them from an offset: bytes in ascending address order (R297, R388). -/
def regBytes (s : State) (off count : Nat) : List Byte :=
  (List.range count).map (fun i => ((leBytes 4 (readReg s ((off + i) / 4 * 4)).toNat).getD ((off + i) % 4) 0))

/-- The 24-bit address of an SPI transaction, most significant byte first (R297). -/
def spiAddress (b : List Byte) : Nat := (b.take 3).foldl (fun a x => 256 * a + x.toNat) 0

/-- The writes of a REG_WRITE: each aligned word when its fourth byte has arrived (R297, R301). -/
def wordWrites (port off : Nat) (data : List Byte) : List Instr :=
  (List.range (data.length / 4)).map (fun i => .regWrite port (off + 4 * i) (BitVec.ofNat 32 (ofLe ((data.drop (4 * i)).take 4))) 4)

/-- The device-time words that a REG_READ passes, which have shadows; other registers are only read (R102, R297). -/
def wordReads (port off count : Nat) : List Instr :=
  (List.range ((count + 3) / 4)).filterMap (fun i => match off + 4 * i with
    | 0x20 => some (.dtLoRead port false)
    | 0x24 => some (.dtHiRead port)
    | 0x28 => some (.timeStatusRead port)
    | _ => none)

/-- The commands that an SPI transaction makes, from the bytes written on it and the data bytes that the host clocks after them: its
instruction byte gives the width in bits 1:0, of which value 3 is reserved and ignored, and the operation in bits 7:2 (R297). -/
def spiCommands (bytes : List Byte) (clocked : Nat) : List Instr := match bytes with
  | [] => []
  | i :: rest =>
    let a := spiAddress rest
    if i.toNat % 4 = 3 then []
    else match i.toNat / 4 with
      | 1 => wordReads 1 (a % 65536) clocked
      | 2 => wordWrites 1 (a % 65536) (rest.drop 3)
      | 3 => [.ringPop 1 (a % 32) clocked]
      | 4 => [.ringPush 1 (a % 32) (rest.drop 3) .stop]
      | 5 => [.status 1]
      | _ => []

/-- The commands that a two-wire transaction makes, from the bytes written after the address and those read after a repeated START; an
instruction byte that is not one of the table's is NAKed (R388, R389). -/
def twoWireCommands (bytes : List Byte) (clocked : Nat) (ending : PushEnd) : Option (List Instr) := match bytes with
  | [] => some [.bareRead clocked]
  | i :: rest =>
    let off := (rest.take 2).foldl (fun a x => 256 * a + x.toNat) 0
    match i.toNat with
    | 0x04 => some (wordReads 2 off clocked)
    | 0x08 => some (wordWrites 2 off (rest.drop 2))
    | 0x0C => some [.ringPop 2 ((rest.headD 0).toNat) clocked]
    | 0x10 => some [.ringPush 2 ((rest.headD 0).toNat) (rest.drop 1) ending]
    | 0x14 => some [.status 2]
    | _ => none

/-- The length an entry declares for itself: a frame by its payload length, a Shaving by its header (R306, R316, R323). -/
def declaredLength (n : Nat) (b : List Byte) : Nat := (if n = 28 then 32 else 16) + field b 4 2

/-- Set the SPI status byte's push bits (R299). -/
def pushStatus (ok busy bad : Bool) (s : State) : State :=
  { s with port := { s.port with pushOk := ok, pushBusy := busy, pushBad := bad } }

/-- A push that is structurally one entry: accepted when the ring is enabled and it fits (R299, R305). -/
def pushEntry (n : Nat) (b : List Byte) (s : State) : State :=
  let e : Entry := { bytes := b }
  let ok := fits s n (entrySpace e)
  if (ringSet s n).enable && ok then
    pushStatus true false false (modRing n (fun r => { r with
      entries := r.entries ++ [e]
      tail := r.tail + BitVec.ofNat 32 (skipBefore r.tail (log2Floor (ringSet s n).quota) (entrySpace e)) +
        BitVec.ofNat 32 (entrySpace e) }) s)
  else
    pushStatus false true false
      (if ok then s else modRing n (fun r => { r with busy := true, busyPending := true }) s)

/-- Bytes that the free space of a ring whose buffer is its staging still takes (R305). -/
def ringFree (s : State) (n : Nat) : Nat := (ringSet s n).quota - ringUsed (ringAt s n)

/-- The byte of an entry that the two-wire target NAKs: the first one of a push to a disabled ring, the first that would not
fit the ring's free space, or byte 5 if the whole entry would not fit (R300, R391). -/
def pushNak (s : State) (n : Nat) (b : List Byte) : Option Nat :=
  if b.isEmpty then none
  else if !(ringSet s n).enable then some 0
  else if ringFree s n < min b.length 6 then some (ringFree s n)
  else if 6 ≤ b.length && !fits s n (pad8 (declaredLength n b)) then some 5
  else if ringFree s n < b.length then some (ringFree s n)
  else none

/-- A push that the two-wire target ended with a NAK: discarded, with BUSY in STATUS and, where it did not fit, in the
descriptor (R303, R391). -/
def pushRefused (n k : Nat) (s : State) : State :=
  emit (.nak (3 + k)) (pushStatus false true false
    (if (ringSet s n).enable then modRing n (fun r => { r with busy := true, busyPending := true }) s else s))

/-- A push over SPI is judged: PUSH_MALFORMED for a ring that takes none or bytes that are not one entry (R299). -/
def judgePush (n : Nat) (b : List Byte) (s : State) : State :=
  if (hostProduced n && ringPort s n == 1) && (16 ≤ b.length && b.length == declaredLength n b) then pushEntry n b s
  else pushStatus false false true s

/-- A push over SPI; its result reaches the status byte up to 180 ns after it (R299, R593). -/
def pushSpi (n : Nat) (b : List Byte) (s : State) : State :=
  judgePush n b { s with port := { s.port with pushPast := some (now s, s.port.pushOk, s.port.pushBusy, s.port.pushBad) } }

/-- A push over the two-wire bus: a NAK at the ring byte, at the byte that does not fit, or acceptance at STOP; a repeated
START in its place makes the push malformed (R389, R391). -/
def pushTwoWire (n : Nat) (b : List Byte) (ending : PushEnd) (s : State) : State :=
  if !(hostProduced n && ringPort s n == 2) then emit (.nak 2) s
  else match pushNak s n b with
    | some k => pushRefused n k s
    | none =>
      if (16 ≤ b.length && b.length == declaredLength n b) && ending != .repeatedStart then pushEntry n b s
      else pushStatus false false true s

/-- RING_PUSH over SPI or the two-wire bus (R299, R389, R391). -/
def execRingPush (port ring : Nat) (bytes : List Byte) (ending : PushEnd) (s : State) :
    Host.Outcome State Fault Refusal :=
  within s (port < 3 && ring < 32)
    (if !portLive s port then s
    else if port = 1 then pushSpi ring bytes s
    else if port = 2 then pushTwoWire ring bytes ending s
    else s)

/-- Is nIRQ driven low: an unmasked bit of a ring whose port is SPI is 1 (R321)? -/
def irqLow (s : State) : Bool :=
  (List.range 32).any (fun n => ringPort s n == 1 && s.port.intStatus.getLsbD n && !s.port.intMask.getLsbD n)

/-- The SPI status byte with given push bits (R299, the table SPI status byte). -/
def statusWith (s : State) (ok busy bad : Bool) : Byte :=
  BitVec.ofNat 8 (bitIf ok 0 + bitIf busy 1 + bitIf bad 2 + bitIf (irqLow s) 3 + bitIf s.pwr.ready 4)

/-- The SPI status byte as the device holds it (R299). -/
def statusByte (s : State) : Byte := statusWith s s.port.pushOk s.port.pushBusy s.port.pushBad

/-- The status byte that a STATUS over SPI returns: within 180 ns, 45 ticks, of a push it may still show the result of the push before
(R593). -/
def spiStatus (s : State) : Byte × State := match s.port.pushPast with
  | some (t, ok, busy, bad) =>
    if now s < t + 45 then
      let x := drawBool s
      (if x.1 then statusWith s ok busy bad else statusByte s, x.2)
    else (statusByte s, s)
  | none => (statusByte s, s)

/-- STATUS over SPI or the two-wire bus (R297, R388, R593, R604). -/
def execStatus (port : Nat) (s : State) : Host.Outcome State Fault Refusal :=
  within s (port < 3)
    (if port = 1 && hostConfig s = 1 && !s.pwr.porAsserted && s.set.mode != .hold then
      emit (.statusByte 1 (spiStatus s).1) (spiStatus s).2
    else if port = 2 && portLive s 2 then emit (.statusByte 2 (statusByte s)) s
    else s)

/-- A transaction whose SCL stays low for 25 ms is abandoned: its unfinished push is discarded and its unfinished pop leaves
the entry in place, so nothing in the rings changes (R392). -/
def execTwoWireStuckTimeout (s : State) : Host.Outcome State Fault Refusal := .next (pass (ms 25) s)

/-! ### PCIe (R294, R295, R310, R312, R322) -/

/-- FETCH_TIMER: at the latest 1 ms after a TAIL write the device examines the ring (R322). -/
def execFetchTimer (ring : Nat) (s : State) : Host.Outcome State Fault Refusal :=
  within s (ring < 32) (examine ring s)

/-- Can an entry of a host-produced ring be taken once it is fetched: the Headstock takes commands from the port and no frame of it
waits to be held (R310, R314, R339), or the link queue has room (R468)? One frame is fetched at a time. -/
def takeable (s : State) (n : Nat) : Bool :=
  (ringAt s n).entries.isEmpty &&
  (if n = 28 then s.set.link.role == 0 || s.link.queue.length < 64
  else portTakes s n && (s.head.held.length < 16 || s.head.blocked.all (fun x => x.2.port != n)))

/-- HOST_RING_FETCH_DONE: the entry at HEAD has been read from host memory; HEAD passes it when it is taken (R305, R310). A skip marker is passed over (R306); a
frame too long, or whose end lies beyond TAIL, is answered MALFORMED with detail 4 and everything up to TAIL is discarded. -/
def execHostRingFetchDone (ring : Nat) (bytes : List Byte) (s : State) : Host.Outcome State Fault Refusal :=
  within s (ring < 32)
    (if hostProduced ring && inHostMemory s ring && (ringSet s ring).enable && s.port.busMaster &&
        (ringAt s ring).fetching && (ringAt s ring).head != (ringAt s ring).tail && takeable s ring && portOpen s 0 then
      let r := ringAt s ring
      let size := 2 ^ (ringSet s ring).size
      let len := declaredLength ring bytes
      let stop (t : State) := modRing ring (fun x => { x with fetching := x.head + BitVec.ofNat 32 x.fetched != x.tail }) t
      if field bytes 0 2 = 0 then
        headAdvanced ring (stop (modRing ring (fun x => { x with
          head := x.head + BitVec.ofNat 32 (min (size - x.head.toNat % size) (ringUsed x)) }) s))
      else if 4080 + (if ring = 28 then 32 else 16) < len || ringUsed r < pad8 len then
        let t := headAdvanced ring (modRing ring (fun x => { x with head := x.tail, fetching := false }) s)
        if ring = 28 then t
        else refuse (field bytes 0 2) { port := 0, opcode := field bytes 0 2, tag := field bytes 2 2,
                                        target := handleAt bytes 8 }
          { status := 6, detail := 4 } t
      else
        stop (modRing ring (fun x => { x with fetched := pad8 len, entries := x.entries ++ [{ bytes := bytes.take len }] }) s)
    else s)

/-- Address of a byte count in a ring's host buffer (R305, R307). -/
def bufferAddr (s : State) (n : Nat) (c : W32) : Tick :=
  let r := ringAt s n
  BitVec.ofNat 64 (r.baseHi.toNat * 2 ^ 32 + r.baseLo.toNat + c.toNat % 2 ^ (ringSet s n).size)

/-- The largest payload of a write on the PCIe link, in bytes (R294). -/
def maxPayload : Nat := 256

/-- Write bytes to host memory, at most 256 in each transaction (R294). -/
def emitDma (n : Nat) (addr : Tick) (b : List Byte) (s : State) : State :=
  (List.range ((b.length + maxPayload - 1) / maxPayload)).foldl (fun t i =>
    emit (.dma n (addr + BitVec.ofNat 64 (maxPayload * i)) ((b.drop (maxPayload * i)).take maxPayload)) t) s

/-- Write the front entry of a PCIe ring to its host buffer: a skip marker where needed, the entry padded to 8 bytes, then
TAIL (R306, R308, R312). -/
def dmaEntry (n : Nat) (s : State) : State :=
  match (ringAt s n).entries with
  | [] => s
  | e :: es =>
    let r := ringAt s n
    let len := entrySpace e
    let skip := skipBefore r.tail (ringSet s n).size len
    let s1 := if skip = 0 then s else emitDma n (bufferAddr s n r.tail) (zeros 2) s
    let at0 := r.tail + BitVec.ofNat 32 skip
    let s2 := emitDma n (bufferAddr s n at0) (padTo len (renderEntry e)) s1
    madeVisible n len (modRing n (fun x => { x with entries := es, begun := e.group, tail := at0 + BitVec.ofNat 32 len }) s2)

/-- What consecutive entries take of a buffer of 2^size bytes, skips included (R306). -/
def spanOf (size : Nat) : W32 → List Entry → Nat
  | _, [] => 0
  | tail, e :: es =>
    let k := skipBefore tail size (entrySpace e) + entrySpace e
    k + spanOf size (tail + BitVec.ofNat 32 k) es

/-- The entries at the front of a PCIe ring that move to its host buffer together: one, or all pieces of one MOT object, which become
visible together. The pieces of an object too large for the buffer move one by one, as does the rest of one that began to (R244,
R312, log 158). -/
def movingEntries (s : State) (n : Nat) : List Entry := match (ringAt s n).entries with
  | [] => []
  | e :: es =>
    let l := (e :: es).take (blockLength e es)
    if spanOf (ringSet s n).size (ringAt s n).tail l ≤ 2 ^ (ringSet s n).size then l else [e]

/-- Do the entries that move next fit a PCIe ring's host buffer (R312)? -/
def bufferFits (s : State) (n : Nat) : Bool :=
  let r := ringAt s n
  !r.entries.isEmpty && ringUsed r + spanOf (ringSet s n).size r.tail (movingEntries s n) ≤ 2 ^ (ringSet s n).size

/-- Move the next entries of a PCIe ring to its host buffer (R312). -/
def dmaBlock (n : Nat) (s : State) : State :=
  (List.range (movingEntries s n).length).foldl (fun t _ => dmaEntry n t) s

/-- Is DMA possible for a PCIe ring (R295, R309)? -/
def dmaReady (s : State) (n : Nat) : Bool :=
  !hostProduced n && !internalRing n && inHostMemory s n && (ringSet s n).enable && s.port.busMaster && s.port.pcieGen ≠ 0

/-- STAGED_ENTRY_DMA: the oldest staged block moves to the host buffer (R312). -/
def execStagedEntryDma (ring : Nat) (s : State) : Host.Outcome State Fault Refusal :=
  within s (ring < 32) (if dmaReady s ring && bufferFits s ring then flushResponses (dmaBlock ring s) else s)

/-- RING_DISABLE_DRAINED: ENABLED falls once the ring's DMA writes have completed (R304). -/
def execRingDisableDrained (ring : Nat) (s : State) : Host.Outcome State Fault Refusal :=
  within s (ring < 32) (if (ringSet s ring).enable || internalRing ring then s
    else modRing ring (fun r => { r with enabled := false }) s)

/-- INT_TIMEOUT: the oldest entry not notified has waited TIMEOUT x 100 us (R320). -/
def execIntTimeout (ring : Nat) (s : State) : Host.Outcome State Fault Refusal :=
  within s (ring < 32) (match (ringAt s ring).unnotifiedAt with
    | some t =>
      if (ringSet s ring).timeout = 0 then s
      else raiseInt ring (modRing ring (fun r => { r with unnotified := 0, unnotifiedAt := none })
        (passTo (t + (ringSet s ring).timeout * 24576) s))
    | none => s)

/-- Is the port of a ring PCIe (R293, R303)? -/
def onPcie (s : State) (n : Nat) : Bool := ringPort s n == 0 && !internalRing n

/-- Disable every ring whose port is PCIe (R295, R309). -/
def disablePcieRings (s : State) : State :=
  { s with
    set := { s.set with rings := s.set.rings.mapIdx (fun n x => if onPcie s n then { x with enable := false } else x) }
    port := { s.port with rings := s.port.rings.mapIdx (fun n r => if onPcie s n then
      { r with baseLo := 0, baseHi := 0, head := 0, tail := 0, enabled := false, fetching := false, fetched := 0 } else r) } }

/-- PCIE_RINGS_DISABLED: hot reset, link down, or Bus Master Enable cleared (R295). -/
def execPcieRingsDisabled (cause : PcieDown) (s : State) : Host.Outcome State Fault Refusal :=
  .next (if hostConfig s = 2 then
    let t := disablePcieRings s
    { t with port := { t.port with
        busMaster := false
        pcieGen := if cause = .linkDown then 0 else t.port.pcieGen
        pcieWidth := if cause = .linkDown then 0 else t.port.pcieWidth } }
  else s)

/-- Does the endpoint complete configuration requests now? From the start of link training to step 12 it answers them with
Configuration Request Retry Status, and it keeps doing so while its island is in reset (R86, R87). -/
def configReady (s : State) : Bool := hostConfig s == 2 && s.port.pcieGen != 0 && portOpen s 0

/-- The Link Capabilities register: Gen3, x2, ASPM L0s and L1, an L0s Exit Latency of 0b101 and an L1 Exit Latency of 0b110,
at the bit places of PCI Express Base 3.0 (R294, R591; log 128). -/
def linkCapabilities : W32 := BitVec.ofNat 32 (3 + 2 * 16 + 3 * 1024 + 0b101 * 4096 + 0b110 * 32768)

/-- A word of the endpoint's configuration header: Vendor and Device ID, Class Code and Revision ID, BAR0 of 64 KB, 32-bit and
non-prefetchable, BAR2 of 4 MB, 64-bit and prefetchable, Subsystem IDs, and an Interrupt Pin that reads 0 (R294; the offsets and
the type bits are those of PCI Express Base 3.0, log 128). -/
def configHeader (s : State) (off : Nat) : W32 := match off with
  | 0x00 => 0x72561F6D
  | 0x08 => 0x118000A1
  | 0x10 => s.port.bar0
  | 0x18 => s.port.bar2Lo ||| 0xC
  | 0x1C => s.port.bar2Hi
  | 0x2C => 0x72561F6D
  | _ => 0

/-- What a configuration read returns; none is Configuration Request Retry Status, or no completion while the link is down. -/
def configRead (s : State) (off : Nat) : Option W32 := if configReady s then some (configHeader s off) else none

/-- A configuration write: a base address register takes the bits above the size of its region, so that it reads back the size
(R294, log 128). -/
def configWrite (off : Nat) (v : W32) (s : State) : State :=
  if !configReady s then s
  else match off with
    | 0x10 => { s with port := { s.port with bar0 := v &&& 0xFFFF0000 } }
    | 0x18 => { s with port := { s.port with bar2Lo := v &&& 0xFFC00000 } }
    | 0x1C => { s with port := { s.port with bar2Hi := v } }
    | _ => s

/-- The Device Capabilities register's supported payload, 256 bytes, and the Device Control register with a payload of 256 bytes and read
requests of 512 bytes, at the bit places of PCI Express Base 3.0 (R294, log 128). -/
def deviceCapabilities : W32 := 1
/-- Device Control: payload 256 in bits 7:5, read request 512 in bits 14:12 (R294, log 128). -/
def deviceControl : W32 := BitVec.ofNat 32 (1 * 32 + 2 * 4096)

/-- The MSI-X capability: 32 vectors, the table at offset 0x2000 of BAR0 and the pending-bit array at 0x3000 (R294, log 128). -/
def msixCapability : Nat × W32 × W32 := (31, 0x2000, 0x3000)

/-- May the device itself request entry to L1: no device-produced PCIe ring has an entry staged, and no DMA write is
outstanding (R591)? A DMA write of the model is complete when its command ends. -/
def requestsL1 (s : State) : Bool :=
  s.port.pcieGen != 0 && (List.range 32).all (fun n => hostProduced n || !inHostMemory s n || (ringAt s n).entries.isEmpty)

/-- The address in the Timber store that an offset of BAR2 shows (R296). -/
def bar2Addr (s : State) (off : Nat) : Nat := s.port.diag % 8 * 4194304 + off % 4194304

/-- A byte read through BAR2: the store's contents at that moment, corrected by ECC (R296). The layout of the store is not
documented: it is the device's own (log 129). -/
def bar2Read (s : State) (off : Nat) : Byte := Config.timberByte s (bar2Addr s off)

/-- A write through BAR2 is completed and discarded (R296). -/
def bar2Write (_off : Nat) (_v : Byte) (s : State) : State := s

/-- BUS_MASTER_ENABLE: the host sets Bus Master Enable by a configuration write, which completes from step 12 on (R87, R295). -/
def execBusMasterEnable (s : State) : Host.Outcome State Fault Refusal :=
  .next (if configReady s then sendPending { s with port := { s.port with busMaster := true } } else s)

/-- Note a port's new budget and whether its planned rate exceeds it (R29, R363). -/
def markBudget (p : Nat) (s : State) : State :=
  { s with port := { s.port with overBudget := setAt s.port.overBudget p (decide (budget s p < planned s p)) } }

/-- PCIE_RETRAIN: a lower generation or width lowers the budget, which is reported; admitted streams stay (R29). -/
def execPcieRetrain (gen width : Nat) (s : State) : Host.Outcome State Fault Refusal :=
  .next (if hostConfig s = 2 && s.port.pcieGen ≠ 0 && 1 ≤ gen && gen ≤ 3 && 1 ≤ width && width ≤ 2 then
    let t := markBudget 0 { s with port := { s.port with pcieGen := gen, pcieWidth := width } }
    if budget t 0 < budget s 0 then note 0x0501 0xFF 0 (budget t 0 / 1000) t else t
  else s)

/-- PCIE_LINK_TRAINED: the link comes up (R87, R294). A link that went down and comes up lower has not retrained: no HEALTH_NOTE is posted
(R29; DESIGN CHOICE, log 167). -/
def execPcieLinkTrained (gen width : Nat) (s : State) : Host.Outcome State Fault Refusal :=
  .next (if hostConfig s = 2 && s.pwr.released.getLsbD 7 && 1 ≤ gen && gen ≤ 3 && 1 ≤ width && width ≤ 2 then
    markBudget 0 { s with port := { s.port with pcieGen := gen, pcieWidth := width } }
  else s)

end Sys2Proof.Machine
end

