-- ==== Sys2Proof/Machine/Wave.lean ====
section
/-!
DEFINITION. Wave.lean: the Burlar waveform and frame coding: chirps, header word, whitening, convolutional code, interleaving,
body layout and airtime (R409 to R420), and their inverses for reception.
-/

namespace Sys2Proof.Machine

/-! ### Symbols and airtime (R409, R410, R420) -/

/-- Chips per symbol of a sweep-length code (the table Symbol times). -/
def chipsPerSymbol (sl : Nat) : Nat := 64 * 2 ^ sl

/-- Bits per symbol of a sweep-length code (R410). -/
def bitsPerSymbol (sl : Nat) : Nat := sl + 5

/-- The position whose Gray code is a value of `n` bits (R410 step 2). -/
def ungray : Nat → Nat → Nat
  | 0, _ => 0
  | n + 1, v => v ^^^ ungray n (v / 2)

/-- The chirp of a symbol value: down-chirp, and cyclic start (R410). -/
def chirpOf (sl v : Nat) : Bool × Nat :=
  let r := bitsPerSymbol sl
  (v.testBit (r - 1), 4 * ungray (r - 1) (v % 2 ^ (r - 1)))

/-- Coded bits of `n` input bits at a code rate (R419). -/
def codedBits (rate n : Nat) : Nat := if rate = 0 then 2 * n else if rate = 1 then n + (n + 1) / 2 else n + (n + 2) / 3

/-- Bytes of a body (R415). -/
def bodyLength (payload : Nat) (hop : Bool) : Nat := 12 + (if hop then 4 else 0) + payload + 10

/-- Columns of the header block (R420). -/
def headerColumns (sl : Nat) : Nat := (60 + bitsPerSymbol sl - 1) / bitsPerSymbol sl

/-- Body blocks of `k` coded bits (R420). -/
def bodyBlocks (sl k : Nat) : Nat := (k + 8 * bitsPerSymbol sl - 1) / (8 * bitsPerSymbol sl)

/-- Symbols of a frame with a body of `n` bytes (R420). -/
def frameSymbols (sl rate n : Nat) : Nat := 10 + headerColumns sl + 8 * bodyBlocks sl (codedBits rate (8 * n + 6))

/-- A number of symbols in ticks, rounded up (R420). -/
def symbolTicks (sl width symbols : Nat) : Nat :=
  (symbols * chipsPerSymbol sl * ticksPerSecond + widthHz width - 1) / widthHz width

/-- The airtime in ledger units of 1/15 s, rounded up (R469). -/
def symbolUnits (sl width symbols : Nat) : Nat := (symbols * chipsPerSymbol sl * 15 + widthHz width - 1) / widthHz width

/-- The airtime in ms, rounded up. -/
def symbolMs (sl width symbols : Nat) : Nat := (symbols * chipsPerSymbol sl * 1000 + widthHz width - 1) / widthHz width

/-! ### The header (R412 to R414) -/

/-- The fields of a header word but for its check and spare bits. -/
structure HeaderBits where
  length   : Nat := 0
  rate     : Nat := 0
  again    : Bool := false
  fallback : Bool := false
  downlink : Bool := false
  long     : Bool := false
  deriving DecidableEq, Repr

/-- The low 14 bits of a header word (R412). -/
def headerLow (h : HeaderBits) : Nat :=
  h.length % 256 + 256 * (h.rate % 4) + 1024 * h.again.toNat + 2048 * h.fallback.toNat + 4096 * h.downlink.toNat +
  8192 * h.long.toNat

/-- CRC8 over the two bytes of the low 14 bits (R413). -/
def headerCrc (low : Nat) : Nat := (crc8 (leBytes 2 (low % 16384))).toNat

/-- The header word (R412). -/
def headerWord (h : HeaderBits) : BitVec 24 := BitVec.ofNat 24 (headerLow h + 16384 * headerCrc (headerLow h))

/-- The fields of a received header word. -/
def headerFields (h : BitVec 24) : HeaderBits :=
  let v := h.toNat
  { length := v % 256, rate := v / 256 % 4, again := v.testBit 10, fallback := v.testBit 11, downlink := v.testBit 12
    long := v.testBit 13 }

/-- The header check (R414). -/
def headerOk (h : BitVec 24) : Bool :=
  let v := h.toNat
  let x := headerFields h
  v / 16384 % 256 == headerCrc v && v / 4194304 == 0 && x.rate != 3 && (x.length ≤ 120 || x.long) && (!x.long || x.downlink)

/-- Payload bytes that a header declares (R412). -/
def payloadLength (h : HeaderBits) : Nat := if h.long then 4 * h.length else h.length

/-! ### Bits (R418, R419) -/

/-- The bits of bytes, each byte least significant bit first (R418). -/
def bitsOf (l : List Byte) : List Bool := l.flatMap (fun b => (List.range 8).map b.getLsbD)

/-- A byte from its 8 bits, least significant first. -/
def byteOf (l : List Bool) : Byte := BitVec.ofNat 8 (l.foldr (fun b v => b.toNat + 2 * v) 0)

/-- Bytes from bits, 8 bits each. -/
def bytesOf (n : Nat) (l : List Bool) : List Byte := (List.range n).map (fun i => byteOf ((l.drop (8 * i)).take 8))

/-- `n` bits of the whitening sequence from the 9 bits of its register, oldest first (R418). -/
def whitening : Nat → List Bool → List Bool
  | 0, _ => []
  | n + 1, r => match r with
    | [] => []
    | a :: l => a :: whitening n (l ++ [xor (r.getD 5 false) a])

/-- Bits whitened, or made plain again: the two are the same (R418). -/
def whiten (l : List Bool) : List Bool := List.zipWith xor l (whitening l.length (List.replicate 9 true))

/-- A_n and B_n from the inputs, newest first (R419). -/
def convPair (u : List Bool) : Bool × Bool :=
  let b (i : Nat) : Bool := u.getD i false
  (xor (xor (xor (b 0) (b 2)) (b 3)) (xor (b 5) (b 6)), xor (xor (xor (b 0) (b 1)) (b 2)) (xor (b 3) (b 6)))

/-- Which of A_n and B_n are sent (the table Puncturing). -/
def punctured (rate n : Nat) : Bool × Bool :=
  if rate = 0 then (true, true)
  else if rate = 1 then (true, n % 2 == 0)
  else (n % 3 != 2, n % 3 != 1)

/-- The coded bits of inputs from input `n` on, with the newest inputs before them (R419). -/
def convolve (rate : Nat) : Nat → List Bool → List Bool → List Bool
  | _, _, [] => []
  | n, past, u :: us =>
    let w := (u :: past).take 7
    let (a, b) := convPair w
    let (sa, sb) := punctured rate n
    (if sa then [a] else []) ++ (if sb then [b] else []) ++ convolve rate (n + 1) w us

/-- The input that explains the coded bits of one step, given the inputs before it: from A_n where it is sent, else from B_n. -/
def stepInput (rate n : Nat) (past coded : List Bool) : Bool :=
  let z := convPair (false :: past)
  if (punctured rate n).1 then xor (coded.getD 0 false) z.1 else xor (coded.getD 0 false) z.2

/-- The inputs that coded bits stand for when they hold no error: `k` inputs from input `n` on. -/
def unconvolve (rate : Nat) : Nat → Nat → List Bool → List Bool → List Bool
  | 0, _, _, _ => []
  | k + 1, n, past, coded =>
    let u := stepInput rate n past coded
    let p := punctured rate n
    u :: unconvolve rate k (n + 1) ((u :: past).take 7) (coded.drop (p.1.toNat + p.2.toNat))

/-! ### Interleaving (R420) -/

/-- The symbol values of one block of `r` rows and `c` columns (R420). -/
def interleave (r c : Nat) (bits : List Bool) : List Nat :=
  (List.range c).map (fun i => (List.range r).foldl (fun v row => 2 * v + (bits.getD (row * c + i) false).toNat) 0)

/-- The coded bits of a block from the bits as sent, symbol by symbol, most significant first. -/
def deinterleave (r c : Nat) (sent : List Bool) : List Bool :=
  (List.range (r * c)).map (fun j => sent.getD ((j % c) * r + j / c) false)

/-- Blocks of a list of bits, `n` bits each, `k` of them. -/
def bitBlocks (n k : Nat) (l : List Bool) : List (List Bool) := (List.range k).map (fun i => (l.drop (n * i)).take n)

/-- The header's symbol values (R419, R420). -/
def headerSymbols (sl : Nat) (h : BitVec 24) : List Nat :=
  interleave (bitsPerSymbol sl) (headerColumns sl)
    (convolve 0 0 [] ((List.range 24).map h.getLsbD ++ List.replicate 6 false))

/-- The body's symbol values (R418 to R420). -/
def bodySymbols (sl rate : Nat) (body : List Byte) : List Nat :=
  let coded := convolve rate 0 [] (whiten (bitsOf body) ++ List.replicate 6 false)
  (bitBlocks (8 * bitsPerSymbol sl) (bodyBlocks sl coded.length) coded).flatMap (interleave (bitsPerSymbol sl) 8)

/-- The chirps of a frame: direction and cyclic start of each (R411). -/
def frameChirps (sl rate : Nat) (h : BitVec 24) (body : List Byte) : List (Bool × Nat) :=
  List.replicate 8 (false, 0) ++ List.replicate 2 (true, 0) ++
  (headerSymbols sl h ++ bodySymbols sl rate body).map (chirpOf sl)

/-- A decoded sequence of `k` inputs, and whether the coded bits hold no error. -/
def decodeBits (rate k : Nat) (coded : List Bool) : List Bool × Bool :=
  let u := unconvolve rate k 0 [] coded
  (u, convolve rate 0 [] u == coded.take (codedBits rate k))

/-- The header word decided from the bits of its symbols (R424). Which word a decoder picks from coded bits with errors is
not stated: a free value (log 34). -/
def decodeHeader (sl : Nat) (sent : List Bool) (s : State) : BitVec 24 × State :=
  let d := decodeBits 0 30 (deinterleave (bitsPerSymbol sl) (headerColumns sl) sent)
  if d.2 then (BitVec.ofNat 24 ((d.1.take 24).foldr (fun b v => b.toNat + 2 * v) 0), s)
  else
    let (v, s) := drawNat s
    (BitVec.ofNat 24 v, s)

/-- The body bytes decided from the bits of its symbols (R424), free where the coded bits hold errors (log 34). -/
def decodeBody (sl rate n : Nat) (sent : List Bool) (s : State) : List Byte × State :=
  let r := bitsPerSymbol sl
  let k := 8 * n + 6
  let coded := (bitBlocks (8 * r) (bodyBlocks sl (codedBits rate k)) sent).flatMap (deinterleave r 8)
  let d := decodeBits rate k coded
  if d.2 then (bytesOf n (whiten (d.1.take (8 * n))), s) else drawBytes n s

/-! ### The body (R415 to R417, R491) -/

/-- The fields of a body. -/
structure BodyBits where
  net     : Nat := 0
  node    : Nat := 0
  counter : Nat := 0
  sfn     : Nat := 0
  kind    : Nat := 2
  hop     : Option Nat := none
  deriving DecidableEq, Repr

/-- The body bytes before the payload (R415). -/
def bodyHead (b : BodyBits) : List Byte :=
  leBytes 4 (b.net % 16384 + 16384 * b.node) ++ leBytes 4 b.counter ++ leBytes 3 b.sfn ++ leBytes 1 b.kind ++
  (match b.hop with
    | some h => leBytes 4 h
    | none => [])

/-- The CCM nonce, for the identity that signs the frame (R491). -/
def linkNonce (identity : Nat) (b : BodyBits) : List Byte :=
  leBytes 3 (identity % 262144) ++ leBytes 4 b.counter ++ leBytes 3 b.sfn ++ leBytes 2 (b.net % 16384) ++ leBytes 1 1

/-- A protected body with its CRC (R416, R417). -/
def buildBody (key : List Byte) (identity : Nat) (h : BitVec 24) (b : BodyBits) (payload : List Byte) : List Byte :=
  let (c, mic) := ccmProtect key (linkNonce identity b) (leBytes 3 h.toNat ++ bodyHead b) payload
  let x := bodyHead b ++ c ++ mic
  x ++ leBytes 2 (crc16 x).toNat

/-- Does the CRC of a body match (R416)? -/
def bodyCrcOk (body : List Byte) : Bool := field body (body.length - 2) 2 == (crc16 (body.take (body.length - 2))).toNat

/-- The fields of a received body (R415). -/
def bodyFields (hop : Bool) (body : List Byte) : BodyBits :=
  { net := field body 0 4 % 16384, node := field body 0 4 / 16384, counter := field body 4 4, sfn := field body 8 3
    kind := field body 11 1, hop := if hop then some (field body 12 4) else none }

/-- Is a body malformed: a reserved kind, a direction its kind does not have, or LONG on another kind (R415)? -/
def bodyMalformed (h : HeaderBits) (b : BodyBits) : Bool :=
  !(b.kind == 1 || b.kind == 2 || b.kind == 3) || (h.downlink != (b.kind != 2)) || (h.long && b.kind != 1)

/-- The plaintext of a received body, none when its MIC fails (R417). -/
def openBody (key : List Byte) (identity : Nat) (h : BitVec 24) (b : BodyBits) (body : List Byte) : Option (List Byte) :=
  let n := (bodyHead b).length
  ccmOpen key (linkNonce identity b) (leBytes 3 h.toNat ++ bodyHead b) ((body.drop n).take (body.length - 10 - n))
    ((body.drop (body.length - 10)).take 8)

end Sys2Proof.Machine
end

