-- ==== Sys2Proof/Machine/LinkTx.lean ====
section
/-!
DEFINITION. LinkTx.lean: the operations of the link: network time, states, the transmit queue, ledgers, counters, transmit
reports, starting and ending a transmission (R430 to R442, R445, R451, R462 to R470, R476, R492).
-/

namespace Sys2Proof.Machine

/-- Ticks in `n` microseconds, rounded up. -/
def usTicks (n : Nat) : Nat := (n * 24576 + 99) / 100

/-! ### Network time (R445, R453) -/

/-- The timing and channels in force: a node's from its last beacon, otherwise the gather configuration (R453, R460). -/
def linkNet (s : State) : GatherConfig :=
  if s.set.link.role = 1 && s.link.gatherer.isSome then s.link.net else s.set.gather

/-- Gatherer time at a device time: a node adds its offset (R453). -/
def gatherTime (s : State) (t : Int) : Int := if s.set.link.role = 1 then t + s.link.offset.getD 0 else t

/-- Gatherer time now. -/
def linkTime (s : State) : Int := gatherTime s s.time.count.toNat

/-- Ticks of a superframe (R445). -/
def superTicks (g : GatherConfig) : Nat := 2 ^ g.p * ticksPerSecond

/-- The superframe number at a gatherer time (R445). -/
def sfnAt (g : GatherConfig) (t : Int) : Nat := ((t / (superTicks g : Int)) % 16777216).toNat

/-- T0 of the superframe that holds a gatherer time (R445). -/
def superStart (g : GatherConfig) (t : Int) : Int := t / (superTicks g : Int) * (superTicks g : Int)

/-- The hop slot number at a gatherer time (R445). -/
def hopSlot (t : Int) : Nat := ((t / (ticksPerSecond : Int)) % 4294967296).toNat

/-- How far superframe `a` lies after `b`, modulo 2^24. -/
def sfnDiff (a b : Nat) : Nat := (a + 16777216 - b % 16777216) % 16777216

/-- Is superframe `a` newer than `b` (R452)? -/
def sfnNewer (a b : Nat) : Bool := 1 ≤ sfnDiff a b && sfnDiff a b < 8388608

/-- Let time pass until a gatherer time; nothing passes when it is past. -/
def reach (t : Int) (s : State) : State := pass (t - linkTime s).toNat s

/-! ### States (R433, R444, R451) -/

/-- Does the link run: a role that runs in this mode, neither stopped nor stopping (R433, R444)? -/
def linkRuns (s : State) : Bool :=
  !s.link.stopped && !s.link.stopping && unitUp s 10 &&
  ((s.set.link.role == 1 && (s.set.mode == .survey || s.set.mode == .serve || s.set.mode == .sentry)) ||
   (s.set.link.role == 2 && (s.set.mode == .survey || s.set.mode == .serve)))

/-- The code of a link state (R451). -/
def LinkState.code : LinkState → Nat
  | .off => 0 | .lost => 1 | .synced => 2 | .gathering => 3

/-- The SFN of now; 0 while the link is OFF. -/
def currentSfn (s : State) : Nat := if s.link.state = .off then 0 else sfnAt (linkNet s) (linkTime s)

/-- Enter a link state, posting LINK_STATE when it changes (R451, R384). -/
def setLinkState (st : LinkState) (cause : Option Nat) (s : State) : State :=
  if s.link.state = st then s
  else
    let old := s.link.state
    let s := { s with link := { s.link with state := st } }
    post 0x8C04 {} (leBytes 1 st.code ++ leBytes 1 old.code ++ zeros 2 ++ leBytes 4 (currentSfn s) ++
      leBytes 2 s.time.epoch.toNat ++ zeros 6 ++ leBytes 8 s.time.count.toNat) cause s

/-- The radio makes for a state: at once when it is up, or when the transition under way completes (R429, R430). -/
def radioGo (r : Radio) (s : State) : State :=
  if s.link.radioTo.isSome then { s with link := { s.link with radioTo := some r } }
  else if s.link.radio = .sleep || s.link.radio = .standby then
    { s with link := { s.link with radio := .standby, radioTo := some r
                                   radioAt := now s + usTicks (if s.link.radio = .sleep then 115 else 110) } }
  else { s with link := { s.link with radio := r } }

/-- Where the radio goes when nothing is sent: a gatherer receives, a node receives in its windows, and a link that does
not run sleeps (R408, R444). -/
def radioRest (s : State) : State :=
  if !linkRuns s then { s with link := { s.link with radio := .sleep, radioTo := none, rx := [] } }
  else if s.clk.linkSynth != .locked then s
  else radioGo (if s.set.link.role = 2 || now s < s.link.listenTo then .rx else .synth) s

/-- The link follows the mode and its stopping: it starts in LOST or GATHERING, or holds its radio in SLEEP (R444, R451). -/
def linkRefresh (cause : Option Nat) (s : State) : State :=
  if linkRuns s then
    let s := if s.link.state = .off then
        setLinkState (if s.set.link.role = 2 then .gathering else .lost) cause
          { s with link := { s.link with window := 1, listenTo := 0, beaconSfn := none, slotSfn := none } }
      else s
    if s.link.radio = .sleep then radioRest s else s
  else if s.link.air.isSome then s
  else radioRest s

/-- Is a receiver on: the radio receives, and for a node within one of its windows (R408)? -/
def receives (s : State) : Bool :=
  linkRuns s && s.link.radio == .rx && s.link.radioTo.isNone && s.link.air.isNone && s.clk.linkSynth == .locked &&
  s.clk.sysPll == .locked && s.clk.refOn && (s.set.link.role == 2 || now s ≤ s.link.listenTo)

/-! ### Statistics (R477) -/

/-- Count one in GET_LINK_STATS; the count at offset 4 i (R477). -/
def countLink (i : Nat) (s : State) : State := { s with stats := { s.stats with c := modAt s.stats.c i (· + 1) } }

/-! ### Counters (R50, R467, R490) -/

/-- Are the link counters available (R467, R490)? The Mortise in its error state protects no frame (R503). -/
def countersOk (s : State) : Bool :=
  s.link.counterOk && ((s.sec.keys.getD 1 none).isSome) && ((s.sec.keys.getD 2 none).isSome) && s.sec.state == .operational

/-- The link key, empty while the slot is, and in the error state, in which the Mortise checks no frame (R503). -/
def linkKey (s : State) : List Byte := if s.sec.state = .operational then (s.sec.keys.getD 1 none).getD [] else []

/-- Count a request to the DRBG (R500). -/
def drbgRequest (s : State) : State := { s with sec := { s.sec with requests := s.sec.requests + 1 } }

/-- The network slot key. -/
def slotKey (s : State) : List Byte := (s.sec.keys.getD 2 none).getD []

/-- What the link counters record holds now (R50). -/
def countersNow (s : State) : Counters :=
  { reserved := s.link.reserved, lost := !s.link.counterOk, ledgers := s.link.buckets, full := s.link.allUsed
    snapSecond := second s }

/-- Write the link counters record (R50). -/
def writeCounters (s : State) : State := (queueWrite .counters (.counters (countersNow s)) 36864 false s).2

/-- Take the next frame counter. At the end of its reservation the next block of 1,024 is reserved and written (R50). The
value 0xFFFF_FFFF is the last one given (R467). -/
def takeCounter (s : State) : Nat × State :=
  let c := s.link.counter
  let s := { s with link := { s.link with counter := min (c + 1) 0xFFFFFFFF } }
  if s.link.reserved ≤ s.link.counter && s.link.counterOk then
    (c, writeCounters { s with link := { s.link with reserved := min (s.link.counter + 1024) 0xFFFFFFFF } })
  else (c, s)

/-! ### Duty-cycle ledgers (R469, R470) -/

/-- Units charged to a sub-band in the last 3,600 buckets (R469). -/
def unitsUsed (s : State) (i : Nat) : Nat :=
  let t : Int := second s
  let inWindow (k : Int) : Bool := t - 3600 < k && k ≤ t
  let full := (s.link.allUsed.map (fun x => 15 * (min x.2 (t + 1) - max x.1 (t - 3599)).toNat)).sum
  full + (((s.link.buckets.getD i []).filter (fun x => inWindow x.1)).map (·.2)).sum

/-- Remaining units of a sub-band (R469). -/
def unitsLeft (s : State) (i : Nat) : Nat := match s.sec.profile with
  | some p => (p.subs.getD i {}).budget * 15 - unitsUsed s i
  | none => 0

/-- Remaining budget in ms. -/
def budgetMs (s : State) (i : Nat) : Nat := unitsLeft s i * 1000 / 15

/-- Put units into buckets from a second on, 15 at most in each (R469). -/
def fillBuckets : Nat → Int → Nat → List (Int × Nat) → List (Int × Nat)
  | 0, _, _, l => l
  | fuel + 1, sec, units, l =>
    if units = 0 then l
    else
      let old := ((l.find? (fun x => x.1 == sec)).map (·.2)).getD 0
      let put := min units (15 - old)
      fillBuckets fuel (sec + 1) (units - put)
        (if put = 0 then l else (sec, old + put) :: l.filter (fun x => x.1 != sec))

/-- Charge a frame to a sub-band's ledger; buckets older than 3,600 s are dropped (R469). -/
def chargeLedger (i units : Nat) (s : State) : State :=
  let t : Int := second s
  let l := s.link.buckets ++ List.replicate (i + 1 - s.link.buckets.length) []
  let b := (l.getD i []).filter (fun x => t - 3600 < x.1)
  { s with link := { s.link with buckets := setAt l i (fillBuckets (units + 3600) t units b) } }

/-! ### The transmit queue (R462 to R466) -/

/-- Change a queued frame. -/
def modTx (counter : Nat) (g : TxFrame → TxFrame) (s : State) : State :=
  { s with link := { s.link with queue := s.link.queue.map (fun x => if x.counter = counter then g x else x) } }

/-- A queued frame. -/
def txAt (s : State) (counter : Nat) : Option TxFrame := s.link.queue.find? (·.counter == counter)

/-- Take a frame off the queue. -/
def removeTx (counter : Nat) (s : State) : State :=
  { s with link := { s.link with queue := s.link.queue.filter (fun x => x.counter != counter) } }

/-- Drop a frame with TX_DROPPED (R384). -/
def dropTx (fr : TxFrame) (reason : Nat) (cause : Option Nat) (s : State) : State :=
  post 0x8C01 {} (leBytes 4 fr.counter ++ leBytes 1 reason ++ leBytes 1 fr.repeats ++ zeros 2) cause
    (countLink 17 (removeTx fr.counter s))

/-- Drop every queued frame (R433). -/
def dropAllTx (reason : Nat) (cause : Option Nat) (s : State) : State :=
  s.link.queue.foldl (fun t fr => dropTx fr reason cause t) s

/-- DUTY_EXHAUSTED (R384). -/
def postExhausted (sub counter needMs : Nat) (s : State) : State :=
  post 0x8C02 {} (leBytes 1 sub ++ zeros 3 ++ leBytes 4 counter ++ leBytes 4 (budgetMs s sub) ++ leBytes 4 needMs) none s

/-- Defer a frame within its repeat budget, with TX_DEFERRED; beyond it the frame is dropped (R431, R464, R470, R492). For the
duty cycle, DUTY_EXHAUSTED names the sub-band and the airtime first. -/
def deferTx (fr : TxFrame) (reason next : Nat) (duty : Option (Nat × Nat)) (s : State) : State :=
  if fr.repeats < s.set.link.repeats then
    let s := modTx fr.counter (fun x => { x with repeats := x.repeats + 1, awaiting := false, dueSfn := next }) s
    post 0x8C00 {} (leBytes 4 fr.counter ++ leBytes 4 next ++ leBytes 1 reason ++ leBytes 1 (fr.repeats + 1) ++ zeros 2) none
      (countLink 16 s)
  else match duty with
    | some (sub, need) => dropTx fr 1 none (postExhausted sub fr.counter need s)
    | none => dropTx fr 0 none s

/-- The payload of a link frame Shaving (R476). -/
def linkShaving (record kind flags status node counter sfn hop centre sl width rate repeats : Nat) (strength power offset : Int)
    (payload : List Byte) : List Byte :=
  leBytes 1 record ++ leBytes 1 kind ++ leBytes 1 flags ++ leBytes 1 status ++ leBytes 4 node ++ leBytes 4 counter ++
  leBytes 4 sfn ++ leBytes 4 hop ++ leBytes 4 centre ++ leBytes 1 sl ++ leBytes 1 width ++ leBytes 1 rate ++ leBytes 1 repeats ++
  leInt 2 strength ++ leInt 2 power ++ leInt 4 offset ++ leBytes 2 payload.length ++ zeros 2 ++ payload

/-- Offer a link frame Shaving to the ring that output 14 is bound to, with the instant its time-stamp by the present count names
(R110, R476). -/
def offerLink (stamp : Tick) (p : List Byte) (s : State) : State := match boundRing s 14 6 {} with
  | some n => offerShaving n { kind := 0x50, epoch := (instantAt s stamp).epoch, stamp := (instantAt s stamp).tick } p 0 s
  | none => s

/-- The transmit report of a frame, which leaves the queue (R464, R466, R476). -/
def reportTx (fr : TxFrame) (status : Nat) (stamp : Tick) (s : State) : State :=
  let c := fr.lastTx.getD (0, 0, 0, 0, 0)
  let down := s.set.link.role = 2
  offerLink stamp (linkShaving 1 (if down then 3 else 2)
    (fr.again.toNat + 2 * fr.lastHop.isSome.toNat + (if down then 4 else 0))
    status (if down then fr.dest else s.set.link.own) fr.counter (fr.lastSfn.getD 0) (fr.lastHop.getD 0) c.1 c.2.1 c.2.2.1 c.2.2.2.1 fr.repeats
    (-32768) (5 * c.2.2.2.2) 0 []) (removeTx fr.counter s)

/-! ### Starting and ending a transmission (R430 to R434, R441, R469) -/

/-- What is sent: the frame's header and body fields, its payload, the waveform's settings and the channel as applied. -/
structure TxAsk where
  head    : HeaderBits
  body    : BodyBits
  payload : List Byte
  sl      : Nat
  centre  : Nat
  width   : Nat
  deriving DecidableEq, Repr

/-- The symbols of what is sent. -/
def askSymbols (a : TxAsk) : Nat := frameSymbols a.sl a.head.rate (bodyLength a.payload.length a.body.hop.isSome)

/-- The airtime in ticks. -/
def askTicks (a : TxAsk) : Nat := symbolTicks a.sl a.width (askSymbols a)

/-- The drive of LINK_RF for a sub-band, in 0.5 dB: as asked, and as limited to -10 to +22 dBm (R441). -/
def driveOf (s : State) (sub : Nat) : Int × Int :=
  let top : Int := ((s.sec.profile.map (fun p => (p.subs.getD sub {}).power)).getD 60)
  let d := min s.set.link.power top - (s.set.link.feGain : Int)
  (d, clampInt (-20) 44 d)

/-- Post LINK_DRIVE_LIMITED once for each LINK_CONFIG (R441). -/
def noteDrive (d : Int) (s : State) : State :=
  if 44 < d && !s.stats.driveNoted then
    note 0x0701 0xFF 0 (d % 4294967296).toNat { s with stats := { s.stats with driveNoted := true } }
  else s

/-- Put a frame on air: receptions in progress are abandoned and counted, the ledger is charged in full, every tuner's AGC
freezes, that of the HF input with them (R145, R432, R469, R470; DESIGN CHOICE, log 162). -/
def goOnAir (a : TxAsk) (sub : Nat) (frame : Option Nat) (last : Bool) (s : State) : State :=
  let d := driveOf s sub
  let s := noteDrive d.1 s
  let h := headerWord a.head
  let body := buildBody (linkKey s) s.set.link.own h a.body a.payload
  let s := chargeLedger sub (symbolUnits a.sl a.width (askSymbols a)) s
  let s := { s with stats := { s.stats with own := s.stats.own + BitVec.ofNat 32 s.link.rx.length } }
  let s := { s with
    link := { s.link with
      radio := .tx, rx := [], heldTx := none
      air := some { frame := frame, started := now s, airtime := askTicks a, last := last, channel := a.centre } }
    front := { s.front with
      txUntil := none
      tuners := s.front.tuners.map (fun u => { u with frozenAt := some (now s - usTicks 25) }) } }
  emit (.onAir a.centre a.width a.sl a.head.rate d.2 (frameChirps a.sl a.head.rate h body)) (countLink 14 s)

/-- Mark a queued frame as sent (R464, R476). -/
def markSent (a : TxAsk) (sub : Nat) (fr : TxFrame) (s : State) : State :=
  let d := (driveOf s sub).2 + (s.set.link.feGain : Int)
  modTx fr.counter (fun x => { x with
    onAir := true, again := x.onAir, lastHop := a.body.hop, awaiting := s.set.link.role == 1, lastSfn := some a.body.sfn
    lastTx := some (a.centre, a.sl, a.width, a.head.rate, d) }) s

/-- Send a queued frame that is due, after the checks of R467, R437, R440, R492 and R470 in that order (log 35). `next` is the
superframe of its next attempt. -/
def sendTx (a : TxAsk) (fr : TxFrame) (next : Nat) (last : Bool) (s : State) : State :=
  if !countersOk s || fr.counter = 0xFFFFFFFF then dropTx fr 2 none s
  else match s.sec.profile with
    | none => dropTx fr 4 none s
    | some p =>
      match moveChannel p a.centre a.width with
      | none => dropTx fr 4 none s
      | some (c, w) =>
        match permittedBy p c w with
        | none => dropTx fr 4 none s
        | some sub =>
          let a := { a with centre := c, width := w }
          if fr.lastSfn = some a.body.sfn then deferTx fr 4 next none s
          else if unitsLeft s sub * ticksPerSecond < 15 * askTicks a then
            deferTx fr 1 next (some (sub, symbolMs a.sl a.width (askSymbols a))) s
          else goOnAir a sub (some fr.counter) last (markSent a sub fr s)

/-- Can a transmission start now: VDD_PA is good, the radio is up and its synthesiser settled, nothing else is on air and
the modem's clocks run (R84, R95, R431)? -/
def radioReady (s : State) : Bool :=
  s.clk.linkSynth == .locked && s.link.radioTo.isNone && s.link.radio != .sleep && s.link.radio != .standby

/-- Can the link transmit at all: it runs, VDD_PA is good, its modem is clocked and nothing is on air? -/
def mayTransmit (s : State) : Bool :=
  linkRuns s && s.pwr.railsGood.contains .vddPa && s.clk.sysPll == .locked && s.clk.refOn && s.link.air.isNone

/-- A GPIO4 configuration that waited for the frame on air is applied (R583). -/
def applyGpio4 (s : State) : State := match s.link.gpio4 with
  | some g => setSettings { s.set with gpio := setAt s.set.gpio 4 g } { s with link := { s.link with gpio4 := none } }
  | none => s

/-- A transmission ends, whole or cut off: the PA goes off, the AGC freeze ends 50 us later, the last copy of a downlink yields
its report, and the radio goes on (R145, R434, R466). -/
def endAir (s : State) : State := match s.link.air with
  | none => s
  | some x =>
    let s := emit .paOff { s with
      link := { s.link with air := none, radio := .synth }
      front := { s.front with txUntil := some (now s + usTicks 50) } }
    let s := applyGpio4 s
    let s := match x.frame.bind (txAt s) with
      | some fr => if x.last then reportTx fr 1 s.time.count s else s
      | none => s
    radioRest s

/-- The PA is turned off under a transmission: the frame counts as sent and not acknowledged (R434). -/
def cutAir (s : State) : State := if s.link.air.isSome then endAir s else s

/-! ### Stopping and starting (R406, R433) -/

/-- The end of a stop: the radio sleeps, the state is OFF, the settings that waited take effect, LINK_STOPPED is posted and
the link starts again where it may (R406, R433, R477). -/
def finishStop (cause : Option Nat) (s : State) : State :=
  let s := { s with link := { s.link with radio := .sleep, radioTo := none, rx := [], heldTx := none } }
  let s := setLinkState .off cause s
  let s := { s with link := { s.link with stopping := false } }
  let s := post 0x8C03 {} [] cause s
  match s.link.newConfig with
  | none => s
  | some c =>
    let s := if s.set.link.role ≠ c.role then { s with stats := {} } else s
    let s := setSettings { s.set with link := c } { s with link := { s.link with newConfig := none, stopped := false } }
    linkRefresh cause (noteHarmonics [0, 1, 2, 3, 4] cause s)

/-- Begin a stop: receptions are abandoned and queued frames dropped. A link that does not run in this mode stops at once
(R336, R433). -/
def beginStop (cause : Option Nat) (s : State) : State :=
  let ran := linkRuns s || s.link.air.isSome
  let s := dropAllTx 3 cause { s with link := { s.link with rx := [], heldTx := none, stopping := true } }
  if ran then s else finishStop cause s

end Sys2Proof.Machine
end

