-- ==== Sys2Proof/Machine/Link.lean ====
section
/-!
DEFINITION. Link.lean: the link's commands, its configuration and the events by which it stops and starts (R405, R406, R433,
R440, R447, R462, R468, R472, R477, R84).
-/

namespace Sys2Proof.Machine

/-! ### LINK_CONFIG (R405, R406) -/

/-- LINK_CONFIG's fields as written (R405). -/
def rawLink (p : List Byte) : LinkConfig :=
  { role := field p 0 1, sl := field p 1 1, rate := field p 2 1, frontEnd := field p 3 1 % 4, net := field p 4 2
    own := field p 8 4, power := fieldInt p 12 1, feGain := field p 13 1, detect := field p 14 1, capture := field p 15 1
    repeats := field p 16 1, beacon := field p 20 4, extDelay := field p 24 4 }

/-- LINK_CONFIG's fields clamped, and by the profile where R441 and R442 say so. The beacon channel keeps the value of R407;
R440 applies where it is used and read back. -/
def clampLink (s : State) (c : LinkConfig) : LinkConfig :=
  let role := satNat 2 c.role
  let own := if role = 2 then clampNat 250001 262142 c.own else if role = 1 then clampNat 1 250000 c.own
    else clampNat 1 262142 c.own
  let power := clampInt (-20) 60 c.power
  let gain := satNat 60 c.feGain
  { role := role, sl := clampNat 1 6 c.sl, rate := satNat 2 c.rate, frontEnd := c.frontEnd, net := satNat 16383 c.net
    own := own
    power := match s.sec.profile with
      | some x => min power (highestPower x)
      | none => power
    feGain := match s.sec.profile with
      | some x => min gain (lowestPower x + 20).toNat
      | none => gain
    detect := clampNat 4 30 c.detect, capture := clampNat 3 15 c.capture, repeats := satNat 7 c.repeats
    beacon := clampCentre c.beacon, extDelay := satNat 40000 c.extDelay }

/-- The link configuration as it reads back: the beacon channel and power as applied (R440, R441). -/
def appliedLink (s : State) (c : LinkConfig) : LinkConfig :=
  { c with
    beacon := if c.role = 2 then (appliedChannel s c.beacon 1).1 else c.beacon
    power := match s.sec.profile with
      | some x => min c.power (highestPower x)
      | none => c.power }

/-- The payload of LINK_CONFIG (R405). -/
def linkBytes (c : LinkConfig) : List Byte :=
  leBytes 1 c.role ++ leBytes 1 c.sl ++ leBytes 1 c.rate ++ leBytes 1 c.frontEnd ++ leBytes 2 c.net ++ zeros 2 ++
  leBytes 4 c.own ++ leInt 1 c.power ++ leBytes 1 c.feGain ++ leBytes 1 c.detect ++ leBytes 1 c.capture ++ leBytes 1 c.repeats ++
  zeros 3 ++ leBytes 4 c.beacon ++ leBytes 4 c.extDelay ++ zeros 4

/-- Does a change of settings stop the link (R406)? -/
def identityChange (a b : LinkConfig) : Bool :=
  a.role != b.role || a.net != b.net || a.own != b.own || a.beacon != b.beacon || a.extDelay != b.extDelay

/-- LINK_CONFIG's checks (R406, R443). -/
def linkConfigChecks (f : CmdFrame) (s : State) : Checks :=
  let c := clampLink s (rawLink f.payload)
  { lenOk := f.payload.length = 32, modes := modesIYSE, modeOk := !(c.role == 2 && s.set.mode == .sentry)
    holds := s.link.stopping
    cap := admission s { s with link := { s.link with newConfig := some c } }
    clamps := appliedLink s c != rawLink f.payload }

/-- LINK_CONFIG (R406, R433, R477). -/
def linkConfigBody (f : CmdFrame) (queued : Bool) (s : State) : State × Option Reply :=
  let raw := rawLink f.payload
  let c := clampLink s raw
  let clamped := appliedLink s c != raw
  let s := { s with stats := { s.stats with driveNoted := false } }
  let cause := some f.tag
  if identityChange s.set.link c && s.set.link.role ≠ 0 && !s.link.stopped then
    let s := beginStop cause { s with link := { s.link with newConfig := some c } }
    if s.link.stopping then
      (deferOn .linkStop { deferredOf 0x0C00 f queued with clamped := clamped } s, none)
    else (s, some { target := f.target, clamped := clamped })
  else
    let s := if identityChange s.set.link c then dropAllTx 3 cause s else s
    let s := if s.set.link.role ≠ c.role then { s with stats := {} } else s
    let s := setSettings { s.set with link := c } s
    let s := if c.role ≠ 0 then { s with link := { s.link with stopped := false } } else s
    (noteHarmonics [0, 1, 2, 3, 4] cause (linkRefresh cause s), some { target := f.target, clamped := clamped })

/-- LINK_CONFIG once taken. -/
def handleLinkConfig (f : CmdFrame) (queued : Bool) (s : State) : State :=
  handle 0x0C00 f queued (linkConfigChecks f s) (linkConfigBody f queued) s

/-- LINK_CONFIG (R405, R406). -/
def execLinkConfig (f : CmdFrame) (s : State) : Host.Outcome State Fault Refusal :=
  .next (command 0x0C00 f (linkConfigChecks f) (linkConfigBody f false) s)

/-- The checks of GET_LINK_CONFIG. -/
def getLinkConfigChecks (f : CmdFrame) (_ : State) : Checks :=
  { lenOk := f.payload.length = 0, modes := modesAll }

/-- The effect and the reply of GET_LINK_CONFIG. -/
def getLinkConfigBody (f : CmdFrame) (s : State) : State × Option Reply :=
  (s, replyWith f (linkBytes (appliedLink s (chargedLink s))))

/-- GET_LINK_CONFIG (R359, R440, R441). -/
def execGetLinkConfig (f : CmdFrame) (s : State) : Host.Outcome State Fault Refusal :=
  .next (command 0x0C01 f (getLinkConfigChecks f) (getLinkConfigBody f) s)

/-! ### LINK_SEND, LINK_STOP and ring 28 (R433, R462, R468) -/

/-- Queue a frame, which takes the next counter (R462). -/
def enqueueTx (dest : Nat) (payload : List Byte) (s : State) : Nat × State :=
  let (c, s) := takeCounter s
  (c, { s with link := { s.link with
    queue := s.link.queue ++ [{ counter := c, dest := if s.set.link.role = 2 then clampNat 1 262143 dest else 0, payload := payload }] } })

/-- The checks of LINK_SEND. -/
def linkSendChecks (f : CmdFrame) (s : State) : Checks :=
  { lenOk := 8 ≤ f.payload.length && f.payload.length ≤ 128, modes := [.survey, .serve, .sentry]
    noObj := [failIf (s.set.link.role = 0) 3 1 0xFFFF]
    cap := [failIf (64 ≤ s.link.queue.length) 4 5 0xFFFF]
    clamps := s.set.link.role = 2 && clampNat 1 262143 (field f.payload 0 4) != field f.payload 0 4 }

/-- The effect and the reply of LINK_SEND. -/
def linkSendBody (f : CmdFrame) (s : State) : State × Option Reply :=
  let dest := field f.payload 0 4
  let clamped := s.set.link.role = 2 && clampNat 1 262143 dest != dest
  let (c, s) := enqueueTx dest (f.payload.drop 8) s
  (s, some { target := f.target, clamped := clamped, payload := leBytes 4 c })

/-- LINK_SEND (R462). -/
def execLinkSend (f : CmdFrame) (s : State) : Host.Outcome State Fault Refusal :=
  .next (command 0x0C02 f (linkSendChecks f) (linkSendBody f) s)

/-- The checks of LINK_STOP. -/
def linkStopChecks (f : CmdFrame) (_ : State) : Checks :=
  { lenOk := f.payload.length = 0, modes := modesIYSE }

/-- The effect and the reply of LINK_STOP. -/
def linkStopBody (f : CmdFrame) (s : State) : State × Option Reply :=
  let s := if s.link.stopped || s.link.stopping then s
    else beginStop (some f.tag) { s with link := { s.link with stopped := true } }
  (s, replyWith f [])

/-- LINK_STOP (R336, R337, R433). -/
def execLinkStop (f : CmdFrame) (s : State) : Host.Outcome State Fault Refusal :=
  .next (command 0x0C03 f (linkStopChecks f) (linkStopBody f) s)

/-- LINK_STOPPED: 10 us after any frame on air ends, the stop is complete; the LINK_CONFIG that waited answers, and those held
behind it are handled (R338, R406, R433). -/
def execLinkStopped (s : State) : Host.Outcome State Fault Refusal :=
  .next (
    if !s.link.stopping then s
    else
      let s := match s.link.air with
        | some x => endAir (passTo (x.started + x.airtime) s)
        | none => s
      let s := finishStop (waiterTag .linkStop s) (pass (usTicks 10) s)
      rerunHeld [0x0C00] (fun _ _ t => t.link.stopping) (fun _ f t => handleLinkConfig f true t) (release .linkStop plainReply s))

/-- Is an entry of ring 28 a frame to send (R468)? -/
def hostFrameOk (b : List Byte) : Bool :=
  let n := field b 68 2
  field b 28 2 == (crc16 (b.take 28)).toNat && field b 32 1 == 2 && n ≤ 120 && field b 4 2 == 40 + n && b.length == 72 + n

/-- RING28_ENTRY_TAKEN (R341, R468). The resident loader of recovery boot serves no link, and leaves the ring as it is (R90). -/
def execRing28EntryTaken (s : State) : Host.Outcome State Fault Refusal :=
  .next (
    match (ringAt s 28).entries with
    | [] => s
    | e :: _ =>
      if !s.pwr.commands || s.pwr.stage == .recovery || s.head.restarting || s.set.mode == .hold || s.set.mode == .compat || s.clk.sysPll != .locked ||
          (s.set.link.role != 0 && 64 ≤ s.link.queue.length) then s
      else
        let t := frameTaken 28 s
        if s.set.link.role ≠ 0 && hostFrameOk e.bytes then
          (enqueueTx (field e.bytes 36 4) ((e.bytes.drop 72).take (field e.bytes 68 2)) t).2
        else countLink 21 t)

/-! ### GATHER_CONFIG (R447) -/

/-- One channel entry (R447). -/
def readChannel (p : List Byte) (off : Nat) : LinkChannel := { centre := field p off 4, width := field p (off + 4) 1 }

/-- GATHER_CONFIG's fields as written. -/
def rawGather (p : List Byte) : GatherConfig :=
  { p := field p 0 1, w := field p 1 1, slots := field p 4 2, slotMs := field p 6 2, startMs := field p 8 2
    downMs := field p 10 2, groups := [field p 16 4, field p 20 4, field p 24 4, field p 28 4]
    channels := (List.range (field p 2 1)).map (fun i => readChannel p (32 + 8 * i)) }

/-- A channel whose sweep is moved inside the receive span about channel 0 (R447). -/
def intoSpan (c0 : Nat) (c : LinkChannel) : LinkChannel :=
  let h := widthHz c.width / 2
  { c with centre := clampNat (c0 - 3200000 + h) (c0 + 3200000 - h) c.centre }

/-- GATHER_CONFIG's fields clamped, in the order of R447. -/
def clampGather (c : GatherConfig) : GatherConfig :=
  let p := clampNat 4 9 c.p
  let all := 2 ^ p * 1000
  let slotMs := min (clampNat 10 60000 c.slotMs) (all - 500)
  let startMs := min (clampNat 500 30000 c.startMs) (all - slotMs)
  let chans := c.channels.map (fun x => { x with centre := clampCentre x.centre, width := satNat 2 x.width : LinkChannel })
  { p := p, w := satNat 7 c.w, slotMs := slotMs, startMs := startMs, downMs := min c.downMs (startMs - 500)
    slots := min (clampNat 1 4096 c.slots) ((all - startMs) / slotMs)
    groups := c.groups.map (fun g => if g < 250001 || 262142 < g then 0 else g)
    channels := match chans with
      | [] => []
      | c0 :: l => c0 :: l.map (intoSpan c0.centre) }

/-- The payload of GATHER_CONFIG (R447). -/
def gatherBytes (c : GatherConfig) : List Byte :=
  leBytes 1 c.p ++ leBytes 1 c.w ++ leBytes 1 c.channels.length ++ zeros 1 ++ leBytes 2 c.slots ++ leBytes 2 c.slotMs ++
  leBytes 2 c.startMs ++ leBytes 2 c.downMs ++ zeros 4 ++ c.groups.flatMap (leBytes 4) ++
  c.channels.flatMap (fun x => leBytes 4 x.centre ++ leBytes 1 x.width ++ zeros 3)

/-- The checks of GATHER_CONFIG. -/
def gatherConfigChecks (f : CmdFrame) (s : State) : Checks :=
  let n := field f.payload 2 1
  { lenOk := f.payload.length = 32 + 8 * n, bad := [failIf (n < 1 || 8 < n) 6 2 2], modes := modesIS
    cap := admission s { s with link := { s.link with gatherTo := some (clampGather (rawGather f.payload)) } }
    clamps := clampGather (rawGather f.payload) != rawGather f.payload }

/-- The effect and the reply of GATHER_CONFIG. -/
def gatherConfigBody (f : CmdFrame) (s : State) : State × Option Reply :=
  let raw := rawGather f.payload
  let c := clampGather raw
  (settingsDirty { s with link := { s.link with gatherTo := some c } },
    some { target := f.target, clamped := c != raw })

/-- GATHER_CONFIG (R443, R447): it waits for the next superframe boundary. -/
def execGatherConfig (f : CmdFrame) (s : State) : Host.Outcome State Fault Refusal :=
  .next (command 0x0C04 f (gatherConfigChecks f) (gatherConfigBody f) s)

/-- The gather configuration that waits takes effect (R146, R447). -/
def applyGather (s : State) : State := match s.link.gatherTo with
  | some c => noteHarmonics [0, 1, 2, 3, 4] none
      { s with set := { s.set with gather := c }, link := { s.link with gatherTo := none } }
  | none => s

/-- The first superframe boundary after a gatherer time. -/
def nextBoundary (s : State) : Int := superStart (linkNet s) (linkTime s) + (superTicks (linkNet s) : Int)

/-- GATHER_CONFIG_APPLY (R447). -/
def execGatherConfigApply (s : State) : Host.Outcome State Fault Refusal :=
  .next (if s.link.gatherTo.isNone then s else applyGather (reach (nextBoundary s) s))

/-- The checks of GET_GATHER_CONFIG. -/
def getGatherConfigChecks (f : CmdFrame) (_ : State) : Checks :=
  { lenOk := f.payload.length = 0, modes := modesAll }

/-- The effect and the reply of GET_GATHER_CONFIG. -/
def getGatherConfigBody (f : CmdFrame) (s : State) : State × Option Reply :=
  (s, replyWith f (gatherBytes (s.link.gatherTo.getD s.set.gather)))

/-- GET_GATHER_CONFIG (R359, R447). -/
def execGetGatherConfig (f : CmdFrame) (s : State) : Host.Outcome State Fault Refusal :=
  .next (command 0x0C05 f (getGatherConfigChecks f) (getGatherConfigBody f) s)

/-! ### GET_LINK_STATS (R477) and the guard (R454) -/

/-- The guard at a device time, in ticks (R454). -/
def guardAt (s : State) (t : Int) : Nat := ms 2 + (t - s.link.lastBeacon).toNat * 4 / 1000000

/-- The checks of GET_LINK_STATS. -/
def getLinkStatsChecks (f : CmdFrame) (_ : State) : Checks :=
  { lenOk := f.payload.length = 0, modes := modesAll }

/-- The payload of GET_LINK_STATS (R477). -/
def statsBytes (s : State) : List Byte :=
  let g := if s.link.state = .synced then guardAt s s.time.count.toNat * 100 / 24576 else 0
  s.stats.c.flatMap (fun x => leBytes 4 x.toNat) ++ leBytes 1 s.link.state.code ++ zeros 3 ++
    leBytes 4 (currentSfn s) ++ leBytes 4 g ++
    (List.range 16).flatMap (fun i => leBytes 4
      (if i < ((s.sec.profile.map (·.subs.length)).getD 0) then budgetMs s i else 0)) ++
    leBytes 4 s.stats.own.toNat

/-- The effect and the reply of GET_LINK_STATS. -/
def getLinkStatsBody (f : CmdFrame) (s : State) : State × Option Reply := (s, replyWith f (statsBytes s))

/-- GET_LINK_STATS (R477). -/
def execGetLinkStats (f : CmdFrame) (s : State) : Host.Outcome State Fault Refusal :=
  .next (command 0x0C06 f (getLinkStatsChecks f) (getLinkStatsBody f) s)

/-! ### The recent-frames table and VDD_PA -/

/-- RECENT_FRAME_EXPIRY: entries leave W + 9 superframes after the one in which they entered (R472). -/
def execRecentFrameExpiry (s : State) : Host.Outcome State Fault Refusal :=
  .next (
    let net := linkNet s
    let life := net.w + 9
    let age (t : State) (e : Nat) : Nat := sfnDiff (sfnAt net (linkTime t)) e
    match s.link.recent with
    | [] => s
    | _ :: _ =>
      let oldest := (s.link.recent.map (fun x => age s x.2.2)).foldl max 0
      let s := if life ≤ oldest then s
        else reach (superStart net (linkTime s) + ((life - oldest) * superTicks net : Nat)) s
      { s with link := { s.link with recent := s.link.recent.filter (fun x => age s x.2.2 < life) } })

/-- VDD_PA_LOW: the link receives but does not transmit, and the device posts a note; a frame on air is cut off (R84). -/
def execVddPaLow (s : State) : Host.Outcome State Fault Refusal :=
  .next (
    if s.pwr.railsGood.contains .vddPa then
      cutAir (note 0x0201 0xFF 0 0 { s with pwr := { s.pwr with railsGood := s.pwr.railsGood.filter (· != .vddPa) } })
    else s)

/-- VDD_PA_GOOD: the link may transmit again (R84). -/
def execVddPaGood (s : State) : Host.Outcome State Fault Refusal :=
  .next (
    if s.pwr.railsGood.contains .vddPa then s
    else { s with pwr := { s.pwr with railsGood := s.pwr.railsGood ++ [.vddPa] } })

end Sys2Proof.Machine
end

