-- ==== Sys2Proof/Machine/Follow.lean ====
section
/-!
DEFINITION. Follow.lean: follow objects and probes: their commands, Gauge's measurements, retargets, dwells and glances (R256
to R274, R379).
-/

namespace Sys2Proof.Machine

/-! ### Follow objects (R256 to R259) -/

/-- The identities of a FOLLOW_SET payload; unknown types are ignored (R257). -/
def readIdents (p : List Byte) : List (Nat × Nat) :=
  ((List.range (clampNat 1 4 (field p 14 1))).map (fun n => (field p (24 + 8 * n) 1, field p (28 + 8 * n) 4))).filter
    (fun x => x.1 = 1 || x.1 = 2 || x.1 = 3)

/-- The members of a payload; a stale or absent one is ignored (R257). -/
def readMembers (s : State) (p : List Byte) : List Nat :=
  ((List.range (satNat 3 (field p 15 1))).map (fun n => handleAt p (56 + 4 * n))).filterMap
    (fun h => if judgeRx s h false = .live then some h.index else none)

/-- The host candidates of a payload (R154, R257). -/
def readHosts (p : List Byte) : List (Nat × Kind) :=
  (List.range (satNat 8 (field p 16 1))).map (fun n =>
    let k := kindOf (field p (68 + 8 * n) 1)
    (clampFreq k (field p (72 + 8 * n) 4), k))

/-- Was a value of a FOLLOW_SET payload clamped (R257)? -/
def followClamped (p : List Byte) : Bool :=
  1 < field p 8 1 || 40 < field p 10 1 || (40 : Int) < fieldInt p 11 1 || fieldInt p 11 1 < -40 ||
  clampNat 1 300 (field p 12 2) != field p 12 2 || clampNat 1 4 (field p 14 1) != field p 14 1 ||
  3 < field p 15 1 || 8 < field p 16 1 ||
  (List.range (satNat 8 (field p 16 1))).any (fun n =>
    4 < field p (68 + 8 * n) 1 || clampFreq (kindOf (field p (68 + 8 * n) 1)) (field p (72 + 8 * n) 4) != field p (72 + 8 * n) 4)

/-- Members, the serving reception among them, and host candidates enter the table; learned entries stay. An entry that is a member's
channel or a host candidate no more counts as learned, signalled until then (R259; DESIGN CHOICE, log 171). -/
def seatCands (s : State) (rx : List Nat) (hosts : List (Nat × Kind)) (l : List Cand) : List Cand :=
  let l := l.map (fun c => { c with
    origin := c.origin &&& 0x1E, signalled := if keptOrigin c.origin then now s else c.signalled })
  let l := rx.foldl (fun l i => match receptionAt s i with
    | some r => enterCand s r.chain.freq r.kind 0 l
    | none => l) l
  hosts.foldl (fun l h => enterCand s h.1 h.2 5 l) l

/-- A FOLLOW_SET payload as GET_PLAN renders it: reserved bytes are 0 (R5, R257). -/
def keptFollow (p : List Byte) : List Byte :=
  p.take 17 ++ zeros 7 ++
  (List.range 4).flatMap (fun i => (p.drop (24 + 8 * i)).take 1 ++ zeros 3 ++ (p.drop (28 + 8 * i)).take 4) ++
  (p.drop 56).take 12 ++
  (List.range 8).flatMap (fun i => (p.drop (68 + 8 * i)).take 1 ++ zeros 3 ++ (p.drop (72 + 8 * i)).take 4)

/-- Apply a FOLLOW_SET payload to an object (R257). -/
def setFollow (s : State) (p : List Byte) (f : Follow) : Follow :=
  let bh := handleAt p 4
  let serving := (handleAt p 0).index
  let members := readMembers s p
  let f := { f with
    payload := keptFollow p, serving := serving
    blend := if bh.index ≠ 0xFFFF && (blendObj s bh.index).isSome then some bh.index else none
    mode := satNat 1 (field p 8 1), sources := field p 9 1 % 64, hyst := satNat 40 (field p 10 1)
    pref := clampInt (-40) 40 (fieldInt p 11 1), hold := clampNat 1 300 (field p 12 2)
    idents := readIdents p, members := members }
  { f with
    current := if (arrivals f).contains f.current then f.current else serving
    cands := seatCands s (arrivals f) (readHosts p) f.cands }

/-- The entries of an object follow its receptions, whose channels can move (R259). -/
def reseat (s : State) (f : Follow) : Follow := { f with cands := seatCands s (arrivals f) (readHosts f.payload) f.cands }

/-- Create a follow object at an index; the current reception is the serving one (R257). -/
def createFollow (i : Nat) (mark : Bool) (p : List Byte) (s : State) : State × Bool :=
  let g := nextGen (s.gens.follow.getD i 0)
  let (ser, s) := takeSerial s
  let x := setFollow s p { o := { idx := i, gen := g, sentry := mark, serial := ser }, current := (handleAt p 0).index }
  ({ s with gens := { s.gens with follow := setAt s.gens.follow i g }
            prog := { s.prog with follows := s.prog.follows ++ [x] } }, followClamped p)

/-- Change a follow object in place. -/
def changeFollow (i : Nat) (p : List Byte) (s : State) : State × Bool :=
  (modFollow i (setFollow s p) s, followClamped p)

/-- The index a new follow object takes. -/
def newFollowIndex (s : State) : Nat := (freeIndex 32 (s.prog.follows.map (·.o.idx))).getD 32

/-- The checks of FOLLOW_SET (R256, R257). -/
def followSetChecks (f : CmdFrame) (s : State) : Checks :=
  let new := f.target.index = 0xFFFF
  let j := if new then HandleState.live else judgeObj f.target s.gens.follow (followObj s f.target.index) false
  let h := handleAt f.payload 0
  let js := judgeRx s h false
  let bh := handleAt f.payload 4
  let jb := if bh.index = 0xFFFF then HandleState.live else judgeObj bh s.gens.blend (blendObj s bh.index) false
  { lenOk := f.payload.length = 132, modes := modesIS
    stale := [staleIf j 1 0xFFFF, staleIf js 2 0, staleIf jb 2 4]
    noObj := [missingIf j 1 0xFFFF, missingIf js 2 0]
    busy := [failIf (s.prog.follows.any (fun x => x.serving = h.index && (new || x.o.idx != f.target.index))) 1 1 0]
    cap := if new then admission s (createFollow (newFollowIndex s) false f.payload s).1 else []
    clamps := followClamped f.payload }

/-- The effect and the reply of FOLLOW_SET. -/
def followSetBody (f : CmdFrame) (s : State) : State × Option Reply :=
  let i := if f.target.index = 0xFFFF then newFollowIndex s else f.target.index
  let x := if f.target.index = 0xFFFF then createFollow i false f.payload s else changeFollow i f.payload s
  (bumpPlan x.1, some { target := { index := i, gen := x.1.gens.follow.getD i 0 }, clamped := x.2 })

/-- FOLLOW_SET (R256, R257). -/
def execFollowSet (f : CmdFrame) (s : State) : Host.Outcome State Fault Refusal :=
  .next (command 0x0900 f (followSetChecks f) (followSetBody f) s)

/-- How a target stands against the follow objects. -/
def judgeFollow (s : State) (h : Handle) (evenRemoving : Bool) : HandleState :=
  judgeObj h s.gens.follow (followObj s h.index) evenRemoving

/-- Begin a follow object's removal (R336). -/
def shutFollow (i : Nat) (cause : Nat) (s : State) : State := match followAt s i with
  | none => s
  | some f =>
    if f.o.removing then s
    else if s.set.mode = .serve then modFollow i (fun f => { f with o := { f.o with removing := true } }) s
    else finishFollow i (some cause) s

/-- The checks of FOLLOW_REMOVE. -/
def followRemoveChecks (f : CmdFrame) (s : State) : Checks :=
  objChecks f (f.payload.length = 0) modesIS (judgeFollow s f.target true)

/-- The effect and the reply of FOLLOW_REMOVE. -/
def followRemoveBody (f : CmdFrame) (s : State) : State × Option Reply :=
  let again := ((followObj s f.target.index).map (·.removing)).getD false
  (shutFollow f.target.index f.tag (if again then s else bumpPlan s), some { target := f.target })

/-- FOLLOW_REMOVE (R257, R336, R337). -/
def execFollowRemove (f : CmdFrame) (s : State) : Host.Outcome State Fault Refusal :=
  .next (command 0x0901 f (followRemoveChecks f) (followRemoveBody f) s)

/-- The code of a candidate state (R274). -/
def CandState.code : CandState → Nat
  | .unchecked => 0 | .probing => 1 | .verified => 2 | .rejected => 3 | .outside => 4 | .glanced => 5

/-- A metric field: signed, 0x8000 for none (R274). -/
def metricBytes : Option Int → List Byte
  | some v => leInt 2 v
  | none => leBytes 2 0x8000

/-- A candidate entry (R274). -/
def candBytes (s : State) (c : Cand) : List Byte :=
  leBytes 4 c.freq ++ leBytes 1 (kindCode c.kind) ++ leBytes 1 c.origin ++ leBytes 1 c.state.code ++
  leBytes 1 ((capturedBy s c.kind c.freq).getD 0xFF) ++ metricBytes c.metric ++
  leBytes 2 (satNat 65535 ((now s - c.metricAt) / ms 100)) ++ leBytes 4 c.identity

/-- The checks of GET_FOLLOW. -/
def getFollowChecks (f : CmdFrame) (s : State) : Checks :=
  objChecks f (f.payload.length = 0) modesAll (judgeFollow s f.target true)

/-- The effect and the reply of GET_FOLLOW. -/
def getFollowBody (f : CmdFrame) (s : State) : State × Option Reply :=
  (s, match followAt s f.target.index with
    | some x =>
      let quality : Bool := x.cands.any (fun c => c.beatSince.isSome)
      let loss : Bool := s.set.mode == .serve && currentLost s x
      replyWith f (handleBytes (followHandle x) ++ handleBytes (ownerHandle s (.reception x.current)) ++
        metricBytes x.currentMetric ++ leBytes 1 x.cands.length ++
        leBytes 1 (quality.toNat + 2 * loss.toNat + 4 * x.heldDecision.isSome.toNat) ++ leBytes 4 x.switches.toNat ++
        x.cands.flatMap (candBytes s))
    | none => some {})

/-- GET_FOLLOW: the header and the candidates (R274). -/
def execGetFollow (f : CmdFrame) (s : State) : Host.Outcome State Fault Refusal :=
  .next (command 0x0902 f (getFollowChecks f) (getFollowBody f) s)

/-! ### Probes (R261 to R263, R379) -/

/-- The follow object a probe payload names; none for index 0xFFFF. -/
def askedFollow (p : List Byte) : Option Handle := if field p 0 2 = 0xFFFF then none else some (handleAt p 0)

/-- The kind a probe payload names (R261). -/
def askedProbeKind (p : List Byte) : Kind := kindOf (field p 4 1)

/-- Was a value of a probe payload clamped? -/
def probeClamped (s : State) (p : List Byte) : Bool :=
  4 < field p 4 1 || (readChainBlock s (askedProbeKind p) 0 p 8).clamped

/-- The checks of a probe payload (R154, R261). -/
def probeChecks (f : CmdFrame) (s : State) : Checks :=
  let j := match askedFollow f.payload with
    | some h => judgeFollow s h false
    | none => HandleState.live
  let k := askedProbeKind f.payload
  { lenOk := f.payload.length = 20, modes := modesIS
    stale := [staleIf j 2 0, failIf (readChainBlock s k 0 f.payload 8).stale 2 2 12]
    noObj := [missingIf j 2 0]
    clamps := probeClamped s f.payload }

/-- The window a probe's channel is read from: an open one that covers it (R260). -/
def probeWindow (s : State) (k : Kind) (fr : Nat) : Nat :=
  (capturedBy s k fr).getD (if kindInWindow k 4 then 4 else 0)

/-- Create a probe at an index (R261). -/
def createProbe (i : Nat) (mark : Bool) (p : List Byte) (s : State) : State × Bool :=
  let k := askedProbeKind p
  let cb := readChainBlock s k 0 p 8
  let g := nextGen (s.gens.probe.getD i 0)
  let (ser, s) := takeSerial s
  ({ s with
      gens := { s.gens with probe := setAt s.gens.probe i g }
      prog := { s.prog with probes := s.prog.probes ++
        [{ o := { idx := i, gen := g, sentry := mark, serial := ser }, follow := askedFollow p
           chain := newChain k (probeWindow s k cb.freq) cb, block := (p.drop 8).take 11 ++ zeros 1, kind := k, dwellAt := now s
           entry := { freq := cb.freq, kind := k, metricAt := now s } }] } }, probeClamped s p)

/-- Put a fixed probe on the channel of its payload (R261). -/
def settleFixed (i : Nat) (s : State) : State := match probeAt s i with
  | some p => tuneProbe i p.kind (clampFreq p.kind (field p.block 0 4)) s
  | none => s

/-- Change a probe in place: a change of follow object waits for the end of the dwell of a running probe; a change of bank or delay for
its next block boundary (R162, R173, R379). -/
def changeProbe (i : Nat) (p : List Byte) (s : State) : State × Bool := match probeAt s i with
  | none => (s, false)
  | some x =>
    let fo := askedFollow p
    let k := askedProbeKind p
    let cb := readChainBlock s k (probeWindow s k (readChainBlock s k 0 p 8).freq) p 8
    let run := chainStarted x.chain
    let clamped := probeClamped s p
    let s := modProbe i (fun y => { y with
      block := (p.drop 8).take 11 ++ zeros 1, kind := k
      follow := if run then y.follow else fo, nextFollow := if run && y.follow != fo then some fo else none }) s
    if x.follow = none && fo = none then
      if standsOn x cb.freq k && run then (blockTaken i cb.freq k s, clamped) else (settleFixed i s, clamped)
    else if run then (blockTaken i (probeOnChannel x).1 (probeOnChannel x).2 s, clamped) else (settleFixed i s, clamped)
where
  /-- A running probe stays on its channel and takes the bank and the delay of its chain block (R162, R173, R261). -/
  blockTaken (i fr : Nat) (k : Kind) (s : State) : State :=
    modProbe i (fun y => { y with chain := moveChain k (chainWindow y.chain) (probeBlock s k fr y.block) y.chain }) s

/-- The index a new probe takes. -/
def newProbeIndex (s : State) : Nat := (freeIndex 32 (s.prog.probes.map (·.o.idx))).getD 32

/-- Start a probe: an attached one goes to its object's first captured candidate (R261, R263). -/
def startProbe (cause : Option Nat) (i : Nat) (s : State) : State :=
  let s := startOwner cause (.probe i) (seekWindow i s)
  match (probeAt s i).bind (·.follow) with
  | some _ => advanceProbe i s
  | none => s

/-- The checks of PROBE_ADD. -/
def probeAddChecks (f : CmdFrame) (s : State) : Checks :=
  { probeChecks f s with cap := admission s (createProbe (newProbeIndex s) false f.payload s).1 }

/-- The effect and the reply of PROBE_ADD. -/
def probeAddBody (f : CmdFrame) (s : State) : State × Option Reply :=
  let i := newProbeIndex s
  let x := createProbe i false f.payload s
  let s := bumpPlan x.1
  let s := if s.set.mode = .serve then startProbe (some f.tag) i s else s
  (s, some { target := ownerHandle s (.probe i), clamped := x.2 })

/-- PROBE_ADD (R261). -/
def execProbeAdd (f : CmdFrame) (s : State) : Host.Outcome State Fault Refusal :=
  .next (command 0x0903 f (probeAddChecks f) (probeAddBody f) s)

/-- The checks of PROBE_SET. -/
def probeSetChecks (f : CmdFrame) (s : State) : Checks :=
  let c := probeChecks f s
  let j := judgeObj f.target s.gens.probe (probeObj s f.target.index) false
  { c with stale := staleIf j 1 0xFFFF :: c.stale, noObj := missingIf j 1 0xFFFF :: c.noObj
           cap := admission s (changeProbe f.target.index f.payload s).1 }

/-- The effect and the reply of PROBE_SET. -/
def probeSetBody (f : CmdFrame) (s : State) : State × Option Reply :=
  let x := changeProbe f.target.index f.payload s
  (bumpPlan x.1, some { target := f.target, clamped := x.2 })

/-- PROBE_SET (R379). -/
def execProbeSet (f : CmdFrame) (s : State) : Host.Outcome State Fault Refusal :=
  .next (command 0x0904 f (probeSetChecks f) (probeSetBody f) s)

/-- Gauge decides again on the metrics of the last interval (R272, R273). -/
def decideAgain (fo : Nat) (s : State) : State := match followAt s fo with
  | some f => gaugeDecide fo (inNow s f.metricEnd) s
  | none => s

/-- A retarget of an object is abandoned: the decision held behind it is carried out, or else the decision is made again (R273). -/
def abandonRetarget (fo : Nat) (s : State) : State :=
  let s := modFollow fo (fun f => { f with pending := none }) s
  match (followAt s fo).bind (·.heldDecision) with
  | some d => carryOut fo d s
  | none => decideAgain fo s

/-- The loss rule applies at once to an object whose current reception is being removed (R268, R273). -/
def decideLost (s : State) : State :=
  (s.prog.follows.filter (fun f => ((receptionAt s f.current).map (·.removing)).getD true)).foldl (fun t f => decideAgain f.o.idx t) s

/-- RECEPTION_REMOVE (R273, R336, R337). -/
def execReceptionRemove (f : CmdFrame) (s : State) : Host.Outcome State Fault Refusal :=
  .next (command 0x0502 f (receptionChecks f (f.payload.length = 0) modesIYSE true) (fun t =>
    let x := receptionRemoveBody f t
    (decideLost x.1, x.2)) s)

/-- The retargets that were to use a probe are abandoned (R273). -/
def dropRetargets (pr : Nat) (s : State) : State :=
  (s.prog.follows.filter (fun f => match f.pending with
    | some d => d.cand.isSome && d.probe = pr
    | none => false)).foldl (fun t f => abandonRetarget f.o.idx t) s

/-- Begin a probe's removal: its glance is abandoned, a retarget that was to use it is abandoned (R273, R336). -/
def shutProbe (i : Nat) (cause : Nat) (s : State) : State := match probeAt s i with
  | none => s
  | some p =>
    if p.o.removing then s
    else
      let s := match p.follow.bind (fun h => followAt s h.index) with
        | some f => (match f.glance with
          | some (_, fr, k, _) => if standsOn p fr k then endGlance none f.o.idx s else s
          | none => s)
        | none => s
      if chainStarted p.chain then dropRetargets i (modProbe i (fun p => { p with o := { p.o with removing := true } }) s)
      else dropRetargets i (finishProbe i (some cause) s)

/-- The checks of PROBE_REMOVE. -/
def probeRemoveChecks (f : CmdFrame) (s : State) : Checks :=
  objChecks f (f.payload.length = 0) modesIS
    (judgeObj f.target s.gens.probe (probeObj s f.target.index) true)

/-- The effect and the reply of PROBE_REMOVE. -/
def probeRemoveBody (f : CmdFrame) (s : State) : State × Option Reply :=
  let again := ((probeObj s f.target.index).map (·.removing)).getD false
  (shutProbe f.target.index f.tag (if again then s else bumpPlan s), some { target := f.target })

/-- PROBE_REMOVE (R273, R336, R337). -/
def execProbeRemove (f : CmdFrame) (s : State) : Host.Outcome State Fault Refusal :=
  .next (command 0x0905 f (probeRemoveChecks f) (probeRemoveBody f) s)

/-- The candidate entry of a probe: its object's entry for the channel it is on, or its own (R274). -/
def probeEntry (s : State) (p : Probe) : Cand :=
  match (p.follow.bind (fun h => followAt s h.index)).bind (fun f =>
      f.cands.find? (fun c => standsOn p c.freq c.kind)) with
  | some c => c
  | none => { p.entry with state := if chainStarted p.chain then .probing else .unchecked }

/-- The checks of GET_PROBE. -/
def getProbeChecks (f : CmdFrame) (s : State) : Checks :=
  objChecks f (f.payload.length = 0) modesAll
    (judgeObj f.target s.gens.probe (probeObj s f.target.index) true)

/-- The effect and the reply of GET_PROBE. -/
def getProbeBody (f : CmdFrame) (s : State) : State × Option Reply :=
  (s, match probeAt s f.target.index with
    | some p => replyWith f (candBytes s (probeEntry s p))
    | none => some {})

/-- GET_PROBE (R274). -/
def execGetProbe (f : CmdFrame) (s : State) : Host.Outcome State Fault Refusal :=
  .next (command 0x0906 f (getProbeChecks f) (getProbeBody f) s)

/-! ### Gauge's measurements and decisions (R262, R266 to R270) -/

/-- Captured and outside follow the windows (R260). -/
def placeCand (s : State) (c : Cand) : Cand :=
  let cap := (capturedBy s c.kind c.freq).isSome
  match c.state with
  | .outside => if cap then { c with state := .unchecked } else c
  | .glanced => if cap then { c with state := .unchecked } else c
  | .rejected => c
  | _ => if cap then c else { c with state := .outside, acquired := false, beatSince := none }

/-- A fixed probe measures its own channel every 100 ms (R261, R266, R274). -/
def measureFixed (s : State) (l : List GaugeIn) (p : Probe) : Probe :=
  if p.follow = none && chainProducing p.chain && p.entry.metricAt + ms 100 ≤ now s then
    let g := (l.find? (fun g => g.freq = p.chain.freq && g.kind = p.chain.kind)).getD {}
    let r := probeReception p
    let e := sampleCand s 0 g.msc false (probeAcquired g.checked r) (true, p.o.idx) r { p.entry with freq := p.chain.freq, kind := p.chain.kind }
    { p with entry := { e with
        metricAt := now s
        identity := (if p.chain.kind = .fm then (r.rds.getD 0 {}).identity else g.identity).getD e.identity } }
  else p

/-- The antenna instant at which the metric interval ends, by the present count: that of what the current reception receives (R272). -/
def metricStamp (s : State) (f : Follow) : Tick := match receptionAt s f.current with
  | some r => stampNow s (.reception r.idx) r.chain
  | none => s.time.count

/-- GAUGE_METRIC: every 100 ms the candidates of an object are measured, and Gauge decides (R262, R266 to R269, R272, R273). -/
def execGaugeMetric (fo : Nat) (m : List GaugeIn) (s : State) : Host.Outcome State Fault Refusal :=
  within s (fo < 32 && clockRuns s 6) (
    if s.set.mode != .serve || s.head.restarting then s
    else
      let s := match (followAt s fo).bind (·.gaugeAt) with
        | some t => passTo (t + ms 100) s
        | none => s
      let s := { s with prog := { s.prog with probes := s.prog.probes.map (measureFixed s m) } }
      let s := resumeSwitch fo s
      match followAt s fo with
      | none => s
      | some f =>
        if f.o.removing then s
        else
          let s := modFollow fo (fun f =>
            let f := reseat s f
            { f with gaugeAt := some (now s), metricEnd := instantAt s (metricStamp s f)
                     cands := f.cands.map (fun c => measureCand s f m (placeCand s c)) }) s
          let s := modFollow fo (updateBeats s) s
          gaugeDecide fo (metricStamp s f) s)

/-- The chain settings that branches take from their reception's new chain (R136, R154). -/
def blockOf (c : Chain) : ChainBlock :=
  { freq := c.freq, bank := c.bank, delay := c.delay, frac := c.frac, clamped := false, stale := false }

/-- A chain with the counts of another, as each object counts since its own creation (R176). -/
def countsOf (own c : Chain) : Chain := { c with blocks := own.blocks, gaps := own.gaps, overruns := own.overruns }

/-- A branch's chain follows its reception to another channel; a change that is held stays held (R163, R173, R273). -/
def branchFollows (c : Chain) (b : Chain) : Chain :=
  let b' := changeChain false c.window (blockOf c) b
  { b' with pend := { b'.pend with bankHeld := b.pend.bankHeld, delayHeld := b.pend.delayHeld } }

/-- A reception with the chain and the demodulation of a probe: its options and what it has counted and delivered stay, the equaliser
starts from a single tap, RDS streams 1 to 3 search again, and the de-interleave reservation is cleared (R195, R270, R273). -/
def takeOver (p : Probe) (r : Reception) : Reception :=
  let own := r.dem.fm
  let stream (x : RdsStream × Nat) : RdsStream :=
    if x.2 = 0 then { p.rds.getD 0 {} with received := x.1.received, corrected := x.1.corrected, bad := x.1.bad, sent := x.1.sent }
    else { loseSync x.1 with bits := [], clock := 0, touched := false }
  { r with
    window := p.chain.window, rx := if r.rx = .searching then r.rx else .acquired
    chain := { countsOf r.chain p.chain with pend := { p.chain.pend with bankHeld := r.chain.pend.bankHeld, delayHeld := r.chain.pend.delayHeld } }
    dem := { p.dem with
      opts := r.dem.opts, meas := r.dem.meas, branch := r.dem.branch
      fm := { p.dem.fm with
        out := own.out, outNext := own.outNext, split := true, deemph := own.deemph, separation := own.separation, ramp := own.ramp
        power := own.power, eq := if r.dem.opts.eq = 1 then freshEqualiser else {} } }
    ofdm := { p.ofdm with deint := [], past := [], sums := r.ofdm.sums, branch := r.ofdm.branch }
    rds := r.rds.zipIdx.map stream }

/-- A probe with the chain and the demodulation of a reception (R270). -/
def handBack (s : State) (r : Reception) (p : Probe) : Probe :=
  { p with
    chain := { countsOf p.chain r.chain with pend := { r.chain.pend with bankHeld := none, delayHeld := none } }
    dem := { r.dem with fm := { r.dem.fm with out := [] } }, ofdm := { r.ofdm with marks := [], past := [] }, rds := r.rds.take 1
    dwellAt := now s, entry := { freq := r.chain.freq, kind := r.chain.kind, metricAt := now s } }

/-- The outputs that play a reception's programme change over in a cross-fade of 5 ms (R270). -/
def crossProgramme (i : Nat) (s : State) : State :=
  let l := s.prog.programmes.filter (fun p => p.reception = i)
  { s with prog := { s.prog with pcms := s.prog.pcms.map (fun x => if l.any (fun p => playsProgramme s p x) then leaveSource 240 x else x) } }

/-- Exchange the chains and the demodulation of a reception and a probe; the reception's held changes stay with it, and its audio is
released up to here (R270, R273). -/
def swapChains (i pr : Nat) (r : Reception) (p : Probe) (s : State) : State :=
  let s := releaseAudio i s
  let s := modReception i (takeOver p) (modProbe pr (handBack s r) s)
  let s := if analogue r.kind then crossProgramme i (restartLoudness i s) else s
  let c := (takeOver p r).chain
  { s with prog := { s.prog with
      branches := s.prog.branches.map (fun b =>
        if b.reception = i then { b with chain := branchFollows c b.chain } else b)
      programmes := s.prog.programmes.map (fun q =>
        if q.reception = i && !analogue r.kind then { q with lastUnitFailed := true } else q) } }

/-- The reception plays from the candidate: it does not pass through SEARCHING (R270); one that had been lost is acquired
again, and one that was uncovered is covered (R118, R183). -/
def arrive (i : Nat) (r : Reception) (s : State) : State :=
  let o := ChainOwner.reception i
  let s := match chainOf s o with
    | some c => if !r.chain.covered && c.covered then post 0x8503 (ownerHandle s o) (coveragePayload s o c) none s else s
    | none => s
  match chainOf s o with
  | some c => if r.rx = .searching then acquire i (instantNow s o c) s else s
  | none => s

/-- RETARGET: at the block boundary the chains of the current reception and the probe change places (R270, R273). -/
def execRetarget (fo : Nat) (s : State) : Host.Outcome State Fault Refusal :=
  within s (fo < 32 && clockRuns s 6) (match followAt s fo with
    | some f => match f.pending.bind (fun d => d.cand.map (fun c => (c, d.probe))) with
      | some ((fr, k), pr) =>
        match receptionAt s f.current, probeAt s pr with
        | some r, some p =>
          if p.chain.freq = fr && p.chain.kind = k && k = r.kind && chainProducing p.chain && p.chain.pend.freq.isNone && !p.o.removing &&
              !r.removing then
            let i := f.current
            let s := refreshTuners (arrive i r (swapChains i pr r p s))
            let s := modFollow fo (reseat s) s
            let s := countSwitch fo (modFollow fo (fun f => { f with pending := none }) s)
            match f.heldDecision with
            | some d => carryOut fo d s
            | none => s
          else abandonRetarget fo s
        | _, _ => abandonRetarget fo s
      | none => s
    | none => s)

/-! ### Dwells and glances (R263 to R265) -/

/-- The dwell of a kind (the table Probe dwell). -/
def dwellMs : Kind → Nat
  | .am => 1500 | .fm => 1500 | .dab => 3000 | .drm30 => 5000 | .drmPlus => 2500 | .tap => 0

/-- The port a glance uses for a candidate: that of the current reception's window, or the lowest one in the range that an open
window uses (R264). -/
def glancePort (s : State) (f : Follow) (fr : Nat) : Option Nat :=
  let fits' (port : Nat) : Bool := port < 6 && (loRange port 6000).1 + 9000000 ≤ fr && fr ≤ (loRange port 6000).2 + 9000000
  let cur := ((receptionAt s f.current).map (fun r => (windowAt s r.chain.window).port)).getD 6
  let open' := (List.range 6).filter (fun p => ([0, 1, 2, 3] : List Nat).any (fun w => windowOpen s w && (windowAt s w).port = p))
  if fits' cur && open'.contains cur then some cur else open'.find? fits'

/-- A tuner a glance may take: WARM or OFF, no partner, not under element selection; WARM ones first (R264). -/
def glanceTuner (s : State) : Option Nat :=
  let ok (t : Nat) : Bool := !(tunerAt s t).failed && (tunerAt s t).role == .unused &&
    ((tunerAt s t).state == .warm || (tunerAt s t).state == .off) && !(adcAt s t).stats && !(adcAt s t).interrupted
  (([0, 1, 2, 3] : List Nat).find? (fun t => ok t && (tunerAt s t).state == .warm)).or (([0, 1, 2, 3] : List Nat).find? ok)

/-- The outside candidate to glance at next: one not glanced yet, else the one measured longest ago (R264). -/
def glanceCand (s : State) (f : Follow) : Option Cand :=
  let l := f.cands.filter (fun c => (capturedBy s c.kind c.freq).isNone && (glancePort s f c.freq).isSome && c.kind != .am &&
    c.kind != .drm30 && (c.state == .outside || c.state == .glanced))
  (l.find? (fun c => c.state == .outside)).or (l.foldl (fun (a : Option Cand) c => match a with
    | some b => if c.metricAt < b.metricAt then some c else a
    | none => some c) none)

/-- The candidate to glance at and the tuner for it, if the object allows a glance and a tuner is free (R264). -/
def glancePair (s : State) (f : Follow) : Option (Cand × Nat) :=
  if f.sources.testBit 5 && f.glance.isNone then
    match glanceCand s f, glanceTuner s with
    | some c, some t => some (c, t)
    | _, _ => none
  else none

/-- Begin a glance at a candidate with a probe and a tuner: its window is 6 MHz wide at an LO 9 MHz below the candidate (R264). The opening
steps of the window pass at once. DESIGN CHOICE, log 172. -/
def beginGlance (i : Nat) (f : Follow) (c : Cand) (t : Nat) (s : State) : State :=
  let port := (glancePort s f c.freq).getD (tunerAt s t).port
  let x : Window := { state := .open, port := port, widthKhz := 6000, lo := c.freq - 9000000, tuner := some t }
  let s := modWindow (glanceWindow t) (fun _ => x) s
  let s := lockTuner t port x (modTuner t (fun u => { u with role := .glance f.o.idx, lingerAt := none }) s)
  let s := modFollow f.o.idx (fun f => { f with glance := some (t, c.freq, c.kind, now s) }) s
  tuneProbe i c.kind c.freq s

/-- Does a candidate's metric beat the current reception's by the hysteresis (R263)? -/
def beatsNow (f : Follow) (c : Cand) : Bool := match f.currentMetric, c.metric with
  | some m, some v => !c.samples.isEmpty && decide (m + 5 * (f.hyst : Int) ≤ v)
  | _, _ => false

/-- Is a probe kept on its candidate: it beats the current reception, or a retarget is to use it (R263)? -/
def probeKept (f : Follow) (p : Probe) : Bool :=
  f.cands.any (fun c => standsOn p c.freq c.kind && beatsNow f c) ||
  (match f.pending with
   | some d => d.cand.isSome && d.probe = p.o.idx
   | none => false)

/-- Does a probe serve a glance of its follow object (R264)? -/
def glancing (s : State) (p : Probe) : Bool :=
  match (p.follow.bind (fun h => followAt s h.index)).bind (·.glance) with
  | some (_, fr, k, _) => standsOn p fr k
  | none => false

/-- A change of a probe's follow object takes effect (R379). -/
def probeJoins (pr : Nat) (p : Probe) (s : State) : State := match p.nextFollow with
  | some x =>
    let s := modProbe pr (fun p => { p with follow := x, nextFollow := none }) s
    if x.isNone then settleFixed pr s else s
  | none => s

/-- An attached probe goes on: it stays on a candidate that is kept, begins a glance where one is due, or moves on (R263,
R264). -/
def probeGoesOn (pr : Nat) (p : Probe) (s : State) : State :=
  match ((probeAt s pr).bind (·.follow)).bind (fun h => followAt s h.index) with
  | some f =>
    if p.chain.covered && probeKept f p then modProbe pr (fun p => { p with dwellAt := now s }) s
    else match glancePair s f with
      | some (c, t) => beginGlance pr f c t s
      | none => advanceProbe pr s
  | none => s

/-- PROBE_DWELL_END: an attached probe's dwell ends, or its candidate became uncovered: a change of object takes effect, and the
probe moves on, by a glance where one is due (R263, R264, R379). -/
def execProbeDwellEnd (pr : Nat) (s : State) : Host.Outcome State Fault Refusal :=
  within s (pr < 32 && clockRuns s 6) (match probeAt s pr with
    | none => s
    | some p =>
      if !chainStarted p.chain || p.o.removing || p.o.shed || glancing s p then s
      else
        let s := if p.follow.isSome && p.chain.covered then passTo (p.dwellAt + ms (dwellMs p.chain.kind)) s else s
        probeGoesOn pr p (probeJoins pr p s))

/-- GLANCE_END: the glance's dwell ends: its tuner ramps down, its candidate is GLANCED, and its probe moves on (R264). -/
def execGlanceEnd (fo : Nat) (s : State) : Host.Outcome State Fault Refusal :=
  within s (fo < 32 && clockRuns s 6) (match followAt s fo with
    | some f => match f.glance with
      | some (_, fr, k, since) =>
        let s := endGlance (some .glanced) fo (passTo (since + ms (dwellMs k)) s)
        ((attached s f).filter (fun p => standsOn p fr k)).foldl (fun t p => advanceProbe p.o.idx t) s
      | none => s
    | none => s)

/-- CANDIDATE_EXPIRY: a learned candidate that nothing signalled for 600 s is dropped; a probe on it moves on (R259). -/
def execCandidateExpiry (fo freq : Nat) (kind : Kind) (s : State) : Host.Outcome State Fault Refusal :=
  within s (fo < 32 && clockRuns s 6) (match (followAt s fo).bind (fun f => f.cands.find? (fun c => c.freq = freq && c.kind = kind)) with
    | some c =>
      if keptOrigin c.origin then s
      else
        let s := passTo (c.signalled + ms 600000) s
        let s := modFollow fo (fun f => { f with cands := f.cands.filter (fun c => !(c.freq = freq && c.kind = kind)) }) s
        match followAt s fo with
        | some f => ((attached s f).filter (fun p => standsOn p freq kind)).foldl
            (fun t p => advanceProbe p.o.idx t) s
        | none => s
    | none => s)

/-- REJECTION_EXPIRY: a rejected candidate may be probed again after 300 s (R262). -/
def execRejectionExpiry (fo freq : Nat) (kind : Kind) (s : State) : Host.Outcome State Fault Refusal :=
  within s (fo < 32 && clockRuns s 6) (match (followAt s fo).bind (fun f => f.cands.find? (fun c => c.freq = freq && c.kind = kind)) with
    | some c =>
      if c.state = .rejected then
        let s := passTo (c.rejectedAt + ms 300000) s
        modFollow fo (modCand freq kind (fun c => { c with
          state := if (capturedBy s kind freq).isSome then .unchecked else .outside, samples := [], source := none })) s
      else s
    | none => s)

end Sys2Proof.Machine
end

