-- ==== Sys2Proof/Machine/Survey.lean ====
section
/-!
DEFINITION. Survey.lean: SURVEY mode: its configuration, placements, candidates, records and list (R251 to R255, R370).
-/

namespace Sys2Proof.Machine

/-! ### Configuration (R251) -/

/-- The range of a standard that holds a frequency (R152, R251). -/
def kindRange (k : Kind) (f : Nat) : Nat × Nat := match k with
  | .am => (148500, 26100000)
  | .drm30 => (148500, 30000000)
  | .drmPlus => (30000000, 174000000)
  | .fm => (64000000, 108000000)
  | _ => if f ≤ 846000000 then (174000000, 240000000) else (1452000000, 1492000000)

/-- Read and clamp one band of the payload. -/
def readBand (p : List Byte) (off : Nat) : SurveyBand :=
  let k := satNat 4 (field p off 1)
  let r := kindRange (kindOf k) (field p (off + 4) 4)
  let st := clampNat r.1 r.2 (field p (off + 4) 4)
  { kind := k, port := satNat 5 (field p (off + 1) 1), raster := clampNat 1 1000 (field p (off + 2) 2), start := st
    stop := clampNat st r.2 (field p (off + 8) 4), dwell := clampNat 100 10000 (field p (off + 12) 2) }

/-- A band as read back. -/
def bandBytes (b : SurveyBand) : List Byte :=
  leBytes 1 b.kind ++ leBytes 1 b.port ++ leBytes 2 b.raster ++ leBytes 4 b.start ++ leBytes 4 b.stop ++ leBytes 2 b.dwell ++
  zeros 2

/-- Read and clamp the configuration; bands beyond the eighth are ignored (R251). -/
def readSurvey (p : List Byte) : SurveyConfig :=
  { passes := field p 1 1, threshold := clampNat 30 300 (field p 2 2)
    bands := (List.range (satNat 8 (field p 0 1))).map (fun n => readBand p (8 + 16 * n)) }

/-- The configuration as read back (R251, R359). -/
def surveyBytes (c : SurveyConfig) : List Byte :=
  leBytes 1 c.bands.length ++ leBytes 1 c.passes ++ leBytes 2 c.threshold ++ zeros 4 ++ c.bands.flatMap bandBytes

/-- The checks of SURVEY_CONFIG. -/
def surveyConfigChecks (f : CmdFrame) (_ : State) : Checks :=
  { lenOk := 1 ≤ f.payload.length && f.payload.length = 8 + 16 * field f.payload 0 1
    modes := [.idle, .survey, .serve, .sentry] }

/-- Was a field of SURVEY_CONFIG clamped (R330, R370)? -/
def surveyClamped (f : CmdFrame) : Bool :=
  let c := readSurvey f.payload
  let sent := padTo (8 + 16 * c.bands.length) f.payload
  8 < field f.payload 0 1 || field f.payload 2 2 != c.threshold ||
    c.bands.zipIdx.any (fun b => (bandBytes b.1).take 14 != (sent.drop (8 + 16 * b.2)).take 14)

/-- The effect and the reply of SURVEY_CONFIG. -/
def surveyConfigBody (f : CmdFrame) (s : State) : State × Option Reply :=
  (setSettings { s.set with survey := readSurvey f.payload } s, some { target := f.target, clamped := surveyClamped f })

/-- SURVEY_CONFIG (R251). -/
def execSurveyConfig (f : CmdFrame) (s : State) : Host.Outcome State Fault Refusal :=
  .next (command 0x0400 f (surveyConfigChecks f) (surveyConfigBody f) s)

/-- The checks of GET_SURVEY_CONFIG. -/
def getSurveyConfigChecks (f : CmdFrame) (_ : State) : Checks :=
  { lenOk := f.payload.length = 0, modes := modesAll }

/-- The effect and the reply of GET_SURVEY_CONFIG. -/
def getSurveyConfigBody (f : CmdFrame) (s : State) : State × Option Reply :=
  (s, replyWith f (surveyBytes s.set.survey))

/-- GET_SURVEY_CONFIG (R251, R359). -/
def execGetSurveyConfig (f : CmdFrame) (s : State) : Host.Outcome State Fault Refusal :=
  .next (command 0x0401 f (getSurveyConfigChecks f) (getSurveyConfigBody f) s)

/-- The checks of SURVEY_LIST. -/
def surveyListChecks (f : CmdFrame) (_ : State) : Checks :=
  { lenOk := f.payload.length = 4, modes := modesIYSE }

/-- The entries that a SURVEY_LIST asks for (R370). -/
def surveyPage (s : State) (f : CmdFrame) : List SurveyEntry :=
  (s.survey.list.drop (satNat 2047 (field f.payload 0 2))).take (satNat 63 (field f.payload 2 2))

/-- The effect and the reply of SURVEY_LIST. -/
def surveyListBody (f : CmdFrame) (s : State) : State × Option Reply :=
  let first := satNat 2047 (field f.payload 0 2)
  let out := surveyPage s f
  (s, some { target := f.target
             clamped := 2047 < field f.payload 0 2 || 63 < field f.payload 2 2
             payload := leBytes 2 s.survey.list.length ++ leBytes 2 first ++ leBytes 2 out.length ++ zeros 2 ++
               out.flatMap (·.bytes) })

/-- SURVEY_LIST (R370). -/
def execSurveyList (f : CmdFrame) (s : State) : Host.Outcome State Fault Refusal :=
  .next (command 0x0402 f (surveyListChecks f) (surveyListBody f) s)

/-! ### A pass (R252, R253) -/

/-- The DAB block frequencies of EN 300 401, 5A to 13F and LA to LW (log 139). -/
def dabBlocks : List Nat :=
  [174928000, 181936000, 188928000, 195936000, 202928000].flatMap (fun a => (List.range 4).map (fun i => a + 1712000 * i)) ++
  [209936000, 216928000, 223936000].flatMap (fun a => [a, a + 160000, a + 1712000, a + 3424000, a + 5136000]) ++
  [230784000, 232496000, 234208000, 235776000, 237488000, 239200000] ++
  (List.range 23).map (fun i => 1452960000 + 1712000 * i)

/-- The first channel of a band from a frequency on, its DAB blocks or its raster (R251, R252). -/
def channelFrom (b : SurveyBand) (f : Nat) : Option Nat :=
  if kindOf b.kind = .dab then dabBlocks.find? (fun x => f ≤ x && b.start ≤ x && x ≤ b.stop)
  else
    let x := b.start + (f - b.start + 1000 * b.raster - 1) / (1000 * b.raster) * (1000 * b.raster)
    if x ≤ b.stop then some x else none

/-- The last channel of a band (R251, R252). -/
def lastChannel (b : SurveyBand) : Nat :=
  if kindOf b.kind = .dab then (dabBlocks.filter (fun x => b.start ≤ x && x ≤ b.stop)).getLastD b.start
  else b.start + (b.stop - b.start) / (1000 * b.raster) * (1000 * b.raster)

/-- The placements of a band on tuner windows from a first channel: the narrowest width that covers what is left, or 84 MHz
placements in succession (R252 step 1). -/
def placeBand (n : Nat) (b : SurveyBand) : Nat → Nat → List SurveyWin
  | 0, _ => []
  | fuel + 1, first =>
    let h := halfBand (kindOf b.kind)
    let last := lastChannel b
    let need := last + h - (first - h)
    let wd := ((legalWidths.reverse).find? (fun w => need ≤ 1000 * w)).getD 84000
    let lo := (first - h - 6000000) / 1000 * 1000
    let top := lo + 6000000 + 1000 * wd - h
    let win : SurveyWin := { band := n, port := b.port, lo := lo, widthKhz := wd }
    if last ≤ top then [win]
    else match channelFrom b (top + 1) with
      | some next => win :: placeBand n b fuel next
      | none => [win]

/-- All placements of a configuration; AM and DRM30 use the HF input (R252). -/
def placements (c : SurveyConfig) : List SurveyWin :=
  c.bands.zipIdx.flatMap (fun x =>
    if kindInWindow (kindOf x.1.kind) 4 then [{ band := x.2, tuner := 4, port := 6 }] else ((channelFrom x.1 x.1.start).map (placeBand x.2 x.1 20)).getD [])

/-- The placements that open next: of each band in order its first that waits, on the lowest free tuner not yet given, as long as
tuners last; those of the HF input share it. One for which no tuner is left to serve at all is past (R252; log 173). -/
def assignTuners (s : State) (l : List SurveyWin) : List SurveyWin :=
  let free := ([0, 1, 2, 3] : List Nat).filter (tunerFree s)
  (l.foldl (fun (a : List SurveyWin × List Nat) x =>
    if x.stage != .waiting || a.1.any (fun y => y.band == x.band && y.stage == .opening) then (a.1 ++ [x], a.2)
    else if x.tuner = 4 then (a.1 ++ [{ x with stage := if (tunerAt s 4).failed then .past else .opening }], a.2)
    else match a.2 with
      | t :: r => (a.1 ++ [{ x with tuner := t, stage := .opening }], r)
      | [] => (a.1 ++ [if free.isEmpty then { x with stage := .past } else x], [])) ([], free)).1

/-- Take a tuner for a placement; a glance on it is abandoned (R252, R265). -/
def sweepTuner (t port : Nat) (s : State) : State :=
  let s := match (tunerAt s t).role with
    | .glance fo => endGlance none fo s
    | _ => s
  modTuner t (fun u => { u with role := .survey, state := .warm, port := port, lingerAt := none, clipAt := none, above10At := none }) s

/-- The sweep's tuners leave their placements, whose confirmation has ended. -/
def leavePlacements (s : State) : State :=
  { s with
    front := { s.front with tuners := s.front.tuners.map (fun u =>
      if u.role = .survey then { u with role := .unused, state := .warm } else u) }
    survey := { s.survey with wins := s.survey.wins.map (fun w => if w.stage = .up then { w with stage := .past } else w) } }

/-- The next placements open on their tuners (R252). -/
def openPlacements (s : State) : State :=
  let wins := assignTuners s s.survey.wins
  let s := wins.foldl (fun t x => if x.stage = .opening then sweepTuner x.tuner x.port t else t) s
  { s with survey := { s.survey with wins := wins, measured := false, spectrumAt := none } }

/-- Does a placement of the pass still wait for its turn? -/
def placementsWait (s : State) : Bool := s.survey.wins.any (·.stage == .waiting)

/-- Once every candidate of the placements now up is confirmed, or none is up or opening any more, the next placements open (R252). -/
def nextPlacements (s : State) : State :=
  let idle := !s.survey.wins.any (fun w => w.stage == .opening || w.stage == .up)
  if (s.survey.measured || idle) && s.survey.cands.isEmpty && placementsWait s then openPlacements (leavePlacements s) else s

/-- A pass starts: the configuration in force is taken, and its first placements open on their tuners (R251, R252). -/
def startPass (s : State) : State :=
  let c := s.set.survey
  openPlacements { s with survey := { s.survey with
    running := true, pass := (s.survey.pass + 1) % 65536, passAt := now s, cfg := c, wins := placements c, cands := [], candidates := 0
    entries := 0, rejected := 0, idents := [], fullNoted := false } }

/-- SURVEY is entered: the first pass of a new count starts, and every entry kept is one of a previous pass (R252, R254, R255). -/
def enterSurvey (s : State) : State :=
  startPass { s with survey := { s.survey with pass := 0, list := s.survey.list.map (fun e => { e with pass := 0 }) } }

/-- The sweep's windows close by R124. -/
def closeSweep (s : State) : State :=
  { s with
    front := { s.front with tuners := s.front.tuners.map (fun u =>
      if u.role = .survey then { u with role := .freeing 1, state := .warm } else u) }
    survey := { s.survey with wins := [], cands := [], running := false } }

/-- A tuner of the sweep locks: its placements are up, and the 200 ms of the spectrum begin when every placement that opens is up
(R120, R252). -/
def sweepOpened (t : Nat) (s : State) : State :=
  if s.set.mode = .survey && (tunerAt s t).role = .survey && (tunerAt s t).state = .warm then
    let lo := ((s.survey.wins.find? (fun w => w.stage == .opening && w.tuner == t)).map (·.lo)).getD 0
    let s := modTuner t (fun u => { useGain u.port lo (if t = 4 then u.gain else startGain u u.port lo) u with state := .locked }) s
    let wins := s.survey.wins.map (fun w => if w.stage = .opening && w.tuner = t then { w with stage := .up } else w)
    { s with survey := { s.survey with
      wins := wins, spectrumAt := if wins.any (·.stage == .opening) then none else some (now s) } }
  else s

/-- TUNER_FAILURE: the window is handed over, or marked FAILED (R118, R137, R138, R265). -/
def execTunerFailure (t : Nat) (s : State) : Host.Outcome State Fault Refusal :=
  within s (t < 5) (if (tunerAt s t).failed then s else rerunOpens (nextPlacements (tunerFails t s)))

/-! ### Spectrum (R252 step 2) -/

/-- The local floor of a point: the 20th percentile of the points of its band within 2 MHz, or 50 kHz for AM and DRM30, by
nearest rank (log 27). -/
def localFloor (am : Bool) (pts : List SurveyPoint) (x : SurveyPoint) : Int :=
  let near := (pts.filter (fun y => y.band = x.band && apart y.freq x.freq ≤ (if am then 50000 else 2000000))).map
    (·.powerTenthDbm)
  let l := near.mergeSort (fun a b => a ≤ b)
  l.getD ((l.length + 4) / 5 - 1) 0

/-- Is a point a candidate: at least the floor plus the threshold, and the strongest within its coverage band? -/
def isCandidate (c : SurveyConfig) (pts : List SurveyPoint) (x : SurveyPoint) : Bool :=
  match c.bands[x.band]? with
  | none => false
  | some b =>
    let k := kindOf b.kind
    localFloor (k == .am || k == .drm30) pts x + (c.threshold : Int) ≤ x.powerTenthDbm &&
    pts.all (fun y => y.band != x.band || halfBand k < apart y.freq x.freq || y.powerTenthDbm ≤ x.powerTenthDbm)

/-- Chains free for confirmation, at most 64 candidates at a time (R252 step 3, R253). -/
def startCands (s : State) : State :=
  let busy := (s.survey.cands.filter (·.running)).length
  let room := min (64 - busy) (320 - chainsUsed s)
  let l := s.survey.cands.foldl (fun (a : List SurveyCand × Nat) c =>
    if c.running || a.2 = 0 then (a.1 ++ [c], a.2)
    else (a.1 ++ [{ c with running := true, since := now s }], a.2 - 1)) ([], room)
  { s with survey := { s.survey with cands := l.1 } }

/-- The spectrum that a placement covers: W4's 0.1 to 40 MHz, or the width above the LO (R114, R139). -/
def placementBand (w : SurveyWin) : Int × Int :=
  if w.tuner = 4 then (100000, 40000000) else ((w.lo : Int) + 6000000, (w.lo : Int) + 6000000 + 1000 * (w.widthKhz : Int))

/-- Does a placement cover a channel of a half bandwidth (R117), or for 0 a frequency? -/
def placed (w : SurveyWin) (h : Nat) (f : Int) : Bool :=
  (placementBand w).1 ≤ f - h && f + h ≤ (placementBand w).2

/-- Is a placement one of the sweep's windows that measure now? -/
def SurveyWin.measures (w : SurveyWin) : Bool := w.stage == .up

/-- The placement that measures a point of a band. -/
def ownPlacement (s : State) (band f : Nat) : Option SurveyWin := match s.survey.cfg.bands[band]? with
  | none => none
  | some b => s.survey.wins.find? (fun w => w.measures && w.band == band && placed w (halfBand (kindOf b.kind)) (f : Int))

/-- May a placement of the sweep have measured the image of a frequency: it covers 2 × LO - f, where LO is that of the
entry's own window (R255)? The HF input has no LO. -/
def seesImage (s : State) (band f : Nat) (w : SurveyWin) : Bool := match ownPlacement s band f with
  | some own => own.tuner != 4 && w.measures && placed w 0 (2 * (own.lo : Int) - (f : Int))
  | none => false

/-- A spectrum point with its powers referred to the input of an external amplifier, those of its image at the ports of the windows
that cover the image (R133, R255). -/
def referPoint (s : State) (x : SurveyPoint) : SurveyPoint := match s.survey.cfg.bands[x.band]? with
  | some b => { x with
    powerTenthDbm := referPower s (if kindInWindow (kindOf b.kind) 4 then 6 else b.port) x.powerTenthDbm
    images := x.images.filterMap (fun i => match s.survey.wins[i.1]? with
      | some w => if seesImage s x.band x.freq w then some (i.1, referPower s w.port i.2) else none
      | none => none) }
  | none => x

/-- The strongest image that a window of the sweep measured (R255). -/
def strongestImage (x : SurveyPoint) : Option Int :=
  (x.images.map (·.2)).foldl (fun a p => some (match a with
    | some q => max p q
    | none => p)) none

/-- The raster points that the placements now up measure. -/
def measuredPoint (s : State) (x : SurveyPoint) : Bool := (ownPlacement s x.band x.freq).isSome

/-- A raster point of a band: from its start in steps of its raster, or a DAB block (R251, R252). -/
def rasterPoint (c : SurveyConfig) (x : SurveyPoint) : Bool := match c.bands[x.band]? with
  | none => false
  | some b =>
    b.start ≤ x.freq && x.freq ≤ b.stop &&
    channelFrom b x.freq == some x.freq

/-- SURVEY_SPECTRUM_DONE: after 200 ms of spectrum of the placements that are up, their candidates are found and the strongest start; the
next placements follow where none is found (R252). -/
def execSurveySpectrumDone (pts : List SurveyPoint) (s : State) : Host.Outcome State Fault Refusal :=
  within s (clockRuns s 6) (match s.survey.spectrumAt with
    | none => s
    | some began => if !s.survey.running || s.survey.measured || s.set.mode != .survey then s
    else
      let s := passTo (began + ms 200) s
      let pts := (pts.filter (fun x => rasterPoint s.survey.cfg x && measuredPoint s x)).map (referPoint s)
      let found := ((pts.filter (isCandidate s.survey.cfg pts)).map (fun x =>
        ({ band := x.band, freq := x.freq, power := x.powerTenthDbm, image := strongestImage x } : SurveyCand))).mergeSort
        (fun a b => b.power ≤ a.power)
      nextPlacements (startCands { s with survey := { s.survey with
        measured := true, cands := s.survey.cands ++ found, candidates := s.survey.candidates + found.length } }))

/-! ### Records (R252 step 4, R254, R255) -/

/-- A survey record's 64 bytes (R255). -/
def surveyRecord (ty kind flags port freq : Nat) (power quality : Int) (ident comp services codec pass entry : Nat)
    (label : List Byte) (cs : Byte) : List Byte :=
  leBytes 1 ty ++ leBytes 1 kind ++ leBytes 1 flags ++ leBytes 1 port ++ leBytes 4 freq ++ leInt 2 power ++ leInt 2 quality ++
  leBytes 4 ident ++ leBytes 1 comp ++ leBytes 1 services ++ leBytes 1 codec ++ zeros 1 ++ leBytes 2 pass ++ leBytes 2 entry ++
  padTo 32 label ++ [cs] ++ leBytes 1 (min 32 label.length) ++ zeros 6

/-- Write a survey Shaving to its ring (R238, R255). -/
def writeSurvey (bytes : List Byte) (stamp : Tick) (s : State) : State := match boundRing s 13 6 {} with
  | some n => offerShaving n { kind := 0x41, epoch := (instantAt s stamp).epoch, stamp := (instantAt s stamp).tick } bytes 0 s
  | none => s

/-- Deliver an entry of the pass and keep it in the list while the list has room; a full list is noted once per pass (R254). -/
def deliverEntry (kind freq : Nat) (bytes : Nat → List Byte) (stamp : Tick) (s : State) : State :=
  let b := bytes s.survey.entries
  let s := writeSurvey b stamp s
  let e : SurveyEntry := { bytes := b, kind := kind, freq := freq, pass := s.survey.pass }
  let s := { s with survey := { s.survey with entries := s.survey.entries + 1 } }
  if s.survey.list.length < 2048 then { s with survey := { s.survey with list := s.survey.list ++ [e] } }
  else if s.survey.fullNoted then s
  else note 0x0603 0xFF 0 s.survey.pass { s with survey := { s.survey with fullNoted := true } }

/-- The first PI code that was read twice with flag 0 (R252 step 4). -/
def matchingPi : List (Nat × Nat) → Option Nat
  | [] => none
  | (pi, 0) :: l => if l.contains (pi, 0) then some pi else matchingPi l
  | _ :: l => matchingPi l

/-- The identity that confirms a candidate: two matching PI codes of FM with flag 0, an EId or a DRM service identifier; AM carries none
(R252 step 4). -/
def foundIdentity (k : Kind) (r : SurveyFind) : Option Nat := match k with
  | .fm => matchingPi r.pis
  | .am => none
  | _ => r.identity

/-- The entries of an acquired candidate: the station, ensemble or signal, then its services (R252 step 4). -/
def deliverFind (c : SurveyCand) (b : SurveyBand) (r : SurveyFind) (s : State) : State :=
  let k := kindOf b.kind
  let ident := foundIdentity k r
  let id := ident.getD 0
  let dup := ident.isSome && s.survey.idents.any (fun x => x.1 == b.kind && x.2.1 == id && x.2.2 != c.freq)
  let risk : Bool := match c.image with
    | some p => c.power + 500 ≤ p
    | none => false
  let fl := ident.isSome.toNat + 2 * dup.toNat + 4 * risk.toNat
  let ty := if analogue k then 0 else if k = .dab then 1 else 2
  let port := if kindInWindow k 4 then 6 else b.port
  let pass := s.survey.pass
  let s := { s with survey := { s.survey with
    list := s.survey.list.filter (fun e => !(e.kind = b.kind && e.freq = c.freq))
    idents := if ident.isSome then (b.kind, id, c.freq) :: s.survey.idents else s.survey.idents } }
  let sv := if analogue k then [] else r.services
  let s := deliverEntry b.kind c.freq (fun n => surveyRecord ty b.kind fl port c.freq c.power r.qualityTenthDb id 0 sv.length 0
    pass n r.label r.charset) r.stamp s
  sv.foldl (fun t x => deliverEntry b.kind c.freq (fun n => surveyRecord 3 b.kind fl port c.freq c.power r.qualityTenthDb
    x.identity x.component 0 x.codec pass n x.label x.charset) r.stamp t) s

/-- SURVEY_DWELL_END: a candidate's dwell ends; acquired, it yields entries; otherwise it is counted as rejected; the next
candidate takes its chain (R252). -/
def execSurveyDwellEnd (c : Nat) (r : SurveyFind) (s : State) : Host.Outcome State Fault Refusal :=
  within s (clockRuns s 6) (match s.survey.cands[c]? with
    | some x => match s.survey.cfg.bands[x.band]? with
      | some b =>
        if !x.running || !s.survey.running || s.set.mode != .survey then s
        else
          let s := passTo (x.since + ms b.dwell) s
          let s := { s with survey := { s.survey with cands := s.survey.cands.eraseIdx c } }
          let s := if r.acquired then deliverFind x b r s
            else { s with survey := { s.survey with rejected := s.survey.rejected + 1 } }
          nextPlacements (startCands s)
      | none => s
    | none => s)

/-- Set the GONE flag, the pass and the entry number of a kept entry's record (R254, R255). -/
def goneBytes (pass n : Nat) (b : List Byte) : List Byte :=
  b.take 2 ++ leBytes 1 (((b.getD 2 0).toNat ||| 8)) ++ (b.drop 3).take 17 ++ leBytes 2 pass ++ leBytes 2 n ++ b.drop 24

/-- Entries of earlier passes that this pass did not find are reported once with GONE and removed (R254). -/
def reportGone (s : State) : State :=
  let gone := s.survey.list.filter (fun e => e.pass != s.survey.pass)
  let s := gone.foldl (fun t e =>
    let t := writeSurvey (goneBytes t.survey.pass t.survey.entries e.bytes) t.time.count t
    { t with survey := { t.survey with entries := t.survey.entries + 1 } }) s
  { s with survey := { s.survey with list := s.survey.list.filter (fun e => e.pass == s.survey.pass) } }

/-- The summary entry of a pass (R255). -/
def summaryRecord (s : State) : List Byte :=
  leBytes 1 4 ++ leBytes 1 0 ++ leBytes 1 16 ++ leBytes 1 0 ++ zeros 20 ++ leBytes 2 s.survey.candidates ++
  leBytes 2 s.survey.entries ++ leBytes 2 s.survey.rejected ++ leBytes 4 ((now s - s.survey.passAt) / 245760) ++ zeros 30

/-- Has a pass run all its steps: every placement has its spectrum and every candidate its confirmation (R252)? A pass without a placement that a tuner
can serve is empty. -/
def passDone (s : State) : Bool :=
  s.survey.cands.isEmpty && !placementsWait s && (s.survey.measured || s.survey.wins.all (·.stage == .past))

/-- SURVEY_PASS_END: a summary entry ends the pass; the next pass starts, or SURVEY_DONE is posted and the windows close
(R252 to R255). -/
def execSurveyPassEnd (s : State) : Host.Outcome State Fault Refusal :=
  within s (clockRuns s 6) (if !s.survey.running || !passDone s || s.set.mode != .survey then s
    else
      let s := reportGone s
      let s := writeSurvey (summaryRecord s) s.time.count s
      if s.survey.cfg.passes = 0 || s.survey.pass < s.survey.cfg.passes then
        startPass (leavePlacements s)
      else closeSweep (post 0x8400 {} (leBytes 2 s.survey.pass ++ leBytes 2 s.survey.list.length ++ zeros 4) none s))

end Sys2Proof.Machine
end

