-- ==== Sys2Proof/Machine/Running.lean ====
section
/-!
DEFINITION. Running.lean: what the active plan runs in a mode: stopping every object of a mode that is left, and starting
those of a mode that is entered or of a plan that was committed (R31, R36 to R39, R350).
-/

namespace Sys2Proof.Machine

/-! ### Stopping (R37, R38) -/

/-- A window of a mode that is left stops: WINDOW_CLOSED, its tuners are WARM, commands that waited for it are answered, and it
stays in the plan with its settings unless it was being closed (R37, R38). -/
def stopWindow (cause : Option Nat) (w : Nat) (s : State) : State :=
  let x := windowAt s w
  if x.state = .closed || x.state = .stopped then s
  else
    let s := if x.state = .closing then s else rememberTuners w s
    let s := (x.tuner.toList ++ (x.partner.map (·.1)).toList).foldl (fun t u => abandonRun u t) s
    let s := postClosed w cause s
    let s := { s with front := { s.front with tuners := s.front.tuners.map (fun u =>
      if u.role = .window w || u.role = .partner w || u.role = .releasing w || u.role = .yielding w false || u.role = .yielding w true then
        tunerReleased x.linger (leastGain w) s u else u) } }
    let dest := x.retuneTo.getD (x.port, x.widthKhz, x.lo)
    let s := if x.state = .closing || x.closeAfter then
        modWindow w (fun x => { x with state := .closed, inPlan := false, partner := none, tuner := none, closeAfter := false }) s
      else modWindow w (fun x => { x with
        state := .stopped, tuner := none, port := dest.1, widthKhz := dest.2.1, lo := dest.2.2, retuneTo := none }) s
    release (.windowOpen w) plainReply (releaseRetunes w (release (.closing w) plainReply s))

/-- The shut-downs in progress end: every object being removed goes, with its completion event (R336). -/
def finishRemovals (cause : Option Nat) (s : State) : State :=
  let s := (s.prog.receptions.filter (·.removing)).foldl (fun t r => finishReception r.idx cause t) s
  let s := (s.prog.branches.filter (·.o.removing)).foldl (fun t x => finishBranch x.o.idx cause t) s
  let s := (s.prog.probes.filter (·.o.removing)).foldl (fun t x => finishProbe x.o.idx cause t) s
  let s := (s.prog.taps.filter (·.o.removing)).foldl (fun t x => finishTap x.o.idx cause t) s
  let s := (s.prog.follows.filter (·.o.removing)).foldl (fun t x => finishFollow x.o.idx cause t) s
  let s := (s.mix.blends.filter (·.o.removing)).foldl (fun t x => finishBlend x.o.idx cause t) s
  (s.prog.pcms.filter (·.o.removing)).foldl (fun t x => finishPcm x.o.idx cause t) s

/-- Gauge and Scarf stop: glances end, decisions lapse, a fade in progress ends at once (R256, R264). -/
def stopFollowing (s : State) : State :=
  let s := (s.prog.follows.map (·.o.idx)).foldl (fun t i => endGlance none i t) s
  let s := (s.mix.blends.map (·.o.idx)).foldl (fun t i => cutFade i t) s
  { s with prog := { s.prog with follows := s.prog.follows.map (fun f => { f with
      pending := none, heldDecision := none, advised := none
      cands := f.cands.map (fun c => if c.state = .probing then { c with state := .unchecked, acquired := false } else c) }) } }

/-- Stop every object of the mode that is left; none leaves the active plan (R37, R38). -/
def stopAll (cause : Option Nat) (s : State) : State :=
  let s := finishRemovals cause s
  let s := stopFollowing s
  let s := stopPcms 480 (fun _ => true) s
  let s := (owners s).foldl (fun t o => stopOwner o t) s
  let s := (List.range 5).foldl (fun t w => stopWindow cause w t) s
  let s := { s with front := { s.front with tuners := s.front.tuners.map (fun u => match u.role with
    | .freeing lg => tunerReleased lg 0 s u
    | _ => u) } }
  refreshTuners s

/-- In IDLE the tuners are OFF (the table Major modes). -/
def tunersOff (s : State) : State :=
  { s with front := { s.front with tuners := s.front.tuners.map (fun u => { u with state := .off, role := .unused, lingerAt := none }) } }

/-! ### What runs -/

/-- Does a window of the plan run: in SENTRY the lowest-numbered marked one of W0 to W3 (R31, R38)? -/
def windowRuns (s : State) (w : Nat) : Bool :=
  let x := windowAt s w
  x.inPlan && (if s.set.mode = .sentry then
      x.sentry && w < 4 && !(List.range w).any (fun v => (windowAt s v).inPlan && (windowAt s v).sentry)
    else runsIn s.set.mode x.sentry)

/-- The receptions that run: in SENTRY the marked ones, the first 8 by creation (R31, R38). -/
def receptionsRunning (s : State) : List Nat :=
  if s.set.mode = .serve then (s.prog.receptions.filter (fun r => !r.removing)).map (·.idx)
  else if s.set.mode = .sentry then
    (((s.prog.receptions.filter (fun r => r.sentry && !r.removing)).mergeSort (fun a b => a.serial ≤ b.serial)).take 8).map (·.idx)
  else []

/-- The owners of chains that run: branches and probes in SERVE only (R31). -/
def ownersRunning (s : State) : List ChainOwner :=
  (receptionsRunning s).map .reception ++
  (if s.set.mode = .serve then (s.prog.branches.filter (fun b => !b.o.removing)).map (fun b => ChainOwner.branch b.o.idx) ++
    (s.prog.probes.filter (fun p => !p.o.removing)).map (fun p => ChainOwner.probe p.o.idx) else []) ++
  (s.prog.taps.filter (fun t => !t.o.removing && runsIn s.set.mode t.o.sentry)).map (fun t => ChainOwner.tap t.o.idx)

/-! ### Starting (R36, R350, R605, R606) -/

/-- The windows of the plan that should run begin to open, and then their partners come up (R605, R606): every window has its tuner before
the first planned partner is taken. DESIGN CHOICE, log 165. -/
def startWindows (s : State) : State :=
  let due := (List.range 5).filter (fun w => (windowAt s w).state == .stopped && windowRuns s w)
  let s := due.foldl (fun t w => openWindow w t) s
  due.foldl (fun t w => if (windowAt t w).state = .opening then bringPartner w t else t) s

/-- Start the chain of an object that is neither started nor shed. -/
def startObject (cause : Option Nat) (o : ChainOwner) (s : State) : State :=
  if ((chainOf s o).map chainStarted).getD true || ownerShed s o then s
  else match o with
    | .probe i => startProbe cause i s
    | _ => startOwner cause o s

/-- Start the chains of every object that should run; those started already stay as they are (R36, R350, R357). -/
def startObjects (cause : Option Nat) (s : State) : State :=
  (ownersRunning s).foldl (fun t o => startObject cause o t) s

/-- Stop the objects of the mode that should not run in it: those whose SENTRY mark a commit took away (R38, R358). -/
def stopUnmarked (cause : Option Nat) (s : State) : State :=
  let keep := ownersRunning s
  let s := ((owners s).filter (fun o => !keep.contains o && !ownerRemoving s o)).foldl (fun t o => stopOwner o t) s
  let s := stopPcms 480 (fun x => !pcmRuns s x) s
  refreshTuners ((List.range 5).foldl (fun t w =>
    if windowRuns t w || (windowAt t w).state = .closing then t else stopWindow cause w t) s)

/-- Have the windows that open or retune, and the partners that come up, reached their settings? -/
def windowsSettled (s : State) : Bool :=
  (List.range 5).all (fun w =>
    let x := windowAt s w
    x.state != .opening && x.state != .retuning &&
    (x.state != .open || (match x.partner with
      | some (t, _) => (tunerAt s t).role != .partner w || (tunerAt s t).state == .locked || (tunerAt s t).state == .serving
      | none => true)))

/-- On entry to SERVE a pair plays its branch A, UNALIGNED (R275, R281). -/
def freshBlends (s : State) : State :=
  let fresh (b : Blend) : Blend :=
    { b with
      playing := 0, aligned := false, agree := [], misses := 0, delay := 0
      request := none, waiting := none, heldBranch := none
      a := (b.heldBranch.map (·.1)).getD b.a, b := (b.heldBranch.map (·.2)).getD b.b }
  let s := { s with mix := { s.mix with blends := s.mix.blends.map fresh } }
  (s.mix.blends.map (·.o.idx)).foldl (fun t i => blendTo i .unaligned none t) s

/-- Enter a mode: its windows are open on locked tuners, its chains are started; SURVEY starts its first pass (R36, R38, R251). -/
def enterRunning (cause : Option Nat) (s : State) : State :=
  if s.set.mode = .survey then enterSurvey s
  else if s.set.mode = .serve || s.set.mode = .sentry then
    let s := startWindows (if s.set.mode = .serve then freshBlends s else s)
    let s := (List.range 5).foldl (fun t w => windowOpened w t) s
    startObjects cause s
  else tunersOff s

end Sys2Proof.Machine
end

