-- ==== Sys2Proof/Machine/CompatOps.lean ====
section
/-!
DEFINITION. CompatOps.lean: the OMN-T1 emulation as it acts on the object tables: the window of T0, the placing of its LO, the
channels' receptions and the PCM output (R32, R143, R554, R557 to R560).
-/

namespace Sys2Proof.Machine

/-! ### Tuning (R143, R557, R559) -/

/-- A window's width in kHz by BANDWIDTH (R557). -/
def compatWidth (bw : Nat) : Nat := if bw = 0 then 6000 else if bw = 1 then 12000 else 24000

/-- The port a frequency in kHz is received on: ANT_V0 below 850,000 kHz, ANT_L0 from there up. -/
def compatPort (khz : Nat) : Nat := if khz < 850000 then 0 else 4

/-- A frequency in kHz within the LO limits of the direct-conversion path on a port (R143). -/
def compatLimit (port width khz : Nat) : Nat :=
  if port < 4 then clampNat (30000 + width / 2) (300000 - width / 2) khz
  else clampNat (1400000 + width / 2) (1700000 - width / 2) khz

/-- A channel of the emulation as applied. -/
def compatChannel (s : State) (c : Nat) : CompatChannel := s.set.compat.channels.getD c {}

/-- The kind of a channel by CH_CTRL.STANDARD (R557). -/
def compatKind (standard : Nat) : Kind := if standard = 0 then .fm else if standard = 1 then .dab else .drmPlus

/-- Does a window of a width in kHz about an LO in kHz cover a channel (R117, R143)? -/
def compatCovers (lo width : Nat) (x : CompatChannel) : Bool :=
  let h := halfBand (compatKind x.standard)
  lo * 1000 + h ≤ x.freqKhz * 1000 + width * 500 && x.freqKhz * 1000 + h ≤ lo * 1000 + width * 500

/-- Does an LO lie inside a channel's coverage band, widened by 1 kHz on each side (R559)? -/
def compatHits (lo : Nat) (x : CompatChannel) : Bool :=
  apart (lo * 1000) (x.freqKhz * 1000) ≤ halfBand (compatKind x.standard) + 1000

/-- The physical LO in kHz (R559): the first shift 0, +25, -25 ... to 1,000 kHz that clears every enabled channel and uncovers
none that the unshifted LO covers; 0 where none does. -/
def compatPlace (s : State) (tune bw : Nat) : Nat :=
  let w := compatWidth bw
  let port := compatPort tune
  let on := s.set.compat.channels.filter (·.enable)
  let lo (d : Int) : Nat := compatLimit port w ((tune : Int) + d).toNat
  let good (d : Int) : Bool := on.all (fun x => !compatHits (lo d) x && (!compatCovers (lo 0) w x || compatCovers (lo d) w x))
  let shifts : List Int := 0 :: (List.range 40).flatMap (fun (i : Nat) => [25 * ((i : Int) + 1), -(25 * ((i : Int) + 1))])
  lo ((shifts.find? good).getD 0)

/-- W0's settings in COMPAT: GAIN, and the LO as placed. -/
def compatSettings (c : CompatSettings) : WinSettings :=
  { port := compatPort c.tuneKhz, agc := if c.gain = 0xFF then 0 else 1, gain := if c.gain = 0xFF then 0 else c.gain
    width := compatWidth c.bandwidth, lo := c.physKhz * 1000, linger := 1, clamped := false }

/-- Is an open or a retune of W0 running or about to run (R560)? -/
def compatTuning (s : State) : Bool :=
  let x := windowAt s 0
  x.state == .opening || x.state == .retuning || x.retuneTo.isSome

/-- Put the LO where R559 places it; W0 is retuned when its settings change (R121, R559). -/
def compatRetune (s : State) : State :=
  let c := s.set.compat
  let k := compatPlace s c.tuneKhz c.bandwidth
  let s := if k = c.physKhz then s else setSettings { s.set with compat := { c with physKhz := k } } s
  (retuneWindow 0 (compatSettings s.set.compat) s).1

/-- With no retune left to run, a tune that was applied is complete: IRQ_FLAGS.TUNE_DONE (R557, R560). -/
def compatDone (s : State) : State :=
  if s.compat.applyDone && !compatTuning s && (windowAt s 0).state == .open then
    { s with compat := { s.compat with applyDone := false, irq := s.compat.irq ||| 1 } }
  else s

/-- Apply a tune: frequency in kHz and bandwidth code (R557 to R559). -/
def compatTune (khz bw : Nat) (s : State) : State :=
  let b := min bw 2
  let f := compatLimit (compatPort khz) (compatWidth b) khz
  let s := setSettings { s.set with compat := { s.set.compat with tuneKhz := f, bandwidth := b } } s
  compatDone (compatRetune { s with compat := { s.compat with applyDone := true } })

/-- An open or a retune of W0 has ended: a tune that waited is applied, and channel changes made meanwhile place the LO anew, in
one retune with it (R560). -/
def compatTuned (s : State) : State :=
  if s.set.mode != .compat || compatTuning s then s
  else match s.compat.tuneAgain with
    | some x => compatTune x.1 x.2 { s with compat := { s.compat with tuneAgain := none } }
    | none => compatDone (compatRetune s)

/-! ### Channels (R554, R557 to R560) -/

/-- RECEPTION_ADD's payload for a channel: W0, the default bank, no delay, and the analogue settings that R178 suggests. -/
def compatPayload (x : CompatChannel) : List Byte :=
  leBytes 1 (kindCode (compatKind x.standard)) ++ zeros 3 ++ leBytes 4 (x.freqKhz * 1000) ++ leBytes 2 0xFFFF ++ zeros 6 ++
  (if x.standard = 0 then zeros 6 ++ leBytes 1 0x0F ++ zeros 1 ++ leBytes 2 80 ++ leBytes 2 750 ++ zeros 4 else zeros 16)

/-- The reception of a channel. -/
def compatRx (s : State) (c : Nat) : Option Reception := (s.compat.chRx.getD c none).bind (receptionAt s)

/-- Create the reception of an enabled channel and start it, by the admission of RECEPTION_ADD: a channel that is refused is not
enabled (R554). -/
def compatStart (c : Nat) (s : State) : State :=
  let i := newReceptionIndex s
  let x := compatChannel s c
  let t := (createReception i false (compatPayload x) s).1
  if (lowest (admission s t)).isSome then
    setSettings { s.set with compat := { s.set.compat with channels := setAt s.set.compat.channels c { x with enable := false } } } s
  else
    let t := bumpPlan { t with compat := { t.compat with chRx := setAt t.compat.chRx c (some i) } }
    compatFollow (startOwner none (.reception i) t)

/-- Bring a channel to what its registers say: its reception is created, moved, or removed; a change of standard, and an enable
while it shuts down, wait for the removal (R560). -/
def compatApply (c : Nat) (s : State) : State :=
  let x := compatChannel s c
  match compatRx s c with
  | none => if x.enable then compatStart c s else s
  | some r =>
    if r.removing then s
    else if x.enable && r.kind = compatKind x.standard then
      let y := changeReception r.idx (compatPayload x) s
      if y.2.2.2 then compatFollow (afterMove r.idx true none (bumpPlan y.1)) else compatFollow s
    else
      let s := compatRefresh (trackMore (shutReception r.idx 0 (bumpPlan s)))
      if (receptionAt s r.idx).isNone then
        let s := { s with compat := { s.compat with chRx := setAt s.compat.chRx c none } }
        if x.enable then compatStart c s else s
      else s

/-- Receptions of the emulation have been removed: channels that waited for it start (R560). -/
def compatRemoved (s : State) : State :=
  if s.set.mode != .compat then s
  else ([0, 1, 2, 3] : List Nat).foldl (fun t c =>
    if (t.compat.chRx.getD c none).isSome && (compatRx t c).isNone then
      let t := { t with compat := { t.compat with chRx := setAt t.compat.chRx c none } }
      if (compatChannel t c).enable then compatStart c t else t
    else t) s

/-- A write to CH_CTRL: it applies STANDARD, CH_FREQ and CH_SERVICE, runs or ends the channel, and places the LO; during a tune the
placing waits for it (R557 to R560). -/
def compatCtrl (c : Nat) (v : Byte) (s : State) : State :=
  let old := compatChannel s c
  let std := min ((v.toNat / 2) % 4) 2
  let khz := (s.compat.chFreq.getD c none).getD old.freqKhz
  let x : CompatChannel := {
    enable := v.getLsbD 0, standard := std, rds := v.getLsbD 3
    freqKhz := clampFreq (compatKind std) (khz * 1000) / 1000
    service := (s.compat.chService.getD c none).getD old.service }
  let s := { s with compat := { s.compat with
    chFreq := setAt s.compat.chFreq c none, chService := setAt s.compat.chService c none } }
  let s := setSettings { s.set with compat := { s.set.compat with channels := setAt s.set.compat.channels c x } } s
  let s := compatApply c s
  if compatTuning s then s else compatDone (compatRetune s)

/-! ### Entering and leaving (R32, R39, R554) -/

/-- The emulation's PCM output: the one that holds TDM0's first slots, made where there is none (R554). -/
def compatPcm (s : State) : State :=
  if (slotHolder s 0 0 32).isSome then s
  else (createPcm (newPcmIndex s) false (handleBytes { index := 0xFFFF } ++ zeros 12) s).1

/-- An enabled channel's reception starts again, or is added. -/
def compatResume (c : Nat) (s : State) : State := match compatRx s c with
  | some r => startOwner none (.reception r.idx) s
  | none => compatStart c s

/-- COMPAT runs: W0 opens on T0 at the settings restored, the enabled channels' receptions start, and the PCM output plays
(R32, R36, R557). -/
def compatEnter (s : State) : State :=
  let s := { s with
    compat := { s.compat with ready := true }
    mix := { s.mix with tdm := setAt s.mix.tdm 0 (tdmInUse s 0) } }
  let c := compatSettings s.set.compat
  let s := if (windowAt s 0).inPlan then
      modWindow 0 (fun x => { x with port := c.port, agc := c.agc, fixedGain := c.gain, widthKhz := c.width, lo := c.lo, partner := none }) s
    else planWindow 0 c false s
  let s := windowOpened 0 (openWindow 0 s)
  let s := compatPcm s
  let s := (([0, 1, 2, 3] : List Nat).filter (fun c => (compatChannel s c).enable)).foldl (fun t c => compatResume c t) s
  compatFollow s

/-- COMPAT is left: what was written and not applied is discarded (R560), and TDM0 follows its setting again. -/
def compatLeave (s : State) : State :=
  { s with
    compat := { s.compat with
      ready := false, overflow := false, irq := 0, fifo := [], fifoPos := 0, key := none, tuneFreq := none, tuneBw := none
      tuneAgain := none, applyDone := false, chFreq := [none, none, none, none], chService := [none, none, none, none], acquired := 0 }
    mix := { s.mix with tdm := setAt s.mix.tdm 0 (tdmOf s 0) } }

end Sys2Proof.Machine
end

