-- ==== Sys2Proof/Machine/Plan.lean ====
section
/-!
DEFINITION. Plan.lean: plans: rendering the active plan as entries, staging, checking, admitting and applying a staged plan,
and the ends of the shut-downs, openings and retunes that a commit waits for (R344 to R351, R383, R39, R208).
-/

namespace Sys2Proof.Machine

/-! ### The active plan as entries (R349, R383) -/

/-- One entry: a command frame padded with zeros to a multiple of 4 bytes; flags bit 1 is the SENTRY mark (R349). -/
def renderPlanEntry (op : Nat) (mark : Bool) (target : Handle) (payload : List Byte) : List Byte :=
  let b := frameBytes op 0 (2 * mark.toNat) 0 target 0 payload
  b ++ zeros ((b.length + 3) / 4 * 4 - b.length)

/-- The entries of a window: its settings, then its gang. -/
def renderWindow (s : State) (w : Nat) : List Byte :=
  let x := windowAt s w
  let h := windowHandle s w
  let dest := x.retuneTo.getD (x.port, x.widthKhz, x.lo)
  renderPlanEntry 0x0300 x.sentry h (leBytes 1 dest.1 ++ leBytes 1 x.agc ++ leBytes 2 x.fixedGain ++ leBytes 4 dest.2.1 ++
    leBytes 4 dest.2.2 ++ leBytes 1 x.linger ++ zeros 3) ++
  (match x.partner with
    | some (t, p) => renderPlanEntry 0x0304 x.sentry h (leBytes 1 t ++ leBytes 1 p ++ zeros 2)
    | none => [])

/-- The payload of PROGRAMME_SELECT and the first 12 bytes of PROGRAMME_MEASURE (R374, R375). -/
def renderAddress (on : Nat) (second : Int) (ident : Option (Handle × Nat × Nat)) : List Byte :=
  leBytes 1 on ++ leInt 1 second ++ leBytes 1 ident.isSome.toNat ++ leBytes 1 ((ident.map (·.2.2)).getD 0) ++
  handleBytes ((ident.map (·.1)).getD {}) ++ leBytes 4 ((ident.map (·.2.1)).getD 0)

/-- Does a standing setting of one of two kinds name a programme? -/
def standsFor (s : State) (p : Programme) (pick : Standing → Bool) : Bool :=
  s.prog.standing.any (fun x => standingFits p x && pick x)

/-- The settings stated for a reception: its alerts, its standing settings, and the selections and measurements of its
programmes that were made by handle (R212, R246, R374, R375). -/
def renderSettings (s : State) (r : Reception) : List Byte :=
  let h : Handle := { index := r.idx, gen := r.gen }
  (if r.alertCfg = {} then [] else renderPlanEntry 0x0509 r.sentry h (alertBytes r.alertCfg)) ++
  (s.prog.standing.filter (fun x => x.reception = r.idx)).flatMap (fun x =>
    let id := some (h, x.service, x.component)
    (match x.select with
      | some res => renderPlanEntry 0x0600 false {} (renderAddress 1 res.toNat id)
      | none => []) ++
    (match x.measure with
      | some (iv, th, st) => renderPlanEntry 0x0601 false {} (renderAddress 1 th id ++ leBytes 2 iv ++ leBytes 2 st)
      | none => [])) ++
  (s.prog.programmes.filter (fun p => p.reception = r.idx)).flatMap (fun p =>
    (if p.selected && !standsFor s p (fun x => x.select.isSome) then
      renderPlanEntry 0x0600 false (programmeHandle p) (renderAddress 1 p.reserve.toNat none) else []) ++
    (if p.measured && !standsFor s p (fun x => x.measure.isSome) then
      renderPlanEntry 0x0601 false (programmeHandle p) (renderAddress 1 p.threshold none ++ leBytes 2 p.nextInterval ++
        leBytes 2 p.silenceS) else []))

/-- PROBE_ADD's payload of a probe. -/
def renderProbe (p : Probe) : List Byte :=
  (match p.nextFollow.getD p.follow with
    | some h => handleBytes h
    | none => handleBytes { index := 0xFFFF, gen := 0 }) ++ leBytes 1 (kindCode p.kind) ++ zeros 3 ++ p.block

/-- Every object of the plan with its creation order and its entries; an object under shut-down has left the plan. -/
def renderObjects (s : State) : List (Nat × List Byte) :=
  ((List.range 5).filter (fun w => (windowAt s w).inPlan && (windowAt s w).state != .closing && !(windowAt s w).closeAfter)).map
    (fun w => ((windowAt s w).created, renderWindow s w)) ++
  (s.prog.receptions.filter (fun r => !r.removing)).map (fun r =>
    (r.serial, renderPlanEntry 0x0500 r.sentry { index := r.idx, gen := r.gen } (receptionBytes r) ++ renderSettings s r)) ++
  (s.prog.branches.filter (fun b => !b.o.removing)).map (fun b =>
    (b.o.serial, renderPlanEntry 0x0504 b.o.sentry { index := b.o.idx, gen := b.o.gen }
      (handleBytes (ownerHandle s (.reception b.reception))))) ++
  (s.prog.taps.filter (fun t => !t.o.removing)).map (fun t =>
    (t.o.serial, renderPlanEntry 0x0506 t.o.sentry { index := t.o.idx, gen := t.o.gen }
      (leBytes 1 (chainWindow t.chain) ++ zeros 3 ++ chainBlockBytes t.chain))) ++
  (s.prog.probes.filter (fun p => !p.o.removing)).map (fun p =>
    (p.o.serial, renderPlanEntry 0x0903 p.o.sentry { index := p.o.idx, gen := p.o.gen } (renderProbe p))) ++
  (s.prog.follows.filter (fun f => !f.o.removing)).map (fun f =>
    (f.o.serial, renderPlanEntry 0x0900 f.o.sentry { index := f.o.idx, gen := f.o.gen } f.payload)) ++
  (s.mix.blends.filter (fun b => !b.o.removing)).map (fun b =>
    (b.o.serial, renderPlanEntry 0x0907 b.o.sentry { index := b.o.idx, gen := b.o.gen } (blendBytes b))) ++
  (s.prog.pcms.filter (fun x => !x.o.removing)).map (fun x =>
    (x.o.serial, renderPlanEntry 0x0700 x.o.sentry { index := x.o.idx, gen := x.o.gen } (pcmBytes x)))

/-- The loaded banks and curve tables, which objects refer to and which therefore come first. -/
def renderTables (s : State) : List Byte :=
  ((List.range 32).filter (fun i => (userBank s (32 + i)).kind.isSome)).flatMap (fun i =>
    renderPlanEntry 0x0A00 false { index := 32 + i, gen := bankGen s (32 + i) } (bankBytes s (32 + i))) ++
  ((List.range 12).filter (fun i => ((s.mix.curves.getD i {}).points).isSome)).flatMap (fun i =>
    renderPlanEntry 0x0A02 false { index := 4 + i, gen := curveGen s (4 + i) }
      (zeros 4 ++ (curvePoints s (4 + i)).flatMap (leBytes 2)))

/-- The plan data of the active plan: tables, objects with their settings in the order of their creation, bindings (R383). -/
def planData (s : State) : List Byte :=
  renderTables s ++ ((renderObjects s).mergeSort (fun a b => a.1 ≤ b.1)).flatMap (·.2) ++
  s.plan.binds.flatMap (fun b => renderPlanEntry 0x0800 false b.2.1 (leBytes 1 b.1 ++ leBytes 1 b.2.2.2 ++ zeros 2))

/-- The plan record as it would be written now (R45, R47, R208, R332). -/
def planRecord (s : State) : PlanRecord :=
  { bytes := planData s, seq := s.plan.seq
    progs := s.prog.programmes.map (fun p => (p.idx, p.gen, p.reception, p.decl))
    gens := [s.gens.reception, s.gens.branch, s.gens.programme, s.gens.probe, s.gens.tap, s.gens.follow, s.gens.blend, s.gens.pcm,
      s.front.windows.map (·.gen), s.mix.banks.map (·.gen), s.mix.curves.map (·.gen), [s.gens.fixed]] }

/-- Queue the write of the plan record (R54, R350). -/
def writePlan (s : State) : State :=
  let r := planRecord s
  (queueWrite .plan (.plan r) r.bytes.length false s).2

/-! ### Reading plan data (R349) -/

/-- One entry of plan data. -/
structure PlanEntry where
  off     : Nat
  op      : Nat
  mark    : Bool
  target  : Handle
  payload : List Byte
  deriving DecidableEq, Repr

/-- Split plan data into its entries; the second part is the offset at which it stops being one. -/
def parseEntries : Nat → Nat → List Byte → List PlanEntry × Option Nat
  | 0, _, _ => ([], none)
  | fuel + 1, off, d =>
    if d.isEmpty then ([], none)
    else if d.length < 16 then ([], some off)
    else
      let n := field d 4 2
      if d.length < 16 + n then ([], some (off + 4))
      else
        let len := (16 + n + 3) / 4 * 4
        let e : PlanEntry := { off := off, op := field d 0 2, mark := (field d 6 1).testBit 1, target := handleAt d 8
                               payload := (d.drop 16).take n }
        let r := parseEntries fuel (off + len) (d.drop len)
        (e :: r.1, r.2)

/-- The entries of plan data. -/
def entriesOf (d : List Byte) : List PlanEntry × Option Nat := parseEntries (d.length / 16 + 1) 0 d

/-- The class an entry creates an object of: 0 reception, 1 branch, 2 probe, 3 tap, 5 PCM output, 7 window, 8 follow object,
9 blend pair, 10 bank, 11 curve table; 4 is programmes and 6 the device. -/
def createdClass (op : Nat) : Option Nat :=
  if op = 0x0300 then some 7 else if op = 0x0500 then some 0 else if op = 0x0504 then some 1 else if op = 0x0506 then some 3
  else if op = 0x0700 then some 5 else if op = 0x0900 then some 8 else if op = 0x0903 then some 2 else if op = 0x0907 then some 9
  else if op = 0x0A00 then some 10 else if op = 0x0A02 then some 11 else none

/-- The payload lengths of the commands marked Plan; none for any other opcode (R349). -/
def entryLength (op : Nat) : Option Nat :=
  if op = 0x0300 || op = 0x0506 || op = 0x0601 || op = 0x0700 || op = 0x0907 then some 16
  else if op = 0x0304 || op = 0x0504 || op = 0x0509 || op = 0x0800 then some 4
  else if op = 0x0500 then some 32 else if op = 0x0600 then some 12 else if op = 0x0900 then some 132
  else if op = 0x0903 then some 20 else if op = 0x0A00 then some 388 else if op = 0x0A02 then some 516 else none

/-- The classes an entry's target handle may name. -/
def targetClasses (e : PlanEntry) : List Nat :=
  if e.op = 0x0304 then [7] else if e.op = 0x0509 then [0] else if e.op = 0x0600 || e.op = 0x0601 then [4]
  else if e.op = 0x0800 then outputClasses (field e.payload 0 1) else (createdClass e.op).toList

/-- Where an entry's payload holds handles, and of which classes. -/
def entryRefs (e : PlanEntry) : List (Nat × List Nat) :=
  if e.op = 0x0500 then [(8, [10])] else if e.op = 0x0504 then [(0, [0])]
  else if e.op = 0x0600 || e.op = 0x0601 then (if field e.payload 2 1 = 0 then [] else [(4, [0])])
  else if e.op = 0x0700 then [(0, [4, 8, 9])]
  else if e.op = 0x0900 then [(0, [0]), (4, [9]), (56, [0]), (60, [0]), (64, [0])]
  else if e.op = 0x0903 then [(0, [8]), (12, [10])] else if e.op = 0x0907 then [(0, [4]), (4, [4])] else []

/-- The current generation of an index of a class; none outside the class's range (R331). -/
def classGen (s : State) (cls i : Nat) : Option Nat := match cls with
  | 0 => s.gens.reception[i]?
  | 1 => s.gens.branch[i]?
  | 2 => s.gens.probe[i]?
  | 3 => s.gens.tap[i]?
  | 4 => s.gens.programme[i]?
  | 5 => s.gens.pcm[i]?
  | 7 => if i < 5 then some (windowAt s i).gen else none
  | 8 => s.gens.follow[i]?
  | 9 => s.gens.blend[i]?
  | 10 => if i < 64 then some (bankGen s i) else none
  | _ => if i < 16 then some (curveGen s i) else none

/-- Is there an object at an index of a class? Banks and tables can always be loaded. -/
def classTaken (s : State) (cls i : Nat) : Bool := match cls with
  | 0 => (receptionAt s i).isSome
  | 1 => (branchObj s i).isSome
  | 2 => (probeObj s i).isSome
  | 3 => (tapObj s i).isSome
  | 4 => (programmeAt s i).isSome
  | 5 => (pcmObj s i).isSome
  | 7 => (windowAt s i).inPlan
  | 8 => (followObj s i).isSome
  | 9 => (blendObj s i).isSome
  | _ => false

/-- Is a handle a new one (R349)? -/
def newHandle (h : Handle) : Bool := h.gen == 0xFFFF && h.index != 0xFFFF

/-- A handle of an entry as it stands once the entries before it are applied: a new one takes the generation it was given; none
where no entry before created it. -/
def resolveHandle (s : State) (news : List (Nat × Nat)) (cls : List Nat) (h : Handle) : Option Handle :=
  if !newHandle h then some h
  else (cls.find? (fun c => news.contains (c, h.index))).map (fun c => { h with gen := (classGen s c h.index).getD 0 })

/-- Put a handle into a payload. -/
def putHandle (p : List Byte) (off : Nat) (h : Handle) : List Byte := p.take off ++ handleBytes h ++ p.drop (off + 4)

/-- The payload of an entry with its handles resolved, or the offset of one that refers to an object not created yet. -/
def resolveRefs (s : State) (news : List (Nat × Nat)) : List (Nat × List Nat) → List Byte → Except Nat (List Byte)
  | [], p => .ok p
  | x :: xs, p => match resolveHandle s news x.2 (handleAt p x.1) with
    | some h => resolveRefs s news xs (putHandle p x.1 h)
    | none => .error x.1

/-- Does an entry create its object? -/
def entryCreates (news : List (Nat × Nat)) (e : PlanEntry) : Bool := match createdClass e.op with
  | some c => newHandle e.target && !news.contains (c, e.target.index)
  | none => false

/-- Does an entry act on no object of its target handle: the device's outputs, and settings by identity? -/
def targetFree (e : PlanEntry) : Bool :=
  (e.op == 0x0800 && ((targetClasses e).contains 6 || (targetClasses e).isEmpty)) ||
  ((e.op == 0x0600 || e.op == 0x0601) && field e.payload 2 1 != 0)

/-- An entry as the frame of its command: opcode and length known, handles resolved (R349). -/
def entryFrame (s : State) (news : List (Nat × Nat)) (e : PlanEntry) : Except Fail CmdFrame :=
  match entryLength e.op with
  | none => .error { status := 6, detail := 5, off := e.off }
  | some n =>
    if e.payload.length ≠ n then .error { status := 6, detail := 5, off := e.off + 4 }
    else
      let t := if entryCreates news e || targetFree e then some e.target else resolveHandle s news (targetClasses e) e.target
      match t, resolveRefs s news (entryRefs e) e.payload with
      | none, _ => .error { status := 6, detail := 5, off := e.off + 8 }
      | _, .error k => .error { status := 6, detail := 5, off := e.off + 16 + k }
      | some h, .ok p => .ok { port := 3, portField := 3, target := h, payload := p }

/-- The target of an entry as its command's checks expect it: index 0xFFFF for a new object of the classes in which the device
chooses the index (R332). -/
def asDirect (new : Bool) (f : CmdFrame) : CmdFrame := if new then { f with target := { index := 0xFFFF, gen := 0 } } else f

/-- The checks of an entry's command on the plan as the entries before it leave it (R350 step 2). -/
def entryChecks (new : Bool) (op : Nat) (f : CmdFrame) (s : State) : Checks :=
  let own (modes : List Mode) (cls : Nat) : Checks :=
    let j := if new then HandleState.live else judge f.target (classGen s cls f.target.index) (classTaken s cls f.target.index)
    objChecks f true modes j
  if op = 0x0300 then { own modesISE 7 with modeOk := !(s.set.mode = .sentry && f.target.index = 4) }
  else if op = 0x0304 then
    let c := windowGangChecks f s
    let same : Bool := (windowAt s f.target.index).partner == some (satNat 3 (field f.payload 0 1), satNat 5 (field f.payload 1 1))
    let alone := modWindow f.target.index (fun x => { x with partner := none }) s
    { c with cap := if same then [] else [failIf (!partnerOk alone f.target.index (satNat 3 (field f.payload 0 1))) 4 8 0xFFFF] }
  else if op = 0x0500 then
    let c := own modesIYSE 0
    let k := if new then askedKind f.payload else kindAt s f.target.index
    { c with stale := bankStale s k (askedWindow f.payload 1) f.payload 4 :: c.stale }
  else if op = 0x0504 then
    let c := own modesIS 1
    let h := handleAt f.payload 0
    let j := judgeRx s h false
    let w := ((receptionAt s h.index).map (fun r => chainWindow r.chain)).getD 0
    { c with stale := staleIf j 2 0 :: c.stale, noObj := missingIf j 2 0 :: c.noObj
             cap := [failIf (windowAt s w).partner.isNone 4 8 0] }
  else if op = 0x0506 then own modesIYSE 3
  else if op = 0x0509 then receptionChecks f true modesISE false s
  else if op = 0x0600 || op = 0x0601 then programmeChecks f true s
  else if op = 0x0700 then { pcmRouteChecks (asDirect new f) s with cap := [], modeOk := true }
  else if op = 0x0800 then { outputChecks f s with modes := [.idle, .survey, .serve, .sentry, .test] }
  else if op = 0x0900 then { followSetChecks (asDirect new f) s with cap := [] }
  else if op = 0x0903 then
    let c := probeChecks f s
    let o := own modesIS 2
    { c with stale := o.stale ++ c.stale, noObj := o.noObj ++ c.noObj }
  else if op = 0x0907 then { blendSetChecks (asDirect new f) s with cap := [] }
  else if op = 0x0A00 then
    let load : Bool := bankBytes (loadBank f.target.index f.payload s).1 f.target.index != bankBytes s f.target.index
    { own modesIYSE 10 with
      noObj := [failIf (64 ≤ f.target.index) 3 1 0xFFFF]
      denied := [failIf (f.target.index < 32) 5 2 0xFFFF]
      busy := [failIf (load && bankInUse s f.target.index) 1 1 0xFFFF] }
  else { own modesIYSE 11 with
      noObj := [failIf (16 ≤ f.target.index) 3 1 0xFFFF]
      denied := [failIf (f.target.index < 4) 5 2 0xFFFF] }

/-- A failure of an entry's command as a failure of the commit: its detail for plans and the plan-data offset of the field at
fault (R328, R350). -/
def entryFault (e : PlanEntry) (x : Fail) : Fail :=
  { status := x.status
    detail := if x.status = 6 then 5 else if x.status = 2 || x.status = 3 then 2 else x.detail
    off := (if x.off ≠ 0xFFFF then e.off + 16 + x.off else if x.status = 2 || x.status = 3 then e.off + 8 else e.off) % 65536 }

/-- The first check an entry fails: structure and handles, existence, locks, mode, a resource in use, no tuner (R350). -/
def entryFail (news : List (Nat × Nat)) (e : PlanEntry) (s : State) : Option Fail :=
  match entryFrame s news e with
  | .error x => some { x with off := x.off % 65536 }
  | .ok f =>
    let new := entryCreates news e
    let cls := (createdClass e.op).getD 6
    let c := entryChecks new e.op f s
    let third : Bool := s.set.mode == .sentry && e.op == 0x0700 && e.mark &&
      2 ≤ (s.prog.pcms.filter (fun x => x.o.sentry && x.o.idx != e.target.index)).length
    let range := if new && (classGen s cls e.target.index).isNone then some ({ status := 3, detail := 2, off := (e.off + 8) % 65536 } : Fail)
      else none
    let used := if new && classTaken s cls e.target.index then some ({ status := 6, detail := 5, off := (e.off + 8) % 65536 } : Fail)
      else none
    range.or (used.or (((lowest c.bad).or ((lowest c.stale).or ((lowest c.noObj).or ((lowest c.denied).or
      ((failIf (!c.modes.contains s.set.mode || !c.modeOk || third) 8 s.set.mode.code 0xFFFF).or
        ((lowest c.busy).or (lowest c.cap))))))).map (entryFault e)))

/-! ### Applying entries -/

/-- Set the SENTRY mark of an object (R349, R358). -/
def setMark (cls i : Nat) (m : Bool) (s : State) : State :=
  let o (x : SimpleObj) : SimpleObj := if x.idx = i then { x with sentry := m } else x
  match cls with
  | 0 => modReception i (fun r => { r with sentry := m }) s
  | 1 => { s with prog := { s.prog with branches := s.prog.branches.map (fun x => { x with o := o x.o }) } }
  | 2 => { s with prog := { s.prog with probes := s.prog.probes.map (fun x => { x with o := o x.o }) } }
  | 3 => { s with prog := { s.prog with taps := s.prog.taps.map (fun x => { x with o := o x.o }) } }
  | 5 => { s with prog := { s.prog with pcms := s.prog.pcms.map (fun x => { x with o := o x.o }) } }
  | 7 => modWindow i (fun x => { x with sentry := m }) s
  | 8 => { s with prog := { s.prog with follows := s.prog.follows.map (fun x => { x with o := o x.o }) } }
  | 9 => { s with mix := { s.mix with blends := s.mix.blends.map (fun x => { x with o := o x.o }) } }
  | _ => s

/-- A branch moved to the reception its entry names. -/
def changeBranch (i : Nat) (p : List Byte) (s : State) : State :=
  match receptionAt s (handleAt p 0).index with
  | none => s
  | some r => { s with prog := { s.prog with branches := s.prog.branches.map (fun b =>
      if b.o.idx = i && b.reception != r.idx then
        { b with reception := r.idx, chain := changeChain false (chainWindow r.chain) (blockOf r.chain) b.chain } else b) } }

/-- State a gang: a partner already there stays, another one gives way (R134, R137). -/
def planGang (w : Nat) (p : List Byte) (s : State) : State :=
  let dest := (satNat 3 (field p 0 1), satNat 5 (field p 1 1))
  if (windowAt s w).partner = some dest then s
  else
    let lg := (windowAt s w).linger
    let s := match (windowAt s w).partner with
      | some (t, _) => if (tunerAt s t).role = .partner w then modTuner t (tunerReleased lg 0 s) (dropRun t s) else s
      | none => s
    let s := modWindow w (fun x => { x with partner := some dest }) s
    if windowUp s w then bringPartner w s else s

/-- State a binding; what the ring holds for a MOT output is looked after when all entries are applied (R244, R315). -/
def planBind (f : CmdFrame) (s : State) : State :=
  let code := field f.payload 0 1
  let cls := boundClass s code f.target
  let h := boundHandle f cls
  let ring := field f.payload 1 1
  let rest := s.plan.binds.filter (fun b => !(b.1 == code && b.2.1 == h && b.2.2.1 == cls))
  { s with plan := { s.plan with binds := if ring = 0xFF then rest else rest ++ [(code, h, cls, legalRing code ring)] } }

/-- Create the object of an entry at the index it chose (R349); the second part says that a value was clamped. -/
def createEntry (op i : Nat) (mark : Bool) (f : CmdFrame) (s : State) : State × Bool :=
  let p := f.payload
  if op = 0x0300 then
    let c := clampWindow s i p
    (planWindow i c mark s, c.clamped)
  else if op = 0x0500 then createReception i mark p s
  else if op = 0x0504 then (createBranch i mark (handleAt p 0).index s, false)
  else if op = 0x0506 then createTap i mark p s
  else if op = 0x0700 then createPcm i mark p s
  else if op = 0x0900 then createFollow i mark p s
  else if op = 0x0903 then createProbe i mark p s
  else if op = 0x0907 then createBlend i mark p s
  else if op = 0x0A00 then loadBank i p s
  else (loadCurve i p s, false)

/-- Change an object in place as the direct command would (R349, R357). A bank or table restated as it is keeps its generation. -/
def changeEntry (op : Nat) (cause : Option Nat) (f : CmdFrame) (s : State) : State × Bool :=
  let i := f.target.index
  let p := f.payload
  if op = 0x0300 then
    let c := clampWindow s i p
    ((retuneWindow i c s).1, c.clamped)
  else if op = 0x0304 then (planGang i p s, 3 < field p 0 1 || 5 < field p 1 1)
  else if op = 0x0500 then
    let x := changeReception i p s
    (afterMove i x.2.2.2 cause x.1, x.2.1)
  else if op = 0x0504 then (changeBranch i p s, false)
  else if op = 0x0506 then changeTap i p s
  else if op = 0x0509 then (applyAlertSet i p cause s, false)
  else if op = 0x0600 then (applySelect f s, selectClamped f)
  else if op = 0x0601 then (applyMeasure f s, measureClamped f)
  else if op = 0x0700 then
    if s.prog.pcms.any (fun x => x.o.idx = i && pcmBytes x = p) then (s, false) else changePcm i p s
  else if op = 0x0800 then
    (planBind f s, bindClamped f)
  else if op = 0x0900 then changeFollow i p s
  else if op = 0x0903 then changeProbe i p s
  else if op = 0x0907 then
    let x := changeBlend i p cause s
    (x.1, x.2.1)
  else if op = 0x0A00 then if bankBytes s i = p then (s, false) else loadBank i p s
  else if zeros 4 ++ (curvePoints s i).flatMap (leBytes 2) = p then (s, false) else (loadCurve i p s, false)

/-- What applying entries has done so far: the state, the new objects by class and index in entry order, whether a value was
clamped, and the programmes whose selection and measurement an entry stated by handle. -/
structure PlanRun where
  s       : State
  news    : List (Nat × Nat) := []
  clamped : Bool := false
  selects : List Nat := []
  measures : List Nat := []
  alerts  : List Nat := []

/-- Apply one entry. -/
def applyEntry (cause : Option Nat) (r : PlanRun) (e : PlanEntry) : PlanRun :=
  match entryFrame r.s r.news e with
  | .error _ => r
  | .ok f =>
    let i := f.target.index
    let cls := (createdClass e.op).getD 6
    if entryCreates r.news e then
      let x := createEntry e.op i e.mark f r.s
      { r with s := x.1, news := r.news ++ [(cls, i)], clamped := r.clamped || x.2 }
    else
      let x := changeEntry e.op cause f r.s
      let s := if (createdClass e.op).isSome then setMark cls i e.mark x.1 else x.1
      let byHandle := !targetFree e
      { r with
        s := s, clamped := r.clamped || x.2
        selects := if e.op = 0x0600 && byHandle && field f.payload 0 1 ≠ 0 then i :: r.selects else r.selects
        measures := if e.op = 0x0601 && byHandle then i :: r.measures else r.measures
        alerts := if e.op = 0x0509 then i :: r.alerts else r.alerts }

/-- Settings that the plan does not state are cleared: selections, measurements, alert settings (R357). -/
def clearUnstated (cause : Option Nat) (r : PlanRun) : State :=
  let s := r.s
  let sel (p : Programme) : Bool := p.selected && !r.selects.contains p.idx && digitalProgramme s p
  let s := (s.prog.programmes.filter sel).foldl (fun t p => selectOff p.idx t) s
  let analogueStated (p : Programme) : Bool := standsFor s p (fun x => x.measure.isSome)
  let mea (p : Programme) : Bool := (p.measured || p.nextInterval != 10 || p.silenceS != 10 || p.threshold != -60) &&
    !r.measures.contains p.idx && !analogueStated p
  let s := (s.prog.programmes.filter mea).foldl (fun t p => measureOff p.idx 10 10 (-60) t) s
  (s.prog.receptions.filter (fun x => x.alertCfg != {} && !r.alerts.contains x.idx)).foldl
    (fun t x => applyAlertSet x.idx (alertBytes {}) cause t) s

/-- The programmes whose MOT output changed its ring abandon what was gathered (R244). -/
def settleMot (old : List (Nat × Handle × Nat × Nat)) (s : State) : State :=
  let new := s.plan.binds
  let moved := old.filter (fun b => b.1 == 8 && !new.contains b)
  let s := moved.foldl (fun t b => dropMot b.2.1.index true (fun _ => true) t) { s with plan := { s.plan with binds := old } }
  { s with plan := { s.plan with binds := new } }

/-- Apply the entries of a plan to a state in which the objects it removes are gone (R349, R350, R357). -/
def applyEntries (cause : Option Nat) (es : List PlanEntry) (s : State) : PlanRun :=
  let old := s.plan.binds
  let s := { s with plan := { s.plan with binds := [] }, prog := { s.prog with standing := [] } }
  let r := es.foldl (applyEntry cause) { s := s }
  { r with s := settleMot old (clearUnstated cause r) }

/-! ### What a plan keeps (R349) -/

/-- Does an entry of the plan name an object of the active plan in its target handle? -/
def named (es : List PlanEntry) (cls : Nat) (h : Handle) : Bool :=
  es.any (fun e => e.target == h && (targetClasses e).contains cls && !targetFree e)

/-- The state without the objects that the plan removes, for checks and admission; nothing is posted. -/
def stripUnnamed (es : List PlanEntry) (s : State) : State :=
  let keep (cls : Nat) (o : SimpleObj) : Bool := !o.removing && named es cls { index := o.idx, gen := o.gen }
  let rx := s.prog.receptions.filter (fun r => !r.removing && named es 0 { index := r.idx, gen := r.gen })
  let there (i : Nat) : Bool := rx.any (·.idx == i)
  let gone (w : Nat) : Bool := (windowAt s w).inPlan && !named es 7 (windowHandle s w)
  { s with
    prog := { s.prog with
      receptions := rx
      branches := s.prog.branches.filter (fun b => keep 1 b.o)
      taps := s.prog.taps.filter (fun t => keep 3 t.o)
      probes := s.prog.probes.filter (fun p => keep 2 p.o)
      follows := s.prog.follows.filter (fun f => keep 8 f.o)
      programmes := s.prog.programmes.filter (fun p => there p.reception)
      pcms := s.prog.pcms.filter (fun x => keep 5 x.o) }
    mix := { s.mix with blends := s.mix.blends.filter (fun b => keep 9 b.o) }
    front := { s.front with
      windows := s.front.windows.zipIdx.map (fun x => if gone x.2 then { x.1 with inPlan := false, state := .closed, partner := none } else x.1)
      tuners := s.front.tuners.map (fun u => match u.role with
        | .window w => if gone w then { u with role := .unused, state := .warm } else u
        | .partner w => if gone w then { u with role := .unused, state := .warm } else u
        | .yielding w _ => if gone w then { u with role := .unused, state := .warm } else u
        | .releasing _ => { u with role := .unused, state := .warm }
        | .freeing _ => { u with role := .unused, state := .warm }
        | _ => u) } }

/-- The first entry that fails, judged after the entries before it; then the structure of what follows them (R350). -/
def firstFail (r : PlanRun) : List PlanEntry → Option Nat → Except Fail PlanRun
  | [], none => .ok r
  | [], some off => .error { status := 6, detail := 5, off := off % 65536 }
  | e :: es, bad => match entryFail r.news e r.s with
    | some x => .error x
    | none => firstFail (applyEntry none r e) es bad

/-- The plan data: the parts laid at their offsets in the order of their numbers. -/
def stagedData (s : State) : List Byte :=
  let len := ((s.plan.staged).map (·.2)).getD 0
  (s.plan.parts.mergeSort (fun a b => a.1 ≤ b.1)).foldl (fun d x => d.take x.2.1 ++ x.2.2 ++ d.drop (x.2.1 + x.2.2.length)) (zeros len)

/-- The windows a plan marks for SENTRY among W0 to W3, against the mode's limit of one (R31, R33). -/
def sentryWindows (s : State) : Nat := ((List.range 4).filter (fun w => (windowAt s w).inPlan && (windowAt s w).sentry)).length

/-- Admission of the plan as a whole: every limit must hold (R19, R20, R350 step 4). -/
def admitPlan (new : State) : Option Fail :=
  let empty := stripUnnamed [] { new with prog := { new.prog with standing := [] }, plan := { new.plan with binds := [] } }
  lowest (admission empty new ++ [failIf (new.set.mode = .sentry && 1 < sentryWindows new) 4 7 0xFFFF])

/-! ### Staging (R348) -/

/-- Is a staging quote another stage's number, or is nothing staged? -/
def stageStale (f : CmdFrame) (s : State) : Bool := field f.payload 0 2 != s.plan.stage.toNat

/-- The checks of PLAN_BEGIN. -/
def planBeginChecks (f : CmdFrame) (_ : State) : Checks :=
  let parts := field f.payload 0 2
  let len := field f.payload 4 4
  { lenOk := f.payload.length = 8, modes := modesIYSE
    bad := [failIf (parts < 1 || 32 < parts) 6 2 0,
            failIf (len < 16 || 65536 < len || len % 4 != 0) 6 2 4] }

/-- The effect and the reply of PLAN_BEGIN. -/
def planBeginBody (f : CmdFrame) (s : State) : State × Option Reply :=
  let parts := field f.payload 0 2
  let len := field f.payload 4 4
  let n := s.plan.stage + 1
  ({ s with plan := { s.plan with stage := n, staged := some (parts, len), parts := [] } },
    replyWith f (leBytes 2 n.toNat ++ zeros 2))

/-- PLAN_BEGIN (R348). -/
def execPlanBegin (f : CmdFrame) (s : State) : Host.Outcome State Fault Refusal :=
  .next (command 0x0E00 f (planBeginChecks f) (planBeginBody f) s)

/-- The checks of PLAN_PART. -/
def planPartChecks (f : CmdFrame) (s : State) : Checks :=
  let part := field f.payload 2 2
  let off := field f.payload 4 4
  let d := f.payload.drop 8
  let st := s.plan.staged.getD (0, 0)
  let old := stageStale f s || s.plan.staged.isNone
  { lenOk := 9 ≤ f.payload.length && f.payload.length ≤ 4080, modes := modesIYSE
    bad := if old then [] else [failIf (st.1 ≤ part) 6 2 2, failIf (st.2 < off + d.length) 6 2 4]
    stale := [failIf old 2 4 0] }

/-- The effect and the reply of PLAN_PART. -/
def planPartBody (f : CmdFrame) (s : State) : State × Option Reply :=
  let part := field f.payload 2 2
  let off := field f.payload 4 4
  let d := f.payload.drop 8
  ({ s with plan := { s.plan with parts := (part, off, d) :: s.plan.parts.filter (fun x => x.1 != part) } },
    some { target := f.target })

/-- PLAN_PART: a part sent again replaces the earlier copy (R348). -/
def execPlanPart (f : CmdFrame) (s : State) : Host.Outcome State Fault Refusal :=
  .next (command 0x0E01 f (planPartChecks f) (planPartBody f) s)

/-- The checks of PLAN_DISCARD. -/
def planDiscardChecks (f : CmdFrame) (_ : State) : Checks :=
  { lenOk := f.payload.length = 0, modes := modesIYSE }

/-- The effect and the reply of PLAN_DISCARD. -/
def planDiscardBody (f : CmdFrame) (s : State) : State × Option Reply :=
  ({ s with plan := { s.plan with staged := none, parts := [] } }, some { target := f.target })

/-- PLAN_DISCARD (R348). -/
def execPlanDiscard (f : CmdFrame) (s : State) : Host.Outcome State Fault Refusal :=
  .next (command 0x0E03 f (planDiscardChecks f) (planDiscardBody f) s)

/-- The checks of GET_PLAN. -/
def getPlanChecks (f : CmdFrame) (_ : State) : Checks :=
  { lenOk := f.payload.length = 4, modes := modesAll }

/-- The effect and the reply of GET_PLAN. -/
def getPlanBody (f : CmdFrame) (s : State) : State × Option Reply :=
  let d := planData s
  let asked := field f.payload 0 4
  let off := satNat d.length (asked / 4 * 4)
  (s, some { target := f.target, clamped := off != asked
             payload := leBytes 4 d.length ++ leBytes 4 off ++ (d.drop off).take 4072 })

/-- GET_PLAN (R383). -/
def execGetPlan (f : CmdFrame) (s : State) : Host.Outcome State Fault Refusal :=
  .next (command 0x0E04 f (getPlanChecks f) (getPlanBody f) s)

/-! ### PLAN_COMMIT (R350, R351) -/

/-- Step 1: is the staged plan whole? -/
def commitIncomplete (f : CmdFrame) (s : State) : Option Fail :=
  match s.plan.staged with
  | none => some { status := 7, detail := 0xFFFF }
  | some (n, len) =>
    if field f.payload 4 2 ≠ n || 4 * field f.payload 6 2 ≠ len then some { status := 7, detail := 0xFFFF }
    else ((List.range n).find? (fun i => !s.plan.parts.any (fun x => x.1 == i))).map (fun i => { status := 7, detail := i })

/-- A state with the objects that `s` has under shut-down by earlier commands, which keep their resources (R18). -/
def withShutting (s new : State) : State :=
  let rx := s.prog.receptions.filter (·.removing)
  let ofRx (i : Nat) : Bool := rx.any (fun r => r.idx == i)
  let branches := s.prog.branches.filter (·.o.removing)
  let probes := s.prog.probes.filter (·.o.removing)
  let taps := s.prog.taps.filter (·.o.removing)
  let pcms := s.prog.pcms.filter (·.o.removing)
  let programmes := s.prog.programmes.filter (fun p => ofRx p.reception)
  let held (b : Handle × Nat) : Bool := match b.2 with
    | 0 => rx.any (fun r => r.idx == b.1.index && r.gen == b.1.gen)
    | 1 => branches.any (fun x => x.o.idx == b.1.index && x.o.gen == b.1.gen)
    | 2 => probes.any (fun x => x.o.idx == b.1.index && x.o.gen == b.1.gen)
    | 3 => taps.any (fun x => x.o.idx == b.1.index && x.o.gen == b.1.gen)
    | 4 => programmes.any (fun p => programmeHandle p == b.1)
    | 5 => pcms.any (fun x => x.o.idx == b.1.index && x.o.gen == b.1.gen)
    | _ => false
  { new with
    prog := { new.prog with
      receptions := new.prog.receptions ++ rx, branches := new.prog.branches ++ branches, probes := new.prog.probes ++ probes
      taps := new.prog.taps ++ taps, pcms := new.prog.pcms ++ pcms, programmes := new.prog.programmes ++ programmes
      follows := new.prog.follows ++ s.prog.follows.filter (·.o.removing) }
    mix := { new.mix with blends := new.mix.blends ++ s.mix.blends.filter (·.o.removing) }
    plan := { new.plan with binds := new.plan.binds ++ s.plan.binds.filter (fun b => held (b.2.1, b.2.2.1)) } }

/-- Steps 1, 2 and 4: what refuses a commit; the second part says that a value was clamped before admission refused. -/
def commitFail (f : CmdFrame) (s : State) : Option Fail × Bool :=
  if field f.payload 4 2 = 0 then (admitPlan s, false)
  else match commitIncomplete f s with
  | some x => (some x, false)
  | none =>
    let es := entriesOf (stagedData s)
    match firstFail { s := { stripUnnamed es.1 s with plan := { s.plan with binds := [] }
                                                      prog := { (stripUnnamed es.1 s).prog with standing := [] } } } es.1 es.2 with
    | .error x => (some x, false)
    | .ok r => (admitPlan (withShutting s (clearUnstated none r)), r.clamped)

/-- Shut down the objects the plan removes (R336, R350 step 5). A follow object that the plan keeps does not go with its old
reception. -/
def shutUnnamed (es : List PlanEntry) (tag : Nat) (s : State) : State :=
  let drop (cls : Nat) (o : SimpleObj) : Bool := !named es cls { index := o.idx, gen := o.gen }
  let parted (f : Follow) : Follow := if drop 8 f.o then f else match receptionAt s f.serving with
    | some r => if named es 0 { index := r.idx, gen := r.gen } then f else { f with serving := 256 }
    | none => f
  let s := { s with prog := { s.prog with follows := s.prog.follows.map parted } }
  let s := (s.prog.pcms.filter (fun x => drop 5 x.o && !x.o.removing)).foldl (fun t x => shutPcm x.o.idx tag t) s
  let s := (s.prog.follows.filter (fun f => drop 8 f.o)).foldl (fun t f => shutFollow f.o.idx tag t) s
  let s := (s.mix.blends.filter (fun b => drop 9 b.o)).foldl (fun t b => shutBlend b.o.idx tag t) s
  let s := (s.prog.probes.filter (fun p => drop 2 p.o)).foldl (fun t p => shutProbe p.o.idx tag t) s
  let s := (s.prog.branches.filter (fun b => drop 1 b.o)).foldl (fun t b => shutBranch b.o.idx tag t) s
  let s := (s.prog.taps.filter (fun x => drop 3 x.o)).foldl (fun t x => shutTap x.o.idx tag t) s
  let s := (s.prog.receptions.filter (fun r => !named es 0 { index := r.idx, gen := r.gen })).foldl
    (fun t r => shutReception r.idx tag t) s
  (List.range 5).foldl (fun t w =>
    let x := windowAt t w
    if !x.inPlan || named es 7 (windowHandle t w) || x.state = .closing || x.closeAfter then t
    else if x.state = .stopped || x.state = .failed then
      finishClose w (some tag) (modWindow w (fun x => { x with tuner := none }) t)
    else if interrupted t w then modWindow w (fun x => { x with closeAfter := true }) t
    else beginClose w (some tag) t) s

/-- Does a shut-down run? -/
def anyRemoving (s : State) : Bool :=
  s.prog.receptions.any (·.removing) || s.prog.branches.any (·.o.removing) || s.prog.taps.any (·.o.removing) ||
  s.prog.probes.any (·.o.removing) || s.prog.follows.any (·.o.removing) || s.prog.pcms.any (·.o.removing) ||
  s.mix.blends.any (·.o.removing) || s.front.windows.any (fun x => x.state == .closing || x.closeAfter) ||
  s.front.tuners.any (fun u => match u.role with
    | .releasing _ => true
    | .freeing _ => true
    | _ => false)

/-- Once the windows have settled the objects of a committed plan start; the response is sent once they run and the plan record
is written (R56, R350 steps 7 and 8). -/
def commitProgress (s : State) : State :=
  let s := if s.plan.starting && windowsSettled s then
      startObjects (waiterTag .commit s) { s with plan := { s.plan with starting := false } }
    else s
  if s.plan.starting || s.store.queue.any (fun j => j.kind == .plan) then s else release .commit plainReply s

/-- The plan is applied: its sequence advances, the staging area is emptied, the plan record is written unless the commit is
volatile, and its objects start (R47, R344, R346, R350 steps 5 to 8, R351). -/
def applyCommit (c : PlanCommit) (s : State) : State :=
  let cause := c.resp.map (·.tag)
  let s := { s with plan := { s.plan with committing := none } }
  let r : PlanRun := if c.asStands then { s := s } else applyEntries cause (entriesOf c.bytes).1 s
  let s := bumpPlan r.s
  let s := { s with plan := { s.plan with staged := none, parts := [], volatile := c.keep } }
  let s := if c.keep then s else writePlan s
  let made := r.news.flatMap (fun x => handleBytes { index := x.2, gen := (classGen r.s x.1 x.2).getD 0 })
  let s := match c.resp with
    | some d => deferOn .commit { d with clamped := r.clamped, payload := leBytes 2 r.news.length ++ zeros 2 ++ made } s
    | none => s
  let run : Bool := s.set.mode == .serve || s.set.mode == .sentry
  let s := if run then resumeShed (startWindows (stopUnmarked cause s)) else s
  commitProgress { s with plan := { s.plan with starting := run } }

/-- A commit whose shut-downs have ended goes on (R350 step 5). -/
def commitContinue (s : State) : State :=
  let s := match s.plan.committing with
    | some c => if anyRemoving s then s else applyCommit c s
    | none => s
  commitProgress s

/-- The checks of PLAN_COMMIT. -/
def planCommitChecks (f : CmdFrame) (s : State) : Checks :=
  { lenOk := f.payload.length = 8, modes := modesIYSE
    stale := [failIf (field f.payload 4 2 != 0 && stageStale f s) 2 4 0]
    busy := [(commitFail f s).1], clamps := (commitFail f s).2 }

/-- The effect and the reply of PLAN_COMMIT. -/
def planCommitBody (f : CmdFrame) (s : State) : State × Option Reply :=
  let none' := field f.payload 4 2 = 0
  let d := if none' then [] else stagedData s
  let c : PlanCommit := { resp := some (deferredOf 0x0E02 f false), bytes := d, asStands := none'
                          keep := (field f.payload 2 1).testBit 0 }
  let s := if none' then s else shutUnnamed (entriesOf d).1 f.tag s
  (commitContinue { s with plan := { s.plan with committing := some c } }, none)

/-- PLAN_COMMIT (R346, R350, R351). -/
def execPlanCommit (f : CmdFrame) (s : State) : Host.Outcome State Fault Refusal :=
  .next (command 0x0E02 f (planCommitChecks f) (planCommitBody f) s)

/-! ### The ends of openings, retunes and shut-downs -/

/-- WINDOW_OPEN_DONE: Kerf accepts the window's first samples, and the open is answered (R120). -/
def execWindowOpenDone (w : Nat) (s : State) : Host.Outcome State Fault Refusal :=
  within s (w < 5 && clockRuns s 6) (commitProgress (compatTuned (rerunOpens (windowOpened w (sweepOpened w s)))))

/-- RETUNE_DONE: Kerf accepts samples at the new settings, and the retune is answered (R121). -/
def execRetuneDone (w : Nat) (s : State) : Host.Outcome State Fault Refusal :=
  within s (w < 5 && clockRuns s 6) (commitProgress (compatTuned (rerunOpens (retuneDone w s))))

/-- WINDOW_CLOSED: the ramp ends, and the commands held behind it are handled (R124, R338). -/
def execWindowClosed (w : Nat) (s : State) : Host.Outcome State Fault Refusal :=
  within s (w < 5 && clockRuns s 6) (commitContinue (windowClosed w s))

/-- OBJECT_REMOVED: a simple object's shut-down ends (R336). -/
def execObjectRemoved (cls : ObjClass) (i : Nat) (s : State) : Host.Outcome State Fault Refusal :=
  within s (clockRuns s 6) (commitContinue (objectRemoved cls i s))

/-- A reception's shut-down ends: it goes with its programmes, indices freed are given out, a channel of the emulation that waited
starts, and an object whose current reception it was decides anew (R211, R273, R336, R560). -/
def receptionRemoved (i : Nat) (s : State) : State := match receptionAt s i with
  | none => s
  | some r =>
    if !r.removing then s
    else
      let s := compatRemoved (compatRefresh (trackMore (finishReception i none s)))
      if s.head.restarting then s else decideLost s

/-- RECEPTION_REMOVED (R336). -/
def execReceptionRemoved (r : Nat) (s : State) : Host.Outcome State Fault Refusal :=
  within s (r < 256 && clockRuns s 6) (commitContinue (receptionRemoved r s))

end Sys2Proof.Machine
end

