-- ==== Sys2Proof/Machine/Burlar.lean ====
section
/-!
DEFINITION. Burlar.lean: the link's transmissions, beacons, windows and receptions (R421 to R434, R448 to R475, R492, R547).
-/

namespace Sys2Proof.Machine

/-! ### Choosing and sending an uplink (R456 to R460) -/

/-- A 4-byte little-endian number of an AES output (R457). -/
def hashWord (out : List Byte) (off : Nat) : Nat := field out off 4

/-- Slot and channel index of an attempt (R457). -/
def slotHash (s : State) (net : GatherConfig) (sfn attempt : Nat) : Nat × Nat :=
  let out := aes (slotKey s) (leBytes 4 s.set.link.own ++ leBytes 3 sfn ++ leBytes 1 attempt ++ leBytes 2 s.set.link.net ++ zeros 5 ++
    leBytes 1 1)
  (hashWord out 0 % max 1 net.slots, hashWord out 4 % max 1 net.channels.length)

/-- Channel index of a hop slot (R459). -/
def hopHash (s : State) (net : GatherConfig) (h : Nat) : Nat :=
  hashWord (aes (slotKey s) (leBytes 2 s.set.link.net ++ leBytes 4 h ++ zeros 9 ++ leBytes 1 2)) 0 % max 1 net.channels.length

/-- The frame a node sends next in a superframe: frames awaiting a repeat, oldest first, then new ones, of which none while
32 await acknowledgement (R456, R463). -/
def pickTx (s : State) (sfn : Nat) : Option TxFrame :=
  let free := s.link.queue.filter (fun x => !x.awaiting)
  (free.find? (fun x => 0 < x.attempt && !sfnNewer x.dueSfn sfn)).or
    (if 32 ≤ (s.link.queue.filter (·.onAir)).length then none else free.find? (fun x => x.attempt == 0))

/-- What an uplink carries (R415, R457). -/
def uplinkAsk (s : State) (fr : TxFrame) (sfn : Nat) (hop : Option Nat) (c : LinkChannel) : TxAsk :=
  { head := { length := fr.payload.length, rate := s.set.link.rate, again := fr.onAir, fallback := hop.isSome }
    body := { net := s.set.link.net, node := s.set.link.own, counter := fr.counter, sfn := sfn, kind := 2, hop := hop }
    payload := fr.payload, sl := s.set.link.sl, centre := c.centre, width := c.width }

/-- The start guard (R458). -/
def startGuard (net : GatherConfig) : Nat := ms net.slotMs / 16

/-- A frame is scheduled in a superframe, which counts an attempt (R456, R457). -/
def scheduled (fr : TxFrame) (sfn : Nat) (s : State) : State :=
  modTx fr.counter (fun x => { x with attempt := min 7 (x.attempt + 1) }) { s with link := { s.link with slotSfn := some sfn } }

/-- A frame is due: it is scheduled in this superframe, and sent, or held while the synthesiser settles (R431, R456). -/
def dueUplink (fr : TxFrame) (sfn : Nat) (hop : Option Nat) (c : LinkChannel) (s : State) : State :=
  let s := scheduled fr sfn s
  if radioReady s then sendTx (uplinkAsk s fr sfn hop c) fr ((sfn + 1) % 16777216) false s
  else
    let x : HeldTx := { counter := fr.counter, sfn := sfn, due := now s, guardTicks := startGuard (linkNet s), hop := hop
                        centre := c.centre, width := c.width }
    { s with link := { s.link with heldTx := some x } }

/-- Where a slot of a superframe starts (R446). -/
def slotStart (net : GatherConfig) (t0 : Int) (slot : Nat) : Int := t0 + (ms (net.startMs + slot * net.slotMs) : Nat)

/-- The slot start, SFN, frame and channel of the next slotted transmission: in this superframe while its slot is ahead and
nothing was scheduled in it, otherwise in the next (R456, R457). -/
def planSlot (s : State) (t0 : Int) : Option (Int × Nat × TxFrame × LinkChannel) :=
  let net := linkNet s
  let sfn := sfnAt net t0
  if s.link.slotSfn = some sfn then none
  else match pickTx s sfn with
    | none => none
    | some fr =>
      let h := slotHash s net sfn fr.attempt
      let at' := slotStart net t0 h.1
      if at' < linkTime s then none else some (at', sfn, fr, net.channels.getD h.2 {})

/-- SLOT_TRANSMIT (R456 to R458). -/
def execSlotTransmit (s : State) : Host.Outcome State Fault Refusal :=
  .next (
    if s.set.link.role = 1 && s.link.state == .synced && mayTransmit s then
      let net := linkNet s
      let t0 := superStart net (linkTime s)
      match (planSlot s t0).or (planSlot s (t0 + (superTicks net : Int))) with
      | some (at', sfn, fr, c) => dueUplink fr sfn none c (reach at' s)
      | none => s
    else s)

/-- The frame a LOST node sends in a superframe: the oldest sent before is deferred for its repeat first; where its budget is
spent it is dropped and the next is taken (R456, R465). -/
def pickFallback (sfn : Nat) : Nat → State → Option TxFrame × State
  | 0, s => (none, s)
  | fuel + 1, s =>
    match s.link.queue.find? (fun x => x.awaiting && x.lastSfn != some sfn) with
    | some fr =>
      let t := deferTx fr 3 sfn none s
      match txAt t fr.counter with
      | some fr' => (some fr', t)
      | none => pickFallback sfn fuel t
    | none => (pickTx s sfn, s)

/-- The hop slot in which a LOST node's next frame is sent: the first that starts after it falls due (R459, R460). -/
def fallbackStart (s : State) : Int :=
  let net := linkNet s
  let t := linkTime s
  let due := if s.link.slotSfn = some (sfnAt net t) then superStart net t + (superTicks net : Int) else t
  (due + (ticksPerSecond : Int) - 1) / (ticksPerSecond : Int) * (ticksPerSecond : Int)

/-- FALLBACK_TRANSMIT: a LOST node sends at most one frame per superframe, in the first hop slot after it falls due, on that
slot's hop channel, at an offset the DRBG draws (R459, R460, R465). -/
def execFallbackTransmit (s : State) : Host.Outcome State Fault Refusal :=
  .next (
    if s.set.link.role = 1 && s.link.state == .lost && mayTransmit s && !s.link.queue.isEmpty then
      let net := linkNet s
      let start := fallbackStart s
      let sfn := sfnAt net start
      let (fr, s) := pickFallback sfn (s.link.queue.length + 1) s
      match fr with
      | none => s
      | some fr =>
        let hop := hopSlot start
        let c := net.channels.getD (hopHash s net hop) {}
        let ask := uplinkAsk s fr sfn (some hop) c
        let w := appliedChannel s c.centre c.width
        let air := symbolTicks ask.sl w.2 (askSymbols ask)
        let (off, s) := drawNat (drbgRequest s)
        dueUplink fr sfn (some hop) c (reach (start + ((off % (ticksPerSecond - air + 1) : Nat) : Int)) s)
    else s)

/-- RADIO_TRANSITION_DONE: the radio reaches its state, and a transmission held for it starts within its guard or is deferred
(R429 to R431). -/
def execRadioTransitionDone (s : State) : Host.Outcome State Fault Refusal :=
  .next (
    match s.link.radioTo with
    | none => s
    | some r =>
      let s := passTo s.link.radioAt s
      let s := { s with link := { s.link with radio := r, radioTo := none } }
      match s.link.heldTx with
      | none => s
      | some x =>
        let s := { s with link := { s.link with heldTx := none } }
        match txAt s x.counter with
        | none => s
        | some fr =>
          let next := (x.sfn + 1) % 16777216
          if now s ≤ x.due + x.guardTicks && mayTransmit s then
            sendTx (uplinkAsk s fr x.sfn x.hop { centre := x.centre, width := x.width }) fr next false s
          else deferTx fr 0 next none s)

/-- TRANSMISSION_END (R145, R430, R466, R583). -/
def execTransmissionEnd (s : State) : Host.Outcome State Fault Refusal :=
  .next (match s.link.air with
    | some x => endAir (passTo (x.started + x.airtime) s)
    | none => s)

/-- TRANSMIT_KILL: 10 ms past a frame's airtime, or at a watchdog expiry, the PA is turned off within 50 us (R434, R547). -/
def execTransmitKill (s : State) : Host.Outcome State Fault Refusal :=
  .next (match s.link.air with
    | some x =>
      if s.head.restarting || s.head.delayed then cutAir (pass (usTicks 50) s)
      else cutAir (passTo (x.started + x.airtime + ms 10 + usTicks 50) s)
    | none => s)

/-! ### The gatherer's beacon and downlinks (R448 to R450, R466, R473) -/

/-- Is a tag due in the beacon at T0 (R473)? -/
def tagDue (t0 : Int) (x : Nat × Nat × Nat) : Bool := (x.2.1 : Int) < t0 - (ms 100 : Nat)

/-- The beacon payload, padded to whole 4-byte units (R448). -/
def beaconPayload (net : GatherConfig) (t0 : Int) (tags : List Nat) : List Byte :=
  let p := leBytes 1 net.p ++ leBytes 1 net.w ++ leBytes 1 net.channels.length ++ zeros 1 ++ leBytes 2 net.slots ++
    leBytes 2 net.slotMs ++ leBytes 2 net.startMs ++ leBytes 2 net.downMs ++ leBytes 2 tags.length ++ zeros 2 ++
    leInt 8 (t0 + 6710886) ++ net.channels.flatMap (fun x => leBytes 4 x.centre ++ leBytes 1 x.width ++ zeros 3) ++
    tags.flatMap (leBytes 3)
  padTo ((p.length + 3) / 4 * 4) p

/-- Does a beacon with `k` tags end before the downlink window starts (R449)? -/
def beaconFits (net : GatherConfig) (k : Nat) : Bool :=
  let n := (24 + 8 * net.channels.length + 3 * k + 3) / 4 * 4
  symbolTicks 4 1 (frameSymbols 4 0 (bodyLength n false)) ≤ ms (net.startMs - net.downMs)

/-- The beacon of a superframe as sent (R448). -/
def beaconAsk (s : State) (counter sfn : Nat) (payload : List Byte) : TxAsk :=
  { head := { length := payload.length / 4, rate := 0, downlink := true, long := true }
    body := { net := s.set.link.net, node := s.set.link.own, counter := counter, sfn := sfn, kind := 1 }
    payload := payload, sl := 4, centre := s.set.link.beacon, width := 1 }

/-- Tags carried over first, then oldest first (R473). -/
def tagOrder (l : List (Nat × Nat × Nat)) : List (Nat × Nat × Nat) :=
  l.filter (fun x => x.2.2 != 0) ++ l.filter (fun x => x.2.2 == 0)

/-- The tags after a beacon took the first `k` of those due: a tag left out of two beacons in a row is dropped and counted. -/
def keepTags (t0 : Int) (k : Nat) (s : State) : State :=
  let due := tagOrder (s.link.tags.filter (tagDue t0))
  let left := (due.drop k).map (fun x => (x.1, x.2.1, x.2.2 + 1))
  let lost := left.filter (fun x => 2 ≤ x.2.2)
  let s := lost.foldl (fun t _ => countLink 20 t) s
  { s with link := { s.link with tags := left.filter (fun x => x.2.2 < 2) ++ s.link.tags.filter (fun x => !tagDue t0 x) } }

/-- The tags that a beacon sent now carries: those due, as many as fit (R449, R473). -/
def tagsTaken (s : State) : List Nat :=
  let due := (tagOrder (s.link.tags.filter (tagDue (linkTime s)))).map (·.1)
  due.take ((((List.range (min 256 due.length + 1)).reverse).find? (beaconFits (linkNet s))).getD 0)

/-- The beacon that is sent now (R448). -/
def beaconNow (s : State) : TxAsk :=
  beaconAsk s s.link.counter (sfnAt (linkNet s) (linkTime s)) (beaconPayload (linkNet s) (linkTime s) (tagsTaken s))

/-- The superframe's beacon is due: it takes the next counter, whether it is sent or not (R448, R467). -/
def beaconTaken (s : State) : State :=
  (takeCounter { s with link := { s.link with
    beaconSfn := some (sfnAt (linkNet s) (linkTime s)), downBlocked := !beaconFits (linkNet s) 0 } }).2

/-- The beacon at T0, now: sent, or dropped by the rules of R437, R450 and R467. -/
def sendBeacon (s : State) : State :=
  let a := beaconNow s
  let c := s.link.counter
  let k := (tagsTaken s).length
  let t0 := linkTime s
  let s := beaconTaken s
  let fr : TxFrame := { counter := c }
  if !countersOk s || c = 0xFFFFFFFF then dropTx fr 2 none s
  else if !radioReady s then dropTx fr 0 none s
  else match s.sec.profile with
    | none => dropTx fr 4 none s
    | some p =>
      match (moveChannel p a.centre a.width).bind (fun x => (permittedBy p x.1 x.2).map (fun i => (x, i))) with
      | none => dropTx fr 4 none s
      | some (x, sub) =>
        let a := { a with centre := x.1, width := x.2 }
        if unitsLeft s sub * ticksPerSecond < 15 * askTicks a then
          dropTx fr 1 none (postExhausted sub c (symbolMs a.sl a.width (askSymbols a)) s)
        else goOnAir a sub none false (countLink 18 (keepTags t0 k s))

/-- BEACON_TRANSMIT: at T0 of each superframe, where a gather configuration that waits takes effect first (R447 to R450). -/
def execBeaconTransmit (s : State) : Host.Outcome State Fault Refusal :=
  .next (
    if s.set.link.role = 2 && s.link.state == .gathering && mayTransmit s then
      let t := linkTime s
      let here (u : State) : Bool := superStart (linkNet u) (linkTime u) == linkTime u
      let s := if superStart (linkNet s) t == t && s.link.beaconSfn != some (sfnAt (linkNet s) t) then s
        else reach (nextBoundary s) s
      let s := applyGather s
      sendBeacon (if here s then s else reach (nextBoundary s) s)
    else s)

/-- What a downlink carries (R466). -/
def downlinkAsk (s : State) (fr : TxFrame) (sfn : Nat) : TxAsk :=
  { head := { length := fr.payload.length, rate := 0, again := fr.onAir, downlink := true }
    body := { net := s.set.link.net, node := fr.dest, counter := fr.counter, sfn := sfn, kind := 3 }
    payload := fr.payload, sl := 4, centre := s.set.link.beacon, width := 1 }

/-- The next downlink of the superframe at T0, and when it starts: none when it would not end before the slot region (R466). -/
def planDownlink (s : State) (t0 : Int) : Option (Int × TxFrame) :=
  let net := linkNet s
  let sfn := sfnAt net t0
  let region := t0 + (ms net.startMs : Nat)
  let at' := max (region - (ms net.downMs : Nat)) (linkTime s)
  match s.link.queue.find? (fun x => x.lastSfn != some sfn && !sfnNewer x.dueSfn sfn) with
  | none => none
  | some fr =>
    if at' + (askTicks (downlinkAsk s fr sfn) : Int) ≤ region && !(s.link.downBlocked && s.link.beaconSfn == some sfn) then
      some (at', fr)
    else none

/-- The copies of a downlink sent once the one due is (R466). -/
def copyNumber (fr : TxFrame) : Nat := if fr.onAir then fr.repeats + 1 else fr.repeats

/-- A copy of a downlink is due (R466). -/
def copied (fr : TxFrame) (s : State) : State :=
  modTx fr.counter (fun x => { x with attempt := min 7 (x.attempt + 1), repeats := copyNumber fr }) s

/-- DOWNLINK_TRANSMIT: 1 + repeat budget copies of each frame, once per superframe, in queue order (R466, R470). -/
def execDownlinkTransmit (s : State) : Host.Outcome State Fault Refusal :=
  .next (
    if s.set.link.role = 2 && s.link.state == .gathering && mayTransmit s && radioReady s then
      let net := linkNet s
      let t0 := superStart net (linkTime s)
      match (planDownlink s t0).or (planDownlink s (t0 + (superTicks net : Int))) with
      | none => s
      | some (at', fr) =>
        let s := reach at' s
        let sfn := sfnAt net (linkTime s)
        let s := copied fr s
        sendTx (downlinkAsk s fr sfn) { fr with repeats := copyNumber fr } ((sfn + 1) % 16777216)
          (s.set.link.repeats ≤ copyNumber fr) s
    else s)

/-! ### The node's windows (R408, R454, R455, R466) -/

/-- Turn the receiver to the beacon channel until a gatherer time (R408). -/
def listenUntil (t : Int) (s : State) : State :=
  let s := { s with link := { s.link with listenTo := now s + (t - linkTime s).toNat } }
  if s.link.air.isSome || s.clk.linkSynth != .locked then s else radioGo .rx s

/-- Ten SL4 symbols at 300 kHz, in ticks (R454). -/
def tenSymbols : Nat := symbolTicks 4 1 10

/-- Judge the frames that await acknowledgement when the beacon of a superframe is accepted or missed (R464). -/
def judgeTx (sfn : Nat) (tags : List Nat) (stamp : Tick) (s : State) : State :=
  s.link.queue.foldl (fun t fr =>
    if fr.onAir && tags.contains (64 * s.set.link.own + fr.counter % 64) then reportTx fr 0 stamp (countLink 15 t)
    else if fr.awaiting && sfnNewer sfn (fr.lastSfn.getD sfn) then deferTx fr 2 sfn none t
    else t) s

/-- BEACON_WINDOW_OPEN: a SYNCED node listens from T0 less its guard, or enters LOST when the guard would exceed 500 ms (R454). -/
def execBeaconWindowOpen (s : State) : Host.Outcome State Fault Refusal :=
  .next (
    if s.set.link.role = 1 && s.link.state == .synced && linkRuns s then
      let net := linkNet s
      let b := nextBoundary s
      let t0 := if s.link.beaconSfn = some (sfnAt net b) then b + (superTicks net : Int) else b
      let g := guardAt s (t0 - s.link.offset.getD 0)
      let s := reach (t0 - (g : Int)) s
      if ms 500 < g then
        radioRest (setLinkState .lost none { s with link := { s.link with window := 1, beaconSfn := none } })
      else listenUntil (t0 + ((g + tenSymbols : Nat) : Int)) { s with link := { s.link with beaconSfn := some (sfnAt net t0) } }
    else s)

/-- BEACON_MISSED: the window ends without a qualified beacon (R454, R464). -/
def execBeaconMissed (s : State) : Host.Outcome State Fault Refusal :=
  .next (
    match s.link.beaconSfn with
    | some n =>
      if s.set.link.role = 1 && s.link.state == .synced && linkRuns s && s.link.rx.isEmpty then
        let s := passTo (s.link.listenTo + 1) s
        radioRest (judgeTx n [] 0 (countLink 19 { s with link := { s.link with beaconSfn := none } }))
      else s
    | none => s)

/-- SEARCH_WINDOW: a LOST node opens a window about its estimate of the next T0, doubling after each superframe without an
accepted beacon (R455). -/
def execSearchWindow (s : State) : Host.Outcome State Fault Refusal :=
  .next (
    if s.set.link.role = 1 && s.link.state == .lost && linkRuns s then
      let net := linkNet s
      let w := if s.link.beaconSfn.isSome then min (2 * s.link.window) (2 ^ net.p) else s.link.window
      let b := nextBoundary s
      let t0 := if s.link.beaconSfn = some (sfnAt net b) then b + (superTicks net : Int) else b
      let half : Int := ((w * ticksPerSecond / 2 : Nat) : Int)
      let s := reach (t0 - half) s
      listenUntil (t0 + half) { s with link := { s.link with window := w, beaconSfn := some (sfnAt net t0) } }
    else s)

/-- DOWNLINK_WINDOW_OPEN: a SYNCED node listens for the whole downlink window (R408, R466). -/
def execDownlinkWindowOpen (s : State) : Host.Outcome State Fault Refusal :=
  .next (
    let net := linkNet s
    if s.set.link.role = 1 && s.link.state == .synced && linkRuns s && 0 < net.downMs then
      let t := linkTime s
      let region (t0 : Int) : Int := t0 + (ms net.startMs : Nat)
      let t0 := superStart net t
      let t0 := if t < region t0 then t0 else t0 + (superTicks net : Int)
      listenUntil (region t0) (reach (region t0 - (ms net.downMs : Nat)) s)
    else s)

/-! ### Detection and headers (R422 to R428) -/

/-- The addresses a node answers to (R474). -/
def nodeAddresses (s : State) : List Nat := [s.set.link.own, 262143] ++ s.set.gather.groups.filter (· != 0)

/-- Does an addressing field keep a downlink protected: this network, and an address of this node or, for a beacon, a
gatherer (R426, R474)? -/
def protects (s : State) (a : W32) : Bool :=
  let id := a.toNat / 16384
  a.toNat % 16384 == s.set.link.net && ((nodeAddresses s).contains id || (250001 ≤ id && id ≤ 262142))

/-- A lane and sweep length that the device detects: a node has one detector, a gatherer six on each channel (R408, R422). -/
def detects (s : State) (lane sl : Nat) : Bool :=
  if s.set.link.role = 1 then lane == 0 && sl == 4 else lane < s.set.gather.channels.length && 1 ≤ sl && sl ≤ 6

/-- The frame being received by a detector. -/
def rxAt (s : State) (lane sl : Nat) : Option RxFrame := s.link.rx.find? (fun x => x.lane == lane && x.sl == sl)

/-- A detector without its frame. -/
def freeRx (lane sl : Nat) (s : State) : State :=
  { s with link := { s.link with rx := s.link.rx.filter (fun x => !(x.lane == lane && x.sl == sl)) } }

/-- The strongest bin of a symbol period, the lowest of equals. -/
def strongestBin (p : LinkPeriod) : Nat := p.bins.idxOf (p.bins.foldl max 0)

/-- Do two bins of a transform of `n` points lie within ±1 of each other, the first and the last being neighbours? -/
def besideBin (n a b : Nat) : Bool := (a + n - b % n) % n ≤ 1 || (b + n - a % n) % n ≤ 1

/-- The bins of a noise estimate: all but the strongest and its two neighbours (R421). -/
def noiseBins (p : LinkPeriod) : List Nat :=
  (p.bins.zipIdx.filter (fun x => !besideBin p.bins.length x.2 (strongestBin p))).map (·.1)

/-- The despread strength of a symbol period as a ratio: the power in the strongest bin over the mean of the noise bins (R421). -/
def despread (p : LinkPeriod) : Nat × Nat := (p.bins.foldl max 0 * (noiseBins p).length, (noiseBins p).sum)

/-- Does stage 1 fire: the despread strength is at the detection threshold or above, outside the own bin of the frame in
reception (R421, R425)? -/
def fires (s : State) (p : LinkPeriod) : Bool :=
  dbAtLeast 20 (despread p).1 (despread p).2 s.set.link.detect && match p.own with
    | some b => !besideBin p.bins.length (strongestBin p) b
    | none => true

/-- The up-chirp periods of a candidate that fired with their strongest bins within ±1 of a bin (R422). -/
def preamble (s : State) (c : LinkCand) (b : Nat) : List LinkPeriod :=
  (c.ups.take 6).filter (fun p => fires s p && besideBin p.bins.length (strongestBin p) b)

/-- The qualifying preamble periods: at least four of the six, by a common bin (R422). -/
def qualifying (s : State) (c : LinkCand) : Option (List LinkPeriod) :=
  (((c.ups.take 6).flatMap (fun p =>
    [strongestBin p, (strongestBin p + 1) % p.bins.length, (strongestBin p + p.bins.length - 1) % p.bins.length])).map
    (preamble s c)).find? (fun l => 4 ≤ l.length)

/-- Do two consecutive down-chirp periods of the next four fire at one bin within ±1 (R422)? -/
def syncPair (s : State) (l : List LinkPeriod) : Bool :=
  (l.zip (l.drop 1)).any (fun x => fires s x.1 && fires s x.2 && besideBin x.1.bins.length (strongestBin x.1) (strongestBin x.2))

/-- Mean despread strength in 0.1 dB: the mean of the periods' own values (R421, R425, R476; log 137). -/
def meanStrength (l : List LinkPeriod) : Int :=
  quot ((l.map (fun p => dbValue 100 (despread p).1 (despread p).2 (-400) 1000)).sum) l.length

/-- The channel a lane receives (R408, R471). -/
def laneChannel (s : State) (lane : Nat) : LinkChannel :=
  if s.set.link.role = 1 then { centre := s.set.link.beacon, width := 1 } else s.set.gather.channels.getD lane {}

/-- Does a candidate qualify: preamble, sync pair on the same symbol timing within N/8 chips, and a carrier offset within B/16
(R422)? -/
def qualifies (s : State) (lane : Nat) (c : LinkCand) : Bool :=
  (qualifying s c).isSome && syncPair s (c.downs.take 4) && 8 * c.apart.natAbs ≤ chipsPerSymbol c.sl &&
  16 * c.offsetHz.natAbs ≤ widthHz (laneChannel s lane).width

/-- The sync-pair time-stamp of a candidate: D_an is that of LINK_RF, port 7, and D_ext the external delay of R405 (R423). -/
def syncStamp (s : State) (c : LinkCand) : Tick :=
  BitVec.ofInt 64 (roundDiv ((c.sync64 - (Config.analogueDelay 7 0 : Int)) * 100000 - 393216 * (s.set.link.extDelay : Int)) 6400000)

/-- The sync-pair time-stamp of a frame by the present count. -/
def syncNow (s : State) (x : RxFrame) : Tick := inNow s x.sync

/-- A detector takes a candidate. -/
def takeRx (lane : Nat) (c : LinkCand) (s : State) : State :=
  let s := freeRx lane c.sl s
  { s with link := { s.link with rx := s.link.rx ++
      [{ lane := lane, sl := c.sl, sync := instantAt s (syncStamp s c), offsetHz := c.offsetHz }] } }

/-- FRAME_QUALIFIED: a detector or its watch lane qualifies a candidate, and the capture rules apply (R421 to R426). -/
def execFrameQualified (lane : Nat) (c : LinkCand) (s : State) : Host.Outcome State Fault Refusal :=
  within s (lane < 8) (
    if !receives s || !detects s lane c.sl || !qualifies s lane c then s
    else match rxAt s lane c.sl with
      | none => takeRx lane c s
      | some cur =>
        match cur.header with
        | none => takeRx lane c (countLink 3 s)
        | some _ =>
          if meanStrength ((qualifying s c).getD []) < meanStrength c.current + 10 * (s.set.link.capture : Int) then s
          else if cur.guarded && (match c.addressing with
              | some a => protects s a
              | none => true) then countLink 5 s
          else takeRx lane c (countLink 4 s))

/-- HEADER_CHECK: the header word decides whether the frame is kept, and a downlink is protected at a node (R414, R424, R426). -/
def execHeaderCheck (lane sl : Nat) (bits : List Bool) (s : State) : Host.Outcome State Fault Refusal :=
  within s (lane < 8) (
    match rxAt s lane sl with
    | none => s
    | some cur =>
      if cur.header.isSome then s
      else
        let (h, s) := decodeHeader sl bits s
        if headerOk h then
          { s with link := { s.link with rx := s.link.rx.map (fun x =>
              if x.lane == lane && x.sl == sl then
                { x with header := some h, guarded := s.set.link.role == 1 && (headerFields h).downlink } else x) } }
        else freeRx lane sl (countLink 1 s))

/-! ### Received frames (R424, R452, R471, R475) -/

/-- The header flags of a link frame Shaving (R476). -/
def headFlags (h : HeaderBits) : Nat := h.again.toNat + 2 * h.fallback.toNat + 4 * h.downlink.toNat + 8 * h.long.toNat

/-- Deliver a received frame (R476). -/
def deliverRx (lane : Nat) (c : RxFrame) (m : LinkRx) (h : HeaderBits) (b : BodyBits) (payload : List Byte) (s : State) : State :=
  let ch := laneChannel s lane
  offerLink (syncNow s c) (linkShaving 0 b.kind (headFlags h) 0 b.node b.counter b.sfn (b.hop.getD 0) ch.centre c.sl ch.width h.rate 0
    (meanStrength m.symbols) m.power c.offsetHz payload) s

/-- Freshness of a frame at its sync pair (R471 step 5, R475). -/
def fresh (s : State) (sync : Tick) (b : BodyBits) : Bool :=
  let net := linkNet s
  let t := gatherTime s sync.toNat
  match b.hop with
  | none => sfnDiff (sfnAt net t) b.sfn ≤ net.w
  | some h => (h + 2 + 4294967296 - hopSlot t) % 4294967296 ≤ 4

/-- Enter a pair into the recent-frames table; when it is full the oldest is evicted and counted (R472). -/
def enterRecent (node counter : Nat) (sync : Tick) (s : State) : State :=
  let full := 65536 ≤ s.link.recent.length
  let s := if full then countLink 13 s else s
  let l := if full then s.link.recent.drop 1 else s.link.recent
  { s with link := { s.link with recent := l ++ [(node, counter, sfnAt (linkNet s) (gatherTime s sync.toNat))] } }

/-- Is a pair in the table? -/
def seenRecent (s : State) (node counter : Nat) : Bool := s.link.recent.any (fun x => x.1 == node && x.2.1 == counter)

/-- Acknowledge a frame: its tag waits for a beacon (R463, R473). -/
def acknowledge (node counter : Nat) (sync : Tick) (s : State) : State :=
  { s with link := { s.link with tags := s.link.tags ++ [(64 * node + counter % 64, sync.toNat, 0)] } }

/-- The network timing of a beacon's payload (R448, R453). -/
def beaconNet (s : State) (p : List Byte) : GatherConfig :=
  { p := clampNat 4 9 (field p 0 1), w := field p 1 1, slots := field p 4 2, slotMs := field p 6 2, startMs := field p 8 2
    downMs := field p 10 2, groups := s.set.gather.groups
    channels := (List.range (field p 2 1)).map (fun i => readChannel p (24 + 8 * i)) }

/-- The tags of a beacon's payload. -/
def beaconTags (p : List Byte) : List Nat :=
  (List.range (field p 12 2)).map (fun i => field p (24 + 8 * field p 2 1 + 3 * i) 3)

/-- A node accepts a beacon (R146, R452, R453, R455, R464). -/
def acceptBeacon (lane : Nat) (c : RxFrame) (m : LinkRx) (h : HeaderBits) (b : BodyBits) (p : List Byte) (s : State) : State :=
  let net := beaconNet s p
  let changed := net.channels != (linkNet s).channels
  let s := countLink 18 { s with link := { s.link with
    offset := some ((field p 16 8 : Int) - ((syncNow s c).toNat : Int)), gatherer := some b.node, lastSfn := some b.sfn
    lastBeacon := (syncNow s c).toNat, net := net, heard := beaconTags p, window := 1, beaconSfn := none } }
  let s := judgeTx b.sfn s.link.heard (syncNow s c) s
  let s := deliverRx lane c m h b p s
  let s := setLinkState .synced none s
  if changed then noteHarmonics [0, 1, 2, 3, 4] none s else s

/-- A node's handling of a frame that passed CRC and form (R452, R475). -/
def nodeFrame (lane : Nat) (c : RxFrame) (m : LinkRx) (hw : BitVec 24) (b : BodyBits) (body : List Byte) (s : State) : State :=
  let h := headerFields hw
  if b.kind = 2 || !h.downlink || b.net ≠ s.set.link.net then countLink 6 s
  else if b.kind = 1 then
    if b.node < 250001 || 262142 < b.node then countLink 9 s
    else if s.link.state = .synced && s.link.gatherer ≠ some b.node then countLink 12 s
    else match openBody (linkKey s) b.node hw b body with
      | none => countLink 7 s
      | some p =>
        if (linkKey s).isEmpty then countLink 7 s
        else if (match s.link.lastSfn with
          | some n => !sfnNewer b.sfn n
          | none => false) then countLink 8 s
        else acceptBeacon lane c m h b p s
  else if !(nodeAddresses s).contains b.node then countLink 12 s
  else if !fresh s (syncNow s c) b then countLink 8 s
  else match openBody (linkKey s) (s.link.gatherer.getD 0) hw b body with
    | none => countLink 7 s
    | some p =>
      if (linkKey s).isEmpty then countLink 7 s
      else if seenRecent s (s.link.gatherer.getD 0) b.counter then countLink 10 s
      else deliverRx lane c m h b p (enterRecent (s.link.gatherer.getD 0) b.counter (syncNow s c) (countLink 11 s))

/-- A gatherer's handling of a frame that passed CRC and form (R471 to R473). -/
def gathererFrame (lane : Nat) (c : RxFrame) (m : LinkRx) (hw : BitVec 24) (b : BodyBits) (body : List Byte) (s : State) : State :=
  let h := headerFields hw
  if h.downlink || b.net ≠ s.set.link.net then countLink 6 s
  else if b.node < 1 || 250000 < b.node then countLink 9 s
  else if !fresh s (syncNow s c) b then countLink 8 s
  else match openBody (linkKey s) b.node hw b body with
    | none => countLink 7 s
    | some p =>
      if (linkKey s).isEmpty then countLink 7 s
      else if seenRecent s b.node b.counter then acknowledge b.node b.counter (syncNow s c) (countLink 10 s)
      else acknowledge b.node b.counter (syncNow s c)
        (deliverRx lane c m h b p (enterRecent b.node b.counter (syncNow s c) (countLink 11 s)))

/-- FRAME_RECEIVED: the body is decoded and checked, and the frame is handled by the role's checks (R415, R424, R471, R475). -/
def execFrameReceived (lane sl : Nat) (m : LinkRx) (s : State) : Host.Outcome State Fault Refusal :=
  within s (lane < 8) (
    match rxAt s lane sl with
    | none => s
    | some cur =>
      match cur.header with
      | none => s
      | some hw =>
        let h := headerFields hw
        let s := freeRx lane sl s
        let n := bodyLength (payloadLength h) h.fallback
        let (body, s) := decodeBody sl h.rate n m.bits s
        if !bodyCrcOk body then countLink 2 s
        else
          let s := countLink 0 s
          let b := bodyFields h.fallback body
          if bodyMalformed h b then countLink 9 s
          else if s.set.link.role = 1 then nodeFrame lane cur m hw b body s
          else gathererFrame lane cur m hw b body s)

end Sys2Proof.Machine
end

