-- ==== Sys2Proof/Machine/TimeBase.lean ====
section
/-!
DEFINITION. TimeBase.lean: the loops and what their losses cost, REF, Plumb and the timing reference, steps of device time, and
the word clock (chapter 04, R171, R290, R365, R366, R599, R601, R602).
-/

namespace Sys2Proof.Machine

/-! ### Plumb's states (R106, R602) -/

/-- The payload of TIME_COASTING and TIME_LOCKED (R385). -/
def timePayload (s : State) (ref : Nat) : List Byte :=
  leBytes 1 (refType ref) ++ zeros 1 ++ leBytes 2 s.time.epoch.toNat ++
  (match s.time.lastDelta with
    | some d => leInt 4 d
    | none => leBytes 4 0x80000000) ++ leBytes 8 s.time.count.toNat

/-- Does losing the reference post TIME_COASTING (R106)? -/
def plumbHeld (s : State) : Bool := s.time.plumb == .locked || s.time.plumb == .slewing

/-- Enter COASTING with the control value frozen; TIME_COASTING is posted only from LOCKED or SLEWING (R106). -/
def coast (cause : Option Nat) (s : State) : State :=
  if s.time.plumb = .free || s.time.plumb = .coasting then s
  else
    let held := plumbHeld s
    let s := { s with time := { s.time with plumb := .coasting, slewLeft := 0 } }
    if held then post 0x8201 {} (timePayload s s.set.time.ref) cause s else s

/-- REF stops: Plumb coasts at once, and TIME_COASTING waits for the Headstock to run again (R602). -/
def coastLater (s : State) : State :=
  if s.time.plumb = .free || s.time.plumb = .coasting then s
  else
    let held := plumbHeld s
    let s := { s with time := { s.time with plumb := .coasting, slewLeft := 0 } }
    if held then { s with time := { s.time with coasted := some (timePayload s s.set.time.ref) } } else s

/-- The TIME_COASTING that waited for the Headstock is posted (R602). -/
def postCoasted (s : State) : State :=
  match s.time.coasted with
  | some p => post 0x8201 {} p none { s with time := { s.time with coasted := none } }
  | none => s

/-- The 1/64 ticks of 1 us, rounded down. -/
def slewLimit : Int := 15728

/-- 50 ppm in 1/64 tick per second: the range of the frequency correction. -/
def controlLimit : Int := 786432

/-- The smallest part of a PPS edge's delta that becomes frequency correction that stays: three quarters of a delta of at most 100 ns,
so that a constant offset of REF is below 20 ns when the fourth such edge locks Plumb and stays below it; none of a larger one
(R107, log 36). -/
def leastPart (d : Int) : Int := if d.natAbs * 1000 ≤ 1572864 then 3 * d / 4 else 0

/-- The slew after an edge, at most 1 us per second toward delta. A part of it, bounded but not stated, becomes frequency correction
that stays, for a 10 MHz reference in proportion to its windows of 1 ms; delta is turned as phase within what is left of the limit
(R106, R107, R601, log 36). -/
def slewToward (d : Int) (s : State) : State :=
  let lim := clampInt (-slewLimit) slewLimit d
  let (x, s) := drawInt s
  let tenMhz := decide (s.set.time.ref = 3)
  let least := if tenMhz then 0 else leastPart d
  let most := if tenMhz then lim / 1000 else lim
  let part := clampInt (min least most) (max least most) x
  { s with time := { s.time with
    control := clampInt (-controlLimit) controlLimit (s.time.control + part)
    slewLeft := d
    slewRate := slewLimit.toNat - part.natAbs } }

/-- Do two accepted PPS edges show REF more than 50 ppm from nominal: delta has moved, within a second, by more than 50 us for each
second between them (R106)? The windows of a 10 MHz reference measure that frequency themselves (R104). -/
def refOff (s : State) (b d : Int) (since : Nat) : Bool :=
  let sec : Int := 64 * (ticksPerSecond : Int)
  let r := (d - b) % sec
  let moved := if 2 * r < sec then r else r - sec
  s.set.time.ref ≠ 3 && 0 < since && decide (50 * 64 * since < moved.natAbs * 1000000)

/-- Plumb's handling of an accepted edge with this delta, in 1/64 tick (R106). -/
def plumbEdge (d : Int) (s : State) : State :=
  if s.time.plumb = .free then s
  else
    let before := s.time.rateDelta
    let since := match s.time.lastEdge with
      | some e => now s - e
      | none => 0
    let s := { s with time := { s.time with lastDelta := some d, rateDelta := some d, lastEdge := some (now s) } }
    if s.clk.sPll != .locked then s
    else if !s.time.everLocked && (match before with
        | some b => refOff s b d since
        | none => false) then
      note 0x0107 0xFF 0 0 { s with time := { s.time with plumb := .acquiring, agree := 0, near := 0 } }
    else if d.natAbs * 100 ≤ 3145728 then
      let t := s.time
      let near := if d.natAbs * 1000 ≤ 1572864 then t.near + 1 else 0
      let s := slewToward d { s with time := { t with
        agree := if t.plumb = .qualifying then 0 else t.agree, near := near } }
      if t.plumb = .locked then s
      else if 4 ≤ near then
        let s := { s with time := { s.time with plumb := .locked, aonCount := false, everLocked := true } }
        post 0x8202 {} (timePayload s s.set.time.ref) none s
      else { s with time := { s.time with plumb := .slewing } }
    else
      let t := s.time
      let t := if t.plumb != .qualifying || 157286400 < (d - t.first).natAbs * 100000 then
          { t with plumb := .qualifying, first := d, agree := 1 }
        else { t with agree := t.agree + 1 }
      let t := { t with slewLeft := 0 }
      { s with time := if t.agree = 4 then { t with step := some d } else t }

/-! ### Steps of device time (R100, R101, R106, R110, R111) -/

/-- A hand-over of the count waits for an AON clock edge (R98). -/
def handOverDue (s : State) : Bool := s.time.onAon == s.clk.refOn

/-- Device time advances to its next second boundary: on REF to the boundary itself, on the AON clock to the first of its edges
at or past the boundary (R97, R98). -/
def toSecond (s : State) : State :=
  if !timeRuns s then s
  else
    let next := (s.time.count.toNat / ticksPerSecond + 1) * ticksPerSecond
    let s := if handOverDue s then passTo (aonEdge (now s)) s else s
    let left := next - s.time.count.toNat
    if left = 0 then s
    else if s.time.onAon then passTo ((now s / 7500 + (left + 7499) / 7500) * 7500) s
    else
      let n := ((left : Int) - (refGain s (now s) (now s + left) - (64 * left : Nat)) / 64).toNat
      { s with clk := { s.clk with elapsed := now s + n }
               time := { s.time with count := BitVec.ofNat 64 next, sub := 0
                                     slewLeft := s.time.slewLeft - slewPart s (now s) (now s + n) } }

/-- Antenna instants and gaps that chains keep by the present count move with it, and so do the link's seconds. Instants kept with their
epoch stay (R110). -/
def moveInstants (d : Int) (s : State) : State :=
  let s := mapChains (fun c => { c with lastOut := c.lastOut.map (· + BitVec.ofInt 64 d), gapAt := c.gapAt.map (· + d) }) s
  let secs : Int := d / (ticksPerSecond : Int)
  { s with
    link := { s.link with
      buckets := s.link.buckets.map (fun l => l.map (fun x => (x.1 + secs, x.2)))
      allUsed := s.link.allUsed.map (fun x => (x.1 + secs, x.2 + secs)) } }

/-- The last TIME_SET that waits, the cause of the step it makes (R342). -/
def timeSetTag (s : State) : Option Nat :=
  ((s.head.deferred.filter (fun x => x.key == .timeSet)).getLast?).map (·.resp.tag)

/-- At a second boundary: a decided reference step and a TIME_SET take effect as one step (R101, R106, R111). On the AON clock the
count may stand past the boundary, by a part that stays (R98). -/
def applySecond (s : State) : State :=
  let b := s.time.count.toNat
  let past := b % ticksPerSecond
  let set := s.time.setTo.filter (fun n => n * ticksPerSecond + past != b)
  let step := s.time.step
  let target : Int := 64 * ((set.map (fun n => n * ticksPerSecond + past)).getD b : Nat) + (s.time.sub : Int) + step.getD 0
  let cause := if set.isSome then timeSetTag s else none
  let s := { s with time := { s.time with setTo := none, step := none, rateDelta := s.time.rateDelta.map (· - step.getD 0) } }
  let s := if set.isNone && step.isNone then s
    else
      let new : Int := target / 64
      let d := new - (b : Int)
      let old := s.time.epoch
      let s := { s with time := { s.time with
        count := BitVec.ofInt 64 new, sub := (target % 64).toNat, epoch := old + 1
        plumb := if step.isSome then .slewing else s.time.plumb, near := if step.isSome then 0 else s.time.near
        steps := { epoch := old + 1, at' := BitVec.ofInt 64 new, change := d } :: s.time.steps } }
      let s := moveInstants d s
      post 0x8200 {} (leBytes 2 old.toNat ++ leBytes 2 s.time.epoch.toNat ++
        leBytes 1 (if set.isSome then (if step.isSome then 2 else 1) else 0) ++ zeros 3 ++
        leBytes 8 s.time.count.toNat ++ leInt 8 d) cause s
  release .timeSet plainReply s

/-- PLUMB_STEP (R106). -/
def execPlumbStep (s : State) : Host.Outcome State Fault Refusal :=
  .next (if s.time.step.isSome && timeRuns s then applySecond (toSecond s) else s)

/-- TIME_SET_APPLY (R101). -/
def execTimeSetApply (s : State) : Host.Outcome State Fault Refusal :=
  .next (if s.time.setTo.isSome && timeRuns s then applySecond (toSecond s) else s)

/-! ### Edges and losses of the reference (R103 to R106, R599) -/

/-- The TREF offset in 1/64 tick, to the nearest (R103). -/
def trefOffset (s : State) : Int := roundDiv (1572864 * (s.set.time.trefNs : Int)) 100000

/-- Delta of a PPS edge at a device time, in 1/64 tick (R105). -/
def ppsDelta (s : State) (t64 : Int) : Int :=
  let sec : Int := 64 * (ticksPerSecond : Int)
  let r := (trefOffset s - t64) % sec
  (if 2 * r < sec then r else r - sec) - (if s.set.time.ref = 2 then Config.fallingEdge else 0)

/-- Is a measured frequency within 50 ppm of 10 MHz (R104)? -/
def tenMhzOk (m : TenMhzMeas) : Bool := m.present && ((m.milliHz : Int) - 10000000000).natAbs ≤ 500000

/-- Delta of a 10 MHz measurement at a device time, in 1/64 tick: the nearest multiple of 3,072 ticks (R105). -/
def tenMhzDelta (s : State) (t64 : Int) : Int :=
  let r := (trefOffset s - t64) % 196608
  if 2 * r < 196608 then r else r - 196608

/-- PPS_EDGE: the selected edge is accepted unless it comes less than 900 ms after the last (R104, R105). -/
def execPpsEdge (rising : Bool) (sub : Int) (s : State) : Host.Outcome State Fault Refusal :=
  .next (
    if !s.clk.refOn || s.pwr.porAsserted || !((s.set.time.ref = 1 && rising) || (s.set.time.ref = 2 && !rising)) then s
    else match s.time.lastEdge with
      | some e =>
        if now s < e + ms 900 then noteLog 0x0106 0xFF 0 ((now s - e) * 100 / 24576) s
        else plumbEdge (ppsDelta s (now64 s + sub)) s
      | none => plumbEdge (ppsDelta s (now64 s + sub)) s)

/-- TEN_MHZ_WINDOW: each 1 ms measurement is the accepted edge, or loses the reference (R104). -/
def execTenMhzWindow (m : TenMhzMeas) (s : State) : Host.Outcome State Fault Refusal :=
  .next (
    if !s.clk.refOn || s.pwr.porAsserted || s.set.time.ref ≠ 3 then s
    else
      let s := passTo (s.time.lastEdge.getD s.time.refAt + ms 1) s
      if tenMhzOk m then plumbEdge (tenMhzDelta s (now64 s + m.sub)) s
      else coast none { s with time := { s.time with lastEdge := some (now s) } })

/-- REFERENCE_LOST: no PPS edge for 2.5 s (R104, R106). -/
def execReferenceLost (s : State) : Host.Outcome State Fault Refusal :=
  .next (
    if (s.set.time.ref = 1 || s.set.time.ref = 2) && s.time.plumb != .free && s.time.plumb != .coasting then
      coast none (passTo (s.time.lastEdge.getD s.time.refAt + ms 2500) s)
    else s)

/-! ### Losses of lock (R95, R96, R171) -/

/-- Record the loss of a loop; entering HOLD, which stops REF with its loops, is no loss of lock (R41, R95, R550). -/
def noteLoss (code : Nat) (s : State) : State := if s.set.mode = .hold then s else noteLog 0x0105 0xFF code 0 s

/-- Note the outage of a loop in us at its relock; while the Headstock's clock stands it is recorded, and posted when the
Headstock runs again (R95, R550). -/
def noteLoop (code us : Nat) (s : State) : State :=
  if s.clk.sysPll = .locked then note 0x0105 0xFF code (us % 4294967296) s
  else
    let s := noteLog 0x0105 0xFF code (us % 4294967296) s
    { s with clk := { s.clk with owed := s.clk.owed ++ [(code, us % 4294967296)] } }

/-- The outages that wait for the Headstock are posted (R95). -/
def noteOwed (s : State) : State :=
  s.clk.owed.foldl (fun t x => note 0x0105 0xFF x.1 x.2 t) { s with clk := { s.clk with owed := [] } }

/-- The SYSPLL loses lock: the watchdog is suspended and the link PA goes off (R95, R434). A frame that was being received is
dropped and counted nowhere (log 132). -/
def loseSysPll (s : State) : State :=
  if s.clk.sysPll != .locked then s
  else
    let s := cutAir (noteLoss 0 s)
    { s with clk := { s.clk with sysPll := .lost (now s), wdogSuspended := true }, link := { s.link with rx := [] } }

/-- The SPLL loses lock: every window stops producing, and qualification will start again (R95, R106). -/
def loseSPll (s : State) : State :=
  if s.clk.sPll != .locked then s
  else
    let s := noteLoss 1 s
    let s := { s with clk := { s.clk with sPll := .lost (now s) }, time := { s.time with agree := 0, slewLeft := 0 } }
    ([0, 1, 2, 3, 4] : List Nat).foldl (fun t w => gapWindow w t) s

/-- The APLL loses lock: the TDM ports stop (R95). -/
def loseAPll (s : State) : State :=
  if s.clk.aPll != .locked then s
  else
    let s := noteLoss 2 s
    { s with clk := { s.clk with aPll := .lost (now s) } }

/-- The link synthesiser loses lock: the radio goes to STANDBY and a frame on air is cut off (R95, R434). -/
def loseSynth (s : State) : State :=
  if s.clk.linkSynth != .locked then s
  else
    let s := noteLoss 4 s
    let s := cutAir { s with clk := { s.clk with linkSynth := .lost (now s) } }
    { s with link := { s.link with radio := if s.link.radio = .sleep then .sleep else .standby, radioTo := none, rx := [] } }

/-- The host word clock is lost: the APLL freezes its frequency (R95, R290). -/
def loseWordClock (s : State) : State :=
  if s.set.time.apll ≠ 1 || s.clk.wordClock != .locked then s
  else
    let s := noteLoss 3 s
    { s with clk := { s.clk with wordClock := .lost (now s), apllFrozen := true, wordLost := true } }

/-- REF stops: device time passes to the AON clock, Plumb coasts and every loop loses lock (R95, R98, R602). -/
def refStops (s : State) : State :=
  if !s.clk.refOn then s
  else
    let s := loseSynth (loseAPll (loseSPll (loseSysPll (coastLater (noteLoss 5 s)))))
    { s with clk := { s.clk with refOn := false, refOffAt := now s }, time := { s.time with rateDelta := none } }

/-- LOOP_LOSS_OF_LOCK (R95). -/
def execLoopLossOfLock (l : Loop) (s : State) : Host.Outcome State Fault Refusal :=
  .next (match l with
    | .sysPll => loseSysPll s
    | .sPll => loseSPll s
    | .aPll => loseAPll s
    | .wordClock => loseWordClock s
    | .linkSynth => loseSynth s
    | .ref => refStops s)

/-- REF_STOP (R98, R602). -/
def execRefStop (s : State) : Host.Outcome State Fault Refusal := .next (refStops s)

/-- WORD_CLOCK_LOST (R95, R290). -/
def execWordClockLost (s : State) : Host.Outcome State Fault Refusal := .next (loseWordClock s)

/-- KERF_BUFFER_FULL: with Kerf's clock stopped a window's buffer of 16,384 ticks is full, and the newest samples are discarded
(R171). -/
def execKerfBufferFull (w : Nat) (s : State) : Host.Outcome State Fault Refusal :=
  within s (w < 5) (match s.clk.sysPll with
    | .lost since =>
      if windowOpen s w && !s.clk.kerfFull.contains w && s.clk.refOn then
        let s := passTo (since + 16384) s
        { s with clk := { s.clk with kerfFull := s.clk.kerfFull ++ [w] } }
      else s
    | .locked => s)

/-- The lock state of a loop. -/
def loopAt (s : State) : Loop → LoopState
  | .sysPll => s.clk.sysPll | .sPll => s.clk.sPll | .aPll => s.clk.aPll | .wordClock => s.clk.wordClock
  | .linkSynth => s.clk.linkSynth | .ref => if s.clk.refOn then .locked else .lost s.clk.refOffAt

/-- LOOP_RELOCK_ATTEMPT: the lock sequence is restarted at the loss and then every 1 ms (R95). -/
def execLoopRelockAttempt (l : Loop) (s : State) : Host.Outcome State Fault Refusal :=
  .next (match loopAt s l with
    | .lost since => passTo (since + ms ((now s - since) / ms 1 + 1)) s
    | .locked => s)

/-! ### Relocks and returns (R95, R96, R602) -/

/-- The time since an instant, in us (R95). -/
def outageUs (since : Nat) (s : State) : Nat := (now s - since) * 100 / 24576

/-- Let an outage last as many us as its relock takes (R95). -/
def lastOutage (since us : Nat) (s : State) : State := passTo (since + (us * 24576 + 99) / 100) s

/-- Kerf drains a window's full buffer, and then comes the gap (R171). -/
def gapAfterBuffer (w : Nat) (g : Int) (s : State) : State :=
  (ownersOn s w).foldl (fun t o => modChain o (fun c => if chainProducing c then { c with gapAt := some (c.gapAt.getD g) } else c) t) s

/-- The SYSPLL relocks: Kerf drains its buffers, the windows whose buffer overflowed have a gap, every window that can produces
again, and what waited for the Headstock is posted (R95, R96, R171, R602). -/
def relockSysPll (us : Nat) (s : State) : State :=
  match s.clk.sysPll with
  | .locked => s
  | .lost since =>
    if !s.clk.refOn then s
    else
      let s := lastOutage since us s
      let full := s.clk.kerfFull
      let s := { s with clk := { s.clk with sysPll := .locked, wdogSuspended := false, kerfFull := [] } }
      let s := full.foldl (fun t w => gapAfterBuffer w ((s.time.count.toNat : Int) - (now s - since : Nat) + 16384) t) s
      let s := ([0, 1, 2, 3, 4] : List Nat).foldl (fun t w => judgeWindow none w t) s
      noteOwed (noteLoop 0 (outageUs since s) (postCoasted s))

/-- The SPLL relocks: the windows produce again, each chain after a gap (R95). -/
def relockSPll (us : Nat) (s : State) : State :=
  match s.clk.sPll with
  | .locked => s
  | .lost since =>
    if !s.clk.refOn then s
    else
      let s := lastOutage since us s
      let s := { s with clk := { s.clk with sPll := .locked } }
      let s := ([0, 1, 2, 3, 4] : List Nat).foldl (fun t w => judgeWindow none w t) s
      noteLoop 1 (outageUs since s) s

/-- The APLL relocks: the TDM ports resume, each output that plays there with a fade-in of 10 ms; no ring is affected (R95). -/
def relockAPll (us : Nat) (s : State) : State :=
  match s.clk.aPll with
  | .locked => s
  | .lost since =>
    if !s.clk.refOn then s
    else
      let s := lastOutage since us s
      let s := { s with
        clk := { s.clk with aPll := .locked }
        prog := { s.prog with pcms := s.prog.pcms.map (fun x => if x.playing && x.port < 4 then { x with portFade := (480, 480) } else x) } }
      noteLoop 2 (outageUs since s) s

/-- The link synthesiser relocks: the radio leaves STANDBY through STANDBY to SYNTH (R95). -/
def relockSynth (us : Nat) (s : State) : State :=
  match s.clk.linkSynth with
  | .locked => s
  | .lost since =>
    if !s.clk.refOn then s
    else
      let s := lastOutage since us s
      noteLoop 4 (outageUs since s) (radioRest { s with clk := { s.clk with linkSynth := .locked } })

/-- The APLL locks to the host word clock on WCLK_IN (R290, R365, R583). -/
def lockWordClock (us : Nat) (s : State) : State :=
  match s.clk.wordClock with
  | .locked => s
  | .lost since =>
    if s.set.time.apll ≠ 1 || wordClockAbsent s then s
    else
      let s := lastOutage since us s
      let lost := s.clk.wordLost
      let s := { s with clk := { s.clk with wordClock := .locked, apllFrozen := false, wordLost := false } }
      if lost then noteLoop 3 (outageUs since s) s else s

/-- REF returns: device time passes back to REF at the next AON clock edge; the loops relock by rows of their own, and the outage
waits for the Headstock. In HOLD REF stays off (R41, R95, R98). -/
def refReturns (s : State) : State :=
  if s.clk.refOn || s.pwr.porAsserted || s.set.mode = .hold then s
  else noteLoop 5 (outageUs s.clk.refOffAt s) { s with clk := { s.clk with refOn := true } }

/-- LOOP_RELOCK: a loop regains lock, and HEALTH_NOTE reports the outage (R95). -/
def execLoopRelock (l : Loop) (us : Nat) (s : State) : Host.Outcome State Fault Refusal :=
  .next (match l with
    | .sysPll => relockSysPll us s
    | .sPll => relockSPll us s
    | .aPll => relockAPll us s
    | .wordClock => lockWordClock us s
    | .linkSynth => relockSynth us s
    | .ref => if s.clk.refOn || s.pwr.porAsserted || s.set.mode = .hold then s else refReturns (lastOutage s.clk.refOffAt us s))

/-- REF_RETURN (R95, R98). -/
def execRefReturn (s : State) : Host.Outcome State Fault Refusal := .next (refReturns s)

/-- WORD_CLOCK_LOCKED (R290). -/
def execWordClockLocked (s : State) : Host.Outcome State Fault Refusal := .next (lockWordClock 0 s)

/-! ### TIME_CONFIG and TIME_SET -/

/-- TIME_CONFIG's fields as written (R365). -/
def rawTime (p : List Byte) : TimeConfig :=
  { ref := field p 0 1, apll := field p 1 1, trefNs := field p 4 4
    dExt := (List.range 7).map (fun n => field p (8 + 4 * n) 4) }

/-- The same, clamped (R365). -/
def clampTime (c : TimeConfig) : TimeConfig :=
  { ref := satNat 3 c.ref, apll := satNat 1 c.apll, trefNs := satNat 50000 c.trefNs, dExt := c.dExt.map (satNat 40000) }

/-- The payload of TIME_CONFIG (R365). -/
def timeBytes (c : TimeConfig) : List Byte :=
  leBytes 1 c.ref ++ leBytes 1 c.apll ++ zeros 2 ++ leBytes 4 c.trefNs ++ c.dExt.flatMap (leBytes 4)

/-- A change of reference type: TIME_COASTING where Plumb held a reference, a decided step is discarded, and Plumb starts in
ACQUIRING, or in FREE without a reference (R365, R601). -/
def changeReference (new : Nat) (cause : Option Nat) (s : State) : State :=
  let s := if plumbHeld s then post 0x8201 {} (timePayload s s.set.time.ref) cause s else s
  { s with time := { s.time with
    plumb := if new = 0 then .free else .acquiring, step := none, near := 0, agree := 0, lastDelta := none, lastEdge := none
    refAt := now s, rateDelta := none, slewLeft := 0, everLocked := false } }

/-- The checks of TIME_CONFIG. -/
def timeConfigChecks (f : CmdFrame) (_ : State) : Checks :=
  { lenOk := f.payload.length = 36, modes := [.idle, .survey, .serve, .sentry, .test] }

/-- The effect and the reply of TIME_CONFIG. -/
def timeConfigBody (f : CmdFrame) (s : State) : State × Option Reply :=
  let raw := rawTime f.payload
  let c := clampTime raw
  let old := s.set.time
  let s := if c.ref ≠ old.ref then changeReference c.ref (some f.tag) s else s
  let s := if c.apll = old.apll then s
    else if c.apll = 1 then { s with clk := { s.clk with apllFrozen := true, wordClock := .lost (now s), wordLost := false } }
    else { s with clk := { s.clk with apllFrozen := false, wordLost := false } }
  let s := setSettings { s.set with time := c } s
  let s := if c.apll = 1 && old.apll ≠ 1 && wordClockAbsent s then noteBy 0x0108 0xFF 0 0 f.tag s else s
  (s, some { target := f.target, clamped := c != raw })

/-- TIME_CONFIG (R365). -/
def execTimeConfig (f : CmdFrame) (s : State) : Host.Outcome State Fault Refusal :=
  .next (command 0x0200 f (timeConfigChecks f) (timeConfigBody f) s)

/-- The checks of GET_TIME_CONFIG. -/
def getTimeConfigChecks (f : CmdFrame) (_ : State) : Checks :=
  { lenOk := f.payload.length = 0, modes := modesAll }

/-- The effect and the reply of GET_TIME_CONFIG. -/
def getTimeConfigBody (f : CmdFrame) (s : State) : State × Option Reply :=
  (s, replyWith f (timeBytes s.set.time))

/-- GET_TIME_CONFIG (R359, R599). -/
def execGetTimeConfig (f : CmdFrame) (s : State) : Host.Outcome State Fault Refusal :=
  .next (command 0x0201 f (getTimeConfigChecks f) (getTimeConfigBody f) s)

/-- The checks of TIME_SET. -/
def timeSetChecks (f : CmdFrame) (_ : State) : Checks :=
  { lenOk := f.payload.length = 8, modes := [.idle, .survey, .serve, .sentry, .test] }

/-- The effect and the reply of TIME_SET. -/
def timeSetBody (f : CmdFrame) (s : State) : State × Option Reply :=
  let n := field f.payload 0 8
  let d := { deferredOf 0x0202 f false with clamped := 34359738367 < n }
  (deferOn .timeSet d { s with time := { s.time with setTo := some (satNat 34359738367 n) } }, none)

/-- TIME_SET: S waits for the next second boundary, replacing one that waits already (R101, R366). -/
def execTimeSet (f : CmdFrame) (s : State) : Host.Outcome State Fault Refusal :=
  .next (command 0x0202 f (timeSetChecks f) (timeSetBody f) s)

end Sys2Proof.Machine
end

