-- ==== Sys2Proof/Machine/Store.lean ====
section
/-!
DEFINITION. Store.lean: the settings store: when each record is written, the end of a write, zeroisation of key slots, shipped
values and FACTORY_DEFAULTS (R50, R54 to R62, R488, R509, R603).
-/

namespace Sys2Proof.Machine

/-! ### Records (R50) -/

/-- The mode a reset comes back to: the one entered without a command, or the current one (R44, R88). -/
def recordedMode (s : State) : Mode := match s.head.transition with
  | some m => if m = .hold || s.head.deferred.any (fun d => d.key == .mode) then s.set.mode else m
  | none => s.set.mode

/-- The settings as accepted: a link or gather configuration that waits for its moment is written as accepted. -/
def settingsAccepted (s : State) : Settings :=
  { s.set with mode := recordedMode s, link := chargedLink s, gather := s.link.gatherTo.getD s.set.gather }

/-- Write the settings record; answers the job's number (R50). -/
def writeSettings (s : State) : Nat × State :=
  let x := queueWrite .settings (.settings (settingsAccepted s)) 8192 false s
  (x.1, { x.2 with store := { x.2.store with dirtyFirst := none, dirtyLast := none } })

/-- Write the calibration record with every change made since the last write (R509, R531). -/
def writeCal (s : State) : State :=
  let s := foldHours s
  let s := (queueWrite .calibration (.calibration s.cal.record) 16384 false s).2
  { s with store := { s.store with calDirty := false, calLastWrite := some (now s) } }

/-- SETTINGS_COMMIT_TIMER: 1 s after the last change of a run, 5 s after its first (R50). The loader of a recovery boot leaves the
settings store as it is (R90). -/
def execSettingsCommitTimer (s : State) : Host.Outcome State Fault Refusal :=
  .next (match s.store.dirtyFirst with
    | some a => if s.pwr.stage = .recovery then s else (writeSettings (passTo (min (s.store.dirtyLast.getD a + ticksPerSecond) (a + 5 * ticksPerSecond)) s)).2
    | none => s)

/-- LINK_COUNTERS_SNAPSHOT: every 60 s while the link is configured (R50), but not in a recovery boot (R90). -/
def execLinkCountersSnapshot (s : State) : Host.Outcome State Fault Refusal :=
  .next (
    if s.set.link.role = 0 || s.pwr.stage = .recovery then s
    else
      let s := passTo (s.link.snapAt + 60 * ticksPerSecond) s
      writeCounters { s with link := { s.link with snapAt := now s } })

/-- CAL_RECORD_WRITE: at most once in any 60 s (R509), but not in a recovery boot (R90). -/
def execCalRecordWrite (s : State) : Host.Outcome State Fault Refusal :=
  .next (
    if s.store.calDirty && s.pwr.stage != .recovery then
      writeCal (match s.store.calLastWrite with
        | some t => passTo (t + 60 * ticksPerSecond) s
        | none => s)
    else s)

/-! ### Zeroisation (R488) -/

/-- Post KEY_CHANGED (R487, R488). -/
def keyChanged (slot action : Nat) (cause : Option Nat) (s : State) : State :=
  post 0x8D00 {} (leBytes 1 slot ++ leBytes 1 action ++ leBytes 1 (slot + 1) ++ zeros 1) cause s

/-- Begin to zeroise slots, in their order (R488). -/
def beginZeroise (slots : List Nat) (s : State) : State :=
  slots.foldl (fun t i =>
    let t := (queueWrite (.key i) .blank 0 true t).2
    { t with sec := { t.sec with zeroising := t.sec.zeroising ++ [i] } }) s

/-- A slot's copies are overwritten: the Mortise clears it in its memory, KEY_CHANGED is posted if it was filled, and after the last
slot the command is answered (R488). -/
def slotZeroised (i : Nat) (s : State) : State :=
  let had := (s.sec.keys.getD i none).isSome
  let s := { s with sec := { s.sec with keys := setAt s.sec.keys i none, zeroising := s.sec.zeroising.erase i } }
  let s := if had then keyChanged i 1 ((waiterTag .zeroise s).or (waiterTag .mode s)) s else s
  if s.sec.zeroising.isEmpty then release .zeroise plainReply s else s

/-- Both copies of a slot are written: the key is in use, and KEY_CHANGED is posted. A new link key restarts the frame counter,
makes the link counters available and writes their record, and the response then waits for that write (R487). -/
def slotInstalled (j : WriteJob) (i : Nat) (k : Option (List Byte)) (s : State) : State :=
  let s := keyChanged i 0 (waiterTag (.write j.id) s) { s with sec := { s.sec with keys := setAt s.sec.keys i k } }
  if i = 1 then
    let s := { s with link := { s.link with counter := 0, reserved := 1024, counterOk := true } }
    let x := queueWrite .counters (.counters (countersNow s)) 36864 false s
    let moved := x.2.head.deferred.map (fun d => if d.key == .write j.id then { d with key := .write x.1 } else d)
    { x.2 with head := { x.2.head with deferred := moved } }
  else s

/-! ### The end of a write (R54 to R56) -/

/-- The write in progress ends, and the next one begins. -/
def endFirst (j : WriteJob) (rest : List WriteJob) (st : StoreS) : StoreS :=
  let st := modPair j.kind (endJob j) { st with queue := rest }
  match rest with
  | k :: _ => modPair k.kind (beginJob k) st
  | [] => st

/-- What the end of a write does besides: the calibration count, a slot zeroised or installed (R487, R488, R525). -/
def finishJob (j : WriteJob) (rest : List WriteJob) (s : State) : State :=
  let s := { s with store := endFirst j rest s.store }
  match j.kind, j.content with
  | .calibration, _ => { s with cal := { s.cal with writes := s.cal.writes + 1 } }
  | .key i, .blank => slotZeroised i s
  | .key i, .key k => slotInstalled j i k s
  | _, _ => s

/-- RECORD_WRITE_DONE: the magic is written, and a response that waits for the write is sent (R54, R56, R61). -/
def execRecordWriteDone (s : State) : Host.Outcome State Fault Refusal :=
  .next (match s.store.queue with
    | [] => s
    | j :: rest => commitProgress (release (.write j.id) plainReply (finishJob j rest s)))

/-! ### Shipped values (R557, R603) -/

/-- The main port of a host configuration: PCIe, SPI, or two-wire (R603). -/
def mainPort (cfg : Nat) : Nat := if cfg = 2 then 0 else if cfg = 1 then 1 else 2

/-- A ring's shipped settings (R603). -/
def shippedRing (cfg n : Nat) : RingSettings :=
  { port := if n = 30 then mainPort cfg else 3
    enable := [2, 6, 10].contains n || (cfg == 1 && [1, 5, 9].contains n)
    quota := if [1, 2, 4, 5, 6].contains n then 16384 else if [8, 9, 10].contains n then 32768
      else if [28, 29, 30].contains n then 65536 else 0 }

/-- The shipped settings in a host configuration, in the mode the device is in (R61, R603). -/
def shippedSettings (s : State) : Settings :=
  { mode := s.set.mode, lastWake := s.set.lastWake, rings := (List.range 32).map (shippedRing (hostConfig s)) }

/-- The shipped bindings: the health log to ring 30 (R548). -/
def shippedBinds : List (Nat × Handle × Nat × Nat) := [(15, {}, 6, 30)]

/-- A ring takes new settings: it is disabled or enabled, its contents are laid out anew, and what exceeds the QUOTA drops (R304,
R309, R311). -/
def applyRing (n : Nat) (x : RingSettings) (s : State) : State :=
  let old := ringSet s n
  let moved := 12 ≤ n && old.port ≠ x.port
  let s := modRingSet n (fun _ => x) s
  let s := if moved then modRing n (fun r => { r with head := 0, tail := 0 }) s else s
  let s := repack n s
  let s := if dropsExcess n then shrinkRing n (ringAt s n).entries.length s else s
  if x.enable && !old.enable then enableVisible n (modRing n (fun r => { r with enabled := true, seq := 0 }) s)
  else if !x.enable && old.enable && !(inHostMemory s n && !hostProduced n) then modRing n (fun r => { r with enabled := false }) s
  else s

/-- Every object, user bank and curve table leaves the plan at once; generations stay (R61, R62, R159). -/
def emptyPlan (tag : Nat) (s : State) : State :=
  let s := stopAll (some tag) s
  let s := { s with prog := { s.prog with standing := [] } }
  let s := finishRemovals (some tag) (shutUnnamed [] tag s)
  { s with
    mix := { s.mix with banks := s.mix.banks.map (fun b => { b with kind := none, taps := [] })
                        curves := s.mix.curves.map (fun c => { c with points := none }) }
    plan := { s.plan with binds := shippedBinds, volatile := false } }

/-- The shipped settings take effect: the link stops, the timing reference and the word clock go, every ring follows (R61). -/
def applyShipped (tag : Nat) (s : State) : State :=
  let new := shippedSettings s
  let old := s.set
  let stops := old.link.role ≠ 0 && !s.link.stopped
  let s := { s with set := { new with rings := old.rings, link := if stops then old.link else new.link } }
  let s := { s with link := { s.link with newConfig := if stops then some new.link else none, gatherTo := none, gpio4 := none } }
  let s := if stops then beginStop (some tag) s else s
  let s := if old.time.ref ≠ 0 then changeReference 0 (some tag) s else s
  let s := { s with clk := { s.clk with apllFrozen := false, wordLost := false } }
  let s := (new.rings.zipIdx).foldl (fun t x => applyRing x.2 x.1 t) s
  flushResponses s

/-- The checks of FACTORY_DEFAULTS. -/
def factoryDefaultsChecks (f : CmdFrame) (_ : State) : Checks :=
  { lenOk := f.payload.length = 0, modes := [.idle, .compat] }

/-- The effect and the reply of FACTORY_DEFAULTS. -/
def factoryDefaultsBody (f : CmdFrame) (s : State) : State × Option Reply :=
  let s := writePlan (bumpPlan (emptyPlan f.tag s))
  let s := applyShipped f.tag s
  let x := writeSettings s
  let s := deferOn (.write x.1) (deferredOf 0x0102 f false) x.2
  (if s.set.mode = .compat then
    compatEnter { s with compat := { s.compat with
      tuneFreq := none, tuneBw := none, tuneAgain := none, applyDone := false
      chFreq := [none, none, none, none], chService := [none, none, none, none], chRx := [none, none, none, none] } }
  else tunersOff s, none)

/-- FACTORY_DEFAULTS, from a host or from the emulation: an empty plan and then shipped settings, applied at once and written; the
response follows both writes (R60 to R62, R344, R356). -/
def factoryDefaults (f : CmdFrame) (s : State) : State :=
  command 0x0102 f (factoryDefaultsChecks f) (factoryDefaultsBody f) s

/-- FACTORY_DEFAULTS (R61). -/
def execFactoryDefaults (f : CmdFrame) (s : State) : Host.Outcome State Fault Refusal := .next (factoryDefaults f s)

end Sys2Proof.Machine
end

