-- ==== Sys2Proof/Machine/Mode.lean ====
section
/-!
DEFINITION. Mode.lean: the eight modes: SET_MODE, the transitions, HOLD and its wake sources (R34 to R43, R302, R362, R364, R393,
R505, R551, R553, R574).
-/

namespace Sys2Proof.Machine

/-! ### Transitions (R34 to R37, R41, R505) -/

/-- The transitions SET_MODE offers (the table Transitions available through SET_MODE); host configuration 3 has COMPAT, HOLD and
UPDATE alone, and IDLE named in UPDATE means COMPAT there (R34, R35, R553). -/
def modeAllowed (s : State) (m : Mode) : Bool :=
  if hostConfig s = 3 then (match s.set.mode with
    | .compat => m == .hold || m == .update
    | .update => m == .idle || m == .hold
    | .idle => m == .compat || m == .hold || m == .update
    | _ => false)
  else match s.set.mode with
    | .idle | .survey | .serve | .sentry => m != .compat
    | .update => m == .idle || m == .hold
    | .test => m == .idle
    | _ => false

/-- Write the settings record with a mode to come, and call the settings clean (R41, R50). -/
def writeSettingsFor (m : Mode) (s : State) : State :=
  let now := s.set.mode
  let t := (writeSettings { s with set := { s.set with mode := m } }).2
  { t with set := { t.set with mode := now } }

/-- HOLD writes every dirty record and the link counters record with its ledger snapshot, whatever the link's role (R41, R50). -/
def holdWrites (s : State) : State :=
  let t := writeCounters (writeSettingsFor .hold s)
  if t.store.calDirty then writeCal t else t

/-- The objects of the mode being left stop (R37). -/
def leaveMode (cause : Option Nat) (s : State) : State :=
  let t := stopAll cause (if s.set.mode = .survey then closeSweep s else s)
  if s.set.mode = .compat then compatLeave t else t

/-- Begin a transition: every object of the mode being left stops; for HOLD the dirty records are written, for TEST every key slot is
zeroised (R37, R41, R50, R505). -/
def beginTransition (m : Mode) (cause : Option Nat) (s : State) : State :=
  let t := leaveMode cause s
  let t := { t with head := { t.head with transition := some m } }
  match m with
  | .hold => holdWrites t
  | .test => beginZeroise [0, 1, 2] t
  | _ => t

/-- Is a transition's own work done: for HOLD every record written, for TEST every slot zeroised? -/
def transitionReady (s : State) (m : Mode) : Bool :=
  if m = .hold then s.store.queue.isEmpty else if m = .test then s.sec.zeroising.isEmpty else true

/-- What runs in a mode begins to run (R36). -/
def enterMode (cause : Option Nat) (s : State) : State :=
  if s.set.mode = .compat then compatEnter s else enterRunning cause s

/-- Ring 31 is open in TEST alone (R293, R505). -/
def closeRing31 (s : State) : State :=
  if (ringSet s 31).enable then applyRing 31 { ringSet s 31 with enable := false } s else s

/-- The commands held behind shut-downs that have ended are handled in their order (R338). -/
def rerunAll (s : State) : State :=
  rerunHeld [0x0300, 0x0304, 0x0700, 0x0C00] (fun op f t =>
    if op = 0x0700 then (pcmRouteChecks f t).holds
    else if op = 0x0C00 then t.link.stopping
    else openHeld op f t) (fun op f t =>
    if op = 0x0300 then handle 0x0300 f true (windowOpenChecks f t) (windowOpenBody f true) t
    else if op = 0x0304 then handle 0x0304 f true (windowGangChecks f t) (windowGangBody f true) t
    else if op = 0x0700 then handle op f true (pcmRouteChecks f t) (pcmRouteBody f) t
    else handleLinkConfig f true t) s

/-- Does the active plan mark nothing for SENTRY (R40)? The marks that count are those of what SENTRY can run: receptions, raw taps,
PCM outputs and windows. DESIGN CHOICE, log 127. -/
def sentryEmpty (s : State) : Bool :=
  !s.prog.receptions.any (·.sentry) && !s.prog.taps.any (·.o.sentry) && !s.prog.pcms.any (·.o.sentry) &&
  !s.front.windows.any (fun w => w.inPlan && w.sentry)

/-- Does a transition pass through IDLE on its way (R37)? -/
def throughIdle (left m : Mode) : Bool :=
  let runs (x : Mode) : Bool := x == .survey || x == .serve || x == .sentry
  runs left && runs m

/-- A mode other than HOLD is entered, through IDLE where R37 says so, in which the tuners are OFF and the dividers are reduced: its
objects run, the link follows, the response and held commands follow (R36, R37, R40, R528). -/
def finishTransition (m : Mode) (s : State) : State :=
  let cause := waiterTag .mode s
  let left := s.set.mode
  let s := setSettings { s.set with mode := m } { s with head := { s.head with transition := none } }
  let s := if left = .test then closeRing31 s else s
  let s := if throughIdle left m then reduceDividers (tunersOff s) else s
  let s := linkRefresh cause (enterMode cause s)
  let s := if m = .sentry && sentryEmpty s then logNote true 0x0601 0xFF 0 0 cause s else s
  let s := if m = .idle then reduceDividers s else s
  rerunAll (release .mode (fun d => { target := d.target, payload := leBytes 4 (modeWord s).toNat }) s)

/-! ### HOLD (R41 to R43) -/

/-- A wake: the Chuck starts REF, the loops lock, and the device is in IDLE; the resume mode follows without a command (R42, R551). -/
def wake (source : Nat) (s : State) : State :=
  let s := setSettings { s.set with mode := .idle, lastWake := source } s
  let s := { s with
    clk := { s.clk with refOn := true, owed := [], sysPll := .locked, sPll := .locked, aPll := .locked, linkSynth := .locked
                        wdogSuspended := false, kerfFull := [] }
    head := { s.head with wakePending := none }
    cal := { s.cal with opSince := now s } }
  let m := if hostConfig s = 3 then Mode.compat else s.set.resume
  if m = .idle then reduceDividers s else beginTransition m none s

/-- HOLD is entered: Plumb coasts, the response is given, then everything but the AON island stops; a wake source that became
active meanwhile, or WAKE still high, takes effect at once (R41, R43, R362, R574, R602). -/
def finishHold (s : State) : State :=
  let cause := waiterTag .mode s
  let s := coast cause s
  let s := rerunAll (release .mode (fun d => { target := d.target, payload := leBytes 4 (modeWord s).toNat }) s)
  let s := { s with cal := { s.cal with opTicks := uncounted s } }
  let s := { s with set := { s.set with mode := .hold }, head := { s.head with transition := none } }
  let s := reduceDividers (tunersOff (linkRefresh none (refStops s)))
  match s.head.wakePending with
  | some w => wake w s
  | none => if s.pwr.wakePin then wake 1 s else s

/-- MODE_TRANSITION_DONE (R36, R43, R88). -/
def execModeTransitionDone (s : State) : Host.Outcome State Fault Refusal :=
  within s (clockRuns s 6) (match s.head.transition with
    | none => s
    | some m => if !transitionReady s m then s else if m = .hold then finishHold s else finishTransition m s)

/-! ### SET_MODE (R34, R362) -/

/-- The mode a payload names, clamped; IDLE named in UPDATE is COMPAT in host configuration 3 (R362, R553). -/
def askedMode (s : State) (f : CmdFrame) : Mode :=
  let m := Mode.ofCode (field f.payload 0 1)
  if hostConfig s = 3 && s.set.mode = .update && m = .idle then .compat else m

/-- The resume mode a payload names: 1 becomes 0, 4 and above 3 (R362). -/
def askedResume (f : CmdFrame) : Mode :=
  let r := field f.payload 1 1
  if r = 2 then .serve else if 3 ≤ r then .sentry else .idle

/-- Was a value of SET_MODE clamped (R362)? The resume mode is read only with HOLD. -/
def modeClamped (f : CmdFrame) : Bool :=
  let r := field f.payload 1 1
  7 < field f.payload 0 1 || (Mode.ofCode (field f.payload 0 1) == .hold && (r == 1 || 3 < r))

/-- The checks of SET_MODE (R33, R34, R253, R505, R553). -/
def setModeChecks (f : CmdFrame) (s : State) : Checks :=
  let m := Mode.ofCode (field f.payload 0 1)
  { lenOk := f.payload.length = 4, modes := modesAllC
    denied := [failIf (m == .test && s.set.mode != .test && !s.sec.unlocked) 5 1 0xFFFF]
    modeOk := m == s.set.mode || (modeAllowed s m && !(m == .sentry && 2 < sentryPcms s))
    cap := [failIf (m == .survey && s.set.mode != .survey && 320 ≤ chainsUsed s) 4 2 0xFFFF,
            failIf (m == .sentry && s.set.mode != .sentry && (8 < sentryReceptions s || 1 < sentryWindows s)) 4 7 0xFFFF]
    clamps := modeClamped f }

/-- The effect and the reply of SET_MODE. -/
def setModeBody (f : CmdFrame) (s : State) : State × Option Reply :=
  let m := askedMode s f
  let clamped := modeClamped f
  if m = s.set.mode then
    (s, some { target := f.target, clamped := clamped, payload := leBytes 4 (modeWord s).toNat })
  else
    let s := if m = .hold then setSettings { s.set with resume := askedResume f } s else s
    let s := deferOn .mode { deferredOf 0x0101 f false with clamped := clamped } s
    (beginTransition m (some f.tag) s, none)

/-- SET_MODE, from a host or from the emulation (R33 to R36, R41, R356, R362). -/
def setMode (f : CmdFrame) (s : State) : State :=
  command 0x0101 f (setModeChecks f) (setModeBody f) s

/-- SET_MODE (R362). -/
def execSetMode (f : CmdFrame) (s : State) : Host.Outcome State Fault Refusal := .next (setMode f s)

/-! ### Wake sources (R42, R43, R364, R393, R574) -/

/-- A wake source becomes active: it wakes the device in HOLD, waits while HOLD is being entered, and is nothing otherwise. -/
def wakeSource (source : Nat) (s : State) : State :=
  if s.pwr.stage != .running then s
  else if s.set.mode = .hold then wake source s
  else if s.head.transition = some .hold then { s with head := { s.head with wakePending := some (s.head.wakePending.getD source) } }
  else s

/-- WAKE_HIGH: a high level of 65 us is always recognised; a shorter one may be missed. Whether WAKE is still high afterwards is
open (R574). -/
def execWakeHigh (widthUs : Nat) (s : State) : Host.Outcome State Fault Refusal :=
  .next (
    if s.pwr.porAsserted then s
    else
      let (seen, s) := drawBool s
      let (high, s) := drawBool s
      let s := { s with pwr := { s.pwr with wakePin := high } }
      if 65 ≤ widthUs || seen then wakeSource 1 s else s)

/-- TWO_WIRE_WAKE: a transaction to the address is NAKed in HOLD and wakes the device (R393). -/
def execTwoWireWake (s : State) : Host.Outcome State Fault Refusal :=
  .next (if s.pwr.stage == .running && s.set.mode = .hold then wakeSource 2 (emit (.nak 0) s) else s)

/-- AON_ALARM: the alarm's second has come; it wakes the device in HOLD and is cleared (R364). -/
def execAonAlarm (s : State) : Host.Outcome State Fault Refusal :=
  .next (
    if s.set.alarm = 0 || s.pwr.porAsserted then s
    else
      let s := pass (s.set.alarm * ticksPerSecond - s.time.count.toNat) s
      wakeSource 3 (setSettings { s.set with alarm := 0 } s))

end Sys2Proof.Machine
end

