-- ==== Sys2Proof/Machine/System.lean ====
section
/-!
DEFINITION. System.lean: identity, port declarations, the alarm setting, ECHO and unassigned opcodes (R355, R361, R363, R364).
-/

namespace Sys2Proof.Machine

/-- Is the magic of a slot's control word valid (R494)? -/
def controlOk (x : ImageSlot) : Bool := x.control == 0x4B435453

/-- The image slot that runs (R494, R506). -/
def runningImage (s : State) : ImageSlot := s.store.images.getD s.sec.running {}

/-- GET_IDENTITY's payload (R361). -/
def identityBytes (s : State) : List Byte :=
  let x := runningImage s
  leBytes 4 0x4D5A7256 ++ leBytes 1 0xA1 ++ [Config.grade] ++ leBytes 1 x.major ++ leBytes 1 x.minor ++ leBytes 2 x.patch ++
  leBytes 1 s.sec.running ++ leBytes 1 (hostConfig s) ++ leBytes 4 x.build ++ leBytes 8 Config.serial.toNat ++
  leBytes 2 s.sec.rollback ++ zeros 2

/-- The checks of GET_IDENTITY. -/
def getIdentityChecks (f : CmdFrame) (_ : State) : Checks :=
  { lenOk := f.payload.length = 0, modes := modesAll }

/-- The effect and the reply of GET_IDENTITY. -/
def getIdentityBody (f : CmdFrame) (s : State) : State × Option Reply :=
  (s, replyWith f (identityBytes s))

/-- GET_IDENTITY (R361). -/
def execGetIdentity (f : CmdFrame) (s : State) : Host.Outcome State Fault Refusal :=
  .next (command 0x0100 f (getIdentityChecks f) (getIdentityBody f) s)

/-- PORT_DECLARE's fields as written (R363). -/
def rawPorts (p : List Byte) : PortDecl := { sckKhz := field p 0 4, spiQuad := field p 4 1, sclKhz := field p 8 4 }

/-- The same, clamped. -/
def clampPorts (c : PortDecl) : PortDecl :=
  { sckKhz := clampNat 1000 80000 c.sckKhz, spiQuad := satNat 1 c.spiQuad, sclKhz := clampNat 100 1000 c.sclKhz }

/-- The payload of PORT_DECLARE. -/
def portBytes (c : PortDecl) : List Byte := leBytes 4 c.sckKhz ++ leBytes 1 c.spiQuad ++ zeros 3 ++ leBytes 4 c.sclKhz

/-- A port whose planned rate exceeds its new budget is reported (R29, R363). -/
def reportBudget (cause p : Nat) (s : State) : State :=
  let s := markBudget p s
  if budget s p < planned s p then noteBy 0x0501 0xFF p (budget s p / 1000) cause s else s

/-- The checks of PORT_DECLARE. -/
def portDeclareChecks (f : CmdFrame) (_ : State) : Checks :=
  { lenOk := f.payload.length = 12, modes := modesIYSE }

/-- The effect and the reply of PORT_DECLARE. -/
def portDeclareBody (f : CmdFrame) (s : State) : State × Option Reply :=
  let raw := rawPorts f.payload
  let c := clampPorts raw
  let s := setSettings { s.set with ports := c } s
  (reportBudget f.tag 2 (reportBudget f.tag 1 s), some { target := f.target, clamped := c != raw })

/-- PORT_DECLARE (R363). -/
def execPortDeclare (f : CmdFrame) (s : State) : Host.Outcome State Fault Refusal :=
  .next (command 0x0103 f (portDeclareChecks f) (portDeclareBody f) s)

/-- The checks of GET_PORT_DECLARE. -/
def getPortDeclareChecks (f : CmdFrame) (_ : State) : Checks :=
  { lenOk := f.payload.length = 0, modes := modesAll }

/-- The effect and the reply of GET_PORT_DECLARE. -/
def getPortDeclareBody (f : CmdFrame) (s : State) : State × Option Reply :=
  (s, replyWith f (portBytes s.set.ports))

/-- GET_PORT_DECLARE (R359, R363). -/
def execGetPortDeclare (f : CmdFrame) (s : State) : Host.Outcome State Fault Refusal :=
  .next (command 0x0104 f (getPortDeclareChecks f) (getPortDeclareBody f) s)

/-- The checks of ALARM_SET. -/
def alarmSetChecks (f : CmdFrame) (_ : State) : Checks :=
  { lenOk := f.payload.length = 8, modes := modesIYSE }

/-- The alarm that a command asks for: 0 for none, else no earlier than the next second (R364). -/
def alarmAsked (s : State) (f : CmdFrame) : Nat :=
  if field f.payload 0 8 = 0 then 0 else max (field f.payload 0 8) (second s + 1)

/-- The effect and the reply of ALARM_SET. -/
def alarmSetBody (f : CmdFrame) (s : State) : State × Option Reply :=
  let n := field f.payload 0 8
  let a := alarmAsked s f
  (setSettings { s.set with alarm := a } s, some { target := f.target, clamped := a != n })

/-- ALARM_SET: an alarm earlier than the next second is set to it (R364). -/
def execAlarmSet (f : CmdFrame) (s : State) : Host.Outcome State Fault Refusal :=
  .next (command 0x0105 f (alarmSetChecks f) (alarmSetBody f) s)

/-- The checks of GET_ALARM. -/
def getAlarmChecks (f : CmdFrame) (_ : State) : Checks :=
  { lenOk := f.payload.length = 0, modes := modesAll }

/-- The effect and the reply of GET_ALARM. -/
def getAlarmBody (f : CmdFrame) (s : State) : State × Option Reply :=
  (s, replyWith f (leBytes 8 s.set.alarm))

/-- GET_ALARM (R359, R364). -/
def execGetAlarm (f : CmdFrame) (s : State) : Host.Outcome State Fault Refusal :=
  .next (command 0x0106 f (getAlarmChecks f) (getAlarmBody f) s)

/-- The checks of ECHO. -/
def echoChecks (f : CmdFrame) (_ : State) : Checks :=
  { lenOk := f.payload.length ≤ 4080, modes := modesAllC }

/-- The effect and the reply of ECHO. -/
def echoBody (f : CmdFrame) (s : State) : State × Option Reply :=
  (s, replyWith f f.payload)

/-- ECHO (R355). -/
def execEcho (f : CmdFrame) (s : State) : Host.Outcome State Fault Refusal :=
  .next (command 0x0107 f (echoChecks f) (echoBody f) s)

/-- How many opcodes each group of chapter 13 assigns, from number 0 on, by group 0x00 to 0x0F. -/
def groupSizes : List Nat := [0, 8, 3, 8, 3, 11, 4, 5, 3, 11, 4, 6, 7, 8, 5, 3]

/-- Is an opcode assigned in release 1.4 (R355)? -/
def opcodeAssigned (op : Nat) : Bool := op % 256 < groupSizes.getD (op / 256) 0

/-- UNASSIGNED_OPCODE: MALFORMED with detail 1 (R325, R355). -/
def execUnassignedOpcode (opcode : Nat) (f : CmdFrame) (s : State) : Host.Outcome State Fault Refusal :=
  .next (if opcodeAssigned opcode then s
    else command opcode f (fun _ => { lenOk := true, bad := [failIf true 6 1 0xFFFF], modes := modesAll })
      (fun s => (s, none)) s)

end Sys2Proof.Machine
end

