-- ==== Sys2Proof/Machine/Mortise.lean ====
section
/-!
DEFINITION. Mortise.lean: keys, firmware images, the regulatory profile, TEST unlock, status, and the Mortise's error state
(chapter 17).
-/

namespace Sys2Proof.Machine

/-- The refusal of the error state: DENIED with detail 1 (R503). -/
def errorDenied (s : State) : Option Fail := failIf (s.sec.state == .error) 5 1 0xFFFF

/-! ### Keys (R483 to R488) -/

/-- The key of a slot as it stands after the writes already accepted. -/
def keyAccepted (s : State) (i : Nat) : Option (List Byte) :=
  s.store.queue.foldl (fun k j => match j.kind, j.content with
    | .key n, .blank => if n = i then none else k
    | .key n, .key x => if n = i then x else k
    | _, _ => k) (s.sec.keys.getD i none)

/-- The key that KEY_INSTALL's data gives a slot: plaintext for an empty slot 0, or unwrapped under the KEK; none is DENIED
(R482, R485, R486). -/
def keyOffered (s : State) (slot : Nat) (plain : Bool) (data : List Byte) : Option (List Byte) :=
  if plain then (if slot = 0 && (keyAccepted s 0).isNone && data.length == 32 then some data else none)
  else match keyAccepted s 0 with
    | some kek => kwUnwrap kek data
    | none => none

/-- The checks of KEY_INSTALL. -/
def keyInstallChecks (f : CmdFrame) (s : State) : Checks :=
  let slot := satNat 2 (field f.payload 0 1)
  let plain := field f.payload 1 1 % 2 == 1
  let data := f.payload.drop 8
  { lenOk := 8 ≤ f.payload.length && data.length == field f.payload 4 2
    bad := [failIf (!plain && data.length != (if slot = 0 then 40 else 24)) 6 2 4]
    denied := [errorDenied s, failIf (keyOffered s slot plain data).isNone 5 1 0xFFFF], modes := [.update] }

/-- The effect and the reply of KEY_INSTALL. -/
def keyInstallBody (f : CmdFrame) (s : State) : State × Option Reply :=
  let slot := satNat 2 (field f.payload 0 1)
  let plain := field f.payload 1 1 % 2 == 1
  let data := f.payload.drop 8
  let k := keyOffered s slot plain data
  let x := queueWrite (.key slot) (.key k) data.length true s
  (deferOn (.write x.1) { deferredOf 0x0D00 f false with clamped := 2 < field f.payload 0 1 } x.2, none)

/-- KEY_INSTALL (R485 to R487): the response follows the writes. -/
def execKeyInstall (f : CmdFrame) (s : State) : Host.Outcome State Fault Refusal :=
  .next (command 0x0D00 f (keyInstallChecks f) (keyInstallBody f) s)

/-- The slots a mask names (R488). -/
def maskSlots (m : Nat) : List Nat := [0, 1, 2].filter (fun i => m = 0xFF || m / 2 ^ i % 2 = 1)

/-- The checks of KEY_ZEROISE. -/
def keyZeroiseChecks (f : CmdFrame) (_ : State) : Checks :=
  { lenOk := f.payload.length = 4, modes := modesAllC }

/-- The effect and the reply of KEY_ZEROISE. -/
def keyZeroiseBody (f : CmdFrame) (s : State) : State × Option Reply :=
  let slots := maskSlots (field f.payload 0 1)
  if slots.isEmpty then (s, replyWith f [])
  else (deferOn .zeroise (deferredOf 0x0D01 f false) (beginZeroise slots s), none)

/-- KEY_ZEROISE, from a host or from the emulation (R356, R488). -/
def keyZeroise (f : CmdFrame) (s : State) : State :=
  command 0x0D01 f (keyZeroiseChecks f) (keyZeroiseBody f) s

/-- KEY_ZEROISE (R488). -/
def execKeyZeroise (f : CmdFrame) (s : State) : Host.Outcome State Fault Refusal := .next (keyZeroise f s)

/-! ### Signed objects (R493, R494) -/

/-- Is a certificate block valid for a purpose: the root key's hash, the root signature and the purpose (R493)? -/
def certOk (c : List Byte) (purpose : Nat) : Bool :=
  sha256 (c.take 64) == Config.rootKeyHash && ecdsaVerify (c.take 64) ((c.drop 64).take 68) ((c.drop 132).take 64) &&
  field c 128 1 == purpose

/-- Does an object with its certificate block at an offset verify: its last 64 bytes sign all before them (R493)? -/
def signedOk (b : List Byte) (certAt purpose : Nat) : Bool :=
  let c := (b.drop certAt).take 196
  let n := b.length - 64
  certOk c purpose && ecdsaVerify ((c.drop 64).take 64) (b.take n) (b.drop n)

/-! ### Firmware (R494 to R497) -/

/-- The image data as written, later writes over earlier ones. -/
def imageBytes (n : Nat) (ws : List (Nat × List Byte)) : List Byte :=
  ws.foldl (fun l w => padTo n (l.take w.1 ++ w.2 ++ l.drop (w.1 + w.2.length))) (zeros n)

/-- How far the data reaches without a hole from the start, found by extending it write by write. -/
def writtenTo (ws : List (Nat × List Byte)) : Nat → Nat → Nat
  | 0, pos => pos
  | fuel + 1, pos => writtenTo ws fuel (ws.foldl (fun p w => if w.1 ≤ p then max p (w.1 + w.2.length) else p) pos)

/-- Is every byte of the declared length written (R497)? -/
def imageWhole (n : Nat) (ws : List (Nat × List Byte)) : Bool := n ≤ writtenTo ws ws.length 0

/-- Does a staged image pass R493 and R495 against the rollback counter? -/
def imageOk (counter : Nat) (b : List Byte) : Bool :=
  field b 0 4 == 0x474B5849 && field b 8 1 ≤ 64 && field b 16 4 + 320 == b.length && counter ≤ field b 8 1 && signedOk b 20 1

/-- A slot whose image has been validated (R494, R497). -/
def validSlot (b : List Byte) (seq : W32) : ImageSlot :=
  { install := seq, authentic := true
    major := field b 4 1, minor := field b 5 1, patch := field b 6 2, rollback := field b 8 1, build := field b 12 4 }

/-- Does an image slot pass R495: control word, magic, signatures, and the rollback counter? -/
def slotOk (s : State) (i : Nat) : Bool :=
  let x := s.store.images.getD i {}
  controlOk x && x.magic == 0x474B5849 && x.authentic && s.sec.rollback ≤ x.rollback

/-- The checks of FW_UPDATE_BEGIN. -/
def fwUpdateBeginChecks (f : CmdFrame) (s : State) : Checks :=
  let n := field f.payload 0 4
  { lenOk := f.payload.length = 8, bad := [failIf (n < 320 || 1835008 < n) 6 2 0]
    denied := [errorDenied s], modes := [.update] }

/-- The effect and the reply of FW_UPDATE_BEGIN. -/
def fwUpdateBeginBody (f : CmdFrame) (s : State) : State × Option Reply :=
  let n := field f.payload 0 4
  let t := if s.pwr.stage == .recovery then (if slotOk s 0 then 1 else 0) else 1 - s.sec.running
  let images := modAt s.store.images t (fun x => { x with control := 0, magic := 0 })
  ({ s with store := { s.store with images := images }, sec := { s.sec with fwSlot := some (t, n), fwData := [] } },
    replyWith f (leBytes 1 t ++ zeros 3))

/-- FW_UPDATE_BEGIN: the target is the slot not running, or in recovery boot the lower-numbered slot that failed (R497). -/
def execFwUpdateBegin (f : CmdFrame) (s : State) : Host.Outcome State Fault Refusal :=
  .next (command 0x0D02 f (fwUpdateBeginChecks f) (fwUpdateBeginBody f) s)

/-- The checks of FW_UPDATE_PART. -/
def fwUpdatePartChecks (f : CmdFrame) (s : State) : Checks :=
  let off := field f.payload 0 4
  let data := f.payload.drop 8
  { lenOk := 9 ≤ f.payload.length && f.payload.length ≤ 4080
    bad := [failIf (((s.sec.fwSlot.map (·.2)).getD 0) < off + data.length) 6 2 0]
    denied := [errorDenied s], modes := [.update] }

/-- The effect and the reply of FW_UPDATE_PART. -/
def fwUpdatePartBody (f : CmdFrame) (s : State) : State × Option Reply :=
  let off := field f.payload 0 4
  let data := f.payload.drop 8
  ({ s with sec := { s.sec with fwData := s.sec.fwData ++ [(off, data)] } }, replyWith f [])

/-- FW_UPDATE_PART: data past the image length is MALFORMED; with no update begun, all data is (R497). -/
def execFwUpdatePart (f : CmdFrame) (s : State) : Host.Outcome State Fault Refusal :=
  .next (command 0x0D03 f (fwUpdatePartChecks f) (fwUpdatePartBody f) s)

/-- A reply of a check made in the body: a status other than OK with its detail. -/
def failReply (f : CmdFrame) (status detail : Nat) : Option Reply :=
  some { status := status, target := f.target, payload := failPayload { status := status, detail := detail } }

/-- Operation 0 of FW_UPDATE_COMMIT: the staged image is verified and validated (R497). The detail of INCOMPLETE for an image with
bytes missing is open: an image has no part numbers. -/
def commitImage (f : CmdFrame) (s : State) : State × Option Reply := match s.sec.fwSlot with
  | none => (s, failReply f 7 0xFFFF)
  | some (t, n) =>
    if !imageWhole n s.sec.fwData then
      let (d, s) := drawNat s
      (s, failReply f 7 (d % 65536))
    else
      let b := imageBytes n s.sec.fwData
      if imageOk s.sec.rollback b then
        let other := (s.store.images.getD (1 - t) {}).install
        ({ s with store := { s.store with images := setAt s.store.images t (validSlot b (other + 1)) }
                  sec := { s.sec with fwSlot := none, fwData := [] } }, replyWith f [])
      else (s, failReply f 5 1)

/-- The checks of FW_UPDATE_COMMIT. -/
def fwUpdateCommitChecks (f : CmdFrame) (s : State) : Checks :=
  { lenOk := f.payload.length = 4, denied := [errorDenied s], modes := [.update] }

/-- The effect and the reply of FW_UPDATE_COMMIT. -/
def fwUpdateCommitBody (f : CmdFrame) (s : State) : State × Option Reply :=
  let op := field f.payload 0 1
  if op = 0 then commitImage f s
  else
    let x := if s.pwr.stage == .recovery then 0 else (runningImage s).rollback
    ({ s with sec := { s.sec with rollback := max s.sec.rollback x } },
      some { target := f.target, clamped := 1 < op })

/-- FW_UPDATE_COMMIT: operation 1 raises the rollback counter to the running image's index (R496, R497). -/
def execFwUpdateCommit (f : CmdFrame) (s : State) : Host.Outcome State Fault Refusal :=
  .next (command 0x0D04 f (fwUpdateCommitChecks f) (fwUpdateCommitBody f) s)

/-! ### The regulatory profile (R499) -/

/-- A sub-band of a profile container. -/
def parseSubBand (b : List Byte) : SubBand :=
  { start := field b 0 4, stop := field b 4 4, power := fieldInt b 8 1, width := field b 9 1, budget := field b 10 2 }

/-- The profile of a container. -/
def parseProfile (b : List Byte) : Profile :=
  { version := field b 4 2, region := field b 6 2, container := b
    subs := (List.range (field b 8 1)).map (fun i => parseSubBand (b.drop (208 + 12 * i))) }

/-- Does a container verify for purpose 2 (R493, R499)? -/
def containerOk (b : List Byte) : Bool := field b 0 4 == 0x4750524D && signedOk b 12 2

/-- The front-end gain is clamped again under a profile (R442). -/
def reclampGain (p : Profile) (s : State) : State :=
  let g := min s.set.link.feGain (lowestPower p + 20).toNat
  if g = s.set.link.feGain then s
  else setSettings { s.set with link := { s.set.link with feGain := g } } s

/-- The checks of REGION_PROFILE_INSTALL. -/
def regionProfileInstallChecks (f : CmdFrame) (s : State) : Checks :=
  let n := field f.payload 8 1
  { lenOk := 272 ≤ f.payload.length && f.payload.length == 272 + 12 * n, bad := [failIf (n < 1 || 16 < n) 6 2 8]
    denied := [errorDenied s, failIf (!containerOk f.payload) 5 1 0xFFFF,
               failIf (field f.payload 4 2 < (s.sec.profile.map (·.version)).getD 0) 5 3 4]
    modes := [.update] }

/-- The effect and the reply of REGION_PROFILE_INSTALL. -/
def regionProfileInstallBody (f : CmdFrame) (s : State) : State × Option Reply :=
  let p := parseProfile f.payload
  let s := (queueWrite .profile (.profile (some p)) f.payload.length false s).2
  (linkRefresh (some f.tag) (reclampGain p { s with sec := { s.sec with profile := some p } }), replyWith f [])

/-- REGION_PROFILE_INSTALL (R499). -/
def execRegionProfileInstall (f : CmdFrame) (s : State) : Host.Outcome State Fault Refusal :=
  .next (command 0x0D05 f (regionProfileInstallChecks f) (regionProfileInstallBody f) s)

/-! ### TEST unlock and status (R504, R506) -/

/-- Draw a fresh challenge (R504). -/
def newChallenge (s : State) : State :=
  let x := drawBytes 16 (drbgRequest s)
  { x.2 with sec := { x.2.sec with challenge := x.1 } }

/-- Does a TEST unlock token match and verify (R493, R504)? -/
def tokenOk (s : State) (b : List Byte) : Bool :=
  field b 196 8 == Config.serial.toNat && (b.drop 204).take 16 == s.sec.challenge && signedOk b 0 3

/-- The checks of TEST_UNLOCK. -/
def testUnlockChecks (f : CmdFrame) (s : State) : Checks :=
  { lenOk := f.payload.length = 288
    denied := [errorDenied s, failIf (s.set.mode != .idle && !tokenOk s f.payload) 5 1 0xFFFF], modes := [.idle] }

/-- The effect and the reply of TEST_UNLOCK. -/
def testUnlockBody (f : CmdFrame) (s : State) : State × Option Reply :=
  let ok := tokenOk s f.payload
  let s := newChallenge { s with sec := { s.sec with unlocked := s.sec.unlocked || ok } }
  (s, if ok then replyWith f [] else failReply f 5 1)

/-- TEST_UNLOCK (R504). -/
def execTestUnlock (f : CmdFrame) (s : State) : Host.Outcome State Fault Refusal :=
  .next (command 0x0D06 f (testUnlockChecks f) (testUnlockBody f) s)

/-- An image slot's 8 bytes in GET_SECURITY (R506). -/
def imageEntry (x : ImageSlot) : List Byte :=
  leBytes 1 x.major ++ leBytes 1 x.minor ++ leBytes 2 x.patch ++ leBytes 1 x.rollback ++ zeros 3

/-- The code of the Mortise's state (R506). -/
def ModuleState.code : ModuleState → Nat
  | .operational => 0 | .error => 1 | .recovery => 2

/-- GET_SECURITY's payload (R506). -/
def securityBytes (s : State) : List Byte :=
  let filled (i : Nat) : Nat := if (s.sec.keys.getD i none).isSome then 2 ^ i else 0
  let valid (i : Nat) : Nat := if slotOk s i then 2 ^ i else 0
  leBytes 1 s.sec.state.code ++ leBytes 1 (filled 0 + filled 1 + filled 2) ++ leBytes 1 s.sec.running ++
  leBytes 1 (valid 0 + valid 1) ++ leBytes 1 s.sec.rollback ++ leBytes 1 s.sec.unlocked.toNat ++
  leBytes 2 ((s.sec.profile.map (·.version)).getD 0) ++ leBytes 2 ((s.sec.profile.map (·.region)).getD 0) ++
  leBytes 2 s.sec.entropyFails ++ imageEntry (s.store.images.getD 0 {}) ++ imageEntry (s.store.images.getD 1 {}) ++
  s.sec.challenge

/-- The checks of GET_SECURITY. -/
def getSecurityChecks (f : CmdFrame) (_ : State) : Checks :=
  { lenOk := f.payload.length = 0, modes := modesAllC }

/-- The effect and the reply of GET_SECURITY. -/
def getSecurityBody (f : CmdFrame) (s : State) : State × Option Reply :=
  (s, replyWith f (securityBytes s))

/-- GET_SECURITY (R506). -/
def execGetSecurity (f : CmdFrame) (s : State) : Host.Outcome State Fault Refusal :=
  .next (command 0x0D07 f (getSecurityChecks f) (getSecurityBody f) s)

/-! ### Entropy and the DRBG (R500, R503) -/

/-- ENTROPY_TEST_FAILURE: the Mortise enters its error state, Gokixel stops the link and posts the note (R503). -/
def execEntropyTestFailure (s : State) : Host.Outcome State Fault Refusal :=
  .next (
    if s.pwr.stage != .running || s.set.mode = .hold then s
    else
      let n := satNat 65535 (s.sec.entropyFails + 1)
      let s := { s with sec := { s.sec with state := .error, entropyFails := n } }
      let s := if s.set.link.role = 0 || s.link.stopped || s.link.stopping then s
        else beginStop none { s with link := { s.link with stopped := true } }
      note 0x0703 0xFF 0 n s)

/-- DRBG_RESEED: after 2^20 requests (R500). -/
def execDrbgReseed (s : State) : Host.Outcome State Fault Refusal :=
  .next (if 1048576 ≤ s.sec.requests then { s with sec := { s.sec with requests := 0 } } else s)

end Sys2Proof.Machine
end

