-- ==== Sys2Proof/Machine/Boot.lean ====
section
/-!
DEFINITION. Boot.lean: the two resets, the power-on sequence with its clock gates and repeats, the reload of the retained store,
and the return to the recorded mode (R44, R45, R57 to R59, R63 to R91, R93, R335, R347, R401, R478, R495, R502, R512).
-/

namespace Sys2Proof.Machine

/-! ### Choosing a copy (R57) -/

/-- The comparison of R57: is the second sequence number the newer one? -/
def newerSeq (a b : W32) : Bool := decide (1 ≤ (b - a).toNat) && decide ((b - a).toNat < 2 ^ 31)

/-- The copy that R57 chooses, true for B; none when both are invalid. -/
def chooseCopy (k : RecordKind) (p : CopyPair) : Option Bool :=
  let a := copyValid k.num k.maxLen p.a
  let b := copyValid k.num k.maxLen p.b
  if a && b then some (newerSeq p.a.seq p.b.seq) else if a then some false else if b then some true else none

/-- The copy in use while the store was not read again: the one chosen or written last (R54). -/
def copyInUse (k : RecordKind) (p : CopyPair) : Option Bool :=
  if copyValid k.num k.maxLen (if p.useB then p.b else p.a) then some p.useB else chooseCopy k p

/-- Note something to be posted once a host port is open. -/
def bootNote (code island value : Nat) (s : State) : State :=
  { s with head := { s.head with bootEvents := s.head.bootEvents ++ [(code, island, value)] } }

/-- Choose and read the copy of a record kind; none when both are invalid, which is reported for the kinds of R50 (R57, R489). -/
def loadRecord (por : Bool) (k : RecordKind) (s : State) : Option Content × State :=
  let p := pairOf s.store k
  match if por then chooseCopy k p else copyInUse k p with
  | some b => (some (if b then p.b else p.a).content, { s with store := modPair k (fun p => { p with useB := b }) s.store })
  | none => (none, if k.num < 0x100 then bootNote 0x0103 0xFF k.num s else s)

/-! ### The plan and its objects (R39, R335, R347) -/

/-- The generation of an index, one step before an object of generation `g` takes it. -/
def genBefore (g : Nat) : Nat := (g + 65535) % 65536

/-- Set the generation counter of an index of a class. -/
def presetGen (cls i g : Nat) (s : State) : State :=
  let g := genBefore g
  match cls with
  | 0 => { s with gens := { s.gens with reception := setAt s.gens.reception i g } }
  | 1 => { s with gens := { s.gens with branch := setAt s.gens.branch i g } }
  | 2 => { s with gens := { s.gens with probe := setAt s.gens.probe i g } }
  | 3 => { s with gens := { s.gens with tap := setAt s.gens.tap i g } }
  | 5 => { s with gens := { s.gens with pcm := setAt s.gens.pcm i g } }
  | 7 => modWindow i (fun x => { x with gen := g }) s
  | 8 => { s with gens := { s.gens with follow := setAt s.gens.follow i g } }
  | 9 => { s with gens := { s.gens with blend := setAt s.gens.blend i g } }
  | 10 => { s with mix := { s.mix with banks := modAt s.mix.banks (i - 32) (fun x => { x with gen := g }) } }
  | 11 => { s with mix := { s.mix with curves := modAt s.mix.curves (i - 4) (fun x => { x with gen := g }) } }
  | _ => s

/-- Restore one entry of a plan record: an object comes back under its own handle, a setting is made again. The place of the entry
gives its object's place in the order of creation. -/
def restoreEntry (s : State) (x : PlanEntry × Nat) : State :=
  let e := x.1
  let f : CmdFrame := { port := 3, portField := 3, target := e.target, payload := e.payload }
  let s := { s with head := { s.head with serial := x.2 } }
  match createdClass e.op with
  | some c =>
    if classTaken s c e.target.index then s
    else (createEntry e.op e.target.index e.mark f (presetGen c e.target.index e.target.gen s)).1
  | none => (changeEntry e.op none f s).1

/-- The opcodes of a plan record's entries in an order in which every object comes after those it refers to; programmes come
between the two parts. -/
def restoreFirst : List Nat := [0x0A00, 0x0A02, 0x0300, 0x0304, 0x0500]

/-- The second part of the order. -/
def restoreSecond : List Nat := [0x0504, 0x0506, 0x0907, 0x0900, 0x0903, 0x0700, 0x0509, 0x0600, 0x0601, 0x0800]

/-- Restore the entries of some opcodes, in the order of the opcodes. -/
def restorePass (ops : List Nat) (es : List (PlanEntry × Nat)) (s : State) : State :=
  ops.foldl (fun t op => (es.filter (fun x => x.1.op == op)).foldl restoreEntry t) s

/-- The generation counters of a plan record, in the order in which `planRecord` lists them. -/
def restoreGens (l : List (List Nat)) (s : State) : State :=
  let at' (k : Nat) (old : List Nat) : List Nat := l.getD k old
  { s with
    gens := { reception := at' 0 s.gens.reception, branch := at' 1 s.gens.branch, programme := at' 2 s.gens.programme
              probe := at' 3 s.gens.probe, tap := at' 4 s.gens.tap, follow := at' 5 s.gens.follow, blend := at' 6 s.gens.blend
              pcm := at' 7 s.gens.pcm, fixed := (at' 11 []).headD s.gens.fixed }
    front := { s.front with windows := s.front.windows.zipIdx.map (fun x => { x.1 with gen := (l.getD 8 []).getD x.2 x.1.gen }) }
    mix := { s.mix with banks := s.mix.banks.zipIdx.map (fun x => { x.1 with gen := (l.getD 9 []).getD x.2 x.1.gen })
                        curves := s.mix.curves.zipIdx.map (fun x => { x.1 with gen := (l.getD 10 []).getD x.2 x.1.gen }) } }

/-- Rebuild the object tables from a plan record, every object stopped and with the settings the record gives it, whatever mode is
recorded (R39, R46, R86 step 11). -/
def restorePlan (r : PlanRecord) (s : State) : State :=
  let es := (entriesOf r.bytes).1
  let s := restoreGens r.gens s
  let gens := r.progs.foldl (fun l p => setAt l p.1 p.2.1) s.gens.programme
  let mode := s.set.mode
  let s := restorePass restoreFirst es.zipIdx { s with set := { s.set with mode := .idle } }
  let s := { s with
    gens := { s.gens with programme := gens }
    prog := { s.prog with programmes := r.progs.map (fun p =>
      ({ idx := p.1, gen := p.2.1, reception := p.2.2.1, decl := p.2.2.2 } : Programme)) } }
  let s := restorePass restoreSecond es.zipIdx s
  { s with set := { s.set with mode := mode }, plan := { s.plan with seq := r.seq }, head := { s.head with serial := es.length } }

/-- Advance by 1,024 every generation of a class whose index holds no object (R335). -/
def advanceGens (s : State) (cls base : Nat) (l : List Nat) : List Nat :=
  l.zipIdx.map (fun x => if classTaken s cls (base + x.2) then x.1 else (x.1 + 1024) % 65536)

/-- R335 for every index that the restored plan does not hold: a bank or table is held while it is loaded. The chains that name a
default bank name it by its new generation. -/
def advanceUnheld (s : State) : State :=
  let adv (g : Nat) : Nat := (g + 1024) % 65536
  mapChains (fun c => if c.bank.index < 32 then { c with bank := { c.bank with gen := adv s.gens.fixed } } else c) { s with
    gens := { reception := advanceGens s 0 0 s.gens.reception, branch := advanceGens s 1 0 s.gens.branch
              programme := advanceGens s 4 0 s.gens.programme, probe := advanceGens s 2 0 s.gens.probe
              tap := advanceGens s 3 0 s.gens.tap, follow := advanceGens s 8 0 s.gens.follow
              blend := advanceGens s 9 0 s.gens.blend, pcm := advanceGens s 5 0 s.gens.pcm, fixed := adv s.gens.fixed }
    front := { s.front with windows := s.front.windows.map (fun x => if x.inPlan then x else { x with gen := adv x.gen }) }
    mix := { s.mix with banks := s.mix.banks.map (fun b => if b.kind.isSome then b else { b with gen := adv b.gen })
                        curves := s.mix.curves.map (fun c => if c.points.isSome then c else { c with gen := adv c.gen }) } }

/-! ### Reading the records (R44, R58, R59, R478, R484, R499, R509) -/

/-- The settings of a record, or the shipped ones (R58). -/
def settingsOf (c : Option Content) (s : State) : Settings := match c with
  | some (.settings x) => x
  | _ => { shippedSettings s with mode := .idle, lastWake := 0 }

/-- The plan of a record, or the empty one with the shipped binding (R58, R603). -/
def planOf (c : Option Content) : PlanRecord := match c with
  | some (.plan r) => r
  | _ => { bytes := shippedBinds.flatMap (fun b => renderPlanEntry 0x0800 false b.2.1 (leBytes 1 b.1 ++ leBytes 1 b.2.2.2 ++ zeros 2)) }

/-- The counters of a record; without one the reservation is lost and every ledger counts as fully used (R58). -/
def countersOf (c : Option Content) : Counters := match c with
  | some (.counters x) => x
  | some _ => {}
  | none => { lost := true, full := [(-3600, 0)] }

/-- The frame counter resumes at the reservation (R50, R478). -/
def resumeCounter (c : Counters) (l : LinkS) : LinkS :=
  { l with counter := c.reserved, reserved := c.reserved, counterOk := !c.lost }

/-- The ledgers of a snapshot. Its seconds move by `shift`, and the seconds from the snapshot up to `upTo` count as fully used
(R59). -/
def resumeLedgers (c : Counters) (shift upTo : Int) (l : LinkS) : LinkS :=
  { l with
    buckets := c.ledgers.map (fun b => b.map (fun x => (x.1 + shift, x.2)))
    allUsed := c.full.map (fun x => (x.1 + shift, x.2 + shift)) ++ [((c.snapSecond : Int) + shift, upTo)] }

/-- The calibration values: the record's, or the factory values of the fuses (R58, R509). -/
def loadCal (por : Bool) (s : State) : State :=
  let x := loadRecord por .calibration s
  let r : CalRecord := match x.1 with
    | some (.calibration c) => c
    | _ => {}
  { x.2 with cal := { x.2.cal with record := r, fromFuses := x.1.isNone } }

/-- The regulatory profile: that of the record's container, which is verified again, or none (R58, R437, R499). -/
def loadProfile (por : Bool) (s : State) : State :=
  let x := loadRecord por .profile s
  let p : Option Profile := match x.1 with
    | some (.profile (some p)) => if containerOk p.container then some (parseProfile p.container) else none
    | _ => none
  { x.2 with sec := { x.2.sec with profile := p } }

/-- A key slot's contents; a slot with no valid copy is empty (R484, R489). -/
def loadKey (por : Bool) (s : State) (i : Nat) : State :=
  let x := loadRecord por (.key i) s
  let k : Option (List Byte) := match x.1 with
    | some (.key k) => k
    | _ => none
  { x.2 with sec := { x.2.sec with keys := setAt x.2.sec.keys i k } }

/-- Plumb right after its state was cleared: FREE, or ACQUIRING where the settings hold a reference type (R99). -/
def freshTime (s : State) : TimeS := { plumb := if s.set.time.ref = 0 then .free else .acquiring, refAt := now s }

/-- Step 6 after power-on reset: the copies are chosen by R57 and the retained store is reloaded (R44, R58, R59, R335, R347). -/
def reload (outage : Nat) (s : State) : State :=
  let a := loadRecord true .settings s
  let s := { a.2 with set := settingsOf a.1 a.2 }
  let s := { s with time := freshTime s }
  let b := loadRecord true .plan s
  let r := planOf b.1
  let s := advanceUnheld (restorePlan { r with seq := r.seq + 65536 } b.2)
  let s := loadProfile true (loadCal true s)
  let c := loadRecord true .counters s
  let k := countersOf c.1
  let s := { c.2 with link := resumeLedgers k (-(k.snapSecond : Int) - outage) 0 (resumeCounter k c.2.link) }
  { s with pwr := { s.pwr with reloadDone := true } }

/-! ### What each reset clears (R65, R69, R478, R546, R548) -/

/-- Power-on reset (R65): the settings store, the fuses, the supplies but VDD_AON (R64) and the levels on the pins stay; everything
else is at its reset value. -/
def powerOff (s : State) : State :=
  let z : State := {}
  let s := if s.link.air.isSome then emit .paOff s else s
  { z with
    pending := s.pending, out := s.out, fresh := s.fresh
    store := { s.store with queue := [], dirtyFirst := none, dirtyLast := none, calDirty := false, calLastWrite := none, restoreSource := 0 }
    clk := { elapsed := s.clk.elapsed }, sec := { rollback := s.sec.rollback }
    pwr := { nresetLow := s.pwr.nresetLow, railsGood := s.pwr.railsGood.filter (· != .vddAon), wakePin := s.pwr.wakePin } }

/-- Does a write hold a key to be installed? -/
def keyWriteJob (j : WriteJob) : Bool := match j.kind, j.content with
  | .key _, .key _ => true
  | _, _ => false

/-- The writer's queue across nRESET: the write in progress is completed, and writes that wait are made after it, but for keys,
which the Mortise's memory held (R55, R65, R69). -/
def keptWrites : List WriteJob → List WriteJob
  | [] => []
  | j :: rest => j :: rest.filter (fun x => !keyWriteJob x)

/-- The link across nRESET: what R478 continues. A link that was changing its settings starts again. -/
def keptLink (s : State) : LinkS :=
  let l := s.link
  { state := if l.newConfig.isSome then .off else l.state
    counter := l.counter, reserved := l.reserved, counterOk := l.counterOk, buckets := l.buckets, allUsed := l.allUsed
    offset := l.offset, gatherer := l.gatherer, lastSfn := l.lastSfn, lastBeacon := l.lastBeacon, net := l.net, window := l.window
    snapAt := l.snapAt }

/-- An accepted nRESET (R65): the retained store, device time and Plumb stay; every island but I0 is reset, its memory cleared,
and the object tables come from the retained plan. -/
def islandsReset (s : State) : State :=
  let s := applyGpio4 s
  let r := planRecord s
  let z : State := {}
  let c : ClockS := {
    elapsed := s.clk.elapsed, refOn := s.clk.refOn, sysPll := .lost (now s), sPll := .lost (now s), aPll := .lost (now s)
    linkSynth := .lost (now s), refOffAt := s.clk.refOffAt, wordClock := .lost (now s) }
  let t := { z with
    pending := s.pending, out := s.out, fresh := s.fresh, set := settingsAccepted s
    store := { s.store with queue := keptWrites s.store.queue, calDirty := false }
    clk := c
    time := { s.time with shadows := [{}, {}, {}], setTo := none }
    head := { restarts := s.head.restarts, expiries := s.head.expiries }
    gens := s.gens
    plan := { volatile := s.plan.volatile }
    link := keptLink s, stats := s.stats
    sec := { rollback := s.sec.rollback, entropyFails := s.sec.entropyFails, profile := s.sec.profile }
    cal := { record := s.cal.record, fromFuses := s.cal.fromFuses, writes := s.cal.writes, lastAssess := s.cal.lastAssess
             assessOp := s.cal.assessOp }
    compat := { chRx := s.compat.chRx }
    pwr := { s.pwr with
      stage := .nresetHeld, porAsserted := false, nresetLow := true, released := s.pwr.released &&& 3, attempts := 0, reruns := 0
      byPor := false, ready := false, commands := false
      rc := { s.pwr.rc with writeFinished := !s.store.queue.isEmpty } } }
  { restorePlan r t with health := {} }

/-! ### The end of the sequence (R44, R86 steps 9 to 13) -/

/-- The image slot tried first: the newer install sequence, slot 0 on a tie or where neither is valid (R495). -/
def firstImage (s : State) : Nat :=
  let x := s.store.images.getD 0 {}
  let y := s.store.images.getD 1 {}
  if controlOk x && controlOk y then (if newerSeq x.install y.install then 1 else 0) else if controlOk y then 1 else 0

/-- The rings at a reset: empty with both pointers 0; PCIe rings are disabled, the others restore ENABLE (R309), but for ring 31, which
is enabled only in TEST (R293, R505). A PCIe link trained since step 7 stays (R86, R87), and the base addresses and the MSI-X table
with it (log 128). -/
def initRings (s : State) : State :=
  let off (n : Nat) (x : RingSettings) : RingSettings := if ringPort s n = 0 || n = 31 then { x with enable := false } else x
  let rs : List RingSettings := (List.range 32).map (fun n => off n (ringSet s n))
  { s with
    set := { s.set with rings := rs }
    port := { rings := rs.map (fun x => ({ enabled := x.enable } : Ring)), junction := s.port.junction, hotIsland := s.port.hotIsland
              pcieGen := s.port.pcieGen, pcieWidth := s.port.pcieWidth, bar0 := s.port.bar0, bar2Lo := s.port.bar2Lo
              bar2Hi := s.port.bar2Hi, msix := s.port.msix, pba := s.port.pba } }

/-- REF runs and the loops have locked; with the word clock as its source the APLL holds its frequency until the word clock is
there (R86 steps 4 and 7, R95). -/
def lockLoops (s : State) : State :=
  let word := decide (s.set.time.apll = 1)
  { s with clk := { s.clk with
      refOn := true, owed := [], sysPll := .locked, sPll := .locked, aPll := .locked, linkSynth := .locked
      wordClock := .lost (now s), apllFrozen := word, wordLost := false, kerfFull := [] } }

/-- The Headstock starts: its watchdog runs (R66, R86 step 11). -/
def startHeadstock (s : State) : State := { s with clk := { s.clk with wdogSuspended := false } }

/-- The island of a tuner: I13 to I16 for T0 to T3, I12 for the HF input, which counts as tuner 4 (R9). -/
def tunerIsland (t : Nat) : Nat := if t < 4 then 13 + t else 12

/-- Engines and tuners that failed their tests, or whose island is held (R75, R533, R542). -/
def initUnits (s : State) : State :=
  let b := s.pwr.boot
  let heldIsland (i : Nat) : Bool := s.pwr.rc.held.getLsbD (i - 1)
  let good (i : Nat) : Bool := b.enginesOk.getLsbD i && !heldIsland 3
  let faults := (List.range 17).filter (fun i => 0 < i && heldIsland i)
  let engines : List Engine := (List.range 16).map (fun i => { working := good i })
  let tuners : List Tuner := s.front.tuners.zipIdx.map (fun (x : Tuner × Nat) =>
    { x.1 with failed := !b.tunersOk.getLsbD x.2 || heldIsland (tunerIsland x.2) })
  let s := { s with
    health := { engines := engines, snapshotAt := now s, scrubAt := now s, blockFaults := faults }
    front := { s.front with tuners := tuners } }
  { s with health := { s.health with limit := guLimit s } }

/-- The fallback of a kind is written to copy A (R58). -/
def writeFallback (kind : Nat) (s : State) : State :=
  if kind = 1 then (writeSettings s).2
  else if kind = 2 then writePlan s
  else if kind = 3 then writeCal s
  else if kind = 4 then (queueWrite .profile (.profile none) 0 false s).2
  else writeCounters s

/-- The kinds whose fallback is in use. -/
def fallbacks (s : State) : List Nat := (s.head.bootEvents.filter (fun x => x.1 == 0x0103)).map (·.2.2)

/-- Post what the reset found, in the order in which it was found, and a stay on the RC that no port could report before (R45, R93);
in host configuration 3 no event reaches the host (R554), but in recovery boot the loader speaks Gokixel frames there (R90). -/
def postBoot (s : State) : State :=
  let s := if s.pwr.railsGood.contains .vddPa then s else bootNote 0x0201 0xFF 0 s
  let s := if s.pwr.aonDecided && !s.pwr.aonCrystal && !s.pwr.aonNoted then
      bootNote 0x0104 0xFF 0 { s with pwr := { s.pwr with aonNoted := true } } else s
  let mode := s.set.mode
  let es := s.head.bootEvents
  let s := { s with set := { s.set with mode := if hostConfig s = 3 && s.pwr.stage != .recovery then .compat else mode }
                    head := { s.head with bootEvents := [] } }
  let s := es.foldl (fun t x => note x.1 x.2.1 0 x.2.2 t) s
  { s with set := { s.set with mode := mode } }

/-- The mode a reset leads to: the recorded one; for HOLD its resume mode; IDLE for UPDATE, TEST and COMPAT; COMPAT always in host
configuration 3 (R35, R44). -/
def bootMode (s : State) : Mode :=
  if hostConfig s = 3 then .compat
  else
    let m := if s.set.mode = .hold then s.set.resume else s.set.mode
    match m with
    | .survey => .survey | .serve => .serve | .sentry => .sentry | _ => .idle

/-- Step 13: the device is in IDLE and starts the transition to the mode chosen by R44 (R86, R88). -/
def enterBootMode (s : State) : State :=
  let m := bootMode s
  let set := { s.set with mode := .idle }
  let keep : Bool := m == s.set.mode
  let s := if keep || m != .idle then { s with set := set } else setSettings set s
  let s := { s with head := { s.head with transition := if m = .idle then none else some m } }
  linkRefresh none (reduceDividers s)

/-- Steps 11 to 13: Gokixel runs image `i`, the ports open, the fallbacks are written, the reset's notes are posted and the recorded
mode is entered (R58, R86, R504, R512). -/
def finishBoot (i : Nat) (s : State) : State :=
  let s := startHeadstock (initRings (initUnits (lockLoops s)))
  let s := { s with
    sec := { s.sec with state := .operational, running := i }
    cal := { s.cal with opSince := now s }
    mix := { s.mix with tdm := s.set.tdm }
    store := { s.store with restoreSource := if !s.pwr.byPor then 0 else if (fallbacks s).isEmpty then 1 else 2 } }
  let s := newChallenge (powerUpTriggers s)
  let s := { s with pwr := { s.pwr with stage := .running, ready := true, commands := true } }
  let s := (fallbacks s).foldl (fun t k => writeFallback k t) s
  let s := shedToLimit (markBudget 1 (markBudget 2 s))
  enterBootMode (postCoasted (postBoot s))

/-- Recovery boot: the resident loader serves the Security and update commands in UPDATE, and the settings store is left as it is
(R90). -/
def recoveryBoot (s : State) : State :=
  let s := startHeadstock (initRings (initUnits (lockLoops s)))
  postBoot (newChallenge { s with
    set := { s.set with mode := .update }
    sec := { s.sec with state := .recovery }
    store := { s.store with restoreSource := if !s.pwr.byPor then 0 else if (fallbacks s).isEmpty then 1 else 2 }
    pwr := { s.pwr with stage := .recovery, ready := true, commands := true, rc := { s.pwr.rc with recovery := true } } })

/-- Step 10: the first image that passes runs (R90, R495). -/
def secureBoot (s : State) : State :=
  let i := firstImage s
  if slotOk s i then finishBoot i s
  else if slotOk s (1 - i) then finishBoot (1 - i) (bootNote 0x0702 0xFF i s)
  else recoveryBoot s

/-- Only I0 runs: REF stops with every loop, and device time goes on on the AON clock (R76, R98, R547, R602). -/
def halt (s : State) : State :=
  let s := coastLater s
  let off : LoopState := .lost (now s)
  { s with
    pwr := { s.pwr with stage := .halted, released := 1 }
    clk := { s.clk with refOn := false, refOffAt := now s, sysPll := off, sPll := off, aPll := off, linkSynth := off }
    time := { s.time with rateDelta := none } }

/-- Step 9: the Mortise reloads its keys and runs its tests; a failure is rerun once (R484, R501, R502). -/
def selfTest (s : State) : State :=
  let s := ([0, 1, 2] : List Nat).foldl (loadKey s.pwr.byPor) s
  if s.pwr.boot.selfTest then secureBoot s
  else { s with pwr := { s.pwr with stage := .selfTestRetry, stepAt := now s } }

/-! ### Clock gates (R74 to R76) -/

/-- The islands that a host configuration uses: I7 is the PCIe block, I8 the SPI block (R80). -/
def islandsUsed (cfg : Nat) : BitVec 17 :=
  BitVec.allOnes 17 &&& ~~~(if cfg = 2 then 0#17 else 1#17 <<< 7) &&& ~~~(if cfg = 1 then 0#17 else 1#17 <<< 8)

/-- Every island is out of reset or held: with I1, I5, I6 or I11 held the sequence is repeated twice and then the device halts,
otherwise the sequence goes on without the held islands (R75, R76). -/
def islandsDecided (s : State) : State :=
  let h (i : Nat) : Bool := s.pwr.rc.held.getLsbD (i - 1)
  if h 1 || h 5 || h 6 || h 11 then
    (if s.pwr.attempts < 2 then { s with pwr := { s.pwr with stage := .retry, stepAt := now s } } else halt s)
  else
    let held := (List.range 17).filter (fun i => 0 < i && h i)
    selfTest (held.foldl (fun t i => bootNote 0x0101 i 0 t) s)

/-- Which islands neither run nor are held. -/
def islandsWaiting (s : State) : BitVec 17 :=
  islandsUsed (hostConfig s) &&& ~~~s.pwr.released &&& ~~~((s.pwr.rc.held.setWidth 17 : BitVec 17) <<< 1)

/-- Go on once no island waits at its gate. -/
def gatesDone (s : State) : State :=
  if islandsWaiting s = 0 then islandsDecided s else { s with pwr := { s.pwr with stage := .gated } }

/-- Step 5: the two-wire bus is recovered; one that stays stuck is noted (R86, R401, R402). -/
def recoverBus (s : State) : State :=
  let stuck := decide (10 ≤ s.pwr.boot.sdaPulses)
  let s := emit (.recovery (min 9 s.pwr.boot.sdaPulses) stuck) { s with
    bus := { stuck := stuck, recoveryAt := now s }, pwr := { s.pwr with rc := { s.pwr.rc with busStuck := stuck } } }
  if stuck then bootNote 0x0503 0xFF 0 s else s

/-- Step 6: the retained store is reloaded where the reset has not done so yet (R72, R86). -/
def reloadOnce (s : State) : State := if s.pwr.reloadDone then s else reload s.pwr.boot.outageSeconds s

/-- Steps 5 to 7: the two-wire bus is recovered, after power-on reset the retained store is reloaded, the loops lock, and every island
is released by its gate (R74, R86, R401, R402). -/
def releaseIslands (s : State) : State :=
  let s := lockLoops (reloadOnce (recoverBus s))
  gatesDone { s with pwr := { s.pwr with
    released := s.pwr.released ||| (islandsUsed (hostConfig s) &&& s.pwr.clockGood), stepAt := now s } }

/-- I1 is out of reset or held at its gate: once it runs device time counts, and the next steps follow (R86 step 4, R99). -/
def timeReleased (s : State) : State :=
  releaseIslands { s with pwr := { s.pwr with counting := s.pwr.counting || s.pwr.released.getLsbD 1 } }

/-- Step 4: REF runs, and I1 is released by its gate before anything else; after nRESET it was never taken back (R74, R86, R89). -/
def releaseTime (s : State) : State :=
  let s := { s with
    clk := { s.clk with refOn := true }
    pwr := { s.pwr with clockGood := s.pwr.boot.clocksGood ||| 1, stepAt := now s, rc := { s.pwr.rc with held := 0 } } }
  if (s.pwr.clockGood ||| s.pwr.released).getLsbD 1 then timeReleased { s with pwr := { s.pwr with released := s.pwr.released ||| 2 } }
  else { s with pwr := { s.pwr with stage := .timeGated } }

/-! ### Power-on reset (R64, R72, R73, R77, R78, R82) -/

/-- POWER_ON_RESET (R64, R65). -/
def execPowerOnReset (s : State) : Host.Outcome State Fault Refusal := .next (powerOff s)

/-- The strap code of a voltage at CFG in tenths of a millivolt: bins of 75 mV, a half one at the bottom, code 15 above 1,087.5 mV
(R77). A reading on the edge of two inner bins takes the upper one. DESIGN CHOICE, log 124. -/
def strapCode (tenthMv : Nat) : Nat := if 10875 < tenthMv then 15 else min 14 ((tenthMv + 375) / 750)

/-- The rails required in every host configuration (R82). -/
def alwaysRails : List Rail := [.vddAon, .vddCore, .vddMem, .vdda12, .vdda18, .vddioB]

/-- The rails a host configuration requires (R82). -/
def requiredRails (cfg : Nat) : List Rail :=
  alwaysRails ++ (if cfg = 1 then [.vddioA] else []) ++ (if cfg = 2 then [.vddPcie] else [])

/-- Are these rails above their good threshold (R82)? -/
def railsUp (l : List Rail) (s : State) : Bool := l.all (fun r => s.pwr.railsGood.contains r)

/-- The strap is read once in a power-on reset (R77). -/
def readStrap (s : State) : State :=
  if s.pwr.strapRead then s
  else { s with pwr := { s.pwr with strapCode := strapCode s.pwr.boot.cfgTenthMv, strapRead := true } }

/-- The sequence waits for a rail (R82). -/
def waitRails (s : State) : State := { s with pwr := { s.pwr with stage := .waitRails } }

/-- Steps 1 to 7: with the rails good that every host configuration requires, VDDA_1V8 among them, the strap is read (log 125); with
those of its host configuration good the sequence goes on, but with nRESET low the retained store is reloaded and every other island
stays in reset (R72, R82, R86). -/
def powerOnWork (s : State) : State :=
  if !railsUp alwaysRails s then waitRails s
  else
    let s := readStrap s
    if !railsUp (requiredRails (hostConfig s)) s then waitRails s
    else
      if s.pwr.nresetLow then
        let s := reload s.pwr.boot.outageSeconds s
        { s with pwr := { s.pwr with stage := .waitNreset } }
      else releaseTime s

/-- POR_RELEASE: while VDD_AON is below 0.70 V power-on reset stays asserted; 2 ms after it has risen the power-on work begins
(R64, R72, R77, R86). -/
def execPorRelease (b : BootInputs) (s : State) : Host.Outcome State Fault Refusal :=
  .next (
    if !s.pwr.porAsserted || !b.rails.contains .vddAon then s
    else
      let s := passTo (s.pwr.aonAt.getD (now s) + ms 2) s
      powerOnWork { s with pwr := { s.pwr with
        porAsserted := false, byPor := true, reloadDone := false, strapRead := false
        nresetLow := b.nresetLow, railsGood := b.rails, boot := b, rc := { cause := if b.nresetLow then 2 else 0 }
        released := 1, attempts := 0, reruns := 0, releasedAt := now s } })

/-- RAIL_GOOD: a sequence that waits for rails goes on once none is missing (R82). VDD_AON rising starts the 2 ms of the power-on
reset in force (R64). -/
def execRailGood (r : Rail) (s : State) : Host.Outcome State Fault Refusal :=
  .next (
    let s := if s.pwr.railsGood.contains r then s else { s with pwr := { s.pwr with
      railsGood := s.pwr.railsGood ++ [r]
      aonAt := if r = .vddAon && s.pwr.porAsserted then some (now s) else s.pwr.aonAt } }
    if s.pwr.stage == .waitRails then powerOnWork s else s)

/-! ### nRESET (R67 to R70, R73, R89, R45) -/

/-- The link PA is off within 25 us (R68). -/
def paOffNow (s : State) : State := if s.link.air.isSome then emit .paOff s else s

/-- NRESET_ACCEPTED: a pulse below 5 us is ignored, one of 20 us is accepted, and between them either may happen (R67). Under power-on
reset only the level counts; before the reload is complete the reset counts as a power-on reset (R72, R73). -/
def execNresetAccepted (widthNs : Nat) (s : State) : Host.Outcome State Fault Refusal :=
  .next (
    if widthNs < 5000 || s.pwr.stage == .nresetHeld || s.pwr.stage == .waitNreset then s
    else
      let x := drawBool s
      if widthNs < 20000 && !x.1 then x.2
      else
        let s := if widthNs < 20000 then x.2 else s
        if s.pwr.porAsserted then { s with pwr := { s.pwr with nresetLow := true } }
        else if !s.pwr.reloadDone then { s with pwr := { s.pwr with stage := .nresetHeld, nresetLow := true } }
        else islandsReset (paOffNow s))

/-- The write that nRESET waited for has ended (R69). -/
def endResetWrite (s : State) : State :=
  match s.store.queue with
  | j :: rest => if s.pwr.rc.writeFinished then { s with store := endFirst j rest s.store
                                                         cal := if j.kind = .calibration then { s.cal with writes := s.cal.writes + 1 } else s.cal }
                 else s
  | [] => s

/-- The settings region is reloaded: the retained settings are those of the record (R45). -/
def region0 (s : State) : State :=
  let a := loadRecord false .settings s
  { a.2 with set := settingsOf a.1 a.2 }

/-- The plan region is reloaded; indices that the record's plan does not hold keep their counters where those are higher (R45,
R332). -/
def region1 (s : State) : State :=
  let b := loadRecord false .plan s
  let z : State := {}
  let t := { b.2 with prog := z.prog, front := { s.front with windows := s.front.windows.map (fun x => { gen := x.gen }) }
                      mix := { z.mix with banks := s.mix.banks.map (fun x => { gen := x.gen }), curves := s.mix.curves.map (fun x => { gen := x.gen }) }
                      plan := { s.plan with binds := [] } }
  restorePlan { planOf b.1 with gens := (planRecord s).gens } t

/-- The link counters region is reloaded (R45, R50). -/
def region2 (s : State) : State :=
  let c := loadRecord false .counters s
  { c.2 with link := resumeCounter (countersOf c.1) { buckets := c.2.link.buckets, allUsed := c.2.link.allUsed } }

/-- The ledgers region is reloaded: device time tells how long ago the snapshot was, unless its region fails as well (R45, R59). -/
def region3 (bad : List Nat) (outage : Nat) (s : State) : State :=
  let c := loadRecord false .counters s
  let k := countersOf c.1
  { c.2 with link := if bad.contains 4 then resumeLedgers k (-(k.snapSecond : Int) - outage) 0 c.2.link
    else resumeLedgers k 0 (second s + 1 : Nat) c.2.link }

/-- The device-time region is lost: the count starts at 0 and Plumb anew (R45, R99). -/
def region4 (s : State) : State := { s with time := freshTime s }

/-- The check of the retained store after nRESET: a region that fails is reloaded and named in a note (R45). -/
def checkRegions (b : BootInputs) (s : State) : State :=
  let bad := ([0, 1, 2, 3, 4] : List Nat).filter (fun r => b.regionsBad.contains r)
  let s := bad.foldl (fun t r => bootNote 0x0102 0xFF r
    (if r = 0 then region0 t else if r = 1 then region1 t else if r = 2 then region2 t else if r = 3 then region3 bad b.outageSeconds t
      else region4 t)) s
  { s with pwr := { s.pwr with retainedOk := bad.isEmpty } }

/-- The sequence after nRESET, without steps 1 to 4 and 6: the retained store is checked instead of reloaded (R89). -/
def checkedSequence (b : BootInputs) (s : State) : State :=
  releaseTime (loadProfile false (loadCal false (checkRegions b s)))

/-- The end of an accepted nRESET: the write it waited for has ended, and its sequence runs (R69, R89, R91). -/
def nresetWork (b : BootInputs) (s : State) : State :=
  let s := endResetWrite s
  checkedSequence b { s with pwr := { s.pwr with
    nresetLow := false, boot := b, reruns := 0, attempts := 0
    rc := { cause := 1, writeFinished := s.pwr.rc.writeFinished, nresetCount := satNat 255 (s.pwr.rc.nresetCount + 1) } } }

/-- NRESET_RELEASE: sequencing starts. Where the reset counts as a power-on reset the strap is read again and the power-on work done
again; after a completed reload the power-on sequence goes on; a sequence that still waits for rails goes on without another wait
for nRESET (R65, R69, R72, R73, R89). -/
def execNresetRelease (b : BootInputs) (s : State) : Host.Outcome State Fault Refusal :=
  .next (
    if s.pwr.porAsserted || s.pwr.stage == .waitRails then { s with pwr := { s.pwr with nresetLow := false } }
    else if s.pwr.stage == .waitNreset then releaseTime { s with pwr := { s.pwr with nresetLow := false } }
    else if s.pwr.stage != .nresetHeld then s
    else if !s.pwr.reloadDone then
      powerOnWork { s with pwr := { s.pwr with nresetLow := false, railsGood := b.rails, boot := b, strapRead := false, attempts := 0, reruns := 0, rc := {} } }
    else nresetWork b s)

/-! ### Waits of the sequence -/

/-- ISLAND_CLOCK_GOOD: the gate of an island that waits opens (R74). -/
def execIslandClockGood (i : Nat) (s : State) : Host.Outcome State Fault Refusal :=
  within s (i < 17) (
    let s := { s with pwr := { s.pwr with clockGood := s.pwr.clockGood ||| (1#17 <<< i) } }
    if s.pwr.stage == .timeGated && i = 1 then timeReleased { s with pwr := { s.pwr with released := s.pwr.released ||| 2 } }
    else if s.pwr.stage == .gated && (islandsWaiting s).getLsbD i then
      gatesDone { s with pwr := { s.pwr with released := s.pwr.released ||| (1#17 <<< i) } }
    else s)

/-- ISLAND_HELD: an island still at its gate after 5 ms stays in reset and is marked (R75). -/
def execIslandHeld (i : Nat) (s : State) : Host.Outcome State Fault Refusal :=
  within s (i < 17) (
    if s.pwr.stage == .timeGated && i = 1 then
      let s := passTo (s.pwr.stepAt + ms 5) s
      timeReleased { s with pwr := { s.pwr with rc := { s.pwr.rc with held := s.pwr.rc.held ||| 1 } } }
    else if s.pwr.stage == .gated && (islandsWaiting s).getLsbD i then
      let s := passTo (s.pwr.stepAt + ms 5) s
      gatesDone { s with pwr := { s.pwr with rc := { s.pwr.rc with held := s.pwr.rc.held ||| (1#16 <<< (i - 1)) } } }
    else s)

/-- SEQUENCE_REPEAT: 100 ms later the whole sequence of the reset runs again (R76). After power-on reset that is from the rails on,
with device time starting anew at the new release of I1 (log 126); after nRESET it is from the check of the retained store on. -/
def execSequenceRepeat (b : BootInputs) (s : State) : Host.Outcome State Fault Refusal :=
  .next (
    if s.pwr.stage == .retry then
      let s := passTo (s.pwr.stepAt + ms 100) s
      let p := { s.pwr with attempts := s.pwr.attempts + 1, boot := b }
      if s.pwr.byPor then
        powerOnWork { powerOff s with pwr := { p with railsGood := b.rails, released := 1, counting := false, reloadDone := false } }
      else checkedSequence b { s with pwr := { p with released := s.pwr.released &&& 3 } }
    else s)

/-- The bytes of RESET_CAUSE, as the register reads (R91). -/
def causeBytes (s : State) : List Byte := leBytes 4 (resetCauseWord s).toNat

/-- HALT_BUS_READ: while halted a read answers RESET_CAUSE, and a write is NAKed (R76). -/
def execHaltBusRead (isWrite : Bool) (s : State) : Host.Outcome State Fault Refusal :=
  .next (
    if s.pwr.stage == .halted then (if isWrite then emit (.nak 0) s else emit (.haltBytes (causeBytes s)) s)
    else s)

/-- SELF_TEST_RERUN: step 9 is rerun once, 100 ms later; a second failure halts the device with I11 marked (R502). -/
def execSelfTestRerun (pass : Bool) (b : BootInputs) (s : State) : Host.Outcome State Fault Refusal :=
  .next (
    if s.pwr.stage == .selfTestRetry then
      let s := passTo (s.pwr.stepAt + ms 100) s
      let s := { s with pwr := { s.pwr with reruns := s.pwr.reruns + 1, boot := b } }
      if pass then secureBoot s
      else halt { s with pwr := { s.pwr with rc := { s.pwr.rc with held := s.pwr.rc.held ||| (1#16 <<< 10) } } }
    else s)

/-! ### The AON clock (R93) -/

/-- AON_CRYSTAL_SWITCH: the Chuck takes the crystal (R93). -/
def execAonCrystalSwitch (s : State) : Host.Outcome State Fault Refusal :=
  .next (if s.pwr.porAsserted || s.pwr.aonDecided then s
    else { s with pwr := { s.pwr with aonCrystal := true, aonDecided := true } })

/-- AON_RC_TIMEOUT: 1.5 s after the release without a good crystal the Chuck stays on the RC, which is noted once a host
port is open (R93). -/
def execAonRcTimeout (s : State) : Host.Outcome State Fault Refusal :=
  .next (if s.pwr.porAsserted || s.pwr.aonDecided then s
    else
      let s := passTo (s.pwr.releasedAt + ms 1500) s
      let s := { s with pwr := { s.pwr with aonDecided := true, aonNoted := s.pwr.ready } }
      if s.pwr.ready then note 0x0104 0xFF 0 0 s else s)

end Sys2Proof.Machine
end

