-- ==== Sys2Proof/Machine/Chain.lean ====
section
/-!
DEFINITION. Chain.lean: what a chisel chain does by itself: blocks, settling, changes at a block boundary, and the tracking
hold of its reception (chapter 06, R184, R225).
-/

namespace Sys2Proof.Machine

/-! ### The end of a settle count (R165, R184 to R186, R225, R226) -/

/-- A settled chain is RUNNING; what was left of its settle count is still to be delivered (R156, R165). -/
def settled (c : Chain) : Chain :=
  if c.state = .settling then { c with state := .running, owedUnsettled := c.owedUnsettled + c.settle, settle := 0 } else c

/-- The tracking hold in ticks (R184, R225). -/
def holdTicks : Kind → Nat
  | .fm => ms 10 | .am => ms 20 | .dab => ms 100 | .drm30 => ms 400 | .drmPlus => ms 100 | .tap => 0

/-- The first settled output after a break, of antenna instant `t`: within the hold the reception is ACQUIRED again, which is posted;
across a migration break it is without a report; beyond the hold it is lost with cause 1 (R183, R184, R225, R532, R535). -/
def settledReception (o : ChainOwner) (t : Tick) (s : State) : State := match o with
  | .reception i =>
    match receptionAt s i with
    | none => s
    | some r =>
      let s := startIntervals i (instantAt s t) s
      if r.rx = .holding then
        match r.lastSettled with
        | some l =>
          if r.bridge then modReception i (fun r => { r with rx := .acquired, bridge := false }) s
          else if ticksSince s l t ≤ holdTicks r.kind then acquire i (instantAt s t) s
          else loseReception i 1 (l.later (holdTicks r.kind)) none s
        | none => modReception i (fun r => { r with rx := .acquired, bridge := false }) s
      else s
  | _ => s

/-! ### Outputs (R165, R167, R110) -/

/-- A chain with one more output of antenna instant `t` in its open block; the block begins with it when none is open (R109, R110,
R165, R167, R172). -/
def addOutput (s : State) (t : Tick) (x : Int × Int) (c : Chain) : Chain :=
  let i := instantAt s t
  let c := if c.openSamples.isEmpty then
      { c with openStamp := i.tick, epoch := i.epoch, openGap := gapCount c t, gapLost := none } else c
  let loose := 0 < c.owedUnsettled || (c.state == .settling && 0 < c.settle)
  { c with
    openSamples := c.openSamples ++ [x], lastOut := some t, openUnsettled := c.openUnsettled + loose.toNat
    owedUnsettled := c.owedUnsettled - 1
    settle := if c.owedUnsettled = 0 && c.state = .settling then c.settle - 1 else c.settle }

/-- What a reception keeps of an output: the antenna instant of a settled one, at which a migration break ends (R184, R535). -/
def keepOutput (o : ChainOwner) (i : Instant) (c : Chain) (s : State) : State := match o with
  | .reception n => if c.state = .running && c.owedUnsettled = 0 then modReception n (fun r => { r with
      rx := if r.bridge && r.rx == .holding then .acquired else r.rx, bridge := false, lastSettled := some i }) s else s
  | _ => s

/-- A chain makes one output. A step of device time closes the block before it; the last output of the settle count is followed by
settled ones; a block of 256 samples is written (R110, R165, R167). -/
def feedOutput (o : ChainOwner) (t : Tick) (x : Int × Int) (s : State) : State :=
  match chainOf s o with
  | none => s
  | some c0 =>
    let s := if c0.epoch != (instantAt s t).epoch then closeBlock o s else s
    let s := keepOutput o (instantAt s t) c0 (modChain o (addOutput s t x) s)
    match chainOf s o with
    | none => s
    | some c =>
      let s := if c.state = .settling && c.settle = 0 && c.owedUnsettled = 0 then
          settledReception o (t + BitVec.ofNat 64 (ticksPerOut c.kind)) (modChain o settled s) else s
      if 256 ≤ c.openSamples.length then closeBlock o s else s

/-- A chain makes outputs one after another, one output period apart (R109). -/
def feedOutputs (o : ChainOwner) (per : Nat) : Tick → List (Int × Int) → State → State
  | _, [], s => s
  | t, x :: xs, s => feedOutputs o per (t + BitVec.ofNat 64 per) xs (feedOutput o t x s)

/-- The device time, in 1/64 tick, of the sample that appears as the first output; HF samples fall on even ticks (R108, R109). -/
def adcInstant (c : Chain) (b : ChainIn) : Int := if c.window = 4 then b.adc64 / 128 * 128 else b.adc64

/-- How many of the outputs from `adc64` on have a filter span wholly before the gap that Kerf's buffer ends in (R171, R172). -/
def beforeGap (s : State) (c : Chain) (adc64 : Int) (n : Nat) : Nat := match c.gapAt with
  | none => n
  | some g => ((List.range n).filter (fun (k : Nat) => decide (adc64 + (64 * ticksPerOut c.kind * k : Nat) + groupDelay64 s c ≤ 64 * g))).length

/-- A chain takes input samples: its FIR and resampler run, and their outputs go into blocks. Outputs follow the open block's without a
break (R109, R160, R167). -/
def takeInput (o : ChainOwner) (c : Chain) (b : ChainIn) (s : State) : State :=
  let run := firRun (bankApplied s c) c b.samples
  let adc := adcInstant c b
  let t := if c.openSamples.isEmpty then antennaStamp s o c adc
    else (c.lastOut.getD (antennaStamp s o c adc)) + BitVec.ofNat 64 (ticksPerOut c.kind)
  feedOutputs o (ticksPerOut c.kind) t (run.2.take (beforeGap s c adc run.2.length)) (modChain o (fun _ => run.1) s)

/-- The gap after buffered samples is reached: the chain waits, and restarts where samples flow (R171, R172). -/
def gapReached (o : ChainOwner) (adc64 : Int) (s : State) : State :=
  match chainOf s o with
  | some c =>
    if chainProducing c && (match c.gapAt with
        | some g => decide (64 * g ≤ adc64)
        | none => false) then judgeChain none o (gapNow o s)
    else s
  | none => s

/-- CHAIN_BLOCK: samples reach a chain, which completes a block whenever 256 outputs stand in it: time-stamp, epoch, flags, exponent,
its IQ Shaving, its output ring and what its reception counts. With the SYSPLL out of lock Kerf stands still (R95, R109, R110, R167 to
R172). -/
def execChainBlock (o : ChainOwner) (b : ChainIn) (s : State) : Host.Outcome State Fault Refusal :=
  within s (clockRuns s 2) (
    let s := gapReached o (((chainOf s o).map (fun c => adcInstant c b)).getD 0) s
    match liveChain s o with
    | none => s
    | some c => if chainProducing c then takeInput o c b s else s)

/-- The antenna instant of a chain's first settled output: behind what is left of its settle count, or what reaches the ADC now when
it has made no output yet (R165). -/
def firstSettled (s : State) (o : ChainOwner) (c : Chain) : Tick := match c.openSamples, c.lastOut with
  | _ :: _, some l => l + BitVec.ofNat 64 ((c.settle + 1) * ticksPerOut c.kind)
  | _, _ => stampNow s o c

/-- SETTLE_COUNT_DONE: the settle count of a chain has passed; its outputs are settled (R156, R165, R184 to R186, R226). -/
def execSettleCountDone (o : ChainOwner) (s : State) : Host.Outcome State Fault Refusal :=
  within s (clockRuns s 6) (match liveChain s o with
    | some c => if c.state = .settling then settledReception o (firstSettled s o c) (modChain o settled s) else s
    | none => s)

/-! ### Changes at a block boundary (R162, R173, R174) -/

/-- CHAIN_BANK_CHANGED: at a block boundary a chain takes its new bank and restarts, without a gap; a delay that changed with it takes
effect there, a decrease with its gap (R162, R164, R173). -/
def execChainBankChanged (o : ChainOwner) (s : State) : Host.Outcome State Fault Refusal :=
  within s (clockRuns s 6) (match liveChain s o with
    | some c =>
      if chainProducing c && c.pend.bank.isSome && c.pend.freq.isNone then
        let s := holdOver o (closeBlock o s)
        postBankChanged o none (modChain o (fun c => restart s (applyPending (countDiscard c)).1) s)
      else s
    | none => s)

/-- DELAY_CHANGE_APPLY: at a block boundary a chain takes its new delay; a decrease discards samples and the next block
carries GAP_BEFORE with the whole blocks lost (R173). -/
def execDelayChangeApply (o : ChainOwner) (s : State) : Host.Outcome State Fault Refusal :=
  within s (clockRuns s 6) (match liveChain s o with
    | some c => match c.pend.delay with
      | some (d, x) =>
        if chainProducing c then
          modChain o (fun c => { countDiscard c with delay := d, frac := x, pend := { c.pend with delay := none } }) (closeBlock o s)
        else s
      | none => s
    | none => s)

/-- FREQUENCY_CHANGE_APPLY: at a block boundary a chain restarts on its new channel with a lost count of 0, or becomes uncovered there; a
bank changed with it takes effect in the same restart (R118, R156, R166, R174). -/
def execFrequencyChangeApply (o : ChainOwner) (s : State) : Host.Outcome State Fault Refusal :=
  within s (clockRuns s 6) (match liveChain s o with
    | some c =>
      if chainProducing c && c.pend.freq.isSome then
        let s := closeBlock o s
        let s := modChain o (fun c =>
          let c' := oweGap (applyPending (countDiscard c)).1
          if chainCovered s c' && samplesFlow s o c' then restart s { c' with lastOut := none }
          else { c' with state := .waiting }) s
        let s := freshOnMove o c s
        let s := if c.pend.bank.isSome then postBankChanged o none s else s
        refreshTuners (judgeChain none o s)
      else s
    | none => s)

/-- TRACKING_HOLD_EXPIRY: the hold has passed without a settled output; the reception searches again with cause 1, and the
event names the last settled output plus the hold. A migration break never ends so (R184, R225, R535). -/
def execTrackingHoldExpiry (r : Nat) (s : State) : Host.Outcome State Fault Refusal :=
  within s (r < 256 && clockRuns s 6) (match receptionAt s r with
    | some x =>
      if x.rx = .holding && !x.bridge then
        match x.lastSettled with
        | some l =>
          let due := l.later (holdTicks x.kind)
          loseReception r 1 due none (pass ((inNow s due) - stampNow s (.reception r) x.chain).toInt.toNat s)
        | none => s
      else s
    | none => s)

end Sys2Proof.Machine
end

