-- ==== Sys2Proof/Machine/Compat.lean ====
section
/-!
DEFINITION. Compat.lean: the OMN-T1 register map on the two-wire bus in COMPAT: its writes, its reads and the RDS FIFO
(chapter 20).
-/

namespace Sys2Proof.Machine

/-- The frame by which the emulation gives a command on internal ring 3 (R356, R554). -/
def compatFrame (p : List Byte) : CmdFrame := { port := 3, portField := 3, payload := p }

/-- Does the emulation act: COMPAT is entered and the Headstock takes its commands (R554)? -/
def compatLive (s : State) : Bool := s.set.mode == .compat && s.compat.ready && canTake s (compatFrame [])

/-! ### The registers as they read (R555, R557) -/

/-- CH_STATE of a channel (R557). -/
def compatChState (s : State) (c : Nat) : Nat := match compatRx s c with
  | none => 0
  | some r =>
    if r.removing then 5 else if !(compatChannel s c).enable then 0 else if !r.chain.covered then 4
    else match r.rx with
      | .searching => 1
      | .acquired => 2
      | .holding => 3

/-- STATUS (R557). -/
def compatStatus (s : State) : Nat :=
  let w := windowAt s 0
  let busy := compatTuning s || s.compat.tuneAgain.isSome || ([0, 1, 2, 3] : List Nat).any (fun c => compatChState s c == 5)
  let tuned := w.state == .open && !(compatTuning s || s.compat.tuneAgain.isSome) &&
    (match w.tuner with
     | some t => (s.front.tuners.getD t {}).state == .locked || (s.front.tuners.getD t {}).state == .serving
     | none => false)
  s.compat.ready.toNat + 2 * tuned.toNat + 4 * busy.toNat + 8 * s.compat.overflow.toNat + 16 * s.compat.acquired.toNat

/-- Channel power in dBm over the settled outputs that the chain's ring holds; 0 as after reset where there are none (R168, R557;
log 142). -/
def channelLevel (c : Chain) : Int :=
  let l := c.ring.flatMap (fun b => (b.samples.drop b.unsettled).map (fun x => normSq (fineSample b.exponent x)))
  if l.isEmpty || l.sum = 0 then 0 else dbValue 10 l.sum (l.length * 2 ^ 78) (-128) 127

/-- The carrier-to-noise ratio of an FM channel, or the MER since its sums began, in 0.25 dB; 0 as after reset where there is none
(R203, R236, R557; log 142). -/
def channelQuality (r : Reception) : Int :=
  let x := if r.kind = .fm then signalNoise .fm (recentMoments .fm r.dem) else (r.ofdm.sums.getD 2 0, r.ofdm.sums.getD 3 0)
  if x.1 = 0 then 0 else dbValue 40 x.1 x.2 0 255

/-- A byte of the emulated map as it reads (R555 to R557). -/
def compatByte (s : State) (off : Nat) : Byte :=
  let c := s.set.compat
  let x := compatChannel s (off / 16 - 2)
  if off = 0x00 then 0xA3 else if off = 0x01 then 0x12 else if off = 0x02 then BitVec.ofNat 8 (compatStatus s)
  else if off = 0x03 then s.compat.irq.setWidth 8 else if off = 0x04 then c.irqEnable.setWidth 8
  else if 0x08 ≤ off && off < 0x0C then (leBytes 4 c.tuneKhz).getD (off - 0x08) 0
  else if off = 0x0C then BitVec.ofNat 8 c.bandwidth else if off = 0x0D then BitVec.ofNat 8 c.gain
  else if off = 0x0E then BitVec.ofNat 8 c.audio
  else if 0x10 ≤ off && off < 0x14 then (leBytes 4 c.physKhz).getD (off - 0x10) 0
  else if 0x20 ≤ off && off < 0x60 then (match off % 16 with
    | 0 => BitVec.ofNat 8 (x.enable.toNat + 2 * x.standard + 8 * x.rds.toNat)
    | 1 => BitVec.ofNat 8 (compatChState s (off / 16 - 2))
    | 2 => BitVec.ofInt 8 (((compatRx s (off / 16 - 2)).map (fun r => channelLevel r.chain)).getD 0)
    | 3 => BitVec.ofInt 8 (((compatRx s (off / 16 - 2)).map channelQuality).getD 0)
    | 12 | 13 | 14 | 15 => 0
    | n => if n < 8 then (leBytes 4 x.freqKhz).getD (n - 4) 0 else (leBytes 4 x.service).getD (n - 8) 0)
  else if off = 0x70 then BitVec.ofNat 8 s.compat.fifo.length
  else if off = 0x71 then (s.compat.fifo.headD []).getD s.compat.fifoPos 0
  else 0

/-! ### CONTROL and UPDATE_KEY (R552, R557 to R560) -/

/-- CONTROL.TUNE: what was written and not applied is applied, at once or after the running retune (R558 to R560). -/
def compatTuneNow (s : State) : State :=
  let c := s.set.compat
  let f := s.compat.tuneFreq.getD ((s.compat.tuneAgain.map (·.1)).getD c.tuneKhz)
  let b := s.compat.tuneBw.getD ((s.compat.tuneAgain.map (·.2)).getD c.bandwidth)
  let s := { s with compat := { s.compat with tuneFreq := none, tuneBw := none } }
  if compatTuning s then { s with compat := { s.compat with tuneAgain := some (f, b) } } else compatTune f b s

/-- CONTROL.POWER_DOWN: HOLD by SET_MODE (R557, R560). -/
def compatPowerDown (s : State) : State := setMode (compatFrame [7, 0, 0, 0]) s

/-- CONTROL.DEFAULTS: FACTORY_DEFAULTS (R557). -/
def compatDefaults (s : State) : State := factoryDefaults (compatFrame []) s

/-- A write to CONTROL: its bits act in their order. -/
def compatControl (v : Byte) (s : State) : State :=
  let s := if v.getLsbD 0 then compatTuneNow s else s
  let s := if v.getLsbD 1 then compatPowerDown s else s
  if v.getLsbD 2 then compatDefaults s else s

/-- A write to UPDATE_KEY: 0x55 then 0xAA enters UPDATE, 0x5A then 0xA5 zeroises every slot, the second within 100 ms; any other
write starts the sequence again (R552). -/
def keyWrite (b : Byte) (s : State) : State :=
  let first (x : Byte) : Bool := match s.compat.key with
    | some (y, t) => y == x && now s ≤ t + ms 100
    | none => false
  let t := { s with compat := { s.compat with key := none } }
  if b = 0xAA && first 0x55 then setMode (compatFrame [5, 0, 0, 0]) t
  else if b = 0xA5 && first 0x5A then keyZeroise (compatFrame [0xFF, 0, 0, 0]) t
  else if b = 0x55 || b = 0x5A then { s with compat := { s.compat with key := some (b, now s) } }
  else t

/-! ### Register writes (R555 to R558) -/

/-- Writing 1s to IRQ_FLAGS clears them (R557). -/
def irqClear (v : Byte) (s : State) : State :=
  { s with compat := { s.compat with irq := s.compat.irq &&& ~~~(v.setWidth 4) } }

/-- GAIN takes effect at once: 125 to 254 are clamped to 124 (R557, R558). -/
def compatGain (v : Byte) (s : State) : State :=
  let g := if v = 0xFF then 0xFF else satNat 124 v.toNat
  let s := setSettings { s.set with compat := { s.set.compat with gain := g } } s
  if compatTuning s then s else compatDone (compatRetune s)

/-- AUDIO_SOURCE takes effect at once: 4 to 0xFE are clamped to 3 (R557, R558). -/
def compatAudio (v : Byte) (s : State) : State :=
  let a := if v = 0xFF then 0xFF else satNat 3 v.toNat
  compatRoute (setSettings { s.set with compat := { s.set.compat with audio := a } } s)

/-- A write to the register at an offset, with all its bytes; read-only registers and unlisted offsets ignore it (R555 to R558). -/
def compatReg (off : Nat) (v : List Byte) (s : State) : State :=
  let b := v.headD 0
  let w := ofLe v
  let c := off / 16 - 2
  if off = 0x03 then irqClear b s
  else if off = 0x04 then setSettings { s.set with compat := { s.set.compat with irqEnable := b.setWidth 4 } } s
  else if off = 0x05 then compatControl b s
  else if off = 0x06 then keyWrite b s
  else if off = 0x08 then { s with compat := { s.compat with tuneFreq := some w } }
  else if off = 0x0C then { s with compat := { s.compat with tuneBw := some (w % 4) } }
  else if off = 0x0D then compatGain b s
  else if off = 0x0E then compatAudio b s
  else if 0x20 ≤ off && off < 0x60 then
    (if off % 16 = 0 then compatCtrl c b s
     else if off % 16 = 4 then { s with compat := { s.compat with chFreq := setAt s.compat.chFreq c (some w) } }
     else if off % 16 = 8 then { s with compat := { s.compat with chService := setAt s.compat.chService c (some w) } }
     else s)
  else s

/-- The size of the register that begins at an offset: 4 for TUNE_FREQ, CH_FREQ and CH_SERVICE, else 1 (R556). -/
def compatSize (off : Nat) : Nat :=
  if off = 0x08 || (0x20 ≤ off && off < 0x60 && (off % 16 = 4 || off % 16 = 8)) then 4 else 1

/-- The data bytes of a write transaction in turn, the offset incrementing after each. A multi-byte register takes effect only with all
its bytes (R555, R556). -/
def compatWrites : Nat → Nat → List Byte → State → State
  | 0, _, _, s => s
  | fuel + 1, off, bs, s =>
    let n := compatSize off
    if bs.isEmpty || !compatLive s then s
    else if bs.length < n then s
    else compatWrites fuel ((off + n) % 256) (bs.drop n) (compatReg off (bs.take n) s)

/-! ### The rows -/

/-- CONTROL_TUNE (R559). -/
def execControlTune (s : State) : Host.Outcome State Fault Refusal := .next (if compatLive s then compatTuneNow s else s)

/-- CONTROL_POWER_DOWN (R557). -/
def execControlPowerDown (s : State) : Host.Outcome State Fault Refusal := .next (if compatLive s then compatPowerDown s else s)

/-- CONTROL_DEFAULTS (R557). -/
def execControlDefaults (s : State) : Host.Outcome State Fault Refusal := .next (if compatLive s then compatDefaults s else s)

/-- UPDATE_KEY_UPDATE: 0x55, then 0xAA after a gap (R552). -/
def execUpdateKeyUpdate (gapMs : Nat) (s : State) : Host.Outcome State Fault Refusal :=
  .next (if compatLive s then keyWrite 0xAA (pass (ms gapMs) (keyWrite 0x55 s)) else s)

/-- UPDATE_KEY_ZEROISE: 0x5A, then 0xA5 after a gap (R552). -/
def execUpdateKeyZeroise (gapMs : Nat) (s : State) : Host.Outcome State Fault Refusal :=
  .next (if compatLive s then keyWrite 0xA5 (pass (ms gapMs) (keyWrite 0x5A s)) else s)

/-- CH_CTRL_WRITE (R558). -/
def execChCtrlWrite (c : Nat) (v : Byte) (s : State) : Host.Outcome State Fault Refusal :=
  within s (c < 4) (if compatLive s then compatCtrl c v s else s)

/-- IRQ_FLAGS_WRITE (R557). -/
def execIrqFlagsWrite (v : Byte) (s : State) : Host.Outcome State Fault Refusal :=
  .next (if compatLive s then irqClear v s else s)

/-- FIFO_LEVEL_READ: the level is returned and FIFO_OVERFLOW is cleared (R557). -/
def execFifoLevelRead (s : State) : Host.Outcome State Fault Refusal :=
  .next (
    if compatLive s then
      emit (.compatByte 0x70 (compatByte s 0x70)) { s with compat := { s.compat with overflow := false } }
    else s)

/-- FIFO_DATA_READ: the next byte of the first group; the twelfth removes the group; 0 while the FIFO is empty (R561). -/
def execFifoDataRead (s : State) : Host.Outcome State Fault Refusal :=
  .next (
    if compatLive s then
      let t := emit (.compatByte 0x71 (compatByte s 0x71)) s
      if s.compat.fifo.isEmpty then t
      else if 11 ≤ s.compat.fifoPos then { t with compat := { t.compat with fifo := t.compat.fifo.drop 1, fifoPos := 0 } }
      else { t with compat := { t.compat with fifoPos := t.compat.fifoPos + 1 } }
    else s)

/-- COMPAT_REG_WRITE: a write transaction at an offset (R555, R556). -/
def execCompatRegWrite (off : Nat) (bytes : List Byte) (s : State) : Host.Outcome State Fault Refusal :=
  .next (compatWrites bytes.length (off % 256) bytes s)

end Sys2Proof.Machine
end

