-- ==== Sys2Proof/Machine/Rasp.lean ====
section
/-!
DEFINITION. Rasp.lean: the superframes of DAB+: the firecode, the Reed-Solomon (120,110) outer code and the AUs with their CRCs (R220,
R221, R232). The code's field, the places in the superframe and both CRCs are those of ETSI TS 102 563, PRESUMED (log 176).
-/

namespace Sys2Proof.Machine

/-! ### The field of the outer code (log 176) -/

/-- A product in GF(2^8), whose polynomial is 0x11D. -/
def rsMul (a b : Nat) : Nat :=
  ((List.range 8).foldl (fun (x : Nat × Nat) i =>
    (if b.testBit i then x.1 ^^^ x.2 else x.1, if 128 ≤ x.2 then (2 * x.2) ^^^ 0x11D else 2 * x.2)) (0, a)).1

/-- A power. -/
def rsPow (a n : Nat) : Nat := (List.range n).foldl (fun x _ => rsMul x a) 1

/-- The inverse of an element other than 0. -/
def rsInv (a : Nat) : Nat := rsPow a 254

/-- A polynomial, lowest coefficient first, at a point. -/
def rsEval (l : List Nat) (x : Nat) : Nat := l.foldr (fun c a => c ^^^ rsMul a x) 0

/-- The sum of two polynomials. -/
def rsAdd (a b : List Nat) : List Nat := (List.range (max a.length b.length)).map (fun i => a.getD i 0 ^^^ b.getD i 0)

/-! ### The Reed-Solomon (120,110) code (R221) -/

/-- The ten syndromes of a codeword, highest power first: its values at the roots of the generator polynomial. -/
def syndromes (w : List Nat) : List Nat := (List.range 10).map (fun i => w.foldl (fun a b => rsMul a (rsPow 2 i) ^^^ b) 0)

/-- The error locator while it is being found. -/
structure Locator where
  /-- The polynomial so far. -/
  c : List Nat := [1]
  /-- The one before its length last grew. -/
  old : List Nat := [1]
  /-- Its length. -/
  len : Nat := 0
  /-- Steps since its length last grew. -/
  gap : Nat := 1
  /-- The discrepancy then. -/
  disc : Nat := 1
  deriving DecidableEq, Repr

/-- One step of the Berlekamp-Massey algorithm. -/
def locatorStep (syn : List Nat) (x : Locator) (n : Nat) : Locator :=
  let d := (List.range (x.len + 1)).foldl (fun a i => a ^^^ rsMul (x.c.getD i 0) (if i ≤ n then syn.getD (n - i) 0 else 0)) 0
  let q := rsMul d (rsInv x.disc)
  let c := rsAdd x.c (List.replicate x.gap 0 ++ x.old.map (rsMul q))
  if d = 0 then { x with gap := x.gap + 1 }
  else if 2 * x.len ≤ n then { c := c, old := x.c, len := n + 1 - x.len, gap := 1, disc := d }
  else { x with c := c, gap := x.gap + 1 }

/-- The error at a byte whose locator is `x`, by Forney's formula. -/
def errorAt (syn : List Nat) (l : Locator) (x : Nat) : Nat :=
  let y := rsInv x
  let omega := (List.range 10).map (fun n => (List.range (n + 1)).foldl (fun a i => a ^^^ rsMul (l.c.getD i 0) (syn.getD (n - i) 0)) 0)
  let slope := (List.range l.c.length).map (fun i => if i % 2 = 0 then l.c.getD (i + 1) 0 else 0)
  rsMul x (rsMul (rsEval omega y) (rsInv (rsEval slope y)))

/-- A codeword with up to 5 byte errors corrected, and how many there were; none when it cannot be corrected (R221). -/
def rsDecode (w : List Nat) : Option (List Nat × Nat) :=
  let syn := syndromes w
  if syn.all (· == 0) then some (w, 0)
  else
    let l := (List.range 10).foldl (locatorStep syn) {}
    let loc (j : Nat) : Nat := rsPow 2 (w.length - 1 - j)
    let bad := (List.range w.length).filter (fun j => rsEval l.c (rsInv (loc j)) == 0)
    if l.len ≤ 5 && bad.length = l.len then
      some (w.zipIdx.map (fun x => if bad.contains x.2 then x.1 ^^^ errorAt syn l (loc x.2) else x.1), bad.length)
    else none

/-! ### The superframe (R221, R232) -/

/-- A DAB+ superframe or another transport unit, as Rasp delivers it. -/
structure RaspUnit where
  /-- MP2: header and scale-factor CRC failed (R231). -/
  status : Nat := 0
  /-- The superframe header's parameter byte, or the SDC audio information (R232, R233). -/
  params : Nat := 0
  /-- Bits compared in the channel bit-error estimate (R236). -/
  bitsChecked : Nat := 0
  /-- Of those, bits that differ (R236). -/
  bitsDiffering : Nat := 0
  /-- The firecode passes (R221). -/
  firecode : Bool := true
  /-- RS codewords (R236). -/
  rsCodewords : Nat := 0
  /-- Bytes corrected (R236). -/
  rsCorrected : Nat := 0
  /-- Codewords left as received (R221). -/
  rsUncorrectable : Nat := 0
  /-- AUs, or the MP2 frame, with their checks. -/
  aus : List AuIn := []
  /-- The payload as transmitted (R233). -/
  raw : List Byte := []
  deriving DecidableEq, Repr

/-- One bit of the firecode's register, polynomial 0x782F (log 176). -/
def fireStep (r : BitVec 16) : BitVec 16 := if r.msb then (r <<< 1) ^^^ 0x782F else r <<< 1

/-- Does the firecode in a superframe's first two bytes fit the nine that follow (R221)? -/
def fireOk (l : List Byte) : Bool :=
  let r := ((l.drop 2).take 9).foldl (fun (r : BitVec 16) b =>
    (List.range 8).foldl (fun x _ => fireStep x) (r ^^^ ((b.setWidth 16 : BitVec 16) <<< 8))) 0
  11 ≤ l.length && r.toNat == (l.getD 0 0).toNat * 256 + (l.getD 1 0).toNat

/-- A 12-bit number that begins at half-byte `i`. -/
def halfBytes (l : List Byte) (i : Nat) : Nat :=
  let v := (l.getD (i / 2) 0).toNat * 256 + (l.getD (i / 2 + 1) 0).toNat
  if i % 2 = 0 then v / 16 else v % 4096

/-- How many AUs a superframe has and where the first begins, by dac_rate and sbr_flag (R229, R232). -/
def auLayout (params : Nat) : Nat × Nat :=
  if params.testBit 6 then (if params.testBit 5 then (3, 6) else (6, 11)) else if params.testBit 5 then (2, 5) else (4, 8)

/-- An AU with its CRC in the last two bytes: without them, and whether it passes (R221, R232). -/
def auOf (b : List Byte) : AuIn :=
  let n := b.length - 2
  let c := (crc16 (b.take n) ^^^ 0xFFFF).toNat
  { bytes := b.take n, crcOk := 2 < b.length && b.drop n == [BitVec.ofNat 8 (c / 256), BitVec.ofNat 8 c] }

/-- The codewords of a superframe, interleaved byte by byte (log 176). -/
def codewords (l : List Byte) : List (List Nat) :=
  let n := l.length / 120
  (List.range n).map (fun j => (List.range 120).map (fun i => (l.getD (j + n * i) 0).toNat))

/-- A DAB+ superframe: its firecode is tested, its codewords are corrected or left as received, and its AUs checked (R220, R221,
R232). -/
def superframe (l : List Byte) : RaspUnit :=
  let n := l.length / 120
  let w := codewords l
  let d := w.map rsDecode
  let fixed := (w.zip d).map (fun x => match x.2 with
    | some y => y.1
    | none => x.1)
  let data : List Byte := (List.range (110 * n)).map (fun k => BitVec.ofNat 8 ((fixed.getD (k % n) []).getD (k / n) 0))
  let params := (data.getD 2 0).toNat
  let lay := auLayout params
  let starts := (List.range lay.1).map (fun i => if i = 0 then lay.2 else halfBytes data (6 + 3 * (i - 1)))
  { params := params, firecode := fireOk l, rsCodewords := n, rsCorrected := ((d.filterMap id).map (·.2)).sum
    rsUncorrectable := (d.filter (·.isNone)).length
    aus := starts.zipIdx.map (fun x => auOf ((data.take (starts.getD (x.2 + 1) (110 * n))).drop x.1)) }

/-- A transport unit of a codec as Rasp delivers it (R220, R229). -/
def raspUnit (codec : Nat) (u : TransportIn) : RaspUnit :=
  if codec = 1 then { superframe u.raw with bitsChecked := u.bitsChecked, bitsDiffering := u.bitsDiffering }
  else { status := u.status, params := u.params, bitsChecked := u.bitsChecked, bitsDiffering := u.bitsDiffering, aus := u.aus, raw := u.raw }

end Sys2Proof.Machine
end

