-- ==== Sys2Proof/Machine/Digital.lean ====
section
/-!
DEFINITION. Digital.lean: digital reception: CIFs, DRM frames and superframes, reconfiguration, transport units with their
compressed audio, PAD and MOT (chapter 08, R241 to R245 of chapter 09).
-/

namespace Sys2Proof.Machine

/-! ### The control channels (R222 to R224, R241, R245) -/

/-- Does a FIB of 32 bytes pass its CRC: the complement of the CRC-16 over its first 30 bytes (EN 300 401, log 26)? -/
def fibOk (b : List Byte) : Bool :=
  let c := (crc16 (b.take 30) ^^^ 0xFFFF).toNat
  b.length == 32 && b.drop 30 == [BitVec.ofNat 8 (c / 256), BitVec.ofNat 8 c]

/-- Add to a reception's control-channel counts: blocks, failures, SDC blocks, SDC failures (R237). -/
def countControl (r : Reception) (a b c d : Nat) : Reception :=
  { r with control := [r.control.getD 0 0 + a, r.control.getD 1 0 + b, r.control.getD 2 0 + c, r.control.getD 3 0 + d] }

/-- Acquire a searching digital reception that has completed R216 and whose checks of R223 are met. -/
def judgeDigital (i : Nat) (at' : Instant) (s : State) : State := match receptionAt s i with
  | some r => if r.rx = .searching && acquires r && r.chain.state = .running then acquire i at' s else s
  | none => s

/-- CIFs from one nominal instant to another, one at least; across a step it is the next one (R221, R228). -/
def cifsBetween (a b : Instant) : Nat :=
  if a.epoch = b.epoch then max 1 ((((b.tick - a.tick).toInt + 2949120) / 5898240).toNat) else 1

/-- The CIF or frame that its engine completed first is reported: it is taken from those to report, its nominal instant is kept, and CIFs
are numbered by their instants, whatever is missing between them (R221, R228). -/
def takeMark (r : Reception) : Reception := match r.ofdm.marks with
  | [] => r
  | m :: l => { r with
      cifNo := r.cifNo + ((r.cifAt.map (fun a => cifsBetween a m.at')).getD 1), cifAt := some m.at'
      ofdm := { r.ofdm with marks := l, past := (m.at' :: r.ofdm.past).take 32 } }

/-- Ticks of a CIF or transmission frame. -/
def frameTicks : Kind → Nat
  | .dab => 5898240 | .drm30 => 98304000 | _ => 24576000

/-- The nominal instant of the CIF or frame reported `k` before the last one; before the first it is counted back (R227, R228). -/
def frameBack (r : Reception) (k : Nat) : Instant :=
  (r.ofdm.past[k]?).getD ((r.ofdm.past.getLastD {}).moved (-(((k + 1 - r.ofdm.past.length) * frameTicks r.kind : Nat) : Int)))

/-- Write a reception's side-data Shaving if its output is bound (R238, R239). -/
def writeSide (code kind i : Nat) (concealed : Bool) (lost : Option Nat) (at' : Instant) (pay : List Byte) (s : State) : State :=
  let h := ownerHandle s (.reception i)
  match boundRing s code 0 h with
  | some n => offerUnit code 0 h n { kind := kind, concealed := concealed, gap := lost.isSome, lost := lost.getD 0, source := h
                                     epoch := at'.epoch, stamp := at'.tick } pay s
  | none => s

/-- How many FIBs of a CIF fail their CRC (R223). -/
def fibFails (c : DabCif) : Nat := (c.fibs.filter (fun b => !fibOk b)).length

/-- Does a FIB of the CIF pass its CRC? -/
def cifPassed (m : FrameMark) (c : DabCif) : Bool := !m.lost && fibFails c < c.fibs.length

/-- What a reception counts of a CIF (R223, R224, R236). -/
def countCif (bound writes : Bool) (m : FrameMark) (c : DabCif) (x : Reception) : Reception :=
  let x := if m.lost then x else countControl x c.fibs.length (fibFails c) 0 0
  { x with
    goodRun := if cifPassed m c then x.goodRun + 1 else 0
    badRun := if cifPassed m c then 0 else x.badRun + 1
    noSync := if m.pos ≠ 0 then x.noSync else if m.sync then 0 else x.noSync + 1
    figLost := if !bound || writes then 0 else if m.lost then satNat 65535 (x.figLost + 1) else x.figLost
    ensemble := if cifPassed m c then c.ensemble.getD x.ensemble else x.ensemble }

/-- A reconfiguration that the signal announces takes effect at the announced instant, or at the next CIF or superframe once that has
passed; the count at which it does so counts on from the present one (R222). -/
def announce (r : Nat) (x : Option Reconf) (s : State) : State := match x with
  | some y =>
    let left := max 1 y.delay.toNat
    modReception r (fun z => { z with announced := some { count := y.count + left, left := left, comps := y.comps } }) s
  | none => s

/-- One CIF or superframe of those that a reconfiguration waits for (R222). -/
def announcedNext (x : Reception) : Reception :=
  { x with announced := x.announced.map (fun a => { a with left := a.left - 1 }) }

/-- The CIF is counted, its FIG Shaving written, and acquisition judged (R223, R224, R226, R228, R241). -/
def takeCif (r : Nat) (x : Reception) (m : FrameMark) (c : DabCif) (s : State) : State :=
  let bound := (boundRing s 5 0 (ownerHandle s (.reception r))).isSome
  let writes := !m.lost && (x.rx != .searching || fibFails c = 0)
  let s := modReception r (fun x => countCif bound writes m c (announcedNext (takeMark x))) s
  let s := if writes then
      writeSide 5 0x21 r (fibFails c ≠ 0) (if x.figLost = 0 then none else some x.figLost) m.at' c.fibs.flatten s
    else s
  judgeDigital r m.at' s

/-- What the FIGs of a CIF declare is taken: configuration and its change, announcements whose FIB passes, linkage, alternative arrivals
(R208, R222, R247, R258, R259). -/
def takeFigs (r : Nat) (at' : Instant) (c : DabCif) (s : State) : State :=
  let s := match c.comps with
    | some l => applyComps r l s
    | none => s
  let s := announce r c.reconf s
  let s := (c.alerts.filter (fun x => ((c.fibs[x.1]?).map fibOk).getD false)).foldl (fun t x => signalAlert r at' { x.2 with source := 4 } t) s
  let s := c.links.foldl (fun t l => learnLink r l t) s
  c.cands.foldl (fun t y => learnCand r 3 2 (fun _ => true) y.freq y.kind t) s

/-- DAB_CIF: the next CIF that the engine has completed: the FIBs are checked and counted, the FIG Shaving written, acquisition judged,
and what the FIGs declare taken: configuration, announcements, alternative arrivals, linkage (R208, R223, R224, R226, R228, R241, R247,
R258, R259). -/
def execDabCif (r : Nat) (c : DabCif) (s : State) : Host.Outcome State Fault Refusal :=
  within s (r < 256 && c.fibs.length ≤ 3 && c.fibs.all (fun b => b.length = 32) && clockRuns s 6) (match receptionAt s r with
    | none => s
    | some x => match x.ofdm.marks with
      | [] => s
      | m :: _ =>
        if !unitUp s 4 || !receiving x || x.kind ≠ .dab then s
        else
          let s := takeCif r x m c s
          if cifPassed m c then takeFigs r m.at' c s else s)

/-- Does the device receive a DRM signal of these parameters: the occupancies that the standard defines for its mode, 16- or 64-QAM for
DRM30, 4- or 16-QAM for DRM+ (R207; the occupancies of modes C and D PRESUMED, log 176)? -/
def drmSupported (k : Kind) (d : DrmFrame) : Bool :=
  if k = .drmPlus then d.msc = 1 || d.msc = 2
  else d.mode ≤ 3 && (if d.mode ≤ 1 then d.occupancy ≤ 5 else d.occupancy = 3 || d.occupancy = 5) && (d.msc = 2 || d.msc = 3)

/-- What a reception counts of a DRM frame and learns from its FAC (R223, R224, R236, R245). -/
def countFac (m : FrameMark) (d : DrmFrame) (x0 : Reception) : Reception :=
  let x := countControl (takeMark x0) 1 (!d.crcOk).toNat 0 0
  { x with
    ofdm := if d.crcOk then { x.ofdm with position := d.position } else x.ofdm
    goodRun := if d.crcOk && drmSupported x.kind d && fixedMatch x.kind x.dig d.mode d.occupancy then x.goodRun + 1 else 0
    badRun := if d.crcOk then 0 else x.badRun + 1
    noSync := if m.sync then 0 else x.noSync + 1
    services := if d.crcOk then d.services.getD x.services else x.services
    hierarchical := if d.crcOk then x.kind = .drm30 && d.hierarchical else x.hierarchical
    sdc16 := if d.crcOk then d.sdc16 else x.sdc16
    drm := if d.crcOk then [if x.kind = .drmPlus then 4 else d.mode, d.occupancy, d.msc, d.longInt.toNat] else x.drm }

/-- DRM_FRAME: the next frame that the engine has completed: its FAC block is counted, its Shaving written and acquisition judged (R223,
R224, R228, R245). -/
def execDrmFrame (r : Nat) (d : DrmFrame) (s : State) : Host.Outcome State Fault Refusal :=
  within s (r < 256 && d.fac.length ≤ 16 && clockRuns s 6) (match receptionAt s r with
    | none => s
    | some x => match x.ofdm.marks with
      | [] => s
      | m :: _ =>
        if !unitUp s 4 || !receiving x || !isDrm x.kind then s
        else
          let s := modReception r (countFac m d) s
          let s := if x.rx != .searching || d.crcOk then
              writeSide 9 0x24 r false none m.at'
                (leBytes 2 d.facBits ++ leBytes 1 (!d.crcOk).toNat ++ leBytes 1 d.position ++ zeros 4 ++ padTo 16 d.fac) s
            else s
          judgeDigital r m.at' s)

/-- The nominal instant of the superframe that the last frame reported ends: 3 frames for DRM30, 4 for DRM+ (R245). -/
def superframeAt (r : Reception) : Instant := frameBack r (if r.kind = .drmPlus then 3 else 2)

/-- DRM_SUPERFRAME: the SDC block is counted and its Shaving written; a valid one declares services, announcements and
alternative frequencies (R208, R228, R245, R247, R258, R259). -/
def execDrmSuperframe (r : Nat) (d : DrmSuper) (s : State) : Host.Outcome State Fault Refusal :=
  within s (r < 256 && d.sdc.length ≤ 1024 && clockRuns s 6) (match receptionAt s r with
    | none => s
    | some x =>
      if !unitUp s 4 || !receiving x || !isDrm x.kind || x.ofdm.past.isEmpty then s
      else
        let at' := superframeAt x
        let s := modReception r (fun x => countControl (announcedNext x) 0 0 1 (!d.crcOk).toNat) s
        let s := if x.rx != .searching || d.crcOk then
            writeSide 10 0x25 r false none at'
              (leBytes 2 d.sdc.length ++ leBytes 1 ((!d.crcOk).toNat + 2 * d.erasures.toNat) ++ leBytes 1 d.afsIndex ++
                zeros 4 ++ d.sdc) s
          else s
        if !d.crcOk then s
        else
          let s := match d.comps with
            | some l => applyComps r l s
            | none => s
          let s := announce r d.reconf s
          let s := d.alerts.foldl (fun t sg => signalAlert r at' { sg with source := 5 } t) s
          let s := d.links.foldl (fun t l => learnLink r l t) s
          d.cands.foldl (fun t y => learnCand r 4 3 (fun _ => true) y.freq y.kind t) s)

/-- CONTROL_CHANNEL_TIMEOUT: an acquired digital reception is lost: cause 5 after 10 frames without synchronisation, else
cause 4 after 2 s without a FIB or 10 FAC failures (R224). -/
def execControlChannelTimeout (r : Nat) (s : State) : Host.Outcome State Fault Refusal :=
  within s (r < 256 && clockRuns s 6) (match receptionAt s r with
    | some x =>
      let failing := if x.kind = .dab then 2000 ≤ 24 * x.badRun else 10 ≤ x.badRun
      if x.rx = .acquired && receiving x && !analogue x.kind && (failing || 10 ≤ x.noSync) then
        loseReception r (if 10 ≤ x.noSync then 5 else 4) (lastTaken s x) none s
      else s
    | none => s)

/-! ### Programmes (R208 to R214, R222) -/

/-- DECODE_RESUMED: a suspended selection whose new charge now fits is charged and decoded again (R214). -/
def execDecodeResumed (p : Nat) (s : State) : Host.Outcome State Fault Refusal :=
  within s (p < 1024 && clockRuns s 6) (match programmeAt s p with
    | some x =>
      let c := selectionCharge (kindAt s x.reception) x.reserve x.decl.codec
      let t := modProgramme p (fun x => { x with charge := c, suspended := false }) s
      if x.selected && x.suspended && x.shedStep = 0 && guUsed t ≤ guLimit t then postProgramme 0x8604 p none t else s
    | none => s)

/-- RECEPTION_RECONFIGURED: the multiplex reconfiguration announced takes effect at its count, which the CIF or superframe reported last has
reached; a CIF count wraps at 5,000 (R222, R228; PRESUMED, log 176). -/
def execReceptionReconfigured (r : Nat) (s : State) : Host.Outcome State Fault Refusal :=
  within s (r < 256 && clockRuns s 6) (match receptionAt s r with
    | some x => match x.announced with
      | some a =>
        if receiving x && !analogue x.kind && a.left = 0 then
          let at' := (x.ofdm.past.head?).getD (instantNow s (.reception r) x.chain)
          let s := post 0x8504 (ownerHandle s (.reception r))
            (leBytes 2 (if x.kind = .dab then a.count % 5000 else a.count) ++ zeros 2 ++ leBytes 2 at'.epoch.toNat ++ zeros 2 ++
              leBytes 8 at'.tick.toNat) none s
          applyComps r a.comps (modReception r (fun x => { x with reconfigs := x.reconfigs + 1, announced := none }) s)
        else s
      | none => s
    | none => s)

/-- PROGRAMME_ABSENT_EXPIRY: a programme ABSENT for 60 s is removed, and the index goes to an untracked component (R210,
R211). -/
def execProgrammeAbsentExpiry (p : Nat) (s : State) : Host.Outcome State Fault Refusal :=
  within s (p < 1024 && clockRuns s 6) (match programmeAt s p with
    | some x => match x.absentAt with
      | some t => compatFollow (resumeShed (trackMore (removeProgramme p none (passTo (t + 60 * ticksPerSecond) s))))
      | none => s
    | none => s)

/-! ### Compressed audio (R229 to R235) -/

/-- Did a unit of a transport unit fail its check: an MP2 frame by its status, an AU by its CRC (R231 to R235)? -/
def unitFailed (codec : Nat) (u : RaspUnit) (a : AuIn) : Bool := if codec = 0 then u.status % 4 ≠ 0 else !a.crcOk

/-- The AU table of a Shaving (R232). -/
def auTable (l : List AuIn) : List Byte := l.flatMap (fun a => leBytes 2 a.bytes.length ++ leBytes 1 (!a.crcOk).toNat ++ zeros 1)

/-- The AU table and the AUs of a Shaving (R232). -/
def auBytes (l : List AuIn) : List Byte := auTable l ++ l.flatMap (·.bytes)

/-- Kind and payload of the compressed-audio Shaving of a codec; none while the codec is not known. xHE-AAC keeps the payload as transmitted,
frame borders and all (R231 to R233). -/
def compressedPayload (erased : Bool) (d : CompDecl) (u : RaspUnit) : Option (Nat × List Byte) := match d.codec with
  | 0 => let f := u.aus.flatMap (·.bytes)
    some (0x11, leBytes 2 f.length ++ leBytes 1 (u.status % 4 + 4 * erased.toNat) ++ zeros 5 ++ f)
  | 1 => some (0x10, leBytes 1 u.aus.length ++ leBytes 1 u.params ++ leBytes 1 u.rsUncorrectable ++ zeros 1 ++ auBytes u.aus)
  | 2 | 3 => some (0x12, leBytes 1 d.sub ++ leBytes 1 d.codec ++ leBytes 2 u.aus.length ++ leBytes 2 u.params ++ zeros 2 ++
      (if d.codec = 3 then auTable u.aus ++ u.raw else auBytes u.aus))
  | _ => none

/-- The length of a transport unit in us (R229, R231). -/
def unitUs (k : Kind) (d : CompDecl) : Nat :=
  if k = .dab then (if d.codec = 0 then (if d.sampleRate = 24000 then 48000 else 24000) else 120000)
  else if k = .drm30 then 400000 else 200000

/-- The antenna instant of a transport unit: that of its first logical frame, which the CIF or frame reported last completes through the
time de-interleaver: 16 CIFs; one DRM frame, or 5 or 6 in long mode (R220, R228, R229). -/
def unitAt (r : Reception) (d : CompDecl) : Instant := frameBack r (match r.kind with
  | .dab => if d.codec = 0 then (if d.sampleRate = 24000 then 16 else 15) else 19
  | .drmPlus => interleaveSpan r
  | _ => interleaveSpan r - 1)

/-! ### Decoding and concealment (R230, R234, R235) -/

/-- Values fade along a curve whose shape is not stated; `up` says that they fade in (R235). -/
def fadeValues (up : Bool) (n : Nat) (l : List (Int × Int)) : List (Int × Int) :=
  l.zipIdx.map (fun x =>
    let g : Int := Config.fadeCurve (if up then x.2 else n - x.2) n
    if n ≤ x.2 then (if up then x.1 else (0, 0)) else (quot (x.1.1 * g) 16777216, quot (x.1.2 * g) 16777216))

/-- What a superframe's header declares of the audio: the output rate by dac_rate, and mono, stereo or PS (R232, R234; log 176). -/
def headerDecl (u : RaspUnit) (d : CompDecl) : CompDecl :=
  if d.codec = 1 then { d with
    sampleRate := if u.params.testBit 6 then 48000 else 32000
    audioMode := if u.params.testBit 3 then 2 else (u.params.testBit 4).toNat } else d

/-- What the decoder makes of one AU or MP2 frame of `n` frames: a good one after a failed one fades in over 5 ms; the first failed one
is the last good one's audio, faded to silence over its length; further ones are silence. What is so produced is flagged (R235). -/
def decodeUnit (k : Kind) (params n : Nat) (failed : Bool) (a : AuIn) (p : Programme) : Programme × List (Int × Int × Bool) :=
  let rate := audioRate k p.decl
  let mono (v : Int × Int) : Int × Int := if audioChannels k p.decl = 1 then (v.1, v.1) else v
  if failed then
    let old := (List.range n).map (fun i => p.lastGood.getD i (0, 0))
    let v := if p.lastUnitFailed then List.replicate n (0, 0) else fadeValues false n old
    ({ p with lastUnitFailed := true }, v.map (fun x => (x.1, x.2, true)))
  else
    let v := (List.range n).map (fun i => let x := mono (Config.decoded p.decl params a.bytes i); (clamp24 x.1, clamp24 x.2))
    let ramp := if p.lastUnitFailed then rate * 5 / 1000 else 0
    ({ p with lastUnitFailed := false, lastGood := v },
      (fadeValues true ramp v).zipIdx.map (fun x => (x.1.1, x.1.2, decide (x.2 < ramp))))

/-- The units of a transport unit, one after another. -/
def decodeUnits (k : Kind) (u : RaspUnit) (n : Nat) : List AuIn → Programme → Programme × List (Int × Int × Bool)
  | [], p => (p, [])
  | a :: l, p =>
    let x := decodeUnit k u.params n (unitFailed p.decl.codec u a) a p
    let y := decodeUnits k u n l x.1
    (y.1, x.2 ++ y.2)

/-- A selected programme's transport unit is decoded: frame `k` names the unit's instant plus `k` frame periods (R230, R234, R235). -/
def decodeTransport (r : Reception) (at' : Instant) (u : RaspUnit) (p : Programme) (s : State) : State :=
  let rate := audioRate r.kind p.decl
  let per := ticksPerSecond / rate
  let n := rate * unitUs r.kind p.decl / 1000000 / max 1 u.aus.length
  let x := decodeUnits r.kind u n u.aus p
  let l := x.2.zipIdx.map (fun y => ({ at' := at'.later (per * y.2), l := y.1.1, r := y.1.2.1, concealed := y.1.2.2, prog := p.idx } : AudioFrame))
  let next := at'.later (per * x.2.length)
  deliverAudio p.idx (missingAudio s per at' p ++ l) (modProgramme p.idx (fun _ => { x.1 with
    audioNext := some next, lastAudio := next.moved (-(per : Int)) }) s)

/-- Superframe synchronisation after a trial at one of the five logical-frame phases: held once the firecode has passed on 3 superframes in
a row at a phase, lost after 10 failures in a row there (R221). -/
def superStep (phase : Nat) (ok : Bool) (p : Programme) : Programme :=
  if p.superSync then
    let n := if ok then 0 else p.misses + 1
    if 10 ≤ n then { p with superSync := false, misses := 0, firecodes := [] } else { p with misses := n }
  else
    let n := if ok then p.firecodes.getD phase 0 + 1 else 0
    let f := (List.range 5).map (fun i => if i = phase then n else p.firecodes.getD i 0)
    if 3 ≤ n then { p with superSync := true, phase := phase, misses := 0, firecodes := [] } else { p with firecodes := f }

/-- What a programme counts of a transport unit taken at an instant and a logical-frame phase, and when a unit failed. A superframe whose
firecode fails counts at the phase at which synchronisation is or was last held (R221, R236, R237, R266; DESIGN CHOICE, log 176). -/
def countUnit (at' phase : Nat) (u : RaspUnit) (heard : Bool) (p : Programme) : Programme :=
  let c (i v : Nat) := p.checks.getD i 0 + v
  let aus := if heard then u.aus else []
  { p with
    failedAt := if aus.any (unitFailed p.decl.codec u) then some at' else p.failedAt
    units := p.units + aus.length, unitFails := p.unitFails + (aus.filter (unitFailed p.decl.codec u)).length
    checks := [c 0 u.bitsChecked, c 1 u.bitsDiffering, c 2 u.rsCodewords, c 3 u.rsCorrected, c 4 u.rsUncorrectable,
      c 5 (p.decl.codec == 1 && !u.firecode && phase == p.phase).toNat] }

/-! ### PAD and MOT (R242 to R244) -/

/-- Write a PAD data group Shaving to an output of the programme (R242). -/
def writePad (p : Programme) (code content status app cs : Nat) (at' : Instant) (data : List Byte) (s : State) : State :=
  match boundRing s code 4 (programmeHandle p) with
  | some n => offerUnit code 4 (programmeHandle p) n
      { kind := 0x22, source := programmeHandle p, prog := p.idx, epoch := at'.epoch, stamp := at'.tick }
      (leBytes 1 content ++ leBytes 1 status ++ leBytes 1 app ++ leBytes 1 cs ++ leBytes 2 data.length ++ zeros 2 ++ data) s
  | none => s

/-- Do entries fit a ring's staging one behind the other (R306, R311)? -/
def fitsAll (s : State) (n : Nat) (lens : List Nat) : Bool :=
  let r := ringAt s n
  let q := (ringSet s n).quota
  if inHostMemory s n then stagedBytes r + lens.sum ≤ q
  else
    let (tail, used) := lens.foldl (fun (a : W32 × Nat) len =>
      let sk := skipBefore a.1 (log2Floor q) len
      (a.1 + BitVec.ofNat 32 (sk + len), a.2 + sk + len)) (r.tail, ringUsed r)
    tail.toNat < 2 ^ 32 && used + r.motSpace ≤ q && 0 < q

/-- Drop oldest blocks until several entries fit together. -/
def dropUntilAll (n : Nat) (lens : List Nat) : Nat → State → State
  | 0, s => s
  | fuel + 1, s => if fitsAll s n lens then s else dropUntilAll n lens fuel (dropOldest s n)

/-- The header of a piece: the first of an object carries what its ring completes, the others its sequence (R244, R313). -/
def pieceHeader (h : ShavingHdr) (i : Nat) : ShavingHdr :=
  if i = 0 then h else { h with gap := false, lost := 0, epochChanged := false }

/-- Do the pieces of one object enter their ring, once the policy has made what room it can (R244, R312)? -/
def piecesRoom (n : Nat) (pieces : List (List Byte)) (s : State) : State × Bool :=
  let lens := pieces.map (fun p => pad8 (32 + p.length))
  let s := if fitsAll s n lens || dropsNewest s n then s else dropUntilAll n lens (ringAt s n).entries.length s
  (s, fitsAll s n lens)

/-- Offer the pieces of one object, which every drop policy treats as one block, and make them visible together: they take one ring
sequence number (R244, R312, R313, log 158). After a migration break the first carries GAP_BEFORE (R536). -/
def offerPieces (n : Nat) (h : ShavingHdr) (pieces : List (List Byte)) (s : State) : State :=
  let (s, ok) := piecesRoom n pieces s
  let h := ringHeader s n { h with gap := h.gap || s.health.breaks.contains (8, 4, h.source) }
  let s := takeSequence n h.source s
  if ok then
    let s := { s with health := { s.health with breaks := s.health.breaks.filter (fun x => x != (8, 4, h.source)) } }
    pieces.zipIdx.foldl (fun t p => stageShaving n (pieceHeader h p.2) p.1 (h.seq.toNat + 1) t) s
  else modRing n (fun r => oweLost h.source (h.lost + 1) (countDrop r)) s

/-- Segments 0 to `last` are all there. -/
def segsWhole (l : List (Nat × List Byte)) (last : Option Nat) : Bool := match last with
  | some k => (List.range (k + 1)).all (fun i => l.any (fun x => x.1 == i))
  | none => false

/-- The segments joined in order. -/
def segsJoin (l : List (Nat × List Byte)) (last : Option Nat) : List Byte :=
  (List.range (last.getD 0 + 1)).flatMap (fun i => ((l.find? (fun x => x.1 == i)).map (·.2)).getD [])

/-- Is an object complete: every header and body segment is there; a directory has no separate header (R243)? -/
def motComplete (m : MotObj) : Bool := (m.directory || segsWhole m.header m.headerLast) && segsWhole m.body m.bodyLast

/-- The pieces of an object (R244). -/
def motPieces (m : MotObj) (abandoned : Nat) : List (List Byte) :=
  let hd := if m.directory then [] else segsJoin m.header m.headerLast
  let all := hd ++ segsJoin m.body m.bodyLast
  let n := max 1 ((all.length + 4039) / 4040)
  (List.range n).map (fun i => leBytes 2 m.tid ++ leBytes 2 i ++ leBytes 2 n ++ leBytes 1 m.directory.toNat ++ zeros 1 ++
    leBytes 4 all.length ++ leBytes 4 hd.length ++ leBytes 4 (4040 * i) ++ leBytes 2 abandoned ++ zeros 2 ++
    (all.drop (4040 * i)).take 4040)

/-- What follows a taken segment: an object declared or grown beyond its limit is abandoned, a complete one is delivered, any
other goes on (R243, R244). -/
def motTaken (i n tid : Nat) (m : MotObj) (at' : Instant) (s : State) : State :=
  let limit := min 524288 ((ringSet s n).quota / 4)
  if limit < m.declared || limit < motBytes m then dropMot i true (fun y => y.tid == tid) s
  else if motComplete m then
    let s := dropMot i false (fun y => y.tid == tid) s
    match programmeAt s i with
    | some p =>
      let pieces := motPieces m p.motAbandoned
      let s := if (piecesRoom n pieces s).2 then modProgramme i (fun p => { p with motAbandoned := 0 }) s else s
      offerPieces n { kind := 0x23, source := programmeHandle p, prog := i, epoch := at'.epoch, stamp := at'.tick } pieces s
    | none => s
  else
    let s := if (ringSet s n).dropNewest then s else dropUntilFits n 0 (ringAt s n).entries.length s
    if fits s n 0 then s else dropMot i true (fun y => y.tid == tid) s

/-- Room for one more object: a fifth object abandons the one idle longest (R243). -/
def motRoom (i tid : Nat) (p : Programme) (s : State) : State :=
  if p.mot.any (·.tid == tid) || p.mot.length < 4 then s
  else match p.mot with
    | [] => s
    | x :: l =>
      let old := l.foldl (fun a b => if b.lastAt < a.lastAt then b else a) x
      dropMot i true (fun m => m.tid == old.tid) s

/-- An object with one more segment; one that it has already changes nothing but what it declares (R243). -/
def motJoin (old : MotObj) (seg : Nat) (last header directory : Bool) (declared : Nat) (data : List Byte) (at' : Nat) : MotObj :=
  let dup := (if header then old.header else old.body).any (fun x => x.1 == seg)
  { old with
    lastAt := if dup then old.lastAt else at', directory := old.directory || directory
    declared := if declared = 0 then old.declared else declared
    header := if header && !dup then old.header ++ [(seg, data)] else old.header
    body := if !header && !dup then old.body ++ [(seg, data)] else old.body
    headerLast := if header && last then some seg else old.headerLast
    bodyLast := if !header && last then some seg else old.bodyLast }

/-- One MOT segment with a valid CRC: it joins its object, a fifth object abandons the one idle longest, one too large is
abandoned, and a complete object is delivered (R243, R244). -/
def motSegment (i n tid seg : Nat) (last header directory : Bool) (declared : Nat) (data : List Byte) (at' : Instant)
    (s : State) : State :=
  match programmeAt s i with
  | none => s
  | some p =>
    let s := motRoom i tid p s
    let old := ((programmeAt s i).bind (fun p => p.mot.find? (·.tid == tid))).getD { tid := tid }
    let m := motJoin old seg last header directory declared data (now s)
    let s := modProgramme i (fun p => { p with mot := p.mot.filter (fun y => y.tid != tid) ++ [m] }) s
    let s := modRing n (fun r => { r with motSpace := r.motSpace + (motBytes m - motBytes old) }) s
    motTaken i n tid m at' s

/-- A set of segments with one more: a change of the toggle bit or of a segment's text begins a new one (R242). -/
def joinLabel (x : LabelSet) (cs : Byte) (tg : Bool) (seg : Nat) (last : Bool) (text : List Byte) : LabelSet :=
  let kept := x.toggle == tg && x.parts.all (fun y => y.1 != seg || y.2 == text)
  let x := if kept then x else { toggle := tg }
  { x with
    charset := if seg = 0 then cs else x.charset, last := if last then some seg else x.last
    parts := x.parts.filter (fun y => y.1 != seg) ++ [(seg, text)] }

/-- A segment of a dynamic label, content 1, or of a DRM text message, content 2: the whole is delivered once its segments are there
and its toggle bit or its text is new (R242). -/
def takeLabel (p : Programme) (content : Nat) (cs : Byte) (tg : Bool) (seg : Nat) (last : Bool) (text : List Byte) (at' : Instant)
    (s : State) : State :=
  let x := joinLabel p.labelSet cs tg seg last text
  let s := modProgramme p.idx (fun p => { p with labelSet := x }) s
  let t := (segsJoin x.parts x.last).take 128
  if !segsWhole x.parts x.last || p.label == some (x.charset, x.toggle, t) then s
  else writePad p 6 content 0 0 x.charset.toNat at' t (modProgramme p.idx (fun p => { p with label := some (x.charset, x.toggle, t) }) s)

/-- Does a reception in SEARCHING hold a group back: one whose check fails (R239)? -/
def heldBackGroup (s : State) (p : Programme) (crcOk : Bool) : Bool :=
  !crcOk && ((receptionAt s p.reception).map (fun r => r.rx == .searching)).getD false

/-- What a transport unit's PAD held (R239, R242, R243). -/
def takePad (i : Nat) (at' : Instant) (x : PadIn) (s : State) : State :=
  match programmeAt s i with
  | none => s
  | some p => match x with
    | .group app crcOk data => if heldBackGroup s p crcOk then s else writePad p 7 0 (!crcOk).toNat app 0 at' data s
    | .label cs tg seg last text => takeLabel p 1 cs tg seg last text at' s
    | .text cs tg seg last text => takeLabel p 2 cs tg seg last text at' s
    | .mot tid seg last header directory declared crcOk data =>
      match boundRing s 8 4 (programmeHandle p) with
      | some n => if crcOk && kindAt s p.reception = .dab then motSegment i n tid seg last header directory declared data at' s else s
      | none => s

/-- The antenna instant of AU `i` of a superframe; other transport units have one instant (R229). -/
def auAt (d : CompDecl) (u : RaspUnit) (at' : Instant) (i : Nat) : Instant :=
  if d.codec = 1 then at'.later (i * (29491200 / max 1 u.aus.length)) else at'

/-- A transport unit whose programme's superframe synchronisation holds, where there is one: delivered as compressed audio, decoded if the
programme is selected, and its PAD taken whether or not it is, each at the instant of the AU that carries it (R229 to R235, R242 to
R244). -/
def takeUnit (p : Nat) (x : Programme) (r : Reception) (u : RaspUnit) (pad : List (Nat × PadIn)) (s : State) : State :=
  let at' := unitAt r x.decl
  let erased := Config.builtFromErased r.ofdm.deint x.decl
  let s := match boundRing s 3 4 (programmeHandle x), compressedPayload erased x.decl u with
    | some n, some (k, pay) => offerUnit 3 4 (programmeHandle x) n
        { kind := k, concealed := u.aus.any (unitFailed x.decl.codec u), source := ownerHandle s (.reception r.idx), prog := p
          epoch := at'.epoch, stamp := at'.tick } pay s
    | _, _ => s
  let s := if decoding x then decodeTransport r at' u x s else s
  pad.foldl (fun t y => takePad p (auAt x.decl u at' y.1) y.2 t) s

/-- Does a programme take a unit: not a superframe at another logical-frame phase than that held, nor what the MSC of a hierarchical mapping
carries (R207, R221)? -/
def takesUnit (r : Reception) (x : Programme) : Bool :=
  !r.hierarchical && (x.decl.codec != 1 || !x.superSync || r.cifNo % 5 == x.phase)

/-- A programme after a unit: a superframe's synchronisation and what its header declares (R221, R232). -/
def unitSync (r : Reception) (u : RaspUnit) (x : Programme) : Programme :=
  if x.decl.codec = 1 then
    let y := superStep (r.cifNo % 5) u.firecode x
    if y.superSync then { y with decl := headerDecl u y.decl } else y
  else x

/-- TRANSPORT_UNIT: a unit of a tracked programme, which the CIF or frame reported last completes: counted, delivered and decoded. A superframe
of DAB+ is tried at each of the five logical-frame phases until one holds (R220, R221, R228 to R237). -/
def execTransportUnit (p : Nat) (u : TransportIn) (s : State) : Host.Outcome State Fault Refusal :=
  within s (p < 1024 && clockRuns s 6) (match programmeAt s p with
    | none => s
    | some x => match receptionAt s x.reception with
      | none => s
      | some r =>
        if !unitUp s 4 || !receiving r || analogue r.kind || x.absentAt.isSome || r.ofdm.past.isEmpty || !takesUnit r x then s
        else
          let v := raspUnit x.decl.codec u
          let y := unitSync r v x
          let heard := x.decl.codec ≠ 1 || y.superSync
          let y := countUnit (now s) (r.cifNo % 5) v heard y
          let s := modProgramme p (fun _ => y) s
          if heard then takeUnit p y r v u.pad s else s)

/-- MOT_IDLE_EXPIRY: an object with no new segment for 60 s is abandoned (R243). -/
def execMotIdleExpiry (p tid : Nat) (s : State) : Host.Outcome State Fault Refusal :=
  within s (p < 1024 && clockRuns s 6) (match (programmeAt s p).bind (fun x => x.mot.find? (·.tid == tid)) with
    | some m => dropMot p true (fun y => y.tid == tid) (passTo (m.lastAt + 60 * ticksPerSecond) s)
    | none => s)

end Sys2Proof.Machine
end

