-- ==== Sys2Proof/Machine/Resilience.lean ====
section
/-!
DEFINITION. Resilience.lean: Headstock restarts, engine failures, the Timber store's errors, faults of units without spares and
the delivery of the health log (R66, R352 to R354, R532 to R549).
-/

namespace Sys2Proof.Machine

/-! ### Headstock restarts (R352 to R354, R544 to R546) -/

/-- Can Gokixel be restarted now: the sequence has completed, the device is not in HOLD, and no restart runs or waits? -/
def restartable (s : State) : Bool :=
  s.pwr.stage == .running && s.set.mode != .hold && !s.head.restarting && !s.head.delayed

/-- The restarts that began in the last 60 s. -/
def recentRestarts (s : State) : List Nat := s.head.recent.filter (fun t => now s < t + 60 * ticksPerSecond)

/-- A restart begins: the staged plan is discarded (R352). -/
def startRestart (s : State) : State :=
  let staged := s.plan.staged.isSome
  let s := { s with plan := { s.plan with staged := none, parts := [] } }
  { s with head := { s.head with
      restarting := true, delayed := false, restarts := satNat 65535 (s.head.restarts + 1), lastRestart := now s
      recent := recentRestarts s ++ [now s], stagedLost := s.head.stagedLost || staged } }

/-- Gokixel is to be restarted: after 4 restarts within 60 s, each further one waits for 1 s after the previous one (R546). -/
def askRestart (cause : Nat) (s : State) : State :=
  let spaced := s.head.spaced || 4 ≤ (recentRestarts s).length
  let s := { s with head := { s.head with restartCause := cause, spaced := spaced } }
  if spaced && now s < s.head.lastRestart + ticksPerSecond then { s with head := { s.head with delayed := true } }
  else startRestart s

/-- WATCHDOG_EXPIRY: the Chuck restarts Gokixel, and the kill path turns the PA off within 50 us (R66, R434, R544). -/
def execWatchdogExpiry (s : State) : Host.Outcome State Fault Refusal :=
  .next (
    if restartable s && !s.clk.wdogSuspended then
      let s := { s with head := { s.head with expiries := satNat 255 (s.head.expiries + 1) } }
      askRestart 0 (if s.link.air.isSome then cutAir (pass (usTicks 50) s) else s)
    else s)

/-- HEADSTOCK_FAULT: an exception, or an uncorrectable error in Headstock memory (R544). -/
def execHeadstockFault (ecc : Bool) (s : State) : Host.Outcome State Fault Refusal :=
  .next (if restartable s then askRestart (if ecc then 2 else 1) s else s)

/-- RESTART_DELAY_EXPIRY (R546). -/
def execRestartDelayExpiry (s : State) : Host.Outcome State Fault Refusal :=
  .next (if s.head.delayed then startRestart (passTo (s.head.lastRestart + ticksPerSecond) s) else s)

/-- The payload of a response with RESTARTED (R328, R353). -/
def restartedReply (d : Deferred) : Reply := { status := 9, target := d.target, payload := failPayload { status := 9, detail := 0 } }

/-- Answer a command RESTARTED (R353). -/
def answerRestarted (d : Deferred) (s : State) : State := respond d.opcode d (restartedReply d) s

/-- FIRMWARE_RESTARTED: Gokixel runs again. Its first event is FIRMWARE_RESTARTED; the command in hand and those held are answered
RESTARTED; a commit in progress is completed without its response (R352 to R354, R546). -/
def execFirmwareRestarted (s : State) : Host.Outcome State Fault Refusal :=
  .next (
    if !s.head.restarting then s
    else
      let due := s.head.deferred.map (·.resp) ++ s.head.held.map (fun x => deferredOf x.1 x.2 false) ++
        (match s.plan.committing.bind (·.resp) with
         | some d => [d]
         | none => [])
      let n := satNat 65535 due.length
      let lost := s.head.stagedLost
      let crowded := s.head.spaced && !s.head.spacingNoted
      let s := { s with
        head := { s.head with restarting := false, deferred := [], held := [], answered := n, stagedLost := false
                              spacingNoted := s.head.spacingNoted || s.head.spaced }
        plan := { s.plan with committing := s.plan.committing.map (fun c => { c with resp := none }) } }
      let s := post 0x8100 {} (leBytes 2 s.head.restarts ++ leBytes 1 s.head.restartCause ++ leBytes 1 lost.toNat ++ leBytes 2 n ++
        zeros 2) none s
      let s := due.foldl (fun t d => answerRestarted d t) s
      if crowded then note 0x0409 0xFF 0 (recentRestarts s).length s else s)

/-- RESTART_SPACING_END: 60 s without a restart (R546). -/
def execRestartSpacingEnd (s : State) : Host.Outcome State Fault Refusal :=
  .next (
    if s.head.spaced && !s.head.restarting && !s.head.delayed then
      let s := passTo (s.head.lastRestart + 60 * ticksPerSecond) s
      { s with head := { s.head with spaced := false, spacingNoted := false, recent := [] } }
    else s)

/-! ### Engines (R533 to R537) -/

/-- The chain owners whose contexts run on engines, and not yet known to run on a stalled one. -/
def freeContexts (s : State) : List ChainOwner :=
  (owners s).filter (fun o => roleCode o != 3 && ((chainOf s o).map chainStarted).getD false &&
    !s.health.contexts.any (fun x => x.1 == o))

/-- Which contexts an engine holds is the device's own: each one not known to run elsewhere may be on it (R534). -/
def drawContexts (e : Nat) (s : State) : State :=
  (freeContexts s).foldl (fun t o =>
    let x := drawBool t
    if x.1 then { x.2 with health := { x.2.health with contexts := x.2.health.contexts ++ [(o, e)] } } else x.2) s

/-- A reception meets a break that its demodulator bridges: it holds until its work resumes and never searches for it (R535). -/
def bridgeBreak (i : Nat) (s : State) : State :=
  modReception i (fun r => { r with bridge := r.rx != .searching, rx := if r.rx = .acquired then .holding else r.rx }) s

/-- A reception's demodulation as its last snapshot has it; what has been delivered since is not repeated, and its engine takes the blocks
that its chain's ring still holds (R534, R536). -/
def restoreSnap (r : Reception) : Reception :=
  { r with
    chain := { r.chain with untaken := r.chain.ring.length }
    dem := { r.snap.1 with fm := { r.snap.1.fm with out := r.dem.fm.out, outNext := r.dem.fm.outNext } }
    ofdm := { r.snap.2.1 with marks := r.ofdm.marks, past := r.ofdm.past }
    rds := r.snap.2.2.zipIdx.map (fun x => { x.1 with sent := (r.rds.getD x.2 {}).sent }) }

/-- Move an owner's context: it resumes from its snapshot, or its reception searches again when the snapshot is invalid; the log
names the object. The engine it goes to is the device's own among those in service (R534 to R536, R542). -/
def moveContext (old : Nat) (o : ChainOwner) (s : State) : State :=
  let ready := (List.range 16).filter (fun k => (s.health.engines.getD k {}).working)
  let x := drawNat s
  let new := ready.getD (x.1 % max 1 ready.length) 0
  let s := noteLog 0x0402 0xFF (handleNum (ownerHandle x.2 o)) (old * 256 + new) x.2
  match o with
  | .reception i =>
    if s.health.badSnapshots.contains i then
      match receptionAt s i with
      | some r => modReception i (freshSearch s) (loseReception i 1 (lastTaken s r) none s)
      | none => s
    else oweBreaks 0 (ownerHandle s o) (bridgeBreak i (modReception i restoreSnap s))
  | _ => s

/-- Move a programme's decode, when the failed engine held it (R534, R536). -/
def moveDecode (old : Nat) (p : Programme) (s : State) : State :=
  let ready := (List.range 16).filter (fun k => (s.health.engines.getD k {}).working)
  let held := drawBool s
  let x := drawNat held.2
  if held.1 && p.selected then
    let new := ready.getD (x.1 % max 1 ready.length) 0
    oweBreaks 4 (programmeHandle p) (noteLog 0x0402 0xFF (handleNum (programmeHandle p)) (old * 256 + new) x.2)
  else x.2

/-- A link frame on the failed engine is cut off within 50 us on air, or lost in reception and counted as a CRC failure (R537). -/
def dropFrames (s : State) : State :=
  let x := drawBool s
  let s := if x.1 && x.2.link.air.isSome then cutAir (pass (usTicks 50) x.2) else x.2
  s.link.rx.foldl (fun t fr =>
    let y := drawBool t
    if y.1 then countLink 2 { y.2 with link := { y.2.link with rx := y.2.link.rx.erase fr } } else y.2) s

/-- An engine fails: it leaves service until the next reset, its contexts move, and what no longer fits is shed
(R533 to R538). -/
def failEngine (e : Nat) (s : State) : State :=
  let s := { s with health := { s.health with engines := modAt s.health.engines e (fun g => { g with working := false, stalledMs := 0 }) } }
  let s := note 0x0401 0xFF 0 e s
  let mine := (s.health.contexts.filter (fun x => x.2 == e)).map (·.1)
  let s := { s with health := { s.health with contexts := s.health.contexts.filter (fun x => x.2 != e) } }
  let s := mine.foldl (fun t o => moveContext e o t) s
  let s := s.prog.programmes.foldl (fun t p => moveDecode e p t) s
  shedToLimit (dropFrames s)

/-- One engine in the check: stalled for another 1 ms, failed at 2 ms or at once on an error of its local memory (R533). -/
def checkEngine (stalled ecc : BitVec 16) (s : State) (e : Nat) : State :=
  let g := s.health.engines.getD e {}
  if !g.working then s
  else if !stalled.getLsbD e && !ecc.getLsbD e then
    { s with health := { s.health with
        engines := modAt s.health.engines e (fun g => { g with stalledMs := 0 })
        contexts := s.health.contexts.filter (fun x => x.2 != e) } }
  else
    let s := if g.stalledMs = 0 then drawContexts e s else s
    let s := { s with health := { s.health with engines := modAt s.health.engines e (fun g => { g with stalledMs := g.stalledMs + 1 }) } }
    if ecc.getLsbD e || 1 ≤ g.stalledMs then failEngine e s else s

/-- ENGINE_PROGRESS_CHECK: every 1 ms, for the engines that made no progress with work queued and those whose local memory reported
an uncorrectable error (R533). -/
def execEngineProgressCheck (stalled ecc : BitVec 16) (s : State) : Host.Outcome State Fault Refusal :=
  .next (
    if s.pwr.stage != .running || s.set.mode = .hold || s.head.restarting || s.head.delayed then s
    else (List.range 16).foldl (checkEngine stalled ecc) (pass (ms 1) s))

/-- CONTEXT_SNAPSHOT: every context at least every 10 ms; an invalid snapshot is rewritten (R534, R542). -/
def execContextSnapshot (s : State) : Host.Outcome State Fault Refusal :=
  within s (clockRuns s 6) (
    let t := passTo (s.health.snapshotAt + ms 10) s
    { t with
      health := { t.health with snapshotAt := now t, badSnapshots := [] }
      prog := { t.prog with receptions := t.prog.receptions.map (fun r => { r with snap := (r.dem, r.ofdm, r.rds) }) } })

/-! ### Timber (R540 to R542) -/

/-- Spare a row: a spare of its bank, then a row of the reserve, else it stays in service under SECDED (R541). -/
def spareRow (row : Nat) (s : State) : State :=
  let bank := row / 128
  let used := s.health.sparesUsed.getD bank 2
  let s := { s with health := { s.health with rowErrors := s.health.rowErrors.filter (fun x => x.1 / 256 != row) } }
  if used < 2 then
    note 0x0405 0xFF 0 row { s with health := { s.health with
      sparesUsed := setAt s.health.sparesUsed bank (used + 1), sparedRows := s.health.sparedRows ++ [row] } }
  else if s.health.relocated < 224 then
    note 0x0405 0xFF 0 row { s with health := { s.health with
      relocated := s.health.relocated + 1, sparedRows := s.health.sparedRows ++ [row] } }
  else note 0x0407 0xFF 0 row s

/-- A correctable error: written back corrected and logged; its row is spared on errors in two of its words, or in one word twice
within 24 h (R540, R541). -/
def correctWord (word : Nat) (s : State) : State :=
  let row := word / 256
  let before := s.health.rowErrors
  let s := noteLog 0x0404 0xFF 0 row s
  let again := before.any (fun x => x.1 == word && now s < x.2 + 86400 * ticksPerSecond)
  let other := before.any (fun x => x.1 / 256 == row && x.1 != word)
  if again || other then spareRow row s
  else { s with health := { s.health with rowErrors := (word, now s) :: before.filter (fun x => x.1 != word) } }

/-- TIMBER_SCRUB: a pass over the store every 64 s corrects what it finds (R540). -/
def execTimberScrub (words : List Nat) (s : State) : Host.Outcome State Fault Refusal :=
  within s (words.all (fun w => w < 4194304) && clockRuns s 6) (
    let t := passTo (s.health.scrubAt + 64 * ticksPerSecond) s
    words.foldl (fun u w => correctWord w u) { t with health := { t.health with scrubAt := now t } })

/-- A block staged in a ring is dropped under its ring's policy (R312, R314, R542). -/
def dropPoisoned (n : Nat) (s : State) : State :=
  if (ringAt s n).entries.isEmpty then s
  else
    dropOldest s n

/-- A chain's ring without one of its blocks: it is lost (R542). -/
def loseBlock (n : Nat) (c : Chain) : Chain :=
  { c with ring := c.ring.eraseIdx n, untaken := if c.ring.length ≤ n + c.untaken then c.untaken - 1 else c.untaken }

/-- A 64-bit word of soft values, of 3 bits each, read as erasures (R542). -/
def eraseWord (n k : Nat) (o : Ofdm) : Ofdm :=
  { o with deint := modAt o.deint n (fun l => l.zipIdx.map (fun x => if k ≤ x.2 && x.2 < k + 22 then 0 else x.1)) }

/-- Audio bridged over 10 ms from frame `k` by a splice whose curve is not stated, flagged CONCEALED (R542). -/
def splice (k : Nat) (l : List AudioFrame) : List AudioFrame :=
  let a := l.getD k {}
  let b := l.getD (k + 480) a
  l.zipIdx.map (fun x =>
    if x.2 < k || k + 480 ≤ x.2 then x.1
    else
      let g : Int := Config.fadeCurve (x.2 - k) 480
      { x.1 with l := a.l + quot ((b.l - a.l) * g) 16777216, r := a.r + quot ((b.r - a.r) * g) 16777216, concealed := true })

/-- A poisoned word, by what it holds (R542): a block is lost, soft values become erasures, delayed audio is spliced, a staged block is
dropped, a snapshot is invalid. -/
def poison (holds : TimberUse) (s : State) : State := match holds with
  | .chainSamples o =>
    let x := drawNat s
    let s := modChain o (fun c => loseBlock (x.1 % max 1 c.ring.length) c) x.2
    (match o with
     | .reception i => bridgeBreak i s
     | _ => s)
  | .staging n => dropPoisoned n s
  | .snapshot r => { s with health := { s.health with badSnapshots := r :: s.health.badSnapshots.filter (fun x => x != r) } }
  | .softValues r =>
    let x := drawNat s
    let y := drawNat x.2
    modReception r (fun z => { z with ofdm := eraseWord (x.1 % max 1 z.ofdm.deint.length) (y.1 % 55296) z.ofdm }) y.2
  | .delayLine b =>
    let x := drawNat s
    modBlend b (fun z => { z with lines := (splice (x.1 % max 1 z.lines.1.length) z.lines.1, splice (x.1 % max 1 z.lines.2.length) z.lines.2) }) x.2
  | .other => s

/-- TIMBER_ECC_ERROR: found by a client: corrected, or uncorrectable and returned poisoned, with its row spared (R540 to
R542). -/
def execTimberEccError (word : Nat) (holds : TimberUse) (bad : Bool) (s : State) : Host.Outcome State Fault Refusal :=
  within s (word < 4194304) (
    if bad then poison holds (spareRow (word / 256) (note 0x0406 0xFF 0 (word / 256) s)) else correctWord word s)

/-! ### Units without spares (R543) -/

/-- The islands of the units without a spare: the two-wire block, Kerf, Rasp, the Timber controller, PCIe, SPI, and Scarf with the TDM
ports. -/
def unspared : List Nat := [0, 2, 4, 5, 7, 8, 9]

/-- BLOCK_FAULT: the unit's fault is noted, and the work that depends on it stops until the next reset (R543). -/
def execBlockFault (island : Nat) (s : State) : Host.Outcome State Fault Refusal :=
  within s (island < 17) (
    if !unspared.contains island || !unitUp s island || s.pwr.stage != .running then s
    else
      let s := note 0x0408 island 0 0 s
      let s := { s with health := { s.health with blockFaults := s.health.blockFaults ++ [island] } }
      if island = 2 || island = 5 then (List.range 5).foldl (fun t w => gapWindow w t) s
      else if island = 9 then
        { s with prog := { s.prog with pcms := s.prog.pcms.map (fun x => { x with playing := false }) } }
      else s)

/-! ### The health log (R548, R549) -/

/-- The payload of a health-log entry (R549). -/
def logBytes (e : LogEntry) : List Byte :=
  leBytes 2 e.code ++ leBytes 1 e.island ++ leBytes 1 e.posted.toNat ++ leBytes 4 e.subject ++ leBytes 4 e.value ++
  leBytes 2 e.count ++ leBytes 2 e.epoch.toNat ++ leBytes 8 e.time.toNat ++ leBytes 4 e.seq.toNat ++ zeros 4

/-- HEALTH_LOG_DELIVERY: 1 s after its first occurrence the oldest entry not yet delivered goes out through the health-log output;
in COMPAT no Shaving reaches the host (R548, R549, R554). -/
def execHealthLogDelivery (s : State) : Host.Outcome State Fault Refusal :=
  .next (match s.health.log.find? (fun e => !e.delivered) with
    | none => s
    | some e =>
      let s := passTo (e.firstAt + ticksPerSecond) s
      let s := { s with health := { s.health with log := s.health.log.map (fun x => if x.seq = e.seq then { x with delivered := true } else x) } }
      match boundRing s 15 6 {} with
      | some n =>
        if s.set.mode = .compat then s
        else offerShaving n { kind := 0x60, epoch := e.epoch, stamp := e.time } (logBytes e) 0 s
      | none => s)

end Sys2Proof.Machine
end

