-- ==== Sys2Proof/Machine/Dispatch.lean ====
section
/-!
DEFINITION. Dispatch.lean: one arm per command, each a direct call of its meaning.
-/
namespace Sys2Proof.Machine
open Host

def exec (i : Instr) (s : State) : Host.Outcome State Fault Refusal :=
  match i with
  | .powerOnReset => Sys2Proof.Machine.execPowerOnReset s
  | .porRelease b => Sys2Proof.Machine.execPorRelease b s
  | .nresetAccepted widthNs => Sys2Proof.Machine.execNresetAccepted widthNs s
  | .nresetRelease b => Sys2Proof.Machine.execNresetRelease b s
  | .islandClockGood isl => Sys2Proof.Machine.execIslandClockGood isl s
  | .islandHeld isl => Sys2Proof.Machine.execIslandHeld isl s
  | .sequenceRepeat b => Sys2Proof.Machine.execSequenceRepeat b s
  | .haltBusRead isWrite => Sys2Proof.Machine.execHaltBusRead isWrite s
  | .selfTestRerun pass b => Sys2Proof.Machine.execSelfTestRerun pass b s
  | .aonCrystalSwitch => Sys2Proof.Machine.execAonCrystalSwitch s
  | .aonRcTimeout => Sys2Proof.Machine.execAonRcTimeout s
  | .railGood r => Sys2Proof.Machine.execRailGood r s
  | .vddPaLow => Sys2Proof.Machine.execVddPaLow s
  | .wakeHigh widthUs => Sys2Proof.Machine.execWakeHigh widthUs s
  | .twoWireWake => Sys2Proof.Machine.execTwoWireWake s
  | .aonAlarm => Sys2Proof.Machine.execAonAlarm s
  | .modeTransitionDone => Sys2Proof.Machine.execModeTransitionDone s
  | .settingsCommitTimer => Sys2Proof.Machine.execSettingsCommitTimer s
  | .linkCountersSnapshot => Sys2Proof.Machine.execLinkCountersSnapshot s
  | .recordWriteDone => Sys2Proof.Machine.execRecordWriteDone s
  | .calRecordWrite => Sys2Proof.Machine.execCalRecordWrite s
  | .loopLossOfLock l => Sys2Proof.Machine.execLoopLossOfLock l s
  | .loopRelockAttempt l => Sys2Proof.Machine.execLoopRelockAttempt l s
  | .loopRelock l outageUs => Sys2Proof.Machine.execLoopRelock l outageUs s
  | .kerfBufferFull w => Sys2Proof.Machine.execKerfBufferFull w s
  | .refStop => Sys2Proof.Machine.execRefStop s
  | .refReturn => Sys2Proof.Machine.execRefReturn s
  | .ppsEdge rising sub => Sys2Proof.Machine.execPpsEdge rising sub s
  | .tenMhzWindow m => Sys2Proof.Machine.execTenMhzWindow m s
  | .referenceLost => Sys2Proof.Machine.execReferenceLost s
  | .plumbStep => Sys2Proof.Machine.execPlumbStep s
  | .timeSetApply => Sys2Proof.Machine.execTimeSetApply s
  | .wordClockLost => Sys2Proof.Machine.execWordClockLost s
  | .wordClockLocked => Sys2Proof.Machine.execWordClockLocked s
  | .getIdentity f => Sys2Proof.Machine.execGetIdentity f s
  | .setMode f => Sys2Proof.Machine.execSetMode f s
  | .factoryDefaults f => Sys2Proof.Machine.execFactoryDefaults f s
  | .portDeclare f => Sys2Proof.Machine.execPortDeclare f s
  | .getPortDeclare f => Sys2Proof.Machine.execGetPortDeclare f s
  | .alarmSet f => Sys2Proof.Machine.execAlarmSet f s
  | .getAlarm f => Sys2Proof.Machine.execGetAlarm f s
  | .echo f => Sys2Proof.Machine.execEcho f s
  | .unassignedOpcode opcode f => Sys2Proof.Machine.execUnassignedOpcode opcode f s
  | .timeConfig f => Sys2Proof.Machine.execTimeConfig f s
  | .getTimeConfig f => Sys2Proof.Machine.execGetTimeConfig f s
  | .timeSet f => Sys2Proof.Machine.execTimeSet f s
  | .windowOpen f => Sys2Proof.Machine.execWindowOpen f s
  | .windowOpenDone w => Sys2Proof.Machine.execWindowOpenDone w s
  | .windowRetune f => Sys2Proof.Machine.execWindowRetune f s
  | .retuneDone w => Sys2Proof.Machine.execRetuneDone w s
  | .windowClose f => Sys2Proof.Machine.execWindowClose f s
  | .windowClosed w => Sys2Proof.Machine.execWindowClosed w s
  | .lingerExpiry t => Sys2Proof.Machine.execLingerExpiry t s
  | .getWindow f => Sys2Proof.Machine.execGetWindow f s
  | .windowGang f => Sys2Proof.Machine.execWindowGang f s
  | .windowUngang f => Sys2Proof.Machine.execWindowUngang f s
  | .lnaConfig f => Sys2Proof.Machine.execLnaConfig f s
  | .getLnaConfig f => Sys2Proof.Machine.execGetLnaConfig f s
  | .tunerFailure t => Sys2Proof.Machine.execTunerFailure t s
  | .failedWindowReopen w => Sys2Proof.Machine.execFailedWindowReopen w s
  | .agcUpdate w m => Sys2Proof.Machine.execAgcUpdate w m s
  | .lnaBypass n => Sys2Proof.Machine.execLnaBypass n s
  | .lnaReturn n => Sys2Proof.Machine.execLnaReturn n s
  | .agcFreezeCap => Sys2Proof.Machine.execAgcFreezeCap s
  | .surveyConfig f => Sys2Proof.Machine.execSurveyConfig f s
  | .getSurveyConfig f => Sys2Proof.Machine.execGetSurveyConfig f s
  | .surveyList f => Sys2Proof.Machine.execSurveyList f s
  | .surveySpectrumDone pts => Sys2Proof.Machine.execSurveySpectrumDone pts s
  | .surveyDwellEnd c r => Sys2Proof.Machine.execSurveyDwellEnd c r s
  | .surveyPassEnd => Sys2Proof.Machine.execSurveyPassEnd s
  | .receptionAdd f => Sys2Proof.Machine.execReceptionAdd f s
  | .receptionSet f => Sys2Proof.Machine.execReceptionSet f s
  | .receptionRemove f => Sys2Proof.Machine.execReceptionRemove f s
  | .receptionRemoved r => Sys2Proof.Machine.execReceptionRemoved r s
  | .getReception f => Sys2Proof.Machine.execGetReception f s
  | .branchAdd f => Sys2Proof.Machine.execBranchAdd f s
  | .branchRemove f => Sys2Proof.Machine.execBranchRemove f s
  | .tapAdd f => Sys2Proof.Machine.execTapAdd f s
  | .tapRemove f => Sys2Proof.Machine.execTapRemove f s
  | .objectRemoved cls idx => Sys2Proof.Machine.execObjectRemoved cls idx s
  | .getChain f => Sys2Proof.Machine.execGetChain f s
  | .alertSet f => Sys2Proof.Machine.execAlertSet f s
  | .getAlert f => Sys2Proof.Machine.execGetAlert f s
  | .chainBlock o b => Sys2Proof.Machine.execChainBlock o b s
  | .settleCountDone o => Sys2Proof.Machine.execSettleCountDone o s
  | .chainBankChanged o => Sys2Proof.Machine.execChainBankChanged o s
  | .delayChangeApply o => Sys2Proof.Machine.execDelayChangeApply o s
  | .frequencyChangeApply o => Sys2Proof.Machine.execFrequencyChangeApply o s
  | .receptionAcquired r => Sys2Proof.Machine.execReceptionAcquired r s
  | .receptionLost r => Sys2Proof.Machine.execReceptionLost r s
  | .trackingHoldExpiry r => Sys2Proof.Machine.execTrackingHoldExpiry r s
  | .pilotDecision r => Sys2Proof.Machine.execPilotDecision r s
  | .syncLoopFallback r => Sys2Proof.Machine.execSyncLoopFallback r s
  | .syncLoopRestore r => Sys2Proof.Machine.execSyncLoopRestore r s
  | .mpxShaving r => Sys2Proof.Machine.execMpxShaving r s
  | .rdsBlock r stream => Sys2Proof.Machine.execRdsBlock r stream s
  | .measurementIntervalEnd p => Sys2Proof.Machine.execMeasurementIntervalEnd p s
  | .momentaryLoudness p => Sys2Proof.Machine.execMomentaryLoudness p s
  | .silenceBegan p => Sys2Proof.Machine.execSilenceBegan p s
  | .dabCif r c => Sys2Proof.Machine.execDabCif r c s
  | .drmFrame r d => Sys2Proof.Machine.execDrmFrame r d s
  | .drmSuperframe r d => Sys2Proof.Machine.execDrmSuperframe r d s
  | .controlChannelTimeout r => Sys2Proof.Machine.execControlChannelTimeout r s
  | .decodeResumed p => Sys2Proof.Machine.execDecodeResumed p s
  | .receptionReconfigured r => Sys2Proof.Machine.execReceptionReconfigured r s
  | .programmeAbsentExpiry p => Sys2Proof.Machine.execProgrammeAbsentExpiry p s
  | .transportUnit p u => Sys2Proof.Machine.execTransportUnit p u s
  | .motIdleExpiry p tid => Sys2Proof.Machine.execMotIdleExpiry p tid s
  | .programmeSelect f => Sys2Proof.Machine.execProgrammeSelect f s
  | .programmeMeasure f => Sys2Proof.Machine.execProgrammeMeasure f s
  | .getProgramme f => Sys2Proof.Machine.execGetProgramme f s
  | .programmeList f => Sys2Proof.Machine.execProgrammeList f s
  | .pcmRoute f => Sys2Proof.Machine.execPcmRoute f s
  | .pcmRemove f => Sys2Proof.Machine.execPcmRemove f s
  | .getPcm f => Sys2Proof.Machine.execGetPcm f s
  | .tdmConfig f => Sys2Proof.Machine.execTdmConfig f s
  | .tdmConfigApply port => Sys2Proof.Machine.execTdmConfigApply port s
  | .getTdmConfig f => Sys2Proof.Machine.execGetTdmConfig f s
  | .pcmUnderrun o => Sys2Proof.Machine.execPcmUnderrun o s
  | .pcmFifoRefilled o => Sys2Proof.Machine.execPcmFifoRefilled o s
  | .pcmShaving o => Sys2Proof.Machine.execPcmShaving o s
  | .followerPortLost port m => Sys2Proof.Machine.execFollowerPortLost port m s
  | .followerPortResume port good => Sys2Proof.Machine.execFollowerPortResume port good s
  | .ringBind f => Sys2Proof.Machine.execRingBind f s
  | .getBind f => Sys2Proof.Machine.execGetBind f s
  | .getPortLoad f => Sys2Proof.Machine.execGetPortLoad f s
  | .followSet f => Sys2Proof.Machine.execFollowSet f s
  | .followRemove f => Sys2Proof.Machine.execFollowRemove f s
  | .getFollow f => Sys2Proof.Machine.execGetFollow f s
  | .probeAdd f => Sys2Proof.Machine.execProbeAdd f s
  | .probeSet f => Sys2Proof.Machine.execProbeSet f s
  | .probeRemove f => Sys2Proof.Machine.execProbeRemove f s
  | .getProbe f => Sys2Proof.Machine.execGetProbe f s
  | .blendSet f => Sys2Proof.Machine.execBlendSet f s
  | .blendRemove f => Sys2Proof.Machine.execBlendRemove f s
  | .blendFade f => Sys2Proof.Machine.execBlendFade f s
  | .getBlend f => Sys2Proof.Machine.execGetBlend f s
  | .gaugeMetric fo m => Sys2Proof.Machine.execGaugeMetric fo m s
  | .retarget fo => Sys2Proof.Machine.execRetarget fo s
  | .probeDwellEnd pr => Sys2Proof.Machine.execProbeDwellEnd pr s
  | .glanceEnd fo => Sys2Proof.Machine.execGlanceEnd fo s
  | .candidateExpiry fo freq kind => Sys2Proof.Machine.execCandidateExpiry fo freq kind s
  | .rejectionExpiry fo freq kind => Sys2Proof.Machine.execRejectionExpiry fo freq kind s
  | .scarfCorrelation b => Sys2Proof.Machine.execScarfCorrelation b s
  | .fadeEnd b => Sys2Proof.Machine.execFadeEnd b s
  | .drainDone b => Sys2Proof.Machine.execDrainDone b s
  | .buildDone b => Sys2Proof.Machine.execBuildDone b s
  | .alignmentWaitExpiry b => Sys2Proof.Machine.execAlignmentWaitExpiry b s
  | .bankLoad f => Sys2Proof.Machine.execBankLoad f s
  | .getBank f => Sys2Proof.Machine.execGetBank f s
  | .curveLoad f => Sys2Proof.Machine.execCurveLoad f s
  | .getCurve f => Sys2Proof.Machine.execGetCurve f s
  | .calRun f => Sys2Proof.Machine.execCalRun f s
  | .calConfig f => Sys2Proof.Machine.execCalConfig f s
  | .getCal f => Sys2Proof.Machine.execGetCal f s
  | .getAgeing f => Sys2Proof.Machine.execGetAgeing f s
  | .supplyConfig f => Sys2Proof.Machine.execSupplyConfig f s
  | .getSupplyConfig f => Sys2Proof.Machine.execGetSupplyConfig f s
  | .temperatureComparison temps => Sys2Proof.Machine.execTemperatureComparison temps s
  | .pendingRunStart a => Sys2Proof.Machine.execPendingRunStart a s
  | .elementStatisticsDone a m => Sys2Proof.Machine.execElementStatisticsDone a m s
  | .elementInterruptionEnd a => Sys2Proof.Machine.execElementInterruptionEnd a s
  | .fadeDeferExpiry a => Sys2Proof.Machine.execFadeDeferExpiry a s
  | .calRetry a => Sys2Proof.Machine.execCalRetry a s
  | .iqEstimate a m => Sys2Proof.Machine.execIqEstimate a m s
  | .iqRampEnd a => Sys2Proof.Machine.execIqRampEnd a s
  | .alignmentStep a m => Sys2Proof.Machine.execAlignmentStep a m s
  | .grainAssessment m => Sys2Proof.Machine.execGrainAssessment m s
  | .avsRaise margins => Sys2Proof.Machine.execAvsRaise margins s
  | .avsLower margins => Sys2Proof.Machine.execAvsLower margins s
  | .clockPlanChange => Sys2Proof.Machine.execClockPlanChange s
  | .linkConfig f => Sys2Proof.Machine.execLinkConfig f s
  | .getLinkConfig f => Sys2Proof.Machine.execGetLinkConfig f s
  | .linkSend f => Sys2Proof.Machine.execLinkSend f s
  | .linkStop f => Sys2Proof.Machine.execLinkStop f s
  | .linkStopped => Sys2Proof.Machine.execLinkStopped s
  | .gatherConfig f => Sys2Proof.Machine.execGatherConfig f s
  | .gatherConfigApply => Sys2Proof.Machine.execGatherConfigApply s
  | .getGatherConfig f => Sys2Proof.Machine.execGetGatherConfig f s
  | .getLinkStats f => Sys2Proof.Machine.execGetLinkStats f s
  | .beaconTransmit => Sys2Proof.Machine.execBeaconTransmit s
  | .beaconWindowOpen => Sys2Proof.Machine.execBeaconWindowOpen s
  | .beaconMissed => Sys2Proof.Machine.execBeaconMissed s
  | .searchWindow => Sys2Proof.Machine.execSearchWindow s
  | .frameQualified lane c => Sys2Proof.Machine.execFrameQualified lane c s
  | .headerCheck lane sl bits => Sys2Proof.Machine.execHeaderCheck lane sl bits s
  | .frameReceived lane sl m => Sys2Proof.Machine.execFrameReceived lane sl m s
  | .slotTransmit => Sys2Proof.Machine.execSlotTransmit s
  | .fallbackTransmit => Sys2Proof.Machine.execFallbackTransmit s
  | .downlinkTransmit => Sys2Proof.Machine.execDownlinkTransmit s
  | .radioTransitionDone => Sys2Proof.Machine.execRadioTransitionDone s
  | .transmitKill => Sys2Proof.Machine.execTransmitKill s
  | .recentFrameExpiry => Sys2Proof.Machine.execRecentFrameExpiry s
  | .ring28EntryTaken => Sys2Proof.Machine.execRing28EntryTaken s
  | .keyInstall f => Sys2Proof.Machine.execKeyInstall f s
  | .keyZeroise f => Sys2Proof.Machine.execKeyZeroise f s
  | .fwUpdateBegin f => Sys2Proof.Machine.execFwUpdateBegin f s
  | .fwUpdatePart f => Sys2Proof.Machine.execFwUpdatePart f s
  | .fwUpdateCommit f => Sys2Proof.Machine.execFwUpdateCommit f s
  | .regionProfileInstall f => Sys2Proof.Machine.execRegionProfileInstall f s
  | .testUnlock f => Sys2Proof.Machine.execTestUnlock f s
  | .getSecurity f => Sys2Proof.Machine.execGetSecurity f s
  | .entropyTestFailure => Sys2Proof.Machine.execEntropyTestFailure s
  | .drbgReseed => Sys2Proof.Machine.execDrbgReseed s
  | .busXfer f => Sys2Proof.Machine.execBusXfer f s
  | .controllerTransferEnd r => Sys2Proof.Machine.execControllerTransferEnd r s
  | .gpioConfig f => Sys2Proof.Machine.execGpioConfig f s
  | .getGpio f => Sys2Proof.Machine.execGetGpio f s
  | .planBegin f => Sys2Proof.Machine.execPlanBegin f s
  | .planPart f => Sys2Proof.Machine.execPlanPart f s
  | .planCommit f => Sys2Proof.Machine.execPlanCommit f s
  | .planDiscard f => Sys2Proof.Machine.execPlanDiscard f s
  | .getPlan f => Sys2Proof.Machine.execGetPlan f s
  | .ringPop port ring clocked => Sys2Proof.Machine.execRingPop port ring clocked s
  | .ringPush port ring bytes ending => Sys2Proof.Machine.execRingPush port ring bytes ending s
  | .status port => Sys2Proof.Machine.execStatus port s
  | .bareRead clocked => Sys2Proof.Machine.execBareRead clocked s
  | .twoWireStuckTimeout => Sys2Proof.Machine.execTwoWireStuckTimeout s
  | .regWrite port off val nbytes => Sys2Proof.Machine.execRegWrite port off val nbytes s
  | .dtLoRead port wide => Sys2Proof.Machine.execDtLoRead port wide s
  | .dtHiRead port => Sys2Proof.Machine.execDtHiRead port s
  | .timeStatusRead port => Sys2Proof.Machine.execTimeStatusRead port s
  | .intClear mask => Sys2Proof.Machine.execIntClear mask s
  | .doorbell mask => Sys2Proof.Machine.execDoorbell mask s
  | .headWrite port ring val => Sys2Proof.Machine.execHeadWrite port ring val s
  | .tailWrite port ring val => Sys2Proof.Machine.execTailWrite port ring val s
  | .ringEnableWrite port ring policy => Sys2Proof.Machine.execRingEnableWrite port ring policy s
  | .quotaWrite port ring val => Sys2Proof.Machine.execQuotaWrite port ring val s
  | .ringStatusClear ring val => Sys2Proof.Machine.execRingStatusClear ring val s
  | .fetchTimer ring => Sys2Proof.Machine.execFetchTimer ring s
  | .hostRingFetchDone ring bytes => Sys2Proof.Machine.execHostRingFetchDone ring bytes s
  | .stagedEntryDma ring => Sys2Proof.Machine.execStagedEntryDma ring s
  | .ringDisableDrained ring => Sys2Proof.Machine.execRingDisableDrained ring s
  | .intTimeout ring => Sys2Proof.Machine.execIntTimeout ring s
  | .pcieRingsDisabled cause => Sys2Proof.Machine.execPcieRingsDisabled cause s
  | .busMasterEnable => Sys2Proof.Machine.execBusMasterEnable s
  | .pcieRetrain gen width => Sys2Proof.Machine.execPcieRetrain gen width s
  | .attentionMessage => Sys2Proof.Machine.execAttentionMessage s
  | .attentionRetry => Sys2Proof.Machine.execAttentionRetry s
  | .attentionRepeat => Sys2Proof.Machine.execAttentionRepeat s
  | .supplyWrite r => Sys2Proof.Machine.execSupplyWrite r s
  | .supplyWriteRetry => Sys2Proof.Machine.execSupplyWriteRetry s
  | .busNotFreeTimeout => Sys2Proof.Machine.execBusNotFreeTimeout s
  | .busRecoveryRepeat pulses => Sys2Proof.Machine.execBusRecoveryRepeat pulses s
  | .watchdogExpiry => Sys2Proof.Machine.execWatchdogExpiry s
  | .headstockFault ecc => Sys2Proof.Machine.execHeadstockFault ecc s
  | .firmwareRestarted => Sys2Proof.Machine.execFirmwareRestarted s
  | .restartDelayExpiry => Sys2Proof.Machine.execRestartDelayExpiry s
  | .restartSpacingEnd => Sys2Proof.Machine.execRestartSpacingEnd s
  | .engineProgressCheck stalled ecc => Sys2Proof.Machine.execEngineProgressCheck stalled ecc s
  | .contextSnapshot => Sys2Proof.Machine.execContextSnapshot s
  | .timberScrub words => Sys2Proof.Machine.execTimberScrub words s
  | .timberEccError word holds bad => Sys2Proof.Machine.execTimberEccError word holds bad s
  | .blockFault island => Sys2Proof.Machine.execBlockFault island s
  | .healthLogDelivery => Sys2Proof.Machine.execHealthLogDelivery s
  | .controlTune => Sys2Proof.Machine.execControlTune s
  | .controlPowerDown => Sys2Proof.Machine.execControlPowerDown s
  | .controlDefaults => Sys2Proof.Machine.execControlDefaults s
  | .updateKeyUpdate gapMs => Sys2Proof.Machine.execUpdateKeyUpdate gapMs s
  | .updateKeyZeroise gapMs => Sys2Proof.Machine.execUpdateKeyZeroise gapMs s
  | .chCtrlWrite c v => Sys2Proof.Machine.execChCtrlWrite c v s
  | .irqFlagsWrite v => Sys2Proof.Machine.execIrqFlagsWrite v s
  | .fifoLevelRead => Sys2Proof.Machine.execFifoLevelRead s
  | .fifoDataRead => Sys2Proof.Machine.execFifoDataRead s
  | .compatRegWrite off bytes => Sys2Proof.Machine.execCompatRegWrite off bytes s
  | .downlinkWindowOpen => Sys2Proof.Machine.execDownlinkWindowOpen s
  | .transmissionEnd => Sys2Proof.Machine.execTransmissionEnd s
  | .vddPaGood => Sys2Proof.Machine.execVddPaGood s
  | .busFree => Sys2Proof.Machine.execBusFree s
  | .pcieLinkTrained gen width => Sys2Proof.Machine.execPcieLinkTrained gen width s

end Sys2Proof.Machine
end

