-- ==== Sys2Proof/Machine/Idle.lean ====
section
/-!
DEFINITION. Idle.lean: what happens when no command waits: one cycle of the clock that counts device time.
-/

namespace Sys2Proof.Machine

/-- One cycle: 8 ticks of REF while it runs, 7,500 ticks of the AON clock while REF is off, nothing while power-on reset
is asserted (R97, R98). DESIGN CHOICE, log 5. -/
def idleCycle (s : State) : State :=
  if s.pwr.porAsserted then s else pass (if s.clk.refOn then 8 else 7500) s

end Sys2Proof.Machine
end

