-- ==== Sys2Proof/WellFormed.lean ====
section
/-!
DEFINITION. WellFormed.lean: which commands name units that the device has, and frames that a command ring can carry.
-/

namespace Sys2Proof

/-- A frame a command ring can carry: fields of their sizes and a payload of at most 4,080 bytes (R323). -/
def CmdFrame.wf (f : CmdFrame) : Bool :=
  decide (f.port < 4) && decide (f.tag < 65536) && decide (f.portField < 256) && decide (f.target.index < 65536) &&
  decide (f.target.gen < 65536) && decide (f.payload.length ≤ 4080)

/-- How many objects of a class the device holds (R23, R331). -/
def ObjClass.size : ObjClass → Nat
  | .branch => 32 | .probe => 32 | .tap => 320 | .follow => 32 | .blend => 8 | .pcm => 32

/-- The owner of a chain is an index of its class (R331). -/
def ChainOwner.wf : ChainOwner → Bool
  | .reception i => decide (i < 256)
  | .branch i => decide (i < 32)
  | .probe i => decide (i < 32)
  | .tap i => decide (i < 320)

/-- The operands of a command name what the device has: its ports and rings (R293), windows, tuners and amplifiers (R112, R119,
R131), converters (R507), receptions, programmes and objects (R331), islands (R74), and frames a ring carries (R323). -/
def Instr.wf : Instr → Bool
  -- a command of the command table: its frame
  | .getIdentity f | .setMode f | .factoryDefaults f | .portDeclare f | .getPortDeclare f | .alarmSet f | .getAlarm f
  | .echo f | .unassignedOpcode _ f | .timeConfig f | .getTimeConfig f | .timeSet f | .windowOpen f | .windowRetune f
  | .windowClose f | .getWindow f | .windowGang f | .windowUngang f | .lnaConfig f | .getLnaConfig f | .surveyConfig f
  | .getSurveyConfig f | .surveyList f | .receptionAdd f | .receptionSet f | .receptionRemove f | .getReception f
  | .branchAdd f | .branchRemove f | .tapAdd f | .tapRemove f | .getChain f | .alertSet f | .getAlert f
  | .programmeSelect f | .programmeMeasure f | .getProgramme f | .programmeList f | .pcmRoute f | .pcmRemove f | .getPcm f
  | .tdmConfig f | .getTdmConfig f | .ringBind f | .getBind f | .getPortLoad f | .followSet f | .followRemove f
  | .getFollow f | .probeAdd f | .probeSet f | .probeRemove f | .getProbe f | .blendSet f | .blendRemove f | .blendFade f
  | .getBlend f | .bankLoad f | .getBank f | .curveLoad f | .getCurve f | .calRun f | .calConfig f | .getCal f
  | .getAgeing f | .supplyConfig f | .getSupplyConfig f | .linkConfig f | .getLinkConfig f | .linkSend f | .linkStop f
  | .gatherConfig f | .getGatherConfig f | .getLinkStats f | .keyInstall f | .keyZeroise f | .fwUpdateBegin f
  | .fwUpdatePart f | .fwUpdateCommit f | .regionProfileInstall f | .testUnlock f | .getSecurity f | .busXfer f
  | .gpioConfig f | .getGpio f | .planBegin f | .planPart f | .planCommit f | .planDiscard f | .getPlan f => f.wf
  -- an event whose operands name no unit
  | .powerOnReset | .porRelease _ | .nresetAccepted _ | .nresetRelease _ | .sequenceRepeat _ | .haltBusRead _
  | .selfTestRerun _ _ | .aonCrystalSwitch | .aonRcTimeout | .railGood _ | .vddPaLow | .wakeHigh _ | .twoWireWake
  | .aonAlarm | .modeTransitionDone | .settingsCommitTimer | .linkCountersSnapshot | .recordWriteDone | .calRecordWrite
  | .loopLossOfLock _ | .loopRelockAttempt _ | .loopRelock _ _ | .refStop | .refReturn | .ppsEdge _ _ | .tenMhzWindow _
  | .referenceLost | .plumbStep | .timeSetApply | .wordClockLost | .wordClockLocked | .agcFreezeCap
  | .surveySpectrumDone _ | .surveyDwellEnd _ _ | .surveyPassEnd | .clockPlanChange | .linkStopped | .gatherConfigApply
  | .beaconTransmit | .beaconWindowOpen | .beaconMissed | .searchWindow | .slotTransmit | .fallbackTransmit
  | .downlinkTransmit | .radioTransitionDone | .transmitKill | .recentFrameExpiry | .ring28EntryTaken
  | .entropyTestFailure | .drbgReseed | .bareRead _ | .twoWireStuckTimeout | .intClear _ | .doorbell _
  | .pcieRingsDisabled _ | .busMasterEnable | .pcieRetrain _ _ | .attentionMessage | .attentionRetry | .attentionRepeat
  | .supplyWriteRetry | .busNotFreeTimeout | .busRecoveryRepeat _ | .watchdogExpiry | .headstockFault _
  | .firmwareRestarted | .restartDelayExpiry | .restartSpacingEnd | .engineProgressCheck _ _ | .contextSnapshot
  | .healthLogDelivery | .controlTune | .controlPowerDown | .controlDefaults | .updateKeyUpdate _ | .updateKeyZeroise _
  | .irqFlagsWrite _ | .fifoLevelRead | .fifoDataRead | .compatRegWrite _ _ | .downlinkWindowOpen | .transmissionEnd
  | .vddPaGood | .busFree | .pcieLinkTrained _ _ => true
  | .islandClockGood i | .islandHeld i | .blockFault i => decide (i < 17)
  | .kerfBufferFull i | .windowOpenDone i | .retuneDone i | .windowClosed i | .lingerExpiry i | .tunerFailure i
  | .failedWindowReopen i | .agcUpdate i _ | .pendingRunStart i | .elementStatisticsDone i _ | .elementInterruptionEnd i
  | .fadeDeferExpiry i | .calRetry i | .alignmentStep i _ => decide (i < 5)
  | .lnaBypass i | .lnaReturn i | .tdmConfigApply i | .followerPortLost i _ | .followerPortResume i _ | .iqEstimate i _
  | .iqRampEnd i | .chCtrlWrite i _ => decide (i < 4)
  | .receptionRemoved i | .receptionAcquired i | .receptionLost i | .trackingHoldExpiry i | .pilotDecision i
  | .syncLoopFallback i | .syncLoopRestore i | .mpxShaving i | .controlChannelTimeout i | .receptionReconfigured i =>
    decide (i < 256)
  | .settleCountDone o | .chainBankChanged o | .delayChangeApply o | .frequencyChangeApply o => o.wf
  | .measurementIntervalEnd i | .momentaryLoudness i | .silenceBegan i | .decodeResumed i | .programmeAbsentExpiry i
  | .motIdleExpiry i _ => decide (i < 1024)
  | .transportUnit i u => decide (i < 1024) && decide (u.raw.length % 120 = 0 ∨ u.aus ≠ [])
  | .pcmUnderrun i | .pcmFifoRefilled i | .pcmShaving i | .gaugeMetric i _ | .retarget i | .probeDwellEnd i | .glanceEnd i
  | .candidateExpiry i _ _ | .rejectionExpiry i _ _ | .ringStatusClear i _ | .fetchTimer i | .hostRingFetchDone i _
  | .stagedEntryDma i | .ringDisableDrained i | .intTimeout i => decide (i < 32)
  | .scarfCorrelation i | .fadeEnd i | .drainDone i | .buildDone i | .alignmentWaitExpiry i | .frameQualified i _ =>
    decide (i < 8)
  | .avsRaise margins | .avsLower margins => decide (margins.length = 17)
  | .headerCheck lane sl _ | .frameReceived lane sl _ => decide (lane < 8) && decide (1 ≤ sl ∧ sl ≤ 6)
  | .controllerTransferEnd r | .supplyWrite r => decide (r.result < 7)
  | .ringPop port ring _ | .ringPush port ring _ _ | .headWrite port ring _ | .tailWrite port ring _
  | .ringEnableWrite port ring _ | .quotaWrite port ring _ => decide (port < 3) && decide (ring < 32)
  | .status i | .regWrite i _ _ _ | .dtLoRead i _ | .dtHiRead i | .timeStatusRead i => decide (i < 3)
  | .objectRemoved cls i => decide (i < cls.size)
  | .chainBlock o b => o.wf && decide (b.samples.length ≤ 256)
  | .rdsBlock r stream => decide (r < 256) && decide (stream < 4)
  | .dabCif r c => decide (r < 256) && decide (c.fibs.length ≤ 3) && c.fibs.all (fun b => decide (b.length = 32))
  | .drmFrame r d => decide (r < 256) && decide (d.fac.length ≤ 16) && decide (d.facBits ≤ 128) && decide (d.mode ≤ 4) &&
    decide (d.occupancy ≤ 5) && decide (d.msc ≤ 3)
  | .drmSuperframe r d => decide (r < 256) && decide (d.sdc.length ≤ 1024)
  | .temperatureComparison temps => decide (temps.length = 17)
  | .grainAssessment m => decide (m.degradation.length = 17)
  | .timberScrub words => words.all (fun w => decide (w < 4194304))
  | .timberEccError i _ _ => decide (i < 4194304)

/-- An event whose operand names a unit that the device does not have: a port, ring, window, tuner, converter, amplifier,
reception, programme, object, island, lane or Timber word beyond those of its kind, or a table of another length (log 133). -/
def Instr.offDevice (i : Instr) : Bool := match i with
  | .islandClockGood _ | .islandHeld _ | .kerfBufferFull _ | .windowOpenDone _ | .retuneDone _ | .windowClosed _
  | .lingerExpiry _ | .tunerFailure _ | .failedWindowReopen _ | .agcUpdate _ _ | .lnaBypass _ | .lnaReturn _
  | .receptionRemoved _ | .receptionAcquired _ | .receptionLost _ | .trackingHoldExpiry _ | .pilotDecision _
  | .syncLoopFallback _ | .syncLoopRestore _ | .mpxShaving _ | .rdsBlock _ _ | .measurementIntervalEnd _ | .momentaryLoudness _
  | .silenceBegan _ | .dabCif _ _ | .drmFrame _ _ | .drmSuperframe _ _ | .controlChannelTimeout _ | .decodeResumed _
  | .receptionReconfigured _ | .programmeAbsentExpiry _ | .transportUnit _ _ | .motIdleExpiry _ _ | .tdmConfigApply _
  | .pcmUnderrun _ | .pcmFifoRefilled _ | .pcmShaving _ | .followerPortLost _ _ | .followerPortResume _ _ | .gaugeMetric _ _
  | .retarget _ | .probeDwellEnd _ | .glanceEnd _ | .candidateExpiry _ _ _ | .rejectionExpiry _ _ _ | .scarfCorrelation _
  | .fadeEnd _ | .drainDone _ | .buildDone _ | .alignmentWaitExpiry _ | .temperatureComparison _ | .pendingRunStart _
  | .elementStatisticsDone _ _ | .elementInterruptionEnd _ | .fadeDeferExpiry _ | .calRetry _ | .iqEstimate _ _ | .iqRampEnd _
  | .alignmentStep _ _ | .grainAssessment _ | .avsRaise _ | .avsLower _ | .frameQualified _ _ | .controllerTransferEnd _
  | .ringPop _ _ _ | .ringPush _ _ _ _ | .status _ | .regWrite _ _ _ _ | .dtLoRead _ _ | .dtHiRead _ | .timeStatusRead _
  | .headWrite _ _ _ | .tailWrite _ _ _ | .ringEnableWrite _ _ _ | .quotaWrite _ _ _ | .ringStatusClear _ _ | .fetchTimer _
  | .hostRingFetchDone _ _ | .stagedEntryDma _ | .ringDisableDrained _ | .intTimeout _ | .supplyWrite _ | .timberScrub _
  | .timberEccError _ _ _ | .blockFault _ | .chCtrlWrite _ _ =>
    !i.wf
  | .headerCheck lane _ _ | .frameReceived lane _ _ => decide (8 ≤ lane)
  | _ => false

end Sys2Proof
end

