-- ==== Sys2Proof/Safety.lean ====
section
/-!
DEFINITION. Safety.lean: what counts as a safe run of the block, and the terms in which its statements speak: a command that
is accepted, what a response ring holds for the host, what a command that only reads may touch, what the block holds
under power-on reset, and the sizes of the unit tables.
-/

namespace Sys2Proof

/-- A run of `k` steps is safe when it meets no fault and no refusal: every command named units the device has. -/
def SafeFor (k : Nat) (s : Machine.State) : Prop := ∃ t, core.run k s = .next t

end Sys2Proof

namespace Sys2Proof.Machine

/-- A command frame is accepted: the Headstock can take it and it comes next from its port (R339, R341), and once it is taken no
check of R327 fails and no shut-down holds it (R338). -/
def Accepted (op : Nat) (f : CmdFrame) (c : State → Checks) (s : State) : Prop :=
  canTake s f = true ∧ frameNext s op f = true ∧ (c s).holds = false ∧
  earlyFail (consume op f s) op f (c (consume op f s)) = none ∧ (c (consume op f s)).holds = false ∧
  lateFail (c (consume op f s)) = none

/-- A command frame comes next from its port, is taken and fails a check of R327 that stands before clamping. -/
def Rejected (op : Nat) (f : CmdFrame) (c : State → Checks) (s : State) (x : Fail) : Prop :=
  canTake s f = true ∧ frameNext s op f = true ∧ earlyFail s op f (c s) = some x ∧
  earlyFail (consume op f s) op f (c (consume op f s)) = some x

/-- What a host port has been answered and has not taken yet, oldest first: the entries of its response ring (R293), then
the responses that wait for room (R314). -/
def answers (s : State) (p : Nat) : List (List Byte) :=
  (ringAt s (4 + p)).entries.map (·.bytes) ++ (s.port.respWait.filter (fun x => x.1 == p)).map (·.2.bytes)

/-- The flags byte of a response (R326). -/
def responseFlags (r : Reply) : Nat := r.status % 16 + 16 * r.clamped.toNat + 32 * r.held.toNat

/-- The frame that answers a command (R323, R326). -/
def responseFrame (op : Nat) (f : CmdFrame) (r : Reply) (seq : W32) : List Byte :=
  frameBytes op f.tag (responseFlags r) f.port r.target seq r.payload

/-- Between `s` and `t` the host port of the frame got exactly one more answer: the reply `r`, with the plan sequence of
`t` (R326, R344). The Headstock's internal ring is answered nothing that a host sees (R554). -/
def Answered (op : Nat) (f : CmdFrame) (r : Reply) (s t : State) : Prop :=
  f.port < 3 → answers t f.port = answers s f.port ++ [responseFrame op f r t.plan.seq]

/-- The last answer the host port of the frame got is the reply `r` (R326). -/
def AnsweredLast (op : Nat) (f : CmdFrame) (r : Reply) (t : State) : Prop :=
  f.port < 3 → (answers t f.port).getLast? = some (responseFrame op f r t.plan.seq)

/-- No host port was answered anything. -/
def NoAnswer (s t : State) : Prop := ∀ p, p < 3 → answers t p = answers s p

/-- Nothing changed but the rings, the interrupt state and the trace of the pins. -/
def PortOut (s t : State) : Prop := t = { s with port := t.port, out := t.out }

/-- Nothing changed but the host port, the frames that a full list of held commands keeps back, the two-wire controller's queue and the
trace of the pins: what taking and answering a command touches by itself. -/
def ReadsOnly (s t : State) : Prop :=
  t = { s with port := t.port, out := t.out, bus := t.bus, head := { s.head with blocked := t.head.blocked } }

/-- A command that only reads: it answers exactly the reply `r` and changes nothing else. -/
def Reads (op : Nat) (f : CmdFrame) (r : Reply) (s : State) (o : Host.Outcome State Fault Refusal) : Prop :=
  ∃ t, o = .next t ∧ ReadsOnly s t ∧ Answered op f r s t

/-- The reply OK with these bytes, for the frame's target (R326). -/
def okReply (f : CmdFrame) (p : List Byte) : Reply := { target := f.target, payload := p }

/-- A command that changes settings and nothing else: they are to be written to the store within a second (R50), and the
reply is `r`. -/
def Sets (op : Nat) (f : CmdFrame) (r : Reply) (x : Settings) (s : State) (o : Host.Outcome State Fault Refusal) : Prop :=
  ∃ t, o = .next t ∧
    t = { s with
      set := x, store := t.store, port := t.port, out := t.out, bus := t.bus, head := { s.head with blocked := t.head.blocked } } ∧
    t.store = { s.store with dirtyFirst := some (s.store.dirtyFirst.getD (now s)), dirtyLast := some (now s) } ∧
    Answered op f r s t

/-- What sending a frame needs after the checks on the network and the duty cycle pass (R437, R440, R467, R470, R492). -/
structure MaySend (a : TxAsk) (fr : TxFrame) (p : Profile) (c w sub : Nat) (s : State) : Prop where
  counters : countersOk s = true
  counter : fr.counter ≠ 0xFFFFFFFF
  profile : s.sec.profile = some p
  channel : moveChannel p a.centre a.width = some (c, w)
  permitted : permittedBy p c w = some sub
  once : fr.lastSfn ≠ some a.body.sfn
  budget : 15 * askTicks { a with centre := c, width := w } ≤ unitsLeft s sub * ticksPerSecond

/-- The unit tables have the sizes the device has: 32 rings (R293), 5 windows (R112) and a glance's window on each of 4 tuners
(R264), 5 tuners and inputs (R119), 32 coefficient banks (R157), 12 curves (R282), 5 converters (R507), 16 engines (R533). -/
def UnitTables (s : State) : Prop :=
  s.port.rings.length = 32 ∧ s.front.windows.length = 9 ∧ s.front.tuners.length = 5 ∧ s.mix.banks.length = 32 ∧
  s.mix.curves.length = 12 ∧ s.cal.adcs.length = 5 ∧ s.health.engines.length = 16

/-- What the spec states of the block while power-on reset is asserted: no command is accepted and no island is released
(R64, R65), device time and the epoch are 0 and Plumb is FREE (R99), every ring is disabled with both pointers 0 (R309), every
window is closed and every tuner off (R119), no object exists (R335), the link is OFF (R451), no fault is known. -/
def AtReset (t : State) : Prop :=
  t.pwr.porAsserted = true ∧ t.pwr.stage = .porHeld ∧ t.pwr.ready = false ∧ t.pwr.commands = false ∧ t.pwr.released = 0 ∧
  t.time.count = 0 ∧ t.time.epoch = 0 ∧ t.time.plumb = .free ∧
  (∀ r ∈ t.port.rings, r.enabled = false ∧ r.head = 0 ∧ r.tail = 0 ∧ r.entries = []) ∧
  (∀ w ∈ t.front.windows, w.state = .closed) ∧ (∀ x ∈ t.front.tuners, x.state = .off) ∧
  t.prog = {} ∧ t.mix.blends = [] ∧ t.link.state = .off ∧ t.link.queue = [] ∧ t.health.blockFaults = [] ∧
  t.head.restarting = false

/-- Is this engine in service? -/
def inService (s : State) (e : Nat) : Bool := (s.health.engines.getD e {}).working

/-- The device runs image `i`: the ports take commands, the loops are locked, and the mode is IDLE (R86 steps 11 to 13). -/
def RunsImage (i : Nat) (t : State) : Prop :=
  t.pwr.stage = .running ∧ t.pwr.ready = true ∧ t.pwr.commands = true ∧ t.set.mode = .idle ∧ t.sec.state = .operational ∧
  t.sec.running = i ∧ t.clk.refOn = true ∧ t.clk.sysPll = .locked ∧ t.clk.sPll = .locked ∧ t.clk.aPll = .locked

/-- Is none of the islands held without which no firmware runs: I1, I5, I6 and I11 (R76)? -/
def mayRun (held : BitVec 16) : Bool := !(held.getLsbD 0 || held.getLsbD 4 || held.getLsbD 5 || held.getLsbD 10)

/-- A sequence without faults: every clock good, SDA high, the tests passed (R74, R86, R401, R501). -/
def Faultless (b : BootInputs) : Prop := b.clocksGood = BitVec.allOnes 17 ∧ b.sdaPulses < 10 ∧ b.selfTest = true

/-! ### What each command may change -/

/-- A part of the device's state: one field of `State`. -/
inductive StatePart where
  | pending | pwr | set | store | clk | time | head | front | prog | gens | mix | plan | port | bus | link | stats | sec | cal | health | survey | compat | out | fresh
  deriving DecidableEq, Repr

/-- A part of the state is the same before and after. -/
def StatePart.kept : StatePart → State → State → Prop
  | .pending, s, t => t.pending = s.pending
  | .pwr, s, t => t.pwr = s.pwr
  | .set, s, t => t.set = s.set
  | .store, s, t => t.store = s.store
  | .clk, s, t => t.clk = s.clk
  | .time, s, t => t.time = s.time
  | .head, s, t => t.head = s.head
  | .front, s, t => t.front = s.front
  | .prog, s, t => t.prog = s.prog
  | .gens, s, t => t.gens = s.gens
  | .mix, s, t => t.mix = s.mix
  | .plan, s, t => t.plan = s.plan
  | .port, s, t => t.port = s.port
  | .bus, s, t => t.bus = s.bus
  | .link, s, t => t.link = s.link
  | .stats, s, t => t.stats = s.stats
  | .sec, s, t => t.sec = s.sec
  | .cal, s, t => t.cal = s.cal
  | .health, s, t => t.health = s.health
  | .survey, s, t => t.survey = s.survey
  | .compat, s, t => t.compat = s.compat
  | .out, s, t => t.out = s.out
  | .fresh, s, t => t.fresh = s.fresh

/-- The parts of the state that a command may change. A command of the command table changes its response ring, the interrupt
state, the trace of the pins and the bus besides its own effect; a row that lets time pass changes the clock and device time. -/
def touches : Instr → List StatePart
  | .powerOnReset =>
    [.pwr, .set, .store, .clk, .time, .head, .front, .prog, .gens, .mix, .plan, .port, .bus, .link, .stats, .sec, .cal,
     .health, .survey, .compat, .out]
  | .porRelease _ | .nresetRelease _ | .islandClockGood _ | .islandHeld _ | .railGood _ =>
    [.pwr, .set, .store, .clk, .time, .head, .front, .prog, .gens, .mix, .plan, .port, .bus, .link, .sec, .cal, .health,
     .compat, .out, .fresh]
  | .nresetAccepted _ =>
    [.pwr, .set, .store, .clk, .time, .head, .front, .prog, .gens, .mix, .plan, .port, .bus, .link, .sec, .cal, .health,
     .survey, .compat, .out, .fresh]
  | .sequenceRepeat _ =>
    [.pwr, .set, .store, .clk, .time, .head, .front, .prog, .gens, .mix, .plan, .port, .bus, .link, .stats, .sec, .cal,
     .health, .survey, .compat, .out, .fresh]
  | .haltBusRead _ => [.out]
  | .selfTestRerun _ _ =>
    [.pwr, .set, .store, .clk, .time, .head, .front, .prog, .mix, .port, .link, .sec, .cal, .health, .compat, .out,
     .fresh]
  | .aonCrystalSwitch | .vddPaGood => [.pwr]
  | .aonRcTimeout => [.pwr, .clk, .time, .port, .health, .out]
  | .vddPaLow => [.pwr, .set, .store, .front, .port, .link, .health, .out]
  | .wakeHigh _ =>
    [.pwr, .set, .store, .clk, .head, .front, .prog, .mix, .plan, .port, .sec, .cal, .health, .survey, .compat, .out,
     .fresh]
  | .twoWireWake =>
    [.set, .store, .clk, .head, .front, .prog, .mix, .plan, .port, .sec, .cal, .health, .survey, .compat, .out, .fresh]
  | .aonAlarm =>
    [.set, .store, .clk, .time, .head, .front, .prog, .mix, .plan, .port, .sec, .cal, .health, .survey, .compat, .out,
     .fresh]
  | .modeTransitionDone =>
    [.set, .store, .clk, .time, .head, .front, .prog, .gens, .mix, .plan, .port, .link, .stats, .sec, .cal, .health,
     .survey, .compat, .out, .fresh]
  | .settingsCommitTimer => [.store, .clk, .time]
  | .linkCountersSnapshot => [.store, .clk, .time, .link]
  | .recordWriteDone => [.store, .head, .front, .prog, .mix, .plan, .port, .link, .sec, .cal, .health, .compat, .out, .fresh]
  | .calRecordWrite => [.store, .clk, .time, .cal]
  | .loopLossOfLock _ | .refStop =>
    [.set, .store, .clk, .time, .front, .prog, .mix, .port, .link, .health, .compat, .out, .fresh]
  | .loopRelockAttempt _ | .kerfBufferFull _ | .twoWireStuckTimeout => [.clk, .time]
  | .loopRelock _ _ => [.clk, .time, .front, .prog, .mix, .port, .link, .health, .compat, .out, .fresh]
  | .refReturn | .wordClockLost => [.clk, .port, .health, .out]
  | .ppsEdge _ _ => [.time, .port, .health, .out, .fresh]
  | .tenMhzWindow _ => [.clk, .time, .port, .health, .out, .fresh]
  | .referenceLost | .intTimeout _ => [.clk, .time, .port, .out]
  | .plumbStep | .timeSetApply => [.clk, .time, .head, .prog, .port, .link, .out]
  | .wordClockLocked | .timberScrub _ | .healthLogDelivery => [.clk, .time, .port, .health, .out]
  | .getIdentity _ | .getPortDeclare _ | .getAlarm _ | .echo _ | .unassignedOpcode _ _ | .getTimeConfig _ | .getWindow _
  | .getLnaConfig _ | .getSurveyConfig _ | .surveyList _ | .getReception _ | .getChain _ | .getAlert _ | .getProgramme _
  | .programmeList _ | .getPcm _ | .getTdmConfig _ | .getBind _ | .getPortLoad _ | .getFollow _ | .getProbe _ | .getBlend _
  | .getBank _ | .getCurve _ | .getCal _ | .getAgeing _ | .getSupplyConfig _ | .getLinkConfig _ | .getGatherConfig _
  | .getLinkStats _ | .getSecurity _ | .getPlan _ => [.head, .port, .bus, .out]
  | .setMode _ | .controlPowerDown =>
    [.set, .store, .head, .front, .prog, .mix, .plan, .port, .bus, .sec, .cal, .health, .survey, .compat, .out, .fresh]
  | .factoryDefaults _ | .controlDefaults =>
    [.set, .store, .clk, .time, .head, .front, .prog, .gens, .mix, .plan, .port, .bus, .link, .stats, .cal, .health,
     .compat, .out, .fresh]
  | .portDeclare _ => [.set, .store, .head, .port, .bus, .health, .out]
  | .alarmSet _ | .lnaConfig _ | .surveyConfig _ | .tdmConfig _ | .calConfig _ | .busXfer _ =>
    [.set, .store, .head, .port, .bus, .out]
  | .timeConfig _ => [.set, .store, .clk, .time, .head, .port, .bus, .health, .out]
  | .timeSet _ => [.time, .head, .port, .bus, .out]
  | .windowOpen _ | .windowRetune _ | .windowGang _ | .receptionSet _ | .branchRemove _ | .programmeSelect _
  | .programmeMeasure _ | .pcmRemove _ | .followRemove _ | .probeSet _ | .probeRemove _ =>
    [.head, .front, .prog, .mix, .plan, .port, .bus, .health, .compat, .out, .fresh]
  | .windowOpenDone _ =>
    [.set, .store, .head, .front, .prog, .mix, .plan, .port, .cal, .health, .survey, .compat, .out, .fresh]
  | .retuneDone _ => [.set, .store, .head, .front, .prog, .mix, .plan, .port, .cal, .health, .compat, .out, .fresh]
  | .windowClose _ | .windowUngang _ | .blendRemove _ =>
    [.head, .front, .prog, .mix, .plan, .port, .bus, .cal, .health, .compat, .out, .fresh]
  | .windowClosed _ | .objectRemoved _ _ =>
    [.store, .head, .front, .prog, .gens, .mix, .plan, .port, .cal, .health, .compat, .out, .fresh]
  | .lingerExpiry _ | .lnaBypass _ | .lnaReturn _ | .agcFreezeCap => [.clk, .time, .front]
  | .tunerFailure _ => [.head, .front, .prog, .mix, .plan, .port, .cal, .health, .survey, .compat, .out, .fresh]
  | .failedWindowReopen _ | .frequencyChangeApply _ | .retarget _ =>
    [.front, .prog, .mix, .port, .health, .compat, .out, .fresh]
  | .agcUpdate _ _ => [.front, .port, .health, .out, .fresh]
  | .surveySpectrumDone _ | .surveyDwellEnd _ _ =>
    [.clk, .time, .front, .prog, .mix, .port, .health, .survey, .compat, .out, .fresh]
  | .surveyPassEnd => [.front, .prog, .mix, .port, .health, .survey, .compat, .out, .fresh]
  | .receptionAdd _ | .receptionRemove _ | .branchAdd _ | .tapAdd _ | .probeAdd _ =>
    [.head, .front, .prog, .gens, .mix, .plan, .port, .bus, .health, .compat, .out, .fresh]
  | .receptionRemoved _ =>
    [.set, .store, .head, .front, .prog, .gens, .mix, .plan, .port, .cal, .health, .compat, .out, .fresh]
  | .tapRemove _ | .ringBind _ => [.head, .prog, .plan, .port, .bus, .out]
  | .alertSet _ => [.head, .prog, .plan, .port, .bus, .health, .compat, .out]
  | .chainBlock _ _ | .blockFault _ => [.prog, .mix, .port, .health, .compat, .out, .fresh]
  | .settleCountDone _ | .receptionLost _ | .rdsBlock _ _ | .drmFrame _ _ | .controlChannelTimeout _ =>
    [.prog, .port, .health, .compat, .out]
  | .chainBankChanged _ | .delayChangeApply _ | .timberEccError _ _ _ => [.prog, .mix, .port, .health, .out, .fresh]
  | .receptionAcquired _ => [.prog, .port, .compat, .out]
  | .trackingHoldExpiry _ => [.clk, .time, .prog, .port, .health, .compat, .out]
  | .pilotDecision _ | .syncLoopFallback _ | .syncLoopRestore _ | .pcmFifoRefilled _ => [.prog]
  | .mpxShaving _ | .momentaryLoudness _ | .silenceBegan _ | .decodeResumed _ | .pcmShaving _ => [.prog, .port, .out]
  | .measurementIntervalEnd _ | .scarfCorrelation _ | .drainDone _ => [.clk, .time, .prog, .mix, .port, .out]
  | .dabCif _ _ | .drmSuperframe _ _ => [.head, .prog, .gens, .port, .health, .compat, .out]
  | .receptionReconfigured _ => [.head, .prog, .gens, .port, .health, .out]
  | .programmeAbsentExpiry _ => [.clk, .time, .head, .front, .prog, .gens, .mix, .plan, .port, .health, .compat, .out, .fresh]
  | .transportUnit _ _ | .followerPortLost _ _ => [.prog, .mix, .port, .health, .out]
  | .motIdleExpiry _ _ => [.clk, .time, .prog, .port]
  | .pcmRoute _ | .followSet _ => [.head, .prog, .gens, .plan, .port, .bus, .out]
  | .tdmConfigApply _ => [.prog, .mix, .out]
  | .pcmUnderrun _ => [.prog, .out]
  | .followerPortResume _ _ => [.prog, .mix]
  | .blendSet _ => [.head, .gens, .mix, .plan, .port, .bus, .out]
  | .blendFade _ => [.head, .mix, .port, .bus, .out]
  | .gaugeMetric _ _ | .probeDwellEnd _ | .glanceEnd _ | .candidateExpiry _ _ _ =>
    [.clk, .time, .front, .prog, .mix, .port, .health, .compat, .out, .fresh]
  | .rejectionExpiry _ _ _ => [.clk, .time, .prog]
  | .fadeEnd _ | .fadeDeferExpiry _ => [.clk, .time, .prog, .mix, .port, .cal, .health, .compat, .out, .fresh]
  | .buildDone _ | .alignmentWaitExpiry _ => [.clk, .time, .mix, .port, .out]
  | .bankLoad _ | .curveLoad _ => [.head, .mix, .plan, .port, .bus, .out]
  | .calRun _ => [.head, .port, .bus, .cal, .out]
  | .supplyConfig _ => [.set, .store, .head, .port, .bus, .cal, .out]
  | .temperatureComparison _ => [.port, .cal]
  | .pendingRunStart _ => [.cal]
  | .elementStatisticsDone _ _ =>
    [.clk, .time, .head, .front, .prog, .mix, .plan, .port, .cal, .health, .compat, .out, .fresh]
  | .elementInterruptionEnd _ =>
    [.store, .clk, .time, .head, .front, .prog, .mix, .plan, .port, .cal, .health, .compat, .out, .fresh]
  | .calRetry _ => [.clk, .time, .cal]
  | .iqEstimate _ _ => [.head, .front, .port, .cal, .out]
  | .iqRampEnd _ | .alignmentStep _ _ => [.store, .clk, .time, .head, .port, .cal, .out]
  | .grainAssessment _ => [.store, .clk, .time, .port, .bus, .cal, .health, .out]
  | .avsRaise _ | .avsLower _ => [.clk, .time, .bus, .cal]
  | .clockPlanChange => [.clk, .time, .front, .prog, .mix, .port, .cal, .health, .compat, .out, .fresh]
  | .linkConfig _ | .linkStop _ => [.set, .store, .head, .port, .bus, .link, .stats, .health, .out]
  | .linkSend _ | .gatherConfig _ => [.store, .head, .port, .bus, .link, .out]
  | .linkStopped => [.set, .store, .clk, .time, .head, .front, .port, .link, .stats, .health, .out]
  | .gatherConfigApply => [.set, .clk, .time, .port, .link, .health, .out]
  | .beaconTransmit => [.set, .store, .clk, .time, .front, .port, .link, .stats, .health, .out]
  | .beaconWindowOpen => [.clk, .time, .port, .link, .out]
  | .beaconMissed => [.clk, .time, .port, .link, .stats, .out]
  | .searchWindow | .recentFrameExpiry | .downlinkWindowOpen => [.clk, .time, .link]
  | .frameQualified _ _ => [.link, .stats]
  | .headerCheck _ _ _ => [.link, .stats, .fresh]
  | .frameReceived _ _ _ => [.port, .link, .stats, .health, .out, .fresh]
  | .slotTransmit | .downlinkTransmit | .radioTransitionDone => [.clk, .time, .front, .port, .link, .stats, .health, .out]
  | .fallbackTransmit => [.clk, .time, .front, .port, .link, .stats, .sec, .health, .out, .fresh]
  | .transmitKill | .transmissionEnd => [.set, .store, .clk, .time, .front, .port, .link, .out]
  | .ring28EntryTaken => [.store, .port, .link, .stats, .out]
  | .keyInstall _ => [.store, .head, .port, .bus, .out]
  | .keyZeroise _ | .fwUpdateBegin _ => [.store, .head, .port, .bus, .sec, .out]
  | .fwUpdatePart _ => [.head, .port, .bus, .sec, .out]
  | .fwUpdateCommit _ => [.store, .head, .port, .bus, .sec, .out, .fresh]
  | .regionProfileInstall _ => [.set, .store, .head, .port, .bus, .link, .sec, .out]
  | .testUnlock _ => [.head, .port, .bus, .sec, .out, .fresh]
  | .entropyTestFailure => [.set, .store, .port, .link, .stats, .sec, .health, .out]
  | .drbgReseed => [.sec]
  | .controllerTransferEnd _ | .supplyWrite _ => [.head, .port, .bus, .health, .out]
  | .gpioConfig _ => [.set, .store, .head, .port, .bus, .link, .health, .out]
  | .getGpio _ => [.head, .port, .bus, .out, .fresh]
  | .planBegin _ | .planPart _ | .planDiscard _ => [.head, .plan, .port, .bus, .out]
  | .planCommit _ => [.store, .head, .front, .prog, .gens, .mix, .plan, .port, .bus, .cal, .health, .compat, .out, .fresh]
  | .ringPop _ _ _ | .ringPush _ _ _ _ | .bareRead _ | .hostRingFetchDone _ _ | .stagedEntryDma _ | .busMasterEnable =>
    [.port, .out]
  | .status _ => [.out, .fresh]
  | .regWrite _ _ _ _ | .intClear _ | .doorbell _ => [.set, .store, .port, .bus, .out]
  | .dtLoRead _ _ | .dtHiRead _ | .timeStatusRead _ => [.time, .out]
  | .headWrite _ _ _ | .tailWrite _ _ _ | .ringStatusClear _ _ | .fetchTimer _ | .ringDisableDrained _
  | .pcieLinkTrained _ _ => [.port]
  | .ringEnableWrite _ _ _ | .quotaWrite _ _ _ => [.set, .store, .port, .out]
  | .pcieRingsDisabled _ => [.set, .port]
  | .pcieRetrain _ _ => [.port, .health, .out]
  | .attentionMessage | .busFree => [.bus, .out]
  | .attentionRetry | .attentionRepeat | .busRecoveryRepeat _ => [.clk, .time, .bus, .out]
  | .supplyWriteRetry => [.clk, .time, .bus]
  | .busNotFreeTimeout => [.clk, .time, .head, .port, .bus, .out]
  | .watchdogExpiry => [.set, .store, .clk, .time, .head, .front, .plan, .port, .link, .out]
  | .headstockFault _ => [.head, .plan]
  | .firmwareRestarted => [.head, .plan, .port, .health, .out]
  | .restartDelayExpiry => [.clk, .time, .head, .plan]
  | .restartSpacingEnd => [.clk, .time, .head]
  | .engineProgressCheck _ _ =>
    [.set, .store, .clk, .time, .front, .prog, .mix, .port, .link, .stats, .health, .compat, .out, .fresh]
  | .contextSnapshot => [.clk, .time, .prog, .health]
  | .controlTune => [.set, .store, .front, .prog, .mix, .port, .health, .compat, .out, .fresh]
  | .updateKeyUpdate _ | .updateKeyZeroise _ =>
    [.set, .store, .clk, .time, .head, .front, .prog, .mix, .plan, .port, .bus, .sec, .cal, .health, .survey, .compat,
     .out, .fresh]
  | .chCtrlWrite _ _ => [.set, .store, .head, .front, .prog, .gens, .mix, .plan, .port, .health, .compat, .out, .fresh]
  | .irqFlagsWrite _ => [.compat]
  | .fifoLevelRead | .fifoDataRead => [.compat, .out]
  | .compatRegWrite _ _ =>
    [.set, .store, .clk, .time, .head, .front, .prog, .gens, .mix, .plan, .port, .bus, .link, .stats, .sec, .cal,
     .health, .survey, .compat, .out, .fresh]

end Sys2Proof.Machine
end

