-- ==== Sys2Proof/Certificates/Slice0/Obligations.lean ====
section
/-!
DEFINITION. Obligations.lean: the statements for the provers, each over every state and every operand that meet its hypotheses.
A clause of a statement is the effect of one command; `exec c s = .next t` in a conclusion says that the command completes.
-/

open Sys2Proof Sys2Proof.Machine

/-- Each of GET_IDENTITY, GET_PORT_DECLARE, GET_ALARM, ECHO and GET_TIME_CONFIG, once accepted, answers exactly the bytes that
its payload table gives and changes nothing else: only the command ring, the two-wire queue, the interrupt state and the
trace of the pins may differ. UNASSIGNED_OPCODE is answered MALFORMED with detail 1, and nothing else changes. Besides the
rules it rests on what the model chose or inferred: log 121. (R325, R355, R361, R363, R364, R365) -/
def Obligations.IdentityTimeAndPortsRead : Prop :=
  -- GET_IDENTITY (R361).
  (∀ (f : CmdFrame) (s : State), s.port.rings.length = 32 → Accepted 0x0100 f (getIdentityChecks f) s →
     Reads 0x0100 f (okReply f (identityBytes s)) s (exec (.getIdentity f) s)) ∧
  -- GET_PORT_DECLARE (R363).
  (∀ (f : CmdFrame) (s : State), s.port.rings.length = 32 → Accepted 0x0104 f (getPortDeclareChecks f) s →
     Reads 0x0104 f (okReply f (portBytes s.set.ports)) s (exec (.getPortDeclare f) s)) ∧
  -- GET_ALARM (the 8 bytes of the alarm, R364).
  (∀ (f : CmdFrame) (s : State), s.port.rings.length = 32 → Accepted 0x0106 f (getAlarmChecks f) s →
     Reads 0x0106 f (okReply f (leBytes 8 s.set.alarm)) s (exec (.getAlarm f) s)) ∧
  -- ECHO (the payload comes back, R355).
  (∀ (f : CmdFrame) (s : State), s.port.rings.length = 32 → Accepted 0x0107 f (echoChecks f) s →
     Reads 0x0107 f (okReply f f.payload) s (exec (.echo f) s)) ∧
  -- GET_TIME_CONFIG (R365).
  (∀ (f : CmdFrame) (s : State), s.port.rings.length = 32 → Accepted 0x0201 f (getTimeConfigChecks f) s →
     Reads 0x0201 f (okReply f (timeBytes s.set.time)) s (exec (.getTimeConfig f) s)) ∧
  -- UNASSIGNED_OPCODE: MALFORMED with detail 1, and nothing else changes (R325, R355).
  (∀ (op : Nat) (f : CmdFrame) (s : State), opcodeAssigned op = false → canTake s f = true → frameNext s op f = true → s.port.rings.length = 32 →
     ∃ t, exec (.unassignedOpcode op f) s = .next t ∧ ReadsOnly s t ∧
       Answered op f { status := 6, target := f.target, payload := failPayload { status := 6, detail := 1, off := 0xFFFF } } s t)

/-- Each of GET_WINDOW, GET_LNA_CONFIG, GET_RECEPTION, GET_CHAIN, GET_ALERT, GET_PROGRAMME, PROGRAMME_LIST, GET_SURVEY_CONFIG
and SURVEY_LIST, once accepted, answers exactly the bytes that its payload table gives and changes nothing else: only the
command ring, the two-wire queue, the interrupt state and the trace of the pins may differ. Besides the rules it rests on
what the model chose or inferred: log 131, 134. (R148, R176, R246, R251, R359, R369, R370, R372, R376) -/
def Obligations.FrontEndAndObjectsRead : Prop :=
  -- GET_WINDOW (R148).
  (∀ (f : CmdFrame) (s : State), s.port.rings.length = 32 → Accepted 0x0303 f (getWindowChecks f) s →
     Reads 0x0303 f (okReply f (windowPayload s f.target.index)) s (exec (.getWindow f) s)) ∧
  -- GET_LNA_CONFIG (R369).
  (∀ (f : CmdFrame) (s : State), s.port.rings.length = 32 → Accepted 0x0307 f (getLnaConfigChecks f) s →
     Reads 0x0307 f (okReply f (s.set.lna.flatMap lnaBytes)) s (exec (.getLnaConfig f) s)) ∧
  -- GET_RECEPTION (R372).
  (∀ (f : CmdFrame) (s : State) (r : Reception), s.port.rings.length = 32 → Accepted 0x0503 f (receptionChecks f (f.payload.length = 0) modesAll true) s → receptionAt s f.target.index = some r →
     Reads 0x0503 f (okReply f (receptionBytes r ++ leBytes 1 (rxCode r) ++ leBytes 1 r.chain.covered.toNat ++
       leBytes 2 (s.prog.programmes.filter (fun p => p.reception = r.idx)).length ++
       leBytes 1 (s.prog.branches.filter (fun b => b.reception = r.idx)).length ++ zeros 3)) s (exec (.getReception f) s)) ∧
  -- GET_CHAIN (R176).
  (∀ (f : CmdFrame) (s : State) (c : Chain), s.port.rings.length = 32 → Accepted 0x0508 f (getChainChecks f) s → chainOf s (askedOwner f) = some c →
     Reads 0x0508 f { target := f.target, clamped := 3 < field f.payload 0 1, payload := chainPayload s (askedOwner f) c } s (exec (.getChain f) s)) ∧
  -- GET_ALERT (R246).
  (∀ (f : CmdFrame) (s : State) (r : Reception), s.port.rings.length = 32 → Accepted 0x050A f (receptionChecks f (f.payload.length = 0) modesAll true) s → receptionAt s f.target.index = some r →
     Reads 0x050A f (okReply f (alertBytes r.alertCfg)) s (exec (.getAlert f) s)) ∧
  -- GET_PROGRAMME (R376).
  (∀ (f : CmdFrame) (s : State) (p : Programme), s.port.rings.length = 32 → Accepted 0x0602 f (getProgrammeChecks f) s → programmeAt s f.target.index = some p →
     Reads 0x0602 f (okReply f (programmePayload s p ++ leBytes 1 p.absentAt.isSome.toNat ++ leBytes 1 p.selected.toNat ++
       leBytes 1 p.measured.toNat ++ zeros 1 ++ leBytes 2 p.nextInterval ++ leBytes 2 p.silenceS ++
       leInt 1 p.threshold ++ leBytes 1 p.reserve.toNat ++ zeros 2)) s (exec (.getProgramme f) s)) ∧
  -- PROGRAMME_LIST (the programmes of the reception by rising index, R359).
  (∀ (f : CmdFrame) (s : State), s.port.rings.length = 32 → Accepted 0x0603 f (receptionChecks f (f.payload.length = 0) modesAll true) s →
     Reads 0x0603 f (okReply f (leBytes 2 (programmesOf s f.target.index).length ++ zeros 2 ++
       (programmesOf s f.target.index).flatMap (fun p => handleBytes (programmeHandle p)))) s (exec (.programmeList f) s)) ∧
  -- GET_SURVEY_CONFIG (R251).
  (∀ (f : CmdFrame) (s : State), s.port.rings.length = 32 → Accepted 0x0401 f (getSurveyConfigChecks f) s →
     Reads 0x0401 f (okReply f (surveyBytes s.set.survey)) s (exec (.getSurveyConfig f) s)) ∧
  -- SURVEY_LIST (R370).
  (∀ (f : CmdFrame) (s : State), s.port.rings.length = 32 → Accepted 0x0402 f (surveyListChecks f) s →
     Reads 0x0402 f {
       target := f.target, clamped := 2047 < field f.payload 0 2 || 63 < field f.payload 2 2
       payload := leBytes 2 s.survey.list.length ++ leBytes 2 (satNat 2047 (field f.payload 0 2)) ++
         leBytes 2 (surveyPage s f).length ++ zeros 2 ++ (surveyPage s f).flatMap (·.bytes) } s (exec (.surveyList f) s))

/-- Each of GET_BANK, GET_CURVE, GET_PCM, GET_TDM_CONFIG, GET_BIND, GET_PORT_LOAD, GET_FOLLOW, GET_PROBE and GET_BLEND, once
accepted, answers exactly the bytes that its payload table gives and changes nothing else: only the command ring, the two-
wire queue, the interrupt state and the trace of the pins may differ. Besides the rules it rests on what the model chose or
inferred: log 61. (R28, R157, R159, R274, R281, R282, R377, R378) -/
def Obligations.MixingObjectsRead : Prop :=
  -- GET_BANK (R157, R159).
  (∀ (f : CmdFrame) (s : State), s.port.rings.length = 32 → Accepted 0x0A01 f (bankChecks f 0 modesAll) s →
     Reads 0x0A01 f (okReply f (bankBytes s f.target.index)) s (exec (.getBank f) s)) ∧
  -- GET_CURVE (R282).
  (∀ (f : CmdFrame) (s : State), s.port.rings.length = 32 → Accepted 0x0A03 f (curveChecks f 0 modesAll) s →
     Reads 0x0A03 f (okReply f (zeros 4 ++ (curvePoints s f.target.index).flatMap (leBytes 2))) s (exec (.getCurve f) s)) ∧
  -- GET_PCM (R377).
  (∀ (f : CmdFrame) (s : State) (x : PcmOut), s.port.rings.length = 32 → Accepted 0x0702 f (getPcmChecks f) s → s.prog.pcms.find? (·.o.idx == f.target.index) = some x →
     Reads 0x0702 f (okReply f (pcmBytes x ++ leBytes 2 x.depth ++ zeros 2 ++ leBytes 4 x.underruns.toNat)) s (exec (.getPcm f) s)) ∧
  -- GET_TDM_CONFIG (R377).
  (∀ (f : CmdFrame) (s : State), s.port.rings.length = 32 → Accepted 0x0704 f (getTdmConfigChecks f) s →
     Reads 0x0704 f {
       target := f.target, clamped := 3 < field f.payload 0 1
       payload := tdmBytes (satNat 3 (field f.payload 0 1)) (tdmOf s (satNat 3 (field f.payload 0 1))) } s (exec (.getTdmConfig f) s)) ∧
  -- GET_BIND (R378).
  (∀ (f : CmdFrame) (s : State), s.port.rings.length = 32 → Accepted 0x0801 f (outputChecks f) s →
     Reads 0x0801 f (okReply f ((match boundRing s (field f.payload 0 1) (boundClass s (field f.payload 0 1) f.target)
         (boundHandle f (boundClass s (field f.payload 0 1) f.target)) with
       | some n => leBytes 1 n ++ zeros 3 ++ leBytes 4 (outputRate s (field f.payload 0 1) f.target.index
           (boundClass s (field f.payload 0 1) f.target))
       | none => leBytes 1 0xFF ++ zeros 7))) s (exec (.getBind f) s)) ∧
  -- GET_PORT_LOAD (the planned load and the budget of every port in kbit/s, R28).
  (∀ (f : CmdFrame) (s : State), s.port.rings.length = 32 → Accepted 0x0802 f (getPortLoadChecks f) s →
     Reads 0x0802 f (okReply f (([0, 1, 2] : List Nat).flatMap (fun p =>
       leBytes 4 (planned s p / 1000) ++ leBytes 4 (budget s p / 1000)))) s (exec (.getPortLoad f) s)) ∧
  -- GET_FOLLOW (R274).
  (∀ (f : CmdFrame) (s : State) (x : Follow), s.port.rings.length = 32 → Accepted 0x0902 f (getFollowChecks f) s → followAt s f.target.index = some x →
     Reads 0x0902 f (okReply f (handleBytes (followHandle x) ++ handleBytes (ownerHandle s (.reception x.current)) ++
       metricBytes x.currentMetric ++ leBytes 1 x.cands.length ++
       leBytes 1 ((x.cands.any (fun c => c.beatSince.isSome)).toNat + 2 * (s.set.mode == .serve && currentLost s x).toNat +
         4 * x.heldDecision.isSome.toNat) ++ leBytes 4 x.switches.toNat ++ x.cands.flatMap (candBytes s))) s (exec (.getFollow f) s)) ∧
  -- GET_PROBE (R274).
  (∀ (f : CmdFrame) (s : State) (p : Probe), s.port.rings.length = 32 → Accepted 0x0906 f (getProbeChecks f) s → probeAt s f.target.index = some p →
     Reads 0x0906 f (okReply f (candBytes s (probeEntry s p))) s (exec (.getProbe f) s)) ∧
  -- GET_BLEND (R281).
  (∀ (f : CmdFrame) (s : State) (b : Blend), s.port.rings.length = 32 → Accepted 0x090A f (getBlendChecks f) s → blendAt s f.target.index = some b →
     Reads 0x090A f (okReply f (blendBytes b ++ blendPayload { b with delay := lineNow s b, noAudio := !pairAudio s b })) s (exec (.getBlend f) s))

/-- Each of GET_CAL, GET_AGEING, GET_SUPPLY_CONFIG, GET_LINK_CONFIG, GET_GATHER_CONFIG, GET_LINK_STATS, GET_SECURITY and
GET_PLAN, once accepted, answers exactly the bytes that its payload table gives and changes nothing else: only the command
ring, the two-wire queue, the interrupt state and the trace of the pins may differ. Besides the rules it rests on what the
model chose or inferred: log 67, 90. (R383, R405, R440, R447, R477, R506, R525, R530, R531) -/
def Obligations.SupervisionRead : Prop :=
  -- GET_CAL (R525).
  (∀ (f : CmdFrame) (s : State), s.port.rings.length = 32 → Accepted 0x0B02 f (getCalChecks f) s →
     Reads 0x0B02 f (okReply f (leBytes 1 s.set.calStep ++ leBytes 1 (deltaT s) ++
       leBytes 1 (([0, 1, 2, 3, 4].map (fun a => if (adcAt s a).pending then 2 ^ a else 0)).sum) ++
       leBytes 1 (([0, 1, 2, 3, 4].find? (fun a => elementRun (adcAt s a))).getD 0xFF) ++
       leBytes 1 s.cal.fromFuses.toNat ++ zeros 3 ++ leBytes 4 s.cal.writes.toNat ++ zeros 4 ++
       [0, 1, 2, 3, 4].flatMap (adcEntry s))) s (exec (.getCal f) s)) ∧
  -- GET_AGEING (R531).
  (∀ (f : CmdFrame) (s : State), s.port.rings.length = 32 → Accepted 0x0B03 f (getAgeingChecks f) s →
     Reads 0x0B03 f (okReply f (ageingBytes s)) s (exec (.getAgeing f) s)) ∧
  -- GET_SUPPLY_CONFIG (R530).
  (∀ (f : CmdFrame) (s : State), s.port.rings.length = 32 → Accepted 0x0B05 f (getSupplyConfigChecks f) s →
     Reads 0x0B05 f (okReply f (supplyBytes s.set.supply)) s (exec (.getSupplyConfig f) s)) ∧
  -- GET_LINK_CONFIG (R405, R440).
  (∀ (f : CmdFrame) (s : State), s.port.rings.length = 32 → Accepted 0x0C01 f (getLinkConfigChecks f) s →
     Reads 0x0C01 f (okReply f (linkBytes (appliedLink s (chargedLink s)))) s (exec (.getLinkConfig f) s)) ∧
  -- GET_GATHER_CONFIG (R447).
  (∀ (f : CmdFrame) (s : State), s.port.rings.length = 32 → Accepted 0x0C05 f (getGatherConfigChecks f) s →
     Reads 0x0C05 f (okReply f (gatherBytes (s.link.gatherTo.getD s.set.gather))) s (exec (.getGatherConfig f) s)) ∧
  -- GET_LINK_STATS (R477).
  (∀ (f : CmdFrame) (s : State), s.port.rings.length = 32 → Accepted 0x0C06 f (getLinkStatsChecks f) s →
     Reads 0x0C06 f (okReply f (statsBytes s)) s (exec (.getLinkStats f) s)) ∧
  -- GET_SECURITY (R506).
  (∀ (f : CmdFrame) (s : State), s.port.rings.length = 32 → Accepted 0x0D07 f (getSecurityChecks f) s →
     Reads 0x0D07 f (okReply f (securityBytes s)) s (exec (.getSecurity f) s)) ∧
  -- GET_PLAN (R383).
  (∀ (f : CmdFrame) (s : State), s.port.rings.length = 32 → Accepted 0x0E04 f (getPlanChecks f) s →
     Reads 0x0E04 f {
       target := f.target, clamped := satNat (planData s).length (field f.payload 0 4 / 4 * 4) != field f.payload 0 4
       payload := leBytes 4 (planData s).length ++ leBytes 4 (satNat (planData s).length (field f.payload 0 4 / 4 * 4)) ++
         ((planData s).drop (satNat (planData s).length (field f.payload 0 4 / 4 * 4))).take 4072 } s (exec (.getPlan f) s))

/-- Each of these commands, once accepted, replaces exactly its own settings by the clamped fields of its payload, marks the
settings record for writing, answers OK with CLAMPED where a field was changed, and changes nothing else. An alarm earlier
than the next second becomes the next second; 0 disarms. (R50, R131, R251, R287, R364, R369, R381) -/
def Obligations.SettingsCommandsChangeOnlySettings : Prop :=
  -- ALARM_SET: 0 disarms, and an alarm earlier than the next second is set to it (R364).
  (∀ (f : CmdFrame) (s : State), s.port.rings.length = 32 → Accepted 0x0105 f (alarmSetChecks f) s →
     Sets 0x0105 f { target := f.target, clamped := alarmAsked s f != field f.payload 0 8 }
       { s.set with alarm := alarmAsked s f } s (exec (.alarmSet f) s)) ∧
  -- LNA_CONFIG: the four entries of its payload, each clamped (R131, R369).
  (∀ (f : CmdFrame) (s : State), s.port.rings.length = 32 → Accepted 0x0306 f (lnaConfigChecks f) s →
     Sets 0x0306 f { target := f.target, clamped := (lnaAsked f).flatMap lnaBytes != f.payload }
       { s.set with lna := lnaAsked f } s (exec (.lnaConfig f) s)) ∧
  -- SURVEY_CONFIG: the bands of its payload, each clamped (R251).
  (∀ (f : CmdFrame) (s : State), s.port.rings.length = 32 → Accepted 0x0400 f (surveyConfigChecks f) s →
     Sets 0x0400 f { target := f.target, clamped := surveyClamped f } { s.set with survey := readSurvey f.payload } s
       (exec (.surveyConfig f) s)) ∧
  -- TDM_CONFIG: one port's settings; they take effect at its next frame (R287).
  (∀ (f : CmdFrame) (s : State), s.port.rings.length = 32 → Accepted 0x0703 f (tdmConfigChecks f) s →
     Sets 0x0703 f
       { target := f.target, clamped := tdmBytes (satNat 3 (field f.payload 0 1)) (readTdm f.payload) != f.payload }
       { s.set with tdm := setAt s.set.tdm (satNat 3 (field f.payload 0 1)) (readTdm f.payload) } s (exec (.tdmConfig f) s)) ∧
  -- CAL_CONFIG: the temperature step, 2 to 20 (R381).
  (∀ (f : CmdFrame) (s : State), s.port.rings.length = 32 → Accepted 0x0B01 f (calConfigChecks f) s →
     Sets 0x0B01 f { target := f.target, clamped := clampNat 2 20 (field f.payload 0 1) != field f.payload 0 1 }
       { s.set with calStep := clampNat 2 20 (field f.payload 0 1) } s (exec (.calConfig f) s))

/-- Once accepted, PORT_DECLARE, TIME_CONFIG, SUPPLY_CONFIG and GPIO_CONFIG store their clamped settings and mark the record for
writing; GATHER_CONFIG holds its settings until the next superframe; TIME_SET waits for the next second with its response
deferred; GET_GPIO answers 100 bytes and draws the levels of undriven balls freely. Each says what it leaves alone. Besides
the rules it rests on what the model chose or inferred: log 69, 82. (R101, R363, R365, R366, R382, R447, R530, R581) -/
def Obligations.ConfigurationCommandsActOnTheirUnits : Prop :=
  -- PORT_DECLARE: the clamped declaration; only rings, notes and the record's timer change besides (R363).
  (∀ (f : CmdFrame) (s : State), s.port.rings.length = 32 → Accepted 0x0103 f (portDeclareChecks f) s →
     ∃ t, exec (.portDeclare f) s = .next t ∧
       AnsweredLast 0x0103 f { target := f.target, clamped := clampPorts (rawPorts f.payload) != rawPorts f.payload } t ∧
       t = { s with
         set := { s.set with ports := clampPorts (rawPorts f.payload) }
         store := { s.store with dirtyFirst := some (s.store.dirtyFirst.getD (now s)), dirtyLast := some (now s) }
         port := t.port, out := t.out, bus := t.bus, health := t.health, head := { s.head with blocked := t.head.blocked } }) ∧
  -- TIME_CONFIG: the clamped settings; the APLL freezes while it waits for a word clock (R365).
  (∀ (f : CmdFrame) (s : State), s.port.rings.length = 32 → Accepted 0x0200 f (timeConfigChecks f) s →
     ∃ t, exec (.timeConfig f) s = .next t ∧
       AnsweredLast 0x0200 f { target := f.target, clamped := clampTime (rawTime f.payload) != rawTime f.payload } t ∧
       t.set = { s.set with time := clampTime (rawTime f.payload) } ∧ t.store.dirtyLast = some (now s) ∧
       ((clampTime (rawTime f.payload)).apll ≠ s.set.time.apll →
         t.clk.apllFrozen = decide ((clampTime (rawTime f.payload)).apll = 1)) ∧
       t.prog = s.prog ∧ t.front = s.front ∧ t.mix = s.mix ∧ t.link = s.link ∧ t.plan = s.plan ∧ t.gens = s.gens) ∧
  -- TIME_SET: the second waits for the next second boundary, and the response with it (R366, R101).
  (∀ (f : CmdFrame) (s : State), Accepted 0x0202 f (timeSetChecks f) s →
     ∃ t, exec (.timeSet f) s = .next t ∧ t.time = { s.time with setTo := some (satNat 34359738367 (field f.payload 0 8)) } ∧
       t.head.deferred = s.head.deferred ++ [{ key := .timeSet, resp :=
         { deferredOf 0x0202 f false with clamped := decide (34359738367 < field f.payload 0 8) } }] ∧
       t = { s with
         time := t.time, head := { s.head with deferred := t.head.deferred, blocked := t.head.blocked }, port := t.port, out := t.out, bus := t.bus }) ∧
  -- SUPPLY_CONFIG: the clamped settings; a two-wire supply's target stays between floor and ceiling (R530).
  (∀ (f : CmdFrame) (s : State), s.port.rings.length = 32 → Accepted 0x0B04 f (supplyConfigChecks f) s →
     ∃ t, exec (.supplyConfig f) s = .next t ∧
       AnsweredLast 0x0B04 f
         { target := f.target, clamped := (supplyBytes (readSupply f.payload)).take 8 != f.payload.take 8 } t ∧
       t.set = { s.set with supply := readSupply f.payload } ∧ t.store.dirtyLast = some (now s) ∧
       t = { s with
         set := t.set, store := t.store, cal := { s.cal with vdd := t.cal.vdd }, port := t.port, out := t.out, bus := t.bus
         head := { s.head with blocked := t.head.blocked } } ∧
       ((readSupply f.payload).output ≠ 1 → t.cal = s.cal)) ∧
  -- GPIO_CONFIG: the clamped entry of one ball, but GPIO4 in use as the front end's control during a frame waits (R382,
  -- R581).
  (∀ (f : CmdFrame) (s : State), s.port.rings.length = 32 → Accepted 0x0F01 f (gpioConfigChecks f) s →
     ∃ t, exec (.gpioConfig f) s = .next t ∧
       AnsweredLast 0x0F01 f { target := f.target, clamped := gpioClamped f } t ∧
       (if gpioWaits s f then t.set = s.set ∧ t.link = { s.link with gpio4 := some (readGpio f.payload).2 }
        else t.set = { s.set with gpio := setAt s.set.gpio (readGpio f.payload).1 (readGpio f.payload).2 } ∧
          t.store.dirtyLast = some (now s)) ∧
       t = { s with
         set := t.set, store := t.store, link := t.link, port := t.port, out := t.out, bus := t.bus, health := t.health
         head := { s.head with blocked := t.head.blocked } }) ∧
  -- GET_GPIO: 4 bytes of levels and 24 entries; a level nothing drives is a free value (R382).
  (∀ (f : CmdFrame) (s : State), s.port.rings.length = 32 → Accepted 0x0F02 f (getGpioChecks f) s →
     ∃ t, exec (.getGpio f) s = .next t ∧ AnsweredLast 0x0F02 f (okReply f (gpioBytes s)) t ∧
       t = { s with fresh := s.fresh + 24, port := t.port, out := t.out, bus := t.bus, head := { s.head with blocked := t.head.blocked } } ∧
       (gpioBytes s).length = 100) ∧
  -- GATHER_CONFIG: kept until the next superframe boundary (R447).
  (∀ (f : CmdFrame) (s : State), s.port.rings.length = 32 → Accepted 0x0C04 f (gatherConfigChecks f) s →
     ∃ t, exec (.gatherConfig f) s = .next t ∧
       AnsweredLast 0x0C04 f
         { target := f.target, clamped := clampGather (rawGather f.payload) != rawGather f.payload } t ∧
       t = { s with
         link := { s.link with gatherTo := some (clampGather (rawGather f.payload)) }
         store := { s.store with dirtyFirst := some (s.store.dirtyFirst.getD (now s)), dirtyLast := some (now s) }
         port := t.port, out := t.out, bus := t.bus, head := { s.head with blocked := t.head.blocked } })

/-- LINK_SEND takes the next frame counter, appends the frame to the transmit queue and answers the counter. LINK_STOP of a
running link empties the queue, abandons receptions and leaves the link stopping; of a stopped one it answers OK and changes
nothing. LINK_CONFIG stores its clamped settings, or, where the identity of a running link changes, keeps them until the
link has stopped. Besides the rules it rests on what the model chose or inferred: log 76, 113. (R336, R405, R406, R433,
R462) -/
def Obligations.LinkCommandsQueueStopAndConfigure : Prop :=
  -- LINK_SEND: the frame joins the queue with the next counter, which the response carries (R462).
  (∀ (f : CmdFrame) (s : State), s.port.rings.length = 32 → Accepted 0x0C02 f (linkSendChecks f) s →
     ∃ t, exec (.linkSend f) s = .next t ∧
       AnsweredLast 0x0C02 f
         { target := f.target
           clamped := s.set.link.role = 2 && clampNat 1 262143 (field f.payload 0 4) != field f.payload 0 4
           payload := leBytes 4 s.link.counter } t ∧
       t.link.queue = s.link.queue ++ [{ counter := s.link.counter, payload := f.payload.drop 8
                                         dest := if s.set.link.role = 2 then clampNat 1 262143 (field f.payload 0 4) else 0 }] ∧
       t.link.counter = min (s.link.counter + 1) 0xFFFFFFFF ∧
       t = { s with link := t.link, store := t.store, port := t.port, out := t.out, bus := t.bus, head := { s.head with blocked := t.head.blocked } }) ∧
  -- LINK_STOP of a link that runs: queued frames and receptions go, and the stop waits for LINK_STOPPED (R433).
  (∀ (f : CmdFrame) (s : State), s.port.rings.length = 32 → Accepted 0x0C03 f (linkStopChecks f) s →
     s.link.stopped = false → s.link.stopping = false → s.link.air.isSome →
     ∃ t, exec (.linkStop f) s = .next t ∧ AnsweredLast 0x0C03 f (okReply f []) t ∧
       t.link = { s.link with stopped := true, stopping := true, rx := [], heldTx := none, queue := [] } ∧
       t.set = s.set ∧ t.store = s.store ∧ t.prog = s.prog ∧ t.front = s.front ∧ t.plan = s.plan ∧ t.time = s.time) ∧
  -- LINK_STOP of a link that is stopped or stopping: OK, with no further effect (R336, R433).
  (∀ (f : CmdFrame) (s : State), s.port.rings.length = 32 → Accepted 0x0C03 f (linkStopChecks f) s →
     (s.link.stopped || s.link.stopping) = true → Reads 0x0C03 f (okReply f []) s (exec (.linkStop f) s)) ∧
  -- LINK_CONFIG without a change of identity: the settings are in force at once (R405, R406).
  (∀ (f : CmdFrame) (s : State), s.port.rings.length = 32 → Accepted 0x0C00 f (linkConfigChecks f) s →
     identityChange s.set.link (clampLink s (rawLink f.payload)) = false →
     ∃ t, exec (.linkConfig f) s = .next t ∧
       AnsweredLast 0x0C00 f
         { target := f.target, clamped := appliedLink s (clampLink s (rawLink f.payload)) != rawLink f.payload } t ∧
       t.set = { s.set with link := clampLink s (rawLink f.payload) } ∧ t.store.dirtyLast = some (now s) ∧
       (s.set.link.role = (clampLink s (rawLink f.payload)).role → t.stats.c = s.stats.c) ∧
       t.prog = s.prog ∧ t.front = s.front ∧ t.plan = s.plan ∧ t.sec = s.sec ∧ t.time = s.time) ∧
  -- LINK_CONFIG that changes the identity of a link on air: the link stops first, and the response waits (R406).
  (∀ (f : CmdFrame) (s : State), Accepted 0x0C00 f (linkConfigChecks f) s →
     identityChange s.set.link (clampLink s (rawLink f.payload)) = true → s.set.link.role ≠ 0 → s.link.stopped = false →
     s.link.air.isSome →
     ∃ t, exec (.linkConfig f) s = .next t ∧ t.set = s.set ∧
       t.link = { s.link with newConfig := some (clampLink s (rawLink f.payload)), stopping := true, rx := [], heldTx := none, queue := [] } ∧
       t.head.deferred = s.head.deferred ++ [{ key := .linkStop, resp := { deferredOf 0x0C00 f false with
         clamped := appliedLink s (clampLink s (rawLink f.payload)) != rawLink f.payload } }])

/-- When a slotted, downlink or held transmission is due and every check passes, the frame is on air from then on for its
airtime, the radio transmits and receptions are abandoned. TRANSMISSION_END and TRANSMIT_KILL leave nothing on air and set
the end of the AGC freeze 50 us later. RADIO_TRANSITION_DONE lets the radio reach its state when its time has come.
LINK_STOPPED turns a stopping link OFF. Besides the rules it rests on what the model chose or inferred: log 35, 74, 80, 118,
148. (R145, R429, R431, R432, R433, R434, R456, R457, R466, R467, R470, R547) -/
def Obligations.LinkTransmissionsEnterAndLeaveTheAir : Prop :=
  -- SLOT_TRANSMIT of a frame that passes every check (R456 to R458, R432, R457).
  (∀ (s : State) (at' : Int) (sfn : Nat) (fr : TxFrame) (ch : LinkChannel) (p : Profile) (c w sub : Nat),
     s.set.link.role = 1 → s.link.state = .synced → mayTransmit s = true →
     (planSlot s (superStart (linkNet s) (linkTime s))).or
       (planSlot s (superStart (linkNet s) (linkTime s) + (superTicks (linkNet s) : Int))) = some (at', sfn, fr, ch) →
     radioReady (scheduled fr sfn (reach at' s)) = true →
     MaySend (uplinkAsk (scheduled fr sfn (reach at' s)) fr sfn none ch) fr p c w sub (scheduled fr sfn (reach at' s)) →
     ∃ t, exec .slotTransmit s = .next t ∧ t.clk = (reach at' s).clk ∧ t.time = (reach at' s).time ∧
       t.link.slotSfn = some sfn ∧ t.link.radio = .tx ∧ t.link.rx = [] ∧
       t.link.air = some { frame := some fr.counter, started := now t, last := false, channel := c
                           airtime := askTicks { uplinkAsk (scheduled fr sfn (reach at' s)) fr sfn none ch with centre := c, width := w } }) ∧
  -- SLOT_TRANSMIT with nothing to send changes nothing (R456).
  (∀ (s : State), s.set.link.role = 1 → s.link.state = .synced → mayTransmit s = true → s.link.queue = [] →
     exec .slotTransmit s = .next s) ∧
  -- DOWNLINK_TRANSMIT of a frame that passes every check (R466, R432).
  (∀ (s : State) (at' : Int) (fr : TxFrame) (p : Profile) (c w sub : Nat),
     s.set.link.role = 2 → s.link.state = .gathering → mayTransmit s = true → radioReady s = true →
     (planDownlink s (superStart (linkNet s) (linkTime s))).or
       (planDownlink s (superStart (linkNet s) (linkTime s) + (superTicks (linkNet s) : Int))) = some (at', fr) →
     MaySend (downlinkAsk (copied fr (reach at' s)) fr (sfnAt (linkNet s) (linkTime (reach at' s))))
       { fr with repeats := copyNumber fr } p c w sub (copied fr (reach at' s)) →
     ∃ t, exec .downlinkTransmit s = .next t ∧ t.clk = (reach at' s).clk ∧ t.time = (reach at' s).time ∧
       t.link.radio = .tx ∧ t.link.rx = [] ∧
       t.link.air = some { frame := some fr.counter, started := now t, channel := c
                           last := decide (s.set.link.repeats ≤ copyNumber fr)
                           airtime := askTicks { downlinkAsk (copied fr (reach at' s)) fr (sfnAt (linkNet s) (linkTime (reach at' s))) with
                             centre := c, width := w } }) ∧
  -- TRANSMISSION_END (R145, R430).
  (∀ (s : State) (x : OnAir), s.link.air = some x →
     ∃ t, exec .transmissionEnd s = .next t ∧ t.link.air = none ∧ now t = max (now s) (x.started + x.airtime) ∧
       t.front = { s.front with txUntil := some (max (now s) (x.started + x.airtime) + usTicks 50) }) ∧
  -- TRANSMIT_KILL: 10 ms past the airtime, or at once while the Headstock restarts, the PA is off within 50 us (R434,
  -- R547).
  (∀ (s : State) (x : OnAir), s.link.air = some x →
     ∃ t, exec .transmitKill s = .next t ∧ t.link.air = none ∧
       now t = (if s.head.restarting || s.head.delayed then now s + usTicks 50
         else max (now s) (x.started + x.airtime + ms 10 + usTicks 50))) ∧
  -- RADIO_TRANSITION_DONE with no transmission held: the radio is where it went (R429, R430).
  (∀ (s : State) (r : Radio), s.link.radioTo = some r → s.link.heldTx = none →
     ∃ t, exec .radioTransitionDone s = .next t ∧ t.link = { s.link with radio := r, radioTo := none } ∧
       now t = max (now s) s.link.radioAt ∧ t = { s with link := t.link, clk := t.clk, time := t.time }) ∧
  -- LINK_STOPPED of a link with nothing on air and no settings waiting, behind which no command is held (R406, R433).
  (∀ (s : State), s.link.stopping = true → s.link.air = none → s.link.newConfig = none → s.head.held = [] →
     ∃ t, exec .linkStopped s = .next t ∧
       t.link = { s.link with state := .off, stopping := false, radio := .sleep, radioTo := none, rx := [], heldTx := none } ∧
       now t = now s + usTicks 10 ∧ t.head.deferred = s.head.deferred.filter (fun x => x.key != .linkStop) ∧
       t.set = s.set ∧ t.store = s.store)

/-- BEACON_TRANSMIT of a gatherer at the start of a superframe, whose checks pass, puts the beacon on air with the next counter.
FALLBACK_TRANSMIT schedules the frame that a LOST node chooses in one hop slot of its superframe. The windows of a node open
at their times and last to their ends; a missed beacon is counted. A detector takes a candidate under the capture rules,
HEADER_CHECK keeps or drops it, and FRAME_RECEIVED frees the detector: a body whose CRC fails is an error, and a new, fresh
frame that opens is counted and entered in the table of recent frames, an uplink acknowledged by the gatherer. A waiting
gather configuration takes effect at the next boundary, old entries leave the recent-frames table, ring 28 yields its front
entry, of which a frame to send joins the transmit queue, and VDD_PA allows or stops transmissions. Besides the rules it
rests on what the model chose or inferred: log 6, 78, 79, 81, 83, 137. (R422, R424, R425, R448, R450, R455, R459, R460,
R466, R468, R472, R477) -/
def Obligations.LinkKeepsItsScheduleAndHearsFrames : Prop :=
  -- BEACON_TRANSMIT at T0, every check passing (R448, R450, R437, R467).
  (∀ (s : State) (p : Profile) (c w sub : Nat),
     s.set.link.role = 2 → s.link.state = .gathering → mayTransmit s = true → s.link.gatherTo = none →
     superStart (linkNet s) (linkTime s) = linkTime s → s.link.beaconSfn ≠ some (sfnAt (linkNet s) (linkTime s)) →
     radioReady (beaconTaken s) = true →
     MaySend (beaconNow s) { counter := s.link.counter } p c w sub (beaconTaken s) →
     ∃ t, exec .beaconTransmit s = .next t ∧ t.clk = s.clk ∧ t.time = s.time ∧
       t.link.radio = .tx ∧ t.link.rx = [] ∧
       t.link.air = some { frame := none, started := now s, last := false, channel := c
                           airtime := askTicks { beaconNow s with centre := c, width := w } }) ∧
  -- BEACON_WINDOW_OPEN with a guard of at most 500 ms: it listens from T0 less the guard to T0 plus it and ten symbols
  -- (R454).
  (∀ (s : State) (t0 : Int) (g : Nat), s.set.link.role = 1 → s.link.state = .synced → linkRuns s = true →
     t0 = (if s.link.beaconSfn = some (sfnAt (linkNet s) (nextBoundary s)) then nextBoundary s + (superTicks (linkNet s) : Int)
       else nextBoundary s) →
     g = guardAt s (t0 - s.link.offset.getD 0) → g ≤ ms 500 →
     ∃ t, exec .beaconWindowOpen s = .next t ∧ now t = now s + (t0 - (g : Int) - linkTime s).toNat ∧
       t.link.beaconSfn = some (sfnAt (linkNet s) t0) ∧ t.link.listenTo = now t + (t0 + (g + tenSymbols : Nat) - linkTime t).toNat) ∧
  -- BEACON_WINDOW_OPEN with a guard of more than 500 ms: the node is LOST (R454).
  (∀ (s : State) (t0 : Int), s.set.link.role = 1 → s.link.state = .synced → linkRuns s = true →
     t0 = (if s.link.beaconSfn = some (sfnAt (linkNet s) (nextBoundary s)) then nextBoundary s + (superTicks (linkNet s) : Int)
       else nextBoundary s) →
     ms 500 < guardAt s (t0 - s.link.offset.getD 0) →
     ∃ t, exec .beaconWindowOpen s = .next t ∧ t.link.state = .lost ∧ t.link.window = 1 ∧ t.link.beaconSfn = none) ∧
  -- BEACON_MISSED: the window ends and the beacon is counted as missed (R454, R477).
  (∀ (s : State) (n : Nat), s.link.beaconSfn = some n → s.set.link.role = 1 → s.link.state = .synced → linkRuns s = true →
     s.link.rx = [] → s.link.queue = [] →
     ∃ t, exec .beaconMissed s = .next t ∧ t.link.beaconSfn = none ∧ t.link.state = .synced ∧
       t.stats.c = modAt s.stats.c 19 (· + 1) ∧ now t = max (now s) (s.link.listenTo + 1)) ∧
  -- SEARCH_WINDOW: a LOST node listens about its estimate of T0, for a window doubled after each search in vain (R455).
  (∀ (s : State) (t0 : Int) (w : Nat), s.set.link.role = 1 → s.link.state = .lost → linkRuns s = true →
     t0 = (if s.link.beaconSfn = some (sfnAt (linkNet s) (nextBoundary s)) then nextBoundary s + (superTicks (linkNet s) : Int)
       else nextBoundary s) →
     w = (if s.link.beaconSfn.isSome then min (2 * s.link.window) (2 ^ (linkNet s).p) else s.link.window) →
     ∃ t, exec .searchWindow s = .next t ∧ t.link.window = w ∧ t.link.beaconSfn = some (sfnAt (linkNet s) t0) ∧
       now t = now s + (t0 - (w * ticksPerSecond / 2 : Nat) - linkTime s).toNat ∧
       t.link.listenTo = now t + (t0 + (w * ticksPerSecond / 2 : Nat) - linkTime t).toNat) ∧
  -- DOWNLINK_WINDOW_OPEN: a SYNCED node listens from the downlink window's start to the slot region (R408, R466).
  (∀ (s : State) (r : Int), s.set.link.role = 1 → s.link.state = .synced → linkRuns s = true → 0 < (linkNet s).downMs →
     linkTime s < superStart (linkNet s) (linkTime s) + (ms (linkNet s).startMs : Nat) →
     r = superStart (linkNet s) (linkTime s) + (ms (linkNet s).startMs : Nat) →
     ∃ t, exec .downlinkWindowOpen s = .next t ∧ now t = now s + (r - (ms (linkNet s).downMs : Nat) - linkTime s).toNat ∧
       t.link.listenTo = now t + (r - linkTime t).toNat) ∧
  -- FALLBACK_TRANSMIT: the frame a LOST node chooses is scheduled in its superframe, in a hop slot (R459, R460, R465).
  (∀ (s u : State) (fr : TxFrame) (start : Int), s.set.link.role = 1 → s.link.state = .lost → mayTransmit s = true →
     s.link.queue ≠ [] → start = fallbackStart s →
     pickFallback (sfnAt (linkNet s) start) (s.link.queue.length + 1) s = (some fr, u) →
     ∃ t, exec .fallbackTransmit s = .next t ∧ t.link.slotSfn = some (sfnAt (linkNet s) start) ∧
       ∃ off, off ≤ ticksPerSecond ∧ now t = now s + (start + off - linkTime s).toNat) ∧
  -- FRAME_QUALIFIED on a free detector: it takes the candidate (R422).
  (∀ (s : State) (lane : Nat) (c : LinkCand), lane < 8 → receives s = true → detects s lane c.sl = true → qualifies s lane c = true →
     rxAt s lane c.sl = none →
     exec (.frameQualified lane c) s = .next { s with link := { s.link with rx := s.link.rx ++
       [{ lane := lane, sl := c.sl, sync := instantAt s (syncStamp s c), offsetHz := c.offsetHz }] } }) ∧
  -- FRAME_QUALIFIED under a frame with a header: a candidate that does not exceed it by the capture margin is ignored
  -- (R425, R422).
  (∀ (s : State) (lane : Nat) (c : LinkCand) (x : RxFrame), lane < 8 → receives s = true → detects s lane c.sl = true →
     qualifies s lane c = true → rxAt s lane c.sl = some x → x.header.isSome →
     meanStrength ((qualifying s c).getD []) < meanStrength c.current + 10 * (s.set.link.capture : Int) →
     exec (.frameQualified lane c) s = .next s) ∧
  -- FRAME_QUALIFIED before the header: the new candidate replaces the old one, which is counted (R425, R477, R422).
  (∀ (s : State) (lane : Nat) (c : LinkCand) (x : RxFrame), lane < 8 → receives s = true → detects s lane c.sl = true →
     qualifies s lane c = true → rxAt s lane c.sl = some x → x.header = none →
     ∃ t, exec (.frameQualified lane c) s = .next t ∧
       rxAt t lane c.sl = some { lane := lane, sl := c.sl, sync := instantAt s (syncStamp s c), offsetHz := c.offsetHz } ∧
       t.stats.c = modAt s.stats.c 3 (· + 1)) ∧
  -- HEADER_CHECK of a header that fails its check: the detector is free again and the error counted (R424, R477).
  (∀ (s : State) (lane sl : Nat) (bits : List Bool) (x : RxFrame), lane < 8 → rxAt s lane sl = some x → x.header = none →
     headerOk (decodeHeader sl bits s).1 = false →
     ∃ t, exec (.headerCheck lane sl bits) s = .next t ∧ rxAt t lane sl = none ∧ t.stats.c = modAt s.stats.c 1 (· + 1)) ∧
  -- HEADER_CHECK of a good header: it is kept, and protects a downlink at a node (R414, R426, R424).
  (∀ (s : State) (lane sl : Nat) (bits : List Bool) (x : RxFrame), lane < 8 → rxAt s lane sl = some x → x.header = none →
     headerOk (decodeHeader sl bits s).1 = true →
     ∃ t, exec (.headerCheck lane sl bits) s = .next t ∧ rxAt t lane sl = some { x with
       header := some (decodeHeader sl bits s).1
       guarded := s.set.link.role == 1 && (headerFields (decodeHeader sl bits s).1).downlink }) ∧
  -- FRAME_RECEIVED of a body whose CRC fails: the detector is free and the error counted (R424, R477).
  (∀ (s : State) (lane sl : Nat) (m : LinkRx) (x : RxFrame) (h : BitVec 24), lane < 8 → rxAt s lane sl = some x → x.header = some h →
     bodyCrcOk (decodeBody sl (headerFields h).rate (bodyLength (payloadLength (headerFields h)) (headerFields h).fallback) m.bits
       (freeRx lane sl s)).1 = false →
     ∃ t, exec (.frameReceived lane sl m) s = .next t ∧ rxAt t lane sl = none ∧ t.stats.c = modAt s.stats.c 2 (· + 1)) ∧
  -- FRAME_RECEIVED of a gatherer: an uplink of its network that is fresh, opens and was not seen before is entered in the table of recent
  -- frames, acknowledged and counted (R424, R471, R472, R473, R477).
  (∀ (s : State) (lane sl : Nat) (m : LinkRx) (x : RxFrame) (hw : BitVec 24) (h : HeaderBits) (body p : List Byte) (b : BodyBits), lane < 8 →
     s.set.link.role = 2 → rxAt s lane sl = some x → x.header = some hw → h = headerFields hw →
     body = (decodeBody sl h.rate (bodyLength (payloadLength h) h.fallback) m.bits (freeRx lane sl s)).1 → bodyCrcOk body = true →
     b = bodyFields h.fallback body → bodyMalformed h b = false → h.downlink = false → b.net = s.set.link.net → 1 ≤ b.node → b.node ≤ 250000 →
     fresh s (syncNow s x) b = true → (linkKey s).isEmpty = false → openBody (linkKey s) b.node hw b body = some p →
     seenRecent s b.node b.counter = false → s.link.recent.length < 65536 →
     ∃ t, exec (.frameReceived lane sl m) s = .next t ∧ rxAt t lane sl = none ∧
       t.stats.c = modAt (modAt s.stats.c 0 (· + 1)) 11 (· + 1) ∧
       t.link.recent = s.link.recent ++ [(b.node, b.counter, sfnAt (linkNet s) (gatherTime s (syncNow s x).toNat))] ∧
       t.link.tags = s.link.tags ++ [(64 * b.node + b.counter % 64, (syncNow s x).toNat, 0)] ∧
       t.link.queue = s.link.queue ∧ t.set = s.set) ∧
  -- FRAME_RECEIVED of a node: a downlink to one of its addresses that is fresh, opens and was not seen before (R424, R472, R475, R477).
  (∀ (s : State) (lane sl g : Nat) (m : LinkRx) (x : RxFrame) (hw : BitVec 24) (h : HeaderBits) (body p : List Byte) (b : BodyBits), lane < 8 →
     s.set.link.role = 1 → rxAt s lane sl = some x → x.header = some hw → h = headerFields hw →
     body = (decodeBody sl h.rate (bodyLength (payloadLength h) h.fallback) m.bits (freeRx lane sl s)).1 → bodyCrcOk body = true →
     b = bodyFields h.fallback body → bodyMalformed h b = false → b.kind = 3 → b.net = s.set.link.net →
     (nodeAddresses s).contains b.node = true → fresh s (syncNow s x) b = true → (linkKey s).isEmpty = false → g = s.link.gatherer.getD 0 →
     openBody (linkKey s) g hw b body = some p → seenRecent s g b.counter = false → s.link.recent.length < 65536 →
     ∃ t, exec (.frameReceived lane sl m) s = .next t ∧ rxAt t lane sl = none ∧
       t.stats.c = modAt (modAt s.stats.c 0 (· + 1)) 11 (· + 1) ∧
       t.link.recent = s.link.recent ++ [(g, b.counter, sfnAt (linkNet s) (gatherTime s (syncNow s x).toNat))] ∧
       t.link.tags = s.link.tags ∧ t.link.queue = s.link.queue ∧ t.set = s.set) ∧
  -- GATHER_CONFIG_APPLY: the waiting configuration takes effect at the next superframe boundary (R447).
  (∀ (s : State) (c : GatherConfig), s.link.gatherTo = some c →
     ∃ t, exec .gatherConfigApply s = .next t ∧ t.set = { s.set with gather := c } ∧ t.link = { s.link with gatherTo := none } ∧
       now t = now s + (nextBoundary s - linkTime s).toNat ∧ t.front = s.front ∧ t.prog = s.prog ∧ t.plan = s.plan) ∧
  -- RECENT_FRAME_EXPIRY: exactly the entries younger than W + 9 superframes stay (R472).
  (∀ (s : State), s.link.recent ≠ [] →
     ∃ t, exec .recentFrameExpiry s = .next t ∧
       t.link = { s.link with
         recent := s.link.recent.filter (fun x => decide (sfnDiff (sfnAt (linkNet s) (linkTime t)) x.2.2 < (linkNet s).w + 9)) } ∧
       t.set = s.set ∧ t.stats = s.stats ∧ t.front = s.front ∧ t.port = s.port) ∧
  -- RING28_ENTRY_TAKEN of an entry that is no frame to send: it leaves the ring and is counted (R468, R477).
  (∀ (s : State) (e : Entry) (l : List Entry), (ringAt s 28).entries = e :: l → 28 < s.port.rings.length →
     s.pwr.commands = true → s.pwr.stage ≠ .recovery → s.head.restarting = false → s.set.mode ≠ .hold → s.set.mode ≠ .compat →
     s.clk.sysPll = .locked → s.link.queue.length < 64 → hostFrameOk e.bytes = false →
     ∃ t, exec .ring28EntryTaken s = .next t ∧ (ringAt t 28).entries = l ∧ t.stats.c = modAt s.stats.c 21 (· + 1) ∧ t.link = s.link) ∧
  -- RING28_ENTRY_TAKEN of a frame to send: it leaves the ring and joins the transmit queue with the next counter (R462, R468).
  (∀ (s : State) (e : Entry) (l : List Entry), (ringAt s 28).entries = e :: l → 28 < s.port.rings.length →
     s.pwr.commands = true → s.pwr.stage ≠ .recovery → s.head.restarting = false → s.set.mode ≠ .hold → s.set.mode ≠ .compat →
     s.clk.sysPll = .locked → s.set.link.role ≠ 0 → s.link.queue.length < 64 → hostFrameOk e.bytes = true →
     ∃ t, exec .ring28EntryTaken s = .next t ∧ (ringAt t 28).entries = l ∧ t.link.counter = min (s.link.counter + 1) 0xFFFFFFFF ∧
       t.link.queue = s.link.queue ++ [{ counter := s.link.counter, payload := (e.bytes.drop 72).take (field e.bytes 68 2)
                                         dest := if s.set.link.role = 2 then clampNat 1 262143 (field e.bytes 36 4) else 0 }] ∧
       t.stats = s.stats ∧ t.set = s.set) ∧
  -- VDD_PA_LOW: the supply is not good, and nothing stays on air (R84).
  (∀ (s : State), s.pwr.railsGood.contains .vddPa = true →
     ∃ t, exec .vddPaLow s = .next t ∧ t.link.air = none ∧
       t.pwr = { s.pwr with railsGood := s.pwr.railsGood.filter (· != .vddPa) } ∧ mayTransmit t = false) ∧
  -- VDD_PA_GOOD: the supply is good again, and nothing else changes (R84).
  (∀ (s : State), s.pwr.railsGood.contains .vddPa = false →
     exec .vddPaGood s = .next { s with pwr := { s.pwr with railsGood := s.pwr.railsGood ++ [.vddPa] } })

/-- Through a live host port a read of DT_LO latches the other two time words, which each answer once; whole-word writes store
INT_MASK, clear INT_STATUS bits and start fetches; HEAD and TAIL take a legal pointer and mark an illegal one; POLICY, QUOTA
and STATUS of a descriptor are written as their fields say. Each changes nothing else. Besides the rules it rests on what
the model chose or inferred: log 39, 41. (R102, R301, R303, R304, R305, R311, R319, R320, R321, R322) -/
def Obligations.RegisterAccessThroughAPort : Prop :=
  -- DT_LO: the low word, and shadows of the high word and TIME_STATUS (R102).
  (∀ (s : State) (p : Nat), p < 3 → portLive s p = true →
     exec (.dtLoRead p false) s = .next { s with
       time := { s.time with shadows := modAt s.time.shadows p (fun _ => { hi := some (readReg s 0x24), status := some (timeStatusWord s) }) }
       out := s.out ++ [.reg p 0x20 (s.time.count.setWidth 32)] }) ∧
  -- DT_LO and DT_HI in one 64-bit PCIe read (R102).
  (∀ (s : State), portLive s 0 = true →
     exec (.dtLoRead 0 true) s = .next { s with
       time := { s.time with shadows := modAt s.time.shadows 0 (fun _ => { hi := none, status := some (timeStatusWord s) }) }
       out := s.out ++ [.regs64 0 (s.time.count.setWidth 32) ((s.time.count >>> 32).setWidth 32)] }) ∧
  -- DT_HI: the shadow once, else the live word (R102).
  (∀ (s : State) (p : Nat), p < 3 → portLive s p = true →
     exec (.dtHiRead p) s = .next { s with
       time := { s.time with shadows := modAt s.time.shadows p (fun x => { x with hi := none }) }
       out := s.out ++ [.reg p 0x24 ((shadowOf s p).hi.getD ((s.time.count >>> 32).setWidth 32))] }) ∧
  -- TIME_STATUS: the shadow once, else the live word (R102).
  (∀ (s : State) (p : Nat), p < 3 → portLive s p = true →
     exec (.timeStatusRead p) s = .next { s with
       time := { s.time with shadows := modAt s.time.shadows p (fun x => { x with status := none }) }
       out := s.out ++ [.reg p 0x28 ((shadowOf s p).status.getD (timeStatusWord s))] }) ∧
  -- REG_WRITE of INT_MASK: the mask is stored, and the attention output may fall (R301, R321).
  (∀ (s : State) (p : Nat) (v : W32) (n : Nat), p < 3 → portLive s p = true → 4 ≤ n →
     ∃ t, exec (.regWrite p 0x34 v n) s = .next t ∧ t.port = { s.port with intMask := v } ∧ t.set = s.set ∧ t.time = s.time ∧ t.prog = s.prog) ∧
  -- REG_WRITE of DIAG_CTRL keeps bits 2:0 (R301).
  (∀ (s : State) (p : Nat) (v : W32) (n : Nat), p < 3 → portLive s p = true → 4 ≤ n →
     exec (.regWrite p 0x44 v n) s = .next { s with port := { s.port with diag := v.toNat % 8 } }) ∧
  -- REG_WRITE of fewer than four bytes is ignored (R301).
  (∀ (s : State) (p off : Nat) (v : W32) (n : Nat), p < 3 → n < 4 → exec (.regWrite p off v n) s = .next s) ∧
  -- INT_CLEAR clears exactly the bits written 1 (R319, R320).
  (∀ (s : State) (m : W32), ∃ t, exec (.intClear m) s = .next t ∧ t.port = { s.port with intStatus := s.port.intStatus &&& ~~~m } ∧
     t.set = s.set ∧ t.time = s.time ∧ t.prog = s.prog ∧ t.front = s.front ∧ t.link = s.link) ∧
  -- DOORBELL marks the host's PCIe rings named by the bits written 1 for a fetch, and changes nothing else (R319, R322).
  (∀ (s : State) (m : W32), exec (.doorbell m) s = .next
     { s with port := { s.port with
       rings := s.port.rings.mapIdx (fun n r => if m.getLsbD n && fetchable s n then { r with fetching := true } else r) } }) ∧
  -- FETCH_TIMER: an enabled PCIe ring of the host that is not empty is fetched (R322).
  (∀ (s : State) (n : Nat), n < 32 → hostProduced n = true → inHostMemory s n = true → (ringSet s n).enable = true →
     (ringAt s n).head ≠ (ringAt s n).tail →
     exec (.fetchTimer n) s = .next (modRing n (fun r => { r with fetching := true }) s)) ∧
  -- HEAD_WRITE of a PCIe ring the device produces: a multiple of 8 no further behind TAIL than the buffer is HEAD (R305).
  (∀ (s : State) (p n : Nat) (v : W32), p < 3 → n < 32 → portLive s p = true → internalRing n = false → inHostMemory s n = true →
     hostProduced n = false → v.toNat % 8 = 0 → ((ringAt s n).tail - v).toNat ≤ 2 ^ (ringSet s n).size →
     exec (.headWrite p n v) s = .next (modRing n (fun r => { r with head := v }) s)) ∧
  -- TAIL_WRITE of a PCIe ring the host produces: a multiple of 8 no further ahead of HEAD than the buffer is TAIL (R305).
  (∀ (s : State) (p n : Nat) (v : W32), p < 3 → n < 32 → portLive s p = true → internalRing n = false → inHostMemory s n = true →
     hostProduced n = true → v.toNat % 8 = 0 → (v - (ringAt s n).head).toNat ≤ 2 ^ (ringSet s n).size →
     exec (.tailWrite p n v) s = .next (modRing n (fun r => { r with tail := v }) s)) ∧
  -- A pointer that is not the host's to write, or no multiple of 8, is marked POINTER_ERROR and not taken (R305).
  (∀ (s : State) (p n : Nat) (v : W32), p < 3 → n < 32 → portLive s p = true → internalRing n = false → inHostMemory s n = true →
     (hostProduced n = true ∨ v.toNat % 8 ≠ 0) →
     exec (.headWrite p n v) s = .next (modRing n (fun r => { r with pointerError := true }) s)) ∧
  -- RING_ENABLE_WRITE that enables a ring on its own port, empty until then (R303, R304).
  (∀ (s : State) (p n : Nat) (v : W32), p < 3 → 32 = s.port.rings.length → 32 = s.set.rings.length → portLive s p = true → n < 12 → internalRing n = false →
     v.getLsbD 31 = true → (ringSet s n).enable = false → (ringAt s n).entries = [] →
     ∃ t, exec (.ringEnableWrite p n v) s = .next t ∧
       ringAt t n = { ringAt s n with enabled := true, seq := 0 } ∧
       ringSet t n = { ringSet s n with
         dropNewest := if dropFixed n then (ringSet s n).dropNewest else v.getLsbD 0
         threshold := (v.toNat / 256) % 256, timeout := (v.toNat / 65536) % 256, enable := true } ∧
       ∀ m, m ≠ n → ringAt t m = ringAt s m ∧ ringSet t m = ringSet s m) ∧
  -- QUOTA_WRITE: the quota is clamped to 0 or 4 KB to 16 MB, the pool and the ring's kind (R311).
  (∀ (s : State) (p n : Nat) (v : W32), p < 3 → n < 32 → s.set.rings.length = 32 → portLive s p = true → internalRing n = false →
     ∃ t, exec (.quotaWrite p n v) s = .next t ∧ (ringSet t n).quota = clampQuota s n v.toNat ∧
       (∀ m, m ≠ n → ringSet t m = ringSet s m) ∧ t.store.dirtyLast = some (now s)) ∧
  -- RING_STATUS_CLEAR: bits written 1 are cleared, DROP_COUNT with DROPPED (R303).
  (∀ (s : State) (n : Nat) (v : W32), n < 32 → internalRing n = false →
     exec (.ringStatusClear n v) s = .next (modRing n (fun r => { r with
       busy := r.busy && !v.getLsbD 1, pointerError := r.pointerError && !v.getLsbD 2, dropped := r.dropped && !v.getLsbD 4
       dropCount := if v.getLsbD 4 then 0 else r.dropCount }) s))

/-- RING_POP returns the length and the front entry and consumes it once all of it was clocked; an empty or foreign ring reads
as zeros. BARE_READ pops ring 10, or ring 6 when that is empty: an entry is returned and consumed, and with both empty
nothing changes. RING_PUSH stores one whole entry in an enabled ring with room and says so in the status byte, and otherwise
says BUSY or BAD. STATUS returns the status byte. A stuck bus transaction changes nothing but time. Besides the rules it
rests on what the model chose or inferred: log 10, 40, 143. (R297, R298, R299, R305, R388, R389, R390, R392) -/
def Obligations.PopsAndPushesThroughAPort : Prop :=
  -- RING_POP over SPI of an enabled ring of that port: the entry is returned and consumed (R298).
  (∀ (s : State) (n clocked : Nat) (e : Entry) (l : List Entry), n < 32 → portLive s 1 = true → poppable s 1 n = true →
     (ringAt s n).entries = e :: l → 4 + (renderEntry e).length ≤ clocked → s.port.respWait = [] →
     ∃ t, exec (.ringPop 1 n clocked) s = .next t ∧ (ringAt t n).entries = l ∧
       t.out = s.out ++ [.pop 1 n (padTo clocked (leBytes 4 (renderEntry e).length ++ renderEntry e))] ∧
       ∀ m, m ≠ n → ringAt t m = ringAt s m) ∧
  -- RING_POP that ends before the whole entry leaves it in place (R298).
  (∀ (s : State) (n clocked : Nat) (e : Entry) (l : List Entry), n < 32 → portLive s 1 = true → poppable s 1 n = true →
     (ringAt s n).entries = e :: l → clocked < 4 + (renderEntry e).length →
     exec (.ringPop 1 n clocked) s = .next { s with
       out := s.out ++ [.pop 1 n (padTo clocked (leBytes 4 (renderEntry e).length ++ renderEntry e))] }) ∧
  -- RING_POP over SPI of an empty ring: a length of 0 and zeros (R298).
  (∀ (s : State) (n clocked : Nat), n < 32 → portLive s 1 = true → (ringAt s n).entries = [] →
     exec (.ringPop 1 n clocked) s = .next { s with out := s.out ++ [.pop 1 n (padTo clocked (leBytes 4 0))] }) ∧
  -- BARE_READ with ring 10 and ring 6 empty: zeros, as a pop of ring 6 (R388, R390).
  (∀ (s : State) (clocked : Nat), portLive s 2 = true → (ringAt s 10).entries = [] → (ringAt s 6).entries = [] →
     exec (.bareRead clocked) s = .next { s with out := s.out ++ [.pop 2 6 (padTo clocked (leBytes 4 0))] }) ∧
  -- BARE_READ with an entry on ring 10, or on ring 6 while ring 10 is empty: the entry is returned and consumed (R388, R390).
  (∀ (s : State) (n clocked : Nat) (e : Entry) (l : List Entry), n = 10 ∨ (n = 6 ∧ (ringAt s 10).entries = []) → portLive s 2 = true →
     poppable s 2 n = true → (ringAt s n).entries = e :: l → 4 + (renderEntry e).length ≤ clocked → s.port.respWait = [] →
     ∃ t, exec (.bareRead clocked) s = .next t ∧ (ringAt t n).entries = l ∧
       t.out = s.out ++ [.pop 2 n (padTo clocked (leBytes 4 (renderEntry e).length ++ renderEntry e))] ∧
       ∀ m, m ≠ n → ringAt t m = ringAt s m) ∧
  -- RING_PUSH over SPI of one whole entry that fits an enabled ring of the port: it is the last entry, and PUSH_OK is set
  -- (R299).
  (∀ (s : State) (n : Nat) (b : List Byte) (e : PushEnd), n < 32 → s.port.rings.length = 32 → portLive s 1 = true →
     hostProduced n = true → ringPort s n = 1 → 16 ≤ b.length → b.length = declaredLength n b → (ringSet s n).enable = true →
     fits s n (entrySpace { bytes := b }) = true →
     ∃ t, exec (.ringPush 1 n b e) s = .next t ∧ (ringAt t n).entries = (ringAt s n).entries ++ [{ bytes := b }] ∧
       t.port.pushOk = true ∧ t.port.pushBusy = false ∧ t.port.pushBad = false ∧ (∀ m, m ≠ n → ringAt t m = ringAt s m) ∧
       t = { s with port := t.port }) ∧
  -- RING_PUSH into an enabled ring without room: BUSY, and the entry is discarded (R299, R305).
  (∀ (s : State) (n : Nat) (b : List Byte) (e : PushEnd), n < 32 → portLive s 1 = true →
     hostProduced n = true → ringPort s n = 1 → 16 ≤ b.length → b.length = declaredLength n b →
     fits s n (entrySpace { bytes := b }) = false →
     exec (.ringPush 1 n b e) s = .next (pushStatus false true false (modRing n (fun r => { r with busy := true, busyPending := true })
       { s with port := { s.port with pushPast := some (now s, s.port.pushOk, s.port.pushBusy, s.port.pushBad) } }))) ∧
  -- RING_PUSH of what is not one whole entry: BAD, and nothing is stored (R299).
  (∀ (s : State) (n : Nat) (b : List Byte) (e : PushEnd), n < 32 → portLive s 1 = true → b.length ≠ declaredLength n b →
     exec (.ringPush 1 n b e) s = .next (pushStatus false false true
       { s with port := { s.port with pushPast := some (now s, s.port.pushOk, s.port.pushBusy, s.port.pushBad) } })) ∧
  -- STATUS: the status byte, and nothing changes (R297, R388).
  (∀ (s : State), portLive s 2 = true → exec (.status 2) s = .next { s with out := s.out ++ [.statusByte 2 (statusByte s)] }) ∧
  -- TWO_WIRE_STUCK_TIMEOUT: 25 ms pass and the rings are as they were (R392).
  (∀ (s : State), ∃ t, exec .twoWireStuckTimeout s = .next t ∧ now t = now s + ms 25 ∧ t = { s with clk := t.clk, time := t.time })

/-- The PCIe link trains and retrains with its generation and width and its budget; bus mastering is enabled by the host and
falls with the link, when every PCIe ring is disabled and its addresses and pointers are cleared. A fetched command enters
its ring, and HEAD stands until it is taken; the oldest staged block leaves for the host buffer; a disabled ring reports it;
a timed-out notification raises its interrupt bit. Besides the rules it rests on what the model chose or inferred: log 6,
42, 143, 158. (R29, R87, R294, R295, R304, R305, R309, R310, R312, R320) -/
def Obligations.PcieRingsAndTheirInterrupts : Prop :=
  -- PCIE_LINK_TRAINED (R87, R294).
  (∀ (s : State) (g w : Nat), hostConfig s = 2 → s.pwr.released.getLsbD 7 = true → 1 ≤ g → g ≤ 3 → 1 ≤ w → w ≤ 2 →
     ∃ t, exec (.pcieLinkTrained g w) s = .next t ∧ t.port.pcieGen = g ∧ t.port.pcieWidth = w ∧ t.port.rings = s.port.rings ∧
       t = { s with port := t.port }) ∧
  -- PCIE_RETRAIN: a lower budget is reported, and the rings stay as they are (R29).
  (∀ (s : State) (g w : Nat), hostConfig s = 2 → s.port.pcieGen ≠ 0 → 1 ≤ g → g ≤ 3 → 1 ≤ w → w ≤ 2 →
     ∃ t, exec (.pcieRetrain g w) s = .next t ∧ t.port.pcieGen = g ∧ t.port.pcieWidth = w ∧ t.set = s.set ∧ t.plan = s.plan ∧
       t.prog = s.prog ∧ t.front = s.front) ∧
  -- BUS_MASTER_ENABLE, once the endpoint completes configuration requests (R87, R295).
  (∀ (s : State), configReady s = true →
     exec .busMasterEnable s = .next { s with port := { s.port with busMaster := true } }) ∧
  -- PCIE_RINGS_DISABLED: every PCIe ring is disabled, its base, HEAD and TAIL cleared (R295, R309).
  (∀ (s : State) (c : PcieDown), hostConfig s = 2 → s.port.rings.length = 32 → s.set.rings.length = 32 →
     ∃ t, exec (.pcieRingsDisabled c) s = .next t ∧ t.port.busMaster = false ∧
       (∀ n, n < 32 → ringPort s n = 0 → internalRing n = false →
         (ringSet t n).enable = false ∧ (ringAt t n).enabled = false ∧ (ringAt t n).head = 0 ∧ (ringAt t n).tail = 0 ∧
         (ringAt t n).baseLo = 0 ∧ (ringAt t n).baseHi = 0 ∧ (ringAt t n).entries = (ringAt s n).entries) ∧
       (∀ n, n < 32 → ringPort s n ≠ 0 → ringAt t n = ringAt s n ∧ ringSet t n = ringSet s n)) ∧
  -- RING_DISABLE_DRAINED: ENABLED falls (R304).
  (∀ (s : State) (n : Nat), n < 32 → (ringSet s n).enable = false → internalRing n = false →
     exec (.ringDisableDrained n) s = .next (modRing n (fun r => { r with enabled := false }) s)) ∧
  -- STAGED_ENTRY_DMA: the oldest staged block, one entry or the pieces of one MOT object, leaves the staging and TAIL passes it (R312).
  (∀ (s : State) (n k : Nat), n < 32 → s.port.rings.length = 32 → dmaReady s n = true → bufferFits s n = true →
     k = (movingEntries s n).length → s.port.respWait = [] →
     ∃ t, exec (.stagedEntryDma n) s = .next t ∧ 0 < k ∧ (ringAt t n).entries = (ringAt s n).entries.drop k ∧
       (ringAt t n).tail = (ringAt s n).tail +
         BitVec.ofNat 32 (spanOf (ringSet s n).size (ringAt s n).tail ((ringAt s n).entries.take k))) ∧
  -- HOST_RING_FETCH_DONE of a whole frame: it enters the ring, and HEAD, which stands, is to pass it when it is taken (R305, R310).
  (∀ (s : State) (n : Nat) (b : List Byte), n < 3 → s.port.rings.length = 32 → inHostMemory s n = true → (ringSet s n).enable = true →
     s.port.busMaster = true → (ringAt s n).fetching = true → (ringAt s n).head ≠ (ringAt s n).tail → takeable s n = true →
     portOpen s 0 = true → field b 0 2 ≠ 0 → declaredLength n b ≤ 4096 → pad8 (declaredLength n b) ≤ ringUsed (ringAt s n) →
     ∃ t, exec (.hostRingFetchDone n b) s = .next t ∧
       (ringAt t n).entries = (ringAt s n).entries ++ [{ bytes := b.take (declaredLength n b) }] ∧
       (ringAt t n).head = (ringAt s n).head ∧ (ringAt t n).fetched = pad8 (declaredLength n b)) ∧
  -- INT_TIMEOUT: the ring's interrupt bit is set once its oldest entry has waited TIMEOUT x 100 us (R320).
  (∀ (s : State) (n : Nat) (t0 : Nat), n < 32 → (ringAt s n).unnotifiedAt = some t0 → (ringSet s n).timeout ≠ 0 →
     ∃ t, exec (.intTimeout n) s = .next t ∧ t.port.intStatus = s.port.intStatus ||| (1#32 <<< n) ∧
       now t = max (now s) (t0 + (ringSet s n).timeout * 24576) ∧ t.set = s.set ∧ t.prog = s.prog ∧ t.front = s.front)

/-- At the next second boundary a decided reference step moves device time by its delta and a TIME_SET sets it, either in a new
epoch. An accepted edge of the reference becomes the last edge; a small delta keeps LOCKED, a large one starts
qualification, and the fourth agreeing edge decides a step. A missing reference makes Plumb coast. Besides the rules it
rests on what the model chose or inferred: log 6, 36, 85, 144, 149. (R97, R98, R100, R101, R104, R105, R106, R110) -/
def Obligations.DeviceTimeStepsAndFollowsItsReference : Prop :=
  -- PLUMB_STEP: at the next second boundary device time moves by the decided delta, in the next epoch, and Plumb slews
  -- (R106, R110).
  (∀ (s : State) (d : Int), s.time.step = some d → s.time.setTo = none → timeRuns s = true →
     ∃ t, exec .plumbStep s = .next t ∧ t.time.step = none ∧ t.time.epoch = s.time.epoch + 1 ∧ t.time.plumb = .slewing ∧ t.time.near = 0 ∧
       t.time.count = BitVec.ofInt 64 ((64 * ((toSecond s).time.count.toNat : Int) + (toSecond s).time.sub + d) / 64) ∧
       t.time.sub = ((64 * ((toSecond s).time.count.toNat : Int) + (toSecond s).time.sub + d) % 64).toNat ∧ t.clk = (toSecond s).clk) ∧
  -- TIME_SET_APPLY: the waiting second is device time from the next second boundary on, in the next epoch; on the AON clock the
  -- count may stand a part of its period past the boundary, and that part stays (R98, R101, R110).
  (∀ (s : State) (n past : Nat), s.time.setTo = some n → s.time.step = none → timeRuns s = true →
     past = (toSecond s).time.count.toNat % ticksPerSecond → n * ticksPerSecond + past ≠ (toSecond s).time.count.toNat →
     ∃ t, exec .timeSetApply s = .next t ∧ t.time.setTo = none ∧ t.time.epoch = s.time.epoch + 1 ∧
       t.time.count = BitVec.ofInt 64 ((64 * (n * ticksPerSecond + past : Nat) + ((toSecond s).time.sub : Int)) / 64) ∧
       t.head.deferred = s.head.deferred.filter (fun x => x.key != .timeSet)) ∧
  -- PPS_EDGE less than 900 ms after the last one: it is logged and not accepted (R104).
  (∀ (s : State) (x : Int) (e : Nat), s.clk.refOn = true → s.pwr.porAsserted = false → s.set.time.ref = 1 → s.time.lastEdge = some e →
     now s < e + ms 900 →
     ∃ t, exec (.ppsEdge true x) s = .next t ∧ t = { s with health := t.health }) ∧
  -- PPS_EDGE in LOCKED within half a microsecond of its second: it is the last edge, and Plumb stays LOCKED (R105, R106,
  -- R104).
  (∀ (s : State) (x : Int), s.clk.refOn = true → s.pwr.porAsserted = false → s.set.time.ref = 1 → s.time.plumb = .locked →
     s.time.everLocked = true → s.clk.sPll = .locked →
     (∀ e, s.time.lastEdge = some e → e + ms 900 ≤ now s) → (ppsDelta s (now64 s + x)).natAbs * 1000 ≤ 1572864 →
     ∃ t, exec (.ppsEdge true x) s = .next t ∧ t.time.plumb = .locked ∧ t.time.lastEdge = some (now s) ∧
       t.time.lastDelta = some (ppsDelta s (now64 s + x)) ∧ t.time.near = s.time.near + 1 ∧ t.time.count = s.time.count ∧ t.time.epoch = s.time.epoch) ∧
  -- PPS_EDGE far from its second: qualification starts with it (R106, R104).
  (∀ (s : State) (x : Int), s.clk.refOn = true → s.pwr.porAsserted = false → s.set.time.ref = 1 → s.time.plumb ≠ .free →
     s.time.plumb ≠ .qualifying → s.time.everLocked = true → s.clk.sPll = .locked →
     (∀ e, s.time.lastEdge = some e → e + ms 900 ≤ now s) → 3145728 < (ppsDelta s (now64 s + x)).natAbs * 100 →
     ∃ t, exec (.ppsEdge true x) s = .next t ∧ t.time = { s.time with
       lastDelta := some (ppsDelta s (now64 s + x)), rateDelta := some (ppsDelta s (now64 s + x)), lastEdge := some (now s)
       plumb := .qualifying, first := ppsDelta s (now64 s + x), agree := 1, slewLeft := 0 }) ∧
  -- PPS_EDGE that is the fourth to agree within 1 us: its delta is the step decided (R106, R104).
  (∀ (s : State) (x : Int), s.clk.refOn = true → s.pwr.porAsserted = false → s.set.time.ref = 1 → s.time.plumb = .qualifying →
     s.time.agree = 3 → s.time.everLocked = true → s.clk.sPll = .locked →
     (∀ e, s.time.lastEdge = some e → e + ms 900 ≤ now s) → 3145728 < (ppsDelta s (now64 s + x)).natAbs * 100 →
     (ppsDelta s (now64 s + x) - s.time.first).natAbs * 100000 ≤ 157286400 →
     ∃ t, exec (.ppsEdge true x) s = .next t ∧ t.time.step = some (ppsDelta s (now64 s + x)) ∧ t.time.agree = 4 ∧
       t.time.count = s.time.count ∧ t.time.epoch = s.time.epoch) ∧
  -- TEN_MHZ_WINDOW without a signal within 50 ppm of 10 MHz: Plumb coasts (R104, R106).
  (∀ (s : State) (m : TenMhzMeas), s.clk.refOn = true → s.pwr.porAsserted = false → s.set.time.ref = 3 → tenMhzOk m = false →
     s.time.plumb ≠ .free →
     ∃ t, exec (.tenMhzWindow m) s = .next t ∧ t.time.plumb = .coasting ∧ now t = max (now s) (s.time.lastEdge.getD s.time.refAt + ms 1)) ∧
  -- TEN_MHZ_WINDOW with the signal: it is an accepted edge, with the delta of device time from the nearest multiple of 3,072
  -- ticks at the window's end (R104, R105, R106).
  (∀ (s : State) (m : TenMhzMeas), s.clk.refOn = true → s.pwr.porAsserted = false → s.set.time.ref = 3 → tenMhzOk m = true →
     s.time.plumb ≠ .free →
     ∃ t, exec (.tenMhzWindow m) s = .next t ∧ t.time.lastEdge = some (now t) ∧
       t.time.lastDelta = some (tenMhzDelta s (now64 (passTo (s.time.lastEdge.getD s.time.refAt + ms 1) s) + m.sub))) ∧
  -- REFERENCE_LOST from LOCKED: Plumb coasts 2.5 s after the last edge (R104, R106).
  (∀ (s : State), s.set.time.ref = 1 → s.time.plumb = .locked →
     ∃ t, exec .referenceLost s = .next t ∧ t.time.plumb = .coasting ∧ t.time.control = s.time.control ∧
       now t = max (now s) (s.time.lastEdge.getD s.time.refAt + ms 2500))

/-- A loop that loses lock is lost from that instant and its loss is logged, with the effects of its loss: the watchdog is
suspended, nothing stays on air, the radio stands by, the word clock's APLL freezes. REF's stop loses every loop and leaves
Plumb coasting. A window's buffer overflows 16,384 ticks after Kerf's clock has stopped, and a lost loop is tried again at
every whole millisecond after its loss. Besides the rules it rests on what the model chose or inferred: log 6, 84, 132.
(R95, R98, R106, R171, R290, R434, R602) -/
def Obligations.LoopsLoseLock : Prop :=
  -- LOOP_LOSS_OF_LOCK of the SYSPLL (R95).
  (∀ (s : State), s.clk.sysPll = .locked →
     ∃ t, exec (.loopLossOfLock .sysPll) s = .next t ∧ t.clk = { s.clk with sysPll := .lost (now s), wdogSuspended := true } ∧
       t.link.air = none ∧ t.link.rx = [] ∧ t.time = s.time) ∧
  -- LOOP_LOSS_OF_LOCK of the SPLL (R95, R106).
  (∀ (s : State), s.clk.sPll = .locked →
     ∃ t, exec (.loopLossOfLock .sPll) s = .next t ∧ t.clk = { s.clk with sPll := .lost (now s) } ∧ t.time.agree = 0 ∧
       t.time.slewLeft = 0 ∧ t.time.count = s.time.count ∧ t.set = s.set) ∧
  -- LOOP_LOSS_OF_LOCK of the APLL: the log apart, nothing else changes (R95).
  (∀ (s : State), s.clk.aPll = .locked →
     ∃ t, exec (.loopLossOfLock .aPll) s = .next t ∧ t.clk = { s.clk with aPll := .lost (now s) } ∧
       t = { s with clk := t.clk, health := t.health }) ∧
  -- LOOP_LOSS_OF_LOCK of the link synthesiser (R95, R434).
  (∀ (s : State), s.clk.linkSynth = .locked →
     ∃ t, exec (.loopLossOfLock .linkSynth) s = .next t ∧ t.clk = { s.clk with linkSynth := .lost (now s) } ∧
       t.link.air = none ∧ (t.link.radio = .standby ∨ t.link.radio = .sleep) ∧ t.link.radioTo = none) ∧
  -- LOOP_LOSS_OF_LOCK of the host word clock: the APLL freezes its frequency (R95, R290).
  (∀ (s : State), s.set.time.apll = 1 → s.clk.wordClock = .locked →
     ∃ t, exec (.loopLossOfLock .wordClock) s = .next t ∧
       t.clk = { s.clk with wordClock := .lost (now s), apllFrozen := true, wordLost := true } ∧
       t = { s with clk := t.clk, health := t.health }) ∧
  -- LOOP_LOSS_OF_LOCK of REF is its stop (R95, R98).
  (∀ (s : State), exec (.loopLossOfLock .ref) s = exec .refStop s) ∧
  -- REF_STOP: every loop loses lock, device time passes to the AON clock, and nothing stays on air (R95, R98, R602).
  (∀ (s : State), s.clk.refOn = true → s.clk.sysPll = .locked → s.clk.sPll = .locked → s.clk.aPll = .locked → s.clk.linkSynth = .locked →
     ∃ t, exec .refStop s = .next t ∧ t.clk = { s.clk with
         refOn := false, refOffAt := now s, wdogSuspended := true
         sysPll := .lost (now s), sPll := .lost (now s), aPll := .lost (now s), linkSynth := .lost (now s) } ∧
       t.link.air = none ∧ (s.time.plumb ≠ .free → t.time.plumb = .coasting)) ∧
  -- WORD_CLOCK_LOST: the APLL freezes its frequency (R95, R290).
  (∀ (s : State), s.set.time.apll = 1 → s.clk.wordClock = .locked →
     ∃ t, exec .wordClockLost s = .next t ∧
       t.clk = { s.clk with wordClock := .lost (now s), apllFrozen := true, wordLost := true } ∧
       t = { s with clk := t.clk, health := t.health }) ∧
  -- KERF_BUFFER_FULL: 16,384 ticks after Kerf's clock stopped, the window's buffer has overflowed (R171).
  (∀ (s : State) (w since : Nat), w < 5 → s.clk.sysPll = .lost since → windowOpen s w = true → s.clk.kerfFull.contains w = false → s.clk.refOn = true →
     ∃ t, exec (.kerfBufferFull w) s = .next t ∧ t.clk.kerfFull = s.clk.kerfFull ++ [w] ∧ now t = max (now s) (since + 16384) ∧
       t = { s with clk := t.clk, time := t.time }) ∧
  -- LOOP_RELOCK_ATTEMPT: the next whole millisecond after the loss is reached, and nothing else changes (R95).
  (∀ (s : State) (l : Loop) (since : Nat), loopAt s l = .lost since →
     ∃ t, exec (.loopRelockAttempt l) s = .next t ∧ now t = max (now s) (since + ms ((now s - since) / ms 1 + 1)) ∧
       t = { s with clk := t.clk, time := t.time })

/-- REF that returns runs again, and the outage waits for the Headstock. A relock that takes some time makes its loop locked
when that time has passed since the loss, reports the outage, and undoes what the loss cost: the watchdog runs, no buffer is
full any more, outages that waited are posted, the APLL follows its word clock. Besides the rules it rests on what the model
chose or inferred: log 6, 84. (R95, R96, R98, R171, R290) -/
def Obligations.LoopsRegainLock : Prop :=
  -- REF_RETURN outside HOLD: REF runs again; while the Headstock's clock stands the outage is to be posted later (R95, R98).
  (∀ (s : State), s.clk.refOn = false → s.pwr.porAsserted = false → s.set.mode ≠ .hold →
     ∃ t, exec .refReturn s = .next t ∧ t.clk.refOn = true ∧ t.time = s.time ∧ t.set = s.set ∧
       (s.clk.sysPll ≠ .locked → t = { s with clk := t.clk, health := t.health } ∧ t.clk = { s.clk with
         refOn := true, owed := s.clk.owed ++ [(5, outageUs s.clk.refOffAt s % 4294967296)] })) ∧
  -- WORD_CLOCK_LOCKED: the APLL follows the word clock again (R290).
  (∀ (s : State) (since : Nat), s.set.time.apll = 1 → s.clk.wordClock = .lost since → since ≤ now s → wordClockAbsent s = false →
     ∃ t, exec .wordClockLocked s = .next t ∧
       t.clk = { s.clk with wordClock := .locked, apllFrozen := false, wordLost := false, owed := t.clk.owed } ∧
       (s.clk.wordLost = false → t.clk.owed = s.clk.owed)) ∧
  -- LOOP_RELOCK of the SYSPLL while REF runs (R95, R171).
  (∀ (s : State) (us since : Nat), s.clk.refOn = true → s.clk.sysPll = .lost since →
     ∃ t, exec (.loopRelock .sysPll us) s = .next t ∧ t.clk.sysPll = .locked ∧ t.clk.wdogSuspended = false ∧
       t.clk.kerfFull = [] ∧ t.clk.owed = [] ∧ now t = max (now s) (since + (us * 24576 + 99) / 100) ∧ t.set = s.set) ∧
  -- LOOP_RELOCK of the SPLL while REF runs (R95).
  (∀ (s : State) (us since : Nat), s.clk.refOn = true → s.clk.sPll = .lost since →
     ∃ t, exec (.loopRelock .sPll us) s = .next t ∧ t.clk = { s.clk with
         elapsed := max (now s) (since + (us * 24576 + 99) / 100), sPll := .locked, owed := t.clk.owed } ∧
       (s.clk.sysPll = .locked → t.clk.owed = s.clk.owed) ∧ t.set = s.set) ∧
  -- LOOP_RELOCK of the APLL while REF runs: the outputs that play on a TDM port fade in there (R95).
  (∀ (s : State) (us since : Nat), s.clk.refOn = true → s.clk.aPll = .lost since →
     ∃ t, exec (.loopRelock .aPll us) s = .next t ∧ t.clk = { s.clk with
         elapsed := max (now s) (since + (us * 24576 + 99) / 100), aPll := .locked, owed := t.clk.owed } ∧
       (s.clk.sysPll = .locked → t.clk.owed = s.clk.owed) ∧ t.set = s.set ∧
       t.prog = { s.prog with pcms := s.prog.pcms.map (fun x => if x.playing && x.port < 4 then { x with portFade := (480, 480) } else x) }) ∧
  -- LOOP_RELOCK of the link synthesiser while REF runs (R95).
  (∀ (s : State) (us since : Nat), s.clk.refOn = true → s.clk.linkSynth = .lost since →
     ∃ t, exec (.loopRelock .linkSynth us) s = .next t ∧ t.clk = { s.clk with
         elapsed := max (now s) (since + (us * 24576 + 99) / 100), linkSynth := .locked, owed := t.clk.owed } ∧
       (s.clk.sysPll = .locked → t.clk.owed = s.clk.owed) ∧ t.set = s.set ∧ t.prog = s.prog) ∧
  -- LOOP_RELOCK of a loop that is locked changes nothing (R95).
  (∀ (s : State) (us : Nat), (s.clk.sysPll = .locked → exec (.loopRelock .sysPll us) s = .next s) ∧
     (s.clk.sPll = .locked → exec (.loopRelock .sPll us) s = .next s) ∧ (s.clk.aPll = .locked → exec (.loopRelock .aPll us) s = .next s) ∧
     (s.clk.linkSynth = .locked → exec (.loopRelock .linkSynth us) s = .next s))

/-- A window that the mode does not run is opened, retuned, ganged, un-ganged and closed at once: WINDOW_OPEN gives it the next
generation and its clamped settings and puts it in the plan, RETUNE changes the settings, GANG and UNGANG set and clear the
partner, CLOSE takes it out of the plan. In a mode that runs windows WINDOW_OPEN brings it up on the chosen tuner and its
response waits. Each plan change advances the plan sequence by one. Besides the rules it rests on what the model chose or
inferred: log 20, 50. (R116, R120, R121, R124, R134, R136, R137, R331, R336, R344, R367, R368) -/
def Obligations.WindowsOpenRetuneAndClose : Prop :=
  -- WINDOW_OPEN in a mode that runs no window: in the plan, stopped, with its next generation (R331, R336, R367, R120).
  (∀ (f : CmdFrame) (s : State), s.port.rings.length = 32 → s.front.windows.length = 9 → f.target.index < 5 →
     Accepted 0x0300 f (windowOpenChecks f) s → runsIn s.set.mode true = false →
     ∃ t, exec (.windowOpen f) s = .next t ∧
       AnsweredLast 0x0300 f { target := { index := f.target.index, gen := nextGen (windowAt s f.target.index).gen }
                               clamped := (clampWindow s f.target.index f.payload).clamped } t ∧
       t.plan.seq = s.plan.seq + 1 ∧ (windowAt t f.target.index).inPlan = true ∧ (windowAt t f.target.index).state = .stopped ∧
       (windowAt t f.target.index).lo = (clampWindow s f.target.index f.payload).lo ∧
       (windowAt t f.target.index).widthKhz = (clampWindow s f.target.index f.payload).width ∧
       (windowAt t f.target.index).port = (clampWindow s f.target.index f.payload).port ∧
       (∀ w, w ≠ f.target.index → windowAt t w = windowAt s w) ∧ t.front.tuners = s.front.tuners ∧ t.set = s.set) ∧
  -- WINDOW_OPEN in a mode that runs it, on a tuner that no glance uses: it opens there, and the response waits (R121, R336,
  -- R605, R120).
  (∀ (f : CmdFrame) (s : State) (n : Nat), s.front.windows.length = 9 → f.target.index < 5 → Accepted 0x0300 f (windowOpenChecks f) s →
     runsIn s.set.mode true = true → pickTuner s f.target.index = some n → n < s.front.tuners.length → (∀ o, (tunerAt s n).role ≠ .glance o) →
     ∃ t, exec (.windowOpen f) s = .next t ∧ t.plan.seq = s.plan.seq + 1 ∧
       (windowAt t f.target.index).state = .opening ∧ (windowAt t f.target.index).tuner = some n ∧
       (windowAt t f.target.index).lo = (clampWindow s f.target.index f.payload).lo ∧ (tunerAt t n).role = .window f.target.index ∧
       t.head.deferred = s.head.deferred ++ [{ key := .windowOpen f.target.index, resp := { deferredOf 0x0300 f false with
         target := { index := f.target.index, gen := nextGen (windowAt s f.target.index).gen }
         clamped := (clampWindow s f.target.index f.payload).clamped } }]) ∧
  -- WINDOW_RETUNE of a window that does not run: its settings (R336, R368, R121).
  (∀ (f : CmdFrame) (s : State), s.port.rings.length = 32 → s.front.windows.length = 9 → f.target.index < 4 →
     Accepted 0x0301 f (windowChecks f 16 modesISE) s → (windowAt s f.target.index).state = .stopped →
     (windowAt s f.target.index).retuneTo = none → retuneChanges (windowAt s f.target.index) f.target.index (clampWindow s f.target.index f.payload) = true →
     ∃ t, exec (.windowRetune f) s = .next t ∧
       AnsweredLast 0x0301 f { target := f.target, clamped := (clampWindow s f.target.index f.payload).clamped } t ∧
       t.plan.seq = s.plan.seq + 1 ∧
       windowAt t f.target.index = { windowAt s f.target.index with
         agc := (clampWindow s f.target.index f.payload).agc, fixedGain := (clampWindow s f.target.index f.payload).gain
         linger := (clampWindow s f.target.index f.payload).linger, port := (clampWindow s f.target.index f.payload).port
         widthKhz := (clampWindow s f.target.index f.payload).width, lo := (clampWindow s f.target.index f.payload).lo } ∧
       (∀ w, w ≠ f.target.index → windowAt t w = windowAt s w) ∧ t.front.tuners = s.front.tuners) ∧
  -- WINDOW_RETUNE that changes no setting, in whatever state its window is: it is answered, and nothing else changes (R122).
  (∀ (f : CmdFrame) (s : State), s.port.rings.length = 32 → Accepted 0x0301 f (windowChecks f 16 modesISE) s →
     retuneChanges (windowAt s f.target.index) f.target.index (clampWindow s f.target.index f.payload) = false →
     Reads 0x0301 f { target := f.target, clamped := (clampWindow s f.target.index f.payload).clamped } s (exec (.windowRetune f) s)) ∧
  -- WINDOW_CLOSE of a window that does not run: it leaves the plan at once (R124, R336).
  (∀ (f : CmdFrame) (s : State), s.port.rings.length = 32 → s.front.windows.length = 9 → f.target.index < 5 →
     Accepted 0x0302 f (windowCloseChecks f) s → (windowAt s f.target.index).state = .stopped → (windowAt s f.target.index).closeAfter = false →
     ∃ t, exec (.windowClose f) s = .next t ∧ AnsweredLast 0x0302 f (okReply f []) t ∧ t.plan.seq = s.plan.seq + 1 ∧
       windowAt t f.target.index = { windowAt s f.target.index with state := .closed, inPlan := false, partner := none, tuner := none, closeAfter := false } ∧
       (∀ w, w ≠ f.target.index → windowAt t w = windowAt s w)) ∧
  -- WINDOW_GANG of a window that is not up: its partner tuner and port (R136, R368, R134).
  (∀ (f : CmdFrame) (s : State), s.port.rings.length = 32 → s.front.windows.length = 9 → f.target.index < 5 →
     Accepted 0x0304 f (windowGangChecks f) s → windowUp s f.target.index = false →
     ∃ t, exec (.windowGang f) s = .next t ∧
       AnsweredLast 0x0304 f { target := f.target, clamped := 3 < field f.payload 0 1 || 5 < field f.payload 1 1 } t ∧
       t.plan.seq = s.plan.seq + 1 ∧
       windowAt t f.target.index = { windowAt s f.target.index with partner := some (satNat 3 (field f.payload 0 1), satNat 5 (field f.payload 1 1)) } ∧
       (∀ w, w ≠ f.target.index → windowAt t w = windowAt s w) ∧ t.front.tuners = s.front.tuners) ∧
  -- WINDOW_UNGANG of a ganged window whose partner's tuner is not taken and that no branch uses (R136, R368, R137).
  (∀ (f : CmdFrame) (s : State) (n p : Nat), s.port.rings.length = 32 → s.front.windows.length = 9 → f.target.index < 5 →
     Accepted 0x0305 f (windowChecks f 0 modesIS) s → (windowAt s f.target.index).partner = some (n, p) → branchesOn s f.target.index = [] →
     (tunerAt s n).role ≠ .partner f.target.index →
     ∃ t, exec (.windowUngang f) s = .next t ∧ AnsweredLast 0x0305 f (okReply f []) t ∧ t.plan.seq = s.plan.seq + 1 ∧
       windowAt t f.target.index = { windowAt s f.target.index with partner := none } ∧
       (∀ w, w ≠ f.target.index → windowAt t w = windowAt s w) ∧ t.front.tuners = s.front.tuners)

/-- A tuner whose linger is over is off. A tuner fails once, and a failed tuner is off and unused. A failed window opens again
on a tuner that is free. AGC_UPDATE counts clipped samples and keeps a fixed gain. An external amplifier is bypassed 100 ms
after a tuner on its port clips at minimum gain, and returns 2 s after all of them are 10 dB above it. The AGC's freeze ends
after 50 ms. Besides the rules it rests on what the model chose or inferred: log 6, 19, 22, 73, 145, 148. (R119, R124, R127,
R130, R132, R134, R137, R138, R145, R148, R605, R606) -/
def Obligations.TunersFollowTheirSignalsAndFail : Prop :=
  -- LINGER_EXPIRY: the unused tuner is off from the end of its linger time (R124).
  (∀ (s : State) (n due : Nat), n < 5 → n < s.front.tuners.length → (tunerAt s n).lingerAt = some due → (tunerAt s n).role = .unused →
     ∃ t, exec (.lingerExpiry n) s = .next t ∧ tunerAt t n = { tunerAt s n with state := .off, lingerAt := none } ∧
       (∀ m, m ≠ n → tunerAt t m = tunerAt s m) ∧ t.front.windows = s.front.windows ∧ now t = max (now s) due) ∧
  -- TUNER_FAILURE of an unused tuner: it has failed and is off (R137, R138).
  (∀ (s : State) (n : Nat), n < 5 → n < s.front.tuners.length → (tunerAt s n).failed = false → (tunerAt s n).role = .unused →
     (adcAt s n).asked = false → s.head.held = [] → placementsWait s = false →
     ∃ t, exec (.tunerFailure n) s = .next t ∧
       tunerAt t n = { tunerAt s n with failed := true, state := .off, role := .unused, lingerAt := none } ∧
       (∀ m, m ≠ n → tunerAt t m = tunerAt s m) ∧ t.front.windows = s.front.windows) ∧
  -- FAILED_WINDOW_REOPEN: a FAILED window of the plan opens on a free tuner (R606, R605).
  (∀ (s : State) (w n : Nat), w < 5 → w < s.front.windows.length → n < s.front.tuners.length → (windowAt s w).state = .failed →
     (windowAt s w).inPlan = true → runsIn s.set.mode (windowAt s w).sentry = true → pickTuner s w = some n →
     (∀ o, (tunerAt s n).role ≠ .glance o) → (windowAt s w).partner = none →
     ∃ t, exec (.failedWindowReopen w) s = .next t ∧ windowAt t w = { windowAt s w with state := .opening, tuner := some n } ∧
       (tunerAt t n).role = .window w ∧ (∀ v, v ≠ w → windowAt t v = windowAt s v)) ∧
  -- FAILED_WINDOW_REOPEN of a ganged window in SERVE whose partner's tuner has no use: it comes up with the window (R134, R606).
  (∀ (s : State) (w n p port : Nat), w < 5 → w < s.front.windows.length → n < s.front.tuners.length → p < s.front.tuners.length → p ≠ n →
     (windowAt s w).state = .failed → (windowAt s w).inPlan = true → s.set.mode = .serve → pickTuner s w = some n →
     (∀ o, (tunerAt s n).role ≠ .glance o) → (windowAt s w).partner = some (p, port) → (tunerAt s p).failed = false →
     (tunerAt s p).role = .unused →
     ∃ t, exec (.failedWindowReopen w) s = .next t ∧ windowAt t w = { windowAt s w with state := .opening, tuner := some n } ∧
       (tunerAt t n).role = .window w ∧ (tunerAt t p).role = .partner w ∧ (tunerAt t p).port = port) ∧
  -- AGC_UPDATE with a fixed gain: power and clip counts are kept, and the tuners' gains stay (R127, R130, R148).
  (∀ (s : State) (w n : Nat) (m : AgcMeas), w < 5 → w < s.front.windows.length → (windowAt s w).tuner = some n → (windowAt s w).state = .open →
     (windowAt s w).agc = 1 → (windowAt s w).partner = none → 100000 * m.clippedLastS ≤ m.samplesLastS →
     ∃ t, exec (.agcUpdate w m) s = .next t ∧
       windowAt t w = { windowAt s w with
         power := referPower s (if w = 4 then 6 else (windowAt s w).port) m.powerTenthDbm
         clips := (windowAt s w).clips + BitVec.ofNat 32 (m.clipped + m.partnerClipped)
         txOverlap := if gainFrozen s n then (windowAt s w).txOverlap + BitVec.ofNat 32 (m.clipped + m.partnerClipped)
           else (windowAt s w).txOverlap } ∧
       (tunerAt t n).gain = (tunerAt s n).gain ∧ (∀ u, u ≠ n → tunerAt t u = tunerAt s u) ∧ (∀ v, v ≠ w → windowAt t v = windowAt s v) ∧ t.prog = s.prog ∧ t.set = s.set) ∧
  -- LNA_BYPASS: 100 ms after the first tuner on its port clips at minimum gain the amplifier is bypassed (R369, R132).
  (∀ (s : State) (n d : Nat) (ds : List Nat), n < 4 → (s.set.lna.getD n {}).port ≤ 5 → s.front.bypassed.getD n false = false →
     (tunersOnPort s (s.set.lna.getD n {}).port).filterMap (fun t => (tunerAt s t).clipAt) = d :: ds →
     ∃ t, exec (.lnaBypass n) s = .next t ∧ t.front = { s.front with bypassed := setAt s.front.bypassed n true } ∧
       now t = max (now s) (ds.foldl min d + ms 100) ∧ t = { s with front := t.front, clk := t.clk, time := t.time }) ∧
  -- LNA_RETURN: 2 s after every tuner on its port is 10 dB above minimum gain the amplifier returns (R369, R132).
  (∀ (s : State) (n : Nat), n < 4 → s.front.bypassed.getD n false = true →
     (∀ t ∈ tunersOnPort s (s.set.lna.getD n {}).port, (tunerAt s t).above10At.isSome) →
     ∃ t, exec (.lnaReturn n) s = .next t ∧ t.front = { s.front with bypassed := setAt s.front.bypassed n false } ∧
       t = { s with front := t.front, clk := t.clk, time := t.time }) ∧
  -- AGC_FREEZE_CAP: 50 ms after the freeze began no tuner's gain is frozen (R145).
  (∀ (s : State) (a : Nat) (l : List Nat), s.front.tuners.filterMap (·.frozenAt) = a :: l →
     ∃ t, exec .agcFreezeCap s = .next t ∧ t.front.tuners = s.front.tuners.map (fun u => { u with frozenAt := none }) ∧
       now t = max (now s) (l.foldl min a + ms 50) ∧ t = { s with front := t.front, clk := t.clk, time := t.time })

/-- BUS_XFER queues a transfer whose response waits for its end, answers at once with result 5 on a stuck bus, and sets the
attention address. A free bus starts the next transfer by priority. The end of a transfer takes it off the queue and answers
it; supply writes and attention messages follow their own rules. A transfer that cannot start within 100 ms ends with result
6. Recovery repeats every second until the bus is free. Besides the rules it rests on what the model chose or inferred: log
6, 68. (R395, R396, R397, R398, R399, R400, R401, R402, R403) -/
def Obligations.TheTwoWireControllerWorksItsQueue : Prop :=
  -- BUS_XFER of a transfer, after the first command: queued last, its response waits (R399, R400).
  (∀ (f : CmdFrame) (s : State), Accepted 0x0F00 f (busXferChecks f) s → satNat 3 (field f.payload 0 1) ≠ 3 → s.bus.stuck = false →
     s.bus.firstCommand = true →
     ∃ t, exec (.busXfer f) s = .next t ∧
       (let k := XferKind.user (satNat 3 (field f.payload 0 1)) (clampNat 0x08 0x77 (field f.payload 1 1)) (satNat 2 (field f.payload 2 1))
           (f.payload.drop 8) (if satNat 3 (field f.payload 0 1) = 0 then 0 else satNat 256 (field f.payload 6 2))
        t.bus = { s.bus with next := s.bus.next + 1, queue := s.bus.queue ++ [{ id := s.bus.next, queuedAt := now s, kind := k }] }) ∧
       (∃ d, t.head.deferred = s.head.deferred ++ [{ key := .transfer s.bus.next, resp := d }] ∧ d.tag = f.tag ∧ d.port = f.port) ∧
       t.set = s.set ∧ t.store = s.store) ∧
  -- BUS_XFER while the bus is stuck: result 5 at once (R402, R399).
  (∀ (f : CmdFrame) (s : State), s.port.rings.length = 32 → Accepted 0x0F00 f (busXferChecks f) s → satNat 3 (field f.payload 0 1) = 0 →
     s.bus.stuck = true → s.bus.firstCommand = true →
     ∃ t, exec (.busXfer f) s = .next t ∧ AnsweredLast 0x0F00 f
       { target := f.target, payload := xferPayload { result := 5 }
         clamped := 3 < field f.payload 0 1 || clampNat 0x08 0x77 (field f.payload 1 1) != field f.payload 1 1 ||
           2 < field f.payload 2 1 || field f.payload 6 2 != 0 } t ∧ ReadsOnly s t) ∧
  -- BUS_XFER operation 3 with an address: the attention message's address and speed (R397, R399).
  (∀ (f : CmdFrame) (s : State), s.port.rings.length = 32 → Accepted 0x0F00 f (busXferChecks f) s → satNat 3 (field f.payload 0 1) = 3 →
     field f.payload 4 2 = 4 →
     ∃ t, exec (.busXfer f) s = .next t ∧
       t.set = { s.set with attnAddr := some (if field f.payload 8 1 = 0 then 0 else clampNat 0x08 0x77 (field f.payload 8 1))
                            attnSpeed := satNat 2 (field f.payload 9 1) } ∧ t.store.dirtyLast = some (now s) ∧ t.head = { s.head with blocked := t.head.blocked }) ∧
  -- BUS_FREE: the waiting transfer of the highest priority is the active one (R395).
  (∀ (s : State) (x : Xfer), s.bus.active = none → s.bus.stuck = false → nextXfer s = some x →
     ∃ t, exec .busFree s = .next t ∧ t.bus = { s.bus with active := some x.id } ∧ t = { s with bus := t.bus, out := t.out }) ∧
  -- CONTROLLER_TRANSFER_END of a host's transfer that is not to be retried: it leaves the queue, and BUS_XFER answers
  -- (R400, R403).
  (∀ (s : State) (r : BusResult) (x : Xfer) (op a sp : Nat) (wr : List Byte) (rd : Nat), r.result < 3 → s.bus.active = some x.id →
     s.bus.queue.find? (fun y => y.id = x.id) = some x → x.kind = .user op a sp wr rd →
     ∃ t, exec (.controllerTransferEnd r) s = .next t ∧ t.bus = { s.bus with queue := s.bus.queue.filter (fun y => y.id != x.id), active := none } ∧
       t.head.deferred = s.head.deferred.filter (fun y => y.key != .transfer x.id)) ∧
  -- CONTROLLER_TRANSFER_END after a lost arbitration: up to three times it is sent again (R403).
  (∀ (s : State) (r : BusResult) (x : Xfer) (op a sp : Nat) (wr : List Byte) (rd : Nat), r.result = 3 → x.retries < 3 → s.bus.active = some x.id →
     s.bus.queue.find? (fun y => y.id = x.id) = some x → x.kind = .user op a sp wr rd →
     exec (.controllerTransferEnd r) s = .next { s with bus := { s.bus with
       queue := s.bus.queue.map (fun y => if y.id = x.id then { y with retries := y.retries + 1 } else y), active := none } }) ∧
  -- BUS_NOT_FREE_TIMEOUT of a host's transfer that waits alone: after 100 ms it ends (R395).
  (∀ (s : State) (x : Xfer) (op a sp : Nat) (wr : List Byte) (rd : Nat), s.bus.queue = [x] → s.bus.active = none → x.kind = .user op a sp wr rd →
     ∃ t, exec .busNotFreeTimeout s = .next t ∧ t.bus.queue = [] ∧ now t = max (now s) (x.queuedAt + ms 100) ∧
       t.head.deferred = s.head.deferred.filter (fun y => y.key != .transfer x.id)) ∧
  -- ATTENTION_MESSAGE when a bit of the ring mask rose: one message is queued, and sent when the bus is free (R397, R398).
  (∀ (s : State), (ringMask s &&& ~~~s.bus.attnMask) != 0 → (attention s).isSome = true → s.bus.queue = [] → s.bus.active = none → s.bus.stuck = false →
     ∃ t, exec .attentionMessage s = .next t ∧ t.bus.attnMask = ringMask s ∧ t.bus.active = some s.bus.next ∧
       t.bus.queue = [{ id := s.bus.next, kind := .attention, queuedAt := now s }]) ∧
  -- ATTENTION_RETRY: 1 ms after it was NAKed the message is sent again (R398).
  (∀ (s : State) (t0 : Nat), s.bus.attnAt = some t0 → s.bus.attnAcked = false → ringMask s ≠ 0 → (attention s).isSome = true → s.bus.queue = [] →
     s.bus.active = none → s.bus.stuck = false →
     ∃ t, exec .attentionRetry s = .next t ∧ t.bus.queue = [{ id := s.bus.next, kind := .attention, queuedAt := now t }] ∧
       now t = max (now s) (t0 + ms 1) ∧ t.bus.active = some s.bus.next) ∧
  -- ATTENTION_REPEAT: 100 ms after it was acknowledged the message is repeated while the mask is not 0 (R398).
  (∀ (s : State) (t0 : Nat), s.bus.attnAt = some t0 → s.bus.attnAcked = true → ringMask s ≠ 0 → (attention s).isSome = true → s.bus.queue = [] →
     s.bus.active = none → s.bus.stuck = false →
     ∃ t, exec .attentionRepeat s = .next t ∧ t.bus.queue = [{ id := s.bus.next, kind := .attention, queuedAt := now t }] ∧
       now t = max (now s) (t0 + ms 100) ∧ t.bus.active = some s.bus.next) ∧
  -- SUPPLY_WRITE acknowledged after the exponent is known: the write leaves the queue and the failures are 0 (R396).
  (∀ (s : State) (r : BusResult) (x : Xfer) (n : Int), r.result = 0 → s.bus.queue.find? (fun y => y.kind == .supply) = some x →
     s.bus.active = some x.id → x.kind = .supply → s.bus.voutExp = some n →
     ∃ t, exec (.supplyWrite r) s = .next t ∧ t.bus = { s.bus with
       supplyAt := now s, supplyFails := 0, supplyStopped := false, queue := s.bus.queue.filter (fun y => y.id != x.id), active := none } ∧
       t = { s with bus := t.bus }) ∧
  -- SUPPLY_WRITE_RETRY: a supply that stopped answering is written again after 1 s (R396).
  (∀ (s : State), s.bus.supplyStopped = true → s.set.supply.output = 1 → s.bus.firstCommand = true → s.bus.queue = [] →
     ∃ t, exec .supplyWriteRetry s = .next t ∧ now t = max (now s) (s.bus.supplyAt + ticksPerSecond) ∧
       t.bus.queue = [{ id := s.bus.next, kind := .supply, queuedAt := now t }]) ∧
  -- BUS_RECOVERY_REPEAT: a second after the last, with at most 9 clock pulses the bus is free, else still stuck (R401,
  -- R402).
  (∀ (s : State) (n : Nat), s.bus.stuck = true →
     ∃ t, exec (.busRecoveryRepeat n) s = .next t ∧ t.bus = { s.bus with stuck := decide (9 < n), recoveryAt := now t } ∧
       now t = max (now s) (s.bus.recoveryAt + ticksPerSecond))

/-- BANK_LOAD and CURVE_LOAD replace one user table by the payload under its next generation, which the response names, and
touch no other. RING_BIND binds one output to one ring or unbinds it, and answers the output's rate. Each advances the plan
sequence by one. Besides the rules it rests on what the model chose or inferred: log 70. (R157, R159, R282, R315, R331,
R344, R360, R378) -/
def Obligations.BanksCurvesAndBindings : Prop :=
  -- BANK_LOAD of bank 32 to 63 (R157, R159).
  (∀ (f : CmdFrame) (s : State), s.port.rings.length = 32 → s.mix.banks.length = 32 → 32 ≤ f.target.index → f.target.index < 64 →
     Accepted 0x0A00 f (bankLoadChecks f) s →
     ∃ t, exec (.bankLoad f) s = .next t ∧
       AnsweredLast 0x0A00 f { target := { index := f.target.index, gen := nextGen (userBank s f.target.index).gen }
                               clamped := decide (4 < field f.payload 0 1) || (readTaps f.payload).2 } t ∧
       t.mix = { s.mix with banks := modAt s.mix.banks (f.target.index - 32) (fun b => { b with
         gen := nextGen b.gen, kind := some (satNat 4 (field f.payload 0 1)), taps := (readTaps f.payload).1 }) } ∧
       t.plan = { s.plan with seq := s.plan.seq + 1 } ∧ t.set = s.set ∧ t.prog = s.prog ∧ t.front = s.front) ∧
  -- CURVE_LOAD of table 4 to 15 (R282).
  (∀ (f : CmdFrame) (s : State), s.port.rings.length = 32 → s.mix.curves.length = 12 → 4 ≤ f.target.index → f.target.index < 16 →
     Accepted 0x0A02 f (curveLoadChecks f) s →
     ∃ t, exec (.curveLoad f) s = .next t ∧
       AnsweredLast 0x0A02 f { target := { index := f.target.index, gen := nextGen (curveGen s f.target.index) } } t ∧
       t.mix = { s.mix with curves := modAt s.mix.curves (f.target.index - 4) (fun c => { c with
         gen := nextGen c.gen, points := some ((List.range 256).map (fun n => field f.payload (4 + 2 * n) 2)) }) } ∧
       t.plan = { s.plan with seq := s.plan.seq + 1 } ∧ t.set = s.set ∧ t.prog = s.prog ∧ t.front = s.front) ∧
  -- RING_BIND of an output that is not MOT: one binding of that output, or none (R315, R378).
  (∀ (f : CmdFrame) (s : State) (code cls ring : Nat), s.port.rings.length = 32 → Accepted 0x0800 f (ringBindChecks f) s →
     code = field f.payload 0 1 → code ≠ 8 → cls = boundClass s code f.target → ring = field f.payload 1 1 →
     ∃ t, exec (.ringBind f) s = .next t ∧
       AnsweredLast 0x0800 f
         { target := f.target, clamped := bindClamped f
           payload := leBytes 4 (if ring = 0xFF then 0 else outputRate s code f.target.index cls) } t ∧
       t.plan = { s.plan with seq := s.plan.seq + 1
                              binds := s.plan.binds.filter (fun b => !(b.1 == code && b.2.1 == boundHandle f cls && b.2.2.1 == cls)) ++
                                (if ring = 0xFF then [] else [(code, boundHandle f cls, cls, legalRing code ring)]) } ∧
       t.set = s.set ∧ t.mix = s.mix ∧ t.prog = s.prog ∧ t.front = s.front)

/-- A temperature step beyond the limit triggers a converter's calibrations. Pending element selections start one at a time,
collect 200 ms of statistics, and a qualified one interrupts the converter; an unqualified one is tried again after 60 s. A
fade defers an interruption by at most 2 s. An IQ estimate moves the correction to its target over 100 ms, an alignment line
moves one step a millisecond. CAL_RUN waits for the runs it triggers. Besides the rules it rests on what the model chose or
inferred: log 6, 23, 64, 65, 66, 141. (R380, R511, R513, R514, R515, R516, R517, R519, R520, R521, R523, R524) -/
def Obligations.CalibrationRunsInOrder : Prop :=
  -- TEMPERATURE_COMPARISON within the step limit: the converters' readings are kept, TEMP shows the hottest island, and nothing is
  -- triggered (R302, R511).
  (∀ (s : State) (l : List Int), l.length = 17 → s.cal.adcs.length = 5 →
     (∀ i, i < 5 → ((adcTemps l).getD i 0 - (adcAt s i).reference).natAbs ≤ 16 * deltaT s) →
     ∃ t, exec (.temperatureComparison l) s = .next t ∧ (∀ i, i < 5 → adcAt t i = { adcAt s i with temp := (adcTemps l).getD i 0 }) ∧
       (∀ x ∈ l, x ≤ t.port.junction) ∧ l[t.port.hotIsland]? = some t.port.junction ∧
       t = { s with cal := { s.cal with adcs := t.cal.adcs }
                    port := { s.port with junction := t.port.junction, hotIsland := t.port.hotIsland } }) ∧
  -- PENDING_RUN_START of the first run that is ready: its statistics begin (R513, R518).
  (∀ (s : State) (a : Nat), a < 5 → s.cal.adcs.length = 5 → statsFree s = true → firstPending s a = true → s.head.restarting = false →
     ∃ t, exec (.pendingRunStart a) s = .next t ∧
       adcAt t a = { adcAt s a with pending := false, retry := false, stats := true, phaseAt := now s, choice := none } ∧
       (∀ b, b ≠ a → adcAt t b = adcAt s b) ∧ t = { s with cal := { s.cal with adcs := t.cal.adcs } }) ∧
  -- CAL_RETRY 60 s after an unqualified run: the statistics begin again (R514).
  (∀ (s : State) (a : Nat), a < 5 → s.cal.adcs.length = 5 → (adcAt s a).pending = true → (adcAt s a).retry = true → s.head.restarting = false →
     statsFree s = true → adcOpen s a = true →
     ∃ t, exec (.calRetry a) s = .next t ∧ now t = max (now s) ((adcAt s a).retryAt + 60 * ticksPerSecond) ∧
       adcAt t a = { adcAt s a with pending := false, retry := false, stats := true, phaseAt := now t, choice := none } ∧
       (∀ b, b ≠ a → adcAt t b = adcAt s b)) ∧
  -- ELEMENT_STATISTICS_DONE below 40 % activity on an automatic run: it is kept for its retry (R514, R515, R516).
  (∀ (s : State) (a : Nat) (m : ElemStats), a < 5 → s.cal.adcs.length = 5 → (adcAt s a).stats = true → (adcAt s a).asked = false → m.gathered = true → m.activity < 400 →
     ∃ t, exec (.elementStatisticsDone a m) s = .next t ∧ now t = max (now s) ((adcAt s a).phaseAt + ms 200) ∧
       (∃ n, adcAt t a = { adcAt s a with
         stats := false, pending := true, retry := true, retryAt := now t, elemResult := 1, activity := m.activity
         unqualified := (adcAt s a).unqualified + 1, elemBad := true, asked := false, notedAt := n })) ∧
  -- ELEMENT_STATISTICS_DONE of a qualified run while a fade needs the converter: deferred (R520, R517).
  (∀ (s : State) (a : Nat) (m : ElemStats), a < 5 → s.cal.adcs.length = 5 → (adcAt s a).stats = true → m.gathered = true → 400 ≤ m.activity →
     adcFeedsFade s a = true →
     ∃ t, exec (.elementStatisticsDone a m) s = .next t ∧ now t = max (now s) ((adcAt s a).phaseAt + ms 200) ∧
       adcAt t a = { adcAt s a with
         stats := false, activity := m.activity, elemBad := false, choice := some (computeChoice a m s).1, deferred := true, phaseAt := now t }) ∧
  -- ELEMENT_STATISTICS_DONE of a qualified run that no fade needs: the interruption begins (R517).
  (∀ (s : State) (a : Nat) (m : ElemStats), a < 5 → s.cal.adcs.length = 5 → (adcAt s a).stats = true → m.gathered = true → 400 ≤ m.activity →
     adcFeedsFade s a = false → adcSteady s a = true →
     ∃ t, exec (.elementStatisticsDone a m) s = .next t ∧ now t = max (now s) ((adcAt s a).phaseAt + ms 200) ∧
       adcAt t a = { adcAt s a with
         stats := false, deferred := false, activity := m.activity, elemBad := false, choice := some (computeChoice a m s).1
         interrupted := true, phaseAt := now t }) ∧
  -- ELEMENT_STATISTICS_DONE of a qualified run while its window retunes: the interruption waits for the retune (R123, R517).
  (∀ (s : State) (a : Nat) (m : ElemStats), a < 5 → s.cal.adcs.length = 5 → (adcAt s a).stats = true → m.gathered = true → 400 ≤ m.activity →
     adcFeedsFade s a = false → adcSteady s a = false →
     ∃ t, exec (.elementStatisticsDone a m) s = .next t ∧ (adcAt t a).deferred = true ∧ (adcAt t a).interrupted = (adcAt s a).interrupted ∧
       (adcAt t a).choice = some (computeChoice a m s).1) ∧
  -- The pair of elements that a run leaves unused is one whose 16 others cancel best (R517).
  (∀ (l : List Int) (s : State), ∀ p ∈ sparePairs, residualError l (chooseSpares l s).1 ≤ residualError l p) ∧
  -- FADE_DEFER_EXPIRY: after 2 s the deferred interruption begins, but for one that waits for a retune (R123, R520).
  (∀ (s : State) (a : Nat), a < 5 → s.cal.adcs.length = 5 → (adcAt s a).deferred = true → adcSteady s a = true →
     ∃ t, exec (.fadeDeferExpiry a) s = .next t ∧ now t = max (now s) ((adcAt s a).phaseAt + 2 * ticksPerSecond) ∧
       adcAt t a = { adcAt s a with stats := false, deferred := false, interrupted := true, phaseAt := now t }) ∧
  -- ELEMENT_INTERRUPTION_END of a converter that serves no window: the choice takes effect and enters the calibration
  -- record (R509, R514, R517, R519).
  (∀ (s : State) (a : Nat) (c : ElemChoice), a < 5 → s.cal.adcs.length = 5 → s.cal.record.adcs.length = 5 → (adcAt s a).interrupted = true → (adcAt s a).asked = false →
     (adcAt s a).choice = some c → adcWindow s a = none →
     ∃ t, exec (.elementInterruptionEnd a) s = .next t ∧
       now t = max (now s) ((adcAt s a).phaseAt + (if a = 4 then 294912 else 442368)) ∧
       (t.cal.record.adcs.getD a {}).spareI = c.spareI ∧ (t.cal.record.adcs.getD a {}).spareQ = c.spareQ ∧
       (t.cal.record.adcs.getD a {}).mismatchI = c.mismatchI ∧ (t.cal.record.adcs.getD a {}).mismatchQ = c.mismatchQ ∧ t.store.calDirty = true ∧
       adcAt t a = { adcAt s a with
         interrupted := false, choice := none, elemResult := 0, applied := (adcAt s a).applied + 1, reference := (adcAt s a).temp
         lastRun := second t % 4294967296, asked := false }) ∧
  -- IQ_ESTIMATE that qualifies: a ramp begins from the correction reached (R515, R521, R522).
  (∀ (s : State) (a : Nat) (m : IqEst), a < 4 → s.cal.adcs.length = 5 → m.gathered = true → adcOpen s a = true → s.head.restarting = false →
     iqFails (powerAt s a m.powerTenthDbm) m = none →
     ∃ t, exec (.iqEstimate a m) s = .next t ∧
       adcAt t a = { adcAt s a with
         gain := (iqNow s (adcAt s a)).1, phase := (iqNow s (adcAt s a)).2, gainTo := m.gain, phaseTo := m.phase, ramp := true, rampAt := now s
         taps := tapsNow s (adcAt s a), tapsTo := m.taps.take 7
         iqBad := if (adcAt s a).iqTriggered.isSome then false else (adcAt s a).iqBad }) ∧
  -- IQ_RAMP_END of an automatic run: after 100 ms the correction is the target (R521).
  (∀ (s : State) (a : Nat), a < 4 → s.cal.adcs.length = 5 → (adcAt s a).ramp = true → (adcAt s a).iqTriggered ≠ some true →
     ∃ t, exec (.iqRampEnd a) s = .next t ∧ now t = max (now s) ((adcAt s a).rampAt + ms 100) ∧
       adcAt t a = { adcAt s a with
         gain := (adcAt s a).gainTo, phase := (adcAt s a).phaseTo, taps := (adcAt s a).tapsTo, ramp := false, iqTriggered := none }) ∧
  -- ALIGNMENT_STEP of a line that is not at its setting on a converter that is not ganged: one step towards it, at most one
  -- a millisecond (R523).
  (∀ (s : State) (a : Nat) (m : AlignMeas) (asked : Bool), a < 5 → s.cal.adcs.length = 5 → s.cal.record.adcs.length = 5 → (adcAt s a).aligning = some asked →
     s.clk.sPll = .locked → adcWindow s a = none → (s.cal.record.adcs.getD a {}).align ≠ clampInt (-256) 256 m.target →
     ∃ t, exec (.alignmentStep a m) s = .next t ∧ now t = max (now s) ((adcAt s a).alignAt + ms 1) ∧
       (t.cal.record.adcs.getD a {}).align = (let v := (s.cal.record.adcs.getD a {}).align; if v < clampInt (-256) 256 m.target then v + 1 else v - 1) ∧
       adcAt t a = { adcAt s a with alignAt := now t }) ∧
  -- ALIGNMENT_STEP of a line at its setting: an automatic run ends (R523).
  (∀ (s : State) (a : Nat) (m : AlignMeas), a < 5 → s.cal.adcs.length = 5 → (adcAt s a).aligning = some false →
     s.clk.sPll = .locked → adcWindow s a = none → (s.cal.record.adcs.getD a {}).align = clampInt (-256) 256 m.target →
     ∃ t, exec (.alignmentStep a m) s = .next t ∧ adcAt t a = { adcAt s a with aligning := none } ∧ t.cal.record = s.cal.record) ∧
  -- CAL_RUN that names at least one open converter: its response waits and the runs are recorded (R380, R524).
  (∀ (f : CmdFrame) (s : State), Accepted 0x0B00 f (calRunChecks f) s → (∃ r ∈ calRuns s f.payload, r.result = none) →
     ∃ t, exec (.calRun f) s = .next t ∧ t.cal.runs = calRuns s f.payload ∧
       (∃ d, t.head.deferred = s.head.deferred ++ [{ key := .calRun, resp := d }] ∧ d.tag = f.tag ∧ d.port = f.port) ∧
       t.cal.record = s.cal.record ∧ t.set = s.set)

/-- A margin below 8 % raises VDD_CORE by 5 mV up to the ceiling; one above 12 % for 10 s lowers it by 5 mV down to the floor.
An assessment keeps the larger of the old and the measured degradation of each island, and the floor, the step limit and the
clock plan follow the worst. The reduced dividers take effect in IDLE or HOLD at once, else 7 days after the assessment.
Besides the rules it rests on what the model chose or inferred: log 67. (R526, R527, R528, R529, R530, R531) -/
def Obligations.TheAdaptiveSupplyFollowsAgeing : Prop :=
  -- AVS_RAISE under a margin of less than 8 %, once the supply has settled and 1 ms after the raise before (R526, R530).
  (∀ (s : State) (l : List Int), l.length = 17 → (worstMargin l).2 < 80 → suppliesCore s = true → min (ceiling s) (s.cal.vdd + 5) ≠ s.cal.vdd →
     ∃ t, exec (.avsRaise l) s = .next t ∧
       now t = max (max (now s) (s.bus.supplyAt + ms s.set.supply.settleMs)) (s.cal.raisedAt + ms 1) ∧
       t.cal = { s.cal with margins := l, above12At := none, raisedAt := now t, vdd := min (ceiling s) (s.cal.vdd + 5) } ∧
       t.set = s.set ∧ t.prog = s.prog ∧ t.front = s.front) ∧
  -- AVS_LOWER after 10 s above 12 % (R526, R530).
  (∀ (s : State) (l : List Int) (n : Nat), n = max (now s) (s.bus.supplyAt + ms s.set.supply.settleMs) → l.length = 17 → 120 < (worstMargin l).2 → suppliesCore s = true → s.bus.supplyStopped = false →
     avsFloor s ≤ s.cal.vdd - 5 → 0 < s.cal.vdd →
     ∃ t, exec (.avsLower l) s = .next t ∧ now t = max n (s.cal.above12At.getD n + 10 * ticksPerSecond) ∧
       t.cal = { s.cal with margins := l, above12At := some (now t), vdd := s.cal.vdd - 5 } ∧
       t.set = s.set ∧ t.prog = s.prog ∧ t.front = s.front) ∧
  -- GRAIN_ASSESSMENT: the record never improves and follows the ageing plan (R527, R528).
  (∀ (s : State) (m : GrainMeas), m.degradation.length = 17 → s.head.restarting = false → s.set.mode ≠ .hold →
     ∃ t, exec (.grainAssessment m) s = .next t ∧
       (let deg := (s.cal.record.degradation.zip m.degradation).map (fun x => max x.1 x.2)
        let row := ageingRow (deg.foldl max 0)
        t.cal.record = { s.cal.record with
          degradation := deg, avsFloor := max s.cal.record.avsFloor row.1, dtLimit := min s.cal.record.dtLimit row.2
          reduced := s.cal.record.reduced || decide (ceiling s < m.needMv) }) ∧
       t.set = s.set ∧ t.prog = s.prog ∧ t.front = s.front) ∧
  -- CLOCK_PLAN_CHANGE to the reduced dividers in IDLE or HOLD (R528).
  (∀ (s : State), s.cal.record.reduced = true → s.cal.dividersReduced = false → s.set.mode = .idle ∨ s.set.mode = .hold →
     ∃ t, exec .clockPlanChange s = .next t ∧ t.cal = { s.cal with dividersReduced := true }) ∧
  -- CLOCK_PLAN_CHANGE in another mode: 7 days after the assessment (R528).
  (∀ (s : State), s.cal.record.reduced = true → s.cal.dividersReduced = false → s.set.mode ≠ .idle → s.set.mode ≠ .hold →
     ∃ t, exec .clockPlanChange s = .next t ∧ now t = max (now s) (s.cal.reducedAt.getD (now s) + 604800 * ticksPerSecond) ∧
       t.cal = { s.cal with dividersReduced := true })

/-- PLAN_BEGIN opens a stage under the next stage number, which it answers. PLAN_PART keeps the part, in place of an earlier
copy of the same number. PLAN_DISCARD empties the stage. A PLAN_COMMIT of the active plan as it stands, marked to be kept
volatile, in IDLE with no shut-down running, advances the plan sequence by one and empties the stage, and touches no object.
Besides the rules it rests on what the model chose or inferred: log 87, 88, 89. (R344, R346, R348, R350, R351) -/
def Obligations.PlansAreStagedAndCommitted : Prop :=
  -- PLAN_BEGIN (R348).
  (∀ (f : CmdFrame) (s : State), s.port.rings.length = 32 → Accepted 0x0E00 f (planBeginChecks f) s →
     ∃ t, exec (.planBegin f) s = .next t ∧
       AnsweredLast 0x0E00 f (okReply f (leBytes 2 (s.plan.stage + 1).toNat ++ zeros 2)) t ∧
       t = { s with plan := { s.plan with stage := s.plan.stage + 1, staged := some (field f.payload 0 2, field f.payload 4 4), parts := [] }
                    port := t.port, out := t.out, bus := t.bus, head := { s.head with blocked := t.head.blocked } }) ∧
  -- PLAN_PART (R348).
  (∀ (f : CmdFrame) (s : State), s.port.rings.length = 32 → Accepted 0x0E01 f (planPartChecks f) s →
     ∃ t, exec (.planPart f) s = .next t ∧ AnsweredLast 0x0E01 f (okReply f []) t ∧
       t = { s with plan := { s.plan with
                      parts := (field f.payload 2 2, field f.payload 4 4, f.payload.drop 8) :: s.plan.parts.filter (fun x => x.1 != field f.payload 2 2) }
                    port := t.port, out := t.out, bus := t.bus, head := { s.head with blocked := t.head.blocked } }) ∧
  -- PLAN_DISCARD (R348).
  (∀ (f : CmdFrame) (s : State), s.port.rings.length = 32 → Accepted 0x0E03 f (planDiscardChecks f) s →
     ∃ t, exec (.planDiscard f) s = .next t ∧ AnsweredLast 0x0E03 f (okReply f []) t ∧
       t = { s with plan := { s.plan with staged := none, parts := [] }, port := t.port, out := t.out, bus := t.bus
                    head := { s.head with blocked := t.head.blocked } }) ∧
  -- PLAN_COMMIT of the plan as it stands, volatile, in IDLE (R344, R346, R350, R351).
  (∀ (f : CmdFrame) (s : State), s.port.rings.length = 32 → Accepted 0x0E02 f (planCommitChecks f) s → field f.payload 4 2 = 0 →
     (field f.payload 2 1).testBit 0 = true → s.set.mode = .idle → anyRemoving s = false → s.plan.committing = none →
     s.store.queue.any (fun j => j.kind == .plan) = false →
     ∃ t, exec (.planCommit f) s = .next t ∧
       t.plan = { s.plan with seq := s.plan.seq + 1, staged := none, parts := [], volatile := true, committing := none, starting := false } ∧
       t.head.deferred = s.head.deferred.filter (fun x => x.key != .commit) ∧
       t.prog = s.prog ∧ t.front = s.front ∧ t.mix = s.mix ∧ t.set = s.set ∧ t.store = s.store)

/-- When its tuner has reached the settings, an opening or retuning window is open and the command that waited for it is
answered; the other windows stay as they are. A closing window is closed and out of the plan. An object whose shut-down ends
leaves the plan. The statement is about a device in which no plan commit waits, no command is held and the COMPAT emulation
is off; for removals, one in which nothing is shed. Besides the rules it rests on what the model chose or inferred: log 15,
20. (R118, R120, R121, R124, R125, R210, R257, R336, R338) -/
def Obligations.OpeningsRetunesAndShutDownsEnd : Prop :=
  -- WINDOW_OPEN_DONE (R118, R120).
  (∀ (s : State) (w : Nat), clockRuns s 6 = true → w < 5 → s.front.windows.length = 9 → (windowAt s w).state = .opening →
     (windowAt s w).retuneTo = none →
     s.set.mode ≠ .compat → s.head.held = [] → s.plan.starting = false → s.head.deferred.filter (fun x => x.key == .commit) = [] →
     ∃ t, exec (.windowOpenDone w) s = .next t ∧
       windowAt t w = { windowAt s w with state := .open, image := (windowAt t w).image } ∧
       (∀ v, v ≠ w → windowAt t v = windowAt s v) ∧
       t.head.deferred = s.head.deferred.filter (fun x => x.key != .windowOpen w) ∧ t.set = s.set ∧ t.plan = s.plan) ∧
  -- RETUNE_DONE (R118, R121).
  (∀ (s : State) (w : Nat), clockRuns s 6 = true → w < 5 → s.front.windows.length = 9 → (windowAt s w).state = .retuning →
     (windowAt s w).retuneTo = none →
     s.set.mode ≠ .compat → s.head.held = [] → s.plan.starting = false → s.head.deferred.filter (fun x => x.key == .commit) = [] →
     ∃ t, exec (.retuneDone w) s = .next t ∧
       windowAt t w = { windowAt s w with state := .open, retunes := (windowAt s w).retunes + 1, image := (windowAt t w).image } ∧
       (∀ v, v ≠ w → windowAt t v = windowAt s v) ∧
       t.head.deferred = s.head.deferred.filter (fun x => x.key != .retune w) ∧ t.set = s.set ∧ t.plan = s.plan) ∧
  -- WINDOW_CLOSED with no command held behind it (R124, R125, R336).
  (∀ (s : State) (w : Nat), clockRuns s 6 = true → w < 5 → s.front.windows.length = 9 → (windowAt s w).state = .closing → s.head.held = [] →
     s.plan.committing = none → s.plan.starting = false → s.head.deferred.filter (fun x => x.key == .commit) = [] →
     ∃ t, exec (.windowClosed w) s = .next t ∧
       windowAt t w = { windowAt s w with state := .closed, inPlan := false, partner := none, tuner := none, closeAfter := false } ∧
       (∀ v, v ≠ w → windowAt t v = windowAt s v) ∧ t.prog = s.prog ∧ t.set = s.set ∧ t.plan = s.plan) ∧
  -- RECEPTION_REMOVED of the only reception, without programmes and follow objects (R210, R336).
  (∀ (s : State) (i : Nat) (r : Reception), clockRuns s 6 = true → i < 256 → receptionAt s i = some r → r.removing = true →
     s.prog.follows = [] → s.prog.programmes = [] → s.set.mode ≠ .compat → anyShed s = false → s.head.restarting = false → s.prog.receptions = [r] →
     s.plan.committing = none → s.plan.starting = false → s.head.deferred.filter (fun x => x.key == .commit) = [] →
     ∃ t, exec (.receptionRemoved i) s = .next t ∧ t.prog.receptions = [] ∧ t.set = s.set ∧
       t.plan = { s.plan with binds := s.plan.binds.filter (fun b => !(b.2.1 == { index := i, gen := r.gen } && b.2.2.1 == 0)) }) ∧
  -- OBJECT_REMOVED of an object of any class (R257, R336).
  (∀ (s : State) (cls : ObjClass) (i : Nat), clockRuns s 6 = true → objRemoving s cls i = true → s.head.held = [] → anyShed s = false →
     s.plan.committing = none → s.plan.starting = false → s.head.deferred.filter (fun x => x.key == .commit) = [] →
     ∃ t, exec (.objectRemoved cls i) s = .next t ∧ t.set = s.set ∧ (match cls with
       | .branch => branchObj t i = none
       | .probe => probeObj t i = none
       | .tap => tapObj t i = none
       | .follow => followObj t i = none
       | .blend => blendObj t i = none
       | .pcm => pcmObj t i = none))

/-- With the SYSPLL locked, a chain that produces outputs takes the samples that reach it and keeps its kind, channel and bank;
otherwise a CHAIN_BLOCK does nothing. A tap's outputs go into its open block until 256 samples complete it, which advances
its block counter by one. When its settle count has passed a chain is RUNNING. A pending bank, delay or frequency takes
effect at a block boundary: the open block is written. A reception whose tracking hold passes without a settled output
searches again. Besides the rules it rests on what the model chose or inferred: log 6, 17, 135. (R118, R156, R160, R162,
R165, R166, R167, R169, R173, R174, R184, R225) -/
def Obligations.ChainsRunBlockByBlock : Prop :=
  -- CHAIN_BLOCK to a chain that produces outputs (R160, R167).
  (∀ (s : State) (o : ChainOwner) (b : ChainIn) (c : Chain), clockRuns s 2 = true → chainOf s o = some c → chainProducing c = true →
     (∀ g, c.gapAt = some g → adcInstant c b < 64 * g) →
     ∃ t, exec (.chainBlock o b) s = .next t ∧
       (∃ c', chainOf t o = some c' ∧ c'.kind = c.kind ∧ c'.freq = c.freq ∧ c'.window = c.window ∧ c'.bank = c.bank) ∧
       t.time = s.time ∧ t.set = s.set ∧ t.plan = s.plan ∧ t.front = s.front) ∧
  -- CHAIN_BLOCK to a chain that produces none, or with the SYSPLL out of lock (R95, R156).
  (∀ (s : State) (o : ChainOwner) (b : ChainIn), clockRuns s 2 = false ∨ chainOf s o = none ∨ (∃ c, chainOf s o = some c ∧ chainProducing c = false) →
     exec (.chainBlock o b) s = .next s) ∧
  -- CHAIN_BLOCK to a tap: 256 samples make a block (R109, R167, R169).
  (∀ (s : State) (i : Nat) (b : ChainIn) (c : Chain), clockRuns s 2 = true → chainOf s (.tap i) = some c → c.kind = .tap → chainProducing c = true →
     c.gapAt = none → s.time.steps = [] → c.epoch = s.time.epoch → c.openSamples.length < 256 → c.openSamples.length + b.samples.length ≤ 256 →
     ∃ t, exec (.chainBlock (.tap i) b) s = .next t ∧
       ∃ c', chainOf t (.tap i) = some c' ∧
         if c.openSamples.length + b.samples.length = 256 then c'.openSamples = [] ∧ c'.blocks = c.blocks + 1
         else c'.openSamples = c.openSamples ++ b.samples ∧ c'.blocks = c.blocks) ∧
  -- SETTLE_COUNT_DONE (R156, R165).
  (∀ (s : State) (o : ChainOwner) (c : Chain), clockRuns s 6 = true → liveChain s o = some c → c.state = .settling →
     ∃ t, exec (.settleCountDone o) s = .next t ∧
       chainOf t o = some { c with state := .running, owedUnsettled := c.owedUnsettled + c.settle, settle := 0 }) ∧
  -- CHAIN_BANK_CHANGED (R162).
  (∀ (s : State) (o : ChainOwner) (c : Chain) (b : Handle), clockRuns s 6 = true → liveChain s o = some c → chainProducing c = true →
     c.pend.bank = some b → c.pend.freq = none →
     ∃ t, exec (.chainBankChanged o) s = .next t ∧
       ∃ c', chainOf t o = some c' ∧ c'.bank = startBank s c.kind b ∧ c'.state = .settling ∧ c'.settle = settleCount c.kind c.window ∧
         c'.openSamples = [] ∧ c'.pend.bank = none ∧ c'.freq = c.freq ∧ c'.window = c.window ∧ c'.kind = c.kind) ∧
  -- DELAY_CHANGE_APPLY (R173).
  (∀ (s : State) (o : ChainOwner) (c : Chain) (d x : Nat), clockRuns s 6 = true → liveChain s o = some c → chainProducing c = true →
     c.pend.delay = some (d, x) →
     ∃ t, exec (.delayChangeApply o) s = .next t ∧
       (∃ c', chainOf t o = some c' ∧ c'.delay = d ∧ c'.frac = x ∧ c'.pend.delay = none ∧ c'.freq = c.freq ∧ c'.openSamples = [] ∧
         c'.gapLost = if d < c.delay then some (c.gapLost.getD 0 + (c.delay - d) / 256) else c.gapLost) ∧
       t.time = s.time ∧ t.set = s.set ∧ t.plan = s.plan ∧ t.front = s.front) ∧
  -- FREQUENCY_CHANGE_APPLY (R118, R166, R174).
  (∀ (s : State) (o : ChainOwner) (c : Chain) (fr w : Nat), clockRuns s 6 = true → liveChain s o = some c → chainProducing c = true →
     c.pend.freq = some (fr, w) →
     ∃ t, exec (.frequencyChangeApply o) s = .next t ∧
       ∃ c', chainOf t o = some c' ∧ c'.freq = fr ∧ c'.window = w ∧ c'.kind = c.kind ∧ c'.pend.freq = none) ∧
  -- TRACKING_HOLD_EXPIRY (R184, R225).
  (∀ (s : State) (i : Nat) (r : Reception) (l : Instant), clockRuns s 6 = true → i < 256 → receptionAt s i = some r → r.rx = .holding →
     r.bridge = false → r.lastSettled = some l →
     ∃ t, exec (.trackingHoldExpiry i) s = .next t ∧
       ∃ r', receptionAt t i = some r' ∧ r'.rx = .searching ∧ r'.losses = r.losses + 1 ∧ r'.lastSettled = none ∧ r'.chain = r.chain ∧ r'.kind = r.kind)

/-- In IDLE, where no object of the plan runs, RECEPTION_ADD, BRANCH_ADD and TAP_ADD append one object of the lowest free index
under the next generation of that index, and answer its handle. RECEPTION_SET changes the named reception in place. A
removal of an object whose chain runs marks it as being shut down and stops its chain; ALERT_SET states the reception's
alert settings. Each advances the plan sequence by one. Besides the rules it rests on what the model chose or inferred: log
38, 52. (R136, R154, R177, R179, R187, R210, R246, R331, R332, R336, R371, R373) -/
def Obligations.ReceptionsAreCreatedChangedAndRemoved : Prop :=
  -- RECEPTION_ADD in IDLE (R177, R331, R332, R371).
  (∀ (f : CmdFrame) (s : State), s.port.rings.length = 32 → s.set.mode = .idle → Accepted 0x0500 f (receptionAddChecks f) s →
     ∃ t, exec (.receptionAdd f) s = .next t ∧
       (let i := newReceptionIndex s
        ∃ r, t.prog.receptions = s.prog.receptions ++ [r] ∧ r.idx = i ∧ r.gen = nextGen (s.gens.reception.getD i 0) ∧
         r.kind = askedKind f.payload ∧ r.window = askedWindow f.payload 1 ∧ r.rx = .searching ∧ r.sentry = false ∧
         r.chain = newChain r.kind r.window (readChainBlock s r.kind r.window f.payload 4)) ∧
       t.plan = { s.plan with seq := s.plan.seq + 1 } ∧ t.front = s.front ∧ t.set = s.set ∧
       t.prog.branches = s.prog.branches ∧ t.prog.taps = s.prog.taps) ∧
  -- RECEPTION_SET that does not move the channel (R179, R371).
  (∀ (f : CmdFrame) (s : State), s.port.rings.length = 32 → Accepted 0x0501 f (receptionSetChecks f) s →
     (changeReception f.target.index f.payload s).2.2.2 = false →
     ∃ t, exec (.receptionSet f) s = .next t ∧
       AnsweredLast 0x0501 f { target := f.target, clamped := (changeReception f.target.index f.payload s).2.1
                               held := (changeReception f.target.index f.payload s).2.2.1 } t ∧
       t.prog = (changeReception f.target.index f.payload s).1.prog ∧ t.plan = { s.plan with seq := s.plan.seq + 1 } ∧
       t.front = s.front ∧ t.set = s.set ∧ t.mix = s.mix) ∧
  -- RECEPTION_REMOVE of a reception whose chain runs (R336, R337, R210).
  (∀ (f : CmdFrame) (s : State) (r : Reception), s.port.rings.length = 32 →
     Accepted 0x0502 f (receptionChecks f (f.payload.length = 0) modesIYSE true) s → receptionAt s f.target.index = some r →
     r.removing = false → chainStarted r.chain = true → r.shed = false → (∀ x ∈ s.prog.receptions, x.untracked = []) →
     ∃ t, exec (.receptionRemove f) s = .next t ∧ AnsweredLast 0x0502 f { target := f.target } t ∧
       receptionAt t f.target.index = some { r with removing := true } ∧
       t.plan = { s.plan with seq := s.plan.seq + 1 } ∧ t.set = s.set) ∧
  -- BRANCH_ADD in IDLE (R136, R331, R332, R373).
  (∀ (f : CmdFrame) (s : State) (r : Reception), s.port.rings.length = 32 → s.set.mode = .idle → Accepted 0x0504 f (branchAddChecks f) s →
     receptionAt s (handleAt f.payload 0).index = some r →
     ∃ t, exec (.branchAdd f) s = .next t ∧
       (let i := newBranchIndex s
        ∃ b, t.prog.branches = s.prog.branches ++ [b] ∧ b.o.idx = i ∧ b.o.gen = nextGen (s.gens.branch.getD i 0) ∧
         b.reception = (handleAt f.payload 0).index ∧ b.chain.state = .stopped ∧ b.o.sentry = false) ∧
       t.plan = { s.plan with seq := s.plan.seq + 1 } ∧ t.prog.receptions = s.prog.receptions ∧ t.front = s.front ∧ t.set = s.set) ∧
  -- BRANCH_REMOVE of a branch whose chain runs (R336, R337).
  (∀ (f : CmdFrame) (s : State) (b : Branch), s.port.rings.length = 32 → Accepted 0x0505 f (branchRemoveChecks f) s →
     s.prog.branches.find? (·.o.idx == f.target.index) = some b → b.o.removing = false → chainStarted b.chain = true → b.o.shed = false →
     ∃ t, exec (.branchRemove f) s = .next t ∧ AnsweredLast 0x0505 f { target := f.target } t ∧
       t.prog = { s.prog with branches := s.prog.branches.map (fun x =>
         if x.o.idx = f.target.index then { x with o := { x.o with removing := true } } else x) } ∧
       t.plan = { s.plan with seq := s.plan.seq + 1 } ∧ t.set = s.set) ∧
  -- TAP_ADD in IDLE (R331, R332, R373).
  (∀ (f : CmdFrame) (s : State), s.port.rings.length = 32 → s.set.mode = .idle → Accepted 0x0506 f (tapAddChecks f) s →
     ∃ t, exec (.tapAdd f) s = .next t ∧
       (let i := newTapIndex s
        ∃ x, t.prog = { s.prog with taps := s.prog.taps ++ [x] } ∧ x.o.idx = i ∧ x.o.gen = nextGen (s.gens.tap.getD i 0) ∧
         x.window = askedWindow f.payload 0 ∧ x.chain = newChain .tap x.window (readChainBlock s .tap x.window f.payload 4)) ∧
       t.plan = { s.plan with seq := s.plan.seq + 1 } ∧ t.front = s.front ∧ t.set = s.set) ∧
  -- TAP_REMOVE of a tap whose chain runs (R336, R337).
  (∀ (f : CmdFrame) (s : State) (x : Tap), s.port.rings.length = 32 → Accepted 0x0507 f (tapRemoveChecks f) s →
     s.prog.taps.find? (·.o.idx == f.target.index) = some x → x.o.removing = false → chainStarted x.chain = true →
     ∃ t, exec (.tapRemove f) s = .next t ∧ AnsweredLast 0x0507 f { target := f.target } t ∧
       t.prog = { s.prog with taps := s.prog.taps.map (fun y =>
         if y.o.idx = f.target.index then { y with o := { y.o with removing := true } } else y) } ∧
       t.plan = { s.plan with seq := s.plan.seq + 1 } ∧ t.set = s.set) ∧
  -- ALERT_SET (R246).
  (∀ (f : CmdFrame) (s : State) (r : Reception), s.port.rings.length = 32 →
     Accepted 0x0509 f (alertSetChecks f) s → receptionAt s f.target.index = some r →
     ∃ t, exec (.alertSet f) s = .next t ∧
       (let c : AlertCfg := { mask := field f.payload 0 2 ||| 1, options := field f.payload 2 1 % 2, cluster := field f.payload 3 1 }
        receptionAt t f.target.index = some { r with
         alertCfg := c, alerts := r.alerts.filter (fun a => watches c a.source a.type a.cluster) }) ∧
       t.plan = { s.plan with seq := s.plan.seq + 1 } ∧ t.set = s.set)

/-- The spectrum of the placements now up, their raster points referred to the input of an external amplifier, adds its
candidates; where it gives none the placements that wait open next. A dwell that ends without acquisition counts one
rejected candidate; one that ends with an analogue station acquired delivers one entry. A pass that was the last one asked
for ends the survey: entries that it did not find are gone, and the sweep's tuners are free. Besides the rules it rests on
what the model chose or inferred: log 6, 27, 59, 139, 145, 173. (R252, R253, R254, R255) -/
def Obligations.SurveyPassesFindStations : Prop :=
  -- SURVEY_SPECTRUM_DONE of the last placements of a pass: their raster points give the candidates (R252).
  (∀ (s : State) (pts ps : List SurveyPoint) (began : Nat), clockRuns s 6 = true → s.survey.running = true → s.survey.measured = false →
     s.set.mode = .survey → s.survey.spectrumAt = some began → placementsWait s = false →
     ps = (pts.filter (fun x => rasterPoint s.survey.cfg x && measuredPoint s x)).map (referPoint s) →
     ∃ t, exec (.surveySpectrumDone pts) s = .next t ∧ now t = max (now s) (began + ms 200) ∧ t.survey.measured = true ∧
       t.survey.candidates = s.survey.candidates + (ps.filter (isCandidate s.survey.cfg ps)).length ∧
       t.survey.list = s.survey.list ∧ t.set = s.set ∧ t.prog = s.prog ∧ t.front = s.front) ∧
  -- SURVEY_SPECTRUM_DONE that finds no candidate while placements wait for their turn: the next ones open (R252).
  (∀ (s : State) (pts ps : List SurveyPoint) (began : Nat), clockRuns s 6 = true → s.survey.running = true → s.survey.measured = false →
     s.set.mode = .survey → s.survey.spectrumAt = some began → placementsWait s = true → s.survey.cands = [] →
     ps = (pts.filter (fun x => rasterPoint s.survey.cfg x && measuredPoint s x)).map (referPoint s) →
     ps.filter (isCandidate s.survey.cfg ps) = [] →
     ∃ t, exec (.surveySpectrumDone pts) s = .next t ∧ now t = max (now s) (began + ms 200) ∧ t.survey.measured = false ∧
       t.survey.spectrumAt = none ∧ (∀ w ∈ t.survey.wins, w.stage ≠ .up) ∧ t.survey.candidates = s.survey.candidates ∧
       t.survey.list = s.survey.list ∧ t.set = s.set ∧ t.prog = s.prog ∧ t.front.windows = s.front.windows) ∧
  -- SURVEY_DWELL_END without acquisition (R252).
  (∀ (s : State) (c : Nat) (x : SurveyCand) (b : SurveyBand) (r : SurveyFind), clockRuns s 6 = true → s.survey.running = true → s.set.mode = .survey →
     s.survey.cands[c]? = some x → x.running = true → s.survey.cfg.bands[x.band]? = some b → r.acquired = false →
     ∃ t, exec (.surveyDwellEnd c r) s = .next t ∧ now t = max (now s) (x.since + ms b.dwell) ∧
       t.survey.rejected = s.survey.rejected + 1 ∧ t.survey.entries = s.survey.entries ∧ t.survey.list = s.survey.list ∧ t.set = s.set) ∧
  -- SURVEY_DWELL_END with an AM or FM station acquired: one entry more (R252, R254).
  (∀ (s : State) (c : Nat) (x : SurveyCand) (b : SurveyBand) (r : SurveyFind), clockRuns s 6 = true → s.survey.running = true → s.set.mode = .survey →
     s.survey.cands[c]? = some x → x.running = true → s.survey.cfg.bands[x.band]? = some b → r.acquired = true → analogue (kindOf b.kind) = true →
     ∃ t, exec (.surveyDwellEnd c r) s = .next t ∧ now t = max (now s) (x.since + ms b.dwell) ∧
       t.survey.rejected = s.survey.rejected ∧ t.survey.entries = s.survey.entries + 1 ∧ t.set = s.set) ∧
  -- SURVEY_PASS_END of the last pass (R254, R255, R253).
  (∀ (s : State), clockRuns s 6 = true → s.survey.running = true → passDone s = true → s.set.mode = .survey →
     s.survey.cfg.passes ≠ 0 → s.survey.cfg.passes ≤ s.survey.pass →
     ∃ t, exec .surveyPassEnd s = .next t ∧ t.survey.running = false ∧ t.survey.wins = [] ∧ t.survey.pass = s.survey.pass ∧
       t.survey.list = s.survey.list.filter (fun e => e.pass == s.survey.pass) ∧
       (∀ u ∈ t.front.tuners, u.role ≠ .survey) ∧ t.front.windows = s.front.windows ∧ t.set = s.set ∧ t.prog = s.prog)

/-- A searching reception whose conditions are met is ACQUIRED; an acquired analogue one whose carrier-to-noise ratio has been
low for its time searches again, one for which it has not goes on. The pilot decision and the carrier loop change what they
decide and nothing else of the reception. An MPX Shaving takes the samples that complete it. A step of a selected RDS stream
that delivers no group moves that stream on and nothing else; a group of a stream other than stream 0 changes nothing else
of the reception. Besides the rules it rests on what the model chose or inferred: log 26, 54, 56, 136, 151, 154, 175. (R181,
R182, R183, R192, R194, R196, R197, R199, R200, R240, R600) -/
def Obligations.AnalogueReceptionsFollowTheirSignals : Prop :=
  -- RECEPTION_ACQUIRED (R182, R183, R600).
  (∀ (s : State) (i : Nat) (r : Reception), clockRuns s 6 = true → i < 256 → receptionAt s i = some r → receiving r = true → r.chain.state = .running →
     r.rx = .searching → acquires r = true →
     ∃ t, exec (.receptionAcquired i) s = .next t ∧
       receptionAt t i = some { r with syncAudio := r.kind = .am && r.dem.opts.detection ≠ 0, rx := .acquired, bridge := false } ∧
       t.set = s.set ∧ t.plan = s.plan ∧ t.front = s.front) ∧
  -- RECEPTION_LOST of an analogue reception (R182, R183).
  (∀ (s : State) (i : Nat) (r : Reception), clockRuns s 6 = true → i < 256 → receptionAt s i = some r → receiving r = true → r.rx = .acquired →
     analogue r.kind = true → lossTicks r.kind ≤ r.dem.lowFor →
     ∃ t, exec (.receptionLost i) s = .next t ∧
       receptionAt t i = some { searchAgain s r with alerts := [] } ∧ t.set = s.set ∧ t.plan = s.plan ∧ t.front = s.front) ∧
  -- RECEPTION_LOST before its time (R182).
  (∀ (s : State) (i : Nat) (r : Reception), receptionAt s i = some r → r.dem.lowFor < lossTicks r.kind → exec (.receptionLost i) s = .next s) ∧
  -- PILOT_DECISION (R194, R196).
  (∀ (s : State) (i : Nat) (r : Reception), clockRuns s 6 = true → i < 256 → receptionAt s i = some r → r.kind = .fm → receiving r = true →
     ∃ t, exec (.pilotDecision i) s = .next t ∧
       receptionAt t i = some { r with
         stereo := decidePilot r.stereo r.dem
         dem := if decidePilot r.stereo r.dem = some true ∧ r.stereo ≠ some true then
             { r.dem with fm := { r.dem.fm with separation := 480000 } } else r.dem } ∧
       (∀ j, j ≠ i → receptionAt t j = receptionAt s j) ∧ t = { s with prog := { s.prog with receptions := t.prog.receptions } }) ∧
  -- SYNC_LOOP_FALLBACK (R192).
  (∀ (s : State) (i : Nat) (r : Reception), clockRuns s 6 = true → i < 256 → receptionAt s i = some r → r.kind = .am → r.syncAudio = true →
     ms 100 ≤ r.dem.am.loop.unlockedFor →
     ∃ t, exec (.syncLoopFallback i) s = .next t ∧
       receptionAt t i = some { r with syncAudio := false, dem := { r.dem with am := { r.dem.am with fellBack := true } } } ∧
       (∀ j, j ≠ i → receptionAt t j = receptionAt s j) ∧ t = { s with prog := { s.prog with receptions := t.prog.receptions } }) ∧
  -- SYNC_LOOP_RESTORE (R192).
  (∀ (s : State) (i : Nat) (r : Reception), clockRuns s 6 = true → i < 256 → receptionAt s i = some r → r.kind = .am → r.rx ≠ .searching →
     r.dem.opts.detection ≠ 0 →
     receiving r = true → r.dem.am.loop.locked = true → r.dem.am.fellBack = false ∨ ms 200 ≤ r.dem.am.loop.lockedFor →
     ∃ t, exec (.syncLoopRestore i) s = .next t ∧
       receptionAt t i = some { r with syncAudio := true, dem := { r.dem with am := { r.dem.am with fellBack := false } } } ∧
       (∀ j, j ≠ i → receptionAt t j = receptionAt s j) ∧ t = { s with prog := { s.prog with receptions := t.prog.receptions } }) ∧
  -- MPX_SHAVING of a bound FM reception (R197).
  (∀ (s : State) (i : Nat) (r : Reception) (n : Nat), clockRuns s 6 = true → i < 256 → receptionAt s i = some r → r.kind = .fm → mpxDue r = true →
     boundRing s 1 0 (ownerHandle s (.reception i)) = some n →
     ∃ t, exec (.mpxShaving i) s = .next t ∧
       receptionAt t i = some { r with dem := { r.dem with fm := { r.dem.fm with out := r.dem.fm.out.drop (mpxRun r.dem.fm.out).length } } } ∧
       (∀ j, j ≠ i → receptionAt t j = receptionAt s j) ∧ t.prog.programmes = s.prog.programmes ∧
       t.plan = s.plan ∧ t.set = s.set ∧ t.front = s.front) ∧
  -- RDS_BLOCK that delivers no group (R199, R200).
  (∀ (s : State) (i k : Nat) (r : Reception) (y : RdsStream × List RdsGroup), clockRuns s 6 = true → i < 256 → k < 4 → receptionAt s i = some r →
     receiving r = true →
     r.kind = .fm → r.ana.streams.testBit k = true → y = rdsNext (r.ana.rbds = 1) (r.rds.getD k {}) → newGroups y.2 y.1 = [] →
     ∃ t, exec (.rdsBlock i k) s = .next t ∧ receptionAt t i = some { r with rds := setAt r.rds k y.1 } ∧
       (∀ j, j ≠ i → receptionAt t j = receptionAt s j) ∧ t = { s with prog := { s.prog with receptions := t.prog.receptions } }) ∧
  -- RDS_BLOCK of streams 1 to 3 (R199, R240).
  (∀ (s : State) (i k : Nat) (r : Reception), clockRuns s 6 = true → i < 256 → k < 4 → k ≠ 0 → receptionAt s i = some r → receiving r = true →
     r.kind = .fm → r.ana.streams.testBit k = true →
     ∃ t, exec (.rdsBlock i k) s = .next t ∧
       (∃ l, receptionAt t i = some { r with rds := l } ∧ ∀ j, j ≠ k → l[j]? = r.rds[j]?) ∧
       (∀ j, j ≠ i → receptionAt t j = receptionAt s j) ∧ t.set = s.set ∧ t.plan = s.plan)

/-- At the end of its interval a measured programme begins the next one, and an analogue reception its measures. Every 100 ms of
audio a momentary loudness is computed: one below the threshold runs the silence timer, one at or above it resets the timer
and ends a reported silence, and concealed audio does neither; less audio than that does nothing. A silence that has lasted
long enough is reported once. Besides the rules it rests on what the model chose or inferred: log 6, 53, 136, 152, 174.
(R202, R203, R204, R205, R206) -/
def Obligations.MeasurementsAndSilence : Prop :=
  -- MEASUREMENT_INTERVAL_END (R202).
  (∀ (s : State) (p : Nat) (x : Programme) (r : Reception) (a : Instant), p < 1024 → clockRuns s 6 = true → programmeAt s p = some x →
     receptionAt s x.reception = some r → x.intervalAt = some a → x.measured = true → receiving r = true →
     ∃ t, exec (.measurementIntervalEnd p) s = .next t ∧
       (∃ y, programmeAt t p = some y ∧ y.intervalAt = some (a.later (ms (100 * x.interval))) ∧ y.interval = x.nextInterval) ∧
       receptionAt t x.reception = some (if analogue r.kind = true then { r with dem := { r.dem with meas := {} } } else r) ∧
       t.set = s.set ∧ t.plan = s.plan) ∧
  -- MOMENTARY_LOUDNESS without 100 ms of audio (R203).
  (∀ (s : State) (p : Nat) (x : Programme), programmeAt s p = some x →
     (x.loud.todo.take (audioRate (kindAt s x.reception) x.decl / 10)).length < audioRate (kindAt s x.reception) x.decl / 10 →
     exec (.momentaryLoudness p) s = .next s) ∧
  -- MOMENTARY_LOUDNESS below the threshold (R205).
  (∀ (s : State) (p rate n : Nat) (x : Programme) (v : Int) (l : List AudioFrame) (loud : Loud) (e : Instant), p < 1024 → clockRuns s 6 = true →
     programmeAt s p = some x →
     x.measured = true → hasAudio s x = true → rate = audioRate (kindAt s x.reception) x.decl → l = x.loud.todo.take (rate / 10) →
     rate / 10 ≤ l.length → loud = loudStep rate (audioChannels (kindAt s x.reception) x.decl) x.loud →
     n = 100 * (unconcealed l).length / l.length → e = (l.getLastD {}).at'.later (ticksPerSecond / rate) →
     loudnessOver rate 400 loud = some v → v < 10 * x.threshold → n ≠ 0 → x.silent = false →
     ∃ t, exec (.momentaryLoudness p) s = .next t ∧
       programmeAt t p = some { x with loud := loud, belowSince := some (x.belowSince.getD e)
                                       belowMs := if x.belowSince.isSome then x.belowMs + n else 0 } ∧
       t = { s with prog := { s.prog with programmes := t.prog.programmes } }) ∧
  -- MOMENTARY_LOUDNESS at or above the threshold (R205).
  (∀ (s : State) (p rate : Nat) (x : Programme) (v : Int) (l : List AudioFrame) (loud : Loud), p < 1024 → clockRuns s 6 = true →
     programmeAt s p = some x →
     x.measured = true → hasAudio s x = true → rate = audioRate (kindAt s x.reception) x.decl → l = x.loud.todo.take (rate / 10) →
     rate / 10 ≤ l.length → loud = loudStep rate (audioChannels (kindAt s x.reception) x.decl) x.loud →
     loudnessOver rate 400 loud = some v → 10 * x.threshold ≤ v →
     100 * (unconcealed l).length / l.length ≠ 0 →
     ∃ t, exec (.momentaryLoudness p) s = .next t ∧
       programmeAt t p = some { x with loud := loud, silent := false, belowSince := none, belowMs := 0 } ∧
       t.prog.receptions = s.prog.receptions ∧ t.set = s.set ∧ t.plan = s.plan) ∧
  -- MOMENTARY_LOUDNESS of concealed audio (R205).
  (∀ (s : State) (p rate : Nat) (x : Programme) (l : List AudioFrame), p < 1024 → clockRuns s 6 = true → programmeAt s p = some x →
     x.measured = true → hasAudio s x = true →
     rate = audioRate (kindAt s x.reception) x.decl → l = x.loud.todo.take (rate / 10) → rate / 10 ≤ l.length →
     100 * (unconcealed l).length / l.length = 0 →
     ∃ t, exec (.momentaryLoudness p) s = .next t ∧
       programmeAt t p = some { x with loud := loudStep rate (audioChannels (kindAt s x.reception) x.decl) x.loud } ∧
       t = { s with prog := { s.prog with programmes := t.prog.programmes } }) ∧
  -- SILENCE_BEGAN (R205).
  (∀ (s : State) (p : Nat) (x : Programme) (b : Instant), p < 1024 → clockRuns s 6 = true → programmeAt s p = some x →
     x.measured = true → x.silent = false → hasAudio s x = true → x.belowSince = some b → 1000 * x.silenceS ≤ x.belowMs →
     ∃ t, exec (.silenceBegan p) s = .next t ∧ programmeAt t p = some { x with silent := true } ∧
       t.prog.receptions = s.prog.receptions ∧ t.set = s.set ∧ t.plan = s.plan)

/-- A CIF, a FAC block and an SDC block that the engine has completed are counted by their reception, with the runs of good and
bad blocks and of missing synchronisation. An acquired reception whose control channel fails searches again. A
reconfiguration is counted and in force once its announced count is reached, and not before. A programme absent for 60 s is
removed, a suspended selection that fits is decoded again, a transport unit counts its units, those of a DAB+ superframe
while its synchronisation is held, which three good firecodes at one phase give and ten bad ones end, and a MOT object idle
for 60 s is abandoned. Besides the rules it rests on what the model chose or inferred: log 6, 26, 56, 57, 155, 156, 176.
(R210, R214, R221, R222, R223, R224, R228, R229, R235, R241, R243, R245) -/
def Obligations.DigitalReceptionsAndTheirProgrammes : Prop :=
  -- DAB_CIF, DRM_FRAME: without a CIF or frame that the engine has completed nothing happens (R228).
  (∀ (s : State) (i : Nat) (x : Reception) (c : DabCif) (d : DrmFrame), receptionAt s i = some x → x.ofdm.marks = [] →
     exec (.dabCif i c) s = .next s ∧ exec (.drmFrame i d) s = .next s) ∧
  -- DAB_CIF without a good FIB, or one that declares nothing to an acquired reception (R223, R224, R241).
  (∀ (s : State) (i : Nat) (x : Reception) (c : DabCif) (m : FrameMark) (l : List FrameMark), clockRuns s 6 = true → i < 256 → c.fibs.length ≤ 3 →
     c.fibs.all (fun b => b.length = 32) = true → receptionAt s i = some x → x.ofdm.marks = m :: l → unitUp s 4 = true → receiving x = true →
     x.kind = .dab → cifPassed m c = false ∨ (x.rx = .acquired ∧ c.comps = none ∧ c.alerts = [] ∧ c.links = [] ∧ c.cands = []) →
     ∃ t, exec (.dabCif i c) s = .next t ∧
       (∃ y, receptionAt t i = some y ∧ y.ofdm.marks = l ∧ y.rx = x.rx ∧
         y.goodRun = (if cifPassed m c then x.goodRun + 1 else 0) ∧ y.badRun = (if cifPassed m c then 0 else x.badRun + 1) ∧
         y.noSync = (if m.pos ≠ 0 then x.noSync else if m.sync then 0 else x.noSync + 1) ∧
         y.ensemble = (if cifPassed m c then c.ensemble.getD x.ensemble else x.ensemble)) ∧ t.set = s.set ∧ t.plan = s.plan) ∧
  -- DRM_FRAME of an acquired reception (R223, R224, R245).
  (∀ (s : State) (i : Nat) (x : Reception) (d : DrmFrame) (m : FrameMark) (l : List FrameMark), clockRuns s 6 = true → i < 256 → d.fac.length ≤ 16 →
     receptionAt s i = some x →
     x.ofdm.marks = m :: l → unitUp s 4 = true → receiving x = true → isDrm x.kind = true → x.rx = .acquired →
     ∃ t, exec (.drmFrame i d) s = .next t ∧
       (∃ y, receptionAt t i = some y ∧ y.ofdm.marks = l ∧ y.rx = .acquired ∧
         y.goodRun = (if d.crcOk && drmSupported x.kind d && fixedMatch x.kind x.dig d.mode d.occupancy then x.goodRun + 1 else 0) ∧
         y.badRun = (if d.crcOk then 0 else x.badRun + 1) ∧ y.hierarchical = (if d.crcOk then x.kind = .drm30 && d.hierarchical else x.hierarchical) ∧
         y.noSync = (if m.sync then 0 else x.noSync + 1) ∧ y.services = (if d.crcOk then d.services.getD x.services else x.services) ∧
         y.drm = (if d.crcOk then [if x.kind = .drmPlus then 4 else d.mode, d.occupancy, d.msc, d.longInt.toNat] else x.drm)) ∧
       t.set = s.set ∧ t.plan = s.plan) ∧
  -- DRM_SUPERFRAME that fails its CRC, or declares nothing (R224, R245).
  (∀ (s : State) (i : Nat) (x : Reception) (d : DrmSuper), clockRuns s 6 = true → i < 256 → d.sdc.length ≤ 1024 → receptionAt s i = some x →
     unitUp s 4 = true →
     receiving x = true → isDrm x.kind = true → x.ofdm.past ≠ [] →
     d.crcOk = false ∨ (d.comps = none ∧ d.alerts = [] ∧ d.links = [] ∧ d.cands = []) →
     ∃ t, exec (.drmSuperframe i d) s = .next t ∧ receptionAt t i = some (countControl x 0 0 1 (!d.crcOk).toNat) ∧ t.set = s.set ∧ t.plan = s.plan) ∧
  -- CONTROL_CHANNEL_TIMEOUT (R224).
  (∀ (s : State) (i : Nat) (x : Reception), clockRuns s 6 = true → i < 256 → receptionAt s i = some x → x.rx = .acquired → receiving x = true →
     analogue x.kind = false →
     (if x.kind = .dab then 2000 ≤ 24 * x.badRun else 10 ≤ x.badRun) ∨ 10 ≤ x.noSync →
     ∃ t, exec (.controlChannelTimeout i) s = .next t ∧ receptionAt t i = some { searchAgain s x with alerts := [] } ∧ t.set = s.set ∧ t.plan = s.plan) ∧
  -- RECEPTION_RECONFIGURED when the announced count is reached: the new configuration is in force (R222).
  (∀ (s : State) (i : Nat) (x : Reception) (a : Announced), i < 256 → clockRuns s 6 = true → receptionAt s i = some x → receiving x = true →
     analogue x.kind = false → x.announced = some a → a.left = 0 →
     ∃ t, exec (.receptionReconfigured i) s = .next t ∧
       ∃ y, receptionAt t i = some y ∧ y.reconfigs = x.reconfigs + 1 ∧ y.announced = none ∧ y.declared = a.comps.filter (·.audio) ∧
         y.rx = x.rx ∧ y.kind = x.kind) ∧
  -- RECEPTION_RECONFIGURED before that: the old configuration stays in force (R222).
  (∀ (s : State) (i : Nat) (x : Reception) (a : Announced), i < 256 → receptionAt s i = some x →
     x.announced = some a → 0 < a.left → exec (.receptionReconfigured i) s = .next s) ∧
  -- DECODE_RESUMED (R214).
  (∀ (s : State) (p : Nat) (x : Programme), clockRuns s 6 = true → p < 1024 → programmeAt s p = some x → x.selected = true → x.suspended = true →
     x.shedStep = 0 →
     (let c := selectionCharge (kindAt s x.reception) x.reserve x.decl.codec
      let u := modProgramme p (fun y => { y with charge := c, suspended := false }) s
      guUsed u ≤ guLimit u) →
     ∃ t, exec (.decodeResumed p) s = .next t ∧
       programmeAt t p = some { x with charge := selectionCharge (kindAt s x.reception) x.reserve x.decl.codec, suspended := false } ∧
       t.prog.receptions = s.prog.receptions ∧ t.set = s.set ∧ t.plan = s.plan) ∧
  -- PROGRAMME_ABSENT_EXPIRY with every component tracked (R210).
  (∀ (s : State) (p a : Nat) (x : Programme), clockRuns s 6 = true → p < 1024 → programmeAt s p = some x → x.absentAt = some a →
     (∀ r ∈ s.prog.receptions, r.untracked = []) →
     anyShed s = false → s.set.mode ≠ .compat →
     ∃ t, exec (.programmeAbsentExpiry p) s = .next t ∧ now t = max (now s) (a + 60 * ticksPerSecond) ∧ programmeAt t p = none ∧
       t.prog.receptions = s.prog.receptions ∧ t.set = s.set) ∧
  -- TRANSPORT_UNIT without PAD, of a programme without superframes (R229, R235).
  (∀ (s : State) (p : Nat) (x : Programme) (r : Reception) (u : TransportIn), p < 1024 → clockRuns s 6 = true → programmeAt s p = some x →
     receptionAt s x.reception = some r → unitUp s 4 = true → receiving r = true → analogue r.kind = false → x.absentAt = none → u.pad = [] →
     r.ofdm.past ≠ [] → r.hierarchical = false → x.decl.codec ≠ 1 →
     ∃ t, exec (.transportUnit p u) s = .next t ∧
       (∃ y, programmeAt t p = some y ∧ y.units = x.units + u.aus.length ∧
         y.unitFails = x.unitFails + (u.aus.filter (unitFailed x.decl.codec (raspUnit x.decl.codec u))).length ∧ y.selected = x.selected ∧ y.mot = x.mot) ∧
       t.prog.receptions = s.prog.receptions ∧ t.set = s.set ∧ t.plan = s.plan) ∧
  -- TRANSPORT_UNIT of a DAB+ programme: superframe synchronisation comes with 3 good firecodes at one of the five logical-frame phases
  -- and goes with 10 bad ones there (R221, R229).
  (∀ (s : State) (p ph : Nat) (x : Programme) (r : Reception) (u : TransportIn) (v : RaspUnit), p < 1024 → clockRuns s 6 = true →
     programmeAt s p = some x → receptionAt s x.reception = some r → unitUp s 4 = true → receiving r = true → analogue r.kind = false →
     x.absentAt = none → u.pad = [] → r.ofdm.past ≠ [] → r.hierarchical = false → x.decl.codec = 1 → ph = r.cifNo % 5 →
     x.superSync = false ∨ x.phase = ph → v = superframe u.raw →
     ∃ t, exec (.transportUnit p u) s = .next t ∧
       (∃ y, programmeAt t p = some y ∧
         y.superSync = (if x.superSync then v.firecode || decide (x.misses < 9) else v.firecode && decide (2 ≤ x.firecodes.getD ph 0)) ∧
         y.phase = (if x.superSync = false ∧ y.superSync = true then ph else x.phase) ∧
         y.units = x.units + (if y.superSync then v.aus.length else 0) ∧ y.selected = x.selected ∧ y.mot = x.mot) ∧
       t.prog.receptions = s.prog.receptions ∧ t.set = s.set ∧ t.plan = s.plan) ∧
  -- MOT_IDLE_EXPIRY (R243).
  (∀ (s : State) (p tid : Nat) (x : Programme) (m : MotObj), clockRuns s 6 = true → p < 1024 → programmeAt s p = some x →
     x.mot.find? (·.tid == tid) = some m →
     ∃ t, exec (.motIdleExpiry p tid) s = .next t ∧ now t = max (now s) (m.lastAt + 60 * ticksPerSecond) ∧
       programmeAt t p = some { x with mot := x.mot.filter (fun y => y.tid != tid)
                                       motAbandoned := satNat 65535 (x.motAbandoned + (x.mot.filter (fun y => y.tid == tid)).length) } ∧
       t.prog.receptions = s.prog.receptions ∧ t.set = s.set ∧ t.plan = s.plan)

/-- With nothing shed, PROGRAMME_SELECT of a digital programme by its handle charges it its codec's GU, or its reception's
greatest where a reserve is asked, and answers the programme's handle and charge. PROGRAMME_MEASURE of a measured programme
sets the interval that follows, the silence threshold (0 keeps the one in force) and the silence time, each clamped. Both
advance the plan sequence by one and leave every reception and setting. Besides the rules it rests on what the model chose
or inferred: log 58. (R202, R205, R212, R213, R374, R375) -/
def Obligations.ProgrammesAreSelectedAndMeasured : Prop :=
  -- PROGRAMME_SELECT by handle (R212, R213, R374).
  (∀ (f : CmdFrame) (s : State) (x : Programme) (res : Bool) (gu : Nat), s.port.rings.length = 32 →
     Accepted 0x0600 f (programmeSelectChecks f) s → byIdentity f = false → programmeAt s f.target.index = some x →
     analogue (kindAt s x.reception) = false → field f.payload 0 1 ≠ 0 → res = decide (field f.payload 1 1 ≠ 0) →
     gu = selectionCharge (kindAt s x.reception) res x.decl.codec → anyShed s = false →
     ∃ t, exec (.programmeSelect f) s = .next t ∧
       AnsweredLast 0x0600 f { target := f.target, clamped := selectClamped f
                               payload := handleBytes (programmeHandle x) ++ leBytes 2 gu ++ zeros 2 } t ∧
       programmeAt t f.target.index = some { x with
         selected := true, reserve := res, suspended := false, shedStep := 0, charge := gu
         serial := if x.selected then x.serial else s.head.serial } ∧
       t.plan = { s.plan with seq := s.plan.seq + 1 } ∧ t.prog.receptions = s.prog.receptions ∧ t.set = s.set ∧ t.front = s.front) ∧
  -- PROGRAMME_MEASURE of a measured programme by handle (R202, R205, R375).
  (∀ (f : CmdFrame) (s : State) (x : Programme), s.port.rings.length = 32 →
     Accepted 0x0601 f (programmeMeasureChecks f) s → byIdentity f = false → programmeAt s f.target.index = some x →
     x.measured = true → field f.payload 0 1 ≠ 0 → anyShed s = false →
     ∃ t, exec (.programmeMeasure f) s = .next t ∧
       AnsweredLast 0x0601 f { target := f.target, clamped := measureClamped f } t ∧
       programmeAt t f.target.index = some { x with
         nextInterval := clampNat 1 100 (field f.payload 12 2), silenceS := clampNat 1 600 (field f.payload 14 2)
         threshold := if fieldInt f.payload 1 1 = 0 then x.threshold else clampInt (-90) (-30) (fieldInt f.payload 1 1) } ∧
       t.plan = { s.plan with seq := s.plan.seq + 1 } ∧ t.prog.receptions = s.prog.receptions ∧ t.set = s.set ∧ t.front = s.front)

/-- PCM_ROUTE to the new index creates an output of the lowest free index with the settings asked, clamped, and answers its
handle. PCM_REMOVE of an output that plays marks it as being shut down. An underrun plays the FIFO out, stops the output and
deepens its start depth by 1 ms up to 100 ms; a FIFO that holds the start depth starts it. A port takes its settings at a
frame boundary, its outputs faded. A follower port whose frames are not as it asks stops its outputs, and 16 good frames in
a row start those that run. A bound output delivers 240 frames of its FIFO, or silence while it does not play. Besides the
rules it rests on what the model chose or inferred: log 29, 152, 177. (R283, R285, R286, R287, R289, R331, R336, R337) -/
def Obligations.PcmOutputsPlayTheirSources : Prop :=
  -- PCM_ROUTE of a new output (R283, R285, R331).
  (∀ (f : CmdFrame) (s : State) (a : PcmAsk), s.port.rings.length = 32 → Accepted 0x0700 f (pcmRouteChecks f) s → f.target.index = 0xFFFF →
     newPcmIndex s < s.gens.pcm.length → a = readPcm s f.payload →
     ∃ t, exec (.pcmRoute f) s = .next t ∧
       AnsweredLast 0x0700 f { target := { index := newPcmIndex s, gen := nextGen (s.gens.pcm.getD (newPcmIndex s) 0) }, clamped := a.clamped } t ∧
       (∃ x, t.prog = { s.prog with pcms := s.prog.pcms ++ [x] } ∧
         x.o = { idx := newPcmIndex s, gen := nextGen (s.gens.pcm.getD (newPcmIndex s) 0), sentry := s.set.mode == .sentry, serial := s.head.serial } ∧
         x.source = a.source ∧ x.sourceCls = a.cls ∧ x.port = a.port ∧ x.slot = a.slot ∧ x.chMode = a.chMode ∧ x.mute = a.mute ∧
         x.gain = a.gain ∧ x.depth = (if digitalSource s a.cls a.source then 80 else 1) ∧ x.playing = false ∧ x.fifo = []) ∧
       t.plan = { s.plan with seq := s.plan.seq + 1 } ∧ t.set = s.set ∧ t.mix = s.mix) ∧
  -- PCM_REMOVE of an output that runs (R336, R337).
  (∀ (f : CmdFrame) (s : State) (x : PcmOut), s.port.rings.length = 32 → Accepted 0x0701 f (pcmRemoveChecks f) s →
     s.prog.pcms.find? (·.o.idx == f.target.index) = some x → x.o.removing = false → pcmRuns s x = true →
     ∃ t, exec (.pcmRemove f) s = .next t ∧ AnsweredLast 0x0701 f { target := f.target } t ∧
       t.prog = { s.prog with pcms := t.prog.pcms } ∧
       t.prog.pcms.map (fun y => { y with played := [], portFade := (0, 0) }) = s.prog.pcms.map (fun y =>
         let z := { y with o := { y.o with removing := true } }
         let z := if y.o.idx ≠ f.target.index then y else if y.playing then { fadeOut 480 0 z with playing := false } else z
         { z with played := [], portFade := (0, 0) }) ∧
       t.plan = { s.plan with seq := s.plan.seq + 1 } ∧ t.set = s.set ∧ t.mix = s.mix) ∧
  -- TDM_CONFIG_APPLY (R287).
  (∀ (s : State) (port : Nat), port < 4 → port < s.mix.tdm.length → s.set.mode ≠ .compat →
     ∃ t, exec (.tdmConfigApply port) s = .next t ∧ t.mix.tdm[port]? = some (tdmOf s port) ∧
       (∀ m, m ≠ port → t.mix.tdm[m]? = s.mix.tdm[m]?) ∧
       t.prog = { s.prog with pcms := t.prog.pcms } ∧
       t.prog.pcms.map (fun x => { x with played := [], portFade := (0, 0) }) = s.prog.pcms.map (fun x =>
         { (if x.port = port && x.playing then fadeOut 48 48 x else x) with played := [], portFade := (0, 0) }) ∧
       t.set = s.set ∧ t.plan = s.plan) ∧
  -- PCM_UNDERRUN of an output that plays (R285).
  (∀ (s : State) (o : Nat) (x : PcmOut), o < 32 → s.prog.pcms.find? (·.o.idx == o) = some x → x.playing = true →
     ∃ t, exec (.pcmUnderrun o) s = .next t ∧
       (∃ y, t.prog.pcms.find? (·.o.idx == o) = some y ∧ y.playing = false ∧ y.depth = satNat 400 (x.depth + 4) ∧ y.underruns = x.underruns + 1 ∧
         y.fifo = [] ∧ y.fade = (48, 48)) ∧
       t.mix = s.mix ∧ t.plan = s.plan ∧ t.set = s.set) ∧
  -- PCM_FIFO_REFILLED of an output that runs: it plays once the FIFO holds the start depth (R285, R289).
  (∀ (s : State) (o : Nat) (x : PcmOut), o < 32 → s.prog.pcms.find? (·.o.idx == o) = some x → pcmRuns s x = true →
     x.o.removing = false → 4 ≤ x.port ∨ (clockRuns s 9 = true ∧ s.mix.followerLost.getD x.port false = false) → x.playing = false →
     ∃ t, exec (.pcmFifoRefilled o) s = .next t ∧
       t.prog.pcms.find? (·.o.idx == o) = some { x with playing := decide (12 * x.depth ≤ x.fifo.length) } ∧
       t.mix = s.mix ∧ t.plan = s.plan ∧ t.set = s.set) ∧
  -- PCM_SHAVING of a bound output that plays: 240 frames leave its FIFO (R286).
  (∀ (s : State) (o : Nat) (x : PcmOut) (ring : Nat), o < 32 → s.prog.pcms.find? (·.o.idx == o) = some x →
     boundRing s 2 5 { index := o, gen := x.o.gen } = some ring → pcmRuns s x = true → x.o.removing = false → x.playing = true →
     x.played = [] → 240 ≤ x.fifo.length →
     ∃ t, exec (.pcmShaving o) s = .next t ∧
       (∃ y, t.prog.pcms.find? (·.o.idx == o) = some y ∧ y.fifo = x.fifo.drop 240 ∧ y.played = [] ∧ y.playing = true) ∧
       t.mix = s.mix ∧ t.plan = s.plan ∧ t.set = s.set) ∧
  -- PCM_SHAVING of a bound output that does not play: silence, whose time-stamps run on (R285, R286).
  (∀ (s : State) (o : Nat) (x : PcmOut) (ring : Nat), o < 32 → s.prog.pcms.find? (·.o.idx == o) = some x →
     boundRing s 2 5 { index := o, gen := x.o.gen } = some ring → pcmRuns s x = true → x.o.removing = false → x.playing = false →
     x.played = [] →
     ∃ t, exec (.pcmShaving o) s = .next t ∧
       (∃ y, t.prog.pcms.find? (·.o.idx == o) = some y ∧
         y = { x with nextAt := (x.nextAt.later (5120 * 239)).later 5120, portFade := y.portFade }) ∧
       t.mix = s.mix ∧ t.plan = s.plan ∧ t.set = s.set) ∧
  -- FOLLOWER_PORT_LOST (R289).
  (∀ (s : State) (port : Nat) (m : FollowerMeas), port < 4 → (s.mix.tdm.getD port {}).role = 1 → s.mix.followerLost.getD port false = false →
     followerBad (s.mix.tdm.getD port {}) m = true →
     ∃ t, exec (.followerPortLost port m) s = .next t ∧ t.mix = { s.mix with followerLost := setAt s.mix.followerLost port true } ∧
       t.prog = { s.prog with pcms := s.prog.pcms.map (fun x => if x.port = port then { fadeOut 0 480 x with playing := false } else x) } ∧
       t.plan = s.plan ∧ t.set = s.set) ∧
  -- FOLLOWER_PORT_RESUME after 16 consecutive good frames (R289).
  (∀ (s : State) (port good : Nat), port < 4 → 16 ≤ good → s.mix.followerLost.getD port false = true →
     ∃ t, exec (.followerPortResume port good) s = .next t ∧ t.mix = { s.mix with followerLost := setAt s.mix.followerLost port false } ∧
       t.prog = { s.prog with pcms := s.prog.pcms.map (fun x =>
         if x.port = port && pcmRuns s x && !x.o.removing then { x with playing := true, fade := (480, 480) } else x) } ∧
       t.plan = s.plan ∧ t.set = s.set)

/-- FOLLOW_SET and PROBE_ADD to the new index create an object of the lowest free index and the next generation with the
settings asked; FOLLOW_REMOVE and PROBE_REMOVE of a running one mark it as being shut down; PROBE_SET of a running probe
takes its block, kind and, at the end of the dwell, its follow object. A measurement updates the candidate. A retarget gives
the reception the probe's chain and counts a switch. A dwell that ends on a kept candidate starts anew; a glance ends
GLANCED; a learned candidate goes after 600 s without a signal and a rejection after 300 s. Besides the rules it rests on
what the model chose or inferred: log 6, 30, 32, 140, 171, 172. (R256, R257, R259, R261, R262, R263, R264, R266, R270, R273,
R336, R379) -/
def Obligations.FollowObjectsAndProbesDoTheirWork : Prop :=
  -- FOLLOW_SET of a new object (R257, R331, R256).
  (∀ (f : CmdFrame) (s : State), s.port.rings.length = 32 → Accepted 0x0900 f (followSetChecks f) s → f.target.index = 0xFFFF →
     newFollowIndex s < s.gens.follow.length →
     ∃ t, exec (.followSet f) s = .next t ∧
       AnsweredLast 0x0900 f { target := { index := newFollowIndex s, gen := nextGen (s.gens.follow.getD (newFollowIndex s) 0) }
                               clamped := followClamped f.payload } t ∧
       t.prog = { s.prog with follows := s.prog.follows ++ [setFollow s f.payload {
         o := { idx := newFollowIndex s, gen := nextGen (s.gens.follow.getD (newFollowIndex s) 0), serial := s.head.serial }
         current := (handleAt f.payload 0).index }] } ∧
       t.plan = { s.plan with seq := s.plan.seq + 1 } ∧ t.set = s.set ∧ t.mix = s.mix ∧ t.front = s.front) ∧
  -- FOLLOW_REMOVE in SERVE (R336, R337).
  (∀ (f : CmdFrame) (s : State) (x : Follow), s.port.rings.length = 32 → Accepted 0x0901 f (followRemoveChecks f) s → s.set.mode = .serve →
     followAt s f.target.index = some x → x.o.removing = false →
     ∃ t, exec (.followRemove f) s = .next t ∧ AnsweredLast 0x0901 f { target := f.target } t ∧
       followAt t f.target.index = some { x with o := { x.o with removing := true } } ∧
       t.plan = { s.plan with seq := s.plan.seq + 1 } ∧ t.prog.probes = s.prog.probes ∧ t.prog.receptions = s.prog.receptions ∧ t.set = s.set) ∧
  -- PROBE_ADD in IDLE (R261, R331).
  (∀ (f : CmdFrame) (s : State) (k : Kind) (cb : ChainBlock), s.port.rings.length = 32 → s.set.mode = .idle →
     Accepted 0x0903 f (probeAddChecks f) s → k = askedProbeKind f.payload → cb = readChainBlock s k 0 f.payload 8 →
     ∃ t, exec (.probeAdd f) s = .next t ∧
       t.prog = { s.prog with probes := s.prog.probes ++ [{
         o := { idx := newProbeIndex s, gen := nextGen (s.gens.probe.getD (newProbeIndex s) 0), serial := s.head.serial }
         follow := askedFollow f.payload, chain := newChain k (probeWindow s k cb.freq) cb, block := (f.payload.drop 8).take 11 ++ zeros 1
         kind := k, dwellAt := now s, entry := { freq := cb.freq, kind := k, metricAt := now s } }] } ∧
       t.plan = { s.plan with seq := s.plan.seq + 1 } ∧ t.set = s.set ∧ t.mix = s.mix ∧ t.front = s.front) ∧
  -- PROBE_SET of an attached probe that runs: the change of object waits for the dwell's end, that of bank and delay for the next block
  -- boundary of its chain (R162, R173, R379).
  (∀ (f : CmdFrame) (s : State) (x : Probe), s.port.rings.length = 32 → Accepted 0x0904 f (probeSetChecks f) s →
     probeAt s f.target.index = some x → x.follow ≠ none → chainStarted x.chain = true →
     ∃ t, exec (.probeSet f) s = .next t ∧ AnsweredLast 0x0904 f { target := f.target, clamped := probeClamped s f.payload } t ∧
       probeAt t f.target.index = some { x with
         block := (f.payload.drop 8).take 11 ++ zeros 1, kind := askedProbeKind f.payload
         chain := moveChain (probeOnChannel x).2 (chainWindow x.chain)
           (probeBlock s (probeOnChannel x).2 (probeOnChannel x).1 ((f.payload.drop 8).take 11 ++ zeros 1)) x.chain
         nextFollow := if x.follow ≠ askedFollow f.payload then some (askedFollow f.payload) else none } ∧
       t.plan = { s.plan with seq := s.plan.seq + 1 } ∧ t.prog.follows = s.prog.follows ∧ t.prog.receptions = s.prog.receptions ∧ t.set = s.set) ∧
  -- PROBE_REMOVE of a fixed probe that runs (R336).
  (∀ (f : CmdFrame) (s : State) (x : Probe), s.port.rings.length = 32 → Accepted 0x0905 f (probeRemoveChecks f) s →
     probeAt s f.target.index = some x → x.follow = none → x.o.removing = false → chainStarted x.chain = true →
     (∀ y ∈ s.prog.follows, y.pending = none) →
     ∃ t, exec (.probeRemove f) s = .next t ∧ AnsweredLast 0x0905 f { target := f.target } t ∧
       probeAt t f.target.index = some { x with o := { x.o with removing := true } } ∧
       t.plan = { s.plan with seq := s.plan.seq + 1 } ∧ t.prog.follows = s.prog.follows ∧ t.prog.receptions = s.prog.receptions ∧ t.set = s.set) ∧
  -- GAUGE_METRIC, the first of an object whose one candidate is the current reception's own channel, an FM one (R262, R266).
  (∀ (s : State) (fo : Nat) (l : List GaugeIn) (v : Int) (f : Follow) (c : Cand) (r : Reception), clockRuns s 6 = true → fo < 32 → s.set.mode = .serve →
     s.head.restarting = false → followAt s fo = some f → f.o.removing = false → f.pending = none → f.advised = none → f.gaugeAt = none →
     reseat s f = f → f.cands = [c] → c.kind = .fm → c.state = .verified → c.source = none → (capturedBy s c.kind c.freq).isSome = true →
     receptionAt s f.current = some r → receptionOn s f c = some r → receivedIdentity f r = none →
     cnValue r.kind (recentMoments r.kind r.dem) = some v → currentLost s f = false → (∀ p ∈ s.prog.probes, p.follow ≠ none) →
     ∃ t, exec (.gaugeMetric fo l) s = .next t ∧
       followAt t fo = some { f with
         currentMetric := some (v - 120), gaugeAt := some (now s), metricEnd := instantAt s (metricStamp s f), touring := false
         cands := [{ c with
           samples := [some v], source := some (false, r.idx), metric := some (v - 120), metricAt := now s
           sumsMark := (r.ofdm.sums.getD 2 0, r.ofdm.sums.getD 3 0), acquired := decide (r.rx = .acquired), beatSince := none }] } ∧
       t.prog.receptions = s.prog.receptions ∧ t.prog.probes = s.prog.probes ∧ t.set = s.set ∧ t.plan = s.plan ∧ t.mix = s.mix) ∧
  -- RETARGET at the block boundary (R270, R273).
  (∀ (s : State) (fo pr fr : Nat) (k : Kind) (d : Decision) (f : Follow) (r : Reception) (p : Probe), clockRuns s 6 = true → fo < 32 →
     followAt s fo = some f →
     f.pending = some d → d.cand = some (fr, k) → d.probe = pr → f.heldDecision = none → receptionAt s f.current = some r →
     probeAt s pr = some p → p.chain.freq = fr → p.chain.pend.freq = none → p.chain.kind = k → k = r.kind → chainProducing p.chain = true →
     p.o.removing = false → r.removing = false → r.rx = .acquired → r.chain.covered = true →
     ∃ t, exec (.retarget fo) s = .next t ∧
       (∃ y, receptionAt t f.current = some y ∧ y.rx = .acquired ∧ y.window = p.chain.window ∧ y.chain.freq = fr ∧
         y.chain.bank = p.chain.bank ∧ y.chain.state = p.chain.state ∧ y.chain.pend.bankHeld = r.chain.pend.bankHeld ∧ y.kind = r.kind) ∧
       (∃ q, probeAt t pr = some q ∧ q.chain.freq = r.chain.freq ∧ q.chain.kind = r.chain.kind ∧ q.follow = p.follow ∧ q.dwellAt = now s) ∧
       (∃ h, followAt t fo = some h ∧ h.switches = f.switches + 1 ∧ h.pending = none ∧ h.lastSwitch = some (now s) ∧ h.current = f.current) ∧
       t.set = s.set ∧ t.plan = s.plan) ∧
  -- PROBE_DWELL_END of a probe kept on its candidate (R263).
  (∀ (s : State) (pr : Nat) (p : Probe) (h : Handle) (f : Follow), clockRuns s 6 = true → pr < 32 → probeAt s pr = some p → p.follow = some h →
     followAt s h.index = some f → chainStarted p.chain = true → p.chain.covered = true → p.o.removing = false → p.o.shed = false →
     f.glance = none → p.nextFollow = none → probeKept f p = true →
     ∃ t, exec (.probeDwellEnd pr) s = .next t ∧ now t = max (now s) (p.dwellAt + ms (dwellMs p.chain.kind)) ∧
       probeAt t pr = some { p with dwellAt := now t } ∧ t.prog.follows = s.prog.follows ∧ t.prog.receptions = s.prog.receptions ∧
       t.set = s.set ∧ t.plan = s.plan) ∧
  -- GLANCE_END (R264).
  (∀ (s : State) (fo tn fr since : Nat) (k : Kind) (f : Follow), clockRuns s 6 = true → fo < 32 → followAt s fo = some f →
     f.glance = some (tn, fr, k, since) →
     (∀ p ∈ s.prog.probes, p.chain.freq ≠ fr) →
     ∃ t, exec (.glanceEnd fo) s = .next t ∧ now t = max (now s) (since + ms (dwellMs k)) ∧
       followAt t fo = some { f with glance := none, cands := f.cands.map (fun c =>
         if c.freq = fr ∧ c.kind = k then { c with state := .glanced } else c) } ∧
       t.front.tuners = modAt s.front.tuners tn (fun x => { x with role := .freeing 1, state := .warm }) ∧
       t.prog.receptions = s.prog.receptions ∧ t.prog.probes = s.prog.probes ∧ t.set = s.set ∧ t.plan = s.plan) ∧
  -- CANDIDATE_EXPIRY of a learned candidate no probe is on (R259).
  (∀ (s : State) (fo fr : Nat) (k : Kind) (f : Follow) (c : Cand), clockRuns s 6 = true → fo < 32 → followAt s fo = some f →
     f.cands.find? (fun c => c.freq = fr && c.kind = k) = some c → keptOrigin c.origin = false → (∀ p ∈ s.prog.probes, p.chain.freq ≠ fr) →
     ∃ t, exec (.candidateExpiry fo fr k) s = .next t ∧ now t = max (now s) (c.signalled + ms 600000) ∧
       followAt t fo = some { f with cands := f.cands.filter (fun c => !(c.freq = fr && c.kind = k)) } ∧
       t.prog.receptions = s.prog.receptions ∧ t.prog.probes = s.prog.probes ∧ t.set = s.set ∧ t.plan = s.plan) ∧
  -- REJECTION_EXPIRY of a captured candidate (R262).
  (∀ (s : State) (fo fr : Nat) (k : Kind) (f : Follow) (c : Cand), clockRuns s 6 = true → fo < 32 → followAt s fo = some f →
     f.cands.find? (fun c => c.freq = fr && c.kind = k) = some c → c.state = .rejected → (capturedBy s k fr).isSome = true →
     ∃ t, exec (.rejectionExpiry fo fr k) s = .next t ∧ now t = max (now s) (c.rejectedAt + ms 300000) ∧
       followAt t fo = some { f with cands := f.cands.map (fun c =>
         if c.freq = fr ∧ c.kind = k then { c with state := .unchecked, samples := [], source := none } else c) } ∧
       t.prog.receptions = s.prog.receptions ∧ t.prog.probes = s.prog.probes ∧ t.set = s.set ∧ t.plan = s.plan)

/-- BLEND_SET to the new index creates a pair of the lowest free index that plays branch A; BLEND_REMOVE in IDLE removes one at
once; BLEND_FADE of an aligned pair to its earlier branch begins the fade with the pair's settings. A first good correlation
is remembered; after three that agree the pair is aligned; none is made of a silent or concealed branch. A fade, a drain and
a build end after their length: the pair rests, its line is empty, or the waiting fade begins. A wait for alignment that
ends fades without it. Besides the rules it rests on what the model chose or inferred: log 6, 31, 62, 140, 153. (R275, R276,
R277, R278, R279, R280, R281, R331, R336, R379) -/
def Obligations.BlendPairsAlignAndFade : Prop :=
  -- BLEND_SET of a new pair (R275, R331).
  (∀ (f : CmdFrame) (s : State), s.port.rings.length = 32 → Accepted 0x0907 f (blendSetChecks f) s → f.target.index = 0xFFFF →
     newBlendIndex s < s.gens.blend.length →
     ∃ t, exec (.blendSet f) s = .next t ∧
       AnsweredLast 0x0907 f { target := { index := newBlendIndex s, gen := nextGen (s.gens.blend.getD (newBlendIndex s) 0) }
                               clamped := (setBlend f.payload {}).2 } t ∧
       t.mix = { s.mix with blends := s.mix.blends ++ [{
         o := { idx := newBlendIndex s, gen := nextGen (s.gens.blend.getD (newBlendIndex s) 0), serial := s.head.serial }
         a := handleAt f.payload 0, b := handleAt f.payload 4, curve := satNat 15 (field f.payload 8 1), level := satNat 1 (field f.payload 9 1)
         fadeMs := clampNat 50 2000 (field f.payload 10 2), range := clampNat 100 4000 (field f.payload 12 2)
         drain := clampNat 2 10 (field f.payload 14 1), wait := satNat 100 (field f.payload 15 1) }] } ∧
       t.plan = { s.plan with seq := s.plan.seq + 1 } ∧ t.set = s.set ∧ t.prog = s.prog ∧ t.front = s.front) ∧
  -- BLEND_REMOVE in IDLE (R336, R379).
  (∀ (f : CmdFrame) (s : State) (x : Blend), s.port.rings.length = 32 → Accepted 0x0908 f (blendRemoveChecks f) s → s.set.mode = .idle →
     blendAt s f.target.index = some x → x.o.removing = false → anyShed s = false →
     ∃ t, exec (.blendRemove f) s = .next t ∧ AnsweredLast 0x0908 f { target := f.target } t ∧ blendAt t f.target.index = none ∧
       t.set = s.set ∧ t.gens = s.gens) ∧
  -- BLEND_FADE of an aligned pair to its earlier branch (R278, R279).
  (∀ (f : CmdFrame) (s : State) (b : Blend), s.port.rings.length = 32 → Accepted 0x0909 f (blendFadeChecks f) s →
     blendAt s f.target.index = some b → b.state = .aligned → b.aligned = true → b.playing ≠ satNat 1 (field f.payload 0 1) →
     earlier b = satNat 1 (field f.payload 0 1) → b.slip = 0 →
     ∃ t, exec (.blendFade f) s = .next t ∧
       AnsweredLast 0x0909 f { target := f.target, clamped := decide (1 < field f.payload 0 1) } t ∧
       (∃ y, blendAt t f.target.index = some y ∧ y.state = .fading ∧ y.prev = .aligned ∧ y.playing = satNat 1 (field f.payload 0 1) ∧
         y.fadeNow = b.fadeMs ∧ y.copied = curvePoints s b.curve ∧ y.unalignedFade = false ∧ y.delay = b.delay ∧ y.fadeAt = now s) ∧
       t.prog = s.prog ∧ t.set = s.set ∧ t.plan = s.plan) ∧
  -- SCARF_CORRELATION: the first good one of an unaligned pair (R276, R277).
  (∀ (s : State) (b k : Nat) (d : Int) (x : Blend), clockRuns s 9 = true → clockRuns s 6 = true → b < 8 → unitUp s 9 = true → blendAt s b = some x →
     blendRuns s x = true →
     pairAudio s x = true → branchQuiet s x.a = false → branchQuiet s x.b = false → x.aligned = false → x.agree = [] → x.corrAt = none →
     correlation x = some (k, d) → 500 ≤ k → (∀ f ∈ s.prog.follows, f.blend ≠ some b) →
     ∃ t, exec (.scarfCorrelation b) s = .next t ∧
       blendAt t b = some { x with corrAt := some (now s), noAudio := false, peak := k, agree := [d], misses := 0 } ∧
       t.prog = s.prog ∧ t.set = s.set ∧ t.plan = s.plan) ∧
  -- SCARF_CORRELATION: the third that agrees within 1 ms aligns the pair (R277).
  (∀ (s : State) (b k : Nat) (d p q : Int) (x : Blend), clockRuns s 9 = true → clockRuns s 6 = true → b < 8 → unitUp s 9 = true →
     blendAt s b = some x → blendRuns s x = true →
     pairAudio s x = true → branchQuiet s x.a = false → branchQuiet s x.b = false → x.aligned = false → x.agree = [p, q] →
     threeAgree [d, p, q] = true → x.state = .unaligned → x.waiting = none → correlation x = some (k, d) → 500 ≤ k →
     (∀ f ∈ s.prog.follows, f.blend ≠ some b) →
     ∃ t, exec (.scarfCorrelation b) s = .next t ∧
       (∃ y, blendAt t b = some y ∧ y.state = .aligned ∧ y.prev = .unaligned ∧ y.aligned = true ∧ y.offset = d ∧ y.peak = k ∧
         y.playing = x.playing) ∧
       t.prog = s.prog ∧ t.set = s.set ∧ t.plan = s.plan) ∧
  -- SCARF_CORRELATION while a branch is silent or concealed: nothing is measured (R276).
  (∀ (s : State) (b : Nat) (x : Blend), clockRuns s 9 = true → clockRuns s 6 = true → b < 8 → unitUp s 9 = true → blendAt s b = some x →
     blendRuns s x = true → pairAudio s x = true →
     branchQuiet s x.a = true ∨ branchQuiet s x.b = true → x.corrAt = none →
     ∃ t, exec (.scarfCorrelation b) s = .next t ∧ blendAt t b = some { x with corrAt := some (now s), noAudio := false } ∧
       t.prog = s.prog ∧ t.set = s.set ∧ t.plan = s.plan) ∧
  -- FADE_END with nothing waiting (R278, R280).
  (∀ (s : State) (b : Nat) (x : Blend), clockRuns s 9 = true → clockRuns s 6 = true → b < 8 → unitUp s 9 = true → blendAt s b = some x →
     x.state = .fading → x.heldBranch = none →
     x.delay = 0 → x.request = none → (∀ f ∈ s.prog.follows, f.blend ≠ some b) → (∀ a < 5, (adcAt s a).deferred = false) →
     ∃ t, exec (.fadeEnd b) s = .next t ∧ now t = max (now s) (x.fadeAt + ms x.fadeNow) ∧
       (∃ y, blendAt t b = some y ∧ y.state = restState x ∧ y.prev = .fading ∧ y.playing = x.playing ∧ y.delay = 0 ∧ y.unalignedFade = false) ∧
       t.set = s.set ∧ t.plan = s.plan) ∧
  -- DRAIN_DONE (R280).
  (∀ (s : State) (b : Nat) (x : Blend), clockRuns s 9 = true → clockRuns s 6 = true → b < 8 → unitUp s 9 = true → blendAt s b = some x →
     x.state = .draining →
     (∀ f ∈ s.prog.follows, f.blend ≠ some b) →
     ∃ t, exec (.drainDone b) s = .next t ∧ now t = max (now s) (x.motionAt + motionTicks x.drain x.delay) ∧
       (∃ y, blendAt t b = some y ∧ y.state = restState x ∧ y.prev = .draining ∧ y.delay = 0 ∧ y.playing = x.playing) ∧
       t.prog = s.prog ∧ t.set = s.set ∧ t.plan = s.plan) ∧
  -- BUILD_DONE: the line holds the full offset and the waiting fade begins (R279, R280).
  (∀ (s : State) (b br : Nat) (x : Blend), clockRuns s 9 = true → clockRuns s 6 = true → b < 8 → unitUp s 9 = true → blendAt s b = some x →
     x.state = .building → x.request = some br →
     ∃ t, exec (.buildDone b) s = .next t ∧ now t = max (now s) (x.motionAt + motionTicks x.drain (fullOffset x - x.delay)) ∧
       (∃ y, blendAt t b = some y ∧ y.state = .fading ∧ y.prev = .building ∧ y.playing = br ∧ y.request = none ∧ y.fadeNow = x.fadeMs) ∧
       t.prog = s.prog ∧ t.set = s.set ∧ t.plan = s.plan) ∧
  -- ALIGNMENT_WAIT_EXPIRY (R279).
  (∀ (s : State) (b br : Nat) (x : Blend), clockRuns s 6 = true → b < 8 → unitUp s 9 = true → blendAt s b = some x → x.waiting = some br →
     x.state = .unaligned →
     x.aligned = false → x.slip = 0 →
     ∃ t, exec (.alignmentWaitExpiry b) s = .next t ∧ now t = max (now s) (x.waitAt + ms (100 * x.wait)) ∧
       (∃ y, blendAt t b = some y ∧ y.state = .fading ∧ y.prev = .unaligned ∧ y.playing = br ∧ y.waiting = none ∧ y.unalignedFade = true ∧
         y.delay = x.delay) ∧
       t.prog = s.prog ∧ t.set = s.set ∧ t.plan = s.plan)

/-- SET_MODE to the present mode answers the MODE word and changes nothing; to another mode it begins the transition, leaves the
settings and answers later. The end of a transition from a mode other than TEST and COMPAT to IDLE enters IDLE. In HOLD,
with IDLE as resume mode and a host configuration other than 3, WAKE high for 65 us or more, a two-wire transaction to the
address and the AON alarm wake the device: IDLE, the source as last wake, REF running and every loop locked; the alarm is
cleared. Besides the rules it rests on what the model chose or inferred: log 91, 95. (R34, R35, R36, R37, R42, R43, R362,
R364, R393, R574) -/
def Obligations.ModesChangeAsCommanded : Prop :=
  -- SET_MODE that asks for another mode than HOLD and TEST, outside COMPAT (R34, R36, R362).
  (∀ (f : CmdFrame) (s : State), Accepted 0x0101 f (setModeChecks f) s → askedMode s f ≠ s.set.mode → askedMode s f ≠ .hold →
     askedMode s f ≠ .test → s.set.mode ≠ .compat →
     ∃ t, exec (.setMode f) s = .next t ∧ t.head.transition = some (askedMode s f) ∧ t.set = s.set ∧ t.sec = s.sec) ∧
  -- SET_MODE that asks for the present mode (R362, R34).
  (∀ (f : CmdFrame) (s : State), s.port.rings.length = 32 → Accepted 0x0101 f (setModeChecks f) s → askedMode s f = s.set.mode →
     Reads 0x0101 f { target := f.target, clamped := modeClamped f, payload := leBytes 4 (modeWord s).toNat } s (exec (.setMode f) s)) ∧
  -- MODE_TRANSITION_DONE to IDLE (R36, R37).
  (∀ (s : State), clockRuns s 6 = true → s.head.transition = some .idle → s.set.mode ≠ .test → s.head.held = [] →
     ∃ t, exec .modeTransitionDone s = .next t ∧ t.set = { s.set with mode := .idle } ∧ t.head.transition = none ∧ t.gens = s.gens) ∧
  -- WAKE_HIGH of 65 us or more in HOLD (R42, R574).
  (∀ (s : State) (us : Nat), s.set.mode = .hold → s.pwr.porAsserted = false → s.pwr.stage = .running → 65 ≤ us → hostConfig s ≠ 3 →
     s.set.resume = .idle →
     ∃ t, exec (.wakeHigh us) s = .next t ∧ t.set = { s.set with mode := .idle, lastWake := 1 } ∧ t.clk.refOn = true ∧
       t.clk.sysPll = .locked ∧ t.clk.sPll = .locked ∧ t.clk.aPll = .locked ∧ t.plan = s.plan ∧ t.sec = s.sec) ∧
  -- TWO_WIRE_WAKE in HOLD (R42, R393).
  (∀ (s : State), s.set.mode = .hold → s.pwr.stage = .running → hostConfig s ≠ 3 → s.set.resume = .idle →
     ∃ t, exec .twoWireWake s = .next t ∧ t.set = { s.set with mode := .idle, lastWake := 2 } ∧ t.clk.refOn = true ∧
       t.clk.sysPll = .locked ∧ t.plan = s.plan ∧ t.sec = s.sec) ∧
  -- AON_ALARM in HOLD (R42, R364).
  (∀ (s : State), s.set.mode = .hold → s.pwr.stage = .running → s.pwr.porAsserted = false → s.set.alarm ≠ 0 → hostConfig s ≠ 3 →
     s.set.resume = .idle →
     ∃ t, exec .aonAlarm s = .next t ∧ t.set = { s.set with mode := .idle, lastWake := 3, alarm := 0 } ∧ t.clk.refOn = true ∧
       now t = now s + (s.set.alarm * ticksPerSecond - s.time.count.toNat) ∧ t.plan = s.plan ∧ t.sec = s.sec)

/-- The settings record is queued 1 s after the last change of a run and at most 5 s after its first, and the settings are
clean; the link counters every 60 s while the link has a role; the calibration record when it is dirty, at most once in 60
s; recovery boot makes none of these writes. The end of a write takes it off the queue, and one of the calibration record
counts. FACTORY_DEFAULTS in IDLE of a device without link and time reference leaves the shipped link and time settings, the
shipped bindings, and no user bank. Besides the rules it rests on what the model chose or inferred: log 6, 77, 97. (R50,
R54, R56, R61, R90, R509, R525, R603) -/
def Obligations.TheStoreWritesItsRecords : Prop :=
  -- SETTINGS_COMMIT_TIMER (R50).
  (∀ (s : State) (a : Nat), s.store.dirtyFirst = some a → s.pwr.stage ≠ .recovery →
     ∃ t, exec .settingsCommitTimer s = .next t ∧
       now t = max (now s) (min (s.store.dirtyLast.getD a + ticksPerSecond) (a + 5 * ticksPerSecond)) ∧
       t.store.dirtyFirst = none ∧ t.store.dirtyLast = none ∧
       t.store.queue = s.store.queue ++ [{ id := s.store.nextJob, kind := .settings, content := .settings (settingsAccepted s), length := 8192 }] ∧
       t.set = s.set ∧ t.plan = s.plan ∧ t.prog = s.prog ∧ t.sec = s.sec) ∧
  -- LINK_COUNTERS_SNAPSHOT (R50).
  (∀ (s : State), s.set.link.role ≠ 0 → s.pwr.stage ≠ .recovery →
     ∃ t, exec .linkCountersSnapshot s = .next t ∧ now t = max (now s) (s.link.snapAt + 60 * ticksPerSecond) ∧
       t.link = { s.link with snapAt := now t } ∧ t.store.queue.length = s.store.queue.length + 1 ∧
       (∃ j, t.store.queue.getLast? = some j ∧ j.kind = .counters ∧ j.bothCopies = false) ∧ t.set = s.set ∧ t.plan = s.plan ∧ t.sec = s.sec) ∧
  -- CAL_RECORD_WRITE (R509).
  (∀ (s : State) (w : Nat), s.store.calDirty = true → s.store.calLastWrite = some w → s.pwr.stage ≠ .recovery →
     ∃ t, exec .calRecordWrite s = .next t ∧ now t = max (now s) (w + 60 * ticksPerSecond) ∧ t.store.calDirty = false ∧
       t.store.calLastWrite = some (now t) ∧ t.store.queue.length = s.store.queue.length + 1 ∧
       (∃ j, t.store.queue.getLast? = some j ∧ j.kind = .calibration ∧ j.content = .calibration t.cal.record) ∧ t.set = s.set ∧ t.plan = s.plan) ∧
  -- none of the three in recovery boot, which leaves the store untouched (R90).
  (∀ (s : State), s.pwr.stage = .recovery → exec .settingsCommitTimer s = .next s ∧ exec .linkCountersSnapshot s = .next s ∧
     exec .calRecordWrite s = .next s) ∧
  -- RECORD_WRITE_DONE of the calibration record, with nothing waiting for it (R54, R525).
  (∀ (s : State) (j : WriteJob) (rest : List WriteJob), s.store.queue = j :: rest → j.kind = .calibration → s.plan.starting = false →
     s.head.deferred = [] →
     ∃ t, exec .recordWriteDone s = .next t ∧ t.store.queue = rest ∧ t.cal = { s.cal with writes := s.cal.writes + 1 } ∧
       t.set = s.set ∧ t.plan = s.plan ∧ t.prog = s.prog ∧ t.sec = s.sec) ∧
  -- FACTORY_DEFAULTS in IDLE without link and time reference (R61, R603).
  (∀ (f : CmdFrame) (s : State), Accepted 0x0102 f (factoryDefaultsChecks f) s → s.set.mode = .idle → s.set.link.role = 0 →
     s.set.time.ref = 0 →
     ∃ t, exec (.factoryDefaults f) s = .next t ∧ t.set.mode = .idle ∧ t.set.link = {} ∧ t.set.time = {} ∧ t.set.gather = {} ∧
       t.set.lastWake = s.set.lastWake ∧ t.plan.binds = shippedBinds ∧ (∀ b ∈ t.mix.banks, b.kind = none) ∧ t.sec = s.sec)

/-- KEY_INSTALL queues a write of the key to both copies, KEY_ZEROISE blank writes of the slots named, and both answer later.
FW_UPDATE_BEGIN invalidates and names the slot that does not run; FW_UPDATE_PART adds data; FW_UPDATE_COMMIT validates a
whole image that verifies and refuses another, and its operation 1 raises the rollback counter. REGION_PROFILE_INSTALL puts
its profile in use. TEST_UNLOCK unlocks when its token verifies, and draws a new challenge. A failed entropy test puts the
Mortise in its error state; a reseed clears the request count. Besides the rules it rests on what the model chose or
inferred: log 33, 98, 121, 150. (R485, R487, R488, R494, R496, R497, R499, R500, R503, R504) -/
def Obligations.TheMortiseKeepsKeysAndImages : Prop :=
  -- KEY_INSTALL (R485, R487): the write, to both copies; the keys stay until it ends.
  (∀ (f : CmdFrame) (s : State) (k : Option (List Byte)), Accepted 0x0D00 f (keyInstallChecks f) s →
     k = keyOffered s (satNat 2 (field f.payload 0 1)) (field f.payload 1 1 % 2 == 1) (f.payload.drop 8) →
     ∃ t, exec (.keyInstall f) s = .next t ∧
       t.store.queue = s.store.queue ++ [{ id := s.store.nextJob, kind := .key (satNat 2 (field f.payload 0 1)), content := .key k
                                           length := (f.payload.drop 8).length, bothCopies := true }] ∧
       t.sec = s.sec ∧ t.set = s.set ∧ t.plan = s.plan) ∧
  -- KEY_ZEROISE of slots (R488).
  (∀ (f : CmdFrame) (s : State), Accepted 0x0D01 f (keyZeroiseChecks f) s → maskSlots (field f.payload 0 1) ≠ [] →
     ∃ t, exec (.keyZeroise f) s = .next t ∧ t.sec = { s.sec with zeroising := s.sec.zeroising ++ maskSlots (field f.payload 0 1) } ∧
       t.store.queue.length = s.store.queue.length + (maskSlots (field f.payload 0 1)).length ∧ t.set = s.set ∧ t.plan = s.plan) ∧
  -- KEY_ZEROISE of no slot answers at once (R488).
  (∀ (f : CmdFrame) (s : State), s.port.rings.length = 32 → Accepted 0x0D01 f (keyZeroiseChecks f) s → maskSlots (field f.payload 0 1) = [] →
     Reads 0x0D01 f { target := f.target } s (exec (.keyZeroise f) s)) ∧
  -- FW_UPDATE_BEGIN outside recovery boot (R497).
  (∀ (f : CmdFrame) (s : State), s.port.rings.length = 32 → Accepted 0x0D02 f (fwUpdateBeginChecks f) s → s.pwr.stage = .running →
     ∃ t, exec (.fwUpdateBegin f) s = .next t ∧
       AnsweredLast 0x0D02 f { target := f.target, payload := leBytes 1 (1 - s.sec.running) ++ zeros 3 } t ∧
       t.store = { s.store with images := modAt s.store.images (1 - s.sec.running) (fun x => { x with control := 0, magic := 0 }) } ∧
       t.sec = { s.sec with fwSlot := some (1 - s.sec.running, field f.payload 0 4), fwData := [] } ∧ t.set = s.set ∧ t.plan = s.plan) ∧
  -- FW_UPDATE_PART (R497).
  (∀ (f : CmdFrame) (s : State), s.port.rings.length = 32 → Accepted 0x0D03 f (fwUpdatePartChecks f) s →
     ∃ t, exec (.fwUpdatePart f) s = .next t ∧ AnsweredLast 0x0D03 f { target := f.target } t ∧
       t.sec = { s.sec with fwData := s.sec.fwData ++ [(field f.payload 0 4, f.payload.drop 8)] } ∧ t.store = s.store ∧ t.set = s.set ∧ t.plan = s.plan) ∧
  -- FW_UPDATE_COMMIT, operation 0, of a whole image: validated if it verifies, else DENIED (R494, R497).
  (∀ (f : CmdFrame) (s : State) (n len : Nat) (ok : Bool), s.port.rings.length = 32 → Accepted 0x0D04 f (fwUpdateCommitChecks f) s →
     field f.payload 0 1 = 0 → s.sec.fwSlot = some (n, len) → imageWhole len s.sec.fwData = true →
     ok = imageOk s.sec.rollback (imageBytes len s.sec.fwData) →
     ∃ t, exec (.fwUpdateCommit f) s = .next t ∧
       AnsweredLast 0x0D04 f (if ok then { target := f.target }
         else { status := 5, target := f.target, payload := failPayload { status := 5, detail := 1 } }) t ∧
       t.store.images = (if ok then setAt s.store.images n (validSlot (imageBytes len s.sec.fwData) ((s.store.images.getD (1 - n) {}).install + 1))
         else s.store.images) ∧
       t.sec = (if ok then { s.sec with fwSlot := none, fwData := [] } else s.sec) ∧ t.set = s.set ∧ t.plan = s.plan) ∧
  -- FW_UPDATE_COMMIT, operation 1: the rollback counter (R496, R497).
  (∀ (f : CmdFrame) (s : State), s.port.rings.length = 32 → Accepted 0x0D04 f (fwUpdateCommitChecks f) s → field f.payload 0 1 = 1 →
     s.pwr.stage = .running →
     ∃ t, exec (.fwUpdateCommit f) s = .next t ∧ AnsweredLast 0x0D04 f { target := f.target } t ∧
       t.sec = { s.sec with rollback := max s.sec.rollback (runningImage s).rollback } ∧ t.store = s.store ∧ t.set = s.set ∧ t.plan = s.plan) ∧
  -- REGION_PROFILE_INSTALL (R499).
  (∀ (f : CmdFrame) (s : State), s.port.rings.length = 32 → Accepted 0x0D05 f (regionProfileInstallChecks f) s →
     ∃ t, exec (.regionProfileInstall f) s = .next t ∧ AnsweredLast 0x0D05 f { target := f.target } t ∧
       t.sec = { s.sec with profile := some (parseProfile f.payload) } ∧ t.store.queue.length = s.store.queue.length + 1 ∧
       t.set.link.feGain = min s.set.link.feGain (lowestPower (parseProfile f.payload) + 20).toNat ∧ t.set.mode = s.set.mode ∧ t.plan = s.plan) ∧
  -- TEST_UNLOCK in IDLE (R504).
  (∀ (f : CmdFrame) (s : State) (ok : Bool), s.port.rings.length = 32 → Accepted 0x0D06 f (testUnlockChecks f) s → ok = tokenOk s f.payload →
     ∃ t, exec (.testUnlock f) s = .next t ∧
       AnsweredLast 0x0D06 f (if ok then { target := f.target }
         else { status := 5, target := f.target, payload := failPayload { status := 5, detail := 1 } }) t ∧
       t.sec.unlocked = (s.sec.unlocked || ok) ∧ t.sec.challenge.length = 16 ∧ t.sec.keys = s.sec.keys ∧ t.set = s.set ∧ t.plan = s.plan) ∧
  -- ENTROPY_TEST_FAILURE without a link role (R503).
  (∀ (s : State), s.pwr.stage = .running → s.set.mode ≠ .hold → s.set.link.role = 0 →
     ∃ t, exec .entropyTestFailure s = .next t ∧
       t.sec = { s.sec with state := .error, entropyFails := satNat 65535 (s.sec.entropyFails + 1) } ∧ t.set = s.set ∧ t.plan = s.plan ∧ t.link = s.link) ∧
  -- DRBG_RESEED after 2^20 requests (R500).
  (∀ (s : State), 1048576 ≤ s.sec.requests →
     ∃ t, exec .drbgReseed s = .next t ∧ t = { s with sec := { s.sec with requests := 0 } })

/-- While the emulation is ready: CONTROL's TUNE during a retune waits with what was written; POWER_DOWN gives SET_MODE HOLD;
DEFAULTS gives FACTORY_DEFAULTS; the two UPDATE_KEY sequences within 100 ms give SET_MODE UPDATE and a zeroisation of every
slot. A write to CH_CTRL stores the channel's fields; a 1 written to IRQ_FLAGS clears the flag; a read of FIFO_LEVEL clears
the overflow; a read of FIFO_DATA takes the next byte, and the twelfth of a group removes it; a write transaction stores a
four-byte register's bytes. Besides the rules it rests on what the model chose or inferred: log 37, 99, 142. (R552, R555,
R556, R557, R558, R559, R560, R561) -/
def Obligations.CompatRegistersAct : Prop :=
  -- CONTROL_TUNE while W0 retunes: it waits (R557, R560, R559).
  (∀ (s : State) (f b : Nat), compatLive s = true → compatTuning s = true → s.compat.tuneFreq = some f → s.compat.tuneBw = some b →
     ∃ t, exec .controlTune s = .next t ∧ t.compat = { s.compat with tuneFreq := none, tuneBw := none, tuneAgain := some (f, b) } ∧
       t.set = s.set ∧ t.front = s.front ∧ t.prog = s.prog) ∧
  -- CONTROL_TUNE at once: the settings take what was written, clamped (R557, R558, R559).
  (∀ (s : State) (f b : Nat), compatLive s = true → compatTuning s = false → s.compat.tuneFreq = some f → s.compat.tuneBw = some b → b < 3 →
     ∃ t, exec .controlTune s = .next t ∧ t.compat.tuneFreq = none ∧ t.compat.tuneBw = none ∧
       t.set.compat.tuneKhz = compatLimit (compatPort f) (compatWidth b) f ∧ t.set.compat.bandwidth = b ∧ t.set.mode = .compat) ∧
  -- CONTROL_POWER_DOWN (R557): SET_MODE with HOLD.
  (∀ (s : State), compatLive s = true → Accepted 0x0101 (compatFrame [7, 0, 0, 0]) (setModeChecks (compatFrame [7, 0, 0, 0])) s →
     ∃ t, exec .controlPowerDown s = .next t ∧ t.head.transition = some .hold ∧ t.set = { s.set with resume := .idle } ∧ t.compat.ready = false) ∧
  -- CONTROL_DEFAULTS (R557): FACTORY_DEFAULTS.
  (∀ (s : State), compatLive s = true → Accepted 0x0102 (compatFrame []) (factoryDefaultsChecks (compatFrame [])) s →
     s.set.link.role = 0 → s.set.time.ref = 0 →
     ∃ t, exec .controlDefaults s = .next t ∧ t.set.link = {} ∧ t.set.time = {} ∧ t.set.mode = .compat ∧ t.sec = s.sec) ∧
  -- UPDATE_KEY_UPDATE within 100 ms (R552): SET_MODE with UPDATE.
  (∀ (s u : State) (gap : Nat), compatLive s = true → gap ≤ 100 →
     u = { pass (ms gap) { s with compat := { s.compat with key := some (0x55, now s) } } with compat := { s.compat with key := none } } →
     Accepted 0x0101 (compatFrame [5, 0, 0, 0]) (setModeChecks (compatFrame [5, 0, 0, 0])) u →
     ∃ t, exec (.updateKeyUpdate gap) s = .next t ∧ t.head.transition = some .update ∧ t.set = s.set ∧ t.compat.ready = false ∧
       now t = now s + ms gap) ∧
  -- UPDATE_KEY_ZEROISE within 100 ms (R552): every slot.
  (∀ (s u : State) (gap : Nat), compatLive s = true → gap ≤ 100 →
     u = { pass (ms gap) { s with compat := { s.compat with key := some (0x5A, now s) } } with compat := { s.compat with key := none } } →
     Accepted 0x0D01 (compatFrame [0xFF, 0, 0, 0]) (keyZeroiseChecks (compatFrame [0xFF, 0, 0, 0])) u →
     ∃ t, exec (.updateKeyZeroise gap) s = .next t ∧ t.sec = { s.sec with zeroising := s.sec.zeroising ++ [0, 1, 2] } ∧ t.set = s.set ∧
       t.compat = { s.compat with key := none } ∧ now t = now s + ms gap) ∧
  -- CH_CTRL_WRITE with ENABLE clear while W0 retunes, of a channel without reception (R557, R558).
  (∀ (s : State) (c k : Nat) (v : Byte), c < 4 → compatLive s = true → compatTuning s = true → s.set.compat.channels.length = 4 →
     v.getLsbD 0 = false → compatRx s c = none → k = min ((v.toNat / 2) % 4) 2 →
     ∃ t, exec (.chCtrlWrite c v) s = .next t ∧
       t.set.compat.channels[c]? = some {
         enable := false, standard := k, rds := v.getLsbD 3
         freqKhz := clampFreq (compatKind k) ((s.compat.chFreq.getD c none).getD (compatChannel s c).freqKhz * 1000) / 1000
         service := (s.compat.chService.getD c none).getD (compatChannel s c).service } ∧
       t.compat.chFreq = setAt s.compat.chFreq c none ∧ t.compat.chService = setAt s.compat.chService c none ∧
       t.prog = s.prog ∧ t.front = s.front ∧ t.set.mode = s.set.mode) ∧
  -- IRQ_FLAGS_WRITE (R557).
  (∀ (s : State) (v : Byte), compatLive s = true →
     ∃ t, exec (.irqFlagsWrite v) s = .next t ∧ t = { s with compat := { s.compat with irq := s.compat.irq &&& ~~~(v.setWidth 4) } }) ∧
  -- FIFO_LEVEL_READ (R557).
  (∀ (s : State), compatLive s = true →
     ∃ t, exec .fifoLevelRead s = .next t ∧ t = { s with
       compat := { s.compat with overflow := false }, out := s.out ++ [.compatByte 0x70 (BitVec.ofNat 8 s.compat.fifo.length)] }) ∧
  -- FIFO_DATA_READ: an empty FIFO reads 0; the twelfth byte removes the group (R561).
  (∀ (s : State), compatLive s = true →
     ∃ t, exec .fifoDataRead s = .next t ∧
       t = { s with out := s.out ++ [.compatByte 0x71 ((s.compat.fifo.headD []).getD s.compat.fifoPos 0)]
                    compat := if s.compat.fifo = [] then s.compat
                      else if 11 ≤ s.compat.fifoPos then { s.compat with fifo := s.compat.fifo.drop 1, fifoPos := 0 }
                      else { s.compat with fifoPos := s.compat.fifoPos + 1 } }) ∧
  -- COMPAT_REG_WRITE of TUNE_FREQ's four bytes (R555, R556).
  (∀ (s : State) (a b c d : Byte), compatLive s = true →
     ∃ t, exec (.compatRegWrite 0x08 [a, b, c, d]) s = .next t ∧ t = { s with compat := { s.compat with tuneFreq := some (ofLe [a, b, c, d]) } }) ∧
  -- COMPAT_REG_WRITE of fewer bytes than the register has: nothing is written (R556).
  (∀ (s : State) (a b c : Byte), exec (.compatRegWrite 0x08 [a, b, c]) s = .next s)

/-- A watchdog expiry and a Headstock fault begin a restart, count it and discard the staged plan; at the restart's end the
commands in hand are counted as answered and none waits; spacing ends after 60 s. A checked engine whose memory reports an
uncorrectable error is out of service; with nothing reported every engine stays as it is. A corrected Timber word is
remembered with its time; an uncorrectable one in a snapshot marks the snapshot invalid. A fault of a unit without a spare
is recorded, and that of Scarf stops every PCM output. An undelivered log entry is delivered. Besides the rules it rests on
what the model chose or inferred: log 6, 46, 100, 101, 103. (R66, R352, R353, R354, R533, R534, R540, R541, R543, R544,
R546, R549) -/
def Obligations.FailuresAreMetAsTheRulesSay : Prop :=
  -- WATCHDOG_EXPIRY with no frame on air and fewer than 4 restarts in 60 s (R352, R544, R546, R66).
  (∀ (s : State), restartable s = true → s.clk.wdogSuspended = false → s.link.air = none → s.head.spaced = false →
     (recentRestarts s).length < 4 →
     exec .watchdogExpiry s = .next { s with
       plan := { s.plan with staged := none, parts := [] }
       head := { s.head with
         expiries := satNat 255 (s.head.expiries + 1), restartCause := 0, restarting := true, delayed := false
         restarts := satNat 65535 (s.head.restarts + 1), lastRestart := now s, recent := recentRestarts s ++ [now s]
         stagedLost := s.head.stagedLost || s.plan.staged.isSome } }) ∧
  -- HEADSTOCK_FAULT with fewer than 4 restarts in 60 s (R352, R544, R546).
  (∀ (s : State) (ecc : Bool), restartable s = true → s.head.spaced = false → (recentRestarts s).length < 4 →
     exec (.headstockFault ecc) s = .next { s with
       plan := { s.plan with staged := none, parts := [] }
       head := { s.head with
         restartCause := if ecc then 2 else 1, restarting := true, delayed := false
         restarts := satNat 65535 (s.head.restarts + 1), lastRestart := now s, recent := recentRestarts s ++ [now s]
         stagedLost := s.head.stagedLost || s.plan.staged.isSome } }) ∧
  -- HEADSTOCK_FAULT after 4 restarts in 60 s and less than 1 s after the last: the restart waits (R546).
  (∀ (s : State) (ecc : Bool), restartable s = true → 4 ≤ (recentRestarts s).length → now s < s.head.lastRestart + ticksPerSecond →
     exec (.headstockFault ecc) s = .next { s with
       head := { s.head with restartCause := if ecc then 2 else 1, spaced := true, delayed := true } }) ∧
  -- RESTART_DELAY_EXPIRY: the delayed restart begins 1 s after the one before (R546).
  (∀ (s : State), s.head.delayed = true → now s ≤ s.head.lastRestart + ticksPerSecond →
     ∃ t, exec .restartDelayExpiry s = .next t ∧ t.head.restarting = true ∧ t.head.delayed = false ∧
       t.head.lastRestart = s.head.lastRestart + ticksPerSecond ∧ t.plan.staged = none ∧ t.set = s.set) ∧
  -- FIRMWARE_RESTARTED: every command in hand or held is answered, and a commit goes on without its response (R352 to
  -- R354).
  (∀ (s : State), s.head.restarting = true → s.head.spaced = false →
     ∃ t, exec .firmwareRestarted s = .next t ∧
       t.head = { s.head with
         restarting := false, deferred := [], held := [], stagedLost := false
         answered := satNat 65535 (s.head.deferred.length + s.head.held.length + ((s.plan.committing.bind (·.resp)).toList).length) } ∧
       t.plan = { s.plan with committing := s.plan.committing.map (fun c => { c with resp := none }) } ∧ t.set = s.set) ∧
  -- RESTART_SPACING_END (R546).
  (∀ (s : State), s.head.spaced = true → s.head.restarting = false → s.head.delayed = false →
     ∃ t, exec .restartSpacingEnd s = .next t ∧ t.head = { s.head with spaced := false, spacingNoted := false, recent := [] } ∧
       (now s ≤ s.head.lastRestart + 60 * ticksPerSecond → now t = s.head.lastRestart + 60 * ticksPerSecond)) ∧
  -- ENGINE_PROGRESS_CHECK: an engine whose memory reports an uncorrectable error leaves service (R533).
  (∀ (s : State) (stalled ecc : BitVec 16) (e : Nat), s.pwr.stage = .running → s.set.mode ≠ .hold → s.head.restarting = false →
     s.head.delayed = false → e < 16 → e < s.health.engines.length → ecc.getLsbD e = true →
     ∃ t, exec (.engineProgressCheck stalled ecc) s = .next t ∧ inService t e = false) ∧
  -- ENGINE_PROGRESS_CHECK with nothing to report: 1 ms passes and no engine leaves or enters service (R533).
  (∀ (s : State) (e : Nat), s.pwr.stage = .running → s.set.mode ≠ .hold → s.head.restarting = false → s.head.delayed = false →
     ∃ t, exec (.engineProgressCheck 0 0) s = .next t ∧ inService t e = inService s e) ∧
  -- CONTEXT_SNAPSHOT: every snapshot is valid again, at most 10 ms after the last ones (R534, R542).
  (∀ (s : State), clockRuns s 6 = true → now s ≤ s.health.snapshotAt + ms 10 →
     ∃ t, exec .contextSnapshot s = .next t ∧
       t.health = { s.health with snapshotAt := s.health.snapshotAt + ms 10, badSnapshots := [] } ∧
       t.prog = { s.prog with receptions := s.prog.receptions.map (fun r => { r with snap := (r.dem, r.ofdm, r.rds) }) }) ∧
  -- TIMBER_SCRUB that finds one error in a row without others: the word is remembered with its time (R540, R541).
  (∀ (s : State) (w : Nat), clockRuns s 6 = true → w < 4194304 → now s ≤ s.health.scrubAt + 64 * ticksPerSecond →
     s.health.rowErrors.all (fun x => x.1 / 256 != w / 256) = true →
     ∃ t, exec (.timberScrub [w]) s = .next t ∧ t.health.scrubAt = s.health.scrubAt + 64 * ticksPerSecond ∧
       t.health.rowErrors = (w, s.health.scrubAt + 64 * ticksPerSecond) :: s.health.rowErrors ∧
       t.health.sparedRows = s.health.sparedRows) ∧
  -- TIMBER_ECC_ERROR, corrected, in a row without other errors (R540, R541).
  (∀ (s : State) (w : Nat) (u : TimberUse), w < 4194304 → s.health.rowErrors.all (fun x => x.1 / 256 != w / 256) = true →
     ∃ t, exec (.timberEccError w u false) s = .next t ∧ t.health.rowErrors = (w, now s) :: s.health.rowErrors ∧
       t.health.sparedRows = s.health.sparedRows ∧ t.health.badSnapshots = s.health.badSnapshots) ∧
  -- TIMBER_ECC_ERROR, uncorrectable, in a context's snapshot: the snapshot is invalid until it is rewritten (R542).
  (∀ (s : State) (w r : Nat), w < 4194304 →
     ∃ t, exec (.timberEccError w (.snapshot r) true) s = .next t ∧ r ∈ t.health.badSnapshots ∧
       t.health.rowErrors = s.health.rowErrors.filter (fun x => x.1 / 256 != w / 256)) ∧
  -- BLOCK_FAULT of a unit without a spare (R543).
  (∀ (s : State) (b : Nat), b < 17 → unspared.contains b = true → unitUp s b = true → s.pwr.stage = .running → b ≠ 2 → b ≠ 5 →
     ∃ t, exec (.blockFault b) s = .next t ∧ t.health.blockFaults = s.health.blockFaults ++ [b] ∧
       t.prog = (if b = 9 then { s.prog with pcms := s.prog.pcms.map (fun x => { x with playing := false }) } else s.prog) ∧ t.front = s.front) ∧
  -- HEALTH_LOG_DELIVERY of the one entry not yet delivered (R548, R549).
  (∀ (s : State) (e : LogEntry), s.health.log.find? (fun e => !e.delivered) = some e → now s ≤ e.firstAt + ticksPerSecond →
     boundRing s 15 6 {} = none →
     ∃ t, exec .healthLogDelivery s = .next t ∧
       t.health.log = s.health.log.map (fun x => if x.seq = e.seq then { x with delivered := true } else x) ∧
       now t = e.firstAt + ticksPerSecond ∧ t.set = s.set) ∧
  -- HEALTH_LOG_DELIVERY with its output bound, outside COMPAT (R548, R549).
  (∀ (s : State) (e : LogEntry) (n : Nat), s.health.log.find? (fun e => !e.delivered) = some e →
     boundRing s 15 6 {} = some n → s.set.mode ≠ .compat →
     ∃ t u, exec .healthLogDelivery s = .next t ∧ t = offerShaving n { kind := 0x60, epoch := e.epoch, stamp := e.time } (logBytes e) 0 u ∧
       u.health.log = s.health.log.map (fun x => if x.seq = e.seq then { x with delivered := true } else x))

/-- Power-on reset keeps the settings store and the fuses and clears the rest. With every rail good, nRESET high and no fault
the sequence after its release ends with the first image running in IDLE; with a rail missing it waits, with nRESET low it
waits after the reload. An accepted nRESET keeps the store, device time and the frame counter and resets every island but I0
and I1; its release runs the sequence. Gates, held islands, repeats, the halt, the reruns of the self-test and the choice of
the AON clock go as the rules say. Besides the rules it rests on what the model chose or inferred: log 6, 105, 106, 107,
110, 111, 124, 125, 126. (R64, R65, R67, R69, R72, R74, R75, R76, R82, R86, R93, R502) -/
def Obligations.ResetsClearAndTheSequenceRuns : Prop :=
  -- POWER_ON_RESET (R64, R65).
  (∀ (s : State),
     ∃ t, exec .powerOnReset s = .next t ∧ t.pwr.porAsserted = true ∧ t.pwr.stage = .porHeld ∧ t.pwr.commands = false ∧
       t.store.settings = s.store.settings ∧ t.store.plan = s.store.plan ∧ t.store.cal = s.store.cal ∧ t.store.profile = s.store.profile ∧
       t.store.counters = s.store.counters ∧ t.store.keys = s.store.keys ∧ t.store.images = s.store.images ∧
       t.sec = { rollback := s.sec.rollback } ∧ t.set = {} ∧ t.head = {} ∧ t.prog = {} ∧ t.mix = {} ∧ t.plan = {} ∧ t.link = {} ∧
       t.time = {} ∧ t.health = {} ∧ t.port = {} ∧ t.bus = {}) ∧
  -- POR_RELEASE with a rail missing that every host configuration requires: 2 ms after VDD_AON rose the device waits, and the
  -- strap is not yet read (R64, R77, R82, R86).
  (∀ (s : State) (b : BootInputs), s.pwr.porAsserted = true → b.rails.contains .vddAon = true →
     alwaysRails.all (fun r => b.rails.contains r) = false →
     ∃ t, exec (.porRelease b) s = .next t ∧ t.pwr.stage = .waitRails ∧ t.pwr.strapRead = false ∧ t.pwr.porAsserted = false ∧
       now t = max (now s) (s.pwr.aonAt.getD (now s) + ms 2) ∧ t.set = s.set ∧ t.store = s.store) ∧
  -- POR_RELEASE with the rail of its host configuration missing: the strap is read and the device waits (R77, R82, R86).
  (∀ (s : State) (b : BootInputs), s.pwr.porAsserted = true → alwaysRails.all (fun r => b.rails.contains r) = true →
     (requiredRails (strapCode b.cfgTenthMv / 4)).all (fun r => b.rails.contains r) = false →
     ∃ t, exec (.porRelease b) s = .next t ∧ t.pwr.stage = .waitRails ∧ t.pwr.strapCode = strapCode b.cfgTenthMv ∧
       t.pwr.porAsserted = false ∧ t.set = s.set ∧ t.store = s.store) ∧
  -- POR_RELEASE while VDD_AON is below 0.70 V: power-on reset stays asserted (R64).
  (∀ (s : State) (b : BootInputs), b.rails.contains .vddAon = false → exec (.porRelease b) s = .next s) ∧
  -- POR_RELEASE with every rail good, nRESET high and no fault (R64, R82, R86, R495).
  (∀ (s : State) (b : BootInputs), s.pwr.porAsserted = true → b.nresetLow = false →
     (requiredRails (strapCode b.cfgTenthMv / 4)).all (fun r => b.rails.contains r) = true → Faultless b →
     slotOk s (firstImage s) = true →
     ∃ t, exec (.porRelease b) s = .next t ∧ RunsImage (firstImage s) t ∧ t.pwr.strapCode = strapCode b.cfgTenthMv ∧ t.pwr.rc.cause = 0) ∧
  -- POR_RELEASE with every rail good and nRESET low: the store is reloaded and the sequence waits (R72, R86).
  (∀ (s : State) (b : BootInputs), s.pwr.porAsserted = true → b.nresetLow = true →
     (requiredRails (strapCode b.cfgTenthMv / 4)).all (fun r => b.rails.contains r) = true →
     ∃ t, exec (.porRelease b) s = .next t ∧ t.pwr.stage = .waitNreset ∧ t.pwr.reloadDone = true ∧ t.pwr.commands = s.pwr.commands ∧
       t.store.images = s.store.images) ∧
  -- RAIL_GOOD of the last rail that the sequence waits for (R82, R86).
  (∀ (s : State) (r : Rail), s.pwr.stage = .waitRails → s.pwr.railsGood.contains r = false → s.pwr.nresetLow = false →
     (requiredRails (hostConfig (readStrap s))).all (fun x => (s.pwr.railsGood ++ [r]).contains x) = true → Faultless s.pwr.boot →
     slotOk s (firstImage s) = true →
     ∃ t, exec (.railGood r) s = .next t ∧ RunsImage (firstImage s) t) ∧
  -- NRESET_ACCEPTED, 20 us or longer, while the device runs (R65, R67, R478).
  (∀ (s : State) (w : Nat), 20000 ≤ w → s.pwr.stage = .running → s.pwr.porAsserted = false → s.pwr.reloadDone = true →
     ∃ t, exec (.nresetAccepted w) s = .next t ∧ t.pwr.stage = .nresetHeld ∧ t.pwr.nresetLow = true ∧ t.pwr.commands = false ∧
       t.pwr.released = s.pwr.released &&& 3 ∧ t.store.images = s.store.images ∧ t.store.settings = s.store.settings ∧
       t.time.count = s.time.count ∧ t.sec.keys = ({} : State).sec.keys ∧ t.bus = {} ∧ t.health = {}) ∧
  -- NRESET_ACCEPTED shorter than 5 us (R67).
  (∀ (s : State) (w : Nat), w < 5000 → exec (.nresetAccepted w) s = .next s) ∧
  -- NRESET_RELEASE with every region good and no fault (R69, R89, R91).
  (∀ (s : State) (b : BootInputs), s.pwr.stage = .nresetHeld → s.pwr.porAsserted = false → s.pwr.reloadDone = true →
     b.regionsBad = [] → Faultless b → slotOk s (firstImage s) = true →
     ∃ t, exec (.nresetRelease b) s = .next t ∧ RunsImage (firstImage s) t ∧ t.pwr.rc.cause = 1 ∧
       t.pwr.rc.nresetCount = satNat 255 (s.pwr.rc.nresetCount + 1)) ∧
  -- ISLAND_CLOCK_GOOD of the last island at its gate (R74).
  (∀ (s : State) (i : Nat), i < 17 → s.pwr.stage = .gated → islandsWaiting s = 1#17 <<< i → mayRun s.pwr.rc.held = true →
     s.pwr.boot.selfTest = true → slotOk s (firstImage s) = true →
     ∃ t, exec (.islandClockGood i) s = .next t ∧ RunsImage (firstImage s) t ∧ t.pwr.released = s.pwr.released ||| (1#17 <<< i)) ∧
  -- ISLAND_HELD of the last island at its gate, one without which firmware runs (R75).
  (∀ (s : State) (i : Nat), 0 < i → i < 17 → s.pwr.stage = .gated → islandsWaiting s = 1#17 <<< i →
     mayRun (s.pwr.rc.held ||| (1#16 <<< (i - 1))) = true → s.pwr.boot.selfTest = true → slotOk s (firstImage s) = true →
     ∃ t, exec (.islandHeld i) s = .next t ∧ RunsImage (firstImage s) t ∧ t.pwr.rc.held = s.pwr.rc.held ||| (1#16 <<< (i - 1)) ∧
       t.pwr.released = s.pwr.released) ∧
  -- ISLAND_HELD of the last island at its gate, one without which no firmware runs: the sequence repeats twice and then the
  -- device halts (R76, R75).
  (∀ (s : State) (i : Nat), 0 < i → i < 17 → s.pwr.stage = .gated → islandsWaiting s = 1#17 <<< i →
     mayRun (s.pwr.rc.held ||| (1#16 <<< (i - 1))) = false →
     ∃ t, exec (.islandHeld i) s = .next t ∧ t.pwr.stage = (if s.pwr.attempts < 2 then .retry else .halted) ∧
       t.pwr.rc.held = s.pwr.rc.held ||| (1#16 <<< (i - 1))) ∧
  -- SEQUENCE_REPEAT of the sequence after power-on reset, without a fault (R76, R82).
  (∀ (s : State) (b : BootInputs), s.pwr.stage = .retry → s.pwr.byPor = true → s.pwr.strapRead = true → s.pwr.nresetLow = false →
     (requiredRails (hostConfig s)).all (fun r => b.rails.contains r) = true → Faultless b → slotOk s (firstImage s) = true →
     ∃ t, exec (.sequenceRepeat b) s = .next t ∧ RunsImage (firstImage s) t ∧ t.pwr.attempts = s.pwr.attempts + 1) ∧
  -- SEQUENCE_REPEAT of the sequence after nRESET, with every region good and without a fault (R76, R89).
  (∀ (s : State) (b : BootInputs), s.pwr.stage = .retry → s.pwr.byPor = false → b.regionsBad = [] → Faultless b →
     slotOk s (firstImage s) = true →
     ∃ t, exec (.sequenceRepeat b) s = .next t ∧ RunsImage (firstImage s) t ∧ t.pwr.attempts = s.pwr.attempts + 1) ∧
  -- HALT_BUS_READ while halted: the four bytes of RESET_CAUSE, a write is NAKed (R76).
  (∀ (s : State) (w : Bool), s.pwr.stage = .halted →
     exec (.haltBusRead w) s = .next { s with out := s.out ++ [if w then .nak 0 else .haltBytes (leBytes 4 (resetCauseWord s).toNat)] }) ∧
  -- SELF_TEST_RERUN that passes (R502).
  (∀ (s : State) (b : BootInputs), s.pwr.stage = .selfTestRetry → slotOk s (firstImage s) = true →
     ∃ t, exec (.selfTestRerun true b) s = .next t ∧ RunsImage (firstImage s) t ∧ t.pwr.reruns = s.pwr.reruns + 1) ∧
  -- SELF_TEST_RERUN that fails again: the device halts with island I11 marked (R502).
  (∀ (s : State) (b : BootInputs), s.pwr.stage = .selfTestRetry →
     ∃ t, exec (.selfTestRerun false b) s = .next t ∧ t.pwr.stage = .halted ∧ t.pwr.released = 1 ∧
       t.pwr.rc.held = s.pwr.rc.held ||| (1#16 <<< 10)) ∧
  -- AON_CRYSTAL_SWITCH before the Chuck has decided (R93).
  (∀ (s : State), s.pwr.porAsserted = false → s.pwr.aonDecided = false →
     exec .aonCrystalSwitch s = .next { s with pwr := { s.pwr with aonCrystal := true, aonDecided := true } }) ∧
  -- AON_RC_TIMEOUT: the Chuck stays on the RC, 1.5 s after the release (R93).
  (∀ (s : State), s.pwr.porAsserted = false → s.pwr.aonDecided = false → now s ≤ s.pwr.releasedAt + ms 1500 →
     ∃ t, exec .aonRcTimeout s = .next t ∧ t.pwr = { s.pwr with aonDecided := true, aonNoted := s.pwr.ready } ∧ now t = s.pwr.releasedAt + ms 1500 ∧ t.set = s.set)

/-- For every command and state, one step of the state with the command at the front of its queue is the command's effect on the
state with the rest of the queue (the model's queue, log 4). Besides the rules it rests on what the model chose or inferred:
log 4. (R17) -/
def Obligations.StepRunsTheFrontCommand : Prop :=
  (∀ (c : Instr) (l : List Instr) (s : State), s.pending = c :: l → step s = exec c { s with pending := l })

/-- A step on an empty queue answers a next state: the same state while power-on reset is asserted, else 8 ticks pass while REF
runs and 7,500 while the AON clock counts; nothing but the clock, device time and the trace of the pins changes. That a step
without a command is a clock cycle is the model's choice (log 5). Besides the rules it rests on what the model chose or
inferred: log 5. (R97, R98) -/
def Obligations.AnEmptyQueueIsOneClockCycle : Prop :=
  (∀ (s : State), s.pending = [] →
     ∃ t, step s = .next t ∧ t = { s with clk := t.clk, time := t.time } ∧
       (s.pwr.porAsserted = true → t = s) ∧
       (s.pwr.porAsserted = false → now t = now s + (if s.clk.refOn then 8 else 7500)))

/-- Right after reset power-on reset is asserted, no command is accepted, device time and the epoch are 0 and Plumb is FREE,
every ring is disabled with both pointers 0, every window is closed and every tuner off, no object exists, the link is OFF,
no fault is known, and no command waits. A power-on reset in any state whatever leaves these values too. Register values
that the spec leaves open are the model's own (log 1) and are not stated here. Besides the rules it rests on what the model
chose or inferred: log 1. (R64, R65, R99, R119, R309, R332, R335, R451) -/
def Obligations.ResetLeavesTheStatedValues : Prop :=
  -- the state after reset.
  (State.reset.pending = [] ∧ AtReset State.reset) ∧
  -- POWER_ON_RESET in any state.
  (∀ (s : State), ∃ t, exec .powerOnReset s = .next t ∧ AtReset t)

/-- Right after reset the device has 32 rings, 5 windows and one for a glance on each of 4 tuners, 5 tuners and inputs, 32
coefficient banks, 12 loadable curves, 5 converters and 16 engines. (R112, R119, R157, R264, R282, R293, R507, R533) -/
def Obligations.UnitTablesAtReset : Prop :=
  (UnitTables State.reset)

/-- For every state whose unit tables have the device's sizes, reached or not, every step that answers a next state leaves
tables of these sizes, through every command, both resets and the power-on sequence. (R112, R119, R157, R264, R282, R293,
R507, R533) -/
def Obligations.EveryStepKeepsTheUnitTables : Prop :=
  (∀ (s t : State), UnitTables s → step s = .next t → UnitTables t)

/-- Every command answers a next state in every state: none faults and none is refused. An event whose operand names a unit that
the device does not have changes nothing. Besides the rules it rests on what the model chose or inferred: log 133. (R17,
R112, R293, R331, R533) -/
def Obligations.EveryCommandCompletes : Prop :=
  (∀ (c : Instr) (s : State), ∃ t, exec c s = .next t) ∧
  (∀ (c : Instr) (s : State), c.offDevice = true → exec c s = .next s)

/-- For every command and state: when the command answers a next state, every part of the state that the table of what commands
may change does not list for it is the same after as before. The queue of waiting commands is in no list, so every command
leaves it unchanged. Besides the rules it rests on what the model chose or inferred: log 4, 9. (R17, R65, R66, R327) -/
def Obligations.EachCommandChangesOnlyItsParts : Prop :=
  (∀ (c : Instr) (s t : State) (p : StatePart), exec c s = .next t → p ∉ touches c → p.kept s t)

/-- The checks stand in the order of R327: structure, plan sequence and handles, existence, locks, mode, and then, after
clamping, resources held and admission; the first that fails gives the status, and where none fails the command executes. A
command taken and failing a check gets its failure as its one response and changes nothing of the state but the host port
that carries it. (R327) -/
def Obligations.RefusedCommandsChangeNothing : Prop :=
  -- the order of the checks before clamping.
  (∀ (s : State) (op : Nat) (f : CmdFrame) (c : Checks), earlyFail s op f c =
     (match lowest (failIf (!c.lenOk) 6 2 0xFFFF :: failIf (f.portField ≠ f.port && f.port < 3) 6 3 0xFFFF :: c.bad) with
     | some x => some x
     | none => match lowest (failIf (f.flags.getLsbD 0 && f.planSeq != s.plan.seq) 2 3 0xFFFF :: c.stale) with
       | some x => some x
       | none => match lowest c.noObj with
         | some x => some x
         | none => match lowest c.denied with
           | some x => some x
           | none =>
             if s.pwr.stage == .recovery && !recoveryOpcodes.contains op then some { status := 8, detail := 5, off := 0xFFFF }
             else failIf (!(c.modes.contains s.set.mode || s.pwr.stage == .recovery) || !c.modeOk) 8 s.set.mode.code 0xFFFF)) ∧
  -- the checks after clamping.
  (∀ (c : Checks), lateFail c = (match lowest c.busy with
     | some x => some x
     | none => lowest c.cap)) ∧
  -- a check before clamping fails.
  (∀ (op : Nat) (f : CmdFrame) (c : State → Checks) (body : State → State × Option Reply) (s : State) (x : Fail),
     s.port.rings.length = 32 → Rejected op f c s x →
     Reads op f { status := x.status, target := f.target, payload := failPayload x } s (.next (command op f c body s))) ∧
  -- a check after clamping fails.
  (∀ (op : Nat) (f : CmdFrame) (c : State → Checks) (body : State → State × Option Reply) (s : State) (x : Fail),
     s.port.rings.length = 32 → canTake s f = true → frameNext s op f = true → (c s).holds = false → earlyFail (consume op f s) op f (c (consume op f s)) = none →
     (c (consume op f s)).holds = false → lateFail (c (consume op f s)) = some x →
     Reads op f { status := x.status, target := f.target, clamped := (c (consume op f s)).clamps, payload := failPayload x } s
       (.next (command op f c body s)))

/-- POWER_ON_RESET always puts the device under power-on reset, and an nRESET pulse of 20 us or longer puts a running device
into reset. No other command, whatever it is (a command frame, a register write, a watchdog expiry, a debug access), takes a
running device out of its running stage or puts an island back into reset. (R63) -/
def Obligations.OnlyTheTwoResetsResetTheDevice : Prop :=
  -- the first source.
  (∀ (s : State), ∃ t, exec .powerOnReset s = .next t ∧ t.pwr.porAsserted = true ∧ t.pwr.stage = .porHeld ∧ t.pwr.released = 0) ∧
  -- the second source.
  (∀ (w : Nat) (s : State), 20000 ≤ w → s.pwr.stage = .running → s.pwr.porAsserted = false → s.pwr.reloadDone = true →
     ∃ t, exec (.nresetAccepted w) s = .next t ∧ t.pwr.stage = .nresetHeld ∧ t.pwr.released = s.pwr.released &&& 3) ∧
  -- every other command.
  (∀ (c : Instr) (s t : State), exec c s = .next t → s.pwr.stage = .running → s.pwr.porAsserted = false → c ≠ .powerOnReset →
     (∀ w, c ≠ .nresetAccepted w) → t.pwr.stage = .running ∧ t.pwr.porAsserted = false ∧ t.pwr.released = s.pwr.released)

/-- In every step from every state, through both resets, the rollback counter of the fuses is at least what it was, and where it
rises the command at the front of the queue is FW_UPDATE_COMMIT. Besides the rules it rests on what the model chose or
inferred: log 98. (R496) -/
def Obligations.TheRollbackCounterNeverFalls : Prop :=
  (∀ (s t : State), step s = .next t → s.sec.rollback ≤ t.sec.rollback ∧
     (s.sec.rollback < t.sec.rollback → ∃ f l, s.pending = .fwUpdateCommit f :: l))

/-- After POWER_ON_RESET, and after an nRESET that the device accepts once its store is loaded, no plan is staged and no part of
one is held. (R48) -/
def Obligations.StagedPlansAreDiscardedByResets : Prop :=
  -- power-on reset.
  (∀ (s : State), ∃ t, exec .powerOnReset s = .next t ∧ t.plan.staged = none ∧ t.plan.parts = []) ∧
  -- nRESET.
  (∀ (w : Nat) (s : State), 20000 ≤ w → s.pwr.stage ≠ .nresetHeld → s.pwr.stage ≠ .waitNreset → s.pwr.porAsserted = false →
     s.pwr.reloadDone = true → ∃ t, exec (.nresetAccepted w) s = .next t ∧ t.plan.staged = none ∧ t.plan.parts = [])

/-- SET_MODE that fails no check before that of the mode and names a mode other than the present one, to which no transition is
listed, answers WRONG_MODE and changes nothing of the state but the host port that carries the answer. The listed
transitions stand beside it, mode by mode. (R34, R35, R327) -/
def Obligations.SetModeListsItsTransitions : Prop :=
  -- the table of transitions.
  (∀ (s : State) (m : Mode),
     (hostConfig s ≠ 3 →
       (s.set.mode ∈ [.idle, .survey, .serve, .sentry] → (modeAllowed s m = true ↔ m ≠ .compat)) ∧
       (s.set.mode = .update → (modeAllowed s m = true ↔ m = .idle ∨ m = .hold)) ∧
       (s.set.mode = .test → (modeAllowed s m = true ↔ m = .idle))) ∧
     (hostConfig s = 3 → s.set.mode = .compat → (modeAllowed s m = true ↔ m = .hold ∨ m = .update)) ∧
     (s.set.mode = .hold → modeAllowed s m = false)) ∧
  -- a transition that is not listed.
  (∀ (f : CmdFrame) (s : State), s.port.rings.length = 32 → canTake s f = true → frameNext s 0x0101 f = true → f.payload.length = 4 → f.portField = f.port →
     f.flags.getLsbD 0 = false → s.pwr.stage ≠ .recovery →
     (Mode.ofCode (field f.payload 0 1) = .test → s.set.mode ≠ .test → s.sec.unlocked = true) →
     Mode.ofCode (field f.payload 0 1) ≠ s.set.mode → modeAllowed s (Mode.ofCode (field f.payload 0 1)) = false →
     Reads 0x0101 f { status := 8, target := f.target, payload := failPayload { status := 8, detail := s.set.mode.code } } s
       (exec (.setMode f) s))

/-- In HOLD an nRESET pulse of 20 us or longer puts the device into reset: the sequence runs once nRESET is released. The wake
of R42 does not happen: the mode stays HOLD until the sequence ends, and the last wake source stays as it is; nor does any
of the three wake sources perform it while that reset lasts. (R70) -/
def Obligations.NresetInHoldStartsTheSequence : Prop :=
  -- NRESET_ACCEPTED in HOLD (R70).
  (∀ (w : Nat) (s : State), 20000 ≤ w → s.set.mode = .hold → s.head.transition = none → s.pwr.stage = .running → s.pwr.porAsserted = false →
     s.pwr.reloadDone = true → ∃ t, exec (.nresetAccepted w) s = .next t ∧ t.pwr.stage = .nresetHeld ∧ t.pwr.commands = false ∧
       t.set.mode = .hold ∧ t.set.lastWake = s.set.lastWake) ∧
  -- WAKE_HIGH, TWO_WIRE_WAKE and AON_ALARM while that reset lasts: no wake (R70).
  (∀ (us : Nat) (s : State), s.set.mode = .hold → s.pwr.stage = .nresetHeld → s.pwr.porAsserted = false →
     (∃ t, exec (.wakeHigh us) s = .next t ∧ t.set = s.set ∧ t.head = s.head ∧ t.clk = s.clk ∧
       t.pwr = { s.pwr with wakePin := t.pwr.wakePin }) ∧
     exec .twoWireWake s = .next s ∧
     (∃ t, exec .aonAlarm s = .next t ∧ t.set = { s.set with alarm := 0 } ∧ t.head = s.head ∧ t.pwr = s.pwr ∧ t.prog = s.prog))

/-- In recovery boot a command that passes the checks before that of the mode is refused with WRONG_MODE and detail 5 unless its
opcode is that of KEY_ZEROISE, GET_SECURITY, GET_IDENTITY, FW_UPDATE_BEGIN, FW_UPDATE_PART or FW_UPDATE_COMMIT; those six
pass the check of the mode. A refused frame is answered so and changes nothing of the state but the host port that carries
it; GET_SECURITY is answered with its payload. (R498) -/
def Obligations.RecoveryBootTakesSixCommands : Prop :=
  -- every other opcode.
  (∀ (s : State) (op : Nat) (f : CmdFrame) (c : Checks), s.pwr.stage = .recovery → c.lenOk = true → f.portField = f.port →
     f.flags.getLsbD 0 = false → lowest c.bad = none → lowest c.stale = none → lowest c.noObj = none → lowest c.denied = none →
     op ∉ [0x0D01, 0x0D07, 0x0100, 0x0D02, 0x0D03, 0x0D04] → earlyFail s op f c = some { status := 8, detail := 5, off := 0xFFFF }) ∧
  -- the six commands.
  (∀ (s : State) (op : Nat) (f : CmdFrame) (c : Checks), s.pwr.stage = .recovery → c.lenOk = true → f.portField = f.port →
     f.flags.getLsbD 0 = false → lowest c.bad = none → lowest c.stale = none → lowest c.noObj = none → lowest c.denied = none →
     c.modeOk = true → op ∈ [0x0D01, 0x0D07, 0x0100, 0x0D02, 0x0D03, 0x0D04] → earlyFail s op f c = none) ∧
  -- a frame with another opcode, whatever its command does: it is answered WRONG_MODE with detail 5.
  (∀ (op : Nat) (f : CmdFrame) (c : State → Checks) (body : State → State × Option Reply) (s : State),
     s.port.rings.length = 32 → canTake s f = true → frameNext s op f = true → s.pwr.stage = .recovery → f.portField = f.port → f.flags.getLsbD 0 = false →
     (∀ u, u = s ∨ u = consume op f s → (c u).lenOk = true ∧ lowest (c u).bad = none ∧ lowest (c u).stale = none ∧
       lowest (c u).noObj = none ∧ lowest (c u).denied = none) →
     op ∉ [0x0D01, 0x0D07, 0x0100, 0x0D02, 0x0D03, 0x0D04] →
     Reads op f { status := 8, target := f.target, payload := failPayload { status := 8, detail := 5 } } s
       (.next (command op f c body s))) ∧
  -- GET_SECURITY is answered (R506).
  (∀ (f : CmdFrame) (s : State), s.port.rings.length = 32 → canTake s f = true → frameNext s 0x0D07 f = true → s.pwr.stage = .recovery → f.portField = f.port →
     f.flags.getLsbD 0 = false → f.payload.length = 0 →
     Reads 0x0D07 f (okReply f (securityBytes s)) s (exec (.getSecurity f) s))

/-- With PLAN_CHECK set a well-structured command whose plan sequence is not the active one fails with STALE, detail 3 where no
handle of the command is stale (a lower detail of the same check comes first, R328), and one whose plan sequence is the
active one is checked as if PLAN_CHECK were not set. Without PLAN_CHECK the field has no effect on the checks. (R345) -/
def Obligations.PlanCheckComparesTheSequence : Prop :=
  -- another sequence.
  (∀ (s : State) (op : Nat) (f : CmdFrame) (c : Checks), c.lenOk = true → f.portField = f.port → lowest c.bad = none →
     f.flags.getLsbD 0 = true → f.planSeq ≠ s.plan.seq →
     (lowest c.stale = none → earlyFail s op f c = some { status := 2, detail := 3, off := 0xFFFF }) ∧ earlyFail s op f c ≠ none) ∧
  -- the active sequence.
  (∀ (s : State) (op : Nat) (f : CmdFrame) (c : Checks), f.planSeq = s.plan.seq →
     earlyFail s op f c = earlyFail s op { f with flags := f.flags &&& 0xFE } c) ∧
  -- without PLAN_CHECK.
  (∀ (s : State) (op : Nat) (f : CmdFrame) (c : Checks) (x : W32), f.flags.getLsbD 0 = false →
     earlyFail s op f c = earlyFail s op { f with planSeq := x } c)
end

