-- ==== Sys2Proof/Laws/Keeps.lean ====
section
/-!
SUPPORT. Keeps.lean: what it means that parts of the state stay the same, and the lemmas by which folds, branches and options keep a part of the state that each of their steps keeps. The lemma files of the frames rest on them.

The frame of an operation that many others call is in the simp set; every other frame is cited where it is needed, applied to
its arguments: simp [receptionAddBody_frame ..]. The two dots keep Lean from declaring an auxiliary lemma for each clause.
-/

namespace Sys2Proof.Machine

/-- Nothing of these changed between two states. -/
@[simp] abbrev SameBase (s t : State) : Prop :=
  t.pending = s.pending ∧ t.pwr = s.pwr ∧ t.clk = s.clk ∧ t.bus = s.bus

/-- Nothing of these changed between two states. -/
@[simp] abbrev SameStore (s t : State) : Prop :=
  t.set = s.set ∧ t.store = s.store ∧ t.link = s.link ∧ t.stats = s.stats

/-- Nothing of these changed between two states. -/
@[simp] abbrev SameSecure (s t : State) : Prop :=
  t.sec = s.sec ∧ t.survey = s.survey ∧ t.fresh = s.fresh

/-- Nothing of these changed between two states. -/
@[simp] abbrev SameObjects (s t : State) : Prop :=
  t.front = s.front ∧ t.prog = s.prog

/-- Nothing of these changed between two states. -/
@[simp] abbrev SameMix (s t : State) : Prop :=
  t.mix = s.mix ∧ t.health = s.health

/-- Nothing of these changed between two states. -/
@[simp] abbrev SameHead (s t : State) : Prop :=
  t.head = s.head ∧ t.gens = s.gens ∧ t.cal = s.cal

/-- Nothing of these changed between two states. -/
@[simp] abbrev SamePlan (s t : State) : Prop :=
  t.plan = s.plan ∧ t.time = s.time ∧ t.compat = s.compat

/-- Nothing of these changed between two states. -/
@[simp] abbrev SamePort (s t : State) : Prop :=
  t.port = s.port ∧ t.out = s.out

/-- Nothing of these changed between two states. -/
@[simp] abbrev SameSizes (s t : State) : Prop :=
  t.port.rings.length = s.port.rings.length ∧ t.front.windows.length = s.front.windows.length ∧ t.front.tuners.length = s.front.tuners.length ∧ t.mix.banks.length = s.mix.banks.length ∧ t.mix.curves.length = s.mix.curves.length ∧ t.cal.adcs.length = s.cal.adcs.length ∧ t.health.engines.length = s.health.engines.length

/-- A fold keeps what each of its steps keeps. -/
theorem foldl_keeps {α β : Type} (p : State → β) {h : State → α → State} (H : ∀ b a, p (h b a) = p b) (l : List α)
    (b : State) : p (l.foldl h b) = p b := by
  induction l generalizing b with
  | nil => rfl
  | cons x l ih => simp [ih, H]

/-- A fold from the right keeps what each of its steps keeps. -/
theorem foldr_keeps {α β : Type} (p : State → β) {h : α → State → State} (H : ∀ b a, p (h a b) = p b) (l : List α)
    (b : State) : p (l.foldr h b) = p b := by
  induction l generalizing b with
  | nil => rfl
  | cons x l ih => simp [ih, H]

/-- A fold that carries a second value keeps what each of its steps keeps. -/
theorem foldlp_keeps {α β γ : Type} (p : State → γ) {h : State × β → α → State × β} (H : ∀ b a, p (h b a).1 = p b.1)
    (l : List α) (b : State × β) : p (l.foldl h b).1 = p b.1 := by
  induction l generalizing b with
  | nil => rfl
  | cons x l ih => simp [ih, H]

/-- A fold from the right that carries a second value keeps what each of its steps keeps. -/
theorem foldrp_keeps {α β γ : Type} (p : State → γ) {h : α → State × β → State × β} (H : ∀ b a, p (h a b).1 = p b.1)
    (l : List α) (b : State × β) : p (l.foldr h b).1 = p b.1 := by
  induction l generalizing b with
  | nil => rfl
  | cons x l ih => simp [ih, H]

/-- The same value on both branches. -/
@[simp] theorem elim_same {α β : Type} (o : Option α) (b : β) : (o.elim b (fun _ => b)) = b := by cases o <;> rfl

/-- Changing one element keeps the length. -/
@[simp] theorem modAt_length {α : Type} (l : List α) (i : Nat) (g : α → α) : (modAt l i g).length = l.length := by
  unfold modAt; split <;> simp

@[simp] theorem ite_PortS_rings (c : Prop) [Decidable c] (a b : PortS) :
    (if c then a else b).rings = if c then a.rings else b.rings := by split <;> rfl
@[simp] theorem elim_PortS_rings {α : Type} (o : Option α) (a : PortS) (h : α → PortS) :
    (o.elim a h).rings = o.elim a.rings (fun x => (h x).rings) := by cases o <;> rfl
@[simp] theorem ite_FrontS_windows (c : Prop) [Decidable c] (a b : FrontS) :
    (if c then a else b).windows = if c then a.windows else b.windows := by split <;> rfl
@[simp] theorem elim_FrontS_windows {α : Type} (o : Option α) (a : FrontS) (h : α → FrontS) :
    (o.elim a h).windows = o.elim a.windows (fun x => (h x).windows) := by cases o <;> rfl
@[simp] theorem ite_FrontS_tuners (c : Prop) [Decidable c] (a b : FrontS) :
    (if c then a else b).tuners = if c then a.tuners else b.tuners := by split <;> rfl
@[simp] theorem elim_FrontS_tuners {α : Type} (o : Option α) (a : FrontS) (h : α → FrontS) :
    (o.elim a h).tuners = o.elim a.tuners (fun x => (h x).tuners) := by cases o <;> rfl
@[simp] theorem ite_MixS_banks (c : Prop) [Decidable c] (a b : MixS) :
    (if c then a else b).banks = if c then a.banks else b.banks := by split <;> rfl
@[simp] theorem elim_MixS_banks {α : Type} (o : Option α) (a : MixS) (h : α → MixS) :
    (o.elim a h).banks = o.elim a.banks (fun x => (h x).banks) := by cases o <;> rfl
@[simp] theorem ite_MixS_curves (c : Prop) [Decidable c] (a b : MixS) :
    (if c then a else b).curves = if c then a.curves else b.curves := by split <;> rfl
@[simp] theorem elim_MixS_curves {α : Type} (o : Option α) (a : MixS) (h : α → MixS) :
    (o.elim a h).curves = o.elim a.curves (fun x => (h x).curves) := by cases o <;> rfl
@[simp] theorem ite_CalS_adcs (c : Prop) [Decidable c] (a b : CalS) :
    (if c then a else b).adcs = if c then a.adcs else b.adcs := by split <;> rfl
@[simp] theorem elim_CalS_adcs {α : Type} (o : Option α) (a : CalS) (h : α → CalS) :
    (o.elim a h).adcs = o.elim a.adcs (fun x => (h x).adcs) := by cases o <;> rfl
@[simp] theorem ite_HealthS_engines (c : Prop) [Decidable c] (a b : HealthS) :
    (if c then a else b).engines = if c then a.engines else b.engines := by split <;> rfl
@[simp] theorem elim_HealthS_engines {α : Type} (o : Option α) (a : HealthS) (h : α → HealthS) :
    (o.elim a h).engines = o.elim a.engines (fun x => (h x).engines) := by cases o <;> rfl
@[simp] theorem ite_length {α : Type} (c : Prop) [Decidable c] (a b : List α) :
    (if c then a else b).length = if c then a.length else b.length := by split <;> rfl
@[simp] theorem elim_length {α β : Type} (o : Option α) (a : List β) (h : α → List β) :
    (o.elim a h).length = o.elim a.length (fun x => (h x).length) := by cases o <;> rfl
@[simp] theorem foldl_pending {α : Type} (h : State → α → State) (H : ∀ b a, (h b a).pending = b.pending) (l : List α)
    (b : State) : (l.foldl h b).pending = b.pending := foldl_keeps (fun s : State => s.pending) H l b
@[simp] theorem foldr_pending {α : Type} (h : α → State → State) (H : ∀ b a, (h a b).pending = b.pending) (l : List α)
    (b : State) : (l.foldr h b).pending = b.pending := foldr_keeps (fun s : State => s.pending) H l b
@[simp] theorem foldlp_pending {α β : Type} (h : State × β → α → State × β) (H : ∀ b a, (h b a).1.pending = b.1.pending)
    (l : List α) (b : State × β) : (l.foldl h b).1.pending = b.1.pending := foldlp_keeps (fun s : State => s.pending) H l b
@[simp] theorem foldrp_pending {α β : Type} (h : α → State × β → State × β) (H : ∀ b a, (h a b).1.pending = b.1.pending)
    (l : List α) (b : State × β) : (l.foldr h b).1.pending = b.1.pending := foldrp_keeps (fun s : State => s.pending) H l b
@[simp] theorem ite_pending (c : Prop) [Decidable c] (a b : State) :
    (if c then a else b).pending = if c then a.pending else b.pending := by split <;> rfl
@[simp] theorem itep_pending {β : Type} (c : Prop) [Decidable c] (a b : State × β) :
    (if c then a else b).1.pending = if c then a.1.pending else b.1.pending := by split <;> rfl
@[simp] theorem elim_pending {α : Type} (o : Option α) (a : State) (h : α → State) :
    (o.elim a h).pending = o.elim a.pending (fun x => (h x).pending) := by cases o <;> rfl
@[simp] theorem foldl_pwr {α : Type} (h : State → α → State) (H : ∀ b a, (h b a).pwr = b.pwr) (l : List α)
    (b : State) : (l.foldl h b).pwr = b.pwr := foldl_keeps (fun s : State => s.pwr) H l b
@[simp] theorem foldr_pwr {α : Type} (h : α → State → State) (H : ∀ b a, (h a b).pwr = b.pwr) (l : List α)
    (b : State) : (l.foldr h b).pwr = b.pwr := foldr_keeps (fun s : State => s.pwr) H l b
@[simp] theorem foldlp_pwr {α β : Type} (h : State × β → α → State × β) (H : ∀ b a, (h b a).1.pwr = b.1.pwr)
    (l : List α) (b : State × β) : (l.foldl h b).1.pwr = b.1.pwr := foldlp_keeps (fun s : State => s.pwr) H l b
@[simp] theorem foldrp_pwr {α β : Type} (h : α → State × β → State × β) (H : ∀ b a, (h a b).1.pwr = b.1.pwr)
    (l : List α) (b : State × β) : (l.foldr h b).1.pwr = b.1.pwr := foldrp_keeps (fun s : State => s.pwr) H l b
@[simp] theorem ite_pwr (c : Prop) [Decidable c] (a b : State) :
    (if c then a else b).pwr = if c then a.pwr else b.pwr := by split <;> rfl
@[simp] theorem itep_pwr {β : Type} (c : Prop) [Decidable c] (a b : State × β) :
    (if c then a else b).1.pwr = if c then a.1.pwr else b.1.pwr := by split <;> rfl
@[simp] theorem elim_pwr {α : Type} (o : Option α) (a : State) (h : α → State) :
    (o.elim a h).pwr = o.elim a.pwr (fun x => (h x).pwr) := by cases o <;> rfl
@[simp] theorem foldl_set {α : Type} (h : State → α → State) (H : ∀ b a, (h b a).set = b.set) (l : List α)
    (b : State) : (l.foldl h b).set = b.set := foldl_keeps (fun s : State => s.set) H l b
@[simp] theorem foldr_set {α : Type} (h : α → State → State) (H : ∀ b a, (h a b).set = b.set) (l : List α)
    (b : State) : (l.foldr h b).set = b.set := foldr_keeps (fun s : State => s.set) H l b
@[simp] theorem foldlp_set {α β : Type} (h : State × β → α → State × β) (H : ∀ b a, (h b a).1.set = b.1.set)
    (l : List α) (b : State × β) : (l.foldl h b).1.set = b.1.set := foldlp_keeps (fun s : State => s.set) H l b
@[simp] theorem foldrp_set {α β : Type} (h : α → State × β → State × β) (H : ∀ b a, (h a b).1.set = b.1.set)
    (l : List α) (b : State × β) : (l.foldr h b).1.set = b.1.set := foldrp_keeps (fun s : State => s.set) H l b
@[simp] theorem ite_set (c : Prop) [Decidable c] (a b : State) :
    (if c then a else b).set = if c then a.set else b.set := by split <;> rfl
@[simp] theorem itep_set {β : Type} (c : Prop) [Decidable c] (a b : State × β) :
    (if c then a else b).1.set = if c then a.1.set else b.1.set := by split <;> rfl
@[simp] theorem elim_set {α : Type} (o : Option α) (a : State) (h : α → State) :
    (o.elim a h).set = o.elim a.set (fun x => (h x).set) := by cases o <;> rfl
@[simp] theorem foldl_store {α : Type} (h : State → α → State) (H : ∀ b a, (h b a).store = b.store) (l : List α)
    (b : State) : (l.foldl h b).store = b.store := foldl_keeps (fun s : State => s.store) H l b
@[simp] theorem foldr_store {α : Type} (h : α → State → State) (H : ∀ b a, (h a b).store = b.store) (l : List α)
    (b : State) : (l.foldr h b).store = b.store := foldr_keeps (fun s : State => s.store) H l b
@[simp] theorem foldlp_store {α β : Type} (h : State × β → α → State × β) (H : ∀ b a, (h b a).1.store = b.1.store)
    (l : List α) (b : State × β) : (l.foldl h b).1.store = b.1.store := foldlp_keeps (fun s : State => s.store) H l b
@[simp] theorem foldrp_store {α β : Type} (h : α → State × β → State × β) (H : ∀ b a, (h a b).1.store = b.1.store)
    (l : List α) (b : State × β) : (l.foldr h b).1.store = b.1.store := foldrp_keeps (fun s : State => s.store) H l b
@[simp] theorem ite_store (c : Prop) [Decidable c] (a b : State) :
    (if c then a else b).store = if c then a.store else b.store := by split <;> rfl
@[simp] theorem itep_store {β : Type} (c : Prop) [Decidable c] (a b : State × β) :
    (if c then a else b).1.store = if c then a.1.store else b.1.store := by split <;> rfl
@[simp] theorem elim_store {α : Type} (o : Option α) (a : State) (h : α → State) :
    (o.elim a h).store = o.elim a.store (fun x => (h x).store) := by cases o <;> rfl
@[simp] theorem foldl_clk {α : Type} (h : State → α → State) (H : ∀ b a, (h b a).clk = b.clk) (l : List α)
    (b : State) : (l.foldl h b).clk = b.clk := foldl_keeps (fun s : State => s.clk) H l b
@[simp] theorem foldr_clk {α : Type} (h : α → State → State) (H : ∀ b a, (h a b).clk = b.clk) (l : List α)
    (b : State) : (l.foldr h b).clk = b.clk := foldr_keeps (fun s : State => s.clk) H l b
@[simp] theorem foldlp_clk {α β : Type} (h : State × β → α → State × β) (H : ∀ b a, (h b a).1.clk = b.1.clk)
    (l : List α) (b : State × β) : (l.foldl h b).1.clk = b.1.clk := foldlp_keeps (fun s : State => s.clk) H l b
@[simp] theorem foldrp_clk {α β : Type} (h : α → State × β → State × β) (H : ∀ b a, (h a b).1.clk = b.1.clk)
    (l : List α) (b : State × β) : (l.foldr h b).1.clk = b.1.clk := foldrp_keeps (fun s : State => s.clk) H l b
@[simp] theorem ite_clk (c : Prop) [Decidable c] (a b : State) :
    (if c then a else b).clk = if c then a.clk else b.clk := by split <;> rfl
@[simp] theorem itep_clk {β : Type} (c : Prop) [Decidable c] (a b : State × β) :
    (if c then a else b).1.clk = if c then a.1.clk else b.1.clk := by split <;> rfl
@[simp] theorem elim_clk {α : Type} (o : Option α) (a : State) (h : α → State) :
    (o.elim a h).clk = o.elim a.clk (fun x => (h x).clk) := by cases o <;> rfl
@[simp] theorem foldl_time {α : Type} (h : State → α → State) (H : ∀ b a, (h b a).time = b.time) (l : List α)
    (b : State) : (l.foldl h b).time = b.time := foldl_keeps (fun s : State => s.time) H l b
@[simp] theorem foldr_time {α : Type} (h : α → State → State) (H : ∀ b a, (h a b).time = b.time) (l : List α)
    (b : State) : (l.foldr h b).time = b.time := foldr_keeps (fun s : State => s.time) H l b
@[simp] theorem foldlp_time {α β : Type} (h : State × β → α → State × β) (H : ∀ b a, (h b a).1.time = b.1.time)
    (l : List α) (b : State × β) : (l.foldl h b).1.time = b.1.time := foldlp_keeps (fun s : State => s.time) H l b
@[simp] theorem foldrp_time {α β : Type} (h : α → State × β → State × β) (H : ∀ b a, (h a b).1.time = b.1.time)
    (l : List α) (b : State × β) : (l.foldr h b).1.time = b.1.time := foldrp_keeps (fun s : State => s.time) H l b
@[simp] theorem ite_time (c : Prop) [Decidable c] (a b : State) :
    (if c then a else b).time = if c then a.time else b.time := by split <;> rfl
@[simp] theorem itep_time {β : Type} (c : Prop) [Decidable c] (a b : State × β) :
    (if c then a else b).1.time = if c then a.1.time else b.1.time := by split <;> rfl
@[simp] theorem elim_time {α : Type} (o : Option α) (a : State) (h : α → State) :
    (o.elim a h).time = o.elim a.time (fun x => (h x).time) := by cases o <;> rfl
@[simp] theorem foldl_head {α : Type} (h : State → α → State) (H : ∀ b a, (h b a).head = b.head) (l : List α)
    (b : State) : (l.foldl h b).head = b.head := foldl_keeps (fun s : State => s.head) H l b
@[simp] theorem foldr_head {α : Type} (h : α → State → State) (H : ∀ b a, (h a b).head = b.head) (l : List α)
    (b : State) : (l.foldr h b).head = b.head := foldr_keeps (fun s : State => s.head) H l b
@[simp] theorem foldlp_head {α β : Type} (h : State × β → α → State × β) (H : ∀ b a, (h b a).1.head = b.1.head)
    (l : List α) (b : State × β) : (l.foldl h b).1.head = b.1.head := foldlp_keeps (fun s : State => s.head) H l b
@[simp] theorem foldrp_head {α β : Type} (h : α → State × β → State × β) (H : ∀ b a, (h a b).1.head = b.1.head)
    (l : List α) (b : State × β) : (l.foldr h b).1.head = b.1.head := foldrp_keeps (fun s : State => s.head) H l b
@[simp] theorem ite_head (c : Prop) [Decidable c] (a b : State) :
    (if c then a else b).head = if c then a.head else b.head := by split <;> rfl
@[simp] theorem itep_head {β : Type} (c : Prop) [Decidable c] (a b : State × β) :
    (if c then a else b).1.head = if c then a.1.head else b.1.head := by split <;> rfl
@[simp] theorem elim_head {α : Type} (o : Option α) (a : State) (h : α → State) :
    (o.elim a h).head = o.elim a.head (fun x => (h x).head) := by cases o <;> rfl
@[simp] theorem foldl_front {α : Type} (h : State → α → State) (H : ∀ b a, (h b a).front = b.front) (l : List α)
    (b : State) : (l.foldl h b).front = b.front := foldl_keeps (fun s : State => s.front) H l b
@[simp] theorem foldr_front {α : Type} (h : α → State → State) (H : ∀ b a, (h a b).front = b.front) (l : List α)
    (b : State) : (l.foldr h b).front = b.front := foldr_keeps (fun s : State => s.front) H l b
@[simp] theorem foldlp_front {α β : Type} (h : State × β → α → State × β) (H : ∀ b a, (h b a).1.front = b.1.front)
    (l : List α) (b : State × β) : (l.foldl h b).1.front = b.1.front := foldlp_keeps (fun s : State => s.front) H l b
@[simp] theorem foldrp_front {α β : Type} (h : α → State × β → State × β) (H : ∀ b a, (h a b).1.front = b.1.front)
    (l : List α) (b : State × β) : (l.foldr h b).1.front = b.1.front := foldrp_keeps (fun s : State => s.front) H l b
@[simp] theorem ite_front (c : Prop) [Decidable c] (a b : State) :
    (if c then a else b).front = if c then a.front else b.front := by split <;> rfl
@[simp] theorem itep_front {β : Type} (c : Prop) [Decidable c] (a b : State × β) :
    (if c then a else b).1.front = if c then a.1.front else b.1.front := by split <;> rfl
@[simp] theorem elim_front {α : Type} (o : Option α) (a : State) (h : α → State) :
    (o.elim a h).front = o.elim a.front (fun x => (h x).front) := by cases o <;> rfl
@[simp] theorem foldl_prog {α : Type} (h : State → α → State) (H : ∀ b a, (h b a).prog = b.prog) (l : List α)
    (b : State) : (l.foldl h b).prog = b.prog := foldl_keeps (fun s : State => s.prog) H l b
@[simp] theorem foldr_prog {α : Type} (h : α → State → State) (H : ∀ b a, (h a b).prog = b.prog) (l : List α)
    (b : State) : (l.foldr h b).prog = b.prog := foldr_keeps (fun s : State => s.prog) H l b
@[simp] theorem foldlp_prog {α β : Type} (h : State × β → α → State × β) (H : ∀ b a, (h b a).1.prog = b.1.prog)
    (l : List α) (b : State × β) : (l.foldl h b).1.prog = b.1.prog := foldlp_keeps (fun s : State => s.prog) H l b
@[simp] theorem foldrp_prog {α β : Type} (h : α → State × β → State × β) (H : ∀ b a, (h a b).1.prog = b.1.prog)
    (l : List α) (b : State × β) : (l.foldr h b).1.prog = b.1.prog := foldrp_keeps (fun s : State => s.prog) H l b
@[simp] theorem ite_prog (c : Prop) [Decidable c] (a b : State) :
    (if c then a else b).prog = if c then a.prog else b.prog := by split <;> rfl
@[simp] theorem itep_prog {β : Type} (c : Prop) [Decidable c] (a b : State × β) :
    (if c then a else b).1.prog = if c then a.1.prog else b.1.prog := by split <;> rfl
@[simp] theorem elim_prog {α : Type} (o : Option α) (a : State) (h : α → State) :
    (o.elim a h).prog = o.elim a.prog (fun x => (h x).prog) := by cases o <;> rfl
@[simp] theorem foldl_gens {α : Type} (h : State → α → State) (H : ∀ b a, (h b a).gens = b.gens) (l : List α)
    (b : State) : (l.foldl h b).gens = b.gens := foldl_keeps (fun s : State => s.gens) H l b
@[simp] theorem foldr_gens {α : Type} (h : α → State → State) (H : ∀ b a, (h a b).gens = b.gens) (l : List α)
    (b : State) : (l.foldr h b).gens = b.gens := foldr_keeps (fun s : State => s.gens) H l b
@[simp] theorem foldlp_gens {α β : Type} (h : State × β → α → State × β) (H : ∀ b a, (h b a).1.gens = b.1.gens)
    (l : List α) (b : State × β) : (l.foldl h b).1.gens = b.1.gens := foldlp_keeps (fun s : State => s.gens) H l b
@[simp] theorem foldrp_gens {α β : Type} (h : α → State × β → State × β) (H : ∀ b a, (h a b).1.gens = b.1.gens)
    (l : List α) (b : State × β) : (l.foldr h b).1.gens = b.1.gens := foldrp_keeps (fun s : State => s.gens) H l b
@[simp] theorem ite_gens (c : Prop) [Decidable c] (a b : State) :
    (if c then a else b).gens = if c then a.gens else b.gens := by split <;> rfl
@[simp] theorem itep_gens {β : Type} (c : Prop) [Decidable c] (a b : State × β) :
    (if c then a else b).1.gens = if c then a.1.gens else b.1.gens := by split <;> rfl
@[simp] theorem elim_gens {α : Type} (o : Option α) (a : State) (h : α → State) :
    (o.elim a h).gens = o.elim a.gens (fun x => (h x).gens) := by cases o <;> rfl
@[simp] theorem foldl_mix {α : Type} (h : State → α → State) (H : ∀ b a, (h b a).mix = b.mix) (l : List α)
    (b : State) : (l.foldl h b).mix = b.mix := foldl_keeps (fun s : State => s.mix) H l b
@[simp] theorem foldr_mix {α : Type} (h : α → State → State) (H : ∀ b a, (h a b).mix = b.mix) (l : List α)
    (b : State) : (l.foldr h b).mix = b.mix := foldr_keeps (fun s : State => s.mix) H l b
@[simp] theorem foldlp_mix {α β : Type} (h : State × β → α → State × β) (H : ∀ b a, (h b a).1.mix = b.1.mix)
    (l : List α) (b : State × β) : (l.foldl h b).1.mix = b.1.mix := foldlp_keeps (fun s : State => s.mix) H l b
@[simp] theorem foldrp_mix {α β : Type} (h : α → State × β → State × β) (H : ∀ b a, (h a b).1.mix = b.1.mix)
    (l : List α) (b : State × β) : (l.foldr h b).1.mix = b.1.mix := foldrp_keeps (fun s : State => s.mix) H l b
@[simp] theorem ite_mix (c : Prop) [Decidable c] (a b : State) :
    (if c then a else b).mix = if c then a.mix else b.mix := by split <;> rfl
@[simp] theorem itep_mix {β : Type} (c : Prop) [Decidable c] (a b : State × β) :
    (if c then a else b).1.mix = if c then a.1.mix else b.1.mix := by split <;> rfl
@[simp] theorem elim_mix {α : Type} (o : Option α) (a : State) (h : α → State) :
    (o.elim a h).mix = o.elim a.mix (fun x => (h x).mix) := by cases o <;> rfl
@[simp] theorem foldl_plan {α : Type} (h : State → α → State) (H : ∀ b a, (h b a).plan = b.plan) (l : List α)
    (b : State) : (l.foldl h b).plan = b.plan := foldl_keeps (fun s : State => s.plan) H l b
@[simp] theorem foldr_plan {α : Type} (h : α → State → State) (H : ∀ b a, (h a b).plan = b.plan) (l : List α)
    (b : State) : (l.foldr h b).plan = b.plan := foldr_keeps (fun s : State => s.plan) H l b
@[simp] theorem foldlp_plan {α β : Type} (h : State × β → α → State × β) (H : ∀ b a, (h b a).1.plan = b.1.plan)
    (l : List α) (b : State × β) : (l.foldl h b).1.plan = b.1.plan := foldlp_keeps (fun s : State => s.plan) H l b
@[simp] theorem foldrp_plan {α β : Type} (h : α → State × β → State × β) (H : ∀ b a, (h a b).1.plan = b.1.plan)
    (l : List α) (b : State × β) : (l.foldr h b).1.plan = b.1.plan := foldrp_keeps (fun s : State => s.plan) H l b
@[simp] theorem ite_plan (c : Prop) [Decidable c] (a b : State) :
    (if c then a else b).plan = if c then a.plan else b.plan := by split <;> rfl
@[simp] theorem itep_plan {β : Type} (c : Prop) [Decidable c] (a b : State × β) :
    (if c then a else b).1.plan = if c then a.1.plan else b.1.plan := by split <;> rfl
@[simp] theorem elim_plan {α : Type} (o : Option α) (a : State) (h : α → State) :
    (o.elim a h).plan = o.elim a.plan (fun x => (h x).plan) := by cases o <;> rfl
@[simp] theorem foldl_port {α : Type} (h : State → α → State) (H : ∀ b a, (h b a).port = b.port) (l : List α)
    (b : State) : (l.foldl h b).port = b.port := foldl_keeps (fun s : State => s.port) H l b
@[simp] theorem foldr_port {α : Type} (h : α → State → State) (H : ∀ b a, (h a b).port = b.port) (l : List α)
    (b : State) : (l.foldr h b).port = b.port := foldr_keeps (fun s : State => s.port) H l b
@[simp] theorem foldlp_port {α β : Type} (h : State × β → α → State × β) (H : ∀ b a, (h b a).1.port = b.1.port)
    (l : List α) (b : State × β) : (l.foldl h b).1.port = b.1.port := foldlp_keeps (fun s : State => s.port) H l b
@[simp] theorem foldrp_port {α β : Type} (h : α → State × β → State × β) (H : ∀ b a, (h a b).1.port = b.1.port)
    (l : List α) (b : State × β) : (l.foldr h b).1.port = b.1.port := foldrp_keeps (fun s : State => s.port) H l b
@[simp] theorem ite_port (c : Prop) [Decidable c] (a b : State) :
    (if c then a else b).port = if c then a.port else b.port := by split <;> rfl
@[simp] theorem itep_port {β : Type} (c : Prop) [Decidable c] (a b : State × β) :
    (if c then a else b).1.port = if c then a.1.port else b.1.port := by split <;> rfl
@[simp] theorem elim_port {α : Type} (o : Option α) (a : State) (h : α → State) :
    (o.elim a h).port = o.elim a.port (fun x => (h x).port) := by cases o <;> rfl
@[simp] theorem foldl_bus {α : Type} (h : State → α → State) (H : ∀ b a, (h b a).bus = b.bus) (l : List α)
    (b : State) : (l.foldl h b).bus = b.bus := foldl_keeps (fun s : State => s.bus) H l b
@[simp] theorem foldr_bus {α : Type} (h : α → State → State) (H : ∀ b a, (h a b).bus = b.bus) (l : List α)
    (b : State) : (l.foldr h b).bus = b.bus := foldr_keeps (fun s : State => s.bus) H l b
@[simp] theorem foldlp_bus {α β : Type} (h : State × β → α → State × β) (H : ∀ b a, (h b a).1.bus = b.1.bus)
    (l : List α) (b : State × β) : (l.foldl h b).1.bus = b.1.bus := foldlp_keeps (fun s : State => s.bus) H l b
@[simp] theorem foldrp_bus {α β : Type} (h : α → State × β → State × β) (H : ∀ b a, (h a b).1.bus = b.1.bus)
    (l : List α) (b : State × β) : (l.foldr h b).1.bus = b.1.bus := foldrp_keeps (fun s : State => s.bus) H l b
@[simp] theorem ite_bus (c : Prop) [Decidable c] (a b : State) :
    (if c then a else b).bus = if c then a.bus else b.bus := by split <;> rfl
@[simp] theorem itep_bus {β : Type} (c : Prop) [Decidable c] (a b : State × β) :
    (if c then a else b).1.bus = if c then a.1.bus else b.1.bus := by split <;> rfl
@[simp] theorem elim_bus {α : Type} (o : Option α) (a : State) (h : α → State) :
    (o.elim a h).bus = o.elim a.bus (fun x => (h x).bus) := by cases o <;> rfl
@[simp] theorem foldl_link {α : Type} (h : State → α → State) (H : ∀ b a, (h b a).link = b.link) (l : List α)
    (b : State) : (l.foldl h b).link = b.link := foldl_keeps (fun s : State => s.link) H l b
@[simp] theorem foldr_link {α : Type} (h : α → State → State) (H : ∀ b a, (h a b).link = b.link) (l : List α)
    (b : State) : (l.foldr h b).link = b.link := foldr_keeps (fun s : State => s.link) H l b
@[simp] theorem foldlp_link {α β : Type} (h : State × β → α → State × β) (H : ∀ b a, (h b a).1.link = b.1.link)
    (l : List α) (b : State × β) : (l.foldl h b).1.link = b.1.link := foldlp_keeps (fun s : State => s.link) H l b
@[simp] theorem foldrp_link {α β : Type} (h : α → State × β → State × β) (H : ∀ b a, (h a b).1.link = b.1.link)
    (l : List α) (b : State × β) : (l.foldr h b).1.link = b.1.link := foldrp_keeps (fun s : State => s.link) H l b
@[simp] theorem ite_link (c : Prop) [Decidable c] (a b : State) :
    (if c then a else b).link = if c then a.link else b.link := by split <;> rfl
@[simp] theorem itep_link {β : Type} (c : Prop) [Decidable c] (a b : State × β) :
    (if c then a else b).1.link = if c then a.1.link else b.1.link := by split <;> rfl
@[simp] theorem elim_link {α : Type} (o : Option α) (a : State) (h : α → State) :
    (o.elim a h).link = o.elim a.link (fun x => (h x).link) := by cases o <;> rfl
@[simp] theorem foldl_stats {α : Type} (h : State → α → State) (H : ∀ b a, (h b a).stats = b.stats) (l : List α)
    (b : State) : (l.foldl h b).stats = b.stats := foldl_keeps (fun s : State => s.stats) H l b
@[simp] theorem foldr_stats {α : Type} (h : α → State → State) (H : ∀ b a, (h a b).stats = b.stats) (l : List α)
    (b : State) : (l.foldr h b).stats = b.stats := foldr_keeps (fun s : State => s.stats) H l b
@[simp] theorem foldlp_stats {α β : Type} (h : State × β → α → State × β) (H : ∀ b a, (h b a).1.stats = b.1.stats)
    (l : List α) (b : State × β) : (l.foldl h b).1.stats = b.1.stats := foldlp_keeps (fun s : State => s.stats) H l b
@[simp] theorem foldrp_stats {α β : Type} (h : α → State × β → State × β) (H : ∀ b a, (h a b).1.stats = b.1.stats)
    (l : List α) (b : State × β) : (l.foldr h b).1.stats = b.1.stats := foldrp_keeps (fun s : State => s.stats) H l b
@[simp] theorem ite_stats (c : Prop) [Decidable c] (a b : State) :
    (if c then a else b).stats = if c then a.stats else b.stats := by split <;> rfl
@[simp] theorem itep_stats {β : Type} (c : Prop) [Decidable c] (a b : State × β) :
    (if c then a else b).1.stats = if c then a.1.stats else b.1.stats := by split <;> rfl
@[simp] theorem elim_stats {α : Type} (o : Option α) (a : State) (h : α → State) :
    (o.elim a h).stats = o.elim a.stats (fun x => (h x).stats) := by cases o <;> rfl
@[simp] theorem foldl_sec {α : Type} (h : State → α → State) (H : ∀ b a, (h b a).sec = b.sec) (l : List α)
    (b : State) : (l.foldl h b).sec = b.sec := foldl_keeps (fun s : State => s.sec) H l b
@[simp] theorem foldr_sec {α : Type} (h : α → State → State) (H : ∀ b a, (h a b).sec = b.sec) (l : List α)
    (b : State) : (l.foldr h b).sec = b.sec := foldr_keeps (fun s : State => s.sec) H l b
@[simp] theorem foldlp_sec {α β : Type} (h : State × β → α → State × β) (H : ∀ b a, (h b a).1.sec = b.1.sec)
    (l : List α) (b : State × β) : (l.foldl h b).1.sec = b.1.sec := foldlp_keeps (fun s : State => s.sec) H l b
@[simp] theorem foldrp_sec {α β : Type} (h : α → State × β → State × β) (H : ∀ b a, (h a b).1.sec = b.1.sec)
    (l : List α) (b : State × β) : (l.foldr h b).1.sec = b.1.sec := foldrp_keeps (fun s : State => s.sec) H l b
@[simp] theorem ite_sec (c : Prop) [Decidable c] (a b : State) :
    (if c then a else b).sec = if c then a.sec else b.sec := by split <;> rfl
@[simp] theorem itep_sec {β : Type} (c : Prop) [Decidable c] (a b : State × β) :
    (if c then a else b).1.sec = if c then a.1.sec else b.1.sec := by split <;> rfl
@[simp] theorem elim_sec {α : Type} (o : Option α) (a : State) (h : α → State) :
    (o.elim a h).sec = o.elim a.sec (fun x => (h x).sec) := by cases o <;> rfl
@[simp] theorem foldl_cal {α : Type} (h : State → α → State) (H : ∀ b a, (h b a).cal = b.cal) (l : List α)
    (b : State) : (l.foldl h b).cal = b.cal := foldl_keeps (fun s : State => s.cal) H l b
@[simp] theorem foldr_cal {α : Type} (h : α → State → State) (H : ∀ b a, (h a b).cal = b.cal) (l : List α)
    (b : State) : (l.foldr h b).cal = b.cal := foldr_keeps (fun s : State => s.cal) H l b
@[simp] theorem foldlp_cal {α β : Type} (h : State × β → α → State × β) (H : ∀ b a, (h b a).1.cal = b.1.cal)
    (l : List α) (b : State × β) : (l.foldl h b).1.cal = b.1.cal := foldlp_keeps (fun s : State => s.cal) H l b
@[simp] theorem foldrp_cal {α β : Type} (h : α → State × β → State × β) (H : ∀ b a, (h a b).1.cal = b.1.cal)
    (l : List α) (b : State × β) : (l.foldr h b).1.cal = b.1.cal := foldrp_keeps (fun s : State => s.cal) H l b
@[simp] theorem ite_cal (c : Prop) [Decidable c] (a b : State) :
    (if c then a else b).cal = if c then a.cal else b.cal := by split <;> rfl
@[simp] theorem itep_cal {β : Type} (c : Prop) [Decidable c] (a b : State × β) :
    (if c then a else b).1.cal = if c then a.1.cal else b.1.cal := by split <;> rfl
@[simp] theorem elim_cal {α : Type} (o : Option α) (a : State) (h : α → State) :
    (o.elim a h).cal = o.elim a.cal (fun x => (h x).cal) := by cases o <;> rfl
@[simp] theorem foldl_health {α : Type} (h : State → α → State) (H : ∀ b a, (h b a).health = b.health) (l : List α)
    (b : State) : (l.foldl h b).health = b.health := foldl_keeps (fun s : State => s.health) H l b
@[simp] theorem foldr_health {α : Type} (h : α → State → State) (H : ∀ b a, (h a b).health = b.health) (l : List α)
    (b : State) : (l.foldr h b).health = b.health := foldr_keeps (fun s : State => s.health) H l b
@[simp] theorem foldlp_health {α β : Type} (h : State × β → α → State × β) (H : ∀ b a, (h b a).1.health = b.1.health)
    (l : List α) (b : State × β) : (l.foldl h b).1.health = b.1.health := foldlp_keeps (fun s : State => s.health) H l b
@[simp] theorem foldrp_health {α β : Type} (h : α → State × β → State × β) (H : ∀ b a, (h a b).1.health = b.1.health)
    (l : List α) (b : State × β) : (l.foldr h b).1.health = b.1.health := foldrp_keeps (fun s : State => s.health) H l b
@[simp] theorem ite_health (c : Prop) [Decidable c] (a b : State) :
    (if c then a else b).health = if c then a.health else b.health := by split <;> rfl
@[simp] theorem itep_health {β : Type} (c : Prop) [Decidable c] (a b : State × β) :
    (if c then a else b).1.health = if c then a.1.health else b.1.health := by split <;> rfl
@[simp] theorem elim_health {α : Type} (o : Option α) (a : State) (h : α → State) :
    (o.elim a h).health = o.elim a.health (fun x => (h x).health) := by cases o <;> rfl
@[simp] theorem foldl_survey {α : Type} (h : State → α → State) (H : ∀ b a, (h b a).survey = b.survey) (l : List α)
    (b : State) : (l.foldl h b).survey = b.survey := foldl_keeps (fun s : State => s.survey) H l b
@[simp] theorem foldr_survey {α : Type} (h : α → State → State) (H : ∀ b a, (h a b).survey = b.survey) (l : List α)
    (b : State) : (l.foldr h b).survey = b.survey := foldr_keeps (fun s : State => s.survey) H l b
@[simp] theorem foldlp_survey {α β : Type} (h : State × β → α → State × β) (H : ∀ b a, (h b a).1.survey = b.1.survey)
    (l : List α) (b : State × β) : (l.foldl h b).1.survey = b.1.survey := foldlp_keeps (fun s : State => s.survey) H l b
@[simp] theorem foldrp_survey {α β : Type} (h : α → State × β → State × β) (H : ∀ b a, (h a b).1.survey = b.1.survey)
    (l : List α) (b : State × β) : (l.foldr h b).1.survey = b.1.survey := foldrp_keeps (fun s : State => s.survey) H l b
@[simp] theorem ite_survey (c : Prop) [Decidable c] (a b : State) :
    (if c then a else b).survey = if c then a.survey else b.survey := by split <;> rfl
@[simp] theorem itep_survey {β : Type} (c : Prop) [Decidable c] (a b : State × β) :
    (if c then a else b).1.survey = if c then a.1.survey else b.1.survey := by split <;> rfl
@[simp] theorem elim_survey {α : Type} (o : Option α) (a : State) (h : α → State) :
    (o.elim a h).survey = o.elim a.survey (fun x => (h x).survey) := by cases o <;> rfl
@[simp] theorem foldl_compat {α : Type} (h : State → α → State) (H : ∀ b a, (h b a).compat = b.compat) (l : List α)
    (b : State) : (l.foldl h b).compat = b.compat := foldl_keeps (fun s : State => s.compat) H l b
@[simp] theorem foldr_compat {α : Type} (h : α → State → State) (H : ∀ b a, (h a b).compat = b.compat) (l : List α)
    (b : State) : (l.foldr h b).compat = b.compat := foldr_keeps (fun s : State => s.compat) H l b
@[simp] theorem foldlp_compat {α β : Type} (h : State × β → α → State × β) (H : ∀ b a, (h b a).1.compat = b.1.compat)
    (l : List α) (b : State × β) : (l.foldl h b).1.compat = b.1.compat := foldlp_keeps (fun s : State => s.compat) H l b
@[simp] theorem foldrp_compat {α β : Type} (h : α → State × β → State × β) (H : ∀ b a, (h a b).1.compat = b.1.compat)
    (l : List α) (b : State × β) : (l.foldr h b).1.compat = b.1.compat := foldrp_keeps (fun s : State => s.compat) H l b
@[simp] theorem ite_compat (c : Prop) [Decidable c] (a b : State) :
    (if c then a else b).compat = if c then a.compat else b.compat := by split <;> rfl
@[simp] theorem itep_compat {β : Type} (c : Prop) [Decidable c] (a b : State × β) :
    (if c then a else b).1.compat = if c then a.1.compat else b.1.compat := by split <;> rfl
@[simp] theorem elim_compat {α : Type} (o : Option α) (a : State) (h : α → State) :
    (o.elim a h).compat = o.elim a.compat (fun x => (h x).compat) := by cases o <;> rfl
@[simp] theorem foldl_out {α : Type} (h : State → α → State) (H : ∀ b a, (h b a).out = b.out) (l : List α)
    (b : State) : (l.foldl h b).out = b.out := foldl_keeps (fun s : State => s.out) H l b
@[simp] theorem foldr_out {α : Type} (h : α → State → State) (H : ∀ b a, (h a b).out = b.out) (l : List α)
    (b : State) : (l.foldr h b).out = b.out := foldr_keeps (fun s : State => s.out) H l b
@[simp] theorem foldlp_out {α β : Type} (h : State × β → α → State × β) (H : ∀ b a, (h b a).1.out = b.1.out)
    (l : List α) (b : State × β) : (l.foldl h b).1.out = b.1.out := foldlp_keeps (fun s : State => s.out) H l b
@[simp] theorem foldrp_out {α β : Type} (h : α → State × β → State × β) (H : ∀ b a, (h a b).1.out = b.1.out)
    (l : List α) (b : State × β) : (l.foldr h b).1.out = b.1.out := foldrp_keeps (fun s : State => s.out) H l b
@[simp] theorem ite_out (c : Prop) [Decidable c] (a b : State) :
    (if c then a else b).out = if c then a.out else b.out := by split <;> rfl
@[simp] theorem itep_out {β : Type} (c : Prop) [Decidable c] (a b : State × β) :
    (if c then a else b).1.out = if c then a.1.out else b.1.out := by split <;> rfl
@[simp] theorem elim_out {α : Type} (o : Option α) (a : State) (h : α → State) :
    (o.elim a h).out = o.elim a.out (fun x => (h x).out) := by cases o <;> rfl
@[simp] theorem foldl_fresh {α : Type} (h : State → α → State) (H : ∀ b a, (h b a).fresh = b.fresh) (l : List α)
    (b : State) : (l.foldl h b).fresh = b.fresh := foldl_keeps (fun s : State => s.fresh) H l b
@[simp] theorem foldr_fresh {α : Type} (h : α → State → State) (H : ∀ b a, (h a b).fresh = b.fresh) (l : List α)
    (b : State) : (l.foldr h b).fresh = b.fresh := foldr_keeps (fun s : State => s.fresh) H l b
@[simp] theorem foldlp_fresh {α β : Type} (h : State × β → α → State × β) (H : ∀ b a, (h b a).1.fresh = b.1.fresh)
    (l : List α) (b : State × β) : (l.foldl h b).1.fresh = b.1.fresh := foldlp_keeps (fun s : State => s.fresh) H l b
@[simp] theorem foldrp_fresh {α β : Type} (h : α → State × β → State × β) (H : ∀ b a, (h a b).1.fresh = b.1.fresh)
    (l : List α) (b : State × β) : (l.foldr h b).1.fresh = b.1.fresh := foldrp_keeps (fun s : State => s.fresh) H l b
@[simp] theorem ite_fresh (c : Prop) [Decidable c] (a b : State) :
    (if c then a else b).fresh = if c then a.fresh else b.fresh := by split <;> rfl
@[simp] theorem itep_fresh {β : Type} (c : Prop) [Decidable c] (a b : State × β) :
    (if c then a else b).1.fresh = if c then a.1.fresh else b.1.fresh := by split <;> rfl
@[simp] theorem elim_fresh {α : Type} (o : Option α) (a : State) (h : α → State) :
    (o.elim a h).fresh = o.elim a.fresh (fun x => (h x).fresh) := by cases o <;> rfl
@[simp] theorem foldl_portRings {α : Type} (h : State → α → State) (H : ∀ b a, (h b a).port.rings.length = b.port.rings.length) (l : List α)
    (b : State) : (l.foldl h b).port.rings.length = b.port.rings.length := foldl_keeps (fun s : State => s.port.rings.length) H l b
@[simp] theorem foldr_portRings {α : Type} (h : α → State → State) (H : ∀ b a, (h a b).port.rings.length = b.port.rings.length) (l : List α)
    (b : State) : (l.foldr h b).port.rings.length = b.port.rings.length := foldr_keeps (fun s : State => s.port.rings.length) H l b
@[simp] theorem foldlp_portRings {α β : Type} (h : State × β → α → State × β) (H : ∀ b a, (h b a).1.port.rings.length = b.1.port.rings.length)
    (l : List α) (b : State × β) : (l.foldl h b).1.port.rings.length = b.1.port.rings.length := foldlp_keeps (fun s : State => s.port.rings.length) H l b
@[simp] theorem foldrp_portRings {α β : Type} (h : α → State × β → State × β) (H : ∀ b a, (h a b).1.port.rings.length = b.1.port.rings.length)
    (l : List α) (b : State × β) : (l.foldr h b).1.port.rings.length = b.1.port.rings.length := foldrp_keeps (fun s : State => s.port.rings.length) H l b
@[simp] theorem ite_portRings (c : Prop) [Decidable c] (a b : State) :
    (if c then a else b).port.rings.length = if c then a.port.rings.length else b.port.rings.length := by split <;> rfl
@[simp] theorem itep_portRings {β : Type} (c : Prop) [Decidable c] (a b : State × β) :
    (if c then a else b).1.port.rings.length = if c then a.1.port.rings.length else b.1.port.rings.length := by split <;> rfl
@[simp] theorem elim_portRings {α : Type} (o : Option α) (a : State) (h : α → State) :
    (o.elim a h).port.rings.length = o.elim a.port.rings.length (fun x => (h x).port.rings.length) := by cases o <;> rfl
@[simp] theorem foldl_frontWindows {α : Type} (h : State → α → State) (H : ∀ b a, (h b a).front.windows.length = b.front.windows.length) (l : List α)
    (b : State) : (l.foldl h b).front.windows.length = b.front.windows.length := foldl_keeps (fun s : State => s.front.windows.length) H l b
@[simp] theorem foldr_frontWindows {α : Type} (h : α → State → State) (H : ∀ b a, (h a b).front.windows.length = b.front.windows.length) (l : List α)
    (b : State) : (l.foldr h b).front.windows.length = b.front.windows.length := foldr_keeps (fun s : State => s.front.windows.length) H l b
@[simp] theorem foldlp_frontWindows {α β : Type} (h : State × β → α → State × β) (H : ∀ b a, (h b a).1.front.windows.length = b.1.front.windows.length)
    (l : List α) (b : State × β) : (l.foldl h b).1.front.windows.length = b.1.front.windows.length := foldlp_keeps (fun s : State => s.front.windows.length) H l b
@[simp] theorem foldrp_frontWindows {α β : Type} (h : α → State × β → State × β) (H : ∀ b a, (h a b).1.front.windows.length = b.1.front.windows.length)
    (l : List α) (b : State × β) : (l.foldr h b).1.front.windows.length = b.1.front.windows.length := foldrp_keeps (fun s : State => s.front.windows.length) H l b
@[simp] theorem ite_frontWindows (c : Prop) [Decidable c] (a b : State) :
    (if c then a else b).front.windows.length = if c then a.front.windows.length else b.front.windows.length := by split <;> rfl
@[simp] theorem itep_frontWindows {β : Type} (c : Prop) [Decidable c] (a b : State × β) :
    (if c then a else b).1.front.windows.length = if c then a.1.front.windows.length else b.1.front.windows.length := by split <;> rfl
@[simp] theorem elim_frontWindows {α : Type} (o : Option α) (a : State) (h : α → State) :
    (o.elim a h).front.windows.length = o.elim a.front.windows.length (fun x => (h x).front.windows.length) := by cases o <;> rfl
@[simp] theorem foldl_frontTuners {α : Type} (h : State → α → State) (H : ∀ b a, (h b a).front.tuners.length = b.front.tuners.length) (l : List α)
    (b : State) : (l.foldl h b).front.tuners.length = b.front.tuners.length := foldl_keeps (fun s : State => s.front.tuners.length) H l b
@[simp] theorem foldr_frontTuners {α : Type} (h : α → State → State) (H : ∀ b a, (h a b).front.tuners.length = b.front.tuners.length) (l : List α)
    (b : State) : (l.foldr h b).front.tuners.length = b.front.tuners.length := foldr_keeps (fun s : State => s.front.tuners.length) H l b
@[simp] theorem foldlp_frontTuners {α β : Type} (h : State × β → α → State × β) (H : ∀ b a, (h b a).1.front.tuners.length = b.1.front.tuners.length)
    (l : List α) (b : State × β) : (l.foldl h b).1.front.tuners.length = b.1.front.tuners.length := foldlp_keeps (fun s : State => s.front.tuners.length) H l b
@[simp] theorem foldrp_frontTuners {α β : Type} (h : α → State × β → State × β) (H : ∀ b a, (h a b).1.front.tuners.length = b.1.front.tuners.length)
    (l : List α) (b : State × β) : (l.foldr h b).1.front.tuners.length = b.1.front.tuners.length := foldrp_keeps (fun s : State => s.front.tuners.length) H l b
@[simp] theorem ite_frontTuners (c : Prop) [Decidable c] (a b : State) :
    (if c then a else b).front.tuners.length = if c then a.front.tuners.length else b.front.tuners.length := by split <;> rfl
@[simp] theorem itep_frontTuners {β : Type} (c : Prop) [Decidable c] (a b : State × β) :
    (if c then a else b).1.front.tuners.length = if c then a.1.front.tuners.length else b.1.front.tuners.length := by split <;> rfl
@[simp] theorem elim_frontTuners {α : Type} (o : Option α) (a : State) (h : α → State) :
    (o.elim a h).front.tuners.length = o.elim a.front.tuners.length (fun x => (h x).front.tuners.length) := by cases o <;> rfl
@[simp] theorem foldl_mixBanks {α : Type} (h : State → α → State) (H : ∀ b a, (h b a).mix.banks.length = b.mix.banks.length) (l : List α)
    (b : State) : (l.foldl h b).mix.banks.length = b.mix.banks.length := foldl_keeps (fun s : State => s.mix.banks.length) H l b
@[simp] theorem foldr_mixBanks {α : Type} (h : α → State → State) (H : ∀ b a, (h a b).mix.banks.length = b.mix.banks.length) (l : List α)
    (b : State) : (l.foldr h b).mix.banks.length = b.mix.banks.length := foldr_keeps (fun s : State => s.mix.banks.length) H l b
@[simp] theorem foldlp_mixBanks {α β : Type} (h : State × β → α → State × β) (H : ∀ b a, (h b a).1.mix.banks.length = b.1.mix.banks.length)
    (l : List α) (b : State × β) : (l.foldl h b).1.mix.banks.length = b.1.mix.banks.length := foldlp_keeps (fun s : State => s.mix.banks.length) H l b
@[simp] theorem foldrp_mixBanks {α β : Type} (h : α → State × β → State × β) (H : ∀ b a, (h a b).1.mix.banks.length = b.1.mix.banks.length)
    (l : List α) (b : State × β) : (l.foldr h b).1.mix.banks.length = b.1.mix.banks.length := foldrp_keeps (fun s : State => s.mix.banks.length) H l b
@[simp] theorem ite_mixBanks (c : Prop) [Decidable c] (a b : State) :
    (if c then a else b).mix.banks.length = if c then a.mix.banks.length else b.mix.banks.length := by split <;> rfl
@[simp] theorem itep_mixBanks {β : Type} (c : Prop) [Decidable c] (a b : State × β) :
    (if c then a else b).1.mix.banks.length = if c then a.1.mix.banks.length else b.1.mix.banks.length := by split <;> rfl
@[simp] theorem elim_mixBanks {α : Type} (o : Option α) (a : State) (h : α → State) :
    (o.elim a h).mix.banks.length = o.elim a.mix.banks.length (fun x => (h x).mix.banks.length) := by cases o <;> rfl
@[simp] theorem foldl_mixCurves {α : Type} (h : State → α → State) (H : ∀ b a, (h b a).mix.curves.length = b.mix.curves.length) (l : List α)
    (b : State) : (l.foldl h b).mix.curves.length = b.mix.curves.length := foldl_keeps (fun s : State => s.mix.curves.length) H l b
@[simp] theorem foldr_mixCurves {α : Type} (h : α → State → State) (H : ∀ b a, (h a b).mix.curves.length = b.mix.curves.length) (l : List α)
    (b : State) : (l.foldr h b).mix.curves.length = b.mix.curves.length := foldr_keeps (fun s : State => s.mix.curves.length) H l b
@[simp] theorem foldlp_mixCurves {α β : Type} (h : State × β → α → State × β) (H : ∀ b a, (h b a).1.mix.curves.length = b.1.mix.curves.length)
    (l : List α) (b : State × β) : (l.foldl h b).1.mix.curves.length = b.1.mix.curves.length := foldlp_keeps (fun s : State => s.mix.curves.length) H l b
@[simp] theorem foldrp_mixCurves {α β : Type} (h : α → State × β → State × β) (H : ∀ b a, (h a b).1.mix.curves.length = b.1.mix.curves.length)
    (l : List α) (b : State × β) : (l.foldr h b).1.mix.curves.length = b.1.mix.curves.length := foldrp_keeps (fun s : State => s.mix.curves.length) H l b
@[simp] theorem ite_mixCurves (c : Prop) [Decidable c] (a b : State) :
    (if c then a else b).mix.curves.length = if c then a.mix.curves.length else b.mix.curves.length := by split <;> rfl
@[simp] theorem itep_mixCurves {β : Type} (c : Prop) [Decidable c] (a b : State × β) :
    (if c then a else b).1.mix.curves.length = if c then a.1.mix.curves.length else b.1.mix.curves.length := by split <;> rfl
@[simp] theorem elim_mixCurves {α : Type} (o : Option α) (a : State) (h : α → State) :
    (o.elim a h).mix.curves.length = o.elim a.mix.curves.length (fun x => (h x).mix.curves.length) := by cases o <;> rfl
@[simp] theorem foldl_calAdcs {α : Type} (h : State → α → State) (H : ∀ b a, (h b a).cal.adcs.length = b.cal.adcs.length) (l : List α)
    (b : State) : (l.foldl h b).cal.adcs.length = b.cal.adcs.length := foldl_keeps (fun s : State => s.cal.adcs.length) H l b
@[simp] theorem foldr_calAdcs {α : Type} (h : α → State → State) (H : ∀ b a, (h a b).cal.adcs.length = b.cal.adcs.length) (l : List α)
    (b : State) : (l.foldr h b).cal.adcs.length = b.cal.adcs.length := foldr_keeps (fun s : State => s.cal.adcs.length) H l b
@[simp] theorem foldlp_calAdcs {α β : Type} (h : State × β → α → State × β) (H : ∀ b a, (h b a).1.cal.adcs.length = b.1.cal.adcs.length)
    (l : List α) (b : State × β) : (l.foldl h b).1.cal.adcs.length = b.1.cal.adcs.length := foldlp_keeps (fun s : State => s.cal.adcs.length) H l b
@[simp] theorem foldrp_calAdcs {α β : Type} (h : α → State × β → State × β) (H : ∀ b a, (h a b).1.cal.adcs.length = b.1.cal.adcs.length)
    (l : List α) (b : State × β) : (l.foldr h b).1.cal.adcs.length = b.1.cal.adcs.length := foldrp_keeps (fun s : State => s.cal.adcs.length) H l b
@[simp] theorem ite_calAdcs (c : Prop) [Decidable c] (a b : State) :
    (if c then a else b).cal.adcs.length = if c then a.cal.adcs.length else b.cal.adcs.length := by split <;> rfl
@[simp] theorem itep_calAdcs {β : Type} (c : Prop) [Decidable c] (a b : State × β) :
    (if c then a else b).1.cal.adcs.length = if c then a.1.cal.adcs.length else b.1.cal.adcs.length := by split <;> rfl
@[simp] theorem elim_calAdcs {α : Type} (o : Option α) (a : State) (h : α → State) :
    (o.elim a h).cal.adcs.length = o.elim a.cal.adcs.length (fun x => (h x).cal.adcs.length) := by cases o <;> rfl
@[simp] theorem foldl_healthEngines {α : Type} (h : State → α → State) (H : ∀ b a, (h b a).health.engines.length = b.health.engines.length) (l : List α)
    (b : State) : (l.foldl h b).health.engines.length = b.health.engines.length := foldl_keeps (fun s : State => s.health.engines.length) H l b
@[simp] theorem foldr_healthEngines {α : Type} (h : α → State → State) (H : ∀ b a, (h a b).health.engines.length = b.health.engines.length) (l : List α)
    (b : State) : (l.foldr h b).health.engines.length = b.health.engines.length := foldr_keeps (fun s : State => s.health.engines.length) H l b
@[simp] theorem foldlp_healthEngines {α β : Type} (h : State × β → α → State × β) (H : ∀ b a, (h b a).1.health.engines.length = b.1.health.engines.length)
    (l : List α) (b : State × β) : (l.foldl h b).1.health.engines.length = b.1.health.engines.length := foldlp_keeps (fun s : State => s.health.engines.length) H l b
@[simp] theorem foldrp_healthEngines {α β : Type} (h : α → State × β → State × β) (H : ∀ b a, (h a b).1.health.engines.length = b.1.health.engines.length)
    (l : List α) (b : State × β) : (l.foldr h b).1.health.engines.length = b.1.health.engines.length := foldrp_keeps (fun s : State => s.health.engines.length) H l b
@[simp] theorem ite_healthEngines (c : Prop) [Decidable c] (a b : State) :
    (if c then a else b).health.engines.length = if c then a.health.engines.length else b.health.engines.length := by split <;> rfl
@[simp] theorem itep_healthEngines {β : Type} (c : Prop) [Decidable c] (a b : State × β) :
    (if c then a else b).1.health.engines.length = if c then a.1.health.engines.length else b.1.health.engines.length := by split <;> rfl
@[simp] theorem elim_healthEngines {α : Type} (o : Option α) (a : State) (h : α → State) :
    (o.elim a h).health.engines.length = o.elim a.health.engines.length (fun x => (h x).health.engines.length) := by cases o <;> rfl

end Sys2Proof.Machine
end

