-- ==== Sys2Proof/Laws/FramesA.lean ====
section
/-!
SUPPORT. FramesA.lean: for each operation of Ops, Protocol, Kerf, Sound, Blocks, LinkOps, Objects, one lemma that says which parts of the state it never changes.
-/

namespace Sys2Proof.Machine

theorem pass_frame (n : Nat) (s : State) : SameStore s (pass n s) ∧ SameSecure s (pass n s) ∧ SameObjects s (pass n s)
    ∧ SameMix s (pass n s) ∧ SameHead s (pass n s) ∧ SamePort s (pass n s) ∧ SameSizes s (pass n s) ∧ (pass n s).pending =
    s.pending ∧ (pass n s).pwr = s.pwr ∧ (pass n s).bus = s.bus ∧ (pass n s).plan = s.plan ∧ (pass n s).compat = s.compat
    := by
  unfold pass; simp

theorem passTo_frame (due : Nat) (s : State) : SameStore s (passTo due s) ∧ SameSecure s (passTo due s) ∧ SameObjects
    s (passTo due s) ∧ SameMix s (passTo due s) ∧ SameHead s (passTo due s) ∧ SamePort s (passTo due s) ∧ SameSizes s
    (passTo due s) ∧ (passTo due s).pending = s.pending ∧ (passTo due s).pwr = s.pwr ∧ (passTo due s).bus = s.bus ∧
    (passTo due s).plan = s.plan ∧ (passTo due s).compat = s.compat := by
  unfold passTo; simp [pass_frame ..]

@[simp] theorem drawNat_frame (s : State) : SameBase s (drawNat s).2 ∧ SameStore s (drawNat s).2 ∧ SameObjects s
    (drawNat s).2 ∧ SameMix s (drawNat s).2 ∧ SameHead s (drawNat s).2 ∧ SamePlan s (drawNat s).2 ∧ SamePort s (drawNat
    s).2 ∧ SameSizes s (drawNat s).2 ∧ (drawNat s).2.sec = s.sec ∧ (drawNat s).2.survey = s.survey := by
  unfold drawNat; simp

theorem drawInt_frame (s : State) : SameBase s (drawInt s).2 ∧ SameStore s (drawInt s).2 ∧ SameObjects s (drawInt s).2
    ∧ SameMix s (drawInt s).2 ∧ SameHead s (drawInt s).2 ∧ SamePlan s (drawInt s).2 ∧ SamePort s (drawInt s).2 ∧ SameSizes
    s (drawInt s).2 ∧ (drawInt s).2.sec = s.sec ∧ (drawInt s).2.survey = s.survey := by
  unfold drawInt; simp

theorem drawBool_frame (s : State) : SameBase s (drawBool s).2 ∧ SameStore s (drawBool s).2 ∧ SameObjects s (drawBool
    s).2 ∧ SameMix s (drawBool s).2 ∧ SameHead s (drawBool s).2 ∧ SamePlan s (drawBool s).2 ∧ SamePort s (drawBool s).2 ∧
    SameSizes s (drawBool s).2 ∧ (drawBool s).2.sec = s.sec ∧ (drawBool s).2.survey = s.survey := by
  unfold drawBool; simp

theorem drawBytes_frame (n : Nat) (s : State) : SameBase s (drawBytes n s).2 ∧ SameStore s (drawBytes n s).2 ∧
    SameObjects s (drawBytes n s).2 ∧ SameMix s (drawBytes n s).2 ∧ SameHead s (drawBytes n s).2 ∧ SamePlan s (drawBytes n
    s).2 ∧ SamePort s (drawBytes n s).2 ∧ SameSizes s (drawBytes n s).2 ∧ (drawBytes n s).2.sec = s.sec ∧ (drawBytes n
    s).2.survey = s.survey := by
  unfold drawBytes; simp

@[simp] theorem emit_frame (o : Output) (s : State) : SameBase s (emit o s) ∧ SameStore s (emit o s) ∧ SameSecure s
    (emit o s) ∧ SameObjects s (emit o s) ∧ SameMix s (emit o s) ∧ SameHead s (emit o s) ∧ SamePlan s (emit o s) ∧
    SameSizes s (emit o s) ∧ (emit o s).port = s.port := by
  unfold emit; simp

@[simp] theorem modRing_frame (n : Nat) (g : Ring → Ring) (s : State) : SameBase s (modRing n g s) ∧ SameStore s
    (modRing n g s) ∧ SameSecure s (modRing n g s) ∧ SameObjects s (modRing n g s) ∧ SameMix s (modRing n g s) ∧ SameHead
    s (modRing n g s) ∧ SamePlan s (modRing n g s) ∧ SameSizes s (modRing n g s) ∧ (modRing n g s).out = s.out := by
  unfold modRing; simp

theorem modRingSet_frame (n : Nat) (g : RingSettings → RingSettings) (s : State) : SameBase s (modRingSet n g s) ∧
    SameSecure s (modRingSet n g s) ∧ SameObjects s (modRingSet n g s) ∧ SameMix s (modRingSet n g s) ∧ SameHead s
    (modRingSet n g s) ∧ SamePlan s (modRingSet n g s) ∧ SamePort s (modRingSet n g s) ∧ SameSizes s (modRingSet n g s) ∧
    (modRingSet n g s).store = s.store ∧ (modRingSet n g s).link = s.link ∧ (modRingSet n g s).stats = s.stats := by
  unfold modRingSet; simp

theorem popFront_frame (s : State) (n : Nat) : SameBase s (popFront s n) ∧ SameStore s (popFront s n) ∧ SameSecure s
    (popFront s n) ∧ SameObjects s (popFront s n) ∧ SameMix s (popFront s n) ∧ SameHead s (popFront s n) ∧ SamePlan s
    (popFront s n) ∧ SameSizes s (popFront s n) ∧ (popFront s n).out = s.out := by
  unfold popFront; simp

theorem repack_frame (n : Nat) (s : State) : SameBase s (repack n s) ∧ SameStore s (repack n s) ∧ SameSecure s (repack
    n s) ∧ SameObjects s (repack n s) ∧ SameMix s (repack n s) ∧ SameHead s (repack n s) ∧ SamePlan s (repack n s) ∧
    SameSizes s (repack n s) ∧ (repack n s).out = s.out := by
  unfold repack; simp

theorem passEpoch_frame (n : Nat) (h : ShavingHdr) (s : State) : SameBase s (passEpoch n h s) ∧ SameStore s (passEpoch
    n h s) ∧ SameSecure s (passEpoch n h s) ∧ SameObjects s (passEpoch n h s) ∧ SameMix s (passEpoch n h s) ∧ SameHead s
    (passEpoch n h s) ∧ SamePlan s (passEpoch n h s) ∧ SameSizes s (passEpoch n h s) ∧ (passEpoch n h s).out = s.out := by
  unfold passEpoch; (repeat' split) <;> simp

theorem cutEntries_frame (n : Nat) (i : Nat) (k : Nat) (s : State) : SameBase s (cutEntries n i k s) ∧ SameStore s
    (cutEntries n i k s) ∧ SameSecure s (cutEntries n i k s) ∧ SameObjects s (cutEntries n i k s) ∧ SameMix s (cutEntries
    n i k s) ∧ SameHead s (cutEntries n i k s) ∧ SamePlan s (cutEntries n i k s) ∧ SameSizes s (cutEntries n i k s) ∧
    (cutEntries n i k s).out = s.out := by
  unfold cutEntries; simp [popFront_frame .., repack_frame ..]

theorem droppedBlock_frame (n : Nat) (e : Entry) (s : State) : SameBase s (droppedBlock n e s) ∧ SameStore s
    (droppedBlock n e s) ∧ SameSecure s (droppedBlock n e s) ∧ SameObjects s (droppedBlock n e s) ∧ SameMix s
    (droppedBlock n e s) ∧ SameHead s (droppedBlock n e s) ∧ SamePlan s (droppedBlock n e s) ∧ SameSizes s (droppedBlock n
    e s) ∧ (droppedBlock n e s).out = s.out := by
  unfold droppedBlock; (repeat' split) <;> simp [passEpoch_frame ..]

theorem dropOldest_frame (s : State) (n : Nat) : SameBase s (dropOldest s n) ∧ SameStore s (dropOldest s n) ∧
    SameSecure s (dropOldest s n) ∧ SameObjects s (dropOldest s n) ∧ SameMix s (dropOldest s n) ∧ SameHead s (dropOldest s
    n) ∧ SamePlan s (dropOldest s n) ∧ SameSizes s (dropOldest s n) ∧ (dropOldest s n).out = s.out := by
  unfold dropOldest; dsimp only; (repeat' split) <;> simp [droppedBlock_frame .., cutEntries_frame ..]

theorem dropUntilFits_frame (n : Nat) (len : Nat) (x0 : Nat) (x1 : State) : SameBase x1 (dropUntilFits n len x0 x1) ∧
    SameStore x1 (dropUntilFits n len x0 x1) ∧ SameSecure x1 (dropUntilFits n len x0 x1) ∧ SameObjects x1 (dropUntilFits n
    len x0 x1) ∧ SameMix x1 (dropUntilFits n len x0 x1) ∧ SameHead x1 (dropUntilFits n len x0 x1) ∧ SamePlan x1
    (dropUntilFits n len x0 x1) ∧ SameSizes x1 (dropUntilFits n len x0 x1) ∧ (dropUntilFits n len x0 x1).out = x1.out :=
    by
  induction x0 generalizing x1 with
  | zero => simp [dropUntilFits]
  | succ k ih => unfold dropUntilFits; (repeat' split) <;> simp [dropOldest_frame .., ih]

theorem sendMsix_frame (n : Nat) (s : State) : SameBase s (sendMsix n s) ∧ SameStore s (sendMsix n s) ∧ SameSecure s
    (sendMsix n s) ∧ SameObjects s (sendMsix n s) ∧ SameMix s (sendMsix n s) ∧ SameHead s (sendMsix n s) ∧ SamePlan s
    (sendMsix n s) ∧ SameSizes s (sendMsix n s) := by
  unfold sendMsix; simp

theorem raiseInt_frame (n : Nat) (s : State) : SameBase s (raiseInt n s) ∧ SameStore s (raiseInt n s) ∧ SameSecure s
    (raiseInt n s) ∧ SameObjects s (raiseInt n s) ∧ SameMix s (raiseInt n s) ∧ SameHead s (raiseInt n s) ∧ SamePlan s
    (raiseInt n s) ∧ SameSizes s (raiseInt n s) := by
  unfold raiseInt; simp [sendMsix_frame ..]

theorem madeVisible_frame (n : Nat) (len : Nat) (s : State) : SameBase s (madeVisible n len s) ∧ SameStore s
    (madeVisible n len s) ∧ SameSecure s (madeVisible n len s) ∧ SameObjects s (madeVisible n len s) ∧ SameMix s
    (madeVisible n len s) ∧ SameHead s (madeVisible n len s) ∧ SamePlan s (madeVisible n len s) ∧ SameSizes s (madeVisible
    n len s) := by
  unfold madeVisible; simp [raiseInt_frame ..]

theorem stageEntry_frame (n : Nat) (e : Entry) (s : State) : SameBase s (stageEntry n e s) ∧ SameStore s (stageEntry n
    e s) ∧ SameSecure s (stageEntry n e s) ∧ SameObjects s (stageEntry n e s) ∧ SameMix s (stageEntry n e s) ∧ SameHead s
    (stageEntry n e s) ∧ SamePlan s (stageEntry n e s) ∧ SameSizes s (stageEntry n e s) := by
  unfold stageEntry; simp [madeVisible_frame ..]

@[simp] theorem stageShaving_frame (n : Nat) (h : ShavingHdr) (payload : List Byte) (group : Nat) (s : State) :
    SameBase s (stageShaving n h payload group s) ∧ SameStore s (stageShaving n h payload group s) ∧ SameSecure s
    (stageShaving n h payload group s) ∧ SameObjects s (stageShaving n h payload group s) ∧ SameMix s (stageShaving n h
    payload group s) ∧ SameHead s (stageShaving n h payload group s) ∧ SamePlan s (stageShaving n h payload group s) ∧
    SameSizes s (stageShaving n h payload group s) := by
  unfold stageShaving; simp [stageEntry_frame ..]

@[simp] theorem takeSequence_frame (n : Nat) (src : Handle) (s : State) : SameBase s (takeSequence n src s) ∧
    SameStore s (takeSequence n src s) ∧ SameSecure s (takeSequence n src s) ∧ SameObjects s (takeSequence n src s) ∧
    SameMix s (takeSequence n src s) ∧ SameHead s (takeSequence n src s) ∧ SamePlan s (takeSequence n src s) ∧ SameSizes s
    (takeSequence n src s) ∧ (takeSequence n src s).out = s.out := by
  unfold takeSequence; simp

theorem offerShaving_frame (n : Nat) (h : ShavingHdr) (payload : List Byte) (group : Nat) (s : State) : SameBase s
    (offerShaving n h payload group s) ∧ SameStore s (offerShaving n h payload group s) ∧ SameSecure s (offerShaving n h
    payload group s) ∧ SameObjects s (offerShaving n h payload group s) ∧ SameMix s (offerShaving n h payload group s) ∧
    SameHead s (offerShaving n h payload group s) ∧ SamePlan s (offerShaving n h payload group s) ∧ SameSizes s
    (offerShaving n h payload group s) := by
  unfold offerShaving; simp [dropUntilFits_frame ..]

theorem writeEvent_frame (n : Nat) (code : Nat) (src : Handle) (payload : List Byte) (cause : Option Nat) (s : State)
    : SameBase s (writeEvent n code src payload cause s) ∧ SameStore s (writeEvent n code src payload cause s) ∧
    SameSecure s (writeEvent n code src payload cause s) ∧ SameObjects s (writeEvent n code src payload cause s) ∧ SameMix
    s (writeEvent n code src payload cause s) ∧ SameHead s (writeEvent n code src payload cause s) ∧ SamePlan s
    (writeEvent n code src payload cause s) ∧ SameSizes s (writeEvent n code src payload cause s) := by
  unfold writeEvent; simp [dropUntilFits_frame .., stageEntry_frame ..]

@[simp] theorem post_frame (code : Nat) (src : Handle) (payload : List Byte) (cause : Option Nat) (s : State) :
    SameBase s (post code src payload cause s) ∧ SameStore s (post code src payload cause s) ∧ SameSecure s (post code src
    payload cause s) ∧ SameObjects s (post code src payload cause s) ∧ SameMix s (post code src payload cause s) ∧
    SameHead s (post code src payload cause s) ∧ SamePlan s (post code src payload cause s) ∧ SameSizes s (post code src
    payload cause s) := by
  unfold post; simp [writeEvent_frame ..]

theorem postAll_frame (es : List (Nat × Handle × List Byte)) (cause : Option Nat) (s : State) : SameBase s (postAll es
    cause s) ∧ SameStore s (postAll es cause s) ∧ SameSecure s (postAll es cause s) ∧ SameObjects s (postAll es cause s) ∧
    SameMix s (postAll es cause s) ∧ SameHead s (postAll es cause s) ∧ SamePlan s (postAll es cause s) ∧ SameSizes s
    (postAll es cause s) := by
  unfold postAll; simp

theorem logNote_frame (posted : Bool) (code : Nat) (island : Nat) (subject : Nat) (value : Nat) (cause : Option Nat)
    (s : State) : SameBase s (logNote posted code island subject value cause s) ∧ SameStore s (logNote posted code island
    subject value cause s) ∧ SameSecure s (logNote posted code island subject value cause s) ∧ SameObjects s (logNote
    posted code island subject value cause s) ∧ SameHead s (logNote posted code island subject value cause s) ∧ SamePlan s
    (logNote posted code island subject value cause s) ∧ SameSizes s (logNote posted code island subject value cause s) ∧
    (logNote posted code island subject value cause s).mix = s.mix := by
  unfold logNote; simp

@[simp] theorem note_frame (code : Nat) (island : Nat) (subject : Nat) (value : Nat) (s : State) : SameBase s (note
    code island subject value s) ∧ SameStore s (note code island subject value s) ∧ SameSecure s (note code island subject
    value s) ∧ SameObjects s (note code island subject value s) ∧ SameHead s (note code island subject value s) ∧ SamePlan
    s (note code island subject value s) ∧ SameSizes s (note code island subject value s) ∧ (note code island subject
    value s).mix = s.mix := by
  unfold note; simp [logNote_frame ..]

theorem noteBy_frame (code : Nat) (island : Nat) (subject : Nat) (value : Nat) (cause : Nat) (s : State) : SameBase s
    (noteBy code island subject value cause s) ∧ SameStore s (noteBy code island subject value cause s) ∧ SameSecure s
    (noteBy code island subject value cause s) ∧ SameObjects s (noteBy code island subject value cause s) ∧ SameHead s
    (noteBy code island subject value cause s) ∧ SamePlan s (noteBy code island subject value cause s) ∧ SameSizes s
    (noteBy code island subject value cause s) ∧ (noteBy code island subject value cause s).mix = s.mix := by
  unfold noteBy; simp [logNote_frame ..]

theorem noteLog_frame (code : Nat) (island : Nat) (subject : Nat) (value : Nat) (s : State) : SameBase s (noteLog code
    island subject value s) ∧ SameStore s (noteLog code island subject value s) ∧ SameSecure s (noteLog code island
    subject value s) ∧ SameObjects s (noteLog code island subject value s) ∧ SameHead s (noteLog code island subject value
    s) ∧ SamePlan s (noteLog code island subject value s) ∧ SameSizes s (noteLog code island subject value s) ∧ (noteLog
    code island subject value s).mix = s.mix := by
  unfold noteLog; simp [logNote_frame ..]

theorem writeResponse_frame (p : Nat) (e : Entry) (s : State) : SameBase s (writeResponse p e s) ∧ SameStore s
    (writeResponse p e s) ∧ SameSecure s (writeResponse p e s) ∧ SameObjects s (writeResponse p e s) ∧ SameMix s
    (writeResponse p e s) ∧ SameHead s (writeResponse p e s) ∧ SamePlan s (writeResponse p e s) ∧ SameSizes s
    (writeResponse p e s) := by
  unfold writeResponse; simp [stageEntry_frame ..]

@[simp] theorem respond_frame (op : Nat) (d : Deferred) (r : Reply) (s : State) : SameBase s (respond op d r s) ∧
    SameStore s (respond op d r s) ∧ SameSecure s (respond op d r s) ∧ SameObjects s (respond op d r s) ∧ SameMix s
    (respond op d r s) ∧ SameHead s (respond op d r s) ∧ SamePlan s (respond op d r s) ∧ SameSizes s (respond op d r s) :=
    by
  unfold respond; simp [writeResponse_frame ..]

@[simp] theorem release_frame (key : WaitKey) (r : Deferred → Reply) (s : State) : SameBase s (release key r s) ∧
    SameStore s (release key r s) ∧ SameSecure s (release key r s) ∧ SameObjects s (release key r s) ∧ SameMix s (release
    key r s) ∧ SamePlan s (release key r s) ∧ SameSizes s (release key r s) ∧ (release key r s).gens = s.gens ∧ (release
    key r s).cal = s.cal := by
  unfold release; simp

@[simp] theorem deferOn_frame (key : WaitKey) (d : Deferred) (s : State) : SameBase s (deferOn key d s) ∧ SameStore s
    (deferOn key d s) ∧ SameSecure s (deferOn key d s) ∧ SameObjects s (deferOn key d s) ∧ SameMix s (deferOn key d s) ∧
    SamePlan s (deferOn key d s) ∧ SamePort s (deferOn key d s) ∧ SameSizes s (deferOn key d s) ∧ (deferOn key d s).gens =
    s.gens ∧ (deferOn key d s).cal = s.cal := by
  unfold deferOn; simp

@[simp] theorem queueWrite_frame (k : RecordKind) (c : Content) (len : Nat) (both : Bool) (s : State) : SameBase s
    (queueWrite k c len both s).2 ∧ SameSecure s (queueWrite k c len both s).2 ∧ SameObjects s (queueWrite k c len both
    s).2 ∧ SameMix s (queueWrite k c len both s).2 ∧ SameHead s (queueWrite k c len both s).2 ∧ SamePlan s (queueWrite k c
    len both s).2 ∧ SamePort s (queueWrite k c len both s).2 ∧ SameSizes s (queueWrite k c len both s).2 ∧ (queueWrite k c
    len both s).2.set = s.set ∧ (queueWrite k c len both s).2.link = s.link ∧ (queueWrite k c len both s).2.stats =
    s.stats := by
  unfold queueWrite; simp

theorem attnFall_frame (s : State) : SameStore s (attnFall s) ∧ SameSecure s (attnFall s) ∧ SameObjects s (attnFall s)
    ∧ SameMix s (attnFall s) ∧ SameHead s (attnFall s) ∧ SamePlan s (attnFall s) ∧ SamePort s (attnFall s) ∧ SameSizes s
    (attnFall s) ∧ (attnFall s).pending = s.pending ∧ (attnFall s).pwr = s.pwr ∧ (attnFall s).clk = s.clk := by
  unfold attnFall; simp

theorem queueXfer_frame (k : XferKind) (s : State) : SameStore s (queueXfer k s) ∧ SameSecure s (queueXfer k s) ∧
    SameObjects s (queueXfer k s) ∧ SameMix s (queueXfer k s) ∧ SameHead s (queueXfer k s) ∧ SamePlan s (queueXfer k s) ∧
    SamePort s (queueXfer k s) ∧ SameSizes s (queueXfer k s) ∧ (queueXfer k s).pending = s.pending ∧ (queueXfer k s).pwr =
    s.pwr ∧ (queueXfer k s).clk = s.clk := by
  unfold queueXfer; simp

theorem queueSupply_frame (s : State) : SameStore s (queueSupply s) ∧ SameSecure s (queueSupply s) ∧ SameObjects s
    (queueSupply s) ∧ SameMix s (queueSupply s) ∧ SameHead s (queueSupply s) ∧ SamePlan s (queueSupply s) ∧ SamePort s
    (queueSupply s) ∧ SameSizes s (queueSupply s) ∧ (queueSupply s).pending = s.pending ∧ (queueSupply s).pwr = s.pwr ∧
    (queueSupply s).clk = s.clk := by
  unfold queueSupply; simp [queueXfer_frame ..]

@[simp] theorem settingsDirty_frame (s : State) : SameBase s (settingsDirty s) ∧ SameSecure s (settingsDirty s) ∧
    SameObjects s (settingsDirty s) ∧ SameMix s (settingsDirty s) ∧ SameHead s (settingsDirty s) ∧ SamePlan s
    (settingsDirty s) ∧ SamePort s (settingsDirty s) ∧ SameSizes s (settingsDirty s) ∧ (settingsDirty s).set = s.set ∧
    (settingsDirty s).link = s.link ∧ (settingsDirty s).stats = s.stats := by
  unfold settingsDirty; simp

@[simp] theorem setSettings_frame (x : Settings) (s : State) : SameBase s (setSettings x s) ∧ SameSecure s
    (setSettings x s) ∧ SameObjects s (setSettings x s) ∧ SameMix s (setSettings x s) ∧ SameHead s (setSettings x s) ∧
    SamePlan s (setSettings x s) ∧ SamePort s (setSettings x s) ∧ SameSizes s (setSettings x s) ∧ (setSettings x s).link =
    s.link ∧ (setSettings x s).stats = s.stats := by
  unfold setSettings; simp

@[simp] theorem bumpPlan_frame (s : State) : SameBase s (bumpPlan s) ∧ SameStore s (bumpPlan s) ∧ SameSecure s
    (bumpPlan s) ∧ SameObjects s (bumpPlan s) ∧ SameMix s (bumpPlan s) ∧ SameHead s (bumpPlan s) ∧ SamePort s (bumpPlan s)
    ∧ SameSizes s (bumpPlan s) ∧ (bumpPlan s).time = s.time ∧ (bumpPlan s).compat = s.compat := by
  unfold bumpPlan; simp

theorem headAdvanced_frame (n : Nat) (s : State) : SameBase s (headAdvanced n s) ∧ SameStore s (headAdvanced n s) ∧
    SameSecure s (headAdvanced n s) ∧ SameObjects s (headAdvanced n s) ∧ SameMix s (headAdvanced n s) ∧ SameHead s
    (headAdvanced n s) ∧ SamePlan s (headAdvanced n s) ∧ SameSizes s (headAdvanced n s) := by
  unfold headAdvanced; simp [raiseInt_frame ..]

theorem frameTaken_frame (n : Nat) (s : State) : SameBase s (frameTaken n s) ∧ SameStore s (frameTaken n s) ∧
    SameSecure s (frameTaken n s) ∧ SameObjects s (frameTaken n s) ∧ SameMix s (frameTaken n s) ∧ SameHead s (frameTaken n
    s) ∧ SamePlan s (frameTaken n s) ∧ SameSizes s (frameTaken n s) := by
  unfold frameTaken; simp [popFront_frame .., headAdvanced_frame ..]

@[simp] theorem consume_frame (op : Nat) (f : CmdFrame) (s : State) : SameStore s (consume op f s) ∧ SameSecure s
    (consume op f s) ∧ SameObjects s (consume op f s) ∧ SameMix s (consume op f s) ∧ SamePlan s (consume op f s) ∧
    SameSizes s (consume op f s) ∧ (consume op f s).pending = s.pending ∧ (consume op f s).pwr = s.pwr ∧ (consume op f
    s).clk = s.clk ∧ (consume op f s).gens = s.gens ∧ (consume op f s).cal = s.cal := by
  unfold consume; dsimp only; split <;> simp [queueSupply_frame .., frameTaken_frame ..]

@[simp] theorem refuse_frame (op : Nat) (d : Deferred) (x : Fail) (s : State) : SameBase s (refuse op d x s) ∧
    SameStore s (refuse op d x s) ∧ SameSecure s (refuse op d x s) ∧ SameObjects s (refuse op d x s) ∧ SameMix s (refuse
    op d x s) ∧ SameHead s (refuse op d x s) ∧ SamePlan s (refuse op d x s) ∧ SameSizes s (refuse op d x s) := by
  unfold refuse; simp

@[simp] theorem blockPort_frame (op : Nat) (f : CmdFrame) (s : State) : SameBase s (blockPort op f s) ∧ SameStore s
    (blockPort op f s) ∧ SameSecure s (blockPort op f s) ∧ SameObjects s (blockPort op f s) ∧ SameMix s (blockPort op f s)
    ∧ SamePlan s (blockPort op f s) ∧ SamePort s (blockPort op f s) ∧ SameSizes s (blockPort op f s) ∧ (blockPort op f
    s).gens = s.gens ∧ (blockPort op f s).cal = s.cal := by
  unfold blockPort; simp

@[simp] theorem handle_pending (op : Nat) (f : CmdFrame) (queued : Bool) (c : Checks) (body : State → State × Option Reply)
    (hb : ∀ s, (body s).1.pending = s.pending) (s : State) : (handle op f queued c body s).pending = s.pending := by
  have := hb s
  unfold handle; (try dsimp only); (repeat' split) <;> simp_all

@[simp] theorem handle_pwr (op : Nat) (f : CmdFrame) (queued : Bool) (c : Checks) (body : State → State × Option Reply)
    (hb : ∀ s, (body s).1.pwr = s.pwr) (s : State) : (handle op f queued c body s).pwr = s.pwr := by
  have := hb s
  unfold handle; (try dsimp only); (repeat' split) <;> simp_all

@[simp] theorem handle_set (op : Nat) (f : CmdFrame) (queued : Bool) (c : Checks) (body : State → State × Option Reply)
    (hb : ∀ s, (body s).1.set = s.set) (s : State) : (handle op f queued c body s).set = s.set := by
  have := hb s
  unfold handle; (try dsimp only); (repeat' split) <;> simp_all

@[simp] theorem handle_store (op : Nat) (f : CmdFrame) (queued : Bool) (c : Checks) (body : State → State × Option Reply)
    (hb : ∀ s, (body s).1.store = s.store) (s : State) : (handle op f queued c body s).store = s.store := by
  have := hb s
  unfold handle; (try dsimp only); (repeat' split) <;> simp_all

@[simp] theorem handle_clk (op : Nat) (f : CmdFrame) (queued : Bool) (c : Checks) (body : State → State × Option Reply)
    (hb : ∀ s, (body s).1.clk = s.clk) (s : State) : (handle op f queued c body s).clk = s.clk := by
  have := hb s
  unfold handle; (try dsimp only); (repeat' split) <;> simp_all

@[simp] theorem handle_time (op : Nat) (f : CmdFrame) (queued : Bool) (c : Checks) (body : State → State × Option Reply)
    (hb : ∀ s, (body s).1.time = s.time) (s : State) : (handle op f queued c body s).time = s.time := by
  have := hb s
  unfold handle; (try dsimp only); (repeat' split) <;> simp_all

@[simp] theorem handle_front (op : Nat) (f : CmdFrame) (queued : Bool) (c : Checks) (body : State → State × Option Reply)
    (hb : ∀ s, (body s).1.front = s.front) (s : State) : (handle op f queued c body s).front = s.front := by
  have := hb s
  unfold handle; (try dsimp only); (repeat' split) <;> simp_all

@[simp] theorem handle_prog (op : Nat) (f : CmdFrame) (queued : Bool) (c : Checks) (body : State → State × Option Reply)
    (hb : ∀ s, (body s).1.prog = s.prog) (s : State) : (handle op f queued c body s).prog = s.prog := by
  have := hb s
  unfold handle; (try dsimp only); (repeat' split) <;> simp_all

@[simp] theorem handle_gens (op : Nat) (f : CmdFrame) (queued : Bool) (c : Checks) (body : State → State × Option Reply)
    (hb : ∀ s, (body s).1.gens = s.gens) (s : State) : (handle op f queued c body s).gens = s.gens := by
  have := hb s
  unfold handle; (try dsimp only); (repeat' split) <;> simp_all

@[simp] theorem handle_mix (op : Nat) (f : CmdFrame) (queued : Bool) (c : Checks) (body : State → State × Option Reply)
    (hb : ∀ s, (body s).1.mix = s.mix) (s : State) : (handle op f queued c body s).mix = s.mix := by
  have := hb s
  unfold handle; (try dsimp only); (repeat' split) <;> simp_all

@[simp] theorem handle_plan (op : Nat) (f : CmdFrame) (queued : Bool) (c : Checks) (body : State → State × Option Reply)
    (hb : ∀ s, (body s).1.plan = s.plan) (s : State) : (handle op f queued c body s).plan = s.plan := by
  have := hb s
  unfold handle; (try dsimp only); (repeat' split) <;> simp_all

@[simp] theorem handle_bus (op : Nat) (f : CmdFrame) (queued : Bool) (c : Checks) (body : State → State × Option Reply)
    (hb : ∀ s, (body s).1.bus = s.bus) (s : State) : (handle op f queued c body s).bus = s.bus := by
  have := hb s
  unfold handle; (try dsimp only); (repeat' split) <;> simp_all

@[simp] theorem handle_link (op : Nat) (f : CmdFrame) (queued : Bool) (c : Checks) (body : State → State × Option Reply)
    (hb : ∀ s, (body s).1.link = s.link) (s : State) : (handle op f queued c body s).link = s.link := by
  have := hb s
  unfold handle; (try dsimp only); (repeat' split) <;> simp_all

@[simp] theorem handle_stats (op : Nat) (f : CmdFrame) (queued : Bool) (c : Checks) (body : State → State × Option Reply)
    (hb : ∀ s, (body s).1.stats = s.stats) (s : State) : (handle op f queued c body s).stats = s.stats := by
  have := hb s
  unfold handle; (try dsimp only); (repeat' split) <;> simp_all

@[simp] theorem handle_sec (op : Nat) (f : CmdFrame) (queued : Bool) (c : Checks) (body : State → State × Option Reply)
    (hb : ∀ s, (body s).1.sec = s.sec) (s : State) : (handle op f queued c body s).sec = s.sec := by
  have := hb s
  unfold handle; (try dsimp only); (repeat' split) <;> simp_all

@[simp] theorem handle_cal (op : Nat) (f : CmdFrame) (queued : Bool) (c : Checks) (body : State → State × Option Reply)
    (hb : ∀ s, (body s).1.cal = s.cal) (s : State) : (handle op f queued c body s).cal = s.cal := by
  have := hb s
  unfold handle; (try dsimp only); (repeat' split) <;> simp_all

@[simp] theorem handle_health (op : Nat) (f : CmdFrame) (queued : Bool) (c : Checks) (body : State → State × Option Reply)
    (hb : ∀ s, (body s).1.health = s.health) (s : State) : (handle op f queued c body s).health = s.health := by
  have := hb s
  unfold handle; (try dsimp only); (repeat' split) <;> simp_all

@[simp] theorem handle_survey (op : Nat) (f : CmdFrame) (queued : Bool) (c : Checks) (body : State → State × Option Reply)
    (hb : ∀ s, (body s).1.survey = s.survey) (s : State) : (handle op f queued c body s).survey = s.survey := by
  have := hb s
  unfold handle; (try dsimp only); (repeat' split) <;> simp_all

@[simp] theorem handle_compat (op : Nat) (f : CmdFrame) (queued : Bool) (c : Checks) (body : State → State × Option Reply)
    (hb : ∀ s, (body s).1.compat = s.compat) (s : State) : (handle op f queued c body s).compat = s.compat := by
  have := hb s
  unfold handle; (try dsimp only); (repeat' split) <;> simp_all

@[simp] theorem handle_fresh (op : Nat) (f : CmdFrame) (queued : Bool) (c : Checks) (body : State → State × Option Reply)
    (hb : ∀ s, (body s).1.fresh = s.fresh) (s : State) : (handle op f queued c body s).fresh = s.fresh := by
  have := hb s
  unfold handle; (try dsimp only); (repeat' split) <;> simp_all

@[simp] theorem handle_portRings (op : Nat) (f : CmdFrame) (queued : Bool) (c : Checks) (body : State → State × Option Reply)
    (hb : ∀ s, (body s).1.port.rings.length = s.port.rings.length) (s : State) : (handle op f queued c body s).port.rings.length = s.port.rings.length := by
  have := hb s
  unfold handle; (try dsimp only); (repeat' split) <;> simp_all

@[simp] theorem handle_frontWindows (op : Nat) (f : CmdFrame) (queued : Bool) (c : Checks) (body : State → State × Option Reply)
    (hb : ∀ s, (body s).1.front.windows.length = s.front.windows.length) (s : State) : (handle op f queued c body s).front.windows.length = s.front.windows.length := by
  have := hb s
  unfold handle; (try dsimp only); (repeat' split) <;> simp_all

@[simp] theorem handle_frontTuners (op : Nat) (f : CmdFrame) (queued : Bool) (c : Checks) (body : State → State × Option Reply)
    (hb : ∀ s, (body s).1.front.tuners.length = s.front.tuners.length) (s : State) : (handle op f queued c body s).front.tuners.length = s.front.tuners.length := by
  have := hb s
  unfold handle; (try dsimp only); (repeat' split) <;> simp_all

@[simp] theorem handle_mixBanks (op : Nat) (f : CmdFrame) (queued : Bool) (c : Checks) (body : State → State × Option Reply)
    (hb : ∀ s, (body s).1.mix.banks.length = s.mix.banks.length) (s : State) : (handle op f queued c body s).mix.banks.length = s.mix.banks.length := by
  have := hb s
  unfold handle; (try dsimp only); (repeat' split) <;> simp_all

@[simp] theorem handle_mixCurves (op : Nat) (f : CmdFrame) (queued : Bool) (c : Checks) (body : State → State × Option Reply)
    (hb : ∀ s, (body s).1.mix.curves.length = s.mix.curves.length) (s : State) : (handle op f queued c body s).mix.curves.length = s.mix.curves.length := by
  have := hb s
  unfold handle; (try dsimp only); (repeat' split) <;> simp_all

@[simp] theorem handle_calAdcs (op : Nat) (f : CmdFrame) (queued : Bool) (c : Checks) (body : State → State × Option Reply)
    (hb : ∀ s, (body s).1.cal.adcs.length = s.cal.adcs.length) (s : State) : (handle op f queued c body s).cal.adcs.length = s.cal.adcs.length := by
  have := hb s
  unfold handle; (try dsimp only); (repeat' split) <;> simp_all

@[simp] theorem handle_healthEngines (op : Nat) (f : CmdFrame) (queued : Bool) (c : Checks) (body : State → State × Option Reply)
    (hb : ∀ s, (body s).1.health.engines.length = s.health.engines.length) (s : State) : (handle op f queued c body s).health.engines.length = s.health.engines.length := by
  have := hb s
  unfold handle; (try dsimp only); (repeat' split) <;> simp_all

@[simp] theorem command_pending (op : Nat) (f : CmdFrame) (c : State → Checks) (body : State → State × Option Reply)
    (hb : ∀ s, (body s).1.pending = s.pending) (s : State) : (command op f c body s).pending = s.pending := by
  unfold command; (try dsimp only); (repeat' split) <;> simp_all

@[simp] theorem command_pwr (op : Nat) (f : CmdFrame) (c : State → Checks) (body : State → State × Option Reply)
    (hb : ∀ s, (body s).1.pwr = s.pwr) (s : State) : (command op f c body s).pwr = s.pwr := by
  unfold command; (try dsimp only); (repeat' split) <;> simp_all

@[simp] theorem command_set (op : Nat) (f : CmdFrame) (c : State → Checks) (body : State → State × Option Reply)
    (hb : ∀ s, (body s).1.set = s.set) (s : State) : (command op f c body s).set = s.set := by
  unfold command; (try dsimp only); (repeat' split) <;> simp_all

@[simp] theorem command_store (op : Nat) (f : CmdFrame) (c : State → Checks) (body : State → State × Option Reply)
    (hb : ∀ s, (body s).1.store = s.store) (s : State) : (command op f c body s).store = s.store := by
  unfold command; (try dsimp only); (repeat' split) <;> simp_all

@[simp] theorem command_clk (op : Nat) (f : CmdFrame) (c : State → Checks) (body : State → State × Option Reply)
    (hb : ∀ s, (body s).1.clk = s.clk) (s : State) : (command op f c body s).clk = s.clk := by
  unfold command; (try dsimp only); (repeat' split) <;> simp_all

@[simp] theorem command_time (op : Nat) (f : CmdFrame) (c : State → Checks) (body : State → State × Option Reply)
    (hb : ∀ s, (body s).1.time = s.time) (s : State) : (command op f c body s).time = s.time := by
  unfold command; (try dsimp only); (repeat' split) <;> simp_all

@[simp] theorem command_front (op : Nat) (f : CmdFrame) (c : State → Checks) (body : State → State × Option Reply)
    (hb : ∀ s, (body s).1.front = s.front) (s : State) : (command op f c body s).front = s.front := by
  unfold command; (try dsimp only); (repeat' split) <;> simp_all

@[simp] theorem command_prog (op : Nat) (f : CmdFrame) (c : State → Checks) (body : State → State × Option Reply)
    (hb : ∀ s, (body s).1.prog = s.prog) (s : State) : (command op f c body s).prog = s.prog := by
  unfold command; (try dsimp only); (repeat' split) <;> simp_all

@[simp] theorem command_gens (op : Nat) (f : CmdFrame) (c : State → Checks) (body : State → State × Option Reply)
    (hb : ∀ s, (body s).1.gens = s.gens) (s : State) : (command op f c body s).gens = s.gens := by
  unfold command; (try dsimp only); (repeat' split) <;> simp_all

@[simp] theorem command_mix (op : Nat) (f : CmdFrame) (c : State → Checks) (body : State → State × Option Reply)
    (hb : ∀ s, (body s).1.mix = s.mix) (s : State) : (command op f c body s).mix = s.mix := by
  unfold command; (try dsimp only); (repeat' split) <;> simp_all

@[simp] theorem command_plan (op : Nat) (f : CmdFrame) (c : State → Checks) (body : State → State × Option Reply)
    (hb : ∀ s, (body s).1.plan = s.plan) (s : State) : (command op f c body s).plan = s.plan := by
  unfold command; (try dsimp only); (repeat' split) <;> simp_all

@[simp] theorem command_link (op : Nat) (f : CmdFrame) (c : State → Checks) (body : State → State × Option Reply)
    (hb : ∀ s, (body s).1.link = s.link) (s : State) : (command op f c body s).link = s.link := by
  unfold command; (try dsimp only); (repeat' split) <;> simp_all

@[simp] theorem command_stats (op : Nat) (f : CmdFrame) (c : State → Checks) (body : State → State × Option Reply)
    (hb : ∀ s, (body s).1.stats = s.stats) (s : State) : (command op f c body s).stats = s.stats := by
  unfold command; (try dsimp only); (repeat' split) <;> simp_all

@[simp] theorem command_sec (op : Nat) (f : CmdFrame) (c : State → Checks) (body : State → State × Option Reply)
    (hb : ∀ s, (body s).1.sec = s.sec) (s : State) : (command op f c body s).sec = s.sec := by
  unfold command; (try dsimp only); (repeat' split) <;> simp_all

@[simp] theorem command_cal (op : Nat) (f : CmdFrame) (c : State → Checks) (body : State → State × Option Reply)
    (hb : ∀ s, (body s).1.cal = s.cal) (s : State) : (command op f c body s).cal = s.cal := by
  unfold command; (try dsimp only); (repeat' split) <;> simp_all

@[simp] theorem command_health (op : Nat) (f : CmdFrame) (c : State → Checks) (body : State → State × Option Reply)
    (hb : ∀ s, (body s).1.health = s.health) (s : State) : (command op f c body s).health = s.health := by
  unfold command; (try dsimp only); (repeat' split) <;> simp_all

@[simp] theorem command_survey (op : Nat) (f : CmdFrame) (c : State → Checks) (body : State → State × Option Reply)
    (hb : ∀ s, (body s).1.survey = s.survey) (s : State) : (command op f c body s).survey = s.survey := by
  unfold command; (try dsimp only); (repeat' split) <;> simp_all

@[simp] theorem command_compat (op : Nat) (f : CmdFrame) (c : State → Checks) (body : State → State × Option Reply)
    (hb : ∀ s, (body s).1.compat = s.compat) (s : State) : (command op f c body s).compat = s.compat := by
  unfold command; (try dsimp only); (repeat' split) <;> simp_all

@[simp] theorem command_fresh (op : Nat) (f : CmdFrame) (c : State → Checks) (body : State → State × Option Reply)
    (hb : ∀ s, (body s).1.fresh = s.fresh) (s : State) : (command op f c body s).fresh = s.fresh := by
  unfold command; (try dsimp only); (repeat' split) <;> simp_all

@[simp] theorem command_portRings (op : Nat) (f : CmdFrame) (c : State → Checks) (body : State → State × Option Reply)
    (hb : ∀ s, (body s).1.port.rings.length = s.port.rings.length) (s : State) : (command op f c body s).port.rings.length = s.port.rings.length := by
  unfold command; (try dsimp only); (repeat' split) <;> simp_all

@[simp] theorem command_frontWindows (op : Nat) (f : CmdFrame) (c : State → Checks) (body : State → State × Option Reply)
    (hb : ∀ s, (body s).1.front.windows.length = s.front.windows.length) (s : State) : (command op f c body s).front.windows.length = s.front.windows.length := by
  unfold command; (try dsimp only); (repeat' split) <;> simp_all

@[simp] theorem command_frontTuners (op : Nat) (f : CmdFrame) (c : State → Checks) (body : State → State × Option Reply)
    (hb : ∀ s, (body s).1.front.tuners.length = s.front.tuners.length) (s : State) : (command op f c body s).front.tuners.length = s.front.tuners.length := by
  unfold command; (try dsimp only); (repeat' split) <;> simp_all

@[simp] theorem command_mixBanks (op : Nat) (f : CmdFrame) (c : State → Checks) (body : State → State × Option Reply)
    (hb : ∀ s, (body s).1.mix.banks.length = s.mix.banks.length) (s : State) : (command op f c body s).mix.banks.length = s.mix.banks.length := by
  unfold command; (try dsimp only); (repeat' split) <;> simp_all

@[simp] theorem command_mixCurves (op : Nat) (f : CmdFrame) (c : State → Checks) (body : State → State × Option Reply)
    (hb : ∀ s, (body s).1.mix.curves.length = s.mix.curves.length) (s : State) : (command op f c body s).mix.curves.length = s.mix.curves.length := by
  unfold command; (try dsimp only); (repeat' split) <;> simp_all

@[simp] theorem command_calAdcs (op : Nat) (f : CmdFrame) (c : State → Checks) (body : State → State × Option Reply)
    (hb : ∀ s, (body s).1.cal.adcs.length = s.cal.adcs.length) (s : State) : (command op f c body s).cal.adcs.length = s.cal.adcs.length := by
  unfold command; (try dsimp only); (repeat' split) <;> simp_all

@[simp] theorem command_healthEngines (op : Nat) (f : CmdFrame) (c : State → Checks) (body : State → State × Option Reply)
    (hb : ∀ s, (body s).1.health.engines.length = s.health.engines.length) (s : State) : (command op f c body s).health.engines.length = s.health.engines.length := by
  unfold command; (try dsimp only); (repeat' split) <;> simp_all

@[simp] theorem rerunHeld_pending (ops : List Nat) (still : Nat → CmdFrame → State → Bool) (h : Nat → CmdFrame → State → State)
    (hb : ∀ a b s, (h a b s).pending = s.pending) (s : State) : (rerunHeld ops still h s).pending = s.pending := by
  unfold rerunHeld rerunOne; refine foldl_keeps (fun s => s.pending) (fun b a => ?_) _ _; split <;> simp_all

@[simp] theorem rerunHeld_pwr (ops : List Nat) (still : Nat → CmdFrame → State → Bool) (h : Nat → CmdFrame → State → State)
    (hb : ∀ a b s, (h a b s).pwr = s.pwr) (s : State) : (rerunHeld ops still h s).pwr = s.pwr := by
  unfold rerunHeld rerunOne; refine foldl_keeps (fun s => s.pwr) (fun b a => ?_) _ _; split <;> simp_all

@[simp] theorem rerunHeld_set (ops : List Nat) (still : Nat → CmdFrame → State → Bool) (h : Nat → CmdFrame → State → State)
    (hb : ∀ a b s, (h a b s).set = s.set) (s : State) : (rerunHeld ops still h s).set = s.set := by
  unfold rerunHeld rerunOne; refine foldl_keeps (fun s => s.set) (fun b a => ?_) _ _; split <;> simp_all

@[simp] theorem rerunHeld_store (ops : List Nat) (still : Nat → CmdFrame → State → Bool) (h : Nat → CmdFrame → State → State)
    (hb : ∀ a b s, (h a b s).store = s.store) (s : State) : (rerunHeld ops still h s).store = s.store := by
  unfold rerunHeld rerunOne; refine foldl_keeps (fun s => s.store) (fun b a => ?_) _ _; split <;> simp_all

@[simp] theorem rerunHeld_clk (ops : List Nat) (still : Nat → CmdFrame → State → Bool) (h : Nat → CmdFrame → State → State)
    (hb : ∀ a b s, (h a b s).clk = s.clk) (s : State) : (rerunHeld ops still h s).clk = s.clk := by
  unfold rerunHeld rerunOne; refine foldl_keeps (fun s => s.clk) (fun b a => ?_) _ _; split <;> simp_all

@[simp] theorem rerunHeld_time (ops : List Nat) (still : Nat → CmdFrame → State → Bool) (h : Nat → CmdFrame → State → State)
    (hb : ∀ a b s, (h a b s).time = s.time) (s : State) : (rerunHeld ops still h s).time = s.time := by
  unfold rerunHeld rerunOne; refine foldl_keeps (fun s => s.time) (fun b a => ?_) _ _; split <;> simp_all

@[simp] theorem rerunHeld_front (ops : List Nat) (still : Nat → CmdFrame → State → Bool) (h : Nat → CmdFrame → State → State)
    (hb : ∀ a b s, (h a b s).front = s.front) (s : State) : (rerunHeld ops still h s).front = s.front := by
  unfold rerunHeld rerunOne; refine foldl_keeps (fun s => s.front) (fun b a => ?_) _ _; split <;> simp_all

@[simp] theorem rerunHeld_prog (ops : List Nat) (still : Nat → CmdFrame → State → Bool) (h : Nat → CmdFrame → State → State)
    (hb : ∀ a b s, (h a b s).prog = s.prog) (s : State) : (rerunHeld ops still h s).prog = s.prog := by
  unfold rerunHeld rerunOne; refine foldl_keeps (fun s => s.prog) (fun b a => ?_) _ _; split <;> simp_all

@[simp] theorem rerunHeld_gens (ops : List Nat) (still : Nat → CmdFrame → State → Bool) (h : Nat → CmdFrame → State → State)
    (hb : ∀ a b s, (h a b s).gens = s.gens) (s : State) : (rerunHeld ops still h s).gens = s.gens := by
  unfold rerunHeld rerunOne; refine foldl_keeps (fun s => s.gens) (fun b a => ?_) _ _; split <;> simp_all

@[simp] theorem rerunHeld_mix (ops : List Nat) (still : Nat → CmdFrame → State → Bool) (h : Nat → CmdFrame → State → State)
    (hb : ∀ a b s, (h a b s).mix = s.mix) (s : State) : (rerunHeld ops still h s).mix = s.mix := by
  unfold rerunHeld rerunOne; refine foldl_keeps (fun s => s.mix) (fun b a => ?_) _ _; split <;> simp_all

@[simp] theorem rerunHeld_plan (ops : List Nat) (still : Nat → CmdFrame → State → Bool) (h : Nat → CmdFrame → State → State)
    (hb : ∀ a b s, (h a b s).plan = s.plan) (s : State) : (rerunHeld ops still h s).plan = s.plan := by
  unfold rerunHeld rerunOne; refine foldl_keeps (fun s => s.plan) (fun b a => ?_) _ _; split <;> simp_all

@[simp] theorem rerunHeld_port (ops : List Nat) (still : Nat → CmdFrame → State → Bool) (h : Nat → CmdFrame → State → State)
    (hb : ∀ a b s, (h a b s).port = s.port) (s : State) : (rerunHeld ops still h s).port = s.port := by
  unfold rerunHeld rerunOne; refine foldl_keeps (fun s => s.port) (fun b a => ?_) _ _; split <;> simp_all

@[simp] theorem rerunHeld_bus (ops : List Nat) (still : Nat → CmdFrame → State → Bool) (h : Nat → CmdFrame → State → State)
    (hb : ∀ a b s, (h a b s).bus = s.bus) (s : State) : (rerunHeld ops still h s).bus = s.bus := by
  unfold rerunHeld rerunOne; refine foldl_keeps (fun s => s.bus) (fun b a => ?_) _ _; split <;> simp_all

@[simp] theorem rerunHeld_link (ops : List Nat) (still : Nat → CmdFrame → State → Bool) (h : Nat → CmdFrame → State → State)
    (hb : ∀ a b s, (h a b s).link = s.link) (s : State) : (rerunHeld ops still h s).link = s.link := by
  unfold rerunHeld rerunOne; refine foldl_keeps (fun s => s.link) (fun b a => ?_) _ _; split <;> simp_all

@[simp] theorem rerunHeld_stats (ops : List Nat) (still : Nat → CmdFrame → State → Bool) (h : Nat → CmdFrame → State → State)
    (hb : ∀ a b s, (h a b s).stats = s.stats) (s : State) : (rerunHeld ops still h s).stats = s.stats := by
  unfold rerunHeld rerunOne; refine foldl_keeps (fun s => s.stats) (fun b a => ?_) _ _; split <;> simp_all

@[simp] theorem rerunHeld_sec (ops : List Nat) (still : Nat → CmdFrame → State → Bool) (h : Nat → CmdFrame → State → State)
    (hb : ∀ a b s, (h a b s).sec = s.sec) (s : State) : (rerunHeld ops still h s).sec = s.sec := by
  unfold rerunHeld rerunOne; refine foldl_keeps (fun s => s.sec) (fun b a => ?_) _ _; split <;> simp_all

@[simp] theorem rerunHeld_cal (ops : List Nat) (still : Nat → CmdFrame → State → Bool) (h : Nat → CmdFrame → State → State)
    (hb : ∀ a b s, (h a b s).cal = s.cal) (s : State) : (rerunHeld ops still h s).cal = s.cal := by
  unfold rerunHeld rerunOne; refine foldl_keeps (fun s => s.cal) (fun b a => ?_) _ _; split <;> simp_all

@[simp] theorem rerunHeld_health (ops : List Nat) (still : Nat → CmdFrame → State → Bool) (h : Nat → CmdFrame → State → State)
    (hb : ∀ a b s, (h a b s).health = s.health) (s : State) : (rerunHeld ops still h s).health = s.health := by
  unfold rerunHeld rerunOne; refine foldl_keeps (fun s => s.health) (fun b a => ?_) _ _; split <;> simp_all

@[simp] theorem rerunHeld_survey (ops : List Nat) (still : Nat → CmdFrame → State → Bool) (h : Nat → CmdFrame → State → State)
    (hb : ∀ a b s, (h a b s).survey = s.survey) (s : State) : (rerunHeld ops still h s).survey = s.survey := by
  unfold rerunHeld rerunOne; refine foldl_keeps (fun s => s.survey) (fun b a => ?_) _ _; split <;> simp_all

@[simp] theorem rerunHeld_compat (ops : List Nat) (still : Nat → CmdFrame → State → Bool) (h : Nat → CmdFrame → State → State)
    (hb : ∀ a b s, (h a b s).compat = s.compat) (s : State) : (rerunHeld ops still h s).compat = s.compat := by
  unfold rerunHeld rerunOne; refine foldl_keeps (fun s => s.compat) (fun b a => ?_) _ _; split <;> simp_all

@[simp] theorem rerunHeld_out (ops : List Nat) (still : Nat → CmdFrame → State → Bool) (h : Nat → CmdFrame → State → State)
    (hb : ∀ a b s, (h a b s).out = s.out) (s : State) : (rerunHeld ops still h s).out = s.out := by
  unfold rerunHeld rerunOne; refine foldl_keeps (fun s => s.out) (fun b a => ?_) _ _; split <;> simp_all

@[simp] theorem rerunHeld_fresh (ops : List Nat) (still : Nat → CmdFrame → State → Bool) (h : Nat → CmdFrame → State → State)
    (hb : ∀ a b s, (h a b s).fresh = s.fresh) (s : State) : (rerunHeld ops still h s).fresh = s.fresh := by
  unfold rerunHeld rerunOne; refine foldl_keeps (fun s => s.fresh) (fun b a => ?_) _ _; split <;> simp_all

@[simp] theorem rerunHeld_portRings (ops : List Nat) (still : Nat → CmdFrame → State → Bool) (h : Nat → CmdFrame → State → State)
    (hb : ∀ a b s, (h a b s).port.rings.length = s.port.rings.length) (s : State) : (rerunHeld ops still h s).port.rings.length = s.port.rings.length := by
  unfold rerunHeld rerunOne; refine foldl_keeps (fun s => s.port.rings.length) (fun b a => ?_) _ _; split <;> simp_all

@[simp] theorem rerunHeld_frontWindows (ops : List Nat) (still : Nat → CmdFrame → State → Bool) (h : Nat → CmdFrame → State → State)
    (hb : ∀ a b s, (h a b s).front.windows.length = s.front.windows.length) (s : State) : (rerunHeld ops still h s).front.windows.length = s.front.windows.length := by
  unfold rerunHeld rerunOne; refine foldl_keeps (fun s => s.front.windows.length) (fun b a => ?_) _ _; split <;> simp_all

@[simp] theorem rerunHeld_frontTuners (ops : List Nat) (still : Nat → CmdFrame → State → Bool) (h : Nat → CmdFrame → State → State)
    (hb : ∀ a b s, (h a b s).front.tuners.length = s.front.tuners.length) (s : State) : (rerunHeld ops still h s).front.tuners.length = s.front.tuners.length := by
  unfold rerunHeld rerunOne; refine foldl_keeps (fun s => s.front.tuners.length) (fun b a => ?_) _ _; split <;> simp_all

@[simp] theorem rerunHeld_mixBanks (ops : List Nat) (still : Nat → CmdFrame → State → Bool) (h : Nat → CmdFrame → State → State)
    (hb : ∀ a b s, (h a b s).mix.banks.length = s.mix.banks.length) (s : State) : (rerunHeld ops still h s).mix.banks.length = s.mix.banks.length := by
  unfold rerunHeld rerunOne; refine foldl_keeps (fun s => s.mix.banks.length) (fun b a => ?_) _ _; split <;> simp_all

@[simp] theorem rerunHeld_mixCurves (ops : List Nat) (still : Nat → CmdFrame → State → Bool) (h : Nat → CmdFrame → State → State)
    (hb : ∀ a b s, (h a b s).mix.curves.length = s.mix.curves.length) (s : State) : (rerunHeld ops still h s).mix.curves.length = s.mix.curves.length := by
  unfold rerunHeld rerunOne; refine foldl_keeps (fun s => s.mix.curves.length) (fun b a => ?_) _ _; split <;> simp_all

@[simp] theorem rerunHeld_calAdcs (ops : List Nat) (still : Nat → CmdFrame → State → Bool) (h : Nat → CmdFrame → State → State)
    (hb : ∀ a b s, (h a b s).cal.adcs.length = s.cal.adcs.length) (s : State) : (rerunHeld ops still h s).cal.adcs.length = s.cal.adcs.length := by
  unfold rerunHeld rerunOne; refine foldl_keeps (fun s => s.cal.adcs.length) (fun b a => ?_) _ _; split <;> simp_all

@[simp] theorem rerunHeld_healthEngines (ops : List Nat) (still : Nat → CmdFrame → State → Bool) (h : Nat → CmdFrame → State → State)
    (hb : ∀ a b s, (h a b s).health.engines.length = s.health.engines.length) (s : State) : (rerunHeld ops still h s).health.engines.length = s.health.engines.length := by
  unfold rerunHeld rerunOne; refine foldl_keeps (fun s => s.health.engines.length) (fun b a => ?_) _ _; split <;> simp_all

@[simp] theorem modWindow_frame (w : Nat) (g : Window → Window) (s : State) : SameBase s (modWindow w g s) ∧ SameStore
    s (modWindow w g s) ∧ SameSecure s (modWindow w g s) ∧ SameMix s (modWindow w g s) ∧ SameHead s (modWindow w g s) ∧
    SamePlan s (modWindow w g s) ∧ SamePort s (modWindow w g s) ∧ SameSizes s (modWindow w g s) ∧ (modWindow w g s).prog =
    s.prog := by
  unfold modWindow; simp

@[simp] theorem modTuner_frame (t : Nat) (g : Tuner → Tuner) (s : State) : SameBase s (modTuner t g s) ∧ SameStore s
    (modTuner t g s) ∧ SameSecure s (modTuner t g s) ∧ SameMix s (modTuner t g s) ∧ SameHead s (modTuner t g s) ∧ SamePlan
    s (modTuner t g s) ∧ SamePort s (modTuner t g s) ∧ SameSizes s (modTuner t g s) ∧ (modTuner t g s).prog = s.prog := by
  unfold modTuner; simp

@[simp] theorem modReception_frame (i : Nat) (g : Reception → Reception) (s : State) : SameBase s (modReception i g s)
    ∧ SameStore s (modReception i g s) ∧ SameSecure s (modReception i g s) ∧ SameMix s (modReception i g s) ∧ SameHead s
    (modReception i g s) ∧ SamePlan s (modReception i g s) ∧ SamePort s (modReception i g s) ∧ SameSizes s (modReception i
    g s) ∧ (modReception i g s).front = s.front := by
  unfold modReception; simp

@[simp] theorem modProgramme_frame (i : Nat) (g : Programme → Programme) (s : State) : SameBase s (modProgramme i g s)
    ∧ SameStore s (modProgramme i g s) ∧ SameSecure s (modProgramme i g s) ∧ SameMix s (modProgramme i g s) ∧ SameHead s
    (modProgramme i g s) ∧ SamePlan s (modProgramme i g s) ∧ SamePort s (modProgramme i g s) ∧ SameSizes s (modProgramme i
    g s) ∧ (modProgramme i g s).front = s.front := by
  unfold modProgramme; simp

@[simp] theorem modChain_frame (o : ChainOwner) (g : Chain → Chain) (s : State) : SameBase s (modChain o g s) ∧
    SameStore s (modChain o g s) ∧ SameSecure s (modChain o g s) ∧ SameMix s (modChain o g s) ∧ SameHead s (modChain o g
    s) ∧ SamePlan s (modChain o g s) ∧ SamePort s (modChain o g s) ∧ SameSizes s (modChain o g s) ∧ (modChain o g s).front
    = s.front := by
  unfold modChain; split <;> simp

theorem mapChains_frame (g : Chain → Chain) (s : State) : SameBase s (mapChains g s) ∧ SameStore s (mapChains g s) ∧
    SameSecure s (mapChains g s) ∧ SameMix s (mapChains g s) ∧ SameHead s (mapChains g s) ∧ SamePlan s (mapChains g s) ∧
    SamePort s (mapChains g s) ∧ SameSizes s (mapChains g s) ∧ (mapChains g s).front = s.front := by
  unfold mapChains; simp

@[simp] theorem refreshTuners_frame (s : State) : SameBase s (refreshTuners s) ∧ SameStore s (refreshTuners s) ∧
    SameSecure s (refreshTuners s) ∧ SameMix s (refreshTuners s) ∧ SameHead s (refreshTuners s) ∧ SamePlan s
    (refreshTuners s) ∧ SamePort s (refreshTuners s) ∧ SameSizes s (refreshTuners s) ∧ (refreshTuners s).prog = s.prog :=
    by
  unfold refreshTuners; simp

theorem postBankChanged_frame (o : ChainOwner) (cause : Option Nat) (s : State) : SameBase s (postBankChanged o cause
    s) ∧ SameStore s (postBankChanged o cause s) ∧ SameSecure s (postBankChanged o cause s) ∧ SameObjects s
    (postBankChanged o cause s) ∧ SameMix s (postBankChanged o cause s) ∧ SameHead s (postBankChanged o cause s) ∧
    SamePlan s (postBankChanged o cause s) ∧ SameSizes s (postBankChanged o cause s) := by
  unfold postBankChanged; split <;> simp

theorem holdOver_frame (o : ChainOwner) (s : State) : SameBase s (holdOver o s) ∧ SameStore s (holdOver o s) ∧
    SameSecure s (holdOver o s) ∧ SameMix s (holdOver o s) ∧ SameHead s (holdOver o s) ∧ SamePlan s (holdOver o s) ∧
    SamePort s (holdOver o s) ∧ SameSizes s (holdOver o s) ∧ (holdOver o s).front = s.front := by
  unfold holdOver; (repeat' split) <;> simp

@[simp] theorem takeSerial_frame (s : State) : SameBase s (takeSerial s).2 ∧ SameStore s (takeSerial s).2 ∧ SameSecure
    s (takeSerial s).2 ∧ SameObjects s (takeSerial s).2 ∧ SameMix s (takeSerial s).2 ∧ SamePlan s (takeSerial s).2 ∧
    SamePort s (takeSerial s).2 ∧ SameSizes s (takeSerial s).2 ∧ (takeSerial s).2.gens = s.gens ∧ (takeSerial s).2.cal =
    s.cal := by
  unfold takeSerial; simp

@[simp] theorem unbind_frame (cls : Nat) (h : Handle) (s : State) : SameBase s (unbind cls h s) ∧ SameStore s (unbind
    cls h s) ∧ SameSecure s (unbind cls h s) ∧ SameObjects s (unbind cls h s) ∧ SameMix s (unbind cls h s) ∧ SameHead s
    (unbind cls h s) ∧ SamePort s (unbind cls h s) ∧ SameSizes s (unbind cls h s) ∧ (unbind cls h s).time = s.time ∧
    (unbind cls h s).compat = s.compat := by
  unfold unbind; simp

@[simp] theorem modBlend_frame (i : Nat) (g : Blend → Blend) (s : State) : SameBase s (modBlend i g s) ∧ SameStore s
    (modBlend i g s) ∧ SameSecure s (modBlend i g s) ∧ SameObjects s (modBlend i g s) ∧ SameHead s (modBlend i g s) ∧
    SamePlan s (modBlend i g s) ∧ SamePort s (modBlend i g s) ∧ SameSizes s (modBlend i g s) ∧ (modBlend i g s).health =
    s.health := by
  unfold modBlend; simp

theorem modPcm_frame (i : Nat) (g : PcmOut → PcmOut) (s : State) : SameBase s (modPcm i g s) ∧ SameStore s (modPcm i g
    s) ∧ SameSecure s (modPcm i g s) ∧ SameMix s (modPcm i g s) ∧ SameHead s (modPcm i g s) ∧ SamePlan s (modPcm i g s) ∧
    SamePort s (modPcm i g s) ∧ SameSizes s (modPcm i g s) ∧ (modPcm i g s).front = s.front := by
  unfold modPcm; simp

@[simp] theorem drivePort_frame (x : PcmOut) (l : List AudioFrame) (s : State) : SameBase s (drivePort x l s) ∧
    SameStore s (drivePort x l s) ∧ SameSecure s (drivePort x l s) ∧ SameMix s (drivePort x l s) ∧ SameHead s (drivePort x
    l s) ∧ SamePlan s (drivePort x l s) ∧ SameSizes s (drivePort x l s) ∧ (drivePort x l s).front = s.front ∧ (drivePort x
    l s).port = s.port := by
  unfold drivePort; simp [modPcm_frame ..]

theorem drivePorts_frame (s : State) : SameBase s (drivePorts s) ∧ SameStore s (drivePorts s) ∧ SameSecure s
    (drivePorts s) ∧ SameMix s (drivePorts s) ∧ SameHead s (drivePorts s) ∧ SamePlan s (drivePorts s) ∧ SameSizes s
    (drivePorts s) ∧ (drivePorts s).front = s.front ∧ (drivePorts s).port = s.port := by
  unfold drivePorts; simp [modPcm_frame ..]

theorem stopPcms_frame (n : Nat) (pick : PcmOut → Bool) (s : State) : SameBase s (stopPcms n pick s) ∧ SameStore s
    (stopPcms n pick s) ∧ SameSecure s (stopPcms n pick s) ∧ SameMix s (stopPcms n pick s) ∧ SameHead s (stopPcms n pick
    s) ∧ SamePlan s (stopPcms n pick s) ∧ SameSizes s (stopPcms n pick s) ∧ (stopPcms n pick s).front = s.front ∧
    (stopPcms n pick s).port = s.port := by
  unfold stopPcms; simp [drivePorts_frame ..]

theorem feedPair_frame (br : Nat) (rate : Nat) (l : List AudioFrame) (i : Nat) (s : State) : SameBase s (feedPair br
    rate l i s) ∧ SameStore s (feedPair br rate l i s) ∧ SameSecure s (feedPair br rate l i s) ∧ SameHead s (feedPair br
    rate l i s) ∧ SamePlan s (feedPair br rate l i s) ∧ SameSizes s (feedPair br rate l i s) ∧ (feedPair br rate l i
    s).front = s.front ∧ (feedPair br rate l i s).health = s.health ∧ (feedPair br rate l i s).port = s.port := by
  unfold feedPair; (repeat' split) <;> simp [drivePorts_frame ..]

theorem deliverAudio_frame (i : Nat) (l : List AudioFrame) (s : State) : SameBase s (deliverAudio i l s) ∧ SameStore s
    (deliverAudio i l s) ∧ SameSecure s (deliverAudio i l s) ∧ SameHead s (deliverAudio i l s) ∧ SamePlan s (deliverAudio
    i l s) ∧ SameSizes s (deliverAudio i l s) ∧ (deliverAudio i l s).front = s.front ∧ (deliverAudio i l s).health =
    s.health ∧ (deliverAudio i l s).port = s.port := by
  unfold deliverAudio; (repeat' split) <;> simp [feedPair_frame .., drivePorts_frame ..]

theorem feedAudio_frame (i : Nat) (k : Kind) (l : List AudioIn) (s : State) : SameBase s (feedAudio i k l s) ∧
    SameStore s (feedAudio i k l s) ∧ SameSecure s (feedAudio i k l s) ∧ SameHead s (feedAudio i k l s) ∧ SamePlan s
    (feedAudio i k l s) ∧ SameSizes s (feedAudio i k l s) ∧ (feedAudio i k l s).front = s.front ∧ (feedAudio i k l
    s).health = s.health ∧ (feedAudio i k l s).port = s.port := by
  unfold feedAudio; (repeat' split) <;> simp [deliverAudio_frame ..]

theorem scaleBlock_frame (d : Nat) (e : Nat) (l : List (Int × Int)) (s : State) : SameBase s (scaleBlock d e l s).2 ∧
    SameStore s (scaleBlock d e l s).2 ∧ SameObjects s (scaleBlock d e l s).2 ∧ SameMix s (scaleBlock d e l s).2 ∧
    SameHead s (scaleBlock d e l s).2 ∧ SamePlan s (scaleBlock d e l s).2 ∧ SamePort s (scaleBlock d e l s).2 ∧ SameSizes
    s (scaleBlock d e l s).2 ∧ (scaleBlock d e l s).2.sec = s.sec ∧ (scaleBlock d e l s).2.survey = s.survey := by
  unfold scaleBlock; simp

theorem deliverBlock_frame (o : ChainOwner) (k : Kind) (blk : Block) (s : State) : SameBase s (deliverBlock o k blk s)
    ∧ SameStore s (deliverBlock o k blk s) ∧ SameSecure s (deliverBlock o k blk s) ∧ SameObjects s (deliverBlock o k blk
    s) ∧ SameMix s (deliverBlock o k blk s) ∧ SameHead s (deliverBlock o k blk s) ∧ SamePlan s (deliverBlock o k blk s) ∧
    SameSizes s (deliverBlock o k blk s) := by
  unfold deliverBlock; split <;> simp [offerShaving_frame ..]

theorem countGap_frame (o : ChainOwner) (blk : Block) (s : State) : SameBase s (countGap o blk s) ∧ SameStore s
    (countGap o blk s) ∧ SameSecure s (countGap o blk s) ∧ SameMix s (countGap o blk s) ∧ SameHead s (countGap o blk s) ∧
    SamePlan s (countGap o blk s) ∧ SamePort s (countGap o blk s) ∧ SameSizes s (countGap o blk s) ∧ (countGap o blk
    s).front = s.front := by
  unfold countGap; (repeat' split) <;> simp

theorem restartLoudness_frame (i : Nat) (s : State) : SameBase s (restartLoudness i s) ∧ SameStore s (restartLoudness
    i s) ∧ SameSecure s (restartLoudness i s) ∧ SameMix s (restartLoudness i s) ∧ SameHead s (restartLoudness i s) ∧
    SamePlan s (restartLoudness i s) ∧ SamePort s (restartLoudness i s) ∧ SameSizes s (restartLoudness i s) ∧
    (restartLoudness i s).front = s.front := by
  unfold restartLoudness; simp

theorem receptionTakes_frame (i : Nat) (s : State) (b : Block) : SameBase s (receptionTakes i s b) ∧ SameStore s
    (receptionTakes i s b) ∧ SameSecure s (receptionTakes i s b) ∧ SameHead s (receptionTakes i s b) ∧ SamePlan s
    (receptionTakes i s b) ∧ SameSizes s (receptionTakes i s b) ∧ (receptionTakes i s b).front = s.front ∧ (receptionTakes
    i s b).health = s.health ∧ (receptionTakes i s b).port = s.port := by
  unfold receptionTakes; (repeat' split) <;> simp [feedAudio_frame .., restartLoudness_frame ..]

theorem branchTakes_frame (i : Nat) (s : State) (b : Block) : SameBase s (branchTakes i s b) ∧ SameStore s
    (branchTakes i s b) ∧ SameSecure s (branchTakes i s b) ∧ SameMix s (branchTakes i s b) ∧ SameHead s (branchTakes i s
    b) ∧ SamePlan s (branchTakes i s b) ∧ SamePort s (branchTakes i s b) ∧ SameSizes s (branchTakes i s b) ∧ (branchTakes
    i s b).front = s.front := by
  unfold branchTakes; (repeat' split) <;> simp

theorem probeTakes_frame (i : Nat) (s : State) (b : Block) : SameBase s (probeTakes i s b) ∧ SameStore s (probeTakes i
    s b) ∧ SameSecure s (probeTakes i s b) ∧ SameMix s (probeTakes i s b) ∧ SameHead s (probeTakes i s b) ∧ SamePlan s
    (probeTakes i s b) ∧ SamePort s (probeTakes i s b) ∧ SameSizes s (probeTakes i s b) ∧ (probeTakes i s b).front =
    s.front := by
  unfold probeTakes; simp

theorem engineTake_frame (o : ChainOwner) (l : List Block) (s : State) : SameBase s (engineTake o l s) ∧ SameStore s
    (engineTake o l s) ∧ SameSecure s (engineTake o l s) ∧ SameHead s (engineTake o l s) ∧ SamePlan s (engineTake o l s) ∧
    SameSizes s (engineTake o l s) ∧ (engineTake o l s).front = s.front ∧ (engineTake o l s).health = s.health ∧
    (engineTake o l s).port = s.port := by
  unfold engineTake; (repeat' split) <;> simp [receptionTakes_frame .., branchTakes_frame .., probeTakes_frame ..]

theorem closeBlock_frame (o : ChainOwner) (s : State) : SameBase s (closeBlock o s) ∧ SameStore s (closeBlock o s) ∧
    SameHead s (closeBlock o s) ∧ SamePlan s (closeBlock o s) ∧ SameSizes s (closeBlock o s) ∧ (closeBlock o s).sec =
    s.sec ∧ (closeBlock o s).survey = s.survey ∧ (closeBlock o s).front = s.front := by
  unfold closeBlock; (repeat' split) <;> simp [noteLog_frame .., scaleBlock_frame .., deliverBlock_frame .., countGap_frame .., engineTake_frame ..]

@[simp] theorem noteHarmonics_frame (ws : List Nat) (cause : Option Nat) (s : State) : SameBase s (noteHarmonics ws
    cause s) ∧ SameStore s (noteHarmonics ws cause s) ∧ SameSecure s (noteHarmonics ws cause s) ∧ SameObjects s
    (noteHarmonics ws cause s) ∧ SameHead s (noteHarmonics ws cause s) ∧ SamePlan s (noteHarmonics ws cause s) ∧ SameSizes
    s (noteHarmonics ws cause s) ∧ (noteHarmonics ws cause s).mix = s.mix := by
  unfold noteHarmonics; simp [logNote_frame ..]

@[simp] theorem postProgramme_frame (code : Nat) (i : Nat) (cause : Option Nat) (s : State) : SameBase s
    (postProgramme code i cause s) ∧ SameStore s (postProgramme code i cause s) ∧ SameSecure s (postProgramme code i cause
    s) ∧ SameObjects s (postProgramme code i cause s) ∧ SameMix s (postProgramme code i cause s) ∧ SameHead s
    (postProgramme code i cause s) ∧ SamePlan s (postProgramme code i cause s) ∧ SameSizes s (postProgramme code i cause
    s) := by
  unfold postProgramme; split <;> simp

theorem postSilence_frame (p : Programme) (began : Bool) (at' : Instant) (s : State) : SameBase s (postSilence p began
    at' s) ∧ SameStore s (postSilence p began at' s) ∧ SameSecure s (postSilence p began at' s) ∧ SameObjects s
    (postSilence p began at' s) ∧ SameMix s (postSilence p began at' s) ∧ SameHead s (postSilence p began at' s) ∧
    SamePlan s (postSilence p began at' s) ∧ SameSizes s (postSilence p began at' s) := by
  unfold postSilence; simp

@[simp] theorem decodingStops_frame (i : Nat) (s : State) : SameBase s (decodingStops i s) ∧ SameStore s
    (decodingStops i s) ∧ SameSecure s (decodingStops i s) ∧ SameMix s (decodingStops i s) ∧ SameHead s (decodingStops i
    s) ∧ SamePlan s (decodingStops i s) ∧ SameSizes s (decodingStops i s) ∧ (decodingStops i s).front = s.front := by
  unfold decodingStops; split <;> simp [postSilence_frame ..]

theorem offerUnit_frame (code : Nat) (cls : Nat) (src : Handle) (n : Nat) (h : ShavingHdr) (pay : List Byte) (s :
    State) : SameBase s (offerUnit code cls src n h pay s) ∧ SameStore s (offerUnit code cls src n h pay s) ∧ SameSecure s
    (offerUnit code cls src n h pay s) ∧ SameObjects s (offerUnit code cls src n h pay s) ∧ SameHead s (offerUnit code cls
    src n h pay s) ∧ SamePlan s (offerUnit code cls src n h pay s) ∧ SameSizes s (offerUnit code cls src n h pay s) ∧
    (offerUnit code cls src n h pay s).mix = s.mix := by
  unfold offerUnit; simp [offerShaving_frame ..]

theorem reportAlert_frame (i : Nat) (x0 : Alert) (began : Bool) (reason : Nat) (at' : Instant) (cause : Option Nat) (s
    : State) : SameBase s (reportAlert i x0 began reason at' cause s) ∧ SameStore s (reportAlert i x0 began reason at'
    cause s) ∧ SameSecure s (reportAlert i x0 began reason at' cause s) ∧ SameObjects s (reportAlert i x0 began reason at'
    cause s) ∧ SameHead s (reportAlert i x0 began reason at' cause s) ∧ SameSizes s (reportAlert i x0 began reason at'
    cause s) ∧ (reportAlert i x0 began reason at' cause s).mix = s.mix ∧ (reportAlert i x0 began reason at' cause s).plan
    = s.plan ∧ (reportAlert i x0 began reason at' cause s).time = s.time := by
  unfold reportAlert; dsimp only; (repeat' split) <;> simp [offerUnit_frame ..]

@[simp] theorem endAlerts_frame (i : Nat) (reason : Nat) (pick : Alert → Bool) (at' : Instant) (cause : Option Nat) (s
    : State) : SameBase s (endAlerts i reason pick at' cause s) ∧ SameStore s (endAlerts i reason pick at' cause s) ∧
    SameSecure s (endAlerts i reason pick at' cause s) ∧ SameHead s (endAlerts i reason pick at' cause s) ∧ SameSizes s
    (endAlerts i reason pick at' cause s) ∧ (endAlerts i reason pick at' cause s).front = s.front ∧ (endAlerts i reason
    pick at' cause s).mix = s.mix ∧ (endAlerts i reason pick at' cause s).plan = s.plan ∧ (endAlerts i reason pick at'
    cause s).time = s.time := by
  unfold endAlerts; split <;> simp [reportAlert_frame ..]

@[simp] theorem compatRefresh_frame (s : State) : SameBase s (compatRefresh s) ∧ SameStore s (compatRefresh s) ∧
    SameSecure s (compatRefresh s) ∧ SameObjects s (compatRefresh s) ∧ SameMix s (compatRefresh s) ∧ SameHead s
    (compatRefresh s) ∧ SamePort s (compatRefresh s) ∧ SameSizes s (compatRefresh s) ∧ (compatRefresh s).plan = s.plan ∧
    (compatRefresh s).time = s.time := by
  unfold compatRefresh; simp

theorem postLost_frame (i : Nat) (cause : Nat) (at' : Instant) (by' : Option Nat) (s : State) : SameBase s (postLost i
    cause at' by' s) ∧ SameStore s (postLost i cause at' by' s) ∧ SameSecure s (postLost i cause at' by' s) ∧ SameObjects
    s (postLost i cause at' by' s) ∧ SameMix s (postLost i cause at' by' s) ∧ SameHead s (postLost i cause at' by' s) ∧
    SamePlan s (postLost i cause at' by' s) ∧ SameSizes s (postLost i cause at' by' s) := by
  unfold postLost; simp

theorem acquire_frame (i : Nat) (at' : Instant) (s : State) : SameBase s (acquire i at' s) ∧ SameStore s (acquire i
    at' s) ∧ SameSecure s (acquire i at' s) ∧ SameMix s (acquire i at' s) ∧ SameHead s (acquire i at' s) ∧ SameSizes s
    (acquire i at' s) ∧ (acquire i at' s).front = s.front ∧ (acquire i at' s).plan = s.plan ∧ (acquire i at' s).time =
    s.time := by
  unfold acquire; split <;> simp

theorem loseReception_frame (i : Nat) (cause : Nat) (at' : Instant) (by' : Option Nat) (s : State) : SameBase s
    (loseReception i cause at' by' s) ∧ SameStore s (loseReception i cause at' by' s) ∧ SameSecure s (loseReception i
    cause at' by' s) ∧ SameHead s (loseReception i cause at' by' s) ∧ SameSizes s (loseReception i cause at' by' s) ∧
    (loseReception i cause at' by' s).front = s.front ∧ (loseReception i cause at' by' s).mix = s.mix ∧ (loseReception i
    cause at' by' s).plan = s.plan ∧ (loseReception i cause at' by' s).time = s.time := by
  unfold loseReception; split <;> simp [restartLoudness_frame .., postLost_frame ..]

theorem beginMeasures_frame (i : Nat) (s : State) : SameBase s (beginMeasures i s) ∧ SameStore s (beginMeasures i s) ∧
    SameSecure s (beginMeasures i s) ∧ SameMix s (beginMeasures i s) ∧ SameHead s (beginMeasures i s) ∧ SamePlan s
    (beginMeasures i s) ∧ SamePort s (beginMeasures i s) ∧ SameSizes s (beginMeasures i s) ∧ (beginMeasures i s).front =
    s.front := by
  unfold beginMeasures; simp

theorem startIntervals_frame (i : Nat) (at' : Instant) (s : State) : SameBase s (startIntervals i at' s) ∧ SameStore s
    (startIntervals i at' s) ∧ SameSecure s (startIntervals i at' s) ∧ SameMix s (startIntervals i at' s) ∧ SameHead s
    (startIntervals i at' s) ∧ SamePlan s (startIntervals i at' s) ∧ SamePort s (startIntervals i at' s) ∧ SameSizes s
    (startIntervals i at' s) ∧ (startIntervals i at' s).front = s.front := by
  unfold startIntervals; simp [beginMeasures_frame ..]

theorem releaseAudio_frame (i : Nat) (s : State) : SameBase s (releaseAudio i s) ∧ SameStore s (releaseAudio i s) ∧
    SameSecure s (releaseAudio i s) ∧ SameHead s (releaseAudio i s) ∧ SamePlan s (releaseAudio i s) ∧ SameSizes s
    (releaseAudio i s) ∧ (releaseAudio i s).front = s.front ∧ (releaseAudio i s).health = s.health ∧ (releaseAudio i
    s).port = s.port := by
  unfold releaseAudio; simp [deliverAudio_frame ..]

theorem stopIntervals_frame (i : Nat) (s : State) : SameBase s (stopIntervals i s) ∧ SameStore s (stopIntervals i s) ∧
    SameSecure s (stopIntervals i s) ∧ SameHead s (stopIntervals i s) ∧ SamePlan s (stopIntervals i s) ∧ SameSizes s
    (stopIntervals i s) ∧ (stopIntervals i s).front = s.front ∧ (stopIntervals i s).health = s.health ∧ (stopIntervals i
    s).port = s.port := by
  unfold stopIntervals; simp [releaseAudio_frame ..]

theorem freshProbe_frame (i : Nat) (s : State) : SameBase s (freshProbe i s) ∧ SameStore s (freshProbe i s) ∧
    SameSecure s (freshProbe i s) ∧ SameMix s (freshProbe i s) ∧ SameHead s (freshProbe i s) ∧ SamePlan s (freshProbe i s)
    ∧ SamePort s (freshProbe i s) ∧ SameSizes s (freshProbe i s) ∧ (freshProbe i s).front = s.front := by
  unfold freshProbe; simp

theorem freshOnMove_frame (o : ChainOwner) (c : Chain) (s : State) : SameBase s (freshOnMove o c s) ∧ SameStore s
    (freshOnMove o c s) ∧ SameSecure s (freshOnMove o c s) ∧ SameMix s (freshOnMove o c s) ∧ SameHead s (freshOnMove o c
    s) ∧ SamePlan s (freshOnMove o c s) ∧ SamePort s (freshOnMove o c s) ∧ SameSizes s (freshOnMove o c s) ∧ (freshOnMove
    o c s).front = s.front := by
  unfold freshOnMove; (repeat' split) <;> simp [freshProbe_frame ..]

theorem restartChain_frame (o : ChainOwner) (s : State) : SameBase s (restartChain o s) ∧ SameStore s (restartChain o
    s) ∧ SameSecure s (restartChain o s) ∧ SameMix s (restartChain o s) ∧ SameHead s (restartChain o s) ∧ SamePlan s
    (restartChain o s) ∧ SameSizes s (restartChain o s) ∧ (restartChain o s).front = s.front := by
  unfold restartChain; (repeat' split) <;> simp [postBankChanged_frame .., freshOnMove_frame ..]

theorem dropChannel_frame (o : ChainOwner) (s : State) : SameBase s (dropChannel o s) ∧ SameStore s (dropChannel o s)
    ∧ SameHead s (dropChannel o s) ∧ SamePlan s (dropChannel o s) ∧ SameSizes s (dropChannel o s) ∧ (dropChannel o s).sec
    = s.sec ∧ (dropChannel o s).survey = s.survey ∧ (dropChannel o s).front = s.front := by
  unfold dropChannel; dsimp only; (repeat' split) <;> simp [postBankChanged_frame .., closeBlock_frame .., freshOnMove_frame ..]

theorem judgeShed_frame (cause : Option Nat) (o : ChainOwner) (c : Chain) (s : State) : SameBase s (judgeShed cause o
    c s) ∧ SameStore s (judgeShed cause o c s) ∧ SameSecure s (judgeShed cause o c s) ∧ SameMix s (judgeShed cause o c s)
    ∧ SameHead s (judgeShed cause o c s) ∧ SamePlan s (judgeShed cause o c s) ∧ SameSizes s (judgeShed cause o c s) ∧
    (judgeShed cause o c s).front = s.front := by
  unfold judgeShed; (repeat' split) <;> simp

theorem oweBreaks_frame (cls : Nat) (h : Handle) (s : State) : SameBase s (oweBreaks cls h s) ∧ SameStore s (oweBreaks
    cls h s) ∧ SameSecure s (oweBreaks cls h s) ∧ SameObjects s (oweBreaks cls h s) ∧ SameHead s (oweBreaks cls h s) ∧
    SamePlan s (oweBreaks cls h s) ∧ SamePort s (oweBreaks cls h s) ∧ SameSizes s (oweBreaks cls h s) ∧ (oweBreaks cls h
    s).mix = s.mix := by
  unfold oweBreaks; simp

theorem oweSide_frame (i : Nat) (span : Nat) (s : State) : SameBase s (oweSide i span s) ∧ SameStore s (oweSide i span
    s) ∧ SameSecure s (oweSide i span s) ∧ SameHead s (oweSide i span s) ∧ SamePlan s (oweSide i span s) ∧ SamePort s
    (oweSide i span s) ∧ SameSizes s (oweSide i span s) ∧ (oweSide i span s).front = s.front ∧ (oweSide i span s).mix =
    s.mix := by
  unfold oweSide; simp [oweBreaks_frame ..]

@[simp] theorem judgeChain_frame (cause : Option Nat) (o : ChainOwner) (s : State) : SameBase s (judgeChain cause o s)
    ∧ SameStore s (judgeChain cause o s) ∧ SameHead s (judgeChain cause o s) ∧ SameSizes s (judgeChain cause o s) ∧
    (judgeChain cause o s).sec = s.sec ∧ (judgeChain cause o s).survey = s.survey ∧ (judgeChain cause o s).front = s.front
    ∧ (judgeChain cause o s).plan = s.plan ∧ (judgeChain cause o s).time = s.time := by
  unfold judgeChain; (repeat' split) <;> simp [loseReception_frame .., stopIntervals_frame ..,
      dropChannel_frame .., judgeShed_frame .., restartChain_frame .., oweSide_frame ..]

theorem gapNow_frame (o : ChainOwner) (s : State) : SameBase s (gapNow o s) ∧ SameStore s (gapNow o s) ∧ SameHead s
    (gapNow o s) ∧ SameSizes s (gapNow o s) ∧ (gapNow o s).sec = s.sec ∧ (gapNow o s).survey = s.survey ∧ (gapNow o
    s).front = s.front ∧ (gapNow o s).plan = s.plan ∧ (gapNow o s).time = s.time := by
  unfold gapNow; dsimp only; (repeat' split) <;> simp [postBankChanged_frame .., holdOver_frame .., closeBlock_frame .., freshOnMove_frame ..]

theorem gapChain_frame (o : ChainOwner) (s : State) : SameBase s (gapChain o s) ∧ SameStore s (gapChain o s) ∧
    SameHead s (gapChain o s) ∧ SameSizes s (gapChain o s) ∧ (gapChain o s).sec = s.sec ∧ (gapChain o s).survey = s.survey
    ∧ (gapChain o s).front = s.front ∧ (gapChain o s).plan = s.plan ∧ (gapChain o s).time = s.time := by
  unfold gapChain; split <;> simp [gapNow_frame ..]

theorem gapWindow_frame (w : Nat) (s : State) : SameBase s (gapWindow w s) ∧ SameStore s (gapWindow w s) ∧ SameHead s
    (gapWindow w s) ∧ SameSizes s (gapWindow w s) ∧ (gapWindow w s).sec = s.sec ∧ (gapWindow w s).survey = s.survey ∧
    (gapWindow w s).front = s.front ∧ (gapWindow w s).plan = s.plan ∧ (gapWindow w s).time = s.time := by
  unfold gapWindow; simp [gapChain_frame ..]

theorem seekWindow_frame (i : Nat) (s : State) : SameBase s (seekWindow i s) ∧ SameStore s (seekWindow i s) ∧
    SameSecure s (seekWindow i s) ∧ SameMix s (seekWindow i s) ∧ SameHead s (seekWindow i s) ∧ SamePlan s (seekWindow i s)
    ∧ SamePort s (seekWindow i s) ∧ SameSizes s (seekWindow i s) ∧ (seekWindow i s).front = s.front := by
  unfold seekWindow; (repeat' split) <;> simp

@[simp] theorem judgeWindow_frame (cause : Option Nat) (w : Nat) (s : State) : SameBase s (judgeWindow cause w s) ∧
    SameStore s (judgeWindow cause w s) ∧ SameHead s (judgeWindow cause w s) ∧ SameSizes s (judgeWindow cause w s) ∧
    (judgeWindow cause w s).sec = s.sec ∧ (judgeWindow cause w s).survey = s.survey ∧ (judgeWindow cause w s).plan =
    s.plan ∧ (judgeWindow cause w s).time = s.time := by
  unfold judgeWindow; simp [seekWindow_frame ..]

@[simp] theorem startOwner_frame (cause : Option Nat) (o : ChainOwner) (s : State) : SameBase s (startOwner cause o s)
    ∧ SameStore s (startOwner cause o s) ∧ SameHead s (startOwner cause o s) ∧ SameSizes s (startOwner cause o s) ∧
    (startOwner cause o s).sec = s.sec ∧ (startOwner cause o s).survey = s.survey ∧ (startOwner cause o s).plan = s.plan ∧
    (startOwner cause o s).time = s.time := by
  unfold startOwner; (repeat' split) <;> simp [freshProbe_frame ..]

theorem stopOwner_frame (o : ChainOwner) (s : State) : SameBase s (stopOwner o s) ∧ SameStore s (stopOwner o s) ∧
    SameHead s (stopOwner o s) ∧ SameSizes s (stopOwner o s) ∧ (stopOwner o s).sec = s.sec ∧ (stopOwner o s).survey =
    s.survey ∧ (stopOwner o s).front = s.front ∧ (stopOwner o s).plan = s.plan ∧ (stopOwner o s).time = s.time := by
  unfold stopOwner; (repeat' split) <;> simp [closeBlock_frame .., stopIntervals_frame ..]

@[simp] theorem endGlance_frame (st : Option CandState) (fo : Nat) (s : State) : SameBase s (endGlance st fo s) ∧
    SameStore s (endGlance st fo s) ∧ SameHead s (endGlance st fo s) ∧ SameSizes s (endGlance st fo s) ∧ (endGlance st fo
    s).sec = s.sec ∧ (endGlance st fo s).survey = s.survey ∧ (endGlance st fo s).plan = s.plan ∧ (endGlance st fo s).time
    = s.time := by
  unfold endGlance; (repeat' split) <;> simp

theorem blendTo_frame (i : Nat) (st : BlendState) (cause : Option Nat) (s : State) : SameBase s (blendTo i st cause s)
    ∧ SameStore s (blendTo i st cause s) ∧ SameSecure s (blendTo i st cause s) ∧ SameObjects s (blendTo i st cause s) ∧
    SameHead s (blendTo i st cause s) ∧ SamePlan s (blendTo i st cause s) ∧ SameSizes s (blendTo i st cause s) ∧ (blendTo
    i st cause s).health = s.health := by
  unfold blendTo; split <;> simp

theorem releaseFadeHolds_frame (s : State) : SameBase s (releaseFadeHolds s) ∧ SameStore s (releaseFadeHolds s) ∧
    SameSecure s (releaseFadeHolds s) ∧ SameMix s (releaseFadeHolds s) ∧ SameHead s (releaseFadeHolds s) ∧ SamePlan s
    (releaseFadeHolds s) ∧ SamePort s (releaseFadeHolds s) ∧ SameSizes s (releaseFadeHolds s) ∧ (releaseFadeHolds s).front
    = s.front := by
  unfold releaseFadeHolds; simp

theorem cutFade_frame (i : Nat) (s : State) : SameBase s (cutFade i s) ∧ SameStore s (cutFade i s) ∧ SameSecure s
    (cutFade i s) ∧ SameHead s (cutFade i s) ∧ SamePlan s (cutFade i s) ∧ SameSizes s (cutFade i s) ∧ (cutFade i s).front
    = s.front ∧ (cutFade i s).health = s.health := by
  unfold cutFade; (repeat' split) <;> simp [releaseFadeHolds_frame .., blendTo_frame ..]

theorem recharge_frame (i : Nat) (s : State) : SameBase s (recharge i s) ∧ SameStore s (recharge i s) ∧ SameSecure s
    (recharge i s) ∧ SameMix s (recharge i s) ∧ SameHead s (recharge i s) ∧ SamePlan s (recharge i s) ∧ SameSizes s
    (recharge i s) ∧ (recharge i s).front = s.front := by
  unfold recharge; split <;> simp

theorem reportDecode_frame (i : Nat) (before : Bool) (cause : Option Nat) (s : State) : SameBase s (reportDecode i
    before cause s) ∧ SameStore s (reportDecode i before cause s) ∧ SameSecure s (reportDecode i before cause s) ∧
    SameObjects s (reportDecode i before cause s) ∧ SameMix s (reportDecode i before cause s) ∧ SameHead s (reportDecode i
    before cause s) ∧ SamePlan s (reportDecode i before cause s) ∧ SameSizes s (reportDecode i before cause s) := by
  unfold reportDecode; split <;> simp

theorem setItem_frame (v : Bool) (x : Nat × Nat × Nat) (s : State) : SameBase s (setItem v x s) ∧ SameStore s (setItem
    v x s) ∧ SameHead s (setItem v x s) ∧ SameSizes s (setItem v x s) ∧ (setItem v x s).sec = s.sec ∧ (setItem v x
    s).survey = s.survey ∧ (setItem v x s).plan = s.plan ∧ (setItem v x s).time = s.time := by
  unfold setItem; dsimp only; (repeat' split) <;> simp [stopIntervals_frame .., dropChannel_frame .., cutFade_frame .., reportDecode_frame .., recharge_frame ..]

theorem reportItem_frame (v : Bool) (x : Nat × Nat × Nat) (s : State) : SameBase s (reportItem v x s) ∧ SameStore s
    (reportItem v x s) ∧ SameSecure s (reportItem v x s) ∧ SameObjects s (reportItem v x s) ∧ SameHead s (reportItem v x
    s) ∧ SamePlan s (reportItem v x s) ∧ SameSizes s (reportItem v x s) ∧ (reportItem v x s).mix = s.mix := by
  unfold reportItem; simp

theorem shedItems_frame (s : State) : SameBase s (shedItems s).1 ∧ SameStore s (shedItems s).1 ∧ SameHead s (shedItems
    s).1 ∧ SameSizes s (shedItems s).1 ∧ (shedItems s).1.sec = s.sec ∧ (shedItems s).1.survey = s.survey ∧ (shedItems
    s).1.plan = s.plan ∧ (shedItems s).1.time = s.time := by
  unfold shedItems; simp [setItem_frame ..]

theorem announceCapacity_frame (s : State) : SameBase s (announceCapacity s) ∧ SameStore s (announceCapacity s) ∧
    SameSecure s (announceCapacity s) ∧ SameObjects s (announceCapacity s) ∧ SameHead s (announceCapacity s) ∧ SamePlan s
    (announceCapacity s) ∧ SameSizes s (announceCapacity s) ∧ (announceCapacity s).mix = s.mix := by
  unfold announceCapacity; simp

theorem shedToLimit_frame (s : State) : SameBase s (shedToLimit s) ∧ SameStore s (shedToLimit s) ∧ SameHead s
    (shedToLimit s) ∧ SameSizes s (shedToLimit s) ∧ (shedToLimit s).sec = s.sec ∧ (shedToLimit s).survey = s.survey ∧
    (shedToLimit s).plan = s.plan ∧ (shedToLimit s).time = s.time := by
  unfold shedToLimit; simp [reportItem_frame .., shedItems_frame .., announceCapacity_frame ..]

@[simp] theorem resumeShed_frame (s : State) : SameBase s (resumeShed s) ∧ SameStore s (resumeShed s) ∧ SameHead s
    (resumeShed s) ∧ SameSizes s (resumeShed s) ∧ (resumeShed s).sec = s.sec ∧ (resumeShed s).survey = s.survey ∧
    (resumeShed s).plan = s.plan ∧ (resumeShed s).time = s.time := by
  unfold resumeShed; simp [setItem_frame .., reportItem_frame ..]

@[simp] theorem postRemoved_frame (cls : Nat) (h : Handle) (cause : Option Nat) (s : State) : SameBase s (postRemoved
    cls h cause s) ∧ SameStore s (postRemoved cls h cause s) ∧ SameSecure s (postRemoved cls h cause s) ∧ SameObjects s
    (postRemoved cls h cause s) ∧ SameMix s (postRemoved cls h cause s) ∧ SameHead s (postRemoved cls h cause s) ∧
    SamePlan s (postRemoved cls h cause s) ∧ SameSizes s (postRemoved cls h cause s) := by
  unfold postRemoved; simp

theorem detachProbes_frame (fo : Handle) (s : State) : SameBase s (detachProbes fo s) ∧ SameStore s (detachProbes fo
    s) ∧ SameSecure s (detachProbes fo s) ∧ SameMix s (detachProbes fo s) ∧ SameHead s (detachProbes fo s) ∧ SamePlan s
    (detachProbes fo s) ∧ SamePort s (detachProbes fo s) ∧ SameSizes s (detachProbes fo s) ∧ (detachProbes fo s).front =
    s.front := by
  unfold detachProbes; simp

@[simp] theorem finishFollow_frame (i : Nat) (cause : Option Nat) (s : State) : SameBase s (finishFollow i cause s) ∧
    SameStore s (finishFollow i cause s) ∧ SameHead s (finishFollow i cause s) ∧ SameSizes s (finishFollow i cause s) ∧
    (finishFollow i cause s).sec = s.sec ∧ (finishFollow i cause s).survey = s.survey ∧ (finishFollow i cause s).plan =
    s.plan ∧ (finishFollow i cause s).time = s.time := by
  unfold finishFollow; split <;> simp [detachProbes_frame ..]

theorem finishBranch_frame (i : Nat) (cause : Option Nat) (s : State) : SameBase s (finishBranch i cause s) ∧
    SameStore s (finishBranch i cause s) ∧ SameHead s (finishBranch i cause s) ∧ SameSizes s (finishBranch i cause s) ∧
    (finishBranch i cause s).sec = s.sec ∧ (finishBranch i cause s).survey = s.survey ∧ (finishBranch i cause s).time =
    s.time := by
  unfold finishBranch; simp

theorem finishProbe_frame (i : Nat) (cause : Option Nat) (s : State) : SameBase s (finishProbe i cause s) ∧ SameStore
    s (finishProbe i cause s) ∧ SameHead s (finishProbe i cause s) ∧ SameSizes s (finishProbe i cause s) ∧ (finishProbe i
    cause s).sec = s.sec ∧ (finishProbe i cause s).survey = s.survey ∧ (finishProbe i cause s).time = s.time := by
  unfold finishProbe; simp

theorem finishTap_frame (i : Nat) (cause : Option Nat) (s : State) : SameBase s (finishTap i cause s) ∧ SameStore s
    (finishTap i cause s) ∧ SameSecure s (finishTap i cause s) ∧ SameMix s (finishTap i cause s) ∧ SameHead s (finishTap i
    cause s) ∧ SameSizes s (finishTap i cause s) ∧ (finishTap i cause s).front = s.front ∧ (finishTap i cause s).time =
    s.time ∧ (finishTap i cause s).compat = s.compat := by
  unfold finishTap; simp

theorem finishBlend_frame (i : Nat) (cause : Option Nat) (s : State) : SameBase s (finishBlend i cause s) ∧ SameStore
    s (finishBlend i cause s) ∧ SameHead s (finishBlend i cause s) ∧ SameSizes s (finishBlend i cause s) ∧ (finishBlend i
    cause s).sec = s.sec ∧ (finishBlend i cause s).survey = s.survey ∧ (finishBlend i cause s).plan = s.plan ∧
    (finishBlend i cause s).time = s.time := by
  unfold finishBlend; split <;> simp [cutFade_frame ..]

theorem finishPcm_frame (i : Nat) (cause : Option Nat) (s : State) : SameBase s (finishPcm i cause s) ∧ SameStore s
    (finishPcm i cause s) ∧ SameHead s (finishPcm i cause s) ∧ SameSizes s (finishPcm i cause s) ∧ (finishPcm i cause
    s).sec = s.sec ∧ (finishPcm i cause s).survey = s.survey ∧ (finishPcm i cause s).time = s.time := by
  unfold finishPcm; split <;> simp

@[simp] theorem dropMot_frame (i : Nat) (count : Bool) (pick : MotObj → Bool) (s : State) : SameBase s (dropMot i
    count pick s) ∧ SameStore s (dropMot i count pick s) ∧ SameSecure s (dropMot i count pick s) ∧ SameMix s (dropMot i
    count pick s) ∧ SameHead s (dropMot i count pick s) ∧ SamePlan s (dropMot i count pick s) ∧ SameSizes s (dropMot i
    count pick s) ∧ (dropMot i count pick s).front = s.front ∧ (dropMot i count pick s).out = s.out := by
  unfold dropMot; (repeat' split) <;> simp

theorem removeProgramme_frame (i : Nat) (cause : Option Nat) (s : State) : SameBase s (removeProgramme i cause s) ∧
    SameStore s (removeProgramme i cause s) ∧ SameSecure s (removeProgramme i cause s) ∧ SameMix s (removeProgramme i
    cause s) ∧ SameHead s (removeProgramme i cause s) ∧ SameSizes s (removeProgramme i cause s) ∧ (removeProgramme i cause
    s).front = s.front ∧ (removeProgramme i cause s).time = s.time ∧ (removeProgramme i cause s).compat = s.compat := by
  unfold removeProgramme; split <;> simp

theorem finishReception_frame (i : Nat) (cause : Option Nat) (s : State) : SameBase s (finishReception i cause s) ∧
    SameStore s (finishReception i cause s) ∧ SameHead s (finishReception i cause s) ∧ SameSizes s (finishReception i
    cause s) ∧ (finishReception i cause s).sec = s.sec ∧ (finishReception i cause s).survey = s.survey ∧ (finishReception
    i cause s).time = s.time := by
  unfold finishReception; split <;> simp [removeProgramme_frame ..]

end Sys2Proof.Machine
end

