-- ==== Sys2Proof/Laws/FramesB.lean ====
section
/-!
SUPPORT. FramesB.lean: for each operation of CalOps, Window, SideData, Reception, Bank, Programme, Pcm, Binding, Scarf, Demod, Gauge, Blend, one lemma that says which parts of the state it never changes.
-/

namespace Sys2Proof.Machine

@[simp] theorem modAdc_frame (x0 : Nat) (g : AdcCal → AdcCal) (s : State) : SameBase s (modAdc x0 g s) ∧ SameStore s
    (modAdc x0 g s) ∧ SameSecure s (modAdc x0 g s) ∧ SameObjects s (modAdc x0 g s) ∧ SameMix s (modAdc x0 g s) ∧ SamePlan
    s (modAdc x0 g s) ∧ SamePort s (modAdc x0 g s) ∧ SameSizes s (modAdc x0 g s) ∧ (modAdc x0 g s).head = s.head ∧ (modAdc
    x0 g s).gens = s.gens := by
  unfold modAdc; simp

theorem runResult_frame (x0 : Nat) (kind : Nat) (res : Nat) (s : State) : SameBase s (runResult x0 kind res s) ∧
    SameStore s (runResult x0 kind res s) ∧ SameSecure s (runResult x0 kind res s) ∧ SameObjects s (runResult x0 kind res
    s) ∧ SameMix s (runResult x0 kind res s) ∧ SamePlan s (runResult x0 kind res s) ∧ SamePort s (runResult x0 kind res s)
    ∧ SameSizes s (runResult x0 kind res s) ∧ (runResult x0 kind res s).head = s.head ∧ (runResult x0 kind res s).gens =
    s.gens := by
  unfold runResult; simp

theorem calRunEnds_frame (s : State) : SameBase s (calRunEnds s) ∧ SameStore s (calRunEnds s) ∧ SameSecure s
    (calRunEnds s) ∧ SameObjects s (calRunEnds s) ∧ SameMix s (calRunEnds s) ∧ SamePlan s (calRunEnds s) ∧ SameSizes s
    (calRunEnds s) ∧ (calRunEnds s).gens = s.gens := by
  unfold calRunEnds; simp

theorem abandonRun_frame (x0 : Nat) (s : State) : SameBase s (abandonRun x0 s) ∧ SameStore s (abandonRun x0 s) ∧
    SameSecure s (abandonRun x0 s) ∧ SameObjects s (abandonRun x0 s) ∧ SameMix s (abandonRun x0 s) ∧ SamePlan s
    (abandonRun x0 s) ∧ SameSizes s (abandonRun x0 s) ∧ (abandonRun x0 s).gens = s.gens := by
  unfold abandonRun; simp [runResult_frame .., calRunEnds_frame ..]

theorem dropRun_frame (x0 : Nat) (s : State) : SameBase s (dropRun x0 s) ∧ SameStore s (dropRun x0 s) ∧ SameSecure s
    (dropRun x0 s) ∧ SameObjects s (dropRun x0 s) ∧ SameMix s (dropRun x0 s) ∧ SamePlan s (dropRun x0 s) ∧ SameSizes s
    (dropRun x0 s) ∧ (dropRun x0 s).gens = s.gens := by
  unfold dropRun; simp [runResult_frame .., calRunEnds_frame ..]

theorem beginInterruption_frame (x0 : Nat) (s : State) : SameBase s (beginInterruption x0 s) ∧ SameStore s
    (beginInterruption x0 s) ∧ SameSizes s (beginInterruption x0 s) ∧ (beginInterruption x0 s).sec = s.sec ∧
    (beginInterruption x0 s).survey = s.survey ∧ (beginInterruption x0 s).front = s.front ∧ (beginInterruption x0 s).head
    = s.head ∧ (beginInterruption x0 s).gens = s.gens ∧ (beginInterruption x0 s).plan = s.plan ∧ (beginInterruption x0
    s).time = s.time := by
  unfold beginInterruption; simp [gapChain_frame ..]

theorem releaseDeferred_frame (s : State) : SameBase s (releaseDeferred s) ∧ SameStore s (releaseDeferred s) ∧
    SameSizes s (releaseDeferred s) ∧ (releaseDeferred s).sec = s.sec ∧ (releaseDeferred s).survey = s.survey ∧
    (releaseDeferred s).front = s.front ∧ (releaseDeferred s).head = s.head ∧ (releaseDeferred s).gens = s.gens ∧
    (releaseDeferred s).plan = s.plan ∧ (releaseDeferred s).time = s.time := by
  unfold releaseDeferred; simp [beginInterruption_frame ..]

theorem iqRetune_frame (w : Nat) (s : State) : SameBase s (iqRetune w s) ∧ SameStore s (iqRetune w s) ∧ SameSecure s
    (iqRetune w s) ∧ SameMix s (iqRetune w s) ∧ SamePlan s (iqRetune w s) ∧ SamePort s (iqRetune w s) ∧ SameSizes s
    (iqRetune w s) ∧ (iqRetune w s).prog = s.prog ∧ (iqRetune w s).head = s.head ∧ (iqRetune w s).gens = s.gens := by
  unfold iqRetune; split <;> simp

@[simp] theorem takeTuner_frame (t : Nat) (w : Nat) (partner : Bool) (port : Nat) (s : State) : SameBase s (takeTuner
    t w partner port s) ∧ SameStore s (takeTuner t w partner port s) ∧ SameHead s (takeTuner t w partner port s) ∧
    SameSizes s (takeTuner t w partner port s) ∧ (takeTuner t w partner port s).sec = s.sec ∧ (takeTuner t w partner port
    s).survey = s.survey ∧ (takeTuner t w partner port s).plan = s.plan ∧ (takeTuner t w partner port s).time = s.time :=
    by
  unfold takeTuner; (repeat' split) <;> simp

@[simp] theorem openWindow_frame (w : Nat) (s : State) : SameBase s (openWindow w s) ∧ SameStore s (openWindow w s) ∧
    SameHead s (openWindow w s) ∧ SameSizes s (openWindow w s) ∧ (openWindow w s).sec = s.sec ∧ (openWindow w s).survey =
    s.survey ∧ (openWindow w s).plan = s.plan ∧ (openWindow w s).time = s.time := by
  unfold openWindow; split <;> simp

theorem lockTuner_frame (t : Nat) (port : Nat) (x : Window) (s : State) : SameBase s (lockTuner t port x s) ∧
    SameStore s (lockTuner t port x s) ∧ SameSecure s (lockTuner t port x s) ∧ SameMix s (lockTuner t port x s) ∧ SameHead
    s (lockTuner t port x s) ∧ SamePlan s (lockTuner t port x s) ∧ SamePort s (lockTuner t port x s) ∧ SameSizes s
    (lockTuner t port x s) ∧ (lockTuner t port x s).prog = s.prog := by
  unfold lockTuner; simp

theorem lockPartner_frame (w : Nat) (s : State) : SameBase s (lockPartner w s) ∧ SameStore s (lockPartner w s) ∧
    SameSecure s (lockPartner w s) ∧ SameMix s (lockPartner w s) ∧ SameHead s (lockPartner w s) ∧ SamePlan s (lockPartner
    w s) ∧ SamePort s (lockPartner w s) ∧ SameSizes s (lockPartner w s) ∧ (lockPartner w s).prog = s.prog := by
  unfold lockPartner; split <;> simp [lockTuner_frame ..]

theorem beginRetune_frame (w : Nat) (dest : Nat × Nat × Nat) (s : State) : SameBase s (beginRetune w dest s) ∧
    SameStore s (beginRetune w dest s) ∧ SameHead s (beginRetune w dest s) ∧ SameSizes s (beginRetune w dest s) ∧
    (beginRetune w dest s).sec = s.sec ∧ (beginRetune w dest s).survey = s.survey ∧ (beginRetune w dest s).plan = s.plan ∧
    (beginRetune w dest s).time = s.time := by
  unfold beginRetune; simp [gapWindow_frame ..]

theorem promoteRetunes_frame (w : Nat) (s : State) : SameBase s (promoteRetunes w s) ∧ SameStore s (promoteRetunes w
    s) ∧ SameSecure s (promoteRetunes w s) ∧ SameObjects s (promoteRetunes w s) ∧ SameMix s (promoteRetunes w s) ∧
    SamePlan s (promoteRetunes w s) ∧ SamePort s (promoteRetunes w s) ∧ SameSizes s (promoteRetunes w s) ∧ (promoteRetunes
    w s).gens = s.gens ∧ (promoteRetunes w s).cal = s.cal := by
  unfold promoteRetunes; simp

theorem startWaitingRetune_frame (w : Nat) (s : State) : SameBase s (startWaitingRetune w s) ∧ SameStore s
    (startWaitingRetune w s) ∧ SameSizes s (startWaitingRetune w s) ∧ (startWaitingRetune w s).sec = s.sec ∧
    (startWaitingRetune w s).survey = s.survey ∧ (startWaitingRetune w s).gens = s.gens ∧ (startWaitingRetune w s).cal =
    s.cal ∧ (startWaitingRetune w s).plan = s.plan ∧ (startWaitingRetune w s).time = s.time := by
  unfold startWaitingRetune; split <;> simp [beginRetune_frame .., promoteRetunes_frame ..]

theorem releaseRetunes_frame (w : Nat) (s : State) : SameBase s (releaseRetunes w s) ∧ SameStore s (releaseRetunes w
    s) ∧ SameSecure s (releaseRetunes w s) ∧ SameObjects s (releaseRetunes w s) ∧ SameMix s (releaseRetunes w s) ∧
    SamePlan s (releaseRetunes w s) ∧ SameSizes s (releaseRetunes w s) ∧ (releaseRetunes w s).gens = s.gens ∧
    (releaseRetunes w s).cal = s.cal := by
  unfold releaseRetunes; simp

theorem rememberTuners_frame (w : Nat) (s : State) : SameBase s (rememberTuners w s) ∧ SameStore s (rememberTuners w
    s) ∧ SameSecure s (rememberTuners w s) ∧ SameMix s (rememberTuners w s) ∧ SameHead s (rememberTuners w s) ∧ SamePlan s
    (rememberTuners w s) ∧ SamePort s (rememberTuners w s) ∧ SameSizes s (rememberTuners w s) ∧ (rememberTuners w s).prog
    = s.prog := by
  unfold rememberTuners; simp

theorem beginClose_frame (w : Nat) (cause : Option Nat) (s : State) : SameBase s (beginClose w cause s) ∧ SameStore s
    (beginClose w cause s) ∧ SameSizes s (beginClose w cause s) ∧ (beginClose w cause s).sec = s.sec ∧ (beginClose w cause
    s).survey = s.survey ∧ (beginClose w cause s).gens = s.gens ∧ (beginClose w cause s).plan = s.plan ∧ (beginClose w
    cause s).time = s.time := by
  unfold beginClose; dsimp only; (repeat' split) <;> simp [abandonRun_frame .., releaseRetunes_frame .., rememberTuners_frame ..]

theorem postClosed_frame (w : Nat) (cause : Option Nat) (s : State) : SameBase s (postClosed w cause s) ∧ SameStore s
    (postClosed w cause s) ∧ SameSecure s (postClosed w cause s) ∧ SameObjects s (postClosed w cause s) ∧ SameMix s
    (postClosed w cause s) ∧ SameHead s (postClosed w cause s) ∧ SamePlan s (postClosed w cause s) ∧ SameSizes s
    (postClosed w cause s) := by
  unfold postClosed; simp

@[simp] theorem finishClose_frame (w : Nat) (cause : Option Nat) (s : State) : SameBase s (finishClose w cause s) ∧
    SameStore s (finishClose w cause s) ∧ SameSecure s (finishClose w cause s) ∧ SameMix s (finishClose w cause s) ∧
    SameHead s (finishClose w cause s) ∧ SamePlan s (finishClose w cause s) ∧ SameSizes s (finishClose w cause s) ∧
    (finishClose w cause s).prog = s.prog := by
  unfold finishClose; simp [postClosed_frame ..]

@[simp] theorem planWindow_frame (w : Nat) (c : WinSettings) (mark : Bool) (s : State) : SameBase s (planWindow w c
    mark s) ∧ SameStore s (planWindow w c mark s) ∧ SameSecure s (planWindow w c mark s) ∧ SameMix s (planWindow w c mark
    s) ∧ SamePlan s (planWindow w c mark s) ∧ SamePort s (planWindow w c mark s) ∧ SameSizes s (planWindow w c mark s) ∧
    (planWindow w c mark s).prog = s.prog ∧ (planWindow w c mark s).gens = s.gens ∧ (planWindow w c mark s).cal = s.cal :=
    by
  unfold planWindow; simp

theorem windowOpenBody_frame (f : CmdFrame) (queued : Bool) (s : State) : SameBase s (windowOpenBody f queued s).1 ∧
    SameStore s (windowOpenBody f queued s).1 ∧ SameSizes s (windowOpenBody f queued s).1 ∧ (windowOpenBody f queued
    s).1.sec = s.sec ∧ (windowOpenBody f queued s).1.survey = s.survey ∧ (windowOpenBody f queued s).1.gens = s.gens ∧
    (windowOpenBody f queued s).1.cal = s.cal ∧ (windowOpenBody f queued s).1.time = s.time := by
  unfold windowOpenBody; simp

theorem hfStart_frame (w : Nat) (s : State) : SameBase s (hfStart w s) ∧ SameStore s (hfStart w s) ∧ SameMix s
    (hfStart w s) ∧ SameHead s (hfStart w s) ∧ SamePlan s (hfStart w s) ∧ SamePort s (hfStart w s) ∧ SameSizes s (hfStart
    w s) ∧ (hfStart w s).sec = s.sec ∧ (hfStart w s).survey = s.survey ∧ (hfStart w s).prog = s.prog := by
  unfold hfStart; simp

theorem windowOpened_frame (w : Nat) (s : State) : SameBase s (windowOpened w s) ∧ SameStore s (windowOpened w s) ∧
    SameSizes s (windowOpened w s) ∧ (windowOpened w s).sec = s.sec ∧ (windowOpened w s).survey = s.survey ∧ (windowOpened
    w s).gens = s.gens ∧ (windowOpened w s).plan = s.plan ∧ (windowOpened w s).time = s.time := by
  unfold windowOpened; (repeat' split) <;> simp [releaseDeferred_frame .., iqRetune_frame .., lockTuner_frame .., lockPartner_frame .., startWaitingRetune_frame .., hfStart_frame ..]

@[simp] theorem retuneWindow_frame (w : Nat) (c : WinSettings) (s : State) : SameBase s (retuneWindow w c s).1 ∧
    SameStore s (retuneWindow w c s).1 ∧ SameHead s (retuneWindow w c s).1 ∧ SameSizes s (retuneWindow w c s).1 ∧
    (retuneWindow w c s).1.sec = s.sec ∧ (retuneWindow w c s).1.survey = s.survey ∧ (retuneWindow w c s).1.plan = s.plan ∧
    (retuneWindow w c s).1.time = s.time := by
  unfold retuneWindow; dsimp only; (repeat' split) <;> simp [beginRetune_frame ..]

theorem windowRetuneBody_frame (f : CmdFrame) (s : State) : SameBase s (windowRetuneBody f s).1 ∧ SameStore s
    (windowRetuneBody f s).1 ∧ SameSizes s (windowRetuneBody f s).1 ∧ (windowRetuneBody f s).1.sec = s.sec ∧
    (windowRetuneBody f s).1.survey = s.survey ∧ (windowRetuneBody f s).1.gens = s.gens ∧ (windowRetuneBody f s).1.cal =
    s.cal ∧ (windowRetuneBody f s).1.time = s.time := by
  unfold windowRetuneBody; simp

theorem retuneDone_frame (w : Nat) (s : State) : SameBase s (retuneDone w s) ∧ SameStore s (retuneDone w s) ∧
    SameSizes s (retuneDone w s) ∧ (retuneDone w s).sec = s.sec ∧ (retuneDone w s).survey = s.survey ∧ (retuneDone w
    s).gens = s.gens ∧ (retuneDone w s).plan = s.plan ∧ (retuneDone w s).time = s.time := by
  unfold retuneDone; dsimp only; (repeat' split) <;> simp [releaseDeferred_frame .., iqRetune_frame .., lockTuner_frame .., lockPartner_frame .., startWaitingRetune_frame ..]

theorem windowCloseBody_frame (f : CmdFrame) (s : State) : SameBase s (windowCloseBody f s).1 ∧ SameStore s
    (windowCloseBody f s).1 ∧ SameSizes s (windowCloseBody f s).1 ∧ (windowCloseBody f s).1.sec = s.sec ∧ (windowCloseBody
    f s).1.survey = s.survey ∧ (windowCloseBody f s).1.gens = s.gens ∧ (windowCloseBody f s).1.time = s.time := by
  unfold windowCloseBody; simp [beginClose_frame ..]

theorem windowGangBody_frame (f : CmdFrame) (queued : Bool) (s : State) : SameBase s (windowGangBody f queued s).1 ∧
    SameStore s (windowGangBody f queued s).1 ∧ SameSizes s (windowGangBody f queued s).1 ∧ (windowGangBody f queued
    s).1.sec = s.sec ∧ (windowGangBody f queued s).1.survey = s.survey ∧ (windowGangBody f queued s).1.gens = s.gens ∧
    (windowGangBody f queued s).1.cal = s.cal ∧ (windowGangBody f queued s).1.time = s.time := by
  unfold windowGangBody; dsimp only; (repeat' split) <;> simp

theorem shutBranch_frame (i : Nat) (cause : Nat) (s : State) : SameBase s (shutBranch i cause s) ∧ SameStore s
    (shutBranch i cause s) ∧ SameHead s (shutBranch i cause s) ∧ SameSizes s (shutBranch i cause s) ∧ (shutBranch i cause
    s).sec = s.sec ∧ (shutBranch i cause s).survey = s.survey ∧ (shutBranch i cause s).time = s.time := by
  unfold shutBranch; split <;> simp [finishBranch_frame ..]

theorem windowUngangBody_frame (f : CmdFrame) (s : State) : SameBase s (windowUngangBody f s).1 ∧ SameStore s
    (windowUngangBody f s).1 ∧ SameSizes s (windowUngangBody f s).1 ∧ (windowUngangBody f s).1.sec = s.sec ∧
    (windowUngangBody f s).1.survey = s.survey ∧ (windowUngangBody f s).1.gens = s.gens ∧ (windowUngangBody f s).1.time =
    s.time := by
  unfold windowUngangBody; dsimp only; split <;> simp [dropRun_frame .., shutBranch_frame ..]

theorem rerunOpens_frame (s : State) : SameBase s (rerunOpens s) ∧ SameStore s (rerunOpens s) ∧ SameSizes s
    (rerunOpens s) ∧ (rerunOpens s).sec = s.sec ∧ (rerunOpens s).survey = s.survey ∧ (rerunOpens s).gens = s.gens ∧
    (rerunOpens s).cal = s.cal ∧ (rerunOpens s).time = s.time := by
  unfold rerunOpens; simp [windowOpenBody_frame .., windowGangBody_frame ..]

theorem sweepLoses_frame (t : Nat) (s : State) : SameBase s (sweepLoses t s) ∧ SameStore s (sweepLoses t s) ∧
    SameObjects s (sweepLoses t s) ∧ SameMix s (sweepLoses t s) ∧ SameHead s (sweepLoses t s) ∧ SamePlan s (sweepLoses t
    s) ∧ SamePort s (sweepLoses t s) ∧ SameSizes s (sweepLoses t s) ∧ (sweepLoses t s).sec = s.sec ∧ (sweepLoses t
    s).fresh = s.fresh := by
  unfold sweepLoses; simp

theorem windowClosed_frame (w : Nat) (s : State) : SameBase s (windowClosed w s) ∧ SameStore s (windowClosed w s) ∧
    SameSizes s (windowClosed w s) ∧ (windowClosed w s).sec = s.sec ∧ (windowClosed w s).survey = s.survey ∧ (windowClosed
    w s).gens = s.gens ∧ (windowClosed w s).cal = s.cal ∧ (windowClosed w s).time = s.time := by
  unfold windowClosed; split <;> simp [rerunOpens_frame ..]

theorem handOver_frame (w : Nat) (failed : Nat) (s : State) : SameBase s (handOver w failed s) ∧ SameStore s (handOver
    w failed s) ∧ SameSizes s (handOver w failed s) ∧ (handOver w failed s).sec = s.sec ∧ (handOver w failed s).survey =
    s.survey ∧ (handOver w failed s).gens = s.gens ∧ (handOver w failed s).plan = s.plan ∧ (handOver w failed s).time =
    s.time := by
  unfold handOver; dsimp only; (repeat' split) <;> simp [gapWindow_frame .., releaseRetunes_frame ..]

theorem partnerFails_frame (w : Nat) (s : State) : SameBase s (partnerFails w s) ∧ SameStore s (partnerFails w s) ∧
    SameHead s (partnerFails w s) ∧ SameSizes s (partnerFails w s) ∧ (partnerFails w s).sec = s.sec ∧ (partnerFails w
    s).survey = s.survey ∧ (partnerFails w s).plan = s.plan ∧ (partnerFails w s).time = s.time := by
  unfold partnerFails; dsimp only; (repeat' split) <;> simp

theorem tunerFails_frame (t : Nat) (s : State) : SameBase s (tunerFails t s) ∧ SameStore s (tunerFails t s) ∧
    SameSizes s (tunerFails t s) ∧ (tunerFails t s).sec = s.sec ∧ (tunerFails t s).gens = s.gens ∧ (tunerFails t s).plan =
    s.plan ∧ (tunerFails t s).time = s.time := by
  unfold tunerFails; dsimp only; (repeat' split) <;> simp [dropRun_frame .., handOver_frame .., sweepLoses_frame .., partnerFails_frame ..]

theorem bringPartner_frame (w : Nat) (s : State) : SameBase s (bringPartner w s) ∧ SameStore s (bringPartner w s) ∧
    SameHead s (bringPartner w s) ∧ SameSizes s (bringPartner w s) ∧ (bringPartner w s).sec = s.sec ∧ (bringPartner w
    s).survey = s.survey ∧ (bringPartner w s).plan = s.plan ∧ (bringPartner w s).time = s.time := by
  unfold bringPartner; (repeat' split) <;> simp

theorem holdGain_frame (t : Nat) (clipped : Nat) (samples : Nat) (s : State) : SameBase s (holdGain t clipped samples
    s) ∧ SameStore s (holdGain t clipped samples s) ∧ SameSecure s (holdGain t clipped samples s) ∧ SameMix s (holdGain t
    clipped samples s) ∧ SameHead s (holdGain t clipped samples s) ∧ SamePlan s (holdGain t clipped samples s) ∧ SamePort
    s (holdGain t clipped samples s) ∧ SameSizes s (holdGain t clipped samples s) ∧ (holdGain t clipped samples s).prog =
    s.prog := by
  unfold holdGain; simp

theorem agcTuner_frame (t : Nat) (port : Nat) (lo : Nat) (p : Int) (clipped : Nat) (samples : Nat) (s : State) :
    SameBase s (agcTuner t port lo p clipped samples s) ∧ SameStore s (agcTuner t port lo p clipped samples s) ∧ SameMix s
    (agcTuner t port lo p clipped samples s) ∧ SameHead s (agcTuner t port lo p clipped samples s) ∧ SamePlan s (agcTuner
    t port lo p clipped samples s) ∧ SamePort s (agcTuner t port lo p clipped samples s) ∧ SameSizes s (agcTuner t port lo
    p clipped samples s) ∧ (agcTuner t port lo p clipped samples s).sec = s.sec ∧ (agcTuner t port lo p clipped samples
    s).survey = s.survey ∧ (agcTuner t port lo p clipped samples s).prog = s.prog := by
  unfold agcTuner; simp [drawBool_frame ..]

theorem lnaConfigBody_frame (f : CmdFrame) (s : State) : SameBase s (lnaConfigBody f s).1 ∧ SameSecure s
    (lnaConfigBody f s).1 ∧ SameObjects s (lnaConfigBody f s).1 ∧ SameMix s (lnaConfigBody f s).1 ∧ SameHead s
    (lnaConfigBody f s).1 ∧ SamePlan s (lnaConfigBody f s).1 ∧ SamePort s (lnaConfigBody f s).1 ∧ SameSizes s
    (lnaConfigBody f s).1 ∧ (lnaConfigBody f s).1.link = s.link ∧ (lnaConfigBody f s).1.stats = s.stats := by
  unfold lnaConfigBody; simp

theorem getLnaConfigBody_frame (f : CmdFrame) (s : State) : SameBase s (getLnaConfigBody f s).1 ∧ SameStore s
    (getLnaConfigBody f s).1 ∧ SameSecure s (getLnaConfigBody f s).1 ∧ SameObjects s (getLnaConfigBody f s).1 ∧ SameMix s
    (getLnaConfigBody f s).1 ∧ SameHead s (getLnaConfigBody f s).1 ∧ SamePlan s (getLnaConfigBody f s).1 ∧ SamePort s
    (getLnaConfigBody f s).1 ∧ SameSizes s (getLnaConfigBody f s).1 := by
  unfold getLnaConfigBody; simp

theorem getWindowBody_frame (f : CmdFrame) (s : State) : SameBase s (getWindowBody f s).1 ∧ SameStore s (getWindowBody
    f s).1 ∧ SameSecure s (getWindowBody f s).1 ∧ SameObjects s (getWindowBody f s).1 ∧ SameMix s (getWindowBody f s).1 ∧
    SameHead s (getWindowBody f s).1 ∧ SamePlan s (getWindowBody f s).1 ∧ SamePort s (getWindowBody f s).1 ∧ SameSizes s
    (getWindowBody f s).1 := by
  unfold getWindowBody; simp

theorem signalAlert_frame (i : Nat) (at' : Instant) (sg : AlertSignal) (s : State) : SameBase s (signalAlert i at' sg
    s) ∧ SameStore s (signalAlert i at' sg s) ∧ SameSecure s (signalAlert i at' sg s) ∧ SameHead s (signalAlert i at' sg
    s) ∧ SameSizes s (signalAlert i at' sg s) ∧ (signalAlert i at' sg s).front = s.front ∧ (signalAlert i at' sg s).mix =
    s.mix ∧ (signalAlert i at' sg s).plan = s.plan ∧ (signalAlert i at' sg s).time = s.time := by
  unfold signalAlert; (repeat' split) <;> simp [reportAlert_frame ..]

@[simp] theorem modFollow_frame (i : Nat) (g : Follow → Follow) (s : State) : SameBase s (modFollow i g s) ∧ SameStore
    s (modFollow i g s) ∧ SameSecure s (modFollow i g s) ∧ SameMix s (modFollow i g s) ∧ SameHead s (modFollow i g s) ∧
    SamePlan s (modFollow i g s) ∧ SamePort s (modFollow i g s) ∧ SameSizes s (modFollow i g s) ∧ (modFollow i g s).front
    = s.front := by
  unfold modFollow; simp

theorem learnCand_frame (i : Nat) (bit : Nat) (source : Nat) (ok : Follow → Bool) (f : Nat) (k : Kind) (s : State) :
    SameBase s (learnCand i bit source ok f k s) ∧ SameStore s (learnCand i bit source ok f k s) ∧ SameSecure s (learnCand
    i bit source ok f k s) ∧ SameMix s (learnCand i bit source ok f k s) ∧ SameHead s (learnCand i bit source ok f k s) ∧
    SamePlan s (learnCand i bit source ok f k s) ∧ SamePort s (learnCand i bit source ok f k s) ∧ SameSizes s (learnCand i
    bit source ok f k s) ∧ (learnCand i bit source ok f k s).front = s.front := by
  unfold learnCand; simp

theorem learnLink_frame (i : Nat) (l : Nat × Nat × Nat × Nat) (s : State) : SameBase s (learnLink i l s) ∧ SameStore s
    (learnLink i l s) ∧ SameSecure s (learnLink i l s) ∧ SameMix s (learnLink i l s) ∧ SameHead s (learnLink i l s) ∧
    SamePlan s (learnLink i l s) ∧ SamePort s (learnLink i l s) ∧ SameSizes s (learnLink i l s) ∧ (learnLink i l s).front
    = s.front := by
  unfold learnLink; simp

theorem groupCands_frame (i : Nat) (tuned : Nat) (g : RdsGroup) (s : State) : SameBase s (groupCands i tuned g s) ∧
    SameStore s (groupCands i tuned g s) ∧ SameSecure s (groupCands i tuned g s) ∧ SameMix s (groupCands i tuned g s) ∧
    SameHead s (groupCands i tuned g s) ∧ SamePlan s (groupCands i tuned g s) ∧ SamePort s (groupCands i tuned g s) ∧
    SameSizes s (groupCands i tuned g s) ∧ (groupCands i tuned g s).front = s.front := by
  unfold groupCands; (repeat' split) <;> simp [learnCand_frame ..]

theorem findProgramme_frame (i : Nat) (d : CompDecl) (s : State) : SameBase s (findProgramme i d s) ∧ SameStore s
    (findProgramme i d s) ∧ SameSecure s (findProgramme i d s) ∧ SameMix s (findProgramme i d s) ∧ SamePlan s
    (findProgramme i d s) ∧ SameSizes s (findProgramme i d s) ∧ (findProgramme i d s).front = s.front ∧ (findProgramme i d
    s).cal = s.cal := by
  unfold findProgramme; split <;> simp

theorem renewProgramme_frame (p : Programme) (d : CompDecl) (s : State) : SameBase s (renewProgramme p d s) ∧
    SameStore s (renewProgramme p d s) ∧ SameSecure s (renewProgramme p d s) ∧ SameMix s (renewProgramme p d s) ∧ SameHead
    s (renewProgramme p d s) ∧ SamePlan s (renewProgramme p d s) ∧ SameSizes s (renewProgramme p d s) ∧ (renewProgramme p
    d s).front = s.front := by
  unfold renewProgramme; simp [recharge_frame .., reportDecode_frame ..]

theorem noteUntracked_frame (i : Nat) (s : State) : SameBase s (noteUntracked i s) ∧ SameStore s (noteUntracked i s) ∧
    SameSecure s (noteUntracked i s) ∧ SameHead s (noteUntracked i s) ∧ SamePlan s (noteUntracked i s) ∧ SameSizes s
    (noteUntracked i s) ∧ (noteUntracked i s).front = s.front ∧ (noteUntracked i s).mix = s.mix := by
  unfold noteUntracked; split <;> simp

theorem compatSelect_frame (c : Nat) (s : State) : SameBase s (compatSelect c s) ∧ SameStore s (compatSelect c s) ∧
    SameSecure s (compatSelect c s) ∧ SameMix s (compatSelect c s) ∧ SamePlan s (compatSelect c s) ∧ SameSizes s
    (compatSelect c s) ∧ (compatSelect c s).front = s.front ∧ (compatSelect c s).gens = s.gens ∧ (compatSelect c s).cal =
    s.cal := by
  unfold compatSelect; dsimp only; (repeat' split) <;> simp

theorem compatRoute_frame (s : State) : SameBase s (compatRoute s) ∧ SameStore s (compatRoute s) ∧ SameSecure s
    (compatRoute s) ∧ SameMix s (compatRoute s) ∧ SameHead s (compatRoute s) ∧ SamePlan s (compatRoute s) ∧ SamePort s
    (compatRoute s) ∧ SameSizes s (compatRoute s) ∧ (compatRoute s).front = s.front := by
  unfold compatRoute; simp

@[simp] theorem compatFollow_frame (s : State) : SameBase s (compatFollow s) ∧ SameStore s (compatFollow s) ∧
    SameSecure s (compatFollow s) ∧ SameMix s (compatFollow s) ∧ SamePlan s (compatFollow s) ∧ SameSizes s (compatFollow
    s) ∧ (compatFollow s).front = s.front ∧ (compatFollow s).gens = s.gens ∧ (compatFollow s).cal = s.cal := by
  unfold compatFollow; simp [compatSelect_frame .., compatRoute_frame ..]

theorem applyComp_frame (i : Nat) (d : CompDecl) (s : State) : SameBase s (applyComp i d s) ∧ SameStore s (applyComp i
    d s) ∧ SameSecure s (applyComp i d s) ∧ SameMix s (applyComp i d s) ∧ SamePlan s (applyComp i d s) ∧ SameSizes s
    (applyComp i d s) ∧ (applyComp i d s).front = s.front ∧ (applyComp i d s).cal = s.cal := by
  unfold applyComp; split <;> simp [findProgramme_frame .., renewProgramme_frame ..]

theorem applyComps_frame (i : Nat) (all : List CompDecl) (s : State) : SameBase s (applyComps i all s) ∧ SameStore s
    (applyComps i all s) ∧ SameSecure s (applyComps i all s) ∧ SamePlan s (applyComps i all s) ∧ SameSizes s (applyComps i
    all s) ∧ (applyComps i all s).front = s.front ∧ (applyComps i all s).mix = s.mix ∧ (applyComps i all s).cal = s.cal :=
    by
  unfold applyComps; simp [noteUntracked_frame .., applyComp_frame ..]

theorem trackFrom_frame (x0 : Nat) (x1 : State) : SameBase x1 (trackFrom x0 x1) ∧ SameStore x1 (trackFrom x0 x1) ∧
    SameSecure x1 (trackFrom x0 x1) ∧ SameMix x1 (trackFrom x0 x1) ∧ SamePlan x1 (trackFrom x0 x1) ∧ SameSizes x1
    (trackFrom x0 x1) ∧ (trackFrom x0 x1).front = x1.front ∧ (trackFrom x0 x1).cal = x1.cal := by
  induction x0 generalizing x1 with
  | zero => simp [trackFrom]
  | succ k ih => unfold trackFrom; (repeat' split) <;> simp [findProgramme_frame .., ih]

@[simp] theorem trackMore_frame (s : State) : SameBase s (trackMore s) ∧ SameStore s (trackMore s) ∧ SameSecure s
    (trackMore s) ∧ SameMix s (trackMore s) ∧ SamePlan s (trackMore s) ∧ SameSizes s (trackMore s) ∧ (trackMore s).front =
    s.front ∧ (trackMore s).cal = s.cal := by
  unfold trackMore; simp_all [trackFrom_frame ..]

theorem addAnalogueProgramme_frame (i : Nat) (s : State) : SameBase s (addAnalogueProgramme i s) ∧ SameStore s
    (addAnalogueProgramme i s) ∧ SameSecure s (addAnalogueProgramme i s) ∧ SameMix s (addAnalogueProgramme i s) ∧ SamePlan
    s (addAnalogueProgramme i s) ∧ SamePort s (addAnalogueProgramme i s) ∧ SameSizes s (addAnalogueProgramme i s) ∧
    (addAnalogueProgramme i s).front = s.front ∧ (addAnalogueProgramme i s).cal = s.cal := by
  unfold addAnalogueProgramme; simp

@[simp] theorem createReception_frame (i : Nat) (mark : Bool) (p : List Byte) (s : State) : SameBase s
    (createReception i mark p s).1 ∧ SameStore s (createReception i mark p s).1 ∧ SameSecure s (createReception i mark p
    s).1 ∧ SameMix s (createReception i mark p s).1 ∧ SamePlan s (createReception i mark p s).1 ∧ SamePort s
    (createReception i mark p s).1 ∧ SameSizes s (createReception i mark p s).1 ∧ (createReception i mark p s).1.front =
    s.front ∧ (createReception i mark p s).1.cal = s.cal := by
  unfold createReception; simp [addAnalogueProgramme_frame ..]

@[simp] theorem changeReception_frame (i : Nat) (p : List Byte) (s : State) : SameBase s (changeReception i p s).1 ∧
    SameStore s (changeReception i p s).1 ∧ SameSecure s (changeReception i p s).1 ∧ SameMix s (changeReception i p s).1 ∧
    SameHead s (changeReception i p s).1 ∧ SamePlan s (changeReception i p s).1 ∧ SamePort s (changeReception i p s).1 ∧
    SameSizes s (changeReception i p s).1 ∧ (changeReception i p s).1.front = s.front := by
  unfold changeReception; split <;> simp

theorem freshLoudness_frame (i : Nat) (s : State) : SameBase s (freshLoudness i s) ∧ SameStore s (freshLoudness i s) ∧
    SameSecure s (freshLoudness i s) ∧ SameMix s (freshLoudness i s) ∧ SameHead s (freshLoudness i s) ∧ SamePlan s
    (freshLoudness i s) ∧ SamePort s (freshLoudness i s) ∧ SameSizes s (freshLoudness i s) ∧ (freshLoudness i s).front =
    s.front := by
  unfold freshLoudness; simp

@[simp] theorem afterMove_frame (i : Nat) (moved : Bool) (cause : Option Nat) (s : State) : SameBase s (afterMove i
    moved cause s) ∧ SameStore s (afterMove i moved cause s) ∧ SameHead s (afterMove i moved cause s) ∧ SameSizes s
    (afterMove i moved cause s) ∧ (afterMove i moved cause s).sec = s.sec ∧ (afterMove i moved cause s).survey = s.survey
    ∧ (afterMove i moved cause s).plan = s.plan ∧ (afterMove i moved cause s).time = s.time := by
  unfold afterMove; (repeat' split) <;> simp [loseReception_frame .., freshLoudness_frame ..]

theorem receptionAddBody_frame (f : CmdFrame) (s : State) : SameBase s (receptionAddBody f s).1 ∧ SameStore s
    (receptionAddBody f s).1 ∧ SameSizes s (receptionAddBody f s).1 ∧ (receptionAddBody f s).1.sec = s.sec ∧
    (receptionAddBody f s).1.survey = s.survey ∧ (receptionAddBody f s).1.cal = s.cal ∧ (receptionAddBody f s).1.time =
    s.time := by
  unfold receptionAddBody; simp

theorem receptionSetBody_frame (f : CmdFrame) (s : State) : SameBase s (receptionSetBody f s).1 ∧ SameStore s
    (receptionSetBody f s).1 ∧ SameHead s (receptionSetBody f s).1 ∧ SameSizes s (receptionSetBody f s).1 ∧
    (receptionSetBody f s).1.sec = s.sec ∧ (receptionSetBody f s).1.survey = s.survey ∧ (receptionSetBody f s).1.time =
    s.time := by
  unfold receptionSetBody; simp

theorem shutReception_frame (i : Nat) (cause : Nat) (s : State) : SameBase s (shutReception i cause s) ∧ SameStore s
    (shutReception i cause s) ∧ SameHead s (shutReception i cause s) ∧ SameSizes s (shutReception i cause s) ∧
    (shutReception i cause s).sec = s.sec ∧ (shutReception i cause s).survey = s.survey ∧ (shutReception i cause s).time =
    s.time := by
  unfold shutReception; split <;> simp [finishReception_frame ..]

theorem receptionRemoveBody_frame (f : CmdFrame) (s : State) : SameBase s (receptionRemoveBody f s).1 ∧ SameStore s
    (receptionRemoveBody f s).1 ∧ SameSizes s (receptionRemoveBody f s).1 ∧ (receptionRemoveBody f s).1.sec = s.sec ∧
    (receptionRemoveBody f s).1.survey = s.survey ∧ (receptionRemoveBody f s).1.cal = s.cal ∧ (receptionRemoveBody f
    s).1.time = s.time := by
  unfold receptionRemoveBody; simp [shutReception_frame ..]

theorem getReceptionBody_frame (f : CmdFrame) (s : State) : SameBase s (getReceptionBody f s).1 ∧ SameStore s
    (getReceptionBody f s).1 ∧ SameSecure s (getReceptionBody f s).1 ∧ SameObjects s (getReceptionBody f s).1 ∧ SameMix s
    (getReceptionBody f s).1 ∧ SameHead s (getReceptionBody f s).1 ∧ SamePlan s (getReceptionBody f s).1 ∧ SamePort s
    (getReceptionBody f s).1 ∧ SameSizes s (getReceptionBody f s).1 := by
  unfold getReceptionBody; simp

theorem createBranch_frame (i : Nat) (mark : Bool) (rx : Nat) (s : State) : SameBase s (createBranch i mark rx s) ∧
    SameStore s (createBranch i mark rx s) ∧ SameSecure s (createBranch i mark rx s) ∧ SameMix s (createBranch i mark rx
    s) ∧ SamePlan s (createBranch i mark rx s) ∧ SamePort s (createBranch i mark rx s) ∧ SameSizes s (createBranch i mark
    rx s) ∧ (createBranch i mark rx s).front = s.front ∧ (createBranch i mark rx s).cal = s.cal := by
  unfold createBranch; split <;> simp

theorem branchAddBody_frame (f : CmdFrame) (s : State) : SameBase s (branchAddBody f s).1 ∧ SameStore s (branchAddBody
    f s).1 ∧ SameSizes s (branchAddBody f s).1 ∧ (branchAddBody f s).1.sec = s.sec ∧ (branchAddBody f s).1.survey =
    s.survey ∧ (branchAddBody f s).1.cal = s.cal ∧ (branchAddBody f s).1.time = s.time := by
  unfold branchAddBody; simp [createBranch_frame ..]

theorem branchRemoveBody_frame (f : CmdFrame) (s : State) : SameBase s (branchRemoveBody f s).1 ∧ SameStore s
    (branchRemoveBody f s).1 ∧ SameHead s (branchRemoveBody f s).1 ∧ SameSizes s (branchRemoveBody f s).1 ∧
    (branchRemoveBody f s).1.sec = s.sec ∧ (branchRemoveBody f s).1.survey = s.survey ∧ (branchRemoveBody f s).1.time =
    s.time := by
  unfold branchRemoveBody; simp [shutBranch_frame ..]

theorem createTap_frame (i : Nat) (mark : Bool) (p : List Byte) (s : State) : SameBase s (createTap i mark p s).1 ∧
    SameStore s (createTap i mark p s).1 ∧ SameSecure s (createTap i mark p s).1 ∧ SameMix s (createTap i mark p s).1 ∧
    SamePlan s (createTap i mark p s).1 ∧ SamePort s (createTap i mark p s).1 ∧ SameSizes s (createTap i mark p s).1 ∧
    (createTap i mark p s).1.front = s.front ∧ (createTap i mark p s).1.cal = s.cal := by
  unfold createTap; simp

theorem changeTap_frame (i : Nat) (p : List Byte) (s : State) : SameBase s (changeTap i p s).1 ∧ SameStore s
    (changeTap i p s).1 ∧ SameSecure s (changeTap i p s).1 ∧ SameMix s (changeTap i p s).1 ∧ SameHead s (changeTap i p
    s).1 ∧ SamePlan s (changeTap i p s).1 ∧ SamePort s (changeTap i p s).1 ∧ SameSizes s (changeTap i p s).1 ∧ (changeTap
    i p s).1.front = s.front := by
  unfold changeTap; simp

theorem tapAddBody_frame (f : CmdFrame) (s : State) : SameBase s (tapAddBody f s).1 ∧ SameStore s (tapAddBody f s).1 ∧
    SameSizes s (tapAddBody f s).1 ∧ (tapAddBody f s).1.sec = s.sec ∧ (tapAddBody f s).1.survey = s.survey ∧ (tapAddBody f
    s).1.cal = s.cal ∧ (tapAddBody f s).1.time = s.time := by
  unfold tapAddBody; simp [createTap_frame ..]

theorem shutTap_frame (i : Nat) (cause : Nat) (s : State) : SameBase s (shutTap i cause s) ∧ SameStore s (shutTap i
    cause s) ∧ SameSecure s (shutTap i cause s) ∧ SameMix s (shutTap i cause s) ∧ SameHead s (shutTap i cause s) ∧
    SameSizes s (shutTap i cause s) ∧ (shutTap i cause s).front = s.front ∧ (shutTap i cause s).time = s.time ∧ (shutTap i
    cause s).compat = s.compat := by
  unfold shutTap; split <;> simp [finishTap_frame ..]

theorem tapRemoveBody_frame (f : CmdFrame) (s : State) : SameBase s (tapRemoveBody f s).1 ∧ SameStore s (tapRemoveBody
    f s).1 ∧ SameSecure s (tapRemoveBody f s).1 ∧ SameMix s (tapRemoveBody f s).1 ∧ SameHead s (tapRemoveBody f s).1 ∧
    SameSizes s (tapRemoveBody f s).1 ∧ (tapRemoveBody f s).1.front = s.front ∧ (tapRemoveBody f s).1.time = s.time ∧
    (tapRemoveBody f s).1.compat = s.compat := by
  unfold tapRemoveBody; simp [shutTap_frame ..]

theorem getChainBody_frame (f : CmdFrame) (s : State) : SameBase s (getChainBody f s).1 ∧ SameStore s (getChainBody f
    s).1 ∧ SameSecure s (getChainBody f s).1 ∧ SameObjects s (getChainBody f s).1 ∧ SameMix s (getChainBody f s).1 ∧
    SameHead s (getChainBody f s).1 ∧ SamePlan s (getChainBody f s).1 ∧ SamePort s (getChainBody f s).1 ∧ SameSizes s
    (getChainBody f s).1 := by
  unfold getChainBody; simp

@[simp] theorem applyAlertSet_frame (i : Nat) (p : List Byte) (cause : Option Nat) (s : State) : SameBase s
    (applyAlertSet i p cause s) ∧ SameStore s (applyAlertSet i p cause s) ∧ SameSecure s (applyAlertSet i p cause s) ∧
    SameHead s (applyAlertSet i p cause s) ∧ SameSizes s (applyAlertSet i p cause s) ∧ (applyAlertSet i p cause s).front =
    s.front ∧ (applyAlertSet i p cause s).mix = s.mix ∧ (applyAlertSet i p cause s).plan = s.plan ∧ (applyAlertSet i p
    cause s).time = s.time := by
  unfold applyAlertSet; split <;> simp

theorem alertSetBody_frame (f : CmdFrame) (s : State) : SameBase s (alertSetBody f s).1 ∧ SameStore s (alertSetBody f
    s).1 ∧ SameSecure s (alertSetBody f s).1 ∧ SameHead s (alertSetBody f s).1 ∧ SameSizes s (alertSetBody f s).1 ∧
    (alertSetBody f s).1.front = s.front ∧ (alertSetBody f s).1.mix = s.mix ∧ (alertSetBody f s).1.time = s.time := by
  unfold alertSetBody; simp

theorem getAlertBody_frame (f : CmdFrame) (s : State) : SameBase s (getAlertBody f s).1 ∧ SameStore s (getAlertBody f
    s).1 ∧ SameSecure s (getAlertBody f s).1 ∧ SameObjects s (getAlertBody f s).1 ∧ SameMix s (getAlertBody f s).1 ∧
    SameHead s (getAlertBody f s).1 ∧ SamePlan s (getAlertBody f s).1 ∧ SamePort s (getAlertBody f s).1 ∧ SameSizes s
    (getAlertBody f s).1 := by
  unfold getAlertBody; simp

@[simp] theorem loadBank_frame (i : Nat) (p : List Byte) (s : State) : SameBase s (loadBank i p s).1 ∧ SameStore s
    (loadBank i p s).1 ∧ SameSecure s (loadBank i p s).1 ∧ SameObjects s (loadBank i p s).1 ∧ SameHead s (loadBank i p
    s).1 ∧ SamePlan s (loadBank i p s).1 ∧ SamePort s (loadBank i p s).1 ∧ SameSizes s (loadBank i p s).1 ∧ (loadBank i p
    s).1.health = s.health := by
  unfold loadBank; simp

theorem bankLoadBody_frame (f : CmdFrame) (s : State) : SameBase s (bankLoadBody f s).1 ∧ SameStore s (bankLoadBody f
    s).1 ∧ SameSecure s (bankLoadBody f s).1 ∧ SameObjects s (bankLoadBody f s).1 ∧ SameHead s (bankLoadBody f s).1 ∧
    SamePort s (bankLoadBody f s).1 ∧ SameSizes s (bankLoadBody f s).1 ∧ (bankLoadBody f s).1.health = s.health ∧
    (bankLoadBody f s).1.time = s.time ∧ (bankLoadBody f s).1.compat = s.compat := by
  unfold bankLoadBody; simp

theorem getBankBody_frame (f : CmdFrame) (s : State) : SameBase s (getBankBody f s).1 ∧ SameStore s (getBankBody f
    s).1 ∧ SameSecure s (getBankBody f s).1 ∧ SameObjects s (getBankBody f s).1 ∧ SameMix s (getBankBody f s).1 ∧ SameHead
    s (getBankBody f s).1 ∧ SamePlan s (getBankBody f s).1 ∧ SamePort s (getBankBody f s).1 ∧ SameSizes s (getBankBody f
    s).1 := by
  unfold getBankBody; simp

@[simp] theorem loadCurve_frame (i : Nat) (p : List Byte) (s : State) : SameBase s (loadCurve i p s) ∧ SameStore s
    (loadCurve i p s) ∧ SameSecure s (loadCurve i p s) ∧ SameObjects s (loadCurve i p s) ∧ SameHead s (loadCurve i p s) ∧
    SamePlan s (loadCurve i p s) ∧ SamePort s (loadCurve i p s) ∧ SameSizes s (loadCurve i p s) ∧ (loadCurve i p s).health
    = s.health := by
  unfold loadCurve; simp

theorem curveLoadBody_frame (f : CmdFrame) (s : State) : SameBase s (curveLoadBody f s).1 ∧ SameStore s (curveLoadBody
    f s).1 ∧ SameSecure s (curveLoadBody f s).1 ∧ SameObjects s (curveLoadBody f s).1 ∧ SameHead s (curveLoadBody f s).1 ∧
    SamePort s (curveLoadBody f s).1 ∧ SameSizes s (curveLoadBody f s).1 ∧ (curveLoadBody f s).1.health = s.health ∧
    (curveLoadBody f s).1.time = s.time ∧ (curveLoadBody f s).1.compat = s.compat := by
  unfold curveLoadBody; simp

theorem getCurveBody_frame (f : CmdFrame) (s : State) : SameBase s (getCurveBody f s).1 ∧ SameStore s (getCurveBody f
    s).1 ∧ SameSecure s (getCurveBody f s).1 ∧ SameObjects s (getCurveBody f s).1 ∧ SameMix s (getCurveBody f s).1 ∧
    SameHead s (getCurveBody f s).1 ∧ SamePlan s (getCurveBody f s).1 ∧ SamePort s (getCurveBody f s).1 ∧ SameSizes s
    (getCurveBody f s).1 := by
  unfold getCurveBody; simp

theorem setStanding_frame (f : CmdFrame) (g : Standing → Standing) (s : State) : SameBase s (setStanding f g s) ∧
    SameStore s (setStanding f g s) ∧ SameSecure s (setStanding f g s) ∧ SameMix s (setStanding f g s) ∧ SamePlan s
    (setStanding f g s) ∧ SamePort s (setStanding f g s) ∧ SameSizes s (setStanding f g s) ∧ (setStanding f g s).front =
    s.front ∧ (setStanding f g s).gens = s.gens ∧ (setStanding f g s).cal = s.cal := by
  unfold setStanding; simp

theorem selectOn_frame (i : Nat) (reserve : Bool) (cause : Option Nat) (s : State) : SameBase s (selectOn i reserve
    cause s) ∧ SameStore s (selectOn i reserve cause s) ∧ SameSecure s (selectOn i reserve cause s) ∧ SameMix s (selectOn
    i reserve cause s) ∧ SamePlan s (selectOn i reserve cause s) ∧ SameSizes s (selectOn i reserve cause s) ∧ (selectOn i
    reserve cause s).front = s.front ∧ (selectOn i reserve cause s).gens = s.gens ∧ (selectOn i reserve cause s).cal =
    s.cal := by
  unfold selectOn; simp [reportDecode_frame ..]

theorem selectOff_frame (i : Nat) (s : State) : SameBase s (selectOff i s) ∧ SameStore s (selectOff i s) ∧ SameSecure
    s (selectOff i s) ∧ SameMix s (selectOff i s) ∧ SameHead s (selectOff i s) ∧ SamePlan s (selectOff i s) ∧ SameSizes s
    (selectOff i s) ∧ (selectOff i s).front = s.front := by
  unfold selectOff; split <;> simp

@[simp] theorem applySelect_frame (f : CmdFrame) (s : State) : SameBase s (applySelect f s) ∧ SameStore s (applySelect
    f s) ∧ SameSecure s (applySelect f s) ∧ SameMix s (applySelect f s) ∧ SamePlan s (applySelect f s) ∧ SameSizes s
    (applySelect f s) ∧ (applySelect f s).front = s.front ∧ (applySelect f s).gens = s.gens ∧ (applySelect f s).cal =
    s.cal := by
  unfold applySelect; dsimp only; split <;> simp [setStanding_frame .., selectOn_frame .., selectOff_frame ..]

theorem programmeSelectBody_frame (f : CmdFrame) (s : State) : SameBase s (programmeSelectBody f s).1 ∧ SameStore s
    (programmeSelectBody f s).1 ∧ SameSizes s (programmeSelectBody f s).1 ∧ (programmeSelectBody f s).1.sec = s.sec ∧
    (programmeSelectBody f s).1.survey = s.survey ∧ (programmeSelectBody f s).1.gens = s.gens ∧ (programmeSelectBody f
    s).1.cal = s.cal ∧ (programmeSelectBody f s).1.time = s.time := by
  unfold programmeSelectBody; simp

theorem measureOn_frame (i : Nat) (interval : Nat) (silence : Nat) (th : Int) (s : State) : SameBase s (measureOn i
    interval silence th s) ∧ SameStore s (measureOn i interval silence th s) ∧ SameSecure s (measureOn i interval silence
    th s) ∧ SameMix s (measureOn i interval silence th s) ∧ SameHead s (measureOn i interval silence th s) ∧ SamePlan s
    (measureOn i interval silence th s) ∧ SamePort s (measureOn i interval silence th s) ∧ SameSizes s (measureOn i
    interval silence th s) ∧ (measureOn i interval silence th s).front = s.front := by
  unfold measureOn; dsimp only; (repeat' split) <;> simp [beginMeasures_frame ..]

theorem measureOff_frame (i : Nat) (interval : Nat) (silence : Nat) (th : Int) (s : State) : SameBase s (measureOff i
    interval silence th s) ∧ SameStore s (measureOff i interval silence th s) ∧ SameSecure s (measureOff i interval
    silence th s) ∧ SameMix s (measureOff i interval silence th s) ∧ SameHead s (measureOff i interval silence th s) ∧
    SamePlan s (measureOff i interval silence th s) ∧ SamePort s (measureOff i interval silence th s) ∧ SameSizes s
    (measureOff i interval silence th s) ∧ (measureOff i interval silence th s).front = s.front := by
  unfold measureOff; simp

@[simp] theorem applyMeasure_frame (f : CmdFrame) (s : State) : SameBase s (applyMeasure f s) ∧ SameStore s
    (applyMeasure f s) ∧ SameSecure s (applyMeasure f s) ∧ SameMix s (applyMeasure f s) ∧ SamePlan s (applyMeasure f s) ∧
    SamePort s (applyMeasure f s) ∧ SameSizes s (applyMeasure f s) ∧ (applyMeasure f s).front = s.front ∧ (applyMeasure f
    s).gens = s.gens ∧ (applyMeasure f s).cal = s.cal := by
  unfold applyMeasure; dsimp only; (repeat' split) <;> simp [setStanding_frame .., measureOn_frame .., measureOff_frame ..]

theorem programmeMeasureBody_frame (f : CmdFrame) (s : State) : SameBase s (programmeMeasureBody f s).1 ∧ SameStore s
    (programmeMeasureBody f s).1 ∧ SameSizes s (programmeMeasureBody f s).1 ∧ (programmeMeasureBody f s).1.sec = s.sec ∧
    (programmeMeasureBody f s).1.survey = s.survey ∧ (programmeMeasureBody f s).1.gens = s.gens ∧ (programmeMeasureBody f
    s).1.cal = s.cal ∧ (programmeMeasureBody f s).1.time = s.time := by
  unfold programmeMeasureBody; simp

theorem getProgrammeBody_frame (f : CmdFrame) (s : State) : SameBase s (getProgrammeBody f s).1 ∧ SameStore s
    (getProgrammeBody f s).1 ∧ SameSecure s (getProgrammeBody f s).1 ∧ SameObjects s (getProgrammeBody f s).1 ∧ SameMix s
    (getProgrammeBody f s).1 ∧ SameHead s (getProgrammeBody f s).1 ∧ SamePlan s (getProgrammeBody f s).1 ∧ SamePort s
    (getProgrammeBody f s).1 ∧ SameSizes s (getProgrammeBody f s).1 := by
  unfold getProgrammeBody; simp

theorem programmeListBody_frame (f : CmdFrame) (s : State) : SameBase s (programmeListBody f s).1 ∧ SameStore s
    (programmeListBody f s).1 ∧ SameSecure s (programmeListBody f s).1 ∧ SameObjects s (programmeListBody f s).1 ∧ SameMix
    s (programmeListBody f s).1 ∧ SameHead s (programmeListBody f s).1 ∧ SamePlan s (programmeListBody f s).1 ∧ SamePort s
    (programmeListBody f s).1 ∧ SameSizes s (programmeListBody f s).1 := by
  unfold programmeListBody; simp

theorem createPcm_frame (i : Nat) (mark : Bool) (p : List Byte) (s : State) : SameBase s (createPcm i mark p s).1 ∧
    SameStore s (createPcm i mark p s).1 ∧ SameSecure s (createPcm i mark p s).1 ∧ SameMix s (createPcm i mark p s).1 ∧
    SamePlan s (createPcm i mark p s).1 ∧ SamePort s (createPcm i mark p s).1 ∧ SameSizes s (createPcm i mark p s).1 ∧
    (createPcm i mark p s).1.front = s.front ∧ (createPcm i mark p s).1.cal = s.cal := by
  unfold createPcm; simp

@[simp] theorem changePcm_frame (i : Nat) (p : List Byte) (s : State) : SameBase s (changePcm i p s).1 ∧ SameStore s
    (changePcm i p s).1 ∧ SameSecure s (changePcm i p s).1 ∧ SameMix s (changePcm i p s).1 ∧ SameHead s (changePcm i p
    s).1 ∧ SamePlan s (changePcm i p s).1 ∧ SamePort s (changePcm i p s).1 ∧ SameSizes s (changePcm i p s).1 ∧ (changePcm
    i p s).1.front = s.front := by
  unfold changePcm; simp

theorem applyPcm_frame (f : CmdFrame) (s : State) : SameBase s (applyPcm f s).1 ∧ SameStore s (applyPcm f s).1 ∧
    SameSecure s (applyPcm f s).1 ∧ SameMix s (applyPcm f s).1 ∧ SamePlan s (applyPcm f s).1 ∧ SamePort s (applyPcm f s).1
    ∧ SameSizes s (applyPcm f s).1 ∧ (applyPcm f s).1.front = s.front ∧ (applyPcm f s).1.cal = s.cal := by
  unfold applyPcm; simp [createPcm_frame ..]

theorem pcmRouteBody_frame (f : CmdFrame) (s : State) : SameBase s (pcmRouteBody f s).1 ∧ SameStore s (pcmRouteBody f
    s).1 ∧ SameSecure s (pcmRouteBody f s).1 ∧ SameMix s (pcmRouteBody f s).1 ∧ SamePort s (pcmRouteBody f s).1 ∧
    SameSizes s (pcmRouteBody f s).1 ∧ (pcmRouteBody f s).1.front = s.front ∧ (pcmRouteBody f s).1.cal = s.cal ∧
    (pcmRouteBody f s).1.time = s.time ∧ (pcmRouteBody f s).1.compat = s.compat := by
  unfold pcmRouteBody; simp [applyPcm_frame ..]

theorem shutPcm_frame (i : Nat) (cause : Nat) (s : State) : SameBase s (shutPcm i cause s) ∧ SameStore s (shutPcm i
    cause s) ∧ SameHead s (shutPcm i cause s) ∧ SameSizes s (shutPcm i cause s) ∧ (shutPcm i cause s).sec = s.sec ∧
    (shutPcm i cause s).survey = s.survey ∧ (shutPcm i cause s).time = s.time := by
  unfold shutPcm; split <;> simp [finishPcm_frame .., stopPcms_frame .., modPcm_frame ..]

theorem pcmRemoveBody_frame (f : CmdFrame) (s : State) : SameBase s (pcmRemoveBody f s).1 ∧ SameStore s (pcmRemoveBody
    f s).1 ∧ SameHead s (pcmRemoveBody f s).1 ∧ SameSizes s (pcmRemoveBody f s).1 ∧ (pcmRemoveBody f s).1.sec = s.sec ∧
    (pcmRemoveBody f s).1.survey = s.survey ∧ (pcmRemoveBody f s).1.time = s.time := by
  unfold pcmRemoveBody; simp [shutPcm_frame ..]

theorem getPcmBody_frame (f : CmdFrame) (s : State) : SameBase s (getPcmBody f s).1 ∧ SameStore s (getPcmBody f s).1 ∧
    SameSecure s (getPcmBody f s).1 ∧ SameObjects s (getPcmBody f s).1 ∧ SameMix s (getPcmBody f s).1 ∧ SameHead s
    (getPcmBody f s).1 ∧ SamePlan s (getPcmBody f s).1 ∧ SamePort s (getPcmBody f s).1 ∧ SameSizes s (getPcmBody f s).1 :=
    by
  unfold getPcmBody; simp

theorem tdmConfigBody_frame (f : CmdFrame) (s : State) : SameBase s (tdmConfigBody f s).1 ∧ SameSecure s
    (tdmConfigBody f s).1 ∧ SameObjects s (tdmConfigBody f s).1 ∧ SameMix s (tdmConfigBody f s).1 ∧ SameHead s
    (tdmConfigBody f s).1 ∧ SamePlan s (tdmConfigBody f s).1 ∧ SamePort s (tdmConfigBody f s).1 ∧ SameSizes s
    (tdmConfigBody f s).1 ∧ (tdmConfigBody f s).1.link = s.link ∧ (tdmConfigBody f s).1.stats = s.stats := by
  unfold tdmConfigBody; simp

theorem getTdmConfigBody_frame (f : CmdFrame) (s : State) : SameBase s (getTdmConfigBody f s).1 ∧ SameStore s
    (getTdmConfigBody f s).1 ∧ SameSecure s (getTdmConfigBody f s).1 ∧ SameObjects s (getTdmConfigBody f s).1 ∧ SameMix s
    (getTdmConfigBody f s).1 ∧ SameHead s (getTdmConfigBody f s).1 ∧ SamePlan s (getTdmConfigBody f s).1 ∧ SamePort s
    (getTdmConfigBody f s).1 ∧ SameSizes s (getTdmConfigBody f s).1 := by
  unfold getTdmConfigBody; simp

theorem finishObj_frame (cls : ObjClass) (i : Nat) (cause : Option Nat) (s : State) : SameBase s (finishObj cls i
    cause s) ∧ SameStore s (finishObj cls i cause s) ∧ SameHead s (finishObj cls i cause s) ∧ SameSizes s (finishObj cls i
    cause s) ∧ (finishObj cls i cause s).sec = s.sec ∧ (finishObj cls i cause s).survey = s.survey ∧ (finishObj cls i
    cause s).time = s.time := by
  unfold finishObj; split <;> simp [finishBranch_frame .., finishProbe_frame .., finishTap_frame .., finishBlend_frame .., finishPcm_frame ..]

theorem objectRemoved_frame (cls : ObjClass) (i : Nat) (s : State) : SameBase s (objectRemoved cls i s) ∧ SameStore s
    (objectRemoved cls i s) ∧ SameSizes s (objectRemoved cls i s) ∧ (objectRemoved cls i s).sec = s.sec ∧ (objectRemoved
    cls i s).survey = s.survey ∧ (objectRemoved cls i s).cal = s.cal ∧ (objectRemoved cls i s).time = s.time := by
  unfold objectRemoved; simp [pcmRouteBody_frame .., finishObj_frame ..]

theorem applyBind_frame (code : Nat) (cls : Nat) (h : Handle) (ring : Nat) (s : State) : SameBase s (applyBind code
    cls h ring s) ∧ SameStore s (applyBind code cls h ring s) ∧ SameSecure s (applyBind code cls h ring s) ∧ SameMix s
    (applyBind code cls h ring s) ∧ SameHead s (applyBind code cls h ring s) ∧ SameSizes s (applyBind code cls h ring s) ∧
    (applyBind code cls h ring s).front = s.front ∧ (applyBind code cls h ring s).time = s.time ∧ (applyBind code cls h
    ring s).compat = s.compat ∧ (applyBind code cls h ring s).out = s.out := by
  unfold applyBind; simp

theorem bindFrame_frame (f : CmdFrame) (s : State) : SameBase s (bindFrame f s) ∧ SameStore s (bindFrame f s) ∧
    SameSecure s (bindFrame f s) ∧ SameMix s (bindFrame f s) ∧ SameHead s (bindFrame f s) ∧ SameSizes s (bindFrame f s) ∧
    (bindFrame f s).front = s.front ∧ (bindFrame f s).time = s.time ∧ (bindFrame f s).compat = s.compat ∧ (bindFrame f
    s).out = s.out := by
  unfold bindFrame; simp [applyBind_frame ..]

theorem ringBindBody_frame (f : CmdFrame) (s : State) : SameBase s (ringBindBody f s).1 ∧ SameStore s (ringBindBody f
    s).1 ∧ SameSecure s (ringBindBody f s).1 ∧ SameMix s (ringBindBody f s).1 ∧ SameHead s (ringBindBody f s).1 ∧
    SameSizes s (ringBindBody f s).1 ∧ (ringBindBody f s).1.front = s.front ∧ (ringBindBody f s).1.time = s.time ∧
    (ringBindBody f s).1.compat = s.compat ∧ (ringBindBody f s).1.out = s.out := by
  unfold ringBindBody; simp [bindFrame_frame ..]

theorem getBindBody_frame (f : CmdFrame) (s : State) : SameBase s (getBindBody f s).1 ∧ SameStore s (getBindBody f
    s).1 ∧ SameSecure s (getBindBody f s).1 ∧ SameObjects s (getBindBody f s).1 ∧ SameMix s (getBindBody f s).1 ∧ SameHead
    s (getBindBody f s).1 ∧ SamePlan s (getBindBody f s).1 ∧ SamePort s (getBindBody f s).1 ∧ SameSizes s (getBindBody f
    s).1 := by
  unfold getBindBody; simp

theorem getPortLoadBody_frame (f : CmdFrame) (s : State) : SameBase s (getPortLoadBody f s).1 ∧ SameStore s
    (getPortLoadBody f s).1 ∧ SameSecure s (getPortLoadBody f s).1 ∧ SameObjects s (getPortLoadBody f s).1 ∧ SameMix s
    (getPortLoadBody f s).1 ∧ SameHead s (getPortLoadBody f s).1 ∧ SamePlan s (getPortLoadBody f s).1 ∧ SamePort s
    (getPortLoadBody f s).1 ∧ SameSizes s (getPortLoadBody f s).1 := by
  unfold getPortLoadBody; simp

theorem blendGo_frame (i : Nat) (st : BlendState) (cause : Option Nat) (s : State) : SameBase s (blendGo i st cause s)
    ∧ SameStore s (blendGo i st cause s) ∧ SameSecure s (blendGo i st cause s) ∧ SameObjects s (blendGo i st cause s) ∧
    SameHead s (blendGo i st cause s) ∧ SamePlan s (blendGo i st cause s) ∧ SameSizes s (blendGo i st cause s) ∧ (blendGo
    i st cause s).health = s.health := by
  unfold blendGo; simp [blendTo_frame ..]

theorem startFade_frame (i : Nat) (br : Nat) (cause : Option Nat) (s : State) : SameBase s (startFade i br cause s) ∧
    SameStore s (startFade i br cause s) ∧ SameSecure s (startFade i br cause s) ∧ SameObjects s (startFade i br cause s)
    ∧ SameHead s (startFade i br cause s) ∧ SamePlan s (startFade i br cause s) ∧ SameSizes s (startFade i br cause s) ∧
    (startFade i br cause s).health = s.health := by
  unfold startFade; split <;> simp [blendGo_frame ..]

theorem startMotion_frame (i : Nat) (st : BlendState) (req : Option Nat) (cause : Option Nat) (s : State) : SameBase s
    (startMotion i st req cause s) ∧ SameStore s (startMotion i st req cause s) ∧ SameSecure s (startMotion i st req cause
    s) ∧ SameObjects s (startMotion i st req cause s) ∧ SameHead s (startMotion i st req cause s) ∧ SamePlan s
    (startMotion i st req cause s) ∧ SameSizes s (startMotion i st req cause s) ∧ (startMotion i st req cause s).health =
    s.health := by
  unfold startMotion; simp [blendGo_frame ..]

theorem requestFade_frame (i : Nat) (br : Nat) (loss : Bool) (cause : Option Nat) (s : State) : SameBase s
    (requestFade i br loss cause s).1 ∧ SameStore s (requestFade i br loss cause s).1 ∧ SameSecure s (requestFade i br
    loss cause s).1 ∧ SameObjects s (requestFade i br loss cause s).1 ∧ SameHead s (requestFade i br loss cause s).1 ∧
    SamePlan s (requestFade i br loss cause s).1 ∧ SameSizes s (requestFade i br loss cause s).1 ∧ (requestFade i br loss
    cause s).1.health = s.health := by
  unfold requestFade; (repeat' split) <;> simp [startFade_frame .., startMotion_frame ..]

theorem endFade_frame (i : Nat) (s : State) : SameBase s (endFade i s) ∧ SameStore s (endFade i s) ∧ SameSizes s
    (endFade i s) ∧ (endFade i s).sec = s.sec ∧ (endFade i s).survey = s.survey ∧ (endFade i s).front = s.front ∧ (endFade
    i s).head = s.head ∧ (endFade i s).gens = s.gens ∧ (endFade i s).plan = s.plan ∧ (endFade i s).time = s.time := by
  unfold endFade; dsimp only; (repeat' split) <;> simp [releaseFadeHolds_frame .., releaseDeferred_frame .., blendGo_frame .., startMotion_frame .., requestFade_frame ..]

theorem gainAlignment_frame (i : Nat) (d : Int) (s : State) : SameBase s (gainAlignment i d s) ∧ SameStore s
    (gainAlignment i d s) ∧ SameSecure s (gainAlignment i d s) ∧ SameObjects s (gainAlignment i d s) ∧ SameHead s
    (gainAlignment i d s) ∧ SamePlan s (gainAlignment i d s) ∧ SameSizes s (gainAlignment i d s) ∧ (gainAlignment i d
    s).health = s.health := by
  unfold gainAlignment; dsimp only; (repeat' split) <;> simp [blendGo_frame .., requestFade_frame ..]

theorem loseAlignment_frame (i : Nat) (s : State) : SameBase s (loseAlignment i s) ∧ SameStore s (loseAlignment i s) ∧
    SameSecure s (loseAlignment i s) ∧ SameObjects s (loseAlignment i s) ∧ SameHead s (loseAlignment i s) ∧ SamePlan s
    (loseAlignment i s) ∧ SameSizes s (loseAlignment i s) ∧ (loseAlignment i s).health = s.health := by
  unfold loseAlignment; dsimp only; split <;> simp [blendGo_frame ..]

theorem correlate_frame (i : Nat) (m : Nat × Int) (s : State) : SameBase s (correlate i m s) ∧ SameStore s (correlate
    i m s) ∧ SameSecure s (correlate i m s) ∧ SameObjects s (correlate i m s) ∧ SameHead s (correlate i m s) ∧ SamePlan s
    (correlate i m s) ∧ SameSizes s (correlate i m s) ∧ (correlate i m s).health = s.health := by
  unfold correlate; dsimp only; (repeat' split) <;> simp [gainAlignment_frame .., loseAlignment_frame ..]

theorem fifoPush_frame (g : List Byte) (s : State) : SameBase s (fifoPush g s) ∧ SameStore s (fifoPush g s) ∧
    SameSecure s (fifoPush g s) ∧ SameObjects s (fifoPush g s) ∧ SameMix s (fifoPush g s) ∧ SameHead s (fifoPush g s) ∧
    SamePort s (fifoPush g s) ∧ SameSizes s (fifoPush g s) ∧ (fifoPush g s).plan = s.plan ∧ (fifoPush g s).time = s.time
    := by
  unfold fifoPush; simp

theorem deliverGroup_frame (i : Nat) (stream : Nat) (g : RdsGroup) (s : State) : SameBase s (deliverGroup i stream g
    s) ∧ SameStore s (deliverGroup i stream g s) ∧ SameSecure s (deliverGroup i stream g s) ∧ SameHead s (deliverGroup i
    stream g s) ∧ SameSizes s (deliverGroup i stream g s) ∧ (deliverGroup i stream g s).front = s.front ∧ (deliverGroup i
    stream g s).mix = s.mix ∧ (deliverGroup i stream g s).plan = s.plan ∧ (deliverGroup i stream g s).time = s.time := by
  unfold deliverGroup; dsimp only; (repeat' split) <;> simp [offerUnit_frame .., signalAlert_frame .., groupCands_frame .., fifoPush_frame ..]

theorem searchSilence_frame (i : Nat) (at' : Instant) (s : State) : SameBase s (searchSilence i at' s) ∧ SameStore s
    (searchSilence i at' s) ∧ SameSecure s (searchSilence i at' s) ∧ SameHead s (searchSilence i at' s) ∧ SamePlan s
    (searchSilence i at' s) ∧ SameSizes s (searchSilence i at' s) ∧ (searchSilence i at' s).front = s.front ∧
    (searchSilence i at' s).health = s.health ∧ (searchSilence i at' s).port = s.port := by
  unfold searchSilence; (repeat' split) <;> simp [deliverAudio_frame ..]

@[simp] theorem modProbe_frame (i : Nat) (g : Probe → Probe) (s : State) : SameBase s (modProbe i g s) ∧ SameStore s
    (modProbe i g s) ∧ SameSecure s (modProbe i g s) ∧ SameMix s (modProbe i g s) ∧ SameHead s (modProbe i g s) ∧ SamePlan
    s (modProbe i g s) ∧ SamePort s (modProbe i g s) ∧ SameSizes s (modProbe i g s) ∧ (modProbe i g s).front = s.front :=
    by
  unfold modProbe; simp

theorem judgeProbe_frame (i : Nat) (s : State) : SameBase s (judgeProbe i s) ∧ SameStore s (judgeProbe i s) ∧ SameHead
    s (judgeProbe i s) ∧ SameSizes s (judgeProbe i s) ∧ (judgeProbe i s).sec = s.sec ∧ (judgeProbe i s).survey = s.survey
    ∧ (judgeProbe i s).plan = s.plan ∧ (judgeProbe i s).time = s.time := by
  unfold judgeProbe; (repeat' split) <;> simp [freshProbe_frame ..]

theorem tuneProbe_frame (i : Nat) (k : Kind) (fr : Nat) (s : State) : SameBase s (tuneProbe i k fr s) ∧ SameStore s
    (tuneProbe i k fr s) ∧ SameHead s (tuneProbe i k fr s) ∧ SameSizes s (tuneProbe i k fr s) ∧ (tuneProbe i k fr s).sec =
    s.sec ∧ (tuneProbe i k fr s).survey = s.survey ∧ (tuneProbe i k fr s).plan = s.plan ∧ (tuneProbe i k fr s).time =
    s.time := by
  unfold tuneProbe; split <;> simp [judgeProbe_frame ..]

theorem probeOn_frame (i : Nat) (fo : Nat) (c : Cand) (s : State) : SameBase s (probeOn i fo c s) ∧ SameStore s
    (probeOn i fo c s) ∧ SameHead s (probeOn i fo c s) ∧ SameSizes s (probeOn i fo c s) ∧ (probeOn i fo c s).sec = s.sec ∧
    (probeOn i fo c s).survey = s.survey ∧ (probeOn i fo c s).plan = s.plan ∧ (probeOn i fo c s).time = s.time := by
  unfold probeOn; split <;> simp [tuneProbe_frame ..]

theorem advanceProbe_frame (i : Nat) (s : State) : SameBase s (advanceProbe i s) ∧ SameStore s (advanceProbe i s) ∧
    SameHead s (advanceProbe i s) ∧ SameSizes s (advanceProbe i s) ∧ (advanceProbe i s).sec = s.sec ∧ (advanceProbe i
    s).survey = s.survey ∧ (advanceProbe i s).plan = s.plan ∧ (advanceProbe i s).time = s.time := by
  unfold advanceProbe; dsimp only; (repeat' split) <;> simp [probeOn_frame ..]

theorem postSwitched_frame (f : Follow) (d : Decision) (dest : Cand) (stamp : Tick) (s : State) : SameBase s
    (postSwitched f d dest stamp s) ∧ SameStore s (postSwitched f d dest stamp s) ∧ SameSecure s (postSwitched f d dest
    stamp s) ∧ SameObjects s (postSwitched f d dest stamp s) ∧ SameMix s (postSwitched f d dest stamp s) ∧ SameHead s
    (postSwitched f d dest stamp s) ∧ SamePlan s (postSwitched f d dest stamp s) ∧ SameSizes s (postSwitched f d dest
    stamp s) := by
  unfold postSwitched; simp

theorem countSwitch_frame (i : Nat) (s : State) : SameBase s (countSwitch i s) ∧ SameStore s (countSwitch i s) ∧
    SameSecure s (countSwitch i s) ∧ SameMix s (countSwitch i s) ∧ SameHead s (countSwitch i s) ∧ SamePlan s (countSwitch
    i s) ∧ SamePort s (countSwitch i s) ∧ SameSizes s (countSwitch i s) ∧ (countSwitch i s).front = s.front := by
  unfold countSwitch; simp

theorem crossOutputs_frame (f : Follow) (s : State) : SameBase s (crossOutputs f s) ∧ SameStore s (crossOutputs f s) ∧
    SameSecure s (crossOutputs f s) ∧ SameMix s (crossOutputs f s) ∧ SameHead s (crossOutputs f s) ∧ SamePlan s
    (crossOutputs f s) ∧ SamePort s (crossOutputs f s) ∧ SameSizes s (crossOutputs f s) ∧ (crossOutputs f s).front =
    s.front := by
  unfold crossOutputs; simp

theorem carryOut_frame (i : Nat) (d : Decision) (s : State) : SameBase s (carryOut i d s) ∧ SameStore s (carryOut i d
    s) ∧ SameSecure s (carryOut i d s) ∧ SameHead s (carryOut i d s) ∧ SamePlan s (carryOut i d s) ∧ SameSizes s (carryOut
    i d s) ∧ (carryOut i d s).front = s.front ∧ (carryOut i d s).health = s.health := by
  unfold carryOut; dsimp only; (repeat' split) <;> simp [requestFade_frame .., countSwitch_frame .., crossOutputs_frame ..]

theorem switchDecided_frame (i : Nat) (d : Decision) (dest : Cand) (stamp : Tick) (s : State) : SameBase s
    (switchDecided i d dest stamp s) ∧ SameStore s (switchDecided i d dest stamp s) ∧ SameSecure s (switchDecided i d dest
    stamp s) ∧ SameHead s (switchDecided i d dest stamp s) ∧ SamePlan s (switchDecided i d dest stamp s) ∧ SameSizes s
    (switchDecided i d dest stamp s) ∧ (switchDecided i d dest stamp s).front = s.front ∧ (switchDecided i d dest stamp
    s).health = s.health := by
  unfold switchDecided; split <;> simp [postSwitched_frame .., carryOut_frame ..]

theorem lossProbes_frame (i : Nat) (s : State) : SameBase s (lossProbes i s) ∧ SameStore s (lossProbes i s) ∧ SameHead
    s (lossProbes i s) ∧ SameSizes s (lossProbes i s) ∧ (lossProbes i s).sec = s.sec ∧ (lossProbes i s).survey = s.survey
    ∧ (lossProbes i s).plan = s.plan ∧ (lossProbes i s).time = s.time := by
  unfold lossProbes; split <;> simp [probeOn_frame ..]

theorem gaugeDecide_frame (i : Nat) (stamp : Tick) (s : State) : SameBase s (gaugeDecide i stamp s) ∧ SameStore s
    (gaugeDecide i stamp s) ∧ SameHead s (gaugeDecide i stamp s) ∧ SameSizes s (gaugeDecide i stamp s) ∧ (gaugeDecide i
    stamp s).sec = s.sec ∧ (gaugeDecide i stamp s).survey = s.survey ∧ (gaugeDecide i stamp s).plan = s.plan ∧
    (gaugeDecide i stamp s).time = s.time := by
  unfold gaugeDecide; dsimp only; (repeat' split) <;> simp [switchDecided_frame .., lossProbes_frame ..]

theorem resumeSwitch_frame (i : Nat) (s : State) : SameBase s (resumeSwitch i s) ∧ SameStore s (resumeSwitch i s) ∧
    SameSecure s (resumeSwitch i s) ∧ SameHead s (resumeSwitch i s) ∧ SamePlan s (resumeSwitch i s) ∧ SameSizes s
    (resumeSwitch i s) ∧ (resumeSwitch i s).front = s.front ∧ (resumeSwitch i s).health = s.health := by
  unfold resumeSwitch; (repeat' split) <;> simp [carryOut_frame ..]

theorem resumeSwitches_frame (b : Nat) (s : State) : SameBase s (resumeSwitches b s) ∧ SameStore s (resumeSwitches b
    s) ∧ SameSecure s (resumeSwitches b s) ∧ SameHead s (resumeSwitches b s) ∧ SamePlan s (resumeSwitches b s) ∧ SameSizes
    s (resumeSwitches b s) ∧ (resumeSwitches b s).front = s.front ∧ (resumeSwitches b s).health = s.health := by
  unfold resumeSwitches; simp [resumeSwitch_frame ..]

theorem createBlend_frame (i : Nat) (mark : Bool) (p : List Byte) (s : State) : SameBase s (createBlend i mark p s).1
    ∧ SameStore s (createBlend i mark p s).1 ∧ SameSecure s (createBlend i mark p s).1 ∧ SameObjects s (createBlend i mark
    p s).1 ∧ SamePlan s (createBlend i mark p s).1 ∧ SamePort s (createBlend i mark p s).1 ∧ SameSizes s (createBlend i
    mark p s).1 ∧ (createBlend i mark p s).1.health = s.health ∧ (createBlend i mark p s).1.cal = s.cal := by
  unfold createBlend; simp

@[simp] theorem changeBlend_frame (i : Nat) (p : List Byte) (cause : Option Nat) (s : State) : SameBase s (changeBlend
    i p cause s).1 ∧ SameStore s (changeBlend i p cause s).1 ∧ SameSecure s (changeBlend i p cause s).1 ∧ SameObjects s
    (changeBlend i p cause s).1 ∧ SameHead s (changeBlend i p cause s).1 ∧ SamePlan s (changeBlend i p cause s).1 ∧
    SameSizes s (changeBlend i p cause s).1 ∧ (changeBlend i p cause s).1.health = s.health := by
  unfold changeBlend; split <;> simp [blendGo_frame ..]

theorem blendSetBody_frame (f : CmdFrame) (s : State) : SameBase s (blendSetBody f s).1 ∧ SameStore s (blendSetBody f
    s).1 ∧ SameSecure s (blendSetBody f s).1 ∧ SameObjects s (blendSetBody f s).1 ∧ SameSizes s (blendSetBody f s).1 ∧
    (blendSetBody f s).1.health = s.health ∧ (blendSetBody f s).1.cal = s.cal ∧ (blendSetBody f s).1.time = s.time ∧
    (blendSetBody f s).1.compat = s.compat := by
  unfold blendSetBody; simp [createBlend_frame ..]

theorem shutBlend_frame (i : Nat) (cause : Nat) (s : State) : SameBase s (shutBlend i cause s) ∧ SameStore s
    (shutBlend i cause s) ∧ SameSizes s (shutBlend i cause s) ∧ (shutBlend i cause s).sec = s.sec ∧ (shutBlend i cause
    s).survey = s.survey ∧ (shutBlend i cause s).head = s.head ∧ (shutBlend i cause s).gens = s.gens ∧ (shutBlend i cause
    s).plan = s.plan ∧ (shutBlend i cause s).time = s.time := by
  unfold shutBlend; split <;> simp [cutFade_frame .., finishBlend_frame .., releaseDeferred_frame .., resumeSwitches_frame ..]

theorem blendRemoveBody_frame (f : CmdFrame) (s : State) : SameBase s (blendRemoveBody f s).1 ∧ SameStore s
    (blendRemoveBody f s).1 ∧ SameSizes s (blendRemoveBody f s).1 ∧ (blendRemoveBody f s).1.sec = s.sec ∧ (blendRemoveBody
    f s).1.survey = s.survey ∧ (blendRemoveBody f s).1.head = s.head ∧ (blendRemoveBody f s).1.gens = s.gens ∧
    (blendRemoveBody f s).1.time = s.time := by
  unfold blendRemoveBody; simp [shutBlend_frame ..]

theorem blendFadeBody_frame (f : CmdFrame) (s : State) : SameBase s (blendFadeBody f s).1 ∧ SameStore s (blendFadeBody
    f s).1 ∧ SameSecure s (blendFadeBody f s).1 ∧ SameObjects s (blendFadeBody f s).1 ∧ SameHead s (blendFadeBody f s).1 ∧
    SamePlan s (blendFadeBody f s).1 ∧ SameSizes s (blendFadeBody f s).1 ∧ (blendFadeBody f s).1.health = s.health := by
  unfold blendFadeBody; simp [requestFade_frame ..]

theorem getBlendBody_frame (f : CmdFrame) (s : State) : SameBase s (getBlendBody f s).1 ∧ SameStore s (getBlendBody f
    s).1 ∧ SameSecure s (getBlendBody f s).1 ∧ SameObjects s (getBlendBody f s).1 ∧ SameMix s (getBlendBody f s).1 ∧
    SameHead s (getBlendBody f s).1 ∧ SamePlan s (getBlendBody f s).1 ∧ SamePort s (getBlendBody f s).1 ∧ SameSizes s
    (getBlendBody f s).1 := by
  unfold getBlendBody; simp

end Sys2Proof.Machine
end

