-- ==== Sys2Proof/Laws/FramesC.lean ====
section
/-!
SUPPORT. FramesC.lean: for each operation of Follow, Survey, Running, CompatOps, Plan, Bus, Cal, Wave, LinkTx, one lemma that says which parts of the state it never changes.
-/

namespace Sys2Proof.Machine

theorem createFollow_frame (i : Nat) (mark : Bool) (p : List Byte) (s : State) : SameBase s (createFollow i mark p
    s).1 ∧ SameStore s (createFollow i mark p s).1 ∧ SameSecure s (createFollow i mark p s).1 ∧ SameMix s (createFollow i
    mark p s).1 ∧ SamePlan s (createFollow i mark p s).1 ∧ SamePort s (createFollow i mark p s).1 ∧ SameSizes s
    (createFollow i mark p s).1 ∧ (createFollow i mark p s).1.front = s.front ∧ (createFollow i mark p s).1.cal = s.cal :=
    by
  unfold createFollow; simp

@[simp] theorem changeFollow_frame (i : Nat) (p : List Byte) (s : State) : SameBase s (changeFollow i p s).1 ∧
    SameStore s (changeFollow i p s).1 ∧ SameSecure s (changeFollow i p s).1 ∧ SameMix s (changeFollow i p s).1 ∧ SameHead
    s (changeFollow i p s).1 ∧ SamePlan s (changeFollow i p s).1 ∧ SamePort s (changeFollow i p s).1 ∧ SameSizes s
    (changeFollow i p s).1 ∧ (changeFollow i p s).1.front = s.front := by
  unfold changeFollow; simp

theorem followSetBody_frame (f : CmdFrame) (s : State) : SameBase s (followSetBody f s).1 ∧ SameStore s (followSetBody
    f s).1 ∧ SameSecure s (followSetBody f s).1 ∧ SameMix s (followSetBody f s).1 ∧ SamePort s (followSetBody f s).1 ∧
    SameSizes s (followSetBody f s).1 ∧ (followSetBody f s).1.front = s.front ∧ (followSetBody f s).1.cal = s.cal ∧
    (followSetBody f s).1.time = s.time ∧ (followSetBody f s).1.compat = s.compat := by
  unfold followSetBody; simp [createFollow_frame ..]

theorem shutFollow_frame (i : Nat) (cause : Nat) (s : State) : SameBase s (shutFollow i cause s) ∧ SameStore s
    (shutFollow i cause s) ∧ SameHead s (shutFollow i cause s) ∧ SameSizes s (shutFollow i cause s) ∧ (shutFollow i cause
    s).sec = s.sec ∧ (shutFollow i cause s).survey = s.survey ∧ (shutFollow i cause s).plan = s.plan ∧ (shutFollow i cause
    s).time = s.time := by
  unfold shutFollow; split <;> simp

theorem followRemoveBody_frame (f : CmdFrame) (s : State) : SameBase s (followRemoveBody f s).1 ∧ SameStore s
    (followRemoveBody f s).1 ∧ SameHead s (followRemoveBody f s).1 ∧ SameSizes s (followRemoveBody f s).1 ∧
    (followRemoveBody f s).1.sec = s.sec ∧ (followRemoveBody f s).1.survey = s.survey ∧ (followRemoveBody f s).1.time =
    s.time := by
  unfold followRemoveBody; simp [shutFollow_frame ..]

theorem getFollowBody_frame (f : CmdFrame) (s : State) : SameBase s (getFollowBody f s).1 ∧ SameStore s (getFollowBody
    f s).1 ∧ SameSecure s (getFollowBody f s).1 ∧ SameObjects s (getFollowBody f s).1 ∧ SameMix s (getFollowBody f s).1 ∧
    SameHead s (getFollowBody f s).1 ∧ SamePlan s (getFollowBody f s).1 ∧ SamePort s (getFollowBody f s).1 ∧ SameSizes s
    (getFollowBody f s).1 := by
  unfold getFollowBody; simp

theorem createProbe_frame (i : Nat) (mark : Bool) (p : List Byte) (s : State) : SameBase s (createProbe i mark p s).1
    ∧ SameStore s (createProbe i mark p s).1 ∧ SameSecure s (createProbe i mark p s).1 ∧ SameMix s (createProbe i mark p
    s).1 ∧ SamePlan s (createProbe i mark p s).1 ∧ SamePort s (createProbe i mark p s).1 ∧ SameSizes s (createProbe i mark
    p s).1 ∧ (createProbe i mark p s).1.front = s.front ∧ (createProbe i mark p s).1.cal = s.cal := by
  unfold createProbe; simp

theorem settleFixed_frame (i : Nat) (s : State) : SameBase s (settleFixed i s) ∧ SameStore s (settleFixed i s) ∧
    SameHead s (settleFixed i s) ∧ SameSizes s (settleFixed i s) ∧ (settleFixed i s).sec = s.sec ∧ (settleFixed i
    s).survey = s.survey ∧ (settleFixed i s).plan = s.plan ∧ (settleFixed i s).time = s.time := by
  unfold settleFixed; split <;> simp [tuneProbe_frame ..]

theorem changeProbe_blockTaken_frame (i : Nat) (fr : Nat) (k : Kind) (s : State) : SameBase s (changeProbe.blockTaken
    i fr k s) ∧ SameStore s (changeProbe.blockTaken i fr k s) ∧ SameSecure s (changeProbe.blockTaken i fr k s) ∧ SameMix s
    (changeProbe.blockTaken i fr k s) ∧ SameHead s (changeProbe.blockTaken i fr k s) ∧ SamePlan s (changeProbe.blockTaken
    i fr k s) ∧ SamePort s (changeProbe.blockTaken i fr k s) ∧ SameSizes s (changeProbe.blockTaken i fr k s) ∧
    (changeProbe.blockTaken i fr k s).front = s.front := by
  unfold changeProbe.blockTaken; simp

@[simp] theorem changeProbe_frame (i : Nat) (p : List Byte) (s : State) : SameBase s (changeProbe i p s).1 ∧ SameStore
    s (changeProbe i p s).1 ∧ SameHead s (changeProbe i p s).1 ∧ SameSizes s (changeProbe i p s).1 ∧ (changeProbe i p
    s).1.sec = s.sec ∧ (changeProbe i p s).1.survey = s.survey ∧ (changeProbe i p s).1.plan = s.plan ∧ (changeProbe i p
    s).1.time = s.time := by
  unfold changeProbe; split <;> simp [settleFixed_frame .., changeProbe_blockTaken_frame ..]

theorem startProbe_frame (cause : Option Nat) (i : Nat) (s : State) : SameBase s (startProbe cause i s) ∧ SameStore s
    (startProbe cause i s) ∧ SameHead s (startProbe cause i s) ∧ SameSizes s (startProbe cause i s) ∧ (startProbe cause i
    s).sec = s.sec ∧ (startProbe cause i s).survey = s.survey ∧ (startProbe cause i s).plan = s.plan ∧ (startProbe cause i
    s).time = s.time := by
  unfold startProbe; dsimp only; split <;> simp [seekWindow_frame .., advanceProbe_frame ..]

theorem probeAddBody_frame (f : CmdFrame) (s : State) : SameBase s (probeAddBody f s).1 ∧ SameStore s (probeAddBody f
    s).1 ∧ SameSizes s (probeAddBody f s).1 ∧ (probeAddBody f s).1.sec = s.sec ∧ (probeAddBody f s).1.survey = s.survey ∧
    (probeAddBody f s).1.cal = s.cal ∧ (probeAddBody f s).1.time = s.time := by
  unfold probeAddBody; simp [createProbe_frame .., startProbe_frame ..]

theorem probeSetBody_frame (f : CmdFrame) (s : State) : SameBase s (probeSetBody f s).1 ∧ SameStore s (probeSetBody f
    s).1 ∧ SameHead s (probeSetBody f s).1 ∧ SameSizes s (probeSetBody f s).1 ∧ (probeSetBody f s).1.sec = s.sec ∧
    (probeSetBody f s).1.survey = s.survey ∧ (probeSetBody f s).1.time = s.time := by
  unfold probeSetBody; simp

theorem decideAgain_frame (fo : Nat) (s : State) : SameBase s (decideAgain fo s) ∧ SameStore s (decideAgain fo s) ∧
    SameHead s (decideAgain fo s) ∧ SameSizes s (decideAgain fo s) ∧ (decideAgain fo s).sec = s.sec ∧ (decideAgain fo
    s).survey = s.survey ∧ (decideAgain fo s).plan = s.plan ∧ (decideAgain fo s).time = s.time := by
  unfold decideAgain; (repeat' split) <;> simp [gaugeDecide_frame ..]

theorem abandonRetarget_frame (fo : Nat) (s : State) : SameBase s (abandonRetarget fo s) ∧ SameStore s
    (abandonRetarget fo s) ∧ SameHead s (abandonRetarget fo s) ∧ SameSizes s (abandonRetarget fo s) ∧ (abandonRetarget fo
    s).sec = s.sec ∧ (abandonRetarget fo s).survey = s.survey ∧ (abandonRetarget fo s).plan = s.plan ∧ (abandonRetarget fo
    s).time = s.time := by
  unfold abandonRetarget; dsimp only; (repeat' split) <;> simp [carryOut_frame .., decideAgain_frame ..]

theorem decideLost_frame (s : State) : SameBase s (decideLost s) ∧ SameStore s (decideLost s) ∧ SameHead s (decideLost
    s) ∧ SameSizes s (decideLost s) ∧ (decideLost s).sec = s.sec ∧ (decideLost s).survey = s.survey ∧ (decideLost s).plan
    = s.plan ∧ (decideLost s).time = s.time := by
  unfold decideLost; simp [decideAgain_frame ..]

theorem dropRetargets_frame (pr : Nat) (s : State) : SameBase s (dropRetargets pr s) ∧ SameStore s (dropRetargets pr
    s) ∧ SameHead s (dropRetargets pr s) ∧ SameSizes s (dropRetargets pr s) ∧ (dropRetargets pr s).sec = s.sec ∧
    (dropRetargets pr s).survey = s.survey ∧ (dropRetargets pr s).plan = s.plan ∧ (dropRetargets pr s).time = s.time := by
  unfold dropRetargets; simp [abandonRetarget_frame ..]

theorem shutProbe_frame (i : Nat) (cause : Nat) (s : State) : SameBase s (shutProbe i cause s) ∧ SameStore s
    (shutProbe i cause s) ∧ SameHead s (shutProbe i cause s) ∧ SameSizes s (shutProbe i cause s) ∧ (shutProbe i cause
    s).sec = s.sec ∧ (shutProbe i cause s).survey = s.survey ∧ (shutProbe i cause s).time = s.time := by
  unfold shutProbe; (repeat' split) <;> simp [finishProbe_frame .., dropRetargets_frame ..]

theorem probeRemoveBody_frame (f : CmdFrame) (s : State) : SameBase s (probeRemoveBody f s).1 ∧ SameStore s
    (probeRemoveBody f s).1 ∧ SameHead s (probeRemoveBody f s).1 ∧ SameSizes s (probeRemoveBody f s).1 ∧ (probeRemoveBody
    f s).1.sec = s.sec ∧ (probeRemoveBody f s).1.survey = s.survey ∧ (probeRemoveBody f s).1.time = s.time := by
  unfold probeRemoveBody; simp [shutProbe_frame ..]

theorem getProbeBody_frame (f : CmdFrame) (s : State) : SameBase s (getProbeBody f s).1 ∧ SameStore s (getProbeBody f
    s).1 ∧ SameSecure s (getProbeBody f s).1 ∧ SameObjects s (getProbeBody f s).1 ∧ SameMix s (getProbeBody f s).1 ∧
    SameHead s (getProbeBody f s).1 ∧ SamePlan s (getProbeBody f s).1 ∧ SamePort s (getProbeBody f s).1 ∧ SameSizes s
    (getProbeBody f s).1 := by
  unfold getProbeBody; simp

theorem crossProgramme_frame (i : Nat) (s : State) : SameBase s (crossProgramme i s) ∧ SameStore s (crossProgramme i
    s) ∧ SameSecure s (crossProgramme i s) ∧ SameMix s (crossProgramme i s) ∧ SameHead s (crossProgramme i s) ∧ SamePlan s
    (crossProgramme i s) ∧ SamePort s (crossProgramme i s) ∧ SameSizes s (crossProgramme i s) ∧ (crossProgramme i s).front
    = s.front := by
  unfold crossProgramme; simp

theorem swapChains_frame (i : Nat) (pr : Nat) (r : Reception) (p : Probe) (s : State) : SameBase s (swapChains i pr r
    p s) ∧ SameStore s (swapChains i pr r p s) ∧ SameSecure s (swapChains i pr r p s) ∧ SameHead s (swapChains i pr r p s)
    ∧ SamePlan s (swapChains i pr r p s) ∧ SameSizes s (swapChains i pr r p s) ∧ (swapChains i pr r p s).front = s.front ∧
    (swapChains i pr r p s).health = s.health ∧ (swapChains i pr r p s).port = s.port := by
  unfold swapChains; simp [restartLoudness_frame .., releaseAudio_frame .., crossProgramme_frame ..]

theorem arrive_frame (i : Nat) (r : Reception) (s : State) : SameBase s (arrive i r s) ∧ SameStore s (arrive i r s) ∧
    SameSecure s (arrive i r s) ∧ SameMix s (arrive i r s) ∧ SameHead s (arrive i r s) ∧ SameSizes s (arrive i r s) ∧
    (arrive i r s).front = s.front ∧ (arrive i r s).plan = s.plan ∧ (arrive i r s).time = s.time := by
  unfold arrive; dsimp only; (repeat' split) <;> simp [acquire_frame ..]

theorem beginGlance_frame (i : Nat) (f : Follow) (c : Cand) (t : Nat) (s : State) : SameBase s (beginGlance i f c t s)
    ∧ SameStore s (beginGlance i f c t s) ∧ SameHead s (beginGlance i f c t s) ∧ SameSizes s (beginGlance i f c t s) ∧
    (beginGlance i f c t s).sec = s.sec ∧ (beginGlance i f c t s).survey = s.survey ∧ (beginGlance i f c t s).plan =
    s.plan ∧ (beginGlance i f c t s).time = s.time := by
  unfold beginGlance; simp [tuneProbe_frame .., lockTuner_frame ..]

theorem probeJoins_frame (pr : Nat) (p : Probe) (s : State) : SameBase s (probeJoins pr p s) ∧ SameStore s (probeJoins
    pr p s) ∧ SameHead s (probeJoins pr p s) ∧ SameSizes s (probeJoins pr p s) ∧ (probeJoins pr p s).sec = s.sec ∧
    (probeJoins pr p s).survey = s.survey ∧ (probeJoins pr p s).plan = s.plan ∧ (probeJoins pr p s).time = s.time := by
  unfold probeJoins; split <;> simp [settleFixed_frame ..]

theorem probeGoesOn_frame (pr : Nat) (p : Probe) (s : State) : SameBase s (probeGoesOn pr p s) ∧ SameStore s
    (probeGoesOn pr p s) ∧ SameHead s (probeGoesOn pr p s) ∧ SameSizes s (probeGoesOn pr p s) ∧ (probeGoesOn pr p s).sec =
    s.sec ∧ (probeGoesOn pr p s).survey = s.survey ∧ (probeGoesOn pr p s).plan = s.plan ∧ (probeGoesOn pr p s).time =
    s.time := by
  unfold probeGoesOn; (repeat' split) <;> simp [advanceProbe_frame .., beginGlance_frame ..]

theorem surveyConfigBody_frame (f : CmdFrame) (s : State) : SameBase s (surveyConfigBody f s).1 ∧ SameSecure s
    (surveyConfigBody f s).1 ∧ SameObjects s (surveyConfigBody f s).1 ∧ SameMix s (surveyConfigBody f s).1 ∧ SameHead s
    (surveyConfigBody f s).1 ∧ SamePlan s (surveyConfigBody f s).1 ∧ SamePort s (surveyConfigBody f s).1 ∧ SameSizes s
    (surveyConfigBody f s).1 ∧ (surveyConfigBody f s).1.link = s.link ∧ (surveyConfigBody f s).1.stats = s.stats := by
  unfold surveyConfigBody; simp

theorem getSurveyConfigBody_frame (f : CmdFrame) (s : State) : SameBase s (getSurveyConfigBody f s).1 ∧ SameStore s
    (getSurveyConfigBody f s).1 ∧ SameSecure s (getSurveyConfigBody f s).1 ∧ SameObjects s (getSurveyConfigBody f s).1 ∧
    SameMix s (getSurveyConfigBody f s).1 ∧ SameHead s (getSurveyConfigBody f s).1 ∧ SamePlan s (getSurveyConfigBody f
    s).1 ∧ SamePort s (getSurveyConfigBody f s).1 ∧ SameSizes s (getSurveyConfigBody f s).1 := by
  unfold getSurveyConfigBody; simp

theorem surveyListBody_frame (f : CmdFrame) (s : State) : SameBase s (surveyListBody f s).1 ∧ SameStore s
    (surveyListBody f s).1 ∧ SameSecure s (surveyListBody f s).1 ∧ SameObjects s (surveyListBody f s).1 ∧ SameMix s
    (surveyListBody f s).1 ∧ SameHead s (surveyListBody f s).1 ∧ SamePlan s (surveyListBody f s).1 ∧ SamePort s
    (surveyListBody f s).1 ∧ SameSizes s (surveyListBody f s).1 := by
  unfold surveyListBody; simp

theorem sweepTuner_frame (t : Nat) (port : Nat) (s : State) : SameBase s (sweepTuner t port s) ∧ SameStore s
    (sweepTuner t port s) ∧ SameHead s (sweepTuner t port s) ∧ SameSizes s (sweepTuner t port s) ∧ (sweepTuner t port
    s).sec = s.sec ∧ (sweepTuner t port s).survey = s.survey ∧ (sweepTuner t port s).plan = s.plan ∧ (sweepTuner t port
    s).time = s.time := by
  unfold sweepTuner; (repeat' split) <;> simp

theorem leavePlacements_frame (s : State) : SameBase s (leavePlacements s) ∧ SameStore s (leavePlacements s) ∧ SameMix
    s (leavePlacements s) ∧ SameHead s (leavePlacements s) ∧ SamePlan s (leavePlacements s) ∧ SamePort s (leavePlacements
    s) ∧ SameSizes s (leavePlacements s) ∧ (leavePlacements s).sec = s.sec ∧ (leavePlacements s).fresh = s.fresh ∧
    (leavePlacements s).prog = s.prog := by
  unfold leavePlacements; simp

theorem openPlacements_frame (s : State) : SameBase s (openPlacements s) ∧ SameStore s (openPlacements s) ∧ SameHead s
    (openPlacements s) ∧ SameSizes s (openPlacements s) ∧ (openPlacements s).sec = s.sec ∧ (openPlacements s).plan =
    s.plan ∧ (openPlacements s).time = s.time := by
  unfold openPlacements; simp [sweepTuner_frame ..]

theorem nextPlacements_frame (s : State) : SameBase s (nextPlacements s) ∧ SameStore s (nextPlacements s) ∧ SameHead s
    (nextPlacements s) ∧ SameSizes s (nextPlacements s) ∧ (nextPlacements s).sec = s.sec ∧ (nextPlacements s).plan =
    s.plan ∧ (nextPlacements s).time = s.time := by
  unfold nextPlacements; simp [openPlacements_frame .., leavePlacements_frame ..]

theorem startPass_frame (s : State) : SameBase s (startPass s) ∧ SameStore s (startPass s) ∧ SameHead s (startPass s)
    ∧ SameSizes s (startPass s) ∧ (startPass s).sec = s.sec ∧ (startPass s).plan = s.plan ∧ (startPass s).time = s.time :=
    by
  unfold startPass; simp [openPlacements_frame ..]

theorem enterSurvey_frame (s : State) : SameBase s (enterSurvey s) ∧ SameStore s (enterSurvey s) ∧ SameHead s
    (enterSurvey s) ∧ SameSizes s (enterSurvey s) ∧ (enterSurvey s).sec = s.sec ∧ (enterSurvey s).plan = s.plan ∧
    (enterSurvey s).time = s.time := by
  unfold enterSurvey; simp [startPass_frame ..]

theorem closeSweep_frame (s : State) : SameBase s (closeSweep s) ∧ SameStore s (closeSweep s) ∧ SameMix s (closeSweep
    s) ∧ SameHead s (closeSweep s) ∧ SamePlan s (closeSweep s) ∧ SamePort s (closeSweep s) ∧ SameSizes s (closeSweep s) ∧
    (closeSweep s).sec = s.sec ∧ (closeSweep s).fresh = s.fresh ∧ (closeSweep s).prog = s.prog := by
  unfold closeSweep; simp

theorem sweepOpened_frame (t : Nat) (s : State) : SameBase s (sweepOpened t s) ∧ SameStore s (sweepOpened t s) ∧
    SameMix s (sweepOpened t s) ∧ SameHead s (sweepOpened t s) ∧ SamePlan s (sweepOpened t s) ∧ SamePort s (sweepOpened t
    s) ∧ SameSizes s (sweepOpened t s) ∧ (sweepOpened t s).sec = s.sec ∧ (sweepOpened t s).fresh = s.fresh ∧ (sweepOpened
    t s).prog = s.prog := by
  unfold sweepOpened; simp

theorem startCands_frame (s : State) : SameBase s (startCands s) ∧ SameStore s (startCands s) ∧ SameObjects s
    (startCands s) ∧ SameMix s (startCands s) ∧ SameHead s (startCands s) ∧ SamePlan s (startCands s) ∧ SamePort s
    (startCands s) ∧ SameSizes s (startCands s) ∧ (startCands s).sec = s.sec ∧ (startCands s).fresh = s.fresh := by
  unfold startCands; simp

theorem writeSurvey_frame (bytes : List Byte) (stamp : Tick) (s : State) : SameBase s (writeSurvey bytes stamp s) ∧
    SameStore s (writeSurvey bytes stamp s) ∧ SameSecure s (writeSurvey bytes stamp s) ∧ SameObjects s (writeSurvey bytes
    stamp s) ∧ SameMix s (writeSurvey bytes stamp s) ∧ SameHead s (writeSurvey bytes stamp s) ∧ SamePlan s (writeSurvey
    bytes stamp s) ∧ SameSizes s (writeSurvey bytes stamp s) := by
  unfold writeSurvey; split <;> simp [offerShaving_frame ..]

theorem deliverEntry_frame (kind : Nat) (freq : Nat) (bytes : Nat → List Byte) (stamp : Tick) (s : State) : SameBase s
    (deliverEntry kind freq bytes stamp s) ∧ SameStore s (deliverEntry kind freq bytes stamp s) ∧ SameObjects s
    (deliverEntry kind freq bytes stamp s) ∧ SameHead s (deliverEntry kind freq bytes stamp s) ∧ SamePlan s (deliverEntry
    kind freq bytes stamp s) ∧ SameSizes s (deliverEntry kind freq bytes stamp s) ∧ (deliverEntry kind freq bytes stamp
    s).sec = s.sec ∧ (deliverEntry kind freq bytes stamp s).fresh = s.fresh ∧ (deliverEntry kind freq bytes stamp s).mix =
    s.mix := by
  unfold deliverEntry; simp [writeSurvey_frame ..]

theorem deliverFind_frame (c : SurveyCand) (b : SurveyBand) (r : SurveyFind) (s : State) : SameBase s (deliverFind c b
    r s) ∧ SameStore s (deliverFind c b r s) ∧ SameObjects s (deliverFind c b r s) ∧ SameHead s (deliverFind c b r s) ∧
    SamePlan s (deliverFind c b r s) ∧ SameSizes s (deliverFind c b r s) ∧ (deliverFind c b r s).sec = s.sec ∧
    (deliverFind c b r s).fresh = s.fresh ∧ (deliverFind c b r s).mix = s.mix := by
  unfold deliverFind; simp [deliverEntry_frame ..]

theorem reportGone_frame (s : State) : SameBase s (reportGone s) ∧ SameStore s (reportGone s) ∧ SameObjects s
    (reportGone s) ∧ SameMix s (reportGone s) ∧ SameHead s (reportGone s) ∧ SamePlan s (reportGone s) ∧ SameSizes s
    (reportGone s) ∧ (reportGone s).sec = s.sec ∧ (reportGone s).fresh = s.fresh := by
  unfold reportGone; simp [writeSurvey_frame ..]

theorem stopWindow_frame (cause : Option Nat) (w : Nat) (s : State) : SameBase s (stopWindow cause w s) ∧ SameStore s
    (stopWindow cause w s) ∧ SameSecure s (stopWindow cause w s) ∧ SameMix s (stopWindow cause w s) ∧ SamePlan s
    (stopWindow cause w s) ∧ SameSizes s (stopWindow cause w s) ∧ (stopWindow cause w s).prog = s.prog ∧ (stopWindow cause
    w s).gens = s.gens := by
  unfold stopWindow; simp [abandonRun_frame .., releaseRetunes_frame .., rememberTuners_frame .., postClosed_frame ..]

theorem finishRemovals_frame (cause : Option Nat) (s : State) : SameBase s (finishRemovals cause s) ∧ SameStore s
    (finishRemovals cause s) ∧ SameHead s (finishRemovals cause s) ∧ SameSizes s (finishRemovals cause s) ∧
    (finishRemovals cause s).sec = s.sec ∧ (finishRemovals cause s).survey = s.survey ∧ (finishRemovals cause s).time =
    s.time := by
  unfold finishRemovals; simp [finishBranch_frame .., finishProbe_frame .., finishTap_frame ..,
      finishPcm_frame .., finishReception_frame .., finishBlend_frame ..]

theorem stopFollowing_frame (s : State) : SameBase s (stopFollowing s) ∧ SameStore s (stopFollowing s) ∧ SameHead s
    (stopFollowing s) ∧ SameSizes s (stopFollowing s) ∧ (stopFollowing s).sec = s.sec ∧ (stopFollowing s).survey =
    s.survey ∧ (stopFollowing s).plan = s.plan ∧ (stopFollowing s).time = s.time := by
  unfold stopFollowing; simp [cutFade_frame ..]

theorem stopAll_frame (cause : Option Nat) (s : State) : SameBase s (stopAll cause s) ∧ SameStore s (stopAll cause s)
    ∧ SameSizes s (stopAll cause s) ∧ (stopAll cause s).sec = s.sec ∧ (stopAll cause s).survey = s.survey ∧ (stopAll cause
    s).gens = s.gens ∧ (stopAll cause s).time = s.time := by
  unfold stopAll; simp [stopOwner_frame .., stopWindow_frame .., finishRemovals_frame .., stopFollowing_frame .., stopPcms_frame ..]

theorem tunersOff_frame (s : State) : SameBase s (tunersOff s) ∧ SameStore s (tunersOff s) ∧ SameSecure s (tunersOff
    s) ∧ SameMix s (tunersOff s) ∧ SameHead s (tunersOff s) ∧ SamePlan s (tunersOff s) ∧ SamePort s (tunersOff s) ∧
    SameSizes s (tunersOff s) ∧ (tunersOff s).prog = s.prog := by
  unfold tunersOff; simp

theorem startWindows_frame (s : State) : SameBase s (startWindows s) ∧ SameStore s (startWindows s) ∧ SameHead s
    (startWindows s) ∧ SameSizes s (startWindows s) ∧ (startWindows s).sec = s.sec ∧ (startWindows s).survey = s.survey ∧
    (startWindows s).plan = s.plan ∧ (startWindows s).time = s.time := by
  unfold startWindows; simp [bringPartner_frame ..]

theorem startObject_frame (cause : Option Nat) (o : ChainOwner) (s : State) : SameBase s (startObject cause o s) ∧
    SameStore s (startObject cause o s) ∧ SameHead s (startObject cause o s) ∧ SameSizes s (startObject cause o s) ∧
    (startObject cause o s).sec = s.sec ∧ (startObject cause o s).survey = s.survey ∧ (startObject cause o s).plan =
    s.plan ∧ (startObject cause o s).time = s.time := by
  unfold startObject; (repeat' split) <;> simp [startProbe_frame ..]

theorem startObjects_frame (cause : Option Nat) (s : State) : SameBase s (startObjects cause s) ∧ SameStore s
    (startObjects cause s) ∧ SameHead s (startObjects cause s) ∧ SameSizes s (startObjects cause s) ∧ (startObjects cause
    s).sec = s.sec ∧ (startObjects cause s).survey = s.survey ∧ (startObjects cause s).plan = s.plan ∧ (startObjects cause
    s).time = s.time := by
  unfold startObjects; simp [startObject_frame ..]

theorem stopUnmarked_frame (cause : Option Nat) (s : State) : SameBase s (stopUnmarked cause s) ∧ SameStore s
    (stopUnmarked cause s) ∧ SameSizes s (stopUnmarked cause s) ∧ (stopUnmarked cause s).sec = s.sec ∧ (stopUnmarked cause
    s).survey = s.survey ∧ (stopUnmarked cause s).gens = s.gens ∧ (stopUnmarked cause s).plan = s.plan ∧ (stopUnmarked
    cause s).time = s.time := by
  unfold stopUnmarked; simp [stopOwner_frame .., stopWindow_frame .., stopPcms_frame ..]

theorem freshBlends_frame (s : State) : SameBase s (freshBlends s) ∧ SameStore s (freshBlends s) ∧ SameSecure s
    (freshBlends s) ∧ SameObjects s (freshBlends s) ∧ SameHead s (freshBlends s) ∧ SamePlan s (freshBlends s) ∧ SameSizes
    s (freshBlends s) ∧ (freshBlends s).health = s.health := by
  unfold freshBlends; simp [blendTo_frame ..]

theorem enterRunning_frame (cause : Option Nat) (s : State) : SameBase s (enterRunning cause s) ∧ SameStore s
    (enterRunning cause s) ∧ SameSizes s (enterRunning cause s) ∧ (enterRunning cause s).sec = s.sec ∧ (enterRunning cause
    s).gens = s.gens ∧ (enterRunning cause s).plan = s.plan ∧ (enterRunning cause s).time = s.time := by
  unfold enterRunning; simp [windowOpened_frame .., enterSurvey_frame .., tunersOff_frame ..,
      startObjects_frame .., freshBlends_frame .., startWindows_frame ..]

theorem compatRetune_frame (s : State) : SameBase s (compatRetune s) ∧ SameHead s (compatRetune s) ∧ SameSizes s
    (compatRetune s) ∧ (compatRetune s).link = s.link ∧ (compatRetune s).stats = s.stats ∧ (compatRetune s).sec = s.sec ∧
    (compatRetune s).survey = s.survey ∧ (compatRetune s).plan = s.plan ∧ (compatRetune s).time = s.time := by
  unfold compatRetune; simp

@[simp] theorem compatDone_frame (s : State) : SameBase s (compatDone s) ∧ SameStore s (compatDone s) ∧ SameSecure s
    (compatDone s) ∧ SameObjects s (compatDone s) ∧ SameMix s (compatDone s) ∧ SameHead s (compatDone s) ∧ SamePort s
    (compatDone s) ∧ SameSizes s (compatDone s) ∧ (compatDone s).plan = s.plan ∧ (compatDone s).time = s.time := by
  unfold compatDone; simp

theorem compatTune_frame (khz : Nat) (bw : Nat) (s : State) : SameBase s (compatTune khz bw s) ∧ SameHead s
    (compatTune khz bw s) ∧ SameSizes s (compatTune khz bw s) ∧ (compatTune khz bw s).link = s.link ∧ (compatTune khz bw
    s).stats = s.stats ∧ (compatTune khz bw s).sec = s.sec ∧ (compatTune khz bw s).survey = s.survey ∧ (compatTune khz bw
    s).plan = s.plan ∧ (compatTune khz bw s).time = s.time := by
  unfold compatTune; simp [compatRetune_frame ..]

theorem compatTuned_frame (s : State) : SameBase s (compatTuned s) ∧ SameHead s (compatTuned s) ∧ SameSizes s
    (compatTuned s) ∧ (compatTuned s).link = s.link ∧ (compatTuned s).stats = s.stats ∧ (compatTuned s).sec = s.sec ∧
    (compatTuned s).survey = s.survey ∧ (compatTuned s).plan = s.plan ∧ (compatTuned s).time = s.time := by
  unfold compatTuned; (repeat' split) <;> simp [compatRetune_frame .., compatTune_frame ..]

@[simp] theorem compatStart_frame (c : Nat) (s : State) : SameBase s (compatStart c s) ∧ SameSizes s (compatStart c s)
    ∧ (compatStart c s).link = s.link ∧ (compatStart c s).stats = s.stats ∧ (compatStart c s).sec = s.sec ∧ (compatStart c
    s).survey = s.survey ∧ (compatStart c s).cal = s.cal ∧ (compatStart c s).time = s.time := by
  unfold compatStart; simp

theorem compatApply_frame (c : Nat) (s : State) : SameBase s (compatApply c s) ∧ SameSizes s (compatApply c s) ∧
    (compatApply c s).link = s.link ∧ (compatApply c s).stats = s.stats ∧ (compatApply c s).sec = s.sec ∧ (compatApply c
    s).survey = s.survey ∧ (compatApply c s).cal = s.cal ∧ (compatApply c s).time = s.time := by
  unfold compatApply; split <;> simp [shutReception_frame ..]

theorem compatRemoved_frame (s : State) : SameBase s (compatRemoved s) ∧ SameSizes s (compatRemoved s) ∧
    (compatRemoved s).link = s.link ∧ (compatRemoved s).stats = s.stats ∧ (compatRemoved s).sec = s.sec ∧ (compatRemoved
    s).survey = s.survey ∧ (compatRemoved s).cal = s.cal ∧ (compatRemoved s).time = s.time := by
  unfold compatRemoved; simp

theorem compatCtrl_frame (c : Nat) (v : Byte) (s : State) : SameBase s (compatCtrl c v s) ∧ SameSizes s (compatCtrl c
    v s) ∧ (compatCtrl c v s).link = s.link ∧ (compatCtrl c v s).stats = s.stats ∧ (compatCtrl c v s).sec = s.sec ∧
    (compatCtrl c v s).survey = s.survey ∧ (compatCtrl c v s).cal = s.cal ∧ (compatCtrl c v s).time = s.time := by
  unfold compatCtrl; simp [compatRetune_frame .., compatApply_frame ..]

theorem compatPcm_frame (s : State) : SameBase s (compatPcm s) ∧ SameStore s (compatPcm s) ∧ SameSecure s (compatPcm
    s) ∧ SameMix s (compatPcm s) ∧ SamePlan s (compatPcm s) ∧ SamePort s (compatPcm s) ∧ SameSizes s (compatPcm s) ∧
    (compatPcm s).front = s.front ∧ (compatPcm s).cal = s.cal := by
  unfold compatPcm; simp [createPcm_frame ..]

theorem compatResume_frame (c : Nat) (s : State) : SameBase s (compatResume c s) ∧ SameSizes s (compatResume c s) ∧
    (compatResume c s).link = s.link ∧ (compatResume c s).stats = s.stats ∧ (compatResume c s).sec = s.sec ∧ (compatResume
    c s).survey = s.survey ∧ (compatResume c s).cal = s.cal ∧ (compatResume c s).time = s.time := by
  unfold compatResume; split <;> simp

theorem compatEnter_frame (s : State) : SameBase s (compatEnter s) ∧ SameSizes s (compatEnter s) ∧ (compatEnter
    s).link = s.link ∧ (compatEnter s).stats = s.stats ∧ (compatEnter s).sec = s.sec ∧ (compatEnter s).survey = s.survey ∧
    (compatEnter s).time = s.time := by
  unfold compatEnter; simp [windowOpened_frame .., compatPcm_frame .., compatResume_frame ..]

theorem compatLeave_frame (s : State) : SameBase s (compatLeave s) ∧ SameStore s (compatLeave s) ∧ SameSecure s
    (compatLeave s) ∧ SameObjects s (compatLeave s) ∧ SameHead s (compatLeave s) ∧ SamePort s (compatLeave s) ∧ SameSizes
    s (compatLeave s) ∧ (compatLeave s).health = s.health ∧ (compatLeave s).plan = s.plan ∧ (compatLeave s).time = s.time
    := by
  unfold compatLeave; simp

theorem writePlan_frame (s : State) : SameBase s (writePlan s) ∧ SameSecure s (writePlan s) ∧ SameObjects s (writePlan
    s) ∧ SameMix s (writePlan s) ∧ SameHead s (writePlan s) ∧ SamePlan s (writePlan s) ∧ SamePort s (writePlan s) ∧
    SameSizes s (writePlan s) ∧ (writePlan s).set = s.set ∧ (writePlan s).link = s.link ∧ (writePlan s).stats = s.stats :=
    by
  unfold writePlan; simp

theorem setMark_frame (cls : Nat) (i : Nat) (m : Bool) (s : State) : SameBase s (setMark cls i m s) ∧ SameStore s
    (setMark cls i m s) ∧ SameSecure s (setMark cls i m s) ∧ SameHead s (setMark cls i m s) ∧ SamePlan s (setMark cls i m
    s) ∧ SamePort s (setMark cls i m s) ∧ SameSizes s (setMark cls i m s) ∧ (setMark cls i m s).health = s.health := by
  unfold setMark; split <;> simp

theorem changeBranch_frame (i : Nat) (p : List Byte) (s : State) : SameBase s (changeBranch i p s) ∧ SameStore s
    (changeBranch i p s) ∧ SameSecure s (changeBranch i p s) ∧ SameMix s (changeBranch i p s) ∧ SameHead s (changeBranch i
    p s) ∧ SamePlan s (changeBranch i p s) ∧ SamePort s (changeBranch i p s) ∧ SameSizes s (changeBranch i p s) ∧
    (changeBranch i p s).front = s.front := by
  unfold changeBranch; split <;> simp

theorem planGang_frame (w : Nat) (p : List Byte) (s : State) : SameBase s (planGang w p s) ∧ SameStore s (planGang w p
    s) ∧ SameSizes s (planGang w p s) ∧ (planGang w p s).sec = s.sec ∧ (planGang w p s).survey = s.survey ∧ (planGang w p
    s).gens = s.gens ∧ (planGang w p s).plan = s.plan ∧ (planGang w p s).time = s.time := by
  unfold planGang; split <;> simp [dropRun_frame .., bringPartner_frame ..]

theorem planBind_frame (f : CmdFrame) (s : State) : SameBase s (planBind f s) ∧ SameStore s (planBind f s) ∧
    SameSecure s (planBind f s) ∧ SameObjects s (planBind f s) ∧ SameMix s (planBind f s) ∧ SameHead s (planBind f s) ∧
    SamePort s (planBind f s) ∧ SameSizes s (planBind f s) ∧ (planBind f s).time = s.time ∧ (planBind f s).compat =
    s.compat := by
  unfold planBind; simp

theorem createEntry_frame (op : Nat) (i : Nat) (mark : Bool) (f : CmdFrame) (s : State) : SameBase s (createEntry op i
    mark f s).1 ∧ SameStore s (createEntry op i mark f s).1 ∧ SameSecure s (createEntry op i mark f s).1 ∧ SamePlan s
    (createEntry op i mark f s).1 ∧ SamePort s (createEntry op i mark f s).1 ∧ SameSizes s (createEntry op i mark f s).1 ∧
    (createEntry op i mark f s).1.health = s.health ∧ (createEntry op i mark f s).1.cal = s.cal := by
  unfold createEntry; simp [createBranch_frame .., createTap_frame .., createPcm_frame .., createBlend_frame .., createFollow_frame .., createProbe_frame ..]

theorem changeEntry_frame (op : Nat) (cause : Option Nat) (f : CmdFrame) (s : State) : SameBase s (changeEntry op
    cause f s).1 ∧ SameStore s (changeEntry op cause f s).1 ∧ SameSizes s (changeEntry op cause f s).1 ∧ (changeEntry op
    cause f s).1.sec = s.sec ∧ (changeEntry op cause f s).1.survey = s.survey ∧ (changeEntry op cause f s).1.gens = s.gens
    ∧ (changeEntry op cause f s).1.time = s.time := by
  unfold changeEntry; simp [changeTap_frame .., changeBranch_frame .., planGang_frame .., planBind_frame ..]

theorem applyEntry_frame (cause : Option Nat) (r : PlanRun) (e : PlanEntry) : SameBase r.s (applyEntry cause r e).s ∧
    SameStore r.s (applyEntry cause r e).s ∧ SameSizes r.s (applyEntry cause r e).s ∧ (applyEntry cause r e).s.sec =
    r.s.sec ∧ (applyEntry cause r e).s.survey = r.s.survey ∧ (applyEntry cause r e).s.time = r.s.time := by
  unfold applyEntry
  split
  · simp
  · dsimp only; split
    · simp [createEntry_frame ..]
    · dsimp only; split <;> simp [changeEntry_frame .., setMark_frame ..]

theorem applyEntries_run_frame (cause : Option Nat) (es : List PlanEntry) (r : PlanRun) : SameBase r.s (es.foldl
    (applyEntry cause) r).s ∧ SameStore r.s (es.foldl (applyEntry cause) r).s ∧ SameSizes r.s (es.foldl (applyEntry cause)
    r).s ∧ (es.foldl (applyEntry cause) r).s.sec = r.s.sec ∧ (es.foldl (applyEntry cause) r).s.survey = r.s.survey ∧
    (es.foldl (applyEntry cause) r).s.time = r.s.time:= by
  induction es generalizing r with
  | nil => simp
  | cons e es ih => simp [ih, applyEntry_frame ..]

theorem clearUnstated_frame (cause : Option Nat) (r : PlanRun) : SameBase r.s (clearUnstated cause r) ∧ SameStore r.s
    (clearUnstated cause r) ∧ SameSecure r.s (clearUnstated cause r) ∧ SameHead r.s (clearUnstated cause r) ∧ SameSizes
    r.s (clearUnstated cause r) ∧ (clearUnstated cause r).front = r.s.front ∧ (clearUnstated cause r).mix = r.s.mix ∧
    (clearUnstated cause r).plan = r.s.plan ∧ (clearUnstated cause r).time = r.s.time := by
  unfold clearUnstated; simp [selectOff_frame .., measureOff_frame ..]

theorem settleMot_frame (old : List (Nat × Handle × Nat × Nat)) (s : State) : SameBase s (settleMot old s) ∧ SameStore
    s (settleMot old s) ∧ SameSecure s (settleMot old s) ∧ SameMix s (settleMot old s) ∧ SameHead s (settleMot old s) ∧
    SameSizes s (settleMot old s) ∧ (settleMot old s).front = s.front ∧ (settleMot old s).time = s.time ∧ (settleMot old
    s).compat = s.compat ∧ (settleMot old s).out = s.out := by
  unfold settleMot; simp

theorem applyEntries_frame (cause : Option Nat) (es : List PlanEntry) (s : State) : SameBase s (applyEntries cause es
    s).s ∧ SameStore s (applyEntries cause es s).s ∧ SameSizes s (applyEntries cause es s).s ∧ (applyEntries cause es
    s).s.sec = s.sec ∧ (applyEntries cause es s).s.survey = s.survey ∧ (applyEntries cause es s).s.time = s.time := by
  unfold applyEntries; dsimp only
  simp [settleMot_frame .., clearUnstated_frame .., applyEntries_run_frame ..]

theorem stripUnnamed_frame (es : List PlanEntry) (s : State) : SameBase s (stripUnnamed es s) ∧ SameStore s
    (stripUnnamed es s) ∧ SameSecure s (stripUnnamed es s) ∧ SameHead s (stripUnnamed es s) ∧ SamePlan s (stripUnnamed es
    s) ∧ SamePort s (stripUnnamed es s) ∧ SameSizes s (stripUnnamed es s) ∧ (stripUnnamed es s).health = s.health := by
  unfold stripUnnamed; simp

theorem planBeginBody_frame (f : CmdFrame) (s : State) : SameBase s (planBeginBody f s).1 ∧ SameStore s (planBeginBody
    f s).1 ∧ SameSecure s (planBeginBody f s).1 ∧ SameObjects s (planBeginBody f s).1 ∧ SameMix s (planBeginBody f s).1 ∧
    SameHead s (planBeginBody f s).1 ∧ SamePort s (planBeginBody f s).1 ∧ SameSizes s (planBeginBody f s).1 ∧
    (planBeginBody f s).1.time = s.time ∧ (planBeginBody f s).1.compat = s.compat := by
  unfold planBeginBody; simp

theorem planPartBody_frame (f : CmdFrame) (s : State) : SameBase s (planPartBody f s).1 ∧ SameStore s (planPartBody f
    s).1 ∧ SameSecure s (planPartBody f s).1 ∧ SameObjects s (planPartBody f s).1 ∧ SameMix s (planPartBody f s).1 ∧
    SameHead s (planPartBody f s).1 ∧ SamePort s (planPartBody f s).1 ∧ SameSizes s (planPartBody f s).1 ∧ (planPartBody f
    s).1.time = s.time ∧ (planPartBody f s).1.compat = s.compat := by
  unfold planPartBody; simp

theorem planDiscardBody_frame (f : CmdFrame) (s : State) : SameBase s (planDiscardBody f s).1 ∧ SameStore s
    (planDiscardBody f s).1 ∧ SameSecure s (planDiscardBody f s).1 ∧ SameObjects s (planDiscardBody f s).1 ∧ SameMix s
    (planDiscardBody f s).1 ∧ SameHead s (planDiscardBody f s).1 ∧ SamePort s (planDiscardBody f s).1 ∧ SameSizes s
    (planDiscardBody f s).1 ∧ (planDiscardBody f s).1.time = s.time ∧ (planDiscardBody f s).1.compat = s.compat := by
  unfold planDiscardBody; simp

theorem getPlanBody_frame (f : CmdFrame) (s : State) : SameBase s (getPlanBody f s).1 ∧ SameStore s (getPlanBody f
    s).1 ∧ SameSecure s (getPlanBody f s).1 ∧ SameObjects s (getPlanBody f s).1 ∧ SameMix s (getPlanBody f s).1 ∧ SameHead
    s (getPlanBody f s).1 ∧ SamePlan s (getPlanBody f s).1 ∧ SamePort s (getPlanBody f s).1 ∧ SameSizes s (getPlanBody f
    s).1 := by
  unfold getPlanBody; simp

theorem withShutting_frame (s : State) (new : State) : SameBase new (withShutting s new) ∧ SameStore new (withShutting
    s new) ∧ SameSecure new (withShutting s new) ∧ SameHead new (withShutting s new) ∧ SamePort new (withShutting s new) ∧
    SameSizes new (withShutting s new) ∧ (withShutting s new).front = new.front ∧ (withShutting s new).health = new.health
    ∧ (withShutting s new).time = new.time ∧ (withShutting s new).compat = new.compat := by
  unfold withShutting; simp

theorem shutUnnamed_frame (es : List PlanEntry) (tag : Nat) (s : State) : SameBase s (shutUnnamed es tag s) ∧
    SameStore s (shutUnnamed es tag s) ∧ SameSizes s (shutUnnamed es tag s) ∧ (shutUnnamed es tag s).sec = s.sec ∧
    (shutUnnamed es tag s).survey = s.survey ∧ (shutUnnamed es tag s).gens = s.gens ∧ (shutUnnamed es tag s).time = s.time
    := by
  unfold shutUnnamed; simp [beginClose_frame .., shutBranch_frame .., shutReception_frame .., shutTap_frame .., shutPcm_frame .., shutBlend_frame .., shutFollow_frame .., shutProbe_frame ..]

theorem commitProgress_frame (s : State) : SameBase s (commitProgress s) ∧ SameStore s (commitProgress s) ∧ SameSizes
    s (commitProgress s) ∧ (commitProgress s).sec = s.sec ∧ (commitProgress s).survey = s.survey ∧ (commitProgress s).gens
    = s.gens ∧ (commitProgress s).cal = s.cal ∧ (commitProgress s).time = s.time := by
  unfold commitProgress; simp [startObjects_frame ..]

theorem applyCommit_frame (c : PlanCommit) (s : State) : SameBase s (applyCommit c s) ∧ SameSizes s (applyCommit c s)
    ∧ (applyCommit c s).set = s.set ∧ (applyCommit c s).link = s.link ∧ (applyCommit c s).stats = s.stats ∧ (applyCommit c
    s).sec = s.sec ∧ (applyCommit c s).survey = s.survey ∧ (applyCommit c s).time = s.time := by
  unfold applyCommit; dsimp only; split <;> (repeat' split) <;> simp [startWindows_frame ..,
      writePlan_frame .., applyEntries_frame .., commitProgress_frame .., stopUnmarked_frame ..]

theorem commitContinue_frame (s : State) : SameBase s (commitContinue s) ∧ SameSizes s (commitContinue s) ∧
    (commitContinue s).set = s.set ∧ (commitContinue s).link = s.link ∧ (commitContinue s).stats = s.stats ∧
    (commitContinue s).sec = s.sec ∧ (commitContinue s).survey = s.survey ∧ (commitContinue s).time = s.time := by
  unfold commitContinue; split <;> simp [commitProgress_frame .., applyCommit_frame ..]

theorem planCommitBody_frame (f : CmdFrame) (s : State) : SameBase s (planCommitBody f s).1 ∧ SameSizes s
    (planCommitBody f s).1 ∧ (planCommitBody f s).1.set = s.set ∧ (planCommitBody f s).1.link = s.link ∧ (planCommitBody f
    s).1.stats = s.stats ∧ (planCommitBody f s).1.sec = s.sec ∧ (planCommitBody f s).1.survey = s.survey ∧ (planCommitBody
    f s).1.time = s.time := by
  unfold planCommitBody; simp [shutUnnamed_frame .., commitContinue_frame ..]

theorem receptionRemoved_frame (i : Nat) (s : State) : SameBase s (receptionRemoved i s) ∧ SameSizes s
    (receptionRemoved i s) ∧ (receptionRemoved i s).link = s.link ∧ (receptionRemoved i s).stats = s.stats ∧
    (receptionRemoved i s).sec = s.sec ∧ (receptionRemoved i s).survey = s.survey ∧ (receptionRemoved i s).cal = s.cal ∧
    (receptionRemoved i s).time = s.time := by
  unfold receptionRemoved; split <;> simp [finishReception_frame .., compatRemoved_frame .., decideLost_frame ..]

theorem sendXfer_frame (x : Xfer) (s : State) : SameBase s (sendXfer x s) ∧ SameStore s (sendXfer x s) ∧ SameSecure s
    (sendXfer x s) ∧ SameObjects s (sendXfer x s) ∧ SameMix s (sendXfer x s) ∧ SameHead s (sendXfer x s) ∧ SamePlan s
    (sendXfer x s) ∧ SameSizes s (sendXfer x s) ∧ (sendXfer x s).port = s.port := by
  unfold sendXfer; (repeat' split) <;> simp

theorem startBus_frame (s : State) : SameStore s (startBus s) ∧ SameSecure s (startBus s) ∧ SameObjects s (startBus s)
    ∧ SameMix s (startBus s) ∧ SameHead s (startBus s) ∧ SamePlan s (startBus s) ∧ SameSizes s (startBus s) ∧ (startBus
    s).pending = s.pending ∧ (startBus s).pwr = s.pwr ∧ (startBus s).clk = s.clk ∧ (startBus s).port = s.port := by
  unfold startBus; (repeat' split) <;> simp [sendXfer_frame ..]

theorem dropXfer_frame (id : Nat) (s : State) : SameStore s (dropXfer id s) ∧ SameSecure s (dropXfer id s) ∧
    SameObjects s (dropXfer id s) ∧ SameMix s (dropXfer id s) ∧ SameHead s (dropXfer id s) ∧ SamePlan s (dropXfer id s) ∧
    SamePort s (dropXfer id s) ∧ SameSizes s (dropXfer id s) ∧ (dropXfer id s).pending = s.pending ∧ (dropXfer id s).pwr =
    s.pwr ∧ (dropXfer id s).clk = s.clk := by
  unfold dropXfer; simp

theorem requeue_frame (id : Nat) (g : Xfer → Xfer) (s : State) : SameStore s (requeue id g s) ∧ SameSecure s (requeue
    id g s) ∧ SameObjects s (requeue id g s) ∧ SameMix s (requeue id g s) ∧ SameHead s (requeue id g s) ∧ SamePlan s
    (requeue id g s) ∧ SamePort s (requeue id g s) ∧ SameSizes s (requeue id g s) ∧ (requeue id g s).pending = s.pending ∧
    (requeue id g s).pwr = s.pwr ∧ (requeue id g s).clk = s.clk := by
  unfold requeue; simp

theorem answerXfer_frame (id : Nat) (r : BusResult) (s : State) : SameStore s (answerXfer id r s) ∧ SameSecure s
    (answerXfer id r s) ∧ SameObjects s (answerXfer id r s) ∧ SameMix s (answerXfer id r s) ∧ SamePlan s (answerXfer id r
    s) ∧ SameSizes s (answerXfer id r s) ∧ (answerXfer id r s).pending = s.pending ∧ (answerXfer id r s).pwr = s.pwr ∧
    (answerXfer id r s).clk = s.clk ∧ (answerXfer id r s).gens = s.gens ∧ (answerXfer id r s).cal = s.cal := by
  unfold answerXfer; simp [dropXfer_frame ..]

theorem busStuck_frame (s : State) : SameStore s (busStuck s) ∧ SameSecure s (busStuck s) ∧ SameObjects s (busStuck s)
    ∧ SameMix s (busStuck s) ∧ SamePlan s (busStuck s) ∧ SameSizes s (busStuck s) ∧ (busStuck s).pending = s.pending ∧
    (busStuck s).pwr = s.pwr ∧ (busStuck s).clk = s.clk ∧ (busStuck s).gens = s.gens ∧ (busStuck s).cal = s.cal := by
  unfold busStuck; simp [answerXfer_frame ..]

theorem supplyEnds_frame (x : Xfer) (r : BusResult) (s : State) : SameStore s (supplyEnds x r s) ∧ SameSecure s
    (supplyEnds x r s) ∧ SameObjects s (supplyEnds x r s) ∧ SameHead s (supplyEnds x r s) ∧ SamePlan s (supplyEnds x r s)
    ∧ SameSizes s (supplyEnds x r s) ∧ (supplyEnds x r s).pending = s.pending ∧ (supplyEnds x r s).pwr = s.pwr ∧
    (supplyEnds x r s).clk = s.clk ∧ (supplyEnds x r s).mix = s.mix := by
  unfold supplyEnds; simp [queueSupply_frame .., dropXfer_frame .., requeue_frame ..]

theorem attentionEnds_frame (x : Xfer) (r : BusResult) (s : State) : SameStore s (attentionEnds x r s) ∧ SameSecure s
    (attentionEnds x r s) ∧ SameObjects s (attentionEnds x r s) ∧ SameMix s (attentionEnds x r s) ∧ SameHead s
    (attentionEnds x r s) ∧ SamePlan s (attentionEnds x r s) ∧ SamePort s (attentionEnds x r s) ∧ SameSizes s
    (attentionEnds x r s) ∧ (attentionEnds x r s).pending = s.pending ∧ (attentionEnds x r s).pwr = s.pwr ∧ (attentionEnds
    x r s).clk = s.clk := by
  unfold attentionEnds; simp [dropXfer_frame .., requeue_frame ..]

theorem xferEnds_frame (x : Xfer) (r : BusResult) (s : State) : SameStore s (xferEnds x r s) ∧ SameSecure s (xferEnds
    x r s) ∧ SameObjects s (xferEnds x r s) ∧ SamePlan s (xferEnds x r s) ∧ SameSizes s (xferEnds x r s) ∧ (xferEnds x r
    s).pending = s.pending ∧ (xferEnds x r s).pwr = s.pwr ∧ (xferEnds x r s).clk = s.clk ∧ (xferEnds x r s).mix = s.mix ∧
    (xferEnds x r s).gens = s.gens ∧ (xferEnds x r s).cal = s.cal := by
  unfold xferEnds; dsimp only; split <;> simp [dropXfer_frame .., requeue_frame .., answerXfer_frame .., busStuck_frame .., supplyEnds_frame .., attentionEnds_frame ..]

theorem busXferBody_frame (f : CmdFrame) (s : State) : SameSecure s (busXferBody f s).1 ∧ SameObjects s (busXferBody f
    s).1 ∧ SameMix s (busXferBody f s).1 ∧ SamePlan s (busXferBody f s).1 ∧ SamePort s (busXferBody f s).1 ∧ SameSizes s
    (busXferBody f s).1 ∧ (busXferBody f s).1.pending = s.pending ∧ (busXferBody f s).1.pwr = s.pwr ∧ (busXferBody f
    s).1.clk = s.clk ∧ (busXferBody f s).1.link = s.link ∧ (busXferBody f s).1.stats = s.stats ∧ (busXferBody f s).1.gens
    = s.gens ∧ (busXferBody f s).1.cal = s.cal := by
  unfold busXferBody; simp [queueXfer_frame ..]

theorem sendAttention_frame (s : State) : SameStore s (sendAttention s) ∧ SameSecure s (sendAttention s) ∧ SameObjects
    s (sendAttention s) ∧ SameMix s (sendAttention s) ∧ SameHead s (sendAttention s) ∧ SamePlan s (sendAttention s) ∧
    SameSizes s (sendAttention s) ∧ (sendAttention s).pending = s.pending ∧ (sendAttention s).pwr = s.pwr ∧ (sendAttention
    s).clk = s.clk ∧ (sendAttention s).port = s.port := by
  unfold sendAttention; simp [queueXfer_frame .., startBus_frame ..]

theorem gpioConfigBody_frame (f : CmdFrame) (s : State) : SameBase s (gpioConfigBody f s).1 ∧ SameSecure s
    (gpioConfigBody f s).1 ∧ SameObjects s (gpioConfigBody f s).1 ∧ SameHead s (gpioConfigBody f s).1 ∧ SamePlan s
    (gpioConfigBody f s).1 ∧ SameSizes s (gpioConfigBody f s).1 ∧ (gpioConfigBody f s).1.stats = s.stats ∧ (gpioConfigBody
    f s).1.mix = s.mix := by
  unfold gpioConfigBody; simp [noteBy_frame ..]

theorem getGpioBody_frame (f : CmdFrame) (s : State) : SameBase s (getGpioBody f s).1 ∧ SameStore s (getGpioBody f
    s).1 ∧ SameObjects s (getGpioBody f s).1 ∧ SameMix s (getGpioBody f s).1 ∧ SameHead s (getGpioBody f s).1 ∧ SamePlan s
    (getGpioBody f s).1 ∧ SamePort s (getGpioBody f s).1 ∧ SameSizes s (getGpioBody f s).1 ∧ (getGpioBody f s).1.sec =
    s.sec ∧ (getGpioBody f s).1.survey = s.survey := by
  unfold getGpioBody; simp

theorem triggerAdc_frame (x0 : Nat) (s : State) : SameBase s (triggerAdc x0 s) ∧ SameStore s (triggerAdc x0 s) ∧
    SameSecure s (triggerAdc x0 s) ∧ SameObjects s (triggerAdc x0 s) ∧ SameMix s (triggerAdc x0 s) ∧ SamePlan s
    (triggerAdc x0 s) ∧ SamePort s (triggerAdc x0 s) ∧ SameSizes s (triggerAdc x0 s) ∧ (triggerAdc x0 s).head = s.head ∧
    (triggerAdc x0 s).gens = s.gens := by
  unfold triggerAdc; simp

theorem powerUpTriggers_frame (s : State) : SameBase s (powerUpTriggers s) ∧ SameStore s (powerUpTriggers s) ∧
    SameSecure s (powerUpTriggers s) ∧ SameObjects s (powerUpTriggers s) ∧ SameMix s (powerUpTriggers s) ∧ SamePlan s
    (powerUpTriggers s) ∧ SamePort s (powerUpTriggers s) ∧ SameSizes s (powerUpTriggers s) ∧ (powerUpTriggers s).head =
    s.head ∧ (powerUpTriggers s).gens = s.gens := by
  unfold powerUpTriggers; simp [triggerAdc_frame ..]

theorem compareTemperature_frame (t : State) (x : Int × Nat) : SameBase t (compareTemperature t x) ∧ SameStore t
    (compareTemperature t x) ∧ SameSecure t (compareTemperature t x) ∧ SameObjects t (compareTemperature t x) ∧ SameMix t
    (compareTemperature t x) ∧ SamePlan t (compareTemperature t x) ∧ SamePort t (compareTemperature t x) ∧ SameSizes t
    (compareTemperature t x) ∧ (compareTemperature t x).head = t.head ∧ (compareTemperature t x).gens = t.gens := by
  unfold compareTemperature; simp [triggerAdc_frame ..]

theorem beginStats_frame (x0 : Nat) (s : State) : SameBase s (beginStats x0 s) ∧ SameStore s (beginStats x0 s) ∧
    SameSecure s (beginStats x0 s) ∧ SameObjects s (beginStats x0 s) ∧ SameMix s (beginStats x0 s) ∧ SamePlan s
    (beginStats x0 s) ∧ SamePort s (beginStats x0 s) ∧ SameSizes s (beginStats x0 s) ∧ (beginStats x0 s).head = s.head ∧
    (beginStats x0 s).gens = s.gens := by
  unfold beginStats; simp

theorem noteUnqualified_frame (x0 : Nat) (kind : Nat) (qual : Nat) (v : Int) (asked : Bool) (s : State) : SameBase s
    (noteUnqualified x0 kind qual v asked s) ∧ SameStore s (noteUnqualified x0 kind qual v asked s) ∧ SameSecure s
    (noteUnqualified x0 kind qual v asked s) ∧ SameObjects s (noteUnqualified x0 kind qual v asked s) ∧ SameMix s
    (noteUnqualified x0 kind qual v asked s) ∧ SamePlan s (noteUnqualified x0 kind qual v asked s) ∧ SameSizes s
    (noteUnqualified x0 kind qual v asked s) ∧ (noteUnqualified x0 kind qual v asked s).head = s.head ∧ (noteUnqualified
    x0 kind qual v asked s).gens = s.gens := by
  unfold noteUnqualified; simp

theorem endAsked_frame (x0 : Nat) (kind : Nat) (res : Nat) (asked : Bool) (s : State) : SameBase s (endAsked x0 kind
    res asked s) ∧ SameStore s (endAsked x0 kind res asked s) ∧ SameSecure s (endAsked x0 kind res asked s) ∧ SameObjects
    s (endAsked x0 kind res asked s) ∧ SameMix s (endAsked x0 kind res asked s) ∧ SamePlan s (endAsked x0 kind res asked
    s) ∧ SameSizes s (endAsked x0 kind res asked s) ∧ (endAsked x0 kind res asked s).gens = s.gens := by
  unfold endAsked; simp [runResult_frame .., calRunEnds_frame ..]

theorem chooseSpares_frame (m : List Int) (s : State) : SameBase s (chooseSpares m s).2 ∧ SameStore s (chooseSpares m
    s).2 ∧ SameObjects s (chooseSpares m s).2 ∧ SameMix s (chooseSpares m s).2 ∧ SameHead s (chooseSpares m s).2 ∧
    SamePlan s (chooseSpares m s).2 ∧ SamePort s (chooseSpares m s).2 ∧ SameSizes s (chooseSpares m s).2 ∧ (chooseSpares m
    s).2.sec = s.sec ∧ (chooseSpares m s).2.survey = s.survey := by
  unfold chooseSpares; dsimp only; (repeat' split) <;> simp

theorem computeChoice_frame (x0 : Nat) (m : ElemStats) (s : State) : SameBase s (computeChoice x0 m s).2 ∧ SameStore s
    (computeChoice x0 m s).2 ∧ SameObjects s (computeChoice x0 m s).2 ∧ SameMix s (computeChoice x0 m s).2 ∧ SameHead s
    (computeChoice x0 m s).2 ∧ SamePlan s (computeChoice x0 m s).2 ∧ SamePort s (computeChoice x0 m s).2 ∧ SameSizes s
    (computeChoice x0 m s).2 ∧ (computeChoice x0 m s).2.sec = s.sec ∧ (computeChoice x0 m s).2.survey = s.survey := by
  unfold computeChoice; (repeat' split) <;> simp [chooseSpares_frame ..]

theorem modRecordAdc_frame (x0 : Nat) (g : CalAdc → CalAdc) (s : State) : SameBase s (modRecordAdc x0 g s) ∧ SameStore
    s (modRecordAdc x0 g s) ∧ SameSecure s (modRecordAdc x0 g s) ∧ SameObjects s (modRecordAdc x0 g s) ∧ SameMix s
    (modRecordAdc x0 g s) ∧ SamePlan s (modRecordAdc x0 g s) ∧ SamePort s (modRecordAdc x0 g s) ∧ SameSizes s
    (modRecordAdc x0 g s) ∧ (modRecordAdc x0 g s).head = s.head ∧ (modRecordAdc x0 g s).gens = s.gens := by
  unfold modRecordAdc; simp

theorem calChanged_frame (s : State) : SameBase s (calChanged s) ∧ SameSecure s (calChanged s) ∧ SameObjects s
    (calChanged s) ∧ SameMix s (calChanged s) ∧ SameHead s (calChanged s) ∧ SamePlan s (calChanged s) ∧ SamePort s
    (calChanged s) ∧ SameSizes s (calChanged s) ∧ (calChanged s).set = s.set ∧ (calChanged s).link = s.link ∧ (calChanged
    s).stats = s.stats := by
  unfold calChanged; simp

theorem afterInterruption_frame (w : Nat) (s : State) : SameBase s (afterInterruption w s) ∧ SameStore s
    (afterInterruption w s) ∧ SameSizes s (afterInterruption w s) ∧ (afterInterruption w s).sec = s.sec ∧
    (afterInterruption w s).survey = s.survey ∧ (afterInterruption w s).gens = s.gens ∧ (afterInterruption w s).plan =
    s.plan ∧ (afterInterruption w s).time = s.time := by
  unfold afterInterruption; simp [startWaitingRetune_frame .., beginClose_frame ..]

theorem storePoint_frame (x0 : Nat) (s : State) : SameBase s (storePoint x0 s) ∧ SameSecure s (storePoint x0 s) ∧
    SameObjects s (storePoint x0 s) ∧ SameMix s (storePoint x0 s) ∧ SamePlan s (storePoint x0 s) ∧ SamePort s (storePoint
    x0 s) ∧ SameSizes s (storePoint x0 s) ∧ (storePoint x0 s).set = s.set ∧ (storePoint x0 s).link = s.link ∧ (storePoint
    x0 s).stats = s.stats ∧ (storePoint x0 s).head = s.head ∧ (storePoint x0 s).gens = s.gens := by
  unfold storePoint; split <;> simp [calChanged_frame ..]

theorem startRun_frame (r : CalRun) (s : State) : SameBase s (startRun r s) ∧ SameStore s (startRun r s) ∧ SameSecure
    s (startRun r s) ∧ SameObjects s (startRun r s) ∧ SameMix s (startRun r s) ∧ SamePlan s (startRun r s) ∧ SamePort s
    (startRun r s) ∧ SameSizes s (startRun r s) ∧ (startRun r s).head = s.head ∧ (startRun r s).gens = s.gens := by
  unfold startRun; simp

theorem calRunBody_frame (f : CmdFrame) (s : State) : SameBase s (calRunBody f s).1 ∧ SameStore s (calRunBody f s).1 ∧
    SameSecure s (calRunBody f s).1 ∧ SameObjects s (calRunBody f s).1 ∧ SameMix s (calRunBody f s).1 ∧ SamePlan s
    (calRunBody f s).1 ∧ SameSizes s (calRunBody f s).1 ∧ (calRunBody f s).1.gens = s.gens := by
  unfold calRunBody; simp [calRunEnds_frame .., startRun_frame ..]

theorem calConfigBody_frame (f : CmdFrame) (s : State) : SameBase s (calConfigBody f s).1 ∧ SameSecure s
    (calConfigBody f s).1 ∧ SameObjects s (calConfigBody f s).1 ∧ SameMix s (calConfigBody f s).1 ∧ SameHead s
    (calConfigBody f s).1 ∧ SamePlan s (calConfigBody f s).1 ∧ SamePort s (calConfigBody f s).1 ∧ SameSizes s
    (calConfigBody f s).1 ∧ (calConfigBody f s).1.link = s.link ∧ (calConfigBody f s).1.stats = s.stats := by
  unfold calConfigBody; simp

theorem getCalBody_frame (f : CmdFrame) (s : State) : SameBase s (getCalBody f s).1 ∧ SameStore s (getCalBody f s).1 ∧
    SameSecure s (getCalBody f s).1 ∧ SameObjects s (getCalBody f s).1 ∧ SameMix s (getCalBody f s).1 ∧ SameHead s
    (getCalBody f s).1 ∧ SamePlan s (getCalBody f s).1 ∧ SamePort s (getCalBody f s).1 ∧ SameSizes s (getCalBody f s).1 :=
    by
  unfold getCalBody; simp

theorem setMargins_frame (l : List Int) (s : State) : SameBase s (setMargins l s) ∧ SameStore s (setMargins l s) ∧
    SameSecure s (setMargins l s) ∧ SameObjects s (setMargins l s) ∧ SameMix s (setMargins l s) ∧ SamePlan s (setMargins l
    s) ∧ SamePort s (setMargins l s) ∧ SameSizes s (setMargins l s) ∧ (setMargins l s).head = s.head ∧ (setMargins l
    s).gens = s.gens := by
  unfold setMargins; simp

theorem setVdd_frame (mv : Nat) (s : State) : SameStore s (setVdd mv s) ∧ SameSecure s (setVdd mv s) ∧ SameObjects s
    (setVdd mv s) ∧ SameMix s (setVdd mv s) ∧ SamePlan s (setVdd mv s) ∧ SamePort s (setVdd mv s) ∧ SameSizes s (setVdd mv
    s) ∧ (setVdd mv s).pending = s.pending ∧ (setVdd mv s).pwr = s.pwr ∧ (setVdd mv s).clk = s.clk ∧ (setVdd mv s).head =
    s.head ∧ (setVdd mv s).gens = s.gens := by
  unfold setVdd; simp [queueSupply_frame ..]

theorem supplySettled_frame (s : State) : SameStore s (supplySettled s) ∧ SameSecure s (supplySettled s) ∧ SameObjects
    s (supplySettled s) ∧ SameMix s (supplySettled s) ∧ SameHead s (supplySettled s) ∧ SamePort s (supplySettled s) ∧
    SameSizes s (supplySettled s) ∧ (supplySettled s).pending = s.pending ∧ (supplySettled s).pwr = s.pwr ∧ (supplySettled
    s).bus = s.bus ∧ (supplySettled s).plan = s.plan ∧ (supplySettled s).compat = s.compat := by
  unfold supplySettled; (repeat' split) <;> simp [passTo_frame ..]

theorem assessmentDue_frame (s : State) : SameStore s (assessmentDue s) ∧ SameSecure s (assessmentDue s) ∧ SameObjects
    s (assessmentDue s) ∧ SameMix s (assessmentDue s) ∧ SamePort s (assessmentDue s) ∧ SameSizes s (assessmentDue s) ∧
    (assessmentDue s).pending = s.pending ∧ (assessmentDue s).pwr = s.pwr ∧ (assessmentDue s).bus = s.bus ∧ (assessmentDue
    s).head = s.head ∧ (assessmentDue s).gens = s.gens ∧ (assessmentDue s).plan = s.plan ∧ (assessmentDue s).compat =
    s.compat := by
  unfold assessmentDue; (repeat' split) <;> simp [pass_frame ..]

theorem reduceDividers_frame (s : State) : SameBase s (reduceDividers s) ∧ SameStore s (reduceDividers s) ∧ SameSizes
    s (reduceDividers s) ∧ (reduceDividers s).sec = s.sec ∧ (reduceDividers s).survey = s.survey ∧ (reduceDividers s).head
    = s.head ∧ (reduceDividers s).gens = s.gens ∧ (reduceDividers s).plan = s.plan ∧ (reduceDividers s).time = s.time :=
    by
  unfold reduceDividers; simp [shedToLimit_frame ..]

theorem foldHours_frame (s : State) : SameBase s (foldHours s) ∧ SameStore s (foldHours s) ∧ SameSecure s (foldHours
    s) ∧ SameObjects s (foldHours s) ∧ SameMix s (foldHours s) ∧ SamePlan s (foldHours s) ∧ SamePort s (foldHours s) ∧
    SameSizes s (foldHours s) ∧ (foldHours s).head = s.head ∧ (foldHours s).gens = s.gens := by
  unfold foldHours; simp

theorem getAgeingBody_frame (f : CmdFrame) (s : State) : SameBase s (getAgeingBody f s).1 ∧ SameStore s (getAgeingBody
    f s).1 ∧ SameSecure s (getAgeingBody f s).1 ∧ SameObjects s (getAgeingBody f s).1 ∧ SameMix s (getAgeingBody f s).1 ∧
    SameHead s (getAgeingBody f s).1 ∧ SamePlan s (getAgeingBody f s).1 ∧ SamePort s (getAgeingBody f s).1 ∧ SameSizes s
    (getAgeingBody f s).1 := by
  unfold getAgeingBody; simp

theorem supplyConfigBody_frame (f : CmdFrame) (s : State) : SameSecure s (supplyConfigBody f s).1 ∧ SameObjects s
    (supplyConfigBody f s).1 ∧ SameMix s (supplyConfigBody f s).1 ∧ SamePlan s (supplyConfigBody f s).1 ∧ SamePort s
    (supplyConfigBody f s).1 ∧ SameSizes s (supplyConfigBody f s).1 ∧ (supplyConfigBody f s).1.pending = s.pending ∧
    (supplyConfigBody f s).1.pwr = s.pwr ∧ (supplyConfigBody f s).1.clk = s.clk ∧ (supplyConfigBody f s).1.link = s.link ∧
    (supplyConfigBody f s).1.stats = s.stats ∧ (supplyConfigBody f s).1.head = s.head ∧ (supplyConfigBody f s).1.gens =
    s.gens := by
  unfold supplyConfigBody; simp [queueSupply_frame ..]

theorem getSupplyConfigBody_frame (f : CmdFrame) (s : State) : SameBase s (getSupplyConfigBody f s).1 ∧ SameStore s
    (getSupplyConfigBody f s).1 ∧ SameSecure s (getSupplyConfigBody f s).1 ∧ SameObjects s (getSupplyConfigBody f s).1 ∧
    SameMix s (getSupplyConfigBody f s).1 ∧ SameHead s (getSupplyConfigBody f s).1 ∧ SamePlan s (getSupplyConfigBody f
    s).1 ∧ SamePort s (getSupplyConfigBody f s).1 ∧ SameSizes s (getSupplyConfigBody f s).1 := by
  unfold getSupplyConfigBody; simp

theorem decodeHeader_frame (sl : Nat) (sent : List Bool) (s : State) : SameBase s (decodeHeader sl sent s).2 ∧
    SameStore s (decodeHeader sl sent s).2 ∧ SameObjects s (decodeHeader sl sent s).2 ∧ SameMix s (decodeHeader sl sent
    s).2 ∧ SameHead s (decodeHeader sl sent s).2 ∧ SamePlan s (decodeHeader sl sent s).2 ∧ SamePort s (decodeHeader sl
    sent s).2 ∧ SameSizes s (decodeHeader sl sent s).2 ∧ (decodeHeader sl sent s).2.sec = s.sec ∧ (decodeHeader sl sent
    s).2.survey = s.survey := by
  unfold decodeHeader; dsimp only; split <;> simp

theorem decodeBody_frame (sl : Nat) (rate : Nat) (n : Nat) (sent : List Bool) (s : State) : SameBase s (decodeBody sl
    rate n sent s).2 ∧ SameStore s (decodeBody sl rate n sent s).2 ∧ SameObjects s (decodeBody sl rate n sent s).2 ∧
    SameMix s (decodeBody sl rate n sent s).2 ∧ SameHead s (decodeBody sl rate n sent s).2 ∧ SamePlan s (decodeBody sl
    rate n sent s).2 ∧ SamePort s (decodeBody sl rate n sent s).2 ∧ SameSizes s (decodeBody sl rate n sent s).2 ∧
    (decodeBody sl rate n sent s).2.sec = s.sec ∧ (decodeBody sl rate n sent s).2.survey = s.survey := by
  unfold decodeBody; dsimp only; split <;> simp [drawBytes_frame ..]

theorem reach_frame (t : Int) (s : State) : SameStore s (reach t s) ∧ SameSecure s (reach t s) ∧ SameObjects s (reach
    t s) ∧ SameMix s (reach t s) ∧ SameHead s (reach t s) ∧ SamePort s (reach t s) ∧ SameSizes s (reach t s) ∧ (reach t
    s).pending = s.pending ∧ (reach t s).pwr = s.pwr ∧ (reach t s).bus = s.bus ∧ (reach t s).plan = s.plan ∧ (reach t
    s).compat = s.compat := by
  unfold reach; simp [pass_frame ..]

theorem setLinkState_frame (st : LinkState) (cause : Option Nat) (s : State) : SameBase s (setLinkState st cause s) ∧
    SameSecure s (setLinkState st cause s) ∧ SameObjects s (setLinkState st cause s) ∧ SameMix s (setLinkState st cause s)
    ∧ SameHead s (setLinkState st cause s) ∧ SamePlan s (setLinkState st cause s) ∧ SameSizes s (setLinkState st cause s)
    ∧ (setLinkState st cause s).set = s.set ∧ (setLinkState st cause s).store = s.store ∧ (setLinkState st cause s).stats
    = s.stats := by
  unfold setLinkState; simp

theorem radioGo_frame (r : Radio) (s : State) : SameBase s (radioGo r s) ∧ SameSecure s (radioGo r s) ∧ SameObjects s
    (radioGo r s) ∧ SameMix s (radioGo r s) ∧ SameHead s (radioGo r s) ∧ SamePlan s (radioGo r s) ∧ SamePort s (radioGo r
    s) ∧ SameSizes s (radioGo r s) ∧ (radioGo r s).set = s.set ∧ (radioGo r s).store = s.store ∧ (radioGo r s).stats =
    s.stats := by
  unfold radioGo; simp

theorem radioRest_frame (s : State) : SameBase s (radioRest s) ∧ SameSecure s (radioRest s) ∧ SameObjects s (radioRest
    s) ∧ SameMix s (radioRest s) ∧ SameHead s (radioRest s) ∧ SamePlan s (radioRest s) ∧ SamePort s (radioRest s) ∧
    SameSizes s (radioRest s) ∧ (radioRest s).set = s.set ∧ (radioRest s).store = s.store ∧ (radioRest s).stats = s.stats
    := by
  unfold radioRest; simp [radioGo_frame ..]

@[simp] theorem linkRefresh_frame (cause : Option Nat) (s : State) : SameBase s (linkRefresh cause s) ∧ SameSecure s
    (linkRefresh cause s) ∧ SameObjects s (linkRefresh cause s) ∧ SameMix s (linkRefresh cause s) ∧ SameHead s
    (linkRefresh cause s) ∧ SamePlan s (linkRefresh cause s) ∧ SameSizes s (linkRefresh cause s) ∧ (linkRefresh cause
    s).set = s.set ∧ (linkRefresh cause s).store = s.store ∧ (linkRefresh cause s).stats = s.stats := by
  unfold linkRefresh; simp [setLinkState_frame .., radioRest_frame ..]

@[simp] theorem countLink_frame (i : Nat) (s : State) : SameBase s (countLink i s) ∧ SameSecure s (countLink i s) ∧
    SameObjects s (countLink i s) ∧ SameMix s (countLink i s) ∧ SameHead s (countLink i s) ∧ SamePlan s (countLink i s) ∧
    SamePort s (countLink i s) ∧ SameSizes s (countLink i s) ∧ (countLink i s).set = s.set ∧ (countLink i s).store =
    s.store ∧ (countLink i s).link = s.link := by
  unfold countLink; simp

theorem drbgRequest_frame (s : State) : SameBase s (drbgRequest s) ∧ SameStore s (drbgRequest s) ∧ SameObjects s
    (drbgRequest s) ∧ SameMix s (drbgRequest s) ∧ SameHead s (drbgRequest s) ∧ SamePlan s (drbgRequest s) ∧ SamePort s
    (drbgRequest s) ∧ SameSizes s (drbgRequest s) ∧ (drbgRequest s).survey = s.survey ∧ (drbgRequest s).fresh = s.fresh :=
    by
  unfold drbgRequest; simp

theorem writeCounters_frame (s : State) : SameBase s (writeCounters s) ∧ SameSecure s (writeCounters s) ∧ SameObjects
    s (writeCounters s) ∧ SameMix s (writeCounters s) ∧ SameHead s (writeCounters s) ∧ SamePlan s (writeCounters s) ∧
    SamePort s (writeCounters s) ∧ SameSizes s (writeCounters s) ∧ (writeCounters s).set = s.set ∧ (writeCounters s).link
    = s.link ∧ (writeCounters s).stats = s.stats := by
  unfold writeCounters; simp

theorem takeCounter_frame (s : State) : SameBase s (takeCounter s).2 ∧ SameSecure s (takeCounter s).2 ∧ SameObjects s
    (takeCounter s).2 ∧ SameMix s (takeCounter s).2 ∧ SameHead s (takeCounter s).2 ∧ SamePlan s (takeCounter s).2 ∧
    SamePort s (takeCounter s).2 ∧ SameSizes s (takeCounter s).2 ∧ (takeCounter s).2.set = s.set ∧ (takeCounter s).2.stats
    = s.stats := by
  unfold takeCounter; dsimp only; split <;> simp [writeCounters_frame ..]

theorem chargeLedger_frame (i : Nat) (units : Nat) (s : State) : SameBase s (chargeLedger i units s) ∧ SameSecure s
    (chargeLedger i units s) ∧ SameObjects s (chargeLedger i units s) ∧ SameMix s (chargeLedger i units s) ∧ SameHead s
    (chargeLedger i units s) ∧ SamePlan s (chargeLedger i units s) ∧ SamePort s (chargeLedger i units s) ∧ SameSizes s
    (chargeLedger i units s) ∧ (chargeLedger i units s).set = s.set ∧ (chargeLedger i units s).store = s.store ∧
    (chargeLedger i units s).stats = s.stats := by
  unfold chargeLedger; simp

theorem modTx_frame (counter : Nat) (g : TxFrame → TxFrame) (s : State) : SameBase s (modTx counter g s) ∧ SameSecure
    s (modTx counter g s) ∧ SameObjects s (modTx counter g s) ∧ SameMix s (modTx counter g s) ∧ SameHead s (modTx counter
    g s) ∧ SamePlan s (modTx counter g s) ∧ SamePort s (modTx counter g s) ∧ SameSizes s (modTx counter g s) ∧ (modTx
    counter g s).set = s.set ∧ (modTx counter g s).store = s.store ∧ (modTx counter g s).stats = s.stats := by
  unfold modTx; simp

theorem removeTx_frame (counter : Nat) (s : State) : SameBase s (removeTx counter s) ∧ SameSecure s (removeTx counter
    s) ∧ SameObjects s (removeTx counter s) ∧ SameMix s (removeTx counter s) ∧ SameHead s (removeTx counter s) ∧ SamePlan
    s (removeTx counter s) ∧ SamePort s (removeTx counter s) ∧ SameSizes s (removeTx counter s) ∧ (removeTx counter s).set
    = s.set ∧ (removeTx counter s).store = s.store ∧ (removeTx counter s).stats = s.stats := by
  unfold removeTx; simp

theorem dropTx_frame (fr : TxFrame) (reason : Nat) (cause : Option Nat) (s : State) : SameBase s (dropTx fr reason
    cause s) ∧ SameSecure s (dropTx fr reason cause s) ∧ SameObjects s (dropTx fr reason cause s) ∧ SameMix s (dropTx fr
    reason cause s) ∧ SameHead s (dropTx fr reason cause s) ∧ SamePlan s (dropTx fr reason cause s) ∧ SameSizes s (dropTx
    fr reason cause s) ∧ (dropTx fr reason cause s).set = s.set ∧ (dropTx fr reason cause s).store = s.store := by
  unfold dropTx; simp [removeTx_frame ..]

theorem dropAllTx_frame (reason : Nat) (cause : Option Nat) (s : State) : SameBase s (dropAllTx reason cause s) ∧
    SameSecure s (dropAllTx reason cause s) ∧ SameObjects s (dropAllTx reason cause s) ∧ SameMix s (dropAllTx reason cause
    s) ∧ SameHead s (dropAllTx reason cause s) ∧ SamePlan s (dropAllTx reason cause s) ∧ SameSizes s (dropAllTx reason
    cause s) ∧ (dropAllTx reason cause s).set = s.set ∧ (dropAllTx reason cause s).store = s.store := by
  unfold dropAllTx; simp [dropTx_frame ..]

@[simp] theorem postExhausted_frame (sub : Nat) (counter : Nat) (needMs : Nat) (s : State) : SameBase s (postExhausted
    sub counter needMs s) ∧ SameStore s (postExhausted sub counter needMs s) ∧ SameSecure s (postExhausted sub counter
    needMs s) ∧ SameObjects s (postExhausted sub counter needMs s) ∧ SameMix s (postExhausted sub counter needMs s) ∧
    SameHead s (postExhausted sub counter needMs s) ∧ SamePlan s (postExhausted sub counter needMs s) ∧ SameSizes s
    (postExhausted sub counter needMs s) := by
  unfold postExhausted; simp

theorem deferTx_frame (fr : TxFrame) (reason : Nat) (next : Nat) (duty : Option (Nat × Nat)) (s : State) : SameBase s
    (deferTx fr reason next duty s) ∧ SameSecure s (deferTx fr reason next duty s) ∧ SameObjects s (deferTx fr reason next
    duty s) ∧ SameMix s (deferTx fr reason next duty s) ∧ SameHead s (deferTx fr reason next duty s) ∧ SamePlan s (deferTx
    fr reason next duty s) ∧ SameSizes s (deferTx fr reason next duty s) ∧ (deferTx fr reason next duty s).set = s.set ∧
    (deferTx fr reason next duty s).store = s.store := by
  unfold deferTx; (repeat' split) <;> simp [modTx_frame .., dropTx_frame ..]

theorem offerLink_frame (stamp : Tick) (p : List Byte) (s : State) : SameBase s (offerLink stamp p s) ∧ SameStore s
    (offerLink stamp p s) ∧ SameSecure s (offerLink stamp p s) ∧ SameObjects s (offerLink stamp p s) ∧ SameMix s
    (offerLink stamp p s) ∧ SameHead s (offerLink stamp p s) ∧ SamePlan s (offerLink stamp p s) ∧ SameSizes s (offerLink
    stamp p s) := by
  unfold offerLink; split <;> simp [offerShaving_frame ..]

theorem reportTx_frame (fr : TxFrame) (status : Nat) (stamp : Tick) (s : State) : SameBase s (reportTx fr status stamp
    s) ∧ SameSecure s (reportTx fr status stamp s) ∧ SameObjects s (reportTx fr status stamp s) ∧ SameMix s (reportTx fr
    status stamp s) ∧ SameHead s (reportTx fr status stamp s) ∧ SamePlan s (reportTx fr status stamp s) ∧ SameSizes s
    (reportTx fr status stamp s) ∧ (reportTx fr status stamp s).set = s.set ∧ (reportTx fr status stamp s).store = s.store
    ∧ (reportTx fr status stamp s).stats = s.stats := by
  unfold reportTx; simp [removeTx_frame .., offerLink_frame ..]

theorem noteDrive_frame (d : Int) (s : State) : SameBase s (noteDrive d s) ∧ SameSecure s (noteDrive d s) ∧
    SameObjects s (noteDrive d s) ∧ SameHead s (noteDrive d s) ∧ SamePlan s (noteDrive d s) ∧ SameSizes s (noteDrive d s)
    ∧ (noteDrive d s).set = s.set ∧ (noteDrive d s).store = s.store ∧ (noteDrive d s).link = s.link ∧ (noteDrive d s).mix
    = s.mix := by
  unfold noteDrive; simp

theorem goOnAir_frame (x0 : TxAsk) (sub : Nat) (frame : Option Nat) (last : Bool) (s : State) : SameBase s (goOnAir x0
    sub frame last s) ∧ SameSecure s (goOnAir x0 sub frame last s) ∧ SameHead s (goOnAir x0 sub frame last s) ∧ SamePlan s
    (goOnAir x0 sub frame last s) ∧ SameSizes s (goOnAir x0 sub frame last s) ∧ (goOnAir x0 sub frame last s).set = s.set
    ∧ (goOnAir x0 sub frame last s).store = s.store ∧ (goOnAir x0 sub frame last s).prog = s.prog ∧ (goOnAir x0 sub frame
    last s).mix = s.mix := by
  unfold goOnAir; simp [chargeLedger_frame .., noteDrive_frame ..]

theorem markSent_frame (x0 : TxAsk) (sub : Nat) (fr : TxFrame) (s : State) : SameBase s (markSent x0 sub fr s) ∧
    SameSecure s (markSent x0 sub fr s) ∧ SameObjects s (markSent x0 sub fr s) ∧ SameMix s (markSent x0 sub fr s) ∧
    SameHead s (markSent x0 sub fr s) ∧ SamePlan s (markSent x0 sub fr s) ∧ SamePort s (markSent x0 sub fr s) ∧ SameSizes
    s (markSent x0 sub fr s) ∧ (markSent x0 sub fr s).set = s.set ∧ (markSent x0 sub fr s).store = s.store ∧ (markSent x0
    sub fr s).stats = s.stats := by
  unfold markSent; simp [modTx_frame ..]

theorem sendTx_frame (x0 : TxAsk) (fr : TxFrame) (next : Nat) (last : Bool) (s : State) : SameBase s (sendTx x0 fr
    next last s) ∧ SameSecure s (sendTx x0 fr next last s) ∧ SameHead s (sendTx x0 fr next last s) ∧ SamePlan s (sendTx x0
    fr next last s) ∧ SameSizes s (sendTx x0 fr next last s) ∧ (sendTx x0 fr next last s).set = s.set ∧ (sendTx x0 fr next
    last s).store = s.store ∧ (sendTx x0 fr next last s).prog = s.prog ∧ (sendTx x0 fr next last s).mix = s.mix := by
  unfold sendTx; (repeat' split) <;> simp [dropTx_frame .., deferTx_frame .., goOnAir_frame .., markSent_frame ..]

@[simp] theorem applyGpio4_frame (s : State) : SameBase s (applyGpio4 s) ∧ SameSecure s (applyGpio4 s) ∧ SameObjects s
    (applyGpio4 s) ∧ SameMix s (applyGpio4 s) ∧ SameHead s (applyGpio4 s) ∧ SamePlan s (applyGpio4 s) ∧ SamePort s
    (applyGpio4 s) ∧ SameSizes s (applyGpio4 s) ∧ (applyGpio4 s).stats = s.stats := by
  unfold applyGpio4; split <;> simp

theorem endAir_frame (s : State) : SameBase s (endAir s) ∧ SameSecure s (endAir s) ∧ SameMix s (endAir s) ∧ SameHead s
    (endAir s) ∧ SamePlan s (endAir s) ∧ SameSizes s (endAir s) ∧ (endAir s).stats = s.stats ∧ (endAir s).prog = s.prog :=
    by
  unfold endAir; dsimp only; (repeat' split) <;> simp [radioRest_frame .., reportTx_frame ..]

theorem cutAir_frame (s : State) : SameBase s (cutAir s) ∧ SameSecure s (cutAir s) ∧ SameMix s (cutAir s) ∧ SameHead s
    (cutAir s) ∧ SamePlan s (cutAir s) ∧ SameSizes s (cutAir s) ∧ (cutAir s).stats = s.stats ∧ (cutAir s).prog = s.prog :=
    by
  unfold cutAir; simp [endAir_frame ..]

theorem finishStop_frame (cause : Option Nat) (s : State) : SameBase s (finishStop cause s) ∧ SameSecure s (finishStop
    cause s) ∧ SameObjects s (finishStop cause s) ∧ SameHead s (finishStop cause s) ∧ SamePlan s (finishStop cause s) ∧
    SameSizes s (finishStop cause s) ∧ (finishStop cause s).mix = s.mix := by
  unfold finishStop; dsimp only; split <;> simp [setLinkState_frame ..]

theorem beginStop_frame (cause : Option Nat) (s : State) : SameBase s (beginStop cause s) ∧ SameSecure s (beginStop
    cause s) ∧ SameObjects s (beginStop cause s) ∧ SameHead s (beginStop cause s) ∧ SamePlan s (beginStop cause s) ∧
    SameSizes s (beginStop cause s) ∧ (beginStop cause s).mix = s.mix := by
  unfold beginStop; simp [dropAllTx_frame .., finishStop_frame ..]

end Sys2Proof.Machine
end

