-- ==== Sys2Proof/Laws/FramesD.lean ====
section
/-!
SUPPORT. FramesD.lean: for each operation of Link, HostPort, Burlar, TimeBase, Store, Mode, System, Mortise, Boot, one lemma that says which parts of the state it never changes.
-/

namespace Sys2Proof.Machine

theorem linkConfigBody_frame (f : CmdFrame) (queued : Bool) (s : State) : SameBase s (linkConfigBody f queued s).1 ∧
    SameSecure s (linkConfigBody f queued s).1 ∧ SameObjects s (linkConfigBody f queued s).1 ∧ SamePlan s (linkConfigBody
    f queued s).1 ∧ SameSizes s (linkConfigBody f queued s).1 ∧ (linkConfigBody f queued s).1.mix = s.mix ∧
    (linkConfigBody f queued s).1.gens = s.gens ∧ (linkConfigBody f queued s).1.cal = s.cal := by
  unfold linkConfigBody; simp [dropAllTx_frame .., beginStop_frame ..]

theorem handleLinkConfig_frame (f : CmdFrame) (queued : Bool) (s : State) : SameBase s (handleLinkConfig f queued s) ∧
    SameSecure s (handleLinkConfig f queued s) ∧ SameObjects s (handleLinkConfig f queued s) ∧ SamePlan s
    (handleLinkConfig f queued s) ∧ SameSizes s (handleLinkConfig f queued s) ∧ (handleLinkConfig f queued s).mix = s.mix
    ∧ (handleLinkConfig f queued s).gens = s.gens ∧ (handleLinkConfig f queued s).cal = s.cal := by
  unfold handleLinkConfig; simp [linkConfigBody_frame ..]

theorem getLinkConfigBody_frame (f : CmdFrame) (s : State) : SameBase s (getLinkConfigBody f s).1 ∧ SameStore s
    (getLinkConfigBody f s).1 ∧ SameSecure s (getLinkConfigBody f s).1 ∧ SameObjects s (getLinkConfigBody f s).1 ∧ SameMix
    s (getLinkConfigBody f s).1 ∧ SameHead s (getLinkConfigBody f s).1 ∧ SamePlan s (getLinkConfigBody f s).1 ∧ SamePort s
    (getLinkConfigBody f s).1 ∧ SameSizes s (getLinkConfigBody f s).1 := by
  unfold getLinkConfigBody; simp

theorem enqueueTx_frame (dest : Nat) (payload : List Byte) (s : State) : SameBase s (enqueueTx dest payload s).2 ∧
    SameSecure s (enqueueTx dest payload s).2 ∧ SameObjects s (enqueueTx dest payload s).2 ∧ SameMix s (enqueueTx dest
    payload s).2 ∧ SameHead s (enqueueTx dest payload s).2 ∧ SamePlan s (enqueueTx dest payload s).2 ∧ SamePort s
    (enqueueTx dest payload s).2 ∧ SameSizes s (enqueueTx dest payload s).2 ∧ (enqueueTx dest payload s).2.set = s.set ∧
    (enqueueTx dest payload s).2.stats = s.stats := by
  unfold enqueueTx; simp [takeCounter_frame ..]

theorem linkSendBody_frame (f : CmdFrame) (s : State) : SameBase s (linkSendBody f s).1 ∧ SameSecure s (linkSendBody f
    s).1 ∧ SameObjects s (linkSendBody f s).1 ∧ SameMix s (linkSendBody f s).1 ∧ SameHead s (linkSendBody f s).1 ∧
    SamePlan s (linkSendBody f s).1 ∧ SamePort s (linkSendBody f s).1 ∧ SameSizes s (linkSendBody f s).1 ∧ (linkSendBody f
    s).1.set = s.set ∧ (linkSendBody f s).1.stats = s.stats := by
  unfold linkSendBody; simp [enqueueTx_frame ..]

theorem linkStopBody_frame (f : CmdFrame) (s : State) : SameBase s (linkStopBody f s).1 ∧ SameSecure s (linkStopBody f
    s).1 ∧ SameObjects s (linkStopBody f s).1 ∧ SameHead s (linkStopBody f s).1 ∧ SamePlan s (linkStopBody f s).1 ∧
    SameSizes s (linkStopBody f s).1 ∧ (linkStopBody f s).1.mix = s.mix := by
  unfold linkStopBody; simp [beginStop_frame ..]

theorem gatherConfigBody_frame (f : CmdFrame) (s : State) : SameBase s (gatherConfigBody f s).1 ∧ SameSecure s
    (gatherConfigBody f s).1 ∧ SameObjects s (gatherConfigBody f s).1 ∧ SameMix s (gatherConfigBody f s).1 ∧ SameHead s
    (gatherConfigBody f s).1 ∧ SamePlan s (gatherConfigBody f s).1 ∧ SamePort s (gatherConfigBody f s).1 ∧ SameSizes s
    (gatherConfigBody f s).1 ∧ (gatherConfigBody f s).1.set = s.set ∧ (gatherConfigBody f s).1.stats = s.stats := by
  unfold gatherConfigBody; simp

theorem applyGather_frame (s : State) : SameBase s (applyGather s) ∧ SameSecure s (applyGather s) ∧ SameObjects s
    (applyGather s) ∧ SameHead s (applyGather s) ∧ SamePlan s (applyGather s) ∧ SameSizes s (applyGather s) ∧ (applyGather
    s).store = s.store ∧ (applyGather s).stats = s.stats ∧ (applyGather s).mix = s.mix := by
  unfold applyGather; split <;> simp

theorem getGatherConfigBody_frame (f : CmdFrame) (s : State) : SameBase s (getGatherConfigBody f s).1 ∧ SameStore s
    (getGatherConfigBody f s).1 ∧ SameSecure s (getGatherConfigBody f s).1 ∧ SameObjects s (getGatherConfigBody f s).1 ∧
    SameMix s (getGatherConfigBody f s).1 ∧ SameHead s (getGatherConfigBody f s).1 ∧ SamePlan s (getGatherConfigBody f
    s).1 ∧ SamePort s (getGatherConfigBody f s).1 ∧ SameSizes s (getGatherConfigBody f s).1 := by
  unfold getGatherConfigBody; simp

theorem getLinkStatsBody_frame (f : CmdFrame) (s : State) : SameBase s (getLinkStatsBody f s).1 ∧ SameStore s
    (getLinkStatsBody f s).1 ∧ SameSecure s (getLinkStatsBody f s).1 ∧ SameObjects s (getLinkStatsBody f s).1 ∧ SameMix s
    (getLinkStatsBody f s).1 ∧ SameHead s (getLinkStatsBody f s).1 ∧ SamePlan s (getLinkStatsBody f s).1 ∧ SamePort s
    (getLinkStatsBody f s).1 ∧ SameSizes s (getLinkStatsBody f s).1 := by
  unfold getLinkStatsBody; simp

theorem flushResponses_frame (s : State) : SameBase s (flushResponses s) ∧ SameStore s (flushResponses s) ∧ SameSecure
    s (flushResponses s) ∧ SameObjects s (flushResponses s) ∧ SameMix s (flushResponses s) ∧ SameHead s (flushResponses s)
    ∧ SamePlan s (flushResponses s) ∧ SameSizes s (flushResponses s) := by
  unfold flushResponses; simp [stageEntry_frame ..]

theorem modShadow_frame (p : Nat) (g : Shadow → Shadow) (s : State) : SameBase s (modShadow p g s) ∧ SameStore s
    (modShadow p g s) ∧ SameSecure s (modShadow p g s) ∧ SameObjects s (modShadow p g s) ∧ SameMix s (modShadow p g s) ∧
    SameHead s (modShadow p g s) ∧ SamePort s (modShadow p g s) ∧ SameSizes s (modShadow p g s) ∧ (modShadow p g s).plan =
    s.plan ∧ (modShadow p g s).compat = s.compat := by
  unfold modShadow; simp

theorem readsZero_frame (p : Nat) (off : Nat) (s : State) : SameBase s (readsZero p off s) ∧ SameStore s (readsZero p
    off s) ∧ SameSecure s (readsZero p off s) ∧ SameObjects s (readsZero p off s) ∧ SameMix s (readsZero p off s) ∧
    SameHead s (readsZero p off s) ∧ SamePlan s (readsZero p off s) ∧ SameSizes s (readsZero p off s) ∧ (readsZero p off
    s).port = s.port := by
  unfold readsZero; (repeat' split) <;> simp

theorem dropNewestBlock_frame (n : Nat) (s : State) : SameBase s (dropNewestBlock n s) ∧ SameStore s (dropNewestBlock
    n s) ∧ SameSecure s (dropNewestBlock n s) ∧ SameObjects s (dropNewestBlock n s) ∧ SameMix s (dropNewestBlock n s) ∧
    SameHead s (dropNewestBlock n s) ∧ SamePlan s (dropNewestBlock n s) ∧ SameSizes s (dropNewestBlock n s) ∧
    (dropNewestBlock n s).out = s.out := by
  unfold dropNewestBlock; dsimp only; (repeat' split) <;> simp [repack_frame .., passEpoch_frame ..]

theorem shrinkRing_frame (n : Nat) (x0 : Nat) (x1 : State) : SameBase x1 (shrinkRing n x0 x1) ∧ SameStore x1
    (shrinkRing n x0 x1) ∧ SameSecure x1 (shrinkRing n x0 x1) ∧ SameObjects x1 (shrinkRing n x0 x1) ∧ SameMix x1
    (shrinkRing n x0 x1) ∧ SameHead x1 (shrinkRing n x0 x1) ∧ SamePlan x1 (shrinkRing n x0 x1) ∧ SameSizes x1 (shrinkRing
    n x0 x1) ∧ (shrinkRing n x0 x1).out = x1.out := by
  induction x0 generalizing x1 with
  | zero => simp [shrinkRing]
  | succ k ih => unfold shrinkRing; (repeat' split) <;> simp [dropOldest_frame .., dropNewestBlock_frame .., ih]

theorem writeQuota_frame (n : Nat) (v : Nat) (s : State) : SameBase s (writeQuota n v s) ∧ SameSecure s (writeQuota n
    v s) ∧ SameObjects s (writeQuota n v s) ∧ SameMix s (writeQuota n v s) ∧ SameHead s (writeQuota n v s) ∧ SamePlan s
    (writeQuota n v s) ∧ SameSizes s (writeQuota n v s) ∧ (writeQuota n v s).link = s.link ∧ (writeQuota n v s).stats =
    s.stats := by
  unfold writeQuota; simp [modRingSet_frame .., flushResponses_frame .., repack_frame .., shrinkRing_frame ..]

theorem enableVisible_frame (n : Nat) (s : State) : SameBase s (enableVisible n s) ∧ SameStore s (enableVisible n s) ∧
    SameSecure s (enableVisible n s) ∧ SameObjects s (enableVisible n s) ∧ SameMix s (enableVisible n s) ∧ SameHead s
    (enableVisible n s) ∧ SamePlan s (enableVisible n s) ∧ SameSizes s (enableVisible n s) := by
  unfold enableVisible; simp [madeVisible_frame ..]

theorem writePolicy_frame (n : Nat) (v : W32) (s : State) : SameBase s (writePolicy n v s) ∧ SameSecure s (writePolicy
    n v s) ∧ SameObjects s (writePolicy n v s) ∧ SameMix s (writePolicy n v s) ∧ SameHead s (writePolicy n v s) ∧ SamePlan
    s (writePolicy n v s) ∧ SameSizes s (writePolicy n v s) ∧ (writePolicy n v s).link = s.link ∧ (writePolicy n v
    s).stats = s.stats := by
  unfold writePolicy; simp [modRingSet_frame .., repack_frame .., enableVisible_frame ..]

theorem writePointer_frame (n : Nat) (isHead : Bool) (v : W32) (s : State) : SameBase s (writePointer n isHead v s) ∧
    SameStore s (writePointer n isHead v s) ∧ SameSecure s (writePointer n isHead v s) ∧ SameObjects s (writePointer n
    isHead v s) ∧ SameMix s (writePointer n isHead v s) ∧ SameHead s (writePointer n isHead v s) ∧ SamePlan s
    (writePointer n isHead v s) ∧ SameSizes s (writePointer n isHead v s) ∧ (writePointer n isHead v s).out = s.out := by
  unfold writePointer; simp

theorem clearRingStatus_frame (n : Nat) (v : W32) (s : State) : SameBase s (clearRingStatus n v s) ∧ SameStore s
    (clearRingStatus n v s) ∧ SameSecure s (clearRingStatus n v s) ∧ SameObjects s (clearRingStatus n v s) ∧ SameMix s
    (clearRingStatus n v s) ∧ SameHead s (clearRingStatus n v s) ∧ SamePlan s (clearRingStatus n v s) ∧ SameSizes s
    (clearRingStatus n v s) ∧ (clearRingStatus n v s).out = s.out := by
  unfold clearRingStatus; simp

theorem examine_frame (n : Nat) (s : State) : SameBase s (examine n s) ∧ SameStore s (examine n s) ∧ SameSecure s
    (examine n s) ∧ SameObjects s (examine n s) ∧ SameMix s (examine n s) ∧ SameHead s (examine n s) ∧ SamePlan s (examine
    n s) ∧ SameSizes s (examine n s) ∧ (examine n s).out = s.out := by
  unfold examine; simp

theorem ringDoorbell_frame (v : W32) (s : State) : SameBase s (ringDoorbell v s) ∧ SameStore s (ringDoorbell v s) ∧
    SameSecure s (ringDoorbell v s) ∧ SameObjects s (ringDoorbell v s) ∧ SameMix s (ringDoorbell v s) ∧ SameHead s
    (ringDoorbell v s) ∧ SamePlan s (ringDoorbell v s) ∧ SameSizes s (ringDoorbell v s) ∧ (ringDoorbell v s).out = s.out
    := by
  unfold ringDoorbell; simp

theorem writeDescriptor_frame (n : Nat) (k : Nat) (v : W32) (s : State) : SameBase s (writeDescriptor n k v s) ∧
    SameSecure s (writeDescriptor n k v s) ∧ SameObjects s (writeDescriptor n k v s) ∧ SameMix s (writeDescriptor n k v s)
    ∧ SameHead s (writeDescriptor n k v s) ∧ SamePlan s (writeDescriptor n k v s) ∧ SameSizes s (writeDescriptor n k v s)
    ∧ (writeDescriptor n k v s).link = s.link ∧ (writeDescriptor n k v s).stats = s.stats := by
  unfold writeDescriptor; split <;> simp [modRingSet_frame .., writeQuota_frame .., writePolicy_frame .., writePointer_frame .., clearRingStatus_frame ..]

theorem sendPending_frame (s : State) : SameBase s (sendPending s) ∧ SameStore s (sendPending s) ∧ SameSecure s
    (sendPending s) ∧ SameObjects s (sendPending s) ∧ SameMix s (sendPending s) ∧ SameHead s (sendPending s) ∧ SamePlan s
    (sendPending s) ∧ SameSizes s (sendPending s) := by
  unfold sendPending; simp [sendMsix_frame ..]

theorem writeMsix_frame (n : Nat) (k : Nat) (v : W32) (s : State) : SameBase s (writeMsix n k v s) ∧ SameStore s
    (writeMsix n k v s) ∧ SameSecure s (writeMsix n k v s) ∧ SameObjects s (writeMsix n k v s) ∧ SameMix s (writeMsix n k
    v s) ∧ SameHead s (writeMsix n k v s) ∧ SamePlan s (writeMsix n k v s) ∧ SameSizes s (writeMsix n k v s) := by
  unfold writeMsix; simp [sendPending_frame ..]

theorem writeReg_frame (off : Nat) (v : W32) (s : State) : SameSecure s (writeReg off v s) ∧ SameObjects s (writeReg
    off v s) ∧ SameMix s (writeReg off v s) ∧ SameHead s (writeReg off v s) ∧ SamePlan s (writeReg off v s) ∧ SameSizes s
    (writeReg off v s) ∧ (writeReg off v s).pending = s.pending ∧ (writeReg off v s).pwr = s.pwr ∧ (writeReg off v s).clk
    = s.clk ∧ (writeReg off v s).link = s.link ∧ (writeReg off v s).stats = s.stats := by
  unfold writeReg; (repeat' split) <;> simp [attnFall_frame .., ringDoorbell_frame .., writeDescriptor_frame .., writeMsix_frame ..]

theorem popRing_frame (p : Nat) (n : Nat) (clocked : Nat) (s : State) : SameBase s (popRing p n clocked s) ∧ SameStore
    s (popRing p n clocked s) ∧ SameSecure s (popRing p n clocked s) ∧ SameObjects s (popRing p n clocked s) ∧ SameMix s
    (popRing p n clocked s) ∧ SameHead s (popRing p n clocked s) ∧ SamePlan s (popRing p n clocked s) ∧ SameSizes s
    (popRing p n clocked s) := by
  unfold popRing; split <;> simp [popFront_frame .., flushResponses_frame ..]

theorem pushStatus_frame (ok : Bool) (busy : Bool) (bad : Bool) (s : State) : SameBase s (pushStatus ok busy bad s) ∧
    SameStore s (pushStatus ok busy bad s) ∧ SameSecure s (pushStatus ok busy bad s) ∧ SameObjects s (pushStatus ok busy
    bad s) ∧ SameMix s (pushStatus ok busy bad s) ∧ SameHead s (pushStatus ok busy bad s) ∧ SamePlan s (pushStatus ok busy
    bad s) ∧ SameSizes s (pushStatus ok busy bad s) ∧ (pushStatus ok busy bad s).out = s.out := by
  unfold pushStatus; simp

theorem pushEntry_frame (n : Nat) (b : List Byte) (s : State) : SameBase s (pushEntry n b s) ∧ SameStore s (pushEntry
    n b s) ∧ SameSecure s (pushEntry n b s) ∧ SameObjects s (pushEntry n b s) ∧ SameMix s (pushEntry n b s) ∧ SameHead s
    (pushEntry n b s) ∧ SamePlan s (pushEntry n b s) ∧ SameSizes s (pushEntry n b s) ∧ (pushEntry n b s).out = s.out := by
  unfold pushEntry; simp [pushStatus_frame ..]

theorem pushRefused_frame (n : Nat) (k : Nat) (s : State) : SameBase s (pushRefused n k s) ∧ SameStore s (pushRefused
    n k s) ∧ SameSecure s (pushRefused n k s) ∧ SameObjects s (pushRefused n k s) ∧ SameMix s (pushRefused n k s) ∧
    SameHead s (pushRefused n k s) ∧ SamePlan s (pushRefused n k s) ∧ SameSizes s (pushRefused n k s) := by
  unfold pushRefused; (repeat' split) <;> simp [pushStatus_frame ..]

theorem judgePush_frame (n : Nat) (b : List Byte) (s : State) : SameBase s (judgePush n b s) ∧ SameStore s (judgePush
    n b s) ∧ SameSecure s (judgePush n b s) ∧ SameObjects s (judgePush n b s) ∧ SameMix s (judgePush n b s) ∧ SameHead s
    (judgePush n b s) ∧ SamePlan s (judgePush n b s) ∧ SameSizes s (judgePush n b s) ∧ (judgePush n b s).out = s.out := by
  unfold judgePush; (repeat' split) <;> simp [pushStatus_frame .., pushEntry_frame ..]

theorem pushSpi_frame (n : Nat) (b : List Byte) (s : State) : SameBase s (pushSpi n b s) ∧ SameStore s (pushSpi n b s)
    ∧ SameSecure s (pushSpi n b s) ∧ SameObjects s (pushSpi n b s) ∧ SameMix s (pushSpi n b s) ∧ SameHead s (pushSpi n b
    s) ∧ SamePlan s (pushSpi n b s) ∧ SameSizes s (pushSpi n b s) ∧ (pushSpi n b s).out = s.out := by
  unfold pushSpi; simp [judgePush_frame ..]

theorem pushTwoWire_frame (n : Nat) (b : List Byte) (ending : PushEnd) (s : State) : SameBase s (pushTwoWire n b
    ending s) ∧ SameStore s (pushTwoWire n b ending s) ∧ SameSecure s (pushTwoWire n b ending s) ∧ SameObjects s
    (pushTwoWire n b ending s) ∧ SameMix s (pushTwoWire n b ending s) ∧ SameHead s (pushTwoWire n b ending s) ∧ SamePlan s
    (pushTwoWire n b ending s) ∧ SameSizes s (pushTwoWire n b ending s) := by
  unfold pushTwoWire; (repeat' split) <;> simp [pushStatus_frame .., pushEntry_frame .., pushRefused_frame ..]

theorem spiStatus_frame (s : State) : SameBase s (spiStatus s).2 ∧ SameStore s (spiStatus s).2 ∧ SameObjects s
    (spiStatus s).2 ∧ SameMix s (spiStatus s).2 ∧ SameHead s (spiStatus s).2 ∧ SamePlan s (spiStatus s).2 ∧ SamePort s
    (spiStatus s).2 ∧ SameSizes s (spiStatus s).2 ∧ (spiStatus s).2.sec = s.sec ∧ (spiStatus s).2.survey = s.survey := by
  unfold spiStatus; (repeat' split) <;> simp [drawBool_frame ..]

theorem emitDma_frame (n : Nat) (addr : Tick) (b : List Byte) (s : State) : SameBase s (emitDma n addr b s) ∧
    SameStore s (emitDma n addr b s) ∧ SameSecure s (emitDma n addr b s) ∧ SameObjects s (emitDma n addr b s) ∧ SameMix s
    (emitDma n addr b s) ∧ SameHead s (emitDma n addr b s) ∧ SamePlan s (emitDma n addr b s) ∧ SameSizes s (emitDma n addr
    b s) ∧ (emitDma n addr b s).port = s.port := by
  unfold emitDma; simp

theorem dmaEntry_frame (n : Nat) (s : State) : SameBase s (dmaEntry n s) ∧ SameStore s (dmaEntry n s) ∧ SameSecure s
    (dmaEntry n s) ∧ SameObjects s (dmaEntry n s) ∧ SameMix s (dmaEntry n s) ∧ SameHead s (dmaEntry n s) ∧ SamePlan s
    (dmaEntry n s) ∧ SameSizes s (dmaEntry n s) := by
  unfold dmaEntry; split <;> simp [madeVisible_frame .., emitDma_frame ..]

theorem dmaBlock_frame (n : Nat) (s : State) : SameBase s (dmaBlock n s) ∧ SameStore s (dmaBlock n s) ∧ SameSecure s
    (dmaBlock n s) ∧ SameObjects s (dmaBlock n s) ∧ SameMix s (dmaBlock n s) ∧ SameHead s (dmaBlock n s) ∧ SamePlan s
    (dmaBlock n s) ∧ SameSizes s (dmaBlock n s) := by
  unfold dmaBlock; simp [dmaEntry_frame ..]

theorem disablePcieRings_frame (s : State) : SameBase s (disablePcieRings s) ∧ SameSecure s (disablePcieRings s) ∧
    SameObjects s (disablePcieRings s) ∧ SameMix s (disablePcieRings s) ∧ SameHead s (disablePcieRings s) ∧ SamePlan s
    (disablePcieRings s) ∧ SameSizes s (disablePcieRings s) ∧ (disablePcieRings s).store = s.store ∧ (disablePcieRings
    s).link = s.link ∧ (disablePcieRings s).stats = s.stats ∧ (disablePcieRings s).out = s.out := by
  unfold disablePcieRings; simp

theorem configWrite_frame (off : Nat) (v : W32) (s : State) : SameBase s (configWrite off v s) ∧ SameStore s
    (configWrite off v s) ∧ SameSecure s (configWrite off v s) ∧ SameObjects s (configWrite off v s) ∧ SameMix s
    (configWrite off v s) ∧ SameHead s (configWrite off v s) ∧ SamePlan s (configWrite off v s) ∧ SameSizes s (configWrite
    off v s) ∧ (configWrite off v s).out = s.out := by
  unfold configWrite; (repeat' split) <;> simp

theorem bar2Write_frame (_off : Nat) (_v : Byte) (s : State) : SameBase s (bar2Write _off _v s) ∧ SameStore s
    (bar2Write _off _v s) ∧ SameSecure s (bar2Write _off _v s) ∧ SameObjects s (bar2Write _off _v s) ∧ SameMix s
    (bar2Write _off _v s) ∧ SameHead s (bar2Write _off _v s) ∧ SamePlan s (bar2Write _off _v s) ∧ SamePort s (bar2Write
    _off _v s) ∧ SameSizes s (bar2Write _off _v s) := by
  unfold bar2Write; simp

theorem markBudget_frame (p : Nat) (s : State) : SameBase s (markBudget p s) ∧ SameStore s (markBudget p s) ∧
    SameSecure s (markBudget p s) ∧ SameObjects s (markBudget p s) ∧ SameMix s (markBudget p s) ∧ SameHead s (markBudget p
    s) ∧ SamePlan s (markBudget p s) ∧ SameSizes s (markBudget p s) ∧ (markBudget p s).out = s.out := by
  unfold markBudget; simp

theorem scheduled_frame (fr : TxFrame) (sfn : Nat) (s : State) : SameBase s (scheduled fr sfn s) ∧ SameSecure s
    (scheduled fr sfn s) ∧ SameObjects s (scheduled fr sfn s) ∧ SameMix s (scheduled fr sfn s) ∧ SameHead s (scheduled fr
    sfn s) ∧ SamePlan s (scheduled fr sfn s) ∧ SamePort s (scheduled fr sfn s) ∧ SameSizes s (scheduled fr sfn s) ∧
    (scheduled fr sfn s).set = s.set ∧ (scheduled fr sfn s).store = s.store ∧ (scheduled fr sfn s).stats = s.stats := by
  unfold scheduled; simp [modTx_frame ..]

theorem dueUplink_frame (fr : TxFrame) (sfn : Nat) (hop : Option Nat) (c : LinkChannel) (s : State) : SameBase s
    (dueUplink fr sfn hop c s) ∧ SameSecure s (dueUplink fr sfn hop c s) ∧ SameHead s (dueUplink fr sfn hop c s) ∧
    SamePlan s (dueUplink fr sfn hop c s) ∧ SameSizes s (dueUplink fr sfn hop c s) ∧ (dueUplink fr sfn hop c s).set =
    s.set ∧ (dueUplink fr sfn hop c s).store = s.store ∧ (dueUplink fr sfn hop c s).prog = s.prog ∧ (dueUplink fr sfn hop
    c s).mix = s.mix := by
  unfold dueUplink; simp [sendTx_frame .., scheduled_frame ..]

theorem pickFallback_frame (sfn : Nat) (x0 : Nat) (x1 : State) : SameBase x1 (pickFallback sfn x0 x1).2 ∧ SameSecure
    x1 (pickFallback sfn x0 x1).2 ∧ SameObjects x1 (pickFallback sfn x0 x1).2 ∧ SameMix x1 (pickFallback sfn x0 x1).2 ∧
    SameHead x1 (pickFallback sfn x0 x1).2 ∧ SamePlan x1 (pickFallback sfn x0 x1).2 ∧ SameSizes x1 (pickFallback sfn x0
    x1).2 ∧ (pickFallback sfn x0 x1).2.set = x1.set ∧ (pickFallback sfn x0 x1).2.store = x1.store := by
  induction x0 generalizing x1 with
  | zero => simp [pickFallback]
  | succ k ih => unfold pickFallback; (try dsimp only); (repeat' split) <;> simp [deferTx_frame .., ih]

theorem keepTags_frame (t0 : Int) (k : Nat) (s : State) : SameBase s (keepTags t0 k s) ∧ SameSecure s (keepTags t0 k
    s) ∧ SameObjects s (keepTags t0 k s) ∧ SameMix s (keepTags t0 k s) ∧ SameHead s (keepTags t0 k s) ∧ SamePlan s
    (keepTags t0 k s) ∧ SamePort s (keepTags t0 k s) ∧ SameSizes s (keepTags t0 k s) ∧ (keepTags t0 k s).set = s.set ∧
    (keepTags t0 k s).store = s.store := by
  unfold keepTags; simp

theorem beaconTaken_frame (s : State) : SameBase s (beaconTaken s) ∧ SameSecure s (beaconTaken s) ∧ SameObjects s
    (beaconTaken s) ∧ SameMix s (beaconTaken s) ∧ SameHead s (beaconTaken s) ∧ SamePlan s (beaconTaken s) ∧ SamePort s
    (beaconTaken s) ∧ SameSizes s (beaconTaken s) ∧ (beaconTaken s).set = s.set ∧ (beaconTaken s).stats = s.stats := by
  unfold beaconTaken; simp [takeCounter_frame ..]

theorem sendBeacon_frame (s : State) : SameBase s (sendBeacon s) ∧ SameSecure s (sendBeacon s) ∧ SameHead s
    (sendBeacon s) ∧ SamePlan s (sendBeacon s) ∧ SameSizes s (sendBeacon s) ∧ (sendBeacon s).set = s.set ∧ (sendBeacon
    s).prog = s.prog ∧ (sendBeacon s).mix = s.mix := by
  unfold sendBeacon; dsimp only; (repeat' split) <;> simp [dropTx_frame .., goOnAir_frame .., keepTags_frame .., beaconTaken_frame ..]

theorem copied_frame (fr : TxFrame) (s : State) : SameBase s (copied fr s) ∧ SameSecure s (copied fr s) ∧ SameObjects
    s (copied fr s) ∧ SameMix s (copied fr s) ∧ SameHead s (copied fr s) ∧ SamePlan s (copied fr s) ∧ SamePort s (copied
    fr s) ∧ SameSizes s (copied fr s) ∧ (copied fr s).set = s.set ∧ (copied fr s).store = s.store ∧ (copied fr s).stats =
    s.stats := by
  unfold copied; simp [modTx_frame ..]

theorem listenUntil_frame (t : Int) (s : State) : SameBase s (listenUntil t s) ∧ SameSecure s (listenUntil t s) ∧
    SameObjects s (listenUntil t s) ∧ SameMix s (listenUntil t s) ∧ SameHead s (listenUntil t s) ∧ SamePlan s (listenUntil
    t s) ∧ SamePort s (listenUntil t s) ∧ SameSizes s (listenUntil t s) ∧ (listenUntil t s).set = s.set ∧ (listenUntil t
    s).store = s.store ∧ (listenUntil t s).stats = s.stats := by
  unfold listenUntil; simp [radioGo_frame ..]

theorem judgeTx_frame (sfn : Nat) (tags : List Nat) (stamp : Tick) (s : State) : SameBase s (judgeTx sfn tags stamp s)
    ∧ SameSecure s (judgeTx sfn tags stamp s) ∧ SameObjects s (judgeTx sfn tags stamp s) ∧ SameMix s (judgeTx sfn tags
    stamp s) ∧ SameHead s (judgeTx sfn tags stamp s) ∧ SamePlan s (judgeTx sfn tags stamp s) ∧ SameSizes s (judgeTx sfn
    tags stamp s) ∧ (judgeTx sfn tags stamp s).set = s.set ∧ (judgeTx sfn tags stamp s).store = s.store := by
  unfold judgeTx; simp [deferTx_frame .., reportTx_frame ..]

theorem freeRx_frame (lane : Nat) (sl : Nat) (s : State) : SameBase s (freeRx lane sl s) ∧ SameSecure s (freeRx lane
    sl s) ∧ SameObjects s (freeRx lane sl s) ∧ SameMix s (freeRx lane sl s) ∧ SameHead s (freeRx lane sl s) ∧ SamePlan s
    (freeRx lane sl s) ∧ SamePort s (freeRx lane sl s) ∧ SameSizes s (freeRx lane sl s) ∧ (freeRx lane sl s).set = s.set ∧
    (freeRx lane sl s).store = s.store ∧ (freeRx lane sl s).stats = s.stats := by
  unfold freeRx; simp

theorem takeRx_frame (lane : Nat) (c : LinkCand) (s : State) : SameBase s (takeRx lane c s) ∧ SameSecure s (takeRx
    lane c s) ∧ SameObjects s (takeRx lane c s) ∧ SameMix s (takeRx lane c s) ∧ SameHead s (takeRx lane c s) ∧ SamePlan s
    (takeRx lane c s) ∧ SamePort s (takeRx lane c s) ∧ SameSizes s (takeRx lane c s) ∧ (takeRx lane c s).set = s.set ∧
    (takeRx lane c s).store = s.store ∧ (takeRx lane c s).stats = s.stats := by
  unfold takeRx; simp [freeRx_frame ..]

@[simp] theorem deliverRx_frame (lane : Nat) (c : RxFrame) (m : LinkRx) (h : HeaderBits) (b : BodyBits) (payload :
    List Byte) (s : State) : SameBase s (deliverRx lane c m h b payload s) ∧ SameStore s (deliverRx lane c m h b payload
    s) ∧ SameSecure s (deliverRx lane c m h b payload s) ∧ SameObjects s (deliverRx lane c m h b payload s) ∧ SameMix s
    (deliverRx lane c m h b payload s) ∧ SameHead s (deliverRx lane c m h b payload s) ∧ SamePlan s (deliverRx lane c m h
    b payload s) ∧ SameSizes s (deliverRx lane c m h b payload s) := by
  unfold deliverRx; simp [offerLink_frame ..]

theorem enterRecent_frame (node : Nat) (counter : Nat) (sync : Tick) (s : State) : SameBase s (enterRecent node
    counter sync s) ∧ SameSecure s (enterRecent node counter sync s) ∧ SameObjects s (enterRecent node counter sync s) ∧
    SameMix s (enterRecent node counter sync s) ∧ SameHead s (enterRecent node counter sync s) ∧ SamePlan s (enterRecent
    node counter sync s) ∧ SamePort s (enterRecent node counter sync s) ∧ SameSizes s (enterRecent node counter sync s) ∧
    (enterRecent node counter sync s).set = s.set ∧ (enterRecent node counter sync s).store = s.store := by
  unfold enterRecent; simp

theorem acknowledge_frame (node : Nat) (counter : Nat) (sync : Tick) (s : State) : SameBase s (acknowledge node
    counter sync s) ∧ SameSecure s (acknowledge node counter sync s) ∧ SameObjects s (acknowledge node counter sync s) ∧
    SameMix s (acknowledge node counter sync s) ∧ SameHead s (acknowledge node counter sync s) ∧ SamePlan s (acknowledge
    node counter sync s) ∧ SamePort s (acknowledge node counter sync s) ∧ SameSizes s (acknowledge node counter sync s) ∧
    (acknowledge node counter sync s).set = s.set ∧ (acknowledge node counter sync s).store = s.store ∧ (acknowledge node
    counter sync s).stats = s.stats := by
  unfold acknowledge; simp

theorem acceptBeacon_frame (lane : Nat) (c : RxFrame) (m : LinkRx) (h : HeaderBits) (b : BodyBits) (p : List Byte) (s
    : State) : SameBase s (acceptBeacon lane c m h b p s) ∧ SameSecure s (acceptBeacon lane c m h b p s) ∧ SameObjects s
    (acceptBeacon lane c m h b p s) ∧ SameHead s (acceptBeacon lane c m h b p s) ∧ SamePlan s (acceptBeacon lane c m h b p
    s) ∧ SameSizes s (acceptBeacon lane c m h b p s) ∧ (acceptBeacon lane c m h b p s).set = s.set ∧ (acceptBeacon lane c
    m h b p s).store = s.store ∧ (acceptBeacon lane c m h b p s).mix = s.mix := by
  unfold acceptBeacon; simp [setLinkState_frame .., judgeTx_frame ..]

theorem nodeFrame_frame (lane : Nat) (c : RxFrame) (m : LinkRx) (hw : BitVec 24) (b : BodyBits) (body : List Byte) (s
    : State) : SameBase s (nodeFrame lane c m hw b body s) ∧ SameSecure s (nodeFrame lane c m hw b body s) ∧ SameObjects s
    (nodeFrame lane c m hw b body s) ∧ SameHead s (nodeFrame lane c m hw b body s) ∧ SamePlan s (nodeFrame lane c m hw b
    body s) ∧ SameSizes s (nodeFrame lane c m hw b body s) ∧ (nodeFrame lane c m hw b body s).set = s.set ∧ (nodeFrame
    lane c m hw b body s).store = s.store ∧ (nodeFrame lane c m hw b body s).mix = s.mix := by
  unfold nodeFrame; (repeat' split) <;> simp [enterRecent_frame .., acceptBeacon_frame ..]

theorem gathererFrame_frame (lane : Nat) (c : RxFrame) (m : LinkRx) (hw : BitVec 24) (b : BodyBits) (body : List Byte)
    (s : State) : SameBase s (gathererFrame lane c m hw b body s) ∧ SameSecure s (gathererFrame lane c m hw b body s) ∧
    SameObjects s (gathererFrame lane c m hw b body s) ∧ SameMix s (gathererFrame lane c m hw b body s) ∧ SameHead s
    (gathererFrame lane c m hw b body s) ∧ SamePlan s (gathererFrame lane c m hw b body s) ∧ SameSizes s (gathererFrame
    lane c m hw b body s) ∧ (gathererFrame lane c m hw b body s).set = s.set ∧ (gathererFrame lane c m hw b body s).store
    = s.store := by
  unfold gathererFrame; (repeat' split) <;> simp [enterRecent_frame .., acknowledge_frame ..]

theorem coast_frame (cause : Option Nat) (s : State) : SameBase s (coast cause s) ∧ SameStore s (coast cause s) ∧
    SameSecure s (coast cause s) ∧ SameObjects s (coast cause s) ∧ SameMix s (coast cause s) ∧ SameHead s (coast cause s)
    ∧ SameSizes s (coast cause s) ∧ (coast cause s).plan = s.plan ∧ (coast cause s).compat = s.compat := by
  unfold coast; simp

theorem coastLater_frame (s : State) : SameBase s (coastLater s) ∧ SameStore s (coastLater s) ∧ SameSecure s
    (coastLater s) ∧ SameObjects s (coastLater s) ∧ SameMix s (coastLater s) ∧ SameHead s (coastLater s) ∧ SamePort s
    (coastLater s) ∧ SameSizes s (coastLater s) ∧ (coastLater s).plan = s.plan ∧ (coastLater s).compat = s.compat := by
  unfold coastLater; simp

theorem postCoasted_frame (s : State) : SameBase s (postCoasted s) ∧ SameStore s (postCoasted s) ∧ SameSecure s
    (postCoasted s) ∧ SameObjects s (postCoasted s) ∧ SameMix s (postCoasted s) ∧ SameHead s (postCoasted s) ∧ SameSizes s
    (postCoasted s) ∧ (postCoasted s).plan = s.plan ∧ (postCoasted s).compat = s.compat := by
  unfold postCoasted; (repeat' split) <;> simp

theorem slewToward_frame (d : Int) (s : State) : SameBase s (slewToward d s) ∧ SameStore s (slewToward d s) ∧
    SameObjects s (slewToward d s) ∧ SameMix s (slewToward d s) ∧ SameHead s (slewToward d s) ∧ SamePort s (slewToward d
    s) ∧ SameSizes s (slewToward d s) ∧ (slewToward d s).sec = s.sec ∧ (slewToward d s).survey = s.survey ∧ (slewToward d
    s).plan = s.plan ∧ (slewToward d s).compat = s.compat := by
  unfold slewToward; simp [drawInt_frame ..]

theorem plumbEdge_frame (d : Int) (s : State) : SameBase s (plumbEdge d s) ∧ SameStore s (plumbEdge d s) ∧ SameObjects
    s (plumbEdge d s) ∧ SameHead s (plumbEdge d s) ∧ SameSizes s (plumbEdge d s) ∧ (plumbEdge d s).sec = s.sec ∧
    (plumbEdge d s).survey = s.survey ∧ (plumbEdge d s).mix = s.mix ∧ (plumbEdge d s).plan = s.plan ∧ (plumbEdge d
    s).compat = s.compat := by
  unfold plumbEdge; simp [slewToward_frame ..]

theorem toSecond_frame (s : State) : SameStore s (toSecond s) ∧ SameSecure s (toSecond s) ∧ SameObjects s (toSecond s)
    ∧ SameMix s (toSecond s) ∧ SameHead s (toSecond s) ∧ SamePort s (toSecond s) ∧ SameSizes s (toSecond s) ∧ (toSecond
    s).pending = s.pending ∧ (toSecond s).pwr = s.pwr ∧ (toSecond s).bus = s.bus ∧ (toSecond s).plan = s.plan ∧ (toSecond
    s).compat = s.compat := by
  unfold toSecond; simp [passTo_frame ..]

theorem moveInstants_frame (d : Int) (s : State) : SameBase s (moveInstants d s) ∧ SameSecure s (moveInstants d s) ∧
    SameMix s (moveInstants d s) ∧ SameHead s (moveInstants d s) ∧ SamePlan s (moveInstants d s) ∧ SamePort s
    (moveInstants d s) ∧ SameSizes s (moveInstants d s) ∧ (moveInstants d s).set = s.set ∧ (moveInstants d s).store =
    s.store ∧ (moveInstants d s).stats = s.stats ∧ (moveInstants d s).front = s.front := by
  unfold moveInstants; simp [mapChains_frame ..]

theorem applySecond_frame (s : State) : SameBase s (applySecond s) ∧ SameSecure s (applySecond s) ∧ SameMix s
    (applySecond s) ∧ SameSizes s (applySecond s) ∧ (applySecond s).set = s.set ∧ (applySecond s).store = s.store ∧
    (applySecond s).stats = s.stats ∧ (applySecond s).front = s.front ∧ (applySecond s).gens = s.gens ∧ (applySecond
    s).cal = s.cal ∧ (applySecond s).plan = s.plan ∧ (applySecond s).compat = s.compat := by
  unfold applySecond; simp [moveInstants_frame ..]

theorem noteLoss_frame (code : Nat) (s : State) : SameBase s (noteLoss code s) ∧ SameStore s (noteLoss code s) ∧
    SameSecure s (noteLoss code s) ∧ SameObjects s (noteLoss code s) ∧ SameHead s (noteLoss code s) ∧ SamePlan s (noteLoss
    code s) ∧ SameSizes s (noteLoss code s) ∧ (noteLoss code s).mix = s.mix := by
  unfold noteLoss; (repeat' split) <;> simp [noteLog_frame ..]

theorem noteLoop_frame (code : Nat) (us : Nat) (s : State) : SameStore s (noteLoop code us s) ∧ SameSecure s (noteLoop
    code us s) ∧ SameObjects s (noteLoop code us s) ∧ SameHead s (noteLoop code us s) ∧ SamePlan s (noteLoop code us s) ∧
    SameSizes s (noteLoop code us s) ∧ (noteLoop code us s).pending = s.pending ∧ (noteLoop code us s).pwr = s.pwr ∧
    (noteLoop code us s).bus = s.bus ∧ (noteLoop code us s).mix = s.mix := by
  unfold noteLoop; simp [noteLog_frame ..]

theorem noteOwed_frame (s : State) : SameStore s (noteOwed s) ∧ SameSecure s (noteOwed s) ∧ SameObjects s (noteOwed s)
    ∧ SameHead s (noteOwed s) ∧ SamePlan s (noteOwed s) ∧ SameSizes s (noteOwed s) ∧ (noteOwed s).pending = s.pending ∧
    (noteOwed s).pwr = s.pwr ∧ (noteOwed s).bus = s.bus ∧ (noteOwed s).mix = s.mix := by
  unfold noteOwed; simp

theorem loseSysPll_frame (s : State) : SameSecure s (loseSysPll s) ∧ SameHead s (loseSysPll s) ∧ SamePlan s
    (loseSysPll s) ∧ SameSizes s (loseSysPll s) ∧ (loseSysPll s).pending = s.pending ∧ (loseSysPll s).pwr = s.pwr ∧
    (loseSysPll s).bus = s.bus ∧ (loseSysPll s).stats = s.stats ∧ (loseSysPll s).prog = s.prog ∧ (loseSysPll s).mix =
    s.mix := by
  unfold loseSysPll; simp [cutAir_frame .., noteLoss_frame ..]

theorem loseSPll_frame (s : State) : SameStore s (loseSPll s) ∧ SameHead s (loseSPll s) ∧ SameSizes s (loseSPll s) ∧
    (loseSPll s).pending = s.pending ∧ (loseSPll s).pwr = s.pwr ∧ (loseSPll s).bus = s.bus ∧ (loseSPll s).sec = s.sec ∧
    (loseSPll s).survey = s.survey ∧ (loseSPll s).front = s.front ∧ (loseSPll s).plan = s.plan := by
  unfold loseSPll; simp [gapWindow_frame .., noteLoss_frame ..]

theorem loseAPll_frame (s : State) : SameStore s (loseAPll s) ∧ SameSecure s (loseAPll s) ∧ SameObjects s (loseAPll s)
    ∧ SameHead s (loseAPll s) ∧ SamePlan s (loseAPll s) ∧ SameSizes s (loseAPll s) ∧ (loseAPll s).pending = s.pending ∧
    (loseAPll s).pwr = s.pwr ∧ (loseAPll s).bus = s.bus ∧ (loseAPll s).mix = s.mix := by
  unfold loseAPll; simp [noteLoss_frame ..]

theorem loseSynth_frame (s : State) : SameSecure s (loseSynth s) ∧ SameHead s (loseSynth s) ∧ SamePlan s (loseSynth s)
    ∧ SameSizes s (loseSynth s) ∧ (loseSynth s).pending = s.pending ∧ (loseSynth s).pwr = s.pwr ∧ (loseSynth s).bus =
    s.bus ∧ (loseSynth s).stats = s.stats ∧ (loseSynth s).prog = s.prog ∧ (loseSynth s).mix = s.mix := by
  unfold loseSynth; simp [cutAir_frame .., noteLoss_frame ..]

theorem loseWordClock_frame (s : State) : SameStore s (loseWordClock s) ∧ SameSecure s (loseWordClock s) ∧ SameObjects
    s (loseWordClock s) ∧ SameHead s (loseWordClock s) ∧ SamePlan s (loseWordClock s) ∧ SameSizes s (loseWordClock s) ∧
    (loseWordClock s).pending = s.pending ∧ (loseWordClock s).pwr = s.pwr ∧ (loseWordClock s).bus = s.bus ∧ (loseWordClock
    s).mix = s.mix := by
  unfold loseWordClock; simp [noteLoss_frame ..]

theorem refStops_frame (s : State) : SameHead s (refStops s) ∧ SameSizes s (refStops s) ∧ (refStops s).pending =
    s.pending ∧ (refStops s).pwr = s.pwr ∧ (refStops s).bus = s.bus ∧ (refStops s).stats = s.stats ∧ (refStops s).sec =
    s.sec ∧ (refStops s).survey = s.survey ∧ (refStops s).plan = s.plan := by
  unfold refStops; simp [coastLater_frame .., noteLoss_frame .., loseSysPll_frame .., loseSPll_frame .., loseAPll_frame .., loseSynth_frame ..]

theorem lastOutage_frame (since : Nat) (us : Nat) (s : State) : SameStore s (lastOutage since us s) ∧ SameSecure s
    (lastOutage since us s) ∧ SameObjects s (lastOutage since us s) ∧ SameMix s (lastOutage since us s) ∧ SameHead s
    (lastOutage since us s) ∧ SamePort s (lastOutage since us s) ∧ SameSizes s (lastOutage since us s) ∧ (lastOutage since
    us s).pending = s.pending ∧ (lastOutage since us s).pwr = s.pwr ∧ (lastOutage since us s).bus = s.bus ∧ (lastOutage
    since us s).plan = s.plan ∧ (lastOutage since us s).compat = s.compat := by
  unfold lastOutage; simp [passTo_frame ..]

theorem gapAfterBuffer_frame (w : Nat) (g : Int) (s : State) : SameBase s (gapAfterBuffer w g s) ∧ SameStore s
    (gapAfterBuffer w g s) ∧ SameSecure s (gapAfterBuffer w g s) ∧ SameMix s (gapAfterBuffer w g s) ∧ SameHead s
    (gapAfterBuffer w g s) ∧ SamePlan s (gapAfterBuffer w g s) ∧ SamePort s (gapAfterBuffer w g s) ∧ SameSizes s
    (gapAfterBuffer w g s) ∧ (gapAfterBuffer w g s).front = s.front := by
  unfold gapAfterBuffer; simp

theorem relockSysPll_frame (us : Nat) (s : State) : SameStore s (relockSysPll us s) ∧ SameHead s (relockSysPll us s) ∧
    SameSizes s (relockSysPll us s) ∧ (relockSysPll us s).pending = s.pending ∧ (relockSysPll us s).pwr = s.pwr ∧
    (relockSysPll us s).bus = s.bus ∧ (relockSysPll us s).sec = s.sec ∧ (relockSysPll us s).survey = s.survey ∧
    (relockSysPll us s).plan = s.plan := by
  unfold relockSysPll; dsimp only; (repeat' split) <;> simp [noteLoop_frame .., noteOwed_frame .., lastOutage_frame .., gapAfterBuffer_frame .., postCoasted_frame ..]

theorem relockSPll_frame (us : Nat) (s : State) : SameStore s (relockSPll us s) ∧ SameHead s (relockSPll us s) ∧
    SameSizes s (relockSPll us s) ∧ (relockSPll us s).pending = s.pending ∧ (relockSPll us s).pwr = s.pwr ∧ (relockSPll us
    s).bus = s.bus ∧ (relockSPll us s).sec = s.sec ∧ (relockSPll us s).survey = s.survey ∧ (relockSPll us s).plan = s.plan
    := by
  unfold relockSPll; dsimp only; (repeat' split) <;> simp [noteLoop_frame .., lastOutage_frame ..]

theorem relockAPll_frame (us : Nat) (s : State) : SameStore s (relockAPll us s) ∧ SameSecure s (relockAPll us s) ∧
    SameHead s (relockAPll us s) ∧ SameSizes s (relockAPll us s) ∧ (relockAPll us s).pending = s.pending ∧ (relockAPll us
    s).pwr = s.pwr ∧ (relockAPll us s).bus = s.bus ∧ (relockAPll us s).front = s.front ∧ (relockAPll us s).mix = s.mix ∧
    (relockAPll us s).plan = s.plan ∧ (relockAPll us s).compat = s.compat := by
  unfold relockAPll; dsimp only; (repeat' split) <;> simp [noteLoop_frame .., lastOutage_frame ..]

theorem relockSynth_frame (us : Nat) (s : State) : SameSecure s (relockSynth us s) ∧ SameObjects s (relockSynth us s)
    ∧ SameHead s (relockSynth us s) ∧ SameSizes s (relockSynth us s) ∧ (relockSynth us s).pending = s.pending ∧
    (relockSynth us s).pwr = s.pwr ∧ (relockSynth us s).bus = s.bus ∧ (relockSynth us s).set = s.set ∧ (relockSynth us
    s).store = s.store ∧ (relockSynth us s).stats = s.stats ∧ (relockSynth us s).mix = s.mix ∧ (relockSynth us s).plan =
    s.plan ∧ (relockSynth us s).compat = s.compat := by
  unfold relockSynth; dsimp only; (repeat' split) <;> simp [radioRest_frame .., noteLoop_frame .., lastOutage_frame ..]

theorem lockWordClock_frame (us : Nat) (s : State) : SameStore s (lockWordClock us s) ∧ SameSecure s (lockWordClock us
    s) ∧ SameObjects s (lockWordClock us s) ∧ SameHead s (lockWordClock us s) ∧ SameSizes s (lockWordClock us s) ∧
    (lockWordClock us s).pending = s.pending ∧ (lockWordClock us s).pwr = s.pwr ∧ (lockWordClock us s).bus = s.bus ∧
    (lockWordClock us s).mix = s.mix ∧ (lockWordClock us s).plan = s.plan ∧ (lockWordClock us s).compat = s.compat := by
  unfold lockWordClock; dsimp only; (repeat' split) <;> simp [noteLoop_frame .., lastOutage_frame ..]

theorem refReturns_frame (s : State) : SameStore s (refReturns s) ∧ SameSecure s (refReturns s) ∧ SameObjects s
    (refReturns s) ∧ SameHead s (refReturns s) ∧ SamePlan s (refReturns s) ∧ SameSizes s (refReturns s) ∧ (refReturns
    s).pending = s.pending ∧ (refReturns s).pwr = s.pwr ∧ (refReturns s).bus = s.bus ∧ (refReturns s).mix = s.mix := by
  unfold refReturns; simp [noteLoop_frame ..]

theorem changeReference_frame (new : Nat) (cause : Option Nat) (s : State) : SameBase s (changeReference new cause s)
    ∧ SameStore s (changeReference new cause s) ∧ SameSecure s (changeReference new cause s) ∧ SameObjects s
    (changeReference new cause s) ∧ SameMix s (changeReference new cause s) ∧ SameHead s (changeReference new cause s) ∧
    SameSizes s (changeReference new cause s) ∧ (changeReference new cause s).plan = s.plan ∧ (changeReference new cause
    s).compat = s.compat := by
  unfold changeReference; simp

theorem timeConfigBody_frame (f : CmdFrame) (s : State) : SameSecure s (timeConfigBody f s).1 ∧ SameObjects s
    (timeConfigBody f s).1 ∧ SameHead s (timeConfigBody f s).1 ∧ SameSizes s (timeConfigBody f s).1 ∧ (timeConfigBody f
    s).1.pending = s.pending ∧ (timeConfigBody f s).1.pwr = s.pwr ∧ (timeConfigBody f s).1.bus = s.bus ∧ (timeConfigBody f
    s).1.link = s.link ∧ (timeConfigBody f s).1.stats = s.stats ∧ (timeConfigBody f s).1.mix = s.mix ∧ (timeConfigBody f
    s).1.plan = s.plan ∧ (timeConfigBody f s).1.compat = s.compat := by
  unfold timeConfigBody; simp [noteBy_frame .., changeReference_frame ..]

theorem getTimeConfigBody_frame (f : CmdFrame) (s : State) : SameBase s (getTimeConfigBody f s).1 ∧ SameStore s
    (getTimeConfigBody f s).1 ∧ SameSecure s (getTimeConfigBody f s).1 ∧ SameObjects s (getTimeConfigBody f s).1 ∧ SameMix
    s (getTimeConfigBody f s).1 ∧ SameHead s (getTimeConfigBody f s).1 ∧ SamePlan s (getTimeConfigBody f s).1 ∧ SamePort s
    (getTimeConfigBody f s).1 ∧ SameSizes s (getTimeConfigBody f s).1 := by
  unfold getTimeConfigBody; simp

theorem timeSetBody_frame (f : CmdFrame) (s : State) : SameBase s (timeSetBody f s).1 ∧ SameStore s (timeSetBody f
    s).1 ∧ SameSecure s (timeSetBody f s).1 ∧ SameObjects s (timeSetBody f s).1 ∧ SameMix s (timeSetBody f s).1 ∧ SamePort
    s (timeSetBody f s).1 ∧ SameSizes s (timeSetBody f s).1 ∧ (timeSetBody f s).1.gens = s.gens ∧ (timeSetBody f s).1.cal
    = s.cal ∧ (timeSetBody f s).1.plan = s.plan ∧ (timeSetBody f s).1.compat = s.compat := by
  unfold timeSetBody; simp

theorem writeSettings_frame (s : State) : SameBase s (writeSettings s).2 ∧ SameSecure s (writeSettings s).2 ∧
    SameObjects s (writeSettings s).2 ∧ SameMix s (writeSettings s).2 ∧ SameHead s (writeSettings s).2 ∧ SamePlan s
    (writeSettings s).2 ∧ SamePort s (writeSettings s).2 ∧ SameSizes s (writeSettings s).2 ∧ (writeSettings s).2.set =
    s.set ∧ (writeSettings s).2.link = s.link ∧ (writeSettings s).2.stats = s.stats := by
  unfold writeSettings; simp

theorem writeCal_frame (s : State) : SameBase s (writeCal s) ∧ SameSecure s (writeCal s) ∧ SameObjects s (writeCal s)
    ∧ SameMix s (writeCal s) ∧ SamePlan s (writeCal s) ∧ SamePort s (writeCal s) ∧ SameSizes s (writeCal s) ∧ (writeCal
    s).set = s.set ∧ (writeCal s).link = s.link ∧ (writeCal s).stats = s.stats ∧ (writeCal s).head = s.head ∧ (writeCal
    s).gens = s.gens := by
  unfold writeCal; simp [foldHours_frame ..]

theorem keyChanged_frame (slot : Nat) (action : Nat) (cause : Option Nat) (s : State) : SameBase s (keyChanged slot
    action cause s) ∧ SameStore s (keyChanged slot action cause s) ∧ SameSecure s (keyChanged slot action cause s) ∧
    SameObjects s (keyChanged slot action cause s) ∧ SameMix s (keyChanged slot action cause s) ∧ SameHead s (keyChanged
    slot action cause s) ∧ SamePlan s (keyChanged slot action cause s) ∧ SameSizes s (keyChanged slot action cause s) :=
    by
  unfold keyChanged; simp

theorem beginZeroise_frame (slots : List Nat) (s : State) : SameBase s (beginZeroise slots s) ∧ SameObjects s
    (beginZeroise slots s) ∧ SameMix s (beginZeroise slots s) ∧ SameHead s (beginZeroise slots s) ∧ SamePlan s
    (beginZeroise slots s) ∧ SamePort s (beginZeroise slots s) ∧ SameSizes s (beginZeroise slots s) ∧ (beginZeroise slots
    s).set = s.set ∧ (beginZeroise slots s).link = s.link ∧ (beginZeroise slots s).stats = s.stats ∧ (beginZeroise slots
    s).survey = s.survey ∧ (beginZeroise slots s).fresh = s.fresh := by
  unfold beginZeroise; simp

theorem slotZeroised_frame (i : Nat) (s : State) : SameBase s (slotZeroised i s) ∧ SameStore s (slotZeroised i s) ∧
    SameObjects s (slotZeroised i s) ∧ SameMix s (slotZeroised i s) ∧ SamePlan s (slotZeroised i s) ∧ SameSizes s
    (slotZeroised i s) ∧ (slotZeroised i s).survey = s.survey ∧ (slotZeroised i s).fresh = s.fresh ∧ (slotZeroised i
    s).gens = s.gens ∧ (slotZeroised i s).cal = s.cal := by
  unfold slotZeroised; simp [keyChanged_frame ..]

theorem slotInstalled_frame (j : WriteJob) (i : Nat) (k : Option (List Byte)) (s : State) : SameBase s (slotInstalled
    j i k s) ∧ SameObjects s (slotInstalled j i k s) ∧ SameMix s (slotInstalled j i k s) ∧ SamePlan s (slotInstalled j i k
    s) ∧ SameSizes s (slotInstalled j i k s) ∧ (slotInstalled j i k s).set = s.set ∧ (slotInstalled j i k s).stats =
    s.stats ∧ (slotInstalled j i k s).survey = s.survey ∧ (slotInstalled j i k s).fresh = s.fresh ∧ (slotInstalled j i k
    s).gens = s.gens ∧ (slotInstalled j i k s).cal = s.cal := by
  unfold slotInstalled; simp [keyChanged_frame ..]

theorem finishJob_frame (j : WriteJob) (rest : List WriteJob) (s : State) : SameBase s (finishJob j rest s) ∧
    SameObjects s (finishJob j rest s) ∧ SameMix s (finishJob j rest s) ∧ SamePlan s (finishJob j rest s) ∧ SameSizes s
    (finishJob j rest s) ∧ (finishJob j rest s).set = s.set ∧ (finishJob j rest s).stats = s.stats ∧ (finishJob j rest
    s).survey = s.survey ∧ (finishJob j rest s).fresh = s.fresh ∧ (finishJob j rest s).gens = s.gens := by
  unfold finishJob; split <;> simp [slotZeroised_frame .., slotInstalled_frame ..]

theorem applyRing_frame (n : Nat) (x : RingSettings) (s : State) : SameBase s (applyRing n x s) ∧ SameSecure s
    (applyRing n x s) ∧ SameObjects s (applyRing n x s) ∧ SameMix s (applyRing n x s) ∧ SameHead s (applyRing n x s) ∧
    SamePlan s (applyRing n x s) ∧ SameSizes s (applyRing n x s) ∧ (applyRing n x s).store = s.store ∧ (applyRing n x
    s).link = s.link ∧ (applyRing n x s).stats = s.stats := by
  unfold applyRing; simp [modRingSet_frame .., repack_frame .., shrinkRing_frame .., enableVisible_frame ..]

theorem emptyPlan_frame (tag : Nat) (s : State) : SameBase s (emptyPlan tag s) ∧ SameStore s (emptyPlan tag s) ∧
    SameSizes s (emptyPlan tag s) ∧ (emptyPlan tag s).sec = s.sec ∧ (emptyPlan tag s).survey = s.survey ∧ (emptyPlan tag
    s).gens = s.gens ∧ (emptyPlan tag s).time = s.time := by
  unfold emptyPlan; simp [finishRemovals_frame .., stopAll_frame .., shutUnnamed_frame ..]

theorem applyShipped_frame (tag : Nat) (s : State) : SameSecure s (applyShipped tag s) ∧ SameObjects s (applyShipped
    tag s) ∧ SameHead s (applyShipped tag s) ∧ SameSizes s (applyShipped tag s) ∧ (applyShipped tag s).pending = s.pending
    ∧ (applyShipped tag s).pwr = s.pwr ∧ (applyShipped tag s).bus = s.bus ∧ (applyShipped tag s).mix = s.mix ∧
    (applyShipped tag s).plan = s.plan ∧ (applyShipped tag s).compat = s.compat := by
  unfold applyShipped; simp [beginStop_frame .., flushResponses_frame .., changeReference_frame .., applyRing_frame ..]

theorem factoryDefaultsBody_frame (f : CmdFrame) (s : State) : SameSizes s (factoryDefaultsBody f s).1 ∧
    (factoryDefaultsBody f s).1.pending = s.pending ∧ (factoryDefaultsBody f s).1.pwr = s.pwr ∧ (factoryDefaultsBody f
    s).1.bus = s.bus ∧ (factoryDefaultsBody f s).1.sec = s.sec ∧ (factoryDefaultsBody f s).1.survey = s.survey := by
  unfold factoryDefaultsBody; simp [tunersOff_frame .., compatEnter_frame .., writePlan_frame .., writeSettings_frame .., emptyPlan_frame .., applyShipped_frame ..]

theorem factoryDefaults_frame (f : CmdFrame) (s : State) : SameSizes s (factoryDefaults f s) ∧ (factoryDefaults f
    s).pending = s.pending ∧ (factoryDefaults f s).pwr = s.pwr ∧ (factoryDefaults f s).sec = s.sec ∧ (factoryDefaults f
    s).survey = s.survey := by
  unfold factoryDefaults; simp [factoryDefaultsBody_frame ..]

theorem writeSettingsFor_frame (m : Mode) (s : State) : SameBase s (writeSettingsFor m s) ∧ SameSecure s
    (writeSettingsFor m s) ∧ SameObjects s (writeSettingsFor m s) ∧ SameMix s (writeSettingsFor m s) ∧ SameHead s
    (writeSettingsFor m s) ∧ SamePlan s (writeSettingsFor m s) ∧ SamePort s (writeSettingsFor m s) ∧ SameSizes s
    (writeSettingsFor m s) ∧ (writeSettingsFor m s).link = s.link ∧ (writeSettingsFor m s).stats = s.stats := by
  unfold writeSettingsFor; simp [writeSettings_frame ..]

theorem holdWrites_frame (s : State) : SameBase s (holdWrites s) ∧ SameSecure s (holdWrites s) ∧ SameObjects s
    (holdWrites s) ∧ SameMix s (holdWrites s) ∧ SamePlan s (holdWrites s) ∧ SamePort s (holdWrites s) ∧ SameSizes s
    (holdWrites s) ∧ (holdWrites s).link = s.link ∧ (holdWrites s).stats = s.stats ∧ (holdWrites s).head = s.head ∧
    (holdWrites s).gens = s.gens := by
  unfold holdWrites; simp [writeCounters_frame .., writeCal_frame .., writeSettingsFor_frame ..]

theorem leaveMode_frame (cause : Option Nat) (s : State) : SameBase s (leaveMode cause s) ∧ SameStore s (leaveMode
    cause s) ∧ SameSizes s (leaveMode cause s) ∧ (leaveMode cause s).sec = s.sec ∧ (leaveMode cause s).gens = s.gens ∧
    (leaveMode cause s).time = s.time := by
  unfold leaveMode; simp [closeSweep_frame .., stopAll_frame .., compatLeave_frame ..]

theorem beginTransition_frame (m : Mode) (cause : Option Nat) (s : State) : SameBase s (beginTransition m cause s) ∧
    SameSizes s (beginTransition m cause s) ∧ (beginTransition m cause s).link = s.link ∧ (beginTransition m cause
    s).stats = s.stats ∧ (beginTransition m cause s).gens = s.gens ∧ (beginTransition m cause s).time = s.time := by
  unfold beginTransition; split <;> simp [beginZeroise_frame .., holdWrites_frame .., leaveMode_frame ..]

theorem enterMode_frame (cause : Option Nat) (s : State) : SameBase s (enterMode cause s) ∧ SameSizes s (enterMode
    cause s) ∧ (enterMode cause s).link = s.link ∧ (enterMode cause s).stats = s.stats ∧ (enterMode cause s).sec = s.sec ∧
    (enterMode cause s).time = s.time := by
  unfold enterMode; simp [enterRunning_frame .., compatEnter_frame ..]

theorem closeRing31_frame (s : State) : SameBase s (closeRing31 s) ∧ SameSecure s (closeRing31 s) ∧ SameObjects s
    (closeRing31 s) ∧ SameMix s (closeRing31 s) ∧ SameHead s (closeRing31 s) ∧ SamePlan s (closeRing31 s) ∧ SameSizes s
    (closeRing31 s) ∧ (closeRing31 s).store = s.store ∧ (closeRing31 s).link = s.link ∧ (closeRing31 s).stats = s.stats :=
    by
  unfold closeRing31; simp [applyRing_frame ..]

theorem rerunAll_frame (s : State) : SameBase s (rerunAll s) ∧ SameSizes s (rerunAll s) ∧ (rerunAll s).sec = s.sec ∧
    (rerunAll s).survey = s.survey ∧ (rerunAll s).cal = s.cal ∧ (rerunAll s).time = s.time := by
  unfold rerunAll; simp [windowOpenBody_frame .., windowGangBody_frame .., pcmRouteBody_frame .., handleLinkConfig_frame ..]

theorem finishTransition_frame (m : Mode) (s : State) : SameBase s (finishTransition m s) ∧ SameSizes s
    (finishTransition m s) ∧ (finishTransition m s).sec = s.sec ∧ (finishTransition m s).time = s.time := by
  unfold finishTransition; simp [logNote_frame .., reduceDividers_frame .., enterMode_frame ..,
      rerunAll_frame .., tunersOff_frame .., closeRing31_frame ..]

theorem wake_frame (source : Nat) (s : State) : SameSizes s (wake source s) ∧ (wake source s).pending = s.pending ∧
    (wake source s).pwr = s.pwr ∧ (wake source s).bus = s.bus ∧ (wake source s).link = s.link ∧ (wake source s).stats =
    s.stats ∧ (wake source s).gens = s.gens ∧ (wake source s).time = s.time := by
  unfold wake; simp [reduceDividers_frame .., beginTransition_frame ..]

theorem finishHold_frame (s : State) : SameSizes s (finishHold s) ∧ (finishHold s).pending = s.pending ∧ (finishHold
    s).pwr = s.pwr ∧ (finishHold s).bus = s.bus := by
  unfold finishHold; dsimp only; split <;> simp [tunersOff_frame .., reduceDividers_frame .., coast_frame .., refStops_frame .., rerunAll_frame .., wake_frame ..]

theorem setModeBody_frame (f : CmdFrame) (s : State) : SameBase s (setModeBody f s).1 ∧ SameSizes s (setModeBody f
    s).1 ∧ (setModeBody f s).1.link = s.link ∧ (setModeBody f s).1.stats = s.stats ∧ (setModeBody f s).1.gens = s.gens ∧
    (setModeBody f s).1.time = s.time := by
  unfold setModeBody; simp [beginTransition_frame ..]

theorem setMode_frame (f : CmdFrame) (s : State) : SameSizes s (setMode f s) ∧ (setMode f s).pending = s.pending ∧
    (setMode f s).pwr = s.pwr ∧ (setMode f s).clk = s.clk ∧ (setMode f s).link = s.link ∧ (setMode f s).stats = s.stats ∧
    (setMode f s).gens = s.gens ∧ (setMode f s).time = s.time := by
  unfold setMode; simp [setModeBody_frame ..]

theorem wakeSource_frame (source : Nat) (s : State) : SameSizes s (wakeSource source s) ∧ (wakeSource source
    s).pending = s.pending ∧ (wakeSource source s).pwr = s.pwr ∧ (wakeSource source s).bus = s.bus ∧ (wakeSource source
    s).link = s.link ∧ (wakeSource source s).stats = s.stats ∧ (wakeSource source s).gens = s.gens ∧ (wakeSource source
    s).time = s.time := by
  unfold wakeSource; simp [wake_frame ..]

theorem getIdentityBody_frame (f : CmdFrame) (s : State) : SameBase s (getIdentityBody f s).1 ∧ SameStore s
    (getIdentityBody f s).1 ∧ SameSecure s (getIdentityBody f s).1 ∧ SameObjects s (getIdentityBody f s).1 ∧ SameMix s
    (getIdentityBody f s).1 ∧ SameHead s (getIdentityBody f s).1 ∧ SamePlan s (getIdentityBody f s).1 ∧ SamePort s
    (getIdentityBody f s).1 ∧ SameSizes s (getIdentityBody f s).1 := by
  unfold getIdentityBody; simp

theorem reportBudget_frame (cause : Nat) (p : Nat) (s : State) : SameBase s (reportBudget cause p s) ∧ SameStore s
    (reportBudget cause p s) ∧ SameSecure s (reportBudget cause p s) ∧ SameObjects s (reportBudget cause p s) ∧ SameHead s
    (reportBudget cause p s) ∧ SamePlan s (reportBudget cause p s) ∧ SameSizes s (reportBudget cause p s) ∧ (reportBudget
    cause p s).mix = s.mix := by
  unfold reportBudget; simp [noteBy_frame .., markBudget_frame ..]

theorem portDeclareBody_frame (f : CmdFrame) (s : State) : SameBase s (portDeclareBody f s).1 ∧ SameSecure s
    (portDeclareBody f s).1 ∧ SameObjects s (portDeclareBody f s).1 ∧ SameHead s (portDeclareBody f s).1 ∧ SamePlan s
    (portDeclareBody f s).1 ∧ SameSizes s (portDeclareBody f s).1 ∧ (portDeclareBody f s).1.link = s.link ∧
    (portDeclareBody f s).1.stats = s.stats ∧ (portDeclareBody f s).1.mix = s.mix := by
  unfold portDeclareBody; simp [reportBudget_frame ..]

theorem getPortDeclareBody_frame (f : CmdFrame) (s : State) : SameBase s (getPortDeclareBody f s).1 ∧ SameStore s
    (getPortDeclareBody f s).1 ∧ SameSecure s (getPortDeclareBody f s).1 ∧ SameObjects s (getPortDeclareBody f s).1 ∧
    SameMix s (getPortDeclareBody f s).1 ∧ SameHead s (getPortDeclareBody f s).1 ∧ SamePlan s (getPortDeclareBody f s).1 ∧
    SamePort s (getPortDeclareBody f s).1 ∧ SameSizes s (getPortDeclareBody f s).1 := by
  unfold getPortDeclareBody; simp

theorem alarmSetBody_frame (f : CmdFrame) (s : State) : SameBase s (alarmSetBody f s).1 ∧ SameSecure s (alarmSetBody f
    s).1 ∧ SameObjects s (alarmSetBody f s).1 ∧ SameMix s (alarmSetBody f s).1 ∧ SameHead s (alarmSetBody f s).1 ∧
    SamePlan s (alarmSetBody f s).1 ∧ SamePort s (alarmSetBody f s).1 ∧ SameSizes s (alarmSetBody f s).1 ∧ (alarmSetBody f
    s).1.link = s.link ∧ (alarmSetBody f s).1.stats = s.stats := by
  unfold alarmSetBody; simp

theorem getAlarmBody_frame (f : CmdFrame) (s : State) : SameBase s (getAlarmBody f s).1 ∧ SameStore s (getAlarmBody f
    s).1 ∧ SameSecure s (getAlarmBody f s).1 ∧ SameObjects s (getAlarmBody f s).1 ∧ SameMix s (getAlarmBody f s).1 ∧
    SameHead s (getAlarmBody f s).1 ∧ SamePlan s (getAlarmBody f s).1 ∧ SamePort s (getAlarmBody f s).1 ∧ SameSizes s
    (getAlarmBody f s).1 := by
  unfold getAlarmBody; simp

theorem echoBody_frame (f : CmdFrame) (s : State) : SameBase s (echoBody f s).1 ∧ SameStore s (echoBody f s).1 ∧
    SameSecure s (echoBody f s).1 ∧ SameObjects s (echoBody f s).1 ∧ SameMix s (echoBody f s).1 ∧ SameHead s (echoBody f
    s).1 ∧ SamePlan s (echoBody f s).1 ∧ SamePort s (echoBody f s).1 ∧ SameSizes s (echoBody f s).1 := by
  unfold echoBody; simp

theorem keyInstallBody_frame (f : CmdFrame) (s : State) : SameBase s (keyInstallBody f s).1 ∧ SameSecure s
    (keyInstallBody f s).1 ∧ SameObjects s (keyInstallBody f s).1 ∧ SameMix s (keyInstallBody f s).1 ∧ SamePlan s
    (keyInstallBody f s).1 ∧ SamePort s (keyInstallBody f s).1 ∧ SameSizes s (keyInstallBody f s).1 ∧ (keyInstallBody f
    s).1.set = s.set ∧ (keyInstallBody f s).1.link = s.link ∧ (keyInstallBody f s).1.stats = s.stats ∧ (keyInstallBody f
    s).1.gens = s.gens ∧ (keyInstallBody f s).1.cal = s.cal := by
  unfold keyInstallBody; simp

theorem keyZeroiseBody_frame (f : CmdFrame) (s : State) : SameBase s (keyZeroiseBody f s).1 ∧ SameObjects s
    (keyZeroiseBody f s).1 ∧ SameMix s (keyZeroiseBody f s).1 ∧ SamePlan s (keyZeroiseBody f s).1 ∧ SamePort s
    (keyZeroiseBody f s).1 ∧ SameSizes s (keyZeroiseBody f s).1 ∧ (keyZeroiseBody f s).1.set = s.set ∧ (keyZeroiseBody f
    s).1.link = s.link ∧ (keyZeroiseBody f s).1.stats = s.stats ∧ (keyZeroiseBody f s).1.survey = s.survey ∧
    (keyZeroiseBody f s).1.fresh = s.fresh ∧ (keyZeroiseBody f s).1.gens = s.gens ∧ (keyZeroiseBody f s).1.cal = s.cal :=
    by
  unfold keyZeroiseBody; simp [beginZeroise_frame ..]

theorem keyZeroise_frame (f : CmdFrame) (s : State) : SameObjects s (keyZeroise f s) ∧ SameMix s (keyZeroise f s) ∧
    SamePlan s (keyZeroise f s) ∧ SameSizes s (keyZeroise f s) ∧ (keyZeroise f s).pending = s.pending ∧ (keyZeroise f
    s).pwr = s.pwr ∧ (keyZeroise f s).clk = s.clk ∧ (keyZeroise f s).set = s.set ∧ (keyZeroise f s).link = s.link ∧
    (keyZeroise f s).stats = s.stats ∧ (keyZeroise f s).survey = s.survey ∧ (keyZeroise f s).fresh = s.fresh ∧ (keyZeroise
    f s).gens = s.gens ∧ (keyZeroise f s).cal = s.cal := by
  unfold keyZeroise; simp [keyZeroiseBody_frame ..]

theorem fwUpdateBeginBody_frame (f : CmdFrame) (s : State) : SameBase s (fwUpdateBeginBody f s).1 ∧ SameObjects s
    (fwUpdateBeginBody f s).1 ∧ SameMix s (fwUpdateBeginBody f s).1 ∧ SameHead s (fwUpdateBeginBody f s).1 ∧ SamePlan s
    (fwUpdateBeginBody f s).1 ∧ SamePort s (fwUpdateBeginBody f s).1 ∧ SameSizes s (fwUpdateBeginBody f s).1 ∧
    (fwUpdateBeginBody f s).1.set = s.set ∧ (fwUpdateBeginBody f s).1.link = s.link ∧ (fwUpdateBeginBody f s).1.stats =
    s.stats ∧ (fwUpdateBeginBody f s).1.survey = s.survey ∧ (fwUpdateBeginBody f s).1.fresh = s.fresh := by
  unfold fwUpdateBeginBody; simp

theorem fwUpdatePartBody_frame (f : CmdFrame) (s : State) : SameBase s (fwUpdatePartBody f s).1 ∧ SameStore s
    (fwUpdatePartBody f s).1 ∧ SameObjects s (fwUpdatePartBody f s).1 ∧ SameMix s (fwUpdatePartBody f s).1 ∧ SameHead s
    (fwUpdatePartBody f s).1 ∧ SamePlan s (fwUpdatePartBody f s).1 ∧ SamePort s (fwUpdatePartBody f s).1 ∧ SameSizes s
    (fwUpdatePartBody f s).1 ∧ (fwUpdatePartBody f s).1.survey = s.survey ∧ (fwUpdatePartBody f s).1.fresh = s.fresh := by
  unfold fwUpdatePartBody; simp

theorem commitImage_frame (f : CmdFrame) (s : State) : SameBase s (commitImage f s).1 ∧ SameObjects s (commitImage f
    s).1 ∧ SameMix s (commitImage f s).1 ∧ SameHead s (commitImage f s).1 ∧ SamePlan s (commitImage f s).1 ∧ SamePort s
    (commitImage f s).1 ∧ SameSizes s (commitImage f s).1 ∧ (commitImage f s).1.set = s.set ∧ (commitImage f s).1.link =
    s.link ∧ (commitImage f s).1.stats = s.stats ∧ (commitImage f s).1.survey = s.survey := by
  unfold commitImage; split <;> simp

theorem fwUpdateCommitBody_frame (f : CmdFrame) (s : State) : SameBase s (fwUpdateCommitBody f s).1 ∧ SameObjects s
    (fwUpdateCommitBody f s).1 ∧ SameMix s (fwUpdateCommitBody f s).1 ∧ SameHead s (fwUpdateCommitBody f s).1 ∧ SamePlan s
    (fwUpdateCommitBody f s).1 ∧ SamePort s (fwUpdateCommitBody f s).1 ∧ SameSizes s (fwUpdateCommitBody f s).1 ∧
    (fwUpdateCommitBody f s).1.set = s.set ∧ (fwUpdateCommitBody f s).1.link = s.link ∧ (fwUpdateCommitBody f s).1.stats =
    s.stats ∧ (fwUpdateCommitBody f s).1.survey = s.survey := by
  unfold fwUpdateCommitBody; simp [commitImage_frame ..]

theorem reclampGain_frame (p : Profile) (s : State) : SameBase s (reclampGain p s) ∧ SameSecure s (reclampGain p s) ∧
    SameObjects s (reclampGain p s) ∧ SameMix s (reclampGain p s) ∧ SameHead s (reclampGain p s) ∧ SamePlan s (reclampGain
    p s) ∧ SamePort s (reclampGain p s) ∧ SameSizes s (reclampGain p s) ∧ (reclampGain p s).link = s.link ∧ (reclampGain p
    s).stats = s.stats := by
  unfold reclampGain; simp

theorem regionProfileInstallBody_frame (f : CmdFrame) (s : State) : SameBase s (regionProfileInstallBody f s).1 ∧
    SameObjects s (regionProfileInstallBody f s).1 ∧ SameMix s (regionProfileInstallBody f s).1 ∧ SameHead s
    (regionProfileInstallBody f s).1 ∧ SamePlan s (regionProfileInstallBody f s).1 ∧ SameSizes s (regionProfileInstallBody
    f s).1 ∧ (regionProfileInstallBody f s).1.stats = s.stats ∧ (regionProfileInstallBody f s).1.survey = s.survey ∧
    (regionProfileInstallBody f s).1.fresh = s.fresh := by
  unfold regionProfileInstallBody; simp [reclampGain_frame ..]

theorem newChallenge_frame (s : State) : SameBase s (newChallenge s) ∧ SameStore s (newChallenge s) ∧ SameObjects s
    (newChallenge s) ∧ SameMix s (newChallenge s) ∧ SameHead s (newChallenge s) ∧ SamePlan s (newChallenge s) ∧ SamePort s
    (newChallenge s) ∧ SameSizes s (newChallenge s) ∧ (newChallenge s).survey = s.survey := by
  unfold newChallenge; simp [drawBytes_frame .., drbgRequest_frame ..]

theorem testUnlockBody_frame (f : CmdFrame) (s : State) : SameBase s (testUnlockBody f s).1 ∧ SameStore s
    (testUnlockBody f s).1 ∧ SameObjects s (testUnlockBody f s).1 ∧ SameMix s (testUnlockBody f s).1 ∧ SameHead s
    (testUnlockBody f s).1 ∧ SamePlan s (testUnlockBody f s).1 ∧ SamePort s (testUnlockBody f s).1 ∧ SameSizes s
    (testUnlockBody f s).1 ∧ (testUnlockBody f s).1.survey = s.survey := by
  unfold testUnlockBody; simp [newChallenge_frame ..]

theorem getSecurityBody_frame (f : CmdFrame) (s : State) : SameBase s (getSecurityBody f s).1 ∧ SameStore s
    (getSecurityBody f s).1 ∧ SameSecure s (getSecurityBody f s).1 ∧ SameObjects s (getSecurityBody f s).1 ∧ SameMix s
    (getSecurityBody f s).1 ∧ SameHead s (getSecurityBody f s).1 ∧ SamePlan s (getSecurityBody f s).1 ∧ SamePort s
    (getSecurityBody f s).1 ∧ SameSizes s (getSecurityBody f s).1 := by
  unfold getSecurityBody; simp

theorem bootNote_frame (code : Nat) (island : Nat) (value : Nat) (s : State) : SameBase s (bootNote code island value
    s) ∧ SameStore s (bootNote code island value s) ∧ SameSecure s (bootNote code island value s) ∧ SameObjects s
    (bootNote code island value s) ∧ SameMix s (bootNote code island value s) ∧ SamePlan s (bootNote code island value s)
    ∧ SamePort s (bootNote code island value s) ∧ SameSizes s (bootNote code island value s) ∧ (bootNote code island value
    s).gens = s.gens ∧ (bootNote code island value s).cal = s.cal := by
  unfold bootNote; simp

@[simp] theorem loadRecord_frame (por : Bool) (k : RecordKind) (s : State) : SameBase s (loadRecord por k s).2 ∧
    SameSecure s (loadRecord por k s).2 ∧ SameObjects s (loadRecord por k s).2 ∧ SameMix s (loadRecord por k s).2 ∧
    SamePlan s (loadRecord por k s).2 ∧ SamePort s (loadRecord por k s).2 ∧ SameSizes s (loadRecord por k s).2 ∧
    (loadRecord por k s).2.set = s.set ∧ (loadRecord por k s).2.link = s.link ∧ (loadRecord por k s).2.stats = s.stats ∧
    (loadRecord por k s).2.gens = s.gens ∧ (loadRecord por k s).2.cal = s.cal := by
  unfold loadRecord; dsimp only; split <;> simp [bootNote_frame ..]

theorem presetGen_frame (cls : Nat) (i : Nat) (g : Nat) (s : State) : SameBase s (presetGen cls i g s) ∧ SameStore s
    (presetGen cls i g s) ∧ SameSecure s (presetGen cls i g s) ∧ SamePlan s (presetGen cls i g s) ∧ SamePort s (presetGen
    cls i g s) ∧ SameSizes s (presetGen cls i g s) ∧ (presetGen cls i g s).prog = s.prog ∧ (presetGen cls i g s).health =
    s.health ∧ (presetGen cls i g s).head = s.head ∧ (presetGen cls i g s).cal = s.cal := by
  unfold presetGen; split <;> simp

theorem restoreEntry_frame (s : State) (x : PlanEntry × Nat) : SameBase s (restoreEntry s x) ∧ SameStore s
    (restoreEntry s x) ∧ SameSizes s (restoreEntry s x) ∧ (restoreEntry s x).sec = s.sec ∧ (restoreEntry s x).survey =
    s.survey ∧ (restoreEntry s x).time = s.time := by
  unfold restoreEntry; dsimp only; split <;> simp [createEntry_frame .., changeEntry_frame .., presetGen_frame ..]

theorem restorePass_frame (ops : List Nat) (es : List (PlanEntry × Nat)) (s : State) : SameBase s (restorePass ops es
    s) ∧ SameStore s (restorePass ops es s) ∧ SameSizes s (restorePass ops es s) ∧ (restorePass ops es s).sec = s.sec ∧
    (restorePass ops es s).survey = s.survey ∧ (restorePass ops es s).time = s.time := by
  unfold restorePass; simp [restoreEntry_frame ..]

theorem restoreGens_frame (l : List (List Nat)) (s : State) : SameBase s (restoreGens l s) ∧ SameStore s (restoreGens
    l s) ∧ SameSecure s (restoreGens l s) ∧ SamePlan s (restoreGens l s) ∧ SamePort s (restoreGens l s) ∧ SameSizes s
    (restoreGens l s) ∧ (restoreGens l s).prog = s.prog ∧ (restoreGens l s).health = s.health ∧ (restoreGens l s).head =
    s.head ∧ (restoreGens l s).cal = s.cal := by
  unfold restoreGens; simp

theorem restorePlan_frame (r : PlanRecord) (s : State) : SameBase s (restorePlan r s) ∧ SameSizes s (restorePlan r s)
    ∧ (restorePlan r s).store = s.store ∧ (restorePlan r s).link = s.link ∧ (restorePlan r s).stats = s.stats ∧
    (restorePlan r s).sec = s.sec ∧ (restorePlan r s).survey = s.survey ∧ (restorePlan r s).time = s.time := by
  unfold restorePlan; simp [restorePass_frame .., restoreGens_frame ..]

theorem advanceUnheld_frame (s : State) : SameBase s (advanceUnheld s) ∧ SameStore s (advanceUnheld s) ∧ SameSecure s
    (advanceUnheld s) ∧ SamePlan s (advanceUnheld s) ∧ SamePort s (advanceUnheld s) ∧ SameSizes s (advanceUnheld s) ∧
    (advanceUnheld s).health = s.health ∧ (advanceUnheld s).head = s.head ∧ (advanceUnheld s).cal = s.cal := by
  unfold advanceUnheld; simp [mapChains_frame ..]

theorem loadCal_frame (por : Bool) (s : State) : SameBase s (loadCal por s) ∧ SameSecure s (loadCal por s) ∧
    SameObjects s (loadCal por s) ∧ SameMix s (loadCal por s) ∧ SamePlan s (loadCal por s) ∧ SamePort s (loadCal por s) ∧
    SameSizes s (loadCal por s) ∧ (loadCal por s).set = s.set ∧ (loadCal por s).link = s.link ∧ (loadCal por s).stats =
    s.stats ∧ (loadCal por s).gens = s.gens := by
  unfold loadCal; simp

theorem loadProfile_frame (por : Bool) (s : State) : SameBase s (loadProfile por s) ∧ SameObjects s (loadProfile por
    s) ∧ SameMix s (loadProfile por s) ∧ SamePlan s (loadProfile por s) ∧ SamePort s (loadProfile por s) ∧ SameSizes s
    (loadProfile por s) ∧ (loadProfile por s).set = s.set ∧ (loadProfile por s).link = s.link ∧ (loadProfile por s).stats
    = s.stats ∧ (loadProfile por s).survey = s.survey ∧ (loadProfile por s).fresh = s.fresh ∧ (loadProfile por s).gens =
    s.gens ∧ (loadProfile por s).cal = s.cal := by
  unfold loadProfile; simp

theorem loadKey_frame (por : Bool) (s : State) (i : Nat) : SameBase s (loadKey por s i) ∧ SameObjects s (loadKey por s
    i) ∧ SameMix s (loadKey por s i) ∧ SamePlan s (loadKey por s i) ∧ SamePort s (loadKey por s i) ∧ SameSizes s (loadKey
    por s i) ∧ (loadKey por s i).set = s.set ∧ (loadKey por s i).link = s.link ∧ (loadKey por s i).stats = s.stats ∧
    (loadKey por s i).survey = s.survey ∧ (loadKey por s i).fresh = s.fresh ∧ (loadKey por s i).gens = s.gens ∧ (loadKey
    por s i).cal = s.cal := by
  unfold loadKey; simp

theorem reload_frame (outage : Nat) (s : State) : SameSizes s (reload outage s) ∧ (reload outage s).pending =
    s.pending ∧ (reload outage s).clk = s.clk ∧ (reload outage s).bus = s.bus ∧ (reload outage s).stats = s.stats ∧
    (reload outage s).survey = s.survey := by
  unfold reload; simp [restorePlan_frame .., advanceUnheld_frame .., loadCal_frame .., loadProfile_frame ..]

theorem powerOff_frame (s : State) : (powerOff s).pending = s.pending ∧ (powerOff s).fresh = s.fresh := by
  unfold powerOff; simp

theorem islandsReset_frame (s : State) : (islandsReset s).pending = s.pending ∧ (islandsReset s).stats = s.stats := by
  unfold islandsReset; simp [restorePlan_frame ..]

theorem initRings_frame (s : State) : SameBase s (initRings s) ∧ SameSecure s (initRings s) ∧ SameObjects s (initRings
    s) ∧ SameMix s (initRings s) ∧ SameHead s (initRings s) ∧ SamePlan s (initRings s) ∧ (initRings s).store = s.store ∧
    (initRings s).link = s.link ∧ (initRings s).stats = s.stats ∧ (initRings s).out = s.out := by
  unfold initRings; simp

theorem lockLoops_frame (s : State) : SameStore s (lockLoops s) ∧ SameSecure s (lockLoops s) ∧ SameObjects s
    (lockLoops s) ∧ SameMix s (lockLoops s) ∧ SameHead s (lockLoops s) ∧ SamePlan s (lockLoops s) ∧ SamePort s (lockLoops
    s) ∧ SameSizes s (lockLoops s) ∧ (lockLoops s).pending = s.pending ∧ (lockLoops s).pwr = s.pwr ∧ (lockLoops s).bus =
    s.bus := by
  unfold lockLoops; simp

theorem startHeadstock_frame (s : State) : SameStore s (startHeadstock s) ∧ SameSecure s (startHeadstock s) ∧
    SameObjects s (startHeadstock s) ∧ SameMix s (startHeadstock s) ∧ SameHead s (startHeadstock s) ∧ SamePlan s
    (startHeadstock s) ∧ SamePort s (startHeadstock s) ∧ SameSizes s (startHeadstock s) ∧ (startHeadstock s).pending =
    s.pending ∧ (startHeadstock s).pwr = s.pwr ∧ (startHeadstock s).bus = s.bus := by
  unfold startHeadstock; simp

theorem initUnits_frame (s : State) : SameBase s (initUnits s) ∧ SameStore s (initUnits s) ∧ SameSecure s (initUnits
    s) ∧ SameHead s (initUnits s) ∧ SamePlan s (initUnits s) ∧ SamePort s (initUnits s) ∧ (initUnits
    s).front.windows.length = s.front.windows.length ∧ (initUnits s).front.tuners.length = s.front.tuners.length ∧
    (initUnits s).prog = s.prog ∧ (initUnits s).mix = s.mix := by
  unfold initUnits; simp

theorem writeFallback_frame (kind : Nat) (s : State) : SameBase s (writeFallback kind s) ∧ SameSecure s (writeFallback
    kind s) ∧ SameObjects s (writeFallback kind s) ∧ SameMix s (writeFallback kind s) ∧ SamePlan s (writeFallback kind s)
    ∧ SamePort s (writeFallback kind s) ∧ SameSizes s (writeFallback kind s) ∧ (writeFallback kind s).set = s.set ∧
    (writeFallback kind s).link = s.link ∧ (writeFallback kind s).stats = s.stats ∧ (writeFallback kind s).head = s.head ∧
    (writeFallback kind s).gens = s.gens := by
  unfold writeFallback; simp [writePlan_frame .., writeCounters_frame .., writeSettings_frame .., writeCal_frame ..]

theorem postBoot_frame (s : State) : SameSecure s (postBoot s) ∧ SameObjects s (postBoot s) ∧ SamePlan s (postBoot s)
    ∧ SameSizes s (postBoot s) ∧ (postBoot s).pending = s.pending ∧ (postBoot s).clk = s.clk ∧ (postBoot s).bus = s.bus ∧
    (postBoot s).store = s.store ∧ (postBoot s).link = s.link ∧ (postBoot s).stats = s.stats ∧ (postBoot s).mix = s.mix ∧
    (postBoot s).gens = s.gens ∧ (postBoot s).cal = s.cal := by
  unfold postBoot; simp [bootNote_frame ..]

theorem enterBootMode_frame (s : State) : SameBase s (enterBootMode s) ∧ SameSizes s (enterBootMode s) ∧
    (enterBootMode s).stats = s.stats ∧ (enterBootMode s).sec = s.sec ∧ (enterBootMode s).survey = s.survey ∧
    (enterBootMode s).gens = s.gens ∧ (enterBootMode s).plan = s.plan ∧ (enterBootMode s).time = s.time := by
  unfold enterBootMode; simp [reduceDividers_frame ..]

theorem finishBoot_frame (i : Nat) (s : State) : (finishBoot i s).front.windows.length = s.front.windows.length ∧
    (finishBoot i s).front.tuners.length = s.front.tuners.length ∧ (finishBoot i s).mix.banks.length = s.mix.banks.length
    ∧ (finishBoot i s).mix.curves.length = s.mix.curves.length ∧ (finishBoot i s).cal.adcs.length = s.cal.adcs.length ∧
    (finishBoot i s).pending = s.pending ∧ (finishBoot i s).bus = s.bus ∧ (finishBoot i s).stats = s.stats ∧ (finishBoot i
    s).survey = s.survey ∧ (finishBoot i s).gens = s.gens ∧ (finishBoot i s).plan = s.plan := by
  unfold finishBoot; simp [shedToLimit_frame .., powerUpTriggers_frame .., markBudget_frame ..,
      initRings_frame .., lockLoops_frame .., startHeadstock_frame .., initUnits_frame .., writeFallback_frame .., postBoot_frame .., enterBootMode_frame .., postCoasted_frame .., newChallenge_frame ..]

theorem recoveryBoot_frame (s : State) : SamePlan s (recoveryBoot s) ∧ (recoveryBoot s).front.windows.length =
    s.front.windows.length ∧ (recoveryBoot s).front.tuners.length = s.front.tuners.length ∧ (recoveryBoot s).pending =
    s.pending ∧ (recoveryBoot s).bus = s.bus ∧ (recoveryBoot s).link = s.link ∧ (recoveryBoot s).stats = s.stats ∧
    (recoveryBoot s).survey = s.survey ∧ (recoveryBoot s).prog = s.prog ∧ (recoveryBoot s).mix = s.mix ∧ (recoveryBoot
    s).gens = s.gens ∧ (recoveryBoot s).cal = s.cal := by
  unfold recoveryBoot; simp [newChallenge_frame .., initRings_frame .., lockLoops_frame ..,
      initUnits_frame .., postBoot_frame .., startHeadstock_frame ..]

theorem secureBoot_frame (s : State) : (secureBoot s).front.windows.length = s.front.windows.length ∧ (secureBoot
    s).front.tuners.length = s.front.tuners.length ∧ (secureBoot s).mix.banks.length = s.mix.banks.length ∧ (secureBoot
    s).mix.curves.length = s.mix.curves.length ∧ (secureBoot s).cal.adcs.length = s.cal.adcs.length ∧ (secureBoot
    s).pending = s.pending ∧ (secureBoot s).bus = s.bus ∧ (secureBoot s).stats = s.stats ∧ (secureBoot s).survey =
    s.survey ∧ (secureBoot s).gens = s.gens ∧ (secureBoot s).plan = s.plan := by
  unfold secureBoot; simp [bootNote_frame .., finishBoot_frame .., recoveryBoot_frame ..]

theorem halt_frame (s : State) : SameStore s (halt s) ∧ SameSecure s (halt s) ∧ SameObjects s (halt s) ∧ SameMix s
    (halt s) ∧ SameHead s (halt s) ∧ SamePort s (halt s) ∧ SameSizes s (halt s) ∧ (halt s).pending = s.pending ∧ (halt
    s).bus = s.bus ∧ (halt s).plan = s.plan ∧ (halt s).compat = s.compat := by
  unfold halt; simp [coastLater_frame ..]

theorem selfTest_frame (s : State) : (selfTest s).front.windows.length = s.front.windows.length ∧ (selfTest
    s).front.tuners.length = s.front.tuners.length ∧ (selfTest s).mix.banks.length = s.mix.banks.length ∧ (selfTest
    s).mix.curves.length = s.mix.curves.length ∧ (selfTest s).cal.adcs.length = s.cal.adcs.length ∧ (selfTest s).pending =
    s.pending ∧ (selfTest s).bus = s.bus ∧ (selfTest s).stats = s.stats ∧ (selfTest s).survey = s.survey ∧ (selfTest
    s).gens = s.gens ∧ (selfTest s).plan = s.plan := by
  unfold selfTest; simp [loadKey_frame .., secureBoot_frame ..]

theorem islandsDecided_frame (s : State) : (islandsDecided s).front.windows.length = s.front.windows.length ∧
    (islandsDecided s).front.tuners.length = s.front.tuners.length ∧ (islandsDecided s).mix.banks.length =
    s.mix.banks.length ∧ (islandsDecided s).mix.curves.length = s.mix.curves.length ∧ (islandsDecided s).cal.adcs.length =
    s.cal.adcs.length ∧ (islandsDecided s).pending = s.pending ∧ (islandsDecided s).bus = s.bus ∧ (islandsDecided s).stats
    = s.stats ∧ (islandsDecided s).survey = s.survey ∧ (islandsDecided s).gens = s.gens ∧ (islandsDecided s).plan = s.plan
    := by
  unfold islandsDecided; simp [bootNote_frame .., halt_frame .., selfTest_frame ..]

theorem gatesDone_frame (s : State) : (gatesDone s).front.windows.length = s.front.windows.length ∧ (gatesDone
    s).front.tuners.length = s.front.tuners.length ∧ (gatesDone s).mix.banks.length = s.mix.banks.length ∧ (gatesDone
    s).mix.curves.length = s.mix.curves.length ∧ (gatesDone s).cal.adcs.length = s.cal.adcs.length ∧ (gatesDone s).pending
    = s.pending ∧ (gatesDone s).bus = s.bus ∧ (gatesDone s).stats = s.stats ∧ (gatesDone s).survey = s.survey ∧ (gatesDone
    s).gens = s.gens ∧ (gatesDone s).plan = s.plan := by
  unfold gatesDone; simp [islandsDecided_frame ..]

theorem recoverBus_frame (s : State) : SameStore s (recoverBus s) ∧ SameSecure s (recoverBus s) ∧ SameObjects s
    (recoverBus s) ∧ SameMix s (recoverBus s) ∧ SamePlan s (recoverBus s) ∧ SameSizes s (recoverBus s) ∧ (recoverBus
    s).pending = s.pending ∧ (recoverBus s).clk = s.clk ∧ (recoverBus s).gens = s.gens ∧ (recoverBus s).cal = s.cal ∧
    (recoverBus s).port = s.port := by
  unfold recoverBus; simp [bootNote_frame ..]

theorem reloadOnce_frame (s : State) : SameSizes s (reloadOnce s) ∧ (reloadOnce s).pending = s.pending ∧ (reloadOnce
    s).clk = s.clk ∧ (reloadOnce s).bus = s.bus ∧ (reloadOnce s).stats = s.stats ∧ (reloadOnce s).survey = s.survey := by
  unfold reloadOnce; simp [reload_frame ..]

theorem releaseIslands_frame (s : State) : (releaseIslands s).front.windows.length = s.front.windows.length ∧
    (releaseIslands s).front.tuners.length = s.front.tuners.length ∧ (releaseIslands s).mix.banks.length =
    s.mix.banks.length ∧ (releaseIslands s).mix.curves.length = s.mix.curves.length ∧ (releaseIslands s).cal.adcs.length =
    s.cal.adcs.length ∧ (releaseIslands s).pending = s.pending ∧ (releaseIslands s).stats = s.stats ∧ (releaseIslands
    s).survey = s.survey := by
  unfold releaseIslands; simp [lockLoops_frame .., gatesDone_frame .., recoverBus_frame .., reloadOnce_frame ..]

theorem timeReleased_frame (s : State) : (timeReleased s).front.windows.length = s.front.windows.length ∧
    (timeReleased s).front.tuners.length = s.front.tuners.length ∧ (timeReleased s).mix.banks.length = s.mix.banks.length
    ∧ (timeReleased s).mix.curves.length = s.mix.curves.length ∧ (timeReleased s).cal.adcs.length = s.cal.adcs.length ∧
    (timeReleased s).pending = s.pending ∧ (timeReleased s).stats = s.stats ∧ (timeReleased s).survey = s.survey := by
  unfold timeReleased; simp [releaseIslands_frame ..]

theorem releaseTime_frame (s : State) : (releaseTime s).front.windows.length = s.front.windows.length ∧ (releaseTime
    s).front.tuners.length = s.front.tuners.length ∧ (releaseTime s).mix.banks.length = s.mix.banks.length ∧ (releaseTime
    s).mix.curves.length = s.mix.curves.length ∧ (releaseTime s).cal.adcs.length = s.cal.adcs.length ∧ (releaseTime
    s).pending = s.pending ∧ (releaseTime s).stats = s.stats ∧ (releaseTime s).survey = s.survey := by
  unfold releaseTime; simp [timeReleased_frame ..]

theorem readStrap_frame (s : State) : SameStore s (readStrap s) ∧ SameSecure s (readStrap s) ∧ SameObjects s
    (readStrap s) ∧ SameMix s (readStrap s) ∧ SameHead s (readStrap s) ∧ SamePlan s (readStrap s) ∧ SamePort s (readStrap
    s) ∧ SameSizes s (readStrap s) ∧ (readStrap s).pending = s.pending ∧ (readStrap s).clk = s.clk ∧ (readStrap s).bus =
    s.bus := by
  unfold readStrap; (repeat' split) <;> simp

theorem waitRails_frame (s : State) : SameStore s (waitRails s) ∧ SameSecure s (waitRails s) ∧ SameObjects s
    (waitRails s) ∧ SameMix s (waitRails s) ∧ SameHead s (waitRails s) ∧ SamePlan s (waitRails s) ∧ SamePort s (waitRails
    s) ∧ SameSizes s (waitRails s) ∧ (waitRails s).pending = s.pending ∧ (waitRails s).clk = s.clk ∧ (waitRails s).bus =
    s.bus := by
  unfold waitRails; simp

theorem powerOnWork_frame (s : State) : (powerOnWork s).front.windows.length = s.front.windows.length ∧ (powerOnWork
    s).front.tuners.length = s.front.tuners.length ∧ (powerOnWork s).mix.banks.length = s.mix.banks.length ∧ (powerOnWork
    s).mix.curves.length = s.mix.curves.length ∧ (powerOnWork s).cal.adcs.length = s.cal.adcs.length ∧ (powerOnWork
    s).pending = s.pending ∧ (powerOnWork s).stats = s.stats ∧ (powerOnWork s).survey = s.survey := by
  unfold powerOnWork; simp [reload_frame .., readStrap_frame .., waitRails_frame .., releaseTime_frame ..]

theorem paOffNow_frame (s : State) : SameBase s (paOffNow s) ∧ SameStore s (paOffNow s) ∧ SameSecure s (paOffNow s) ∧
    SameObjects s (paOffNow s) ∧ SameMix s (paOffNow s) ∧ SameHead s (paOffNow s) ∧ SamePlan s (paOffNow s) ∧ SameSizes s
    (paOffNow s) ∧ (paOffNow s).port = s.port := by
  unfold paOffNow; simp

theorem endResetWrite_frame (s : State) : SameBase s (endResetWrite s) ∧ SameSecure s (endResetWrite s) ∧ SameObjects
    s (endResetWrite s) ∧ SameMix s (endResetWrite s) ∧ SamePlan s (endResetWrite s) ∧ SamePort s (endResetWrite s) ∧
    SameSizes s (endResetWrite s) ∧ (endResetWrite s).set = s.set ∧ (endResetWrite s).link = s.link ∧ (endResetWrite
    s).stats = s.stats ∧ (endResetWrite s).head = s.head ∧ (endResetWrite s).gens = s.gens := by
  unfold endResetWrite; split <;> simp

theorem region0_frame (s : State) : SameBase s (region0 s) ∧ SameSecure s (region0 s) ∧ SameObjects s (region0 s) ∧
    SameMix s (region0 s) ∧ SamePlan s (region0 s) ∧ SamePort s (region0 s) ∧ SameSizes s (region0 s) ∧ (region0 s).link =
    s.link ∧ (region0 s).stats = s.stats ∧ (region0 s).gens = s.gens ∧ (region0 s).cal = s.cal := by
  unfold region0; simp

theorem region1_frame (s : State) : SameBase s (region1 s) ∧ SameSizes s (region1 s) ∧ (region1 s).link = s.link ∧
    (region1 s).stats = s.stats ∧ (region1 s).sec = s.sec ∧ (region1 s).survey = s.survey ∧ (region1 s).time = s.time :=
    by
  unfold region1; simp [restorePlan_frame ..]

theorem region2_frame (s : State) : SameBase s (region2 s) ∧ SameSecure s (region2 s) ∧ SameObjects s (region2 s) ∧
    SameMix s (region2 s) ∧ SamePlan s (region2 s) ∧ SamePort s (region2 s) ∧ SameSizes s (region2 s) ∧ (region2 s).set =
    s.set ∧ (region2 s).stats = s.stats ∧ (region2 s).gens = s.gens ∧ (region2 s).cal = s.cal := by
  unfold region2; simp

theorem region3_frame (bad : List Nat) (outage : Nat) (s : State) : SameBase s (region3 bad outage s) ∧ SameSecure s
    (region3 bad outage s) ∧ SameObjects s (region3 bad outage s) ∧ SameMix s (region3 bad outage s) ∧ SamePlan s (region3
    bad outage s) ∧ SamePort s (region3 bad outage s) ∧ SameSizes s (region3 bad outage s) ∧ (region3 bad outage s).set =
    s.set ∧ (region3 bad outage s).stats = s.stats ∧ (region3 bad outage s).gens = s.gens ∧ (region3 bad outage s).cal =
    s.cal := by
  unfold region3; simp

theorem region4_frame (s : State) : SameBase s (region4 s) ∧ SameStore s (region4 s) ∧ SameSecure s (region4 s) ∧
    SameObjects s (region4 s) ∧ SameMix s (region4 s) ∧ SameHead s (region4 s) ∧ SamePort s (region4 s) ∧ SameSizes s
    (region4 s) ∧ (region4 s).plan = s.plan ∧ (region4 s).compat = s.compat := by
  unfold region4; simp

theorem checkRegions_frame (b : BootInputs) (s : State) : SameSizes s (checkRegions b s) ∧ (checkRegions b s).pending
    = s.pending ∧ (checkRegions b s).clk = s.clk ∧ (checkRegions b s).bus = s.bus ∧ (checkRegions b s).stats = s.stats ∧
    (checkRegions b s).sec = s.sec ∧ (checkRegions b s).survey = s.survey := by
  unfold checkRegions; simp [bootNote_frame .., region0_frame .., region1_frame .., region2_frame .., region3_frame .., region4_frame ..]

theorem checkedSequence_frame (b : BootInputs) (s : State) : (checkedSequence b s).front.windows.length =
    s.front.windows.length ∧ (checkedSequence b s).front.tuners.length = s.front.tuners.length ∧ (checkedSequence b
    s).mix.banks.length = s.mix.banks.length ∧ (checkedSequence b s).mix.curves.length = s.mix.curves.length ∧
    (checkedSequence b s).cal.adcs.length = s.cal.adcs.length ∧ (checkedSequence b s).pending = s.pending ∧
    (checkedSequence b s).stats = s.stats ∧ (checkedSequence b s).survey = s.survey := by
  unfold checkedSequence; simp [loadCal_frame .., loadProfile_frame ..,
      checkRegions_frame .., releaseTime_frame ..]

theorem nresetWork_frame (b : BootInputs) (s : State) : (nresetWork b s).front.windows.length = s.front.windows.length
    ∧ (nresetWork b s).front.tuners.length = s.front.tuners.length ∧ (nresetWork b s).mix.banks.length =
    s.mix.banks.length ∧ (nresetWork b s).mix.curves.length = s.mix.curves.length ∧ (nresetWork b s).cal.adcs.length =
    s.cal.adcs.length ∧ (nresetWork b s).pending = s.pending ∧ (nresetWork b s).stats = s.stats ∧ (nresetWork b s).survey
    = s.survey := by
  unfold nresetWork; simp [endResetWrite_frame .., checkedSequence_frame ..]

end Sys2Proof.Machine
end

