-- ==== Sys2Proof/Laws/FramesE.lean ====
section
/-!
SUPPORT. FramesE.lean: for each operation of Chain, Compat, Digital, Resilience, Idle, one lemma that says which parts of the state it never changes.
-/

namespace Sys2Proof.Machine

theorem settledReception_frame (o : ChainOwner) (t : Tick) (s : State) : SameBase s (settledReception o t s) ∧
    SameStore s (settledReception o t s) ∧ SameSecure s (settledReception o t s) ∧ SameHead s (settledReception o t s) ∧
    SameSizes s (settledReception o t s) ∧ (settledReception o t s).front = s.front ∧ (settledReception o t s).mix = s.mix
    ∧ (settledReception o t s).plan = s.plan ∧ (settledReception o t s).time = s.time := by
  unfold settledReception; (repeat' split) <;> simp [acquire_frame .., loseReception_frame .., startIntervals_frame ..]

theorem keepOutput_frame (o : ChainOwner) (i : Instant) (c : Chain) (s : State) : SameBase s (keepOutput o i c s) ∧
    SameStore s (keepOutput o i c s) ∧ SameSecure s (keepOutput o i c s) ∧ SameMix s (keepOutput o i c s) ∧ SameHead s
    (keepOutput o i c s) ∧ SamePlan s (keepOutput o i c s) ∧ SamePort s (keepOutput o i c s) ∧ SameSizes s (keepOutput o i
    c s) ∧ (keepOutput o i c s).front = s.front := by
  unfold keepOutput; (repeat' split) <;> simp

theorem feedOutput_frame (o : ChainOwner) (t : Tick) (x : Int × Int) (s : State) : SameBase s (feedOutput o t x s) ∧
    SameStore s (feedOutput o t x s) ∧ SameHead s (feedOutput o t x s) ∧ SameSizes s (feedOutput o t x s) ∧ (feedOutput o
    t x s).sec = s.sec ∧ (feedOutput o t x s).survey = s.survey ∧ (feedOutput o t x s).front = s.front ∧ (feedOutput o t x
    s).plan = s.plan ∧ (feedOutput o t x s).time = s.time := by
  unfold feedOutput; dsimp only; (repeat' split) <;> simp [closeBlock_frame .., settledReception_frame .., keepOutput_frame ..]

theorem feedOutputs_frame (o : ChainOwner) (per : Nat) (x0 : Tick) (x1 : List (Int × Int)) (x2 : State) : SameBase x2
    (feedOutputs o per x0 x1 x2) ∧ SameStore x2 (feedOutputs o per x0 x1 x2) ∧ SameHead x2 (feedOutputs o per x0 x1 x2) ∧
    SameSizes x2 (feedOutputs o per x0 x1 x2) ∧ (feedOutputs o per x0 x1 x2).sec = x2.sec ∧ (feedOutputs o per x0 x1
    x2).survey = x2.survey ∧ (feedOutputs o per x0 x1 x2).front = x2.front ∧ (feedOutputs o per x0 x1 x2).plan = x2.plan ∧
    (feedOutputs o per x0 x1 x2).time = x2.time := by
  induction x1 generalizing x0 x2 with
  | nil => simp [feedOutputs]
  | cons y l ih => simp [feedOutputs, ih, feedOutput_frame ..]

theorem takeInput_frame (o : ChainOwner) (c : Chain) (b : ChainIn) (s : State) : SameBase s (takeInput o c b s) ∧
    SameStore s (takeInput o c b s) ∧ SameHead s (takeInput o c b s) ∧ SameSizes s (takeInput o c b s) ∧ (takeInput o c b
    s).sec = s.sec ∧ (takeInput o c b s).survey = s.survey ∧ (takeInput o c b s).front = s.front ∧ (takeInput o c b
    s).plan = s.plan ∧ (takeInput o c b s).time = s.time := by
  unfold takeInput; (repeat' split) <;> simp [feedOutputs_frame ..]

theorem gapReached_frame (o : ChainOwner) (adc64 : Int) (s : State) : SameBase s (gapReached o adc64 s) ∧ SameStore s
    (gapReached o adc64 s) ∧ SameHead s (gapReached o adc64 s) ∧ SameSizes s (gapReached o adc64 s) ∧ (gapReached o adc64
    s).sec = s.sec ∧ (gapReached o adc64 s).survey = s.survey ∧ (gapReached o adc64 s).front = s.front ∧ (gapReached o
    adc64 s).plan = s.plan ∧ (gapReached o adc64 s).time = s.time := by
  unfold gapReached; (repeat' split) <;> simp [gapNow_frame ..]

theorem compatTuneNow_frame (s : State) : SameBase s (compatTuneNow s) ∧ SameHead s (compatTuneNow s) ∧ SameSizes s
    (compatTuneNow s) ∧ (compatTuneNow s).link = s.link ∧ (compatTuneNow s).stats = s.stats ∧ (compatTuneNow s).sec =
    s.sec ∧ (compatTuneNow s).survey = s.survey ∧ (compatTuneNow s).plan = s.plan ∧ (compatTuneNow s).time = s.time := by
  unfold compatTuneNow; simp [compatTune_frame ..]

theorem compatPowerDown_frame (s : State) : SameSizes s (compatPowerDown s) ∧ (compatPowerDown s).pending = s.pending
    ∧ (compatPowerDown s).pwr = s.pwr ∧ (compatPowerDown s).clk = s.clk ∧ (compatPowerDown s).link = s.link ∧
    (compatPowerDown s).stats = s.stats ∧ (compatPowerDown s).gens = s.gens ∧ (compatPowerDown s).time = s.time := by
  unfold compatPowerDown; simp [setMode_frame ..]

theorem compatDefaults_frame (s : State) : SameSizes s (compatDefaults s) ∧ (compatDefaults s).pending = s.pending ∧
    (compatDefaults s).pwr = s.pwr ∧ (compatDefaults s).sec = s.sec ∧ (compatDefaults s).survey = s.survey := by
  unfold compatDefaults; simp [factoryDefaults_frame ..]

theorem compatControl_frame (v : Byte) (s : State) : SameSizes s (compatControl v s) ∧ (compatControl v s).pending =
    s.pending ∧ (compatControl v s).pwr = s.pwr := by
  unfold compatControl; simp [compatTuneNow_frame .., compatPowerDown_frame .., compatDefaults_frame ..]

theorem keyWrite_frame (b : Byte) (s : State) : SameSizes s (keyWrite b s) ∧ (keyWrite b s).pending = s.pending ∧
    (keyWrite b s).pwr = s.pwr ∧ (keyWrite b s).clk = s.clk ∧ (keyWrite b s).link = s.link ∧ (keyWrite b s).stats =
    s.stats ∧ (keyWrite b s).gens = s.gens ∧ (keyWrite b s).time = s.time := by
  unfold keyWrite; simp [setMode_frame .., keyZeroise_frame ..]

theorem irqClear_frame (v : Byte) (s : State) : SameBase s (irqClear v s) ∧ SameStore s (irqClear v s) ∧ SameSecure s
    (irqClear v s) ∧ SameObjects s (irqClear v s) ∧ SameMix s (irqClear v s) ∧ SameHead s (irqClear v s) ∧ SamePort s
    (irqClear v s) ∧ SameSizes s (irqClear v s) ∧ (irqClear v s).plan = s.plan ∧ (irqClear v s).time = s.time := by
  unfold irqClear; simp

theorem compatGain_frame (v : Byte) (s : State) : SameBase s (compatGain v s) ∧ SameHead s (compatGain v s) ∧
    SameSizes s (compatGain v s) ∧ (compatGain v s).link = s.link ∧ (compatGain v s).stats = s.stats ∧ (compatGain v
    s).sec = s.sec ∧ (compatGain v s).survey = s.survey ∧ (compatGain v s).plan = s.plan ∧ (compatGain v s).time = s.time
    := by
  unfold compatGain; simp [compatRetune_frame ..]

theorem compatAudio_frame (v : Byte) (s : State) : SameBase s (compatAudio v s) ∧ SameSecure s (compatAudio v s) ∧
    SameMix s (compatAudio v s) ∧ SameHead s (compatAudio v s) ∧ SamePlan s (compatAudio v s) ∧ SamePort s (compatAudio v
    s) ∧ SameSizes s (compatAudio v s) ∧ (compatAudio v s).link = s.link ∧ (compatAudio v s).stats = s.stats ∧
    (compatAudio v s).front = s.front := by
  unfold compatAudio; simp [compatRoute_frame ..]

theorem compatReg_frame (off : Nat) (v : List Byte) (s : State) : SameSizes s (compatReg off v s) ∧ (compatReg off v
    s).pending = s.pending ∧ (compatReg off v s).pwr = s.pwr := by
  unfold compatReg; simp [compatCtrl_frame .., compatControl_frame .., keyWrite_frame .., irqClear_frame .., compatGain_frame .., compatAudio_frame ..]

theorem compatWrites_frame (x0 : Nat) (x1 : Nat) (x2 : List Byte) (x3 : State) : SameSizes x3 (compatWrites x0 x1 x2
    x3) ∧ (compatWrites x0 x1 x2 x3).pending = x3.pending ∧ (compatWrites x0 x1 x2 x3).pwr = x3.pwr := by
  induction x0 generalizing x1 x2 x3 with
  | zero => simp [compatWrites]
  | succ k ih => unfold compatWrites; (try dsimp only); (repeat' split) <;> simp [compatReg_frame .., ih]

theorem judgeDigital_frame (i : Nat) (at' : Instant) (s : State) : SameBase s (judgeDigital i at' s) ∧ SameStore s
    (judgeDigital i at' s) ∧ SameSecure s (judgeDigital i at' s) ∧ SameMix s (judgeDigital i at' s) ∧ SameHead s
    (judgeDigital i at' s) ∧ SameSizes s (judgeDigital i at' s) ∧ (judgeDigital i at' s).front = s.front ∧ (judgeDigital i
    at' s).plan = s.plan ∧ (judgeDigital i at' s).time = s.time := by
  unfold judgeDigital; split <;> simp [acquire_frame ..]

theorem writeSide_frame (code : Nat) (kind : Nat) (i : Nat) (concealed : Bool) (lost : Option Nat) (at' : Instant)
    (pay : List Byte) (s : State) : SameBase s (writeSide code kind i concealed lost at' pay s) ∧ SameStore s (writeSide
    code kind i concealed lost at' pay s) ∧ SameSecure s (writeSide code kind i concealed lost at' pay s) ∧ SameObjects s
    (writeSide code kind i concealed lost at' pay s) ∧ SameHead s (writeSide code kind i concealed lost at' pay s) ∧
    SamePlan s (writeSide code kind i concealed lost at' pay s) ∧ SameSizes s (writeSide code kind i concealed lost at'
    pay s) ∧ (writeSide code kind i concealed lost at' pay s).mix = s.mix := by
  unfold writeSide; dsimp only; split <;> simp [offerUnit_frame ..]

theorem announce_frame (r : Nat) (x : Option Reconf) (s : State) : SameBase s (announce r x s) ∧ SameStore s (announce
    r x s) ∧ SameSecure s (announce r x s) ∧ SameMix s (announce r x s) ∧ SameHead s (announce r x s) ∧ SamePlan s
    (announce r x s) ∧ SamePort s (announce r x s) ∧ SameSizes s (announce r x s) ∧ (announce r x s).front = s.front := by
  unfold announce; (repeat' split) <;> simp

theorem takeCif_frame (r : Nat) (x : Reception) (m : FrameMark) (c : DabCif) (s : State) : SameBase s (takeCif r x m c
    s) ∧ SameStore s (takeCif r x m c s) ∧ SameSecure s (takeCif r x m c s) ∧ SameHead s (takeCif r x m c s) ∧ SameSizes s
    (takeCif r x m c s) ∧ (takeCif r x m c s).front = s.front ∧ (takeCif r x m c s).mix = s.mix ∧ (takeCif r x m c s).plan
    = s.plan ∧ (takeCif r x m c s).time = s.time := by
  unfold takeCif; simp [judgeDigital_frame .., writeSide_frame ..]

theorem takeFigs_frame (r : Nat) (at' : Instant) (c : DabCif) (s : State) : SameBase s (takeFigs r at' c s) ∧
    SameStore s (takeFigs r at' c s) ∧ SameSecure s (takeFigs r at' c s) ∧ SameSizes s (takeFigs r at' c s) ∧ (takeFigs r
    at' c s).front = s.front ∧ (takeFigs r at' c s).mix = s.mix ∧ (takeFigs r at' c s).cal = s.cal ∧ (takeFigs r at' c
    s).plan = s.plan ∧ (takeFigs r at' c s).time = s.time := by
  unfold takeFigs; split <;> simp [signalAlert_frame .., learnCand_frame .., learnLink_frame .., applyComps_frame .., announce_frame ..]

theorem decodeTransport_frame (r : Reception) (at' : Instant) (u : RaspUnit) (p : Programme) (s : State) : SameBase s
    (decodeTransport r at' u p s) ∧ SameStore s (decodeTransport r at' u p s) ∧ SameSecure s (decodeTransport r at' u p s)
    ∧ SameHead s (decodeTransport r at' u p s) ∧ SamePlan s (decodeTransport r at' u p s) ∧ SameSizes s (decodeTransport r
    at' u p s) ∧ (decodeTransport r at' u p s).front = s.front ∧ (decodeTransport r at' u p s).health = s.health ∧
    (decodeTransport r at' u p s).port = s.port := by
  unfold decodeTransport; simp [deliverAudio_frame ..]

theorem writePad_frame (p : Programme) (code : Nat) (content : Nat) (status : Nat) (app : Nat) (cs : Nat) (at' :
    Instant) (data : List Byte) (s : State) : SameBase s (writePad p code content status app cs at' data s) ∧ SameStore s
    (writePad p code content status app cs at' data s) ∧ SameSecure s (writePad p code content status app cs at' data s) ∧
    SameObjects s (writePad p code content status app cs at' data s) ∧ SameHead s (writePad p code content status app cs
    at' data s) ∧ SamePlan s (writePad p code content status app cs at' data s) ∧ SameSizes s (writePad p code content
    status app cs at' data s) ∧ (writePad p code content status app cs at' data s).mix = s.mix := by
  unfold writePad; split <;> simp [offerUnit_frame ..]

theorem dropUntilAll_frame (n : Nat) (lens : List Nat) (x0 : Nat) (x1 : State) : SameBase x1 (dropUntilAll n lens x0
    x1) ∧ SameStore x1 (dropUntilAll n lens x0 x1) ∧ SameSecure x1 (dropUntilAll n lens x0 x1) ∧ SameObjects x1
    (dropUntilAll n lens x0 x1) ∧ SameMix x1 (dropUntilAll n lens x0 x1) ∧ SameHead x1 (dropUntilAll n lens x0 x1) ∧
    SamePlan x1 (dropUntilAll n lens x0 x1) ∧ SameSizes x1 (dropUntilAll n lens x0 x1) ∧ (dropUntilAll n lens x0 x1).out =
    x1.out := by
  induction x0 generalizing x1 with
  | zero => simp [dropUntilAll]
  | succ k ih => unfold dropUntilAll; (repeat' split) <;> simp [dropOldest_frame .., ih]

theorem piecesRoom_frame (n : Nat) (pieces : List (List Byte)) (s : State) : SameBase s (piecesRoom n pieces s).1 ∧
    SameStore s (piecesRoom n pieces s).1 ∧ SameSecure s (piecesRoom n pieces s).1 ∧ SameObjects s (piecesRoom n pieces
    s).1 ∧ SameMix s (piecesRoom n pieces s).1 ∧ SameHead s (piecesRoom n pieces s).1 ∧ SamePlan s (piecesRoom n pieces
    s).1 ∧ SameSizes s (piecesRoom n pieces s).1 ∧ (piecesRoom n pieces s).1.out = s.out := by
  unfold piecesRoom; simp [dropUntilAll_frame ..]

theorem offerPieces_frame (n : Nat) (h : ShavingHdr) (pieces : List (List Byte)) (s : State) : SameBase s (offerPieces
    n h pieces s) ∧ SameStore s (offerPieces n h pieces s) ∧ SameSecure s (offerPieces n h pieces s) ∧ SameObjects s
    (offerPieces n h pieces s) ∧ SameHead s (offerPieces n h pieces s) ∧ SamePlan s (offerPieces n h pieces s) ∧ SameSizes
    s (offerPieces n h pieces s) ∧ (offerPieces n h pieces s).mix = s.mix := by
  unfold offerPieces; simp [piecesRoom_frame ..]

theorem motTaken_frame (i : Nat) (n : Nat) (tid : Nat) (m : MotObj) (at' : Instant) (s : State) : SameBase s (motTaken
    i n tid m at' s) ∧ SameStore s (motTaken i n tid m at' s) ∧ SameSecure s (motTaken i n tid m at' s) ∧ SameHead s
    (motTaken i n tid m at' s) ∧ SamePlan s (motTaken i n tid m at' s) ∧ SameSizes s (motTaken i n tid m at' s) ∧
    (motTaken i n tid m at' s).front = s.front ∧ (motTaken i n tid m at' s).mix = s.mix := by
  unfold motTaken; dsimp only; (repeat' split) <;> simp [dropUntilFits_frame .., offerPieces_frame ..]

theorem motRoom_frame (i : Nat) (tid : Nat) (p : Programme) (s : State) : SameBase s (motRoom i tid p s) ∧ SameStore s
    (motRoom i tid p s) ∧ SameSecure s (motRoom i tid p s) ∧ SameMix s (motRoom i tid p s) ∧ SameHead s (motRoom i tid p
    s) ∧ SamePlan s (motRoom i tid p s) ∧ SameSizes s (motRoom i tid p s) ∧ (motRoom i tid p s).front = s.front ∧ (motRoom
    i tid p s).out = s.out := by
  unfold motRoom; (repeat' split) <;> simp

theorem motSegment_frame (i : Nat) (n : Nat) (tid : Nat) (seg : Nat) (last : Bool) (header : Bool) (directory : Bool)
    (declared : Nat) (data : List Byte) (at' : Instant) (s : State) : SameBase s (motSegment i n tid seg last header
    directory declared data at' s) ∧ SameStore s (motSegment i n tid seg last header directory declared data at' s) ∧
    SameSecure s (motSegment i n tid seg last header directory declared data at' s) ∧ SameHead s (motSegment i n tid seg
    last header directory declared data at' s) ∧ SamePlan s (motSegment i n tid seg last header directory declared data
    at' s) ∧ SameSizes s (motSegment i n tid seg last header directory declared data at' s) ∧ (motSegment i n tid seg last
    header directory declared data at' s).front = s.front ∧ (motSegment i n tid seg last header directory declared data
    at' s).mix = s.mix := by
  unfold motSegment; split <;> simp [motTaken_frame .., motRoom_frame ..]

theorem takeLabel_frame (p : Programme) (content : Nat) (cs : Byte) (tg : Bool) (seg : Nat) (last : Bool) (text : List
    Byte) (at' : Instant) (s : State) : SameBase s (takeLabel p content cs tg seg last text at' s) ∧ SameStore s
    (takeLabel p content cs tg seg last text at' s) ∧ SameSecure s (takeLabel p content cs tg seg last text at' s) ∧
    SameHead s (takeLabel p content cs tg seg last text at' s) ∧ SamePlan s (takeLabel p content cs tg seg last text at'
    s) ∧ SameSizes s (takeLabel p content cs tg seg last text at' s) ∧ (takeLabel p content cs tg seg last text at'
    s).front = s.front ∧ (takeLabel p content cs tg seg last text at' s).mix = s.mix := by
  unfold takeLabel; simp [writePad_frame ..]

theorem takePad_frame (i : Nat) (at' : Instant) (x : PadIn) (s : State) : SameBase s (takePad i at' x s) ∧ SameStore s
    (takePad i at' x s) ∧ SameSecure s (takePad i at' x s) ∧ SameHead s (takePad i at' x s) ∧ SamePlan s (takePad i at' x
    s) ∧ SameSizes s (takePad i at' x s) ∧ (takePad i at' x s).front = s.front ∧ (takePad i at' x s).mix = s.mix := by
  unfold takePad; (repeat' split) <;> simp [writePad_frame .., motSegment_frame .., takeLabel_frame ..]

theorem takeUnit_frame (p : Nat) (x : Programme) (r : Reception) (u : RaspUnit) (pad : List (Nat × PadIn)) (s : State)
    : SameBase s (takeUnit p x r u pad s) ∧ SameStore s (takeUnit p x r u pad s) ∧ SameSecure s (takeUnit p x r u pad s) ∧
    SameHead s (takeUnit p x r u pad s) ∧ SamePlan s (takeUnit p x r u pad s) ∧ SameSizes s (takeUnit p x r u pad s) ∧
    (takeUnit p x r u pad s).front = s.front := by
  unfold takeUnit; dsimp only; (repeat' split) <;> simp [offerUnit_frame .., decodeTransport_frame .., takePad_frame ..]

theorem startRestart_frame (s : State) : SameBase s (startRestart s) ∧ SameStore s (startRestart s) ∧ SameSecure s
    (startRestart s) ∧ SameObjects s (startRestart s) ∧ SameMix s (startRestart s) ∧ SamePort s (startRestart s) ∧
    SameSizes s (startRestart s) ∧ (startRestart s).gens = s.gens ∧ (startRestart s).cal = s.cal ∧ (startRestart s).time =
    s.time ∧ (startRestart s).compat = s.compat := by
  unfold startRestart; simp

theorem askRestart_frame (cause : Nat) (s : State) : SameBase s (askRestart cause s) ∧ SameStore s (askRestart cause
    s) ∧ SameSecure s (askRestart cause s) ∧ SameObjects s (askRestart cause s) ∧ SameMix s (askRestart cause s) ∧
    SamePort s (askRestart cause s) ∧ SameSizes s (askRestart cause s) ∧ (askRestart cause s).gens = s.gens ∧ (askRestart
    cause s).cal = s.cal ∧ (askRestart cause s).time = s.time ∧ (askRestart cause s).compat = s.compat := by
  unfold askRestart; simp [startRestart_frame ..]

theorem answerRestarted_frame (d : Deferred) (s : State) : SameBase s (answerRestarted d s) ∧ SameStore s
    (answerRestarted d s) ∧ SameSecure s (answerRestarted d s) ∧ SameObjects s (answerRestarted d s) ∧ SameMix s
    (answerRestarted d s) ∧ SameHead s (answerRestarted d s) ∧ SamePlan s (answerRestarted d s) ∧ SameSizes s
    (answerRestarted d s) := by
  unfold answerRestarted; simp

theorem drawContexts_frame (e : Nat) (s : State) : SameBase s (drawContexts e s) ∧ SameStore s (drawContexts e s) ∧
    SameObjects s (drawContexts e s) ∧ SameHead s (drawContexts e s) ∧ SamePlan s (drawContexts e s) ∧ SamePort s
    (drawContexts e s) ∧ SameSizes s (drawContexts e s) ∧ (drawContexts e s).sec = s.sec ∧ (drawContexts e s).survey =
    s.survey ∧ (drawContexts e s).mix = s.mix := by
  unfold drawContexts; simp [drawBool_frame ..]

theorem bridgeBreak_frame (i : Nat) (s : State) : SameBase s (bridgeBreak i s) ∧ SameStore s (bridgeBreak i s) ∧
    SameSecure s (bridgeBreak i s) ∧ SameMix s (bridgeBreak i s) ∧ SameHead s (bridgeBreak i s) ∧ SamePlan s (bridgeBreak
    i s) ∧ SamePort s (bridgeBreak i s) ∧ SameSizes s (bridgeBreak i s) ∧ (bridgeBreak i s).front = s.front := by
  unfold bridgeBreak; simp

theorem moveContext_frame (old : Nat) (o : ChainOwner) (s : State) : SameBase s (moveContext old o s) ∧ SameStore s
    (moveContext old o s) ∧ SameHead s (moveContext old o s) ∧ SameSizes s (moveContext old o s) ∧ (moveContext old o
    s).sec = s.sec ∧ (moveContext old o s).survey = s.survey ∧ (moveContext old o s).front = s.front ∧ (moveContext old o
    s).mix = s.mix ∧ (moveContext old o s).plan = s.plan ∧ (moveContext old o s).time = s.time := by
  unfold moveContext; dsimp only; (repeat' split) <;> simp [noteLog_frame .., loseReception_frame .., bridgeBreak_frame .., oweBreaks_frame ..]

theorem moveDecode_frame (old : Nat) (p : Programme) (s : State) : SameBase s (moveDecode old p s) ∧ SameStore s
    (moveDecode old p s) ∧ SameObjects s (moveDecode old p s) ∧ SameHead s (moveDecode old p s) ∧ SamePlan s (moveDecode
    old p s) ∧ SameSizes s (moveDecode old p s) ∧ (moveDecode old p s).sec = s.sec ∧ (moveDecode old p s).survey =
    s.survey ∧ (moveDecode old p s).mix = s.mix := by
  unfold moveDecode; simp [drawBool_frame .., noteLog_frame .., oweBreaks_frame ..]

theorem dropFrames_frame (s : State) : SameMix s (dropFrames s) ∧ SameHead s (dropFrames s) ∧ SameSizes s (dropFrames
    s) ∧ (dropFrames s).pending = s.pending ∧ (dropFrames s).pwr = s.pwr ∧ (dropFrames s).bus = s.bus ∧ (dropFrames s).sec
    = s.sec ∧ (dropFrames s).survey = s.survey ∧ (dropFrames s).prog = s.prog ∧ (dropFrames s).plan = s.plan ∧ (dropFrames
    s).compat = s.compat := by
  unfold dropFrames; simp [pass_frame .., drawBool_frame .., cutAir_frame ..]

theorem failEngine_frame (e : Nat) (s : State) : SameHead s (failEngine e s) ∧ SameSizes s (failEngine e s) ∧
    (failEngine e s).pending = s.pending ∧ (failEngine e s).pwr = s.pwr ∧ (failEngine e s).bus = s.bus ∧ (failEngine e
    s).sec = s.sec ∧ (failEngine e s).survey = s.survey ∧ (failEngine e s).plan = s.plan := by
  unfold failEngine; simp [shedToLimit_frame .., moveContext_frame .., moveDecode_frame .., dropFrames_frame ..]

theorem checkEngine_frame (stalled : BitVec 16) (ecc : BitVec 16) (s : State) (e : Nat) : SameHead s (checkEngine
    stalled ecc s e) ∧ SameSizes s (checkEngine stalled ecc s e) ∧ (checkEngine stalled ecc s e).pending = s.pending ∧
    (checkEngine stalled ecc s e).pwr = s.pwr ∧ (checkEngine stalled ecc s e).bus = s.bus ∧ (checkEngine stalled ecc s
    e).sec = s.sec ∧ (checkEngine stalled ecc s e).survey = s.survey ∧ (checkEngine stalled ecc s e).plan = s.plan := by
  unfold checkEngine; simp [drawContexts_frame .., failEngine_frame ..]

theorem spareRow_frame (row : Nat) (s : State) : SameBase s (spareRow row s) ∧ SameStore s (spareRow row s) ∧
    SameSecure s (spareRow row s) ∧ SameObjects s (spareRow row s) ∧ SameHead s (spareRow row s) ∧ SamePlan s (spareRow
    row s) ∧ SameSizes s (spareRow row s) ∧ (spareRow row s).mix = s.mix := by
  unfold spareRow; simp

theorem correctWord_frame (word : Nat) (s : State) : SameBase s (correctWord word s) ∧ SameStore s (correctWord word
    s) ∧ SameSecure s (correctWord word s) ∧ SameObjects s (correctWord word s) ∧ SameHead s (correctWord word s) ∧
    SamePlan s (correctWord word s) ∧ SameSizes s (correctWord word s) ∧ (correctWord word s).mix = s.mix := by
  unfold correctWord; simp [noteLog_frame .., spareRow_frame ..]

theorem dropPoisoned_frame (n : Nat) (s : State) : SameBase s (dropPoisoned n s) ∧ SameStore s (dropPoisoned n s) ∧
    SameSecure s (dropPoisoned n s) ∧ SameObjects s (dropPoisoned n s) ∧ SameMix s (dropPoisoned n s) ∧ SameHead s
    (dropPoisoned n s) ∧ SamePlan s (dropPoisoned n s) ∧ SameSizes s (dropPoisoned n s) ∧ (dropPoisoned n s).out = s.out
    := by
  unfold dropPoisoned; simp [dropOldest_frame ..]

theorem poison_frame (holds : TimberUse) (s : State) : SameBase s (poison holds s) ∧ SameStore s (poison holds s) ∧
    SameHead s (poison holds s) ∧ SamePlan s (poison holds s) ∧ SameSizes s (poison holds s) ∧ (poison holds s).sec =
    s.sec ∧ (poison holds s).survey = s.survey ∧ (poison holds s).front = s.front ∧ (poison holds s).out = s.out := by
  unfold poison; (repeat' split) <;> simp [bridgeBreak_frame .., dropPoisoned_frame ..]

theorem idleCycle_frame (s : State) : SameStore s (idleCycle s) ∧ SameSecure s (idleCycle s) ∧ SameObjects s
    (idleCycle s) ∧ SameMix s (idleCycle s) ∧ SameHead s (idleCycle s) ∧ SamePort s (idleCycle s) ∧ SameSizes s (idleCycle
    s) ∧ (idleCycle s).pending = s.pending ∧ (idleCycle s).pwr = s.pwr ∧ (idleCycle s).bus = s.bus ∧ (idleCycle s).plan =
    s.plan ∧ (idleCycle s).compat = s.compat := by
  unfold idleCycle; simp [pass_frame ..]

end Sys2Proof.Machine
end

