-- ==== Sys2Proof/Laws/State.lean ====
section
/-!
SUPPORT. State.lean: what each update of the state leaves in the field it changes. Each lemma is true by unfolding its update,
so that later proofs never unfold a record update.
-/

namespace Sys2Proof.Machine

@[simp] theorem settingsDirty_store (s : State) : (settingsDirty s).store =
    { s.store with dirtyFirst := some (s.store.dirtyFirst.getD (now s)), dirtyLast := some (now s) } := rfl
@[simp] theorem setSettings_set (x : Settings) (s : State) : (setSettings x s).set = x := rfl
@[simp] theorem setSettings_store (x : Settings) (s : State) : (setSettings x s).store =
    { s.store with dirtyFirst := some (s.store.dirtyFirst.getD (now s)), dirtyLast := some (now s) } := rfl
@[simp] theorem bumpPlan_plan (s : State) : (bumpPlan s).plan = { s.plan with seq := s.plan.seq + 1 } := rfl
@[simp] theorem deferOn_head (k : WaitKey) (d : Deferred) (s : State) :
    (deferOn k d s).head = { s.head with deferred := s.head.deferred ++ [{ key := k, resp := d }] } := rfl
@[simp] theorem emit_out (o : Output) (s : State) : (emit o s).out = s.out ++ [o] := rfl
@[simp] theorem drawNat_fresh (s : State) : (drawNat s).2.fresh = s.fresh + 1 := rfl
@[simp] theorem drawInt_fresh (s : State) : (drawInt s).2.fresh = s.fresh + 1 := rfl
@[simp] theorem drawBool_fresh (s : State) : (drawBool s).2.fresh = s.fresh + 1 := rfl
@[simp] theorem modRing_port (n : Nat) (g : Ring → Ring) (s : State) :
    (modRing n g s).port = { s.port with rings := modAt s.port.rings n g } := rfl
@[simp] theorem modRingSet_set (n : Nat) (g : RingSettings → RingSettings) (s : State) :
    (modRingSet n g s).set = { s.set with rings := modAt s.set.rings n g } := rfl
@[simp] theorem modWindow_front (w : Nat) (g : Window → Window) (s : State) :
    (modWindow w g s).front = { s.front with windows := modAt s.front.windows w g } := rfl
@[simp] theorem modTuner_front (t : Nat) (g : Tuner → Tuner) (s : State) :
    (modTuner t g s).front = { s.front with tuners := modAt s.front.tuners t g } := rfl

/-- Time that passes: the timers' clock advances by it (R98). -/
@[simp] theorem pass_elapsed (n : Nat) (s : State) : (pass n s).clk = { s.clk with elapsed := s.clk.elapsed + n } := by
  unfold pass; dsimp only; split <;> rfl

/-- The timers' clock when a timer is due. -/
@[simp] theorem passTo_elapsed (due : Nat) (s : State) :
    (passTo due s).clk = { s.clk with elapsed := s.clk.elapsed + (due - s.clk.elapsed) } := by
  unfold passTo; simp

/-- Two states with the same parts are the same state. -/
theorem state_ext {s t : State} (h0 : s.pending = t.pending) (h1 : s.pwr = t.pwr) (h2 : s.set = t.set) (h3 : s.store =
    t.store) (h4 : s.clk = t.clk) (h5 : s.time = t.time) (h6 : s.head = t.head) (h7 : s.front = t.front) (h8 : s.prog
    = t.prog) (h9 : s.gens = t.gens) (h10 : s.mix = t.mix) (h11 : s.plan = t.plan) (h12 : s.port = t.port) (h13 :
    s.bus = t.bus) (h14 : s.link = t.link) (h15 : s.stats = t.stats) (h16 : s.sec = t.sec) (h17 : s.cal = t.cal) (h18
    : s.health = t.health) (h19 : s.survey = t.survey) (h20 : s.compat = t.compat) (h21 : s.out = t.out) (h22 :
    s.fresh = t.fresh) :
    s = t := by cases s; cases t; simp_all

/-! ### Lists of units -/

/-- A changed element of a list reads as changed, and no other element changes. -/
theorem modAt_getD {α : Type} (l : List α) (i j : Nat) (g : α → α) (d : α) :
    (modAt l i g).getD j d = if i = j ∧ j < l.length then g (l.getD j d) else l.getD j d := by
  unfold modAt
  by_cases h : i < l.length
  · rw [List.getElem?_eq_getElem h]
    by_cases e : i = j
    · subst e; simp [h]
    · simp [List.getD_eq_getElem?_getD, e]
  · rw [List.getElem?_eq_none (by omega)]
    by_cases e : i = j
    · subst e; simp [h]
    · simp [e]

/-- A ring after one ring changed (R303). -/
theorem ringAt_modRing (n m : Nat) (g : Ring → Ring) (s : State) :
    ringAt (modRing n g s) m = if n = m ∧ m < s.port.rings.length then g (ringAt s m) else ringAt s m := by
  unfold ringAt; simp only [modRing_port]; exact modAt_getD _ _ _ _ _

/-- A window after one window changed (R112). -/
theorem windowAt_modWindow (w v : Nat) (g : Window → Window) (s : State) :
    windowAt (modWindow w g s) v = if w = v ∧ v < s.front.windows.length then g (windowAt s v) else windowAt s v := by
  unfold windowAt; simp only [modWindow_front]; exact modAt_getD _ _ _ _ _

/-- A tuner after one tuner changed (R119). -/
theorem tunerAt_modTuner (t u : Nat) (g : Tuner → Tuner) (s : State) :
    tunerAt (modTuner t g s) u = if t = u ∧ u < s.front.tuners.length then g (tunerAt s u) else tunerAt s u := by
  unfold tunerAt; simp only [modTuner_front]; exact modAt_getD _ _ _ _ _

end Sys2Proof.Machine
end

