-- ==== Sys2Proof/Laws/Shared.lean ====
section
/-!
SUPPORT. Shared.lean: what the shared operations of the protocol do, said once: a command that is accepted or rejected, a
response, an event, a note, and the taking of a frame.
-/

namespace Sys2Proof.Machine

/-! ### Commands -/

/-- What a command's body leaves, answered if it replies. -/
def answered (op : Nat) (f : CmdFrame) (x : State × Option Reply) : State := match x.2 with
  | some r => respond op (deferredOf op f false) r x.1
  | none => x.1

/-- An accepted command runs its body on the state in which its frame is taken, and answers what the body replies. -/
theorem command_accepted {op : Nat} {f : CmdFrame} {c : State → Checks} {s : State} (h : Accepted op f c s)
    (body : State → State × Option Reply) : command op f c body s = answered op f (body (consume op f s)) := by
  obtain ⟨h1, hn, h2, h3, h4, h5⟩ := h
  unfold command handle
  simp only [h1, hn, h2, h3, h4, h5]
  unfold answered
  simp
  split <;> simp_all

/-- A command that fails a check answers the failure, and its body does not run. -/
theorem command_rejected {op : Nat} {f : CmdFrame} {c : State → Checks} {s : State} {x : Fail} (h : Rejected op f c s x)
    (body : State → State × Option Reply) :
    command op f c body s = refuse op (deferredOf op f false) x (consume op f s) := by
  obtain ⟨h1, hn, h2, h3⟩ := h
  unfold command handle
  simp [h1, hn, h2, h3]

/-! ### The shape of the shared operations -/

/-- Two states that agree outside the rings, the interrupt state and the trace. -/
theorem portOut_of {s t : State} (h : SameBase s t ∧ SameStore s t ∧ SameSecure s t ∧ SameObjects s t ∧ SameMix s t ∧
    SameHead s t ∧ SamePlan s t) : PortOut s t := by
  cases s; cases t; simp_all [PortOut]

theorem PortOut.refl (s : State) : PortOut s s := rfl

theorem PortOut.trans {s t u : State} (h : PortOut s t) (k : PortOut t u) : PortOut s u := by
  unfold PortOut at *; rw [k, h]

/-- A response touches the rings, the interrupt state and the trace only (R326). -/
theorem respond_portOut (op : Nat) (d : Deferred) (r : Reply) (s : State) : PortOut s (respond op d r s) :=
  portOut_of (by simp)

/-- An event touches the rings, the interrupt state and the trace only (R324). -/
theorem post_portOut (code : Nat) (src : Handle) (p : List Byte) (c : Option Nat) (s : State) :
    PortOut s (post code src p c s) := portOut_of (by simp)

/-- Taking a frame changes the frames kept back and nothing else of the Headstock (R339). -/
theorem consume_head (op : Nat) (f : CmdFrame) (s : State) : (consume op f s).head =
    { s.head with blocked := s.head.blocked.filter (fun x => x.2.port != f.port) } := by
  unfold consume; dsimp only
  split <;> (repeat' split) <;> simp [frameTaken_frame .., queueSupply_frame ..]

/-- Taking a frame touches the rings, the frames kept back, the two-wire controller's queue and the trace only (R305, R339, R83). -/
theorem consume_readsOnly (op : Nat) (f : CmdFrame) (s : State) : ReadsOnly s (consume op f s) := by
  have h := consume_frame op f s
  have k := consume_head op f s
  unfold ReadsOnly
  apply state_ext <;> simp [k]

theorem ReadsOnly.trans {s t u : State} (h : ReadsOnly s t) (k : ReadsOnly t u) : ReadsOnly s u := by
  unfold ReadsOnly at *; rw [k, h]

theorem PortOut.readsOnly {s t : State} (h : PortOut s t) : ReadsOnly s t := by
  unfold PortOut at h; unfold ReadsOnly; rw [h]

/-! ### What a port has been answered -/

/-- Only the response ring and the waiting responses matter to what a port has been answered. -/
theorem answers_congr {s t : State} {p : Nat} (h : (ringAt t (4 + p)).entries = (ringAt s (4 + p)).entries)
    (k : t.port.respWait = s.port.respWait) : answers t p = answers s p := by
  unfold answers; rw [h, k]

/-- `t` has the same ring entries as `s` outside some rings, and the same waiting responses. -/
structure RingsKept (bad : Nat → Prop) (s t : State) : Prop where
  entries : ∀ m, ¬ bad m → (ringAt t m).entries = (ringAt s m).entries
  waits : t.port.respWait = s.port.respWait

theorem RingsKept.refl (bad : Nat → Prop) (s : State) : RingsKept bad s s := ⟨fun _ _ => rfl, rfl⟩

theorem RingsKept.trans {bad : Nat → Prop} {s t u : State} (h : RingsKept bad s t) (k : RingsKept bad t u) :
    RingsKept bad s u :=
  ⟨fun m hm => (k.entries m hm).trans (h.entries m hm), k.waits.trans h.waits⟩

theorem RingsKept.mono {a b : Nat → Prop} {s t : State} (h : RingsKept a s t) (k : ∀ m, a m → b m) : RingsKept b s t :=
  ⟨fun m hm => h.entries m (fun x => hm (k m x)), h.waits⟩

/-- The same port has the same rings. -/
theorem RingsKept.ofPort {bad : Nat → Prop} {s t : State} (h : t.port = s.port) : RingsKept bad s t :=
  ⟨fun m _ => by simp [ringAt, h], by rw [h]⟩

/-- A fold keeps the rings that each of its steps keeps. -/
theorem RingsKept.foldl {α : Type} {bad : Nat → Prop} (g : State → α → State) (H : ∀ b a, RingsKept bad b (g b a))
    (l : List α) (s : State) : RingsKept bad s (l.foldl g s) := by
  induction l generalizing s with
  | nil => exact .refl _ _
  | cons x l ih => exact (H s x).trans (ih _)

/-- A change of one ring touches that ring only. -/
theorem modRing_kept (n : Nat) (g : Ring → Ring) (s : State) : RingsKept (· = n) s (modRing n g s) :=
  ⟨fun m hm => by rw [ringAt_modRing, if_neg]; rintro ⟨rfl, _⟩; exact hm rfl, rfl⟩

/-- A change of one ring that keeps its entries. -/
theorem modRing_entries (n : Nat) (g : Ring → Ring) (s : State) (h : ∀ r, (g r).entries = r.entries)
    (bad : Nat → Prop) : RingsKept bad s (modRing n g s) :=
  ⟨fun m _ => by rw [ringAt_modRing]; split <;> simp [h], rfl⟩

theorem emit_kept (o : Output) (s : State) (bad : Nat → Prop) : RingsKept bad s (emit o s) := .ofPort rfl

/-- An MSI-X message changes the pending-bit array only, besides the trace (R321). -/
theorem sendMsix_port (n : Nat) (s : State) : (sendMsix n s).port = { s.port with pba := (sendMsix n s).port.pba } := by
  unfold sendMsix; dsimp only; split <;> rfl

/-- An interrupt changes INT_STATUS and the pending-bit array only, besides the trace (R320, R321). -/
theorem raiseInt_port (n : Nat) (s : State) : (raiseInt n s).port =
    { s.port with intStatus := s.port.intStatus ||| (1#32 <<< n), pba := (raiseInt n s).port.pba } := by
  unfold raiseInt; dsimp only; split
  · rw [sendMsix_port]
  · rfl

/-- An interrupt touches no entry (R320). -/
theorem raiseInt_kept (n : Nat) (s : State) (bad : Nat → Prop) : RingsKept bad s (raiseInt n s) :=
  ⟨fun _ _ => by unfold ringAt; rw [raiseInt_port], by rw [raiseInt_port]⟩

/-- Making an entry visible touches no entry (R320). -/
theorem madeVisible_kept (n len : Nat) (s : State) (bad : Nat → Prop) : RingsKept bad s (madeVisible n len s) := by
  unfold madeVisible; dsimp only; split
  · refine RingsKept.trans ?_ (raiseInt_kept n _ bad)
    apply modRing_entries; intro r; rfl
  · apply modRing_entries; intro r; rfl

/-- Staging an entry touches its ring only (R312). -/
theorem stageEntry_kept (n : Nat) (e : Entry) (s : State) : RingsKept (· = n) s (stageEntry n e s) := by
  unfold stageEntry; dsimp only; split
  · exact (modRing_kept n _ s).trans (madeVisible_kept _ _ _ _)
  · exact modRing_kept n _ s

/-- A staged entry stands at the back of its ring (R305, R312). -/
theorem stageEntry_entries (n : Nat) (e : Entry) (s : State) (h : n < s.port.rings.length) :
    (ringAt (stageEntry n e s) n).entries = (ringAt s n).entries ++ [e] := by
  unfold stageEntry; dsimp only
  split
  · rw [(madeVisible_kept _ _ _ (fun _ => False)).entries n (by simp), ringAt_modRing, if_pos ⟨rfl, h⟩]
  · rw [ringAt_modRing, if_pos ⟨rfl, h⟩]

theorem stageEntry_waits (n : Nat) (e : Entry) (s : State) : (stageEntry n e s).port.respWait = s.port.respWait :=
  (stageEntry_kept n e s).waits

/-- Removing the front entry touches its ring only (R305). -/
theorem popFront_kept (s : State) (n : Nat) : RingsKept (· = n) s (popFront s n) := modRing_kept n _ s

/-- Passing on a dropped block's change of epoch touches its ring only (R312). -/
theorem passEpoch_kept (n : Nat) (h : ShavingHdr) (s : State) : RingsKept (· = n) s (passEpoch n h s) := by
  unfold passEpoch; split
  · exact .refl _ _
  · dsimp only; split
    · exact modRing_kept n _ s
    · exact ⟨fun _ _ => rfl, rfl⟩

/-- What the drop of a block leaves behind touches its ring only (R312). -/
theorem droppedBlock_kept (n : Nat) (e : Entry) (s : State) : RingsKept (· = n) s (droppedBlock n e s) := by
  unfold droppedBlock; dsimp only; split
  · exact ((modRing_kept n _ _).trans (modRing_kept n _ _)).trans (passEpoch_kept n _ _)
  · split
    · exact (modRing_kept n _ _).trans (modRing_kept n _ _)
    · exact modRing_kept n _ _

/-- TAIL recomputed touches its ring only (R305). -/
theorem repack_kept (n : Nat) (s : State) : RingsKept (· = n) s (repack n s) := by
  unfold repack; split
  · exact .refl _ _
  · exact modRing_kept n _ s

/-- Cutting entries out of a ring touches that ring only (R312). -/
theorem cutEntries_kept (n i k : Nat) (s : State) : RingsKept (· = n) s (cutEntries n i k s) := by
  unfold cutEntries; split
  · exact RingsKept.foldl (bad := (· = n)) _ (fun b _ => popFront_kept b n) _ s
  · exact (modRing_kept n _ s).trans (repack_kept n _)

/-- Dropping the oldest block touches its ring only (R312). -/
theorem dropOldest_kept (s : State) (n : Nat) : RingsKept (· = n) s (dropOldest s n) := by
  unfold dropOldest; dsimp only; split
  · exact .refl _ _
  · exact (cutEntries_kept _ _ _ _).trans (droppedBlock_kept _ _ _)

theorem dropUntilFits_kept (n len k : Nat) (s : State) : RingsKept (· = n) s (dropUntilFits n len k s) := by
  induction k generalizing s with
  | zero => exact .refl _ _
  | succ k ih =>
    unfold dropUntilFits
    split
    · exact .refl _ _
    · exact (dropOldest_kept s n).trans (ih _)

/-- An event frame touches its ring only (R324). -/
theorem writeEvent_kept (n code : Nat) (src : Handle) (p : List Byte) (c : Option Nat) (s : State) :
    RingsKept (· = n) s (writeEvent n code src p c s) := by
  unfold writeEvent; dsimp only; split
  · exact ((dropUntilFits_kept _ _ _ s).trans (modRing_kept n _ _)).trans (stageEntry_kept n _ _)
  · exact (dropUntilFits_kept _ _ _ s).trans (modRing_kept n _ _)

/-- The rings an event may go to (R293). -/
theorem eventRings_mem {s : State} {n : Nat} (h : n ∈ eventRings s) : n = 8 ∨ n = 9 ∨ n = 10 := by
  unfold eventRings at h; dsimp only at h
  split at h <;> simp at h <;> omega

/-- An event touches the event rings only (R293). -/
theorem post_kept (code : Nat) (src : Handle) (p : List Byte) (c : Option Nat) (s : State) :
    RingsKept (fun m => m = 8 ∨ m = 9 ∨ m = 10) s (post code src p c s) := by
  unfold post
  split
  · exact .refl _ _
  · have H : ∀ (l : List Nat), (∀ n ∈ l, n = 8 ∨ n = 9 ∨ n = 10) → ∀ u, RingsKept (fun m => m = 8 ∨ m = 9 ∨ m = 10) u
        (l.foldl (fun t n => writeEvent n code src p c t) u) := by
      intro l
      induction l with
      | nil => intro _ u; exact .refl _ _
      | cons x l ih =>
        intro hl u
        exact ((writeEvent_kept x code src p c u).mono (fun m hm => hm ▸ hl x (by simp))).trans
          (ih (fun n hn => hl n (by simp [hn])) _)
    exact H _ (fun n hn => eventRings_mem hn) s

/-- A note touches the event rings only (R385). -/
theorem logNote_kept (b : Bool) (code island subject value : Nat) (c : Option Nat) (s : State) :
    RingsKept (fun m => m = 8 ∨ m = 9 ∨ m = 10) s (logNote b code island subject value c s) := by
  unfold logNote; dsimp only; split <;> split
  · refine RingsKept.trans ?_ (post_kept _ _ _ _ _)
    exact .ofPort rfl
  · exact .ofPort rfl
  · refine RingsKept.trans ?_ (post_kept _ _ _ _ _)
    exact .ofPort rfl
  · exact .ofPort rfl

/-- HEAD's progress past an entry touches no entry (R305). -/
theorem headAdvanced_kept (n : Nat) (s : State) (bad : Nat → Prop) : RingsKept bad s (headAdvanced n s) := by
  unfold headAdvanced; split
  · refine RingsKept.trans ?_ (raiseInt_kept _ _ _)
    apply modRing_entries; intro r; rfl
  · exact .refl _ _

/-- A frame that leaves its ring touches that ring only (R305). -/
theorem frameTaken_kept (n : Nat) (s : State) : RingsKept (· = n) s (frameTaken n s) := by
  unfold frameTaken
  exact ((popFront_kept s n).trans (modRing_kept n _ _)).trans (headAdvanced_kept n _ _)

/-- Taking a frame touches its command ring only (R305). -/
theorem consume_kept (op : Nat) (f : CmdFrame) (s : State) : RingsKept (fun m => m = f.port ∧ m < 3) s (consume op f s) := by
  unfold consume; dsimp only
  generalize hu : (if s.bus.firstCommand = true then s else
    queueSupply { s with bus := { s.bus with firstCommand := true } }) = u
  have q : u.port = s.port := by subst hu; split <;> simp [queueSupply_frame ..]
  split
  · split
    · rename_i h; simp at h
      refine RingsKept.trans (t := { u with head := { u.head with blocked := u.head.blocked.filter (fun x => x.2.port != f.port) } })
        (.ofPort q) ((frameTaken_kept f.port _).mono (fun m hm => ⟨hm, hm ▸ h.1⟩))
    · exact .ofPort q
  · exact .ofPort q

/-- A frame that leaves its ring changes the rings, INT_STATUS and the pending-bit array of the port file only (R305, R320). -/
theorem frameTaken_port (n : Nat) (s : State) : (frameTaken n s).port = { s.port with
    rings := (frameTaken n s).port.rings, intStatus := (frameTaken n s).port.intStatus, pba := (frameTaken n s).port.pba } := by
  unfold frameTaken headAdvanced; split
  · rw [raiseInt_port]; simp [popFront, modRing]
  · simp [popFront, modRing]

/-- Taking a frame changes the rings, INT_STATUS and the pending-bit array of the port file only (R305, R320). -/
theorem consume_port (op : Nat) (f : CmdFrame) (s : State) : (consume op f s).port = { s.port with
    rings := (consume op f s).port.rings, intStatus := (consume op f s).port.intStatus, pba := (consume op f s).port.pba } := by
  unfold consume; dsimp only
  generalize hu : (if s.bus.firstCommand = true then s else
    queueSupply { s with bus := { s.bus with firstCommand := true } }) = u
  have q : u.port = s.port := by subst hu; split <;> simp [queueSupply_frame ..]
  split
  · split
    · rw [frameTaken_port]; simp [q]
    · simp [q]
  · simp [q]

/-! ### Answers -/

/-- What touches no response ring and no waiting response answers nothing. -/
theorem RingsKept.answers {bad : Nat → Prop} {s t : State} (h : RingsKept bad s t) {p : Nat} (hp : ¬ bad (4 + p)) :
    answers t p = answers s p := answers_congr (h.entries _ hp) h.waits

theorem post_answers (code : Nat) (src : Handle) (pl : List Byte) (c : Option Nat) (s : State) {p : Nat} (h : p < 3) :
    answers (post code src pl c s) p = answers s p := (post_kept code src pl c s).answers (by omega)

theorem logNote_answers (b : Bool) (code island subject value : Nat) (c : Option Nat) (s : State) {p : Nat} (h : p < 3) :
    answers (logNote b code island subject value c s) p = answers s p :=
  (logNote_kept b code island subject value c s).answers (by omega)

theorem consume_answers (op : Nat) (f : CmdFrame) (s : State) (p : Nat) :
    answers (consume op f s) p = answers s p := (consume_kept op f s).answers (by omega)

theorem answers_ofPort {s t : State} (h : t.port = s.port) (p : Nat) : answers t p = answers s p :=
  (RingsKept.ofPort (bad := fun _ => False) h).answers (by simp)

/-- A response is one more answer to its port, in its ring or waiting for room, and no answer to another (R314, R326). -/
theorem writeResponse_answers (p : Nat) (e : Entry) (s : State) (h : 4 + p < s.port.rings.length) (q : Nat) :
    answers (writeResponse p e s) q = answers s q ++ (if q = p then [e.bytes] else []) := by
  unfold writeResponse; dsimp only
  split
  · by_cases hq : q = p
    · subst hq; simp [answers, ringAt]
    · simp [answers, ringAt, hq, Ne.symm hq]
  · rename_i hw
    simp only [Bool.or_eq_true, not_or] at hw
    by_cases hq : q = p
    · subst hq
      have : s.port.respWait.filter (fun x => x.1 == q) = [] := by
        rw [List.filter_eq_nil_iff]; intro x hx e; exact hw.1 (List.any_eq_true.mpr ⟨x, hx, e⟩)
      unfold answers
      rw [stageEntry_entries _ _ _ h, stageEntry_waits, this]; simp
    · rw [(stageEntry_kept (4 + p) e s).answers (by omega)]; simp [hq]

/-- A response is one more answer to the port of its command, and none to another port (R326). -/
theorem respond_answers (op : Nat) (d : Deferred) (r : Reply) (s : State) (hd : d.port < 3) (h : s.port.rings.length = 32)
    (q : Nat) : answers (respond op d r s) q = answers s q ++ (if q = d.port then
      [frameBytes op d.tag (r.status % 16 + 16 * (r.clamped || d.clamped).toNat + 32 * (r.held || d.held).toNat +
        64 * d.queued.toNat) d.port r.target s.plan.seq r.payload] else []) := by
  unfold respond; rw [if_neg (by omega)]
  exact writeResponse_answers _ _ _ (by omega) _

/-- The response of a command that is answered at once. -/
theorem respond_answered (op : Nat) (f : CmdFrame) (r : Reply) (s t : State) (h : t.port.rings.length = 32)
    (k : f.port < 3 → answers t f.port = answers s f.port) :
    Answered op f r s (respond op (deferredOf op f false) r t) := by
  intro hp
  rw [respond_answers _ _ _ _ hp h, k hp]
  simp [deferredOf, responseFrame, responseFlags]

/-! ### Commands of one shape -/

/-- An accepted command whose body only reads. -/
theorem reads_accepted {op : Nat} {f : CmdFrame} {c : State → Checks} {s : State} (h : Accepted op f c s)
    (hl : s.port.rings.length = 32) {body : State → State × Option Reply} {r : Reply}
    (hb : ∀ u, ReadsOnly s u → body u = (u, some r)) :
    Reads op f r s (.next (command op f c body s)) := by
  refine ⟨_, rfl, ?_, ?_⟩ <;> rw [command_accepted h] <;> unfold answered
  · rw [hb _ (consume_readsOnly op f s)]
    exact (consume_readsOnly op f s).trans (respond_portOut _ _ _ _).readsOnly
  · rw [hb _ (consume_readsOnly op f s)]
    exact respond_answered _ _ _ _ _ (by simp [hl]) (fun _ => consume_answers _ _ _ _)

/-- An accepted command whose body only changes settings. -/
theorem sets_accepted {op : Nat} {f : CmdFrame} {c : State → Checks} {s : State} (h : Accepted op f c s)
    (hl : s.port.rings.length = 32) {body : State → State × Option Reply} {r : Reply} {x : Settings}
    (hb : ∀ u, ReadsOnly s u → body u = (setSettings x u, some r)) :
    Sets op f r x s (.next (command op f c body s)) := by
  have e := hb _ (consume_readsOnly op f s)
  have g := consume_frame op f s
  have n : now (consume op f s) = now s := by simp [now]
  refine ⟨_, rfl, ?_, ?_, ?_⟩ <;> rw [command_accepted h, e] <;> unfold answered <;> dsimp only
  · have k := respond_portOut op (deferredOf op f false) r (setSettings x (consume op f s))
    unfold PortOut at k; rw [k]
    have q := consume_readsOnly op f s
    unfold ReadsOnly at q
    rw [q]; rfl
  · simp [n]
  · refine respond_answered _ _ _ _ _ (by simp [hl]) (fun _ => ?_)
    rw [answers_ofPort (t := setSettings x (consume op f s)) (s := consume op f s) rfl]
    exact consume_answers _ _ _ _

/-- An accepted command that replies is answered its reply, last of all it does. -/
theorem last_accepted {op : Nat} {f : CmdFrame} {c : State → Checks} {s : State} (h : Accepted op f c s)
    {body : State → State × Option Reply} {r : Reply} (hr : (body (consume op f s)).2 = some r)
    (hl : (body (consume op f s)).1.port.rings.length = 32) : AnsweredLast op f r (command op f c body s) := by
  intro hp
  rw [command_accepted h]
  unfold answered
  simp only [hr]
  rw [respond_answers _ _ _ _ hp hl]
  simp [deferredOf, responseFrame, responseFlags]

/-- An accepted command that does not reply leaves what its body leaves. -/
theorem deferred_accepted {op : Nat} {f : CmdFrame} {c : State → Checks} {s : State} (h : Accepted op f c s)
    {body : State → State × Option Reply} (hr : (body (consume op f s)).2 = none) :
    command op f c body s = (body (consume op f s)).1 := by
  rw [command_accepted h]; unfold answered; rw [hr]

/-- What a command leaves, outside the rings and the trace, is what its body leaves. -/
theorem answered_portOut (op : Nat) (f : CmdFrame) (x : State × Option Reply) : PortOut x.1 (answered op f x) := by
  unfold answered; split
  · exact respond_portOut _ _ _ _
  · exact .refl _

/-- With no command held, nothing runs again (R338). -/
theorem rerunHeld_none {s : State} (h : s.head.held = []) (ops : List Nat) (still : Nat → CmdFrame → State → Bool)
    (g : Nat → CmdFrame → State → State) : rerunHeld ops still g s = s := by
  unfold rerunHeld; simp only [h, List.filter_nil, List.foldl_nil]

/-- Releasing what waits for an event takes those that wait off the list and answers them; nothing else changes (R342). -/
theorem release_head (key : WaitKey) (r : Deferred → Reply) (s : State) : (release key r s).head =
    { s.head with deferred := s.head.deferred.filter (fun x => x.key != key) } := by
  unfold release; simp

/-- A command that fails a check before clamping answers the failure and changes nothing else (R327, R328). -/
theorem rejected_reads {op : Nat} {f : CmdFrame} {c : State → Checks} {s : State} {x : Fail} (h : Rejected op f c s x)
    (hl : s.port.rings.length = 32) (body : State → State × Option Reply) :
    Reads op f { status := x.status, target := f.target, payload := failPayload x } s (.next (command op f c body s)) := by
  refine ⟨_, rfl, ?_, ?_⟩ <;> rw [command_rejected h] <;> unfold refuse
  · exact (consume_readsOnly op f s).trans (respond_portOut _ _ _ _).readsOnly
  · have k := respond_answered op f { status := x.status, target := f.target, payload := failPayload x } s (consume op f s)
      (by simp [hl]) (fun _ => consume_answers _ _ _ _)
    exact k

/-- The parts of the state that taking a frame keeps. -/
theorem ReadsOnly.parts {s u : State} (h : ReadsOnly s u) : u.pwr = s.pwr ∧ u.clk = s.clk ∧ SameStore s u ∧ SameSecure s u ∧
    SameObjects s u ∧ SameMix s u ∧ u.gens = s.gens ∧ u.cal = s.cal ∧ SamePlan s u := by
  unfold ReadsOnly at h; rw [h]; simp

/-- Taking a frame changes the frames kept back and nothing else of the Headstock. -/
theorem ReadsOnly.head {s u : State} (h : ReadsOnly s u) : u.head = { s.head with blocked := u.head.blocked } := by
  unfold ReadsOnly at h; rw [h]

/-- What does not read the rings, the two-wire bus or the trace is the same after a frame was taken. -/
theorem ReadsOnly.same {α : Type} {s u : State} (h : ReadsOnly s u) (g : State → α)
    (k : ∀ p o b x, g { s with port := p, out := o, bus := b, head := { s.head with blocked := x } } = g s) : g u = g s := by
  unfold ReadsOnly at h; rw [h]; exact k _ _ _ _

/-- An accepted command that replies: the reply is the last answer, and what the body makes true, apart from the rings and
the trace, is true of the state it leaves. -/
theorem changes_accepted {op : Nat} {f : CmdFrame} {c : State → Checks} {s : State} (h : Accepted op f c s)
    (hl : s.port.rings.length = 32) {body : State → State × Option Reply} {r : Reply} {P : State → Prop}
    (hp : ∀ t u, PortOut t u → P t → P u)
    (hb : ∀ u, ReadsOnly s u → u.port.rings.length = 32 → (body u).2 = some r ∧ (body u).1.port.rings.length = 32 ∧
      P (body u).1) :
    ∃ t, Host.Outcome.next (φ := Fault) (ρ := Refusal) (command op f c body s) = .next t ∧ AnsweredLast op f r t ∧ P t := by
  obtain ⟨b1, b2, b3⟩ := hb _ (consume_readsOnly op f s) (by simp [hl])
  refine ⟨_, rfl, last_accepted h b1 b2, ?_⟩
  rw [command_accepted h]
  exact hp _ _ (answered_portOut _ _ _) b3

/-- The same, with the state the body works on written out. -/
theorem changes_direct {op : Nat} {f : CmdFrame} {c : State → Checks} {s : State} (h : Accepted op f c s)
    (hl : s.port.rings.length = 32) {body : State → State × Option Reply} {r : Reply} {P : State → Prop}
    (hp : ∀ t u, PortOut t u → P t → P u)
    (hb : ∀ p o b x, p.rings.length = 32 →
      (body { s with port := p, out := o, bus := b, head := { s.head with blocked := x } }).2 = some r ∧
      (body { s with port := p, out := o, bus := b, head := { s.head with blocked := x } }).1.port.rings.length = 32 ∧
      P (body { s with port := p, out := o, bus := b, head := { s.head with blocked := x } }).1) :
    ∃ t, Host.Outcome.next (φ := Fault) (ρ := Refusal) (command op f c body s) = .next t ∧ AnsweredLast op f r t ∧ P t := by
  refine changes_accepted h hl hp (fun u hu hr => ?_)
  have e : u = { s with port := u.port, out := u.out, bus := u.bus, head := { s.head with blocked := u.head.blocked } } := hu
  rw [e]; exact hb _ _ _ _ hr

/-- An accepted command whose response waits leaves what its body makes true. -/
theorem defers_accepted {op : Nat} {f : CmdFrame} {c : State → Checks} {s : State} (h : Accepted op f c s)
    {body : State → State × Option Reply} {P : State → Prop} (hp : ∀ t u, PortOut t u → P t → P u)
    (hb : ∀ u, ReadsOnly s u → u.port.rings.length = s.port.rings.length → P (body u).1) :
    ∃ t, Host.Outcome.next (φ := Fault) (ρ := Refusal) (command op f c body s) = .next t ∧ P t := by
  refine ⟨_, rfl, ?_⟩
  rw [command_accepted h]
  exact hp _ _ (answered_portOut _ _ _) (hb _ (consume_readsOnly op f s) (by simp))

/-- What a command's response leaves does not touch what the units and objects hold. -/
theorem PortOut.parts {s t : State} (h : PortOut s t) : SameBase s t ∧ SameStore s t ∧ SameSecure s t ∧ SameObjects s t ∧
    SameMix s t ∧ SameHead s t ∧ SamePlan s t := by
  unfold PortOut at h; rw [h]; simp

theorem windowAt_congr {s t : State} (h : t.front = s.front) (w : Nat) : windowAt t w = windowAt s w := by
  unfold windowAt; rw [h]

theorem tunerAt_congr {s t : State} (h : t.front = s.front) (n : Nat) : tunerAt t n = tunerAt s n := by
  unfold tunerAt; rw [h]

/-- A window put into the plan: its next generation and its settings; the other windows stay (R331, R367). -/
theorem windowAt_planWindow {w : Nat} {s : State} (h : w < s.front.windows.length) (c : WinSettings) (mark : Bool) (v : Nat) :
    windowAt (planWindow w c mark s) v = if w = v then { windowAt s w with
      gen := nextGen (windowAt s w).gen, inPlan := true, sentry := mark, created := s.head.serial
      port := c.port, agc := c.agc, fixedGain := c.gain, widthKhz := c.width, lo := c.lo, linger := c.linger
      clips := 0, txOverlap := 0, retunes := 0, retuneTo := none, state := .stopped, last := {} } else windowAt s v := by
  unfold planWindow takeSerial
  rw [windowAt_modWindow]
  by_cases e : w = v
  · subst e; rw [if_pos ⟨rfl, h⟩, if_pos rfl]; rfl
  · rw [if_neg (by tauto), if_neg e]; rfl

@[simp] theorem windowAt_modTuner (t w : Nat) (g : Tuner → Tuner) (s : State) : windowAt (modTuner t g s) w = windowAt s w := rfl

@[simp] theorem tunerAt_modWindow (w t : Nat) (g : Window → Window) (s : State) : tunerAt (modWindow w g s) t = tunerAt s t := rfl

@[simp] theorem windowAt_deferOn (k : WaitKey) (d : Deferred) (s : State) (w : Nat) : windowAt (deferOn k d s) w = windowAt s w := rfl

@[simp] theorem tunerAt_deferOn (k : WaitKey) (d : Deferred) (s : State) (t : Nat) : tunerAt (deferOn k d s) t = tunerAt s t := rfl

@[simp] theorem windowAt_bumpPlan (s : State) (w : Nat) : windowAt (bumpPlan s) w = windowAt s w := rfl

@[simp] theorem tunerAt_bumpPlan (s : State) (t : Nat) : tunerAt (bumpPlan s) t = tunerAt s t := rfl

/-- Taking a tuner that no glance uses changes that tuner only (R265). -/
theorem takeTuner_plain {t : Nat} {s : State} (h : tunerGlances s t = false) (w : Nat) (partner : Bool) (port : Nat) :
    takeTuner t w partner port s = modTuner t (fun x => { x with
      role := if partner then .partner w else .window w, port := port, lingerAt := none, clipAt := none, above10At := none }) s := by
  unfold takeTuner; dsimp only; rw [h]
  unfold tunerGlances at h
  cases k : (tunerAt s t).role <;> simp_all

/-- The tuner a window opens on depends on the tuners and the mode only (R605). -/
theorem pickTuner_congr {s t : State} (h : t.front.tuners = s.front.tuners) (k : t.set.mode = s.set.mode) (w : Nat) :
    pickTuner t w = pickTuner s w := by
  have e : tunerAt t = tunerAt s := by funext n; unfold tunerAt; rw [h]
  have e1 : tunerFree t = tunerFree s := by funext n; unfold tunerFree; rw [e]
  have e2 : tunerWarm t = tunerWarm s := by funext n; unfold tunerWarm tunerFree; rw [e]
  unfold pickTuner anyTuner; rw [e, e1, e2, k]

/-- A window whose close is finished: it is out of the plan, without tuners; the other windows stay (R124, R336). -/
theorem windowAt_finishClose {w : Nat} {s : State} (h : w < s.front.windows.length) (c : Option Nat) (v : Nat) :
    windowAt (finishClose w c s) v = if w = v then { windowAt s w with
      state := .closed, inPlan := false, partner := none, tuner := none, closeAfter := false } else windowAt s v := by
  have e : (postClosed w c s).front = s.front := by simp [postClosed_frame ..]
  unfold finishClose; dsimp only
  rw [windowAt_modWindow]
  by_cases k : w = v
  · subst k
    rw [if_pos ⟨rfl, by simpa [postClosed_frame .., e] using h⟩, if_pos rfl]
    simp [postClosed_frame .., windowAt]
  · rw [if_neg (by tauto), if_neg k]; simp [postClosed_frame .., windowAt]

/-- After the first command, taking a frame leaves the two-wire controller alone (R83). -/
theorem consume_bus {s : State} (h : s.bus.firstCommand = true) (op : Nat) (f : CmdFrame) : (consume op f s).bus = s.bus := by
  unfold consume; rw [if_pos h]; dsimp only
  split <;> (repeat' split) <;> simp [frameTaken_frame ..]

/-- An attention message that nothing keeps waiting is sent at once (R397). -/
theorem sendAttention_sends {s : State} (h : (attention s).isSome = true) (hq : s.bus.queue = []) (ha : s.bus.active = none)
    (hs : s.bus.stuck = false) : (sendAttention s).bus = { s.bus with
      queue := [{ id := s.bus.next, kind := .attention, queuedAt := now s }], next := s.bus.next + 1, active := some s.bus.next } := by
  have h' : (attention s).isNone = false := by cases e : attention s <;> simp_all
  unfold sendAttention; rw [h', hq]
  simp [sendXfer_frame .., queueXfer, startBus, nextXfer, hq, ha, hs]

/-! ### Rows about units, and rings -/

/-- A row whose units the device has takes its next state. -/
theorem within_next {b : Bool} (h : b = true) (s x : State) : within s b x = .next x := by
  unfold within; rw [if_pos h]

/-- A row about units always answers a next state (R112, R331). -/
theorem within_completes (s : State) (b : Bool) (x : State) : ∃ t, within s b x = .next t := ⟨_, rfl⟩

/-- One ring's settings after a change of one ring's settings. -/
theorem ringSet_modRingSet (n m : Nat) (g : RingSettings → RingSettings) (s : State) :
    ringSet (modRingSet n g s) m = if n = m ∧ m < s.set.rings.length then g (ringSet s m) else ringSet s m := by
  unfold ringSet modRingSet; exact modAt_getD _ _ _ _ _

@[simp] theorem ringAt_modRingSet (n m : Nat) (g : RingSettings → RingSettings) (s : State) :
    ringAt (modRingSet n g s) m = ringAt s m := rfl

@[simp] theorem ringSet_modRing (n m : Nat) (g : Ring → Ring) (s : State) : ringSet (modRing n g s) m = ringSet s m := rfl

/-- The settings of the rings depend on the settings only. -/
theorem ringSet_congr {s t : State} (h : t.set = s.set) (m : Nat) : ringSet t m = ringSet s m := by unfold ringSet; rw [h]

/-- The rings depend on the port file only. -/
theorem ringAt_congr {s t : State} (h : t.port = s.port) (m : Nat) : ringAt t m = ringAt s m := by unfold ringAt; rw [h]

/-- With no response waiting for room, nothing moves (R314). -/
theorem flushResponses_none {s : State} (h : s.port.respWait = []) : flushResponses s = s := by
  unfold flushResponses; rw [h]; rfl

/-- An interrupt touches no ring (R320). -/
@[simp] theorem ringAt_raiseInt (n m : Nat) (s : State) : ringAt (raiseInt n s) m = ringAt s m := by
  unfold ringAt; rw [raiseInt_port]

/-- Making an entry visible changes only what the ring counts towards its notification (R320). -/
theorem ringAt_madeVisible (n len m : Nat) (s : State) : ringAt (madeVisible n len s) m = { ringAt s m with
    unnotified := (ringAt (madeVisible n len s) m).unnotified
    unnotifiedAt := (ringAt (madeVisible n len s) m).unnotifiedAt } := by
  unfold madeVisible; dsimp only; split <;> simp [ringAt_modRing] <;> split <;> rfl

/-- HEAD's progress past an entry changes only the ring's BUSY bookkeeping (R305). -/
theorem ringAt_headAdvanced (n m : Nat) (s : State) : ringAt (headAdvanced n s) m = { ringAt s m with
    busy := (ringAt (headAdvanced n s) m).busy, busyPending := (ringAt (headAdvanced n s) m).busyPending } := by
  unfold headAdvanced; split
  · simp [ringAt_modRing]; split <;> rfl
  · rfl

/-- The port file of two states differs in its rings, INT_STATUS, the pending-bit array and the epochs seen only. -/
def RingsOnly (s t : State) : Prop :=
  t.port = { s.port with rings := t.port.rings, intStatus := t.port.intStatus, pba := t.port.pba, seen := t.port.seen }

theorem RingsOnly.refl (s : State) : RingsOnly s s := rfl

theorem RingsOnly.trans {s t u : State} (h : RingsOnly s t) (k : RingsOnly t u) : RingsOnly s u := by
  unfold RingsOnly at *; rw [k, h]

theorem RingsOnly.ofPort {s t : State} (h : t.port = s.port) : RingsOnly s t := by unfold RingsOnly; rw [h]

theorem RingsOnly.foldl {α : Type} (g : State → α → State) (H : ∀ b a, RingsOnly b (g b a)) (l : List α) (s : State) :
    RingsOnly s (l.foldl g s) := by
  induction l generalizing s with
  | nil => exact .refl _
  | cons x l ih => exact (H s x).trans (ih _)

theorem modRing_only (n : Nat) (g : Ring → Ring) (s : State) : RingsOnly s (modRing n g s) := rfl

theorem raiseInt_only (n : Nat) (s : State) : RingsOnly s (raiseInt n s) := by unfold RingsOnly; rw [raiseInt_port]

theorem madeVisible_only (n len : Nat) (s : State) : RingsOnly s (madeVisible n len s) := by
  unfold madeVisible; dsimp only; split
  · exact (modRing_only _ _ _).trans (raiseInt_only _ _)
  · exact modRing_only _ _ _

theorem stageEntry_only (n : Nat) (e : Entry) (s : State) : RingsOnly s (stageEntry n e s) := by
  unfold stageEntry; dsimp only; split
  · exact (modRing_only _ _ _).trans (madeVisible_only _ _ _)
  · exact modRing_only _ _ _

theorem passEpoch_only (n : Nat) (h : ShavingHdr) (s : State) : RingsOnly s (passEpoch n h s) := by
  unfold passEpoch; split
  · exact .refl _
  · dsimp only; split
    · exact modRing_only n _ s
    · rfl

theorem droppedBlock_only (n : Nat) (e : Entry) (s : State) : RingsOnly s (droppedBlock n e s) := by
  unfold droppedBlock; dsimp only; split
  · exact ((modRing_only n _ _).trans (modRing_only n _ _)).trans (passEpoch_only n _ _)
  · split
    · exact (modRing_only n _ _).trans (modRing_only n _ _)
    · exact modRing_only n _ _

theorem repack_only (n : Nat) (s : State) : RingsOnly s (repack n s) := by
  unfold repack; split
  · exact .refl _
  · exact modRing_only n _ s

theorem cutEntries_only (n i k : Nat) (s : State) : RingsOnly s (cutEntries n i k s) := by
  unfold cutEntries; split
  · exact RingsOnly.foldl _ (fun b _ => modRing_only n _ b) _ s
  · exact (modRing_only n _ s).trans (repack_only n _)

theorem dropOldest_only (s : State) (n : Nat) : RingsOnly s (dropOldest s n) := by
  unfold dropOldest; dsimp only; split
  · exact .refl _
  · exact (cutEntries_only _ _ _ _).trans (droppedBlock_only _ _ _)

theorem dropUntilFits_only (n len k : Nat) (s : State) : RingsOnly s (dropUntilFits n len k s) := by
  induction k generalizing s with
  | zero => exact .refl _
  | succ k ih =>
    unfold dropUntilFits; split
    · exact .refl _
    · exact (dropOldest_only s n).trans (ih _)

/-- An event changes the rings and INT_STATUS of the port file only (R293, R320). -/
theorem post_only (code : Nat) (src : Handle) (p : List Byte) (c : Option Nat) (s : State) :
    RingsOnly s (post code src p c s) := by
  unfold post; split
  · exact .refl _
  · refine RingsOnly.foldl _ (fun b n => ?_) _ s
    unfold writeEvent; dsimp only; split
    · exact ((dropUntilFits_only _ _ _ b).trans (modRing_only _ _ _)).trans (stageEntry_only _ _ _)
    · exact (dropUntilFits_only _ _ _ b).trans (modRing_only _ _ _)

/-- A note changes the rings and INT_STATUS of the port file only (R385). -/
theorem logNote_only (b : Bool) (code island subject value : Nat) (c : Option Nat) (s : State) :
    RingsOnly s (logNote b code island subject value c s) := by
  unfold logNote; dsimp only; split <;> split
  · exact RingsOnly.trans (.ofPort rfl) (post_only _ _ _ _ _)
  · exact .ofPort rfl
  · exact RingsOnly.trans (.ofPort rfl) (post_only _ _ _ _ _)
  · exact .ofPort rfl

theorem answered_frame (op : Nat) (f : CmdFrame) (x : State × Option Reply) : SameBase x.1 (answered op f x) ∧
    SameStore x.1 (answered op f x) ∧ SameSecure x.1 (answered op f x) ∧ SameObjects x.1 (answered op f x) ∧
    SameMix x.1 (answered op f x) ∧ SameHead x.1 (answered op f x) ∧ SamePlan x.1 (answered op f x) ∧
    SameSizes x.1 (answered op f x) := by
  unfold answered; split <;> simp

end Sys2Proof.Machine
end

