-- ==== Sys2Proof/Laws/Link.lean ====
section
/-!
SUPPORT. Link.lean: what the operations of the link leave of its schedule and of the frame on air, and what stopping, sending
and ending a transmission leave.
-/

namespace Sys2Proof.Machine

@[simp] theorem foldl_link_slotSfn {α : Type} (h : State → α → State) (H : ∀ b a, (h b a).link.slotSfn = b.link.slotSfn) (l : List α)
    (b : State) : (l.foldl h b).link.slotSfn = b.link.slotSfn := foldl_keeps (fun s : State => s.link.slotSfn) H l b
@[simp] theorem ite_link_slotSfn (c : Prop) [Decidable c] (a b : LinkS) :
    (if c then a else b).slotSfn = if c then a.slotSfn else b.slotSfn := by split <;> rfl
@[simp] theorem foldl_link_beaconSfn {α : Type} (h : State → α → State) (H : ∀ b a, (h b a).link.beaconSfn = b.link.beaconSfn) (l : List α)
    (b : State) : (l.foldl h b).link.beaconSfn = b.link.beaconSfn := foldl_keeps (fun s : State => s.link.beaconSfn) H l b
@[simp] theorem ite_link_beaconSfn (c : Prop) [Decidable c] (a b : LinkS) :
    (if c then a else b).beaconSfn = if c then a.beaconSfn else b.beaconSfn := by split <;> rfl
@[simp] theorem foldl_link_listenTo {α : Type} (h : State → α → State) (H : ∀ b a, (h b a).link.listenTo = b.link.listenTo) (l : List α)
    (b : State) : (l.foldl h b).link.listenTo = b.link.listenTo := foldl_keeps (fun s : State => s.link.listenTo) H l b
@[simp] theorem ite_link_listenTo (c : Prop) [Decidable c] (a b : LinkS) :
    (if c then a else b).listenTo = if c then a.listenTo else b.listenTo := by split <;> rfl
@[simp] theorem foldl_link_air {α : Type} (h : State → α → State) (H : ∀ b a, (h b a).link.air = b.link.air) (l : List α)
    (b : State) : (l.foldl h b).link.air = b.link.air := foldl_keeps (fun s : State => s.link.air) H l b
@[simp] theorem ite_link_air (c : Prop) [Decidable c] (a b : LinkS) :
    (if c then a else b).air = if c then a.air else b.air := by split <;> rfl
@[simp] theorem setLinkState_link_slotSfn (st : LinkState) (cause : Option Nat) (s : State) : (setLinkState st cause
    s).link.slotSfn = s.link.slotSfn := by
  unfold setLinkState; simp

@[simp] theorem setLinkState_link_beaconSfn (st : LinkState) (cause : Option Nat) (s : State) : (setLinkState st cause
    s).link.beaconSfn = s.link.beaconSfn := by
  unfold setLinkState; simp

@[simp] theorem setLinkState_link_listenTo (st : LinkState) (cause : Option Nat) (s : State) : (setLinkState st cause
    s).link.listenTo = s.link.listenTo := by
  unfold setLinkState; simp

@[simp] theorem setLinkState_link_air (st : LinkState) (cause : Option Nat) (s : State) : (setLinkState st cause
    s).link.air = s.link.air := by
  unfold setLinkState; simp

@[simp] theorem radioGo_link_slotSfn (r : Radio) (s : State) : (radioGo r s).link.slotSfn = s.link.slotSfn := by
  unfold radioGo; simp

@[simp] theorem radioGo_link_beaconSfn (r : Radio) (s : State) : (radioGo r s).link.beaconSfn = s.link.beaconSfn := by
  unfold radioGo; simp

@[simp] theorem radioGo_link_listenTo (r : Radio) (s : State) : (radioGo r s).link.listenTo = s.link.listenTo := by
  unfold radioGo; simp

@[simp] theorem radioGo_link_air (r : Radio) (s : State) : (radioGo r s).link.air = s.link.air := by
  unfold radioGo; simp

@[simp] theorem radioRest_link_slotSfn (s : State) : (radioRest s).link.slotSfn = s.link.slotSfn := by
  unfold radioRest; simp

@[simp] theorem radioRest_link_beaconSfn (s : State) : (radioRest s).link.beaconSfn = s.link.beaconSfn := by
  unfold radioRest; simp

@[simp] theorem radioRest_link_listenTo (s : State) : (radioRest s).link.listenTo = s.link.listenTo := by
  unfold radioRest; simp

@[simp] theorem radioRest_link_air (s : State) : (radioRest s).link.air = s.link.air := by
  unfold radioRest; simp

@[simp] theorem linkRefresh_link_air (cause : Option Nat) (s : State) : (linkRefresh cause s).link.air = s.link.air :=
    by
  unfold linkRefresh; simp

@[simp] theorem takeCounter_link_slotSfn (s : State) : (takeCounter s).2.link.slotSfn = s.link.slotSfn := by
  unfold takeCounter; dsimp only; (repeat' split) <;> simp [writeCounters_frame ..]

@[simp] theorem takeCounter_link_beaconSfn (s : State) : (takeCounter s).2.link.beaconSfn = s.link.beaconSfn := by
  unfold takeCounter; dsimp only; (repeat' split) <;> simp [writeCounters_frame ..]

@[simp] theorem takeCounter_link_listenTo (s : State) : (takeCounter s).2.link.listenTo = s.link.listenTo := by
  unfold takeCounter; dsimp only; (repeat' split) <;> simp [writeCounters_frame ..]

@[simp] theorem takeCounter_link_air (s : State) : (takeCounter s).2.link.air = s.link.air := by
  unfold takeCounter; dsimp only; (repeat' split) <;> simp [writeCounters_frame ..]

@[simp] theorem chargeLedger_link_slotSfn (i units : Nat) (s : State) : (chargeLedger i units s).link.slotSfn =
    s.link.slotSfn := by
  unfold chargeLedger; simp

@[simp] theorem chargeLedger_link_beaconSfn (i units : Nat) (s : State) : (chargeLedger i units s).link.beaconSfn =
    s.link.beaconSfn := by
  unfold chargeLedger; simp

@[simp] theorem chargeLedger_link_listenTo (i units : Nat) (s : State) : (chargeLedger i units s).link.listenTo =
    s.link.listenTo := by
  unfold chargeLedger; simp

@[simp] theorem chargeLedger_link_air (i units : Nat) (s : State) : (chargeLedger i units s).link.air = s.link.air :=
    by
  unfold chargeLedger; simp

@[simp] theorem modTx_link_slotSfn (counter : Nat) (g : TxFrame → TxFrame) (s : State) : (modTx counter g
    s).link.slotSfn = s.link.slotSfn := by
  unfold modTx; simp

@[simp] theorem modTx_link_beaconSfn (counter : Nat) (g : TxFrame → TxFrame) (s : State) : (modTx counter g
    s).link.beaconSfn = s.link.beaconSfn := by
  unfold modTx; simp

@[simp] theorem modTx_link_listenTo (counter : Nat) (g : TxFrame → TxFrame) (s : State) : (modTx counter g
    s).link.listenTo = s.link.listenTo := by
  unfold modTx; simp

@[simp] theorem modTx_link_air (counter : Nat) (g : TxFrame → TxFrame) (s : State) : (modTx counter g s).link.air =
    s.link.air := by
  unfold modTx; simp

@[simp] theorem removeTx_link_slotSfn (counter : Nat) (s : State) : (removeTx counter s).link.slotSfn = s.link.slotSfn
    := by
  unfold removeTx; simp

@[simp] theorem removeTx_link_beaconSfn (counter : Nat) (s : State) : (removeTx counter s).link.beaconSfn =
    s.link.beaconSfn := by
  unfold removeTx; simp

@[simp] theorem removeTx_link_listenTo (counter : Nat) (s : State) : (removeTx counter s).link.listenTo =
    s.link.listenTo := by
  unfold removeTx; simp

@[simp] theorem removeTx_link_air (counter : Nat) (s : State) : (removeTx counter s).link.air = s.link.air := by
  unfold removeTx; simp

@[simp] theorem dropTx_link_slotSfn (fr : TxFrame) (reason : Nat) (cause : Option Nat) (s : State) : (dropTx fr reason
    cause s).link.slotSfn = s.link.slotSfn := by
  unfold dropTx; simp

@[simp] theorem dropTx_link_beaconSfn (fr : TxFrame) (reason : Nat) (cause : Option Nat) (s : State) : (dropTx fr
    reason cause s).link.beaconSfn = s.link.beaconSfn := by
  unfold dropTx; simp

@[simp] theorem dropTx_link_listenTo (fr : TxFrame) (reason : Nat) (cause : Option Nat) (s : State) : (dropTx fr
    reason cause s).link.listenTo = s.link.listenTo := by
  unfold dropTx; simp

@[simp] theorem dropTx_link_air (fr : TxFrame) (reason : Nat) (cause : Option Nat) (s : State) : (dropTx fr reason
    cause s).link.air = s.link.air := by
  unfold dropTx; simp

@[simp] theorem dropAllTx_link_slotSfn (reason : Nat) (cause : Option Nat) (s : State) : (dropAllTx reason cause
    s).link.slotSfn = s.link.slotSfn := by
  unfold dropAllTx; simp

@[simp] theorem dropAllTx_link_beaconSfn (reason : Nat) (cause : Option Nat) (s : State) : (dropAllTx reason cause
    s).link.beaconSfn = s.link.beaconSfn := by
  unfold dropAllTx; simp

@[simp] theorem dropAllTx_link_listenTo (reason : Nat) (cause : Option Nat) (s : State) : (dropAllTx reason cause
    s).link.listenTo = s.link.listenTo := by
  unfold dropAllTx; simp

@[simp] theorem dropAllTx_link_air (reason : Nat) (cause : Option Nat) (s : State) : (dropAllTx reason cause
    s).link.air = s.link.air := by
  unfold dropAllTx; simp

@[simp] theorem deferTx_link_slotSfn (fr : TxFrame) (reason next : Nat) (duty : Option (Nat × Nat)) (s : State) :
    (deferTx fr reason next duty s).link.slotSfn = s.link.slotSfn := by
  unfold deferTx; dsimp only; (repeat' split) <;> simp

@[simp] theorem deferTx_link_beaconSfn (fr : TxFrame) (reason next : Nat) (duty : Option (Nat × Nat)) (s : State) :
    (deferTx fr reason next duty s).link.beaconSfn = s.link.beaconSfn := by
  unfold deferTx; dsimp only; (repeat' split) <;> simp

@[simp] theorem deferTx_link_listenTo (fr : TxFrame) (reason next : Nat) (duty : Option (Nat × Nat)) (s : State) :
    (deferTx fr reason next duty s).link.listenTo = s.link.listenTo := by
  unfold deferTx; dsimp only; (repeat' split) <;> simp

@[simp] theorem deferTx_link_air (fr : TxFrame) (reason next : Nat) (duty : Option (Nat × Nat)) (s : State) : (deferTx
    fr reason next duty s).link.air = s.link.air := by
  unfold deferTx; dsimp only; (repeat' split) <;> simp

@[simp] theorem reportTx_link_slotSfn (fr : TxFrame) (status : Nat) (stamp : Tick) (s : State) : (reportTx fr status
    stamp s).link.slotSfn = s.link.slotSfn := by
  unfold reportTx; simp [offerLink_frame ..]

@[simp] theorem reportTx_link_beaconSfn (fr : TxFrame) (status : Nat) (stamp : Tick) (s : State) : (reportTx fr status
    stamp s).link.beaconSfn = s.link.beaconSfn := by
  unfold reportTx; simp [offerLink_frame ..]

@[simp] theorem reportTx_link_listenTo (fr : TxFrame) (status : Nat) (stamp : Tick) (s : State) : (reportTx fr status
    stamp s).link.listenTo = s.link.listenTo := by
  unfold reportTx; simp [offerLink_frame ..]

@[simp] theorem reportTx_link_air (fr : TxFrame) (status : Nat) (stamp : Tick) (s : State) : (reportTx fr status stamp
    s).link.air = s.link.air := by
  unfold reportTx; simp [offerLink_frame ..]

@[simp] theorem goOnAir_link_slotSfn (a : TxAsk) (sub : Nat) (frame : Option Nat) (last : Bool) (s : State) : (goOnAir
    a sub frame last s).link.slotSfn = s.link.slotSfn := by
  unfold goOnAir; simp [chargeLedger_frame .., noteDrive_frame ..]

@[simp] theorem goOnAir_link_beaconSfn (a : TxAsk) (sub : Nat) (frame : Option Nat) (last : Bool) (s : State) :
    (goOnAir a sub frame last s).link.beaconSfn = s.link.beaconSfn := by
  unfold goOnAir; simp [chargeLedger_frame .., noteDrive_frame ..]

@[simp] theorem goOnAir_link_listenTo (a : TxAsk) (sub : Nat) (frame : Option Nat) (last : Bool) (s : State) :
    (goOnAir a sub frame last s).link.listenTo = s.link.listenTo := by
  unfold goOnAir; simp [chargeLedger_frame .., noteDrive_frame ..]

@[simp] theorem markSent_link_slotSfn (a : TxAsk) (sub : Nat) (fr : TxFrame) (s : State) : (markSent a sub fr
    s).link.slotSfn = s.link.slotSfn := by
  unfold markSent; simp

@[simp] theorem markSent_link_beaconSfn (a : TxAsk) (sub : Nat) (fr : TxFrame) (s : State) : (markSent a sub fr
    s).link.beaconSfn = s.link.beaconSfn := by
  unfold markSent; simp

@[simp] theorem markSent_link_listenTo (a : TxAsk) (sub : Nat) (fr : TxFrame) (s : State) : (markSent a sub fr
    s).link.listenTo = s.link.listenTo := by
  unfold markSent; simp

@[simp] theorem markSent_link_air (a : TxAsk) (sub : Nat) (fr : TxFrame) (s : State) : (markSent a sub fr s).link.air
    = s.link.air := by
  unfold markSent; simp

@[simp] theorem sendTx_link_slotSfn (a : TxAsk) (fr : TxFrame) (next : Nat) (last : Bool) (s : State) : (sendTx a fr
    next last s).link.slotSfn = s.link.slotSfn := by
  unfold sendTx; dsimp only; (repeat' split) <;> simp

@[simp] theorem sendTx_link_beaconSfn (a : TxAsk) (fr : TxFrame) (next : Nat) (last : Bool) (s : State) : (sendTx a fr
    next last s).link.beaconSfn = s.link.beaconSfn := by
  unfold sendTx; dsimp only; (repeat' split) <;> simp

@[simp] theorem sendTx_link_listenTo (a : TxAsk) (fr : TxFrame) (next : Nat) (last : Bool) (s : State) : (sendTx a fr
    next last s).link.listenTo = s.link.listenTo := by
  unfold sendTx; dsimp only; (repeat' split) <;> simp

@[simp] theorem applyGpio4_link_slotSfn (s : State) : (applyGpio4 s).link.slotSfn = s.link.slotSfn := by
  unfold applyGpio4; dsimp only; (repeat' split) <;> simp

@[simp] theorem applyGpio4_link_beaconSfn (s : State) : (applyGpio4 s).link.beaconSfn = s.link.beaconSfn := by
  unfold applyGpio4; dsimp only; (repeat' split) <;> simp

@[simp] theorem applyGpio4_link_listenTo (s : State) : (applyGpio4 s).link.listenTo = s.link.listenTo := by
  unfold applyGpio4; dsimp only; (repeat' split) <;> simp

@[simp] theorem applyGpio4_link_air (s : State) : (applyGpio4 s).link.air = s.link.air := by
  unfold applyGpio4; dsimp only; (repeat' split) <;> simp

@[simp] theorem endAir_link_slotSfn (s : State) : (endAir s).link.slotSfn = s.link.slotSfn := by
  unfold endAir; dsimp only; (repeat' split) <;> simp

@[simp] theorem endAir_link_beaconSfn (s : State) : (endAir s).link.beaconSfn = s.link.beaconSfn := by
  unfold endAir; dsimp only; (repeat' split) <;> simp

@[simp] theorem endAir_link_listenTo (s : State) : (endAir s).link.listenTo = s.link.listenTo := by
  unfold endAir; dsimp only; (repeat' split) <;> simp

@[simp] theorem cutAir_link_slotSfn (s : State) : (cutAir s).link.slotSfn = s.link.slotSfn := by
  unfold cutAir; simp

@[simp] theorem cutAir_link_beaconSfn (s : State) : (cutAir s).link.beaconSfn = s.link.beaconSfn := by
  unfold cutAir; simp

@[simp] theorem cutAir_link_listenTo (s : State) : (cutAir s).link.listenTo = s.link.listenTo := by
  unfold cutAir; simp

@[simp] theorem finishStop_link_air (cause : Option Nat) (s : State) : (finishStop cause s).link.air = s.link.air :=
    by
  unfold finishStop; dsimp only; (repeat' split) <;> simp [setLinkState_frame ..]

@[simp] theorem beginStop_link_air (cause : Option Nat) (s : State) : (beginStop cause s).link.air = s.link.air := by
  unfold beginStop; simp

@[simp] theorem linkConfigBody_link_air (f : CmdFrame) (queued : Bool) (s : State) : (linkConfigBody f queued
    s).1.link.air = s.link.air := by
  unfold linkConfigBody; simp [dropAllTx_frame ..]

@[simp] theorem enqueueTx_link_slotSfn (dest : Nat) (payload : List Byte) (s : State) : (enqueueTx dest payload
    s).2.link.slotSfn = s.link.slotSfn := by
  unfold enqueueTx; simp

@[simp] theorem enqueueTx_link_beaconSfn (dest : Nat) (payload : List Byte) (s : State) : (enqueueTx dest payload
    s).2.link.beaconSfn = s.link.beaconSfn := by
  unfold enqueueTx; simp

@[simp] theorem enqueueTx_link_listenTo (dest : Nat) (payload : List Byte) (s : State) : (enqueueTx dest payload
    s).2.link.listenTo = s.link.listenTo := by
  unfold enqueueTx; simp

@[simp] theorem enqueueTx_link_air (dest : Nat) (payload : List Byte) (s : State) : (enqueueTx dest payload
    s).2.link.air = s.link.air := by
  unfold enqueueTx; simp

@[simp] theorem linkSendBody_link_slotSfn (f : CmdFrame) (s : State) : (linkSendBody f s).1.link.slotSfn =
    s.link.slotSfn := by
  unfold linkSendBody; simp

@[simp] theorem linkSendBody_link_beaconSfn (f : CmdFrame) (s : State) : (linkSendBody f s).1.link.beaconSfn =
    s.link.beaconSfn := by
  unfold linkSendBody; simp

@[simp] theorem linkSendBody_link_listenTo (f : CmdFrame) (s : State) : (linkSendBody f s).1.link.listenTo =
    s.link.listenTo := by
  unfold linkSendBody; simp

@[simp] theorem linkSendBody_link_air (f : CmdFrame) (s : State) : (linkSendBody f s).1.link.air = s.link.air := by
  unfold linkSendBody; simp

@[simp] theorem linkStopBody_link_air (f : CmdFrame) (s : State) : (linkStopBody f s).1.link.air = s.link.air := by
  unfold linkStopBody; simp

@[simp] theorem gatherConfigBody_link_slotSfn (f : CmdFrame) (s : State) : (gatherConfigBody f s).1.link.slotSfn =
    s.link.slotSfn := by
  unfold gatherConfigBody; simp

@[simp] theorem gatherConfigBody_link_beaconSfn (f : CmdFrame) (s : State) : (gatherConfigBody f s).1.link.beaconSfn =
    s.link.beaconSfn := by
  unfold gatherConfigBody; simp

@[simp] theorem gatherConfigBody_link_listenTo (f : CmdFrame) (s : State) : (gatherConfigBody f s).1.link.listenTo =
    s.link.listenTo := by
  unfold gatherConfigBody; simp

@[simp] theorem gatherConfigBody_link_air (f : CmdFrame) (s : State) : (gatherConfigBody f s).1.link.air = s.link.air
    := by
  unfold gatherConfigBody; simp

@[simp] theorem applyGather_link_slotSfn (s : State) : (applyGather s).link.slotSfn = s.link.slotSfn := by
  unfold applyGather; dsimp only; (repeat' split) <;> simp

@[simp] theorem applyGather_link_beaconSfn (s : State) : (applyGather s).link.beaconSfn = s.link.beaconSfn := by
  unfold applyGather; dsimp only; (repeat' split) <;> simp

@[simp] theorem applyGather_link_listenTo (s : State) : (applyGather s).link.listenTo = s.link.listenTo := by
  unfold applyGather; dsimp only; (repeat' split) <;> simp

@[simp] theorem applyGather_link_air (s : State) : (applyGather s).link.air = s.link.air := by
  unfold applyGather; dsimp only; (repeat' split) <;> simp

@[simp] theorem scheduled_link_slotSfn (fr : TxFrame) (sfn : Nat) (s : State) :
    (scheduled fr sfn s).link.slotSfn = some sfn := by
  unfold scheduled; simp

@[simp] theorem scheduled_link_beaconSfn (fr : TxFrame) (sfn : Nat) (s : State) :
    (scheduled fr sfn s).link.beaconSfn = s.link.beaconSfn := by
  unfold scheduled; simp

@[simp] theorem scheduled_link_listenTo (fr : TxFrame) (sfn : Nat) (s : State) :
    (scheduled fr sfn s).link.listenTo = s.link.listenTo := by
  unfold scheduled; simp

@[simp] theorem dueUplink_link_beaconSfn (fr : TxFrame) (sfn : Nat) (hop : Option Nat) (c : LinkChannel) (s : State) :
    (dueUplink fr sfn hop c s).link.beaconSfn = s.link.beaconSfn := by
  unfold dueUplink; simp [scheduled_frame ..]

@[simp] theorem dueUplink_link_listenTo (fr : TxFrame) (sfn : Nat) (hop : Option Nat) (c : LinkChannel) (s : State) :
    (dueUplink fr sfn hop c s).link.listenTo = s.link.listenTo := by
  unfold dueUplink; simp [scheduled_frame ..]

@[simp] theorem keepTags_link_slotSfn (t0 : Int) (k : Nat) (s : State) : (keepTags t0 k s).link.slotSfn =
    s.link.slotSfn := by
  unfold keepTags; simp

@[simp] theorem keepTags_link_beaconSfn (t0 : Int) (k : Nat) (s : State) : (keepTags t0 k s).link.beaconSfn =
    s.link.beaconSfn := by
  unfold keepTags; simp

@[simp] theorem keepTags_link_listenTo (t0 : Int) (k : Nat) (s : State) : (keepTags t0 k s).link.listenTo =
    s.link.listenTo := by
  unfold keepTags; simp

@[simp] theorem keepTags_link_air (t0 : Int) (k : Nat) (s : State) : (keepTags t0 k s).link.air = s.link.air := by
  unfold keepTags; simp

@[simp] theorem beaconTaken_link_slotSfn (s : State) : (beaconTaken s).link.slotSfn = s.link.slotSfn := by
  unfold beaconTaken; simp

@[simp] theorem beaconTaken_link_listenTo (s : State) : (beaconTaken s).link.listenTo = s.link.listenTo := by
  unfold beaconTaken; simp

@[simp] theorem beaconTaken_link_air (s : State) : (beaconTaken s).link.air = s.link.air := by
  unfold beaconTaken; simp

@[simp] theorem beaconTaken_link_beaconSfn (s : State) :
    (beaconTaken s).link.beaconSfn = some (sfnAt (linkNet s) (linkTime s)) := by
  unfold beaconTaken takeCounter; dsimp only; split <;> simp [writeCounters]

@[simp] theorem beaconTaken_link_counter (s : State) : (beaconTaken s).link.counter = min (s.link.counter + 1) 0xFFFFFFFF := by
  unfold beaconTaken takeCounter; dsimp only; split <;> simp [writeCounters]

@[simp] theorem sendBeacon_link_slotSfn (s : State) : (sendBeacon s).link.slotSfn = s.link.slotSfn := by
  unfold sendBeacon; dsimp only; (repeat' split) <;> simp

@[simp] theorem sendBeacon_link_listenTo (s : State) : (sendBeacon s).link.listenTo = s.link.listenTo := by
  unfold sendBeacon; dsimp only; (repeat' split) <;> simp

@[simp] theorem listenUntil_link_slotSfn (t : Int) (s : State) : (listenUntil t s).link.slotSfn = s.link.slotSfn := by
  unfold listenUntil; simp

@[simp] theorem listenUntil_link_beaconSfn (t : Int) (s : State) : (listenUntil t s).link.beaconSfn = s.link.beaconSfn
    := by
  unfold listenUntil; simp

@[simp] theorem listenUntil_link_air (t : Int) (s : State) : (listenUntil t s).link.air = s.link.air := by
  unfold listenUntil; simp

@[simp] theorem judgeTx_link_slotSfn (sfn : Nat) (tags : List Nat) (stamp : Tick) (s : State) : (judgeTx sfn tags
    stamp s).link.slotSfn = s.link.slotSfn := by
  unfold judgeTx; simp

@[simp] theorem judgeTx_link_beaconSfn (sfn : Nat) (tags : List Nat) (stamp : Tick) (s : State) : (judgeTx sfn tags
    stamp s).link.beaconSfn = s.link.beaconSfn := by
  unfold judgeTx; simp

@[simp] theorem judgeTx_link_listenTo (sfn : Nat) (tags : List Nat) (stamp : Tick) (s : State) : (judgeTx sfn tags
    stamp s).link.listenTo = s.link.listenTo := by
  unfold judgeTx; simp

@[simp] theorem judgeTx_link_air (sfn : Nat) (tags : List Nat) (stamp : Tick) (s : State) : (judgeTx sfn tags stamp
    s).link.air = s.link.air := by
  unfold judgeTx; simp

@[simp] theorem freeRx_link_slotSfn (lane sl : Nat) (s : State) : (freeRx lane sl s).link.slotSfn = s.link.slotSfn :=
    by
  unfold freeRx; simp

@[simp] theorem freeRx_link_beaconSfn (lane sl : Nat) (s : State) : (freeRx lane sl s).link.beaconSfn =
    s.link.beaconSfn := by
  unfold freeRx; simp

@[simp] theorem freeRx_link_listenTo (lane sl : Nat) (s : State) : (freeRx lane sl s).link.listenTo = s.link.listenTo
    := by
  unfold freeRx; simp

@[simp] theorem freeRx_link_air (lane sl : Nat) (s : State) : (freeRx lane sl s).link.air = s.link.air := by
  unfold freeRx; simp

@[simp] theorem takeRx_link_slotSfn (lane : Nat) (c : LinkCand) (s : State) : (takeRx lane c s).link.slotSfn =
    s.link.slotSfn := by
  unfold takeRx; simp

@[simp] theorem takeRx_link_beaconSfn (lane : Nat) (c : LinkCand) (s : State) : (takeRx lane c s).link.beaconSfn =
    s.link.beaconSfn := by
  unfold takeRx; simp

@[simp] theorem takeRx_link_listenTo (lane : Nat) (c : LinkCand) (s : State) : (takeRx lane c s).link.listenTo =
    s.link.listenTo := by
  unfold takeRx; simp

@[simp] theorem takeRx_link_air (lane : Nat) (c : LinkCand) (s : State) : (takeRx lane c s).link.air = s.link.air :=
    by
  unfold takeRx; simp

@[simp] theorem enterRecent_link_slotSfn (node counter : Nat) (sync : Tick) (s : State) : (enterRecent node counter
    sync s).link.slotSfn = s.link.slotSfn := by
  unfold enterRecent; simp

@[simp] theorem enterRecent_link_beaconSfn (node counter : Nat) (sync : Tick) (s : State) : (enterRecent node counter
    sync s).link.beaconSfn = s.link.beaconSfn := by
  unfold enterRecent; simp

@[simp] theorem enterRecent_link_listenTo (node counter : Nat) (sync : Tick) (s : State) : (enterRecent node counter
    sync s).link.listenTo = s.link.listenTo := by
  unfold enterRecent; simp

@[simp] theorem enterRecent_link_air (node counter : Nat) (sync : Tick) (s : State) : (enterRecent node counter sync
    s).link.air = s.link.air := by
  unfold enterRecent; simp

@[simp] theorem acknowledge_link_slotSfn (node counter : Nat) (sync : Tick) (s : State) : (acknowledge node counter
    sync s).link.slotSfn = s.link.slotSfn := by
  unfold acknowledge; simp

@[simp] theorem acknowledge_link_beaconSfn (node counter : Nat) (sync : Tick) (s : State) : (acknowledge node counter
    sync s).link.beaconSfn = s.link.beaconSfn := by
  unfold acknowledge; simp

@[simp] theorem acknowledge_link_listenTo (node counter : Nat) (sync : Tick) (s : State) : (acknowledge node counter
    sync s).link.listenTo = s.link.listenTo := by
  unfold acknowledge; simp

@[simp] theorem acknowledge_link_air (node counter : Nat) (sync : Tick) (s : State) : (acknowledge node counter sync
    s).link.air = s.link.air := by
  unfold acknowledge; simp

@[simp] theorem acceptBeacon_link_slotSfn (lane : Nat) (c : RxFrame) (m : LinkRx) (h : HeaderBits) (b : BodyBits) (p
    : List Byte) (s : State) : (acceptBeacon lane c m h b p s).link.slotSfn = s.link.slotSfn := by
  unfold acceptBeacon; simp

@[simp] theorem acceptBeacon_link_listenTo (lane : Nat) (c : RxFrame) (m : LinkRx) (h : HeaderBits) (b : BodyBits) (p
    : List Byte) (s : State) : (acceptBeacon lane c m h b p s).link.listenTo = s.link.listenTo := by
  unfold acceptBeacon; simp

@[simp] theorem acceptBeacon_link_air (lane : Nat) (c : RxFrame) (m : LinkRx) (h : HeaderBits) (b : BodyBits) (p :
    List Byte) (s : State) : (acceptBeacon lane c m h b p s).link.air = s.link.air := by
  unfold acceptBeacon; simp

@[simp] theorem nodeFrame_link_slotSfn (lane : Nat) (c : RxFrame) (m : LinkRx) (hw : BitVec 24) (b : BodyBits) (body
    : List Byte) (s : State) : (nodeFrame lane c m hw b body s).link.slotSfn = s.link.slotSfn := by
  unfold nodeFrame; dsimp only; (repeat' split) <;> simp

@[simp] theorem nodeFrame_link_listenTo (lane : Nat) (c : RxFrame) (m : LinkRx) (hw : BitVec 24) (b : BodyBits) (body
    : List Byte) (s : State) : (nodeFrame lane c m hw b body s).link.listenTo = s.link.listenTo := by
  unfold nodeFrame; dsimp only; (repeat' split) <;> simp

@[simp] theorem nodeFrame_link_air (lane : Nat) (c : RxFrame) (m : LinkRx) (hw : BitVec 24) (b : BodyBits) (body :
    List Byte) (s : State) : (nodeFrame lane c m hw b body s).link.air = s.link.air := by
  unfold nodeFrame; dsimp only; (repeat' split) <;> simp

@[simp] theorem gathererFrame_link_slotSfn (lane : Nat) (c : RxFrame) (m : LinkRx) (hw : BitVec 24) (b : BodyBits)
    (body : List Byte) (s : State) : (gathererFrame lane c m hw b body s).link.slotSfn = s.link.slotSfn := by
  unfold gathererFrame; dsimp only; (repeat' split) <;> simp

@[simp] theorem gathererFrame_link_beaconSfn (lane : Nat) (c : RxFrame) (m : LinkRx) (hw : BitVec 24) (b : BodyBits)
    (body : List Byte) (s : State) : (gathererFrame lane c m hw b body s).link.beaconSfn = s.link.beaconSfn := by
  unfold gathererFrame; dsimp only; (repeat' split) <;> simp

@[simp] theorem gathererFrame_link_listenTo (lane : Nat) (c : RxFrame) (m : LinkRx) (hw : BitVec 24) (b : BodyBits)
    (body : List Byte) (s : State) : (gathererFrame lane c m hw b body s).link.listenTo = s.link.listenTo := by
  unfold gathererFrame; dsimp only; (repeat' split) <;> simp

@[simp] theorem gathererFrame_link_air (lane : Nat) (c : RxFrame) (m : LinkRx) (hw : BitVec 24) (b : BodyBits) (body
    : List Byte) (s : State) : (gathererFrame lane c m hw b body s).link.air = s.link.air := by
  unfold gathererFrame; dsimp only; (repeat' split) <;> simp

/-- A dropped frame leaves the queue, and nothing else of the link changes (R462). -/
@[simp] theorem dropTx_link (fr : TxFrame) (reason : Nat) (c : Option Nat) (s : State) : (dropTx fr reason c s).link =
    { s.link with queue := s.link.queue.filter (fun x => x.counter != fr.counter) } := by
  unfold dropTx; simp [removeTx]

/-- Deferring a frame changes the queue of the link, and nothing else of it (R431). -/
theorem deferTx_link (fr : TxFrame) (reason next : Nat) (duty : Option (Nat × Nat)) (s : State) :
    (deferTx fr reason next duty s).link = { s.link with queue := (deferTx fr reason next duty s).link.queue } := by
  unfold deferTx; split
  · simp [modTx]
  · split <;> simp [postExhausted]

/-- Choosing a LOST node's frame changes the queue of the link, and nothing else of it (R456, R465). -/
theorem pickFallback_link (sfn k : Nat) (s : State) :
    (pickFallback sfn k s).2.link = { s.link with queue := (pickFallback sfn k s).2.link.queue } := by
  induction k generalizing s with
  | zero => rfl
  | succ k ih =>
    unfold pickFallback; split
    · dsimp only; split
      · exact deferTx_link _ _ _ _ _
      · rw [ih]; rw [deferTx_link]
    · rfl

/-- Dropping frames one after another takes each of them off the queue. -/
theorem dropFrames_link (l : List TxFrame) (reason : Nat) (c : Option Nat) (s : State) :
    (l.foldl (fun t fr => dropTx fr reason c t) s).link =
      { s.link with queue := s.link.queue.filter (fun x => l.all (fun fr => x.counter != fr.counter)) } := by
  induction l generalizing s with
  | nil => simp
  | cons a l ih => simp [ih, List.filter_filter, Bool.and_comm]

/-- After every queued frame is dropped the queue is empty (R433). -/
@[simp] theorem dropAllTx_link (reason : Nat) (c : Option Nat) (s : State) :
    (dropAllTx reason c s).link = { s.link with queue := [] } := by
  unfold dropAllTx
  rw [dropFrames_link]
  have e : s.link.queue.filter (fun x => s.link.queue.all (fun fr => x.counter != fr.counter)) = [] := by
    rw [List.filter_eq_nil_iff]
    intro x hx k
    rw [List.all_eq_true] at k
    simpa using k x hx
  rw [e]

/-- Nothing is on air after a transmission ends (R145, R434). -/
@[simp] theorem endAir_air (s : State) : (endAir s).link.air = none := by
  unfold endAir
  split
  · assumption
  · dsimp only
    simp only [radioRest_link_air]
    split
    · split <;> simp
    · simp

/-- At the end of a transmission the AGC's freeze is set to end 50 us later (R145). -/
theorem endAir_front (s : State) (x : OnAir) (h : s.link.air = some x) :
    (endAir s).front = { s.front with txUntil := some (now s + usTicks 50) } := by
  unfold endAir; rw [h]; dsimp only
  split
  · split <;> simp [radioRest_frame .., reportTx_frame .., now]
  · simp [radioRest_frame .., now]

@[simp] theorem cutAir_air (s : State) : (cutAir s).link.air = none := by
  unfold cutAir; split
  · simp
  · simp_all

/-- A frame that goes on air: the radio transmits, receptions are abandoned, and the frame is put out last (R432, R434). -/
theorem goOnAir_air (a : TxAsk) (sub : Nat) (frame : Option Nat) (last : Bool) (s : State) :
    (goOnAir a sub frame last s).link.air = some
      { frame := frame, started := now s, airtime := askTicks a, last := last, channel := a.centre } ∧
    (goOnAir a sub frame last s).link.radio = .tx ∧ (goOnAir a sub frame last s).link.rx = [] := by
  unfold goOnAir; dsimp only; simp [chargeLedger_frame .., noteDrive_frame .., now, countLink]

/-- A frame that passes every check goes on air (R432). -/
theorem sendTx_sends {a : TxAsk} {fr : TxFrame} {p : Profile} {c w sub : Nat} {s : State} (h : MaySend a fr p c w sub s)
    (next : Nat) (last : Bool) : sendTx a fr next last s =
      goOnAir { a with centre := c, width := w } sub (some fr.counter) last
        (markSent { a with centre := c, width := w } sub fr s) := by
  unfold sendTx
  rw [if_neg (by simp [h.counters, h.counter]), h.profile]
  dsimp only
  rw [h.channel]; dsimp only
  rw [h.permitted]; dsimp only
  rw [if_neg h.once, if_neg (by have := h.budget; omega)]

/-- A node listens until the time it is told (R408). -/
@[simp] theorem listenUntil_link_listenTo (t : Int) (s : State) :
    (listenUntil t s).link.listenTo = now s + (t - linkTime s).toNat := by
  unfold listenUntil radioGo; dsimp only; (repeat' split) <;> simp

/-- Listening does not change the time of the link's network. -/
@[simp] theorem listenUntil_linkTime (t : Int) (s : State) : linkTime (listenUntil t s) = linkTime s := by
  unfold listenUntil radioGo linkTime gatherTime; dsimp only; (repeat' split) <;> simp

@[simp] theorem listenUntil_link_window (t : Int) (s : State) : (listenUntil t s).link.window = s.link.window := by
  unfold listenUntil radioGo; dsimp only; (repeat' split) <;> simp

/-- A frame that is due is scheduled in its superframe, whatever comes of it (R456). -/
@[simp] theorem dueUplink_link_slotSfn (fr : TxFrame) (sfn : Nat) (hop : Option Nat) (c : LinkChannel) (s : State) :
    (dueUplink fr sfn hop c s).link.slotSfn = some sfn := by
  unfold dueUplink; dsimp only; split <;> simp

/-- The end of a stop with no settings waiting: the link is OFF and the radio sleeps (R406, R433). -/
theorem finishStop_plain (c : Option Nat) {s : State} (h : s.link.newConfig = none) : finishStop c s = { s with
    port := (finishStop c s).port, out := (finishStop c s).out
    link := { s.link with state := .off, stopping := false, radio := .sleep, radioTo := none, rx := [], heldTx := none } } := by
  unfold finishStop setLinkState; dsimp only
  split <;> simp_all
  apply state_ext <;> simp

end Sys2Proof.Machine
end

