-- ==== Sys2Proof/Laws/Time.lean ====
section
/-!
SUPPORT. Time.lean: what the operations of the time base leave of Plumb, and what reaching a second and applying a step leave
of device time.
-/

namespace Sys2Proof.Machine

@[simp] theorem foldl_time_plumb {α : Type} (h : State → α → State) (H : ∀ b a, (h b a).time.plumb = b.time.plumb) (l : List α)
    (b : State) : (l.foldl h b).time.plumb = b.time.plumb := foldl_keeps (fun s : State => s.time.plumb) H l b
@[simp] theorem ite_time_plumb (c : Prop) [Decidable c] (a b : TimeS) :
    (if c then a else b).plumb = if c then a.plumb else b.plumb := by split <;> rfl
@[simp] theorem pass_time_plumb (n : Nat) (s : State) : (pass n s).time.plumb = s.time.plumb := by
  unfold pass; simp

@[simp] theorem passTo_time_plumb (due : Nat) (s : State) : (passTo due s).time.plumb = s.time.plumb := by
  unfold passTo; simp

@[simp] theorem offerShaving_time_plumb (n : Nat) (h : ShavingHdr) (payload : List Byte) (group : Nat) (s : State) :
    (offerShaving n h payload group s).time.plumb = s.time.plumb := by
  unfold offerShaving; simp [dropUntilFits_frame ..]

@[simp] theorem reach_time_plumb (t : Int) (s : State) : (reach t s).time.plumb = s.time.plumb := by
  unfold reach; simp

@[simp] theorem offerLink_time_plumb (stamp : Tick) (p : List Byte) (s : State) : (offerLink stamp p s).time.plumb =
    s.time.plumb := by
  unfold offerLink; (repeat' split) <;> simp_all

@[simp] theorem reportTx_time_plumb (fr : TxFrame) (status : Nat) (stamp : Tick) (s : State) : (reportTx fr status
    stamp s).time.plumb = s.time.plumb := by
  unfold reportTx; simp [removeTx_frame ..]

@[simp] theorem endAir_time_plumb (s : State) : (endAir s).time.plumb = s.time.plumb := by
  unfold endAir; dsimp only; (repeat' split) <;> simp [radioRest_frame ..]

@[simp] theorem cutAir_time_plumb (s : State) : (cutAir s).time.plumb = s.time.plumb := by
  unfold cutAir; simp

/-- Between two states only the count, its fraction, the rest of a slew and the counting clock of device time differ (R97). -/
def TimeMoved (s t : State) : Prop := t.time = { s.time with
  count := t.time.count, sub := t.time.sub, slewLeft := t.time.slewLeft, onAon := t.time.onAon, aonCount := t.time.aonCount }

theorem TimeMoved.trans {s t u : State} (h : TimeMoved s t) (k : TimeMoved t u) : TimeMoved s u := by
  unfold TimeMoved at *; rw [k, h]

theorem TimeMoved.move {s t u : State} (h : TimeMoved s t) {c : Tick} {b : Nat} {l : Int}
    (k : u.time = { t.time with count := c, sub := b, slewLeft := l }) : TimeMoved s u := by
  unfold TimeMoved at *; rw [k]; dsimp only; rw [h]

/-- Time passing moves the count, and changes nothing else of device time (R97). -/
theorem passTo_time (d : Nat) (s : State) : TimeMoved s (passTo d s) := by
  unfold TimeMoved passTo pass; dsimp only; split <;> rfl

/-- Reaching a second moves the count, and changes nothing else of device time (R97). -/
theorem toSecond_time (s : State) : TimeMoved s (toSecond s) := by
  have hu : TimeMoved s (if handOverDue s = true then passTo (aonEdge (now s)) s else s) := by
    split
    · exact passTo_time _ _
    · rfl
  unfold toSecond
  split
  · rfl
  · dsimp only
    generalize (if handOverDue s = true then passTo (aonEdge (now s)) s else s) = u at hu ⊢
    split
    · exact hu
    · split
      · exact hu.trans (passTo_time _ u)
      · exact hu.move rfl

/-- Coasting freezes the control value: only Plumb's state and the slew in progress change of device time (R106). -/
theorem coast_time (c : Option Nat) (s : State) : (coast c s).time = { s.time with
    plumb := (coast c s).time.plumb, slewLeft := (coast c s).time.slewLeft } := by
  unfold coast; split
  · rfl
  · dsimp only; split <;> simp

/-- From every state but FREE, a lost reference leaves Plumb coasting (R106). -/
theorem coast_plumb (c : Option Nat) {s : State} (h : s.time.plumb ≠ .free) : (coast c s).time.plumb = .coasting := by
  unfold coast; split
  · rename_i k; simp [h] at k; exact k
  · dsimp only; split <;> simp

theorem coastLater_plumb {s : State} (h : s.time.plumb ≠ .free) : (coastLater s).time.plumb = .coasting := by
  unfold coastLater; split
  · rename_i k; simp [h] at k; exact k
  · dsimp only; split <;> simp

end Sys2Proof.Machine
end

