-- ==== Sys2Proof/Laws/Cal.lean ====
section
/-!
SUPPORT. Cal.lean: what the shared operations on converters leave of each of them (R511 to R525).
-/

namespace Sys2Proof.Machine

/-- Time passes until the due instant, and not at all when it is past. -/
theorem now_passTo (d : Nat) (s : State) : now (passTo d s) = max (now s) d := by
  simp [now]; omega

/-- Time passing changes the clock and device time only. -/
theorem passTo_only (d : Nat) (s : State) : passTo d s = { s with clk := (passTo d s).clk, time := (passTo d s).time } := by
  unfold passTo pass; dsimp only; split <;> rfl

/-- One converter after a change of one converter. -/
theorem adcAt_modAdc (a b : Nat) (g : AdcCal → AdcCal) (s : State) :
    adcAt (modAdc a g s) b = if a = b ∧ b < s.cal.adcs.length then g (adcAt s b) else adcAt s b := by
  unfold adcAt modAdc; exact modAt_getD _ _ _ _ _

/-- A converter depends on the calibration state only. -/
theorem adcAt_congr {s t : State} (h : t.cal = s.cal) (a : Nat) : adcAt t a = adcAt s a := by unfold adcAt; rw [h]

@[simp] theorem adcAt_passTo (d : Nat) (s : State) (a : Nat) : adcAt (passTo d s) a = adcAt s a := adcAt_congr (by simp [passTo_frame ..]) a

@[simp] theorem modAdc_adcs_length (a : Nat) (g : AdcCal → AdcCal) (s : State) :
    (modAdc a g s).cal.adcs.length = s.cal.adcs.length := by unfold modAdc; simp

/-- A change of a converter touches the converters only. -/
theorem modAdc_only (a : Nat) (g : AdcCal → AdcCal) (s : State) :
    modAdc a g s = { s with cal := { s.cal with adcs := (modAdc a g s).cal.adcs } } := rfl

@[simp] theorem modAdc_record (a : Nat) (g : AdcCal → AdcCal) (s : State) : (modAdc a g s).cal.record = s.cal.record := rfl

@[simp] theorem modAdc_runs (a : Nat) (g : AdcCal → AdcCal) (s : State) : (modAdc a g s).cal.runs = s.cal.runs := rfl

@[simp] theorem adcAt_modRecordAdc (a b : Nat) (g : CalAdc → CalAdc) (s : State) : adcAt (modRecordAdc a g s) b = adcAt s b := rfl

@[simp] theorem modRecordAdc_adcs (a : Nat) (g : CalAdc → CalAdc) (s : State) : (modRecordAdc a g s).cal.adcs = s.cal.adcs := rfl

@[simp] theorem adcAt_calChanged (b : Nat) (s : State) : adcAt (calChanged s) b = adcAt s b := rfl

@[simp] theorem calChanged_cal (s : State) : (calChanged s).cal = s.cal := rfl

/-- A recorded line or spare of one converter after a change of one. -/
theorem recordAdc_getD (a b : Nat) (g : CalAdc → CalAdc) (s : State) :
    (modRecordAdc a g s).cal.record.adcs.getD b {} =
      if a = b ∧ b < s.cal.record.adcs.length then g (s.cal.record.adcs.getD b {}) else s.cal.record.adcs.getD b {} :=
  modAt_getD _ _ _ _ _

/-- Gaps in chains leave the calibration state alone. -/
theorem gapChains_cal (l : List ChainOwner) (s : State) : (l.foldl (fun t o => gapChain o t) s).cal = s.cal :=
  foldl_keeps (fun t : State => t.cal) (fun b o => by simp [gapChain_frame ..]) l s

/-- Gaps in chains take no time. -/
theorem gapChains_now (l : List ChainOwner) (s : State) : now (l.foldl (fun t o => gapChain o t) s) = now s :=
  foldl_keeps (fun t : State => now t) (fun b o => by simp [gapChain_frame .., now]) l s

/-- An interruption takes its converter offline and no other (R517). -/
theorem adcAt_beginInterruption (a b : Nat) {s : State} (h : adcSteady s a = true) : adcAt (beginInterruption a s) b =
    if a = b ∧ b < s.cal.adcs.length then { adcAt s b with stats := false, deferred := false, interrupted := true, phaseAt := now s }
    else adcAt s b := by
  unfold beginInterruption; rw [if_pos h]; dsimp only
  rw [adcAt_modAdc, gapChains_cal, gapChains_now, adcAt_congr (gapChains_cal _ _)]

/-- An automatic run answers nobody (R524). -/
@[simp] theorem endAsked_automatic (a k r : Nat) (s : State) : endAsked a k r false s = s := rfl

/-- The note of an unqualified run changes of its converter only when it was last reported (R516). -/
theorem adcAt_noteUnqualified (a k q : Nat) (v : Int) (asked : Bool) (s : State) (b : Nat) :
    ∃ n, adcAt (noteUnqualified a k q v asked s) b = { adcAt s b with notedAt := n } := by
  have e : ∀ (p : List Byte) (c : Option Nat) (d : AdcCal → List (Nat × Nat)), ∃ n, adcAt (modAdc a (fun x => { x with notedAt := d x }) (post 0x8B00 {} p c s)) b =
      { adcAt s b with notedAt := n } := by
    intro p c d
    rw [adcAt_modAdc, adcAt_congr (t := post _ _ _ _ s) (s := s) (by simp)]
    split <;> exact ⟨_, rfl⟩
  unfold noteUnqualified; dsimp only
  split <;> split
  all_goals first | exact e _ _ _ | exact ⟨_, rfl⟩

@[simp] theorem adcAt_modWindow (w b : Nat) (g : Window → Window) (s : State) : adcAt (modWindow w g s) b = adcAt s b := rfl

/-- A finished ramp's table point leaves the converters alone (R521). -/
@[simp] theorem adcAt_storePoint (a b : Nat) (s : State) : adcAt (storePoint a s) b = adcAt s b := by
  unfold storePoint; split
  · dsimp only; rw [apply_ite (fun t => adcAt t b)]; exact ite_self _
  · rfl

@[simp] theorem now_storePoint (a : Nat) (s : State) : now (storePoint a s) = now s := by simp [storePoint_frame ..,
    now]

/-- A converter's window does not depend on the calibration state, the clock or device time. -/
theorem adcFeedsFade_modAdc (a b d : Nat) (g : AdcCal → AdcCal) (s : State) :
    adcFeedsFade (modAdc b g (passTo d s)) a = adcFeedsFade s a := by
  rw [passTo_only]; rfl

/-- A change of the core supply leaves the calibration record alone (R526). -/
@[simp] theorem setVdd_record (v : Nat) (s : State) : (setVdd v s).cal.record = s.cal.record := by
  unfold setVdd; split
  · rfl
  · simp [queueSupply_frame ..]

/-- The runs a CAL_RUN starts change converters only (R512). -/
theorem startRuns_only (l : List CalRun) (s : State) : l.foldl (fun t r => startRun r t) s =
    { s with cal := { s.cal with adcs := (l.foldl (fun t r => startRun r t) s).cal.adcs } } := by
  induction l generalizing s with
  | nil => rfl
  | cons r l ih =>
    have e : startRun r s = { s with cal := { s.cal with adcs := (startRun r s).cal.adcs } } := by
      unfold startRun; split
      · rfl
      · exact modAdc_only _ _ _
    rw [List.foldl_cons, ih (startRun r s), e]

/-- A CAL_RUN with a run outstanding waits (R524). -/
theorem calRunEnds_waits {s : State} (h : ∃ r ∈ s.cal.runs, r.result = none) : calRunEnds s = s := by
  unfold calRunEnds; dsimp only
  rw [if_neg]
  obtain ⟨r, hr, e⟩ := h
  simp; exact ⟨r, hr, e⟩

/-- A reading within the step limit is kept and triggers nothing (R511). -/
theorem compareTemperature_within {s t : State} {x : Int} {i : Nat} (h : t = { s with cal := { s.cal with adcs := t.cal.adcs } })
    (hi : i < t.cal.adcs.length) (ha : adcAt t i = adcAt s i) (hx : (x - (adcAt s i).reference).natAbs ≤ 16 * deltaT s) :
    compareTemperature t (x, i) = modAdc i (fun c => { c with temp := x }) t := by
  have d : deltaT (modAdc i (fun c => { c with temp := x }) t) = deltaT s := by rw [h]; rfl
  unfold compareTemperature; dsimp only
  rw [if_neg]
  rw [adcAt_modAdc, if_pos ⟨rfl, hi⟩, d, ha]
  simp; intro k; omega

/-- Readings within the step limit are kept and trigger nothing (R511). -/
theorem compareTemperatures_within {s : State} (l : List Int) (k : Nat) (t : State)
    (h : t = { s with cal := { s.cal with adcs := t.cal.adcs } }) (hl : k + l.length ≤ t.cal.adcs.length)
    (ha : ∀ i, k ≤ i → adcAt t i = adcAt s i) (hx : ∀ i, i < l.length → (l.getD i 0 - (adcAt s (k + i)).reference).natAbs ≤ 16 * deltaT s) :
    (let u := (l.zipIdx k).foldl compareTemperature t
     u = { s with cal := { s.cal with adcs := u.cal.adcs } } ∧
     ∀ i, adcAt u i = if k ≤ i ∧ i < k + l.length then { adcAt s i with temp := l.getD (i - k) 0 } else adcAt t i) := by
  induction l generalizing k t with
  | nil => exact ⟨h, fun i => by rw [if_neg (by simp)]; rfl⟩
  | cons x l ih =>
    have hk : k < t.cal.adcs.length := by simp at hl; omega
    have e := compareTemperature_within h hk (ha k (le_refl k)) (by simpa using hx 0 (by simp))
    have h' : modAdc k (fun c => { c with temp := x }) t = { s with cal := { s.cal with
        adcs := (modAdc k (fun c => { c with temp := x }) t).cal.adcs } } := by
      rw [modAdc_only, h]
    have := ih (k + 1) (modAdc k (fun c => { c with temp := x }) t) h' (by simp at hl ⊢; omega)
      (fun i hi => by rw [adcAt_modAdc, if_neg (by omega)]; exact ha i (by omega))
      (fun i hi => by have := hx (i + 1) (by simpa using hi); simpa [Nat.add_comm, Nat.add_left_comm] using this)
    dsimp only
    rw [List.zipIdx_cons, List.foldl_cons, e]
    refine ⟨this.1, fun i => ?_⟩
    rw [this.2 i]
    by_cases c : k = i
    · subst c
      rw [if_neg (by omega), if_pos (by simp), adcAt_modAdc, if_pos ⟨rfl, hk⟩, ha _ (le_refl _)]
      simp
    · by_cases c2 : k + 1 ≤ i ∧ i < k + 1 + l.length
      · rw [if_pos c2, if_pos (by simp; omega)]
        have : i - k = (i - (k + 1)) + 1 := by omega
        rw [this]; simp
      · rw [if_neg c2, if_neg (by simp; omega), adcAt_modAdc, if_neg (by omega)]

end Sys2Proof.Machine
end

