-- ==== Sys2Proof/Laws/Parts.lean ====
section
/-!
SUPPORT. Parts.lean: which parts of the windows, receptions, follow objects, pairs, plan and waiting responses each operation keeps.
-/

namespace Sys2Proof.Machine

@[simp] theorem foldl_front_windows {α : Type} (h : State → α → State) (H : ∀ b a, (h b a).front.windows = b.front.windows) (l : List α)
    (b : State) : (l.foldl h b).front.windows = b.front.windows := foldl_keeps (fun s : State => s.front.windows) H l b
@[simp] theorem ite_front_windows (c : Prop) [Decidable c] (a b : FrontS) :
    (if c then a else b).windows = if c then a.windows else b.windows := by split <;> rfl
@[simp] theorem foldl_head_deferred {α : Type} (h : State → α → State) (H : ∀ b a, (h b a).head.deferred = b.head.deferred) (l : List α)
    (b : State) : (l.foldl h b).head.deferred = b.head.deferred := foldl_keeps (fun s : State => s.head.deferred) H l b
@[simp] theorem ite_head_deferred (c : Prop) [Decidable c] (a b : HeadS) :
    (if c then a else b).deferred = if c then a.deferred else b.deferred := by split <;> rfl
@[simp] theorem foldl_plan_committing {α : Type} (h : State → α → State) (H : ∀ b a, (h b a).plan.committing = b.plan.committing) (l : List α)
    (b : State) : (l.foldl h b).plan.committing = b.plan.committing := foldl_keeps (fun s : State => s.plan.committing) H l b
@[simp] theorem ite_plan_committing (c : Prop) [Decidable c] (a b : PlanS) :
    (if c then a else b).committing = if c then a.committing else b.committing := by split <;> rfl
@[simp] theorem foldl_plan_starting {α : Type} (h : State → α → State) (H : ∀ b a, (h b a).plan.starting = b.plan.starting) (l : List α)
    (b : State) : (l.foldl h b).plan.starting = b.plan.starting := foldl_keeps (fun s : State => s.plan.starting) H l b
@[simp] theorem ite_plan_starting (c : Prop) [Decidable c] (a b : PlanS) :
    (if c then a else b).starting = if c then a.starting else b.starting := by split <;> rfl
@[simp] theorem foldl_mix_blends {α : Type} (h : State → α → State) (H : ∀ b a, (h b a).mix.blends = b.mix.blends) (l : List α)
    (b : State) : (l.foldl h b).mix.blends = b.mix.blends := foldl_keeps (fun s : State => s.mix.blends) H l b
@[simp] theorem ite_mix_blends (c : Prop) [Decidable c] (a b : MixS) :
    (if c then a else b).blends = if c then a.blends else b.blends := by split <;> rfl
@[simp] theorem foldl_prog_receptions {α : Type} (h : State → α → State) (H : ∀ b a, (h b a).prog.receptions = b.prog.receptions) (l : List α)
    (b : State) : (l.foldl h b).prog.receptions = b.prog.receptions := foldl_keeps (fun s : State => s.prog.receptions) H l b
@[simp] theorem ite_prog_receptions (c : Prop) [Decidable c] (a b : ProgS) :
    (if c then a else b).receptions = if c then a.receptions else b.receptions := by split <;> rfl
@[simp] theorem foldl_prog_follows {α : Type} (h : State → α → State) (H : ∀ b a, (h b a).prog.follows = b.prog.follows) (l : List α)
    (b : State) : (l.foldl h b).prog.follows = b.prog.follows := foldl_keeps (fun s : State => s.prog.follows) H l b
@[simp] theorem ite_prog_follows (c : Prop) [Decidable c] (a b : ProgS) :
    (if c then a else b).follows = if c then a.follows else b.follows := by split <;> rfl
@[simp] theorem foldl_prog_probes {α : Type} (h : State → α → State) (H : ∀ b a, (h b a).prog.probes = b.prog.probes) (l : List α)
    (b : State) : (l.foldl h b).prog.probes = b.prog.probes := foldl_keeps (fun s : State => s.prog.probes) H l b
@[simp] theorem ite_prog_probes (c : Prop) [Decidable c] (a b : ProgS) :
    (if c then a else b).probes = if c then a.probes else b.probes := by split <;> rfl
@[simp] theorem foldl_prog_branches {α : Type} (h : State → α → State) (H : ∀ b a, (h b a).prog.branches = b.prog.branches) (l : List α)
    (b : State) : (l.foldl h b).prog.branches = b.prog.branches := foldl_keeps (fun s : State => s.prog.branches) H l b
@[simp] theorem ite_prog_branches (c : Prop) [Decidable c] (a b : ProgS) :
    (if c then a else b).branches = if c then a.branches else b.branches := by split <;> rfl
@[simp] theorem foldl_prog_taps {α : Type} (h : State → α → State) (H : ∀ b a, (h b a).prog.taps = b.prog.taps) (l : List α)
    (b : State) : (l.foldl h b).prog.taps = b.prog.taps := foldl_keeps (fun s : State => s.prog.taps) H l b
@[simp] theorem ite_prog_taps (c : Prop) [Decidable c] (a b : ProgS) :
    (if c then a else b).taps = if c then a.taps else b.taps := by split <;> rfl

@[simp] theorem bumpPlan_plan_committing (s : State) : (bumpPlan s).plan.committing = s.plan.committing := by
  unfold bumpPlan; simp

@[simp] theorem bumpPlan_plan_starting (s : State) : (bumpPlan s).plan.starting = s.plan.starting := by
  unfold bumpPlan; simp

@[simp] theorem modTuner_front_windows (t : Nat) (g : Tuner → Tuner) (s : State) : (modTuner t g s).front.windows =
    s.front.windows := by
  unfold modTuner; simp

@[simp] theorem modReception_prog_follows (i : Nat) (g : Reception → Reception) (s : State) : (modReception i g
    s).prog.follows = s.prog.follows := by
  unfold modReception; simp

@[simp] theorem modProgramme_prog_receptions (i : Nat) (g : Programme → Programme) (s : State) : (modProgramme i g
    s).prog.receptions = s.prog.receptions := by
  unfold modProgramme; simp

@[simp] theorem modProgramme_prog_follows (i : Nat) (g : Programme → Programme) (s : State) : (modProgramme i g
    s).prog.follows = s.prog.follows := by
  unfold modProgramme; simp

@[simp] theorem modProgramme_prog_probes (i : Nat) (g : Programme → Programme) (s : State) : (modProgramme i g
    s).prog.probes = s.prog.probes := by
  unfold modProgramme; simp

@[simp] theorem modProgramme_prog_branches (i : Nat) (g : Programme → Programme) (s : State) : (modProgramme i g
    s).prog.branches = s.prog.branches := by
  unfold modProgramme; simp

@[simp] theorem modProgramme_prog_taps (i : Nat) (g : Programme → Programme) (s : State) : (modProgramme i g
    s).prog.taps = s.prog.taps := by
  unfold modProgramme; simp

@[simp] theorem modChain_prog_follows (o : ChainOwner) (g : Chain → Chain) (s : State) : (modChain o g s).prog.follows
    = s.prog.follows := by
  unfold modChain; dsimp only; (repeat' split) <;> simp

@[simp] theorem mapChains_prog_follows (g : Chain → Chain) (s : State) : (mapChains g s).prog.follows = s.prog.follows
    := by
  unfold mapChains; simp

@[simp] theorem refreshTuners_front_windows (s : State) : (refreshTuners s).front.windows = s.front.windows := by
  unfold refreshTuners; simp

@[simp] theorem holdOver_prog_follows (o : ChainOwner) (s : State) : (holdOver o s).prog.follows = s.prog.follows :=
    by
  unfold holdOver; (repeat' split) <;> simp_all

@[simp] theorem takeSerial_head_deferred (s : State) : (takeSerial s).2.head.deferred = s.head.deferred := by
  unfold takeSerial; simp

@[simp] theorem unbind_plan_committing (cls : Nat) (h : Handle) (s : State) : (unbind cls h s).plan.committing =
    s.plan.committing := by
  unfold unbind; simp

@[simp] theorem unbind_plan_starting (cls : Nat) (h : Handle) (s : State) : (unbind cls h s).plan.starting =
    s.plan.starting := by
  unfold unbind; simp

@[simp] theorem modPcm_prog_receptions (i : Nat) (g : PcmOut → PcmOut) (s : State) : (modPcm i g s).prog.receptions =
    s.prog.receptions := by
  unfold modPcm; simp

@[simp] theorem modPcm_prog_follows (i : Nat) (g : PcmOut → PcmOut) (s : State) : (modPcm i g s).prog.follows =
    s.prog.follows := by
  unfold modPcm; simp

@[simp] theorem modPcm_prog_probes (i : Nat) (g : PcmOut → PcmOut) (s : State) : (modPcm i g s).prog.probes =
    s.prog.probes := by
  unfold modPcm; simp

@[simp] theorem modPcm_prog_branches (i : Nat) (g : PcmOut → PcmOut) (s : State) : (modPcm i g s).prog.branches =
    s.prog.branches := by
  unfold modPcm; simp

@[simp] theorem modPcm_prog_taps (i : Nat) (g : PcmOut → PcmOut) (s : State) : (modPcm i g s).prog.taps = s.prog.taps
    := by
  unfold modPcm; simp

@[simp] theorem drivePort_prog_receptions (x : PcmOut) (l : List AudioFrame) (s : State) : (drivePort x l
    s).prog.receptions = s.prog.receptions := by
  unfold drivePort; simp

@[simp] theorem drivePort_prog_follows (x : PcmOut) (l : List AudioFrame) (s : State) : (drivePort x l s).prog.follows
    = s.prog.follows := by
  unfold drivePort; simp

@[simp] theorem drivePort_prog_probes (x : PcmOut) (l : List AudioFrame) (s : State) : (drivePort x l s).prog.probes =
    s.prog.probes := by
  unfold drivePort; simp

@[simp] theorem drivePort_prog_branches (x : PcmOut) (l : List AudioFrame) (s : State) : (drivePort x l
    s).prog.branches = s.prog.branches := by
  unfold drivePort; simp

@[simp] theorem drivePort_prog_taps (x : PcmOut) (l : List AudioFrame) (s : State) : (drivePort x l s).prog.taps =
    s.prog.taps := by
  unfold drivePort; simp

@[simp] theorem drivePorts_prog_receptions (s : State) : (drivePorts s).prog.receptions = s.prog.receptions := by
  unfold drivePorts; simp

@[simp] theorem drivePorts_prog_follows (s : State) : (drivePorts s).prog.follows = s.prog.follows := by
  unfold drivePorts; simp

@[simp] theorem drivePorts_prog_probes (s : State) : (drivePorts s).prog.probes = s.prog.probes := by
  unfold drivePorts; simp

@[simp] theorem drivePorts_prog_branches (s : State) : (drivePorts s).prog.branches = s.prog.branches := by
  unfold drivePorts; simp

@[simp] theorem drivePorts_prog_taps (s : State) : (drivePorts s).prog.taps = s.prog.taps := by
  unfold drivePorts; simp

@[simp] theorem stopPcms_prog_follows (n : Nat) (pick : PcmOut → Bool) (s : State) : (stopPcms n pick s).prog.follows
    = s.prog.follows := by
  unfold stopPcms; simp

@[simp] theorem feedPair_prog_receptions (br : Nat) (rate : Nat) (l : List AudioFrame) (i : Nat) (s : State) :
    (feedPair br rate l i s).prog.receptions = s.prog.receptions := by
  unfold feedPair; dsimp only; (repeat' split) <;> simp

@[simp] theorem feedPair_prog_follows (br : Nat) (rate : Nat) (l : List AudioFrame) (i : Nat) (s : State) : (feedPair
    br rate l i s).prog.follows = s.prog.follows := by
  unfold feedPair; dsimp only; (repeat' split) <;> simp

@[simp] theorem feedPair_prog_probes (br : Nat) (rate : Nat) (l : List AudioFrame) (i : Nat) (s : State) : (feedPair
    br rate l i s).prog.probes = s.prog.probes := by
  unfold feedPair; dsimp only; (repeat' split) <;> simp

@[simp] theorem feedPair_prog_branches (br : Nat) (rate : Nat) (l : List AudioFrame) (i : Nat) (s : State) : (feedPair
    br rate l i s).prog.branches = s.prog.branches := by
  unfold feedPair; dsimp only; (repeat' split) <;> simp

@[simp] theorem feedPair_prog_taps (br : Nat) (rate : Nat) (l : List AudioFrame) (i : Nat) (s : State) : (feedPair br
    rate l i s).prog.taps = s.prog.taps := by
  unfold feedPair; dsimp only; (repeat' split) <;> simp

@[simp] theorem deliverAudio_prog_receptions (i : Nat) (l : List AudioFrame) (s : State) : (deliverAudio i l
    s).prog.receptions = s.prog.receptions := by
  unfold deliverAudio; dsimp only; (repeat' split) <;> simp

@[simp] theorem deliverAudio_prog_follows (i : Nat) (l : List AudioFrame) (s : State) : (deliverAudio i l
    s).prog.follows = s.prog.follows := by
  unfold deliverAudio; dsimp only; (repeat' split) <;> simp

@[simp] theorem deliverAudio_prog_probes (i : Nat) (l : List AudioFrame) (s : State) : (deliverAudio i l
    s).prog.probes = s.prog.probes := by
  unfold deliverAudio; dsimp only; (repeat' split) <;> simp

@[simp] theorem deliverAudio_prog_branches (i : Nat) (l : List AudioFrame) (s : State) : (deliverAudio i l
    s).prog.branches = s.prog.branches := by
  unfold deliverAudio; dsimp only; (repeat' split) <;> simp

@[simp] theorem deliverAudio_prog_taps (i : Nat) (l : List AudioFrame) (s : State) : (deliverAudio i l s).prog.taps =
    s.prog.taps := by
  unfold deliverAudio; dsimp only; (repeat' split) <;> simp

@[simp] theorem feedAudio_prog_follows (i : Nat) (k : Kind) (l : List AudioIn) (s : State) : (feedAudio i k l
    s).prog.follows = s.prog.follows := by
  unfold feedAudio; dsimp only; (repeat' split) <;> simp

@[simp] theorem countGap_prog_follows (o : ChainOwner) (blk : Block) (s : State) : (countGap o blk s).prog.follows =
    s.prog.follows := by
  unfold countGap; (repeat' split) <;> simp

@[simp] theorem restartLoudness_prog_follows (i : Nat) (s : State) : (restartLoudness i s).prog.follows =
    s.prog.follows := by
  unfold restartLoudness; simp

@[simp] theorem receptionTakes_prog_follows (i : Nat) (s : State) (b : Block) : (receptionTakes i s b).prog.follows =
    s.prog.follows := by
  unfold receptionTakes; dsimp only; (repeat' split) <;> simp

@[simp] theorem branchTakes_prog_follows (i : Nat) (s : State) (b : Block) : (branchTakes i s b).prog.follows =
    s.prog.follows := by
  unfold branchTakes; dsimp only; (repeat' split) <;> simp

@[simp] theorem probeTakes_prog_follows (i : Nat) (s : State) (b : Block) : (probeTakes i s b).prog.follows =
    s.prog.follows := by
  unfold probeTakes; simp

@[simp] theorem engineTake_prog_follows (o : ChainOwner) (l : List Block) (s : State) : (engineTake o l
    s).prog.follows = s.prog.follows := by
  unfold engineTake; (repeat' split) <;> simp

@[simp] theorem closeBlock_prog_follows (o : ChainOwner) (s : State) : (closeBlock o s).prog.follows = s.prog.follows
    := by
  unfold closeBlock; dsimp only; (repeat' split) <;> simp [deliverBlock_frame .., scaleBlock_frame .., noteLog_frame ..]

@[simp] theorem decodingStops_prog_receptions (i : Nat) (s : State) : (decodingStops i s).prog.receptions =
    s.prog.receptions := by
  unfold decodingStops; dsimp only; (repeat' split) <;> simp [postSilence_frame ..]

@[simp] theorem decodingStops_prog_follows (i : Nat) (s : State) : (decodingStops i s).prog.follows = s.prog.follows
    := by
  unfold decodingStops; dsimp only; (repeat' split) <;> simp [postSilence_frame ..]

@[simp] theorem endAlerts_prog_follows (i : Nat) (reason : Nat) (pick : Alert → Bool) (at' : Instant) (cause : Option
    Nat) (s : State) : (endAlerts i reason pick at' cause s).prog.follows = s.prog.follows := by
  unfold endAlerts; dsimp only; (repeat' split) <;> simp [reportAlert_frame ..]

@[simp] theorem acquire_prog_follows (i : Nat) (at' : Instant) (s : State) : (acquire i at' s).prog.follows =
    s.prog.follows := by
  unfold acquire; dsimp only; (repeat' split) <;> simp

@[simp] theorem loseReception_prog_follows (i : Nat) (cause : Nat) (at' : Instant) (by' : Option Nat) (s : State) :
    (loseReception i cause at' by' s).prog.follows = s.prog.follows := by
  unfold loseReception; dsimp only; (repeat' split) <;> simp [postLost_frame ..]

@[simp] theorem beginMeasures_prog_follows (i : Nat) (s : State) : (beginMeasures i s).prog.follows = s.prog.follows
    := by
  unfold beginMeasures; dsimp only; simp

@[simp] theorem startIntervals_prog_follows (i : Nat) (at' : Instant) (s : State) : (startIntervals i at'
    s).prog.follows = s.prog.follows := by
  unfold startIntervals; simp

@[simp] theorem releaseAudio_prog_receptions (i : Nat) (s : State) : (releaseAudio i s).prog.receptions =
    s.prog.receptions := by
  unfold releaseAudio; dsimp only; simp

@[simp] theorem releaseAudio_prog_follows (i : Nat) (s : State) : (releaseAudio i s).prog.follows = s.prog.follows :=
    by
  unfold releaseAudio; dsimp only; simp

@[simp] theorem releaseAudio_prog_probes (i : Nat) (s : State) : (releaseAudio i s).prog.probes = s.prog.probes := by
  unfold releaseAudio; dsimp only; simp

@[simp] theorem releaseAudio_prog_branches (i : Nat) (s : State) : (releaseAudio i s).prog.branches = s.prog.branches
    := by
  unfold releaseAudio; dsimp only; simp

@[simp] theorem releaseAudio_prog_taps (i : Nat) (s : State) : (releaseAudio i s).prog.taps = s.prog.taps := by
  unfold releaseAudio; dsimp only; simp

@[simp] theorem stopIntervals_prog_receptions (i : Nat) (s : State) : (stopIntervals i s).prog.receptions =
    s.prog.receptions := by
  unfold stopIntervals; simp

@[simp] theorem stopIntervals_prog_follows (i : Nat) (s : State) : (stopIntervals i s).prog.follows = s.prog.follows
    := by
  unfold stopIntervals; simp

@[simp] theorem freshProbe_prog_follows (i : Nat) (s : State) : (freshProbe i s).prog.follows = s.prog.follows := by
  unfold freshProbe; simp

@[simp] theorem freshOnMove_prog_follows (o : ChainOwner) (c : Chain) (s : State) : (freshOnMove o c s).prog.follows =
    s.prog.follows := by
  unfold freshOnMove; (repeat' split) <;> simp

@[simp] theorem restartChain_prog_follows (o : ChainOwner) (s : State) : (restartChain o s).prog.follows =
    s.prog.follows := by
  unfold restartChain; dsimp only; (repeat' split) <;> simp [postBankChanged_frame ..]

@[simp] theorem dropChannel_prog_follows (o : ChainOwner) (s : State) : (dropChannel o s).prog.follows =
    s.prog.follows := by
  unfold dropChannel; dsimp only; (repeat' split) <;> simp [postBankChanged_frame ..]

@[simp] theorem judgeShed_prog_follows (cause : Option Nat) (o : ChainOwner) (c : Chain) (s : State) : (judgeShed
    cause o c s).prog.follows = s.prog.follows := by
  unfold judgeShed; (repeat' split) <;> simp

@[simp] theorem oweSide_prog_follows (i : Nat) (span : Nat) (s : State) : (oweSide i span s).prog.follows =
    s.prog.follows := by
  unfold oweSide; simp [oweBreaks_frame ..]

@[simp] theorem judgeChain_prog_follows (cause : Option Nat) (o : ChainOwner) (s : State) : (judgeChain cause o
    s).prog.follows = s.prog.follows := by
  unfold judgeChain; dsimp only; (repeat' split) <;> simp

@[simp] theorem gapNow_prog_follows (o : ChainOwner) (s : State) : (gapNow o s).prog.follows = s.prog.follows := by
  unfold gapNow; dsimp only; (repeat' split) <;> simp [postBankChanged_frame ..]

@[simp] theorem gapChain_prog_follows (o : ChainOwner) (s : State) : (gapChain o s).prog.follows = s.prog.follows :=
    by
  unfold gapChain; (repeat' split) <;> simp

@[simp] theorem gapWindow_prog_follows (w : Nat) (s : State) : (gapWindow w s).prog.follows = s.prog.follows := by
  unfold gapWindow; simp

@[simp] theorem seekWindow_prog_follows (i : Nat) (s : State) : (seekWindow i s).prog.follows = s.prog.follows := by
  unfold seekWindow; (repeat' split) <;> simp_all

@[simp] theorem judgeWindow_front_windows (cause : Option Nat) (w : Nat) (s : State) : (judgeWindow cause w
    s).front.windows = s.front.windows := by
  unfold judgeWindow; simp [seekWindow_frame ..]

@[simp] theorem judgeWindow_prog_follows (cause : Option Nat) (w : Nat) (s : State) : (judgeWindow cause w
    s).prog.follows = s.prog.follows := by
  unfold judgeWindow; simp

@[simp] theorem startOwner_front_windows (cause : Option Nat) (o : ChainOwner) (s : State) : (startOwner cause o
    s).front.windows = s.front.windows := by
  unfold startOwner; dsimp only; (repeat' split) <;> simp [freshProbe_frame ..]

@[simp] theorem startOwner_prog_follows (cause : Option Nat) (o : ChainOwner) (s : State) : (startOwner cause o
    s).prog.follows = s.prog.follows := by
  unfold startOwner; dsimp only; (repeat' split) <;> simp

@[simp] theorem stopOwner_prog_follows (o : ChainOwner) (s : State) : (stopOwner o s).prog.follows = s.prog.follows :=
    by
  unfold stopOwner; dsimp only; (repeat' split) <;> simp

@[simp] theorem releaseFadeHolds_prog_follows (s : State) : (releaseFadeHolds s).prog.follows = s.prog.follows := by
  unfold releaseFadeHolds; simp

@[simp] theorem cutFade_prog_follows (i : Nat) (s : State) : (cutFade i s).prog.follows = s.prog.follows := by
  unfold cutFade; (repeat' split) <;> simp [blendTo_frame ..]

@[simp] theorem recharge_prog_receptions (i : Nat) (s : State) : (recharge i s).prog.receptions = s.prog.receptions :=
    by
  unfold recharge; dsimp only; (repeat' split) <;> simp

@[simp] theorem recharge_prog_follows (i : Nat) (s : State) : (recharge i s).prog.follows = s.prog.follows := by
  unfold recharge; dsimp only; (repeat' split) <;> simp

@[simp] theorem detachProbes_prog_receptions (fo : Handle) (s : State) : (detachProbes fo s).prog.receptions =
    s.prog.receptions := by
  unfold detachProbes; simp

@[simp] theorem detachProbes_prog_follows (fo : Handle) (s : State) : (detachProbes fo s).prog.follows =
    s.prog.follows := by
  unfold detachProbes; simp

@[simp] theorem finishBranch_plan_committing (i : Nat) (cause : Option Nat) (s : State) : (finishBranch i cause
    s).plan.committing = s.plan.committing := by
  unfold finishBranch; simp

@[simp] theorem finishBranch_plan_starting (i : Nat) (cause : Option Nat) (s : State) : (finishBranch i cause
    s).plan.starting = s.plan.starting := by
  unfold finishBranch; simp

@[simp] theorem finishProbe_plan_committing (i : Nat) (cause : Option Nat) (s : State) : (finishProbe i cause
    s).plan.committing = s.plan.committing := by
  unfold finishProbe; simp

@[simp] theorem finishProbe_plan_starting (i : Nat) (cause : Option Nat) (s : State) : (finishProbe i cause
    s).plan.starting = s.plan.starting := by
  unfold finishProbe; simp

@[simp] theorem finishTap_plan_committing (i : Nat) (cause : Option Nat) (s : State) : (finishTap i cause
    s).plan.committing = s.plan.committing := by
  unfold finishTap; simp

@[simp] theorem finishTap_plan_starting (i : Nat) (cause : Option Nat) (s : State) : (finishTap i cause
    s).plan.starting = s.plan.starting := by
  unfold finishTap; simp

@[simp] theorem finishTap_prog_receptions (i : Nat) (cause : Option Nat) (s : State) : (finishTap i cause
    s).prog.receptions = s.prog.receptions := by
  unfold finishTap; simp

@[simp] theorem finishTap_prog_follows (i : Nat) (cause : Option Nat) (s : State) : (finishTap i cause s).prog.follows
    = s.prog.follows := by
  unfold finishTap; simp

@[simp] theorem finishPcm_plan_committing (i : Nat) (cause : Option Nat) (s : State) : (finishPcm i cause
    s).plan.committing = s.plan.committing := by
  unfold finishPcm; dsimp only; (repeat' split) <;> simp

@[simp] theorem finishPcm_plan_starting (i : Nat) (cause : Option Nat) (s : State) : (finishPcm i cause
    s).plan.starting = s.plan.starting := by
  unfold finishPcm; dsimp only; (repeat' split) <;> simp

@[simp] theorem dropMot_prog_receptions (i : Nat) (count : Bool) (pick : MotObj → Bool) (s : State) : (dropMot i count
    pick s).prog.receptions = s.prog.receptions := by
  unfold dropMot; dsimp only; (repeat' split) <;> simp

@[simp] theorem dropMot_prog_follows (i : Nat) (count : Bool) (pick : MotObj → Bool) (s : State) : (dropMot i count
    pick s).prog.follows = s.prog.follows := by
  unfold dropMot; dsimp only; (repeat' split) <;> simp

@[simp] theorem removeProgramme_plan_committing (i : Nat) (cause : Option Nat) (s : State) : (removeProgramme i cause
    s).plan.committing = s.plan.committing := by
  unfold removeProgramme; dsimp only; (repeat' split) <;> simp

@[simp] theorem removeProgramme_plan_starting (i : Nat) (cause : Option Nat) (s : State) : (removeProgramme i cause
    s).plan.starting = s.plan.starting := by
  unfold removeProgramme; dsimp only; (repeat' split) <;> simp

@[simp] theorem removeProgramme_prog_receptions (i : Nat) (cause : Option Nat) (s : State) : (removeProgramme i cause
    s).prog.receptions = s.prog.receptions := by
  unfold removeProgramme; dsimp only; (repeat' split) <;> simp

@[simp] theorem removeProgramme_prog_follows (i : Nat) (cause : Option Nat) (s : State) : (removeProgramme i cause
    s).prog.follows = s.prog.follows := by
  unfold removeProgramme; dsimp only; (repeat' split) <;> simp

@[simp] theorem finishReception_plan_committing (i : Nat) (cause : Option Nat) (s : State) : (finishReception i cause
    s).plan.committing = s.plan.committing := by
  unfold finishReception; dsimp only; (repeat' split) <;> simp

@[simp] theorem finishReception_plan_starting (i : Nat) (cause : Option Nat) (s : State) : (finishReception i cause
    s).plan.starting = s.plan.starting := by
  unfold finishReception; dsimp only; (repeat' split) <;> simp

@[simp] theorem beginInterruption_prog_follows (x0 : Nat) (s : State) : (beginInterruption x0 s).prog.follows =
    s.prog.follows := by
  unfold beginInterruption; simp

@[simp] theorem releaseDeferred_prog_follows (s : State) : (releaseDeferred s).prog.follows = s.prog.follows := by
  unfold releaseDeferred; simp

@[simp] theorem lockTuner_front_windows (t : Nat) (port : Nat) (x : Window) (s : State) : (lockTuner t port x
    s).front.windows = s.front.windows := by
  unfold lockTuner; simp

@[simp] theorem lockPartner_front_windows (w : Nat) (s : State) : (lockPartner w s).front.windows = s.front.windows :=
    by
  unfold lockPartner; (repeat' split) <;> simp_all

@[simp] theorem beginRetune_prog_follows (w : Nat) (dest : Nat × Nat × Nat) (s : State) : (beginRetune w dest
    s).prog.follows = s.prog.follows := by
  unfold beginRetune; simp

@[simp] theorem startWaitingRetune_prog_follows (w : Nat) (s : State) : (startWaitingRetune w s).prog.follows =
    s.prog.follows := by
  unfold startWaitingRetune; (repeat' split) <;> simp [promoteRetunes_frame ..]

@[simp] theorem beginClose_prog_follows (w : Nat) (cause : Option Nat) (s : State) : (beginClose w cause
    s).prog.follows = s.prog.follows := by
  unfold beginClose; dsimp only; (repeat' split) <;> simp [rememberTuners_frame .., abandonRun_frame ..,
      releaseRetunes_frame ..]

@[simp] theorem planWindow_head_deferred (w : Nat) (c : WinSettings) (mark : Bool) (s : State) : (planWindow w c mark
    s).head.deferred = s.head.deferred := by
  unfold planWindow; simp

@[simp] theorem windowOpenBody_plan_committing (f : CmdFrame) (queued : Bool) (s : State) : (windowOpenBody f queued
    s).1.plan.committing = s.plan.committing := by
  unfold windowOpenBody; simp

@[simp] theorem windowOpenBody_plan_starting (f : CmdFrame) (queued : Bool) (s : State) : (windowOpenBody f queued
    s).1.plan.starting = s.plan.starting := by
  unfold windowOpenBody; simp

@[simp] theorem hfStart_front_windows (w : Nat) (s : State) : (hfStart w s).front.windows = s.front.windows := by
  unfold hfStart; simp

@[simp] theorem windowOpened_prog_follows (w : Nat) (s : State) : (windowOpened w s).prog.follows = s.prog.follows :=
    by
  unfold windowOpened; dsimp only; (repeat' split) <;> simp [lockPartner_frame .., lockTuner_frame ..,
      iqRetune_frame .., hfStart_frame ..]

@[simp] theorem retuneWindow_prog_follows (w : Nat) (c : WinSettings) (s : State) : (retuneWindow w c
    s).1.prog.follows = s.prog.follows := by
  unfold retuneWindow; dsimp only; (repeat' split) <;> simp

@[simp] theorem windowRetuneBody_plan_committing (f : CmdFrame) (s : State) : (windowRetuneBody f s).1.plan.committing
    = s.plan.committing := by
  unfold windowRetuneBody; simp

@[simp] theorem windowRetuneBody_plan_starting (f : CmdFrame) (s : State) : (windowRetuneBody f s).1.plan.starting =
    s.plan.starting := by
  unfold windowRetuneBody; simp

@[simp] theorem windowRetuneBody_prog_follows (f : CmdFrame) (s : State) : (windowRetuneBody f s).1.prog.follows =
    s.prog.follows := by
  unfold windowRetuneBody; simp

@[simp] theorem retuneDone_prog_follows (w : Nat) (s : State) : (retuneDone w s).prog.follows = s.prog.follows := by
  unfold retuneDone; dsimp only; (repeat' split) <;> simp [lockPartner_frame .., lockTuner_frame .., iqRetune_frame ..]

@[simp] theorem windowCloseBody_plan_committing (f : CmdFrame) (s : State) : (windowCloseBody f s).1.plan.committing =
    s.plan.committing := by
  unfold windowCloseBody; simp [beginClose_frame ..]

@[simp] theorem windowCloseBody_plan_starting (f : CmdFrame) (s : State) : (windowCloseBody f s).1.plan.starting =
    s.plan.starting := by
  unfold windowCloseBody; simp [beginClose_frame ..]

@[simp] theorem windowCloseBody_prog_follows (f : CmdFrame) (s : State) : (windowCloseBody f s).1.prog.follows =
    s.prog.follows := by
  unfold windowCloseBody; simp

@[simp] theorem windowGangBody_plan_committing (f : CmdFrame) (queued : Bool) (s : State) : (windowGangBody f queued
    s).1.plan.committing = s.plan.committing := by
  unfold windowGangBody; dsimp only; (repeat' split) <;> simp

@[simp] theorem windowGangBody_plan_starting (f : CmdFrame) (queued : Bool) (s : State) : (windowGangBody f queued
    s).1.plan.starting = s.plan.starting := by
  unfold windowGangBody; dsimp only; (repeat' split) <;> simp

@[simp] theorem shutBranch_plan_committing (i : Nat) (cause : Nat) (s : State) : (shutBranch i cause
    s).plan.committing = s.plan.committing := by
  unfold shutBranch; dsimp only; (repeat' split) <;> simp

@[simp] theorem shutBranch_plan_starting (i : Nat) (cause : Nat) (s : State) : (shutBranch i cause s).plan.starting =
    s.plan.starting := by
  unfold shutBranch; dsimp only; (repeat' split) <;> simp

@[simp] theorem windowUngangBody_plan_committing (f : CmdFrame) (s : State) : (windowUngangBody f s).1.plan.committing
    = s.plan.committing := by
  unfold windowUngangBody; dsimp only; (repeat' split) <;> simp [dropRun_frame ..]

@[simp] theorem windowUngangBody_plan_starting (f : CmdFrame) (s : State) : (windowUngangBody f s).1.plan.starting =
    s.plan.starting := by
  unfold windowUngangBody; dsimp only; (repeat' split) <;> simp [dropRun_frame ..]

@[simp] theorem agcTuner_front_windows (t : Nat) (port : Nat) (lo : Nat) (p : Int) (clipped : Nat) (samples : Nat) (s
    : State) : (agcTuner t port lo p clipped samples s).front.windows = s.front.windows := by
  unfold agcTuner; simp [drawBool_frame ..]

@[simp] theorem signalAlert_prog_follows (i : Nat) (at' : Instant) (sg : AlertSignal) (s : State) : (signalAlert i at'
    sg s).prog.follows = s.prog.follows := by
  unfold signalAlert; dsimp only; (repeat' split) <;> simp [reportAlert_frame ..]

@[simp] theorem modFollow_prog_receptions (i : Nat) (g : Follow → Follow) (s : State) : (modFollow i g
    s).prog.receptions = s.prog.receptions := by
  unfold modFollow; simp

@[simp] theorem learnCand_prog_receptions (i : Nat) (bit : Nat) (source : Nat) (ok : Follow → Bool) (f : Nat) (k :
    Kind) (s : State) : (learnCand i bit source ok f k s).prog.receptions = s.prog.receptions := by
  unfold learnCand; simp

@[simp] theorem learnLink_prog_receptions (i : Nat) (l : Nat × Nat × Nat × Nat) (s : State) : (learnLink i l
    s).prog.receptions = s.prog.receptions := by
  unfold learnLink; simp

@[simp] theorem groupCands_prog_receptions (i : Nat) (tuned : Nat) (g : RdsGroup) (s : State) : (groupCands i tuned g
    s).prog.receptions = s.prog.receptions := by
  unfold groupCands; (repeat' split) <;> simp_all

@[simp] theorem findProgramme_head_deferred (i : Nat) (d : CompDecl) (s : State) : (findProgramme i d s).head.deferred
    = s.head.deferred := by
  unfold findProgramme; dsimp only; (repeat' split) <;> simp

@[simp] theorem findProgramme_prog_follows (i : Nat) (d : CompDecl) (s : State) : (findProgramme i d s).prog.follows =
    s.prog.follows := by
  unfold findProgramme; dsimp only; (repeat' split) <;> simp

@[simp] theorem renewProgramme_prog_receptions (p : Programme) (d : CompDecl) (s : State) : (renewProgramme p d
    s).prog.receptions = s.prog.receptions := by
  unfold renewProgramme; simp [reportDecode_frame ..]

@[simp] theorem renewProgramme_prog_follows (p : Programme) (d : CompDecl) (s : State) : (renewProgramme p d
    s).prog.follows = s.prog.follows := by
  unfold renewProgramme; simp [reportDecode_frame ..]

@[simp] theorem noteUntracked_prog_follows (i : Nat) (s : State) : (noteUntracked i s).prog.follows = s.prog.follows
    := by
  unfold noteUntracked; (repeat' split) <;> simp_all

@[simp] theorem compatSelect_head_deferred (c : Nat) (s : State) : (compatSelect c s).head.deferred = s.head.deferred
    := by
  unfold compatSelect; dsimp only; (repeat' split) <;> simp

@[simp] theorem compatSelect_prog_receptions (c : Nat) (s : State) : (compatSelect c s).prog.receptions =
    s.prog.receptions := by
  unfold compatSelect; dsimp only; (repeat' split) <;> simp

@[simp] theorem compatSelect_prog_follows (c : Nat) (s : State) : (compatSelect c s).prog.follows = s.prog.follows :=
    by
  unfold compatSelect; dsimp only; (repeat' split) <;> simp

@[simp] theorem compatRoute_prog_receptions (s : State) : (compatRoute s).prog.receptions = s.prog.receptions := by
  unfold compatRoute; simp

@[simp] theorem compatRoute_prog_follows (s : State) : (compatRoute s).prog.follows = s.prog.follows := by
  unfold compatRoute; simp

@[simp] theorem compatFollow_head_deferred (s : State) : (compatFollow s).head.deferred = s.head.deferred := by
  unfold compatFollow; simp [compatRoute_frame ..]

@[simp] theorem compatFollow_prog_receptions (s : State) : (compatFollow s).prog.receptions = s.prog.receptions := by
  unfold compatFollow; simp

@[simp] theorem compatFollow_prog_follows (s : State) : (compatFollow s).prog.follows = s.prog.follows := by
  unfold compatFollow; simp

@[simp] theorem applyComp_head_deferred (i : Nat) (d : CompDecl) (s : State) : (applyComp i d s).head.deferred =
    s.head.deferred := by
  unfold applyComp; (repeat' split) <;> simp_all [renewProgramme_frame ..]

@[simp] theorem applyComp_prog_follows (i : Nat) (d : CompDecl) (s : State) : (applyComp i d s).prog.follows =
    s.prog.follows := by
  unfold applyComp; (repeat' split) <;> simp_all

@[simp] theorem applyComps_head_deferred (i : Nat) (all : List CompDecl) (s : State) : (applyComps i all
    s).head.deferred = s.head.deferred := by
  unfold applyComps; simp [noteUntracked_frame ..]

@[simp] theorem applyComps_prog_follows (i : Nat) (all : List CompDecl) (s : State) : (applyComps i all
    s).prog.follows = s.prog.follows := by
  unfold applyComps; simp

@[simp] theorem trackFrom_head_deferred (x0 : Nat) (x1 : State) : (trackFrom x0 x1).head.deferred = x1.head.deferred
    := by
  induction x0 generalizing x1 with
  | zero => simp [trackFrom]
  | succ k ih => unfold trackFrom; (repeat' split) <;> simp [ih]

@[simp] theorem trackFrom_prog_follows (x0 : Nat) (x1 : State) : (trackFrom x0 x1).prog.follows = x1.prog.follows :=
    by
  induction x0 generalizing x1 with
  | zero => simp [trackFrom]
  | succ k ih => unfold trackFrom; (repeat' split) <;> simp [ih]

@[simp] theorem trackMore_head_deferred (s : State) : (trackMore s).head.deferred = s.head.deferred := by
  unfold trackMore; simp

@[simp] theorem trackMore_prog_follows (s : State) : (trackMore s).prog.follows = s.prog.follows := by
  unfold trackMore; simp

@[simp] theorem addAnalogueProgramme_head_deferred (i : Nat) (s : State) : (addAnalogueProgramme i s).head.deferred =
    s.head.deferred := by
  unfold addAnalogueProgramme; simp

@[simp] theorem addAnalogueProgramme_prog_receptions (i : Nat) (s : State) : (addAnalogueProgramme i
    s).prog.receptions = s.prog.receptions := by
  unfold addAnalogueProgramme; simp

@[simp] theorem addAnalogueProgramme_prog_follows (i : Nat) (s : State) : (addAnalogueProgramme i s).prog.follows =
    s.prog.follows := by
  unfold addAnalogueProgramme; simp

@[simp] theorem createReception_head_deferred (i : Nat) (mark : Bool) (p : List Byte) (s : State) : (createReception i
    mark p s).1.head.deferred = s.head.deferred := by
  unfold createReception; simp

@[simp] theorem createReception_prog_follows (i : Nat) (mark : Bool) (p : List Byte) (s : State) : (createReception i
    mark p s).1.prog.follows = s.prog.follows := by
  unfold createReception; simp

@[simp] theorem changeReception_prog_follows (i : Nat) (p : List Byte) (s : State) : (changeReception i p
    s).1.prog.follows = s.prog.follows := by
  unfold changeReception; dsimp only; (repeat' split) <;> simp

@[simp] theorem freshLoudness_prog_follows (i : Nat) (s : State) : (freshLoudness i s).prog.follows = s.prog.follows
    := by
  unfold freshLoudness; simp

@[simp] theorem afterMove_front_windows (i : Nat) (moved : Bool) (cause : Option Nat) (s : State) : (afterMove i moved
    cause s).front.windows = s.front.windows := by
  unfold afterMove; dsimp only; (repeat' split) <;> simp [freshLoudness_frame .., loseReception_frame ..]

@[simp] theorem afterMove_prog_follows (i : Nat) (moved : Bool) (cause : Option Nat) (s : State) : (afterMove i moved
    cause s).prog.follows = s.prog.follows := by
  unfold afterMove; dsimp only; (repeat' split) <;> simp

@[simp] theorem receptionAddBody_front_windows (f : CmdFrame) (s : State) : (receptionAddBody f s).1.front.windows =
    s.front.windows := by
  unfold receptionAddBody; simp

@[simp] theorem receptionAddBody_head_deferred (f : CmdFrame) (s : State) : (receptionAddBody f s).1.head.deferred =
    s.head.deferred := by
  unfold receptionAddBody; simp

@[simp] theorem receptionAddBody_plan_committing (f : CmdFrame) (s : State) : (receptionAddBody f s).1.plan.committing
    = s.plan.committing := by
  unfold receptionAddBody; simp

@[simp] theorem receptionAddBody_plan_starting (f : CmdFrame) (s : State) : (receptionAddBody f s).1.plan.starting =
    s.plan.starting := by
  unfold receptionAddBody; simp

@[simp] theorem receptionAddBody_prog_follows (f : CmdFrame) (s : State) : (receptionAddBody f s).1.prog.follows =
    s.prog.follows := by
  unfold receptionAddBody; simp

@[simp] theorem receptionSetBody_front_windows (f : CmdFrame) (s : State) : (receptionSetBody f s).1.front.windows =
    s.front.windows := by
  unfold receptionSetBody; simp

@[simp] theorem receptionSetBody_plan_committing (f : CmdFrame) (s : State) : (receptionSetBody f s).1.plan.committing
    = s.plan.committing := by
  unfold receptionSetBody; simp

@[simp] theorem receptionSetBody_plan_starting (f : CmdFrame) (s : State) : (receptionSetBody f s).1.plan.starting =
    s.plan.starting := by
  unfold receptionSetBody; simp

@[simp] theorem receptionSetBody_prog_follows (f : CmdFrame) (s : State) : (receptionSetBody f s).1.prog.follows =
    s.prog.follows := by
  unfold receptionSetBody; simp

@[simp] theorem shutReception_plan_committing (i : Nat) (cause : Nat) (s : State) : (shutReception i cause
    s).plan.committing = s.plan.committing := by
  unfold shutReception; (repeat' split) <;> simp

@[simp] theorem shutReception_plan_starting (i : Nat) (cause : Nat) (s : State) : (shutReception i cause
    s).plan.starting = s.plan.starting := by
  unfold shutReception; (repeat' split) <;> simp

@[simp] theorem receptionRemoveBody_head_deferred (f : CmdFrame) (s : State) : (receptionRemoveBody f
    s).1.head.deferred = s.head.deferred := by
  unfold receptionRemoveBody; simp [shutReception_frame ..]

@[simp] theorem receptionRemoveBody_plan_committing (f : CmdFrame) (s : State) : (receptionRemoveBody f
    s).1.plan.committing = s.plan.committing := by
  unfold receptionRemoveBody; simp

@[simp] theorem receptionRemoveBody_plan_starting (f : CmdFrame) (s : State) : (receptionRemoveBody f
    s).1.plan.starting = s.plan.starting := by
  unfold receptionRemoveBody; simp

@[simp] theorem createBranch_head_deferred (i : Nat) (mark : Bool) (rx : Nat) (s : State) : (createBranch i mark rx
    s).head.deferred = s.head.deferred := by
  unfold createBranch; dsimp only; (repeat' split) <;> simp

@[simp] theorem createBranch_prog_receptions (i : Nat) (mark : Bool) (rx : Nat) (s : State) : (createBranch i mark rx
    s).prog.receptions = s.prog.receptions := by
  unfold createBranch; dsimp only; (repeat' split) <;> simp

@[simp] theorem createBranch_prog_follows (i : Nat) (mark : Bool) (rx : Nat) (s : State) : (createBranch i mark rx
    s).prog.follows = s.prog.follows := by
  unfold createBranch; dsimp only; (repeat' split) <;> simp

@[simp] theorem branchAddBody_front_windows (f : CmdFrame) (s : State) : (branchAddBody f s).1.front.windows =
    s.front.windows := by
  unfold branchAddBody; simp [createBranch_frame ..]

@[simp] theorem branchAddBody_head_deferred (f : CmdFrame) (s : State) : (branchAddBody f s).1.head.deferred =
    s.head.deferred := by
  unfold branchAddBody; simp

@[simp] theorem branchAddBody_plan_committing (f : CmdFrame) (s : State) : (branchAddBody f s).1.plan.committing =
    s.plan.committing := by
  unfold branchAddBody; simp [createBranch_frame ..]

@[simp] theorem branchAddBody_plan_starting (f : CmdFrame) (s : State) : (branchAddBody f s).1.plan.starting =
    s.plan.starting := by
  unfold branchAddBody; simp [createBranch_frame ..]

@[simp] theorem branchAddBody_prog_follows (f : CmdFrame) (s : State) : (branchAddBody f s).1.prog.follows =
    s.prog.follows := by
  unfold branchAddBody; simp

@[simp] theorem branchRemoveBody_plan_committing (f : CmdFrame) (s : State) : (branchRemoveBody f s).1.plan.committing
    = s.plan.committing := by
  unfold branchRemoveBody; simp

@[simp] theorem branchRemoveBody_plan_starting (f : CmdFrame) (s : State) : (branchRemoveBody f s).1.plan.starting =
    s.plan.starting := by
  unfold branchRemoveBody; simp

@[simp] theorem createTap_head_deferred (i : Nat) (mark : Bool) (p : List Byte) (s : State) : (createTap i mark p
    s).1.head.deferred = s.head.deferred := by
  unfold createTap; simp

@[simp] theorem createTap_prog_receptions (i : Nat) (mark : Bool) (p : List Byte) (s : State) : (createTap i mark p
    s).1.prog.receptions = s.prog.receptions := by
  unfold createTap; simp

@[simp] theorem createTap_prog_follows (i : Nat) (mark : Bool) (p : List Byte) (s : State) : (createTap i mark p
    s).1.prog.follows = s.prog.follows := by
  unfold createTap; simp

@[simp] theorem changeTap_prog_receptions (i : Nat) (p : List Byte) (s : State) : (changeTap i p s).1.prog.receptions
    = s.prog.receptions := by
  unfold changeTap; simp

@[simp] theorem changeTap_prog_follows (i : Nat) (p : List Byte) (s : State) : (changeTap i p s).1.prog.follows =
    s.prog.follows := by
  unfold changeTap; simp

@[simp] theorem tapAddBody_front_windows (f : CmdFrame) (s : State) : (tapAddBody f s).1.front.windows =
    s.front.windows := by
  unfold tapAddBody; simp [createTap_frame ..]

@[simp] theorem tapAddBody_head_deferred (f : CmdFrame) (s : State) : (tapAddBody f s).1.head.deferred =
    s.head.deferred := by
  unfold tapAddBody; simp

@[simp] theorem tapAddBody_plan_committing (f : CmdFrame) (s : State) : (tapAddBody f s).1.plan.committing =
    s.plan.committing := by
  unfold tapAddBody; simp [createTap_frame ..]

@[simp] theorem tapAddBody_plan_starting (f : CmdFrame) (s : State) : (tapAddBody f s).1.plan.starting =
    s.plan.starting := by
  unfold tapAddBody; simp [createTap_frame ..]

@[simp] theorem tapAddBody_prog_follows (f : CmdFrame) (s : State) : (tapAddBody f s).1.prog.follows = s.prog.follows
    := by
  unfold tapAddBody; simp

@[simp] theorem shutTap_plan_committing (i : Nat) (cause : Nat) (s : State) : (shutTap i cause s).plan.committing =
    s.plan.committing := by
  unfold shutTap; dsimp only; (repeat' split) <;> simp

@[simp] theorem shutTap_plan_starting (i : Nat) (cause : Nat) (s : State) : (shutTap i cause s).plan.starting =
    s.plan.starting := by
  unfold shutTap; dsimp only; (repeat' split) <;> simp

@[simp] theorem shutTap_prog_receptions (i : Nat) (cause : Nat) (s : State) : (shutTap i cause s).prog.receptions =
    s.prog.receptions := by
  unfold shutTap; dsimp only; (repeat' split) <;> simp

@[simp] theorem shutTap_prog_follows (i : Nat) (cause : Nat) (s : State) : (shutTap i cause s).prog.follows =
    s.prog.follows := by
  unfold shutTap; dsimp only; (repeat' split) <;> simp

@[simp] theorem tapRemoveBody_plan_committing (f : CmdFrame) (s : State) : (tapRemoveBody f s).1.plan.committing =
    s.plan.committing := by
  unfold tapRemoveBody; simp

@[simp] theorem tapRemoveBody_plan_starting (f : CmdFrame) (s : State) : (tapRemoveBody f s).1.plan.starting =
    s.plan.starting := by
  unfold tapRemoveBody; simp

@[simp] theorem tapRemoveBody_prog_receptions (f : CmdFrame) (s : State) : (tapRemoveBody f s).1.prog.receptions =
    s.prog.receptions := by
  unfold tapRemoveBody; simp

@[simp] theorem tapRemoveBody_prog_follows (f : CmdFrame) (s : State) : (tapRemoveBody f s).1.prog.follows =
    s.prog.follows := by
  unfold tapRemoveBody; simp

@[simp] theorem applyAlertSet_prog_follows (i : Nat) (p : List Byte) (cause : Option Nat) (s : State) : (applyAlertSet
    i p cause s).prog.follows = s.prog.follows := by
  unfold applyAlertSet; dsimp only; (repeat' split) <;> simp

@[simp] theorem alertSetBody_plan_committing (f : CmdFrame) (s : State) : (alertSetBody f s).1.plan.committing =
    s.plan.committing := by
  unfold alertSetBody; simp

@[simp] theorem alertSetBody_plan_starting (f : CmdFrame) (s : State) : (alertSetBody f s).1.plan.starting =
    s.plan.starting := by
  unfold alertSetBody; simp

@[simp] theorem alertSetBody_prog_follows (f : CmdFrame) (s : State) : (alertSetBody f s).1.prog.follows =
    s.prog.follows := by
  unfold alertSetBody; simp

@[simp] theorem loadBank_mix_blends (i : Nat) (p : List Byte) (s : State) : (loadBank i p s).1.mix.blends =
    s.mix.blends := by
  unfold loadBank; simp

@[simp] theorem bankLoadBody_plan_committing (f : CmdFrame) (s : State) : (bankLoadBody f s).1.plan.committing =
    s.plan.committing := by
  unfold bankLoadBody; simp

@[simp] theorem bankLoadBody_plan_starting (f : CmdFrame) (s : State) : (bankLoadBody f s).1.plan.starting =
    s.plan.starting := by
  unfold bankLoadBody; simp

@[simp] theorem bankLoadBody_mix_blends (f : CmdFrame) (s : State) : (bankLoadBody f s).1.mix.blends = s.mix.blends :=
    by
  unfold bankLoadBody; simp

@[simp] theorem loadCurve_mix_blends (i : Nat) (p : List Byte) (s : State) : (loadCurve i p s).mix.blends =
    s.mix.blends := by
  unfold loadCurve; simp

@[simp] theorem curveLoadBody_plan_committing (f : CmdFrame) (s : State) : (curveLoadBody f s).1.plan.committing =
    s.plan.committing := by
  unfold curveLoadBody; simp

@[simp] theorem curveLoadBody_plan_starting (f : CmdFrame) (s : State) : (curveLoadBody f s).1.plan.starting =
    s.plan.starting := by
  unfold curveLoadBody; simp

@[simp] theorem curveLoadBody_mix_blends (f : CmdFrame) (s : State) : (curveLoadBody f s).1.mix.blends = s.mix.blends
    := by
  unfold curveLoadBody; simp

@[simp] theorem setStanding_head_deferred (f : CmdFrame) (g : Standing → Standing) (s : State) : (setStanding f g
    s).head.deferred = s.head.deferred := by
  unfold setStanding; simp

@[simp] theorem setStanding_prog_receptions (f : CmdFrame) (g : Standing → Standing) (s : State) : (setStanding f g
    s).prog.receptions = s.prog.receptions := by
  unfold setStanding; simp

@[simp] theorem setStanding_prog_follows (f : CmdFrame) (g : Standing → Standing) (s : State) : (setStanding f g
    s).prog.follows = s.prog.follows := by
  unfold setStanding; simp

@[simp] theorem selectOn_head_deferred (i : Nat) (reserve : Bool) (cause : Option Nat) (s : State) : (selectOn i
    reserve cause s).head.deferred = s.head.deferred := by
  unfold selectOn; simp [reportDecode_frame ..]

@[simp] theorem selectOn_prog_receptions (i : Nat) (reserve : Bool) (cause : Option Nat) (s : State) : (selectOn i
    reserve cause s).prog.receptions = s.prog.receptions := by
  unfold selectOn; simp [reportDecode_frame ..]

@[simp] theorem selectOn_prog_follows (i : Nat) (reserve : Bool) (cause : Option Nat) (s : State) : (selectOn i
    reserve cause s).prog.follows = s.prog.follows := by
  unfold selectOn; simp [reportDecode_frame ..]

@[simp] theorem selectOff_prog_receptions (i : Nat) (s : State) : (selectOff i s).prog.receptions = s.prog.receptions
    := by
  unfold selectOff; dsimp only; (repeat' split) <;> simp

@[simp] theorem selectOff_prog_follows (i : Nat) (s : State) : (selectOff i s).prog.follows = s.prog.follows := by
  unfold selectOff; dsimp only; (repeat' split) <;> simp

@[simp] theorem applySelect_head_deferred (f : CmdFrame) (s : State) : (applySelect f s).head.deferred =
    s.head.deferred := by
  unfold applySelect; dsimp only; (repeat' split) <;> simp [selectOff_frame ..]

@[simp] theorem applySelect_prog_receptions (f : CmdFrame) (s : State) : (applySelect f s).prog.receptions =
    s.prog.receptions := by
  unfold applySelect; dsimp only; (repeat' split) <;> simp

@[simp] theorem applySelect_prog_follows (f : CmdFrame) (s : State) : (applySelect f s).prog.follows = s.prog.follows
    := by
  unfold applySelect; dsimp only; (repeat' split) <;> simp

@[simp] theorem programmeSelectBody_head_deferred (f : CmdFrame) (s : State) : (programmeSelectBody f
    s).1.head.deferred = s.head.deferred := by
  unfold programmeSelectBody; simp

@[simp] theorem programmeSelectBody_plan_committing (f : CmdFrame) (s : State) : (programmeSelectBody f
    s).1.plan.committing = s.plan.committing := by
  unfold programmeSelectBody; simp

@[simp] theorem programmeSelectBody_plan_starting (f : CmdFrame) (s : State) : (programmeSelectBody f
    s).1.plan.starting = s.plan.starting := by
  unfold programmeSelectBody; simp

@[simp] theorem measureOn_prog_follows (i : Nat) (interval : Nat) (silence : Nat) (th : Int) (s : State) : (measureOn
    i interval silence th s).prog.follows = s.prog.follows := by
  unfold measureOn; dsimp only; (repeat' split) <;> simp

@[simp] theorem measureOff_prog_receptions (i : Nat) (interval : Nat) (silence : Nat) (th : Int) (s : State) :
    (measureOff i interval silence th s).prog.receptions = s.prog.receptions := by
  unfold measureOff; simp

@[simp] theorem measureOff_prog_follows (i : Nat) (interval : Nat) (silence : Nat) (th : Int) (s : State) :
    (measureOff i interval silence th s).prog.follows = s.prog.follows := by
  unfold measureOff; simp

@[simp] theorem applyMeasure_head_deferred (f : CmdFrame) (s : State) : (applyMeasure f s).head.deferred =
    s.head.deferred := by
  unfold applyMeasure; dsimp only; (repeat' split) <;> simp [measureOn_frame .., measureOff_frame ..]

@[simp] theorem applyMeasure_prog_follows (f : CmdFrame) (s : State) : (applyMeasure f s).prog.follows =
    s.prog.follows := by
  unfold applyMeasure; dsimp only; (repeat' split) <;> simp

@[simp] theorem programmeMeasureBody_head_deferred (f : CmdFrame) (s : State) : (programmeMeasureBody f
    s).1.head.deferred = s.head.deferred := by
  unfold programmeMeasureBody; simp

@[simp] theorem programmeMeasureBody_plan_committing (f : CmdFrame) (s : State) : (programmeMeasureBody f
    s).1.plan.committing = s.plan.committing := by
  unfold programmeMeasureBody; simp

@[simp] theorem programmeMeasureBody_plan_starting (f : CmdFrame) (s : State) : (programmeMeasureBody f
    s).1.plan.starting = s.plan.starting := by
  unfold programmeMeasureBody; simp

@[simp] theorem createPcm_head_deferred (i : Nat) (mark : Bool) (p : List Byte) (s : State) : (createPcm i mark p
    s).1.head.deferred = s.head.deferred := by
  unfold createPcm; simp

@[simp] theorem createPcm_prog_receptions (i : Nat) (mark : Bool) (p : List Byte) (s : State) : (createPcm i mark p
    s).1.prog.receptions = s.prog.receptions := by
  unfold createPcm; simp

@[simp] theorem createPcm_prog_follows (i : Nat) (mark : Bool) (p : List Byte) (s : State) : (createPcm i mark p
    s).1.prog.follows = s.prog.follows := by
  unfold createPcm; simp

@[simp] theorem changePcm_prog_receptions (i : Nat) (p : List Byte) (s : State) : (changePcm i p s).1.prog.receptions
    = s.prog.receptions := by
  unfold changePcm; simp

@[simp] theorem changePcm_prog_follows (i : Nat) (p : List Byte) (s : State) : (changePcm i p s).1.prog.follows =
    s.prog.follows := by
  unfold changePcm; simp

@[simp] theorem applyPcm_head_deferred (f : CmdFrame) (s : State) : (applyPcm f s).1.head.deferred = s.head.deferred
    := by
  unfold applyPcm; simp

@[simp] theorem applyPcm_prog_receptions (f : CmdFrame) (s : State) : (applyPcm f s).1.prog.receptions =
    s.prog.receptions := by
  unfold applyPcm; simp

@[simp] theorem applyPcm_prog_follows (f : CmdFrame) (s : State) : (applyPcm f s).1.prog.follows = s.prog.follows :=
    by
  unfold applyPcm; simp

@[simp] theorem pcmRouteBody_head_deferred (f : CmdFrame) (s : State) : (pcmRouteBody f s).1.head.deferred =
    s.head.deferred := by
  unfold pcmRouteBody; simp

@[simp] theorem pcmRouteBody_plan_committing (f : CmdFrame) (s : State) : (pcmRouteBody f s).1.plan.committing =
    s.plan.committing := by
  unfold pcmRouteBody; simp [applyPcm_frame ..]

@[simp] theorem pcmRouteBody_plan_starting (f : CmdFrame) (s : State) : (pcmRouteBody f s).1.plan.starting =
    s.plan.starting := by
  unfold pcmRouteBody; simp [applyPcm_frame ..]

@[simp] theorem pcmRouteBody_prog_receptions (f : CmdFrame) (s : State) : (pcmRouteBody f s).1.prog.receptions =
    s.prog.receptions := by
  unfold pcmRouteBody; simp

@[simp] theorem pcmRouteBody_prog_follows (f : CmdFrame) (s : State) : (pcmRouteBody f s).1.prog.follows =
    s.prog.follows := by
  unfold pcmRouteBody; simp

@[simp] theorem shutPcm_plan_committing (i : Nat) (cause : Nat) (s : State) : (shutPcm i cause s).plan.committing =
    s.plan.committing := by
  unfold shutPcm; (repeat' split) <;> simp [stopPcms_frame .., modPcm_frame ..]

@[simp] theorem shutPcm_plan_starting (i : Nat) (cause : Nat) (s : State) : (shutPcm i cause s).plan.starting =
    s.plan.starting := by
  unfold shutPcm; (repeat' split) <;> simp [stopPcms_frame .., modPcm_frame ..]

@[simp] theorem pcmRemoveBody_plan_committing (f : CmdFrame) (s : State) : (pcmRemoveBody f s).1.plan.committing =
    s.plan.committing := by
  unfold pcmRemoveBody; simp

@[simp] theorem pcmRemoveBody_plan_starting (f : CmdFrame) (s : State) : (pcmRemoveBody f s).1.plan.starting =
    s.plan.starting := by
  unfold pcmRemoveBody; simp

@[simp] theorem finishObj_plan_committing (cls : ObjClass) (i : Nat) (cause : Option Nat) (s : State) : (finishObj cls
    i cause s).plan.committing = s.plan.committing := by
  unfold finishObj; (repeat' split) <;> simp_all [finishBlend_frame ..]

@[simp] theorem finishObj_plan_starting (cls : ObjClass) (i : Nat) (cause : Option Nat) (s : State) : (finishObj cls i
    cause s).plan.starting = s.plan.starting := by
  unfold finishObj; (repeat' split) <;> simp_all [finishBlend_frame ..]

@[simp] theorem applyBind_plan_committing (code : Nat) (cls : Nat) (h : Handle) (ring : Nat) (s : State) : (applyBind
    code cls h ring s).plan.committing = s.plan.committing := by
  unfold applyBind; simp

@[simp] theorem applyBind_plan_starting (code : Nat) (cls : Nat) (h : Handle) (ring : Nat) (s : State) : (applyBind
    code cls h ring s).plan.starting = s.plan.starting := by
  unfold applyBind; simp

@[simp] theorem applyBind_prog_receptions (code : Nat) (cls : Nat) (h : Handle) (ring : Nat) (s : State) : (applyBind
    code cls h ring s).prog.receptions = s.prog.receptions := by
  unfold applyBind; simp

@[simp] theorem applyBind_prog_follows (code : Nat) (cls : Nat) (h : Handle) (ring : Nat) (s : State) : (applyBind
    code cls h ring s).prog.follows = s.prog.follows := by
  unfold applyBind; simp

@[simp] theorem bindFrame_plan_committing (f : CmdFrame) (s : State) : (bindFrame f s).plan.committing =
    s.plan.committing := by
  unfold bindFrame; simp

@[simp] theorem bindFrame_plan_starting (f : CmdFrame) (s : State) : (bindFrame f s).plan.starting = s.plan.starting
    := by
  unfold bindFrame; simp

@[simp] theorem bindFrame_prog_receptions (f : CmdFrame) (s : State) : (bindFrame f s).prog.receptions =
    s.prog.receptions := by
  unfold bindFrame; simp

@[simp] theorem bindFrame_prog_follows (f : CmdFrame) (s : State) : (bindFrame f s).prog.follows = s.prog.follows :=
    by
  unfold bindFrame; simp

@[simp] theorem ringBindBody_plan_committing (f : CmdFrame) (s : State) : (ringBindBody f s).1.plan.committing =
    s.plan.committing := by
  unfold ringBindBody; simp

@[simp] theorem ringBindBody_plan_starting (f : CmdFrame) (s : State) : (ringBindBody f s).1.plan.starting =
    s.plan.starting := by
  unfold ringBindBody; simp

@[simp] theorem ringBindBody_prog_receptions (f : CmdFrame) (s : State) : (ringBindBody f s).1.prog.receptions =
    s.prog.receptions := by
  unfold ringBindBody; simp

@[simp] theorem ringBindBody_prog_follows (f : CmdFrame) (s : State) : (ringBindBody f s).1.prog.follows =
    s.prog.follows := by
  unfold ringBindBody; simp

@[simp] theorem endFade_prog_follows (i : Nat) (s : State) : (endFade i s).prog.follows = s.prog.follows := by
  unfold endFade; dsimp only; (repeat' split) <;> simp [blendGo_frame .., requestFade_frame .., startMotion_frame ..]

@[simp] theorem modProbe_prog_receptions (i : Nat) (g : Probe → Probe) (s : State) : (modProbe i g s).prog.receptions
    = s.prog.receptions := by
  unfold modProbe; simp

@[simp] theorem modProbe_prog_follows (i : Nat) (g : Probe → Probe) (s : State) : (modProbe i g s).prog.follows =
    s.prog.follows := by
  unfold modProbe; simp

@[simp] theorem judgeProbe_front_windows (i : Nat) (s : State) : (judgeProbe i s).front.windows = s.front.windows :=
    by
  unfold judgeProbe; (repeat' split) <;> simp [freshProbe_frame ..]

@[simp] theorem judgeProbe_prog_follows (i : Nat) (s : State) : (judgeProbe i s).prog.follows = s.prog.follows := by
  unfold judgeProbe; (repeat' split) <;> simp

@[simp] theorem tuneProbe_front_windows (i : Nat) (k : Kind) (fr : Nat) (s : State) : (tuneProbe i k fr
    s).front.windows = s.front.windows := by
  unfold tuneProbe; dsimp only; (repeat' split) <;> simp

@[simp] theorem tuneProbe_prog_follows (i : Nat) (k : Kind) (fr : Nat) (s : State) : (tuneProbe i k fr s).prog.follows
    = s.prog.follows := by
  unfold tuneProbe; dsimp only; (repeat' split) <;> simp

@[simp] theorem probeOn_front_windows (i : Nat) (fo : Nat) (c : Cand) (s : State) : (probeOn i fo c s).front.windows =
    s.front.windows := by
  unfold probeOn; dsimp only; (repeat' split) <;> simp

@[simp] theorem advanceProbe_front_windows (i : Nat) (s : State) : (advanceProbe i s).front.windows = s.front.windows
    := by
  unfold advanceProbe; dsimp only; (repeat' split) <;> simp

@[simp] theorem countSwitch_prog_receptions (i : Nat) (s : State) : (countSwitch i s).prog.receptions =
    s.prog.receptions := by
  unfold countSwitch; simp

@[simp] theorem crossOutputs_prog_receptions (f : Follow) (s : State) : (crossOutputs f s).prog.receptions =
    s.prog.receptions := by
  unfold crossOutputs; simp

@[simp] theorem carryOut_prog_receptions (i : Nat) (d : Decision) (s : State) : (carryOut i d s).prog.receptions =
    s.prog.receptions := by
  unfold carryOut; dsimp only; (repeat' split) <;> simp [requestFade_frame ..]

@[simp] theorem switchDecided_prog_receptions (i : Nat) (d : Decision) (dest : Cand) (stamp : Tick) (s : State) :
    (switchDecided i d dest stamp s).prog.receptions = s.prog.receptions := by
  unfold switchDecided; (repeat' split) <;> simp_all [postSwitched_frame ..]

@[simp] theorem lossProbes_front_windows (i : Nat) (s : State) : (lossProbes i s).front.windows = s.front.windows :=
    by
  unfold lossProbes; dsimp only; (repeat' split) <;> simp

@[simp] theorem gaugeDecide_front_windows (i : Nat) (stamp : Tick) (s : State) : (gaugeDecide i stamp s).front.windows
    = s.front.windows := by
  unfold gaugeDecide; dsimp only; (repeat' split) <;> simp [switchDecided_frame ..]

@[simp] theorem resumeSwitch_prog_receptions (i : Nat) (s : State) : (resumeSwitch i s).prog.receptions =
    s.prog.receptions := by
  unfold resumeSwitch; dsimp only; (repeat' split) <;> simp

@[simp] theorem resumeSwitches_prog_receptions (b : Nat) (s : State) : (resumeSwitches b s).prog.receptions =
    s.prog.receptions := by
  unfold resumeSwitches; simp

@[simp] theorem createBlend_head_deferred (i : Nat) (mark : Bool) (p : List Byte) (s : State) : (createBlend i mark p
    s).1.head.deferred = s.head.deferred := by
  unfold createBlend; simp

@[simp] theorem blendSetBody_head_deferred (f : CmdFrame) (s : State) : (blendSetBody f s).1.head.deferred =
    s.head.deferred := by
  unfold blendSetBody; simp

@[simp] theorem blendSetBody_plan_committing (f : CmdFrame) (s : State) : (blendSetBody f s).1.plan.committing =
    s.plan.committing := by
  unfold blendSetBody; simp [createBlend_frame ..]

@[simp] theorem blendSetBody_plan_starting (f : CmdFrame) (s : State) : (blendSetBody f s).1.plan.starting =
    s.plan.starting := by
  unfold blendSetBody; simp [createBlend_frame ..]

@[simp] theorem blendRemoveBody_plan_committing (f : CmdFrame) (s : State) : (blendRemoveBody f s).1.plan.committing =
    s.plan.committing := by
  unfold blendRemoveBody; simp [shutBlend_frame ..]

@[simp] theorem blendRemoveBody_plan_starting (f : CmdFrame) (s : State) : (blendRemoveBody f s).1.plan.starting =
    s.plan.starting := by
  unfold blendRemoveBody; simp [shutBlend_frame ..]

@[simp] theorem createFollow_head_deferred (i : Nat) (mark : Bool) (p : List Byte) (s : State) : (createFollow i mark
    p s).1.head.deferred = s.head.deferred := by
  unfold createFollow; simp

@[simp] theorem createFollow_prog_receptions (i : Nat) (mark : Bool) (p : List Byte) (s : State) : (createFollow i
    mark p s).1.prog.receptions = s.prog.receptions := by
  unfold createFollow; simp

@[simp] theorem changeFollow_prog_receptions (i : Nat) (p : List Byte) (s : State) : (changeFollow i p
    s).1.prog.receptions = s.prog.receptions := by
  unfold changeFollow; simp

@[simp] theorem followSetBody_head_deferred (f : CmdFrame) (s : State) : (followSetBody f s).1.head.deferred =
    s.head.deferred := by
  unfold followSetBody; simp

@[simp] theorem followSetBody_plan_committing (f : CmdFrame) (s : State) : (followSetBody f s).1.plan.committing =
    s.plan.committing := by
  unfold followSetBody; simp [createFollow_frame ..]

@[simp] theorem followSetBody_plan_starting (f : CmdFrame) (s : State) : (followSetBody f s).1.plan.starting =
    s.plan.starting := by
  unfold followSetBody; simp [createFollow_frame ..]

@[simp] theorem followSetBody_prog_receptions (f : CmdFrame) (s : State) : (followSetBody f s).1.prog.receptions =
    s.prog.receptions := by
  unfold followSetBody; simp

@[simp] theorem followRemoveBody_plan_committing (f : CmdFrame) (s : State) : (followRemoveBody f s).1.plan.committing
    = s.plan.committing := by
  unfold followRemoveBody; simp [shutFollow_frame ..]

@[simp] theorem followRemoveBody_plan_starting (f : CmdFrame) (s : State) : (followRemoveBody f s).1.plan.starting =
    s.plan.starting := by
  unfold followRemoveBody; simp [shutFollow_frame ..]

@[simp] theorem createProbe_head_deferred (i : Nat) (mark : Bool) (p : List Byte) (s : State) : (createProbe i mark p
    s).1.head.deferred = s.head.deferred := by
  unfold createProbe; simp

@[simp] theorem createProbe_prog_receptions (i : Nat) (mark : Bool) (p : List Byte) (s : State) : (createProbe i mark
    p s).1.prog.receptions = s.prog.receptions := by
  unfold createProbe; simp

@[simp] theorem createProbe_prog_follows (i : Nat) (mark : Bool) (p : List Byte) (s : State) : (createProbe i mark p
    s).1.prog.follows = s.prog.follows := by
  unfold createProbe; simp

@[simp] theorem settleFixed_front_windows (i : Nat) (s : State) : (settleFixed i s).front.windows = s.front.windows :=
    by
  unfold settleFixed; (repeat' split) <;> simp_all

@[simp] theorem settleFixed_prog_follows (i : Nat) (s : State) : (settleFixed i s).prog.follows = s.prog.follows := by
  unfold settleFixed; (repeat' split) <;> simp_all

@[simp] theorem changeProbe_blockTaken_prog_follows (i : Nat) (fr : Nat) (k : Kind) (s : State) :
    (changeProbe.blockTaken i fr k s).prog.follows = s.prog.follows := by
  unfold changeProbe.blockTaken; simp

@[simp] theorem changeProbe_front_windows (i : Nat) (p : List Byte) (s : State) : (changeProbe i p s).1.front.windows
    = s.front.windows := by
  unfold changeProbe; (repeat' split) <;> simp [changeProbe_blockTaken_frame ..]

@[simp] theorem changeProbe_prog_follows (i : Nat) (p : List Byte) (s : State) : (changeProbe i p s).1.prog.follows =
    s.prog.follows := by
  unfold changeProbe; dsimp only; (repeat' split) <;> simp

@[simp] theorem startProbe_front_windows (cause : Option Nat) (i : Nat) (s : State) : (startProbe cause i
    s).front.windows = s.front.windows := by
  unfold startProbe; dsimp only; (repeat' split) <;> simp [seekWindow_frame ..]

@[simp] theorem probeAddBody_front_windows (f : CmdFrame) (s : State) : (probeAddBody f s).1.front.windows =
    s.front.windows := by
  unfold probeAddBody; simp [createProbe_frame ..]

@[simp] theorem probeAddBody_head_deferred (f : CmdFrame) (s : State) : (probeAddBody f s).1.head.deferred =
    s.head.deferred := by
  unfold probeAddBody; simp [startProbe_frame ..]

@[simp] theorem probeAddBody_plan_committing (f : CmdFrame) (s : State) : (probeAddBody f s).1.plan.committing =
    s.plan.committing := by
  unfold probeAddBody; simp [createProbe_frame .., startProbe_frame ..]

@[simp] theorem probeAddBody_plan_starting (f : CmdFrame) (s : State) : (probeAddBody f s).1.plan.starting =
    s.plan.starting := by
  unfold probeAddBody; simp [createProbe_frame .., startProbe_frame ..]

@[simp] theorem probeSetBody_front_windows (f : CmdFrame) (s : State) : (probeSetBody f s).1.front.windows =
    s.front.windows := by
  unfold probeSetBody; simp

@[simp] theorem probeSetBody_plan_committing (f : CmdFrame) (s : State) : (probeSetBody f s).1.plan.committing =
    s.plan.committing := by
  unfold probeSetBody; simp

@[simp] theorem probeSetBody_plan_starting (f : CmdFrame) (s : State) : (probeSetBody f s).1.plan.starting =
    s.plan.starting := by
  unfold probeSetBody; simp

@[simp] theorem probeSetBody_prog_follows (f : CmdFrame) (s : State) : (probeSetBody f s).1.prog.follows =
    s.prog.follows := by
  unfold probeSetBody; simp

@[simp] theorem decideAgain_front_windows (fo : Nat) (s : State) : (decideAgain fo s).front.windows = s.front.windows
    := by
  unfold decideAgain; (repeat' split) <;> simp

@[simp] theorem abandonRetarget_front_windows (fo : Nat) (s : State) : (abandonRetarget fo s).front.windows =
    s.front.windows := by
  unfold abandonRetarget; dsimp only; (repeat' split) <;> simp [carryOut_frame ..]

@[simp] theorem dropRetargets_front_windows (pr : Nat) (s : State) : (dropRetargets pr s).front.windows =
    s.front.windows := by
  unfold dropRetargets; simp

@[simp] theorem shutProbe_plan_committing (i : Nat) (cause : Nat) (s : State) : (shutProbe i cause s).plan.committing
    = s.plan.committing := by
  unfold shutProbe; dsimp only; (repeat' split) <;> simp [dropRetargets_frame ..]

@[simp] theorem shutProbe_plan_starting (i : Nat) (cause : Nat) (s : State) : (shutProbe i cause s).plan.starting =
    s.plan.starting := by
  unfold shutProbe; dsimp only; (repeat' split) <;> simp [dropRetargets_frame ..]

@[simp] theorem probeRemoveBody_plan_committing (f : CmdFrame) (s : State) : (probeRemoveBody f s).1.plan.committing =
    s.plan.committing := by
  unfold probeRemoveBody; simp

@[simp] theorem probeRemoveBody_plan_starting (f : CmdFrame) (s : State) : (probeRemoveBody f s).1.plan.starting =
    s.plan.starting := by
  unfold probeRemoveBody; simp

@[simp] theorem crossProgramme_prog_follows (i : Nat) (s : State) : (crossProgramme i s).prog.follows = s.prog.follows
    := by
  unfold crossProgramme; simp

@[simp] theorem swapChains_prog_follows (i : Nat) (pr : Nat) (r : Reception) (p : Probe) (s : State) : (swapChains i
    pr r p s).prog.follows = s.prog.follows := by
  unfold swapChains; simp

@[simp] theorem arrive_prog_follows (i : Nat) (r : Reception) (s : State) : (arrive i r s).prog.follows =
    s.prog.follows := by
  unfold arrive; dsimp only; (repeat' split) <;> simp

@[simp] theorem probeJoins_front_windows (pr : Nat) (p : Probe) (s : State) : (probeJoins pr p s).front.windows =
    s.front.windows := by
  unfold probeJoins; dsimp only; (repeat' split) <;> simp

@[simp] theorem probeJoins_prog_follows (pr : Nat) (p : Probe) (s : State) : (probeJoins pr p s).prog.follows =
    s.prog.follows := by
  unfold probeJoins; dsimp only; (repeat' split) <;> simp

@[simp] theorem closeSweep_front_windows (s : State) : (closeSweep s).front.windows = s.front.windows := by
  unfold closeSweep; simp

@[simp] theorem finishRemovals_plan_committing (cause : Option Nat) (s : State) : (finishRemovals cause
    s).plan.committing = s.plan.committing := by
  unfold finishRemovals; simp [finishBlend_frame ..]

@[simp] theorem finishRemovals_plan_starting (cause : Option Nat) (s : State) : (finishRemovals cause s).plan.starting
    = s.plan.starting := by
  unfold finishRemovals; simp [finishBlend_frame ..]

@[simp] theorem stopAll_plan_committing (cause : Option Nat) (s : State) : (stopAll cause s).plan.committing =
    s.plan.committing := by
  unfold stopAll; simp [stopPcms_frame .., stopOwner_frame .., stopFollowing_frame .., finishRemovals_frame .., stopWindow_frame ..]

@[simp] theorem stopAll_plan_starting (cause : Option Nat) (s : State) : (stopAll cause s).plan.starting =
    s.plan.starting := by
  unfold stopAll; simp [stopPcms_frame .., stopOwner_frame .., stopFollowing_frame .., finishRemovals_frame .., stopWindow_frame ..]

@[simp] theorem tunersOff_front_windows (s : State) : (tunersOff s).front.windows = s.front.windows := by
  unfold tunersOff; simp

@[simp] theorem startObject_front_windows (cause : Option Nat) (o : ChainOwner) (s : State) : (startObject cause o
    s).front.windows = s.front.windows := by
  unfold startObject; (repeat' split) <;> simp_all

@[simp] theorem startObjects_front_windows (cause : Option Nat) (s : State) : (startObjects cause s).front.windows =
    s.front.windows := by
  unfold startObjects; simp

@[simp] theorem stopUnmarked_prog_follows (cause : Option Nat) (s : State) : (stopUnmarked cause s).prog.follows =
    s.prog.follows := by
  unfold stopUnmarked; simp [stopWindow_frame ..]

@[simp] theorem compatRetune_prog_follows (s : State) : (compatRetune s).prog.follows = s.prog.follows := by
  unfold compatRetune; simp

@[simp] theorem compatTune_prog_follows (khz : Nat) (bw : Nat) (s : State) : (compatTune khz bw s).prog.follows =
    s.prog.follows := by
  unfold compatTune; simp

@[simp] theorem compatTuned_prog_follows (s : State) : (compatTuned s).prog.follows = s.prog.follows := by
  unfold compatTuned; dsimp only; (repeat' split) <;> simp

@[simp] theorem compatStart_front_windows (c : Nat) (s : State) : (compatStart c s).front.windows = s.front.windows :=
    by
  unfold compatStart; simp

@[simp] theorem compatStart_head_deferred (c : Nat) (s : State) : (compatStart c s).head.deferred = s.head.deferred :=
    by
  unfold compatStart; simp

@[simp] theorem compatStart_plan_committing (c : Nat) (s : State) : (compatStart c s).plan.committing =
    s.plan.committing := by
  unfold compatStart; simp

@[simp] theorem compatStart_plan_starting (c : Nat) (s : State) : (compatStart c s).plan.starting = s.plan.starting :=
    by
  unfold compatStart; simp

@[simp] theorem compatStart_prog_follows (c : Nat) (s : State) : (compatStart c s).prog.follows = s.prog.follows := by
  unfold compatStart; simp

@[simp] theorem compatApply_head_deferred (c : Nat) (s : State) : (compatApply c s).head.deferred = s.head.deferred :=
    by
  unfold compatApply; dsimp only; (repeat' split) <;> simp [shutReception_frame ..]

@[simp] theorem compatApply_plan_committing (c : Nat) (s : State) : (compatApply c s).plan.committing =
    s.plan.committing := by
  unfold compatApply; dsimp only; (repeat' split) <;> simp

@[simp] theorem compatApply_plan_starting (c : Nat) (s : State) : (compatApply c s).plan.starting = s.plan.starting :=
    by
  unfold compatApply; dsimp only; (repeat' split) <;> simp

@[simp] theorem compatRemoved_front_windows (s : State) : (compatRemoved s).front.windows = s.front.windows := by
  unfold compatRemoved; simp

@[simp] theorem compatRemoved_head_deferred (s : State) : (compatRemoved s).head.deferred = s.head.deferred := by
  unfold compatRemoved; simp

@[simp] theorem compatRemoved_plan_committing (s : State) : (compatRemoved s).plan.committing = s.plan.committing :=
    by
  unfold compatRemoved; simp

@[simp] theorem compatRemoved_plan_starting (s : State) : (compatRemoved s).plan.starting = s.plan.starting := by
  unfold compatRemoved; simp

@[simp] theorem compatRemoved_prog_follows (s : State) : (compatRemoved s).prog.follows = s.prog.follows := by
  unfold compatRemoved; simp

@[simp] theorem compatCtrl_head_deferred (c : Nat) (v : Byte) (s : State) : (compatCtrl c v s).head.deferred =
    s.head.deferred := by
  unfold compatCtrl; simp [compatRetune_frame ..]

@[simp] theorem compatCtrl_plan_committing (c : Nat) (v : Byte) (s : State) : (compatCtrl c v s).plan.committing =
    s.plan.committing := by
  unfold compatCtrl; simp [compatRetune_frame ..]

@[simp] theorem compatCtrl_plan_starting (c : Nat) (v : Byte) (s : State) : (compatCtrl c v s).plan.starting =
    s.plan.starting := by
  unfold compatCtrl; simp [compatRetune_frame ..]

@[simp] theorem compatPcm_head_deferred (s : State) : (compatPcm s).head.deferred = s.head.deferred := by
  unfold compatPcm; simp

@[simp] theorem compatPcm_prog_receptions (s : State) : (compatPcm s).prog.receptions = s.prog.receptions := by
  unfold compatPcm; simp

@[simp] theorem compatPcm_prog_follows (s : State) : (compatPcm s).prog.follows = s.prog.follows := by
  unfold compatPcm; simp

@[simp] theorem compatResume_front_windows (c : Nat) (s : State) : (compatResume c s).front.windows = s.front.windows
    := by
  unfold compatResume; (repeat' split) <;> simp_all

@[simp] theorem compatResume_head_deferred (c : Nat) (s : State) : (compatResume c s).head.deferred = s.head.deferred
    := by
  unfold compatResume; (repeat' split) <;> simp_all

@[simp] theorem compatResume_plan_committing (c : Nat) (s : State) : (compatResume c s).plan.committing =
    s.plan.committing := by
  unfold compatResume; (repeat' split) <;> simp_all

@[simp] theorem compatResume_plan_starting (c : Nat) (s : State) : (compatResume c s).plan.starting = s.plan.starting
    := by
  unfold compatResume; (repeat' split) <;> simp_all

@[simp] theorem compatResume_prog_follows (c : Nat) (s : State) : (compatResume c s).prog.follows = s.prog.follows :=
    by
  unfold compatResume; (repeat' split) <;> simp_all

@[simp] theorem compatEnter_plan_committing (s : State) : (compatEnter s).plan.committing = s.plan.committing := by
  unfold compatEnter; simp [compatPcm_frame .., windowOpened_frame ..]

@[simp] theorem compatEnter_plan_starting (s : State) : (compatEnter s).plan.starting = s.plan.starting := by
  unfold compatEnter; simp [compatPcm_frame .., windowOpened_frame ..]

@[simp] theorem compatLeave_mix_blends (s : State) : (compatLeave s).mix.blends = s.mix.blends := by
  unfold compatLeave; simp

@[simp] theorem changeBranch_prog_receptions (i : Nat) (p : List Byte) (s : State) : (changeBranch i p
    s).prog.receptions = s.prog.receptions := by
  unfold changeBranch; dsimp only; (repeat' split) <;> simp

@[simp] theorem changeBranch_prog_follows (i : Nat) (p : List Byte) (s : State) : (changeBranch i p s).prog.follows =
    s.prog.follows := by
  unfold changeBranch; dsimp only; (repeat' split) <;> simp

@[simp] theorem planBind_plan_committing (f : CmdFrame) (s : State) : (planBind f s).plan.committing =
    s.plan.committing := by
  unfold planBind; simp

@[simp] theorem planBind_plan_starting (f : CmdFrame) (s : State) : (planBind f s).plan.starting = s.plan.starting :=
    by
  unfold planBind; simp

@[simp] theorem createEntry_head_deferred (op : Nat) (i : Nat) (mark : Bool) (f : CmdFrame) (s : State) : (createEntry
    op i mark f s).1.head.deferred = s.head.deferred := by
  unfold createEntry; simp

@[simp] theorem changeEntry_plan_committing (op : Nat) (cause : Option Nat) (f : CmdFrame) (s : State) : (changeEntry
    op cause f s).1.plan.committing = s.plan.committing := by
  unfold changeEntry; simp [changeTap_frame .., changeBranch_frame .., planGang_frame ..]

@[simp] theorem changeEntry_plan_starting (op : Nat) (cause : Option Nat) (f : CmdFrame) (s : State) : (changeEntry op
    cause f s).1.plan.starting = s.plan.starting := by
  unfold changeEntry; simp [changeTap_frame .., changeBranch_frame .., planGang_frame ..]

@[simp] theorem settleMot_prog_receptions (old : List (Nat × Handle × Nat × Nat)) (s : State) : (settleMot old
    s).prog.receptions = s.prog.receptions := by
  unfold settleMot; simp

@[simp] theorem settleMot_prog_follows (old : List (Nat × Handle × Nat × Nat)) (s : State) : (settleMot old
    s).prog.follows = s.prog.follows := by
  unfold settleMot; simp

@[simp] theorem planBeginBody_plan_committing (f : CmdFrame) (s : State) : (planBeginBody f s).1.plan.committing =
    s.plan.committing := by
  unfold planBeginBody; simp

@[simp] theorem planBeginBody_plan_starting (f : CmdFrame) (s : State) : (planBeginBody f s).1.plan.starting =
    s.plan.starting := by
  unfold planBeginBody; simp

@[simp] theorem planPartBody_plan_committing (f : CmdFrame) (s : State) : (planPartBody f s).1.plan.committing =
    s.plan.committing := by
  unfold planPartBody; simp

@[simp] theorem planPartBody_plan_starting (f : CmdFrame) (s : State) : (planPartBody f s).1.plan.starting =
    s.plan.starting := by
  unfold planPartBody; simp

@[simp] theorem planDiscardBody_plan_committing (f : CmdFrame) (s : State) : (planDiscardBody f s).1.plan.committing =
    s.plan.committing := by
  unfold planDiscardBody; simp

@[simp] theorem planDiscardBody_plan_starting (f : CmdFrame) (s : State) : (planDiscardBody f s).1.plan.starting =
    s.plan.starting := by
  unfold planDiscardBody; simp

@[simp] theorem shutUnnamed_plan_committing (es : List PlanEntry) (tag : Nat) (s : State) : (shutUnnamed es tag
    s).plan.committing = s.plan.committing := by
  unfold shutUnnamed; simp [shutBlend_frame .., shutFollow_frame .., beginClose_frame ..]

@[simp] theorem shutUnnamed_plan_starting (es : List PlanEntry) (tag : Nat) (s : State) : (shutUnnamed es tag
    s).plan.starting = s.plan.starting := by
  unfold shutUnnamed; simp [shutBlend_frame .., shutFollow_frame .., beginClose_frame ..]

@[simp] theorem commitProgress_front_windows (s : State) : (commitProgress s).front.windows = s.front.windows := by
  unfold commitProgress; simp

@[simp] theorem commitProgress_plan_committing (s : State) : (commitProgress s).plan.committing = s.plan.committing :=
    by
  unfold commitProgress; simp [startObjects_frame ..]

@[simp] theorem receptionRemoved_head_deferred (i : Nat) (s : State) : (receptionRemoved i s).head.deferred =
    s.head.deferred := by
  unfold receptionRemoved; (repeat' split) <;> simp [decideLost_frame .., finishReception_frame ..]

@[simp] theorem receptionRemoved_plan_committing (i : Nat) (s : State) : (receptionRemoved i s).plan.committing =
    s.plan.committing := by
  unfold receptionRemoved; (repeat' split) <;> simp [decideLost_frame ..]

@[simp] theorem receptionRemoved_plan_starting (i : Nat) (s : State) : (receptionRemoved i s).plan.starting =
    s.plan.starting := by
  unfold receptionRemoved; (repeat' split) <;> simp [decideLost_frame ..]

@[simp] theorem settledReception_prog_follows (o : ChainOwner) (t : Tick) (s : State) : (settledReception o t
    s).prog.follows = s.prog.follows := by
  unfold settledReception; dsimp only; (repeat' split) <;> simp

@[simp] theorem takeFigs_head_deferred (r : Nat) (at' : Instant) (c : DabCif) (s : State) : (takeFigs r at' c
    s).head.deferred = s.head.deferred := by
  unfold takeFigs; (repeat' split) <;> simp [announce_frame .., learnLink_frame .., signalAlert_frame .., learnCand_frame ..]

@[simp] theorem motTaken_prog_receptions (i : Nat) (n : Nat) (tid : Nat) (m : MotObj) (at' : Instant) (s : State) :
    (motTaken i n tid m at' s).prog.receptions = s.prog.receptions := by
  unfold motTaken; dsimp only; (repeat' split) <;> simp [dropUntilFits_frame .., offerPieces_frame ..]

@[simp] theorem motTaken_prog_follows (i : Nat) (n : Nat) (tid : Nat) (m : MotObj) (at' : Instant) (s : State) :
    (motTaken i n tid m at' s).prog.follows = s.prog.follows := by
  unfold motTaken; dsimp only; (repeat' split) <;> simp [dropUntilFits_frame .., offerPieces_frame ..]

@[simp] theorem motRoom_prog_receptions (i : Nat) (tid : Nat) (p : Programme) (s : State) : (motRoom i tid p
    s).prog.receptions = s.prog.receptions := by
  unfold motRoom; dsimp only; (repeat' split) <;> simp

@[simp] theorem motRoom_prog_follows (i : Nat) (tid : Nat) (p : Programme) (s : State) : (motRoom i tid p
    s).prog.follows = s.prog.follows := by
  unfold motRoom; dsimp only; (repeat' split) <;> simp

@[simp] theorem motSegment_prog_receptions (i : Nat) (n : Nat) (tid : Nat) (seg : Nat) (last : Bool) (header : Bool)
    (directory : Bool) (declared : Nat) (data : List Byte) (at' : Instant) (s : State) : (motSegment i n tid seg last
    header directory declared data at' s).prog.receptions = s.prog.receptions := by
  unfold motSegment; dsimp only; (repeat' split) <;> simp

@[simp] theorem motSegment_prog_follows (i : Nat) (n : Nat) (tid : Nat) (seg : Nat) (last : Bool) (header : Bool)
    (directory : Bool) (declared : Nat) (data : List Byte) (at' : Instant) (s : State) : (motSegment i n tid seg last
    header directory declared data at' s).prog.follows = s.prog.follows := by
  unfold motSegment; dsimp only; (repeat' split) <;> simp

@[simp] theorem takeLabel_prog_receptions (p : Programme) (content : Nat) (cs : Byte) (tg : Bool) (seg : Nat) (last :
    Bool) (text : List Byte) (at' : Instant) (s : State) : (takeLabel p content cs tg seg last text at' s).prog.receptions
    = s.prog.receptions := by
  unfold takeLabel; dsimp only; (repeat' split) <;> simp [writePad_frame ..]

@[simp] theorem takeLabel_prog_follows (p : Programme) (content : Nat) (cs : Byte) (tg : Bool) (seg : Nat) (last :
    Bool) (text : List Byte) (at' : Instant) (s : State) : (takeLabel p content cs tg seg last text at' s).prog.follows =
    s.prog.follows := by
  unfold takeLabel; dsimp only; (repeat' split) <;> simp [writePad_frame ..]

@[simp] theorem takePad_prog_receptions (i : Nat) (at' : Instant) (x : PadIn) (s : State) : (takePad i at' x
    s).prog.receptions = s.prog.receptions := by
  unfold takePad; (repeat' split) <;> simp [writePad_frame ..]

@[simp] theorem takePad_prog_follows (i : Nat) (at' : Instant) (x : PadIn) (s : State) : (takePad i at' x
    s).prog.follows = s.prog.follows := by
  unfold takePad; (repeat' split) <;> simp [writePad_frame ..]

end Sys2Proof.Machine
end

