-- ==== Sys2Proof/Laws/Removal.lean ====
section
/-!
SUPPORT. Removal.lean: a device in which nothing is shed and no plan commit waits: what restoring shed objects, continuing a
commit and ending a removal leave of it.
-/

namespace Sys2Proof.Machine

/-- A response that nothing waits for is not sent. -/
theorem release_none {k : WaitKey} {r : Deferred → Reply} {s : State} (h : s.head.deferred.filter (fun x => x.key == k) = []) :
    release k r s = s := by
  have e : s.head.deferred.filter (fun x => x.key != k) = s.head.deferred := by
    rw [List.filter_eq_self]; intro x hx
    have := List.filter_eq_nil_iff.mp h x hx
    simpa [bne_iff_ne] using this
  unfold release; dsimp only; rw [h, e]; rfl

/-- With no commit under way, nothing is left to do for one (R350). -/
theorem commitProgress_idle {s : State} (h : s.plan.starting = false) (hd : s.head.deferred.filter (fun x => x.key == .commit) = []) :
    commitProgress s = s := by
  unfold commitProgress; simp only [h, Bool.false_and, Bool.false_or, Bool.false_eq_true, if_false]
  rw [release_none hd]; exact ite_self _

theorem commitContinue_idle {s : State} (hc : s.plan.committing = none) (h : s.plan.starting = false)
    (hd : s.head.deferred.filter (fun x => x.key == .commit) = []) : commitContinue s = s := by
  unfold commitContinue; rw [hc]; exact commitProgress_idle h hd

theorem find_shed {α : Type} {l : List α} {p q : α → Bool} (h : l.any q = false) : ((l.find? p).map q).getD false = false := by
  cases e : l.find? p with
  | none => rfl
  | some x =>
    have := List.mem_of_find?_eq_some e
    rw [List.any_eq_false] at h
    simpa using h x this

/-- While nothing is shed, no item of the shedding order is (R539). -/
theorem itemShed_none {s : State} (h : anyShed s = false) (x : Nat × Nat × Nat) : itemShed s x = false := by
  unfold anyShed at h; simp only [Bool.or_eq_false_iff] at h
  obtain ⟨⟨⟨⟨h1, h2⟩, h3⟩, h4⟩, h5⟩ := h
  unfold itemShed; split
  · exact find_shed h3
  · exact find_shed h2
  · exact find_shed h4
  · exact find_shed h1
  · have := find_shed (p := fun p => p.idx == x.2.2) h5
    unfold programmeAt
    cases e : s.prog.programmes.find? (fun p => p.idx == x.2.2) with
    | none => rfl
    | some p => rw [e] at this; simp at this ⊢; exact this

/-- While nothing is shed, nothing is restored (R539). -/
theorem resumeShed_none {s : State} (h : anyShed s = false) : resumeShed s = s := by
  have e : ∀ l : List (Nat × Nat × Nat), l.foldl (fun (a : State × Bool) x =>
      if !a.2 || !itemShed a.1 x then a
      else
        let t := setItem false x a.1
        if guUsed t ≤ guLimit t then (refreshTuners (reportItem false x t), true) else (a.1, false)) (s, true) = (s, true) := by
    intro l
    induction l with
    | nil => rfl
    | cons x l ih => rw [List.foldl_cons, if_pos (by simp [itemShed_none h])]; exact ih
  unfold resumeShed; rw [e]

/-! ### The end of an opening and of a retune (R120, R121) -/

theorem windowAt_windows {s t : State} (h : t.front.windows = s.front.windows) (w : Nat) : windowAt t w = windowAt s w := by
  unfold windowAt; rw [h]

/-- Setting the correction of a window's tuner changes of the windows only the image figure (R510, R522). -/
theorem windowAt_iqRetune (w v : Nat) (s : State) : ∃ im, windowAt (iqRetune w s) v =
    if w = v then { windowAt s v with image := im } else windowAt s v := by
  unfold iqRetune; split
  · exact ⟨(windowAt s v).image, by split <;> rfl⟩
  · dsimp only
    rw [windowAt_modWindow]
    by_cases c : w = v
    · by_cases d : v < s.front.windows.length
      · rw [if_pos ⟨c, d⟩]; exact ⟨_, (if_pos c).symm⟩
      · rw [if_neg (fun k => d k.2)]; exact ⟨(windowAt s v).image, (if_pos c).symm⟩
    · rw [if_neg (fun k => c k.1)]; exact ⟨0, (if_neg c).symm⟩

/-- A retune that nothing waits for does not start. -/
theorem startWaitingRetune_none {w : Nat} {s : State} (h : (windowAt s w).retuneTo = none) : startWaitingRetune w s = s := by
  unfold startWaitingRetune; rw [h]

/-- A window of which an operation ends takes its change and the correction of its tuner, a retune that nothing asks for does not
start, and the commands that waited are answered; of the other windows nothing changes (R120, R121). -/
theorem windowAt_settled {w : Nat} {s a : State} (k : WaitKey) (c : Option Nat) (r : Deferred → Reply) (g : Window → Window)
    (ha : a.front.windows = s.front.windows) (hr : (g (windowAt s w)).retuneTo = none) (hl : w < s.front.windows.length) :
    let t := startWaitingRetune w (releaseDeferred (release k r (noteHarmonics [w] c (judgeWindow c w (iqRetune w (modWindow w g a))))))
    t.head.deferred = (iqRetune w (modWindow w g a)).head.deferred.filter (fun x => x.key != k) ∧
      ∀ v, ∃ im, windowAt t v = if w = v then { g (windowAt s v) with image := im } else windowAt s v := by
  have e : ∀ u b, windowAt (releaseDeferred (release k r (noteHarmonics [w] c (judgeWindow c w b)))) u = windowAt b u := by
    intro u b; exact windowAt_windows (by simp [releaseDeferred_frame ..]) u
  have m : ∀ u, windowAt (modWindow w g a) u = if w = u then g (windowAt s u) else windowAt s u := by
    intro u
    rw [windowAt_modWindow, windowAt_windows ha, ha]
    by_cases q : w = u
    · subst q; rw [if_pos ⟨rfl, hl⟩, if_pos rfl]
    · rw [if_neg (fun x => q x.1), if_neg q]
  have n : (windowAt (iqRetune w (modWindow w g a)) w).retuneTo = none := by
    obtain ⟨im, i⟩ := windowAt_iqRetune w w (modWindow w g a)
    rw [i, if_pos rfl, m, if_pos rfl]; exact hr
  dsimp only
  rw [startWaitingRetune_none (by rw [e]; exact n)]
  refine ⟨?_, fun v => ?_⟩
  · have : ∀ b : State, (releaseDeferred b).head = b.head := fun b => by simp [releaseDeferred_frame ..]
    rw [this, release_head]; simp
  · rw [e]
    obtain ⟨im, i⟩ := windowAt_iqRetune w v (modWindow w g a)
    refine ⟨im, ?_⟩
    rw [i, m]; split <;> rfl

/-- A window that reaches its settings is open; of the others nothing changes (R120). -/
theorem windowAt_windowOpened {w : Nat} {s : State} (h : (windowAt s w).state = .opening) (hp : windowRamping s w = false) (hr : (windowAt s w).retuneTo = none)
    (hl : w < s.front.windows.length) (v : Nat) : ∃ im, windowAt (windowOpened w s) v =
      if w = v then { windowAt s v with state := .open, image := im } else windowAt s v := by
  unfold windowOpened; rw [if_pos (by simp [h, hp])]; dsimp only
  generalize ha : hfStart w _ = a
  have e : a.front.windows = s.front.windows := by rw [← ha]; split <;> simp
  obtain ⟨im, q⟩ := (windowAt_settled (.windowOpen w) ((waiterTag (.windowOpen w) s).or (waiterTag .commit s)) plainReply
    (fun x => { x with state := .open }) e hr hl).2 v
  exact ⟨im, q.trans (by split <;> rfl)⟩

/-- A window that reaches its new settings is open again; of the others nothing changes (R121). -/
theorem windowAt_retuneDone {w : Nat} {s : State} (h : (windowAt s w).state = .retuning) (hp : windowRamping s w = false) (hr : (windowAt s w).retuneTo = none)
    (hl : w < s.front.windows.length) : (retuneDone w s).head.deferred = s.head.deferred.filter (fun x => x.key != .retune w) ∧
      ∀ v, ∃ im, windowAt (retuneDone w s) v =
        if w = v then { windowAt s v with state := .open, retunes := (windowAt s v).retunes + 1, image := im } else windowAt s v := by
  unfold retuneDone; dsimp only; rw [if_neg (by simp [hp]), if_pos h]
  generalize ha : lockPartner w _ = a
  have e : a.front.windows = s.front.windows := by rw [← ha]; split <;> simp
  have k := windowAt_settled (.retune w) ((waiterTag (.retune w) s).or (waiterTag .commit s)) plainReply
    (fun x => { x with state := .open, retunes := x.retunes + 1 }) e hr hl
  refine ⟨k.1.trans ?_, fun v => ?_⟩
  · rw [← ha]; split <;> simp [iqRetune_frame .., lockPartner_frame .., lockTuner_frame ..]
  · obtain ⟨im, q⟩ := k.2 v
    exact ⟨im, q.trans (by split <;> rfl)⟩

/-- An opened window's command is answered (R120). -/
theorem windowOpened_deferred {w : Nat} {s : State} (h : (windowAt s w).state = .opening) (hp : windowRamping s w = false) (hr : (windowAt s w).retuneTo = none)
    (hl : w < s.front.windows.length) : (windowOpened w s).head.deferred = s.head.deferred.filter (fun x => x.key != .windowOpen w) := by
  unfold windowOpened; rw [if_pos (by simp [h, hp])]; dsimp only
  generalize ha : hfStart w _ = a
  have e : a.front.windows = s.front.windows := by rw [← ha]; split <;> simp
  refine (windowAt_settled (.windowOpen w) _ _ (fun x => { x with state := .open }) e hr hl).1.trans ?_
  rw [← ha]
  split <;> simp [hfStart_frame .., iqRetune_frame .., lockPartner_frame .., lockTuner_frame ..]

/-! ### Removed objects (R336) -/

theorem any_filter_false {α : Type} {l : List α} {p q : α → Bool} (h : l.any p = false) : (l.filter q).any p = false := by
  rw [List.any_eq_false] at *; intro x hx; exact h x (List.mem_filter.mp hx).1

theorem find_filter_ne {α : Type} (l : List α) (k : α → Nat) (i : Nat) : (l.filter (fun x => k x != i)).find? (fun x => k x == i) = none := by
  rw [List.find?_eq_none]; intro x hx; have := (List.mem_filter.mp hx).2; simpa using this

/-- What is shed depends on the objects and the pairs. -/
theorem anyShed_congr {s t : State} (h : t.prog = s.prog) (k : t.mix = s.mix) : anyShed t = anyShed s := by
  unfold anyShed; rw [h, k]

theorem modChain_shed (o : ChainOwner) (g : Chain → Chain) (s : State) : anyShed (modChain o g s) = anyShed s := by
  have e : ∀ {α : Type} (l : List α) (p : α → Prop) [DecidablePred p] (f : α → α) (q : α → Bool), (∀ x, q (f x) = q x) →
      (l.map (fun x => if p x then f x else x)).any q = l.any q := by
    intro α l p _ f q h
    rw [List.any_map]; congr 1; funext x
    show q (if p x then f x else x) = q x
    split
    · exact h x
    · rfl
  cases o with
  | reception n =>
    unfold anyShed modChain modReception; dsimp only
    rw [e s.prog.receptions (fun r => r.idx = n) (fun r => { r with chain := g r.chain }) (·.shed) (fun _ => rfl)]
  | branch n =>
    unfold anyShed modChain; dsimp only
    rw [e s.prog.branches (fun r => r.o.idx = n) (fun r => { r with chain := g r.chain }) (·.o.shed) (fun _ => rfl)]
  | probe n =>
    unfold anyShed modChain; dsimp only
    rw [e s.prog.probes (fun r => r.o.idx = n) (fun r => { r with chain := g r.chain }) (·.o.shed) (fun _ => rfl)]
  | tap n => rfl

/-- Ending a fade sheds nothing and restores nothing (R538). -/
theorem releaseFadeHolds_shed (s : State) : anyShed (releaseFadeHolds s) = anyShed s := by
  unfold releaseFadeHolds
  exact foldl_keeps anyShed (fun b o => by split; rfl; exact modChain_shed _ _ _) _ _

/-- A change of a pair that does not shed it sheds nothing. -/
theorem modBlend_shed {i : Nat} {g : Blend → Blend} {s : State} (h : ∀ b : Blend, b.o.shed = false → (g b).o.shed = false)
    (k : anyShed s = false) : anyShed (modBlend i g s) = false := by
  unfold anyShed modBlend at *; dsimp only
  simp only [Bool.or_eq_false_iff, List.any_eq_false, List.mem_map] at k ⊢
  refine ⟨⟨k.1.1, ?_⟩, k.2⟩
  rintro _ ⟨b, hb, rfl⟩
  have := k.1.2 b hb
  split
  · simpa using h b (by simpa using this)
  · exact this

theorem blendTo_shed {i : Nat} {st : BlendState} {c : Option Nat} {s : State} (k : anyShed s = false) :
    anyShed (blendTo i st c s) = false := by
  unfold blendTo; split
  · exact k
  · rename_i b e
    split
    · exact k
    · dsimp only
      have hb : b.o.shed = false := by
        unfold anyShed at k
        simp only [Bool.or_eq_false_iff, List.any_eq_false] at k
        simpa using k.1.2 b (List.mem_of_find?_eq_some e)
      have q : anyShed (modBlend i (fun _ => { b with
          prev := b.state, state := st, epoch := s.time.epoch, stamp := s.time.count }) s) = false := modBlend_shed (fun _ _ => hb) k
      rw [← q]
      exact anyShed_congr (by simp) (by simp)

theorem cutFade_shed {i : Nat} {s : State} (k : anyShed s = false) : anyShed (cutFade i s) = false := by
  unfold cutFade; split
  · split
    · rw [releaseFadeHolds_shed]; exact blendTo_shed (modBlend_shed (fun _ h => h) k)
    · exact k
  · exact k

theorem finishBranch_gone {s : State} (h : anyShed s = false) (i : Nat) (c : Option Nat) : branchObj (finishBranch i c s) i = none := by
  unfold finishBranch; dsimp only
  split
  · rw [resumeShed_none]
    · unfold branchObj; simp [unbind]
    · unfold anyShed at *; simp [unbind] at h ⊢; simp_all
  · rename_i k; unfold branchObj
    rw [Bool.not_eq_true, List.any_eq_false] at k
    rw [List.find?_eq_none.mpr k]; rfl

theorem finishProbe_gone {s : State} (h : anyShed s = false) (i : Nat) (c : Option Nat) : probeObj (finishProbe i c s) i = none := by
  unfold finishProbe; dsimp only
  split
  · rw [resumeShed_none]
    · unfold probeObj; simp [unbind]
    · unfold anyShed at *; simp [unbind] at h ⊢; simp_all
  · rename_i k; unfold probeObj
    rw [Bool.not_eq_true, List.any_eq_false] at k
    rw [List.find?_eq_none.mpr k]; rfl

theorem finishTap_gone (s : State) (i : Nat) (c : Option Nat) : tapObj (finishTap i c s) i = none := by
  unfold finishTap; dsimp only
  split
  · unfold tapObj; simp [unbind]
  · rename_i k; unfold tapObj
    rw [Bool.not_eq_true, List.any_eq_false] at k
    rw [List.find?_eq_none.mpr k]; rfl

theorem finishFollow_gone (s : State) (i : Nat) (c : Option Nat) : followObj (finishFollow i c s) i = none := by
  unfold finishFollow
  split
  · rename_i k; unfold followObj; rw [k]; rfl
  · unfold followObj; simp

theorem finishPcm_gone {s : State} (h : anyShed s = false) (i : Nat) (c : Option Nat) : pcmObj (finishPcm i c s) i = none := by
  unfold finishPcm
  split
  · rename_i k; unfold pcmObj; rw [k]; rfl
  · dsimp only; rw [resumeShed_none]
    · unfold pcmObj; simp [unbind]
    · unfold anyShed at *; simp [unbind] at h ⊢; simp_all

theorem finishBlend_gone {s : State} (h : anyShed s = false) (i : Nat) (c : Option Nat) : blendObj (finishBlend i c s) i = none := by
  unfold finishBlend
  split
  · rename_i k; unfold blendObj; rw [k]; rfl
  · dsimp only
    have q : anyShed (cutFade i s) = false := cutFade_shed h
    rw [resumeShed_none]
    · unfold blendObj; simp
    · unfold anyShed at *; simp at q ⊢; simp_all

/-- Whether its shut-down leaves an object in the plan: it does not (R336). -/
theorem finishObj_gone {s : State} (h : anyShed s = false) (cls : ObjClass) (i : Nat) (c : Option Nat) :
    (match cls with
    | .branch => branchObj (refreshTuners (finishObj cls i c s)) i = none
    | .probe => probeObj (refreshTuners (finishObj cls i c s)) i = none
    | .tap => tapObj (refreshTuners (finishObj cls i c s)) i = none
    | .follow => followObj (refreshTuners (finishObj cls i c s)) i = none
    | .blend => blendObj (refreshTuners (finishObj cls i c s)) i = none
    | .pcm => pcmObj (refreshTuners (finishObj cls i c s)) i = none) := by
  cases cls
  · exact finishBranch_gone h i c
  · exact finishProbe_gone h i c
  · exact finishTap_gone s i c
  · exact finishFollow_gone s i c
  · exact finishBlend_gone h i c
  · exact finishPcm_gone h i c

end Sys2Proof.Machine
end

