-- ==== Sys2Proof/Laws/Chains.lean ====
section
/-!
SUPPORT. Chains.lean: what a change of one object leaves of each reception, chain, programme, follow object and pair.
-/

namespace Sys2Proof.Machine

/-- Looking an object up by its index after a change of the object of one index. -/
theorem find_mod {α : Type} (l : List α) (k : α → Nat) (i j : Nat) (g : α → α) (h : ∀ x, k (g x) = k x) :
    (l.map (fun x => if k x = i then g x else x)).find? (fun x => k x == j) =
      (l.find? (fun x => k x == j)).map (fun x => if i = j then g x else x) := by
  induction l with
  | nil => rfl
  | cons x l ih =>
    have e : k (if k x = i then g x else x) = k x := by split; exact h x; rfl
    rw [List.map_cons, List.find?_cons, List.find?_cons, e]
    by_cases c : k x = j
    · simp only [c, beq_self_eq_true]
      by_cases d : i = j
      · rw [if_pos d.symm]; simp [d]
      · rw [if_neg (fun q => d q.symm)]; simp [d]
    · have : (k x == j) = false := by simpa using c
      rw [this]; exact ih

/-- A reception after a change of one reception. -/
theorem receptionAt_modReception (i j : Nat) (g : Reception → Reception) (s : State) (h : ∀ r, (g r).idx = r.idx) :
    receptionAt (modReception i g s) j = (receptionAt s j).map (fun r => if i = j then g r else r) :=
  find_mod s.prog.receptions (·.idx) i j g h

theorem receptionAt_congr {s t : State} (h : t.prog.receptions = s.prog.receptions) (i : Nat) : receptionAt t i = receptionAt s i := by
  unfold receptionAt; rw [h]

/-- A programme after a change of one programme. -/
theorem programmeAt_modProgramme (i j : Nat) (g : Programme → Programme) (s : State) (h : ∀ r, (g r).idx = r.idx) :
    programmeAt (modProgramme i g s) j = (programmeAt s j).map (fun r => if i = j then g r else r) :=
  find_mod s.prog.programmes (·.idx) i j g h

theorem programmeAt_congr {s t : State} (h : t.prog.programmes = s.prog.programmes) (i : Nat) : programmeAt t i = programmeAt s i := by
  unfold programmeAt; rw [h]

/-- A chain depends on the objects only. -/
theorem chainOf_congr {s t : State} (h : t.prog = s.prog) (o : ChainOwner) : chainOf t o = chainOf s o := by
  unfold chainOf receptionAt; rw [h]

/-- The chain of an owner after a change of that chain. -/
theorem chainOf_modChain (o : ChainOwner) (g : Chain → Chain) (s : State) : chainOf (modChain o g s) o = (chainOf s o).map g := by
  cases o with
  | reception i =>
    show (receptionAt (modReception i _ s) i).map _ = ((receptionAt s i).map _).map g
    rw [receptionAt_modReception _ _ _ _ (by intro _; rfl)]
    cases receptionAt s i <;> simp
  | branch i =>
    show ((s.prog.branches.map _).find? _).map _ = ((s.prog.branches.find? _).map _).map g
    rw [find_mod s.prog.branches (·.o.idx) i i (fun b => { b with chain := g b.chain }) (by intro _; rfl)]
    cases s.prog.branches.find? (·.o.idx == i) <;> simp
  | probe i =>
    show ((s.prog.probes.map _).find? _).map _ = ((s.prog.probes.find? _).map _).map g
    rw [find_mod s.prog.probes (·.o.idx) i i (fun b => { b with chain := g b.chain }) (by intro _; rfl)]
    cases s.prog.probes.find? (·.o.idx == i) <;> simp
  | tap i =>
    show ((s.prog.taps.map _).find? _).map _ = ((s.prog.taps.find? _).map _).map g
    rw [find_mod s.prog.taps (·.o.idx) i i (fun b => { b with chain := g b.chain }) (by intro _; rfl)]
    cases s.prog.taps.find? (·.o.idx == i) <;> simp

/-- A change of a reception that keeps its index and its chain keeps every chain. -/
theorem chainOf_modReception (i : Nat) (g : Reception → Reception) (s : State) (h : ∀ r, (g r).idx = r.idx) (k : ∀ r, (g r).chain = r.chain)
    (o : ChainOwner) : chainOf (modReception i g s) o = chainOf s o := by
  cases o with
  | reception j =>
    show (receptionAt (modReception i g s) j).map _ = (receptionAt s j).map _
    rw [receptionAt_modReception _ _ _ _ h]
    cases e : receptionAt s j with
    | none => rfl
    | some r => simp only [Option.map_some]; congr 1; split; exact k r; rfl
  | branch j => rfl
  | probe j => rfl
  | tap j => rfl

theorem chainOf_compatRefresh (s : State) (o : ChainOwner) : chainOf (compatRefresh s) o = chainOf s o := chainOf_congr (by simp) o

theorem receptionAt_compatRefresh (s : State) (i : Nat) : receptionAt (compatRefresh s) i = receptionAt s i := receptionAt_congr (by simp) i

theorem chainOf_postLost (i c : Nat) (e : Instant) (b : Option Nat) (s : State) (o : ChainOwner) :
    chainOf (postLost i c e b s) o = chainOf s o := chainOf_congr (by simp [postLost_frame ..]) o

theorem receptionAt_postLost (i c : Nat) (e : Instant) (b : Option Nat) (s : State) (j : Nat) :
    receptionAt (postLost i c e b s) j = receptionAt s j := receptionAt_congr (by simp [postLost_frame ..]) j

/-- The alerts' end keeps every chain. -/
theorem chainOf_endAlerts (i reason : Nat) (pick : Alert → Bool) (at' : Instant) (cause : Option Nat) (s : State)
    (o : ChainOwner) : chainOf (endAlerts i reason pick at' cause s) o = chainOf s o := by
  unfold endAlerts; split
  · rfl
  · rw [chainOf_modReception]
    · exact chainOf_congr (by simp [reportAlert_frame ..]) o
    · intro _; rfl
    · intro _; rfl

/-- Loudness that starts again keeps every chain and every reception. -/
theorem chainOf_restartLoudness (i : Nat) (s : State) (o : ChainOwner) : chainOf (restartLoudness i s) o = chainOf s o := by
  cases o <;> rfl

theorem receptionAt_restartLoudness (i : Nat) (s : State) (j : Nat) : receptionAt (restartLoudness i s) j = receptionAt s j := rfl

/-- Losing a reception keeps every chain. -/
theorem chainOf_loseReception (i cause : Nat) (at' : Instant) (b : Option Nat) (s : State) (o : ChainOwner) :
    chainOf (loseReception i cause at' b s) o = chainOf s o := by
  unfold loseReception; split
  · rfl
  · dsimp only; split
    · rw [chainOf_endAlerts, chainOf_modReception _ _ _ (by intro _; rfl) (by intro _; rfl)]
    · rw [chainOf_compatRefresh, chainOf_endAlerts, chainOf_postLost, chainOf_restartLoudness, chainOf_modReception _ _ _ (by intro _; rfl) (by intro _; rfl)]

/-- A reception of the state that the alerts' end leaves: only its alerts changed. -/
theorem receptionAt_endAlerts (i reason : Nat) (pick : Alert → Bool) (at' : Instant) (cause : Option Nat) (s : State) (j : Nat) :
    receptionAt (endAlerts i reason pick at' cause s) j = (receptionAt s j).map (fun r =>
      if i = j then { r with alerts := r.alerts.filter (fun a => !pick a) } else r) := by
  unfold endAlerts; split
  · rename_i h
    by_cases c : i = j
    · rw [← c, h]; rfl
    · simp [c]
  · dsimp only
    rw [receptionAt_modReception _ _ _ _ (by intro _; rfl), receptionAt_congr (s := s) (by simp [reportAlert_frame ..])]

/-- A lost reception searches again (R181). -/
theorem receptionAt_loseReception (i cause : Nat) (at' : Instant) (b : Option Nat) (s : State) {r : Reception}
    (h : receptionAt s i = some r) (k : r.rx ≠ .searching) :
    receptionAt (loseReception i cause at' b s) i = some { searchAgain s r with alerts := [] } := by
  unfold loseReception; rw [h]; dsimp only; rw [if_neg k]
  rw [receptionAt_compatRefresh, receptionAt_endAlerts, receptionAt_postLost, receptionAt_restartLoudness, receptionAt_modReception _ _ _ _ (by intro _; rfl), h]
  simp [searchAgain]

theorem chainOf_post (code : Nat) (h : Handle) (p : List Byte) (b : Option Nat) (s : State) (o : ChainOwner) :
    chainOf (post code h p b s) o = chainOf s o := chainOf_congr (by simp) o

theorem chainOf_refreshTuners (s : State) (o : ChainOwner) : chainOf (refreshTuners s) o = chainOf s o := chainOf_congr (by simp) o

theorem chainOf_deliverBlock (o : ChainOwner) (k : Kind) (b : Block) (s : State) (p : ChainOwner) :
    chainOf (deliverBlock o k b s) p = chainOf s p := chainOf_congr (by simp [deliverBlock_frame ..]) p

theorem chainOf_noteLog (a b d e : Nat) (s : State) (p : ChainOwner) : chainOf (noteLog a b d e s) p = chainOf s p :=
  chainOf_congr (by simp [noteLog_frame ..]) p

/-- With every component tracked, no index is given out (R211). -/
theorem trackMore_none {s : State} (h : ∀ x ∈ s.prog.receptions, x.untracked = []) : trackMore s = s := by
  have e : firstUntracked s = none := by
    unfold firstUntracked
    rw [show s.prog.receptions.flatMap (fun r => r.untracked.map (fun d => (r.idx, d))) = [] by
      rw [List.flatMap_eq_nil_iff]; intro x hx; rw [h x hx]; rfl]
    rfl
  unfold trackMore
  generalize (s.prog.receptions.map (fun r => r.untracked.length)).sum = k
  cases k with
  | zero => rfl
  | succ k => unfold trackFrom; rw [e]

end Sys2Proof.Machine
end

