-- ==== Sys2Proof/Laws/Survey.lean ====
section
/-!
SUPPORT. Survey.lean: what the operations of a survey pass leave of its counts (R252 to R255).
-/

namespace Sys2Proof.Machine

/-- Chains given to candidates change the candidates only (R253). -/
theorem startCands_survey (s : State) : (startCands s).survey = { s.survey with cands := (startCands s).survey.cands } := rfl

/-- An entry delivered is one entry more, and no candidate more or less (R254). -/
theorem deliverEntry_counts (k f : Nat) (b : Nat → List Byte) (t : Tick) (s : State) :
    (deliverEntry k f b t s).survey.entries = s.survey.entries + 1 ∧ (deliverEntry k f b t s).survey.rejected = s.survey.rejected := by
  have e : (writeSurvey (b s.survey.entries) t s).survey = s.survey := by simp [writeSurvey_frame ..]
  unfold deliverEntry; dsimp only
  split
  · simp [writeSurvey_frame ..]
  · split
    · simp [writeSurvey_frame ..]
    · simp [writeSurvey_frame ..]

/-- Reporting what a pass did not find removes it from the list (R254). -/
theorem reportGone_survey (s : State) : (reportGone s).survey = { s.survey with
    entries := (reportGone s).survey.entries, list := s.survey.list.filter (fun e => e.pass == s.survey.pass) } := by
  have key : ∀ (l : List SurveyEntry) (t : State), (l.foldl (fun t e =>
      let t := writeSurvey (goneBytes t.survey.pass t.survey.entries e.bytes) t.time.count t
      { t with survey := { t.survey with entries := t.survey.entries + 1 } }) t).survey = { t.survey with
        entries := (l.foldl (fun t e =>
          let t := writeSurvey (goneBytes t.survey.pass t.survey.entries e.bytes) t.time.count t
          { t with survey := { t.survey with entries := t.survey.entries + 1 } }) t).survey.entries } := by
    intro l
    induction l with
    | nil => intro t; rfl
    | cons x l ih => intro t; rw [List.foldl_cons, ih]; simp [writeSurvey_frame ..]
  unfold reportGone; dsimp only
  rw [key]

end Sys2Proof.Machine
end

