-- ==== Sys2Proof/Laws/Demod.lean ====
section
/-!
SUPPORT. Demod.lean: what the operations of demodulation leave of the receptions.
-/

namespace Sys2Proof.Machine

/-- An acquired reception (R183). -/
theorem receptionAt_acquire {i : Nat} {r : Reception} {s : State} (at' : Instant) (h : receptionAt s i = some r) :
    receptionAt (acquire i at' s) i = some { r with rx := .acquired, bridge := false } := by
  unfold acquire; rw [h]; dsimp only
  rw [receptionAt_compatRefresh, receptionAt_congr (s := modReception i (fun r => { r with rx := .acquired, bridge := false }) s) (by simp),
    receptionAt_modReception _ _ _ _ (by intro _; rfl), h]
  simp

end Sys2Proof.Machine
end

