-- ==== Sys2Proof/Laws/Digital.lean ====
section
/-!
SUPPORT. Digital.lean: what the operations of digital reception leave of receptions and programmes.
-/

namespace Sys2Proof.Machine

/-- A reception that is not searching is not acquired anew (R223). -/
theorem judgeDigital_none {i : Nat} {at' : Instant} {s : State} {r : Reception} (h : receptionAt s i = some r)
    (k : r.rx ≠ .searching) : judgeDigital i at' s = s := by
  unfold judgeDigital; rw [h]; dsimp only
  rw [if_neg]; simp [k]

theorem receptionAt_writeSide (code kind i : Nat) (c : Bool) (l : Option Nat) (t : Instant) (p : List Byte) (s : State) (j : Nat) :
    receptionAt (writeSide code kind i c l t p s) j = receptionAt s j := receptionAt_congr (by simp [writeSide_frame ..]) j

/-- What the declaration of components keeps of a reception: its counts, its kind and its state (R208, R211). -/
theorem applyComps_reception {i : Nat} {s : State} {x : Reception} (all : List CompDecl) (h : receptionAt s i = some x) :
    ∃ y, receptionAt (applyComps i all s) i = some y ∧ y.reconfigs = x.reconfigs ∧ y.declared = all.filter (·.audio) ∧ y.rx = x.rx ∧ y.kind = x.kind := by
  generalize hl : all.filter (·.audio) = l
  let R (t : State) : Prop := ∃ y, receptionAt t i = some y ∧ y.reconfigs = x.reconfigs ∧ y.declared = l ∧ y.rx = x.rx ∧ y.kind = x.kind
  have mod : ∀ (t : State) (g : Reception → Reception), R t → (∀ r, (g r).idx = r.idx ∧ (g r).reconfigs = r.reconfigs ∧
      (g r).declared = r.declared ∧ (g r).rx = r.rx ∧ (g r).kind = r.kind) → R (modReception i g t) := by
    intro t g ⟨y, h0, h1, h2, h3, h4⟩ hg
    refine ⟨g y, ?_, (hg y).2.1.trans h1, (hg y).2.2.1.trans h2, (hg y).2.2.2.1.trans h3, (hg y).2.2.2.2.trans h4⟩
    rw [receptionAt_modReception _ _ _ _ (fun r => (hg r).1), h0]; simp
  have congr : ∀ t u : State, u.prog.receptions = t.prog.receptions → R t → R u := by
    intro t u e ⟨y, h0, h1⟩; exact ⟨y, (receptionAt_congr e i).trans h0, h1⟩
  have comp : ∀ (d : CompDecl) (t : State), R t → R (applyComp i d t) := by
    intro d t ht
    unfold applyComp; split
    · exact congr t _ (by simp) ht
    · unfold findProgramme; split
      · exact mod _ _ (congr t _ rfl ht) (fun r => by split <;> exact ⟨rfl, rfl, rfl, rfl, rfl⟩)
      · have step : ∀ (n : Nat) (g : Reception → Reception) (u : State), R u → (∀ r, (g r).idx = r.idx ∧ (g r).reconfigs = r.reconfigs ∧
            (g r).declared = r.declared ∧ (g r).rx = r.rx ∧ (g r).kind = r.kind) → R (postProgramme 0x8600 n none (modReception i g u)) :=
          fun n g u hu hg => congr (modReception i g u) _ (by simp) (mod u g hu hg)
        exact step _ _ _ (congr t _ rfl ht) (fun r => ⟨rfl, rfl, rfl, rfl, rfl⟩)
  have every : ∀ (m : List CompDecl) (t : State), R t → R (m.foldl (fun t d => applyComp i d t) t) := by
    intro m
    induction m with
    | nil => exact fun t ht => ht
    | cons d m ih => exact fun t ht => ih _ (comp d t ht)
  have base : R (modReception i (fun r => { r with
      declared := l
      untracked := r.untracked.filter (fun x => l.any (fun d => d.service == x.2.service && d.component == x.2.component)) })
      { s with prog := { s.prog with programmes := s.prog.programmes.map (fun p =>
        if p.reception = i && p.absentAt.isNone && !l.any (sameComp p) then { p with absentAt := some (now s) } else p) } }) := by
    refine ⟨{ x with
      declared := l
      untracked := x.untracked.filter (fun x => l.any (fun d => d.service == x.2.service && d.component == x.2.component)) }, ?_, rfl, rfl, rfl, rfl⟩
    rw [receptionAt_modReception _ _ _ _ (by intro _; rfl)]
    exact (congrArg (Option.map _) h).trans (by simp)
  have last : ∀ t : State, R t → R (compatFollow (noteUntracked i t)) := by
    intro t ht
    refine congr (noteUntracked i t) _ (by simp) ?_
    unfold noteUntracked; split
    · split
      · exact ht
      · exact congr (modReception i (fun r => { r with untrackedNoted := true }) t) _ (by simp) (mod _ _ ht (fun r => ⟨rfl, rfl, rfl, rfl, rfl⟩))
    · exact ht
  unfold applyComps; dsimp only; rw [hl]
  exact last _ (every l _ base)

/-- A programme's MOT objects after some were dropped (R243). -/
theorem programmeAt_dropMot (i : Nat) (count : Bool) (pick : MotObj → Bool) {s : State} {p : Programme} (h : programmeAt s i = some p) :
    programmeAt (dropMot i count pick s) i = some { p with
      mot := p.mot.filter (fun m => !pick m)
      motAbandoned := if count then satNat 65535 (p.motAbandoned + (p.mot.filter pick).length) else p.motAbandoned } := by
  unfold dropMot; rw [h]; dsimp only
  rw [programmeAt_modProgramme _ _ _ _ (by intro _; rfl), programmeAt_congr (s := s) (by split <;> rfl), h]; simp

/-- A programme that goes is gone (R210). -/
theorem programmeAt_removeProgramme (i : Nat) (c : Option Nat) {s : State} {p : Programme} (h : programmeAt s i = some p) :
    programmeAt (removeProgramme i c s) i = none := by
  unfold removeProgramme; rw [h]; dsimp only
  unfold programmeAt unbind; dsimp only
  exact find_filter_ne _ _ _

/-- A programme that goes sheds nothing (R538). -/
theorem removeProgramme_shed {i : Nat} {c : Option Nat} {s : State} (h : anyShed s = false) : anyShed (removeProgramme i c s) = false := by
  have mod : ∀ (t : State) (g : Programme → Programme), anyShed t = false → (∀ p, (g p).shedStep = p.shedStep) → anyShed (modProgramme i g t) = false := by
    intro t g ht hg
    unfold anyShed modProgramme at *; simp at ht ⊢
    refine ⟨ht.1, fun x hx => ?_⟩
    split
    · rw [hg]; exact ht.2 x hx
    · exact ht.2 x hx
  unfold removeProgramme; split
  · exact h
  · dsimp only
    rename_i p _
    have d1 : anyShed (if analogue (kindAt s p.reception) then s else decodingStops i s) = false := by
      split
      · exact h
      unfold decodingStops; split
      · exact h
      · dsimp only
        refine mod _ _ ?_ (fun _ => rfl)
        rw [anyShed_congr (s := s) (by split <;> simp [postSilence_frame ..]) (by split <;> simp [postSilence_frame ..])]; exact h
    generalize (if analogue (kindAt s p.reception) then s else decodingStops i s) = u at d1 ⊢
    have d2 : anyShed (dropMot i false (fun _ => true) u) = false := by
      unfold dropMot; split
      · exact d1
      · dsimp only
        refine mod _ _ ?_ (fun _ => rfl)
        rw [anyShed_congr (s := u) (by split <;> rfl) (by split <;> rfl)]; exact d1
    unfold anyShed at *; simp [unbind] at d2 ⊢
    exact ⟨d2.1, fun x hx _ => d2.2 x hx⟩

end Sys2Proof.Machine
end

