-- ==== Sys2Proof/Laws/Follow.lean ====
section
/-!
SUPPORT. Follow.lean: what the operations of follow objects, probes and blend pairs leave of them.
-/

namespace Sys2Proof.Machine

theorem followAt_modFollow (i j : Nat) (g : Follow → Follow) (s : State) (h : ∀ f, (g f).o.idx = f.o.idx) :
    followAt (modFollow i g s) j = (followAt s j).map (fun f => if i = j then g f else f) :=
  find_mod s.prog.follows (·.o.idx) i j g h

theorem followAt_congr {s t : State} (h : t.prog.follows = s.prog.follows) (i : Nat) : followAt t i = followAt s i := by
  unfold followAt; rw [h]

theorem followAt_idx {s : State} {i : Nat} {f : Follow} (h : followAt s i = some f) : f.o.idx = i := by
  have := List.find?_some h; simpa using this

theorem probeAt_modProbe (i j : Nat) (g : Probe → Probe) (s : State) (h : ∀ p, (g p).o.idx = p.o.idx) :
    probeAt (modProbe i g s) j = (probeAt s j).map (fun p => if i = j then g p else p) :=
  find_mod s.prog.probes (·.o.idx) i j g h

theorem probeAt_congr {s t : State} (h : t.prog.probes = s.prog.probes) (i : Nat) : probeAt t i = probeAt s i := by
  unfold probeAt; rw [h]

theorem probeAt_idx {s : State} {i : Nat} {p : Probe} (h : probeAt s i = some p) : p.o.idx = i := by
  have := List.find?_some h; simpa using this

theorem blendAt_modBlend (i j : Nat) (g : Blend → Blend) (s : State) (h : ∀ b, (g b).o.idx = b.o.idx) :
    blendAt (modBlend i g s) j = (blendAt s j).map (fun b => if i = j then g b else b) :=
  find_mod s.mix.blends (·.o.idx) i j g h

theorem blendAt_congr {s t : State} (h : t.mix.blends = s.mix.blends) (i : Nat) : blendAt t i = blendAt s i := by
  unfold blendAt; rw [h]

theorem blendAt_idx {s : State} {i : Nat} {b : Blend} (h : blendAt s i = some b) : b.o.idx = i := by
  have := List.find?_some h; simpa using this

/-- A pair's own change, by its index. -/
theorem blendAt_modBlend_self {i : Nat} {g : Blend → Blend} {s : State} {b : Blend} (h : blendAt s i = some b)
    (hg : ∀ b, (g b).o.idx = b.o.idx) : blendAt (modBlend i g s) i = some (g b) := by
  rw [blendAt_modBlend _ _ _ _ hg, h, Option.map_some, if_pos rfl]

theorem followAt_modFollow_self {i : Nat} {g : Follow → Follow} {s : State} {f : Follow} (h : followAt s i = some f)
    (hg : ∀ f, (g f).o.idx = f.o.idx) : followAt (modFollow i g s) i = some (g f) := by
  rw [followAt_modFollow _ _ _ _ hg, h, Option.map_some, if_pos rfl]

theorem probeAt_modProbe_self {i : Nat} {g : Probe → Probe} {s : State} {p : Probe} (h : probeAt s i = some p)
    (hg : ∀ p, (g p).o.idx = p.o.idx) : probeAt (modProbe i g s) i = some (g p) := by
  rw [probeAt_modProbe _ _ _ _ hg, h, Option.map_some, if_pos rfl]

/-- A pair that takes the place of the one of its index. -/
theorem blendAt_put {i : Nat} {s : State} {b y : Blend} (h : blendAt s i = some b) (hy : y.o.idx = i) :
    blendAt (modBlend i (fun _ => y) s) i = some y := by
  have e := find_mod s.mix.blends (·.o.idx) i i (fun x => if x.o.idx = i then y else x)
    (by intro x; split; rename_i k; exact hy.trans k.symm; rfl)
  have h' : s.mix.blends.find? (fun x => x.o.idx == i) = some b := h
  rw [h', Option.map_some, if_pos rfl, if_pos (blendAt_idx h)] at e
  refine Eq.trans ?_ e
  unfold modBlend blendAt; dsimp only
  congr 1
  apply List.map_congr_left
  intro x _; by_cases k : x.o.idx = i <;> simp [k]

/-- A pair put into another state: the state, the one before, and the time of the change (R281). -/
theorem blendAt_blendTo {i : Nat} {st : BlendState} {c : Option Nat} {s : State} {b : Blend} (h : blendAt s i = some b)
    (hs : b.state ≠ st) : blendAt (blendTo i st c s) i =
      some { b with prev := b.state, state := st, epoch := s.time.epoch, stamp := s.time.count } := by
  unfold blendTo
  have h' : s.mix.blends.find? (fun x => x.o.idx == i) = some b := h
  rw [h']; dsimp only
  rw [if_neg hs]
  exact (blendAt_congr (by simp) i).trans (blendAt_put (b := b) h (show b.o.idx = i from blendAt_idx h))

/-- The same with NO_AUDIO brought up to date. -/
theorem blendAt_blendGo {i : Nat} {st : BlendState} {c : Option Nat} {s : State} {b : Blend} (h : blendAt s i = some b)
    (hs : b.state ≠ st) : blendAt (blendGo i st c s) i =
      some { b with noAudio := !pairAudio s b, prev := b.state, state := st, epoch := s.time.epoch, stamp := s.time.count
                    offsetStep := false } := by
  unfold blendGo
  have h1 := blendAt_modBlend_self (g := fun b => { b with noAudio := !pairAudio s b }) h (by intro _; rfl)
  have h2 := blendAt_blendTo (st := st) (c := c) h1 hs
  exact blendAt_modBlend_self h2 (by intro _; rfl)

/-- A fade that begins plays the branch asked, with the pair's settings of the moment (R278). -/
theorem blendAt_startFade {i br : Nat} {c : Option Nat} {s : State} {b : Blend} (h : blendAt s i = some b)
    (hs : b.state ≠ .fading) : ∃ y, blendAt (startFade i br c s) i = some y ∧ y.state = .fading ∧ y.prev = b.state ∧
      y.playing = br ∧ y.request = none ∧ y.waiting = none ∧ y.fadeNow = b.fadeMs ∧ y.copied = curvePoints s b.curve ∧
      y.delay = lineNow s b ∧ y.motionAt = now s ∧ y.aligned = b.aligned ∧ y.offset = b.offset ∧ y.a = b.a ∧ y.b = b.b ∧
      y.unalignedFade = !(b.aligned && (br = earlier b || lineNow s b = fullOffset b)) := by
  unfold startFade; rw [h]; dsimp only
  refine ⟨_, blendAt_blendGo (blendAt_modBlend_self h (by intro _; rfl)) (by exact hs), rfl, rfl, rfl, rfl, rfl, rfl, rfl, rfl, rfl, rfl,
    rfl, rfl, rfl, ?_⟩
  simp

/-- A motion of the line begins from the delay already in it (R280). -/
theorem blendAt_startMotion {i : Nat} {st : BlendState} {q : Option Nat} {c : Option Nat} {s : State} {b : Blend}
    (h : blendAt s i = some b) (hs : b.state ≠ st) : ∃ y, blendAt (startMotion i st q c s) i = some y ∧ y.state = st ∧
      y.playing = b.playing ∧ y.request = q ∧ y.waiting = none ∧ y.delay = lineNow s b ∧ y.motionAt = now s := by
  unfold startMotion
  have h1 := blendAt_modBlend_self (i := i) (g := fun b => { settleLine s b with request := q, waiting := none }) h (by intro _; rfl)
  have h2 := blendAt_blendGo (st := st) (c := c) h1 (by simpa [settleLine] using hs)
  exact ⟨_, h2, rfl, rfl, rfl, rfl, rfl, rfl⟩

/-- What a window captures depends on the front end and the mode only (R117, R260). -/
theorem capturedBy_congr {s t : State} (h : t.front = s.front) (m : t.set = s.set) (k : Kind) (f : Nat) : capturedBy t k f = capturedBy s k f := by
  unfold capturedBy covers windowOpen windowBand runWidth windowAt; rw [h, m]

/-- No switch is carried on where no follow object uses the pair. -/
theorem resumeSwitches_none {b : Nat} {s : State} (h : ∀ f ∈ s.prog.follows, f.blend ≠ some b) : resumeSwitches b s = s := by
  unfold resumeSwitches
  have e : s.prog.follows.filter (fun f => f.blend = some b) = [] := by
    rw [List.filter_eq_nil_iff]; intro f hf; simpa using h f hf
  rw [e]; rfl

/-- The reception after an exchange of chains: it plays from the probe's chain (R270, R273). -/
theorem receptionAt_swapChains (i pr : Nat) (r : Reception) (p : Probe) (s : State) :
    receptionAt (swapChains i pr r p s) i = (receptionAt s i).map (takeOver p) := by
  have e : receptionAt (modReception i (takeOver p) (modProbe pr (handBack (releaseAudio i s) r) (releaseAudio i s))) i =
      (receptionAt s i).map (takeOver p) := by
    rw [receptionAt_modReception _ _ _ _ (by intro _; rfl), receptionAt_congr (s := s) (by simp)]
    cases receptionAt s i <;> simp
  rw [← e]
  exact receptionAt_congr (by unfold swapChains; dsimp only; split <;> rfl) i

/-- The probe after an exchange of chains: it has the reception's, from now on (R273). -/
theorem probeAt_swapChains (i pr : Nat) (r : Reception) (p : Probe) (s : State) :
    probeAt (swapChains i pr r p s) pr = (probeAt s pr).map (handBack s r) := by
  have n : now (releaseAudio i s) = now s := by simp [now, releaseAudio_frame ..]
  have e : probeAt (modReception i (takeOver p) (modProbe pr (handBack (releaseAudio i s) r) (releaseAudio i s))) pr =
      (probeAt s pr).map (handBack s r) := by
    rw [probeAt_congr (s := modProbe pr (handBack (releaseAudio i s) r) (releaseAudio i s))
        (t := modReception i (takeOver p) (modProbe pr (handBack (releaseAudio i s) r) (releaseAudio i s))) rfl,
      probeAt_modProbe _ _ _ _ (by intro _; rfl), probeAt_congr (s := s) (by simp)]
    unfold handBack; rw [n]
    cases probeAt s pr <;> simp
  rw [← e]
  exact probeAt_congr (by unfold swapChains; dsimp only; split <;> rfl) pr

/-- A reception that was covered and acquired goes on as it is (R270). -/
theorem arrive_covered {i : Nat} {r y : Reception} {s : State} (h : receptionAt s i = some y) (hc : r.chain.covered = true)
    (hr : r.rx ≠ .searching) : arrive i r s = s := by
  have c : chainOf s (.reception i) = some y.chain := by show (receptionAt s i).map (·.chain) = _; rw [h]; rfl
  unfold arrive; dsimp only; rw [c]; dsimp only
  rw [hc]; simp only [Bool.not_true, Bool.false_and, Bool.false_eq_true, if_false]
  rw [c]; dsimp only; rw [if_neg hr]

end Sys2Proof.Machine
end

