-- ==== Sys2Proof/Laws/Mode.lean ====
section
/-!
SUPPORT. Mode.lean: what waking, entering IDLE, and queueing a record leave.
-/

namespace Sys2Proof.Machine

/-- A wake to IDLE (R42). -/
theorem wakeSource_idle {n : Nat} {s : State} (h : s.set.mode = .hold) (hs : s.pwr.stage = .running) (hc : hostConfig s ≠ 3)
    (hr : s.set.resume = .idle) : (wakeSource n s).set = { s.set with mode := .idle, lastWake := n } ∧
      (wakeSource n s).clk.refOn = true ∧ (wakeSource n s).clk.sysPll = .locked ∧ (wakeSource n s).clk.sPll = .locked ∧
      (wakeSource n s).clk.aPll = .locked ∧ (wakeSource n s).plan = s.plan ∧ (wakeSource n s).sec = s.sec ∧
      now (wakeSource n s) = now s := by
  unfold wakeSource; rw [if_neg (by rw [hs]; decide), if_pos h]
  unfold wake
  dsimp only
  rw [if_pos (by rw [if_neg (by exact hc)]; exact hr)]
  simp [reduceDividers_frame .., setSettings, settingsDirty, now]

/-- With no command held behind a shut-down, none is handled. -/
theorem rerunAll_none {s : State} (h : s.head.held = []) : rerunAll s = s := rerunHeld_none h _ _ _

/-- IDLE is entered from a mode other than TEST (R36). -/
theorem finishTransition_idle {s : State} (h : s.set.mode ≠ .test) (hh : s.head.held = []) :
    (finishTransition .idle s).set = { s.set with mode := .idle } ∧ (finishTransition .idle s).head.transition = none ∧
      (finishTransition .idle s).gens = s.gens := by
  unfold finishTransition; dsimp only
  rw [if_neg h]
  have d : decide (Mode.idle = Mode.sentry) = false := rfl
  have ti : throughIdle s.set.mode .idle = false := by unfold throughIdle; simp
  simp only [d, ti, Bool.false_and, Bool.false_eq_true, ↓reduceIte]
  have r : ∀ (k : WaitKey) (f : Deferred → Reply) (t : State), (release k f t).head.held = t.head.held ∧ (release k f t).head.transition = t.head.transition := by
    intro k f t; unfold release; constructor <;> simp
  have em : ∀ t : State, t.set.mode = .idle → (enterMode (waiterTag .mode s) t).set = t.set ∧ (enterMode (waiterTag .mode s) t).head = t.head ∧ (enterMode (waiterTag .mode s) t).gens = t.gens := by
    intro t k; unfold enterMode; rw [if_neg (by rw [k]; decide)]
    unfold enterRunning; rw [if_neg (by rw [k]; decide), if_neg (by rw [k]; decide)]
    simp [tunersOff_frame ..]
  have e1 := em (setSettings { s.set with mode := .idle } { s with head := { s.head with transition := none } }) rfl
  rw [rerunAll_none (by rw [(r _ _ _).1]; simp [reduceDividers_frame .., e1]; exact hh)]
  rw [(r _ _ _).2]
  refine ⟨Eq.trans (by simp [reduceDividers_frame ..]) e1.1,
    Eq.trans (by simp [reduceDividers_frame ..]) (congrArg HeadS.transition e1.2.1),
    Eq.trans (by simp [reduceDividers_frame ..]) e1.2.2⟩

theorem modPair_queue (k : RecordKind) (g : CopyPair → CopyPair) (st : StoreS) : (modPair k g st).queue = st.queue ∧
    (modPair k g st).dirtyFirst = st.dirtyFirst ∧ (modPair k g st).dirtyLast = st.dirtyLast ∧
    (modPair k g st).calDirty = st.calDirty ∧ (modPair k g st).calLastWrite = st.calLastWrite := by
  cases k <;> exact ⟨rfl, rfl, rfl, rfl, rfl⟩

/-- A queued write stands last (R54). -/
theorem queueWrite_queue (k : RecordKind) (c : Content) (len : Nat) (both : Bool) (s : State) :
    (queueWrite k c len both s).2.store.queue =
      s.store.queue ++ [{ id := s.store.nextJob, kind := k, content := c, length := len, bothCopies := both }] ∧
    (queueWrite k c len both s).2.store.dirtyFirst = s.store.dirtyFirst ∧
    (queueWrite k c len both s).2.store.dirtyLast = s.store.dirtyLast ∧
    (queueWrite k c len both s).2.store.calDirty = s.store.calDirty := by
  unfold queueWrite; dsimp only
  split
  · refine ⟨(modPair_queue _ _ _).1, (modPair_queue _ _ _).2.1, (modPair_queue _ _ _).2.2.1, (modPair_queue _ _ _).2.2.2.1⟩
  · exact ⟨rfl, rfl, rfl, rfl⟩

/-- The end of a write takes it off the queue (R54). -/
theorem endFirst_queue (j : WriteJob) (rest : List WriteJob) (st : StoreS) : (endFirst j rest st).queue = rest := by
  unfold endFirst; dsimp only
  split
  · rw [(modPair_queue _ _ _).1, (modPair_queue _ _ _).1]
  · rw [(modPair_queue _ _ _).1]

/-- A change of a ring's settings leaves every other setting. -/
theorem applyRing_set (n : Nat) (x : RingSettings) (s : State) :
    (applyRing n x s).set = { s.set with rings := (applyRing n x s).set.rings } := by
  unfold applyRing; dsimp only
  repeat' split
  all_goals simp [enableVisible_frame .., repack_frame .., shrinkRing_frame .., modRingSet]

theorem applyRings_set (l : List (RingSettings × Nat)) (s : State) :
    (l.foldl (fun t x => applyRing x.2 x.1 t) s).set =
      { s.set with rings := (l.foldl (fun t x => applyRing x.2 x.1 t) s).set.rings } := by
  induction l generalizing s with
  | nil => rfl
  | cons a l ih =>
    rw [List.foldl_cons, ih (applyRing a.2 a.1 s)]
    rw [applyRing_set]

/-- Shipped settings of a device without link and time reference (R61, R603). -/
theorem applyShipped_set {tag : Nat} {s : State} (h : s.set.link.role = 0) (k : s.set.time.ref = 0) :
    (applyShipped tag s).set = { shippedSettings s with rings := (applyShipped tag s).set.rings } := by
  unfold applyShipped; dsimp only
  rw [h, k]
  simp only [ne_eq, not_true_eq_false, decide_false, Bool.false_and, Bool.false_eq_true, ↓reduceIte]
  generalize hB : ({ s with set := { shippedSettings s with rings := s.set.rings }, link := { s.link with newConfig := none, gatherTo := none, gpio4 := none }
                            clk := { s.clk with apllFrozen := false, wordLost := false } } : State) = B
  have e := applyRings_set (shippedSettings s).rings.zipIdx B
  have eB : B.set = { shippedSettings s with rings := s.set.rings } := by rw [← hB]
  rw [show ∀ t : State, (flushResponses t).set = t.set by intro t; simp [flushResponses_frame ..], e, eB]

/-- The zeroisation of slots queues one blank write each (R488). -/
theorem beginZeroise_parts (l : List Nat) (s : State) :
    (beginZeroise l s).sec = { s.sec with zeroising := s.sec.zeroising ++ l } ∧
      (beginZeroise l s).store.queue.length = s.store.queue.length + l.length := by
  unfold beginZeroise
  induction l generalizing s with
  | nil => simp
  | cons a l ih =>
    rw [List.foldl_cons]
    have k := ih ({ (queueWrite (.key a) .blank 0 true s).2 with
      sec := { (queueWrite (.key a) .blank 0 true s).2.sec with zeroising := (queueWrite (.key a) .blank 0 true s).2.sec.zeroising ++ [a] } })
    refine ⟨k.1.trans (by simp), k.2.trans ?_⟩
    have q := (queueWrite_queue (.key a) .blank 0 true s).1
    show (queueWrite (.key a) .blank 0 true s).2.store.queue.length + l.length = _
    rw [q]; simp; omega

/-- COMPAT entered with every channel disabled leaves the settings (R557). -/
theorem compatEnter_set {s : State} (h : ∀ c, (s.set.compat.channels.getD c {}).enable = false) : (compatEnter s).set = s.set := by
  unfold compatEnter; dsimp only
  rw [List.filter_eq_nil_iff.mpr (by
    intro c _; unfold compatChannel
    simp only [compatPcm_frame, windowOpened_frame, openWindow_frame]
    have h' := h c; rw [List.getD_eq_getElem?_getD] at h'
    split <;> simp [h'])]
  dsimp only [List.foldl_nil]
  simp [compatPcm_frame .., windowOpened_frame ..]

/-- COMPAT is left: its objects stop, and what was written and not applied is discarded (R37, R560). -/
theorem leaveMode_compat {c : Option Nat} {s : State} (h : s.set.mode = .compat) : leaveMode c s = compatLeave (stopAll c s) := by
  unfold leaveMode; dsimp only; rw [if_pos h, if_neg (by rw [h]; decide)]

/-- The shipped settings enable no channel of the emulation (R557, R603). -/
theorem shippedSettings_channels (s : State) (c : Nat) : ((shippedSettings s).compat.channels.getD c {}).enable = false := by
  have e : (shippedSettings s).compat.channels = ({} : CompatSettings).channels := rfl
  rw [e]
  match c with
  | 0 | 1 | 2 | 3 => rfl
  | n + 4 => rfl

end Sys2Proof.Machine
end

