-- ==== Sys2Proof/Laws/Resilience.lean ====
section
/-!
SUPPORT. Resilience.lean: what the operations of failures and errors leave of the engines, the Timber store's rows and the log.
-/

namespace Sys2Proof.Machine

/-- A note changes nothing of the device's health but the log (R548). -/
theorem logNote_health (b : Bool) (code i subj v : Nat) (c : Option Nat) (s : State) :
    (logNote b code i subj v c s).health = { s.health with
      log := (logNote b code i subj v c s).health.log, logSeq := (logNote b code i subj v c s).health.logSeq } := by
  unfold logNote; dsimp only
  (repeat' split) <;> simp

@[simp] theorem logNote_health_engines (b : Bool) (code i subj v : Nat) (c : Option Nat) (s : State) :
    (logNote b code i subj v c s).health.engines = s.health.engines := by
  rw [logNote_health]
@[simp] theorem logNote_health_badSnapshots (b : Bool) (code i subj v : Nat) (c : Option Nat) (s : State) :
    (logNote b code i subj v c s).health.badSnapshots = s.health.badSnapshots := by
  rw [logNote_health]
@[simp] theorem logNote_health_rowErrors (b : Bool) (code i subj v : Nat) (c : Option Nat) (s : State) :
    (logNote b code i subj v c s).health.rowErrors = s.health.rowErrors := by
  rw [logNote_health]
@[simp] theorem logNote_health_blockFaults (b : Bool) (code i subj v : Nat) (c : Option Nat) (s : State) :
    (logNote b code i subj v c s).health.blockFaults = s.health.blockFaults := by
  rw [logNote_health]
@[simp] theorem logNote_health_scrubAt (b : Bool) (code i subj v : Nat) (c : Option Nat) (s : State) :
    (logNote b code i subj v c s).health.scrubAt = s.health.scrubAt := by
  rw [logNote_health]

@[simp] theorem foldl_health_engines {α : Type} (h : State → α → State) (H : ∀ b a, (h b a).health.engines = b.health.engines) (l : List α)
    (b : State) : (l.foldl h b).health.engines = b.health.engines := foldl_keeps (fun s : State => s.health.engines) H l b
@[simp] theorem ite_health_engines (c : Prop) [Decidable c] (a b : HealthS) :
    (if c then a else b).engines = if c then a.engines else b.engines := by split <;> rfl
@[simp] theorem note_health_engines (code : Nat) (island : Nat) (subject : Nat) (value : Nat) (s : State) : (note code
    island subject value s).health.engines = s.health.engines := by
  unfold note; simp

@[simp] theorem noteLog_health_engines (code : Nat) (island : Nat) (subject : Nat) (value : Nat) (s : State) :
    (noteLog code island subject value s).health.engines = s.health.engines := by
  unfold noteLog; simp

@[simp] theorem closeBlock_health_engines (o : ChainOwner) (s : State) : (closeBlock o s).health.engines =
    s.health.engines := by
  unfold closeBlock; (repeat' split) <;> simp [countGap_frame .., engineTake_frame .., deliverBlock_frame .., scaleBlock_frame ..]

@[simp] theorem offerUnit_health_engines (code : Nat) (cls : Nat) (src : Handle) (n : Nat) (h : ShavingHdr) (pay :
    List Byte) (s : State) : (offerUnit code cls src n h pay s).health.engines = s.health.engines := by
  unfold offerUnit; simp [offerShaving_frame ..]

@[simp] theorem reportAlert_health_engines (i : Nat) (x0 : Alert) (began : Bool) (reason : Nat) (at' : Instant) (cause
    : Option Nat) (s : State) : (reportAlert i x0 began reason at' cause s).health.engines = s.health.engines := by
  unfold reportAlert; dsimp only; (repeat' split) <;> simp

@[simp] theorem endAlerts_health_engines (i : Nat) (reason : Nat) (pick : Alert → Bool) (at' : Instant) (cause :
    Option Nat) (s : State) : (endAlerts i reason pick at' cause s).health.engines = s.health.engines := by
  unfold endAlerts; (repeat' split) <;> simp

@[simp] theorem loseReception_health_engines (i : Nat) (cause : Nat) (at' : Instant) (by' : Option Nat) (s : State) :
    (loseReception i cause at' by' s).health.engines = s.health.engines := by
  unfold loseReception; (repeat' split) <;> simp [postLost_frame .., restartLoudness_frame ..]

@[simp] theorem dropChannel_health_engines (o : ChainOwner) (s : State) : (dropChannel o s).health.engines =
    s.health.engines := by
  unfold dropChannel; dsimp only; (repeat' split) <;> simp [freshOnMove_frame .., postBankChanged_frame ..]

@[simp] theorem oweBreaks_health_engines (cls : Nat) (h : Handle) (s : State) : (oweBreaks cls h s).health.engines =
    s.health.engines := by
  unfold oweBreaks; simp

@[simp] theorem oweSide_health_engines (i : Nat) (span : Nat) (s : State) : (oweSide i span s).health.engines =
    s.health.engines := by
  unfold oweSide; simp

@[simp] theorem judgeChain_health_engines (cause : Option Nat) (o : ChainOwner) (s : State) : (judgeChain cause o
    s).health.engines = s.health.engines := by
  unfold judgeChain; (repeat' split) <;> simp [judgeShed_frame .., restartChain_frame .., stopIntervals_frame ..]

@[simp] theorem judgeWindow_health_engines (cause : Option Nat) (w : Nat) (s : State) : (judgeWindow cause w
    s).health.engines = s.health.engines := by
  unfold judgeWindow; simp [seekWindow_frame ..]

@[simp] theorem endGlance_health_engines (st : Option CandState) (fo : Nat) (s : State) : (endGlance st fo
    s).health.engines = s.health.engines := by
  unfold endGlance; (repeat' split) <;> simp

@[simp] theorem setItem_health_engines (v : Bool) (x : Nat × Nat × Nat) (s : State) : (setItem v x s).health.engines =
    s.health.engines := by
  unfold setItem; dsimp only; (repeat' split) <;> simp [dropChannel_frame .., reportDecode_frame .., stopIntervals_frame .., cutFade_frame .., recharge_frame ..]

@[simp] theorem reportItem_health_engines (v : Bool) (x : Nat × Nat × Nat) (s : State) : (reportItem v x
    s).health.engines = s.health.engines := by
  unfold reportItem; simp

/-- Shedding fails no engine (R538). -/
@[simp] theorem shedItems_health_engines (s : State) : (shedItems s).1.health.engines = s.health.engines := by
  have f : ∀ (l : List (Nat × Nat × Nat)) (a : State × List (Nat × Nat × Nat)),
      (l.foldl (fun (a : State × List (Nat × Nat × Nat)) x =>
        if guUsed a.1 ≤ guLimit a.1 || itemShed a.1 x then a else (setItem true x a.1, a.2 ++ [x])) a).1.health.engines =
        a.1.health.engines := by
    intro l
    induction l with
    | nil => intro a; rfl
    | cons x l ih => intro a; rw [List.foldl_cons, ih]; split <;> simp
  exact f _ _

@[simp] theorem announceCapacity_health_engines (s : State) : (announceCapacity s).health.engines = s.health.engines
    := by
  unfold announceCapacity; simp

@[simp] theorem shedToLimit_health_engines (s : State) : (shedToLimit s).health.engines = s.health.engines := by
  unfold shedToLimit; simp

@[simp] theorem drawContexts_health_engines (e : Nat) (s : State) : (drawContexts e s).health.engines =
    s.health.engines := by
  unfold drawContexts; simp [drawBool_frame ..]

@[simp] theorem moveContext_health_engines (old : Nat) (o : ChainOwner) (s : State) : (moveContext old o
    s).health.engines = s.health.engines := by
  unfold moveContext; dsimp only; (repeat' split) <;> simp [bridgeBreak_frame ..]

@[simp] theorem moveDecode_health_engines (old : Nat) (p : Programme) (s : State) : (moveDecode old p
    s).health.engines = s.health.engines := by
  unfold moveDecode; simp [drawBool_frame ..]

/-- A failed engine has left service; the others stand as they did (R533). -/
theorem failEngine_engines (e : Nat) (s : State) :
    (failEngine e s).health.engines = modAt s.health.engines e (fun g => { g with working := false, stalledMs := 0 }) := by
  unfold failEngine; simp [dropFrames_frame ..]

/-- The check of one engine puts none back into service (R533). -/
theorem checkEngine_out (st ecc : BitVec 16) (s : State) (k e : Nat) (h : inService s e = false) :
    inService (checkEngine st ecc s k) e = false := by
  unfold inService at *
  unfold checkEngine; dsimp only
  repeat' split
  all_goals simp only [failEngine_engines, modAt_getD, drawContexts_health_engines, h]
  all_goals repeat' split
  all_goals simp_all

/-- An engine in service whose memory reports an uncorrectable error fails at once (R533). -/
theorem checkEngine_fails (st ecc : BitVec 16) (s : State) (e : Nat) (h : ecc.getLsbD e = true) (hl : e < s.health.engines.length) :
    inService (checkEngine st ecc s e) e = false := by
  by_cases w : inService s e = false
  · exact checkEngine_out st ecc s e e w
  · unfold inService at *
    unfold checkEngine; dsimp only
    rw [if_neg (by simpa using w), if_neg (by simp [h]), if_pos (by simp [h])]
    simp only [failEngine_engines, modAt_getD]
    split <;> simp_all

theorem checkEngines_out (st ecc : BitVec 16) (e : Nat) (l : List Nat) (s : State) (h : inService s e = false) :
    inService (l.foldl (checkEngine st ecc) s) e = false := by
  induction l generalizing s with
  | nil => exact h
  | cons k l ih => exact ih _ (checkEngine_out st ecc s k e h)

theorem checkEngine_length (st ecc : BitVec 16) (s : State) (k : Nat) :
    (checkEngine st ecc s k).health.engines.length = s.health.engines.length := by
  unfold checkEngine; dsimp only
  repeat' split
  all_goals simp [drawContexts_frame .., failEngine_engines]

/-- In a check of several engines, each one checked whose memory reports an uncorrectable error has left service at the end (R533). -/
theorem checkEngines_fails (st ecc : BitVec 16) (e : Nat) (h : ecc.getLsbD e = true) (l : List Nat) (s : State) (he : e ∈ l)
    (hl : e < s.health.engines.length) : inService (l.foldl (checkEngine st ecc) s) e = false := by
  induction l generalizing s with
  | nil => cases he
  | cons k l ih =>
    rcases List.mem_cons.mp he with rfl | he
    · exact checkEngines_out st ecc e l _ (checkEngine_fails st ecc s e h hl)
    · exact ih _ he (by rw [checkEngine_length]; exact hl)

/-- The check with nothing reported leaves each engine in service or out of it, and clears the stall of those in service (R533). -/
theorem checkEngine_quiet (s : State) (k : Nat) :
    checkEngine 0 0 s k = if !inService s k then s else { s with health := { s.health with
      engines := modAt s.health.engines k (fun g => { g with stalledMs := 0 })
      contexts := s.health.contexts.filter (fun x => x.2 != k) } } := by
  unfold checkEngine inService; dsimp only
  split
  · rfl
  · rw [if_pos (by simp)]

theorem checkEngines_quiet (e : Nat) (l : List Nat) (s : State) : inService (l.foldl (checkEngine 0 0) s) e = inService s e := by
  induction l generalizing s with
  | nil => rfl
  | cons k l ih =>
    show inService (l.foldl (checkEngine 0 0) (checkEngine 0 0 s k)) e = _
    rw [ih, checkEngine_quiet]
    split
    · rfl
    · unfold inService; dsimp only; rw [modAt_getD]; split <;> rfl

/-- The first error of a word, in a row without others: the word is remembered with its time, and no row is spared (R540, R541). -/
theorem correctWord_first {w : Nat} {s : State} (h : s.health.rowErrors.all (fun x => x.1 / 256 != w / 256) = true) :
    (correctWord w s).health.rowErrors = (w, now s) :: s.health.rowErrors ∧
    (correctWord w s).health.scrubAt = s.health.scrubAt ∧
    (correctWord w s).health.sparedRows = s.health.sparedRows ∧
    (correctWord w s).health.badSnapshots = s.health.badSnapshots := by
  rw [List.all_eq_true] at h
  have a : ∀ x ∈ s.health.rowErrors, (x.1 == w) = false := by
    intro x hx; have := h x hx; simp at this ⊢; intro e; exact this (by rw [e])
  have b : ∀ x ∈ s.health.rowErrors, (x.1 / 256 == w / 256) = false := by
    intro x hx; have := h x hx; simp at this ⊢; exact this
  have n : (noteLog 0x0404 0xFF 0 (w / 256) s).health = { s.health with
      log := (noteLog 0x0404 0xFF 0 (w / 256) s).health.log, logSeq := (noteLog 0x0404 0xFF 0 (w / 256) s).health.logSeq } :=
    logNote_health _ _ _ _ _ _ _
  unfold correctWord; dsimp only
  rw [if_neg]
  · refine ⟨?_, by rw [n], by rw [n], by rw [n]⟩
    rw [List.filter_eq_self.mpr (fun x hx => by simp [bne, a x hx])]
    simp [noteLog_frame .., now]
  · simp only [Bool.or_eq_true, not_or, Bool.not_eq_true, List.any_eq_false]
    exact ⟨fun x hx => by simp [a x hx], fun x hx => by simp [b x hx]⟩

/-- Sparing a row forgets the errors of its words (R541). -/
theorem spareRow_rowErrors (row : Nat) (s : State) :
    (spareRow row s).health.rowErrors = s.health.rowErrors.filter (fun x => x.1 / 256 != row) := by
  unfold spareRow note; dsimp only
  repeat' split
  all_goals simp

/-- Answering commands RESTARTED changes no setting, no plan and nothing of the Headstock's own (R353). -/
theorem answerRestarted_fold (l : List Deferred) (u : State) :
    (l.foldl (fun t d => answerRestarted d t) u).head = u.head ∧ (l.foldl (fun t d => answerRestarted d t) u).plan = u.plan ∧
    (l.foldl (fun t d => answerRestarted d t) u).set = u.set := by
  induction l generalizing u with
  | nil => exact ⟨rfl, rfl, rfl⟩
  | cons d l ih =>
    have k := ih (answerRestarted d u)
    exact ⟨k.1.trans (by unfold answerRestarted; simp), k.2.1.trans (by unfold answerRestarted; simp),
      k.2.2.trans (by unfold answerRestarted; simp)⟩

end Sys2Proof.Machine
end

