-- ==== Sys2Proof/Laws/Boot.lean ====
section
/-!
SUPPORT. Boot.lean: what the parts of the power-on sequence leave of the firmware images, and where a sequence without faults
ends (R74, R86, R495).
-/

namespace Sys2Proof.Machine

/-! ### The staged plan across the rebuilding of the objects -/

@[simp] theorem foldl_plan_staged {α : Type} (h : State → α → State) (H : ∀ b a, (h b a).plan.staged = b.plan.staged) (l : List α)
    (b : State) : (l.foldl h b).plan.staged = b.plan.staged := foldl_keeps (fun s : State => s.plan.staged) H l b
@[simp] theorem ite_plan_staged (c : Prop) [Decidable c] (a b : PlanS) :
    (if c then a else b).staged = if c then a.staged else b.staged := by split <;> rfl
@[simp] theorem foldl_plan_parts {α : Type} (h : State → α → State) (H : ∀ b a, (h b a).plan.parts = b.plan.parts) (l : List α)
    (b : State) : (l.foldl h b).plan.parts = b.plan.parts := foldl_keeps (fun s : State => s.plan.parts) H l b
@[simp] theorem ite_plan_parts (c : Prop) [Decidable c] (a b : PlanS) :
    (if c then a else b).parts = if c then a.parts else b.parts := by split <;> rfl
@[simp] theorem planBind_plan_staged (f : CmdFrame) (s : State) : (planBind f s).plan.staged = s.plan.staged := by
  unfold planBind; simp

@[simp] theorem planBind_plan_parts (f : CmdFrame) (s : State) : (planBind f s).plan.parts = s.plan.parts := by
  unfold planBind; simp

@[simp] theorem changeEntry_plan_staged (op : Nat) (cause : Option Nat) (f : CmdFrame) (s : State) : (changeEntry op
    cause f s).1.plan.staged = s.plan.staged := by
  unfold changeEntry; simp [changeBranch_frame .., changeTap_frame .., planGang_frame ..]

@[simp] theorem changeEntry_plan_parts (op : Nat) (cause : Option Nat) (f : CmdFrame) (s : State) : (changeEntry op
    cause f s).1.plan.parts = s.plan.parts := by
  unfold changeEntry; simp [changeBranch_frame .., changeTap_frame .., planGang_frame ..]

@[simp] theorem restoreEntry_plan_staged (s : State) (x : PlanEntry × Nat) : (restoreEntry s x).plan.staged =
    s.plan.staged := by
  unfold restoreEntry; dsimp only; (repeat' split) <;> simp [createEntry_frame .., presetGen_frame ..]

@[simp] theorem restoreEntry_plan_parts (s : State) (x : PlanEntry × Nat) : (restoreEntry s x).plan.parts =
    s.plan.parts := by
  unfold restoreEntry; dsimp only; (repeat' split) <;> simp [createEntry_frame .., presetGen_frame ..]

@[simp] theorem restorePass_plan_staged (ops : List Nat) (es : List (PlanEntry × Nat)) (s : State) : (restorePass ops
    es s).plan.staged = s.plan.staged := by
  unfold restorePass; simp

@[simp] theorem restorePass_plan_parts (ops : List Nat) (es : List (PlanEntry × Nat)) (s : State) : (restorePass ops
    es s).plan.parts = s.plan.parts := by
  unfold restorePass; simp

@[simp] theorem restorePlan_plan_staged (r : PlanRecord) (s : State) : (restorePlan r s).plan.staged = s.plan.staged
    := by
  unfold restorePlan; simp [restoreGens_frame .., restorePass_frame ..]

@[simp] theorem restorePlan_plan_parts (r : PlanRecord) (s : State) : (restorePlan r s).plan.parts = s.plan.parts :=
    by
  unfold restorePlan; simp [restoreGens_frame .., restorePass_frame ..]

/-! ### The firmware images -/

@[simp] theorem modPair_images (k : RecordKind) (g : CopyPair → CopyPair) (st : StoreS) : (modPair k g st).images = st.images := by
  cases k <;> rfl

@[simp] theorem endFirst_images (j : WriteJob) (rest : List WriteJob) (st : StoreS) : (endFirst j rest st).images = st.images := by
  unfold endFirst; dsimp only; split <;> simp

@[simp] theorem loadRecord_images (por : Bool) (k : RecordKind) (s : State) :
    (loadRecord por k s).2.store.images = s.store.images := by
  unfold loadRecord bootNote; dsimp only; split
  · simp
  · split <;> rfl

@[simp] theorem loadCal_images (por : Bool) (s : State) : (loadCal por s).store.images = s.store.images := by
  unfold loadCal; simp

@[simp] theorem loadProfile_images (por : Bool) (s : State) : (loadProfile por s).store.images = s.store.images := by
  unfold loadProfile; simp

@[simp] theorem loadKey_images (por : Bool) (s : State) (i : Nat) : (loadKey por s i).store.images = s.store.images := by
  unfold loadKey; simp

@[simp] theorem endResetWrite_images (s : State) : (endResetWrite s).store.images = s.store.images := by
  unfold endResetWrite; split
  · split <;> simp
  · rfl

@[simp] theorem reload_images (outage : Nat) (s : State) : (reload outage s).store.images = s.store.images := by
  unfold reload; simp [advanceUnheld_frame .., restorePlan_frame ..]

@[simp] theorem loadProfile_rollback (por : Bool) (s : State) : (loadProfile por s).sec.rollback = s.sec.rollback := by
  unfold loadProfile; simp

@[simp] theorem loadKey_rollback (por : Bool) (s : State) (i : Nat) : (loadKey por s i).sec.rollback = s.sec.rollback := by
  unfold loadKey; simp

@[simp] theorem reload_rollback (outage : Nat) (s : State) : (reload outage s).sec.rollback = s.sec.rollback := by
  unfold reload; simp [advanceUnheld_frame .., loadCal_frame .., restorePlan_frame ..]

theorem firstImage_congr {s t : State} (h : t.store.images = s.store.images) : firstImage t = firstImage s := by
  unfold firstImage; rw [h]

theorem slotOk_congr {s t : State} (i : Nat) (h : t.store.images = s.store.images) (r : t.sec.rollback = s.sec.rollback) :
    slotOk t i = slotOk s i := by
  unfold slotOk; rw [h, r]

/-! ### The end of the sequence -/

theorem enterBootMode_mode (s : State) : (enterBootMode s).set.mode = .idle := by
  unfold enterBootMode; dsimp only; split <;> simp [reduceDividers_frame .., setSettings, settingsDirty]

theorem foldl_fallback_pwr (l : List Nat) (s : State) : (l.foldl (fun t k => writeFallback k t) s).pwr = s.pwr ∧
    (l.foldl (fun t k => writeFallback k t) s).clk = s.clk ∧ (l.foldl (fun t k => writeFallback k t) s).sec = s.sec := by
  induction l generalizing s with
  | nil => exact ⟨rfl, rfl, rfl⟩
  | cons k l ih => refine ⟨(ih _).1.trans ?_, (ih _).2.1.trans ?_, (ih _).2.2.trans ?_⟩ <;> simp [writeFallback_frame ..]

/-- Posting what a reset found changes nothing of the sequence but that a stay on the RC has been told (R93). -/
theorem postBoot_pwr (s : State) : (postBoot s).pwr = { s.pwr with aonNoted := (postBoot s).pwr.aonNoted } := by
  have f : ∀ (l : List (Nat × Nat × Nat)) (u : State), (l.foldl (fun t x => note x.1 x.2.1 0 x.2.2 t) u).pwr = u.pwr := by
    intro l u; exact foldl_keeps State.pwr (fun _ _ => by simp) l u
  unfold postBoot; dsimp only
  rw [f]
  (repeat' split) <;> rfl

/-- The sequence has ended: of its own state the stage, the open ports and whether a stay on the RC has been told are new. -/
def SequenceEnds (s t : State) : Prop :=
  t.pwr = { s.pwr with stage := .running, ready := true, commands := true, aonNoted := t.pwr.aonNoted }

theorem SequenceEnds.attempts {s t : State} (h : SequenceEnds s t) : t.pwr.attempts = s.pwr.attempts := by rw [h]
theorem SequenceEnds.rc {s t : State} (h : SequenceEnds s t) : t.pwr.rc = s.pwr.rc := by rw [h]
theorem SequenceEnds.strapCode {s t : State} (h : SequenceEnds s t) : t.pwr.strapCode = s.pwr.strapCode := by rw [h]

theorem finishBoot_ends (i : Nat) (s : State) : SequenceEnds s (finishBoot i s) := by
  unfold SequenceEnds finishBoot; dsimp only
  rw [show ∀ u, (enterBootMode u).pwr = u.pwr from fun u => by simp [enterBootMode_frame ..],
    show ∀ u, (postCoasted u).pwr = u.pwr from fun u => by simp [postCoasted_frame ..], postBoot_pwr]
  simp [initRings_frame .., initUnits_frame .., lockLoops_frame .., markBudget_frame .., newChallenge_frame ..,
    powerUpTriggers_frame .., shedToLimit_frame .., startHeadstock_frame .., (foldl_fallback_pwr _ _).1]

theorem finishBoot_parts (i : Nat) (s : State) :
    (finishBoot i s).clk = { (lockLoops s).clk with wdogSuspended := false } ∧ (finishBoot i s).sec.state = .operational ∧ (finishBoot i s).sec.running = i := by
  unfold finishBoot; dsimp only
  simp [enterBootMode_frame .., initRings_frame .., initUnits_frame .., lockLoops_frame .., markBudget_frame ..,
    newChallenge_frame .., postBoot_frame .., postCoasted_frame .., powerUpTriggers_frame .., shedToLimit_frame ..,
    startHeadstock_frame .., (foldl_fallback_pwr _ _).2.1, (foldl_fallback_pwr _ _).2.2]
  refine ⟨?_, ?_⟩
  · unfold startHeadstock; simp [initRings_frame .., initUnits_frame ..]
  · unfold newChallenge drbgRequest; simp [drawBytes_frame .., powerUpTriggers_frame .., startHeadstock]

/-- Booting an image ends with it running (R86). -/
theorem finishBoot_runs (i : Nat) (s : State) : RunsImage i (finishBoot i s) := by
  have k := finishBoot_parts i s
  have c := k.1
  have e := finishBoot_ends i s
  refine ⟨by rw [e], by rw [e], by rw [e], ?_, k.2.1, k.2.2, ?_, ?_, ?_, ?_⟩
  · unfold finishBoot; exact enterBootMode_mode _
  all_goals rw [c]; rfl

/-- Step 10 with a first image that passes: it runs (R90, R495). -/
theorem secureBoot_runs {s : State} (h : slotOk s (firstImage s) = true) : RunsImage (firstImage s) (secureBoot s) ∧
    SequenceEnds s (secureBoot s) := by
  unfold secureBoot; dsimp only
  rw [if_pos h]; exact ⟨finishBoot_runs _ _, finishBoot_ends _ _⟩

/-- Step 9 and what follows, without a fault (R86, R495, R501). -/
theorem selfTest_runs {s : State} (ht : s.pwr.boot.selfTest = true) (h : slotOk s (firstImage s) = true) :
    RunsImage (firstImage s) (selfTest s) ∧ SequenceEnds s (selfTest s) := by
  unfold selfTest; dsimp only [List.foldl]
  generalize hu : loadKey s.pwr.byPor (loadKey s.pwr.byPor (loadKey s.pwr.byPor s 0) 1) 2 = u
  have hi : u.store.images = s.store.images := by rw [← hu]; simp
  have hr : u.sec.rollback = s.sec.rollback := by rw [← hu]; simp
  have hp : u.pwr = s.pwr := by rw [← hu]; simp [loadKey_frame ..]
  rw [if_pos (by rw [hp]; exact ht), ← firstImage_congr hi, show SequenceEnds s = SequenceEnds u by unfold SequenceEnds; rw [hp]]
  exact secureBoot_runs (by rw [firstImage_congr hi, slotOk_congr _ hi hr]; exact h)

theorem bootNotes_parts (l : List Nat) (s : State) :
    (l.foldl (fun t i => bootNote 0x0101 i 0 t) s).store = s.store ∧ (l.foldl (fun t i => bootNote 0x0101 i 0 t) s).sec = s.sec ∧
    (l.foldl (fun t i => bootNote 0x0101 i 0 t) s).pwr = s.pwr := by
  induction l generalizing s with
  | nil => exact ⟨rfl, rfl, rfl⟩
  | cons k l ih => exact ⟨(ih _).1.trans rfl, (ih _).2.1.trans rfl, (ih _).2.2.trans rfl⟩

/-- With none of I1, I5, I6 and I11 held the sequence goes on (R75, R76). -/
theorem islandsDecided_runs {s : State} (hh : mayRun s.pwr.rc.held = true) (ht : s.pwr.boot.selfTest = true)
    (h : slotOk s (firstImage s) = true) :
    RunsImage (firstImage s) (islandsDecided s) ∧
    SequenceEnds s (islandsDecided s) := by
  unfold islandsDecided; dsimp only
  rw [if_neg (by unfold mayRun at hh; simpa using hh)]
  generalize hl : (List.range 17).filter (fun i => decide (0 < i) && s.pwr.rc.held.getLsbD (i - 1)) = l
  have k := bootNotes_parts l s
  rw [← firstImage_congr (congrArg StoreS.images k.1),
    show SequenceEnds s = SequenceEnds (l.foldl (fun t i => bootNote 0x0101 i 0 t) s) by unfold SequenceEnds; rw [k.2.2]]
  exact selfTest_runs (by rw [k.2.2]; exact ht) (by
    rw [firstImage_congr (congrArg StoreS.images k.1), slotOk_congr _ (congrArg StoreS.images k.1) (by rw [k.2.1])]
    exact h)

/-- With one of them held the sequence repeats, at most twice, and then the device halts (R76). -/
theorem islandsDecided_stops {s : State} (hh : mayRun s.pwr.rc.held = false) :
    islandsDecided s = if s.pwr.attempts < 2 then { s with pwr := { s.pwr with stage := .retry, stepAt := now s } } else halt s := by
  unfold islandsDecided; dsimp only
  rw [if_pos (by unfold mayRun at hh; rw [Bool.not_eq_false'] at hh; exact hh)]

/-- With the last gate open the sequence goes on (R74). -/
theorem gatesDone_runs {s : State} (hw : islandsWaiting s = 0) (hh : mayRun s.pwr.rc.held = true) (ht : s.pwr.boot.selfTest = true)
    (h : slotOk s (firstImage s) = true) :
    RunsImage (firstImage s) (gatesDone s) ∧ SequenceEnds s (gatesDone s) := by
  unfold gatesDone; rw [if_pos hw]; exact islandsDecided_runs hh ht h

theorem none_waits (u r h : BitVec 17) : u &&& ~~~(r ||| (u &&& (BitVec.allOnes 17 ||| 1))) &&& ~~~h = 0 := by
  rw [show (BitVec.allOnes 17 ||| 1 : BitVec 17) = BitVec.allOnes 17 by decide]
  ext i hi
  simp
  intro a b c
  have e : (131071#17)[i] = true := BitVec.getElem_allOnes (v := 17) (i := i) hi
  simp_all

/-- The last island that waits at its gate is released, or held: none waits any more (R74, R75). -/
theorem last_released (u r h b : BitVec 17) (k : u &&& ~~~r &&& ~~~h = b) : u &&& ~~~(r ||| b) &&& ~~~h = 0 := by
  subst k; ext i hi; simp; intro a b c; simp_all

theorem last_held (u r h b : BitVec 17) (k : u &&& ~~~r &&& ~~~h = b) : u &&& ~~~r &&& ~~~(h ||| b) = 0 := by
  subst k; ext i hi; simp; intro a b c; simp_all

@[simp] theorem reload_pwr (outage : Nat) (s : State) : (reload outage s).pwr = { s.pwr with reloadDone := true } := by
  unfold reload; simp [advanceUnheld_frame .., loadCal_frame .., loadProfile_frame .., restorePlan_frame ..]

/-- What the steps to the end of the sequence are given: every clock good, no island held, SDA high, the tests passed. -/
def GatesClear (s : State) : Prop :=
  s.pwr.clockGood = BitVec.allOnes 17 ∧ s.pwr.rc.held = 0 ∧ s.pwr.boot.sdaPulses < 10 ∧ s.pwr.boot.selfTest = true

theorem clear_waits (u r : BitVec 17) : u &&& ~~~(r ||| (u &&& BitVec.allOnes 17)) &&& ~~~(((0#16).setWidth 17 : BitVec 17) <<< 1) = 0 := by
  have k := none_waits u r (((0#16).setWidth 17 : BitVec 17) <<< 1)
  rwa [show (BitVec.allOnes 17 ||| 1 : BitVec 17) = BitVec.allOnes 17 by decide] at k

/-- What step 5 leaves: of the sequence's own state whether the bus is stuck is new (R401). -/
theorem recoverBus_parts (s : State) : (recoverBus s).store = s.store ∧ (recoverBus s).sec = s.sec ∧
    (recoverBus s).pwr = { s.pwr with rc := { s.pwr.rc with busStuck := decide (10 ≤ s.pwr.boot.sdaPulses) } } := by
  unfold recoverBus bootNote; dsimp only; split <;> exact ⟨rfl, rfl, rfl⟩

/-- What step 6 leaves: the images, and of the sequence's own state whether the reload is done (R72). -/
theorem reloadOnce_parts (s : State) : (reloadOnce s).store.images = s.store.images ∧ (reloadOnce s).sec.rollback = s.sec.rollback ∧
    ∃ d, (reloadOnce s).pwr = { s.pwr with reloadDone := d } := by
  unfold reloadOnce; split
  · exact ⟨rfl, rfl, _, rfl⟩
  · exact ⟨by simp, by simp, _, reload_pwr _ _⟩

/-- Steps 5 to 13 without a fault end with the image running (R86). -/
theorem releaseIslands_runs {s : State} (hb : GatesClear s) (h : slotOk s (firstImage s) = true) :
    RunsImage (firstImage s) (releaseIslands s) ∧
    (releaseIslands s).pwr.attempts = s.pwr.attempts ∧ (releaseIslands s).pwr.rc.cause = s.pwr.rc.cause ∧
    (releaseIslands s).pwr.rc.nresetCount = s.pwr.rc.nresetCount ∧ (releaseIslands s).pwr.strapCode = s.pwr.strapCode := by
  obtain ⟨h1, h0, h2, h3⟩ := hb
  have key : ∀ u : State, u.store.images = s.store.images → u.sec.rollback = s.sec.rollback → islandsWaiting u = 0 →
      u.pwr.rc.held = 0 → u.pwr.boot = s.pwr.boot → u.pwr.attempts = s.pwr.attempts → u.pwr.rc.cause = s.pwr.rc.cause →
      u.pwr.rc.nresetCount = s.pwr.rc.nresetCount → u.pwr.strapCode = s.pwr.strapCode →
      RunsImage (firstImage s) (gatesDone u) ∧ (gatesDone u).pwr.attempts = s.pwr.attempts ∧
      (gatesDone u).pwr.rc.cause = s.pwr.rc.cause ∧ (gatesDone u).pwr.rc.nresetCount = s.pwr.rc.nresetCount ∧
      (gatesDone u).pwr.strapCode = s.pwr.strapCode := by
    intro u e1 e2 e3 e4 e5 e6 e7 e8 e9
    have k := gatesDone_runs e3 (by rw [e4]; decide) (by rw [e5]; exact h3) (by rw [firstImage_congr e1, slotOk_congr _ e1 e2]; exact h)
    rw [firstImage_congr e1] at k
    exact ⟨k.1, k.2.attempts.trans e6, (congrArg ResetCause.cause k.2.rc).trans e7,
      (congrArg ResetCause.nresetCount k.2.rc).trans e8, k.2.strapCode.trans e9⟩
  obtain ⟨e1, e2, st, e3⟩ := reloadOnce_parts (recoverBus s)
  obtain ⟨f1, f2, f3⟩ := recoverBus_parts s
  unfold releaseIslands; dsimp only
  generalize reloadOnce (recoverBus s) = u at *
  rw [f3] at e3
  have l : (lockLoops u).pwr = u.pwr := rfl
  refine key _ (e1.trans (congrArg StoreS.images f1)) (e2.trans (congrArg MortiseS.rollback f2)) ?_ ?_ ?_ ?_ ?_ ?_ ?_
  · unfold islandsWaiting hostConfig; dsimp only
    rw [l, e3]; dsimp only; rw [h0, h1]
    exact clear_waits _ _
  all_goals (dsimp only; rw [l, e3])
  exact h0

/-- Step 4 and what follows, without a fault (R74, R86). -/
theorem releaseTime_runs {s : State} (hb : Faultless s.pwr.boot) (h : slotOk s (firstImage s) = true) :
    RunsImage (firstImage s) (releaseTime s) ∧
    (releaseTime s).pwr.attempts = s.pwr.attempts ∧ (releaseTime s).pwr.rc.cause = s.pwr.rc.cause ∧
    (releaseTime s).pwr.rc.nresetCount = s.pwr.rc.nresetCount ∧ (releaseTime s).pwr.strapCode = s.pwr.strapCode := by
  obtain ⟨h1, h2, h3⟩ := hb
  unfold releaseTime; dsimp only
  rw [if_pos (by
    rw [h1, show (BitVec.allOnes 17 ||| 1 : BitVec 17) = BitVec.allOnes 17 by decide, BitVec.getLsbD_or]
    simp)]
  unfold timeReleased
  exact releaseIslands_runs (s := _) ⟨by show s.pwr.boot.clocksGood ||| 1 = _; rw [h1]; decide, rfl, h2, h3⟩ h

@[simp] theorem readStrap_rails (l : List Rail) (s : State) : railsUp l (readStrap s) = railsUp l s := by
  unfold readStrap; split <;> rfl

/-- Every configuration requires the rails that all require (R82). -/
theorem railsUp_always {cfg : Nat} {s : State} (h : railsUp (requiredRails cfg) s = true) : railsUp alwaysRails s = true := by
  unfold railsUp requiredRails at *
  simp only [List.all_append, Bool.and_eq_true] at h
  exact h.1.1

/-- With every rail of its configuration good and nRESET high the power-on work without a fault ends with the image running
(R77, R82, R86). -/
theorem powerOnWork_runs {s : State} (hr : railsUp (requiredRails (hostConfig (readStrap s))) s = true)
    (hn : s.pwr.nresetLow = false) (hb : Faultless s.pwr.boot) (h : slotOk s (firstImage s) = true) :
    RunsImage (firstImage s) (powerOnWork s) ∧ (powerOnWork s).pwr.rc.cause = s.pwr.rc.cause ∧
    (powerOnWork s).pwr.strapCode = (readStrap s).pwr.strapCode := by
  have e : ∀ p : State, p = readStrap s → p.store = s.store ∧ p.sec = s.sec ∧ p.pwr.boot = s.pwr.boot ∧ p.pwr.nresetLow = s.pwr.nresetLow ∧
      p.pwr.rc = s.pwr.rc := by
    rintro p rfl; unfold readStrap; split <;> exact ⟨rfl, rfl, rfl, rfl, rfl⟩
  unfold powerOnWork; dsimp only
  rw [if_neg (by simp [railsUp_always hr]), if_neg (by simp [hr])]
  generalize hu : readStrap s = u at *
  obtain ⟨e1, e2, e3, e4, e5⟩ := e u rfl
  rw [if_neg (by simp [e4, hn])]
  have i1 : u.store.images = s.store.images := congrArg StoreS.images e1
  have k := releaseTime_runs (s := u) (by rw [e3]; exact hb)
    (by rw [firstImage_congr i1, slotOk_congr _ i1 (congrArg MortiseS.rollback e2)]; exact h)
  rw [firstImage_congr i1] at k
  exact ⟨k.1, k.2.2.1.trans (congrArg ResetCause.cause e5), k.2.2.2.2⟩

/-- A held island no longer waits (R75). -/
theorem held_waits {s u : State} {i : Nat} (hp : u.pwr = s.pwr) (h : islandsWaiting s = 1#17 <<< i) (h0 : 0 < i) (hi : i < 17) :
    islandsWaiting { u with pwr := { u.pwr with rc := { u.pwr.rc with held := u.pwr.rc.held ||| (1#16 <<< (i - 1)) } } } = 0 := by
  have b : ((1#16 <<< (i - 1)).setWidth 17 : BitVec 17) <<< 1 = 1#17 <<< i := by
    have : i = 1 ∨ i = 2 ∨ i = 3 ∨ i = 4 ∨ i = 5 ∨ i = 6 ∨ i = 7 ∨ i = 8 ∨ i = 9 ∨ i = 10 ∨ i = 11 ∨ i = 12 ∨ i = 13 ∨ i = 14 ∨
        i = 15 ∨ i = 16 := by omega
    rcases this with rfl | rfl | rfl | rfl | rfl | rfl | rfl | rfl | rfl | rfl | rfl | rfl | rfl | rfl | rfl | rfl <;> decide
  unfold islandsWaiting hostConfig at *
  dsimp only
  rw [hp, BitVec.setWidth_or, BitVec.shiftLeft_or_distrib, b]
  exact last_held _ _ _ _ h

/-- What an accepted nRESET keeps and clears (R65, R478). -/
theorem islandsReset_parts (s : State) :
    (islandsReset (paOffNow s)).pwr.stage = .nresetHeld ∧ (islandsReset (paOffNow s)).pwr.nresetLow = true ∧
    (islandsReset (paOffNow s)).pwr.commands = false ∧ (islandsReset (paOffNow s)).pwr.released = s.pwr.released &&& 3 ∧
    (islandsReset (paOffNow s)).store.images = s.store.images ∧ (islandsReset (paOffNow s)).store.settings = s.store.settings ∧
    (islandsReset (paOffNow s)).time.count = s.time.count ∧
    (islandsReset (paOffNow s)).sec.keys = ({} : State).sec.keys ∧ (islandsReset (paOffNow s)).bus = {} ∧
    (islandsReset (paOffNow s)).health = {} := by
  have a : ∀ u : State, (applyGpio4 u).pwr = u.pwr ∧ (applyGpio4 u).store.images = u.store.images ∧
      (applyGpio4 u).store.settings = u.store.settings ∧ (applyGpio4 u).time = u.time := by
    intro u; unfold applyGpio4; split
    · exact ⟨rfl, rfl, rfl, rfl⟩
    · exact ⟨rfl, rfl, rfl, rfl⟩
  have q := a (paOffNow s)
  unfold islandsReset; dsimp only
  simp [paOffNow_frame .., restorePlan_frame .., q.2.1, q.2.2.1]

/-- The sequence after nRESET with every region good and no fault ends with the image running (R45, R89). -/
theorem nresetWork_runs {s : State} {b : BootInputs} (hg : b.regionsBad = []) (hb : Faultless b) (h : slotOk s (firstImage s) = true) :
    RunsImage (firstImage s) (nresetWork b s) ∧ (nresetWork b s).pwr.rc.cause = 1 ∧
    (nresetWork b s).pwr.rc.nresetCount = satNat 255 (s.pwr.rc.nresetCount + 1) := by
  unfold nresetWork checkedSequence checkRegions; dsimp only
  rw [hg, show ([0, 1, 2, 3, 4] : List Nat).filter (fun r => ([] : List Nat).contains r) = [] by decide]
  dsimp only [List.foldl]
  have key : ∀ u : State, u.store.images = s.store.images → u.sec.rollback = s.sec.rollback → u.pwr.boot = b → u.pwr.rc.cause = 1 →
      u.pwr.rc.nresetCount = satNat 255 (s.pwr.rc.nresetCount + 1) →
      RunsImage (firstImage s) (releaseTime u) ∧ (releaseTime u).pwr.rc.cause = 1 ∧
      (releaseTime u).pwr.rc.nresetCount = satNat 255 (s.pwr.rc.nresetCount + 1) := by
    intro u e1 e2 e3 e4 e5
    have k := releaseTime_runs (s := u) (by rw [e3]; exact hb) (by rw [firstImage_congr e1, slotOk_congr _ e1 e2]; exact h)
    rw [firstImage_congr e1] at k
    exact ⟨k.1, by rw [k.2.2.1]; exact e4, by rw [k.2.2.2.1]; exact e5⟩
  exact key _ (by simp [endResetWrite_frame ..]) (by simp [endResetWrite_frame ..,
      loadCal_frame ..]) (by simp [endResetWrite_frame .., loadCal_frame ..,
      loadProfile_frame ..]) (by simp [endResetWrite_frame .., loadCal_frame ..,
      loadProfile_frame ..]) (by simp [endResetWrite_frame .., loadCal_frame .., loadProfile_frame ..])

/-! ### The sizes of the unit tables across a reset -/

theorem units_of_sizes {s t : State} (h : SameSizes s t) (u : UnitTables s) : UnitTables t := by
  obtain ⟨h1, h2, h3, h4, h5, h6, h7⟩ := h
  unfold UnitTables at *
  rw [h1, h2, h3, h4, h5, h6, h7]; exact u

theorem initRings_units {s : State} (u : UnitTables s) : UnitTables (initRings s) := by
  obtain ⟨_, h2, h3, h4, h5, h6, h7⟩ := u
  exact ⟨by simp [initRings], h2, h3, h4, h5, h6, h7⟩

theorem initUnits_units {s : State} (u : UnitTables s) : UnitTables (initUnits s) := by
  obtain ⟨h1, h2, h3, h4, h5, h6, _⟩ := u
  exact ⟨h1, h2, by simp [initUnits, h3], h4, h5, h6, by simp [initUnits]⟩

theorem lockLoops_units {s : State} (u : UnitTables s) : UnitTables (lockLoops s) := u

theorem startHeadstock_units {s : State} (u : UnitTables s) : UnitTables (startHeadstock s) := u

theorem foldl_units {α : Type} (g : State → α → State) (h : ∀ s a, UnitTables s → UnitTables (g s a)) (l : List α) {s : State} (u : UnitTables s) :
    UnitTables (l.foldl g s) := by
  induction l generalizing s with
  | nil => exact u
  | cons a l ih => exact ih (h s a u)

theorem finishBoot_units (i : Nat) {s : State} (u : UnitTables s) : UnitTables (finishBoot i s) := by
  have a := startHeadstock_units (initRings_units (initUnits_units (lockLoops_units u)))
  unfold finishBoot; dsimp only
  generalize startHeadstock (initRings (initUnits (lockLoops s))) = v at *
  have b : ∀ w : State, UnitTables w → UnitTables (enterBootMode (postCoasted (postBoot w))) := fun w hw =>
    units_of_sizes (s := postBoot w) (by simp [enterBootMode_frame ..,
        postCoasted_frame ..]) (units_of_sizes (s := w) (by simp [postBoot_frame ..]) hw)
  have c : ∀ w : State, UnitTables w → UnitTables (shedToLimit (markBudget 1 (markBudget 2 w))) := fun w hw =>
    units_of_sizes (s := w) (by simp [markBudget_frame .., shedToLimit_frame ..]) hw
  have d : ∀ w : State, UnitTables w → UnitTables (newChallenge (powerUpTriggers w)) := fun w hw =>
    units_of_sizes (s := powerUpTriggers w) (by simp [newChallenge_frame ..,
        powerUpTriggers_frame ..]) (units_of_sizes (s := w) (by simp [powerUpTriggers_frame ..]) hw)
  refine b _ (c _ (foldl_units _ (fun w k hw => units_of_sizes (s := w) (by simp [writeFallback_frame ..]) hw) _ ?_))
  exact d _ a

theorem recoveryBoot_units {s : State} (u : UnitTables s) : UnitTables (recoveryBoot s) := by
  have a := startHeadstock_units (initRings_units (initUnits_units (lockLoops_units u)))
  unfold recoveryBoot; dsimp only
  generalize startHeadstock (initRings (initUnits (lockLoops s))) = v at *
  have d : ∀ w : State, UnitTables w → UnitTables (newChallenge w) := fun w hw => units_of_sizes (s := w) (by simp [newChallenge_frame ..]) hw
  have b : ∀ w : State, UnitTables w → UnitTables (postBoot w) := fun w hw => units_of_sizes (s := w) (by simp [postBoot_frame ..]) hw
  exact b _ (d _ a)

theorem secureBoot_units {s : State} (u : UnitTables s) : UnitTables (secureBoot s) := by
  unfold secureBoot; dsimp only
  split
  · exact finishBoot_units _ u
  · split
    · exact finishBoot_units _ u
    · exact recoveryBoot_units u

theorem selfTest_units {s : State} (u : UnitTables s) : UnitTables (selfTest s) := by
  have a : UnitTables (([0, 1, 2] : List Nat).foldl (loadKey s.pwr.byPor) s) :=
    foldl_units _ (fun b k hb => units_of_sizes (s := b) (by simp [loadKey_frame ..]) hb) _ u
  unfold selfTest; dsimp only
  split
  · exact secureBoot_units a
  · exact a

theorem islandsDecided_units {s : State} (u : UnitTables s) : UnitTables (islandsDecided s) := by
  unfold islandsDecided; dsimp only
  split
  · split
    · exact u
    · exact units_of_sizes (s := s) (by simp [halt_frame ..]) u
  · exact selfTest_units (foldl_units (fun t i => bootNote 0x0101 i 0 t) (fun b k hb => hb) _ u)

theorem gatesDone_units {s : State} (u : UnitTables s) : UnitTables (gatesDone s) := by
  unfold gatesDone; split
  · exact islandsDecided_units u
  · exact u

theorem reload_units (outage : Nat) {s : State} (u : UnitTables s) : UnitTables (reload outage s) :=
  units_of_sizes (s := s) (by simp [reload_frame ..]) u

theorem releaseIslands_units {s : State} (u : UnitTables s) : UnitTables (releaseIslands s) := by
  have r : UnitTables (recoverBus s) := by unfold recoverBus; dsimp only; split <;> exact u
  have o : UnitTables (reloadOnce (recoverBus s)) := by
    unfold reloadOnce; split
    · exact r
    · exact reload_units _ r
  unfold releaseIslands; dsimp only
  exact gatesDone_units (lockLoops_units o)

theorem timeReleased_units {s : State} (u : UnitTables s) : UnitTables (timeReleased s) := releaseIslands_units u

theorem releaseTime_units {s : State} (u : UnitTables s) : UnitTables (releaseTime s) := by
  unfold releaseTime; dsimp only
  split
  · exact timeReleased_units u
  · exact u

/-- No unit table is in the power-on sequence's own state. -/
theorem pwr_units {s : State} (p : PowerS) (u : UnitTables s) : UnitTables { s with pwr := p } := u

theorem powerOnWork_units {s : State} (u : UnitTables s) : UnitTables (powerOnWork s) := by
  have v : UnitTables (readStrap s) := units_of_sizes (s := s) (by simp [readStrap_frame ..]) u
  have w : ∀ n, UnitTables (reload n (readStrap s)) := fun n => units_of_sizes (s := readStrap s) (by simp [reload_frame ..]) v
  unfold powerOnWork; dsimp only
  split
  · exact u
  · split
    · exact v
    · split
      · exact pwr_units _ (w (readStrap s).pwr.boot.outageSeconds)
      · exact releaseTime_units v

theorem powerOff_units (s : State) : UnitTables (powerOff s) := by
  unfold powerOff; dsimp only; split <;> exact ⟨rfl, rfl, rfl, rfl, rfl, rfl, rfl⟩

theorem islandsReset_units (s : State) : UnitTables (islandsReset s) := by
  unfold islandsReset; dsimp only
  have k : ∀ r t, UnitTables t → UnitTables { restorePlan r t with health := {} } := by
    intro r t ht
    obtain ⟨k1, k2, k3, k4, k5, k6, -⟩ := units_of_sizes (t := restorePlan r t) (by simp [restorePlan_frame ..]) ht
    exact ⟨k1, k2, k3, k4, k5, k6, rfl⟩
  exact k _ _ ⟨rfl, rfl, rfl, rfl, rfl, rfl, rfl⟩

theorem checkRegions_units (b : BootInputs) {s : State} (u : UnitTables s) : UnitTables (checkRegions b s) := units_of_sizes (s := s) (by simp [checkRegions_frame ..]) u

theorem nresetWork_units (b : BootInputs) {s : State} (u : UnitTables s) : UnitTables (nresetWork b s) := by
  unfold nresetWork; dsimp only
  have a : UnitTables (endResetWrite s) := units_of_sizes (s := s) (by simp [endResetWrite_frame ..]) u
  have c : ∀ w : State, UnitTables w → UnitTables (loadProfile false (loadCal false (checkRegions b w))) := fun w hw =>
    units_of_sizes (s := w) (by simp [checkRegions_frame .., loadCal_frame .., loadProfile_frame ..]) hw
  exact releaseTime_units (c _ a)

end Sys2Proof.Machine
end

