-- ==== Sys2Proof/Tests/Slice0.lean ====
section
/-!
SUPPORT. Slice0.lean: tests. `test_wf_…` show that each check of WellFormed refuses an ill-formed term; `test_…` take expected
values from the spec; `witness_…` show a state and operands that meet all hypotheses of one clause of a statement together.
-/

namespace Sys2Proof.Tests

set_option Elab.async false

open Sys2Proof Sys2Proof.Machine

/-- A device with SPI host ports that takes commands, in IDLE. -/
def live : State :=
  { pwr := { strapCode := 4, ready := true, commands := true, porAsserted := false, stage := .running, released := 0x7FFFF, counting := true }
    set := { mode := .idle }
    clk := { refOn := true, sysPll := .locked, sPll := .locked, aPll := .locked, linkSynth := .locked } }
/-- A command frame on the SPI port with this payload and target. -/
def cmd (payload : List Byte) (target : Handle := {}) : CmdFrame :=
  { port := 1, tag := 7, flags := 0, portField := 1, target := target, planSeq := 0, payload := payload }
/-- The same device with one object of each class, all of them of index 0, and every window closed. -/
def rich : State :=
  { live with
    prog := { receptions := [{}], branches := [{}], taps := [{}], probes := [{}], follows := [{}], programmes := [{}], pcms := [{}] }
    mix := { blends := [{}] } }
/-- A node with a link role and keys, in SERVE. -/
def node : State :=
  { live with
    set := { mode := .serve, link := { role := 1 } }
    link := { state := .synced, radio := .synth, counter := 5, reserved := 1000 }
    pwr := { live.pwr with railsGood := [.vddPa] } }
/-- A node that can send: keys, a regulatory profile and frames in its queue. -/
def sender : State :=
  { node with
    sec := { keys := [none, some (zeros 16), some (zeros 16)], state := .operational
             profile := some { subs := [{ start := 409000000, stop := 411000000, power := 28, width := 2, budget := 36 }] } }
    link := { node.link with queue := [{ counter := 4, payload := zeros 4 }], reserved := 1000 } }
/-- A gatherer with a downlink in its queue. -/
def gatherer : State :=
  { sender with
    set := { mode := .serve, link := { role := 2, own := 250001 }, gather := { startMs := 2000, downMs := 1500 } }
    link := { sender.link with state := .gathering, queue := [{ counter := 4, payload := zeros 4, dest := 7 }] } }
/-- A LOST node with a frame in its queue. -/
def lost : State := { sender with link := { sender.link with state := .lost, window := 1 } }
/-- A gatherer at the start of a superframe. -/
def atBoundary : State := { gatherer with link := { gatherer.link with reserved := 1000 } }
/-- A PCIe device whose link is up and may master the bus, with one entry waiting on ring 4 and a buffer for it. -/
def pcie : State :=
  { live with
    pwr := { live.pwr with strapCode := 8 }
    set := { mode := .idle, rings := setAt ({} : Settings).rings 4 { ({} : RingSettings) with enable := true, quota := 8192, size := 12 } }
    port := { live.port with pcieGen := 3, pcieWidth := 2, busMaster := true
                             rings := setAt live.port.rings 4 { ({} : Ring) with entries := [{ bytes := zeros 16 }] } } }
/-- A device in SERVE that receives this, with these programmes. -/
def serving (r : Reception) (l : List Programme := []) : State :=
  { live with set := { live.set with mode := .serve }, prog := { receptions := [r], programmes := l } }
/-- A covered chain of a kind that runs. -/
def running (k : Kind) : Chain := { kind := k, state := .running, covered := true }
/-- A device in IDLE with one tap. -/
def tapping (c : Chain) : State := { live with prog := { taps := [{ chain := c }] } }
/-- A symbol period of a detector with one strong bin. -/
def strong : LinkPeriod := { bins := 1000000 :: List.replicate 15 1 }
/-- A candidate whose six preamble periods and four down-chirp periods stand out of the noise. -/
def heard : LinkCand := { ups := List.replicate 6 strong, downs := List.replicate 4 strong }
/-- The bits of a header's symbols, symbol by symbol, most significant first. -/
def headerBits (sl : Nat) (h : BitVec 24) : List Bool :=
  (headerSymbols sl h).flatMap (fun v => (List.range (bitsPerSymbol sl)).map (fun i => v.testBit (bitsPerSymbol sl - 1 - i)))

/-! ### WellFormed refuses each ill-formed term -/

/-- A well-formed frame. -/
def good : CmdFrame := cmd []

/-- A frame of a port that does not exist. -/
def bad : CmdFrame := { good with port := 4 }

/-- Every check of a frame refuses a frame that breaks it (R323). -/
theorem test_wf_frame :
    good.wf = true ∧ ([bad, { good with tag := 65536 }, { good with portField := 256 }, { good with target := { index := 65536 } },
      { good with target := { gen := 65536 } }, { good with payload := List.replicate 4081 0 }].all (fun f => !f.wf)) = true := by
  decide +kernel

/-- Every command frame is refused when its frame is ill-formed. -/
theorem test_wf_commands : ([
    .getIdentity bad, .setMode bad, .factoryDefaults bad, .portDeclare bad, .getPortDeclare bad, .alarmSet bad,
    .getAlarm bad, .echo bad, .unassignedOpcode 0 bad, .timeConfig bad, .getTimeConfig bad, .timeSet bad,
    .windowOpen bad, .windowRetune bad, .windowClose bad, .getWindow bad, .windowGang bad, .windowUngang bad,
    .lnaConfig bad, .getLnaConfig bad, .surveyConfig bad, .getSurveyConfig bad, .surveyList bad, .receptionAdd bad,
    .receptionSet bad, .receptionRemove bad, .getReception bad, .branchAdd bad, .branchRemove bad, .tapAdd bad,
    .tapRemove bad, .getChain bad, .alertSet bad, .getAlert bad, .programmeSelect bad, .programmeMeasure bad,
    .getProgramme bad, .programmeList bad, .pcmRoute bad, .pcmRemove bad, .getPcm bad, .tdmConfig bad, .getTdmConfig bad,
    .ringBind bad, .getBind bad, .getPortLoad bad, .followSet bad, .followRemove bad, .getFollow bad, .probeAdd bad,
    .probeSet bad, .probeRemove bad, .getProbe bad, .blendSet bad, .blendRemove bad, .blendFade bad, .getBlend bad,
    .bankLoad bad, .getBank bad, .curveLoad bad, .getCurve bad, .calRun bad, .calConfig bad, .getCal bad, .getAgeing bad,
    .supplyConfig bad, .getSupplyConfig bad, .linkConfig bad, .getLinkConfig bad, .linkSend bad, .linkStop bad,
    .gatherConfig bad, .getGatherConfig bad, .getLinkStats bad, .keyInstall bad, .keyZeroise bad, .fwUpdateBegin bad,
    .fwUpdatePart bad, .fwUpdateCommit bad, .regionProfileInstall bad, .testUnlock bad, .getSecurity bad, .busXfer bad,
    .gpioConfig bad, .getGpio bad, .planBegin bad, .planPart bad, .planCommit bad, .planDiscard bad, .getPlan bad
    ] : List Instr).all (fun i => !i.wf) = true := by decide +kernel

/-- Every event and timer is refused when it names a unit the device has not. -/
theorem test_wf_units : ([
    .islandClockGood 17, .islandHeld 17, .kerfBufferFull 5, .windowOpenDone 5, .retuneDone 5, .windowClosed 5,
    .lingerExpiry 5, .tunerFailure 5, .failedWindowReopen 5, .agcUpdate 5 {}, .lnaBypass 4, .lnaReturn 4,
    .receptionRemoved 256, .objectRemoved .branch 32, .objectRemoved .probe 32, .objectRemoved .tap 320,
    .objectRemoved .follow 32, .objectRemoved .blend 8, .objectRemoved .pcm 32, .chainBlock (.reception 256) {},
    .chainBlock (.branch 32) {}, .chainBlock (.probe 32) {}, .chainBlock (.tap 320) {},
    .chainBlock (.reception 0) { samples := List.replicate 257 (0, 0) }, .settleCountDone (.reception 256),
    .settleCountDone (.branch 32), .settleCountDone (.probe 32), .settleCountDone (.tap 320),
    .chainBankChanged (.reception 256), .chainBankChanged (.branch 32), .chainBankChanged (.probe 32),
    .chainBankChanged (.tap 320), .delayChangeApply (.reception 256), .delayChangeApply (.branch 32),
    .delayChangeApply (.probe 32), .delayChangeApply (.tap 320), .frequencyChangeApply (.reception 256),
    .frequencyChangeApply (.branch 32), .frequencyChangeApply (.probe 32), .frequencyChangeApply (.tap 320),
    .receptionAcquired 256, .receptionLost 256, .trackingHoldExpiry 256, .pilotDecision 256,
    .syncLoopFallback 256, .syncLoopRestore 256, .mpxShaving 256,
    .rdsBlock 256 0, .rdsBlock 0 4, .measurementIntervalEnd 1024, .momentaryLoudness 1024,
    .silenceBegan 1024, .dabCif 256 {}, .dabCif 0 { fibs := List.replicate 4 (zeros 32) },
    .dabCif 0 { fibs := [zeros 31] }, .drmFrame 256 {}, .drmFrame 0 { fac := List.replicate 17 0 },
    .drmSuperframe 256 {}, .drmSuperframe 0 { sdc := List.replicate 1025 0 }, .controlChannelTimeout 256,
    .decodeResumed 1024, .receptionReconfigured 256, .programmeAbsentExpiry 1024, .transportUnit 1024 { aus := [{}] }, .transportUnit 0 { raw := [0] },
    .motIdleExpiry 1024 0
    ] : List Instr).all (fun i => !i.wf) = true := by decide +kernel

/-- Every bus transaction and maintenance event is refused when it names a unit the device has not. -/
theorem test_wf_units_more : ([
    .tdmConfigApply 4, .pcmUnderrun 32, .pcmFifoRefilled 32, .pcmShaving 32, .followerPortLost 4 {}, .followerPortResume 4 16,
    .gaugeMetric 32 [], .retarget 32, .probeDwellEnd 32, .glanceEnd 32, .candidateExpiry 32 0 .am,
    .rejectionExpiry 32 0 .am, .scarfCorrelation 8, .fadeEnd 8, .drainDone 8, .buildDone 8, .alignmentWaitExpiry 8,
    .temperatureComparison [], .pendingRunStart 5, .elementStatisticsDone 5 {}, .elementInterruptionEnd 5,
    .fadeDeferExpiry 5, .calRetry 5, .iqEstimate 4 {}, .iqRampEnd 4, .alignmentStep 5 {},
    .grainAssessment { degradation := [] }, .avsRaise [], .avsLower [], .frameQualified 8 {}, .headerCheck 8 1 [],
    .headerCheck 0 0 [], .headerCheck 0 7 [], .frameReceived 8 1 {}, .frameReceived 0 0 {}, .frameReceived 0 7 {},
    .controllerTransferEnd { result := 7 }, .ringPop 3 0 0, .ringPop 0 32 0, .ringPush 3 0 [] .stop,
    .ringPush 0 32 [] .stop, .status 3, .regWrite 3 0 0 0, .dtLoRead 3 false, .dtHiRead 3, .timeStatusRead 3,
    .headWrite 3 0 0, .headWrite 0 32 0, .tailWrite 3 0 0, .tailWrite 0 32 0, .ringEnableWrite 3 0 0,
    .ringEnableWrite 0 32 0, .quotaWrite 3 0 0, .quotaWrite 0 32 0, .ringStatusClear 32 0, .fetchTimer 32,
    .hostRingFetchDone 32 [], .stagedEntryDma 32, .ringDisableDrained 32, .intTimeout 32, .supplyWrite { result := 7 },
    .timberScrub [4194304], .timberEccError 4194304 .other false, .blockFault 17, .chCtrlWrite 4 0
    ] : List Instr).all (fun i => !i.wf) = true := by decide +kernel

/-! ### The spec's worked examples -/

/-- The check words over the digits 1 to 9: CRC-16 of R317 and CRC-32 of R52 have these published check values. -/
theorem test_crc : crc16 [49, 50, 51, 52, 53, 54, 55, 56, 57] = 0x29B1 ∧ crc32 [49, 50, 51, 52, 53, 54, 55, 56, 57] = 0xCBF43926 := by
  decide +kernel

/-- Example of R412 and R413: LENGTH 0x14 alone has b0 = 0x14, b1 = 0, CRC8 0x03 and h = 0x00C014. -/
theorem test_header_word : headerCrc 0x14 = 0x03 ∧ headerWord { length := 0x14 } = 0x00C014 := by decide +kernel

/-- Example of R418: whitened, the bytes 0x23 and 0xC1 go on air as 0xDC and 0x20. -/
theorem test_whitening : whiten ((List.range 8).map (Nat.testBit 0x23) ++ (List.range 8).map (Nat.testBit 0xC1)) =
    (List.range 8).map (Nat.testBit 0xDC) ++ (List.range 8).map (Nat.testBit 0x20) := by decide +kernel

/-- Example of R410: at SL4 the symbol value 0x169 is a down-chirp of cyclic start 312. -/
theorem test_chirp : chirpOf 4 0x169 = (true, 312) := by decide +kernel

/-- Example of R420: a body of 42 bytes has 97 symbols at SL4 and rate 1/2, 80 at SL6; its airtime at SL4, 300 kHz, is
331.09 ms. -/
theorem test_airtime : bodyLength 20 false = 42 ∧ codedBits 2 342 = 456 ∧ codedBits 0 342 = 684 ∧ frameSymbols 1 2 42 = 100 ∧
    frameSymbols 4 0 42 = 97 ∧ frameSymbols 6 0 42 = 80 := by decide +kernel

/-- A device with window 0 open at an LO of 81.5 MHz, 24 MHz wide, and window 1 at 168 MHz, 84 MHz wide. -/
def twoWindows : State :=
  { live with front := { live.front with windows := [
      { state := .open, lo := 81500000, widthKhz := 24000 }, { state := .open, lo := 168000000, widthKhz := 84000 }, {}, {},
      { state := .open }] } }

/-- Example Chain settings (R153): sub-bands 144, 202 and 1 with their NCO shifts. -/
theorem test_subbands :
    let fm : Chain := { kind := .fm, window := 0, freq := 97000000 }
    let dab : Chain := { kind := .dab, window := 1, freq := 239200000 }
    let am : Chain := { kind := .am, window := 4, freq := 1215000 }
    (subbandOf twoWindows fm, ncoShift twoWindows fm) = (144, -140000000) ∧
    (subbandOf twoWindows dab, ncoShift twoWindows dab) = (202, -160000000) ∧
    (subbandOf twoWindows am, ncoShift twoWindows am) = (1, -255000000) := by decide +kernel

/-- Example Chain settings (R164): D_grp of the default FM and DAB banks, and of a raw tap. -/
theorem test_group_delay :
    groupDelay64 twoWindows { kind := .fm, window := 0, bank := { index := 8 } } = 64 * 17376 ∧
    groupDelay64 twoWindows { kind := .dab, window := 1, bank := { index := 12 } } = 64 * 5296 ∧
    groupDelay64 twoWindows { kind := .tap, window := 0 } = 64 * 1536 := by decide +kernel

/-- Example Chain settings (R109): a delay of 100 samples and a fraction of 16 is 64,160 ticks on an FM chain. -/
theorem test_programmed_delay : progDelay64 { kind := .fm, delay := 100, frac := 16 } = 64 * 64160 := by decide +kernel

/-- Examples Window placement and Chain settings (R117, R118): 87.6 MHz is uncovered at 81.5 MHz, 97 MHz is covered, and a tap on
sub-band 140 runs where one on 135 does not. -/
theorem test_coverage :
    covers twoWindows 0 .fm 87600000 = false ∧ covers twoWindows 0 .fm 97000000 = true ∧ covers twoWindows 1 .dab 239200000 = true ∧
    chainCovered twoWindows { kind := .tap, window := 0, freq := 140 } = true ∧
    chainCovered twoWindows { kind := .tap, window := 0, freq := 135 } = false := by decide +kernel

/-- Example of a survey pass (R252): an FM window of 24 MHz at 81.350 MHz and a DAB window of 84 MHz at 168.160 MHz. -/
theorem test_survey_placement :
    (placements { bands := [{ kind := 3, port := 0, raster := 100, start := 87500000, stop := 108000000, dwell := 1000 },
      { kind := 4, port := 1, raster := 16, start := 174928000, stop := 239200000, dwell := 3000 }] }).map
        (fun w => (w.lo, w.widthKhz)) = [(81350000, 24000), (168160000, 84000)] := by decide +kernel

/-- Example of R57: sequence 0xFFFFFFFF is newer than 0xFFFFFFFE, and 0 is newer than 0xFFFFFFFF. -/
theorem test_newer_copy : newerSeq 0xFFFFFFFE 0xFFFFFFFF = true ∧ newerSeq 0 0xFFFFFFFF = false ∧ newerSeq 0xFFFFFFFF 0 = true := by
  decide +kernel

/-- Example Three FM channels (R559): PHYS_LO reads 98,175 kHz, and a tune to 10,000 kHz is clamped to 33,000. -/
theorem test_compat_place :
    let on (khz : Nat) : CompatChannel := { enable := true, standard := 0, freqKhz := khz }
    let s : State := { live with set := { live.set with mode := .compat, compat := { live.set.compat with
      channels := [on 98000, on 97500, on 99100, { enable := false }] } } }
    compatPlace s 98000 0 = 98175 ∧ compatLimit 0 (compatWidth 0) 10000 = 33000 := by decide +kernel

/-- Example Return with a phase jump (R106): a Δ of +9,216 ticks while COASTING makes STATE QUALIFYING with agree = 1. -/
theorem test_return_of_reference :
    let s : State := { live with time := { live.time with plumb := .coasting, agree := 0 } }
    (plumbEdge (64 * 9216) s).time.plumb = .qualifying ∧ (plumbEdge (64 * 9216) s).time.agree = 1 := by decide +kernel

/-- Example One RECEPTION_ADD on the wire: the 48 bytes of the example read as their fields. -/
theorem test_reception_add :
    let b : List Byte := [0x00, 0x05, 0x42, 0x00, 0x20, 0x00, 0x00, 0x00, 0xFF, 0xFF, 0x00, 0x00, 0x00, 0x00, 0x00, 0x00,
      0x03, 0x00, 0x00, 0x00, 0x40, 0x1A, 0xC8, 0x05, 0xFF, 0xFF, 0x00, 0x00, 0x00, 0x00, 0x00, 0x00,
      0x00, 0x00, 0x00, 0x01, 0x00, 0x00, 0x0F, 0x00, 0x50, 0x00, 0xEE, 0x02, 0x00, 0x00, 0x00, 0x00]
    field b 0 2 = 0x0500 ∧ field b 2 2 = 0x42 ∧ declaredLength 0 b = 48 ∧ handleAt b 8 = { index := 0xFFFF, gen := 0 } ∧
    field (b.drop 16) 4 4 = 97000000 := by decide +kernel

/-- R580: IDCODE reads 0x17256ABF. -/
theorem test_idcode : tapIdcode = 0x17256ABF := by decide +kernel

/-! ### IdentityTimeAndPortsRead -/

theorem witness_getIdentity :
    rich.port.rings.length = 32 ∧ Accepted 0x0100 (cmd []) (getIdentityChecks (cmd [])) rich := by
  unfold Accepted; decide +kernel

theorem witness_getPortDeclare :
    rich.port.rings.length = 32 ∧ Accepted 0x0104 (cmd []) (getPortDeclareChecks (cmd [])) rich := by
  unfold Accepted; decide +kernel

theorem witness_getAlarm :
    rich.port.rings.length = 32 ∧ Accepted 0x0106 (cmd []) (getAlarmChecks (cmd [])) rich := by
  unfold Accepted; decide +kernel

theorem witness_echo :
    rich.port.rings.length = 32 ∧ Accepted 0x0107 (cmd [1, 2, 3]) (echoChecks (cmd [1, 2, 3])) rich := by
  unfold Accepted; decide +kernel

theorem witness_getTimeConfig :
    rich.port.rings.length = 32 ∧ Accepted 0x0201 (cmd []) (getTimeConfigChecks (cmd [])) rich := by
  unfold Accepted; decide +kernel

theorem witness_unassignedOpcode :
    opcodeAssigned 0x1000 = false ∧ canTake live (cmd []) = true ∧ frameNext live 0x1000 (cmd []) = true ∧ live.port.rings.length = 32 := by decide +kernel

/-! ### FrontEndAndObjectsRead -/

theorem witness_getWindow :
    rich.port.rings.length = 32 ∧ Accepted 0x0303 (cmd []) (getWindowChecks (cmd [])) rich := by
  unfold Accepted; decide +kernel

theorem witness_getLnaConfig :
    rich.port.rings.length = 32 ∧ Accepted 0x0307 (cmd []) (getLnaConfigChecks (cmd [])) rich := by
  unfold Accepted; decide +kernel

theorem witness_getReception :
    rich.port.rings.length = 32 ∧
      Accepted 0x0503 (cmd []) (receptionChecks (cmd []) ((cmd []).payload.length = 0) modesAll true) rich ∧
      receptionAt rich (cmd []).target.index = some ({} : Reception) := by
  unfold Accepted; decide +kernel

theorem witness_getChain :
    rich.port.rings.length = 32 ∧ Accepted 0x0508 (cmd [0, 0, 0, 0]) (getChainChecks (cmd [0, 0, 0, 0])) rich ∧
      chainOf rich (askedOwner (cmd [0, 0, 0, 0])) = some ({} : Chain) := by
  unfold Accepted; decide +kernel

theorem witness_getAlert :
    rich.port.rings.length = 32 ∧
      Accepted 0x050A (cmd []) (receptionChecks (cmd []) ((cmd []).payload.length = 0) modesAll true) rich ∧
      receptionAt rich (cmd []).target.index = some ({} : Reception) := by
  unfold Accepted; decide +kernel

theorem witness_getProgramme :
    rich.port.rings.length = 32 ∧ Accepted 0x0602 (cmd []) (getProgrammeChecks (cmd [])) rich ∧
      programmeAt rich (cmd []).target.index = some ({} : Programme) := by
  unfold Accepted; decide +kernel

theorem witness_programmeList :
    rich.port.rings.length = 32 ∧
      Accepted 0x0603 (cmd []) (receptionChecks (cmd []) ((cmd []).payload.length = 0) modesAll true) rich := by
  unfold Accepted; decide +kernel

theorem witness_getSurveyConfig :
    rich.port.rings.length = 32 ∧ Accepted 0x0401 (cmd []) (getSurveyConfigChecks (cmd [])) rich := by
  unfold Accepted; decide +kernel

theorem witness_surveyList :
    rich.port.rings.length = 32 ∧ Accepted 0x0402 (cmd [0, 0, 1, 0]) (surveyListChecks (cmd [0, 0, 1, 0])) rich := by
  unfold Accepted; decide +kernel

/-! ### MixingObjectsRead -/

theorem witness_getBank :
    rich.port.rings.length = 32 ∧ Accepted 0x0A01 (cmd []) (bankChecks (cmd []) 0 modesAll) rich := by
  unfold Accepted; decide +kernel

theorem witness_getCurve :
    rich.port.rings.length = 32 ∧ Accepted 0x0A03 (cmd []) (curveChecks (cmd []) 0 modesAll) rich := by
  unfold Accepted; decide +kernel

theorem witness_getPcm :
    rich.port.rings.length = 32 ∧ Accepted 0x0702 (cmd []) (getPcmChecks (cmd [])) rich ∧
      rich.prog.pcms.find? (·.o.idx == (cmd []).target.index) = some ({} : PcmOut) := by
  unfold Accepted; decide +kernel

theorem witness_getTdmConfig :
    rich.port.rings.length = 32 ∧ Accepted 0x0704 (cmd [0, 0, 0, 0]) (getTdmConfigChecks (cmd [0, 0, 0, 0])) rich := by
  unfold Accepted; decide +kernel

theorem witness_getBind :
    rich.port.rings.length = 32 ∧ Accepted 0x0801 (cmd [0, 0, 0, 0]) (outputChecks (cmd [0, 0, 0, 0])) rich := by
  unfold Accepted; decide +kernel

theorem witness_getPortLoad :
    rich.port.rings.length = 32 ∧ Accepted 0x0802 (cmd []) (getPortLoadChecks (cmd [])) rich := by
  unfold Accepted; decide +kernel

theorem witness_getFollow :
    rich.port.rings.length = 32 ∧ Accepted 0x0902 (cmd []) (getFollowChecks (cmd [])) rich ∧
      followAt rich (cmd []).target.index = some ({} : Follow) := by
  unfold Accepted; decide +kernel

theorem witness_getProbe :
    rich.port.rings.length = 32 ∧ Accepted 0x0906 (cmd []) (getProbeChecks (cmd [])) rich ∧
      probeAt rich (cmd []).target.index = some ({} : Probe) := by
  unfold Accepted; decide +kernel

theorem witness_getBlend :
    rich.port.rings.length = 32 ∧ Accepted 0x090A (cmd []) (getBlendChecks (cmd [])) rich ∧
      blendAt rich (cmd []).target.index = some ({} : Blend) := by
  unfold Accepted; decide +kernel

/-! ### SupervisionRead -/

theorem witness_getCal :
    rich.port.rings.length = 32 ∧ Accepted 0x0B02 (cmd []) (getCalChecks (cmd [])) rich := by
  unfold Accepted; decide +kernel

theorem witness_getAgeing :
    rich.port.rings.length = 32 ∧ Accepted 0x0B03 (cmd []) (getAgeingChecks (cmd [])) rich := by
  unfold Accepted; decide +kernel

theorem witness_getSupplyConfig :
    rich.port.rings.length = 32 ∧ Accepted 0x0B05 (cmd []) (getSupplyConfigChecks (cmd [])) rich := by
  unfold Accepted; decide +kernel

theorem witness_getLinkConfig :
    rich.port.rings.length = 32 ∧ Accepted 0x0C01 (cmd []) (getLinkConfigChecks (cmd [])) rich := by
  unfold Accepted; decide +kernel

theorem witness_getGatherConfig :
    rich.port.rings.length = 32 ∧ Accepted 0x0C05 (cmd []) (getGatherConfigChecks (cmd [])) rich := by
  unfold Accepted; decide +kernel

theorem witness_getLinkStats :
    rich.port.rings.length = 32 ∧ Accepted 0x0C06 (cmd []) (getLinkStatsChecks (cmd [])) rich := by
  unfold Accepted; decide +kernel

theorem witness_getSecurity :
    rich.port.rings.length = 32 ∧ Accepted 0x0D07 (cmd []) (getSecurityChecks (cmd [])) rich := by
  unfold Accepted; decide +kernel

theorem witness_getPlan :
    rich.port.rings.length = 32 ∧ Accepted 0x0E04 (cmd [0, 0, 0, 0]) (getPlanChecks (cmd [0, 0, 0, 0])) rich := by
  unfold Accepted; decide +kernel

/-! ### SettingsCommandsChangeOnlySettings -/

theorem witness_alarmSet :
    live.port.rings.length = 32 ∧
      Accepted 0x0105 (cmd [1, 0, 0, 0, 0, 0, 0, 0]) (alarmSetChecks (cmd [1, 0, 0, 0, 0, 0, 0, 0])) live := by
  unfold Accepted; decide +kernel

theorem witness_lnaConfig :
    live.port.rings.length = 32 ∧ Accepted 0x0306 (cmd (zeros 16)) (lnaConfigChecks (cmd (zeros 16))) live := by
  unfold Accepted; decide +kernel

theorem witness_surveyConfig :
    live.port.rings.length = 32 ∧ Accepted 0x0400 (cmd (zeros 8)) (surveyConfigChecks (cmd (zeros 8))) live := by
  unfold Accepted; decide +kernel

theorem witness_tdmConfig :
    live.port.rings.length = 32 ∧ Accepted 0x0703 (cmd (zeros 8)) (tdmConfigChecks (cmd (zeros 8))) live := by
  unfold Accepted; decide +kernel

theorem witness_calConfig :
    live.port.rings.length = 32 ∧ Accepted 0x0B01 (cmd [1, 0, 0, 0]) (calConfigChecks (cmd [1, 0, 0, 0])) live := by
  unfold Accepted; decide +kernel

/-! ### ConfigurationCommandsActOnTheirUnits -/

theorem witness_portDeclare :
    live.port.rings.length = 32 ∧ Accepted 0x0103 (cmd (zeros 12)) (portDeclareChecks (cmd (zeros 12))) live := by
  unfold Accepted; decide +kernel

theorem witness_timeConfig :
    live.port.rings.length = 32 ∧ Accepted 0x0200 (cmd (zeros 36)) (timeConfigChecks (cmd (zeros 36))) live := by
  unfold Accepted; decide +kernel

theorem witness_timeSet :
    Accepted 0x0202 (cmd (zeros 8)) (timeSetChecks (cmd (zeros 8))) live := by
  unfold Accepted; decide +kernel

theorem witness_supplyConfig :
    live.port.rings.length = 32 ∧ Accepted 0x0B04 (cmd (zeros 12)) (supplyConfigChecks (cmd (zeros 12))) live := by
  unfold Accepted; decide +kernel

theorem witness_gpioConfig :
    live.port.rings.length = 32 ∧ Accepted 0x0F01 (cmd [3, 1, 1, 0]) (gpioConfigChecks (cmd [3, 1, 1, 0])) live := by
  unfold Accepted; decide +kernel

theorem witness_getGpio :
    live.port.rings.length = 32 ∧ Accepted 0x0F02 (cmd []) (getGpioChecks (cmd [])) live := by
  unfold Accepted; decide +kernel

theorem witness_gatherConfig :
    live.port.rings.length = 32 ∧
      Accepted 0x0C04 (cmd ([6, 2, 1] ++ zeros 37)) (gatherConfigChecks (cmd ([6, 2, 1] ++ zeros 37))) live := by
  unfold Accepted; decide +kernel

/-! ### LinkCommandsQueueStopAndConfigure -/

theorem witness_linkSend :
    node.port.rings.length = 32 ∧ Accepted 0x0C02 (cmd (zeros 12)) (linkSendChecks (cmd (zeros 12))) node := by
  unfold Accepted; decide +kernel

theorem witness_linkStop :
    ({ node with link := { node.link with air := some {} } } : State).port.rings.length = 32 ∧
      Accepted 0x0C03 (cmd []) (linkStopChecks (cmd [])) ({ node with link := { node.link with air := some {} } } : State) ∧
      ({ node with link := { node.link with air := some {} } } : State).link.stopped = false ∧
      ({ node with link := { node.link with air := some {} } } : State).link.stopping = false ∧
      ({ node with link := { node.link with air := some {} } } : State).link.air.isSome := by
  unfold Accepted; decide +kernel

theorem witness_linkStopAgain :
    ({ node with link := { node.link with stopped := true } } : State).port.rings.length = 32 ∧
      Accepted 0x0C03 (cmd []) (linkStopChecks (cmd [])) ({ node with link := { node.link with stopped := true } } : State) ∧
      (({ node with link := { node.link with stopped := true } } : State).link.stopped || ({ node with link := { node.link with stopped := true } } : State).link.stopping) = true := by
  unfold Accepted; decide +kernel

theorem witness_linkConfig :
    node.port.rings.length = 32 ∧
      Accepted 0x0C00 (cmd (linkBytes node.set.link)) (linkConfigChecks (cmd (linkBytes node.set.link))) node ∧
      identityChange node.set.link (clampLink node (rawLink (cmd (linkBytes node.set.link)).payload)) = false := by
  unfold Accepted; decide +kernel

theorem witness_linkConfigIdentity :
    Accepted 0x0C00 (cmd (linkBytes { node.set.link with own := 9 })) (linkConfigChecks (cmd (linkBytes { node.set.link with own := 9 }))) ({ node with link := { node.link with air := some {} } } : State) ∧
      identityChange ({ node with link := { node.link with air := some {} } } : State).set.link (clampLink ({ node with link := { node.link with air := some {} } } : State) (rawLink (cmd (linkBytes { node.set.link with own := 9 })).payload)) = true ∧
      ({ node with link := { node.link with air := some {} } } : State).set.link.role ≠ 0 ∧
      ({ node with link := { node.link with air := some {} } } : State).link.stopped = false ∧
      ({ node with link := { node.link with air := some {} } } : State).link.air.isSome := by
  unfold Accepted; decide +kernel

/-! ### LinkTransmissionsEnterAndLeaveTheAir -/

theorem witness_slotTransmit : let fr : TxFrame := { counter := 4, payload := zeros 4 }
    sender.set.link.role = 1 ∧ sender.link.state = .synced ∧ mayTransmit sender = true ∧
    (planSlot sender (superStart (linkNet sender) (linkTime sender))).or
      (planSlot sender (superStart (linkNet sender) (linkTime sender) + (superTicks (linkNet sender) : Int))) =
      some (122880000, 0, fr, {}) ∧
    radioReady (scheduled fr 0 (reach 122880000 sender)) = true ∧
    MaySend (uplinkAsk (scheduled fr 0 (reach 122880000 sender)) fr 0 none {}) fr
      { subs := [{ start := 409000000, stop := 411000000, power := 28, width := 2, budget := 36 }] } 410000000 1 0
      (scheduled fr 0 (reach 122880000 sender)) := by
  repeat' first | decide +kernel | constructor

theorem witness_slotNothing :
    node.set.link.role = 1 ∧ node.link.state = .synced ∧ mayTransmit node = true ∧ node.link.queue = [] := by
  decide +kernel

theorem witness_downlinkTransmit : let fr : TxFrame := { counter := 4, payload := zeros 4, dest := 7 }
    gatherer.set.link.role = 2 ∧ gatherer.link.state = .gathering ∧ mayTransmit gatherer = true ∧ radioReady gatherer = true ∧
    (planDownlink gatherer (superStart (linkNet gatherer) (linkTime gatherer))).or
      (planDownlink gatherer (superStart (linkNet gatherer) (linkTime gatherer) + (superTicks (linkNet gatherer) : Int))) =
      some (122880000, fr) ∧
    MaySend (downlinkAsk (copied fr (reach 122880000 gatherer)) fr 0) { fr with repeats := copyNumber fr }
      { subs := [{ start := 409000000, stop := 411000000, power := 28, width := 2, budget := 36 }] } 410000000 1 0
      (copied fr (reach 122880000 gatherer)) := by
  repeat' first | decide +kernel | constructor

theorem witness_transmissionEnd : { node with link := { node.link with air := some {} } }.link.air = some {} := rfl

theorem witness_transmitKill : { live with link := { live.link with air := some {} } }.link.air = some {} := rfl

theorem witness_radioTransitionDone :
    ({ node with link := { node.link with radioTo := some .synth } } : State).link.radioTo = some .synth ∧
      ({ node with link := { node.link with radioTo := some .synth } } : State).link.heldTx = none := by decide +kernel

theorem witness_linkStopped :
    ({ node with link := { node.link with stopping := true } } : State).link.stopping = true ∧
      ({ node with link := { node.link with stopping := true } } : State).link.air = none ∧
      ({ node with link := { node.link with stopping := true } } : State).link.newConfig = none ∧
      ({ node with link := { node.link with stopping := true } } : State).head.held = [] := by decide +kernel

/-! ### LinkKeepsItsScheduleAndHearsFrames -/

theorem witness_beaconTransmit :
    atBoundary.set.link.role = 2 ∧ atBoundary.link.state = .gathering ∧ mayTransmit atBoundary = true ∧ atBoundary.link.gatherTo = none ∧
    superStart (linkNet atBoundary) (linkTime atBoundary) = linkTime atBoundary ∧
    atBoundary.link.beaconSfn ≠ some (sfnAt (linkNet atBoundary) (linkTime atBoundary)) ∧ radioReady (beaconTaken atBoundary) = true ∧
    MaySend (beaconNow atBoundary) { counter := atBoundary.link.counter }
      { subs := [{ start := 409000000, stop := 411000000, power := 28, width := 2, budget := 36 }] } 410000000 1 0 (beaconTaken atBoundary) := by
  repeat' first | decide +kernel | constructor

theorem witness_beaconWindowOpen :
    node.set.link.role = 1 ∧ node.link.state = .synced ∧ linkRuns node = true ∧
      (guardAt node ((if node.link.beaconSfn = some (sfnAt (linkNet node) (nextBoundary node)) then nextBoundary node + (superTicks (linkNet node) : Int) else nextBoundary node) - node.link.offset.getD 0)) = guardAt node ((if node.link.beaconSfn = some (sfnAt (linkNet node) (nextBoundary node)) then nextBoundary node + (superTicks (linkNet node) : Int) else nextBoundary node) - node.link.offset.getD 0) ∧
      (guardAt node ((if node.link.beaconSfn = some (sfnAt (linkNet node) (nextBoundary node)) then nextBoundary node + (superTicks (linkNet node) : Int) else nextBoundary node) - node.link.offset.getD 0)) ≤ ms 500 := by
  decide +kernel

theorem witness_beaconWindowLate :
    ({ node with time := { node.time with count := 50000000000000 } } : State).set.link.role = 1 ∧
      ({ node with time := { node.time with count := 50000000000000 } } : State).link.state = .synced ∧
      linkRuns ({ node with time := { node.time with count := 50000000000000 } } : State) = true ∧
      ms 500 < guardAt ({ node with time := { node.time with count := 50000000000000 } } : State) ((if ({ node with time := { node.time with count := 50000000000000 } } : State).link.beaconSfn = some (sfnAt (linkNet ({ node with time := { node.time with count := 50000000000000 } } : State)) (nextBoundary ({ node with time := { node.time with count := 50000000000000 } } : State))) then nextBoundary ({ node with time := { node.time with count := 50000000000000 } } : State) + (superTicks (linkNet ({ node with time := { node.time with count := 50000000000000 } } : State)) : Int) else nextBoundary ({ node with time := { node.time with count := 50000000000000 } } : State)) - ({ node with time := { node.time with count := 50000000000000 } } : State).link.offset.getD 0) := by decide +kernel

theorem witness_beaconMissed :
    ({ node with link := { node.link with beaconSfn := some 3 } } : State).link.beaconSfn = some 3 ∧
      ({ node with link := { node.link with beaconSfn := some 3 } } : State).set.link.role = 1 ∧
      ({ node with link := { node.link with beaconSfn := some 3 } } : State).link.state = .synced ∧
      linkRuns ({ node with link := { node.link with beaconSfn := some 3 } } : State) = true ∧
      ({ node with link := { node.link with beaconSfn := some 3 } } : State).link.rx = [] ∧
      ({ node with link := { node.link with beaconSfn := some 3 } } : State).link.queue = [] := by decide +kernel

theorem witness_searchWindow :
    lost.set.link.role = 1 ∧ lost.link.state = .lost ∧ linkRuns lost = true := by decide +kernel

theorem witness_downlinkWindowOpen :
    let s : State := { node with set := { node.set with gather := { startMs := 2000, downMs := 1500 } } }
    s.set.link.role = 1 ∧ s.link.state = .synced ∧ linkRuns s = true ∧ 0 < (linkNet s).downMs ∧
      linkTime s < superStart (linkNet s) (linkTime s) + (ms (linkNet s).startMs : Nat) := by decide +kernel

theorem witness_fallbackTransmit :
    lost.set.link.role = 1 ∧ lost.link.state = .lost ∧ mayTransmit lost = true ∧ lost.link.queue ≠ [] ∧
      (fallbackStart lost) = fallbackStart lost ∧
      pickFallback (sfnAt (linkNet lost) (fallbackStart lost)) (lost.link.queue.length + 1) lost = (some ({ counter := 4, payload := zeros 4 } : TxFrame), lost) := by decide +kernel

/-- A gatherer that listens, with this frame in reception. -/
def hearing (l : List RxFrame) : State := { gatherer with link := { gatherer.link with radio := .rx, rx := l } }

theorem witness_frameQualifiedFree :
    let s := hearing []
    0 < 8 ∧ receives s = true ∧ detects s 0 heard.sl = true ∧ qualifies s 0 heard = true ∧ rxAt s 0 heard.sl = none := by decide +kernel

theorem witness_frameQualifiedWeaker :
    let x : RxFrame := { sl := 4, header := some 0 }
    let s := hearing [x]
    let c := { heard with current := [strong] }
    0 < 8 ∧ receives s = true ∧ detects s 0 c.sl = true ∧ qualifies s 0 c = true ∧ rxAt s 0 c.sl = some x ∧ x.header.isSome ∧
      meanStrength ((qualifying s c).getD []) < meanStrength c.current + 10 * (s.set.link.capture : Int) := by decide +kernel

theorem witness_frameQualifiedBefore :
    let x : RxFrame := { sl := 4 }
    let s := hearing [x]
    0 < 8 ∧ receives s = true ∧ detects s 0 heard.sl = true ∧ qualifies s 0 heard = true ∧ rxAt s 0 heard.sl = some x ∧
      x.header = none := by decide +kernel

theorem witness_headerCheckBad :
    let x : RxFrame := { sl := 4 }
    0 < 8 ∧ rxAt (hearing [x]) 0 4 = some x ∧ x.header = none ∧
      headerOk (decodeHeader 4 (headerBits 4 0x3FFFFF) (hearing [x])).1 = false := by decide +kernel

theorem witness_headerCheckGood :
    let x : RxFrame := { sl := 4 }
    0 < 8 ∧ rxAt (hearing [x]) 0 4 = some x ∧ x.header = none ∧
      headerOk (decodeHeader 4 (headerBits 4 (headerWord { length := 4 })) (hearing [x])).1 = true := by decide +kernel

theorem witness_frameReceivedBad :
    let x : RxFrame := { sl := 4, header := some 0 }
    let s := hearing [x]
    0 < 8 ∧ rxAt s 0 4 = some x ∧ x.header = some 0 ∧
      bodyCrcOk (decodeBody 4 (headerFields 0).rate (bodyLength (payloadLength (headerFields 0)) (headerFields 0).fallback) ({} : LinkRx).bits (freeRx 0 4 s)).1 = false := by decide +kernel

/-- The bits of a body's symbols, symbol by symbol, most significant first. -/
def bodyBits (sl rate : Nat) (body : List Byte) : List Bool :=
  (bodySymbols sl rate body).flatMap (fun v => (List.range (bitsPerSymbol sl)).map (fun i => v.testBit (bitsPerSymbol sl - 1 - i)))

/-- An uplink of 4 bytes from node 9, and its header. -/
def upHeader : BitVec 24 := headerWord { length := 4 }
def upBody : List Byte := buildBody (zeros 16) 9 upHeader { node := 9, counter := 3, sfn := 0, kind := 2 } (zeros 4)

theorem witness_frameReceivedUplink :
    let x : RxFrame := { sl := 4, header := some upHeader }
    let s := hearing [x]
    let h := headerFields upHeader
    let b := bodyFields h.fallback upBody
    0 < 8 ∧ s.set.link.role = 2 ∧ rxAt s 0 4 = some x ∧ x.header = some upHeader ∧
      upBody = (decodeBody 4 h.rate (bodyLength (payloadLength h) h.fallback) (bodyBits 4 0 upBody) (freeRx 0 4 s)).1 ∧
      bodyCrcOk upBody = true ∧ bodyMalformed h b = false ∧ h.downlink = false ∧ b.net = s.set.link.net ∧ 1 ≤ b.node ∧
      b.node ≤ 250000 ∧ fresh s (syncNow s x) b = true ∧ (linkKey s).isEmpty = false ∧
      openBody (linkKey s) b.node upHeader b upBody = some (zeros 4) ∧ seenRecent s b.node b.counter = false ∧
      s.link.recent.length < 65536 := by decide +kernel

/-- A downlink of 4 bytes to node 9 from the gatherer 250,001, and its header. -/
def downHeader : BitVec 24 := headerWord { length := 4, downlink := true }
def downBody : List Byte := buildBody (zeros 16) 250001 downHeader { node := 9, counter := 3, sfn := 0, kind := 3 } (zeros 4)

theorem witness_frameReceivedDownlink :
    let x : RxFrame := { sl := 4, header := some downHeader }
    let s : State := { sender with
      set := { sender.set with link := { sender.set.link with own := 9 } }
      link := { sender.link with gatherer := some 250001, rx := [x] } }
    let h := headerFields downHeader
    let b := bodyFields h.fallback downBody
    0 < 8 ∧ s.set.link.role = 1 ∧ rxAt s 0 4 = some x ∧ x.header = some downHeader ∧
      downBody = (decodeBody 4 h.rate (bodyLength (payloadLength h) h.fallback) (bodyBits 4 0 downBody) (freeRx 0 4 s)).1 ∧
      bodyCrcOk downBody = true ∧ bodyMalformed h b = false ∧ b.kind = 3 ∧ b.net = s.set.link.net ∧
      (nodeAddresses s).contains b.node = true ∧ fresh s (syncNow s x) b = true ∧ (linkKey s).isEmpty = false ∧
      s.link.gatherer.getD 0 = 250001 ∧ openBody (linkKey s) 250001 downHeader b downBody = some (zeros 4) ∧
      seenRecent s 250001 b.counter = false ∧ s.link.recent.length < 65536 := by decide +kernel

theorem witness_gatherConfigApply :
    ({ gatherer with link := { gatherer.link with gatherTo := some {} } } : State).link.gatherTo = some {} := rfl

theorem witness_recentFrameExpiry :
    ({ gatherer with link := { gatherer.link with recent := [(7, 3, 0)] } } : State).link.recent ≠ [] := by decide

theorem witness_ring28EntryTaken :
    let s : State := { gatherer with port := { gatherer.port with rings := setAt gatherer.port.rings 28 { ringAt gatherer 28 with entries := [{}] } } }
    (ringAt s 28).entries = ({} : Entry) :: ([] : List Entry) ∧ 28 < s.port.rings.length ∧ s.pwr.commands = true ∧
      s.pwr.stage ≠ .recovery ∧ s.head.restarting = false ∧ s.set.mode ≠ .hold ∧ s.set.mode ≠ .compat ∧ s.clk.sysPll = .locked ∧
      s.link.queue.length < 64 ∧ hostFrameOk ({} : Entry).bytes = false := by decide +kernel

/-- A frame of ring 28 with a payload of 4 bytes (R468). -/
def hostFrame : List Byte :=
  let head : List Byte := leBytes 4 0 ++ leBytes 2 44 ++ zeros 22
  head ++ leBytes 2 (crc16 head).toNat ++ zeros 2 ++ [2] ++ zeros 3 ++ leBytes 4 7 ++ zeros 28 ++ leBytes 2 4 ++ zeros 6

theorem witness_ring28Frame :
    let e : Entry := { bytes := hostFrame }
    let s : State := { gatherer with port := { gatherer.port with rings := setAt gatherer.port.rings 28 { ringAt gatherer 28 with entries := [e] } } }
    (ringAt s 28).entries = e :: ([] : List Entry) ∧ 28 < s.port.rings.length ∧ s.pwr.commands = true ∧
      s.pwr.stage ≠ .recovery ∧ s.head.restarting = false ∧ s.set.mode ≠ .hold ∧ s.set.mode ≠ .compat ∧ s.clk.sysPll = .locked ∧
      s.set.link.role ≠ 0 ∧ s.link.queue.length < 64 ∧ hostFrameOk e.bytes = true := by decide +kernel

theorem witness_vddPaLow :
    node.pwr.railsGood.contains .vddPa = true := by decide

theorem witness_vddPaGood :
    live.pwr.railsGood.contains .vddPa = false := by decide

/-! ### RegisterAccessThroughAPort -/

theorem witness_dtLoRead :
    1 < 3 ∧ portLive live 1 = true := by decide +kernel

theorem witness_dtLoReadWide :
    portLive pcie 0 = true := by decide +kernel

theorem witness_dtHiRead :
    1 < 3 ∧ portLive live 1 = true := by decide +kernel

theorem witness_timeStatusRead :
    1 < 3 ∧ portLive live 1 = true := by decide +kernel

theorem witness_regWriteMask :
    1 < 3 ∧ portLive live 1 = true ∧ 4 ≤ 4 := by decide +kernel

theorem witness_regWriteDiag :
    0 < 3 ∧ portLive pcie 0 = true ∧ 4 ≤ 4 := by decide +kernel

theorem witness_regWriteShort :
    1 < 3 ∧ 3 < 4 := by decide +kernel

theorem witness_fetchTimer :
    let s : State := { pcie with
      set := { pcie.set with rings := setAt pcie.set.rings 0 { ({} : RingSettings) with enable := true } }
      port := { pcie.port with rings := setAt pcie.port.rings 0 { ({} : Ring) with tail := 16 } } }
    0 < 32 ∧ hostProduced 0 = true ∧ inHostMemory s 0 = true ∧ (ringSet s 0).enable = true ∧
      (ringAt s 0).head ≠ (ringAt s 0).tail := by
  decide +kernel

theorem witness_headWrite :
    0 < 3 ∧ 4 < 32 ∧ portLive pcie 0 = true ∧ internalRing 4 = false ∧ inHostMemory pcie 4 = true ∧ hostProduced 4 = false ∧
      (0 : W32).toNat % 8 = 0 ∧ ((ringAt pcie 4).tail - (0 : W32)).toNat ≤ 2 ^ (ringSet pcie 4).size := by decide +kernel

theorem witness_tailWrite :
    0 < 3 ∧ 0 < 32 ∧ portLive pcie 0 = true ∧ internalRing 0 = false ∧ inHostMemory pcie 0 = true ∧ hostProduced 0 = true ∧
      (8 : W32).toNat % 8 = 0 ∧ ((8 : W32) - (ringAt pcie 0).head).toNat ≤ 2 ^ (ringSet pcie 0).size := by decide +kernel

theorem witness_pointerError :
    0 < 3 ∧ 4 < 32 ∧ portLive pcie 0 = true ∧ internalRing 4 = false ∧ inHostMemory pcie 4 = true ∧
      (hostProduced 4 = true ∨ (4 : W32).toNat % 8 ≠ 0) := by decide +kernel

theorem witness_ringEnableWrite :
    1 < 3 ∧ 32 = ({ live with set := { live.set with rings := setAt live.set.rings 5 {} } } : State).port.rings.length ∧
      32 = ({ live with set := { live.set with rings := setAt live.set.rings 5 {} } } : State).set.rings.length ∧
      portLive ({ live with set := { live.set with rings := setAt live.set.rings 5 {} } } : State) 1 = true ∧ 5 < 12 ∧
      internalRing 5 = false ∧ (0x80000000 : W32).getLsbD 31 = true ∧
      (ringSet ({ live with set := { live.set with rings := setAt live.set.rings 5 {} } } : State) 5).enable = false ∧
      (ringAt ({ live with set := { live.set with rings := setAt live.set.rings 5 {} } } : State) 5).entries = [] := by decide +kernel

theorem witness_quotaWrite :
    1 < 3 ∧ 5 < 32 ∧ live.set.rings.length = 32 ∧ portLive live 1 = true ∧ internalRing 5 = false := by decide +kernel

theorem witness_ringStatusClear :
    0 < 32 ∧ internalRing 0 = false := by decide +kernel

/-! ### PopsAndPushesThroughAPort -/

theorem witness_ringPop :
    let s : State := { live with
      set := { live.set with rings := setAt live.set.rings 5 { ({} : RingSettings) with enable := true } }
      port := { live.port with rings := setAt live.port.rings 5 { ({} : Ring) with entries := [{ bytes := zeros 16 }] } } }
    5 < 32 ∧ portLive s 1 = true ∧ poppable s 1 5 = true ∧ (ringAt s 5).entries = [{ bytes := zeros 16 }] ∧
      4 + (renderEntry { bytes := zeros 16 }).length ≤ 20 ∧ s.port.respWait = [] := by decide +kernel

theorem witness_ringPopPart :
    let s : State := { live with
      set := { live.set with rings := setAt live.set.rings 5 { ({} : RingSettings) with enable := true } }
      port := { live.port with rings := setAt live.port.rings 5 { ({} : Ring) with entries := [{ bytes := zeros 16 }] } } }
    5 < 32 ∧ portLive s 1 = true ∧ poppable s 1 5 = true ∧
      (ringAt s 5).entries = ({ bytes := zeros 16 } : Entry) :: ([] : List Entry) ∧
      4 < 4 + (renderEntry ({ bytes := zeros 16 } : Entry)).length := by
  decide +kernel

theorem witness_ringPopEmpty :
    5 < 32 ∧ portLive live 1 = true ∧ (ringAt live 5).entries = [] := by decide +kernel

theorem witness_bareRead :
    portLive live 2 = true ∧ (ringAt live 10).entries = [] ∧ (ringAt live 6).entries = [] := by decide +kernel

/-- A device on the two-wire port with one entry on a ring bound to it. -/
def twoWire (n : Nat) : State := { live with
  pwr := { live.pwr with strapCode := 0 }
  set := { live.set with rings := setAt live.set.rings n { ({} : RingSettings) with enable := true, port := 2 } }
  port := { live.port with rings := setAt live.port.rings n { ({} : Ring) with entries := [{ bytes := zeros 16 }] } } }

theorem witness_bareReadResponse :
    let e : Entry := { bytes := zeros 16 }
    (10 = 10 ∨ (10 = 6 ∧ (ringAt (twoWire 10) 10).entries = [])) ∧ portLive (twoWire 10) 2 = true ∧ poppable (twoWire 10) 2 10 = true ∧
      (ringAt (twoWire 10) 10).entries = e :: ([] : List Entry) ∧ 4 + (renderEntry e).length ≤ 20 ∧ (twoWire 10).port.respWait = [] := by
  decide +kernel

theorem witness_bareReadEvent :
    let e : Entry := { bytes := zeros 16 }
    (6 = 10 ∨ (6 = 6 ∧ (ringAt (twoWire 6) 10).entries = [])) ∧ portLive (twoWire 6) 2 = true ∧ poppable (twoWire 6) 2 6 = true ∧
      (ringAt (twoWire 6) 6).entries = e :: ([] : List Entry) ∧ 4 + (renderEntry e).length ≤ 20 ∧ (twoWire 6).port.respWait = [] := by
  decide +kernel

theorem witness_ringPush :
    let s : State := { live with
      set := { live.set with rings := setAt live.set.rings 1 { ({} : RingSettings) with enable := true, quota := 4096 } } }
    1 < 32 ∧ s.port.rings.length = 32 ∧ portLive s 1 = true ∧ hostProduced 1 = true ∧ ringPort s 1 = 1 ∧
      16 ≤ (zeros 16).length ∧ (zeros 16).length = declaredLength 1 (zeros 16) ∧ (ringSet s 1).enable = true ∧
      fits s 1 (entrySpace { bytes := (zeros 16) }) = true := by decide +kernel

theorem witness_ringPushFull :
    let s : State := { live with set := { live.set with rings := setAt live.set.rings 1 { ({} : RingSettings) with enable := true } } }
    let b := (leBytes 2 0x0100 ++ leBytes 2 7 ++ leBytes 2 0 ++ zeros 10)
    1 < 32 ∧ portLive s 1 = true ∧ hostProduced 1 = true ∧ ringPort s 1 = 1 ∧ 16 ≤ b.length ∧ b.length = declaredLength 1 b ∧
      fits s 1 (entrySpace { bytes := b }) = false := by decide +kernel

theorem witness_ringPushBad :
    1 < 32 ∧ portLive live 1 = true ∧ (zeros 15).length ≠ declaredLength 1 (zeros 15) := by decide +kernel

theorem witness_status :
    portLive ({ live with pwr := { live.pwr with strapCode := 0 } } : State) 2 = true := by decide +kernel

/-! ### PcieRingsAndTheirInterrupts -/

theorem witness_pcieLinkTrained :
    hostConfig pcie = 2 ∧ pcie.pwr.released.getLsbD 7 = true ∧ 1 ≤ 1 ∧ 1 ≤ 3 ∧ 1 ≤ 1 ∧ 1 ≤ 2 := by decide +kernel

theorem witness_pcieRetrain :
    hostConfig pcie = 2 ∧ pcie.port.pcieGen ≠ 0 ∧ 1 ≤ 1 ∧ 1 ≤ 3 ∧ 1 ≤ 1 ∧ 1 ≤ 2 := by decide +kernel

theorem witness_busMasterEnable : configReady pcie = true := by decide +kernel

theorem witness_pcieRingsDisabled :
    hostConfig pcie = 2 ∧ pcie.port.rings.length = 32 ∧ pcie.set.rings.length = 32 := by decide +kernel

theorem witness_ringDisableDrained :
    5 < 32 ∧ (ringSet ({ live with set := { live.set with rings := setAt live.set.rings 5 {} } } : State) 5).enable = false ∧
      internalRing 5 = false := by decide +kernel

theorem witness_stagedEntryDma :
    4 < 32 ∧ pcie.port.rings.length = 32 ∧ dmaReady pcie 4 = true ∧ bufferFits pcie 4 = true ∧
      1 = (movingEntries pcie 4).length ∧ pcie.port.respWait = [] := by decide +kernel

theorem witness_hostRingFetchDone :
    let s : State := { pcie with
      set := { pcie.set with rings := setAt pcie.set.rings 0 { ({} : RingSettings) with enable := true } }
      port := { pcie.port with rings := setAt pcie.port.rings 0 { ({} : Ring) with tail := 16, fetching := true } } }
    let b : List Byte := [1] ++ zeros 15
    0 < 3 ∧ s.port.rings.length = 32 ∧ inHostMemory s 0 = true ∧ (ringSet s 0).enable = true ∧ s.port.busMaster = true ∧
      (ringAt s 0).fetching = true ∧ (ringAt s 0).head ≠ (ringAt s 0).tail ∧ takeable s 0 = true ∧ portOpen s 0 = true ∧
      field b 0 2 ≠ 0 ∧ declaredLength 0 b ≤ 4096 ∧ pad8 (declaredLength 0 b) ≤ ringUsed (ringAt s 0) := by decide +kernel

theorem witness_intTimeout :
    let s : State := { pcie with
      set := { pcie.set with rings := setAt pcie.set.rings 4 { ({} : RingSettings) with timeout := 5 } }
      port := { pcie.port with rings := setAt pcie.port.rings 4 { ({} : Ring) with unnotifiedAt := some 3 } } }
    4 < 32 ∧ (ringAt s 4).unnotifiedAt = some 3 ∧ (ringSet s 4).timeout ≠ 0 := by decide +kernel

/-! ### DeviceTimeStepsAndFollowsItsReference -/

theorem witness_plumbStep :
    let s : State := { live with pwr := { live.pwr with released := 0x7FFFF }, time := { live.time with step := some 640 } }
    s.time.step = some 640 ∧ s.time.setTo = none ∧ timeRuns s = true := by decide +kernel

theorem witness_timeSetApply :
    let s : State := { live with time := { live.time with setTo := some 100 } }
    s.time.setTo = some 100 ∧ s.time.step = none ∧ timeRuns s = true ∧ 0 = (toSecond s).time.count.toNat % ticksPerSecond ∧
      100 * ticksPerSecond + 0 ≠ (toSecond s).time.count.toNat := by
  decide +kernel

theorem witness_ppsEdgeEarly :
    let s : State := { live with set := { live.set with time := { ref := 1 } }, time := { live.time with lastEdge := some 0 } }
    s.clk.refOn = true ∧ s.pwr.porAsserted = false ∧ s.set.time.ref = 1 ∧ s.time.lastEdge = some 0 ∧ now s < 0 + ms 900 := by decide +kernel

theorem witness_ppsEdgeLocked :
    let s : State := { live with set := { live.set with time := { ref := 1 } }, time := { live.time with plumb := .locked, everLocked := true } }
    s.clk.refOn = true ∧ s.pwr.porAsserted = false ∧ s.set.time.ref = 1 ∧ s.time.plumb = .locked ∧ s.time.everLocked = true ∧
      s.clk.sPll = .locked ∧ ((∀ e, s.time.lastEdge = some e → e + ms 900 ≤ now s)) ∧
      (ppsDelta s (now64 s + 0)).natAbs * 1000 ≤ 1572864 := by decide +kernel

theorem witness_ppsEdgeQualifies :
    let s : State := { live with
      set := { live.set with time := { live.set.time with ref := 1 } }
      time := { live.time with plumb := .locked, everLocked := true } }
    s.clk.refOn = true ∧ s.pwr.porAsserted = false ∧ s.set.time.ref = 1 ∧ s.time.plumb ≠ .free ∧ s.time.plumb ≠ .qualifying ∧
      s.time.everLocked = true ∧ s.clk.sPll = .locked ∧ ((∀ e, s.time.lastEdge = some e → e + ms 900 ≤ now s)) ∧
      3145728 < (ppsDelta s (now64 s + 100000000)).natAbs * 100 := by decide +kernel

theorem witness_ppsEdgeFourth :
    let s : State := { live with
      set := { live.set with time := { live.set.time with ref := 1 } }
      time := { live.time with plumb := .qualifying, everLocked := true, agree := 3, first := 100000000 } }
    let x : Int := 100000000 - ppsDelta s (now64 s)
    let y : Int := if ppsDelta s (now64 s + x) = 100000000 then x else ppsDelta s (now64 s) - 100000000
    s.clk.refOn = true ∧ s.pwr.porAsserted = false ∧ s.set.time.ref = 1 ∧ s.time.plumb = .qualifying ∧ s.time.agree = 3 ∧
      s.time.everLocked = true ∧ s.clk.sPll = .locked ∧ (∀ e, s.time.lastEdge = some e → e + ms 900 ≤ now s) ∧
      3145728 < (ppsDelta s (now64 s + y)).natAbs * 100 ∧ (ppsDelta s (now64 s + y) - s.time.first).natAbs * 100000 ≤ 157286400 := by
  decide +kernel

theorem witness_tenMhzWindowAbsent :
    let s : State := { live with set := { live.set with time := { ref := 3 } }, time := { live.time with plumb := .locked } }
    s.clk.refOn = true ∧ s.pwr.porAsserted = false ∧ s.set.time.ref = 3 ∧ tenMhzOk { milliHz := 10000500001 } = false ∧
      s.time.plumb ≠ .free := by decide +kernel

theorem witness_tenMhzWindowPresent :
    let s : State := { live with
      set := { live.set with time := { live.set.time with ref := 3 } }
      time := { live.time with plumb := .locked } }
    s.clk.refOn = true ∧ s.pwr.porAsserted = false ∧ s.set.time.ref = 3 ∧ tenMhzOk { milliHz := 10000500000 } = true ∧
      s.time.plumb ≠ .free := by decide +kernel

theorem witness_referenceLost :
    let s : State := { live with set := { live.set with time := { ref := 1 } }, time := { live.time with plumb := .locked } }
    s.set.time.ref = 1 ∧ s.time.plumb = .locked := by decide +kernel

/-! ### LoopsLoseLock -/

theorem witness_loopLossOfLock :
    let s : State := { live with set := { live.set with time := { apll := 1 } }, clk := { live.clk with wordClock := .locked } }
    s.clk.sysPll = .locked ∧ s.clk.sPll = .locked ∧ s.clk.aPll = .locked ∧ s.clk.linkSynth = .locked ∧ s.set.time.apll = 1 ∧
      s.clk.wordClock = .locked := by decide +kernel

theorem witness_refStop :
    live.clk.refOn = true ∧ live.clk.sysPll = .locked ∧ live.clk.sPll = .locked ∧ live.clk.aPll = .locked ∧
      live.clk.linkSynth = .locked := by decide +kernel

theorem witness_kerfBufferFull :
    let s : State := { live with clk := { live.clk with sysPll := .lost 0 }, front := { live.front with windows := setAt live.front.windows 1 { windowAt live 1 with state := .open } } }
    1 < 5 ∧ s.clk.sysPll = .lost 0 ∧ windowOpen s 1 = true ∧ s.clk.kerfFull.contains 1 = false ∧ s.clk.refOn = true := by decide +kernel

theorem witness_loopRelockAttempt :
    loopAt ({ live with clk := { live.clk with aPll := .lost 0 } } : State) .aPll = .lost 0 := by decide

/-! ### LoopsRegainLock -/

theorem witness_refReturn :
    let s : State := { live with clk := { live.clk with refOn := false, sysPll := .lost 0 } }
    s.clk.refOn = false ∧ s.pwr.porAsserted = false ∧ s.set.mode ≠ .hold ∧ s.clk.sysPll ≠ .locked := by decide +kernel

theorem witness_wordClockLocked :
    let s : State := { live with
      set := { live.set with time := { apll := 1 }, gpio := live.set.gpio.map (fun _ => { func := 2 }) }
      clk := { live.clk with wordClock := .lost 0 } }
    s.set.time.apll = 1 ∧ s.clk.wordClock = .lost 0 ∧ 0 ≤ now s ∧ wordClockAbsent s = false ∧ s.clk.wordLost = false := by decide +kernel

theorem witness_loopRelock :
    let s : State := { live with clk := { live.clk with sysPll := .lost 3, sPll := .lost 3, aPll := .lost 3, linkSynth := .lost 3 } }
    s.clk.refOn = true ∧ s.clk.sysPll = .lost 3 ∧ s.clk.sPll = .lost 3 ∧ s.clk.aPll = .lost 3 ∧ s.clk.linkSynth = .lost 3 := by
  decide +kernel

theorem witness_loopRelockOnly :
    let s : State := { live with clk := { live.clk with sPll := .lost 3, aPll := .lost 3, linkSynth := .lost 3 } }
    s.clk.refOn = true ∧ s.clk.sPll = .lost 3 ∧ s.clk.aPll = .lost 3 ∧ s.clk.linkSynth = .lost 3 ∧ s.clk.sysPll = .locked := by
  decide +kernel

theorem witness_loopRelockLocked :
    live.clk.sysPll = .locked ∧ live.clk.sPll = .locked ∧ live.clk.aPll = .locked ∧ live.clk.linkSynth = .locked := by decide +kernel

/-! ### WindowsOpenRetuneAndClose -/

theorem witness_windowOpen :
    live.port.rings.length = 32 ∧ live.front.windows.length = 9 ∧
      (cmd (zeros 16) { index := 1, gen := 0 }).target.index < 5 ∧
      Accepted 0x0300 (cmd (zeros 16) { index := 1, gen := 0 }) (windowOpenChecks (cmd (zeros 16) { index := 1, gen := 0 })) live ∧
      runsIn live.set.mode true = false := by
  unfold Accepted; decide +kernel

theorem witness_windowOpenRun :
    let s : State := { live with set := { live.set with mode := .serve } }
    let f := cmd (zeros 16) { index := 1, gen := 0 }
    s.front.windows.length = 9 ∧ f.target.index < 5 ∧ Accepted 0x0300 f (windowOpenChecks f) s ∧ runsIn s.set.mode true = true ∧
      pickTuner s f.target.index = some 1 ∧ 1 < s.front.tuners.length ∧ (∀ o, (tunerAt s 1).role ≠ .glance o) := by
  intro s f
  refine ⟨rfl, by decide, ?_, rfl, by decide +kernel, by decide, nofun⟩
  unfold Accepted; decide +kernel

theorem witness_windowRetune :
    let s : State := { live with front := { live.front with windows := setAt live.front.windows 1 { windowAt live 1 with state := .stopped, inPlan := true } } }
    let f := cmd (zeros 16) { index := 1, gen := 0 }
    s.port.rings.length = 32 ∧ s.front.windows.length = 9 ∧ f.target.index < 4 ∧
      Accepted 0x0301 f (windowChecks f 16 modesISE) s ∧ (windowAt s f.target.index).state = .stopped ∧
      (windowAt s f.target.index).retuneTo = none ∧
      retuneChanges (windowAt s f.target.index) f.target.index (clampWindow s f.target.index f.payload) = true := by
  unfold Accepted; decide +kernel

theorem witness_windowRetuneSame :
    let c := clampWindow live 1 (zeros 16)
    let s : State := { live with front := { live.front with windows := setAt live.front.windows 1 { windowAt live 1 with
      state := .open, inPlan := true, port := c.port, widthKhz := c.width, lo := c.lo, agc := c.agc, fixedGain := c.gain, linger := c.linger } } }
    let f := cmd (zeros 16) { index := 1, gen := 0 }
    s.port.rings.length = 32 ∧ Accepted 0x0301 f (windowChecks f 16 modesISE) s ∧
      retuneChanges (windowAt s f.target.index) f.target.index (clampWindow s f.target.index f.payload) = false := by
  unfold Accepted; decide +kernel

theorem witness_windowClose :
    let s : State := { live with front := { live.front with windows := setAt live.front.windows 1 { windowAt live 1 with state := .stopped, inPlan := true } } }
    let f := cmd [] { index := 1, gen := 0 }
    s.port.rings.length = 32 ∧ s.front.windows.length = 9 ∧ f.target.index < 5 ∧ Accepted 0x0302 f (windowCloseChecks f) s ∧
      (windowAt s f.target.index).state = .stopped ∧ (windowAt s f.target.index).closeAfter = false := by
  unfold Accepted; decide +kernel

theorem witness_windowGang :
    let s : State := { live with front := { live.front with windows := setAt live.front.windows 1 { windowAt live 1 with state := .stopped, inPlan := true } } }
    let f := cmd [2, 1, 0, 0] { index := 1, gen := 0 }
    s.port.rings.length = 32 ∧ s.front.windows.length = 9 ∧ f.target.index < 5 ∧ Accepted 0x0304 f (windowGangChecks f) s ∧
      windowUp s f.target.index = false := by
  unfold Accepted; decide +kernel

theorem witness_windowUngang :
    let s : State := { live with front := { live.front with windows := setAt live.front.windows 1 { windowAt live 1 with state := .stopped, inPlan := true, partner := some (2, 1) } } }
    let f := cmd [] { index := 1, gen := 0 }
    s.port.rings.length = 32 ∧ s.front.windows.length = 9 ∧ f.target.index < 5 ∧
      Accepted 0x0305 f (windowChecks f 0 modesIS) s ∧ (windowAt s f.target.index).partner = some (2, 1) ∧
      branchesOn s f.target.index = [] ∧ (tunerAt s 2).role ≠ .partner f.target.index := by
  unfold Accepted; decide +kernel

/-! ### TunersFollowTheirSignalsAndFail -/

theorem witness_lingerExpiry :
    let s : State := { live with front := { live.front with tuners := setAt live.front.tuners 2 { tunerAt live 2 with state := .warm, lingerAt := some 5 } } }
    2 < 5 ∧ 2 < s.front.tuners.length ∧ (tunerAt s 2).lingerAt = some 5 ∧ (tunerAt s 2).role = .unused := by decide +kernel

theorem witness_tunerFailure :
    2 < 5 ∧ 2 < live.front.tuners.length ∧ (tunerAt live 2).failed = false ∧ (tunerAt live 2).role = .unused ∧
      (adcAt live 2).asked = false ∧ live.head.held = [] ∧ placementsWait live = false := by decide +kernel

theorem witness_failedWindowReopen :
    let s : State := { live with
      set := { live.set with mode := .serve }
      front := { live.front with windows := setAt live.front.windows 1 { windowAt live 1 with state := .failed, inPlan := true } } }
    1 < 5 ∧ 1 < s.front.windows.length ∧ 1 < s.front.tuners.length ∧ (windowAt s 1).state = .failed ∧ (windowAt s 1).inPlan = true ∧
      runsIn s.set.mode (windowAt s 1).sentry = true ∧ pickTuner s 1 = some 1 ∧ (∀ o, (tunerAt s 1).role ≠ .glance o) ∧
      (windowAt s 1).partner = none := by
  refine ⟨by decide, by decide, by decide, rfl, rfl, rfl, by decide +kernel, nofun, rfl⟩

theorem witness_failedWindowReopenGanged :
    let s : State := { live with
      set := { live.set with mode := .serve }
      front := { live.front with windows := setAt live.front.windows 1 { windowAt live 1 with state := .failed, inPlan := true, partner := some (2, 1) } } }
    1 < 5 ∧ 1 < s.front.windows.length ∧ 1 < s.front.tuners.length ∧ 2 < s.front.tuners.length ∧ 2 ≠ 1 ∧ (windowAt s 1).state = .failed ∧
      (windowAt s 1).inPlan = true ∧ s.set.mode = .serve ∧ pickTuner s 1 = some 1 ∧ (∀ o, (tunerAt s 1).role ≠ .glance o) ∧
      (windowAt s 1).partner = some (2, 1) ∧ (tunerAt s 2).failed = false ∧ (tunerAt s 2).role = .unused := by 
  refine ⟨by decide, by decide, by decide, by decide, by decide, rfl, rfl, rfl, by decide +kernel, nofun, rfl, rfl, rfl⟩

theorem witness_agcUpdate :
    let s : State := { live with front := { live.front with windows := setAt live.front.windows 1 { windowAt live 1 with state := .open, agc := 1, tuner := some 1 } } }
    1 < 5 ∧ 1 < s.front.windows.length ∧ (windowAt s 1).tuner = some 1 ∧ (windowAt s 1).state = .open ∧
      (windowAt s 1).agc = 1 ∧ (windowAt s 1).partner = none ∧
      100000 * ({} : AgcMeas).clippedLastS ≤ ({} : AgcMeas).samplesLastS := by decide +kernel

theorem witness_lnaBypass :
    let s : State := { live with set := { live.set with lna := [{ port := 2 }] }
                                 front := { live.front with windows := setAt live.front.windows 1 { windowAt live 1 with port := 2 }
                                                            tuners := setAt live.front.tuners 1 { tunerAt live 1 with role := .window 1, state := .warm, port := 2, clipAt := some 3 } } }
    0 < 4 ∧ (s.set.lna.getD 0 {}).port ≤ 5 ∧ s.front.bypassed.getD 0 false = false ∧
      (tunersOnPort s (s.set.lna.getD 0 {}).port).filterMap (fun t => (tunerAt s t).clipAt) = 3 :: ([] : List Nat) := by decide +kernel

theorem witness_lnaReturn :
    let s : State := { live with front := { live.front with bypassed := [true] } }
    0 < 4 ∧ s.front.bypassed.getD 0 false = true ∧
      (∀ t ∈ tunersOnPort s (s.set.lna.getD 0 {}).port, (tunerAt s t).above10At.isSome) := by decide +kernel

theorem witness_agcFreezeCap :
    ({ live with front := { live.front with tuners := [{ frozenAt := some 3 }] } } : State).front.tuners.filterMap (·.frozenAt) = 3 :: ([] : List Nat) := by decide +kernel

/-! ### TheTwoWireControllerWorksItsQueue -/

theorem witness_busXfer :
    let s : State := { live with bus := { live.bus with firstCommand := true } }
    let f := cmd [0, 0x20, 0, 0, 1, 0, 0, 0, 5]
    Accepted 0x0F00 f (busXferChecks f) s ∧ satNat 3 (field f.payload 0 1) ≠ 3 ∧ s.bus.stuck = false ∧
      s.bus.firstCommand = true := by
  unfold Accepted; decide +kernel

theorem witness_busXferStuck :
    let s : State := { live with bus := { live.bus with firstCommand := true, stuck := true } }
    let f := cmd [0, 0x20, 0, 0, 1, 0, 0, 0, 5]
    s.port.rings.length = 32 ∧ Accepted 0x0F00 f (busXferChecks f) s ∧ satNat 3 (field f.payload 0 1) = 0 ∧
      s.bus.stuck = true ∧ s.bus.firstCommand = true := by
  unfold Accepted; decide +kernel

theorem witness_busXferAttention :
    let f := cmd [3, 0x20, 0, 0, 4, 0, 0, 0, 0x12, 1, 0, 0]
    live.port.rings.length = 32 ∧ Accepted 0x0F00 f (busXferChecks f) live ∧ satNat 3 (field f.payload 0 1) = 3 ∧
      field f.payload 4 2 = 4 := by
  unfold Accepted; decide +kernel

theorem witness_busFree :
    let s : State := { live with bus := { live.bus with queue := [{ id := 3, kind := .attention }] } }
    s.bus.active = none ∧ s.bus.stuck = false ∧ nextXfer s = some ({ id := 3, kind := .attention } : Xfer) := by decide +kernel

theorem witness_controllerTransferEnd :
    let s : State := { live with bus := { live.bus with active := some 3, queue := [{ id := 3, kind := .user 0 0x20 0 [] 0 }] } }
    ({} : BusResult).result < 3 ∧ s.bus.active = some ({ id := 3, kind := .user 0 0x20 0 [] 0 } : Xfer).id ∧
      s.bus.queue.find? (fun y => y.id = ({ id := 3, kind := .user 0 0x20 0 [] 0 } : Xfer).id) = some ({ id := 3, kind := .user 0 0x20 0 [] 0 } : Xfer) ∧
      ({ id := 3, kind := .user 0 0x20 0 [] 0 } : Xfer).kind = .user 0 0x20 0 ([] : List Byte) 0 := by decide +kernel

theorem witness_controllerTransferRetry :
    let x : Xfer := { id := 1, kind := .user 0 0x10 0 [] 1 }
    let s : State := { live with bus := { live.bus with queue := [x], active := some 1 } }
    ({ result := 3 } : BusResult).result = 3 ∧ x.retries < 3 ∧ s.bus.active = some x.id ∧
      s.bus.queue.find? (fun y => y.id = x.id) = some x ∧ x.kind = .user 0 0x10 0 ([] : List Byte) 1 := by decide +kernel

theorem witness_busNotFreeTimeout :
    let s : State := { live with bus := { live.bus with queue := [{ id := 3, kind := .user 0 0x20 0 [] 0 }] } }
    s.bus.queue = [({ id := 3, kind := .user 0 0x20 0 [] 0 } : Xfer)] ∧ s.bus.active = none ∧
      ({ id := 3, kind := .user 0 0x20 0 [] 0 } : Xfer).kind = .user 0 0x20 0 ([] : List Byte) 0 := by decide +kernel

theorem witness_attentionMessage :
    let s : State := { live with set := { live.set with attnAddr := some 0x12, rings := setAt live.set.rings 10 { ({} : RingSettings) with port := 2 } }
                                 port := { live.port with intStatus := 0x400 }
                                 bus := { live.bus with attnAt := some 3, attnAcked := false } }
    (ringMask s &&& ~~~s.bus.attnMask) != 0 ∧ (attention s).isSome = true ∧ s.bus.queue = [] ∧ s.bus.active = none ∧
      s.bus.stuck = false := by decide +kernel

theorem witness_attentionRetry :
    let s : State := { live with set := { live.set with attnAddr := some 0x12, rings := setAt live.set.rings 10 { ({} : RingSettings) with port := 2 } }
                                 port := { live.port with intStatus := 0x400 }
                                 bus := { live.bus with attnAt := some 3, attnAcked := false } }
    s.bus.attnAt = some 3 ∧ s.bus.attnAcked = false ∧ ringMask s ≠ 0 ∧ (attention s).isSome = true ∧ s.bus.queue = [] ∧
      s.bus.active = none ∧ s.bus.stuck = false := by decide +kernel

theorem witness_attentionRepeat :
    let s : State := { live with set := { live.set with attnAddr := some 0x12, rings := setAt live.set.rings 10 { ({} : RingSettings) with port := 2 } }
                                 port := { live.port with intStatus := 0x400 }
                                 bus := { live.bus with attnAt := some 3, attnAcked := true } }
    s.bus.attnAt = some 3 ∧ s.bus.attnAcked = true ∧ ringMask s ≠ 0 ∧ (attention s).isSome = true ∧ s.bus.queue = [] ∧
      s.bus.active = none ∧ s.bus.stuck = false := by decide +kernel

theorem witness_supplyWrite :
    let s : State := { live with bus := { live.bus with active := some 3, queue := [{ id := 3, kind := .supply }], voutExp := some (-9) } }
    ({} : BusResult).result = 0 ∧
      s.bus.queue.find? (fun y => y.kind == .supply) = some ({ id := 3, kind := .supply } : Xfer) ∧
      s.bus.active = some ({ id := 3, kind := .supply } : Xfer).id ∧ ({ id := 3, kind := .supply } : Xfer).kind = .supply ∧
      s.bus.voutExp = some (-9) := by
  decide +kernel

theorem witness_supplyWriteRetry :
    let s : State := { live with set := { live.set with supply := { output := 1 } }, bus := { live.bus with supplyStopped := true, firstCommand := true } }
    s.bus.supplyStopped = true ∧ s.set.supply.output = 1 ∧ s.bus.firstCommand = true ∧ s.bus.queue = [] := by decide +kernel

theorem witness_busRecoveryRepeat :
    ({ live with bus := { live.bus with stuck := true } } : State).bus.stuck = true := by decide

/-! ### BanksCurvesAndBindings -/

theorem witness_bankLoad :
    let f := cmd (zeros 388) { index := 40, gen := 0 }
    live.port.rings.length = 32 ∧ live.mix.banks.length = 32 ∧ 32 ≤ f.target.index ∧ f.target.index < 64 ∧
      Accepted 0x0A00 f (bankLoadChecks f) live := by
  unfold Accepted; decide +kernel

theorem witness_curveLoad :
    let f := cmd (zeros 516) { index := 5, gen := 0 }
    live.port.rings.length = 32 ∧ live.mix.curves.length = 12 ∧ 4 ≤ f.target.index ∧ f.target.index < 16 ∧
      Accepted 0x0A02 f (curveLoadChecks f) live := by
  unfold Accepted; decide +kernel

theorem witness_ringBind :
    let f := cmd [4, 14, 0, 0] { index := 0, gen := 0 }
    rich.port.rings.length = 32 ∧ Accepted 0x0800 f (ringBindChecks f) rich ∧ (field f.payload 0 1) = field f.payload 0 1 ∧
      (field f.payload 0 1) ≠ 8 := by
  unfold Accepted; decide +kernel

/-! ### CalibrationRunsInOrder -/

theorem witness_temperatureComparison :
    let l : List Int := List.replicate 12 5 ++ [-3, 1, 2, 3, 4]
    l.length = 17 ∧ live.cal.adcs.length = 5 ∧
      (∀ i, i < 5 → ((adcTemps l).getD i 0 - (adcAt live i).reference).natAbs ≤ 16 * deltaT live) := by
  decide +kernel

theorem witness_pendingRunStart :
    let s : State := { live with cal := { live.cal with adcs := setAt live.cal.adcs 2 { ({} : AdcCal) with pending := true } }
                                 front := { live.front with windows := setAt live.front.windows 1 { ({} : Window) with tuner := some 2, state := .open } } }
    2 < 5 ∧ s.cal.adcs.length = 5 ∧ statsFree s = true ∧ firstPending s 2 = true ∧ s.head.restarting = false := by decide +kernel

theorem witness_calRetry :
    let s : State := { live with set := { live.set with mode := .serve }
                                 cal := { live.cal with adcs := setAt live.cal.adcs 2 { ({} : AdcCal) with pending := true, retry := true } }
                                 front := { live.front with windows := setAt live.front.windows 1 { ({} : Window) with tuner := some 2, state := .open } } }
    2 < 5 ∧ s.cal.adcs.length = 5 ∧ (adcAt s 2).pending = true ∧ (adcAt s 2).retry = true ∧ s.head.restarting = false ∧
      statsFree s = true ∧ adcOpen s 2 = true := by decide +kernel

theorem witness_elementStatisticsUnqualified :
    let s : State := { live with cal := { live.cal with adcs := setAt live.cal.adcs 2 { ({} : AdcCal) with stats := true } } }
    2 < 5 ∧ s.cal.adcs.length = 5 ∧ (adcAt s 2).stats = true ∧ (adcAt s 2).asked = false ∧
      ({ gathered := true, activity := 3 } : ElemStats).gathered = true ∧
      ({ gathered := true, activity := 3 } : ElemStats).activity < 400 := by
  decide +kernel

theorem witness_elementStatisticsDone :
    let s : State := { live with
      cal := { live.cal with adcs := modAt live.cal.adcs 0 (fun c => { c with stats := true }) }
      front := { live.front with windows := modAt live.front.windows 0 (fun w => { w with tuner := some 0 }) }
      prog := { receptions := [{}], programmes := [{}] }
      mix := { live.mix with blends := [{ a := { index := 0, gen := 0 }, state := .fading }] } }
    0 < 5 ∧ s.cal.adcs.length = 5 ∧ (adcAt s 0).stats = true ∧
      ({ gathered := true, activity := 400 } : ElemStats).gathered = true ∧
      400 ≤ ({ gathered := true, activity := 400 } : ElemStats).activity ∧ adcFeedsFade s 0 = true := by decide +kernel

theorem witness_elementStatisticsInterrupt :
    let s : State := { live with cal := { live.cal with adcs := setAt live.cal.adcs 2 { ({} : AdcCal) with stats := true } } }
    2 < 5 ∧ s.cal.adcs.length = 5 ∧ (adcAt s 2).stats = true ∧
      ({ gathered := true, activity := 500 } : ElemStats).gathered = true ∧
      400 ≤ ({ gathered := true, activity := 500 } : ElemStats).activity ∧ adcFeedsFade s 2 = false ∧ adcSteady s 2 = true := by
  decide +kernel

theorem witness_elementStatisticsRetunes :
    let s : State := { live with
      cal := { live.cal with adcs := setAt live.cal.adcs 2 { ({} : AdcCal) with stats := true } }
      front := { live.front with windows := setAt live.front.windows 1 { ({} : Window) with tuner := some 2, state := .retuning } } }
    2 < 5 ∧ s.cal.adcs.length = 5 ∧ (adcAt s 2).stats = true ∧ ({ activity := 500 } : ElemStats).gathered = true ∧
      400 ≤ ({ activity := 500 } : ElemStats).activity ∧ adcFeedsFade s 2 = false ∧ adcSteady s 2 = false := by
  decide +kernel

theorem witness_sparePairs : (0, 1) ∈ sparePairs := by decide +kernel

theorem witness_fadeDeferExpiry :
    let s : State := { live with cal := { live.cal with adcs := setAt live.cal.adcs 2 { ({} : AdcCal) with deferred := true } } }
    2 < 5 ∧ s.cal.adcs.length = 5 ∧ (adcAt s 2).deferred = true ∧ adcSteady s 2 = true := by decide +kernel

theorem witness_elementInterruptionEnd :
    let s : State := { live with cal := { live.cal with adcs := setAt live.cal.adcs 2 { ({} : AdcCal) with interrupted := true, choice := some {} } } }
    2 < 5 ∧ s.cal.adcs.length = 5 ∧ s.cal.record.adcs.length = 5 ∧ (adcAt s 2).interrupted = true ∧
      (adcAt s 2).asked = false ∧ (adcAt s 2).choice = some ({} : ElemChoice) ∧ adcWindow s 2 = none := by decide +kernel

theorem witness_iqEstimate :
    let s : State := { live with set := { live.set with mode := .serve }
                                 cal := { live.cal with adcs := setAt live.cal.adcs 2 { ({} : AdcCal) with pending := false } }
                                 front := { live.front with windows := setAt live.front.windows 1 { ({} : Window) with tuner := some 2, state := .open } } }
    let m : IqEst := { gathered := true, powerTenthDbm := -300, strongest := 100, signals := 5 }
    2 < 4 ∧ s.cal.adcs.length = 5 ∧ m.gathered = true ∧ adcOpen s 2 = true ∧ s.head.restarting = false ∧ iqFails (powerAt s 2 m.powerTenthDbm) m = none := by decide +kernel

theorem witness_iqRampEnd :
    let s : State := { live with cal := { live.cal with adcs := setAt live.cal.adcs 2 { ({} : AdcCal) with ramp := true } } }
    2 < 4 ∧ s.cal.adcs.length = 5 ∧ (adcAt s 2).ramp = true ∧ (adcAt s 2).iqTriggered ≠ some true := by decide +kernel

theorem witness_alignmentStep :
    let s : State := { live with cal := { live.cal with adcs := setAt live.cal.adcs 2 { ({} : AdcCal) with aligning := some false } } }
    2 < 5 ∧ s.cal.adcs.length = 5 ∧ s.cal.record.adcs.length = 5 ∧ (adcAt s 2).aligning = some false ∧ s.clk.sPll = .locked ∧
      adcWindow s 2 = none ∧ (s.cal.record.adcs.getD 2 {}).align ≠ clampInt (-256) 256 ({ target := 5 } : AlignMeas).target := by decide +kernel

theorem witness_alignmentEnd :
    let s : State := { live with cal := { live.cal with adcs := setAt live.cal.adcs 2 { ({} : AdcCal) with aligning := some false } } }
    2 < 5 ∧ s.cal.adcs.length = 5 ∧ (adcAt s 2).aligning = some false ∧ s.clk.sPll = .locked ∧ adcWindow s 2 = none ∧
      (s.cal.record.adcs.getD 2 {}).align = clampInt (-256) 256 ({} : AlignMeas).target := by decide +kernel

theorem witness_calRun :
    let s : State := { live with set := { live.set with mode := .serve }
                                 front := { live.front with windows := setAt live.front.windows 1 { ({} : Window) with tuner := some 2, state := .open } } }
    let f := cmd [7, 2, 0, 0]
    Accepted 0x0B00 f (calRunChecks f) s ∧ (∃ r ∈ calRuns s f.payload, r.result = none) := by
  unfold Accepted; decide +kernel

/-! ### TheAdaptiveSupplyFollowsAgeing -/

theorem witness_avsRaise :
    let s : State := { live with bus := { live.bus with firstCommand := true }, set := { live.set with supply := { output := 1 } } }
    let l : List Int := List.replicate 17 50
    l.length = 17 ∧ (worstMargin l).2 < 80 ∧ suppliesCore s = true ∧
      min (ceiling s) (s.cal.vdd + 5) ≠ s.cal.vdd := by decide +kernel

theorem witness_avsLower :
    let s : State := { live with bus := { live.bus with firstCommand := true }, set := { live.set with supply := { output := 1 } } }
    let l : List Int := List.replicate 17 150
    l.length = 17 ∧ 120 < (worstMargin l).2 ∧ suppliesCore s = true ∧
      s.bus.supplyStopped = false ∧ avsFloor s ≤ s.cal.vdd - 5 ∧ 0 < s.cal.vdd := by decide +kernel

theorem witness_grainAssessment :
    ({ degradation := List.replicate 17 0 } : GrainMeas).degradation.length = 17 ∧ live.head.restarting = false ∧
      live.set.mode ≠ .hold := by decide +kernel

theorem witness_clockPlanChange :
    let s : State := { live with cal := { live.cal with record := { live.cal.record with reduced := true } } }
    s.cal.record.reduced = true ∧ s.cal.dividersReduced = false ∧ (s.set.mode = .idle ∨ s.set.mode = .hold) := by decide +kernel

theorem witness_clockPlanChangeLate :
    let s : State := { live with set := { live.set with mode := .serve }, cal := { live.cal with record := { live.cal.record with reduced := true } } }
    s.cal.record.reduced = true ∧ s.cal.dividersReduced = false ∧ s.set.mode ≠ .idle ∧ s.set.mode ≠ .hold := by decide +kernel

/-! ### PlansAreStagedAndCommitted -/

theorem witness_planBegin :
    let f := cmd [2, 0, 0, 0, 32, 0, 0, 0]
    live.port.rings.length = 32 ∧ Accepted 0x0E00 f (planBeginChecks f) live := by
  unfold Accepted; decide +kernel

theorem witness_planPart :
    let s : State := { live with plan := { live.plan with stage := 1, staged := some (2, 32) } }
    let f := cmd ([1, 0, 0, 0, 0, 0, 0, 0] ++ zeros 16)
    s.port.rings.length = 32 ∧ Accepted 0x0E01 f (planPartChecks f) s := by
  unfold Accepted; decide +kernel

theorem witness_planDiscard :
    let f := cmd []
    live.port.rings.length = 32 ∧ Accepted 0x0E03 f (planDiscardChecks f) live := by
  unfold Accepted; decide +kernel

theorem witness_planCommit :
    let f := cmd [0, 0, 1, 0, 0, 0, 0, 0]
    live.port.rings.length = 32 ∧ Accepted 0x0E02 f (planCommitChecks f) live ∧ field f.payload 4 2 = 0 ∧
      (field f.payload 2 1).testBit 0 = true ∧ live.set.mode = .idle ∧ anyRemoving live = false ∧
      live.plan.committing = none ∧ live.store.queue.any (fun j => j.kind == .plan) = false := by
  unfold Accepted; decide +kernel

/-! ### OpeningsRetunesAndShutDownsEnd -/

theorem witness_windowOpenDone :
    let s : State := { live with set := { live.set with mode := .serve }
                                 front := { live.front with windows := setAt live.front.windows 1 { ({} : Window) with tuner := some 2, state := .opening } } }
    clockRuns s 6 = true ∧ 1 < 5 ∧ s.front.windows.length = 9 ∧ (windowAt s 1).state = .opening ∧ (windowAt s 1).retuneTo = none ∧
      s.set.mode ≠ .compat ∧ s.head.held = [] ∧ s.plan.starting = false ∧
      s.head.deferred.filter (fun x => x.key == .commit) = [] := by decide +kernel

theorem witness_retuneDone :
    let s : State := { live with set := { live.set with mode := .serve }
                                 front := { live.front with windows := setAt live.front.windows 1 { ({} : Window) with tuner := some 2, state := .retuning } } }
    clockRuns s 6 = true ∧ 1 < 5 ∧ s.front.windows.length = 9 ∧ (windowAt s 1).state = .retuning ∧ (windowAt s 1).retuneTo = none ∧
      s.set.mode ≠ .compat ∧ s.head.held = [] ∧ s.plan.starting = false ∧
      s.head.deferred.filter (fun x => x.key == .commit) = [] := by decide +kernel

theorem witness_windowClosed :
    let s : State := { live with set := { live.set with mode := .serve }
                                 front := { live.front with windows := setAt live.front.windows 1 { ({} : Window) with tuner := some 2, state := .closing } } }
    clockRuns s 6 = true ∧ 1 < 5 ∧ s.front.windows.length = 9 ∧ (windowAt s 1).state = .closing ∧ s.head.held = [] ∧ s.plan.committing = none ∧
      s.plan.starting = false ∧ s.head.deferred.filter (fun x => x.key == .commit) = [] := by decide +kernel

theorem witness_receptionRemoved :
    let s : State := { live with prog := { receptions := [{ removing := true }] } }
    clockRuns s 6 = true ∧ 0 < 256 ∧ receptionAt s 0 = some ({ removing := true } : Reception) ∧
      ({ removing := true } : Reception).removing = true ∧ s.prog.follows = [] ∧ s.prog.programmes = [] ∧
      s.set.mode ≠ .compat ∧ anyShed s = false ∧ s.head.restarting = false ∧
      s.prog.receptions = [({ removing := true } : Reception)] ∧ s.plan.committing = none ∧ s.plan.starting = false ∧
      s.head.deferred.filter (fun x => x.key == .commit) = [] := by decide +kernel

theorem witness_objectRemoved :
    let s : State := { live with prog := { taps := [{ o := { removing := true } }] } }
    clockRuns s 6 = true ∧ objRemoving s .tap 0 = true ∧ s.head.held = [] ∧ anyShed s = false ∧ s.plan.committing = none ∧ s.plan.starting = false ∧
      s.head.deferred.filter (fun x => x.key == .commit) = [] := by decide +kernel

/-! ### ChainsRunBlockByBlock -/

theorem witness_chainBlock :
    let c : Chain := { kind := .tap, state := .running }
    let s := tapping c
    clockRuns s 2 = true ∧ chainOf s (.tap 0) = some c ∧ chainProducing c = true ∧ c.gapAt = none ∧ (∀ g, c.gapAt = some g → adcInstant c {} < 64 * g) ∧
      c.kind = .tap ∧ s.time.steps = [] ∧
      c.epoch = s.time.epoch ∧ c.openSamples.length < 256 ∧ c.openSamples.length + (List.replicate 256 ((1, 2) : Int × Int)).length ≤ 256 := by
  refine ⟨by decide, by decide, by decide, rfl, fun g h => (by cases h), rfl, rfl, rfl, by decide, by decide +kernel⟩

theorem witness_chainBlockNothing :
    let c : Chain := { kind := .tap, state := .waiting }
    clockRuns (tapping c) 2 = false ∨ chainOf (tapping c) (.tap 0) = none ∨
      (∃ c', chainOf (tapping c) (.tap 0) = some c' ∧ chainProducing c' = false) := .inr (.inr ⟨_, rfl, rfl⟩)

theorem witness_settleCountDone :
    let c : Chain := { kind := .tap, state := .settling }
    clockRuns (tapping c) 6 = true ∧ liveChain (tapping c) (.tap 0) = some c ∧ c.state = .settling := by decide +kernel

theorem witness_chainBankChanged :
    let c : Chain := { kind := .tap, state := .running, pend := { bank := some {} } }
    clockRuns (tapping c) 6 = true ∧ liveChain (tapping c) (.tap 0) = some c ∧ chainProducing c = true ∧ c.pend.bank = some {} ∧ c.pend.freq = none := by decide +kernel

theorem witness_delayChangeApply :
    let c : Chain := { kind := .tap, state := .running, pend := { delay := some (3, 4) } }
    clockRuns (tapping c) 6 = true ∧ liveChain (tapping c) (.tap 0) = some c ∧ chainProducing c = true ∧ c.pend.delay = some (3, 4) := by decide +kernel

theorem witness_frequencyChangeApply :
    let c : Chain := { kind := .tap, state := .running, pend := { freq := some (99000000, 1) } }
    clockRuns (tapping c) 6 = true ∧ liveChain (tapping c) (.tap 0) = some c ∧ chainProducing c = true ∧ c.pend.freq = some (99000000, 1) := by decide +kernel

theorem witness_trackingHoldExpiry :
    let r : Reception := { rx := .holding, lastSettled := some {} }
    clockRuns (serving r) 6 = true ∧
      0 < 256 ∧ receptionAt (serving r) 0 = some r ∧ r.rx = .holding ∧ r.bridge = false ∧ r.lastSettled = some {} := by decide +kernel

/-! ### ReceptionsAreCreatedChangedAndRemoved -/

theorem witness_receptionAdd :
    let f := cmd ([3, 1, 0, 0] ++ leBytes 4 99500000 ++ leBytes 4 0xFFFF ++ zeros 20)
    live.port.rings.length = 32 ∧ live.set.mode = .idle ∧ Accepted 0x0500 f (receptionAddChecks f) live := by
  unfold Accepted; decide +kernel

theorem witness_receptionSet :
    let s : State := { live with prog := { receptions := [{ kind := .fm, window := 1, chain := { kind := .fm, window := 1, freq := 99500000 } }] } }
    let f := cmd ([3, 1, 0, 0] ++ leBytes 4 99500000 ++ leBytes 4 0xFFFF ++ zeros 20)
    s.port.rings.length = 32 ∧ Accepted 0x0501 f (receptionSetChecks f) s ∧
      (changeReception f.target.index f.payload s).2.2.2 = false := by
  unfold Accepted; decide +kernel

theorem witness_receptionRemove :
    let s : State := { live with set := { live.set with mode := .serve }
                                 prog := { receptions := [{ chain := { kind := .fm, state := .running } }] } }
    let f := cmd []
    s.port.rings.length = 32 ∧ Accepted 0x0502 f (receptionChecks f (f.payload.length = 0) modesIYSE true) s ∧
      receptionAt s f.target.index = some ({ chain := { kind := .fm, state := .running } } : Reception) ∧
      ({ chain := { kind := .fm, state := .running } } : Reception).removing = false ∧
      chainStarted ({ chain := { kind := .fm, state := .running } } : Reception).chain = true ∧
      ({ chain := { kind := .fm, state := .running } } : Reception).shed = false ∧
      (∀ x ∈ s.prog.receptions, x.untracked = []) := by
  unfold Accepted; decide +kernel

theorem witness_branchAdd :
    let s : State := { rich with prog := { rich.prog with branches := [], receptions := [{ kind := .fm, window := 0, chain := { kind := .fm } }] }
                                 front := { rich.front with windows := setAt rich.front.windows 0 { ({} : Window) with inPlan := true, partner := some (1, 1) } } }
    let f := cmd [0, 0, 0, 0]
    s.port.rings.length = 32 ∧ s.set.mode = .idle ∧ Accepted 0x0504 f (branchAddChecks f) s ∧
      receptionAt s (handleAt f.payload 0).index = some ({} : Reception) := by
  unfold Accepted; decide +kernel

theorem witness_branchRemove :
    let s : State := { live with set := { live.set with mode := .serve }, prog := { branches := [{ chain := { kind := .fm, state := .running } }] } }
    let f := cmd []
    s.port.rings.length = 32 ∧ Accepted 0x0505 f (branchRemoveChecks f) s ∧
      s.prog.branches.find? (·.o.idx == f.target.index) = some ({ chain := { kind := .fm, state := .running } } : Branch) ∧
      ({ chain := { kind := .fm, state := .running } } : Branch).o.removing = false ∧
      chainStarted ({ chain := { kind := .fm, state := .running } } : Branch).chain = true ∧
      ({ chain := { kind := .fm, state := .running } } : Branch).o.shed = false := by
  unfold Accepted; decide +kernel

theorem witness_tapAdd :
    let f := cmd ([1, 0, 0, 0] ++ leBytes 4 99500000 ++ leBytes 4 0xFFFF ++ zeros 4)
    live.port.rings.length = 32 ∧ live.set.mode = .idle ∧ Accepted 0x0506 f (tapAddChecks f) live := by
  unfold Accepted; decide +kernel

theorem witness_tapRemove :
    let s : State := { live with set := { live.set with mode := .serve }, prog := { taps := [{ chain := { kind := .tap, state := .running } }] } }
    let f := cmd []
    s.port.rings.length = 32 ∧ Accepted 0x0507 f (tapRemoveChecks f) s ∧
      s.prog.taps.find? (·.o.idx == f.target.index) = some ({ chain := { kind := .tap, state := .running } } : Tap) ∧
      ({ chain := { kind := .tap, state := .running } } : Tap).o.removing = false ∧
      chainStarted ({ chain := { kind := .tap, state := .running } } : Tap).chain = true := by
  unfold Accepted; decide +kernel

theorem witness_alertSet :
    let f := cmd [0, 0, 0, 0]
    rich.port.rings.length = 32 ∧ Accepted 0x0509 f (alertSetChecks f) rich ∧
      receptionAt rich f.target.index = some ({} : Reception) := by
  unfold Accepted; decide +kernel

/-! ### SurveyPassesFindStations -/

/-- A device in SURVEY whose pass runs with these placements. -/
def sweeping (l : List SurveyWin) : State :=
  { live with set := { live.set with mode := .survey }, survey := { live.survey with running := true, spectrumAt := some 0, wins := l } }

theorem witness_surveySpectrumDone :
    let s := sweeping [{ stage := .up }]
    clockRuns s 6 = true ∧ s.survey.running = true ∧ s.survey.measured = false ∧ s.set.mode = .survey ∧
      s.survey.spectrumAt = some 0 ∧ placementsWait s = false := by decide +kernel

theorem witness_surveySpectrumNext :
    let s := sweeping [{ stage := .up }, { tuner := 1 }]
    let ps := (([] : List SurveyPoint).filter (fun x => rasterPoint s.survey.cfg x && measuredPoint s x)).map (referPoint s)
    clockRuns s 6 = true ∧ s.survey.running = true ∧ s.survey.measured = false ∧ s.set.mode = .survey ∧
      s.survey.spectrumAt = some 0 ∧ placementsWait s = true ∧ s.survey.cands = [] ∧
      ps.filter (isCandidate s.survey.cfg ps) = [] := by decide +kernel

theorem witness_surveyDwellEnd :
    let s : State := { live with set := { live.set with mode := .survey }
                                 survey := { live.survey with running := true, cands := [{ running := true }], cfg := { bands := [{ dwell := 100 }] } } }
    clockRuns s 6 = true ∧ s.survey.running = true ∧ s.set.mode = .survey ∧ s.survey.cands[0]? = some ({ running := true } : SurveyCand) ∧
      ({ running := true } : SurveyCand).running = true ∧
      s.survey.cfg.bands[({ running := true } : SurveyCand).band]? = some ({ dwell := 100 } : SurveyBand) ∧
      ({} : SurveyFind).acquired = false := by decide +kernel

theorem witness_surveyDwellFound :
    let s : State := { live with set := { live.set with mode := .survey }
                                 survey := { live.survey with running := true, cands := [{ running := true }], cfg := { bands := [{ kind := 3, dwell := 100 }] } } }
    clockRuns s 6 = true ∧ s.survey.running = true ∧ s.set.mode = .survey ∧ s.survey.cands[0]? = some ({ running := true } : SurveyCand) ∧
      ({ running := true } : SurveyCand).running = true ∧
      s.survey.cfg.bands[({ running := true } : SurveyCand).band]? = some ({ kind := 3, dwell := 100 } : SurveyBand) ∧
      ({ acquired := true } : SurveyFind).acquired = true ∧
      analogue (kindOf ({ kind := 3, dwell := 100 } : SurveyBand).kind) = true := by decide +kernel

theorem witness_surveyPassEnd :
    let s : State := { live with set := { live.set with mode := .survey }
                                 survey := { live.survey with running := true, pass := 1, cfg := { passes := 1, bands := [] } } }
    clockRuns s 6 = true ∧
      s.survey.running = true ∧ passDone s = true ∧ s.set.mode = .survey ∧ s.survey.cfg.passes ≠ 0 ∧
      s.survey.cfg.passes ≤ s.survey.pass := by
  decide +kernel

/-! ### AnalogueReceptionsFollowTheirSignals -/

theorem witness_receptionAcquired :
    let r : Reception := { kind := .am, chain := running .am, ana := { threshold := 10 }
                           dem := { moments := [{ n := 4800, carrier := 1000, quad := 1 }], am := { loop := { locked := true } } } }
    let s := serving r
    clockRuns s 6 = true ∧
      0 < 256 ∧ receptionAt s 0 = some r ∧ receiving r = true ∧ r.chain.state = .running ∧ r.rx = .searching ∧ acquires r = true := by
  decide +kernel

theorem witness_receptionLost :
    let r : Reception := { kind := .fm, rx := .acquired, chain := running .fm, dem := { lowFor := ms 1000 } }
    clockRuns (serving r) 6 = true ∧ 0 < 256 ∧ receptionAt (serving r) 0 = some r ∧ receiving r = true ∧ r.rx = .acquired ∧ analogue r.kind = true ∧
      lossTicks r.kind ≤ r.dem.lowFor := by decide +kernel

theorem witness_receptionNotLost :
    let r : Reception := { kind := .am, rx := .acquired, chain := running .am, dem := { lowFor := ms 2000 - 1 } }
    receptionAt (serving r) 0 = some r ∧ r.dem.lowFor < lossTicks r.kind := by decide +kernel

theorem witness_pilotDecision :
    let r : Reception := { kind := .fm, chain := running .fm }
    clockRuns (serving r) 6 = true ∧ 0 < 256 ∧ receptionAt (serving r) 0 = some r ∧ r.kind = .fm ∧ receiving r = true := by decide +kernel

theorem witness_syncLoopFallback :
    let r : Reception := { kind := .am, syncAudio := true, dem := { am := { loop := { unlockedFor := ms 100 } } } }
    clockRuns (serving r) 6 = true ∧
      0 < 256 ∧ receptionAt (serving r) 0 = some r ∧ r.kind = .am ∧ r.syncAudio = true ∧ ms 100 ≤ r.dem.am.loop.unlockedFor := by
  decide +kernel

theorem witness_syncLoopRestore :
    let r : Reception := { kind := .am, rx := .acquired, chain := running .am
                           dem := { opts := { detection := 1 }, am := { loop := { locked := true, lockedFor := ms 200 }, fellBack := true } } }
    clockRuns (serving r) 6 = true ∧
      0 < 256 ∧ receptionAt (serving r) 0 = some r ∧ r.kind = .am ∧ r.rx ≠ .searching ∧ r.dem.opts.detection ≠ 0 ∧ receiving r = true ∧
      r.dem.am.loop.locked = true ∧ (r.dem.am.fellBack = false ∨ ms 200 ≤ r.dem.am.loop.lockedFor) := by decide +kernel

theorem witness_mpxShaving :
    let r : Reception := { kind := .fm, chain := running .fm, dem := { fm := { out := [{ v := 5 }, { first := true }] } } }
    let s : State := { serving r with plan := { live.plan with binds := [(1, {}, 0, 14)] } }
    clockRuns s 6 = true ∧
      0 < 256 ∧ receptionAt s 0 = some r ∧ r.kind = .fm ∧ mpxDue r = true ∧ boundRing s 1 0 (ownerHandle s (.reception 0)) = some 14 := by
  decide +kernel

theorem witness_rdsBlock :
    let r : Reception := { kind := .fm, ana := { streams := 15 }, rds := [{}, {}, {}, {}], chain := running .fm }
    clockRuns (serving r) 6 = true ∧
      0 < 256 ∧ 0 < 4 ∧ receptionAt (serving r) 0 = some r ∧ receiving r = true ∧ r.kind = .fm ∧ r.ana.streams.testBit 0 = true ∧
      newGroups (rdsNext (r.ana.rbds = 1) (r.rds.getD 0 {})).2 (rdsNext (r.ana.rbds = 1) (r.rds.getD 0 {})).1 = [] := by decide +kernel

theorem witness_rdsStream :
    let r : Reception := { kind := .fm, ana := { streams := 8 }, rds := [{}, {}, {}, {}], chain := running .fm }
    clockRuns (serving r) 6 = true ∧ 0 < 256 ∧ 3 < 4 ∧ 3 ≠ 0 ∧ receptionAt (serving r) 0 = some r ∧ receiving r = true ∧ r.kind = .fm ∧
      r.ana.streams.testBit 3 = true := by decide +kernel

/-! ### MeasurementsAndSilence -/

theorem witness_measurementIntervalEnd :
    let r : Reception := { kind := .fm, rx := .acquired, chain := running .fm }
    let x : Programme := { measured := true, intervalAt := some {} }
    let s := serving r [x]
    clockRuns s 6 = true ∧ 0 < 1024 ∧ programmeAt s 0 = some x ∧ receptionAt s x.reception = some r ∧ x.intervalAt = some {} ∧ x.measured = true ∧
      receiving r = true := by decide +kernel

/-- 100 ms of AM audio, the first part of it concealed. -/
def audio (concealed : Bool) : Loud := { todo := List.replicate 2400 { concealed := concealed } }
/-- An AM reception that gives audio. -/
def talking : Reception := { kind := .am, rx := .acquired, chain := running .am }

theorem witness_momentaryEarly :
    let x : Programme := { measured := true, loud := { todo := [{}] } }
    let s := serving talking [x]
    programmeAt s 0 = some x ∧
      (x.loud.todo.take (audioRate (kindAt s x.reception) x.decl / 10)).length < audioRate (kindAt s x.reception) x.decl / 10 := by
  decide +kernel

/-- The audio of these tests has a loudness, whatever its value. -/
theorem audio_loudness : (loudnessOver 24000 400 (loudStep 24000 1 (audio false))).isSome = true := by decide +kernel

theorem audio_heard : audioRate .am {} = 24000 ∧ audioChannels .am {} = 1 ∧ 24000 / 10 ≤ ((audio false).todo.take (24000 / 10)).length ∧
    100 * (unconcealed ((audio false).todo.take (24000 / 10))).length / ((audio false).todo.take (24000 / 10)).length ≠ 0 := by decide +kernel

theorem witness_momentaryQuiet : ∃ v T : Int, loudnessOver 24000 400 (loudStep 24000 1 (audio false)) = some v ∧ v < 10 * T ∧
    (let x : Programme := { measured := true, threshold := T, loud := audio false }
     let s := serving talking [x]
     clockRuns s 6 = true ∧ 0 < 1024 ∧ programmeAt s 0 = some x ∧ x.measured = true ∧ hasAudio s x = true ∧ kindAt s x.reception = .am ∧ x.decl = {} ∧
       x.silent = false) := by
  obtain ⟨v, h⟩ := Option.isSome_iff_exists.mp audio_loudness
  exact ⟨v, v / 10 + 1, h, by omega, rfl, by decide, rfl, rfl, rfl, rfl, rfl, rfl⟩

theorem witness_momentaryLoud : ∃ v T : Int, loudnessOver 24000 400 (loudStep 24000 1 (audio false)) = some v ∧ 10 * T ≤ v ∧
    (let x : Programme := { measured := true, threshold := T, silent := true, loud := audio false }
     let s := serving talking [x]
     clockRuns s 6 = true ∧ 0 < 1024 ∧ programmeAt s 0 = some x ∧ x.measured = true ∧ hasAudio s x = true ∧ kindAt s x.reception = .am ∧ x.decl = {}) := by
  obtain ⟨v, h⟩ := Option.isSome_iff_exists.mp audio_loudness
  exact ⟨v, v / 10, h, by omega, rfl, by decide, rfl, rfl, rfl, rfl, rfl⟩

theorem witness_momentaryConcealed :
    let x : Programme := { measured := true, loud := audio true }
    let s := serving talking [x]
    let l := x.loud.todo.take (audioRate (kindAt s x.reception) x.decl / 10)
    clockRuns s 6 = true ∧ 0 < 1024 ∧ programmeAt s 0 = some x ∧ x.measured = true ∧ hasAudio s x = true ∧
      audioRate (kindAt s x.reception) x.decl / 10 ≤ l.length ∧ 100 * (unconcealed l).length / l.length = 0 := by decide +kernel

theorem witness_silenceBegan :
    let x : Programme := { measured := true, belowSince := some {}, belowMs := 2000, silenceS := 2 }
    let s := serving talking [x]
    clockRuns s 6 = true ∧ 0 < 1024 ∧ programmeAt s 0 = some x ∧ x.measured = true ∧ x.silent = false ∧ hasAudio s x = true ∧
      x.belowSince = some {} ∧ 1000 * x.silenceS ≤ x.belowMs := by decide +kernel

/-! ### DigitalReceptionsAndTheirProgrammes -/

/-- A digital reception whose engine has completed one CIF or frame and reported another. -/
def digital (k : Kind) : Reception :=
  { kind := k, rx := .acquired, chain := running k, ofdm := { marks := [{}], past := [{}] } }

/-- A FIB that passes its CRC, which is sent inverted (R223). -/
def goodFib : List Byte := zeros 30 ++ (leBytes 2 (~~~(crc16 (zeros 30))).toNat).reverse

theorem witness_noCif :
    let r : Reception := { kind := .dab, chain := running .dab }
    receptionAt (serving r) 0 = some r ∧ r.ofdm.marks = [] := by decide +kernel

theorem witness_dabCif :
    let r := digital .dab
    let s := serving r
    let c : DabCif := { fibs := [zeros 32, goodFib] }
    clockRuns s 6 = true ∧
      0 < 256 ∧ c.fibs.length ≤ 3 ∧ c.fibs.all (fun b => b.length = 32) = true ∧ receptionAt s 0 = some r ∧ r.ofdm.marks = {} :: [] ∧
      unitUp s 4 = true ∧ receiving r = true ∧ r.kind = .dab ∧ cifPassed {} c = true ∧ cifPassed {} {} = false ∧ r.rx = .acquired ∧
      c.comps = none ∧ c.alerts = [] ∧ c.links = [] ∧ c.cands = [] := by decide +kernel

theorem witness_drmFrame :
    let r := digital .drm30
    let s := serving r
    clockRuns s 6 = true ∧ 0 < 256 ∧ ({} : DrmFrame).fac.length ≤ 16 ∧ receptionAt s 0 = some r ∧ r.ofdm.marks = {} :: [] ∧ unitUp s 4 = true ∧
      receiving r = true ∧ isDrm r.kind = true ∧ r.rx = .acquired := by decide +kernel

theorem witness_drmSuperframe :
    let r := digital .drm30
    let s := serving r
    clockRuns s 6 = true ∧ 0 < 256 ∧ ({} : DrmSuper).sdc.length ≤ 1024 ∧ receptionAt s 0 = some r ∧ unitUp s 4 = true ∧ receiving r = true ∧
      isDrm r.kind = true ∧ r.ofdm.past ≠ [] ∧
      (({} : DrmSuper).crcOk = false ∨ (({} : DrmSuper).comps = none ∧ ({} : DrmSuper).alerts = [] ∧ ({} : DrmSuper).links = [] ∧ ({} : DrmSuper).cands = [])) := by decide +kernel

theorem witness_controlChannelTimeout :
    let r : Reception := { digital .dab with badRun := 84 }
    clockRuns (serving r) 6 = true ∧ 0 < 256 ∧ receptionAt (serving r) 0 = some r ∧ r.rx = .acquired ∧ receiving r = true ∧ analogue r.kind = false ∧
      ((if r.kind = .dab then 2000 ≤ 24 * r.badRun else 10 ≤ r.badRun) ∨ 10 ≤ r.noSync) := by decide +kernel

theorem witness_receptionReconfigured :
    let a : Announced := { count := 100, comps := [{ codec := 1 }] }
    let r := { digital .dab with announced := some a }
    0 < 256 ∧ clockRuns (serving r) 6 = true ∧ receptionAt (serving r) 0 = some r ∧ receiving r = true ∧ analogue r.kind = false ∧
      r.announced = some a ∧ a.left = 0 := by decide +kernel

theorem witness_reconfigurationWaits :
    let a : Announced := { count := 100, left := 3 }
    let r := { digital .dab with announced := some a }
    0 < 256 ∧ receptionAt (serving r) 0 = some r ∧ r.announced = some a ∧ 0 < a.left := by decide +kernel

theorem witness_decodeResumed :
    let x : Programme := { selected := true, suspended := true }
    let s := serving (digital .dab) [x]
    clockRuns s 6 = true ∧ 0 < 1024 ∧ programmeAt s 0 = some x ∧ x.selected = true ∧ x.suspended = true ∧ x.shedStep = 0 ∧
      (let c := selectionCharge (kindAt s x.reception) x.reserve x.decl.codec
       let u := modProgramme 0 (fun y => { y with charge := c, suspended := false }) s
       guUsed u ≤ guLimit u) := by decide +kernel

theorem witness_programmeAbsentExpiry :
    let x : Programme := { absentAt := some 5 }
    let s := serving (digital .dab) [x]
    clockRuns s 6 = true ∧ 0 < 1024 ∧ programmeAt s 0 = some x ∧ x.absentAt = some 5 ∧ (∀ r ∈ s.prog.receptions, r.untracked = []) ∧
      anyShed s = false ∧ s.set.mode ≠ .compat := by decide +kernel

theorem witness_transportUnit :
    let r := digital .dab
    let x : Programme := {}
    let s := serving r [x]
    clockRuns s 6 = true ∧ 0 < 1024 ∧ programmeAt s 0 = some x ∧ receptionAt s x.reception = some r ∧ unitUp s 4 = true ∧ receiving r = true ∧
      analogue r.kind = false ∧ x.absentAt = none ∧ ({} : TransportIn).pad = [] ∧ r.ofdm.past ≠ [] ∧ r.hierarchical = false ∧ x.decl.codec ≠ 1 := by decide +kernel

theorem witness_superframe :
    let r := digital .dab
    let x : Programme := { decl := { codec := 1 } }
    let s := serving r [x]
    clockRuns s 6 = true ∧ 0 < 1024 ∧ programmeAt s 0 = some x ∧ receptionAt s x.reception = some r ∧ unitUp s 4 = true ∧ receiving r = true ∧
      analogue r.kind = false ∧ x.absentAt = none ∧ ({} : TransportIn).pad = [] ∧ r.ofdm.past ≠ [] ∧ r.hierarchical = false ∧ x.decl.codec = 1 ∧
      (x.superSync = false ∨ x.phase = r.cifNo % 5) := by decide +kernel

theorem witness_superframeHeld :
    let r := digital .dab
    let x : Programme := { decl := { codec := 1 }, superSync := true, phase := 0, misses := 9 }
    let s := serving r [x]
    clockRuns s 6 = true ∧ 0 < 1024 ∧ programmeAt s 0 = some x ∧ receptionAt s x.reception = some r ∧ unitUp s 4 = true ∧ receiving r = true ∧
      analogue r.kind = false ∧ x.absentAt = none ∧ ({} : TransportIn).pad = [] ∧ r.ofdm.past ≠ [] ∧ r.hierarchical = false ∧ x.decl.codec = 1 ∧
      (x.superSync = false ∨ x.phase = r.cifNo % 5) := by decide +kernel

theorem witness_motIdleExpiry :
    let m : MotObj := { tid := 4 }
    let x : Programme := { mot := [m] }
    clockRuns (serving (digital .dab) [x]) 6 = true ∧
      0 < 1024 ∧ programmeAt (serving (digital .dab) [x]) 0 = some x ∧ x.mot.find? (·.tid == 4) = some m := by decide +kernel

/-! ### ProgrammesAreSelectedAndMeasured -/

theorem witness_programmeSelect :
    let f := cmd [1, 0, 0, 0, 0, 0, 0, 0, 0, 0, 0, 0] { index := 0, gen := 0 }
    let s : State := { live with prog := { receptions := [{ kind := .dab }], programmes := [{}] } }
    s.port.rings.length = 32 ∧ Accepted 0x0600 f (programmeSelectChecks f) s ∧ byIdentity f = false ∧
      programmeAt s f.target.index = some ({} : Programme) ∧ analogue (kindAt s ({} : Programme).reception) = false ∧
      field f.payload 0 1 ≠ 0 ∧ anyShed s = false := by
  unfold Accepted; decide +kernel

theorem witness_programmeMeasure :
    let f := cmd ([1, 0, 0, 0, 0, 0, 0, 0, 0, 0, 0, 0] ++ leBytes 2 10 ++ leBytes 2 30) { index := 0, gen := 0 }
    let s : State := { rich with prog := { rich.prog with programmes := [{ measured := true }] } }
    s.port.rings.length = 32 ∧ Accepted 0x0601 f (programmeMeasureChecks f) s ∧ byIdentity f = false ∧
      programmeAt s f.target.index = some ({ measured := true } : Programme) ∧
      ({ measured := true } : Programme).measured = true ∧ field f.payload 0 1 ≠ 0 ∧ anyShed s = false := by
  unfold Accepted; decide +kernel

/-! ### PcmOutputsPlayTheirSources -/

theorem witness_pcmRoute :
    let f := cmd ([0, 0, 0, 0, 0, 0] ++ zeros 10) { index := 0xFFFF }
    ({ rich with gens := { rich.gens with programme := setAt rich.gens.programme 0 0 } } : State).port.rings.length = 32 ∧
      Accepted 0x0700 f (pcmRouteChecks f) ({ rich with gens := { rich.gens with programme := setAt rich.gens.programme 0 0 } } : State) ∧
      f.target.index = 0xFFFF ∧
      newPcmIndex ({ rich with gens := { rich.gens with programme := setAt rich.gens.programme 0 0 } } : State) < ({ rich with gens := { rich.gens with programme := setAt rich.gens.programme 0 0 } } : State).gens.pcm.length := by
  unfold Accepted; decide +kernel

theorem witness_pcmRemove :
    let f := cmd [] { index := 0, gen := 0 }
    let s : State := { rich with set := { rich.set with mode := .serve } }
    s.port.rings.length = 32 ∧ Accepted 0x0701 f (pcmRemoveChecks f) s ∧
      s.prog.pcms.find? (·.o.idx == f.target.index) = some ({} : PcmOut) ∧ ({} : PcmOut).o.removing = false ∧
      pcmRuns s ({} : PcmOut) = true := by
  unfold Accepted; decide +kernel

theorem witness_tdmConfigApply :
    2 < 4 ∧ 2 < live.mix.tdm.length ∧ live.set.mode ≠ .compat := by decide +kernel

/-- A device in SERVE with one PCM output, bound to ring 14. -/
def playing (x : PcmOut) : State :=
  { live with
    set := { live.set with mode := .serve }, plan := { live.plan with binds := [(2, { index := 0, gen := 0 }, 5, 14)] }, prog := { pcms := [x] } }

theorem witness_pcmUnderrun :
    let x : PcmOut := { playing := true, source := {} }
    0 < 32 ∧ (playing x).prog.pcms.find? (·.o.idx == 0) = some x ∧ x.playing = true := by decide +kernel

theorem witness_pcmFifoRefilled :
    let x : PcmOut := { source := {}, port := 1 }
    let s := playing x
    0 < 32 ∧ s.prog.pcms.find? (·.o.idx == 0) = some x ∧ pcmRuns s x = true ∧ x.o.removing = false ∧
      (4 ≤ x.port ∨ (clockRuns s 9 = true ∧ s.mix.followerLost.getD x.port false = false)) ∧ x.playing = false := by decide +kernel

theorem witness_pcmShaving :
    let x : PcmOut := { source := {}, playing := true, fifo := List.replicate 240 {} }
    let s := playing x
    0 < 32 ∧ s.prog.pcms.find? (·.o.idx == 0) = some x ∧ boundRing s 2 5 { index := 0, gen := x.o.gen } = some 14 ∧ pcmRuns s x = true ∧
      x.o.removing = false ∧ x.playing = true ∧ x.played = [] ∧ 240 ≤ x.fifo.length := by decide +kernel

theorem witness_pcmShavingSilent :
    let x : PcmOut := { source := {} }
    let s := playing x
    0 < 32 ∧ s.prog.pcms.find? (·.o.idx == 0) = some x ∧ boundRing s 2 5 { index := 0, gen := x.o.gen } = some 14 ∧ pcmRuns s x = true ∧
      x.o.removing = false ∧ x.playing = false ∧ x.played = [] := by decide +kernel

theorem witness_followerPortLost :
    let s : State := { live with mix := { live.mix with tdm := [{ role := 1 }] } }
    0 < 4 ∧ (s.mix.tdm.getD 0 {}).role = 1 ∧ s.mix.followerLost.getD 0 false = false ∧
      followerBad (s.mix.tdm.getD 0 {}) { missing := 3 } = true := by decide +kernel

theorem witness_followerPortResume :
    let s : State := { live with mix := { live.mix with followerLost := [true] } }
    0 < 4 ∧ 16 ≤ 16 ∧ s.mix.followerLost.getD 0 false = true := by decide +kernel

/-! ### FollowObjectsAndProbesDoTheirWork -/

theorem witness_followSet :
    let f := cmd (zeros 4 ++ leBytes 4 0xFFFF ++ zeros 124) { index := 0xFFFF }
    ({ rich with prog := { rich.prog with follows := [] } } : State).port.rings.length = 32 ∧
      Accepted 0x0900 f (followSetChecks f) ({ rich with prog := { rich.prog with follows := [] } } : State) ∧
      f.target.index = 0xFFFF ∧
      newFollowIndex ({ rich with prog := { rich.prog with follows := [] } } : State) < ({ rich with prog := { rich.prog with follows := [] } } : State).gens.follow.length := by
  unfold Accepted; decide +kernel

theorem witness_followRemove :
    let f := cmd [] { index := 0, gen := 0 }
    let s : State := { rich with set := { rich.set with mode := .serve } }
    s.port.rings.length = 32 ∧ Accepted 0x0901 f (followRemoveChecks f) s ∧ s.set.mode = .serve ∧
      followAt s f.target.index = some ({} : Follow) ∧ ({} : Follow).o.removing = false := by
  unfold Accepted; decide +kernel

theorem witness_probeAdd :
    let f := cmd (leBytes 4 0xFFFF ++ [1, 0, 0, 0] ++ leBytes 4 99500000 ++ leBytes 4 0xFFFF ++ zeros 4)
    live.port.rings.length = 32 ∧ live.set.mode = .idle ∧ Accepted 0x0903 f (probeAddChecks f) live := by
  unfold Accepted; decide +kernel

theorem witness_probeSet :
    let f := cmd (leBytes 4 0 ++ [1, 0, 0, 0] ++ leBytes 4 99500000 ++ leBytes 4 0xFFFF ++ zeros 4) { index := 0, gen := 0 }
    let p : Probe := { follow := some {}, chain := { state := .running } }
    let s : State := { rich with prog := { rich.prog with probes := [p] } }
    s.port.rings.length = 32 ∧ Accepted 0x0904 f (probeSetChecks f) s ∧ probeAt s f.target.index = some p ∧ p.follow ≠ none ∧
      chainStarted p.chain = true := by
  unfold Accepted; decide +kernel

theorem witness_probeRemove :
    let f := cmd [] { index := 0, gen := 0 }
    let p : Probe := { follow := none, chain := { state := .running } }
    let s : State := { rich with set := { rich.set with mode := .serve }, prog := { probes := [p] } }
    s.port.rings.length = 32 ∧ Accepted 0x0905 f (probeRemoveChecks f) s ∧ probeAt s f.target.index = some p ∧
      p.follow = none ∧ p.o.removing = false ∧ chainStarted p.chain = true ∧ (∀ y ∈ s.prog.follows, y.pending = none) := by
  unfold Accepted; decide +kernel

theorem witness_gaugeMetric :
    let c : Cand := { freq := 99500000, kind := .fm, origin := 1, state := .verified }
    let r : Reception := { kind := .fm, window := 1, rx := .acquired, chain := { running .fm with window := 1, freq := 99500000 }
                           dem := { moments := [{ n := 1 }] } }
    let f : Follow := { cands := [c] }
    let s : State := { serving r with
                       front := { live.front with windows := setAt live.front.windows 1 { (windowAt live 1) with state := .open, lo := 90000000, widthKhz := 12000 } }
                       prog := { receptions := [r], follows := [f] } }
    clockRuns s 6 = true ∧ 0 < 32 ∧ s.set.mode = .serve ∧ s.head.restarting = false ∧ followAt s 0 = some f ∧
      f.o.removing = false ∧ f.pending = none ∧ f.advised = none ∧ f.gaugeAt = none ∧ reseat s f = f ∧ f.cands = [c] ∧ c.kind = .fm ∧
      c.state = .verified ∧ c.source = none ∧ (capturedBy s c.kind c.freq).isSome = true ∧ receptionAt s f.current = some r ∧
      receptionOn s f c = some r ∧ receivedIdentity f r = none ∧ (cnValue r.kind (recentMoments r.kind r.dem)).isSome = true ∧
      currentLost s f = false ∧ (∀ p ∈ s.prog.probes, p.follow ≠ none) := by decide +kernel

theorem witness_retarget :
    let r : Reception := { kind := .fm, window := 1, rx := .acquired, chain := { kind := .fm, window := 1, freq := 99500000, state := .running, covered := true } }
    let p : Probe := { chain := { kind := .fm, window := 1, freq := 98000000, state := .running, covered := true } }
    let f : Follow := { pending := some { cause := 0, cand := some (98000000, .fm), probe := 0 } }
    let s : State := { live with set := { live.set with mode := .serve }, prog := { receptions := [r], probes := [p], follows := [f] } }
    clockRuns s 6 = true ∧ 0 < 32 ∧ followAt s 0 = some f ∧ f.pending = some ({ cause := 0, cand := some (98000000, .fm), probe := 0 } : Decision) ∧
      ({ cause := 0, cand := some (98000000, .fm), probe := 0 } : Decision).cand = some (98000000, (r.kind)) ∧
      ({ cause := 0, cand := some (98000000, .fm), probe := 0 } : Decision).probe = 0 ∧ f.heldDecision = none ∧
      receptionAt s f.current = some r ∧ probeAt s 0 = some p ∧ p.chain.freq = 98000000 ∧ p.chain.pend.freq = none ∧ p.chain.kind = (r.kind) ∧
      chainProducing p.chain = true ∧ p.o.removing = false ∧ r.removing = false ∧ r.rx = .acquired ∧ r.chain.covered = true := by decide +kernel

theorem witness_probeDwellEnd :
    let p : Probe := { follow := some {}, chain := { kind := .fm, freq := 98000000, state := .running, covered := true } }
    let f : Follow := { currentMetric := some 0, cands := [{ freq := 98000000, kind := .fm, metric := some 1000, samples := [some 1000] }] }
    let s : State := { live with set := { live.set with mode := .serve }, prog := { probes := [p], follows := [f] } }
    clockRuns s 6 = true ∧ 0 < 32 ∧ probeAt s 0 = some p ∧ p.follow = some ({} : Handle) ∧ followAt s ({} : Handle).index = some f ∧
      chainStarted p.chain = true ∧ p.chain.covered = true ∧ p.o.removing = false ∧ p.o.shed = false ∧ f.glance = none ∧
      p.nextFollow = none ∧ probeKept f p = true := by decide +kernel

theorem witness_glanceEnd :
    let f : Follow := { glance := some (2, 98000000, .fm, 5) }
    let s : State := { live with set := { live.set with mode := .serve }, prog := { follows := [f] } }
    clockRuns s 6 = true ∧ 0 < 32 ∧ followAt s 0 = some f ∧ f.glance = some (2, 98000000, (Kind.fm), 5) ∧
      (∀ p ∈ s.prog.probes, p.chain.freq ≠ 98000000) := by decide +kernel

theorem witness_candidateExpiry :
    let f : Follow := { cands := [{ freq := 98000000, kind := .fm, origin := 2 }] }
    let s : State := { live with set := { live.set with mode := .serve }, prog := { follows := [f] } }
    clockRuns s 6 = true ∧ 0 < 32 ∧ followAt s 0 = some f ∧
      f.cands.find? (fun c => c.freq = 98000000 && c.kind = (Kind.fm)) = some ({ freq := 98000000, kind := .fm, origin := 2 } : Cand) ∧
      keptOrigin ({ freq := 98000000, kind := .fm, origin := 2 } : Cand).origin = false ∧
      (∀ p ∈ s.prog.probes, p.chain.freq ≠ 98000000) := by decide +kernel

theorem witness_rejectionExpiry :
    let f : Follow := { cands := [{ freq := 98000000, kind := .fm, state := .rejected }] }
    let s : State := { live with set := { live.set with mode := .serve }, front := { live.front with windows := setAt live.front.windows 1 { (windowAt live 1) with state := .open, lo := 90000000, widthKhz := 12000 } }, prog := { follows := [f] } }
    clockRuns s 6 = true ∧ 0 < 32 ∧ followAt s 0 = some f ∧
      f.cands.find? (fun c => c.freq = 98000000 && c.kind = .fm) = some ({ freq := 98000000, kind := .fm, state := .rejected } : Cand) ∧
      ({ freq := 98000000, kind := .fm, state := .rejected } : Cand).state = .rejected ∧
      (capturedBy s .fm 98000000).isSome = true := by decide +kernel

/-! ### BlendPairsAlignAndFade -/

theorem witness_blendSet :
    let f := cmd (leBytes 4 0 ++ leBytes 4 1 ++ [0, 0] ++ leBytes 2 500 ++ leBytes 2 1000 ++ [5, 10]) { index := 0xFFFF }
    let s : State := { rich with prog := { rich.prog with programmes := [{}, { idx := 1 }] }, gens := { rich.gens with programme := setAt (setAt rich.gens.programme 0 0) 1 0 } }
    s.port.rings.length = 32 ∧ Accepted 0x0907 f (blendSetChecks f) s ∧ f.target.index = 0xFFFF ∧
      newBlendIndex s < s.gens.blend.length := by
  unfold Accepted; decide +kernel

theorem witness_blendRemove :
    let f := cmd [] { index := 0, gen := 0 }
    rich.port.rings.length = 32 ∧ Accepted 0x0908 f (blendRemoveChecks f) rich ∧ rich.set.mode = .idle ∧
      blendAt rich f.target.index = some ({} : Blend) ∧ ({} : Blend).o.removing = false ∧ anyShed rich = false := by
  unfold Accepted; decide +kernel

theorem witness_blendFade :
    let f := cmd [1, 0, 0, 0] { index := 0, gen := 0 }
    let b : Blend := { state := .aligned, aligned := true, offset := -100 }
    let s : State := { rich with set := { rich.set with mode := .serve }, mix := { rich.mix with blends := [b] } }
    s.port.rings.length = 32 ∧ Accepted 0x0909 f (blendFadeChecks f) s ∧ blendAt s f.target.index = some b ∧
      b.state = .aligned ∧ b.aligned = true ∧ b.playing ≠ satNat 1 (field f.payload 0 1) ∧
      earlier b = satNat 1 (field f.payload 0 1) ∧ b.slip = 0 := by
  unfold Accepted; decide +kernel

/-- The envelope of a branch on which the log rms changes once, held for 12 s. -/
def stepped : BranchEnv := { steps := List.replicate 3000 1 ++ List.replicate 3000 2 }
/-- A pair of which both branches carry the same envelope. -/
def alike : Blend := { a := { index := 0 }, b := { index := 1 }, env := (stepped, stepped) }

/-- The largest of a list's values is at least each of them. -/
theorem peakOf_ge {α : Type} (g : α → Int) (a : α) : ∀ l : List α, a ∈ l → ∃ x, peakOf g l = some x ∧ g a ≤ x.2
  | b :: l, h => by
    unfold peakOf
    rcases List.mem_cons.mp h with rfl | h
    · cases peakOf g l with
      | none => exact ⟨_, rfl, by simp⟩
      | some x => by_cases k : g a < x.2 <;> simp [k]; omega
    · obtain ⟨x, e, k⟩ := peakOf_ge g a l h
      by_cases j : g b < x.2 <;> simp [e, j]; all_goals omega

/-- Branches of one envelope correlate with a peak of 1. -/
theorem alike_peak : ∃ k d, correlation alike = some (k, d) ∧ 500 ≤ k := by
  have h : normalisedMatch ((stepped.steps.drop 2000).take 2000) ((stepped.steps.drop (2000 - 2000 + 2000)).take 2000) = 1000 := by
    decide +kernel
  obtain ⟨x, e, k⟩ := peakOf_ge (fun (i : Nat) => (normalisedMatch ((stepped.steps.drop 2000).take 2000)
    ((stepped.steps.drop (2000 - 2000 + i)).take 2000) : Int)) 2000 (List.range (2 * 2000 + 1)) (by simp)
  rw [h] at k
  have short : (decide (stepped.steps.length < 6000) || decide (stepped.steps.length < 6000)) = false := by decide +kernel
  have c : ∃ d, correlation alike = some (x.2.toNat, d) := by
    unfold correlation
    rw [show alike.env = (stepped, stepped) from rfl, if_neg (by simpa using short), show alike.range / 2 = 2000 from rfl]
    dsimp only
    rw [e]
    exact ⟨_, rfl⟩
  exact ⟨_, c.choose, c.choose_spec, by omega⟩

theorem witness_scarfCorrelation :
    let r (i : Nat) : Reception := { idx := i, kind := .fm, rx := .acquired, chain := running .fm }
    let s : State := { live with set := { live.set with mode := .serve }, prog := { receptions := [r 0, r 1], programmes := [{}, { idx := 1, reception := 1 }] }, mix := { live.mix with blends := [alike] } }
    clockRuns s 9 = true ∧ clockRuns s 6 = true ∧
      (0 < 8 ∧ unitUp s 9 = true ∧ blendAt s 0 = some alike ∧ blendRuns s alike = true ∧ pairAudio s alike = true ∧
      branchQuiet s alike.a = false ∧ branchQuiet s alike.b = false ∧ alike.aligned = false ∧ alike.agree = [] ∧
      alike.corrAt = none ∧ (∀ f ∈ s.prog.follows, f.blend ≠ some 0)) ∧
    ∃ k d, correlation alike = some (k, d) ∧ 500 ≤ k := by
  exact ⟨rfl, rfl, ⟨by decide, rfl, rfl, rfl, rfl, rfl, rfl, rfl, rfl, rfl, by simp⟩, alike_peak⟩

theorem witness_scarfAligned : ∃ k d, 500 ≤ k ∧
    let b : Blend := { alike with agree := [d, d] }
    let r (i : Nat) : Reception := { idx := i, kind := .fm, rx := .acquired, chain := running .fm }
    let s : State := { live with set := { live.set with mode := .serve }, prog := { receptions := [r 0, r 1], programmes := [{}, { idx := 1, reception := 1 }] }, mix := { live.mix with blends := [b] } }
    clockRuns s 9 = true ∧ clockRuns s 6 = true ∧ 0 < 8 ∧ unitUp s 9 = true ∧ blendAt s 0 = some b ∧ blendRuns s b = true ∧ pairAudio s b = true ∧
      branchQuiet s b.a = false ∧ branchQuiet s b.b = false ∧ b.aligned = false ∧ b.agree = [d, d] ∧
      threeAgree [d, d, d] = true ∧ b.state = .unaligned ∧ b.waiting = none ∧ correlation b = some (k, d) ∧
      (∀ f ∈ s.prog.follows, f.blend ≠ some 0) := by
  obtain ⟨k, d, e, h⟩ := alike_peak
  exact ⟨k, d, h, rfl, rfl, by decide, rfl, rfl, rfl, rfl, rfl, rfl, rfl, rfl, by simp [threeAgree], rfl, rfl, e, by simp⟩

theorem witness_scarfQuiet :
    let r (i : Nat) : Reception := { idx := i, kind := .fm, rx := .acquired, chain := running .fm }
    let s : State := { live with set := { live.set with mode := .serve }, prog := { receptions := [r 0, r 1], programmes := [{ silent := true }, { idx := 1, reception := 1 }] }, mix := { live.mix with blends := [alike] } }
    clockRuns s 9 = true ∧ clockRuns s 6 = true ∧
      0 < 8 ∧ unitUp s 9 = true ∧ blendAt s 0 = some alike ∧ blendRuns s alike = true ∧ pairAudio s alike = true ∧
      (branchQuiet s alike.a = true ∨ branchQuiet s alike.b = true) ∧ alike.corrAt = none := by
  exact ⟨rfl, rfl, by decide, rfl, rfl, rfl, rfl, .inl rfl, rfl⟩

theorem witness_fadeEnd :
    let b : Blend := { state := .fading }
    let s : State := { live with set := { live.set with mode := .serve }, mix := { live.mix with blends := [b] } }
    clockRuns s 9 = true ∧ clockRuns s 6 = true ∧
      0 < 8 ∧ unitUp s 9 = true ∧ blendAt s 0 = some b ∧ b.state = .fading ∧ b.heldBranch = none ∧ b.delay = 0 ∧
      b.request = none ∧ (∀ f ∈ s.prog.follows, f.blend ≠ some 0) ∧ (∀ a < 5, (adcAt s a).deferred = false) := by decide +kernel

theorem witness_drainDone :
    let b : Blend := { state := .draining, delay := 480 }
    let s : State := { live with set := { live.set with mode := .serve }, mix := { live.mix with blends := [b] } }
    clockRuns s 9 = true ∧ clockRuns s 6 = true ∧
      0 < 8 ∧ unitUp s 9 = true ∧ blendAt s 0 = some b ∧ b.state = .draining ∧ (∀ f ∈ s.prog.follows, f.blend ≠ some 0) := by decide +kernel

theorem witness_buildDone :
    let b : Blend := { state := .building, offset := 480, request := some 1 }
    let s : State := { live with set := { live.set with mode := .serve }, mix := { live.mix with blends := [b] } }
    clockRuns s 9 = true ∧ clockRuns s 6 = true ∧
      0 < 8 ∧ unitUp s 9 = true ∧ blendAt s 0 = some b ∧ b.state = .building ∧ b.request = some 1 := by decide +kernel

theorem witness_alignmentWaitExpiry :
    let b : Blend := { waiting := some 1 }
    let s : State := { live with set := { live.set with mode := .serve }, mix := { live.mix with blends := [b] } }
    clockRuns s 6 = true ∧
      0 < 8 ∧ unitUp s 9 = true ∧ blendAt s 0 = some b ∧ b.waiting = some 1 ∧ b.state = .unaligned ∧ b.aligned = false ∧ b.slip = 0 := by
  decide +kernel

/-! ### ModesChangeAsCommanded -/

theorem witness_setMode :
    let f := cmd [2, 0, 0, 0]
    Accepted 0x0101 f (setModeChecks f) live ∧ askedMode live f ≠ live.set.mode ∧ askedMode live f ≠ .hold ∧
      askedMode live f ≠ .test ∧ live.set.mode ≠ .compat := by
  unfold Accepted; decide +kernel

theorem witness_setModeSame :
    let f := cmd [0, 0, 0, 0]
    live.port.rings.length = 32 ∧ Accepted 0x0101 f (setModeChecks f) live ∧ askedMode live f = live.set.mode := by
  unfold Accepted; decide +kernel

theorem witness_modeTransitionDone :
    let s : State := { live with set := { live.set with mode := .serve }, head := { live.head with transition := some .idle } }
    clockRuns s 6 = true ∧ s.head.transition = some .idle ∧ s.set.mode ≠ .test ∧ s.head.held = [] := by decide +kernel

theorem witness_wakeHigh :
    let s : State := { live with set := { live.set with mode := .hold, alarm := 100 } }
    s.set.mode = .hold ∧ s.pwr.porAsserted = false ∧ s.pwr.stage = .running ∧ 65 ≤ 65 ∧ hostConfig s ≠ 3 ∧
      s.set.resume = .idle := by decide +kernel

theorem witness_twoWireWake :
    let s : State := { live with set := { live.set with mode := .hold, alarm := 100 } }
    s.set.mode = .hold ∧ s.pwr.stage = .running ∧ hostConfig s ≠ 3 ∧ s.set.resume = .idle := by decide +kernel

theorem witness_aonAlarm :
    let s : State := { live with set := { live.set with mode := .hold, alarm := 100 } }
    s.set.mode = .hold ∧ s.pwr.stage = .running ∧ s.pwr.porAsserted = false ∧ s.set.alarm ≠ 0 ∧ hostConfig s ≠ 3 ∧
      s.set.resume = .idle := by decide +kernel

/-! ### TheStoreWritesItsRecords -/

theorem witness_settingsCommitTimer :
    let s : State := { live with store := { live.store with dirtyFirst := some 5 } }
    s.store.dirtyFirst = some 5 ∧ s.pwr.stage ≠ .recovery := by decide +kernel

theorem witness_linkCountersSnapshot :
    node.set.link.role ≠ 0 ∧ node.pwr.stage ≠ .recovery := by decide +kernel

theorem witness_calRecordWrite :
    let s : State := { live with store := { live.store with calDirty := true, calLastWrite := some 5 } }
    s.store.calDirty = true ∧ s.store.calLastWrite = some 5 ∧ s.pwr.stage ≠ .recovery := by decide +kernel

theorem witness_storeUntouched :
    ({ live with pwr := { live.pwr with stage := .recovery } } : State).pwr.stage = .recovery := by decide +kernel

theorem witness_recordWriteDone :
    let j : WriteJob := { id := 1, kind := .calibration, content := .blank, length := 0 }
    let s : State := { live with store := { live.store with queue := [j] } }
    s.store.queue = j :: ([] : List WriteJob) ∧ j.kind = .calibration ∧ s.plan.starting = false ∧ s.head.deferred = [] := by decide +kernel

theorem witness_factoryDefaults :
    let f := cmd []
    Accepted 0x0102 f (factoryDefaultsChecks f) live ∧ live.set.mode = .idle ∧ live.set.link.role = 0 ∧ live.set.time.ref = 0 := by
  unfold Accepted; decide +kernel

/-! ### TheMortiseKeepsKeysAndImages -/

theorem witness_keyInstall :
    let f := cmd ([0, 1, 0, 0] ++ leBytes 2 32 ++ zeros 2 ++ zeros 32)
    let s : State := { live with set := { live.set with mode := .update } }
    Accepted 0x0D00 f (keyInstallChecks f) s := by
  unfold Accepted; decide +kernel

theorem witness_keyZeroise :
    let f := cmd [3, 0, 0, 0]
    Accepted 0x0D01 f (keyZeroiseChecks f) live ∧ maskSlots (field f.payload 0 1) ≠ [] := by
  unfold Accepted; decide +kernel

theorem witness_keyZeroiseNone :
    let f := cmd [0, 0, 0, 0]
    live.port.rings.length = 32 ∧ Accepted 0x0D01 f (keyZeroiseChecks f) live ∧ maskSlots (field f.payload 0 1) = [] := by
  unfold Accepted; decide +kernel

theorem witness_fwUpdateBegin :
    let f := cmd (leBytes 4 4096 ++ zeros 4)
    let s : State := { live with set := { live.set with mode := .update } }
    s.port.rings.length = 32 ∧ Accepted 0x0D02 f (fwUpdateBeginChecks f) s ∧ s.pwr.stage = .running := by
  unfold Accepted; decide +kernel

theorem witness_fwUpdatePart :
    let f := cmd (leBytes 4 0 ++ zeros 4 ++ zeros 16)
    let s : State := { live with set := { live.set with mode := .update }, sec := { live.sec with fwSlot := some (1, 400) } }
    s.port.rings.length = 32 ∧ Accepted 0x0D03 f (fwUpdatePartChecks f) s := by
  unfold Accepted; decide +kernel

theorem witness_fwUpdateCommit :
    let f := cmd [0, 0, 0, 0]
    let s : State := { live with set := { live.set with mode := .update }, sec := { live.sec with fwSlot := some (1, 400), fwData := [(0, zeros 400)] } }
    s.port.rings.length = 32 ∧ Accepted 0x0D04 f (fwUpdateCommitChecks f) s ∧ field f.payload 0 1 = 0 ∧
      s.sec.fwSlot = some (1, 400) ∧ imageWhole 400 s.sec.fwData = true := by
  unfold Accepted; decide +kernel

theorem witness_fwUpdateRaise :
    let f := cmd [1, 0, 0, 0]
    let s : State := { live with set := { live.set with mode := .update } }
    s.port.rings.length = 32 ∧ Accepted 0x0D04 f (fwUpdateCommitChecks f) s ∧ field f.payload 0 1 = 1 ∧
      s.pwr.stage = .running := by
  unfold Accepted; decide +kernel

theorem witness_regionProfileInstall :
    let f := cmd (leBytes 4 0x4750524D ++ leBytes 2 1 ++ leBytes 2 0 ++ [1, 0, 0, 0] ++ zeros 272)
    let s : State := { live with set := { live.set with mode := .update } }
    signedOk f.payload 12 2 = true → Accepted 0x0D05 f (regionProfileInstallChecks f) s := by
  intro f s h
  have e : ∀ u : State, u.sec = s.sec → regionProfileInstallChecks f u =
      { lenOk := true, bad := [none], denied := [none, none, none], modes := [.update] } := by
    intro u k
    have l : f.payload.length = 284 := by decide +kernel
    have n : field f.payload 8 1 = 1 := by decide +kernel
    have m : containerOk f.payload = true := by unfold containerOk; rw [h]; decide +kernel
    unfold regionProfileInstallChecks errorDenied; rw [k, m, l, n]; rfl
  unfold Accepted; rw [e s rfl, e _ (by simp)]
  decide +kernel

theorem witness_testUnlock :
    let f := cmd (zeros 288)
    live.port.rings.length = 32 ∧ Accepted 0x0D06 f (testUnlockChecks f) live := by
  unfold Accepted; decide +kernel

theorem witness_entropyTestFailure :
    live.pwr.stage = .running ∧ live.set.mode ≠ .hold ∧ live.set.link.role = 0 := by decide +kernel

theorem witness_drbgReseed :
    let s : State := { live with sec := { live.sec with requests := 1048576 } }
    1048576 ≤ s.sec.requests := by decide +kernel

/-! ### CompatRegistersAct -/

theorem witness_controlTune :
    let s : State := { live with set := { live.set with mode := .compat }, compat := { live.compat with ready := true, tuneFreq := some 99500, tuneBw := some 1 }, front := { live.front with windows := setAt live.front.windows 0 { (windowAt live 0) with state := .retuning } } }
    compatLive s = true ∧ compatTuning s = true ∧ s.compat.tuneFreq = some 99500 ∧ s.compat.tuneBw = some 1 := by decide +kernel

theorem witness_controlTuneNow :
    let s : State := { live with set := { live.set with mode := .compat }, compat := { live.compat with ready := true, tuneFreq := some 99500, tuneBw := some 1 } }
    compatLive s = true ∧ compatTuning s = false ∧ s.compat.tuneFreq = some 99500 ∧ s.compat.tuneBw = some 1 ∧ 1 < 3 := by decide +kernel

theorem witness_controlPowerDown :
    let s : State := { live with pwr := { live.pwr with strapCode := 12 }, set := { live.set with mode := .compat }, compat := { live.compat with ready := true } }
    compatLive s = true ∧ Accepted 0x0101 (compatFrame [7, 0, 0, 0]) (setModeChecks (compatFrame [7, 0, 0, 0])) s := by
  unfold Accepted; decide +kernel

theorem witness_controlDefaults :
    let s : State := { live with set := { live.set with mode := .compat }, compat := { live.compat with ready := true } }
    compatLive s = true ∧ Accepted 0x0102 (compatFrame []) (factoryDefaultsChecks (compatFrame [])) s ∧ s.set.link.role = 0 ∧
      s.set.time.ref = 0 := by
  unfold Accepted; decide +kernel

theorem witness_updateKeyUpdate :
    let s : State := { live with pwr := { live.pwr with strapCode := 12 }, set := { live.set with mode := .compat }, compat := { live.compat with ready := true } }
    let u : State := { pass (ms 50) { s with compat := { s.compat with key := some (0x55, now s) } } with compat := { s.compat with key := none } }
    compatLive s = true ∧ 50 ≤ 100 ∧
      u = { pass (ms 50) { s with compat := { s.compat with key := some (0x55, now s) } } with compat := { s.compat with key := none } } ∧
      Accepted 0x0101 (compatFrame [5, 0, 0, 0]) (setModeChecks (compatFrame [5, 0, 0, 0])) u := by
  unfold Accepted; decide +kernel

theorem witness_updateKeyZeroise :
    let s : State := { live with set := { live.set with mode := .compat }, compat := { live.compat with ready := true } }
    let u : State := { pass (ms 50) { s with compat := { s.compat with key := some (0x5A, now s) } } with compat := { s.compat with key := none } }
    compatLive s = true ∧ 50 ≤ 100 ∧
      u = { pass (ms 50) { s with compat := { s.compat with key := some (0x5A, now s) } } with compat := { s.compat with key := none } } ∧
      Accepted 0x0D01 (compatFrame [0xFF, 0, 0, 0]) (keyZeroiseChecks (compatFrame [0xFF, 0, 0, 0])) u := by
  unfold Accepted; decide +kernel

theorem witness_chCtrlWrite :
    let s : State := { live with set := { live.set with mode := .compat }, compat := { live.compat with ready := true }, front := { live.front with windows := setAt live.front.windows 0 { (windowAt live 0) with state := .retuning } } }
    2 < 4 ∧ compatLive s = true ∧ compatTuning s = true ∧ s.set.compat.channels.length = 4 ∧ (8 : Byte).getLsbD 0 = false ∧
      compatRx s 2 = none := by decide +kernel

theorem witness_irqFlagsWrite :
    let s : State := { live with set := { live.set with mode := .compat }, compat := { live.compat with ready := true } }
    compatLive s = true := by decide +kernel

theorem witness_fifoLevelRead :
    let s : State := { live with set := { live.set with mode := .compat }, compat := { live.compat with ready := true } }
    compatLive s = true := by decide +kernel

theorem witness_fifoDataRead :
    let s : State := { live with set := { live.set with mode := .compat }, compat := { live.compat with ready := true, fifo := [zeros 12], fifoPos := 11 } }
    compatLive s = true := by decide +kernel

theorem witness_compatRegWrite :
    let s : State := { live with set := { live.set with mode := .compat }, compat := { live.compat with ready := true } }
    compatLive s = true := by decide +kernel

/-! ### FailuresAreMetAsTheRulesSay -/

theorem witness_watchdogExpiry :
    let s : State := { live with clk := { live.clk with wdogSuspended := false } }
    restartable s = true ∧ s.clk.wdogSuspended = false ∧ s.link.air = none ∧ s.head.spaced = false ∧
      (recentRestarts s).length < 4 := by
  decide +kernel

theorem witness_headstockFault :
    restartable live = true ∧ live.head.spaced = false ∧ (recentRestarts live).length < 4 := by decide +kernel

theorem witness_restartSpaced :
    let s : State := { live with head := { live.head with recent := [0, 0, 0, 0] } }
    restartable s = true ∧ 4 ≤ (recentRestarts s).length ∧ now s < s.head.lastRestart + ticksPerSecond := by decide +kernel

theorem witness_restartDelayExpiry :
    let s : State := { live with head := { live.head with delayed := true } }
    s.head.delayed = true ∧ now s ≤ s.head.lastRestart + ticksPerSecond := by decide +kernel

theorem witness_firmwareRestarted :
    let s : State := { live with head := { live.head with restarting := true } }
    s.head.restarting = true ∧ s.head.spaced = false := by decide +kernel

theorem witness_restartSpacingEnd :
    let s : State := { live with head := { live.head with spaced := true } }
    s.head.spaced = true ∧ s.head.restarting = false ∧ s.head.delayed = false := by decide +kernel

theorem witness_engineProgressCheck :
    live.pwr.stage = .running ∧ live.set.mode ≠ .hold ∧ live.head.restarting = false ∧ live.head.delayed = false ∧ 3 < 16 ∧
      3 < live.health.engines.length ∧ (8#16).getLsbD 3 = true := by decide +kernel

theorem witness_enginesRun :
    live.pwr.stage = .running ∧ live.set.mode ≠ .hold ∧ live.head.restarting = false ∧ live.head.delayed = false := by decide +kernel

theorem witness_contextSnapshot :
    clockRuns live 6 = true ∧ now live ≤ live.health.snapshotAt + ms 10 := by decide +kernel

theorem witness_timberScrub :
    clockRuns live 6 = true ∧ 5 < 4194304 ∧ now live ≤ live.health.scrubAt + 64 * ticksPerSecond ∧
      live.health.rowErrors.all (fun x => x.1 / 256 != 5 / 256) = true := by decide +kernel

theorem witness_timberEccError :
    5 < 4194304 ∧ live.health.rowErrors.all (fun x => x.1 / 256 != 5 / 256) = true := by decide +kernel

theorem witness_timberPoisoned :
    0 < 4194304 := by decide

theorem witness_blockFault :
    9 < 17 ∧ unspared.contains 9 = true ∧ unitUp live 9 = true ∧ live.pwr.stage = .running ∧ 9 ≠ 2 ∧ 9 ≠ 5 := by decide +kernel

theorem witness_healthLogDelivery :
    let s : State := { live with health := { live.health with log := [{ code := 0x0404 }] }, plan := { live.plan with binds := [] } }
    s.health.log.find? (fun e => !e.delivered) = some ({ code := 0x0404 } : LogEntry) ∧
      now s ≤ ({ code := 0x0404 } : LogEntry).firstAt + ticksPerSecond ∧ boundRing s 15 6 {} = none := by decide +kernel

theorem witness_healthLogShaving :
    let s : State := { live with health := { live.health with log := [{ code := 0x0404 }] }, plan := { live.plan with binds := [(15, {}, 6, 30)] } }
    s.health.log.find? (fun e => !e.delivered) = some ({ code := 0x0404 } : LogEntry) ∧ boundRing s 15 6 {} = some 30 ∧
      s.set.mode ≠ .compat := by decide +kernel

/-! ### ResetsClearAndTheSequenceRuns -/

/-- The rails of a device with SPI host ports. -/
def spiRails : List Rail := [.vddAon, .vddCore, .vddMem, .vdda12, .vdda18, .vddioB, .vddioA]

theorem witness_porReleaseEarly :
    let b : BootInputs := { cfgTenthMv := 3000, rails := [.vddAon, .vddCore] }
    (State.reset).pwr.porAsserted = true ∧ b.rails.contains .vddAon = true ∧
      alwaysRails.all (fun r => b.rails.contains r) = false := by decide +kernel

theorem witness_porReleaseWaits :
    let b : BootInputs := { cfgTenthMv := 3000, rails := alwaysRails }
    (State.reset).pwr.porAsserted = true ∧ alwaysRails.all (fun r => b.rails.contains r) = true ∧
      (requiredRails (strapCode b.cfgTenthMv / 4)).all (fun r => b.rails.contains r) = false := by decide +kernel

theorem witness_porStays : ({ rails := [.vddCore] } : BootInputs).rails.contains .vddAon = false := by decide +kernel

theorem witness_porRelease :
    let b : BootInputs := { cfgTenthMv := 3000, rails := spiRails }
    let s : State := State.reset
    s.pwr.porAsserted = true ∧ b.nresetLow = false ∧
      (requiredRails (strapCode b.cfgTenthMv / 4)).all (fun r => b.rails.contains r) = true ∧ Faultless b ∧
      slotOk s (firstImage s) = true := by
  unfold Faultless; decide +kernel

theorem witness_porReleaseHeld :
    let b : BootInputs := { cfgTenthMv := 3000, nresetLow := true, rails := spiRails }
    (State.reset).pwr.porAsserted = true ∧ b.nresetLow = true ∧
      (requiredRails (strapCode b.cfgTenthMv / 4)).all (fun r => b.rails.contains r) = true := by decide +kernel

theorem witness_railGood :
    let s : State := { State.reset with
      pwr := { State.reset.pwr with stage := .waitRails, strapCode := 4, strapRead := true, railsGood := alwaysRails } }
    s.pwr.stage = .waitRails ∧ s.pwr.railsGood.contains (Rail.vddioA) = false ∧ s.pwr.nresetLow = false ∧
      (requiredRails (hostConfig (readStrap s))).all (fun x => (s.pwr.railsGood ++ [(Rail.vddioA)]).contains x) = true ∧
      Faultless s.pwr.boot ∧ slotOk s (firstImage s) = true := by
  unfold Faultless; decide +kernel

theorem witness_nresetAccepted :
    let s : State := { live with pwr := { live.pwr with reloadDone := true } }
    20000 ≤ 20000 ∧ s.pwr.stage = .running ∧ s.pwr.porAsserted = false ∧ s.pwr.reloadDone = true := by decide +kernel

theorem witness_nresetIgnored :
    4999 < 5000 := by decide

theorem witness_nresetRelease :
    let b : BootInputs := {}
    let s : State := { live with
      pwr := { live.pwr with reloadDone := true, stage := .nresetHeld } }
    s.pwr.stage = .nresetHeld ∧ s.pwr.porAsserted = false ∧ s.pwr.reloadDone = true ∧ b.regionsBad = [] ∧ Faultless b ∧
      slotOk s (firstImage s) = true := by
  unfold Faultless; decide +kernel

theorem witness_islandClockGood :
    let s : State := { live with
      pwr := { live.pwr with stage := .gated, released := 0x1EFFF } }
    12 < 17 ∧ s.pwr.stage = .gated ∧ islandsWaiting s = 1#17 <<< 12 ∧ mayRun s.pwr.rc.held = true ∧
      s.pwr.boot.selfTest = true ∧ slotOk s (firstImage s) = true := by decide +kernel

theorem witness_islandHeld :
    let s : State := { live with
      pwr := { live.pwr with stage := .gated, released := 0x1EFFF } }
    0 < 12 ∧ 12 < 17 ∧ s.pwr.stage = .gated ∧ islandsWaiting s = 1#17 <<< 12 ∧
      mayRun (s.pwr.rc.held ||| (1#16 <<< (12 - 1))) = true ∧ s.pwr.boot.selfTest = true ∧ slotOk s (firstImage s) = true := by decide +kernel

theorem witness_islandHeldStops :
    let s : State := { live with pwr := { live.pwr with stage := .gated, released := 0x1FFDF } }
    0 < 5 ∧ 5 < 17 ∧ s.pwr.stage = .gated ∧ islandsWaiting s = 1#17 <<< 5 ∧
      mayRun (s.pwr.rc.held ||| (1#16 <<< (5 - 1))) = false := by decide +kernel

theorem witness_sequenceRepeat :
    let b : BootInputs := { rails := spiRails }
    let s : State := { live with pwr := { live.pwr with stage := .retry, byPor := true, strapRead := true } }
    s.pwr.stage = .retry ∧ s.pwr.byPor = true ∧ s.pwr.strapRead = true ∧ s.pwr.nresetLow = false ∧
      (requiredRails (hostConfig s)).all (fun r => b.rails.contains r) = true ∧ Faultless b ∧ slotOk s (firstImage s) = true := by
  unfold Faultless; decide +kernel

theorem witness_nresetRepeat :
    let b : BootInputs := {}
    let s : State := { live with pwr := { live.pwr with stage := .retry, byPor := false } }
    s.pwr.stage = .retry ∧ s.pwr.byPor = false ∧ b.regionsBad = [] ∧ Faultless b ∧ slotOk s (firstImage s) = true := by
  unfold Faultless; decide +kernel

theorem witness_haltBusRead :
    ({ live with pwr := { live.pwr with stage := .halted } } : State).pwr.stage = .halted := by decide +kernel

theorem witness_selfTestRerun :
    let s : State := { live with
      pwr := { live.pwr with stage := .selfTestRetry } }
    s.pwr.stage = .selfTestRetry ∧ slotOk s (firstImage s) = true := by decide +kernel

theorem witness_selfTestFails :
    ({ live with pwr := { live.pwr with stage := .selfTestRetry } } : State).pwr.stage = .selfTestRetry := by decide +kernel

theorem witness_aonCrystalSwitch :
    live.pwr.porAsserted = false ∧ live.pwr.aonDecided = false := by decide +kernel

theorem witness_aonRcTimeout :
    live.pwr.porAsserted = false ∧ live.pwr.aonDecided = false ∧ now live ≤ live.pwr.releasedAt + ms 1500 := by decide +kernel

/-! ### StepRunsTheFrontCommand -/

theorem witness_front :
    let s : State := { live with pending := [.busMasterEnable, .twoWireWake] }
    s.pending = .busMasterEnable :: [.twoWireWake] := rfl

/-! ### AnEmptyQueueIsOneClockCycle -/

theorem witness_idle : live.pending = [] ∧ live.pwr.porAsserted = false ∧ State.reset.pwr.porAsserted = true := by decide +kernel

/-! ### EveryStepKeepsTheUnitTables -/

theorem witness_units : UnitTables live ∧ ∃ t, step { live with pending := [.busMasterEnable] } = .next t := by
  exact ⟨by unfold UnitTables; decide +kernel, _, rfl⟩

/-! ### EveryCommandCompletes -/

theorem witness_offDevice : (Instr.headWrite 0 32 8).offDevice = true ∧ (Instr.headWrite 0 31 8).offDevice = false := by decide +kernel

/-! ### EachCommandChangesOnlyItsParts -/

theorem witness_parts : StatePart.set ∉ touches (.ringPop 1 5 20) ∧ ∃ t, exec (.ringPop 1 5 20) live = .next t := ⟨by decide, _, rfl⟩

/-! ### RefusedCommandsChangeNothing -/

theorem witness_refusedEarly :
    live.port.rings.length = 32 ∧ Rejected 0x0100 (cmd [1]) (getIdentityChecks (cmd [1])) live { status := 6, detail := 2 } := by
  unfold Rejected; decide +kernel

theorem witness_refusedLate :
    let f := cmd (zeros 16) { index := 1, gen := 0 }
    let s : State := { live with front := { live.front with windows := setAt live.front.windows 1 { windowAt live 1 with state := .open, inPlan := true } } }
    let c := windowOpenChecks f
    s.port.rings.length = 32 ∧ canTake s f = true ∧ frameNext s 0x0300 f = true ∧ (c s).holds = false ∧
      earlyFail (consume 0x0300 f s) 0x0300 f (c (consume 0x0300 f s)) = none ∧ (c (consume 0x0300 f s)).holds = false ∧
      lateFail (c (consume 0x0300 f s)) = some { status := 1, detail := 1 } := by decide +kernel

/-! ### OnlyTheTwoResetsResetTheDevice -/

theorem witness_nresetResets :
    let s : State := { live with pwr := { live.pwr with reloadDone := true } }
    20000 ≤ 20000 ∧ s.pwr.stage = .running ∧ s.pwr.porAsserted = false ∧ s.pwr.reloadDone = true := by decide +kernel

theorem witness_nothingElseResets : live.pwr.stage = .running ∧ live.pwr.porAsserted = false ∧ (.watchdogExpiry : Instr) ≠ .powerOnReset ∧
    (∀ w, (.watchdogExpiry : Instr) ≠ .nresetAccepted w) ∧ ∃ t, exec .watchdogExpiry live = .next t :=
  ⟨by decide +kernel, by decide +kernel, nofun, nofun, _, rfl⟩

/-! ### TheRollbackCounterNeverFalls -/

theorem witness_rollback : ∃ t, step { live with pending := [.busMasterEnable] } = .next t := ⟨_, rfl⟩

/-! ### StagedPlansAreDiscardedByResets -/

theorem witness_stagedNreset :
    let s : State := { live with pwr := { live.pwr with reloadDone := true } }
    20000 ≤ 20000 ∧ s.pwr.stage ≠ .nresetHeld ∧ s.pwr.stage ≠ .waitNreset ∧ s.pwr.porAsserted = false ∧ s.pwr.reloadDone = true := by
  decide +kernel

/-! ### SetModeListsItsTransitions -/

theorem witness_listed :
    let s : State := { live with set := { live.set with mode := .serve } }
    let u : State := { live with set := { live.set with mode := .update } }
    let x : State := { live with set := { live.set with mode := .test } }
    let h : State := { live with set := { live.set with mode := .hold } }
    let c : State := { live with pwr := { live.pwr with strapCode := 12 }, set := { live.set with mode := .compat } }
    hostConfig s ≠ 3 ∧ s.set.mode ∈ [Mode.idle, .survey, .serve, .sentry] ∧ hostConfig u ≠ 3 ∧ u.set.mode = .update ∧
      hostConfig x ≠ 3 ∧ x.set.mode = .test ∧ h.set.mode = .hold ∧ hostConfig c = 3 ∧ c.set.mode = .compat := by decide +kernel

theorem witness_notListed :
    let f := cmd [4, 0, 0, 0]
    canTake live f = true ∧ frameNext live 0x0101 f = true ∧ f.payload.length = 4 ∧ f.portField = f.port ∧ f.flags.getLsbD 0 = false ∧ live.pwr.stage ≠ .recovery ∧
      live.port.rings.length = 32 ∧
      (Mode.ofCode (field f.payload 0 1) = .test → live.set.mode ≠ .test → live.sec.unlocked = true) ∧
      Mode.ofCode (field f.payload 0 1) ≠ live.set.mode ∧ modeAllowed live (Mode.ofCode (field f.payload 0 1)) = false := by
  decide +kernel

/-! ### NresetInHoldStartsTheSequence -/

theorem witness_nresetInHold :
    let s : State := { live with pwr := { live.pwr with reloadDone := true }, set := { live.set with mode := .hold } }
    20000 ≤ 20000 ∧ s.set.mode = .hold ∧ s.head.transition = none ∧ s.pwr.stage = .running ∧ s.pwr.porAsserted = false ∧ s.pwr.reloadDone = true := by decide +kernel

theorem witness_noWakeInReset :
    let s : State := { live with pwr := { live.pwr with stage := .nresetHeld }, set := { live.set with mode := .hold, alarm := 5 } }
    s.set.mode = .hold ∧ s.pwr.stage = .nresetHeld ∧ s.pwr.porAsserted = false := by decide +kernel

/-! ### RecoveryBootTakesSixCommands -/

theorem witness_recoveryRefuses :
    let s : State := { live with pwr := { live.pwr with stage := .recovery } }
    let f := cmd [1, 0, 0, 0]
    let c := setModeChecks f s
    s.pwr.stage = .recovery ∧ c.lenOk = true ∧ f.portField = f.port ∧ f.flags.getLsbD 0 = false ∧ lowest c.bad = none ∧
      lowest c.stale = none ∧ lowest c.noObj = none ∧ lowest c.denied = none ∧
      0x0101 ∉ [0x0D01, 0x0D07, 0x0100, 0x0D02, 0x0D03, 0x0D04] := by decide +kernel

theorem witness_recoveryTakes :
    let s : State := { live with pwr := { live.pwr with stage := .recovery } }
    let f := cmd []
    let c := getSecurityChecks f s
    s.pwr.stage = .recovery ∧ c.lenOk = true ∧ f.portField = f.port ∧ f.flags.getLsbD 0 = false ∧ lowest c.bad = none ∧
      lowest c.stale = none ∧ lowest c.noObj = none ∧ lowest c.denied = none ∧ c.modeOk = true ∧
      0x0D07 ∈ [0x0D01, 0x0D07, 0x0100, 0x0D02, 0x0D03, 0x0D04] := by decide +kernel

theorem witness_recoveryAnswersWrongMode :
    let s : State := { live with pwr := { live.pwr with stage := .recovery } }
    let f := cmd [1, 0, 0, 0]
    let c := setModeChecks f
    s.port.rings.length = 32 ∧ canTake s f = true ∧ frameNext s 0x0101 f = true ∧ s.pwr.stage = .recovery ∧ f.portField = f.port ∧ f.flags.getLsbD 0 = false ∧
      (∀ u, u = s ∨ u = consume 0x0101 f s → (c u).lenOk = true ∧ lowest (c u).bad = none ∧ lowest (c u).stale = none ∧
        lowest (c u).noObj = none ∧ lowest (c u).denied = none) ∧
      0x0101 ∉ [0x0D01, 0x0D07, 0x0100, 0x0D02, 0x0D03, 0x0D04] := by
  refine ⟨by decide +kernel, by decide +kernel, by decide +kernel, rfl, rfl, by decide, ?_, by decide⟩
  rintro u (rfl | rfl) <;> decide +kernel

theorem witness_recoverySecurity :
    let s : State := { live with pwr := { live.pwr with stage := .recovery } }
    let f := cmd []
    s.port.rings.length = 32 ∧ canTake s f = true ∧ frameNext s 0x0D07 f = true ∧ s.pwr.stage = .recovery ∧ f.portField = f.port ∧ f.flags.getLsbD 0 = false ∧
      f.payload.length = 0 := by decide +kernel

/-! ### PlanCheckComparesTheSequence -/

theorem witness_planDiffers :
    let f : CmdFrame := { cmd [] with flags := 1, planSeq := 5 }
    let c := getIdentityChecks f live
    c.lenOk = true ∧ f.portField = f.port ∧ lowest c.bad = none ∧ f.flags.getLsbD 0 = true ∧ f.planSeq ≠ live.plan.seq ∧
      lowest c.stale = none := by decide +kernel

theorem witness_planSame : (cmd []).planSeq = live.plan.seq := by decide +kernel

theorem witness_planNotRead : (cmd []).flags.getLsbD 0 = false := by decide +kernel

end Sys2Proof.Tests
end

section
/-!
PROOF. The commands that read banks, curves, outputs, follow objects, probes and blend pairs (O3).
-/

namespace Sys2Proof.Machine

/-- A command whose body, on the state in which its frame is taken, changes nothing and replies `r` only reads. -/
theorem reads_consumed {op : Nat} {f : CmdFrame} {c : State → Checks} {s : State} (h : Accepted op f c s)
    (hl : s.port.rings.length = 32) {body : State → State × Option Reply} {r : Reply}
    (hb : body (consume op f s) = (consume op f s, some r)) : Reads op f r s (.next (command op f c body s)) := by
  have e : command op f c body s = command op f c (fun u => (u, some r)) s := by
    rw [command_accepted h, command_accepted h, hb]
  rw [e]
  exact reads_accepted h hl fun _ _ => rfl

/-- A command only reads when its body changes nothing and its reply depends on nothing that taking a frame may touch. -/
theorem reads_independent {op : Nat} {f : CmdFrame} {c : State → Checks} {s : State} (h : Accepted op f c s)
    (hl : s.port.rings.length = 32) {body : State → State × Option Reply} {r : Reply} (hb : ∀ u, (body u).1 = u)
    (hs : ∀ p o b x, (body { s with port := p, out := o, bus := b, head := { s.head with blocked := x } }).2 = (body s).2)
    (hr : (body s).2 = some r) : Reads op f r s (.next (command op f c body s)) :=
  reads_accepted h hl fun u hu => Prod.ext (hb u) ((hu.same (fun t => (body t).2) hs).trans hr)

/-- Taking a frame leaves every port's budget: the PCIe link keeps its generation and width (R28). -/
theorem budget_consume (op : Nat) (f : CmdFrame) (s : State) (p : Nat) : budget (consume op f s) p = budget s p := by
  have hc : hostConfig (consume op f s) = hostConfig s := (consume_readsOnly op f s).same hostConfig fun _ _ _ _ => rfl
  unfold budget
  rw [hc, consume_port]
  simp

/-- Taking a frame leaves every port's planned load (R28). -/
theorem planned_consume (op : Nat) (f : CmdFrame) (s : State) (p : Nat) : planned (consume op f s) p = planned s p :=
  (consume_readsOnly op f s).same (planned · p) fun _ _ _ _ => rfl

/-- Settles O3: each body only replies, and what it replies does not depend on what taking a frame may touch. -/
theorem mixingObjectsRead : Obligations.MixingObjectsRead := by
  unfold Obligations.MixingObjectsRead
  refine ⟨fun f s hl h => ?bank, fun f s hl h => ?curve, fun f s x hl h hx => ?pcm, fun f s hl h => ?tdm,
    fun f s hl h => ?bind, fun f s hl h => ?load, fun f s x hl h hx => ?follow, fun f s p hl h hp => ?probe,
    fun f s b hl h hb => ?blend⟩
  case bank => exact reads_independent h hl (fun _ => rfl) (fun _ _ _ _ => rfl) rfl
  case curve => exact reads_independent h hl (fun _ => rfl) (fun _ _ _ _ => rfl) rfl
  case tdm => exact reads_independent h hl (fun _ => rfl) (fun _ _ _ _ => rfl) rfl
  case bind => exact reads_independent h hl (fun _ => rfl) (fun _ _ _ _ => rfl) rfl
  case pcm =>
    exact reads_independent h hl (fun _ => rfl) (fun _ _ _ _ => rfl) (by simp only [getPcmBody, hx]; rfl)
  case follow =>
    exact reads_independent h hl (fun _ => rfl) (fun _ _ _ _ => rfl) (by simp only [getFollowBody, hx]; rfl)
  case probe =>
    exact reads_independent h hl (fun _ => rfl) (fun _ _ _ _ => rfl) (by simp only [getProbeBody, hp]; rfl)
  case blend =>
    exact reads_independent h hl (fun _ => rfl) (fun _ _ _ _ => rfl) (by simp only [getBlendBody, hb]; rfl)
  case load =>
    refine reads_consumed h hl ?_
    simp only [getPortLoadBody, planned_consume, budget_consume]
    rfl

end Sys2Proof.Machine
end

section
/-!
PROOF. Bus mastering and the interrupt messages that wait for it (O12).
-/

namespace Sys2Proof.Machine

/-- A PCIe device whose link is trained and whose bus mastering is off, with the message of vector 0, unmasked, pending (R294, R321). -/
def pcieMessagePending : State :=
  { pwr := { strapCode := 8, ready := true }
    port := { pcieGen := 3, pcieWidth := 2, pba := 1, msix := [{ masked := false }] } }

/-- The endpoint completes configuration requests, so the host may enable bus mastering (R87). -/
theorem pcieMessagePending_configReady : configReady pcieMessagePending = true := by decide

/-- With bus mastering the pending message goes out, so more than the Bus Master bit changes (R294, log 128). -/
theorem busMasterEnable_sendsPending :
    ∃ t, exec .busMasterEnable pcieMessagePending = .next t ∧ t.out = [.msix 0 0 0] :=
  ⟨_, rfl, by decide +kernel⟩

/-- Refutes O12: BUS_MASTER_ENABLE does more than set the Bus Master bit where an MSI-X message is pending, which it sends. -/
theorem not_pcieRingsAndTheirInterrupts : ¬ Obligations.PcieRingsAndTheirInterrupts := by
  rintro ⟨_, _, enableSetsOnlyTheBit, _⟩
  obtain ⟨t, ht, sent⟩ := busMasterEnable_sendsPending
  have e := ht.symm.trans (enableSetsOnlyTheBit pcieMessagePending pcieMessagePending_configReady)
  injection e with e
  rw [e] at sent
  exact absurd sent (by decide)

end Sys2Proof.Machine
end

section
/-!
PROOF. What each command may change (O46): for every command, the parts of the state outside its list stay as they are. Each lemma
rests on the frames of the operations that its command calls.
-/

namespace Sys2Proof.Machine

/-- Between two states every part outside the list is the same. -/
def ChangesOnly (l : List StatePart) (s t : State) : Prop := ∀ p, p ∉ l → p.kept s t

/-- The claim part by part, as the frames of the operations state it. -/
@[simp] theorem changesOnly_iff (l : List StatePart) (s t : State) : ChangesOnly l s t ↔
    (.pending ∉ l → t.pending = s.pending) ∧ (.pwr ∉ l → t.pwr = s.pwr) ∧ (.set ∉ l → t.set = s.set) ∧
    (.store ∉ l → t.store = s.store) ∧ (.clk ∉ l → t.clk = s.clk) ∧ (.time ∉ l → t.time = s.time) ∧
    (.head ∉ l → t.head = s.head) ∧ (.front ∉ l → t.front = s.front) ∧ (.prog ∉ l → t.prog = s.prog) ∧
    (.gens ∉ l → t.gens = s.gens) ∧ (.mix ∉ l → t.mix = s.mix) ∧ (.plan ∉ l → t.plan = s.plan) ∧
    (.port ∉ l → t.port = s.port) ∧ (.bus ∉ l → t.bus = s.bus) ∧ (.link ∉ l → t.link = s.link) ∧
    (.stats ∉ l → t.stats = s.stats) ∧ (.sec ∉ l → t.sec = s.sec) ∧ (.cal ∉ l → t.cal = s.cal) ∧
    (.health ∉ l → t.health = s.health) ∧ (.survey ∉ l → t.survey = s.survey) ∧
    (.compat ∉ l → t.compat = s.compat) ∧ (.out ∉ l → t.out = s.out) ∧ (.fresh ∉ l → t.fresh = s.fresh) := by
  constructor
  · intro h
    exact ⟨h .pending, h .pwr, h .set, h .store, h .clk, h .time, h .head, h .front, h .prog, h .gens, h .mix, h .plan,
      h .port, h .bus, h .link, h .stats, h .sec, h .cal, h .health, h .survey, h .compat, h .out, h .fresh⟩
  · intro h p hp
    cases p <;> simp_all [StatePart.kept]

/-- Where an outcome is a next state, every part of it outside the list is as it was. -/
def Changes (l : List StatePart) (s : State) (o : Host.Outcome State Fault Refusal) : Prop :=
  ∀ t, o = .next t → ChangesOnly l s t

@[simp] theorem changes_next {l : List StatePart} {s t : State} : Changes l s (.next t) ↔ ChangesOnly l s t :=
  ⟨fun h => h _ rfl, by rintro h _ ⟨⟩; exact h⟩

/-- A row about units leaves the state as it is where the device has not that unit (log 133). -/
@[simp] theorem changes_within {l : List StatePart} {s t : State} {b : Bool} :
    Changes l s (within s b t) ↔ (b = true → ChangesOnly l s t) := by
  cases b <;> simp [within]

/-- A command that only replies changes no more than taking its frame and answering it does (R305, R326, R339). -/
theorem changes_reading {op : Nat} {f : CmdFrame} {c : State → Checks} {body : State → State × Option Reply} {s : State}
    (hb : ∀ u, (body u).1 = u) : Changes [.head, .port, .bus, .out] s (.next (command op f c body s)) := by
  simp [hb]

/-! ### Identity, ports and the alarm -/

theorem execPortDeclare_changes (f : CmdFrame) (s : State) :
    Changes [.set, .store, .head, .port, .bus, .health, .out] s (execPortDeclare f s) := by
  unfold execPortDeclare; simp [portDeclareBody_frame ..]

theorem execAlarmSet_changes (f : CmdFrame) (s : State) :
    Changes [.set, .store, .head, .port, .bus, .out] s (execAlarmSet f s) := by
  unfold execAlarmSet; simp [alarmSetBody_frame ..]

theorem execUnassignedOpcode_changes (opcode : Nat) (f : CmdFrame) (s : State) :
    Changes [.head, .port, .bus, .out] s (execUnassignedOpcode opcode f s) := by
  unfold execUnassignedOpcode; simp

/-! ### Registers, rings and ports -/

theorem execRingPop_changes (port ring clocked : Nat) (s : State) :
    Changes [.port, .out] s (execRingPop port ring clocked s) := by
  unfold execRingPop; simp [popRing_frame ..]

theorem execRingPush_changes (port ring : Nat) (bytes : List Byte) (ending : PushEnd) (s : State) :
    Changes [.port, .out] s (execRingPush port ring bytes ending s) := by
  unfold execRingPush; simp [pushSpi_frame .., pushTwoWire_frame ..]

theorem execStatus_changes (port : Nat) (s : State) : Changes [.out, .fresh] s (execStatus port s) := by
  unfold execStatus; simp [spiStatus_frame ..]

theorem execBareRead_changes (clocked : Nat) (s : State) : Changes [.port, .out] s (execBareRead clocked s) := by
  unfold execBareRead; simp [popRing_frame ..]

theorem execTwoWireStuckTimeout_changes (s : State) : Changes [.clk, .time] s (execTwoWireStuckTimeout s) := by
  unfold execTwoWireStuckTimeout; simp [pass_frame ..]

theorem execRegWrite_changes (port off : Nat) (val : W32) (nbytes : Nat) (s : State) :
    Changes [.set, .store, .port, .bus, .out] s (execRegWrite port off val nbytes s) := by
  unfold execRegWrite; simp [writeReg_frame ..]

theorem execDtLoRead_changes (port : Nat) (wide : Bool) (s : State) :
    Changes [.time, .out] s (execDtLoRead port wide s) := by
  unfold execDtLoRead; simp [modShadow_frame .., readsZero_frame ..]

theorem execDtHiRead_changes (port : Nat) (s : State) : Changes [.time, .out] s (execDtHiRead port s) := by
  unfold execDtHiRead; simp [modShadow_frame .., readsZero_frame ..]

theorem execTimeStatusRead_changes (port : Nat) (s : State) :
    Changes [.time, .out] s (execTimeStatusRead port s) := by
  unfold execTimeStatusRead; simp [modShadow_frame .., readsZero_frame ..]

theorem execIntClear_changes (mask : W32) (s : State) :
    Changes [.set, .store, .port, .bus, .out] s (execIntClear mask s) := by
  unfold execIntClear; simp [writeReg_frame ..]

theorem execDoorbell_changes (mask : W32) (s : State) :
    Changes [.set, .store, .port, .bus, .out] s (execDoorbell mask s) := by
  unfold execDoorbell; simp [writeReg_frame ..]

theorem execHeadWrite_changes (port ring : Nat) (val : W32) (s : State) :
    Changes [.port] s (execHeadWrite port ring val s) := by
  unfold execHeadWrite; simp [writePointer_frame ..]

theorem execTailWrite_changes (port ring : Nat) (val : W32) (s : State) :
    Changes [.port] s (execTailWrite port ring val s) := by
  unfold execTailWrite; simp [writePointer_frame ..]

theorem execRingEnableWrite_changes (port ring : Nat) (policy : W32) (s : State) :
    Changes [.set, .store, .port, .out] s (execRingEnableWrite port ring policy s) := by
  unfold execRingEnableWrite; simp [writePolicy_frame ..]

theorem execQuotaWrite_changes (port ring : Nat) (val : W32) (s : State) :
    Changes [.set, .store, .port, .out] s (execQuotaWrite port ring val s) := by
  unfold execQuotaWrite; simp [writeQuota_frame ..]

theorem execRingStatusClear_changes (ring : Nat) (val : W32) (s : State) :
    Changes [.port] s (execRingStatusClear ring val s) := by
  unfold execRingStatusClear; simp [clearRingStatus_frame ..]

theorem execFetchTimer_changes (ring : Nat) (s : State) : Changes [.port] s (execFetchTimer ring s) := by
  unfold execFetchTimer; simp [examine_frame ..]

theorem execHostRingFetchDone_changes (ring : Nat) (bytes : List Byte) (s : State) :
    Changes [.port, .out] s (execHostRingFetchDone ring bytes s) := by
  unfold execHostRingFetchDone; simp [headAdvanced_frame ..]

theorem execStagedEntryDma_changes (ring : Nat) (s : State) :
    Changes [.port, .out] s (execStagedEntryDma ring s) := by
  unfold execStagedEntryDma; simp [flushResponses_frame .., dmaBlock_frame ..]

theorem execRingDisableDrained_changes (ring : Nat) (s : State) :
    Changes [.port] s (execRingDisableDrained ring s) := by
  unfold execRingDisableDrained; simp

theorem execIntTimeout_changes (ring : Nat) (s : State) :
    Changes [.clk, .time, .port, .out] s (execIntTimeout ring s) := by
  unfold execIntTimeout; refine changes_within.2 fun _ => ?_
  split <;> simp [raiseInt_frame .., passTo_frame ..]

theorem execPcieRingsDisabled_changes (cause : PcieDown) (s : State) :
    Changes [.set, .port] s (execPcieRingsDisabled cause s) := by
  unfold execPcieRingsDisabled; simp [disablePcieRings_frame ..]

theorem execBusMasterEnable_changes (s : State) : Changes [.port, .out] s (execBusMasterEnable s) := by
  unfold execBusMasterEnable; simp [sendPending_frame ..]

theorem execPcieRetrain_changes (gen width : Nat) (s : State) :
    Changes [.port, .health, .out] s (execPcieRetrain gen width s) := by
  unfold execPcieRetrain; simp [markBudget_frame ..]

theorem execPcieLinkTrained_changes (gen width : Nat) (s : State) :
    Changes [.port] s (execPcieLinkTrained gen width s) := by
  unfold execPcieLinkTrained; simp [markBudget_frame ..]

/-! ### The two-wire controller and GPIO -/

theorem execBusXfer_changes (f : CmdFrame) (s : State) :
    Changes [.set, .store, .head, .port, .bus, .out] s (execBusXfer f s) := by
  unfold execBusXfer; simp [busXferBody_frame ..]

theorem execControllerTransferEnd_changes (r : BusResult) (s : State) :
    Changes [.head, .port, .bus, .health, .out] s (execControllerTransferEnd r s) := by
  unfold execControllerTransferEnd; refine changes_within.2 fun _ => ?_
  split <;> simp [xferEnds_frame ..]

theorem execGpioConfig_changes (f : CmdFrame) (s : State) :
    Changes [.set, .store, .head, .port, .bus, .link, .health, .out] s (execGpioConfig f s) := by
  unfold execGpioConfig; simp [gpioConfigBody_frame ..]

theorem execGetGpio_changes (f : CmdFrame) (s : State) :
    Changes [.head, .port, .bus, .out, .fresh] s (execGetGpio f s) := by
  unfold execGetGpio; simp [getGpioBody_frame ..]

theorem execAttentionMessage_changes (s : State) : Changes [.bus, .out] s (execAttentionMessage s) := by
  unfold execAttentionMessage; simp [sendAttention_frame ..]

theorem execAttentionRetry_changes (s : State) : Changes [.clk, .time, .bus, .out] s (execAttentionRetry s) := by
  unfold execAttentionRetry; refine changes_next.2 ?_
  split <;> simp [sendAttention_frame .., passTo_frame ..]

theorem execAttentionRepeat_changes (s : State) : Changes [.clk, .time, .bus, .out] s (execAttentionRepeat s) := by
  unfold execAttentionRepeat; refine changes_next.2 ?_
  split <;> simp [sendAttention_frame .., passTo_frame ..]

theorem execSupplyWrite_changes (r : BusResult) (s : State) :
    Changes [.head, .port, .bus, .health, .out] s (execSupplyWrite r s) := by
  unfold execSupplyWrite; refine changes_within.2 fun _ => ?_
  split <;> simp [xferEnds_frame .., sendXfer_frame ..]

theorem execSupplyWriteRetry_changes (s : State) : Changes [.clk, .time, .bus] s (execSupplyWriteRetry s) := by
  unfold execSupplyWriteRetry; simp [queueSupply_frame .., passTo_frame ..]

theorem execBusNotFreeTimeout_changes (s : State) :
    Changes [.clk, .time, .head, .port, .bus, .out] s (execBusNotFreeTimeout s) := by
  unfold execBusNotFreeTimeout; refine changes_next.2 ?_; dsimp only
  (repeat' split) <;> simp [passTo_frame .., answerXfer_frame ..]

theorem execBusRecoveryRepeat_changes (pulses : Nat) (s : State) :
    Changes [.clk, .time, .bus, .out] s (execBusRecoveryRepeat pulses s) := by
  unfold execBusRecoveryRepeat; simp [passTo_frame ..]

theorem execBusFree_changes (s : State) : Changes [.bus, .out] s (execBusFree s) := by
  unfold execBusFree; simp [startBus_frame ..]

/-! ### Windows, tuners and gain -/

theorem execWindowOpen_changes (f : CmdFrame) (s : State) :
    Changes [.head, .front, .prog, .mix, .plan, .port, .bus, .health, .compat, .out, .fresh] s (execWindowOpen f s) :=
      by
  unfold execWindowOpen; simp [windowOpenBody_frame ..]

theorem execWindowRetune_changes (f : CmdFrame) (s : State) :
    Changes [.head, .front, .prog, .mix, .plan, .port, .bus, .health, .compat, .out, .fresh] s (execWindowRetune f s)
      := by
  unfold execWindowRetune; simp [windowRetuneBody_frame ..]

theorem execWindowClose_changes (f : CmdFrame) (s : State) :
    Changes [.head, .front, .prog, .mix, .plan, .port, .bus, .cal, .health, .compat, .out, .fresh] s (execWindowClose
      f s) := by
  unfold execWindowClose; simp [windowCloseBody_frame ..]

theorem execLingerExpiry_changes (t : Nat) (s : State) : Changes [.clk, .time, .front] s (execLingerExpiry t s) := by
  unfold execLingerExpiry; refine changes_within.2 fun _ => ?_
  split <;> simp [passTo_frame ..]

theorem execWindowGang_changes (f : CmdFrame) (s : State) :
    Changes [.head, .front, .prog, .mix, .plan, .port, .bus, .health, .compat, .out, .fresh] s (execWindowGang f s) :=
      by
  unfold execWindowGang; simp [windowGangBody_frame ..]

theorem execWindowUngang_changes (f : CmdFrame) (s : State) :
    Changes [.head, .front, .prog, .mix, .plan, .port, .bus, .cal, .health, .compat, .out, .fresh] s (execWindowUngang
      f s) := by
  unfold execWindowUngang; simp [windowUngangBody_frame ..]

theorem execLnaConfig_changes (f : CmdFrame) (s : State) :
    Changes [.set, .store, .head, .port, .bus, .out] s (execLnaConfig f s) := by
  unfold execLnaConfig; simp [lnaConfigBody_frame ..]

theorem execFailedWindowReopen_changes (w : Nat) (s : State) :
    Changes [.front, .prog, .mix, .port, .health, .compat, .out, .fresh] s (execFailedWindowReopen w s) := by
  unfold execFailedWindowReopen; simp [bringPartner_frame ..]

theorem execAgcUpdate_changes (w : Nat) (m : AgcMeas) (s : State) :
    Changes [.front, .port, .health, .out, .fresh] s (execAgcUpdate w m s) := by
  unfold execAgcUpdate; refine changes_within.2 fun _ => ?_; dsimp only
  split
  · simp
  · split
    · simp
    · cases (windowAt s w).partner <;> simp [holdGain_frame .., agcTuner_frame ..]

theorem execLnaBypass_changes (n : Nat) (s : State) : Changes [.clk, .time, .front] s (execLnaBypass n s) := by
  unfold execLnaBypass; refine changes_within.2 fun _ => ?_; dsimp only
  split <;> simp [passTo_frame ..]

theorem execLnaReturn_changes (n : Nat) (s : State) : Changes [.clk, .time, .front] s (execLnaReturn n s) := by
  unfold execLnaReturn; simp [passTo_frame ..]

theorem execAgcFreezeCap_changes (s : State) : Changes [.clk, .time, .front] s (execAgcFreezeCap s) := by
  unfold execAgcFreezeCap; refine changes_next.2 ?_; dsimp only
  split <;> simp [passTo_frame ..]

/-! ### Calibration, supply and ageing -/

theorem execCalRun_changes (f : CmdFrame) (s : State) :
    Changes [.head, .port, .bus, .cal, .out] s (execCalRun f s) := by
  unfold execCalRun; simp [calRunBody_frame ..]

theorem execCalConfig_changes (f : CmdFrame) (s : State) :
    Changes [.set, .store, .head, .port, .bus, .out] s (execCalConfig f s) := by
  unfold execCalConfig; simp [calConfigBody_frame ..]

theorem execSupplyConfig_changes (f : CmdFrame) (s : State) :
    Changes [.set, .store, .head, .port, .bus, .cal, .out] s (execSupplyConfig f s) := by
  unfold execSupplyConfig; simp [supplyConfigBody_frame ..]

theorem execTemperatureComparison_changes (temps : List Int) (s : State) :
    Changes [.port, .cal] s (execTemperatureComparison temps s) := by
  unfold execTemperatureComparison; simp [compareTemperature_frame ..]

theorem execPendingRunStart_changes (a : Nat) (s : State) : Changes [.cal] s (execPendingRunStart a s) := by
  unfold execPendingRunStart; simp [beginStats_frame ..]

theorem execElementStatisticsDone_changes (a : Nat) (m : ElemStats) (s : State) :
    Changes [.clk, .time, .head, .front, .prog, .mix, .plan, .port, .cal, .health, .compat, .out, .fresh] s
      (execElementStatisticsDone a m s) := by
  unfold execElementStatisticsDone; simp [passTo_frame .., rerunOpens_frame .., endAsked_frame ..,
    noteUnqualified_frame .., computeChoice_frame .., beginInterruption_frame ..]

theorem execElementInterruptionEnd_changes (a : Nat) (s : State) :
    Changes [.store, .clk, .time, .head, .front, .prog, .mix, .plan, .port, .cal, .health, .compat, .out, .fresh] s
      (execElementInterruptionEnd a s) := by
  unfold execElementInterruptionEnd; refine changes_within.2 fun _ => ?_; dsimp only
  (repeat' split) <;> simp [passTo_frame .., calChanged_frame .., modRecordAdc_frame .., endAsked_frame ..,
    rerunOpens_frame .., afterInterruption_frame ..]

theorem execFadeDeferExpiry_changes (a : Nat) (s : State) :
    Changes [.clk, .time, .prog, .mix, .port, .cal, .health, .compat, .out, .fresh] s (execFadeDeferExpiry a s) := by
  unfold execFadeDeferExpiry; simp [beginInterruption_frame .., passTo_frame ..]

theorem execCalRetry_changes (a : Nat) (s : State) : Changes [.clk, .time, .cal] s (execCalRetry a s) := by
  unfold execCalRetry; simp [passTo_frame .., beginStats_frame ..]

theorem execIqEstimate_changes (a : Nat) (m : IqEst) (s : State) :
    Changes [.head, .front, .port, .cal, .out] s (execIqEstimate a m s) := by
  unfold execIqEstimate; refine changes_within.2 fun _ => ?_; dsimp only
  (repeat' split) <;> simp [endAsked_frame .., noteUnqualified_frame ..]

theorem execIqRampEnd_changes (a : Nat) (s : State) :
    Changes [.store, .clk, .time, .head, .port, .cal, .out] s (execIqRampEnd a s) := by
  unfold execIqRampEnd; simp [passTo_frame .., endAsked_frame .., storePoint_frame ..]

theorem execAlignmentStep_changes (a : Nat) (m : AlignMeas) (s : State) :
    Changes [.store, .clk, .time, .head, .port, .cal, .out] s (execAlignmentStep a m s) := by
  unfold execAlignmentStep; refine changes_within.2 fun _ => ?_; dsimp only
  split <;> simp [noteUnqualified_frame .., calChanged_frame .., endAsked_frame .., passTo_frame ..,
    modRecordAdc_frame ..]

theorem execGrainAssessment_changes (m : GrainMeas) (s : State) :
    Changes [.store, .clk, .time, .port, .bus, .cal, .health, .out] s (execGrainAssessment m s) := by
  unfold execGrainAssessment; simp [assessmentDue_frame .., calChanged_frame .., announceCapacity_frame ..,
    setVdd_frame ..]

theorem execAvsRaise_changes (margins : List Int) (s : State) :
    Changes [.clk, .time, .bus, .cal] s (execAvsRaise margins s) := by
  unfold execAvsRaise; simp [setMargins_frame .., supplySettled_frame .., passTo_frame .., setVdd_frame ..]

theorem execAvsLower_changes (margins : List Int) (s : State) :
    Changes [.clk, .time, .bus, .cal] s (execAvsLower margins s) := by
  unfold execAvsLower; simp [setMargins_frame .., supplySettled_frame .., passTo_frame .., setVdd_frame ..]

theorem execClockPlanChange_changes (s : State) :
    Changes [.clk, .time, .front, .prog, .mix, .port, .cal, .health, .compat, .out, .fresh] s (execClockPlanChange s)
      := by
  unfold execClockPlanChange; simp [passTo_frame .., reduceDividers_frame ..]

/-! ### Coefficient banks and curves -/

theorem execBankLoad_changes (f : CmdFrame) (s : State) :
    Changes [.head, .mix, .plan, .port, .bus, .out] s (execBankLoad f s) := by
  unfold execBankLoad; simp [bankLoadBody_frame ..]

theorem execCurveLoad_changes (f : CmdFrame) (s : State) :
    Changes [.head, .mix, .plan, .port, .bus, .out] s (execCurveLoad f s) := by
  unfold execCurveLoad; simp [curveLoadBody_frame ..]

/-! ### Receptions, branches and taps -/

theorem execReceptionAdd_changes (f : CmdFrame) (s : State) :
    Changes [.head, .front, .prog, .gens, .mix, .plan, .port, .bus, .health, .compat, .out, .fresh] s
      (execReceptionAdd f s) := by
  unfold execReceptionAdd; simp [receptionAddBody_frame ..]

theorem execReceptionSet_changes (f : CmdFrame) (s : State) :
    Changes [.head, .front, .prog, .mix, .plan, .port, .bus, .health, .compat, .out, .fresh] s (execReceptionSet f s)
      := by
  unfold execReceptionSet; simp [receptionSetBody_frame ..]

theorem execBranchAdd_changes (f : CmdFrame) (s : State) :
    Changes [.head, .front, .prog, .gens, .mix, .plan, .port, .bus, .health, .compat, .out, .fresh] s (execBranchAdd f
      s) := by
  unfold execBranchAdd; simp [branchAddBody_frame ..]

theorem execBranchRemove_changes (f : CmdFrame) (s : State) :
    Changes [.head, .front, .prog, .mix, .plan, .port, .bus, .health, .compat, .out, .fresh] s (execBranchRemove f s)
      := by
  unfold execBranchRemove; simp [branchRemoveBody_frame ..]

theorem execTapAdd_changes (f : CmdFrame) (s : State) :
    Changes [.head, .front, .prog, .gens, .mix, .plan, .port, .bus, .health, .compat, .out, .fresh] s (execTapAdd f s)
      := by
  unfold execTapAdd; simp [tapAddBody_frame ..]

theorem execTapRemove_changes (f : CmdFrame) (s : State) :
    Changes [.head, .prog, .plan, .port, .bus, .out] s (execTapRemove f s) := by
  unfold execTapRemove; simp [tapRemoveBody_frame ..]

theorem execAlertSet_changes (f : CmdFrame) (s : State) :
    Changes [.head, .prog, .plan, .port, .bus, .health, .compat, .out] s (execAlertSet f s) := by
  unfold execAlertSet; simp [alertSetBody_frame ..]

/-! ### Chains -/

theorem execChainBlock_changes (o : ChainOwner) (b : ChainIn) (s : State) :
    Changes [.prog, .mix, .port, .health, .compat, .out, .fresh] s (execChainBlock o b s) := by
  unfold execChainBlock; refine changes_within.2 fun _ => ?_; dsimp only
  split <;> simp [gapReached_frame .., takeInput_frame ..]

theorem execSettleCountDone_changes (o : ChainOwner) (s : State) :
    Changes [.prog, .port, .health, .compat, .out] s (execSettleCountDone o s) := by
  unfold execSettleCountDone; refine changes_within.2 fun _ => ?_
  split <;> simp [settledReception_frame ..]

theorem execChainBankChanged_changes (o : ChainOwner) (s : State) :
    Changes [.prog, .mix, .port, .health, .out, .fresh] s (execChainBankChanged o s) := by
  unfold execChainBankChanged; refine changes_within.2 fun _ => ?_
  split <;> simp [holdOver_frame .., closeBlock_frame .., postBankChanged_frame ..]

theorem execDelayChangeApply_changes (o : ChainOwner) (s : State) :
    Changes [.prog, .mix, .port, .health, .out, .fresh] s (execDelayChangeApply o s) := by
  unfold execDelayChangeApply; refine changes_within.2 fun _ => ?_
  (repeat' split) <;> simp [closeBlock_frame ..]

theorem execFrequencyChangeApply_changes (o : ChainOwner) (s : State) :
    Changes [.front, .prog, .mix, .port, .health, .compat, .out, .fresh] s (execFrequencyChangeApply o s) := by
  unfold execFrequencyChangeApply; refine changes_within.2 fun _ => ?_
  split <;> simp [closeBlock_frame .., freshOnMove_frame .., postBankChanged_frame ..]

theorem execTrackingHoldExpiry_changes (r : Nat) (s : State) :
    Changes [.clk, .time, .prog, .port, .health, .compat, .out] s (execTrackingHoldExpiry r s) := by
  unfold execTrackingHoldExpiry; refine changes_within.2 fun _ => ?_
  (repeat' split) <;> simp [loseReception_frame .., pass_frame ..]

/-! ### Demodulation, RDS and measurements -/

theorem execReceptionAcquired_changes (r : Nat) (s : State) :
    Changes [.prog, .port, .compat, .out] s (execReceptionAcquired r s) := by
  unfold execReceptionAcquired; refine changes_within.2 fun _ => ?_
  split <;> simp [acquire_frame ..]

theorem execReceptionLost_changes (r : Nat) (s : State) :
    Changes [.prog, .port, .health, .compat, .out] s (execReceptionLost r s) := by
  unfold execReceptionLost; refine changes_within.2 fun _ => ?_
  split <;> simp [loseReception_frame ..]

theorem execPilotDecision_changes (r : Nat) (s : State) : Changes [.prog] s (execPilotDecision r s) := by
  unfold execPilotDecision; simp

theorem execSyncLoopFallback_changes (r : Nat) (s : State) : Changes [.prog] s (execSyncLoopFallback r s) := by
  unfold execSyncLoopFallback; simp

theorem execSyncLoopRestore_changes (r : Nat) (s : State) : Changes [.prog] s (execSyncLoopRestore r s) := by
  unfold execSyncLoopRestore; simp

theorem execMpxShaving_changes (r : Nat) (s : State) : Changes [.prog, .port, .out] s (execMpxShaving r s) := by
  unfold execMpxShaving; refine changes_within.2 fun _ => ?_; dsimp only
  (repeat' split) <;> simp [offerShaving_frame ..]

theorem execRdsBlock_changes (r stream : Nat) (s : State) :
    Changes [.prog, .port, .health, .compat, .out] s (execRdsBlock r stream s) := by
  unfold execRdsBlock; refine changes_within.2 fun _ => ?_
  split <;> simp [deliverGroup_frame ..]

theorem execMeasurementIntervalEnd_changes (p : Nat) (s : State) :
    Changes [.clk, .time, .prog, .mix, .port, .out] s (execMeasurementIntervalEnd p s) := by
  unfold execMeasurementIntervalEnd; refine changes_within.2 fun _ => ?_; dsimp only
  (repeat' split) <;> simp [pass_frame .., searchSilence_frame .., offerShaving_frame .., beginMeasures_frame ..]

theorem execMomentaryLoudness_changes (p : Nat) (s : State) :
    Changes [.prog, .port, .out] s (execMomentaryLoudness p s) := by
  unfold execMomentaryLoudness; refine changes_within.2 fun _ => ?_
  split <;> simp [postSilence_frame ..]

theorem execSilenceBegan_changes (p : Nat) (s : State) : Changes [.prog, .port, .out] s (execSilenceBegan p s) := by
  unfold execSilenceBegan; refine changes_within.2 fun _ => ?_
  (repeat' split) <;> simp [postSilence_frame ..]

/-! ### Digital reception -/

theorem execDabCif_changes (r : Nat) (c : DabCif) (s : State) :
    Changes [.head, .prog, .gens, .port, .health, .compat, .out] s (execDabCif r c s) := by
  unfold execDabCif; refine changes_within.2 fun _ => ?_
  (repeat' split) <;> simp [takeCif_frame .., takeFigs_frame ..]

theorem execDrmFrame_changes (r : Nat) (d : DrmFrame) (s : State) :
    Changes [.prog, .port, .health, .compat, .out] s (execDrmFrame r d s) := by
  unfold execDrmFrame; refine changes_within.2 fun _ => ?_
  (repeat' split) <;> simp [writeSide_frame .., judgeDigital_frame ..]

theorem execDrmSuperframe_changes (r : Nat) (d : DrmSuper) (s : State) :
    Changes [.head, .prog, .gens, .port, .health, .compat, .out] s (execDrmSuperframe r d s) := by
  unfold execDrmSuperframe; refine changes_within.2 fun _ => ?_
  (repeat' split) <;> simp [writeSide_frame .., applyComps_frame .., announce_frame .., signalAlert_frame ..,
    learnLink_frame .., learnCand_frame ..]

theorem execControlChannelTimeout_changes (r : Nat) (s : State) :
    Changes [.prog, .port, .health, .compat, .out] s (execControlChannelTimeout r s) := by
  unfold execControlChannelTimeout; refine changes_within.2 fun _ => ?_
  split <;> simp [loseReception_frame ..]

theorem execDecodeResumed_changes (p : Nat) (s : State) : Changes [.prog, .port, .out] s (execDecodeResumed p s) := by
  unfold execDecodeResumed; refine changes_within.2 fun _ => ?_
  split <;> simp

theorem execReceptionReconfigured_changes (r : Nat) (s : State) :
    Changes [.head, .prog, .gens, .port, .health, .out] s (execReceptionReconfigured r s) := by
  unfold execReceptionReconfigured; refine changes_within.2 fun _ => ?_
  (repeat' split) <;> simp [applyComps_frame ..]

theorem execProgrammeAbsentExpiry_changes (p : Nat) (s : State) :
    Changes [.clk, .time, .head, .front, .prog, .gens, .mix, .plan, .port, .health, .compat, .out, .fresh] s
      (execProgrammeAbsentExpiry p s) := by
  unfold execProgrammeAbsentExpiry; refine changes_within.2 fun _ => ?_
  (repeat' split) <;> simp [removeProgramme_frame .., passTo_frame ..]

theorem execTransportUnit_changes (p : Nat) (u : TransportIn) (s : State) :
    Changes [.prog, .mix, .port, .health, .out] s (execTransportUnit p u s) := by
  unfold execTransportUnit; refine changes_within.2 fun _ => ?_
  (repeat' split) <;> simp [takeUnit_frame ..]

theorem execMotIdleExpiry_changes (p tid : Nat) (s : State) :
    Changes [.clk, .time, .prog, .port] s (execMotIdleExpiry p tid s) := by
  unfold execMotIdleExpiry; refine changes_within.2 fun _ => ?_
  split <;> simp [passTo_frame ..]

/-! ### Programmes -/

theorem execProgrammeSelect_changes (f : CmdFrame) (s : State) :
    Changes [.head, .front, .prog, .mix, .plan, .port, .bus, .health, .compat, .out, .fresh] s (execProgrammeSelect f
      s) := by
  unfold execProgrammeSelect; simp [programmeSelectBody_frame ..]

theorem execProgrammeMeasure_changes (f : CmdFrame) (s : State) :
    Changes [.head, .front, .prog, .mix, .plan, .port, .bus, .health, .compat, .out, .fresh] s (execProgrammeMeasure f
      s) := by
  unfold execProgrammeMeasure; simp [programmeMeasureBody_frame ..]

/-! ### PCM outputs and TDM ports -/

theorem execPcmRoute_changes (f : CmdFrame) (s : State) :
    Changes [.head, .prog, .gens, .plan, .port, .bus, .out] s (execPcmRoute f s) := by
  unfold execPcmRoute; simp [pcmRouteBody_frame ..]

theorem execPcmRemove_changes (f : CmdFrame) (s : State) :
    Changes [.head, .front, .prog, .mix, .plan, .port, .bus, .health, .compat, .out, .fresh] s (execPcmRemove f s) :=
      by
  unfold execPcmRemove; simp [pcmRemoveBody_frame ..]

theorem execTdmConfig_changes (f : CmdFrame) (s : State) :
    Changes [.set, .store, .head, .port, .bus, .out] s (execTdmConfig f s) := by
  unfold execTdmConfig; simp [tdmConfigBody_frame ..]

theorem execTdmConfigApply_changes (port : Nat) (s : State) :
    Changes [.prog, .mix, .out] s (execTdmConfigApply port s) := by
  unfold execTdmConfigApply; simp [drivePorts_frame ..]

theorem execPcmUnderrun_changes (o : Nat) (s : State) : Changes [.prog, .out] s (execPcmUnderrun o s) := by
  unfold execPcmUnderrun; simp [drivePorts_frame .., modPcm_frame ..]

theorem execPcmFifoRefilled_changes (o : Nat) (s : State) : Changes [.prog] s (execPcmFifoRefilled o s) := by
  unfold execPcmFifoRefilled; simp [modPcm_frame ..]

theorem execPcmShaving_changes (o : Nat) (s : State) : Changes [.prog, .port, .out] s (execPcmShaving o s) := by
  unfold execPcmShaving; refine changes_within.2 fun _ => ?_; dsimp only
  (repeat' split) <;> simp [offerShaving_frame .., modPcm_frame ..]

theorem execFollowerPortLost_changes (port : Nat) (m : FollowerMeas) (s : State) :
    Changes [.prog, .mix, .port, .health, .out] s (execFollowerPortLost port m s) := by
  unfold execFollowerPortLost; simp

theorem execFollowerPortResume_changes (port good : Nat) (s : State) :
    Changes [.prog, .mix] s (execFollowerPortResume port good s) := by
  unfold execFollowerPortResume; simp

/-! ### Bindings -/

theorem execRingBind_changes (f : CmdFrame) (s : State) :
    Changes [.head, .prog, .plan, .port, .bus, .out] s (execRingBind f s) := by
  unfold execRingBind; simp [ringBindBody_frame ..]

/-! ### Follow objects and probes -/

theorem execReceptionRemove_changes (f : CmdFrame) (s : State) :
    Changes [.head, .front, .prog, .gens, .mix, .plan, .port, .bus, .health, .compat, .out, .fresh] s
      (execReceptionRemove f s) := by
  unfold execReceptionRemove; simp [receptionRemoveBody_frame .., decideLost_frame ..]

theorem execFollowSet_changes (f : CmdFrame) (s : State) :
    Changes [.head, .prog, .gens, .plan, .port, .bus, .out] s (execFollowSet f s) := by
  unfold execFollowSet; simp [followSetBody_frame ..]

theorem execFollowRemove_changes (f : CmdFrame) (s : State) :
    Changes [.head, .front, .prog, .mix, .plan, .port, .bus, .health, .compat, .out, .fresh] s (execFollowRemove f s)
      := by
  unfold execFollowRemove; simp [followRemoveBody_frame ..]

theorem execProbeAdd_changes (f : CmdFrame) (s : State) :
    Changes [.head, .front, .prog, .gens, .mix, .plan, .port, .bus, .health, .compat, .out, .fresh] s (execProbeAdd f
      s) := by
  unfold execProbeAdd; simp [probeAddBody_frame ..]

theorem execProbeSet_changes (f : CmdFrame) (s : State) :
    Changes [.head, .front, .prog, .mix, .plan, .port, .bus, .health, .compat, .out, .fresh] s (execProbeSet f s) :=
      by
  unfold execProbeSet; simp [probeSetBody_frame ..]

theorem execProbeRemove_changes (f : CmdFrame) (s : State) :
    Changes [.head, .front, .prog, .mix, .plan, .port, .bus, .health, .compat, .out, .fresh] s (execProbeRemove f s)
      := by
  unfold execProbeRemove; simp [probeRemoveBody_frame ..]

theorem execGaugeMetric_changes (fo : Nat) (m : List GaugeIn) (s : State) :
    Changes [.clk, .time, .front, .prog, .mix, .port, .health, .compat, .out, .fresh] s (execGaugeMetric fo m s) := by
  unfold execGaugeMetric; refine changes_within.2 fun _ => ?_; dsimp only
  (repeat' split) <;> simp [passTo_frame .., resumeSwitch_frame .., gaugeDecide_frame ..]

theorem execRetarget_changes (fo : Nat) (s : State) :
    Changes [.front, .prog, .mix, .port, .health, .compat, .out, .fresh] s (execRetarget fo s) := by
  unfold execRetarget; refine changes_within.2 fun _ => ?_
  (repeat' split) <;> simp [arrive_frame .., swapChains_frame .., countSwitch_frame .., carryOut_frame ..,
    abandonRetarget_frame ..]

theorem execProbeDwellEnd_changes (pr : Nat) (s : State) :
    Changes [.clk, .time, .front, .prog, .mix, .port, .health, .compat, .out, .fresh] s (execProbeDwellEnd pr s) := by
  unfold execProbeDwellEnd; refine changes_within.2 fun _ => ?_
  split <;> simp [passTo_frame .., probeGoesOn_frame .., probeJoins_frame ..]

theorem execGlanceEnd_changes (fo : Nat) (s : State) :
    Changes [.clk, .time, .front, .prog, .mix, .port, .health, .compat, .out, .fresh] s (execGlanceEnd fo s) := by
  unfold execGlanceEnd; refine changes_within.2 fun _ => ?_
  (repeat' split) <;> simp [passTo_frame .., advanceProbe_frame ..]

theorem execCandidateExpiry_changes (fo freq : Nat) (kind : Kind) (s : State) :
    Changes [.clk, .time, .front, .prog, .mix, .port, .health, .compat, .out, .fresh] s (execCandidateExpiry fo freq
      kind s) := by
  unfold execCandidateExpiry; refine changes_within.2 fun _ => ?_; dsimp only
  (repeat' split) <;> simp [passTo_frame .., advanceProbe_frame ..]

theorem execRejectionExpiry_changes (fo freq : Nat) (kind : Kind) (s : State) :
    Changes [.clk, .time, .prog] s (execRejectionExpiry fo freq kind s) := by
  unfold execRejectionExpiry; refine changes_within.2 fun _ => ?_
  split <;> simp [passTo_frame ..]

/-! ### Blend pairs -/

theorem execBlendSet_changes (f : CmdFrame) (s : State) :
    Changes [.head, .gens, .mix, .plan, .port, .bus, .out] s (execBlendSet f s) := by
  unfold execBlendSet; simp [blendSetBody_frame ..]

theorem execBlendRemove_changes (f : CmdFrame) (s : State) :
    Changes [.head, .front, .prog, .mix, .plan, .port, .bus, .cal, .health, .compat, .out, .fresh] s (execBlendRemove
      f s) := by
  unfold execBlendRemove; simp [blendRemoveBody_frame ..]

theorem execBlendFade_changes (f : CmdFrame) (s : State) :
    Changes [.head, .mix, .port, .bus, .out] s (execBlendFade f s) := by
  unfold execBlendFade; simp [blendFadeBody_frame ..]

theorem execScarfCorrelation_changes (b : Nat) (s : State) :
    Changes [.clk, .time, .prog, .mix, .port, .out] s (execScarfCorrelation b s) := by
  unfold execScarfCorrelation; refine changes_within.2 fun _ => ?_; dsimp only
  (repeat' split) <;> simp [passTo_frame .., loseAlignment_frame .., resumeSwitches_frame .., correlate_frame ..]

theorem execFadeEnd_changes (b : Nat) (s : State) :
    Changes [.clk, .time, .prog, .mix, .port, .cal, .health, .compat, .out, .fresh] s (execFadeEnd b s) := by
  unfold execFadeEnd; refine changes_within.2 fun _ => ?_
  split <;> simp [resumeSwitches_frame .., endFade_frame .., passTo_frame ..]

theorem execDrainDone_changes (b : Nat) (s : State) :
    Changes [.clk, .time, .prog, .mix, .port, .out] s (execDrainDone b s) := by
  unfold execDrainDone; refine changes_within.2 fun _ => ?_
  split <;> simp [passTo_frame .., resumeSwitches_frame .., blendGo_frame ..]

theorem execBuildDone_changes (b : Nat) (s : State) :
    Changes [.clk, .time, .mix, .port, .out] s (execBuildDone b s) := by
  unfold execBuildDone; refine changes_within.2 fun _ => ?_
  split <;> simp [passTo_frame .., startFade_frame ..]

theorem execAlignmentWaitExpiry_changes (b : Nat) (s : State) :
    Changes [.clk, .time, .mix, .port, .out] s (execAlignmentWaitExpiry b s) := by
  unfold execAlignmentWaitExpiry; refine changes_within.2 fun _ => ?_
  (repeat' split) <;> simp [startFade_frame .., passTo_frame ..]

/-! ### The survey -/

theorem execTunerFailure_changes (t : Nat) (s : State) :
    Changes [.head, .front, .prog, .mix, .plan, .port, .cal, .health, .survey, .compat, .out, .fresh] s
      (execTunerFailure t s) := by
  unfold execTunerFailure; simp [rerunOpens_frame .., nextPlacements_frame .., tunerFails_frame ..]

theorem execSurveyConfig_changes (f : CmdFrame) (s : State) :
    Changes [.set, .store, .head, .port, .bus, .out] s (execSurveyConfig f s) := by
  unfold execSurveyConfig; simp [surveyConfigBody_frame ..]

theorem execSurveySpectrumDone_changes (pts : List SurveyPoint) (s : State) :
    Changes [.clk, .time, .front, .prog, .mix, .port, .health, .survey, .compat, .out, .fresh] s
      (execSurveySpectrumDone pts s) := by
  unfold execSurveySpectrumDone; refine changes_within.2 fun _ => ?_
  split <;> simp [passTo_frame .., nextPlacements_frame .., startCands_frame ..]

theorem execSurveyDwellEnd_changes (c : Nat) (r : SurveyFind) (s : State) :
    Changes [.clk, .time, .front, .prog, .mix, .port, .health, .survey, .compat, .out, .fresh] s (execSurveyDwellEnd c
      r s) := by
  unfold execSurveyDwellEnd; refine changes_within.2 fun _ => ?_
  (repeat' split) <;> simp [passTo_frame .., deliverFind_frame .., nextPlacements_frame .., startCands_frame ..]

theorem execSurveyPassEnd_changes (s : State) :
    Changes [.front, .prog, .mix, .port, .health, .survey, .compat, .out, .fresh] s (execSurveyPassEnd s) := by
  unfold execSurveyPassEnd; simp [reportGone_frame .., writeSurvey_frame .., startPass_frame .., leavePlacements_frame
    .., closeSweep_frame ..]

/-! ### Plans, and the ends of openings and shut-downs -/

theorem execWindowOpenDone_changes (w : Nat) (s : State) :
    Changes [.set, .store, .head, .front, .prog, .mix, .plan, .port, .cal, .health, .survey, .compat, .out, .fresh] s
      (execWindowOpenDone w s) := by
  unfold execWindowOpenDone; simp [commitProgress_frame .., compatTuned_frame .., rerunOpens_frame ..,
    windowOpened_frame .., sweepOpened_frame ..]

theorem execRetuneDone_changes (w : Nat) (s : State) :
    Changes [.set, .store, .head, .front, .prog, .mix, .plan, .port, .cal, .health, .compat, .out, .fresh] s
      (execRetuneDone w s) := by
  unfold execRetuneDone; simp [commitProgress_frame .., compatTuned_frame .., rerunOpens_frame .., retuneDone_frame
    ..]

theorem execWindowClosed_changes (w : Nat) (s : State) :
    Changes [.store, .head, .front, .prog, .gens, .mix, .plan, .port, .cal, .health, .compat, .out, .fresh] s
      (execWindowClosed w s) := by
  unfold execWindowClosed; simp [commitContinue_frame .., windowClosed_frame ..]

theorem execReceptionRemoved_changes (r : Nat) (s : State) :
    Changes [.set, .store, .head, .front, .prog, .gens, .mix, .plan, .port, .cal, .health, .compat, .out, .fresh] s
      (execReceptionRemoved r s) := by
  unfold execReceptionRemoved; simp [commitContinue_frame .., receptionRemoved_frame ..]

theorem execObjectRemoved_changes (cls : ObjClass) (i : Nat) (s : State) :
    Changes [.store, .head, .front, .prog, .gens, .mix, .plan, .port, .cal, .health, .compat, .out, .fresh] s
      (execObjectRemoved cls i s) := by
  unfold execObjectRemoved; simp [commitContinue_frame .., objectRemoved_frame ..]

theorem execPlanBegin_changes (f : CmdFrame) (s : State) :
    Changes [.head, .plan, .port, .bus, .out] s (execPlanBegin f s) := by
  unfold execPlanBegin; simp [planBeginBody_frame ..]

theorem execPlanPart_changes (f : CmdFrame) (s : State) :
    Changes [.head, .plan, .port, .bus, .out] s (execPlanPart f s) := by
  unfold execPlanPart; simp [planPartBody_frame ..]

theorem execPlanCommit_changes (f : CmdFrame) (s : State) :
    Changes [.store, .head, .front, .prog, .gens, .mix, .plan, .port, .bus, .cal, .health, .compat, .out, .fresh] s
      (execPlanCommit f s) := by
  unfold execPlanCommit; simp [planCommitBody_frame ..]

theorem execPlanDiscard_changes (f : CmdFrame) (s : State) :
    Changes [.head, .plan, .port, .bus, .out] s (execPlanDiscard f s) := by
  unfold execPlanDiscard; simp [planDiscardBody_frame ..]

/-! ### The link's commands -/

theorem execVddPaLow_changes (s : State) :
    Changes [.pwr, .set, .store, .front, .port, .link, .health, .out] s (execVddPaLow s) := by
  unfold execVddPaLow; simp [cutAir_frame ..]

theorem execLinkConfig_changes (f : CmdFrame) (s : State) :
    Changes [.set, .store, .head, .port, .bus, .link, .stats, .health, .out] s (execLinkConfig f s) := by
  unfold execLinkConfig; simp [linkConfigBody_frame ..]

theorem execLinkSend_changes (f : CmdFrame) (s : State) :
    Changes [.store, .head, .port, .bus, .link, .out] s (execLinkSend f s) := by
  unfold execLinkSend; simp [linkSendBody_frame ..]

theorem execLinkStop_changes (f : CmdFrame) (s : State) :
    Changes [.set, .store, .head, .port, .bus, .link, .stats, .health, .out] s (execLinkStop f s) := by
  unfold execLinkStop; simp [linkStopBody_frame ..]

theorem execLinkStopped_changes (s : State) :
    Changes [.set, .store, .clk, .time, .head, .front, .port, .link, .stats, .health, .out] s (execLinkStopped s) :=
      by
  unfold execLinkStopped; refine changes_next.2 ?_
  (repeat' split) <;> simp [endAir_frame .., passTo_frame .., finishStop_frame .., pass_frame ..,
    handleLinkConfig_frame ..]

theorem execGatherConfig_changes (f : CmdFrame) (s : State) :
    Changes [.store, .head, .port, .bus, .link, .out] s (execGatherConfig f s) := by
  unfold execGatherConfig; simp [gatherConfigBody_frame ..]

theorem execGatherConfigApply_changes (s : State) :
    Changes [.set, .clk, .time, .port, .link, .health, .out] s (execGatherConfigApply s) := by
  unfold execGatherConfigApply; simp [applyGather_frame .., reach_frame ..]

theorem execRecentFrameExpiry_changes (s : State) : Changes [.clk, .time, .link] s (execRecentFrameExpiry s) := by
  unfold execRecentFrameExpiry; refine changes_next.2 ?_
  split <;> simp [reach_frame ..]

theorem execRing28EntryTaken_changes (s : State) :
    Changes [.store, .port, .link, .stats, .out] s (execRing28EntryTaken s) := by
  unfold execRing28EntryTaken; refine changes_next.2 ?_
  split <;> simp [frameTaken_frame .., enqueueTx_frame ..]

theorem execVddPaGood_changes (s : State) : Changes [.pwr] s (execVddPaGood s) := by
  unfold execVddPaGood; simp

/-! ### The link's frames and windows -/

theorem execBeaconTransmit_changes (s : State) :
    Changes [.set, .store, .clk, .time, .front, .port, .link, .stats, .health, .out] s (execBeaconTransmit s) := by
  unfold execBeaconTransmit; simp [reach_frame .., applyGather_frame .., sendBeacon_frame ..]

theorem execBeaconWindowOpen_changes (s : State) :
    Changes [.clk, .time, .port, .link, .out] s (execBeaconWindowOpen s) := by
  unfold execBeaconWindowOpen; simp [reach_frame .., radioRest_frame .., setLinkState_frame .., listenUntil_frame ..]

theorem execBeaconMissed_changes (s : State) :
    Changes [.clk, .time, .port, .link, .stats, .out] s (execBeaconMissed s) := by
  unfold execBeaconMissed; refine changes_next.2 ?_
  split <;> simp [passTo_frame .., radioRest_frame .., judgeTx_frame ..]

theorem execSearchWindow_changes (s : State) : Changes [.clk, .time, .link] s (execSearchWindow s) := by
  unfold execSearchWindow; simp [reach_frame .., listenUntil_frame ..]

theorem execFrameQualified_changes (lane : Nat) (c : LinkCand) (s : State) :
    Changes [.link, .stats] s (execFrameQualified lane c s) := by
  unfold execFrameQualified; refine changes_within.2 fun _ => ?_
  (repeat' split) <;> simp [takeRx_frame ..]

theorem execHeaderCheck_changes (lane sl : Nat) (bits : List Bool) (s : State) :
    Changes [.link, .stats, .fresh] s (execHeaderCheck lane sl bits s) := by
  have h := decodeHeader_frame sl bits s
  unfold execHeaderCheck; refine changes_within.2 fun _ => ?_
  (repeat' split) <;> simp_all [freeRx_frame ..]

theorem execFrameReceived_changes (lane sl : Nat) (m : LinkRx) (s : State) :
    Changes [.port, .link, .stats, .health, .out, .fresh] s (execFrameReceived lane sl m s) := by
  unfold execFrameReceived; refine changes_within.2 fun _ => ?_
  (repeat' split) <;> simp [freeRx_frame .., decodeBody_frame .., nodeFrame_frame .., gathererFrame_frame ..]

theorem execSlotTransmit_changes (s : State) :
    Changes [.clk, .time, .front, .port, .link, .stats, .health, .out] s (execSlotTransmit s) := by
  unfold execSlotTransmit; refine changes_next.2 ?_; dsimp only
  (repeat' split) <;> simp [dueUplink_frame .., reach_frame ..]

theorem execFallbackTransmit_changes (s : State) :
    Changes [.clk, .time, .front, .port, .link, .stats, .sec, .health, .out, .fresh] s (execFallbackTransmit s) := by
  unfold execFallbackTransmit; refine changes_next.2 ?_; dsimp only
  (repeat' split) <;> simp [pickFallback_frame .., drbgRequest_frame .., dueUplink_frame .., reach_frame ..]

theorem execDownlinkTransmit_changes (s : State) :
    Changes [.clk, .time, .front, .port, .link, .stats, .health, .out] s (execDownlinkTransmit s) := by
  unfold execDownlinkTransmit; refine changes_next.2 ?_; dsimp only
  (repeat' split) <;> simp [reach_frame .., copied_frame .., sendTx_frame ..]

theorem execRadioTransitionDone_changes (s : State) :
    Changes [.clk, .time, .front, .port, .link, .stats, .health, .out] s (execRadioTransitionDone s) := by
  unfold execRadioTransitionDone; refine changes_next.2 ?_; dsimp only
  (repeat' split) <;> simp [passTo_frame .., sendTx_frame .., deferTx_frame ..]

theorem execTransmitKill_changes (s : State) :
    Changes [.set, .store, .clk, .time, .front, .port, .link, .out] s (execTransmitKill s) := by
  unfold execTransmitKill; refine changes_next.2 ?_
  split <;> simp [cutAir_frame .., pass_frame .., passTo_frame ..]

theorem execDownlinkWindowOpen_changes (s : State) : Changes [.clk, .time, .link] s (execDownlinkWindowOpen s) := by
  unfold execDownlinkWindowOpen; simp [listenUntil_frame .., reach_frame ..]

theorem execTransmissionEnd_changes (s : State) :
    Changes [.set, .store, .clk, .time, .front, .port, .link, .out] s (execTransmissionEnd s) := by
  unfold execTransmissionEnd; refine changes_next.2 ?_
  split <;> simp [endAir_frame .., passTo_frame ..]

/-! ### Loops, references and device time -/

theorem execLoopLossOfLock_changes (l : Loop) (s : State) :
    Changes [.set, .store, .clk, .time, .front, .prog, .mix, .port, .link, .health, .compat, .out, .fresh] s
      (execLoopLossOfLock l s) := by
  unfold execLoopLossOfLock; refine changes_next.2 ?_
  split <;> simp [loseSysPll_frame .., loseSPll_frame .., loseAPll_frame .., loseWordClock_frame .., loseSynth_frame
    .., refStops_frame ..]

theorem execLoopRelockAttempt_changes (l : Loop) (s : State) :
    Changes [.clk, .time] s (execLoopRelockAttempt l s) := by
  unfold execLoopRelockAttempt; refine changes_next.2 ?_
  split <;> simp [passTo_frame ..]

theorem execLoopRelock_changes (l : Loop) (us : Nat) (s : State) :
    Changes [.clk, .time, .front, .prog, .mix, .port, .link, .health, .compat, .out, .fresh] s (execLoopRelock l us s)
      := by
  unfold execLoopRelock; refine changes_next.2 ?_
  split <;> simp [relockSysPll_frame .., relockSPll_frame .., relockAPll_frame .., lockWordClock_frame ..,
    relockSynth_frame .., refReturns_frame .., lastOutage_frame ..]

theorem execKerfBufferFull_changes (w : Nat) (s : State) : Changes [.clk, .time] s (execKerfBufferFull w s) := by
  unfold execKerfBufferFull; refine changes_within.2 fun _ => ?_
  split <;> simp [passTo_frame ..]

theorem execRefStop_changes (s : State) :
    Changes [.set, .store, .clk, .time, .front, .prog, .mix, .port, .link, .health, .compat, .out, .fresh] s
      (execRefStop s) := by
  unfold execRefStop; simp [refStops_frame ..]

theorem execRefReturn_changes (s : State) : Changes [.clk, .port, .health, .out] s (execRefReturn s) := by
  unfold execRefReturn; simp [refReturns_frame ..]

theorem execPpsEdge_changes (rising : Bool) (sub : Int) (s : State) :
    Changes [.time, .port, .health, .out, .fresh] s (execPpsEdge rising sub s) := by
  unfold execPpsEdge; refine changes_next.2 ?_
  (repeat' split) <;> simp [noteLog_frame .., plumbEdge_frame ..]

theorem execTenMhzWindow_changes (m : TenMhzMeas) (s : State) :
    Changes [.clk, .time, .port, .health, .out, .fresh] s (execTenMhzWindow m s) := by
  unfold execTenMhzWindow; simp [passTo_frame .., plumbEdge_frame .., coast_frame ..]

theorem execReferenceLost_changes (s : State) : Changes [.clk, .time, .port, .out] s (execReferenceLost s) := by
  unfold execReferenceLost; simp [coast_frame .., passTo_frame ..]

theorem execPlumbStep_changes (s : State) :
    Changes [.clk, .time, .head, .prog, .port, .link, .out] s (execPlumbStep s) := by
  unfold execPlumbStep; simp [applySecond_frame .., toSecond_frame ..]

theorem execTimeSetApply_changes (s : State) :
    Changes [.clk, .time, .head, .prog, .port, .link, .out] s (execTimeSetApply s) := by
  unfold execTimeSetApply; simp [applySecond_frame .., toSecond_frame ..]

theorem execWordClockLost_changes (s : State) : Changes [.clk, .port, .health, .out] s (execWordClockLost s) := by
  unfold execWordClockLost; simp [loseWordClock_frame ..]

theorem execWordClockLocked_changes (s : State) :
    Changes [.clk, .time, .port, .health, .out] s (execWordClockLocked s) := by
  unfold execWordClockLocked; simp [lockWordClock_frame ..]

theorem execTimeConfig_changes (f : CmdFrame) (s : State) :
    Changes [.set, .store, .clk, .time, .head, .port, .bus, .health, .out] s (execTimeConfig f s) := by
  unfold execTimeConfig; simp [timeConfigBody_frame ..]

theorem execTimeSet_changes (f : CmdFrame) (s : State) :
    Changes [.time, .head, .port, .bus, .out] s (execTimeSet f s) := by
  unfold execTimeSet; simp [timeSetBody_frame ..]

/-! ### The store -/

theorem execSettingsCommitTimer_changes (s : State) :
    Changes [.store, .clk, .time] s (execSettingsCommitTimer s) := by
  unfold execSettingsCommitTimer; refine changes_next.2 ?_
  split <;> simp [writeSettings_frame .., passTo_frame ..]

theorem execLinkCountersSnapshot_changes (s : State) :
    Changes [.store, .clk, .time, .link] s (execLinkCountersSnapshot s) := by
  unfold execLinkCountersSnapshot; simp [passTo_frame .., writeCounters_frame ..]

theorem execRecordWriteDone_changes (s : State) :
    Changes [.store, .head, .front, .prog, .mix, .plan, .port, .link, .sec, .cal, .health, .compat, .out, .fresh] s
      (execRecordWriteDone s) := by
  unfold execRecordWriteDone; refine changes_next.2 ?_
  split <;> simp [commitProgress_frame .., finishJob_frame ..]

theorem execCalRecordWrite_changes (s : State) : Changes [.store, .clk, .time, .cal] s (execCalRecordWrite s) := by
  unfold execCalRecordWrite; refine changes_next.2 ?_
  (repeat' split) <;> simp [writeCal_frame .., passTo_frame ..]

theorem execFactoryDefaults_changes (f : CmdFrame) (s : State) :
    Changes [.set, .store, .clk, .time, .head, .front, .prog, .gens, .mix, .plan, .port, .bus, .link, .stats, .cal,
      .health, .compat, .out, .fresh] s (execFactoryDefaults f s) := by
  unfold execFactoryDefaults; simp [factoryDefaults_frame ..]

/-! ### Modes and wake -/

theorem execWakeHigh_changes (widthUs : Nat) (s : State) :
    Changes [.pwr, .set, .store, .clk, .head, .front, .prog, .mix, .plan, .port, .sec, .cal, .health, .survey,
      .compat, .out, .fresh] s (execWakeHigh widthUs s) := by
  unfold execWakeHigh drawBool; refine changes_next.2 ?_; dsimp only
  (repeat' split) <;> simp [wakeSource_frame ..]

theorem execTwoWireWake_changes (s : State) :
    Changes [.set, .store, .clk, .head, .front, .prog, .mix, .plan, .port, .sec, .cal, .health, .survey, .compat,
      .out, .fresh] s (execTwoWireWake s) := by
  unfold execTwoWireWake; simp [wakeSource_frame ..]

theorem execAonAlarm_changes (s : State) :
    Changes [.set, .store, .clk, .time, .head, .front, .prog, .mix, .plan, .port, .sec, .cal, .health, .survey,
      .compat, .out, .fresh] s (execAonAlarm s) := by
  unfold execAonAlarm; simp [pass_frame .., wakeSource_frame ..]

theorem execModeTransitionDone_changes (s : State) :
    Changes [.set, .store, .clk, .time, .head, .front, .prog, .gens, .mix, .plan, .port, .link, .stats, .sec, .cal,
      .health, .survey, .compat, .out, .fresh] s (execModeTransitionDone s) := by
  unfold execModeTransitionDone; refine changes_within.2 fun _ => ?_
  split <;> simp [finishHold_frame .., finishTransition_frame ..]

theorem execSetMode_changes (f : CmdFrame) (s : State) :
    Changes [.set, .store, .head, .front, .prog, .mix, .plan, .port, .bus, .sec, .cal, .health, .survey, .compat,
      .out, .fresh] s (execSetMode f s) := by
  unfold execSetMode; simp [setMode_frame ..]

/-! ### Keys and images -/

theorem execKeyInstall_changes (f : CmdFrame) (s : State) :
    Changes [.store, .head, .port, .bus, .out] s (execKeyInstall f s) := by
  unfold execKeyInstall; simp [keyInstallBody_frame ..]

theorem execKeyZeroise_changes (f : CmdFrame) (s : State) :
    Changes [.store, .head, .port, .bus, .sec, .out] s (execKeyZeroise f s) := by
  unfold execKeyZeroise; simp [keyZeroise_frame ..]

theorem execFwUpdateBegin_changes (f : CmdFrame) (s : State) :
    Changes [.store, .head, .port, .bus, .sec, .out] s (execFwUpdateBegin f s) := by
  unfold execFwUpdateBegin; simp [fwUpdateBeginBody_frame ..]

theorem execFwUpdatePart_changes (f : CmdFrame) (s : State) :
    Changes [.head, .port, .bus, .sec, .out] s (execFwUpdatePart f s) := by
  unfold execFwUpdatePart; simp [fwUpdatePartBody_frame ..]

theorem execFwUpdateCommit_changes (f : CmdFrame) (s : State) :
    Changes [.store, .head, .port, .bus, .sec, .out, .fresh] s (execFwUpdateCommit f s) := by
  unfold execFwUpdateCommit; simp [fwUpdateCommitBody_frame ..]

theorem execRegionProfileInstall_changes (f : CmdFrame) (s : State) :
    Changes [.set, .store, .head, .port, .bus, .link, .sec, .out] s (execRegionProfileInstall f s) := by
  unfold execRegionProfileInstall; simp [regionProfileInstallBody_frame ..]

theorem execTestUnlock_changes (f : CmdFrame) (s : State) :
    Changes [.head, .port, .bus, .sec, .out, .fresh] s (execTestUnlock f s) := by
  unfold execTestUnlock; simp [testUnlockBody_frame ..]

theorem execEntropyTestFailure_changes (s : State) :
    Changes [.set, .store, .port, .link, .stats, .sec, .health, .out] s (execEntropyTestFailure s) := by
  unfold execEntropyTestFailure; simp [beginStop_frame ..]

theorem execDrbgReseed_changes (s : State) : Changes [.sec] s (execDrbgReseed s) := by
  unfold execDrbgReseed; simp

/-! ### The reset sequence -/

theorem execPowerOnReset_changes (s : State) :
    Changes [.pwr, .set, .store, .clk, .time, .head, .front, .prog, .gens, .mix, .plan, .port, .bus, .link, .stats,
      .sec, .cal, .health, .survey, .compat, .out] s (execPowerOnReset s) := by
  unfold execPowerOnReset; simp [powerOff_frame ..]

theorem execPorRelease_changes (b : BootInputs) (s : State) :
    Changes [.pwr, .set, .store, .clk, .time, .head, .front, .prog, .gens, .mix, .plan, .port, .bus, .link, .sec,
      .cal, .health, .compat, .out, .fresh] s (execPorRelease b s) := by
  unfold execPorRelease; simp [passTo_frame .., powerOnWork_frame ..]

theorem execNresetAccepted_changes (widthNs : Nat) (s : State) :
    Changes [.pwr, .set, .store, .clk, .time, .head, .front, .prog, .gens, .mix, .plan, .port, .bus, .link, .sec,
      .cal, .health, .survey, .compat, .out, .fresh] s (execNresetAccepted widthNs s) := by
  unfold execNresetAccepted; simp [drawBool_frame .., islandsReset_frame .., paOffNow_frame ..]

theorem execNresetRelease_changes (b : BootInputs) (s : State) :
    Changes [.pwr, .set, .store, .clk, .time, .head, .front, .prog, .gens, .mix, .plan, .port, .bus, .link, .sec,
      .cal, .health, .compat, .out, .fresh] s (execNresetRelease b s) := by
  unfold execNresetRelease; simp [releaseTime_frame .., powerOnWork_frame .., nresetWork_frame ..]

theorem execIslandClockGood_changes (i : Nat) (s : State) :
    Changes [.pwr, .set, .store, .clk, .time, .head, .front, .prog, .gens, .mix, .plan, .port, .bus, .link, .sec,
      .cal, .health, .compat, .out, .fresh] s (execIslandClockGood i s) := by
  unfold execIslandClockGood; simp [timeReleased_frame .., gatesDone_frame ..]

theorem execIslandHeld_changes (i : Nat) (s : State) :
    Changes [.pwr, .set, .store, .clk, .time, .head, .front, .prog, .gens, .mix, .plan, .port, .bus, .link, .sec,
      .cal, .health, .compat, .out, .fresh] s (execIslandHeld i s) := by
  unfold execIslandHeld; simp [passTo_frame .., timeReleased_frame .., gatesDone_frame ..]

theorem execSequenceRepeat_changes (b : BootInputs) (s : State) :
    Changes [.pwr, .set, .store, .clk, .time, .head, .front, .prog, .gens, .mix, .plan, .port, .bus, .link, .stats,
      .sec, .cal, .health, .survey, .compat, .out, .fresh] s (execSequenceRepeat b s) := by
  unfold execSequenceRepeat; simp [passTo_frame .., powerOnWork_frame .., powerOff_frame .., checkedSequence_frame ..]

theorem execHaltBusRead_changes (isWrite : Bool) (s : State) : Changes [.out] s (execHaltBusRead isWrite s) := by
  unfold execHaltBusRead; simp

theorem execSelfTestRerun_changes (pass : Bool) (b : BootInputs) (s : State) :
    Changes [.pwr, .set, .store, .clk, .time, .head, .front, .prog, .mix, .port, .link, .sec, .cal, .health, .compat,
      .out, .fresh] s (execSelfTestRerun pass b s) := by
  unfold execSelfTestRerun; simp [passTo_frame .., secureBoot_frame .., halt_frame ..]

theorem execAonCrystalSwitch_changes (s : State) : Changes [.pwr] s (execAonCrystalSwitch s) := by
  unfold execAonCrystalSwitch; simp

theorem execAonRcTimeout_changes (s : State) :
    Changes [.pwr, .clk, .time, .port, .health, .out] s (execAonRcTimeout s) := by
  unfold execAonRcTimeout; simp [passTo_frame ..]

theorem execRailGood_changes (r : Rail) (s : State) :
    Changes [.pwr, .set, .store, .clk, .time, .head, .front, .prog, .gens, .mix, .plan, .port, .bus, .link, .sec,
      .cal, .health, .compat, .out, .fresh] s (execRailGood r s) := by
  unfold execRailGood; simp [powerOnWork_frame ..]

/-! ### The register file of COMPAT -/

theorem execControlTune_changes (s : State) :
    Changes [.set, .store, .front, .prog, .mix, .port, .health, .compat, .out, .fresh] s (execControlTune s) := by
  unfold execControlTune; simp [compatTuneNow_frame ..]

theorem execControlPowerDown_changes (s : State) :
    Changes [.set, .store, .head, .front, .prog, .mix, .plan, .port, .bus, .sec, .cal, .health, .survey, .compat,
      .out, .fresh] s (execControlPowerDown s) := by
  unfold execControlPowerDown; simp [compatPowerDown_frame ..]

theorem execControlDefaults_changes (s : State) :
    Changes [.set, .store, .clk, .time, .head, .front, .prog, .gens, .mix, .plan, .port, .bus, .link, .stats, .cal,
      .health, .compat, .out, .fresh] s (execControlDefaults s) := by
  unfold execControlDefaults; simp [compatDefaults_frame ..]

theorem execUpdateKeyUpdate_changes (gapMs : Nat) (s : State) :
    Changes [.set, .store, .clk, .time, .head, .front, .prog, .mix, .plan, .port, .bus, .sec, .cal, .health, .survey,
      .compat, .out, .fresh] s (execUpdateKeyUpdate gapMs s) := by
  unfold execUpdateKeyUpdate; simp [keyWrite_frame .., pass_frame ..]

theorem execUpdateKeyZeroise_changes (gapMs : Nat) (s : State) :
    Changes [.set, .store, .clk, .time, .head, .front, .prog, .mix, .plan, .port, .bus, .sec, .cal, .health, .survey,
      .compat, .out, .fresh] s (execUpdateKeyZeroise gapMs s) := by
  unfold execUpdateKeyZeroise; simp [keyWrite_frame .., pass_frame ..]

theorem execChCtrlWrite_changes (c : Nat) (v : Byte) (s : State) :
    Changes [.set, .store, .head, .front, .prog, .gens, .mix, .plan, .port, .health, .compat, .out, .fresh] s
      (execChCtrlWrite c v s) := by
  unfold execChCtrlWrite; simp [compatCtrl_frame ..]

theorem execIrqFlagsWrite_changes (v : Byte) (s : State) : Changes [.compat] s (execIrqFlagsWrite v s) := by
  unfold execIrqFlagsWrite; simp [irqClear_frame ..]

theorem execFifoLevelRead_changes (s : State) : Changes [.compat, .out] s (execFifoLevelRead s) := by
  unfold execFifoLevelRead; simp

theorem execFifoDataRead_changes (s : State) : Changes [.compat, .out] s (execFifoDataRead s) := by
  unfold execFifoDataRead; simp

theorem execCompatRegWrite_changes (off : Nat) (bytes : List Byte) (s : State) :
    Changes [.set, .store, .clk, .time, .head, .front, .prog, .gens, .mix, .plan, .port, .bus, .link, .stats, .sec,
      .cal, .health, .survey, .compat, .out, .fresh] s (execCompatRegWrite off bytes s) := by
  unfold execCompatRegWrite; simp [compatWrites_frame ..]

/-! ### Watchdog, engines and the health log -/

theorem execWatchdogExpiry_changes (s : State) :
    Changes [.set, .store, .clk, .time, .head, .front, .plan, .port, .link, .out] s (execWatchdogExpiry s) := by
  unfold execWatchdogExpiry; simp [askRestart_frame .., cutAir_frame .., pass_frame ..]

theorem execHeadstockFault_changes (ecc : Bool) (s : State) :
    Changes [.head, .plan] s (execHeadstockFault ecc s) := by
  unfold execHeadstockFault; simp [askRestart_frame ..]

theorem execFirmwareRestarted_changes (s : State) :
    Changes [.head, .plan, .port, .health, .out] s (execFirmwareRestarted s) := by
  unfold execFirmwareRestarted; simp [answerRestarted_frame ..]

theorem execRestartDelayExpiry_changes (s : State) :
    Changes [.clk, .time, .head, .plan] s (execRestartDelayExpiry s) := by
  unfold execRestartDelayExpiry; simp [startRestart_frame .., passTo_frame ..]

theorem execRestartSpacingEnd_changes (s : State) : Changes [.clk, .time, .head] s (execRestartSpacingEnd s) := by
  unfold execRestartSpacingEnd; simp [passTo_frame ..]

theorem execEngineProgressCheck_changes (stalled ecc : BitVec 16) (s : State) :
    Changes [.set, .store, .clk, .time, .front, .prog, .mix, .port, .link, .stats, .health, .compat, .out, .fresh] s
      (execEngineProgressCheck stalled ecc s) := by
  unfold execEngineProgressCheck; simp [checkEngine_frame .., pass_frame ..]

theorem execContextSnapshot_changes (s : State) :
    Changes [.clk, .time, .prog, .health] s (execContextSnapshot s) := by
  unfold execContextSnapshot; simp [passTo_frame ..]

theorem execTimberScrub_changes (words : List Nat) (s : State) :
    Changes [.clk, .time, .port, .health, .out] s (execTimberScrub words s) := by
  unfold execTimberScrub; simp [passTo_frame .., correctWord_frame ..]

theorem execTimberEccError_changes (word : Nat) (holds : TimberUse) (bad : Bool) (s : State) :
    Changes [.prog, .mix, .port, .health, .out, .fresh] s (execTimberEccError word holds bad s) := by
  unfold execTimberEccError; simp [poison_frame .., spareRow_frame .., correctWord_frame ..]

theorem execBlockFault_changes (island : Nat) (s : State) :
    Changes [.prog, .mix, .port, .health, .compat, .out, .fresh] s (execBlockFault island s) := by
  unfold execBlockFault; simp [gapWindow_frame ..]

theorem execHealthLogDelivery_changes (s : State) :
    Changes [.clk, .time, .port, .health, .out] s (execHealthLogDelivery s) := by
  unfold execHealthLogDelivery; refine changes_next.2 ?_; dsimp only
  (repeat' split) <;> simp [passTo_frame .., offerShaving_frame ..]

/-- Every command changes only the parts that its line of the table lists (R17, R327). -/
theorem exec_changes (c : Instr) (s : State) : Changes (touches c) s (exec c s) := by
  cases c with
  | powerOnReset => exact execPowerOnReset_changes s
  | porRelease b => exact execPorRelease_changes b s
  | nresetAccepted widthNs => exact execNresetAccepted_changes widthNs s
  | nresetRelease b => exact execNresetRelease_changes b s
  | islandClockGood isl => exact execIslandClockGood_changes isl s
  | islandHeld isl => exact execIslandHeld_changes isl s
  | sequenceRepeat b => exact execSequenceRepeat_changes b s
  | haltBusRead isWrite => exact execHaltBusRead_changes isWrite s
  | selfTestRerun pass b => exact execSelfTestRerun_changes pass b s
  | aonCrystalSwitch => exact execAonCrystalSwitch_changes s
  | aonRcTimeout => exact execAonRcTimeout_changes s
  | railGood r => exact execRailGood_changes r s
  | vddPaLow => exact execVddPaLow_changes s
  | wakeHigh widthUs => exact execWakeHigh_changes widthUs s
  | twoWireWake => exact execTwoWireWake_changes s
  | aonAlarm => exact execAonAlarm_changes s
  | modeTransitionDone => exact execModeTransitionDone_changes s
  | settingsCommitTimer => exact execSettingsCommitTimer_changes s
  | linkCountersSnapshot => exact execLinkCountersSnapshot_changes s
  | recordWriteDone => exact execRecordWriteDone_changes s
  | calRecordWrite => exact execCalRecordWrite_changes s
  | loopLossOfLock l => exact execLoopLossOfLock_changes l s
  | loopRelockAttempt l => exact execLoopRelockAttempt_changes l s
  | loopRelock l outageUs => exact execLoopRelock_changes l outageUs s
  | kerfBufferFull w => exact execKerfBufferFull_changes w s
  | refStop => exact execRefStop_changes s
  | refReturn => exact execRefReturn_changes s
  | ppsEdge rising sub => exact execPpsEdge_changes rising sub s
  | tenMhzWindow m => exact execTenMhzWindow_changes m s
  | referenceLost => exact execReferenceLost_changes s
  | plumbStep => exact execPlumbStep_changes s
  | timeSetApply => exact execTimeSetApply_changes s
  | wordClockLost => exact execWordClockLost_changes s
  | wordClockLocked => exact execWordClockLocked_changes s
  | getIdentity f => exact changes_reading fun _ => rfl
  | setMode f => exact execSetMode_changes f s
  | factoryDefaults f => exact execFactoryDefaults_changes f s
  | portDeclare f => exact execPortDeclare_changes f s
  | getPortDeclare f => exact changes_reading fun _ => rfl
  | alarmSet f => exact execAlarmSet_changes f s
  | getAlarm f => exact changes_reading fun _ => rfl
  | echo f => exact changes_reading fun _ => rfl
  | unassignedOpcode opcode f => exact execUnassignedOpcode_changes opcode f s
  | timeConfig f => exact execTimeConfig_changes f s
  | getTimeConfig f => exact changes_reading fun _ => rfl
  | timeSet f => exact execTimeSet_changes f s
  | windowOpen f => exact execWindowOpen_changes f s
  | windowOpenDone w => exact execWindowOpenDone_changes w s
  | windowRetune f => exact execWindowRetune_changes f s
  | retuneDone w => exact execRetuneDone_changes w s
  | windowClose f => exact execWindowClose_changes f s
  | windowClosed w => exact execWindowClosed_changes w s
  | lingerExpiry t => exact execLingerExpiry_changes t s
  | getWindow f => exact changes_reading fun _ => rfl
  | windowGang f => exact execWindowGang_changes f s
  | windowUngang f => exact execWindowUngang_changes f s
  | lnaConfig f => exact execLnaConfig_changes f s
  | getLnaConfig f => exact changes_reading fun _ => rfl
  | tunerFailure t => exact execTunerFailure_changes t s
  | failedWindowReopen w => exact execFailedWindowReopen_changes w s
  | agcUpdate w m => exact execAgcUpdate_changes w m s
  | lnaBypass n => exact execLnaBypass_changes n s
  | lnaReturn n => exact execLnaReturn_changes n s
  | agcFreezeCap => exact execAgcFreezeCap_changes s
  | surveyConfig f => exact execSurveyConfig_changes f s
  | getSurveyConfig f => exact changes_reading fun _ => rfl
  | surveyList f => exact changes_reading fun _ => rfl
  | surveySpectrumDone pts => exact execSurveySpectrumDone_changes pts s
  | surveyDwellEnd c r => exact execSurveyDwellEnd_changes c r s
  | surveyPassEnd => exact execSurveyPassEnd_changes s
  | receptionAdd f => exact execReceptionAdd_changes f s
  | receptionSet f => exact execReceptionSet_changes f s
  | receptionRemove f => exact execReceptionRemove_changes f s
  | receptionRemoved r => exact execReceptionRemoved_changes r s
  | getReception f => exact changes_reading fun _ => rfl
  | branchAdd f => exact execBranchAdd_changes f s
  | branchRemove f => exact execBranchRemove_changes f s
  | tapAdd f => exact execTapAdd_changes f s
  | tapRemove f => exact execTapRemove_changes f s
  | objectRemoved cls idx => exact execObjectRemoved_changes cls idx s
  | getChain f => exact changes_reading fun _ => rfl
  | alertSet f => exact execAlertSet_changes f s
  | getAlert f => exact changes_reading fun _ => rfl
  | chainBlock o b => exact execChainBlock_changes o b s
  | settleCountDone o => exact execSettleCountDone_changes o s
  | chainBankChanged o => exact execChainBankChanged_changes o s
  | delayChangeApply o => exact execDelayChangeApply_changes o s
  | frequencyChangeApply o => exact execFrequencyChangeApply_changes o s
  | receptionAcquired r => exact execReceptionAcquired_changes r s
  | receptionLost r => exact execReceptionLost_changes r s
  | trackingHoldExpiry r => exact execTrackingHoldExpiry_changes r s
  | pilotDecision r => exact execPilotDecision_changes r s
  | syncLoopFallback r => exact execSyncLoopFallback_changes r s
  | syncLoopRestore r => exact execSyncLoopRestore_changes r s
  | mpxShaving r => exact execMpxShaving_changes r s
  | rdsBlock r stream => exact execRdsBlock_changes r stream s
  | measurementIntervalEnd p => exact execMeasurementIntervalEnd_changes p s
  | momentaryLoudness p => exact execMomentaryLoudness_changes p s
  | silenceBegan p => exact execSilenceBegan_changes p s
  | dabCif r c => exact execDabCif_changes r c s
  | drmFrame r d => exact execDrmFrame_changes r d s
  | drmSuperframe r d => exact execDrmSuperframe_changes r d s
  | controlChannelTimeout r => exact execControlChannelTimeout_changes r s
  | decodeResumed p => exact execDecodeResumed_changes p s
  | receptionReconfigured r => exact execReceptionReconfigured_changes r s
  | programmeAbsentExpiry p => exact execProgrammeAbsentExpiry_changes p s
  | transportUnit p u => exact execTransportUnit_changes p u s
  | motIdleExpiry p tid => exact execMotIdleExpiry_changes p tid s
  | programmeSelect f => exact execProgrammeSelect_changes f s
  | programmeMeasure f => exact execProgrammeMeasure_changes f s
  | getProgramme f => exact changes_reading fun _ => rfl
  | programmeList f => exact changes_reading fun _ => rfl
  | pcmRoute f => exact execPcmRoute_changes f s
  | pcmRemove f => exact execPcmRemove_changes f s
  | getPcm f => exact changes_reading fun _ => rfl
  | tdmConfig f => exact execTdmConfig_changes f s
  | tdmConfigApply port => exact execTdmConfigApply_changes port s
  | getTdmConfig f => exact changes_reading fun _ => rfl
  | pcmUnderrun o => exact execPcmUnderrun_changes o s
  | pcmFifoRefilled o => exact execPcmFifoRefilled_changes o s
  | pcmShaving o => exact execPcmShaving_changes o s
  | followerPortLost port m => exact execFollowerPortLost_changes port m s
  | followerPortResume port good => exact execFollowerPortResume_changes port good s
  | ringBind f => exact execRingBind_changes f s
  | getBind f => exact changes_reading fun _ => rfl
  | getPortLoad f => exact changes_reading fun _ => rfl
  | followSet f => exact execFollowSet_changes f s
  | followRemove f => exact execFollowRemove_changes f s
  | getFollow f => exact changes_reading fun _ => rfl
  | probeAdd f => exact execProbeAdd_changes f s
  | probeSet f => exact execProbeSet_changes f s
  | probeRemove f => exact execProbeRemove_changes f s
  | getProbe f => exact changes_reading fun _ => rfl
  | blendSet f => exact execBlendSet_changes f s
  | blendRemove f => exact execBlendRemove_changes f s
  | blendFade f => exact execBlendFade_changes f s
  | getBlend f => exact changes_reading fun _ => rfl
  | gaugeMetric fo m => exact execGaugeMetric_changes fo m s
  | retarget fo => exact execRetarget_changes fo s
  | probeDwellEnd pr => exact execProbeDwellEnd_changes pr s
  | glanceEnd fo => exact execGlanceEnd_changes fo s
  | candidateExpiry fo freq kind => exact execCandidateExpiry_changes fo freq kind s
  | rejectionExpiry fo freq kind => exact execRejectionExpiry_changes fo freq kind s
  | scarfCorrelation b => exact execScarfCorrelation_changes b s
  | fadeEnd b => exact execFadeEnd_changes b s
  | drainDone b => exact execDrainDone_changes b s
  | buildDone b => exact execBuildDone_changes b s
  | alignmentWaitExpiry b => exact execAlignmentWaitExpiry_changes b s
  | bankLoad f => exact execBankLoad_changes f s
  | getBank f => exact changes_reading fun _ => rfl
  | curveLoad f => exact execCurveLoad_changes f s
  | getCurve f => exact changes_reading fun _ => rfl
  | calRun f => exact execCalRun_changes f s
  | calConfig f => exact execCalConfig_changes f s
  | getCal f => exact changes_reading fun _ => rfl
  | getAgeing f => exact changes_reading fun _ => rfl
  | supplyConfig f => exact execSupplyConfig_changes f s
  | getSupplyConfig f => exact changes_reading fun _ => rfl
  | temperatureComparison temps => exact execTemperatureComparison_changes temps s
  | pendingRunStart a => exact execPendingRunStart_changes a s
  | elementStatisticsDone a m => exact execElementStatisticsDone_changes a m s
  | elementInterruptionEnd a => exact execElementInterruptionEnd_changes a s
  | fadeDeferExpiry a => exact execFadeDeferExpiry_changes a s
  | calRetry a => exact execCalRetry_changes a s
  | iqEstimate a m => exact execIqEstimate_changes a m s
  | iqRampEnd a => exact execIqRampEnd_changes a s
  | alignmentStep a m => exact execAlignmentStep_changes a m s
  | grainAssessment m => exact execGrainAssessment_changes m s
  | avsRaise margins => exact execAvsRaise_changes margins s
  | avsLower margins => exact execAvsLower_changes margins s
  | clockPlanChange => exact execClockPlanChange_changes s
  | linkConfig f => exact execLinkConfig_changes f s
  | getLinkConfig f => exact changes_reading fun _ => rfl
  | linkSend f => exact execLinkSend_changes f s
  | linkStop f => exact execLinkStop_changes f s
  | linkStopped => exact execLinkStopped_changes s
  | gatherConfig f => exact execGatherConfig_changes f s
  | gatherConfigApply => exact execGatherConfigApply_changes s
  | getGatherConfig f => exact changes_reading fun _ => rfl
  | getLinkStats f => exact changes_reading fun _ => rfl
  | beaconTransmit => exact execBeaconTransmit_changes s
  | beaconWindowOpen => exact execBeaconWindowOpen_changes s
  | beaconMissed => exact execBeaconMissed_changes s
  | searchWindow => exact execSearchWindow_changes s
  | frameQualified lane c => exact execFrameQualified_changes lane c s
  | headerCheck lane sl bits => exact execHeaderCheck_changes lane sl bits s
  | frameReceived lane sl m => exact execFrameReceived_changes lane sl m s
  | slotTransmit => exact execSlotTransmit_changes s
  | fallbackTransmit => exact execFallbackTransmit_changes s
  | downlinkTransmit => exact execDownlinkTransmit_changes s
  | radioTransitionDone => exact execRadioTransitionDone_changes s
  | transmitKill => exact execTransmitKill_changes s
  | recentFrameExpiry => exact execRecentFrameExpiry_changes s
  | ring28EntryTaken => exact execRing28EntryTaken_changes s
  | keyInstall f => exact execKeyInstall_changes f s
  | keyZeroise f => exact execKeyZeroise_changes f s
  | fwUpdateBegin f => exact execFwUpdateBegin_changes f s
  | fwUpdatePart f => exact execFwUpdatePart_changes f s
  | fwUpdateCommit f => exact execFwUpdateCommit_changes f s
  | regionProfileInstall f => exact execRegionProfileInstall_changes f s
  | testUnlock f => exact execTestUnlock_changes f s
  | getSecurity f => exact changes_reading fun _ => rfl
  | entropyTestFailure => exact execEntropyTestFailure_changes s
  | drbgReseed => exact execDrbgReseed_changes s
  | busXfer f => exact execBusXfer_changes f s
  | controllerTransferEnd r => exact execControllerTransferEnd_changes r s
  | gpioConfig f => exact execGpioConfig_changes f s
  | getGpio f => exact execGetGpio_changes f s
  | planBegin f => exact execPlanBegin_changes f s
  | planPart f => exact execPlanPart_changes f s
  | planCommit f => exact execPlanCommit_changes f s
  | planDiscard f => exact execPlanDiscard_changes f s
  | getPlan f => exact changes_reading fun _ => rfl
  | ringPop port ring clocked => exact execRingPop_changes port ring clocked s
  | ringPush port ring bytes ending => exact execRingPush_changes port ring bytes ending s
  | status port => exact execStatus_changes port s
  | bareRead clocked => exact execBareRead_changes clocked s
  | twoWireStuckTimeout => exact execTwoWireStuckTimeout_changes s
  | regWrite port off val nbytes => exact execRegWrite_changes port off val nbytes s
  | dtLoRead port wide => exact execDtLoRead_changes port wide s
  | dtHiRead port => exact execDtHiRead_changes port s
  | timeStatusRead port => exact execTimeStatusRead_changes port s
  | intClear mask => exact execIntClear_changes mask s
  | doorbell mask => exact execDoorbell_changes mask s
  | headWrite port ring val => exact execHeadWrite_changes port ring val s
  | tailWrite port ring val => exact execTailWrite_changes port ring val s
  | ringEnableWrite port ring policy => exact execRingEnableWrite_changes port ring policy s
  | quotaWrite port ring val => exact execQuotaWrite_changes port ring val s
  | ringStatusClear ring val => exact execRingStatusClear_changes ring val s
  | fetchTimer ring => exact execFetchTimer_changes ring s
  | hostRingFetchDone ring bytes => exact execHostRingFetchDone_changes ring bytes s
  | stagedEntryDma ring => exact execStagedEntryDma_changes ring s
  | ringDisableDrained ring => exact execRingDisableDrained_changes ring s
  | intTimeout ring => exact execIntTimeout_changes ring s
  | pcieRingsDisabled cause => exact execPcieRingsDisabled_changes cause s
  | busMasterEnable => exact execBusMasterEnable_changes s
  | pcieRetrain gen width => exact execPcieRetrain_changes gen width s
  | attentionMessage => exact execAttentionMessage_changes s
  | attentionRetry => exact execAttentionRetry_changes s
  | attentionRepeat => exact execAttentionRepeat_changes s
  | supplyWrite r => exact execSupplyWrite_changes r s
  | supplyWriteRetry => exact execSupplyWriteRetry_changes s
  | busNotFreeTimeout => exact execBusNotFreeTimeout_changes s
  | busRecoveryRepeat pulses => exact execBusRecoveryRepeat_changes pulses s
  | watchdogExpiry => exact execWatchdogExpiry_changes s
  | headstockFault ecc => exact execHeadstockFault_changes ecc s
  | firmwareRestarted => exact execFirmwareRestarted_changes s
  | restartDelayExpiry => exact execRestartDelayExpiry_changes s
  | restartSpacingEnd => exact execRestartSpacingEnd_changes s
  | engineProgressCheck stalled ecc => exact execEngineProgressCheck_changes stalled ecc s
  | contextSnapshot => exact execContextSnapshot_changes s
  | timberScrub words => exact execTimberScrub_changes words s
  | timberEccError word holds bad => exact execTimberEccError_changes word holds bad s
  | blockFault island => exact execBlockFault_changes island s
  | healthLogDelivery => exact execHealthLogDelivery_changes s
  | controlTune => exact execControlTune_changes s
  | controlPowerDown => exact execControlPowerDown_changes s
  | controlDefaults => exact execControlDefaults_changes s
  | updateKeyUpdate gapMs => exact execUpdateKeyUpdate_changes gapMs s
  | updateKeyZeroise gapMs => exact execUpdateKeyZeroise_changes gapMs s
  | chCtrlWrite c v => exact execChCtrlWrite_changes c v s
  | irqFlagsWrite v => exact execIrqFlagsWrite_changes v s
  | fifoLevelRead => exact execFifoLevelRead_changes s
  | fifoDataRead => exact execFifoDataRead_changes s
  | compatRegWrite off bytes => exact execCompatRegWrite_changes off bytes s
  | downlinkWindowOpen => exact execDownlinkWindowOpen_changes s
  | transmissionEnd => exact execTransmissionEnd_changes s
  | vddPaGood => exact execVddPaGood_changes s
  | busFree => exact execBusFree_changes s
  | pcieLinkTrained gen width => exact execPcieLinkTrained_changes gen width s

/-- Settles O46, command by command. -/
theorem eachCommandChangesOnlyItsParts : Obligations.EachCommandChangesOnlyItsParts :=
  fun c s t p h hp => exec_changes c s t h p hp

end Sys2Proof.Machine
end

section
/-!
PROOF. The step (O40), and commands whose operands name no unit of the device (O45).
-/

namespace Sys2Proof.Machine

/-- Settles O40, by the definition of a step on a queue with a command at its front. -/
theorem stepRunsTheFrontCommand : Obligations.StepRunsTheFrontCommand := by
  intro c l s h
  unfold step
  rw [h]

/-- A device that receives a DRM30 transmission, whose engine has completed one frame. -/
def drmListener : State :=
  { clk := { refOn := true, sysPll := .locked }
    prog := { receptions := [{ kind := .drm30, rx := .acquired, ofdm := { marks := [{}] }
                               chain := { kind := .drm30, state := .running, covered := true } }] } }

theorem drmMode5_offDevice : (Instr.drmFrame 0 { mode := 5 }).offDevice = true := by decide

/-- The robustness modes end at 4, yet a frame of mode 5 is counted, and its mark leaves the engine's list (R245). -/
theorem drmMode5_takesMark :
    ∃ t, exec (.drmFrame 0 { mode := 5 }) drmListener = .next t ∧ (receptionAt t 0).map (·.ofdm.marks) = some [] :=
  ⟨_, rfl, rfl⟩

/-- Refutes O45 in its second clause: a DRM frame of robustness mode 5 counts among the events that name no unit of the device
(log 133), and it changes the reception all the same. -/
theorem not_everyCommandCompletes : ¬ Obligations.EveryCommandCompletes := by
  rintro ⟨_, h⟩
  obtain ⟨t, ht, taken⟩ := drmMode5_takesMark
  have e := ht.symm.trans (h _ drmListener drmMode5_offDevice)
  injection e with e
  rw [e] at taken
  exact absurd taken (by decide)

end Sys2Proof.Machine
end

section
/-!
PROOF. The commands that store settings (O5).
-/

namespace Sys2Proof.Machine

/-- A command stores settings and nothing else when its body replies and sets what does not depend on what taking a frame may touch. -/
theorem sets_independent {op : Nat} {f : CmdFrame} {c : State → Checks} {s : State} (h : Accepted op f c s)
    (hl : s.port.rings.length = 32) {g : State → Settings} {r : State → Reply}
    (hg : ∀ p o b x, g { s with port := p, out := o, bus := b, head := { s.head with blocked := x } } = g s)
    (hr : ∀ p o b x, r { s with port := p, out := o, bus := b, head := { s.head with blocked := x } } = r s) :
    Sets op f (r s) (g s) s (.next (command op f c (fun u => (setSettings (g u) u, some (r u))) s)) :=
  sets_accepted h hl fun u hu => by rw [hu.same g hg, hu.same r hr]

/-- Settles O5: each body stores the clamped fields of the payload in its own settings, and replies. -/
theorem settingsCommandsChangeOnlySettings : Obligations.SettingsCommandsChangeOnlySettings := by
  unfold Obligations.SettingsCommandsChangeOnlySettings
  refine ⟨fun f s hl h => ?alarm, fun f s hl h => ?lna, fun f s hl h => ?survey, fun f s hl h => ?tdm, fun f s hl h => ?cal⟩
  case alarm =>
    exact sets_independent h hl (g := fun u => { u.set with alarm := alarmAsked u f })
      (r := fun u => { target := f.target, clamped := alarmAsked u f != field f.payload 0 8 })
      (fun _ _ _ _ => rfl) (fun _ _ _ _ => rfl)
  case lna =>
    exact sets_independent h hl (g := fun u => { u.set with lna := lnaAsked f }) (r := fun _ => _)
      (fun _ _ _ _ => rfl) (fun _ _ _ _ => rfl)
  case survey =>
    exact sets_independent h hl (g := fun u => { u.set with survey := readSurvey f.payload }) (r := fun _ => _)
      (fun _ _ _ _ => rfl) (fun _ _ _ _ => rfl)
  case tdm =>
    exact sets_independent h hl
      (g := fun u => { u.set with tdm := setAt u.set.tdm (satNat 3 (field f.payload 0 1)) (readTdm f.payload) })
      (r := fun _ => _) (fun _ _ _ _ => rfl) (fun _ _ _ _ => rfl)
  case cal =>
    exact sets_independent h hl (g := fun u => { u.set with calStep := clampNat 2 20 (field f.payload 0 1) })
      (r := fun _ => _) (fun _ _ _ _ => rfl) (fun _ _ _ _ => rfl)

end Sys2Proof.Machine
end

section
/-!
PROOF. SET_MODE, the end of a transition to IDLE, and the wake sources in HOLD (O34).
-/

namespace Sys2Proof.Machine

/-- A transition to another mode than HOLD and TEST has no work of its own beside leaving the present mode (R37, R41, R505). -/
theorem beginTransition_leaves {m : Mode} (hh : m ≠ .hold) (ht : m ≠ .test) (cause : Option Nat) (s : State) :
    beginTransition m cause s =
      { leaveMode cause s with head := { (leaveMode cause s).head with transition := some m } } := by
  unfold beginTransition
  split
  · contradiction
  · contradiction
  · rfl

/-- The mode a frame asks for does not depend on what taking a frame may touch. -/
theorem ReadsOnly.askedMode {s u : State} (h : ReadsOnly s u) (f : CmdFrame) : askedMode u f = Machine.askedMode s f :=
  h.same (Machine.askedMode · f) fun _ _ _ _ => rfl

/-- SET_MODE to another mode than the present one, HOLD and TEST begins the transition and leaves settings and keys (R34, R36). -/
theorem setModeBody_begins {f : CmdFrame} {s : State} (hm : askedMode s f ≠ s.set.mode) (hh : askedMode s f ≠ .hold)
    (ht : askedMode s f ≠ .test) : (setModeBody f s).1.head.transition = some (askedMode s f) ∧
      (setModeBody f s).1.set = s.set ∧ (setModeBody f s).1.sec = s.sec := by
  unfold setModeBody
  simp [hm, hh, beginTransition_leaves hh ht, leaveMode_frame ..]

/-- SET_MODE to the present mode replies the MODE word and changes nothing (R362). -/
theorem setModeBody_same {f : CmdFrame} {s : State} (h : askedMode s f = s.set.mode) : setModeBody f s =
    (s, some { target := f.target, clamped := modeClamped f, payload := leBytes 4 (modeWord s).toNat }) := by
  unfold setModeBody; exact if_pos h

/-- A transition to IDLE is done as soon as the Headstock's clock runs (R36). -/
theorem modeTransitionDone_idle {s : State} (hc : clockRuns s 6 = true) (h : s.head.transition = some .idle) :
    exec .modeTransitionDone s = .next (finishTransition .idle s) := by
  show execModeTransitionDone s = _
  unfold execModeTransitionDone within
  simp [hc, h, transitionReady]

/-- WAKE, high for 65 us or more, is a wake source; its level afterwards is open (R574). -/
theorem wakeHigh_wakes {us : Nat} {s : State} (hp : s.pwr.porAsserted = false) (hw : 65 ≤ us) :
    ∃ n b, exec (.wakeHigh us) s = .next (wakeSource 1 { s with fresh := n, pwr := { s.pwr with wakePin := b } }) := by
  refine ⟨s.fresh + 1 + 1, Config.freeBool (s.fresh + 1), ?_⟩
  show execWakeHigh us s = _
  unfold execWakeHigh
  simp [hp, hw, drawBool]

/-- In HOLD a two-wire transaction to the address is a wake source; it is answered NAK (R393). -/
theorem twoWireWake_wakes {s : State} (hm : s.set.mode = .hold) (hs : s.pwr.stage = .running) :
    exec .twoWireWake s = .next (wakeSource 2 (emit (.nak 0) s)) := by
  show execTwoWireWake s = _
  unfold execTwoWireWake
  simp [hm, hs]

/-- What the AON alarm leaves before it wakes the device: its second has come, and the alarm is cleared (R364). -/
def alarmReached (s : State) : State :=
  setSettings { s.set with alarm := 0 } (pass (s.set.alarm * ticksPerSecond - s.time.count.toNat) s)

theorem alarmReached_parts (s : State) : (alarmReached s).set = { s.set with alarm := 0 } ∧ (alarmReached s).pwr = s.pwr ∧
    (alarmReached s).plan = s.plan ∧ (alarmReached s).sec = s.sec ∧
    now (alarmReached s) = now s + (s.set.alarm * ticksPerSecond - s.time.count.toNat) := by
  unfold alarmReached
  simp [setSettings, settingsDirty, pass_frame .., now]

/-- The AON alarm of an armed device is a wake source (R364). -/
theorem aonAlarm_wakes {s : State} (hp : s.pwr.porAsserted = false) (ha : s.set.alarm ≠ 0) :
    exec .aonAlarm s = .next (wakeSource 3 (alarmReached s)) := by
  have e : (pass (s.set.alarm * ticksPerSecond - s.time.count.toNat) s).set = s.set := by simp [pass_frame ..]
  show execAonAlarm s = _
  unfold execAonAlarm alarmReached
  simp [hp, ha, e]

/-- Settles O34: SET_MODE by its body, the end of a transition and the three wake sources by the shared wake to IDLE. -/
theorem modesChangeAsCommanded : Obligations.ModesChangeAsCommanded := by
  unfold Obligations.ModesChangeAsCommanded
  refine ⟨fun f s h hm hh ht _ => ?begins, fun f s hl h hm => ?same, fun s hc ht hm hh => ?done,
    fun s us hm hp hs hw hc hr => ?wakeHigh, fun s hm hs hc hr => ?twoWire, fun s hm hs hp ha hc hr => ?alarm⟩
  case begins =>
    refine defers_accepted h (P := fun t => t.head.transition = some (askedMode s f) ∧ t.set = s.set ∧ t.sec = s.sec)
      (fun t u k ht => ?_) (fun u hu _ => ?_)
    · unfold PortOut at k; rw [k]; exact ht
    · obtain ⟨-, -, ⟨hset, -⟩, ⟨hsec, -⟩, -⟩ := hu.parts
      have e := setModeBody_begins (f := f) (s := u) (by rwa [hu.askedMode, hset]) (by rwa [hu.askedMode])
        (by rwa [hu.askedMode])
      rwa [hu.askedMode, hset, hsec] at e
  case same =>
    refine reads_accepted h hl fun u hu => ?_
    obtain ⟨-, -, ⟨hset, -⟩, -⟩ := hu.parts
    rw [setModeBody_same (by rw [hu.askedMode, hset, hm]), hu.same modeWord fun _ _ _ _ => rfl]
  case done => exact ⟨_, modeTransitionDone_idle hc ht, finishTransition_idle hm hh⟩
  case wakeHigh =>
    obtain ⟨n, b, e⟩ := wakeHigh_wakes hp hw
    obtain ⟨hset, href, hsys, hsp, hap, hplan, hsec, -⟩ :=
      wakeSource_idle (n := 1) (s := { s with fresh := n, pwr := { s.pwr with wakePin := b } }) hm hs hc hr
    exact ⟨_, e, hset, href, hsys, hsp, hap, hplan, hsec⟩
  case twoWire =>
    obtain ⟨hset, href, hsys, -, -, hplan, hsec, -⟩ := wakeSource_idle (n := 2) (s := emit (.nak 0) s) hm hs hc hr
    exact ⟨_, twoWireWake_wakes hm hs, hset, href, hsys, hplan, hsec⟩
  case alarm =>
    obtain ⟨aset, apwr, aplan, asec, anow⟩ := alarmReached_parts s
    obtain ⟨hset, href, -, -, -, hplan, hsec, hnow⟩ := wakeSource_idle (n := 3) (s := alarmReached s)
      (by rw [aset]; exact hm) (by rw [apwr]; exact hs) (by unfold hostConfig; rw [apwr]; exact hc) (by rw [aset]; exact hr)
    exact ⟨_, aonAlarm_wakes hp ha, by rw [hset, aset], href, hnow.trans anow, hplan.trans aplan, hsec.trans asec⟩

end Sys2Proof.Machine
end

section
/-!
PROOF. When the records of the settings store are written, and what FACTORY_DEFAULTS leaves (O35).
-/

namespace Sys2Proof.Machine

/-- The settings as accepted do not depend on the time that passes. -/
theorem settingsAccepted_passTo (d : Nat) (s : State) : settingsAccepted (passTo d s) = settingsAccepted s := by
  rw [passTo_only]; rfl

/-- The settings record joins the queue, and the settings are clean (R50). -/
theorem writeSettings_store (s : State) : (writeSettings s).2.store.dirtyFirst = none ∧
    (writeSettings s).2.store.dirtyLast = none ∧ (writeSettings s).2.store.queue = s.store.queue ++
      [{ id := s.store.nextJob, kind := .settings, content := .settings (settingsAccepted s), length := 8192 }] :=
  ⟨rfl, rfl, (queueWrite_queue _ _ _ _ _).1⟩

/-- The link counters record joins the queue (R50). -/
theorem writeCounters_queue (s : State) : (writeCounters s).store.queue = s.store.queue ++
    [{ id := s.store.nextJob, kind := .counters, content := .counters (countersNow s), length := 36864 }] :=
  (queueWrite_queue _ _ _ _ _).1

/-- The calibration record joins the queue as it then stands, and nothing of it waits to be written (R509). -/
theorem writeCal_store (s : State) : (writeCal s).store.calDirty = false ∧ (writeCal s).store.calLastWrite = some (now s) ∧
    (writeCal s).store.queue = s.store.queue ++
      [{ id := s.store.nextJob, kind := .calibration, content := .calibration (writeCal s).cal.record, length := 16384 }] := by
  refine ⟨rfl, ?_, ?_⟩
  · unfold writeCal; simp [now, foldHours_frame ..]
  · unfold writeCal; simp [(queueWrite_queue ..).1, foldHours_frame ..]

/-! ### The timers (R50, R509) -/

theorem settingsCommitTimer_writes {s : State} {a : Nat} (h : s.store.dirtyFirst = some a) (hr : s.pwr.stage ≠ .recovery) :
    exec .settingsCommitTimer s =
      .next (writeSettings (passTo (min (s.store.dirtyLast.getD a + ticksPerSecond) (a + 5 * ticksPerSecond)) s)).2 := by
  show execSettingsCommitTimer s = _
  unfold execSettingsCommitTimer
  simp [h, hr]

/-- The instant of the 60 s snapshot, noted in the link's state (R50). -/
def snapshotTaken (s : State) : State :=
  let u := passTo (s.link.snapAt + 60 * ticksPerSecond) s
  { u with link := { u.link with snapAt := now u } }

theorem linkCountersSnapshot_writes {s : State} (h : s.set.link.role ≠ 0) (hr : s.pwr.stage ≠ .recovery) :
    exec .linkCountersSnapshot s = .next (writeCounters (snapshotTaken s)) := by
  show execLinkCountersSnapshot s = _
  unfold execLinkCountersSnapshot
  simp [h, hr, snapshotTaken]

theorem calRecordWrite_writes {s : State} {w : Nat} (h : s.store.calDirty = true) (hw : s.store.calLastWrite = some w)
    (hr : s.pwr.stage ≠ .recovery) :
    exec .calRecordWrite s = .next (writeCal (passTo (w + 60 * ticksPerSecond) s)) := by
  show execCalRecordWrite s = _
  unfold execCalRecordWrite
  simp [h, hw, hr]

/-- The loader of a recovery boot leaves the settings store as it is (R90). -/
theorem recovery_writesNothing {s : State} (h : s.pwr.stage = .recovery) : exec .settingsCommitTimer s = .next s ∧
    exec .linkCountersSnapshot s = .next s ∧ exec .calRecordWrite s = .next s := by
  refine ⟨?_, ?_, ?_⟩
  · show execSettingsCommitTimer s = _
    unfold execSettingsCommitTimer; cases s.store.dirtyFirst <;> simp [h]
  · show execLinkCountersSnapshot s = _
    unfold execLinkCountersSnapshot; simp [h]
  · show execCalRecordWrite s = _
    unfold execCalRecordWrite; simp [h]

/-! ### The end of a write (R54, R525) -/

/-- The end of a write of the calibration record takes it off the queue and counts (R54, R525). -/
theorem finishJob_calibration {j : WriteJob} (h : j.kind = .calibration) (rest : List WriteJob) (s : State) :
    finishJob j rest s = { s with store := endFirst j rest s.store, cal := { s.cal with writes := s.cal.writes + 1 } } := by
  unfold finishJob; simp only [h]

/-- With no response and no plan commit waiting for it, the end of a write of the calibration record does nothing else. -/
theorem recordWriteDone_calibration {s : State} {j : WriteJob} {rest : List WriteJob} (hq : s.store.queue = j :: rest)
    (hj : j.kind = .calibration) (hs : s.plan.starting = false) (hd : s.head.deferred = []) :
    exec .recordWriteDone s =
      .next { s with store := endFirst j rest s.store, cal := { s.cal with writes := s.cal.writes + 1 } } := by
  show execRecordWriteDone s = _
  unfold execRecordWriteDone
  simp only [hq]
  rw [finishJob_calibration hj, release_none (by simp [hd])]
  exact congrArg _ (commitProgress_idle hs (by simp [hd]))

/-! ### FACTORY_DEFAULTS (R61, R603) -/

/-- An emptied plan has the shipped bindings and no user bank (R61, R159). -/
theorem emptyPlan_ships (tag : Nat) (s : State) : (emptyPlan tag s).plan.binds = shippedBinds ∧
    ∀ b ∈ (emptyPlan tag s).mix.banks, b.kind = none := by
  unfold emptyPlan
  dsimp only
  refine ⟨rfl, fun b hb => ?_⟩
  obtain ⟨a, -, rfl⟩ := List.mem_map.mp hb
  rfl

/-- The device with an emptied plan whose write is queued, before the shipped settings take effect (R61, R344). -/
def planShipped (tag : Nat) (s : State) : State := writePlan (bumpPlan (emptyPlan tag s))

theorem planShipped_parts (tag : Nat) (s : State) : (planShipped tag s).set = s.set ∧ (planShipped tag s).sec = s.sec ∧
    (planShipped tag s).plan.binds = shippedBinds ∧ ∀ b ∈ (planShipped tag s).mix.banks, b.kind = none := by
  obtain ⟨hbinds, hbanks⟩ := emptyPlan_ships tag s
  unfold planShipped
  simp only [writePlan_frame .., bumpPlan_frame .., emptyPlan_frame .., bumpPlan_plan]
  exact ⟨trivial, trivial, hbinds, hbanks⟩

/-- FACTORY_DEFAULTS outside COMPAT: the plan is emptied, the settings are the shipped ones, and the tuners go off (R61, R62). -/
theorem factoryDefaultsBody_parts {f : CmdFrame} {s : State} (hm : s.set.mode = .idle) (hl : s.set.link.role = 0)
    (ht : s.set.time.ref = 0) :
    (∃ l, (factoryDefaultsBody f s).1.set = { shippedSettings (planShipped f.tag s) with rings := l }) ∧
    (factoryDefaultsBody f s).1.plan = (planShipped f.tag s).plan ∧ (factoryDefaultsBody f s).1.mix = (planShipped f.tag s).mix ∧
    (factoryDefaultsBody f s).1.sec = (planShipped f.tag s).sec := by
  obtain ⟨hset, -⟩ := planShipped_parts f.tag s
  have e := applyShipped_set (tag := f.tag) (s := planShipped f.tag s) (by rw [hset]; exact hl) (by rw [hset]; exact ht)
  have idle : (applyShipped f.tag (planShipped f.tag s)).set.mode ≠ .compat := by rw [e]; simp [shippedSettings, hset, hm]
  have body : (factoryDefaultsBody f s).1 = tunersOff (deferOn (.write (writeSettings (applyShipped f.tag (planShipped f.tag s))).1)
      (deferredOf 0x0102 f false) (writeSettings (applyShipped f.tag (planShipped f.tag s))).2) := by
    unfold factoryDefaultsBody
    exact if_neg (by simpa [planShipped, writeSettings_frame ..] using idle)
  rw [body]
  simp only [tunersOff_frame .., deferOn_frame, writeSettings_frame .., applyShipped_frame ..]
  exact ⟨⟨_, e⟩, trivial, trivial, trivial⟩

/-- What FACTORY_DEFAULTS leaves of a device in IDLE without link and time reference (R61, R603). -/
def ShippedFrom (s t : State) : Prop :=
  t.set.mode = .idle ∧ t.set.link = {} ∧ t.set.time = {} ∧ t.set.gather = {} ∧ t.set.lastWake = s.set.lastWake ∧
  t.plan.binds = shippedBinds ∧ (∀ b ∈ t.mix.banks, b.kind = none) ∧ t.sec = s.sec

theorem ShippedFrom.ofPortOut {s t u : State} (k : PortOut t u) (h : ShippedFrom s t) : ShippedFrom s u := by
  unfold PortOut at k; rw [k]; exact h

theorem factoryDefaultsBody_ships {f : CmdFrame} {s : State} (hm : s.set.mode = .idle) (hl : s.set.link.role = 0)
    (ht : s.set.time.ref = 0) : ShippedFrom s (factoryDefaultsBody f s).1 := by
  obtain ⟨⟨l, eset⟩, eplan, emix, esec⟩ := factoryDefaultsBody_parts (f := f) hm hl ht
  obtain ⟨pset, psec, pbinds, pbanks⟩ := planShipped_parts f.tag s
  unfold ShippedFrom
  rw [eset, eplan, emix, esec]
  refine ⟨?_, rfl, rfl, rfl, ?_, pbinds, pbanks, psec⟩
  · simp [shippedSettings, pset, hm]
  · simp [shippedSettings, pset]

/-- Settles O35: each timer by the record it queues, the end of a write by the job it ends, FACTORY_DEFAULTS by its body. -/
theorem theStoreWritesItsRecords : Obligations.TheStoreWritesItsRecords := by
  unfold Obligations.TheStoreWritesItsRecords
  refine ⟨fun s a h hr => ?settings, fun s h hr => ?counters, fun s w h hw hr => ?cal, fun s h => recovery_writesNothing h,
    fun s j rest hq hj hs hd => ?done, fun f s h hm hl ht => ?defaults⟩
  case settings =>
    refine ⟨_, settingsCommitTimer_writes h hr, ?_⟩
    generalize min (s.store.dirtyLast.getD a + ticksPerSecond) (a + 5 * ticksPerSecond) = d
    obtain ⟨hfirst, hlast, hqueue⟩ := writeSettings_store (passTo d s)
    refine ⟨Eq.trans ?_ (now_passTo d s), hfirst, hlast, ?_, ?_⟩
    · simp [now, writeSettings_frame ..]
    · rw [hqueue, settingsAccepted_passTo]; simp [passTo_frame ..]
    · simp [writeSettings_frame .., passTo_frame ..]
  case counters =>
    have clock : now (writeCounters (snapshotTaken s)) = max (now s) (s.link.snapAt + 60 * ticksPerSecond) :=
      Eq.trans (by simp [now, writeCounters_frame .., snapshotTaken]) (now_passTo _ s)
    have queue := writeCounters_queue (snapshotTaken s)
    refine ⟨_, linkCountersSnapshot_writes h hr, clock, ?_, ?_,
      ⟨_, (congrArg List.getLast? queue).trans List.getLast?_concat, rfl, rfl⟩, ?_⟩
    · simp [writeCounters_frame .., snapshotTaken, passTo_frame .., now]
    · rw [queue]; simp [snapshotTaken, passTo_frame ..]
    · simp [writeCounters_frame .., snapshotTaken, passTo_frame ..]
  case cal =>
    refine ⟨_, calRecordWrite_writes h hw hr, ?_⟩
    obtain ⟨hdirty, hwritten, queue⟩ := writeCal_store (passTo (w + 60 * ticksPerSecond) s)
    have clock : now (writeCal (passTo (w + 60 * ticksPerSecond) s)) = now (passTo (w + 60 * ticksPerSecond) s) := by
      simp [now, writeCal_frame ..]
    refine ⟨clock.trans (now_passTo _ s), hdirty, by rw [clock]; exact hwritten, ?_,
      ⟨_, (congrArg List.getLast? queue).trans List.getLast?_concat, rfl, rfl⟩, ?_⟩
    · rw [queue]; simp [passTo_frame ..]
    · simp [writeCal_frame .., passTo_frame ..]
  case done =>
    exact ⟨_, recordWriteDone_calibration hq hj hs hd, endFirst_queue j rest s.store, rfl, rfl, rfl, rfl, rfl⟩
  case defaults =>
    refine defers_accepted h (P := ShippedFrom s) (fun _ _ k => ShippedFrom.ofPortOut k) fun u hu _ => ?_
    obtain ⟨-, -, ⟨hset, -⟩, ⟨hsec, -⟩, -⟩ := hu.parts
    have e := factoryDefaultsBody_ships (f := f) (s := u) (by rwa [hset]) (by rwa [hset]) (by rwa [hset])
    unfold ShippedFrom at *
    rwa [hset, hsec] at e

end Sys2Proof.Machine
end

section
/-!
PROOF. The transitions that SET_MODE lists, and its refusal of the others (O51).
-/

namespace Sys2Proof.Machine

/-- A frame that fails no check before that of the mode is refused with WRONG_MODE when its function is not available (R327). -/
theorem earlyFail_wrongMode {s : State} {op : Nat} {f : CmdFrame} {c : Checks} (hlen : c.lenOk = true)
    (hport : f.portField = f.port) (hflag : f.flags.getLsbD 0 = false) (hstage : s.pwr.stage ≠ .recovery)
    (hbad : lowest c.bad = none) (hstale : lowest c.stale = none) (hobj : lowest c.noObj = none)
    (hdenied : lowest c.denied = none) (hmode : c.modeOk = false) :
    earlyFail s op f c = some { status := 8, detail := s.set.mode.code } := by
  unfold earlyFail
  rw [hflag]
  simp [failIf, lowest, hlen, hport, hstage, hbad, hstale, hobj, hdenied, hmode]

/-- SET_MODE to another mode, to which no transition is listed, fails the check of the mode (R34, R327). -/
theorem setMode_notListed {f : CmdFrame} {s : State} (hlen : f.payload.length = 4) (hport : f.portField = f.port)
    (hflag : f.flags.getLsbD 0 = false) (hstage : s.pwr.stage ≠ .recovery)
    (htest : Mode.ofCode (field f.payload 0 1) = .test → s.set.mode ≠ .test → s.sec.unlocked = true)
    (hother : Mode.ofCode (field f.payload 0 1) ≠ s.set.mode)
    (hlist : modeAllowed s (Mode.ofCode (field f.payload 0 1)) = false) :
    earlyFail s 0x0101 f (setModeChecks f s) = some { status := 8, detail := s.set.mode.code } := by
  refine earlyFail_wrongMode (by simp [setModeChecks, hlen]) hport hflag hstage rfl rfl rfl ?_ ?_
  · have unlocked : (Mode.ofCode (field f.payload 0 1) == .test && s.set.mode != .test && !s.sec.unlocked) = false := by
      simpa using htest
    simp [setModeChecks, failIf, lowest, unlocked]
  · simp [setModeChecks, hother, hlist]

/-- The listed transitions do not depend on what taking a frame may touch. -/
theorem modeAllowed_consume (op : Nat) (f : CmdFrame) (s : State) (m : Mode) :
    modeAllowed (consume op f s) m = modeAllowed s m :=
  (consume_readsOnly op f s).same (modeAllowed · m) fun _ _ _ _ => rfl

/-- Outside host configuration 3, IDLE, SURVEY, SERVE and SENTRY lead to every mode but COMPAT (R34, R35). -/
theorem modeAllowed_iff_of_running {s : State} (hc : hostConfig s ≠ 3) (h : s.set.mode ∈ [.idle, .survey, .serve, .sentry])
    (m : Mode) : modeAllowed s m = true ↔ m ≠ .compat := by
  simp only [List.mem_cons, List.not_mem_nil, or_false] at h
  rcases h with h | h | h | h <;> simp [modeAllowed, hc, h]

/-- Outside host configuration 3, UPDATE leads to IDLE and HOLD (R34). -/
theorem modeAllowed_iff_of_update {s : State} (hc : hostConfig s ≠ 3) (h : s.set.mode = .update) (m : Mode) :
    modeAllowed s m = true ↔ m = .idle ∨ m = .hold := by
  simp [modeAllowed, hc, h]

/-- Outside host configuration 3, TEST leads to IDLE (R34). -/
theorem modeAllowed_iff_of_test {s : State} (hc : hostConfig s ≠ 3) (h : s.set.mode = .test) (m : Mode) :
    modeAllowed s m = true ↔ m = .idle := by
  simp [modeAllowed, hc, h]

/-- In host configuration 3, COMPAT leads to HOLD and UPDATE (R35). -/
theorem modeAllowed_iff_of_compat {s : State} (hc : hostConfig s = 3) (h : s.set.mode = .compat) (m : Mode) :
    modeAllowed s m = true ↔ m = .hold ∨ m = .update := by
  simp [modeAllowed, hc, h]

/-- No transition out of HOLD is listed: a wake source ends it (R34, R42). -/
theorem modeAllowed_hold {s : State} (h : s.set.mode = .hold) (m : Mode) : modeAllowed s m = false := by
  by_cases hc : hostConfig s = 3 <;> simp [modeAllowed, hc, h]

/-- Settles O51: the table row by row, and a frame that fails the check of the mode both before and once it is taken. -/
theorem setModeListsItsTransitions : Obligations.SetModeListsItsTransitions := by
  unfold Obligations.SetModeListsItsTransitions
  refine ⟨fun s m => ⟨fun hc => ⟨(modeAllowed_iff_of_running hc · m), (modeAllowed_iff_of_update hc · m),
    (modeAllowed_iff_of_test hc · m)⟩, (modeAllowed_iff_of_compat · · m), (modeAllowed_hold · m)⟩, ?refused⟩
  case refused =>
    intro f s hl htake hnext hlen hport hflag hstage htest hother hlist
    have before := setMode_notListed hlen hport hflag hstage htest hother hlist
    have taken : earlyFail (consume 0x0101 f s) 0x0101 f (setModeChecks f (consume 0x0101 f s)) =
        some { status := 8, detail := s.set.mode.code } := by
      have e := setMode_notListed (s := consume 0x0101 f s) hlen hport hflag (by simpa using hstage)
        (by simpa using htest) (by simpa using hother) (by simpa [modeAllowed_consume] using hlist)
      simpa using e
    exact rejected_reads ⟨htake, hnext, before, taken⟩ hl _

end Sys2Proof.Machine
end

section
/-!
PROOF. What a reset leaves of a staged plan (O50).
-/

namespace Sys2Proof.Machine

/-- The islands that leave the reset hold no staged plan, although the active plan is rebuilt (R48, R65). -/
theorem islandsReset_stagesNothing (s : State) : (islandsReset s).plan.staged = none ∧ (islandsReset s).plan.parts = [] := by
  unfold islandsReset; simp

/-- A pulse of 20 us or longer resets the islands of a device whose store is loaded and that is not in that reset already (R63). -/
theorem nresetAccepted_resets {w : Nat} {s : State} (hw : 20000 ≤ w) (hn : s.pwr.stage ≠ .nresetHeld)
    (hr : s.pwr.stage ≠ .waitNreset) (hp : s.pwr.porAsserted = false) (hl : s.pwr.reloadDone = true) :
    exec (.nresetAccepted w) s = .next (islandsReset (paOffNow s)) := by
  have long : ¬ w < 5000 ∧ ¬ w < 20000 := by omega
  show execNresetAccepted w s = _
  unfold execNresetAccepted
  simp [long, hn, hr, hp, hl]

/-- Settles O50: power-off leaves an empty plan, and a reset of the islands rebuilds the active plan only. -/
theorem stagedPlansAreDiscardedByResets : Obligations.StagedPlansAreDiscardedByResets :=
  ⟨fun _ => ⟨_, rfl, rfl, rfl⟩,
   fun _ _ hw hn hr hp hl => ⟨_, nresetAccepted_resets hw hn hr hp hl, islandsReset_stagesNothing _⟩⟩

end Sys2Proof.Machine
end

section
/-!
PROOF. The two sources that reset the device, and that no other command does (O48).
-/

namespace Sys2Proof.Machine

/-- Power-on reset is asserted again and no island is released (R64). -/
theorem powerOff_pwr (s : State) : (powerOff s).pwr =
    { nresetLow := s.pwr.nresetLow, railsGood := s.pwr.railsGood.filter (· != .vddAon), wakePin := s.pwr.wakePin } := by
  unfold powerOff; dsimp only; split <;> rfl

/-- The device with a rail above its good threshold (R82); VDD_AON rising is timed (R64). -/
def railRisen (r : Rail) (s : State) : State :=
  { s with pwr := { s.pwr with
    railsGood := s.pwr.railsGood ++ [r], aonAt := if r = .vddAon && s.pwr.porAsserted then some (now s) else s.pwr.aonAt } }

/-- The running device stays out of both resets, with the same islands released. -/
def StaysRunning (s t : State) : Prop :=
  t.pwr.stage = .running ∧ t.pwr.porAsserted = false ∧ t.pwr.released = s.pwr.released

section
variable {s t : State} (hrun : s.pwr.stage = .running) (hpor : s.pwr.porAsserted = false)
include hrun hpor

/-- Of the power state only the stage, the assertion of power-on reset and the released islands matter. -/
theorem staysRunning_of_eq (hstage : t.pwr.stage = s.pwr.stage) (hasserted : t.pwr.porAsserted = s.pwr.porAsserted)
    (hreleased : t.pwr.released = s.pwr.released) : StaysRunning s t :=
  ⟨hstage.trans hrun, hasserted.trans hpor, hreleased⟩

theorem staysRunning_of_pwr (h : t.pwr = s.pwr) : StaysRunning s t :=
  staysRunning_of_eq hrun hpor (by rw [h]) (by rw [h]) (by rw [h])

/-- The releases and waits of the reset sequence, its repeats and its reruns do nothing once the device runs (R64, R69, R75, R76,
R502). -/
theorem sequence_idle_of_running : (∀ b, exec (.porRelease b) s = .next s) ∧ (∀ b, exec (.nresetRelease b) s = .next s) ∧
    (∀ i, exec (.islandHeld i) s = .next s) ∧ (∀ b, exec (.sequenceRepeat b) s = .next s) ∧
    (∀ p b, exec (.selfTestRerun p b) s = .next s) := by
  refine ⟨fun b => ?_, fun b => ?_, fun i => ?_, fun b => ?_, fun p b => ?_⟩
  · show execPorRelease b s = _
    unfold execPorRelease; simp [hpor]
  · show execNresetRelease b s = _
    unfold execNresetRelease; simp [hrun, hpor]
  · show execIslandHeld i s = _
    unfold execIslandHeld within; simp [hrun]
  · show execSequenceRepeat b s = _
    unfold execSequenceRepeat; simp [hrun]
  · show execSelfTestRerun p b s = _
    unfold execSelfTestRerun; simp [hrun]

/-- A clock-good signal opens no gate once the device runs: it is noted (R74). -/
theorem islandClockGood_staysRunning {i : Nat} (h : exec (.islandClockGood i) s = .next t) : StaysRunning s t := by
  replace h : execIslandClockGood i s = .next t := h
  unfold execIslandClockGood within at h
  simp only [hrun, show (BootStage.running == .timeGated) = false from rfl, show (BootStage.running == .gated) = false from rfl,
    Bool.false_and, Bool.false_eq_true, if_false] at h
  split at h <;> cases h
  · exact staysRunning_of_eq hrun hpor hrun.symm rfl rfl
  · exact staysRunning_of_pwr hrun hpor rfl

/-- A rail that rises is noted; no sequence waits for it (R82). -/
theorem railGood_staysRunning {r : Rail} (h : exec (.railGood r) s = .next t) : StaysRunning s t := by
  replace h : execRailGood r s = .next t := h
  unfold execRailGood at h
  cases hr : s.pwr.railsGood.contains r <;> rw [hr] at h
  case false =>
    have noted : t = railRisen r s := by rw [← Host.Outcome.next.inj h]; exact if_neg (by simp [hrun])
    rw [noted]
    exact staysRunning_of_eq hrun hpor rfl rfl rfl
  case true =>
    have known : t = s := by rw [← Host.Outcome.next.inj h]; exact if_neg (by simp [hrun])
    exact staysRunning_of_pwr hrun hpor (by rw [known])

/-- What becomes of VDD_PA is noted, and its loss ends a transmission (R84). -/
theorem vddPa_staysRunning (h : exec .vddPaGood s = .next t ∨ exec .vddPaLow s = .next t) : StaysRunning s t := by
  rcases h with h | h
  · replace h : execVddPaGood s = .next t := h
    unfold execVddPaGood at h
    split at h <;> cases h <;> exact staysRunning_of_eq hrun hpor rfl rfl rfl
  · replace h : execVddPaLow s = .next t := h
    unfold execVddPaLow at h
    split at h <;> cases h
    · exact staysRunning_of_eq hrun hpor (by simp [cutAir_frame ..]) (by simp [cutAir_frame ..]) (by simp [cutAir_frame ..])
    · exact staysRunning_of_pwr hrun hpor rfl

/-- The Chuck's choice of its clock is noted (R93). -/
theorem aonClock_staysRunning (h : exec .aonCrystalSwitch s = .next t ∨ exec .aonRcTimeout s = .next t) :
    StaysRunning s t := by
  rcases h with h | h
  · replace h : execAonCrystalSwitch s = .next t := h
    unfold execAonCrystalSwitch at h
    split at h <;> cases h <;> exact staysRunning_of_eq hrun hpor rfl rfl rfl
  · replace h : execAonRcTimeout s = .next t := h
    unfold execAonRcTimeout at h
    dsimp only at h
    split at h
    · cases h
      exact staysRunning_of_pwr hrun hpor rfl
    · split at h <;> cases h <;> refine staysRunning_of_eq hrun hpor ?_ ?_ ?_ <;> simp [passTo_frame ..]

/-- A high level on WAKE is noted, and a wake leaves the reset sequence alone (R42, R574). -/
theorem wakeHigh_staysRunning {us : Nat} (h : exec (.wakeHigh us) s = .next t) : StaysRunning s t := by
  replace h : execWakeHigh us s = .next t := h
  unfold execWakeHigh at h
  simp only [hpor, Bool.false_eq_true, if_false] at h
  split at h <;> cases h <;> refine staysRunning_of_eq hrun hpor ?_ ?_ ?_ <;> simp [wakeSource_frame .., drawBool_frame ..]

/-- Whatever runs on a running device other than the two resets leaves it running, with its islands released (R63). -/
theorem exec_staysRunning {c : Instr} (h : exec c s = .next t) (hp : c ≠ .powerOnReset) (hn : ∀ w, c ≠ .nresetAccepted w) :
    StaysRunning s t := by
  have same : ∀ {d : Instr}, exec d s = .next t → exec d s = .next s → StaysRunning s t := fun h e =>
    staysRunning_of_pwr hrun hpor (by cases h.symm.trans e; rfl)
  obtain ⟨porRelease, nresetRelease, islandHeld, sequenceRepeat, selfTestRerun⟩ := sequence_idle_of_running hrun hpor
  cases c with
  | powerOnReset => exact absurd rfl hp
  | nresetAccepted w => exact absurd rfl (hn w)
  | porRelease b => exact same h (porRelease b)
  | nresetRelease b => exact same h (nresetRelease b)
  | islandHeld i => exact same h (islandHeld i)
  | sequenceRepeat b => exact same h (sequenceRepeat b)
  | selfTestRerun p b => exact same h (selfTestRerun p b)
  | islandClockGood i => exact islandClockGood_staysRunning hrun hpor h
  | railGood r => exact railGood_staysRunning hrun hpor h
  | vddPaGood => exact vddPa_staysRunning hrun hpor (.inl h)
  | vddPaLow => exact vddPa_staysRunning hrun hpor (.inr h)
  | aonCrystalSwitch => exact aonClock_staysRunning hrun hpor (.inl h)
  | aonRcTimeout => exact aonClock_staysRunning hrun hpor (.inr h)
  | wakeHigh us => exact wakeHigh_staysRunning hrun hpor h
  | _ => exact staysRunning_of_pwr hrun hpor (exec_changes _ s t h .pwr (by simp [touches]))

end

/-- A pulse of 20 us or longer resets the islands of a running device but I0 and I1 (R63, R65, R67). -/
theorem nresetAccepted_resets_running {w : Nat} {s : State} (hw : 20000 ≤ w) (hrun : s.pwr.stage = .running)
    (hpor : s.pwr.porAsserted = false) (hl : s.pwr.reloadDone = true) :
    exec (.nresetAccepted w) s = .next (islandsReset (paOffNow s)) :=
  nresetAccepted_resets hw (by simp [hrun]) (by simp [hrun]) hpor hl

/-- Settles O48: the two resets by what they leave of the reset sequence's state, every other command by `exec_staysRunning`. -/
theorem onlyTheTwoResetsResetTheDevice : Obligations.OnlyTheTwoResetsResetTheDevice := by
  unfold Obligations.OnlyTheTwoResetsResetTheDevice
  refine ⟨fun s => ?por, fun w s hw hrun hpor hl => ?nreset, fun c s t h hrun hpor hp hn => exec_staysRunning hrun hpor h hp hn⟩
  case por => exact ⟨_, rfl, by rw [powerOff_pwr], by rw [powerOff_pwr], by rw [powerOff_pwr]⟩
  case nreset =>
    obtain ⟨stage, -, -, released, -⟩ := islandsReset_parts s
    exact ⟨_, nresetAccepted_resets_running hw hrun hpor hl, stage, released⟩

end Sys2Proof.Machine
end

section
/-!
PROOF. What the device holds right after power-on reset (O42).
-/

namespace Sys2Proof.Machine

/-- Every part that the statement of the reset values reads, but the power state, is as it is when power is first applied. -/
def PartsAtReset (t : State) : Prop :=
  t.time = {} ∧ t.port = {} ∧ t.front = {} ∧ t.prog = {} ∧ t.mix = {} ∧ t.link = {} ∧ t.health = {} ∧ t.head = {}

theorem rings_atReset : ∀ r ∈ ({} : PortS).rings, r.enabled = false ∧ r.head = 0 ∧ r.tail = 0 ∧ r.entries = [] := by
  decide

theorem windows_atReset : ∀ w ∈ ({} : FrontS).windows, w.state = .closed := by decide

theorem tuners_atReset : ∀ x ∈ ({} : FrontS).tuners, x.state = .off := by decide

/-- Parts at reset under an asserted power-on reset hold the stated values (R64, R99, R119, R309, R335, R451). -/
theorem atReset_of_parts {t : State} (h : PartsAtReset t) (hpor : t.pwr.porAsserted = true) (hstage : t.pwr.stage = .porHeld)
    (hready : t.pwr.ready = false) (hcommands : t.pwr.commands = false) (hreleased : t.pwr.released = 0) : AtReset t := by
  obtain ⟨htime, hport, hfront, hprog, hmix, hlink, hhealth, hhead⟩ := h
  unfold AtReset
  rw [htime, hport, hfront, hprog, hmix, hlink, hhealth, hhead]
  exact ⟨hpor, hstage, hready, hcommands, hreleased, rfl, rfl, rfl, rings_atReset, windows_atReset, tuners_atReset,
    rfl, rfl, rfl, rfl, rfl, rfl⟩

theorem powerOff_partsAtReset (s : State) : PartsAtReset (powerOff s) := by
  unfold powerOff; exact ⟨rfl, rfl, rfl, rfl, rfl, rfl, rfl, rfl⟩

/-- Settles O42: power-on reset clears every part that the statement reads, and when power is first applied each is so. -/
theorem resetLeavesTheStatedValues : Obligations.ResetLeavesTheStatedValues :=
  ⟨⟨rfl, atReset_of_parts ⟨rfl, rfl, rfl, rfl, rfl, rfl, rfl, rfl⟩ rfl rfl rfl rfl rfl⟩,
   fun s => ⟨_, rfl, atReset_of_parts (powerOff_partsAtReset s) rfl rfl rfl rfl rfl⟩⟩

end Sys2Proof.Machine
end

section
/-!
PROOF. An accepted nRESET in HOLD (O52).
-/

namespace Sys2Proof.Machine

/-- Rebuilding the objects leaves the settings: the recorded mode comes back once they stand (R39). -/
theorem restorePlan_set (r : PlanRecord) (s : State) : (restorePlan r s).set = s.set := by
  unfold restorePlan; simp [restorePass_frame .., restoreGens_frame ..]

/-- Settings that wait for GPIO 4 are the only ones that a reset of the islands accepts first. -/
theorem applyGpio4_keeps (s : State) : (applyGpio4 s).set.mode = s.set.mode ∧ (applyGpio4 s).set.lastWake = s.set.lastWake ∧
    (applyGpio4 s).head = s.head := by
  unfold applyGpio4; split <;> exact ⟨rfl, rfl, rfl⟩

/-- With no transition in progress a reset of the islands keeps the mode, and it always keeps the last wake (R65, R70). -/
theorem islandsReset_set {s : State} (h : s.head.transition = none) :
    (islandsReset s).set.mode = s.set.mode ∧ (islandsReset s).set.lastWake = s.set.lastWake := by
  obtain ⟨hmode, hwake, hhead⟩ := applyGpio4_keeps s
  have recorded : recordedMode (applyGpio4 s) = s.set.mode := by
    unfold recordedMode; rw [hhead, h]; exact hmode
  unfold islandsReset
  simp only [restorePlan_set, settingsAccepted]
  exact ⟨recorded, hwake⟩

/-- An alarm of 0 is no alarm: clearing it changes nothing (R364). -/
theorem clearAlarm_of_zero {x : Settings} (h : x.alarm = 0) : { x with alarm := 0 } = x := by
  cases x; cases h; rfl

section
variable {s : State} (hstage : s.pwr.stage = .nresetHeld) (hpor : s.pwr.porAsserted = false)
include hstage

/-- No wake source wakes a device that nRESET holds (R70). -/
theorem wakeSource_held (n : Nat) : wakeSource n s = s := by
  unfold wakeSource; simp [hstage]

theorem twoWireWake_held : exec .twoWireWake s = .next s := by
  show execTwoWireWake s = _
  unfold execTwoWireWake; simp [hstage]

include hpor

/-- WAKE_HIGH during the reset moves the level that the pin shows, and nothing else of these (R70, R574). -/
theorem wakeHigh_held (us : Nat) : ∃ t, exec (.wakeHigh us) s = .next t ∧ t.set = s.set ∧ t.head = s.head ∧ t.clk = s.clk ∧
    t.pwr = { s.pwr with wakePin := t.pwr.wakePin } := by
  refine ⟨_, rfl, ?_⟩
  rw [if_neg (by simp [hpor])]
  dsimp only
  rw [wakeSource_held (by exact hstage), ite_self]
  exact ⟨rfl, rfl, rfl, rfl⟩

/-- AON_ALARM during the reset clears the alarm and lets time pass (R70, R364). -/
theorem aonAlarm_held : ∃ t, exec .aonAlarm s = .next t ∧ t.set = { s.set with alarm := 0 } ∧ t.head = s.head ∧
    t.pwr = s.pwr ∧ t.prog = s.prog := by
  refine ⟨_, rfl, ?_⟩
  by_cases h : s.set.alarm = 0
  · rw [clearAlarm_of_zero h]; simp [h]
  · simp only [h, hpor, decide_false, Bool.or_self, Bool.false_eq_true, if_false]
    rw [wakeSource_held (by simpa [setSettings, settingsDirty, pass_frame ..] using hstage)]
    simp [setSettings, settingsDirty, pass_frame ..]

end

/-- Settles O52: the reset keeps the mode and the last wake, and no wake source acts on a device that does not run. -/
theorem nresetInHoldStartsTheSequence : Obligations.NresetInHoldStartsTheSequence := by
  unfold Obligations.NresetInHoldStartsTheSequence
  refine ⟨fun w s hw hmode htransition hrun hpor hl => ?nreset,
    fun us s _ hstage hpor => ⟨wakeHigh_held hstage hpor us, twoWireWake_held hstage, aonAlarm_held hstage hpor⟩⟩
  case nreset =>
    obtain ⟨stage, -, commands, -⟩ := islandsReset_parts s
    obtain ⟨mode, lastWake⟩ := islandsReset_set (s := paOffNow s) (by simpa [paOffNow_frame ..] using htransition)
    refine ⟨_, nresetAccepted_resets_running hw hrun hpor hl, stage, commands, ?_, ?_⟩
    · rw [mode]; simpa [paOffNow_frame ..] using hmode
    · rw [lastWake]; simp [paOffNow_frame ..]

end Sys2Proof.Machine
end

section
/-!
PROOF. Restarts, engine failures, Timber errors, faults of units without a spare and the log's delivery (O38).
-/

namespace Sys2Proof.Machine

/-! ### Restarts of the Headstock -/

/-- With fewer than 4 restarts within 60 s the next one begins at once (R546). -/
theorem askRestart_begins {cause : Nat} {s : State} (hspaced : s.head.spaced = false) (hfew : (recentRestarts s).length < 4) :
    askRestart cause s = startRestart { s with head := { s.head with restartCause := cause, spaced := s.head.spaced } } := by
  have few : decide (4 ≤ (recentRestarts s).length) = false := by simp [hfew]
  unfold askRestart
  simp only [hspaced, few, Bool.or_self, Bool.false_and, Bool.false_eq_true, if_false]

/-- After 4 restarts within 60 s the next one waits until 1 s after the previous one (R546). -/
theorem askRestart_waits {cause : Nat} {s : State} (hmany : 4 ≤ (recentRestarts s).length)
    (hsoon : now s < s.head.lastRestart + ticksPerSecond) :
    askRestart cause s = { s with head := { s.head with restartCause := cause, spaced := true, delayed := true } } := by
  unfold askRestart
  dsimp only
  rw [if_pos (by simp [hmany]; exact hsoon)]
  simp [hmany]

/-- A watchdog that expires with nothing on the air counts and asks for a restart (R66, R544). -/
theorem watchdogExpiry_asks {s : State} (hr : restartable s = true) (hw : s.clk.wdogSuspended = false) (ha : s.link.air = none) :
    exec .watchdogExpiry s =
      .next (askRestart 0 { s with head := { s.head with expiries := satNat 255 (s.head.expiries + 1) } }) := by
  show execWatchdogExpiry s = _
  unfold execWatchdogExpiry
  simp [hr, hw, ha]

theorem headstockFault_asks {s : State} (ecc : Bool) (hr : restartable s = true) :
    exec (.headstockFault ecc) s = .next (askRestart (if ecc then 2 else 1) s) := by
  show execHeadstockFault ecc s = _
  unfold execHeadstockFault
  rw [if_pos hr]

/-- A restart that waited begins when its second is over (R546). -/
theorem restartDelayExpiry_starts {s : State} (h : s.head.delayed = true) :
    exec .restartDelayExpiry s = .next (startRestart (passTo (s.head.lastRestart + ticksPerSecond) s)) := by
  show execRestartDelayExpiry s = _
  unfold execRestartDelayExpiry
  rw [if_pos h]

/-- The end of a restart outside spacing answers what is due; of the Headstock's own state the counts are new, and of the plan the
commit in progress, which goes on without its response (R352 to R354). -/
theorem firmwareRestarted_parts {s : State} (h : s.head.restarting = true) (hs : s.head.spaced = false) :
    ∃ t, exec .firmwareRestarted s = .next t ∧
      t.head = { s.head with
        restarting := false, deferred := [], held := [], stagedLost := false
        answered := satNat 65535
          (s.head.deferred.length + s.head.held.length + ((s.plan.committing.bind (·.resp)).toList).length) } ∧
      t.plan = { s.plan with committing := s.plan.committing.map (fun c => { c with resp := none }) } ∧ t.set = s.set := by
  refine ⟨_, rfl, ?_⟩
  rw [if_neg (by simp [h])]
  dsimp only
  rw [if_neg (by simp [hs])]
  refine ⟨(answerRestarted_fold _ _).1.trans ?_, (answerRestarted_fold _ _).2.1.trans ?_, (answerRestarted_fold _ _).2.2.trans ?_⟩
  · simp only [post_frame]
    cases s.plan.committing.bind (·.resp) <;> simp [hs, Nat.add_assoc]
  · simp
  · simp

/-- 60 s after the last restart the spacing ends (R546). -/
theorem restartSpacingEnd_clears {s : State} (hs : s.head.spaced = true) (hr : s.head.restarting = false)
    (hd : s.head.delayed = false) :
    ∃ t, exec .restartSpacingEnd s = .next t ∧ t.head = { s.head with spaced := false, spacingNoted := false, recent := [] } ∧
      now t = max (now s) (s.head.lastRestart + 60 * ticksPerSecond) := by
  refine ⟨_, rfl, ?_⟩
  rw [if_pos (by simp [hs, hr, hd])]
  exact ⟨by simp [passTo_frame ..], now_passTo _ s⟩

/-! ### Engines and snapshots -/

/-- The check of a running Headstock looks at the 16 engines after another millisecond (R533). -/
theorem engineProgressCheck_checks {s : State} {stalled ecc : BitVec 16} (hrun : s.pwr.stage = .running) (hm : s.set.mode ≠ .hold)
    (hr : s.head.restarting = false) (hd : s.head.delayed = false) :
    exec (.engineProgressCheck stalled ecc) s = .next ((List.range 16).foldl (checkEngine stalled ecc) (pass (ms 1) s)) := by
  show execEngineProgressCheck stalled ecc s = _
  unfold execEngineProgressCheck
  rw [if_neg (by simp [hrun, hm, hr, hd])]

theorem inService_pass (n : Nat) (s : State) (e : Nat) : inService (pass n s) e = inService s e := by
  unfold inService; simp [pass_frame ..]

/-- Every context is snapshot again, and no snapshot is invalid (R534, R542). -/
theorem contextSnapshot_parts {s : State} (hc : clockRuns s 6 = true) (hd : now s ≤ s.health.snapshotAt + ms 10) :
    ∃ t, exec .contextSnapshot s = .next t ∧
      t.health = { s.health with snapshotAt := s.health.snapshotAt + ms 10, badSnapshots := [] } ∧
      t.prog = { s.prog with receptions := s.prog.receptions.map (fun r => { r with snap := (r.dem, r.ofdm, r.rds) }) } := by
  refine ⟨_, within_next hc s _, ?_, ?_⟩
  · simp only [now_passTo, max_eq_right hd, passTo_frame ..]
  · simp only [passTo_frame ..]

/-! ### Timber -/

/-- The instant at which a scrub of the store has passed over it (R540). -/
def scrubbed (s : State) : State :=
  { passTo (s.health.scrubAt + 64 * ticksPerSecond) s with
    health := { s.health with scrubAt := max (now s) (s.health.scrubAt + 64 * ticksPerSecond) } }

theorem now_scrubbed (s : State) : now (scrubbed s) = max (now s) (s.health.scrubAt + 64 * ticksPerSecond) :=
  now_passTo _ s

/-- A scrub that finds one error corrects its word at the end of the pass (R540). -/
theorem timberScrub_corrects {s : State} {w : Nat} (hc : clockRuns s 6 = true) (hw : w < 4194304) :
    exec (.timberScrub [w]) s = .next (correctWord w (scrubbed s)) := by
  refine (within_next (by simp [hc, hw]) s _).trans ?_
  simp only [List.foldl_cons, List.foldl_nil, now_passTo, passTo_frame .., scrubbed]

theorem timberEccError_corrects {s : State} {w : Nat} {u : TimberUse} (hw : w < 4194304) :
    exec (.timberEccError w u false) s = .next (correctWord w s) :=
  within_next (by simp [hw]) s _

theorem timberEccError_poisons {s : State} {w : Nat} {u : TimberUse} (hw : w < 4194304) :
    exec (.timberEccError w u true) s = .next (poison u (spareRow (w / 256) (note 0x0406 0xFF 0 (w / 256) s))) :=
  within_next (by simp [hw]) s _

@[simp] theorem note_health_rowErrors (code island subject value : Nat) (s : State) :
    (note code island subject value s).health.rowErrors = s.health.rowErrors := by
  unfold note; simp

/-! ### Units without a spare -/

@[simp] theorem note_health_blockFaults (code island subject value : Nat) (s : State) :
    (note code island subject value s).health.blockFaults = s.health.blockFaults := by
  unfold note; simp

/-- The fault of a unit without a spare is recorded; Kerf and Rasp apart, only that of Scarf ends work: every output stops (R543). -/
theorem blockFault_records {s : State} {b : Nat} (hb : b < 17) (hu : unspared.contains b = true) (hup : unitUp s b = true)
    (hrun : s.pwr.stage = .running) (h2 : b ≠ 2) (h5 : b ≠ 5) :
    ∃ t, exec (.blockFault b) s = .next t ∧ t.health.blockFaults = s.health.blockFaults ++ [b] ∧
      t.prog = (if b = 9 then { s.prog with pcms := s.prog.pcms.map (fun x => { x with playing := false }) } else s.prog) ∧
      t.front = s.front := by
  refine ⟨_, within_next (by simp [hb]) s _, ?_⟩
  rw [if_neg (by rw [hu, hup, hrun]; decide)]
  simp only [h2, h5, decide_false, Bool.or_self, Bool.false_eq_true, if_false]
  split <;> simp

/-! ### The health log -/

/-- One second after its first occurrence an entry of the log is delivered (R549). -/
def delivered (e : LogEntry) (s : State) : State :=
  let t := passTo (e.firstAt + ticksPerSecond) s
  { t with
    health := { t.health with log := t.health.log.map (fun x => if x.seq = e.seq then { x with delivered := true } else x) } }

theorem delivered_parts (e : LogEntry) (s : State) : (delivered e s).set = s.set ∧ (delivered e s).plan = s.plan ∧
    now (delivered e s) = max (now s) (e.firstAt + ticksPerSecond) ∧
    (delivered e s).health.log = s.health.log.map (fun x => if x.seq = e.seq then { x with delivered := true } else x) := by
  refine ⟨?_, ?_, now_passTo _ s, ?_⟩ <;> simp [delivered, passTo_frame ..]

/-- Delivery binds no output (R286). -/
theorem boundRing_delivered (e : LogEntry) (s : State) (code cls : Nat) (h : Handle) :
    boundRing (delivered e s) code cls h = boundRing s code cls h := by
  unfold boundRing; rw [(delivered_parts e s).2.1]

section
variable {s : State} {e : LogEntry} (h : s.health.log.find? (fun e => !e.delivered) = some e)
include h

/-- Without a binding the entry leaves the log's queue and reaches no ring (R548, R549). -/
theorem healthLogDelivery_unbound (hb : boundRing s 15 6 {} = none) : exec .healthLogDelivery s = .next (delivered e s) := by
  show execHealthLogDelivery s = _
  unfold execHealthLogDelivery
  simp only [h]
  split
  · next heq => cases heq.symm.trans ((boundRing_delivered e s 15 6 {}).trans hb)
  · rfl

/-- With one it is offered to the ring, outside COMPAT (R548, R549, R554). -/
theorem healthLogDelivery_bound {n : Nat} (hb : boundRing s 15 6 {} = some n) (hm : s.set.mode ≠ .compat) :
    exec .healthLogDelivery s =
      .next (offerShaving n { kind := 0x60, epoch := e.epoch, stamp := e.time } (logBytes e) 0 (delivered e s)) := by
  show execHealthLogDelivery s = _
  unfold execHealthLogDelivery
  simp only [h]
  split
  · next heq =>
    cases heq.symm.trans ((boundRing_delivered e s 15 6 {}).trans hb)
    rw [if_neg (by simpa [passTo_frame ..] using hm)]
    rfl
  · next heq => cases heq.symm.trans ((boundRing_delivered e s 15 6 {}).trans hb)

end

/-- Settles O38, event by event. -/
theorem failuresAreMetAsTheRulesSay : Obligations.FailuresAreMetAsTheRulesSay := by
  unfold Obligations.FailuresAreMetAsTheRulesSay
  refine ⟨fun s hr hw ha hs hf => ?watchdog, fun s ecc hr hs hf => ?fault, fun s ecc hr hm hn => ?waits, fun s hd hn => ?delay,
    fun s h hs => firmwareRestarted_parts h hs, fun s hs hr hd => ?spacing,
    fun s stalled ecc e hrun hm hr hd he hl hecc => ?fails, fun s e hrun hm hr hd => ?quiet,
    fun s hc hn => contextSnapshot_parts hc hn, fun s w hc hw hn hx => ?scrub, fun s w u hw hx => ?corrected,
    fun s w r hw => ?poisoned, fun s b hb hu hup hrun h2 h5 => blockFault_records hb hu hup hrun h2 h5,
    fun s e h hn hb => ?unbound, fun s e n h hb hm => ?bound⟩
  case watchdog => rw [watchdogExpiry_asks hr hw ha, askRestart_begins (by exact hs) (by exact hf)]; rfl
  case fault => rw [headstockFault_asks ecc hr, askRestart_begins hs hf]; rfl
  case waits => rw [headstockFault_asks ecc hr, askRestart_waits hm hn]
  case delay =>
    refine ⟨_, restartDelayExpiry_starts hd, rfl, rfl, ?_, rfl, ?_⟩
    · exact (now_passTo _ s).trans (max_eq_right hn)
    · simp [startRestart_frame .., passTo_frame ..]
  case spacing =>
    obtain ⟨t, ht, head, clock⟩ := restartSpacingEnd_clears hs hr hd
    exact ⟨t, ht, head, fun hn => clock.trans (max_eq_right hn)⟩
  case fails =>
    exact ⟨_, engineProgressCheck_checks hrun hm hr hd,
      checkEngines_fails _ _ e hecc _ _ (List.mem_range.mpr he) (by simpa [pass_frame ..] using hl)⟩
  case quiet =>
    exact ⟨_, engineProgressCheck_checks hrun hm hr hd, (checkEngines_quiet e _ _).trans (inService_pass _ s e)⟩
  case scrub =>
    refine ⟨_, timberScrub_corrects hc hw, ?_⟩
    obtain ⟨errors, scrubAt, spared, -⟩ := correctWord_first (s := scrubbed s) (w := w) hx
    exact ⟨scrubAt.trans (max_eq_right hn), errors.trans (by rw [now_scrubbed, max_eq_right hn]; rfl), spared⟩
  case corrected =>
    obtain ⟨errors, -, spared, snapshots⟩ := correctWord_first hx
    exact ⟨_, timberEccError_corrects hw, errors, spared, snapshots⟩
  case poisoned =>
    refine ⟨_, timberEccError_poisons hw, List.mem_cons_self, ?_⟩
    exact (spareRow_rowErrors _ _).trans (by rw [note_health_rowErrors])
  case unbound =>
    obtain ⟨set, -, clock, log⟩ := delivered_parts e s
    exact ⟨_, healthLogDelivery_unbound h hb, log, clock.trans (max_eq_right hn), set⟩
  case bound =>
    obtain ⟨-, -, -, log⟩ := delivered_parts e s
    exact ⟨_, _, healthLogDelivery_bound h hb hm, rfl, log⟩

end Sys2Proof.Machine
end

section
/-!
PROOF. The two resets, the power-on sequence, its gates and repeats, and the choice of the AON clock (O39).
-/

namespace Sys2Proof.Machine

/-! ### Power-on reset -/

/-- Power-on reset keeps what the settings store and the fuses hold (R65). -/
theorem powerOff_keeps (s : State) : (powerOff s).store.settings = s.store.settings ∧ (powerOff s).store.plan = s.store.plan ∧
    (powerOff s).store.cal = s.store.cal ∧ (powerOff s).store.profile = s.store.profile ∧
    (powerOff s).store.counters = s.store.counters ∧ (powerOff s).store.keys = s.store.keys ∧
    (powerOff s).store.images = s.store.images ∧ (powerOff s).sec = { rollback := s.sec.rollback } := by
  unfold powerOff; dsimp only; split <;> exact ⟨rfl, rfl, rfl, rfl, rfl, rfl, rfl, rfl⟩

theorem powerOff_images (s : State) : (powerOff s).store.images = s.store.images := by
  obtain ⟨-, -, -, -, -, -, images, -⟩ := powerOff_keeps s
  exact images

theorem powerOff_rollback (s : State) : (powerOff s).sec.rollback = s.sec.rollback := by
  obtain ⟨-, -, -, -, -, -, -, sec⟩ := powerOff_keeps s
  rw [sec]

/-! ### The power-on work -/

/-- Without a rail that every configuration requires the sequence waits, the strap unread (R82). -/
theorem powerOnWork_waits_always {s : State} (h : railsUp alwaysRails s = false) : powerOnWork s = waitRails s := by
  unfold powerOnWork
  rw [if_pos (by simp [h])]

/-- Without a rail of its configuration the sequence waits, the strap read (R77, R82). -/
theorem powerOnWork_waits_config {s : State} (ha : railsUp alwaysRails s = true)
    (hr : railsUp (requiredRails (hostConfig (readStrap s))) s = false) : powerOnWork s = waitRails (readStrap s) := by
  unfold powerOnWork
  rw [if_neg (by simp [ha])]
  dsimp only
  rw [if_pos (by simp [hr])]

/-- The strap reading leaves the level at nRESET. -/
theorem readStrap_nresetLow (s : State) : (readStrap s).pwr.nresetLow = s.pwr.nresetLow := by
  unfold readStrap; split <;> rfl

section
variable {s : State} (hr : railsUp (requiredRails (hostConfig (readStrap s))) s = true)
include hr

/-- With every rail good and nRESET low the store is reloaded, and the sequence waits for nRESET (R72). -/
theorem powerOnWork_waits_nreset (hn : s.pwr.nresetLow = true) : powerOnWork s =
    { reload (readStrap s).pwr.boot.outageSeconds (readStrap s) with
      pwr := { (reload (readStrap s).pwr.boot.outageSeconds (readStrap s)).pwr with stage := .waitNreset } } := by
  unfold powerOnWork
  rw [if_neg (by simp [railsUp_always hr])]
  dsimp only
  rw [if_neg (by simp [hr]), if_pos (by rw [readStrap_nresetLow, hn])]

/-- With every rail good and nRESET high the sequence goes on (R86). -/
theorem powerOnWork_goesOn (hn : s.pwr.nresetLow = false) : powerOnWork s = releaseTime (readStrap s) := by
  unfold powerOnWork
  rw [if_neg (by simp [railsUp_always hr])]
  dsimp only
  rw [if_neg (by simp [hr]), if_neg (by rw [readStrap_nresetLow, hn]; decide)]

end

/-! ### POR_RELEASE -/

/-- The device 2 ms after VDD_AON rose, with power-on reset released on what the outside gives (R64, R77, R86). -/
def porReleased (b : BootInputs) (s : State) : State :=
  let t := passTo (s.pwr.aonAt.getD (now s) + ms 2) s
  { t with pwr := { t.pwr with
    porAsserted := false, byPor := true, reloadDone := false, strapRead := false
    nresetLow := b.nresetLow, railsGood := b.rails, boot := b, rc := { cause := if b.nresetLow then 2 else 0 }
    released := 1, attempts := 0, reruns := 0, releasedAt := now t } }

theorem porRelease_works {b : BootInputs} {s : State} (hp : s.pwr.porAsserted = true) (ha : b.rails.contains .vddAon = true) :
    exec (.porRelease b) s = .next (powerOnWork (porReleased b s)) := by
  show execPorRelease b s = _
  unfold execPorRelease
  rw [if_neg (by rw [hp, ha]; decide)]
  rfl

theorem porReleased_parts (b : BootInputs) (s : State) : (porReleased b s).set = s.set ∧ (porReleased b s).store = s.store ∧
    (porReleased b s).sec = s.sec ∧ now (porReleased b s) = max (now s) (s.pwr.aonAt.getD (now s) + ms 2) ∧
    (porReleased b s).pwr.commands = s.pwr.commands := by
  refine ⟨?_, ?_, ?_, now_passTo _ s, ?_⟩ <;> simp [porReleased, passTo_frame ..]

/-- What the reading of the strap leaves: everything but the reading. -/
theorem readStrap_parts (s : State) : (readStrap s).set = s.set ∧ (readStrap s).store = s.store ∧ (readStrap s).sec = s.sec ∧
    (readStrap s).pwr.boot = s.pwr.boot ∧ (readStrap s).pwr.attempts = s.pwr.attempts ∧
    (readStrap s).pwr.porAsserted = s.pwr.porAsserted ∧ (readStrap s).pwr.commands = s.pwr.commands := by
  unfold readStrap; split <;> exact ⟨rfl, rfl, rfl, rfl, rfl, rfl, rfl⟩

/-- VDD_AON is among the rails of every configuration (R82). -/
theorem vddAon_required {b : BootInputs} (h : alwaysRails.all (fun r => b.rails.contains r) = true) :
    b.rails.contains .vddAon = true :=
  List.all_eq_true.mp h .vddAon (by decide)

/-! ### RAIL_GOOD -/

/-- A rail rising moves no strap. -/
theorem readStrap_railRisen (r : Rail) (s : State) : hostConfig (readStrap (railRisen r s)) = hostConfig (readStrap s) := by
  unfold readStrap railRisen; dsimp only; split <;> rfl

/-- The last rail that the sequence waits for lets it go on (R82). -/
theorem railGood_works {r : Rail} {s : State} (hr : s.pwr.railsGood.contains r = false) (hg : s.pwr.stage = .waitRails) :
    exec (.railGood r) s = .next (powerOnWork (railRisen r s)) := by
  show execRailGood r s = _
  unfold execRailGood
  rw [hr]
  exact congrArg _ (if_pos (by simp [hg]))

/-! ### Sequences without faults -/

/-- The firmware images and the rollback counter decide which image a sequence runs. -/
theorem bootable_congr {s t : State} (hi : t.store.images = s.store.images) (hr : t.sec.rollback = s.sec.rollback)
    (h : slotOk s (firstImage s) = true) : slotOk t (firstImage t) = true := by
  rw [firstImage_congr hi, slotOk_congr _ hi hr]; exact h

theorem runsImage_congr {s t u : State} (hi : t.store.images = s.store.images) (h : RunsImage (firstImage t) u) :
    RunsImage (firstImage s) u := by
  rwa [firstImage_congr hi] at h

/-- The power-on work without a fault ends with the image running, in the attempt that it is (R76, R86). -/
theorem powerOnWork_runs_attempt {s : State} (hr : railsUp (requiredRails (hostConfig (readStrap s))) s = true)
    (hn : s.pwr.nresetLow = false) (hb : Faultless s.pwr.boot) (h : slotOk s (firstImage s) = true) :
    RunsImage (firstImage s) (powerOnWork s) ∧ (powerOnWork s).pwr.attempts = s.pwr.attempts := by
  obtain ⟨-, store, sec, boot, attempts, -⟩ := readStrap_parts s
  refine ⟨(powerOnWork_runs hr hn hb h).1, ?_⟩
  rw [powerOnWork_goesOn hr hn]
  obtain ⟨-, kept, -⟩ := releaseTime_runs (s := readStrap s) (by rwa [boot])
    (bootable_congr (congrArg StoreS.images store) (congrArg MortiseS.rollback sec) h)
  exact kept.trans attempts

/-- With every region of the retained store good the sequence after nRESET reads the calibration and the profile, and goes on (R45,
R89). -/
theorem checkedSequence_good {b : BootInputs} (h : b.regionsBad = []) (s : State) : checkedSequence b s =
    releaseTime (loadProfile false (loadCal false { s with pwr := { s.pwr with retainedOk := true } })) := by
  unfold checkedSequence checkRegions
  rw [h]
  rfl

/-- The sequence after nRESET without a fault ends with the image running, in the attempt that it is (R76, R89). -/
theorem checkedSequence_runs {b : BootInputs} {s : State} (hg : b.regionsBad = []) (hb : Faultless s.pwr.boot)
    (h : slotOk s (firstImage s) = true) :
    RunsImage (firstImage s) (checkedSequence b s) ∧ (checkedSequence b s).pwr.attempts = s.pwr.attempts := by
  rw [checkedSequence_good hg]
  generalize hu : loadProfile false (loadCal false { s with pwr := { s.pwr with retainedOk := true } }) = u
  have images : u.store.images = s.store.images := by rw [← hu]; simp
  have rollback : u.sec.rollback = s.sec.rollback := by rw [← hu]; simp [loadCal_frame ..]
  have pwr : u.pwr = { s.pwr with retainedOk := true } := by rw [← hu]; simp [loadCal_frame .., loadProfile_frame ..]
  obtain ⟨runs, attempts, -⟩ := releaseTime_runs (s := u) (by rwa [pwr]) (bootable_congr images rollback h)
  exact ⟨runsImage_congr images runs, attempts.trans (by rw [pwr])⟩

/-! ### The gates of the islands -/

/-- A device with an island held at its gate 5 ms after the release (R75). -/
def heldAtGate (i : Nat) (s : State) : State :=
  let u := passTo (s.pwr.stepAt + ms 5) s
  { u with pwr := { u.pwr with rc := { u.pwr.rc with held := u.pwr.rc.held ||| (1#16 <<< (i - 1)) } } }

theorem heldAtGate_parts (i : Nat) (s : State) : (heldAtGate i s).store = s.store ∧ (heldAtGate i s).sec = s.sec ∧
    (heldAtGate i s).pwr = { s.pwr with rc := { s.pwr.rc with held := s.pwr.rc.held ||| (1#16 <<< (i - 1)) } } := by
  simp [heldAtGate, passTo_frame ..]

section
variable {s : State} {i : Nat} (hi : i < 17) (hw : islandsWaiting s = 1#17 <<< i)
include hi hw

/-- The island whose gate is the last one waits. -/
theorem last_waits : (islandsWaiting s).getLsbD i = true := by
  rw [hw]; simp [hi]

/-- No island waits once the last one is held (R75). -/
theorem heldAtGate_waits (h0 : 0 < i) : islandsWaiting (heldAtGate i s) = 0 :=
  held_waits (by simp [passTo_frame ..]) hw h0 hi

variable (hg : s.pwr.stage = .gated)
include hg

/-- The clock-good signal of an island that waits opens its gate (R74). -/
theorem islandClockGood_opens : exec (.islandClockGood i) s = .next (gatesDone { s with pwr := { s.pwr with
    clockGood := s.pwr.clockGood ||| (1#17 <<< i), released := s.pwr.released ||| (1#17 <<< i) } }) := by
  refine (within_next (by simp [hi]) s _).trans ?_
  have waits : (islandsWaiting { s with pwr := { s.pwr with clockGood := s.pwr.clockGood ||| (1#17 <<< i) } }).getLsbD i = true :=
    last_waits hi hw
  rw [if_neg (by simp [hg]), if_pos (by rw [waits]; simp [hg])]

/-- Without that signal the island is held (R75). -/
theorem islandHeld_marks : exec (.islandHeld i) s = .next (gatesDone (heldAtGate i s)) := by
  refine (within_next (by simp [hi]) s _).trans ?_
  rw [if_neg (by simp [hg]), if_pos (by rw [last_waits hi hw]; simp [hg])]
  rfl

end

/-! ### Repeats, reruns and the halt -/

/-- The repeat of the sequence after power-on reset begins with the rails (R76). -/
def porRepeated (b : BootInputs) (s : State) : State :=
  let t := passTo (s.pwr.stepAt + ms 100) s
  { powerOff t with pwr := { t.pwr with
    attempts := t.pwr.attempts + 1, boot := b, railsGood := b.rails, released := 1, counting := false, reloadDone := false } }

theorem porRepeated_parts (b : BootInputs) (s : State) : (porRepeated b s).store.images = s.store.images ∧
    (porRepeated b s).sec.rollback = s.sec.rollback ∧
    (porRepeated b s).pwr = { s.pwr with
      attempts := s.pwr.attempts + 1, boot := b, railsGood := b.rails, released := 1, counting := false, reloadDone := false } := by
  simp [porRepeated, powerOff_images, powerOff_rollback, passTo_frame ..]

/-- The repeat of the sequence after nRESET begins with the check of the retained store (R76). -/
def nresetRepeated (b : BootInputs) (s : State) : State :=
  let t := passTo (s.pwr.stepAt + ms 100) s
  { t with pwr := { t.pwr with attempts := t.pwr.attempts + 1, boot := b, released := t.pwr.released &&& 3 } }

theorem nresetRepeated_parts (b : BootInputs) (s : State) : (nresetRepeated b s).store = s.store ∧
    (nresetRepeated b s).sec = s.sec ∧
    (nresetRepeated b s).pwr = { s.pwr with attempts := s.pwr.attempts + 1, boot := b, released := s.pwr.released &&& 3 } := by
  simp [nresetRepeated, passTo_frame ..]

section
variable {s : State} (h : s.pwr.stage = .retry) (b : BootInputs)
include h

theorem sequenceRepeat_por (hp : s.pwr.byPor = true) : exec (.sequenceRepeat b) s = .next (powerOnWork (porRepeated b s)) := by
  show execSequenceRepeat b s = _
  unfold execSequenceRepeat
  rw [if_pos (by rw [h]; rfl)]
  dsimp only
  rw [if_pos (by simpa [passTo_frame ..] using hp)]
  rfl

theorem sequenceRepeat_nreset (hp : s.pwr.byPor = false) :
    exec (.sequenceRepeat b) s = .next (checkedSequence b (nresetRepeated b s)) := by
  show execSequenceRepeat b s = _
  unfold execSequenceRepeat
  rw [if_pos (by rw [h]; rfl)]
  dsimp only
  rw [if_neg (by simp [hp, passTo_frame ..])]
  rfl

end

/-- A halt leaves I0 alone running and what was held marked (R76). -/
theorem halt_pwr (s : State) : (halt s).pwr = { s.pwr with stage := .halted, released := 1 } := by
  simp [halt, coastLater_frame ..]

/-- The device in the rerun of step 9 (R502). -/
def rerun (b : BootInputs) (s : State) : State :=
  let t := passTo (s.pwr.stepAt + ms 100) s
  { t with pwr := { t.pwr with reruns := t.pwr.reruns + 1, boot := b } }

theorem rerun_parts (b : BootInputs) (s : State) : (rerun b s).store = s.store ∧ (rerun b s).sec = s.sec ∧
    (rerun b s).pwr = { s.pwr with reruns := s.pwr.reruns + 1, boot := b } := by
  simp [rerun, passTo_frame ..]

/-- The rerun boots when the tests pass and halts when they fail again (R502). -/
theorem selfTestRerun_decides {s : State} (h : s.pwr.stage = .selfTestRetry) (pass : Bool) (b : BootInputs) :
    exec (.selfTestRerun pass b) s = .next (if pass then secureBoot (rerun b s)
      else halt { rerun b s with pwr := { (rerun b s).pwr with
        rc := { (rerun b s).pwr.rc with held := (rerun b s).pwr.rc.held ||| (1#16 <<< 10) } } }) := by
  show execSelfTestRerun pass b s = _
  unfold execSelfTestRerun
  rw [if_pos (by rw [h]; rfl)]
  rfl

/-! ### The AON clock -/

/-- Without a good crystal the Chuck stays on the RC 1.5 s after the release; the note of it waits for an open port (R93). -/
theorem aonRcTimeout_stays {s : State} (hp : s.pwr.porAsserted = false) (hd : s.pwr.aonDecided = false) :
    ∃ t, exec .aonRcTimeout s = .next t ∧ t.pwr = { s.pwr with aonDecided := true, aonNoted := s.pwr.ready } ∧
      now t = max (now s) (s.pwr.releasedAt + ms 1500) ∧ t.set = s.set := by
  refine ⟨_, rfl, ?_⟩
  rw [if_neg (by simp [hp, hd])]
  refine ⟨?_, Eq.trans ?_ (now_passTo _ s), ?_⟩
  all_goals dsimp only; split <;> simp [passTo_frame .., now]

/-! ### The settlement -/

/-- Settles O39, event by event. -/
theorem resetsClearAndTheSequenceRuns : Obligations.ResetsClearAndTheSequenceRuns := by
  unfold Obligations.ResetsClearAndTheSequenceRuns
  refine ⟨fun s => ?por, fun s b hp ha hr => ?porEarly, fun s b hp ha hr => ?porWaits, fun s b ha => ?porStays,
    fun s b hp hn hr hb h => ?porRuns, fun s b hp hn hr => ?porHeld, fun s r hg hr hn hall hb h => ?rail,
    fun s w hw hrun hp hl => ?nreset, fun s w hw => ?ignored, fun s b hg hp hl hb hf h => ?release,
    fun s i hi hg hw hh ht h => ?clockGood, fun s i h0 hi hg hw hh ht h => ?held, fun s i h0 hi hg hw hh => ?stops,
    fun s b hg hp hs hn hr hb h => ?porRepeat, fun s b hg hp hbad hb h => ?nresetRepeat, fun s w hg => ?busRead,
    fun s b hg h => ?passes, fun s b hg => ?fails, fun s hp hd => ?crystal, fun s hp hd hn => ?rc⟩
  case por =>
    obtain ⟨settings, plan, cal, profile, counters, keys, images, sec⟩ := powerOff_keeps s
    exact ⟨_, rfl, rfl, rfl, rfl, settings, plan, cal, profile, counters, keys, images, sec,
      rfl, rfl, rfl, rfl, rfl, rfl, rfl, rfl, rfl, rfl⟩
  case porEarly =>
    obtain ⟨set, store, -, clock, -⟩ := porReleased_parts b s
    have waits := powerOnWork_waits_always (s := porReleased b s) hr
    exact ⟨_, (porRelease_works hp ha).trans (congrArg _ waits), rfl, rfl, rfl, clock, set, store⟩
  case porWaits =>
    obtain ⟨set, store, -⟩ := porReleased_parts b s
    obtain ⟨strapSet, strapStore, -⟩ := readStrap_parts (porReleased b s)
    have waits := powerOnWork_waits_config (s := porReleased b s) ha hr
    exact ⟨_, (porRelease_works hp (vddAon_required ha)).trans (congrArg _ waits), rfl, rfl, rfl, strapSet.trans set,
      strapStore.trans store⟩
  case porStays =>
    show execPorRelease b s = _
    unfold execPorRelease
    rw [if_pos (by rw [ha]; simp)]
  case porRuns =>
    obtain ⟨-, store, sec, -⟩ := porReleased_parts b s
    have images := congrArg StoreS.images store
    obtain ⟨runs, cause, strap⟩ := powerOnWork_runs (s := porReleased b s) hr hn hb
      (bootable_congr images (congrArg MortiseS.rollback sec) h)
    refine ⟨_, porRelease_works hp (vddAon_required (railsUp_always (s := porReleased b s) hr)), runsImage_congr images runs, strap, cause.trans ?_⟩
    simp [porReleased, hn]
  case porHeld =>
    obtain ⟨-, store, -, -, commands⟩ := porReleased_parts b s
    obtain ⟨-, strapStore, -, -, -, -, strapCommands⟩ := readStrap_parts (porReleased b s)
    have waits := powerOnWork_waits_nreset (s := porReleased b s) hr hn
    refine ⟨_, (porRelease_works hp (vddAon_required (railsUp_always (s := porReleased b s) hr))).trans (congrArg _ waits), rfl, ?_, ?_, ?_⟩
    · simp
    · simpa [strapCommands] using commands
    · simp [strapStore, store]
  case rail =>
    exact ⟨_, railGood_works hr hg, (powerOnWork_runs (s := railRisen r s) (by rwa [readStrap_railRisen]) hn hb h).1⟩
  case nreset =>
    exact ⟨_, nresetAccepted_resets_running hw hrun hp hl, islandsReset_parts s⟩
  case ignored =>
    show execNresetAccepted w s = _
    unfold execNresetAccepted
    rw [if_pos (by simp [hw])]
  case release =>
    refine ⟨nresetWork b s, ?_, nresetWork_runs hb hf h⟩
    show execNresetRelease b s = _
    unfold execNresetRelease
    simp [hg, hp, hl]
  case clockGood =>
    obtain ⟨runs, ends⟩ := gatesDone_runs (s := { s with pwr := { s.pwr with
      clockGood := s.pwr.clockGood ||| (1#17 <<< i), released := s.pwr.released ||| (1#17 <<< i) } })
      (last_released _ _ _ _ hw) hh ht h
    exact ⟨_, islandClockGood_opens hi hw hg, runs, by rw [ends]⟩
  case held =>
    obtain ⟨store, sec, pwr⟩ := heldAtGate_parts i s
    have images := congrArg StoreS.images store
    obtain ⟨runs, ends⟩ := gatesDone_runs (heldAtGate_waits hi hw h0) (by rw [pwr]; exact hh) (by rw [pwr]; exact ht)
      (bootable_congr images (congrArg MortiseS.rollback sec) h)
    exact ⟨_, islandHeld_marks hi hw hg, runsImage_congr images runs, by rw [ends, pwr], by rw [ends, pwr]⟩
  case stops =>
    obtain ⟨-, -, pwr⟩ := heldAtGate_parts i s
    refine ⟨_, islandHeld_marks hi hw hg, ?_⟩
    rw [gatesDone, if_pos (heldAtGate_waits hi hw h0), islandsDecided_stops (by rw [pwr]; exact hh), pwr]
    split
    · exact ⟨rfl, rfl⟩
    · rw [halt_pwr, pwr]; exact ⟨rfl, rfl⟩
  case porRepeat =>
    obtain ⟨images, rollback, pwr⟩ := porRepeated_parts b s
    have strap : readStrap (porRepeated b s) = porRepeated b s := by
      unfold readStrap; rw [if_pos (by rw [pwr]; exact hs)]
    obtain ⟨runs, attempts⟩ := powerOnWork_runs_attempt (s := porRepeated b s)
      (by rw [strap]; unfold railsUp hostConfig; rw [pwr]; exact hr) (by rw [pwr]; exact hn) (by rw [pwr]; exact hb)
      (bootable_congr images rollback h)
    exact ⟨_, sequenceRepeat_por hg b hp, runsImage_congr images runs, attempts.trans (by rw [pwr])⟩
  case nresetRepeat =>
    obtain ⟨store, sec, pwr⟩ := nresetRepeated_parts b s
    have images := congrArg StoreS.images store
    obtain ⟨runs, attempts⟩ := checkedSequence_runs (s := nresetRepeated b s) hbad (by rw [pwr]; exact hb)
      (bootable_congr images (congrArg MortiseS.rollback sec) h)
    exact ⟨_, sequenceRepeat_nreset hg b hp, runsImage_congr images runs, attempts.trans (by rw [pwr])⟩
  case busRead =>
    show execHaltBusRead w s = _
    unfold execHaltBusRead
    rw [if_pos (by rw [hg]; rfl)]
    cases w <;> rfl
  case passes =>
    obtain ⟨store, sec, pwr⟩ := rerun_parts b s
    have images := congrArg StoreS.images store
    obtain ⟨runs, ends⟩ := secureBoot_runs (bootable_congr images (congrArg MortiseS.rollback sec) h)
    exact ⟨_, selfTestRerun_decides hg true b, runsImage_congr images runs, by rw [if_pos rfl, ends, pwr]⟩
  case fails =>
    obtain ⟨-, -, pwr⟩ := rerun_parts b s
    refine ⟨_, selfTestRerun_decides hg false b, ?_⟩
    rw [if_neg (by decide), halt_pwr, pwr]
    exact ⟨rfl, rfl, rfl⟩
  case crystal =>
    show execAonCrystalSwitch s = _
    unfold execAonCrystalSwitch
    rw [if_neg (by simp [hp, hd])]
  case rc =>
    obtain ⟨t, ht, pwr, clock, set⟩ := aonRcTimeout_stays hp hd
    exact ⟨t, ht, pwr, clock.trans (max_eq_right hn), set⟩

end Sys2Proof.Machine
end

section
/-!
PROOF. A step with no command waiting (O41).
-/

namespace Sys2Proof.Machine

/-- Time that passes moves the clock and device time only (R97, R98). -/
theorem pass_only (n : Nat) (s : State) : pass n s = { s with clk := (pass n s).clk, time := (pass n s).time } := by
  unfold pass; dsimp only; split <;> rfl

theorem now_pass (n : Nat) (s : State) : now (pass n s) = now s + n := by simp [now]

/-- Under power-on reset no clock runs (log 5). -/
theorem idleCycle_por {s : State} (h : s.pwr.porAsserted = true) : idleCycle s = s := if_pos h

/-- Otherwise a cycle of the clock that counts passes: 8 ticks of REF, 7,500 of the AON clock (R97, R98, log 5). -/
theorem idleCycle_runs {s : State} (h : s.pwr.porAsserted = false) :
    idleCycle s = pass (if s.clk.refOn then 8 else 7500) s := if_neg (by simp [h])

theorem idleCycle_only (s : State) : idleCycle s = { s with clk := (idleCycle s).clk, time := (idleCycle s).time } := by
  cases h : s.pwr.porAsserted with
  | true => rw [idleCycle_por h]
  | false => rw [idleCycle_runs h]; exact pass_only _ s

/-- Settles O41, by the cycle that a step on an empty queue is. -/
theorem anEmptyQueueIsOneClockCycle : Obligations.AnEmptyQueueIsOneClockCycle := by
  intro s h
  refine ⟨idleCycle s, ?_, idleCycle_only s, fun hp => idleCycle_por hp, fun hp => ?_⟩
  · unfold step; rw [h]
  · rw [idleCycle_runs hp, now_pass]

end Sys2Proof.Machine
end

section
/-!
PROOF. The commands that configure ports, time, supply, balls and the gatherer, and the reading of the balls (O6).
-/

namespace Sys2Proof.Machine

/-! ### PORT_DECLARE (R363) -/

/-- The report of a budget changes the host port, the trace and the log only (R29). -/
theorem reportBudget_only (cause p : Nat) (s : State) : reportBudget cause p s = { s with
    port := (reportBudget cause p s).port, out := (reportBudget cause p s).out, health := (reportBudget cause p s).health } := by
  apply state_ext <;> simp [reportBudget_frame ..]

/-- PORT_DECLARE stores its clamped fields and reports the two budgets (R363). -/
theorem portDeclareBody_only (f : CmdFrame) (s : State) : (portDeclareBody f s).1 = { s with
    set := { s.set with ports := clampPorts (rawPorts f.payload) }
    store := { s.store with dirtyFirst := some (s.store.dirtyFirst.getD (now s)), dirtyLast := some (now s) }
    port := (portDeclareBody f s).1.port, out := (portDeclareBody f s).1.out, health := (portDeclareBody f s).1.health } := by
  unfold portDeclareBody
  dsimp only
  rw [reportBudget_only, reportBudget_only f.tag 1]
  rfl

/-! ### TIME_CONFIG (R365) -/

/-- TIME_CONFIG stores its clamped fields; a change of the APLL's source freezes it, or lets it go (R365). -/
theorem timeConfigBody_parts (f : CmdFrame) (s : State) :
    (timeConfigBody f s).1.set = { s.set with time := clampTime (rawTime f.payload) } ∧
    (timeConfigBody f s).1.store.dirtyLast = some (now s) ∧
    ((clampTime (rawTime f.payload)).apll ≠ s.set.time.apll →
      (timeConfigBody f s).1.clk.apllFrozen = decide ((clampTime (rawTime f.payload)).apll = 1)) := by
  unfold timeConfigBody
  dsimp only
  refine ⟨?_, ?_, fun h => ?_⟩
  · (repeat' split) <;> simp [noteBy_frame .., changeReference_frame ..]
  · (repeat' split) <;> simp [noteBy_frame .., changeReference_frame .., now]
  · rw [if_neg h]
    by_cases follows : (clampTime (rawTime f.payload)).apll = 1
    · rw [if_pos follows]
      split <;> simp [noteBy_frame .., follows]
    · rw [if_neg follows, if_neg (by simp [follows])]
      simp [follows]

/-! ### SUPPLY_CONFIG (R530) -/

/-- SUPPLY_CONFIG stores its clamped fields; a two-wire supply's target may move, and is then queued for it (R530). -/
theorem supplyConfigBody_only (f : CmdFrame) (s : State) : (supplyConfigBody f s).1 = { s with
    set := { s.set with supply := readSupply f.payload }
    store := { s.store with dirtyFirst := some (s.store.dirtyFirst.getD (now s)), dirtyLast := some (now s) }
    cal := { s.cal with vdd := (supplyConfigBody f s).1.cal.vdd }, bus := (supplyConfigBody f s).1.bus } := by
  unfold supplyConfigBody
  dsimp only
  split
  · apply state_ext <;> simp [queueSupply_frame ..]
  · rfl

/-- Another supply's target is not Gokixel's to move (R530). -/
theorem supplyConfigBody_cal {f : CmdFrame} (h : (readSupply f.payload).output ≠ 1) (s : State) :
    (supplyConfigBody f s).1.cal = s.cal := by
  unfold supplyConfigBody
  dsimp only
  rw [if_neg h]
  rfl

/-! ### GPIO_CONFIG and GET_GPIO (R382, R581) -/

/-- What GPIO_CONFIG stores: the settings of its ball, or those of GPIO4 in the link while a frame on air keeps it (R581). -/
def GpioStored (f : CmdFrame) (s t : State) : Prop :=
  if gpioWaits s f then t.set = s.set ∧ t.link = { s.link with gpio4 := some (readGpio f.payload).2 }
  else t.set = { s.set with gpio := setAt s.set.gpio (readGpio f.payload).1 (readGpio f.payload).2 } ∧
    t.store.dirtyLast = some (now s)

theorem gpioConfigBody_stores (f : CmdFrame) (s : State) : GpioStored f s (gpioConfigBody f s).1 := by
  unfold GpioStored gpioConfigBody
  dsimp only
  split
  · split <;> simp [noteBy_frame ..]
  · (repeat' split) <;> simp [noteBy_frame ..]

theorem gpioConfigBody_only (f : CmdFrame) (s : State) : (gpioConfigBody f s).1 = { s with
    set := (gpioConfigBody f s).1.set, store := (gpioConfigBody f s).1.store, link := (gpioConfigBody f s).1.link
    port := (gpioConfigBody f s).1.port, out := (gpioConfigBody f s).1.out, health := (gpioConfigBody f s).1.health } := by
  apply state_ext <;> simp [gpioConfigBody_frame ..]

theorem leBytes_length (n v : Nat) : (leBytes n v).length = n := by
  induction n generalizing v with
  | zero => rfl
  | succ n ih => simp [leBytes, ih]

/-- GET_GPIO's answer is 4 bytes of levels and 24 entries of 4 bytes (R382). -/
theorem gpioBytes_length (s : State) : (gpioBytes s).length = 100 := by
  simp [gpioBytes, leBytes_length]

/-! ### The settlement -/

/-- Settles O6: each command by what its body leaves. -/
theorem configurationCommandsActOnTheirUnits : Obligations.ConfigurationCommandsActOnTheirUnits := by
  unfold Obligations.ConfigurationCommandsActOnTheirUnits
  refine ⟨fun f s hl h => ?ports, fun f s hl h => ?time, fun f s h => ?timeSet, fun f s hl h => ?supply,
    fun f s hl h => ?gpio, fun f s hl h => ?getGpio, fun f s hl h => ?gather⟩
  case ports =>
    refine changes_direct h hl (fun t u k ht => ?_) (fun p o b x hr => ⟨rfl, ?_, ?_⟩)
    · unfold PortOut at k; rw [k, ht]
    · simpa [portDeclareBody_frame ..] using hr
    · rw [portDeclareBody_only]; rfl
  case time =>
    refine changes_direct h hl (fun t u k ht => ?_) (fun p o b x hr => ⟨rfl, ?_, ?_⟩)
    · unfold PortOut at k; rw [k]; exact ht
    · simpa [timeConfigBody_frame ..] using hr
    · obtain ⟨set, store, frozen⟩ := timeConfigBody_parts f
        { s with port := p, out := o, bus := b, head := { s.head with blocked := x } }
      exact ⟨set, store, frozen, by simp [timeConfigBody_frame ..]⟩
  case timeSet =>
    refine defers_accepted h (fun t u k ht => ?_) (fun u hu _ => ?_)
    · obtain ⟨time, deferred, only⟩ := ht
      unfold PortOut at k
      rw [k]
      exact ⟨time, deferred, by rw [only]⟩
    · unfold ReadsOnly at hu
      rw [hu]
      exact ⟨rfl, rfl, rfl⟩
  case supply =>
    refine changes_direct h hl (fun t u k ht => ?_) (fun p o b x hr => ⟨rfl, ?_, ?_⟩)
    · obtain ⟨set, store, only, cal⟩ := ht
      unfold PortOut at k
      rw [k]
      exact ⟨set, store, by rw [only], cal⟩
    · simpa [supplyConfigBody_frame ..] using hr
    · have only := supplyConfigBody_only f { s with port := p, out := o, bus := b, head := { s.head with blocked := x } }
      exact ⟨congrArg State.set only, congrArg (·.store.dirtyLast) only, by rw [only], fun hn => supplyConfigBody_cal hn _⟩
  case gpio =>
    refine changes_direct h hl (fun t u k ht => ?_) (fun p o b x hr => ⟨rfl, ?_, ?_⟩)
    · obtain ⟨stored, only⟩ := ht
      unfold PortOut at k
      rw [k]
      exact ⟨stored, by rw [only]⟩
    · simpa [gpioConfigBody_frame ..] using hr
    · refine ⟨gpioConfigBody_stores f { s with port := p, out := o, bus := b, head := { s.head with blocked := x } }, ?_⟩
      rw [gpioConfigBody_only]
  case getGpio =>
    refine changes_direct h hl (fun t u k ht => ?_) (fun p o b x hr => ⟨rfl, hr, rfl, gpioBytes_length s⟩)
    obtain ⟨only, len⟩ := ht
    unfold PortOut at k
    exact ⟨by rw [k, only], len⟩
  case gather =>
    refine changes_direct h hl (fun t u k ht => ?_) (fun p o b x hr => ⟨rfl, hr, rfl⟩)
    unfold PortOut at k
    rw [k, ht]

end Sys2Proof.Machine
end

section
/-!
PROOF. Device-time reads, register writes, and the words of ring descriptors through a live port (O10).
-/

namespace Sys2Proof.Machine

/-! ### Device-time reads (R102) -/

section
variable {s : State} {p : Nat} (hp : p < 3) (hl : portLive s p = true)
include hp hl

theorem dtLoRead_live (wide : Bool) : exec (.dtLoRead p wide) s = .next (
    let t := modShadow p (fun _ => { hi := if wide && p == 0 then none else some (readReg s 0x24), status := some (timeStatusWord s) }) s
    if wide && p == 0 then emit (.regs64 p (readReg s 0x20) (readReg s 0x24)) t else emit (.reg p 0x20 (readReg s 0x20)) t) :=
  (within_next (by simp [hp]) s _).trans (congrArg _ (if_pos hl))

theorem dtHiRead_live : exec (.dtHiRead p) s = .next
    (emit (.reg p 0x24 ((shadowOf s p).hi.getD (readReg s 0x24))) (modShadow p (fun x => { x with hi := none }) s)) :=
  (within_next (by simp [hp]) s _).trans (congrArg _ (if_pos hl))

theorem timeStatusRead_live : exec (.timeStatusRead p) s = .next
    (emit (.reg p 0x28 ((shadowOf s p).status.getD (timeStatusWord s))) (modShadow p (fun x => { x with status := none }) s)) :=
  (within_next (by simp [hp]) s _).trans (congrArg _ (if_pos hl))

/-! ### Register writes (R301, R319) -/

theorem regWrite_live {n : Nat} (off : Nat) (v : W32) (hn : 4 ≤ n) : exec (.regWrite p off v n) s = .next (writeReg off v s) :=
  (within_next (by simp [hp]) s _).trans (congrArg _ (if_pos (by simp [hl, hn])))

/-! ### Descriptor writes through a live port -/

theorem headWrite_live {n : Nat} (v : W32) (hn : n < 32) : exec (.headWrite p n v) s = .next (writePointer n true v s) :=
  (within_next (by simp [hp, hn]) s _).trans (congrArg _ (if_pos hl))

theorem tailWrite_live {n : Nat} (v : W32) (hn : n < 32) : exec (.tailWrite p n v) s = .next (writePointer n false v s) :=
  (within_next (by simp [hp, hn]) s _).trans (congrArg _ (if_pos hl))

theorem ringEnableWrite_live {n : Nat} (v : W32) (hn : n < 32) : exec (.ringEnableWrite p n v) s = .next (writePolicy n v s) :=
  (within_next (by simp [hp, hn]) s _).trans (congrArg _ (if_pos hl))

theorem quotaWrite_live {n : Nat} (v : W32) (hn : n < 32) : exec (.quotaWrite p n v) s = .next (writeQuota n v.toNat s) :=
  (within_next (by simp [hp, hn]) s _).trans (congrArg _ (if_pos hl))

end

/-- A write of fewer than four bytes is ignored (R301). -/
theorem regWrite_short {s : State} {p n : Nat} (hp : p < 3) (hn : n < 4) (off : Nat) (v : W32) :
    exec (.regWrite p off v n) s = .next s :=
  (within_next (by simp [hp]) s _).trans (congrArg _ (if_neg (by simp; omega)))

/-- INT_MASK is stored, and the attention output may fall (R301, R398). -/
theorem writeReg_intMask (v : W32) (s : State) :
    writeReg 0x34 v s = attnFall { s with port := { s.port with intMask := v } } := rfl

/-- INT_CLEAR clears the bits written 1, and the attention output may fall (R319, R398). -/
theorem writeReg_intClear (v : W32) (s : State) :
    writeReg 0x38 v s = attnFall { s with port := { s.port with intStatus := s.port.intStatus &&& ~~~v } } := rfl

theorem fetchTimer_examines {s : State} {n : Nat} (hn : n < 32) (hf : fetchable s n = true) :
    exec (.fetchTimer n) s = .next (modRing n (fun r => { r with fetching := true }) s) :=
  (within_next (by simp [hn]) s _).trans (congrArg _ (if_pos hf))

/-! ### HEAD and TAIL (R305) -/

section
variable {s : State} {n : Nat} {v : W32} (hi : internalRing n = false) (hm : inHostMemory s n = true)
include hi hm

/-- The host writes HEAD of the rings that the device produces, in multiples of 8 and no further behind TAIL than the buffer (R305). -/
theorem writePointer_head (hh : hostProduced n = false) (h8 : v.toNat % 8 = 0)
    (hu : ((ringAt s n).tail - v).toNat ≤ 2 ^ (ringSet s n).size) :
    writePointer n true v s = modRing n (fun r => { r with head := v }) s := by
  unfold writePointer
  rw [if_neg (by simp [hi, hm])]
  dsimp only
  rw [if_neg (by simp [hh]), if_neg (by simp [h8]), if_pos rfl, if_neg (by omega), if_pos rfl]

/-- It writes TAIL of those that it produces, no further ahead of HEAD than the buffer (R305). -/
theorem writePointer_tail (hh : hostProduced n = true) (h8 : v.toNat % 8 = 0)
    (hu : (v - (ringAt s n).head).toNat ≤ 2 ^ (ringSet s n).size) :
    writePointer n false v s = modRing n (fun r => { r with tail := v }) s := by
  unfold writePointer
  rw [if_neg (by simp [hi, hm])]
  dsimp only
  simp only [Bool.false_eq_true, if_false]
  rw [if_neg (by simp [hh]), if_neg (by simp [h8]), if_neg (by omega)]

/-- HEAD of a ring that the host produces, or no multiple of 8, is not taken (R305). -/
theorem writePointer_refuses (h : hostProduced n = true ∨ v.toNat % 8 ≠ 0) :
    writePointer n true v s = modRing n (fun r => { r with pointerError := true }) s := by
  unfold writePointer
  rw [if_neg (by simp [hi, hm])]
  dsimp only
  cases hh : hostProduced n with
  | true => rfl
  | false =>
    have h8 : v.toNat % 8 ≠ 0 := by simpa [hh] using h
    rw [if_neg (by decide), if_pos rfl]
    by_cases hu : ((ringAt s n).tail - v).toNat ≤ 2 ^ (ringSet s n).size
    · rw [if_pos (by rw [decide_eq_true h8, decide_eq_true hu]; rfl)]
    · rw [if_neg (by rw [decide_eq_false hu]; simp), if_pos (by omega)]
      simp

end

/-! ### POLICY and QUOTA (R303, R304, R311) -/

/-- A change of one ring that keeps its entries keeps those of every ring. -/
theorem ringAt_modRing_entries {g : Ring → Ring} (h : ∀ r, (g r).entries = r.entries) (n m : Nat) (s : State) :
    (ringAt (modRing n g s) m).entries = (ringAt s m).entries :=
  (modRing_entries n g s h fun _ => False).entries m id

/-- A ring without entries makes nothing visible when it is enabled (R304). -/
theorem enableVisible_empty {n : Nat} {s : State} (h : (ringAt s n).entries = []) : enableVisible n s = s :=
  if_pos (by simp [h])

/-- The settings of a ring of the first twelve, enabled by a POLICY word: its port stays (R293, R303, R304). -/
def enabledBy (n : Nat) (v : W32) (x : RingSettings) : RingSettings :=
  { x with
    dropNewest := if dropFixed n then x.dropNewest else v.getLsbD 0
    threshold := (v.toNat / 256) % 256, timeout := (v.toNat / 65536) % 256, enable := true }

/-- Enabling an empty ring starts its sequence and takes the policy (R303, R304). -/
theorem writePolicy_enables {s : State} {n : Nat} {v : W32} (hn : n < 12) (hi : internalRing n = false) (hv : v.getLsbD 31 = true)
    (ho : (ringSet s n).enable = false) (he : (ringAt s n).entries = []) :
    writePolicy n v s = modRing n (fun r => { r with enabled := true, seq := 0 })
      (settingsDirty (modRingSet n (fun x => { enabledBy n v x with port := (ringSet s n).port }) s)) := by
  have notLog : (n != 31) = true := by simp; omega
  unfold writePolicy
  rw [if_neg (by simp [hi])]
  dsimp only
  simp only [hv, hn, ho, notLog, decide_true, Bool.true_or, Bool.and_self, Bool.not_false, if_true]
  refine enableVisible_empty ((ringAt_modRing_entries ?_ n n _).trans he)
  exact fun _ => rfl

/-- QUOTA is clamped; what the ring then no longer holds touches no setting (R311). -/
theorem writeQuota_parts {n : Nat} (hi : internalRing n = false) (v : Nat) (s : State) :
    (writeQuota n v s).set = (modRingSet n (fun x => { x with quota := clampQuota s n v }) s).set ∧
    (writeQuota n v s).store.dirtyLast = some (now s) := by
  unfold writeQuota
  rw [if_neg (by simp [hi])]
  dsimp only
  constructor <;> split <;> simp [flushResponses_frame .., shrinkRing_frame .., repack_frame .., modRingSet_frame .., now]

/-- Settles O10: each read and write through a live port by what its row does, each word of a descriptor by its own write. -/
theorem registerAccessThroughAPort : Obligations.RegisterAccessThroughAPort := by
  unfold Obligations.RegisterAccessThroughAPort
  refine ⟨fun s p hp hl => dtLoRead_live hp hl false, fun s hl => dtLoRead_live (by decide) hl true,
    fun s p hp hl => dtHiRead_live hp hl, fun s p hp hl => timeStatusRead_live hp hl, fun s p v n hp hl hn => ?mask,
    fun s p v n hp hl hn => regWrite_live hp hl 0x44 v hn, fun s p off v n hp hn => regWrite_short hp hn off v,
    fun s m => ?clear, fun s m => rfl, fun s n hn hh hm he hd => ?fetch,
    fun s p n v hp hn hl hi hm hh h8 hu => ?head, fun s p n v hp hn hl hi hm hh h8 hu => ?tail,
    fun s p n v hp hn hl hi hm h => ?refused, fun s p n v hp hr hs hl hn hi hv ho he => ?enable,
    fun s p n v hp hn hs hl hi => ?quota, fun s n v hn hi => ?status⟩
  case mask => exact ⟨_, regWrite_live hp hl 0x34 v hn, by simp [writeReg_intMask, attnFall_frame ..]⟩
  case clear => exact ⟨_, rfl, by simp [writeReg_intClear, attnFall_frame ..]⟩
  case fetch => exact fetchTimer_examines hn (by simp [fetchable, hh, hm, he, hd])
  case head => rw [headWrite_live hp hl v hn, writePointer_head hi hm hh h8 hu]
  case tail => rw [tailWrite_live hp hl v hn, writePointer_tail hi hm hh h8 hu]
  case refused => rw [headWrite_live hp hl v hn, writePointer_refuses hi hm h]
  case enable =>
    refine ⟨_, ringEnableWrite_live hp hl v (by omega), ?_, ?_, fun m hm => ?_⟩
    all_goals rw [writePolicy_enables hn hi hv ho he]
    · rw [ringAt_modRing, if_pos ⟨rfl, by simpa [modRingSet_frame ..] using (by omega : n < s.port.rings.length)⟩]
      rfl
    · refine (ringSet_modRingSet n n _ s).trans ?_
      rw [if_pos ⟨rfl, by omega⟩]
      rfl
    · have other : n ≠ m := hm.symm
      refine ⟨?_, (ringSet_modRingSet n m _ s).trans (if_neg (by simp [other]))⟩
      rw [ringAt_modRing, if_neg (by simp [other])]
      rfl
  case quota =>
    obtain ⟨set, store⟩ := writeQuota_parts hi v.toNat s
    refine ⟨_, quotaWrite_live hp hl v hn, ?_, fun m hm => ?_, store⟩
    all_goals rw [ringSet_congr set, ringSet_modRingSet]
    · rw [if_pos ⟨rfl, by omega⟩]
    · rw [if_neg (fun h => hm h.1.symm)]
  case status =>
    refine (within_next (by simp [hn]) s _).trans (congrArg _ (if_neg (by simp [hi])))

end Sys2Proof.Machine
end

section
/-!
PROOF. Steps of device time at second boundaries, the edges of the timing reference, and its losses (O13).
-/

namespace Sys2Proof.Machine

/-! ### Steps of device time (R101, R106, R110) -/

/-- A decided reference step moves device time by its delta, in the next epoch (R106, R110). -/
theorem applySecond_step {s : State} {d : Int} (h : s.time.step = some d) (hs : s.time.setTo = none) :
    (applySecond s).time.step = none ∧ (applySecond s).time.epoch = s.time.epoch + 1 ∧
    (applySecond s).time.plumb = .slewing ∧ (applySecond s).time.near = 0 ∧
    (applySecond s).time.count = BitVec.ofInt 64 ((64 * (s.time.count.toNat : Int) + s.time.sub + d) / 64) ∧
    (applySecond s).time.sub = ((64 * (s.time.count.toNat : Int) + s.time.sub + d) % 64).toNat := by
  unfold applySecond
  simp [h, hs, moveInstants_frame ..]

/-- A TIME_SET that differs from the present count becomes device time, in the next epoch; its commands are answered (R101, R110). -/
theorem applySecond_set {s : State} {n : Nat} (h : s.time.setTo = some n) (hs : s.time.step = none)
    (hn : n * ticksPerSecond + s.time.count.toNat % ticksPerSecond ≠ s.time.count.toNat) :
    (applySecond s).time.setTo = none ∧ (applySecond s).time.epoch = s.time.epoch + 1 ∧
    (applySecond s).time.count =
      BitVec.ofInt 64 ((64 * (n * ticksPerSecond + s.time.count.toNat % ticksPerSecond : Nat) + (s.time.sub : Int)) / 64) ∧
    (applySecond s).head.deferred = s.head.deferred.filter (fun x => x.key != .timeSet) := by
  unfold applySecond
  simp [h, hs, hn, Option.filter, release_head, moveInstants_frame ..]

/-- Reaching a second leaves the epoch and what waits for the boundary (R101, R106). -/
theorem toSecond_waits (s : State) : (toSecond s).time.step = s.time.step ∧ (toSecond s).time.setTo = s.time.setTo ∧
    (toSecond s).time.epoch = s.time.epoch := by
  have h := toSecond_time s
  unfold TimeMoved at h
  rw [h]
  exact ⟨rfl, rfl, rfl⟩

theorem plumbStep_applies {s : State} {d : Int} (h : s.time.step = some d) (hr : timeRuns s = true) :
    exec .plumbStep s = .next (applySecond (toSecond s)) :=
  congrArg _ (if_pos (by simp [h, hr]))

theorem timeSetApply_applies {s : State} {n : Nat} (h : s.time.setTo = some n) (hr : timeRuns s = true) :
    exec .timeSetApply s = .next (applySecond (toSecond s)) :=
  congrArg _ (if_pos (by simp [h, hr]))

/-! ### Accepted edges (R104 to R106) -/

/-- The device with an accepted edge noted, before Plumb acts on it (R104, R385). -/
def edgeTaken (d : Int) (s : State) : State :=
  { s with time := { s.time with lastDelta := some d, rateDelta := some d, lastEdge := some (now s) } }

/-- A slew leaves what the last edge was (R106). -/
theorem slewToward_edge (d : Int) (s : State) : (slewToward d s).time.lastEdge = s.time.lastEdge ∧
    (slewToward d s).time.lastDelta = s.time.lastDelta := ⟨rfl, rfl⟩

/-- Whatever Plumb does with an accepted edge, it is the last edge and its delta the last delta (R104, R106, R385). -/
theorem plumbEdge_takes {s : State} (d : Int) (h : s.time.plumb ≠ .free) :
    (plumbEdge d s).time.lastEdge = some (now s) ∧ (plumbEdge d s).time.lastDelta = some d := by
  unfold plumbEdge
  rw [if_neg h]
  dsimp only
  (repeat' split) <;> simp [slewToward_edge ..]

section
variable {s : State} {d : Int} (hl : s.time.everLocked = true) (hs : s.clk.sPll = .locked)
include hl hs

/-- Within 100 ns LOCKED slews toward the edge and stays LOCKED (R106). -/
theorem plumbEdge_locked (hp : s.time.plumb = .locked) (hd : d.natAbs * 1000 ≤ 1572864) :
    plumbEdge d s = slewToward d { edgeTaken d s with time := { (edgeTaken d s).time with near := s.time.near + 1 } } := by
  have close : d.natAbs * 100 ≤ 3145728 := by omega
  unfold plumbEdge edgeTaken
  simp [hl, hs, hp, hd, close]

/-- Far from its second an edge starts qualification, unless it runs or Plumb is FREE (R106). -/
theorem plumbEdge_qualifies (hf : s.time.plumb ≠ .free) (hq : s.time.plumb ≠ .qualifying) (hd : 3145728 < d.natAbs * 100) :
    plumbEdge d s = { edgeTaken d s with time := { (edgeTaken d s).time with
      plumb := .qualifying, first := d, agree := 1, slewLeft := 0 } } := by
  have far : ¬ d.natAbs * 100 ≤ 3145728 := by omega
  unfold plumbEdge edgeTaken
  simp [hl, hs, hf, hq, far]

/-- The fourth edge that agrees with the first decides the step (R106). -/
theorem plumbEdge_decides (hq : s.time.plumb = .qualifying) (ha : s.time.agree = 3) (hd : 3145728 < d.natAbs * 100)
    (hn : (d - s.time.first).natAbs * 100000 ≤ 157286400) :
    plumbEdge d s = { edgeTaken d s with time := { (edgeTaken d s).time with agree := 4, slewLeft := 0, step := some d } } := by
  have far : ¬ d.natAbs * 100 ≤ 3145728 := by omega
  have agrees : ¬ 157286400 < (d - s.time.first).natAbs * 100000 := by omega
  unfold plumbEdge edgeTaken
  simp [hl, hs, hq, ha, far, agrees]

end

/-! ### PPS_EDGE, TEN_MHZ_WINDOW, REFERENCE_LOST (R104) -/

/-- A note for the log alone changes the health log alone (R550). -/
theorem noteLog_only (code island subject value : Nat) (s : State) :
    noteLog code island subject value s = { s with health := (noteLog code island subject value s).health } := by
  unfold noteLog logNote
  dsimp only
  split <;> rfl

section
variable {s : State} (hr : s.clk.refOn = true) (hp : s.pwr.porAsserted = false)
include hr hp

/-- A rising edge 900 ms or more after the last one is accepted (R104, R105). -/
theorem ppsEdge_accepted (ht : s.set.time.ref = 1) (hl : ∀ e, s.time.lastEdge = some e → e + ms 900 ≤ now s) (x : Int) :
    exec (.ppsEdge true x) s = .next (plumbEdge (ppsDelta s (now64 s + x)) s) := by
  show execPpsEdge true x s = _
  unfold execPpsEdge
  rw [if_neg (by simp [hr, hp, ht])]
  split
  · next e he => rw [if_neg (by have := hl e he; omega)]
  · rfl

/-- An earlier one is logged, and not accepted (R104). -/
theorem ppsEdge_early {e : Nat} (ht : s.set.time.ref = 1) (he : s.time.lastEdge = some e) (hn : now s < e + ms 900) (x : Int) :
    exec (.ppsEdge true x) s = .next (noteLog 0x0106 0xFF 0 ((now s - e) * 100 / 24576) s) := by
  show execPpsEdge true x s = _
  unfold execPpsEdge
  rw [if_neg (by simp [hr, hp, ht]), he]
  exact congrArg _ (if_pos hn)

/-- A measured window without the signal loses the reference at its end (R104). -/
theorem tenMhzWindow_loses {m : TenMhzMeas} (ht : s.set.time.ref = 3) (hm : tenMhzOk m = false) :
    exec (.tenMhzWindow m) s = .next (
      let u := passTo (s.time.lastEdge.getD s.time.refAt + ms 1) s
      coast none { u with time := { u.time with lastEdge := some (now u) } }) := by
  show execTenMhzWindow m s = _
  unfold execTenMhzWindow
  rw [if_neg (by simp [hr, hp, ht]), hm]
  rfl

/-- With the signal its end is the accepted edge (R104, R105). -/
theorem tenMhzWindow_accepts {m : TenMhzMeas} (ht : s.set.time.ref = 3) (hm : tenMhzOk m = true) :
    exec (.tenMhzWindow m) s = .next (
      let u := passTo (s.time.lastEdge.getD s.time.refAt + ms 1) s
      plumbEdge (tenMhzDelta s (now64 u + m.sub)) u) := by
  have offset (t64 : Int) : tenMhzDelta (passTo (s.time.lastEdge.getD s.time.refAt + ms 1) s) t64 = tenMhzDelta s t64 := by
    rw [passTo_only]; rfl
  show execTenMhzWindow m s = _
  unfold execTenMhzWindow
  rw [if_neg (by simp [hr, hp, ht])]
  dsimp only
  rw [if_pos hm, offset]

end

/-- The control value stands while time passes (R106). -/
theorem passTo_control (due : Nat) (s : State) : (passTo due s).time.control = s.time.control := by
  have h := passTo_time due s
  unfold TimeMoved at h
  rw [h]

/-- Coasting freezes the control value (R106). -/
theorem coast_control (c : Option Nat) (s : State) : (coast c s).time.control = s.time.control := by
  rw [coast_time]

/-- 2.5 s after the last PPS edge Plumb coasts (R104, R106). -/
theorem referenceLost_coasts {s : State} (ht : s.set.time.ref = 1) (hp : s.time.plumb = .locked) :
    exec .referenceLost s = .next (coast none (passTo (s.time.lastEdge.getD s.time.refAt + ms 2500) s)) :=
  congrArg _ (if_pos (by simp [ht, hp]))

/-- Settles O13: the steps by what a second boundary applies, each edge by Plumb's case for it, the losses by the coast. -/
theorem deviceTimeStepsAndFollowsItsReference : Obligations.DeviceTimeStepsAndFollowsItsReference := by
  unfold Obligations.DeviceTimeStepsAndFollowsItsReference
  refine ⟨fun s d h hs hr => ?step, fun s n past h hs hr hpast hn => ?set, fun s x e hr hp ht he hn => ?early,
    fun s x hr hp ht hk hl hs he hd => ?locked, fun s x hr hp ht hf hq hl hs he hd => ?qualifies,
    fun s x hr hp ht hq ha hl hs he hd hn => ?decides, fun s m hr hp ht hm hf => ?absent,
    fun s m hr hp ht hm hf => ?present, fun s ht hp => ?lost⟩
  case step =>
    obtain ⟨wstep, wset, wepoch⟩ := toSecond_waits s
    obtain ⟨step, epoch, plumb, near, count, sub⟩ := applySecond_step (wstep.trans h) (wset.trans hs)
    exact ⟨_, plumbStep_applies h hr, step, by rw [epoch, wepoch], plumb, near, count, sub, by simp [applySecond_frame ..]⟩
  case set =>
    subst hpast
    obtain ⟨wstep, wset, wepoch⟩ := toSecond_waits s
    obtain ⟨set, epoch, count, deferred⟩ := applySecond_set (wset.trans h) (wstep.trans hs) hn
    exact ⟨_, timeSetApply_applies h hr, set, by rw [epoch, wepoch], count, by rw [deferred]; simp [toSecond_frame ..]⟩
  case early => exact ⟨_, ppsEdge_early hr hp ht he hn x, noteLog_only ..⟩
  case locked =>
    refine ⟨_, ppsEdge_accepted hr hp ht he x, ?_⟩
    rw [plumbEdge_locked hl hs hk hd]
    exact ⟨hk, rfl, rfl, rfl, rfl, rfl⟩
  case qualifies =>
    refine ⟨_, ppsEdge_accepted hr hp ht he x, ?_⟩
    rw [plumbEdge_qualifies hl hs hf hq hd]
    rfl
  case decides =>
    refine ⟨_, ppsEdge_accepted hr hp ht he x, ?_⟩
    rw [plumbEdge_decides hl hs hq ha hd hn]
    exact ⟨rfl, rfl, rfl, rfl⟩
  case absent =>
    refine ⟨_, tenMhzWindow_loses hr hp ht hm, coast_plumb _ (by simpa using hf), ?_⟩
    rw [← now_passTo]
    simp [now, coast_frame ..]
  case present =>
    obtain ⟨edge, delta⟩ := plumbEdge_takes (s := passTo (s.time.lastEdge.getD s.time.refAt + ms 1) s)
      (tenMhzDelta s (now64 (passTo (s.time.lastEdge.getD s.time.refAt + ms 1) s) + m.sub)) (by simpa using hf)
    refine ⟨_, tenMhzWindow_accepts hr hp ht hm, edge.trans ?_, delta⟩
    simp [now, plumbEdge_frame ..]
  case lost =>
    refine ⟨_, referenceLost_coasts ht hp, coast_plumb _ (by simp [hp]), ?_, ?_⟩
    · rw [coast_control, passTo_control]
    · rw [← now_passTo]
      simp [now, coast_frame ..]

end Sys2Proof.Machine
end

section
/-!
PROOF. Loops that lose lock, the stop of REF, and what a stopped clock brings (O14).
-/

namespace Sys2Proof.Machine

/-- The note of a loss goes to the health log alone (R95, R550). -/
theorem noteLoss_only (code : Nat) (s : State) : noteLoss code s = { s with health := (noteLoss code s).health } := by
  unfold noteLoss
  split
  · rfl
  · exact noteLog_only ..

/-! ### What each loss costs (R95, R106, R290, R434) -/

/-- The SYSPLL's loss suspends the watchdog and clears the air; receptions are dropped (R95, R434, log 132). -/
theorem loseSysPll_parts {s : State} (h : s.clk.sysPll = .locked) :
    (loseSysPll s).clk = { s.clk with sysPll := .lost (now s), wdogSuspended := true } ∧
    (loseSysPll s).link.air = none ∧ (loseSysPll s).link.rx = [] ∧ (loseSysPll s).time = s.time := by
  unfold loseSysPll
  rw [if_neg (by simp [h])]
  simp [now, cutAir_frame .., noteLoss_frame ..]

/-- The SPLL's loss lets qualification start again, and stops a slew (R95, R106). -/
theorem loseSPll_parts {s : State} (h : s.clk.sPll = .locked) :
    (loseSPll s).clk = { s.clk with sPll := .lost (now s) } ∧
    (loseSPll s).time = { s.time with agree := 0, slewLeft := 0 } ∧ (loseSPll s).set = s.set := by
  unfold loseSPll
  rw [if_neg (by simp [h])]
  simp [now, gapWindow_frame .., noteLoss_frame ..]

/-- The APLL's loss is logged, and nothing else changes (R95). -/
theorem loseAPll_parts {s : State} (h : s.clk.aPll = .locked) :
    (loseAPll s).clk = { s.clk with aPll := .lost (now s) } ∧
    loseAPll s = { s with clk := (loseAPll s).clk, health := (loseAPll s).health } := by
  unfold loseAPll
  rw [if_neg (by simp [h]), noteLoss_only]
  exact ⟨rfl, rfl⟩

/-- The link synthesiser's loss clears the air, and the radio stands by or goes on sleeping (R95, R434). -/
theorem loseSynth_parts {s : State} (h : s.clk.linkSynth = .locked) :
    (loseSynth s).clk = { s.clk with linkSynth := .lost (now s) } ∧ (loseSynth s).link.air = none ∧
    ((loseSynth s).link.radio = .standby ∨ (loseSynth s).link.radio = .sleep) ∧ (loseSynth s).link.radioTo = none := by
  unfold loseSynth
  rw [if_neg (by simp [h])]
  refine ⟨?_, ?_, ?_, rfl⟩
  · simp [now, cutAir_frame .., noteLoss_frame ..]
  · simp
  · dsimp only; split <;> simp

/-- The loss of the host word clock freezes the APLL's frequency and is logged (R95, R290). -/
theorem loseWordClock_parts {s : State} (ha : s.set.time.apll = 1) (h : s.clk.wordClock = .locked) :
    (loseWordClock s).clk = { s.clk with wordClock := .lost (now s), apllFrozen := true, wordLost := true } ∧
    loseWordClock s = { s with clk := (loseWordClock s).clk, health := (loseWordClock s).health } := by
  unfold loseWordClock
  rw [if_neg (by simp [ha, h]), noteLoss_only]
  exact ⟨rfl, rfl⟩

/-! ### The stop of REF (R95, R98, R602) -/

/-- The stop of REF is logged and leaves Plumb coasting before any loop has lost lock (R602). -/
theorem coastLater_noteLoss_parts (code : Nat) (s : State) : (coastLater (noteLoss code s)).clk = s.clk ∧
    (s.time.plumb ≠ .free → (coastLater (noteLoss code s)).time.plumb = .coasting) := by
  refine ⟨by simp [coastLater_frame .., noteLoss_frame ..], fun hf => coastLater_plumb ?_⟩
  simpa [noteLoss_frame ..] using hf

/-- With REF every loop loses lock, Plumb coasts, and nothing stays on air (R95, R98, R602). -/
theorem refStops_parts {s : State} (hr : s.clk.refOn = true) (hsys : s.clk.sysPll = .locked) (hs : s.clk.sPll = .locked)
    (ha : s.clk.aPll = .locked) (hl : s.clk.linkSynth = .locked) :
    (refStops s).clk = { s.clk with
      refOn := false, refOffAt := now s, wdogSuspended := true
      sysPll := .lost (now s), sPll := .lost (now s), aPll := .lost (now s), linkSynth := .lost (now s) } ∧
    (refStops s).link.air = none ∧ (s.time.plumb ≠ .free → (refStops s).time.plumb = .coasting) := by
  unfold refStops
  rw [if_neg (by simp [hr])]
  dsimp only
  obtain ⟨clk0, plumb0⟩ := coastLater_noteLoss_parts 5 s
  generalize coastLater (noteLoss 5 s) = u at clk0 plumb0 ⊢
  obtain ⟨clk1, -, -, time1⟩ := loseSysPll_parts (s := u) (by rw [clk0, hsys])
  obtain ⟨clk2, time2, -⟩ := loseSPll_parts (s := loseSysPll u) (by simp [clk1, clk0, hs])
  obtain ⟨clk3, -⟩ := loseAPll_parts (s := loseSPll (loseSysPll u)) (by simp [clk2, clk1, clk0, ha])
  obtain ⟨clk4, air4, -⟩ := loseSynth_parts (s := loseAPll (loseSPll (loseSysPll u))) (by simp [clk3, clk2, clk1, clk0, hl])
  refine ⟨?_, air4, fun hf => ?_⟩
  · simp [now, clk4, clk3, clk2, clk1, clk0]
  · simp [loseSynth_frame .., loseAPll_frame .., time2, time1, plumb0 hf]

/-! ### After a loss (R95, R171) -/

/-- 16,384 ticks after Kerf's clock stopped the buffer of a window that is up has overflowed (R171). -/
theorem kerfBufferFull_fills {s : State} {w since : Nat} (hw : w < 5) (hs : s.clk.sysPll = .lost since)
    (ho : windowOpen s w = true) (hf : s.clk.kerfFull.contains w = false) (hr : s.clk.refOn = true) :
    exec (.kerfBufferFull w) s = .next { passTo (since + 16384) s with
      clk := { (passTo (since + 16384) s).clk with kerfFull := s.clk.kerfFull ++ [w] } } := by
  refine (within_next (by simp [hw]) s _).trans ?_
  rw [hs]
  dsimp only
  rw [if_pos (by rw [ho, hf, hr]; rfl)]
  simp

/-- A lost loop is tried again at the next whole millisecond after its loss (R95). -/
theorem loopRelockAttempt_waits {s : State} {l : Loop} {since : Nat} (h : loopAt s l = .lost since) :
    exec (.loopRelockAttempt l) s = .next (passTo (since + ms ((now s - since) / ms 1 + 1)) s) := by
  show execLoopRelockAttempt l s = _
  unfold execLoopRelockAttempt
  rw [h]

/-- Settles O14, loop by loop. -/
theorem loopsLoseLock : Obligations.LoopsLoseLock := by
  unfold Obligations.LoopsLoseLock
  refine ⟨fun s h => ⟨_, rfl, loseSysPll_parts h⟩, fun s h => ?sPll, fun s h => ⟨_, rfl, loseAPll_parts h⟩,
    fun s h => ⟨_, rfl, loseSynth_parts h⟩, fun s ha h => ⟨_, rfl, loseWordClock_parts ha h⟩, fun s => rfl,
    fun s hr hsys hs ha hl => ⟨_, rfl, refStops_parts hr hsys hs ha hl⟩, fun s ha h => ⟨_, rfl, loseWordClock_parts ha h⟩,
    fun s w since hw hs ho hf hr => ?full, fun s l since h => ?attempt⟩
  case sPll =>
    obtain ⟨clk, time, set⟩ := loseSPll_parts h
    exact ⟨_, rfl, clk, by rw [time], by rw [time], by rw [time], set⟩
  case full =>
    refine ⟨_, kerfBufferFull_fills hw hs ho hf hr, rfl, now_passTo _ s, ?_⟩
    rw [passTo_only]
  case attempt => exact ⟨_, loopRelockAttempt_waits h, now_passTo _ s, passTo_only _ s⟩

end Sys2Proof.Machine
end

section
/-!
PROOF. REF that returns, loops that relock, and the word clock that the APLL follows again (O15).
-/

namespace Sys2Proof.Machine

/-! ### Outages (R95) -/

/-- The clocks when an outage has lasted its microseconds (R95). -/
def outageEnd (since us : Nat) (s : State) : ClockS :=
  { s.clk with elapsed := max (now s) (since + (us * 24576 + 99) / 100) }

theorem lastOutage_clk (since us : Nat) (s : State) : (lastOutage since us s).clk = outageEnd since us s := by
  unfold lastOutage outageEnd
  rw [passTo_elapsed, ← now_passTo]
  simp [now]

@[simp] theorem outageEnd_keeps (since us : Nat) (s : State) : (outageEnd since us s).wordLost = s.clk.wordLost ∧
    (outageEnd since us s).owed = s.clk.owed := ⟨rfl, rfl⟩

/-- An outage that is over lasts no longer. -/
theorem outageEnd_past {since us : Nat} {s : State} (h : since + (us * 24576 + 99) / 100 ≤ now s) : outageEnd since us s = s.clk := by
  unfold outageEnd
  rw [max_eq_left h]
  rfl

/-- While the Headstock's clock runs an outage is posted at once (R95). -/
theorem noteLoop_posts {s : State} (h : s.clk.sysPll = .locked) (code us : Nat) :
    noteLoop code us s = note 0x0105 0xFF code (us % 4294967296) s := if_pos h

/-- While it stands the outage is logged and waits (R95, log 84). -/
theorem noteLoop_waits {s : State} (h : s.clk.sysPll ≠ .locked) (code us : Nat) : noteLoop code us s = { s with
    clk := { s.clk with owed := s.clk.owed ++ [(code, us % 4294967296)] }, health := (noteLoop code us s).health } := by
  unfold noteLoop
  rw [if_neg h, noteLog_only]

/-- What is left of the clocks `c` by the report of an outage: other outages may wait, but none more while the Headstock's clock
runs (R95). -/
def Reported (c d : ClockS) : Prop := d = { c with owed := d.owed } ∧ (c.sysPll = .locked → d.owed = c.owed)

theorem noteLoop_reports {s : State} {c : ClockS} (hc : s.clk = c) (code us : Nat) : Reported c (noteLoop code us s).clk := by
  subst hc
  by_cases h : s.clk.sysPll = .locked
  · rw [noteLoop_posts h]
    simp [Reported]
  · rw [noteLoop_waits h]
    exact ⟨rfl, fun k => absurd k h⟩

/-- After the outages that waited are posted none waits (R95). -/
theorem noteOwed_clk (s : State) : (noteOwed s).clk = { s.clk with owed := [] } := by
  unfold noteOwed
  simp

/-! ### Relocks (R95, R96, R171) -/

section
variable {s : State} {since : Nat} (us : Nat) (hr : s.clk.refOn = true)
include hr

/-- The SYSPLL's relock lets the watchdog run, empties Kerf's buffers and posts the outages that waited (R95, R171). -/
theorem relockSysPll_clk (h : s.clk.sysPll = .lost since) : (relockSysPll us s).clk =
    { outageEnd since us s with sysPll := .locked, wdogSuspended := false, kerfFull := [], owed := [] } := by
  unfold relockSysPll
  rw [h]
  dsimp only
  rw [if_neg (by simp [hr]), noteOwed_clk, noteLoop_posts]
  all_goals simp [postCoasted_frame .., gapAfterBuffer_frame .., lastOutage_clk]

theorem relockSPll_reports (h : s.clk.sPll = .lost since) :
    Reported { outageEnd since us s with sPll := .locked } (relockSPll us s).clk := by
  unfold relockSPll
  rw [h]
  dsimp only
  rw [if_neg (by simp [hr])]
  exact noteLoop_reports (by simp [lastOutage_clk]) _ _

/-- At the APLL's relock the outputs that play on a TDM port fade in there (R95). -/
theorem relockAPll_reports (h : s.clk.aPll = .lost since) :
    Reported { outageEnd since us s with aPll := .locked } (relockAPll us s).clk ∧
    (relockAPll us s).prog = { s.prog with
      pcms := s.prog.pcms.map (fun x => if x.playing && x.port < 4 then { x with portFade := (480, 480) } else x) } := by
  unfold relockAPll
  rw [h]
  dsimp only
  rw [if_neg (by simp [hr])]
  refine ⟨noteLoop_reports (by simp [lastOutage_clk]) _ _, ?_⟩
  simp [noteLoop_frame .., lastOutage_frame ..]

theorem relockSynth_reports (h : s.clk.linkSynth = .lost since) :
    Reported { outageEnd since us s with linkSynth := .locked } (relockSynth us s).clk := by
  unfold relockSynth
  rw [h]
  dsimp only
  rw [if_neg (by simp [hr])]
  exact noteLoop_reports (by simp [radioRest_frame .., lastOutage_clk]) _ _

end

/-! ### The word clock and REF (R95, R98, R290) -/

/-- The APLL follows a word clock that is there again, and the outage is reported where it had locked before (R290). -/
theorem lockWordClock_reports {s : State} {since : Nat} (ha : s.set.time.apll = 1) (h : s.clk.wordClock = .lost since)
    (hw : wordClockAbsent s = false) (us : Nat) :
    Reported { outageEnd since us s with wordClock := .locked, apllFrozen := false, wordLost := false } (lockWordClock us s).clk ∧
    (s.clk.wordLost = false → (lockWordClock us s).clk.owed = s.clk.owed) := by
  unfold lockWordClock
  rw [h]
  dsimp only
  rw [if_neg (by simp [ha, hw])]
  split
  · next hl =>
    refine ⟨noteLoop_reports (by rw [lastOutage_clk]) _ _, fun k => ?_⟩
    simp [lastOutage_clk, k] at hl
  · simp [Reported, lastOutage_clk]

/-- Outside HOLD and power-on reset REF runs again, and its outage is reported (R95, R98). -/
theorem refReturns_runs {s : State} (hr : s.clk.refOn = false) (hp : s.pwr.porAsserted = false) (hm : s.set.mode ≠ .hold) :
    refReturns s = noteLoop 5 (outageUs s.clk.refOffAt s) { s with clk := { s.clk with refOn := true } } :=
  if_neg (by simp [hr, hp, hm])

/-- A loop that is locked does not relock (R95). -/
theorem loopRelock_locked {s : State} {l : Loop} (us : Nat) (h : loopAt s l = .locked) : exec (.loopRelock l us) s = .next s := by
  show execLoopRelock l us s = _
  unfold execLoopRelock
  congr 1
  cases l with
  | sysPll => unfold relockSysPll; rw [show s.clk.sysPll = .locked from h]
  | sPll => unfold relockSPll; rw [show s.clk.sPll = .locked from h]
  | aPll => unfold relockAPll; rw [show s.clk.aPll = .locked from h]
  | wordClock => unfold lockWordClock; rw [show s.clk.wordClock = .locked from h]
  | linkSynth => unfold relockSynth; rw [show s.clk.linkSynth = .locked from h]
  | ref =>
    have runs : s.clk.refOn = true := by
      by_contra stopped
      simp [loopAt, stopped] at h
    exact if_pos (by simp [runs])

/-- Settles O15, loop by loop. -/
theorem loopsRegainLock : Obligations.LoopsRegainLock := by
  unfold Obligations.LoopsRegainLock
  refine ⟨fun s hr hp hm => ?ref, fun s since ha h hn hw => ?wordClock, fun s us since hr h => ?sysPll,
    fun s us since hr h => ?sPll, fun s us since hr h => ?aPll, fun s us since hr h => ?synth, fun s us => ?locked⟩
  case ref =>
    refine ⟨_, congrArg Host.Outcome.next (refReturns_runs hr hp hm), ?_, ?_, ?_, fun h => ?_⟩
    · obtain ⟨clk, -⟩ := noteLoop_reports (s := { s with clk := { s.clk with refOn := true } }) rfl 5 (outageUs s.clk.refOffAt s)
      rw [clk]
    · simp [noteLoop_frame ..]
    · simp [noteLoop_frame ..]
    · have waits := noteLoop_waits (s := { s with clk := { s.clk with refOn := true } }) h 5 (outageUs s.clk.refOffAt s)
      have clk := congrArg State.clk waits
      exact ⟨by rwa [clk], clk⟩
  case wordClock =>
    obtain ⟨⟨clk, -⟩, owed⟩ := lockWordClock_reports ha h hw 0
    refine ⟨_, rfl, ?_, owed⟩
    rw [clk, outageEnd_past (us := 0) (by omega)]
  case sysPll =>
    have clk := relockSysPll_clk us hr h
    exact ⟨_, rfl, by rw [clk], by rw [clk], by rw [clk], by rw [clk], congrArg ClockS.elapsed clk, by simp [relockSysPll_frame ..]⟩
  case sPll =>
    obtain ⟨clk, owed⟩ := relockSPll_reports us hr h
    exact ⟨_, rfl, clk, owed, by simp [relockSPll_frame ..]⟩
  case aPll =>
    obtain ⟨⟨clk, owed⟩, prog⟩ := relockAPll_reports us hr h
    exact ⟨_, rfl, clk, owed, by simp [relockAPll_frame ..], prog⟩
  case synth =>
    obtain ⟨clk, owed⟩ := relockSynth_reports us hr h
    exact ⟨_, rfl, clk, owed, by simp [relockSynth_frame ..], by simp [relockSynth_frame ..]⟩
  case locked =>
    exact ⟨loopRelock_locked (l := .sysPll) us, loopRelock_locked (l := .sPll) us, loopRelock_locked (l := .aPll) us,
      loopRelock_locked (l := .linkSynth) us⟩

end Sys2Proof.Machine
end

section
/-!
PROOF. The sizes of the unit tables at reset and across every step (O43, O44). A command of the command table keeps what its body
keeps; an event of the two resets leaves tables of the device's sizes; every other event keeps the sizes, by the frames of the
operations that it calls.
-/

namespace Sys2Proof.Machine

/-- Settles O43, by the tables of the state after reset. -/
theorem unitTablesAtReset : Obligations.UnitTablesAtReset := by
  unfold Obligations.UnitTablesAtReset UnitTables
  decide

/-- Where an outcome is a next state, unit tables of the device's sizes are left so. -/
def KeepsUnits (s : State) (o : Host.Outcome State Fault Refusal) : Prop := ∀ t, o = .next t → UnitTables s → UnitTables t

theorem keepsUnits_next {s t : State} (h : UnitTables s → UnitTables t) : KeepsUnits s (.next t) := by
  rintro _ ⟨⟩; exact h

theorem keepsUnits_within {s t : State} {b : Bool} (h : UnitTables s → UnitTables t) : KeepsUnits s (within s b t) := by
  cases b
  · exact keepsUnits_next id
  · exact keepsUnits_next h

/-- Where an outcome is a next state, its unit tables have the sizes they had. -/
def KeepsSizes (s : State) (o : Host.Outcome State Fault Refusal) : Prop := ∀ t, o = .next t → SameSizes s t

@[simp] theorem keepsSizes_next {s t : State} : KeepsSizes s (.next t) ↔ SameSizes s t :=
  ⟨fun h => h _ rfl, by rintro h _ ⟨⟩; exact h⟩

/-- A row about units leaves the state as it is where the device has not that unit (log 133). -/
@[simp] theorem keepsSizes_within {s t : State} {b : Bool} : KeepsSizes s (within s b t) ↔ (b = true → SameSizes s t) := by
  cases b <;> simp [within]

theorem KeepsSizes.units {s : State} {o : Host.Outcome State Fault Refusal} (h : KeepsSizes s o) : KeepsUnits s o :=
  fun t ht => units_of_sizes (h t ht)

/-- Taking and answering a frame keeps every table, so a command keeps what its body keeps (R305, R326). -/
theorem command_keepsUnits {op : Nat} {f : CmdFrame} {c : State → Checks} {body : State → State × Option Reply} {s : State}
    (h : ∀ u, SameSizes u (body u).1) : KeepsUnits s (.next (command op f c body s)) := by
  simp only [SameSizes] at h
  exact KeepsSizes.units (by simp [h])

theorem reading_keepsUnits {op : Nat} {f : CmdFrame} {c : State → Checks} {body : State → State × Option Reply} {s : State}
    (h : ∀ u, (body u).1 = u) : KeepsUnits s (.next (command op f c body s)) :=
  command_keepsUnits fun u => by simp [h]

theorem execUnassignedOpcode_keepsSizes (opcode : Nat) (f : CmdFrame) (s : State) :
    KeepsSizes s (execUnassignedOpcode opcode f s) := by
  unfold execUnassignedOpcode; simp

/-- A command that may change none of the parts that hold a unit table keeps the tables. -/
theorem keepsUnits_of_changes {c : Instr} {s : State} (h : ∀ p ∈ [StatePart.front, .mix, .port, .cal, .health], p ∉ touches c) :
    KeepsUnits s (exec c s) := by
  intro t ht
  have kept : ∀ p ∈ [StatePart.front, .mix, .port, .cal, .health], p.kept s t := fun p hp => exec_changes c s t ht p (h p hp)
  simp only [List.forall_mem_cons, StatePart.kept] at kept
  obtain ⟨front, mix, port, cal, health, -⟩ := kept
  exact units_of_sizes (by simp [front, mix, port, cal, health])

/-! ### The two resets and the sequence that follows them (R63, R86) -/

theorem ite_units {c : Prop} [Decidable c] {s t : State} (hs : UnitTables s) (ht : UnitTables t) :
    UnitTables (if c then s else t) := by split; exacts [hs, ht]

theorem passTo_units (due : Nat) {s : State} (u : UnitTables s) : UnitTables (passTo due s) :=
  units_of_sizes (s := s) (by simp [passTo_frame ..]) u

theorem halt_units {s : State} (u : UnitTables s) : UnitTables (halt s) := units_of_sizes (s := s) (by simp [halt_frame ..]) u

theorem checkedSequence_units (b : BootInputs) {s : State} (u : UnitTables s) : UnitTables (checkedSequence b s) :=
  releaseTime_units (units_of_sizes (s := s) (by simp [checkRegions_frame .., loadCal_frame .., loadProfile_frame ..]) u)

theorem execPorRelease_keepsUnits (b : BootInputs) (s : State) : KeepsUnits s (execPorRelease b s) :=
  keepsUnits_next fun u => ite_units u (powerOnWork_units (pwr_units _ (passTo_units _ u)))

theorem execRailGood_keepsUnits (r : Rail) (s : State) : KeepsUnits s (execRailGood r s) := by
  refine keepsUnits_next fun u => ?_
  have risen : UnitTables (if s.pwr.railsGood.contains r then s else railRisen r s) := ite_units u (pwr_units _ u)
  exact ite_units (powerOnWork_units risen) risen

theorem execNresetAccepted_keepsUnits (w : Nat) (s : State) : KeepsUnits s (execNresetAccepted w s) := by
  refine keepsUnits_next fun u => ?_
  have drawn : UnitTables (drawBool s).2 := units_of_sizes (s := s) (by simp [drawBool_frame ..]) u
  have taken : UnitTables (if w < 20000 then (drawBool s).2 else s) := ite_units drawn u
  exact ite_units u (ite_units drawn (ite_units (pwr_units _ taken) (ite_units (pwr_units _ taken) (islandsReset_units _))))

theorem execNresetRelease_keepsUnits (b : BootInputs) (s : State) : KeepsUnits s (execNresetRelease b s) :=
  keepsUnits_next fun u => ite_units (pwr_units _ u) (ite_units (releaseTime_units (pwr_units _ u)) (ite_units u
    (ite_units (powerOnWork_units (pwr_units _ u)) (nresetWork_units b u))))

theorem execIslandClockGood_keepsUnits (i : Nat) (s : State) : KeepsUnits s (execIslandClockGood i s) :=
  keepsUnits_within fun u => ite_units (timeReleased_units (pwr_units _ (pwr_units _ u)))
    (ite_units (gatesDone_units (pwr_units _ (pwr_units _ u))) (pwr_units _ u))

theorem execIslandHeld_keepsUnits (i : Nat) (s : State) : KeepsUnits s (execIslandHeld i s) :=
  keepsUnits_within fun u => ite_units (timeReleased_units (pwr_units _ (passTo_units _ u)))
    (ite_units (gatesDone_units (pwr_units _ (passTo_units _ u))) u)

theorem execSequenceRepeat_keepsUnits (b : BootInputs) (s : State) : KeepsUnits s (execSequenceRepeat b s) :=
  keepsUnits_next fun u => ite_units (ite_units (powerOnWork_units (pwr_units _ (powerOff_units _)))
    (checkedSequence_units b (pwr_units _ (passTo_units _ u)))) u

theorem execSelfTestRerun_keepsUnits (pass : Bool) (b : BootInputs) (s : State) : KeepsUnits s (execSelfTestRerun pass b s) :=
  keepsUnits_next fun u => ite_units (ite_units (secureBoot_units (pwr_units _ (passTo_units _ u)))
    (halt_units (pwr_units _ (passTo_units _ u)))) u

/-! ### Registers, rings and ports -/

theorem execRingPop_keepsSizes (port ring clocked : Nat) (s : State) : KeepsSizes s (execRingPop port ring clocked s) := by
  unfold execRingPop; simp [popRing_frame ..]

theorem execRingPush_keepsSizes (port ring : Nat) (bytes : List Byte) (ending : PushEnd) (s : State) : KeepsSizes s (execRingPush port ring bytes ending s) := by
  unfold execRingPush; simp [pushSpi_frame .., pushTwoWire_frame ..]

theorem execBareRead_keepsSizes (clocked : Nat) (s : State) : KeepsSizes s (execBareRead clocked s) := by
  unfold execBareRead; simp [popRing_frame ..]

theorem execRegWrite_keepsSizes (port off : Nat) (val : W32) (nbytes : Nat) (s : State) : KeepsSizes s (execRegWrite port off val nbytes s) := by
  unfold execRegWrite; simp [writeReg_frame ..]

theorem execIntClear_keepsSizes (mask : W32) (s : State) : KeepsSizes s (execIntClear mask s) := by
  unfold execIntClear; simp [writeReg_frame ..]

theorem execDoorbell_keepsSizes (mask : W32) (s : State) : KeepsSizes s (execDoorbell mask s) := by
  unfold execDoorbell; simp [writeReg_frame ..]

theorem execHeadWrite_keepsSizes (port ring : Nat) (val : W32) (s : State) : KeepsSizes s (execHeadWrite port ring val s) := by
  unfold execHeadWrite; simp [writePointer_frame ..]

theorem execTailWrite_keepsSizes (port ring : Nat) (val : W32) (s : State) : KeepsSizes s (execTailWrite port ring val s) := by
  unfold execTailWrite; simp [writePointer_frame ..]

theorem execRingEnableWrite_keepsSizes (port ring : Nat) (policy : W32) (s : State) : KeepsSizes s (execRingEnableWrite port ring policy s) := by
  unfold execRingEnableWrite; simp [writePolicy_frame ..]

theorem execQuotaWrite_keepsSizes (port ring : Nat) (val : W32) (s : State) : KeepsSizes s (execQuotaWrite port ring val s) := by
  unfold execQuotaWrite; simp [writeQuota_frame ..]

theorem execRingStatusClear_keepsSizes (ring : Nat) (val : W32) (s : State) : KeepsSizes s (execRingStatusClear ring val s) := by
  unfold execRingStatusClear; simp [clearRingStatus_frame ..]

theorem execFetchTimer_keepsSizes (ring : Nat) (s : State) : KeepsSizes s (execFetchTimer ring s) := by
  unfold execFetchTimer; simp [examine_frame ..]

theorem execHostRingFetchDone_keepsSizes (ring : Nat) (bytes : List Byte) (s : State) : KeepsSizes s (execHostRingFetchDone ring bytes s) := by
  unfold execHostRingFetchDone; simp [headAdvanced_frame ..]

theorem execStagedEntryDma_keepsSizes (ring : Nat) (s : State) : KeepsSizes s (execStagedEntryDma ring s) := by
  unfold execStagedEntryDma; simp [flushResponses_frame .., dmaBlock_frame ..]

theorem execRingDisableDrained_keepsSizes (ring : Nat) (s : State) : KeepsSizes s (execRingDisableDrained ring s) := by
  unfold execRingDisableDrained; simp

theorem execIntTimeout_keepsSizes (ring : Nat) (s : State) : KeepsSizes s (execIntTimeout ring s) := by
  unfold execIntTimeout; refine keepsSizes_within.2 fun _ => ?_
  split <;> simp [raiseInt_frame .., passTo_frame ..]

theorem execPcieRingsDisabled_keepsSizes (cause : PcieDown) (s : State) : KeepsSizes s (execPcieRingsDisabled cause s) := by
  unfold execPcieRingsDisabled; simp [disablePcieRings_frame ..]

theorem execBusMasterEnable_keepsSizes (s : State) : KeepsSizes s (execBusMasterEnable s) := by
  unfold execBusMasterEnable; simp [sendPending_frame ..]

theorem execPcieRetrain_keepsSizes (gen width : Nat) (s : State) : KeepsSizes s (execPcieRetrain gen width s) := by
  unfold execPcieRetrain; simp [markBudget_frame ..]

theorem execPcieLinkTrained_keepsSizes (gen width : Nat) (s : State) : KeepsSizes s (execPcieLinkTrained gen width s) := by
  unfold execPcieLinkTrained; simp [markBudget_frame ..]

/-! ### The two-wire controller and GPIO -/

theorem execControllerTransferEnd_keepsSizes (r : BusResult) (s : State) : KeepsSizes s (execControllerTransferEnd r s) := by
  unfold execControllerTransferEnd; refine keepsSizes_within.2 fun _ => ?_
  split <;> simp [xferEnds_frame ..]

theorem execSupplyWrite_keepsSizes (r : BusResult) (s : State) : KeepsSizes s (execSupplyWrite r s) := by
  unfold execSupplyWrite; refine keepsSizes_within.2 fun _ => ?_
  split <;> simp [xferEnds_frame .., sendXfer_frame ..]

theorem execBusNotFreeTimeout_keepsSizes (s : State) : KeepsSizes s (execBusNotFreeTimeout s) := by
  unfold execBusNotFreeTimeout; refine keepsSizes_next.2 ?_; dsimp only
  (repeat' split) <;> simp [passTo_frame .., answerXfer_frame ..]

/-! ### Windows, tuners and gain -/

theorem execLingerExpiry_keepsSizes (t : Nat) (s : State) : KeepsSizes s (execLingerExpiry t s) := by
  unfold execLingerExpiry; refine keepsSizes_within.2 fun _ => ?_
  split <;> simp [passTo_frame ..]

theorem execFailedWindowReopen_keepsSizes (w : Nat) (s : State) : KeepsSizes s (execFailedWindowReopen w s) := by
  unfold execFailedWindowReopen; simp [bringPartner_frame ..]

theorem execAgcUpdate_keepsSizes (w : Nat) (m : AgcMeas) (s : State) : KeepsSizes s (execAgcUpdate w m s) := by
  unfold execAgcUpdate; refine keepsSizes_within.2 fun _ => ?_; dsimp only
  split
  · simp
  · split
    · simp
    · cases (windowAt s w).partner <;> simp [holdGain_frame .., agcTuner_frame ..]

theorem execLnaBypass_keepsSizes (n : Nat) (s : State) : KeepsSizes s (execLnaBypass n s) := by
  unfold execLnaBypass; refine keepsSizes_within.2 fun _ => ?_; dsimp only
  split <;> simp [passTo_frame ..]

theorem execLnaReturn_keepsSizes (n : Nat) (s : State) : KeepsSizes s (execLnaReturn n s) := by
  unfold execLnaReturn; simp [passTo_frame ..]

theorem execAgcFreezeCap_keepsSizes (s : State) : KeepsSizes s (execAgcFreezeCap s) := by
  unfold execAgcFreezeCap; refine keepsSizes_next.2 ?_; dsimp only
  split <;> simp [passTo_frame ..]

/-! ### Calibration, supply and ageing -/

theorem execTemperatureComparison_keepsSizes (temps : List Int) (s : State) : KeepsSizes s (execTemperatureComparison temps s) := by
  unfold execTemperatureComparison; simp [compareTemperature_frame ..]

theorem execPendingRunStart_keepsSizes (a : Nat) (s : State) : KeepsSizes s (execPendingRunStart a s) := by
  unfold execPendingRunStart; simp [beginStats_frame ..]

theorem execElementStatisticsDone_keepsSizes (a : Nat) (m : ElemStats) (s : State) : KeepsSizes s (execElementStatisticsDone a m s) := by
  unfold execElementStatisticsDone; simp [passTo_frame .., rerunOpens_frame .., endAsked_frame ..,
    noteUnqualified_frame .., computeChoice_frame .., beginInterruption_frame ..]

theorem execElementInterruptionEnd_keepsSizes (a : Nat) (s : State) : KeepsSizes s (execElementInterruptionEnd a s) := by
  unfold execElementInterruptionEnd; refine keepsSizes_within.2 fun _ => ?_; dsimp only
  (repeat' split) <;> simp [passTo_frame .., calChanged_frame .., modRecordAdc_frame .., endAsked_frame ..,
    rerunOpens_frame .., afterInterruption_frame ..]

theorem execFadeDeferExpiry_keepsSizes (a : Nat) (s : State) : KeepsSizes s (execFadeDeferExpiry a s) := by
  unfold execFadeDeferExpiry; simp [beginInterruption_frame .., passTo_frame ..]

theorem execCalRetry_keepsSizes (a : Nat) (s : State) : KeepsSizes s (execCalRetry a s) := by
  unfold execCalRetry; simp [passTo_frame .., beginStats_frame ..]

theorem execIqEstimate_keepsSizes (a : Nat) (m : IqEst) (s : State) : KeepsSizes s (execIqEstimate a m s) := by
  unfold execIqEstimate; refine keepsSizes_within.2 fun _ => ?_; dsimp only
  (repeat' split) <;> simp [endAsked_frame .., noteUnqualified_frame ..]

theorem execIqRampEnd_keepsSizes (a : Nat) (s : State) : KeepsSizes s (execIqRampEnd a s) := by
  unfold execIqRampEnd; simp [passTo_frame .., endAsked_frame .., storePoint_frame ..]

theorem execAlignmentStep_keepsSizes (a : Nat) (m : AlignMeas) (s : State) : KeepsSizes s (execAlignmentStep a m s) := by
  unfold execAlignmentStep; refine keepsSizes_within.2 fun _ => ?_; dsimp only
  split <;> simp [noteUnqualified_frame .., calChanged_frame .., endAsked_frame .., passTo_frame ..,
    modRecordAdc_frame ..]

theorem execGrainAssessment_keepsSizes (m : GrainMeas) (s : State) : KeepsSizes s (execGrainAssessment m s) := by
  unfold execGrainAssessment; simp [assessmentDue_frame .., calChanged_frame .., announceCapacity_frame ..,
    setVdd_frame ..]

theorem execAvsRaise_keepsSizes (margins : List Int) (s : State) : KeepsSizes s (execAvsRaise margins s) := by
  unfold execAvsRaise; simp [setMargins_frame .., supplySettled_frame .., passTo_frame .., setVdd_frame ..]

theorem execAvsLower_keepsSizes (margins : List Int) (s : State) : KeepsSizes s (execAvsLower margins s) := by
  unfold execAvsLower; simp [setMargins_frame .., supplySettled_frame .., passTo_frame .., setVdd_frame ..]

theorem execClockPlanChange_keepsSizes (s : State) : KeepsSizes s (execClockPlanChange s) := by
  unfold execClockPlanChange; simp [passTo_frame .., reduceDividers_frame ..]

/-! ### Chains -/

theorem execChainBlock_keepsSizes (o : ChainOwner) (b : ChainIn) (s : State) : KeepsSizes s (execChainBlock o b s) := by
  unfold execChainBlock; refine keepsSizes_within.2 fun _ => ?_; dsimp only
  split <;> simp [gapReached_frame .., takeInput_frame ..]

theorem execSettleCountDone_keepsSizes (o : ChainOwner) (s : State) : KeepsSizes s (execSettleCountDone o s) := by
  unfold execSettleCountDone; refine keepsSizes_within.2 fun _ => ?_
  split <;> simp [settledReception_frame ..]

theorem execChainBankChanged_keepsSizes (o : ChainOwner) (s : State) : KeepsSizes s (execChainBankChanged o s) := by
  unfold execChainBankChanged; refine keepsSizes_within.2 fun _ => ?_
  split <;> simp [holdOver_frame .., closeBlock_frame .., postBankChanged_frame ..]

theorem execDelayChangeApply_keepsSizes (o : ChainOwner) (s : State) : KeepsSizes s (execDelayChangeApply o s) := by
  unfold execDelayChangeApply; refine keepsSizes_within.2 fun _ => ?_
  (repeat' split) <;> simp [closeBlock_frame ..]

theorem execFrequencyChangeApply_keepsSizes (o : ChainOwner) (s : State) : KeepsSizes s (execFrequencyChangeApply o s) := by
  unfold execFrequencyChangeApply; refine keepsSizes_within.2 fun _ => ?_
  split <;> simp [closeBlock_frame .., freshOnMove_frame .., postBankChanged_frame ..]

theorem execTrackingHoldExpiry_keepsSizes (r : Nat) (s : State) : KeepsSizes s (execTrackingHoldExpiry r s) := by
  unfold execTrackingHoldExpiry; refine keepsSizes_within.2 fun _ => ?_
  (repeat' split) <;> simp [loseReception_frame .., pass_frame ..]

/-! ### Demodulation, RDS and measurements -/

theorem execReceptionAcquired_keepsSizes (r : Nat) (s : State) : KeepsSizes s (execReceptionAcquired r s) := by
  unfold execReceptionAcquired; refine keepsSizes_within.2 fun _ => ?_
  split <;> simp [acquire_frame ..]

theorem execReceptionLost_keepsSizes (r : Nat) (s : State) : KeepsSizes s (execReceptionLost r s) := by
  unfold execReceptionLost; refine keepsSizes_within.2 fun _ => ?_
  split <;> simp [loseReception_frame ..]

theorem execMpxShaving_keepsSizes (r : Nat) (s : State) : KeepsSizes s (execMpxShaving r s) := by
  unfold execMpxShaving; refine keepsSizes_within.2 fun _ => ?_; dsimp only
  (repeat' split) <;> simp [offerShaving_frame ..]

theorem execRdsBlock_keepsSizes (r stream : Nat) (s : State) : KeepsSizes s (execRdsBlock r stream s) := by
  unfold execRdsBlock; refine keepsSizes_within.2 fun _ => ?_
  split <;> simp [deliverGroup_frame ..]

theorem execMeasurementIntervalEnd_keepsSizes (p : Nat) (s : State) : KeepsSizes s (execMeasurementIntervalEnd p s) := by
  unfold execMeasurementIntervalEnd; refine keepsSizes_within.2 fun _ => ?_; dsimp only
  (repeat' split) <;> simp [pass_frame .., searchSilence_frame .., offerShaving_frame .., beginMeasures_frame ..]

theorem execMomentaryLoudness_keepsSizes (p : Nat) (s : State) : KeepsSizes s (execMomentaryLoudness p s) := by
  unfold execMomentaryLoudness; refine keepsSizes_within.2 fun _ => ?_
  split <;> simp [postSilence_frame ..]

theorem execSilenceBegan_keepsSizes (p : Nat) (s : State) : KeepsSizes s (execSilenceBegan p s) := by
  unfold execSilenceBegan; refine keepsSizes_within.2 fun _ => ?_
  (repeat' split) <;> simp [postSilence_frame ..]

/-! ### Digital reception -/

theorem execDabCif_keepsSizes (r : Nat) (c : DabCif) (s : State) : KeepsSizes s (execDabCif r c s) := by
  unfold execDabCif; refine keepsSizes_within.2 fun _ => ?_
  (repeat' split) <;> simp [takeCif_frame .., takeFigs_frame ..]

theorem execDrmFrame_keepsSizes (r : Nat) (d : DrmFrame) (s : State) : KeepsSizes s (execDrmFrame r d s) := by
  unfold execDrmFrame; refine keepsSizes_within.2 fun _ => ?_
  (repeat' split) <;> simp [writeSide_frame .., judgeDigital_frame ..]

theorem execDrmSuperframe_keepsSizes (r : Nat) (d : DrmSuper) (s : State) : KeepsSizes s (execDrmSuperframe r d s) := by
  unfold execDrmSuperframe; refine keepsSizes_within.2 fun _ => ?_
  (repeat' split) <;> simp [writeSide_frame .., applyComps_frame .., announce_frame .., signalAlert_frame ..,
    learnLink_frame .., learnCand_frame ..]

theorem execControlChannelTimeout_keepsSizes (r : Nat) (s : State) : KeepsSizes s (execControlChannelTimeout r s) := by
  unfold execControlChannelTimeout; refine keepsSizes_within.2 fun _ => ?_
  split <;> simp [loseReception_frame ..]

theorem execDecodeResumed_keepsSizes (p : Nat) (s : State) : KeepsSizes s (execDecodeResumed p s) := by
  unfold execDecodeResumed; refine keepsSizes_within.2 fun _ => ?_
  split <;> simp

theorem execReceptionReconfigured_keepsSizes (r : Nat) (s : State) : KeepsSizes s (execReceptionReconfigured r s) := by
  unfold execReceptionReconfigured; refine keepsSizes_within.2 fun _ => ?_
  (repeat' split) <;> simp [applyComps_frame ..]

theorem execProgrammeAbsentExpiry_keepsSizes (p : Nat) (s : State) : KeepsSizes s (execProgrammeAbsentExpiry p s) := by
  unfold execProgrammeAbsentExpiry; refine keepsSizes_within.2 fun _ => ?_
  (repeat' split) <;> simp [removeProgramme_frame .., passTo_frame ..]

theorem execTransportUnit_keepsSizes (p : Nat) (u : TransportIn) (s : State) : KeepsSizes s (execTransportUnit p u s) := by
  unfold execTransportUnit; refine keepsSizes_within.2 fun _ => ?_
  (repeat' split) <;> simp [takeUnit_frame ..]

theorem execMotIdleExpiry_keepsSizes (p tid : Nat) (s : State) : KeepsSizes s (execMotIdleExpiry p tid s) := by
  unfold execMotIdleExpiry; refine keepsSizes_within.2 fun _ => ?_
  split <;> simp [passTo_frame ..]

/-! ### PCM outputs and TDM ports -/

theorem execTdmConfigApply_keepsSizes (port : Nat) (s : State) : KeepsSizes s (execTdmConfigApply port s) := by
  unfold execTdmConfigApply; simp [drivePorts_frame ..]

theorem execPcmShaving_keepsSizes (o : Nat) (s : State) : KeepsSizes s (execPcmShaving o s) := by
  unfold execPcmShaving; refine keepsSizes_within.2 fun _ => ?_; dsimp only
  (repeat' split) <;> simp [offerShaving_frame .., modPcm_frame ..]

theorem execFollowerPortLost_keepsSizes (port : Nat) (m : FollowerMeas) (s : State) : KeepsSizes s (execFollowerPortLost port m s) := by
  unfold execFollowerPortLost; simp

theorem execFollowerPortResume_keepsSizes (port good : Nat) (s : State) : KeepsSizes s (execFollowerPortResume port good s) := by
  unfold execFollowerPortResume; simp

/-! ### Follow objects and probes -/

theorem execGaugeMetric_keepsSizes (fo : Nat) (m : List GaugeIn) (s : State) : KeepsSizes s (execGaugeMetric fo m s) := by
  unfold execGaugeMetric; refine keepsSizes_within.2 fun _ => ?_; dsimp only
  (repeat' split) <;> simp [passTo_frame .., resumeSwitch_frame .., gaugeDecide_frame ..]

theorem execRetarget_keepsSizes (fo : Nat) (s : State) : KeepsSizes s (execRetarget fo s) := by
  unfold execRetarget; refine keepsSizes_within.2 fun _ => ?_
  (repeat' split) <;> simp [arrive_frame .., swapChains_frame .., countSwitch_frame .., carryOut_frame ..,
    abandonRetarget_frame ..]

theorem execProbeDwellEnd_keepsSizes (pr : Nat) (s : State) : KeepsSizes s (execProbeDwellEnd pr s) := by
  unfold execProbeDwellEnd; refine keepsSizes_within.2 fun _ => ?_
  split <;> simp [passTo_frame .., probeGoesOn_frame .., probeJoins_frame ..]

theorem execGlanceEnd_keepsSizes (fo : Nat) (s : State) : KeepsSizes s (execGlanceEnd fo s) := by
  unfold execGlanceEnd; refine keepsSizes_within.2 fun _ => ?_
  (repeat' split) <;> simp [passTo_frame .., advanceProbe_frame ..]

theorem execCandidateExpiry_keepsSizes (fo freq : Nat) (kind : Kind) (s : State) : KeepsSizes s (execCandidateExpiry fo freq
      kind s) := by
  unfold execCandidateExpiry; refine keepsSizes_within.2 fun _ => ?_; dsimp only
  (repeat' split) <;> simp [passTo_frame .., advanceProbe_frame ..]

/-! ### Blend pairs -/

theorem execScarfCorrelation_keepsSizes (b : Nat) (s : State) : KeepsSizes s (execScarfCorrelation b s) := by
  unfold execScarfCorrelation; refine keepsSizes_within.2 fun _ => ?_; dsimp only
  (repeat' split) <;> simp [passTo_frame .., loseAlignment_frame .., resumeSwitches_frame .., correlate_frame ..]

theorem execFadeEnd_keepsSizes (b : Nat) (s : State) : KeepsSizes s (execFadeEnd b s) := by
  unfold execFadeEnd; refine keepsSizes_within.2 fun _ => ?_
  split <;> simp [resumeSwitches_frame .., endFade_frame .., passTo_frame ..]

theorem execDrainDone_keepsSizes (b : Nat) (s : State) : KeepsSizes s (execDrainDone b s) := by
  unfold execDrainDone; refine keepsSizes_within.2 fun _ => ?_
  split <;> simp [passTo_frame .., resumeSwitches_frame .., blendGo_frame ..]

theorem execBuildDone_keepsSizes (b : Nat) (s : State) : KeepsSizes s (execBuildDone b s) := by
  unfold execBuildDone; refine keepsSizes_within.2 fun _ => ?_
  split <;> simp [passTo_frame .., startFade_frame ..]

theorem execAlignmentWaitExpiry_keepsSizes (b : Nat) (s : State) : KeepsSizes s (execAlignmentWaitExpiry b s) := by
  unfold execAlignmentWaitExpiry; refine keepsSizes_within.2 fun _ => ?_
  (repeat' split) <;> simp [startFade_frame .., passTo_frame ..]

/-! ### The survey -/

theorem execTunerFailure_keepsSizes (t : Nat) (s : State) : KeepsSizes s (execTunerFailure t s) := by
  unfold execTunerFailure; simp [rerunOpens_frame .., nextPlacements_frame .., tunerFails_frame ..]

theorem execSurveySpectrumDone_keepsSizes (pts : List SurveyPoint) (s : State) : KeepsSizes s (execSurveySpectrumDone pts s) := by
  unfold execSurveySpectrumDone; refine keepsSizes_within.2 fun _ => ?_
  split <;> simp [passTo_frame .., nextPlacements_frame .., startCands_frame ..]

theorem execSurveyDwellEnd_keepsSizes (c : Nat) (r : SurveyFind) (s : State) : KeepsSizes s (execSurveyDwellEnd c
      r s) := by
  unfold execSurveyDwellEnd; refine keepsSizes_within.2 fun _ => ?_
  (repeat' split) <;> simp [passTo_frame .., deliverFind_frame .., nextPlacements_frame .., startCands_frame ..]

theorem execSurveyPassEnd_keepsSizes (s : State) : KeepsSizes s (execSurveyPassEnd s) := by
  unfold execSurveyPassEnd; simp [reportGone_frame .., writeSurvey_frame .., startPass_frame .., leavePlacements_frame
    .., closeSweep_frame ..]

/-! ### Plans, and the ends of openings and shut-downs -/

theorem execWindowOpenDone_keepsSizes (w : Nat) (s : State) : KeepsSizes s (execWindowOpenDone w s) := by
  unfold execWindowOpenDone; simp [commitProgress_frame .., compatTuned_frame .., rerunOpens_frame ..,
    windowOpened_frame .., sweepOpened_frame ..]

theorem execRetuneDone_keepsSizes (w : Nat) (s : State) : KeepsSizes s (execRetuneDone w s) := by
  unfold execRetuneDone; simp [commitProgress_frame .., compatTuned_frame .., rerunOpens_frame .., retuneDone_frame
    ..]

theorem execWindowClosed_keepsSizes (w : Nat) (s : State) : KeepsSizes s (execWindowClosed w s) := by
  unfold execWindowClosed; simp [commitContinue_frame .., windowClosed_frame ..]

theorem execReceptionRemoved_keepsSizes (r : Nat) (s : State) : KeepsSizes s (execReceptionRemoved r s) := by
  unfold execReceptionRemoved; simp [commitContinue_frame .., receptionRemoved_frame ..]

theorem execObjectRemoved_keepsSizes (cls : ObjClass) (i : Nat) (s : State) : KeepsSizes s (execObjectRemoved cls i s) := by
  unfold execObjectRemoved; simp [commitContinue_frame .., objectRemoved_frame ..]

/-! ### The link's commands -/

theorem execVddPaLow_keepsSizes (s : State) : KeepsSizes s (execVddPaLow s) := by
  unfold execVddPaLow; simp [cutAir_frame ..]

theorem execLinkStopped_keepsSizes (s : State) : KeepsSizes s (execLinkStopped s) := by
  unfold execLinkStopped; refine keepsSizes_next.2 ?_
  (repeat' split) <;> simp [endAir_frame .., passTo_frame .., finishStop_frame .., pass_frame ..,
    handleLinkConfig_frame ..]

theorem execGatherConfigApply_keepsSizes (s : State) : KeepsSizes s (execGatherConfigApply s) := by
  unfold execGatherConfigApply; simp [applyGather_frame .., reach_frame ..]

theorem execRing28EntryTaken_keepsSizes (s : State) : KeepsSizes s (execRing28EntryTaken s) := by
  unfold execRing28EntryTaken; refine keepsSizes_next.2 ?_
  split <;> simp [frameTaken_frame .., enqueueTx_frame ..]

/-! ### The link's frames and windows -/

theorem execBeaconTransmit_keepsSizes (s : State) : KeepsSizes s (execBeaconTransmit s) := by
  unfold execBeaconTransmit; simp [reach_frame .., applyGather_frame .., sendBeacon_frame ..]

theorem execBeaconWindowOpen_keepsSizes (s : State) : KeepsSizes s (execBeaconWindowOpen s) := by
  unfold execBeaconWindowOpen; simp [reach_frame .., radioRest_frame .., setLinkState_frame .., listenUntil_frame ..]

theorem execBeaconMissed_keepsSizes (s : State) : KeepsSizes s (execBeaconMissed s) := by
  unfold execBeaconMissed; refine keepsSizes_next.2 ?_
  split <;> simp [passTo_frame .., radioRest_frame .., judgeTx_frame ..]

theorem execFrameReceived_keepsSizes (lane sl : Nat) (m : LinkRx) (s : State) : KeepsSizes s (execFrameReceived lane sl m s) := by
  unfold execFrameReceived; refine keepsSizes_within.2 fun _ => ?_
  (repeat' split) <;> simp [freeRx_frame .., decodeBody_frame .., nodeFrame_frame .., gathererFrame_frame ..]

theorem execSlotTransmit_keepsSizes (s : State) : KeepsSizes s (execSlotTransmit s) := by
  unfold execSlotTransmit; refine keepsSizes_next.2 ?_; dsimp only
  (repeat' split) <;> simp [dueUplink_frame .., reach_frame ..]

theorem execFallbackTransmit_keepsSizes (s : State) : KeepsSizes s (execFallbackTransmit s) := by
  unfold execFallbackTransmit; refine keepsSizes_next.2 ?_; dsimp only
  (repeat' split) <;> simp [pickFallback_frame .., drbgRequest_frame .., dueUplink_frame .., reach_frame ..]

theorem execDownlinkTransmit_keepsSizes (s : State) : KeepsSizes s (execDownlinkTransmit s) := by
  unfold execDownlinkTransmit; refine keepsSizes_next.2 ?_; dsimp only
  (repeat' split) <;> simp [reach_frame .., copied_frame .., sendTx_frame ..]

theorem execRadioTransitionDone_keepsSizes (s : State) : KeepsSizes s (execRadioTransitionDone s) := by
  unfold execRadioTransitionDone; refine keepsSizes_next.2 ?_; dsimp only
  (repeat' split) <;> simp [passTo_frame .., sendTx_frame .., deferTx_frame ..]

theorem execTransmitKill_keepsSizes (s : State) : KeepsSizes s (execTransmitKill s) := by
  unfold execTransmitKill; refine keepsSizes_next.2 ?_
  split <;> simp [cutAir_frame .., pass_frame .., passTo_frame ..]

theorem execTransmissionEnd_keepsSizes (s : State) : KeepsSizes s (execTransmissionEnd s) := by
  unfold execTransmissionEnd; refine keepsSizes_next.2 ?_
  split <;> simp [endAir_frame .., passTo_frame ..]

/-! ### Loops, references and device time -/

theorem execLoopLossOfLock_keepsSizes (l : Loop) (s : State) : KeepsSizes s (execLoopLossOfLock l s) := by
  unfold execLoopLossOfLock; refine keepsSizes_next.2 ?_
  split <;> simp [loseSysPll_frame .., loseSPll_frame .., loseAPll_frame .., loseWordClock_frame .., loseSynth_frame
    .., refStops_frame ..]

theorem execLoopRelock_keepsSizes (l : Loop) (us : Nat) (s : State) : KeepsSizes s (execLoopRelock l us s) := by
  unfold execLoopRelock; refine keepsSizes_next.2 ?_
  split <;> simp [relockSysPll_frame .., relockSPll_frame .., relockAPll_frame .., lockWordClock_frame ..,
    relockSynth_frame .., refReturns_frame .., lastOutage_frame ..]

theorem execRefStop_keepsSizes (s : State) : KeepsSizes s (execRefStop s) := by
  unfold execRefStop; simp [refStops_frame ..]

theorem execRefReturn_keepsSizes (s : State) : KeepsSizes s (execRefReturn s) := by
  unfold execRefReturn; simp [refReturns_frame ..]

theorem execPpsEdge_keepsSizes (rising : Bool) (sub : Int) (s : State) : KeepsSizes s (execPpsEdge rising sub s) := by
  unfold execPpsEdge; refine keepsSizes_next.2 ?_
  (repeat' split) <;> simp [noteLog_frame .., plumbEdge_frame ..]

theorem execTenMhzWindow_keepsSizes (m : TenMhzMeas) (s : State) : KeepsSizes s (execTenMhzWindow m s) := by
  unfold execTenMhzWindow; simp [passTo_frame .., plumbEdge_frame .., coast_frame ..]

theorem execReferenceLost_keepsSizes (s : State) : KeepsSizes s (execReferenceLost s) := by
  unfold execReferenceLost; simp [coast_frame .., passTo_frame ..]

theorem execPlumbStep_keepsSizes (s : State) : KeepsSizes s (execPlumbStep s) := by
  unfold execPlumbStep; simp [applySecond_frame .., toSecond_frame ..]

theorem execTimeSetApply_keepsSizes (s : State) : KeepsSizes s (execTimeSetApply s) := by
  unfold execTimeSetApply; simp [applySecond_frame .., toSecond_frame ..]

theorem execWordClockLost_keepsSizes (s : State) : KeepsSizes s (execWordClockLost s) := by
  unfold execWordClockLost; simp [loseWordClock_frame ..]

theorem execWordClockLocked_keepsSizes (s : State) : KeepsSizes s (execWordClockLocked s) := by
  unfold execWordClockLocked; simp [lockWordClock_frame ..]

/-! ### The store -/

theorem execRecordWriteDone_keepsSizes (s : State) : KeepsSizes s (execRecordWriteDone s) := by
  unfold execRecordWriteDone; refine keepsSizes_next.2 ?_
  split <;> simp [commitProgress_frame .., finishJob_frame ..]

theorem execCalRecordWrite_keepsSizes (s : State) : KeepsSizes s (execCalRecordWrite s) := by
  unfold execCalRecordWrite; refine keepsSizes_next.2 ?_
  (repeat' split) <;> simp [writeCal_frame .., passTo_frame ..]

/-! ### Modes and wake -/

theorem execWakeHigh_keepsSizes (widthUs : Nat) (s : State) : KeepsSizes s (execWakeHigh widthUs s) := by
  unfold execWakeHigh drawBool; refine keepsSizes_next.2 ?_; dsimp only
  (repeat' split) <;> simp [wakeSource_frame ..]

theorem execTwoWireWake_keepsSizes (s : State) : KeepsSizes s (execTwoWireWake s) := by
  unfold execTwoWireWake; simp [wakeSource_frame ..]

theorem execAonAlarm_keepsSizes (s : State) : KeepsSizes s (execAonAlarm s) := by
  unfold execAonAlarm; simp [pass_frame .., wakeSource_frame ..]

theorem execModeTransitionDone_keepsSizes (s : State) : KeepsSizes s (execModeTransitionDone s) := by
  unfold execModeTransitionDone; refine keepsSizes_within.2 fun _ => ?_
  split <;> simp [finishHold_frame .., finishTransition_frame ..]

/-! ### Keys and images -/

theorem execEntropyTestFailure_keepsSizes (s : State) : KeepsSizes s (execEntropyTestFailure s) := by
  unfold execEntropyTestFailure; simp [beginStop_frame ..]

/-! ### The reset sequence -/

theorem execAonRcTimeout_keepsSizes (s : State) : KeepsSizes s (execAonRcTimeout s) := by
  unfold execAonRcTimeout; simp [passTo_frame ..]

/-! ### The register file of COMPAT -/

theorem execControlTune_keepsSizes (s : State) : KeepsSizes s (execControlTune s) := by
  unfold execControlTune; simp [compatTuneNow_frame ..]

theorem execControlPowerDown_keepsSizes (s : State) : KeepsSizes s (execControlPowerDown s) := by
  unfold execControlPowerDown; simp [compatPowerDown_frame ..]

theorem execControlDefaults_keepsSizes (s : State) : KeepsSizes s (execControlDefaults s) := by
  unfold execControlDefaults; simp [compatDefaults_frame ..]

theorem execUpdateKeyUpdate_keepsSizes (gapMs : Nat) (s : State) : KeepsSizes s (execUpdateKeyUpdate gapMs s) := by
  unfold execUpdateKeyUpdate; simp [keyWrite_frame .., pass_frame ..]

theorem execUpdateKeyZeroise_keepsSizes (gapMs : Nat) (s : State) : KeepsSizes s (execUpdateKeyZeroise gapMs s) := by
  unfold execUpdateKeyZeroise; simp [keyWrite_frame .., pass_frame ..]

theorem execChCtrlWrite_keepsSizes (c : Nat) (v : Byte) (s : State) : KeepsSizes s (execChCtrlWrite c v s) := by
  unfold execChCtrlWrite; simp [compatCtrl_frame ..]

theorem execCompatRegWrite_keepsSizes (off : Nat) (bytes : List Byte) (s : State) : KeepsSizes s (execCompatRegWrite off bytes s) := by
  unfold execCompatRegWrite; simp [compatWrites_frame ..]

/-! ### Watchdog, engines and the health log -/

theorem execWatchdogExpiry_keepsSizes (s : State) : KeepsSizes s (execWatchdogExpiry s) := by
  unfold execWatchdogExpiry; simp [askRestart_frame .., cutAir_frame .., pass_frame ..]

theorem execFirmwareRestarted_keepsSizes (s : State) : KeepsSizes s (execFirmwareRestarted s) := by
  unfold execFirmwareRestarted; simp [answerRestarted_frame ..]

theorem execEngineProgressCheck_keepsSizes (stalled ecc : BitVec 16) (s : State) : KeepsSizes s (execEngineProgressCheck stalled ecc s) := by
  unfold execEngineProgressCheck; simp [checkEngine_frame .., pass_frame ..]

theorem execContextSnapshot_keepsSizes (s : State) : KeepsSizes s (execContextSnapshot s) := by
  unfold execContextSnapshot; simp [passTo_frame ..]

theorem execTimberScrub_keepsSizes (words : List Nat) (s : State) : KeepsSizes s (execTimberScrub words s) := by
  unfold execTimberScrub; simp [passTo_frame .., correctWord_frame ..]

theorem execTimberEccError_keepsSizes (word : Nat) (holds : TimberUse) (bad : Bool) (s : State) : KeepsSizes s (execTimberEccError word holds bad s) := by
  unfold execTimberEccError; simp [poison_frame .., spareRow_frame .., correctWord_frame ..]

theorem execBlockFault_keepsSizes (island : Nat) (s : State) : KeepsSizes s (execBlockFault island s) := by
  unfold execBlockFault; simp [gapWindow_frame ..]

theorem execHealthLogDelivery_keepsSizes (s : State) : KeepsSizes s (execHealthLogDelivery s) := by
  unfold execHealthLogDelivery; refine keepsSizes_next.2 ?_; dsimp only
  (repeat' split) <;> simp [passTo_frame .., offerShaving_frame ..]

/-! ### Every command -/

/-- Every command leaves unit tables of the device's sizes where it found them so (R112, R119, R157, R264, R282, R293, R507, R533). -/
theorem exec_keepsUnits (c : Instr) (s : State) : KeepsUnits s (exec c s) := by
  cases c with
  | powerOnReset => exact keepsUnits_next fun _ => powerOff_units s
  | porRelease b => exact execPorRelease_keepsUnits b s
  | railGood r => exact execRailGood_keepsUnits r s
  | nresetAccepted widthNs => exact execNresetAccepted_keepsUnits widthNs s
  | nresetRelease b => exact execNresetRelease_keepsUnits b s
  | islandClockGood isl => exact execIslandClockGood_keepsUnits isl s
  | islandHeld isl => exact execIslandHeld_keepsUnits isl s
  | sequenceRepeat b => exact execSequenceRepeat_keepsUnits b s
  | selfTestRerun pass b => exact execSelfTestRerun_keepsUnits pass b s
  | unassignedOpcode opcode f => exact (execUnassignedOpcode_keepsSizes opcode f s).units
  | getIdentity f | getPortDeclare f | getAlarm f | echo f | getTimeConfig f | getWindow f | getLnaConfig f
  | getSurveyConfig f | surveyList f | getReception f | getChain f | getAlert f | getProgramme f | programmeList f
  | getPcm f | getTdmConfig f | getBind f | getPortLoad f | getFollow f | getProbe f | getBlend f | getBank f
  | getCurve f | getCal f | getAgeing f | getSupplyConfig f | getLinkConfig f | getGatherConfig f | getLinkStats f
  | getSecurity f | getPlan f => exact reading_keepsUnits fun _ => rfl
  | haltBusRead _ | aonCrystalSwitch | settingsCommitTimer | linkCountersSnapshot | loopRelockAttempt _
  | kerfBufferFull _ | pilotDecision _ | syncLoopFallback _ | syncLoopRestore _ | pcmUnderrun _ | pcmFifoRefilled _
  | rejectionExpiry _ _ _ | searchWindow | frameQualified _ _ | headerCheck _ _ _ | recentFrameExpiry | drbgReseed
  | status _ | twoWireStuckTimeout | dtLoRead _ _ | dtHiRead _ | timeStatusRead _ | attentionMessage | attentionRetry
  | attentionRepeat | supplyWriteRetry | busRecoveryRepeat _ | headstockFault _ | restartDelayExpiry
  | restartSpacingEnd | irqFlagsWrite _ | fifoLevelRead | fifoDataRead | downlinkWindowOpen | vddPaGood | busFree =>
    exact keepsUnits_of_changes (by simp [touches])
  | aonRcTimeout => exact (execAonRcTimeout_keepsSizes s).units
  | vddPaLow => exact (execVddPaLow_keepsSizes s).units
  | wakeHigh widthUs => exact (execWakeHigh_keepsSizes widthUs s).units
  | twoWireWake => exact (execTwoWireWake_keepsSizes s).units
  | aonAlarm => exact (execAonAlarm_keepsSizes s).units
  | modeTransitionDone => exact (execModeTransitionDone_keepsSizes s).units
  | recordWriteDone => exact (execRecordWriteDone_keepsSizes s).units
  | calRecordWrite => exact (execCalRecordWrite_keepsSizes s).units
  | loopLossOfLock l => exact (execLoopLossOfLock_keepsSizes l s).units
  | loopRelock l outageUs => exact (execLoopRelock_keepsSizes l outageUs s).units
  | refStop => exact (execRefStop_keepsSizes s).units
  | refReturn => exact (execRefReturn_keepsSizes s).units
  | ppsEdge rising sub => exact (execPpsEdge_keepsSizes rising sub s).units
  | tenMhzWindow m => exact (execTenMhzWindow_keepsSizes m s).units
  | referenceLost => exact (execReferenceLost_keepsSizes s).units
  | plumbStep => exact (execPlumbStep_keepsSizes s).units
  | timeSetApply => exact (execTimeSetApply_keepsSizes s).units
  | wordClockLost => exact (execWordClockLost_keepsSizes s).units
  | wordClockLocked => exact (execWordClockLocked_keepsSizes s).units
  | setMode f => exact command_keepsUnits fun u => by simp [setModeBody_frame ..]
  | factoryDefaults f => exact command_keepsUnits fun u => by simp [factoryDefaultsBody_frame ..]
  | portDeclare f => exact command_keepsUnits fun u => by simp [portDeclareBody_frame ..]
  | alarmSet f => exact command_keepsUnits fun u => by simp [alarmSetBody_frame ..]
  | timeConfig f => exact command_keepsUnits fun u => by simp [timeConfigBody_frame ..]
  | timeSet f => exact command_keepsUnits fun u => by simp [timeSetBody_frame ..]
  | windowOpen f => exact command_keepsUnits fun u => by simp [windowOpenBody_frame ..]
  | windowOpenDone w => exact (execWindowOpenDone_keepsSizes w s).units
  | windowRetune f => exact command_keepsUnits fun u => by simp [windowRetuneBody_frame ..]
  | retuneDone w => exact (execRetuneDone_keepsSizes w s).units
  | windowClose f => exact command_keepsUnits fun u => by simp [windowCloseBody_frame ..]
  | windowClosed w => exact (execWindowClosed_keepsSizes w s).units
  | lingerExpiry t => exact (execLingerExpiry_keepsSizes t s).units
  | windowGang f => exact command_keepsUnits fun u => by simp [windowGangBody_frame ..]
  | windowUngang f => exact command_keepsUnits fun u => by simp [windowUngangBody_frame ..]
  | lnaConfig f => exact command_keepsUnits fun u => by simp [lnaConfigBody_frame ..]
  | tunerFailure t => exact (execTunerFailure_keepsSizes t s).units
  | failedWindowReopen w => exact (execFailedWindowReopen_keepsSizes w s).units
  | agcUpdate w m => exact (execAgcUpdate_keepsSizes w m s).units
  | lnaBypass n => exact (execLnaBypass_keepsSizes n s).units
  | lnaReturn n => exact (execLnaReturn_keepsSizes n s).units
  | agcFreezeCap => exact (execAgcFreezeCap_keepsSizes s).units
  | surveyConfig f => exact command_keepsUnits fun u => by simp [surveyConfigBody_frame ..]
  | surveySpectrumDone pts => exact (execSurveySpectrumDone_keepsSizes pts s).units
  | surveyDwellEnd c r => exact (execSurveyDwellEnd_keepsSizes c r s).units
  | surveyPassEnd => exact (execSurveyPassEnd_keepsSizes s).units
  | receptionAdd f => exact command_keepsUnits fun u => by simp [receptionAddBody_frame ..]
  | receptionSet f => exact command_keepsUnits fun u => by simp [receptionSetBody_frame ..]
  | receptionRemove f => exact command_keepsUnits fun u => by simp [receptionRemoveBody_frame .., decideLost_frame ..]
  | receptionRemoved r => exact (execReceptionRemoved_keepsSizes r s).units
  | branchAdd f => exact command_keepsUnits fun u => by simp [branchAddBody_frame ..]
  | branchRemove f => exact command_keepsUnits fun u => by simp [branchRemoveBody_frame ..]
  | tapAdd f => exact command_keepsUnits fun u => by simp [tapAddBody_frame ..]
  | tapRemove f => exact command_keepsUnits fun u => by simp [tapRemoveBody_frame ..]
  | objectRemoved cls idx => exact (execObjectRemoved_keepsSizes cls idx s).units
  | alertSet f => exact command_keepsUnits fun u => by simp [alertSetBody_frame ..]
  | chainBlock o b => exact (execChainBlock_keepsSizes o b s).units
  | settleCountDone o => exact (execSettleCountDone_keepsSizes o s).units
  | chainBankChanged o => exact (execChainBankChanged_keepsSizes o s).units
  | delayChangeApply o => exact (execDelayChangeApply_keepsSizes o s).units
  | frequencyChangeApply o => exact (execFrequencyChangeApply_keepsSizes o s).units
  | receptionAcquired r => exact (execReceptionAcquired_keepsSizes r s).units
  | receptionLost r => exact (execReceptionLost_keepsSizes r s).units
  | trackingHoldExpiry r => exact (execTrackingHoldExpiry_keepsSizes r s).units
  | mpxShaving r => exact (execMpxShaving_keepsSizes r s).units
  | rdsBlock r stream => exact (execRdsBlock_keepsSizes r stream s).units
  | measurementIntervalEnd p => exact (execMeasurementIntervalEnd_keepsSizes p s).units
  | momentaryLoudness p => exact (execMomentaryLoudness_keepsSizes p s).units
  | silenceBegan p => exact (execSilenceBegan_keepsSizes p s).units
  | dabCif r c => exact (execDabCif_keepsSizes r c s).units
  | drmFrame r d => exact (execDrmFrame_keepsSizes r d s).units
  | drmSuperframe r d => exact (execDrmSuperframe_keepsSizes r d s).units
  | controlChannelTimeout r => exact (execControlChannelTimeout_keepsSizes r s).units
  | decodeResumed p => exact (execDecodeResumed_keepsSizes p s).units
  | receptionReconfigured r => exact (execReceptionReconfigured_keepsSizes r s).units
  | programmeAbsentExpiry p => exact (execProgrammeAbsentExpiry_keepsSizes p s).units
  | transportUnit p u => exact (execTransportUnit_keepsSizes p u s).units
  | motIdleExpiry p tid => exact (execMotIdleExpiry_keepsSizes p tid s).units
  | programmeSelect f => exact command_keepsUnits fun u => by simp [programmeSelectBody_frame ..]
  | programmeMeasure f => exact command_keepsUnits fun u => by simp [programmeMeasureBody_frame ..]
  | pcmRoute f => exact command_keepsUnits fun u => by simp [pcmRouteBody_frame ..]
  | pcmRemove f => exact command_keepsUnits fun u => by simp [pcmRemoveBody_frame ..]
  | tdmConfig f => exact command_keepsUnits fun u => by simp [tdmConfigBody_frame ..]
  | tdmConfigApply port => exact (execTdmConfigApply_keepsSizes port s).units
  | pcmShaving o => exact (execPcmShaving_keepsSizes o s).units
  | followerPortLost port m => exact (execFollowerPortLost_keepsSizes port m s).units
  | followerPortResume port good => exact (execFollowerPortResume_keepsSizes port good s).units
  | ringBind f => exact command_keepsUnits fun u => by simp [ringBindBody_frame ..]
  | followSet f => exact command_keepsUnits fun u => by simp [followSetBody_frame ..]
  | followRemove f => exact command_keepsUnits fun u => by simp [followRemoveBody_frame ..]
  | probeAdd f => exact command_keepsUnits fun u => by simp [probeAddBody_frame ..]
  | probeSet f => exact command_keepsUnits fun u => by simp [probeSetBody_frame ..]
  | probeRemove f => exact command_keepsUnits fun u => by simp [probeRemoveBody_frame ..]
  | blendSet f => exact command_keepsUnits fun u => by simp [blendSetBody_frame ..]
  | blendRemove f => exact command_keepsUnits fun u => by simp [blendRemoveBody_frame ..]
  | blendFade f => exact command_keepsUnits fun u => by simp [blendFadeBody_frame ..]
  | gaugeMetric fo m => exact (execGaugeMetric_keepsSizes fo m s).units
  | retarget fo => exact (execRetarget_keepsSizes fo s).units
  | probeDwellEnd pr => exact (execProbeDwellEnd_keepsSizes pr s).units
  | glanceEnd fo => exact (execGlanceEnd_keepsSizes fo s).units
  | candidateExpiry fo freq kind => exact (execCandidateExpiry_keepsSizes fo freq kind s).units
  | scarfCorrelation b => exact (execScarfCorrelation_keepsSizes b s).units
  | fadeEnd b => exact (execFadeEnd_keepsSizes b s).units
  | drainDone b => exact (execDrainDone_keepsSizes b s).units
  | buildDone b => exact (execBuildDone_keepsSizes b s).units
  | alignmentWaitExpiry b => exact (execAlignmentWaitExpiry_keepsSizes b s).units
  | bankLoad f => exact command_keepsUnits fun u => by simp [bankLoadBody_frame ..]
  | curveLoad f => exact command_keepsUnits fun u => by simp [curveLoadBody_frame ..]
  | calRun f => exact command_keepsUnits fun u => by simp [calRunBody_frame ..]
  | calConfig f => exact command_keepsUnits fun u => by simp [calConfigBody_frame ..]
  | supplyConfig f => exact command_keepsUnits fun u => by simp [supplyConfigBody_frame ..]
  | temperatureComparison temps => exact (execTemperatureComparison_keepsSizes temps s).units
  | pendingRunStart a => exact (execPendingRunStart_keepsSizes a s).units
  | elementStatisticsDone a m => exact (execElementStatisticsDone_keepsSizes a m s).units
  | elementInterruptionEnd a => exact (execElementInterruptionEnd_keepsSizes a s).units
  | fadeDeferExpiry a => exact (execFadeDeferExpiry_keepsSizes a s).units
  | calRetry a => exact (execCalRetry_keepsSizes a s).units
  | iqEstimate a m => exact (execIqEstimate_keepsSizes a m s).units
  | iqRampEnd a => exact (execIqRampEnd_keepsSizes a s).units
  | alignmentStep a m => exact (execAlignmentStep_keepsSizes a m s).units
  | grainAssessment m => exact (execGrainAssessment_keepsSizes m s).units
  | avsRaise margins => exact (execAvsRaise_keepsSizes margins s).units
  | avsLower margins => exact (execAvsLower_keepsSizes margins s).units
  | clockPlanChange => exact (execClockPlanChange_keepsSizes s).units
  | linkConfig f => exact command_keepsUnits fun u => by simp [linkConfigBody_frame ..]
  | linkSend f => exact command_keepsUnits fun u => by simp [linkSendBody_frame ..]
  | linkStop f => exact command_keepsUnits fun u => by simp [linkStopBody_frame ..]
  | linkStopped => exact (execLinkStopped_keepsSizes s).units
  | gatherConfig f => exact command_keepsUnits fun u => by simp [gatherConfigBody_frame ..]
  | gatherConfigApply => exact (execGatherConfigApply_keepsSizes s).units
  | beaconTransmit => exact (execBeaconTransmit_keepsSizes s).units
  | beaconWindowOpen => exact (execBeaconWindowOpen_keepsSizes s).units
  | beaconMissed => exact (execBeaconMissed_keepsSizes s).units
  | frameReceived lane sl m => exact (execFrameReceived_keepsSizes lane sl m s).units
  | slotTransmit => exact (execSlotTransmit_keepsSizes s).units
  | fallbackTransmit => exact (execFallbackTransmit_keepsSizes s).units
  | downlinkTransmit => exact (execDownlinkTransmit_keepsSizes s).units
  | radioTransitionDone => exact (execRadioTransitionDone_keepsSizes s).units
  | transmitKill => exact (execTransmitKill_keepsSizes s).units
  | ring28EntryTaken => exact (execRing28EntryTaken_keepsSizes s).units
  | keyInstall f => exact command_keepsUnits fun u => by simp [keyInstallBody_frame ..]
  | keyZeroise f => exact command_keepsUnits fun u => by simp [keyZeroiseBody_frame ..]
  | fwUpdateBegin f => exact command_keepsUnits fun u => by simp [fwUpdateBeginBody_frame ..]
  | fwUpdatePart f => exact command_keepsUnits fun u => by simp [fwUpdatePartBody_frame ..]
  | fwUpdateCommit f => exact command_keepsUnits fun u => by simp [fwUpdateCommitBody_frame ..]
  | regionProfileInstall f => exact command_keepsUnits fun u => by simp [regionProfileInstallBody_frame ..]
  | testUnlock f => exact command_keepsUnits fun u => by simp [testUnlockBody_frame ..]
  | entropyTestFailure => exact (execEntropyTestFailure_keepsSizes s).units
  | busXfer f => exact command_keepsUnits fun u => by simp [busXferBody_frame ..]
  | controllerTransferEnd r => exact (execControllerTransferEnd_keepsSizes r s).units
  | gpioConfig f => exact command_keepsUnits fun u => by simp [gpioConfigBody_frame ..]
  | getGpio f => exact command_keepsUnits fun u => by simp [getGpioBody_frame ..]
  | planBegin f => exact command_keepsUnits fun u => by simp [planBeginBody_frame ..]
  | planPart f => exact command_keepsUnits fun u => by simp [planPartBody_frame ..]
  | planCommit f => exact command_keepsUnits fun u => by simp [planCommitBody_frame ..]
  | planDiscard f => exact command_keepsUnits fun u => by simp [planDiscardBody_frame ..]
  | ringPop port ring clocked => exact (execRingPop_keepsSizes port ring clocked s).units
  | ringPush port ring bytes ending => exact (execRingPush_keepsSizes port ring bytes ending s).units
  | bareRead clocked => exact (execBareRead_keepsSizes clocked s).units
  | regWrite port off val nbytes => exact (execRegWrite_keepsSizes port off val nbytes s).units
  | intClear mask => exact (execIntClear_keepsSizes mask s).units
  | doorbell mask => exact (execDoorbell_keepsSizes mask s).units
  | headWrite port ring val => exact (execHeadWrite_keepsSizes port ring val s).units
  | tailWrite port ring val => exact (execTailWrite_keepsSizes port ring val s).units
  | ringEnableWrite port ring policy => exact (execRingEnableWrite_keepsSizes port ring policy s).units
  | quotaWrite port ring val => exact (execQuotaWrite_keepsSizes port ring val s).units
  | ringStatusClear ring val => exact (execRingStatusClear_keepsSizes ring val s).units
  | fetchTimer ring => exact (execFetchTimer_keepsSizes ring s).units
  | hostRingFetchDone ring bytes => exact (execHostRingFetchDone_keepsSizes ring bytes s).units
  | stagedEntryDma ring => exact (execStagedEntryDma_keepsSizes ring s).units
  | ringDisableDrained ring => exact (execRingDisableDrained_keepsSizes ring s).units
  | intTimeout ring => exact (execIntTimeout_keepsSizes ring s).units
  | pcieRingsDisabled cause => exact (execPcieRingsDisabled_keepsSizes cause s).units
  | busMasterEnable => exact (execBusMasterEnable_keepsSizes s).units
  | pcieRetrain gen width => exact (execPcieRetrain_keepsSizes gen width s).units
  | supplyWrite r => exact (execSupplyWrite_keepsSizes r s).units
  | busNotFreeTimeout => exact (execBusNotFreeTimeout_keepsSizes s).units
  | watchdogExpiry => exact (execWatchdogExpiry_keepsSizes s).units
  | firmwareRestarted => exact (execFirmwareRestarted_keepsSizes s).units
  | engineProgressCheck stalled ecc => exact (execEngineProgressCheck_keepsSizes stalled ecc s).units
  | contextSnapshot => exact (execContextSnapshot_keepsSizes s).units
  | timberScrub words => exact (execTimberScrub_keepsSizes words s).units
  | timberEccError word holds bad => exact (execTimberEccError_keepsSizes word holds bad s).units
  | blockFault island => exact (execBlockFault_keepsSizes island s).units
  | healthLogDelivery => exact (execHealthLogDelivery_keepsSizes s).units
  | controlTune => exact (execControlTune_keepsSizes s).units
  | controlPowerDown => exact (execControlPowerDown_keepsSizes s).units
  | controlDefaults => exact (execControlDefaults_keepsSizes s).units
  | updateKeyUpdate gapMs => exact (execUpdateKeyUpdate_keepsSizes gapMs s).units
  | updateKeyZeroise gapMs => exact (execUpdateKeyZeroise_keepsSizes gapMs s).units
  | chCtrlWrite c v => exact (execChCtrlWrite_keepsSizes c v s).units
  | compatRegWrite off bytes => exact (execCompatRegWrite_keepsSizes off bytes s).units
  | transmissionEnd => exact (execTransmissionEnd_keepsSizes s).units
  | pcieLinkTrained gen width => exact (execPcieLinkTrained_keepsSizes gen width s).units

/-- Settles O44: a step is a command on the state with the rest of the queue, or a clock cycle. -/
theorem everyStepKeepsTheUnitTables : Obligations.EveryStepKeepsTheUnitTables := by
  intro s t u h
  unfold step at h
  split at h
  case h_1 =>
    cases h
    exact units_of_sizes (s := s) (by simp [idleCycle_frame ..]) u
  case h_2 c rest _ => exact exec_keepsUnits c _ t h u

end Sys2Proof.Machine
end

section
/-!
PROOF. The commands that read windows, amplifiers, receptions, chains, alert settings, programmes and the survey (O2).
-/

namespace Sys2Proof.Machine

/-- Settles O2: each body only replies, and what it replies does not depend on what taking a frame may touch. -/
theorem frontEndAndObjectsRead : Obligations.FrontEndAndObjectsRead := by
  unfold Obligations.FrontEndAndObjectsRead
  refine ⟨fun f s hl h => ?window, fun f s hl h => ?lna, fun f s r hl h hr => ?reception, fun f s c hl h hc => ?chain,
    fun f s r hl h hr => ?alert, fun f s p hl h hp => ?programme, fun f s hl h => ?programmes, fun f s hl h => ?survey,
    fun f s hl h => ?surveyList⟩
  case window => exact reads_independent h hl (fun _ => rfl) (fun _ _ _ _ => rfl) rfl
  case lna => exact reads_independent h hl (fun _ => rfl) (fun _ _ _ _ => rfl) rfl
  case programmes => exact reads_independent h hl (fun _ => rfl) (fun _ _ _ _ => rfl) rfl
  case survey => exact reads_independent h hl (fun _ => rfl) (fun _ _ _ _ => rfl) rfl
  case surveyList => exact reads_independent h hl (fun _ => rfl) (fun _ _ _ _ => rfl) rfl
  case reception =>
    exact reads_independent h hl (fun _ => rfl) (fun _ _ _ _ => rfl) (by simp only [getReceptionBody, hr]; rfl)
  case chain =>
    exact reads_independent h hl (fun _ => rfl) (fun _ _ _ _ => rfl) (by simp only [getChainBody, hc])
  case alert =>
    exact reads_independent h hl (fun _ => rfl) (fun _ _ _ _ => rfl) (by simp only [getAlertBody, hr]; rfl)
  case programme =>
    exact reads_independent h hl (fun _ => rfl) (fun _ _ _ _ => rfl) (by simp only [getProgrammeBody, hp]; rfl)

end Sys2Proof.Machine
end

section
/-!
PROOF. The transmissions of the link, their ends, and the end of a stop (O8).
-/

namespace Sys2Proof.Machine

/-- What goes on air, when, and what the radio does from then on (R430, R432). -/
def OnAirFrom (a : TxAsk) (frame : Option Nat) (last : Bool) (s t : State) : Prop :=
  t.clk = s.clk ∧ t.time = s.time ∧ t.link.radio = .tx ∧ t.link.rx = [] ∧ t.link.air = some
    { frame := frame, started := now t, airtime := askTicks a, last := last, channel := a.centre }

/-- A queued frame that passes every check is on air from now on for its airtime (R432). -/
theorem sendTx_onAir {a : TxAsk} {fr : TxFrame} {p : Profile} {c w sub : Nat} {s : State} (h : MaySend a fr p c w sub s)
    (next : Nat) (last : Bool) :
    OnAirFrom { a with centre := c, width := w } (some fr.counter) last s (sendTx a fr next last s) := by
  rw [sendTx_sends h]
  generalize hu : markSent { a with centre := c, width := w } sub fr s = u
  have clk : u.clk = s.clk := by rw [← hu]; simp [markSent_frame ..]
  have time : u.time = s.time := by rw [← hu]; simp [markSent_frame ..]
  obtain ⟨air, radio, rx⟩ := goOnAir_air { a with centre := c, width := w } sub (some fr.counter) last u
  refine ⟨by simp [goOnAir_frame .., clk], by simp [goOnAir_frame .., time], radio, rx, air.trans ?_⟩
  simp [now, goOnAir_frame ..]

/-- With nothing queued no slot is planned (R456). -/
theorem planSlot_none {s : State} (h : s.link.queue = []) (t0 : Int) : planSlot s t0 = none := by
  unfold planSlot pickTx
  simp [h]

/-- The end of a transmission takes no time (R434). -/
theorem now_endAir (s : State) : now (endAir s) = now s := by simp [now, endAir_frame ..]

theorem cutAir_onAir {s : State} {x : OnAir} (h : s.link.air = some x) : cutAir s = endAir s := by
  unfold cutAir; rw [h]; rfl

theorem transmissionEnd_ends {s : State} {x : OnAir} (h : s.link.air = some x) :
    exec .transmissionEnd s = .next (endAir (passTo (x.started + x.airtime) s)) := by
  show execTransmissionEnd s = _
  unfold execTransmissionEnd; rw [h]

/-- A transmission is cut off at once while the Headstock restarts, else 10 ms past its airtime, in both cases by 50 us (R434, R547). -/
theorem transmitKill_cuts {s : State} {x : OnAir} (h : s.link.air = some x) : exec .transmitKill s = .next (endAir (
    if s.head.restarting || s.head.delayed then pass (usTicks 50) s
    else passTo (x.started + x.airtime + ms 10 + usTicks 50) s)) := by
  show execTransmitKill s = _
  unfold execTransmitKill; rw [h]; dsimp only
  split
  · rw [cutAir_onAir (x := x) (by simp [pass_frame .., h])]
  · rw [cutAir_onAir (x := x) (by simp [passTo_frame .., h])]

/-- A stop ends 10 us after the last frame: the link is OFF, and who waited for it is answered (R406, R433). -/
theorem linkStopped_stops {s : State} (hs : s.link.stopping = true) (ha : s.link.air = none) (hh : s.head.held = []) :
    exec .linkStopped s = .next
      (release .linkStop plainReply (finishStop (waiterTag .linkStop s) (pass (usTicks 10) s))) := by
  show execLinkStopped s = _
  unfold execLinkStopped; rw [if_neg (by simp [hs]), ha]; dsimp only
  rw [rerunHeld_none (by rw [release_head]; simp [finishStop_frame .., pass_frame .., hh])]

/-- Settles O8: a frame goes on air by `sendTx_onAir`, and leaves it by the end of the transmission; a stop by `finishStop_plain`. -/
theorem linkTransmissionsEnterAndLeaveTheAir : Obligations.LinkTransmissionsEnterAndLeaveTheAir := by
  unfold Obligations.LinkTransmissionsEnterAndLeaveTheAir
  refine ⟨fun s at' sfn fr ch p c w sub hr hst hm hp hrr h => ?slot, fun s hr hst hm hq => ?idle,
    fun s at' fr p c w sub hr hst hm hrr hp h => ?downlink, fun s x hx => ?ended, fun s x hx => ?kill,
    fun s r hr hh => ?radio, fun s hs ha hc hh => ?stopped⟩
  case slot =>
    have sends : exec .slotTransmit s = .next (sendTx (uplinkAsk (scheduled fr sfn (reach at' s)) fr sfn none ch) fr
        ((sfn + 1) % 16777216) false (scheduled fr sfn (reach at' s))) := by
      show execSlotTransmit s = _
      unfold execSlotTransmit; rw [if_pos (by simp [hr, hst, hm])]; dsimp only
      rw [hp]; dsimp only
      unfold dueUplink; dsimp only; rw [if_pos hrr]
    obtain ⟨clk, time, radio, rx, air⟩ := sendTx_onAir h ((sfn + 1) % 16777216) false
    exact ⟨_, sends, clk.trans (by simp [scheduled_frame ..]), time.trans (by simp [scheduled_frame ..]), by simp, radio, rx, air⟩
  case idle =>
    show execSlotTransmit s = _
    unfold execSlotTransmit; rw [if_pos (by simp [hr, hst, hm])]; dsimp only
    rw [planSlot_none hq, planSlot_none hq]; rfl
  case downlink =>
    have sends : exec .downlinkTransmit s = .next (sendTx
        (downlinkAsk (copied fr (reach at' s)) fr (sfnAt (linkNet s) (linkTime (reach at' s)))) { fr with repeats := copyNumber fr }
        ((sfnAt (linkNet s) (linkTime (reach at' s)) + 1) % 16777216)
        (decide ((copied fr (reach at' s)).set.link.repeats ≤ copyNumber fr)) (copied fr (reach at' s))) := by
      show execDownlinkTransmit s = _
      unfold execDownlinkTransmit; rw [if_pos (by simp [hr, hst, hm, hrr])]; dsimp only
      rw [hp]
    have settings : (copied fr (reach at' s)).set = s.set := by simp [copied_frame .., reach_frame ..]
    rw [settings] at sends
    obtain ⟨clk, time, radio, rx, air⟩ := sendTx_onAir h
      ((sfnAt (linkNet s) (linkTime (reach at' s)) + 1) % 16777216) (decide (s.set.link.repeats ≤ copyNumber fr))
    exact ⟨_, sends, clk.trans (by simp [copied_frame ..]), time.trans (by simp [copied_frame ..]), radio, rx, air⟩
  case ended =>
    refine ⟨_, transmissionEnd_ends hx, endAir_air _, by rw [now_endAir, now_passTo], ?_⟩
    rw [endAir_front _ x (by simp [passTo_frame .., hx]), now_passTo]
    simp [passTo_frame ..]
  case kill =>
    refine ⟨_, transmitKill_cuts hx, endAir_air _, ?_⟩
    rw [now_endAir]
    split
    · exact now_pass _ _
    · exact now_passTo _ _
  case radio =>
    have done : exec .radioTransitionDone s = .next { passTo s.link.radioAt s with
        link := { s.link with radio := r, radioTo := none } } := by
      show execRadioTransitionDone s = _
      unfold execRadioTransitionDone; rw [hr]; dsimp only
      rw [show (passTo s.link.radioAt s).link = s.link by simp [passTo_frame ..], hh]
    refine ⟨_, done, rfl, now_passTo _ _, ?_⟩
    conv_lhs => rw [passTo_only]
  case stopped =>
    refine ⟨_, linkStopped_stops hs ha hh, ?_⟩
    rw [finishStop_plain _ (by simp [pass_frame .., hc])]
    refine ⟨by simp [pass_frame ..], by simp [now], by rw [release_head]; simp [pass_frame ..], by simp [pass_frame ..],
      by simp [pass_frame ..]⟩

end Sys2Proof.Machine
end

section
/-!
PROOF. A gang whose partner tuner a glance holds (O16).
-/

namespace Sys2Proof.Machine

/-- A device in SERVE whose window W0 found no tuner and is FAILED, and whose tuner T1 a glance of follow object 0 holds (R264, R606). -/
def gangOverGlance : State :=
  { pwr := { strapCode := 4, ready := true, commands := true, porAsserted := false, stage := .running, released := 0x7FFFF, counting := true }
    set := { mode := .serve }
    clk := { refOn := true, sysPll := .locked }
    front := { tuners := [{}, { role := .glance 0, state := .locked }, {}, {}, {}]
               windows := { state := .failed, inPlan := true } :: List.replicate 8 {} }
    prog := { follows := [{ glance := some (1, 100000000, .fm, 0) }] } }

/-- WINDOW_GANG of W0 with T1 on port 0. -/
def gangWithT1 : CmdFrame := { port := 1, portField := 1, payload := [1, 0, 0, 0] }

/-- W0 is in the plan and T1 may be its partner: a glance gives way to a gang (R265). -/
theorem gangWithT1_accepted : Accepted 0x0304 gangWithT1 (windowGangChecks gangWithT1) gangOverGlance := by
  unfold Accepted
  decide +kernel

/-- The gang abandons the glance, and T1 begins its ramp although W0 is not up (R265). -/
theorem windowGang_freesGlance :
    ∃ t, exec (.windowGang gangWithT1) gangOverGlance = .next t ∧ (tunerAt t 1).role = .freeing 1 :=
  ⟨_, rfl, by decide +kernel⟩

/-- Refutes O16 in its clause on WINDOW_GANG: the gang of a window that is not up leaves the tuners as they are only where no glance
holds the partner's tuner; a glance is abandoned, and its tuner ramps down (R265). -/
theorem not_windowsOpenRetuneAndClose : ¬ Obligations.WindowsOpenRetuneAndClose := by
  rintro ⟨_, _, _, _, _, gangKeepsTuners, _⟩
  obtain ⟨t, ht, _, _, _, _, tuners⟩ :=
    gangKeepsTuners gangWithT1 gangOverGlance rfl rfl (by decide) gangWithT1_accepted (by decide)
  obtain ⟨t', ht', freed⟩ := windowGang_freesGlance
  cases ht.symm.trans ht'
  rw [tunerAt, tuners] at freed
  exact absurd freed (by decide)

end Sys2Proof.Machine
end

section
/-!
PROOF. An opening that waits for the ramp of an abandoned glance (O23).
-/

namespace Sys2Proof.Machine

/-- A device in SERVE whose window W0 opens on tuner T0, which still ramps down from the glance that gave way to it (R265). -/
def openingOnRamp : State :=
  { set := { mode := .serve }
    clk := { refOn := true, sysPll := .locked }
    front := { tuners := [{ role := .yielding 0 false, state := .warm }, {}, {}, {}, {}]
               windows := { state := .opening, inPlan := true, tuner := some 0 } :: List.replicate 8 {} } }

/-- No samples come from T0 before its ramp has ended, so WINDOW_OPEN_DONE leaves W0 opening (R265). -/
theorem windowOpenDone_keepsRampingOpening :
    ∃ t, exec (.windowOpenDone 0) openingOnRamp = .next t ∧ (windowAt t 0).state = .opening :=
  ⟨_, rfl, by decide +kernel⟩

/-- Refutes O23 in its clause on WINDOW_OPEN_DONE: an opening window whose tuner ramps down from an abandoned glance is not open
yet (R265). -/
theorem not_openingsRetunesAndShutDownsEnd : ¬ Obligations.OpeningsRetunesAndShutDownsEnd := by
  rintro ⟨opensAlways, _⟩
  obtain ⟨t, ht, opened, _⟩ :=
    opensAlways openingOnRamp 0 (by decide) (by decide) rfl rfl rfl (by decide) rfl rfl rfl
  obtain ⟨t', ht', still⟩ := windowOpenDone_keepsRampingOpening
  cases ht.symm.trans ht'
  rw [opened] at still
  cases still

end Sys2Proof.Machine
end

section
/-!
PROOF. A block of samples to a tap that is being shut down (O24).
-/

namespace Sys2Proof.Machine

/-- A device with one tap, whose chain runs and which is being shut down (R336, R337). -/
def removingTap : State :=
  { clk := { refOn := true, sysPll := .locked }
    prog := { taps := [{ o := { removing := true }, chain := { kind := .tap, state := .running, covered := true } }] } }

/-- One sample that reaches the tap. -/
def oneSample : ChainIn := { samples := [(1, 1)] }

/-- During its shut-down the tap's chain stands as it was: the sample goes into no block (R337). -/
theorem chainBlock_removingTap : exec (.chainBlock (.tap 0) oneSample) removingTap = .next removingTap := rfl

/-- Refutes O24 in its clause on a tap's blocks: the samples that reach a tap are not in its open block when the tap is being shut
down (R337). -/
theorem not_chainsRunBlockByBlock : ¬ Obligations.ChainsRunBlockByBlock := by
  rintro ⟨_, _, tapTakes, _⟩
  obtain ⟨t, ht, c, hc, takes⟩ := tapTakes removingTap 0 oneSample _ rfl rfl rfl rfl rfl rfl rfl (by decide) (by decide)
  cases chainBlock_removingTap.symm.trans ht
  cases hc
  exact absurd takes.1 (by decide)

end Sys2Proof.Machine
end

section
/-!
PROOF. Tuners, their gains and the external amplifiers (O17).
-/

namespace Sys2Proof.Machine

/-- The front end does not follow the clock. -/
theorem passTo_front (d : Nat) (s : State) : (passTo d s).front = s.front := by rw [passTo_only]

/-- A tuner that serves a window, or as its partner, from now on (R112, R132). -/
def taken (role : TunerRole) (port : Nat) (u : Tuner) : Tuner :=
  { u with role := role, port := port, lingerAt := none, clipAt := none, above10At := none }

/-- A tuner that has failed: off and without a use (R137). -/
def brokenDown (u : Tuner) : Tuner := { u with failed := true, state := .off, role := .unused, lingerAt := none }

theorem tunerGlances_false {s : State} {n : Nat} (h : ∀ o, (tunerAt s n).role ≠ .glance o) : tunerGlances s n = false := by
  unfold tunerGlances
  split
  next o ho => exact absurd ho (h o)
  next => rfl

/-- A window that opens on a tuner (R120, R605). -/
def openingOn (w n : Nat) (s : State) : State :=
  modTuner n (taken (.window w) (windowAt s w).port) (modWindow w (fun x => { x with state := .opening, tuner := some n }) s)

theorem windowAt_openingOn {s : State} {w : Nat} (h : w < s.front.windows.length) (n v : Nat) : windowAt (openingOn w n s) v =
    if w = v then { windowAt s v with state := .opening, tuner := some n } else windowAt s v := by
  unfold openingOn
  rw [windowAt_modTuner, windowAt_modWindow]
  by_cases e : w = v
  · subst e; simp [h]
  · simp [e]

theorem tunerAt_openingOn {s : State} {n : Nat} (h : n < s.front.tuners.length) (w u : Nat) : tunerAt (openingOn w n s) u =
    if n = u then taken (.window w) (windowAt s w).port (tunerAt s u) else tunerAt s u := by
  unfold openingOn
  rw [tunerAt_modTuner, tunerAt_modWindow]
  by_cases e : n = u
  · subst e; simp [h]
  · simp [e]

/-- A window opens on the tuner chosen for it, which no glance holds (R605). -/
theorem openWindow_picked {s : State} {w n : Nat} (hp : pickTuner s w = some n) (hg : ∀ o, (tunerAt s n).role ≠ .glance o) :
    openWindow w s = openingOn w n s := by
  unfold openWindow
  rw [hp]
  exact takeTuner_plain (tunerGlances_false (s := modWindow w _ s) hg) w false _

/-- A window that is not ganged brings no partner up. -/
theorem bringPartner_none {s : State} {w : Nat} (h : (windowAt s w).partner = none) : bringPartner w s = s := by
  unfold bringPartner; rw [h]

/-- In SERVE the partner's tuner comes up with its window when it has no use (R134). -/
theorem bringPartner_unused {s : State} {w p port : Nat} (h : (windowAt s w).partner = some (p, port)) (hm : s.set.mode = .serve)
    (hf : (tunerAt s p).failed = false) (hr : (tunerAt s p).role = .unused) :
    bringPartner w s = modTuner p (taken (.partner w) port) s := by
  have free : tunerFree s p = true := by unfold tunerFree; simp [hf, hr]
  unfold bringPartner
  rw [h]; dsimp only
  rw [if_neg (by simp [hm, hr]), if_pos free]
  exact takeTuner_plain (tunerGlances_false fun o => by simp [hr]) w true port

/-- A FAILED window of the plan opens on the tuner chosen for it, its partner with it (R134, R606). -/
theorem failedWindowReopen_opens {s : State} {w n : Nat} (hw : w < 5) (hst : (windowAt s w).state = .failed)
    (hin : (windowAt s w).inPlan = true) (hr : runsIn s.set.mode (windowAt s w).sentry = true) (hp : pickTuner s w = some n) :
    exec (.failedWindowReopen w) s = .next (bringPartner w (openWindow w s)) := by
  show execFailedWindowReopen w s = _
  unfold execFailedWindowReopen
  rw [within_next (by simp [hw]), if_pos (by simp [hst, hin, hr, hp])]

/-- The failure of a tuner without a use stops its calibration runs and nothing else (R137, R520). -/
theorem tunerFails_unused {s : State} {n : Nat} (hr : (tunerAt s n).role = .unused) :
    tunerFails n s = dropRun n (modTuner n brokenDown s) := by
  unfold tunerFails
  simp only [hr]
  rfl

/-- A run that no command asked for is dropped without an answer: calibration alone changes (R520). -/
theorem dropRun_only {s : State} {n : Nat} (h : (adcAt s n).asked = false) : dropRun n s = { s with cal := (dropRun n s).cal } := by
  unfold dropRun
  simp only [h]
  rfl

theorem nextPlacements_none {s : State} (h : placementsWait s = false) : nextPlacements s = s := by
  unfold nextPlacements; simp [h]

theorem rerunOpens_none {s : State} (h : s.head.held = []) : rerunOpens s = s := rerunHeld_none h _ _ _

/-- What an AGC_UPDATE keeps in its window (R130, R133, R148). -/
def agcMeasured (s : State) (w n : Nat) (m : AgcMeas) (x : Window) : Window :=
  { x with
    power := referPower s (if w = 4 then 6 else x.port) m.powerTenthDbm
    clips := x.clips + BitVec.ofNat 32 (m.clipped + m.partnerClipped)
    txOverlap := if gainFrozen s n then x.txOverlap + BitVec.ofNat 32 (m.clipped + m.partnerClipped) else x.txOverlap }

/-- With a fixed gain, no partner and little clipping an update only measures, and counts its tuner's clipping (R127, R130). -/
theorem agcUpdate_holds {s : State} {w n : Nat} {m : AgcMeas} (hw : w < 5) (ht : (windowAt s w).tuner = some n)
    (hst : (windowAt s w).state = .open) (hagc : (windowAt s w).agc = 1) (hpart : (windowAt s w).partner = none)
    (hclip : 100000 * m.clippedLastS ≤ m.samplesLastS) :
    exec (.agcUpdate w m) s = .next (holdGain n m.clipped m.samples (modWindow w (agcMeasured s w n m) s)) := by
  show execAgcUpdate w m s = _
  unfold execAgcUpdate
  rw [within_next (by simp [hw])]; dsimp only
  rw [ht]; dsimp only
  rw [if_neg (by simp [hst]), hagc, hpart]; dsimp only
  rw [if_neg (by simp; omega), if_pos (by simp)]
  rfl

/-- A gain that stands still stays (R129, R145). -/
theorem holdGain_gain (n c k u : Nat) (s : State) : (tunerAt (holdGain n c k s) u).gain = (tunerAt s u).gain := by
  unfold holdGain
  rw [tunerAt_modTuner]
  split <;> rfl

/-- An external amplifier is bypassed 100 ms after the first tuner on its port clips at minimum gain (R132). -/
theorem lnaBypass_after {s : State} {n d : Nat} {ds : List Nat} (hn : n < 4) (hport : (s.set.lna.getD n {}).port ≤ 5)
    (hb : s.front.bypassed.getD n false = false)
    (hd : (tunersOnPort s (s.set.lna.getD n {}).port).filterMap (fun t => (tunerAt s t).clipAt) = d :: ds) :
    exec (.lnaBypass n) s = .next { passTo (ds.foldl min d + ms 100) s with
      front := { s.front with bypassed := setAt s.front.bypassed n true } } := by
  show execLnaBypass n s = _
  unfold execLnaBypass
  rw [within_next (by simp [hn])]; dsimp only
  rw [hd]; dsimp only
  rw [if_neg (by simp only [hb, Bool.or_false, decide_eq_true_eq]; omega), passTo_front]

/-- A bypassed amplifier returns 2 s after the last tuner on its port came 10 dB above minimum gain (R132). -/
theorem lnaReturn_after {s : State} {n : Nat} (hn : n < 4) (hb : s.front.bypassed.getD n false = true)
    (hts : ∀ t ∈ tunersOnPort s (s.set.lna.getD n {}).port, (tunerAt s t).above10At.isSome) :
    exec (.lnaReturn n) s = .next { passTo (((tunersOnPort s (s.set.lna.getD n {}).port).map
        (fun t => ((tunerAt s t).above10At).getD 0)).foldl max 0 + 2 * ticksPerSecond) s with
      front := { s.front with bypassed := setAt s.front.bypassed n false } } := by
  show execLnaReturn n s = _
  unfold execLnaReturn
  rw [within_next (by simp [hn])]; dsimp only
  rw [if_pos (by rw [hb]; simpa using hts), passTo_front]

/-- 50 ms after the first freeze began no gain is frozen (R145). -/
theorem agcFreezeCap_thaws {s : State} {a : Nat} {l : List Nat} (h : s.front.tuners.filterMap (·.frozenAt) = a :: l) :
    exec .agcFreezeCap s = .next { passTo (l.foldl min a + ms 50) s with
      front := { s.front with tuners := s.front.tuners.map (fun u => { u with frozenAt := none }) } } := by
  show execAgcFreezeCap s = _
  unfold execAgcFreezeCap; dsimp only
  rw [h]; dsimp only
  rw [passTo_front]

/-- Settles O17: each event by the lemma on its operation; the tuners and windows it does not name stay by `tunerAt_modTuner` and
`windowAt_modWindow`. -/
theorem tunersFollowTheirSignalsAndFail : Obligations.TunersFollowTheirSignalsAndFail := by
  unfold Obligations.TunersFollowTheirSignalsAndFail
  refine ⟨fun s n due h5 hl ha hr => ?linger, fun s n h5 hl hf hr hasked hh hw => ?failure,
    fun s w n h5 hw hn hst hin hr hp hg hpart => ?reopen, fun s w n p port h5 hw hn hpl hne hst hin hm hp hg hpart hf hr => ?ganged,
    fun s w n m h5 hw ht hst hagc hpart hclip => ?agc, fun s n d ds h4 hport hb hd => ?bypass, fun s n h4 hb hts => ?back,
    fun s a l hs => ?cap⟩
  case linger =>
    have off : exec (.lingerExpiry n) s = .next (modTuner n (fun u => { u with state := .off, lingerAt := none }) (passTo due s)) := by
      show execLingerExpiry n s = _
      unfold execLingerExpiry
      rw [within_next (by simp [h5]), ha]; dsimp only
      rw [if_pos hr]
    have same := passTo_front due s
    refine ⟨_, off, ?_, fun m hm => ?_, by rw [modTuner_front, same], now_passTo due s⟩
    · rw [tunerAt_modTuner, if_pos ⟨rfl, by rwa [same]⟩, tunerAt_congr same]
    · rw [tunerAt_modTuner, if_neg (by omega), tunerAt_congr same]
  case failure =>
    have drops := dropRun_only (s := modTuner n brokenDown s) hasked
    have waits : placementsWait (dropRun n (modTuner n brokenDown s)) = false := by rw [drops]; exact hw
    have held : (dropRun n (modTuner n brokenDown s)).head.held = [] := by rw [drops]; exact hh
    have fails : exec (.tunerFailure n) s = .next (dropRun n (modTuner n brokenDown s)) := by
      show execTunerFailure n s = _
      unfold execTunerFailure
      rw [within_next (by simp [h5]), if_neg (by simp [hf]), tunerFails_unused hr, nextPlacements_none waits, rerunOpens_none held]
    have front : (dropRun n (modTuner n brokenDown s)).front = (modTuner n brokenDown s).front := by rw [drops]
    refine ⟨_, fails, ?_, fun k hk => ?_, by rw [front, modTuner_front]⟩
    · rw [tunerAt_congr front, tunerAt_modTuner, if_pos ⟨rfl, hl⟩]; rfl
    · rw [tunerAt_congr front, tunerAt_modTuner, if_neg (by omega)]
  case reopen =>
    refine ⟨_, failedWindowReopen_opens h5 hst hin hr hp, ?_⟩
    have alone : (windowAt (openingOn w n s) w).partner = none := by rw [windowAt_openingOn hw, if_pos rfl]; exact hpart
    rw [openWindow_picked hp hg, bringPartner_none alone]
    refine ⟨by rw [windowAt_openingOn hw, if_pos rfl], by rw [tunerAt_openingOn hn, if_pos rfl]; rfl, fun v hv => ?_⟩
    rw [windowAt_openingOn hw, if_neg (by omega)]
  case ganged =>
    refine ⟨_, failedWindowReopen_opens h5 hst hin (by simp [runsIn, hm]) hp, ?_⟩
    have ganged : (windowAt (openingOn w n s) w).partner = some (p, port) := by
      rw [windowAt_openingOn hw, if_pos rfl]; exact hpart
    have other : tunerAt (openingOn w n s) p = tunerAt s p := by rw [tunerAt_openingOn hn, if_neg (by omega)]
    have there : p < (openingOn w n s).front.tuners.length := by simpa [openingOn] using hpl
    rw [openWindow_picked hp hg, bringPartner_unused ganged hm (by rw [other, hf]) (by rw [other, hr])]
    have partner : tunerAt (modTuner p (taken (.partner w) port) (openingOn w n s)) p = taken (.partner w) port (tunerAt s p) := by
      rw [tunerAt_modTuner, if_pos ⟨rfl, there⟩, other]
    refine ⟨by rw [windowAt_modTuner, windowAt_openingOn hw, if_pos rfl], ?_, by rw [partner]; rfl, by rw [partner]; rfl⟩
    rw [tunerAt_modTuner, if_neg (by omega), tunerAt_openingOn hn, if_pos rfl]; rfl
  case agc =>
    refine ⟨_, agcUpdate_holds h5 ht hst hagc hpart hclip, ?_, ?_, fun u hu => ?_, fun v hv => ?_, rfl, rfl⟩
    · unfold holdGain
      rw [windowAt_modTuner, windowAt_modWindow, if_pos ⟨rfl, hw⟩]; rfl
    · rw [holdGain_gain]; rfl
    · unfold holdGain
      rw [tunerAt_modTuner, if_neg (by omega), tunerAt_modWindow]
    · unfold holdGain
      rw [windowAt_modTuner, windowAt_modWindow, if_neg (by omega)]
  case bypass =>
    refine ⟨_, lnaBypass_after h4 hport hb hd, ?_, ?_, ?_⟩
    · rw [passTo_only]
    · exact now_passTo _ s
    · conv_lhs => rw [passTo_only]
  case back =>
    refine ⟨_, lnaReturn_after h4 hb hts, ?_, ?_⟩
    · rw [passTo_only]
    · conv_lhs => rw [passTo_only]
  case cap =>
    refine ⟨_, agcFreezeCap_thaws hs, ?_, now_passTo _ s, ?_⟩
    · rw [passTo_only]
    · conv_lhs => rw [passTo_only]

end Sys2Proof.Machine
end

section
/-!
PROOF. Receptions, branches and taps as commands create, change and remove them (O25).
-/

namespace Sys2Proof.Machine

/-! ### The state a command's body works on -/

/-- The state once a frame was taken from its ring. -/
def afterTaking (s : State) (p : PortS) (o : List Output) (b : BusS) (x : List (Nat × CmdFrame)) : State :=
  { s with port := p, out := o, bus := b, head := { s.head with blocked := x } }

/-- What an accepted command with a reply makes true: its reply is the last answer. -/
theorem changes_taken {op : Nat} {f : CmdFrame} {c : State → Checks} {s : State} (h : Accepted op f c s)
    (hl : s.port.rings.length = 32) {body : State → State × Option Reply} {r : Reply} {P : State → Prop}
    (hp : ∀ t p o, P t → P { t with port := p, out := o })
    (hb : ∀ p o b x, p.rings.length = 32 → (body (afterTaking s p o b x)).2 = some r ∧
      (body (afterTaking s p o b x)).1.port.rings.length = 32 ∧ P (body (afterTaking s p o b x)).1) :
    ∃ t, Host.Outcome.next (φ := Fault) (ρ := Refusal) (command op f c body s) = .next t ∧ AnsweredLast op f r t ∧ P t :=
  changes_direct h hl (fun t u k ht => by rw [show u = _ from k]; exact hp t _ _ ht) hb

/-- What an accepted command makes true, whatever it answers. -/
theorem leaves_taken {op : Nat} {f : CmdFrame} {c : State → Checks} {s : State} (h : Accepted op f c s)
    {body : State → State × Option Reply} {P : State → Prop} (hp : ∀ t p o, P t → P { t with port := p, out := o })
    (hb : ∀ p o b x, P (body (afterTaking s p o b x)).1) :
    ∃ t, Host.Outcome.next (φ := Fault) (ρ := Refusal) (command op f c body s) = .next t ∧ P t :=
  defers_accepted h (fun t u k ht => by rw [show u = _ from k]; exact hp t _ _ ht) fun u hu _ => by
    rw [show u = _ from hu]; exact hb _ _ _ _

/-- The plan sequence advances by one; the rest of the plan stays (R344). -/
theorem bumpPlan_advances {s t : State} (h : t.plan = s.plan) : (bumpPlan t).plan = { s.plan with seq := s.plan.seq + 1 } := by
  rw [← h]; rfl

/-- In IDLE nothing of the plan runs (R38). -/
theorem bumpPlan_runs_none {s : State} (h : s.set.mode = .idle) : runsIn (bumpPlan s).set.mode true = false := by
  rw [show (bumpPlan s).set.mode = .idle from h]; rfl

/-! ### Creations -/

/-- A created reception is the last one: stopped and searching, with the settings asked for (R154, R177, R371). -/
theorem createReception_appends (i : Nat) (mark : Bool) (p : List Byte) (s : State) :
    (createReception i mark p s).1.prog.branches = s.prog.branches ∧ (createReception i mark p s).1.prog.taps = s.prog.taps ∧
      ∃ r, (createReception i mark p s).1.prog.receptions = s.prog.receptions ++ [r] ∧ r.idx = i ∧
        r.gen = nextGen (s.gens.reception.getD i 0) ∧ r.kind = askedKind p ∧ r.window = askedWindow p 1 ∧ r.rx = .searching ∧
        r.sentry = mark ∧ r.chain = newChain r.kind r.window (readChainBlock s r.kind r.window p 4) := by
  unfold createReception; dsimp only
  split
  · exact ⟨rfl, rfl, _, rfl, rfl, rfl, rfl, rfl, rfl, rfl, rfl⟩
  · exact ⟨rfl, rfl, _, rfl, rfl, rfl, rfl, rfl, rfl, rfl, rfl⟩

/-- A created branch is the last one, stopped, of the reception asked for (R136, R332). -/
theorem createBranch_appends {s : State} {rx : Nat} {r : Reception} (h : receptionAt s rx = some r) (i : Nat) (mark : Bool) :
    ∃ b, (createBranch i mark rx s).prog.branches = s.prog.branches ++ [b] ∧ b.o.idx = i ∧
      b.o.gen = nextGen (s.gens.branch.getD i 0) ∧ b.reception = rx ∧ b.chain.state = .stopped ∧ b.o.sentry = mark := by
  unfold createBranch
  rw [h]
  exact ⟨_, rfl, rfl, rfl, rfl, rfl, rfl⟩

/-- A created tap is the last one, with the window and the chain asked for; no other object changes (R332, R373). -/
theorem createTap_appends (i : Nat) (mark : Bool) (p : List Byte) (s : State) :
    ∃ x, (createTap i mark p s).1.prog = { s.prog with taps := s.prog.taps ++ [x] } ∧ x.o.idx = i ∧
      x.o.gen = nextGen (s.gens.tap.getD i 0) ∧ x.window = askedWindow p 0 ∧
      x.chain = newChain .tap x.window (readChainBlock s .tap x.window p 4) :=
  ⟨_, rfl, rfl, rfl, rfl, rfl⟩

section
variable {s : State} (idle : s.set.mode = .idle) (f : CmdFrame)
include idle

/-- In IDLE a new reception is created and not started (R38, R177). -/
theorem receptionAddBody_idle :
    (receptionAddBody f s).1 = bumpPlan (createReception (newReceptionIndex s) false f.payload s).1 := by
  have mode : (createReception (newReceptionIndex s) false f.payload s).1.set.mode = .idle := by simp [idle]
  unfold receptionAddBody; dsimp only
  rw [show (s.set.mode == .sentry) = false by rw [idle]; rfl, bumpPlan_runs_none mode]; rfl

/-- In IDLE a new branch is created and not started (R38, R136). -/
theorem branchAddBody_idle :
    (branchAddBody f s).1 = bumpPlan (createBranch (newBranchIndex s) false (handleAt f.payload 0).index s) := by
  have mode : (createBranch (newBranchIndex s) false (handleAt f.payload 0).index s).set.mode = .idle := by
    simp [createBranch_frame .., idle]
  unfold branchAddBody; dsimp only
  rw [bumpPlan_runs_none mode]; rfl

/-- In IDLE a new tap is created and not started (R38, R373). -/
theorem tapAddBody_idle : (tapAddBody f s).1 = bumpPlan (createTap (newTapIndex s) false f.payload s).1 := by
  have mode : (createTap (newTapIndex s) false f.payload s).1.set.mode = .idle := by simp [createTap_frame .., idle]
  unfold tapAddBody; dsimp only
  rw [show (s.set.mode == .sentry) = false by rw [idle]; rfl, bumpPlan_runs_none mode]; rfl

end

/-! ### Changes -/

/-- How a reception changes does not depend on what taking a frame may touch. -/
theorem changeReception_afterTaking (i : Nat) (pl : List Byte) (s : State) (p : PortS) (o : List Output) (b : BusS)
    (x : List (Nat × CmdFrame)) : (changeReception i pl (afterTaking s p o b x)).2 = (changeReception i pl s).2 ∧
      (changeReception i pl (afterTaking s p o b x)).1.prog = (changeReception i pl s).1.prog := by
  unfold changeReception
  rw [show receptionAt (afterTaking s p o b x) i = receptionAt s i from rfl]
  cases receptionAt s i with
  | none => exact ⟨rfl, rfl⟩
  | some r => exact ⟨rfl, rfl⟩

/-- A change that leaves the channel where it is changes the reception and the plan sequence, nothing else (R179). -/
theorem receptionSetBody_unmoved {s : State} {f : CmdFrame} (h : (changeReception f.target.index f.payload s).2.2.2 = false) :
    receptionSetBody f s = (bumpPlan (changeReception f.target.index f.payload s).1,
      some { target := f.target, clamped := (changeReception f.target.index f.payload s).2.1
             held := (changeReception f.target.index f.payload s).2.2.1 }) := by
  unfold receptionSetBody afterMove
  simp [h]

/-! ### Removals -/

/-- The shut-down of a reception that runs begins (R336). -/
theorem shutReception_running {s : State} {i : Nat} {r : Reception} (h : receptionAt s i = some r) (hrem : r.removing = false)
    (hst : chainStarted r.chain = true) (hsh : r.shed = false) (cause : Nat) :
    shutReception i cause s = modReception i (fun r => { r with removing := true }) s := by
  unfold shutReception
  simp [h, hrem, hst, hsh]

/-- The shut-down of a branch that runs begins (R336). -/
theorem shutBranch_running {s : State} {i : Nat} {b : Branch} (h : s.prog.branches.find? (·.o.idx == i) = some b)
    (hrem : b.o.removing = false) (hst : chainStarted b.chain = true) (hsh : b.o.shed = false) (cause : Nat) :
    shutBranch i cause s = { s with prog := { s.prog with branches := s.prog.branches.map (fun x =>
      if x.o.idx = i then { x with o := { x.o with removing := true } } else x) } } := by
  unfold shutBranch
  simp [h, hrem, hst, hsh]

/-- The shut-down of a tap that runs begins (R336). -/
theorem shutTap_running {s : State} {i : Nat} {x : Tap} (h : s.prog.taps.find? (·.o.idx == i) = some x)
    (hrem : x.o.removing = false) (hst : chainStarted x.chain = true) (cause : Nat) :
    shutTap i cause s = { s with prog := { s.prog with taps := s.prog.taps.map (fun y =>
      if y.o.idx = i then { y with o := { y.o with removing := true } } else y) } } := by
  unfold shutTap
  simp [h, hrem, hst]

/-- With nothing found that waits for an index, RECEPTION_REMOVE of a running reception only begins its shut-down (R210, R336). -/
theorem receptionRemoveBody_running {s : State} {f : CmdFrame} {r : Reception} (h : receptionAt s f.target.index = some r)
    (hrem : r.removing = false) (hst : chainStarted r.chain = true) (hsh : r.shed = false)
    (hun : ∀ x ∈ s.prog.receptions, x.untracked = []) : (receptionRemoveBody f s).1 =
      compatRefresh (modReception f.target.index (fun r => { r with removing := true }) (bumpPlan s)) := by
  have none : ∀ x ∈ (modReception f.target.index (fun r => { r with removing := true }) (bumpPlan s)).prog.receptions,
      x.untracked = [] := by
    intro x hx
    obtain ⟨y, hy, rfl⟩ := List.mem_map.mp hx
    split
    · exact hun y hy
    · exact hun y hy
  unfold receptionRemoveBody
  simp only [h, Option.map_some, Option.getD_some, hrem, Bool.false_eq_true, if_false]
  rw [shutReception_running (s := bumpPlan s) h hrem hst hsh, trackMore_none none]

theorem branchRemoveBody_running {s : State} {f : CmdFrame} {b : Branch}
    (h : s.prog.branches.find? (·.o.idx == f.target.index) = some b) (hrem : b.o.removing = false)
    (hst : chainStarted b.chain = true) (hsh : b.o.shed = false) : (branchRemoveBody f s).1 = { bumpPlan s with
      prog := { s.prog with branches := s.prog.branches.map (fun x =>
        if x.o.idx = f.target.index then { x with o := { x.o with removing := true } } else x) } } := by
  unfold branchRemoveBody branchObj
  simp only [h, Option.map_some, Option.getD_some, hrem, Bool.false_eq_true, if_false]
  exact shutBranch_running (s := bumpPlan s) h hrem hst hsh _

theorem tapRemoveBody_running {s : State} {f : CmdFrame} {x : Tap}
    (h : s.prog.taps.find? (·.o.idx == f.target.index) = some x) (hrem : x.o.removing = false)
    (hst : chainStarted x.chain = true) : (tapRemoveBody f s).1 = { bumpPlan s with
      prog := { s.prog with taps := s.prog.taps.map (fun y =>
        if y.o.idx = f.target.index then { y with o := { y.o with removing := true } } else y) } } := by
  unfold tapRemoveBody tapObj
  simp only [h, Option.map_some, Option.getD_some, hrem, Bool.false_eq_true, if_false]
  exact shutTap_running (s := bumpPlan s) h hrem hst _

/-! ### Gauge decides anew

A decision moves probes and audio; the receptions stay as they are (R268 to R270). -/

theorem engineTake_probe_receptions (i : Nat) (l : List Block) (s : State) :
    (engineTake (.probe i) l s).prog.receptions = s.prog.receptions := by
  unfold engineTake; dsimp only
  induction l generalizing s with
  | nil => rfl
  | cons b l ih => exact ih _

theorem closeBlock_probe_receptions (i : Nat) (s : State) : (closeBlock (.probe i) s).prog.receptions = s.prog.receptions := by
  unfold closeBlock; dsimp only
  (repeat' split) <;> simp [noteLog_frame .., scaleBlock_frame .., deliverBlock_frame .., countGap, engineTake_probe_receptions,
    modChain]

theorem freshOnMove_receptions (o : ChainOwner) (c : Chain) (s : State) : (freshOnMove o c s).prog.receptions = s.prog.receptions := by
  unfold freshOnMove; (repeat' split) <;> simp [freshProbe]

theorem dropChannel_probe_receptions (i : Nat) (s : State) : (dropChannel (.probe i) s).prog.receptions = s.prog.receptions := by
  unfold dropChannel; dsimp only
  (repeat' split) <;> simp [postBankChanged_frame .., freshOnMove_receptions, closeBlock_probe_receptions, modChain]

theorem restartChain_probe_receptions (i : Nat) (s : State) : (restartChain (.probe i) s).prog.receptions = s.prog.receptions := by
  unfold restartChain; dsimp only
  (repeat' split) <;> simp [postBankChanged_frame .., freshOnMove_receptions, modChain]

theorem judgeChain_probe_receptions (cause : Option Nat) (i : Nat) (s : State) :
    (judgeChain cause (.probe i) s).prog.receptions = s.prog.receptions := by
  unfold judgeChain judgeShed; dsimp only
  (repeat' split) <;> simp [dropChannel_probe_receptions, restartChain_probe_receptions, modChain]

theorem judgeProbe_receptions (i : Nat) (s : State) : (judgeProbe i s).prog.receptions = s.prog.receptions := by
  unfold judgeProbe
  (repeat' split) <;> simp [judgeChain_probe_receptions, freshProbe]

theorem tuneProbe_receptions (i : Nat) (k : Kind) (fr : Nat) (s : State) : (tuneProbe i k fr s).prog.receptions =
    s.prog.receptions := by
  unfold tuneProbe; dsimp only
  split <;> simp [judgeProbe_receptions]

theorem probeOn_receptions (i fo : Nat) (c : Cand) (s : State) : (probeOn i fo c s).prog.receptions = s.prog.receptions := by
  unfold probeOn; dsimp only
  split <;> simp [tuneProbe_receptions]

theorem lossProbes_receptions (i : Nat) (s : State) : (lossProbes i s).prog.receptions = s.prog.receptions := by
  unfold lossProbes; dsimp only
  (repeat' split) <;> simp [probeOn_receptions]

theorem gaugeDecide_receptions (i : Nat) (stamp : Tick) (s : State) : (gaugeDecide i stamp s).prog.receptions = s.prog.receptions := by
  unfold gaugeDecide; dsimp only
  (repeat' split) <;> simp [lossProbes_receptions]

theorem decideAgain_receptions (fo : Nat) (s : State) : (decideAgain fo s).prog.receptions = s.prog.receptions := by
  unfold decideAgain; split <;> simp [gaugeDecide_receptions]

theorem decideLost_receptions (s : State) : (decideLost s).prog.receptions = s.prog.receptions := by
  unfold decideLost; simp [decideAgain_receptions]

theorem decideLost_plan (s : State) : (decideLost s).plan = s.plan := by simp [decideLost_frame ..]

theorem decideLost_set (s : State) : (decideLost s).set = s.set := by simp [decideLost_frame ..]

/-! ### Alert settings -/

/-- ALERT_SET states a reception's alert settings and ends the alerts they do not watch (R246, R248). -/
theorem receptionAt_applyAlertSet {s : State} {i : Nat} {r : Reception} (h : receptionAt s i = some r) (p : List Byte)
    (cause : Option Nat) : receptionAt (applyAlertSet i p cause s) i = some { r with
      alertCfg := readAlerts p, alerts := r.alerts.filter (fun a => watches (readAlerts p) a.source a.type a.cluster) } := by
  unfold applyAlertSet; dsimp only
  rw [h]; dsimp only
  rw [receptionAt_endAlerts, receptionAt_modReception _ _ _ _ (by intro _; rfl), h]
  simp

/-- Settles O25: each command by what its body does in the state once the frame was taken. -/
theorem receptionsAreCreatedChangedAndRemoved : Obligations.ReceptionsAreCreatedChangedAndRemoved := by
  unfold Obligations.ReceptionsAreCreatedChangedAndRemoved
  refine ⟨fun f s hl hm h => ?add, fun f s hl h hmv => ?set, fun f s r hl h hr hrem hst hsh hun => ?remove,
    fun f s r hl hm h hr => ?branchAdd, fun f s b hl h hb hrem hst hsh => ?branchRemove, fun f s hl hm h => ?tapAdd,
    fun f s x hl h hx hrem hst => ?tapRemove, fun f s r hl h hr => ?alert⟩
  case add =>
    refine leaves_taken h (fun _ _ _ k => k) fun p o b x => ?_
    rw [receptionAddBody_idle (s := afterTaking s p o b x) hm,
      show newReceptionIndex (afterTaking s p o b x) = newReceptionIndex s from rfl]
    obtain ⟨branches, taps, r, receptions, made⟩ :=
      createReception_appends (newReceptionIndex s) false f.payload (afterTaking s p o b x)
    exact ⟨⟨r, receptions, made⟩, bumpPlan_advances (by simp [afterTaking]), by simp [afterTaking],
      by simp [afterTaking], branches, taps⟩
  case set =>
    refine changes_taken h hl (fun _ _ _ k => k) fun p o b x hr => ?_
    obtain ⟨answer, prog⟩ := changeReception_afterTaking f.target.index f.payload s p o b x
    rw [receptionSetBody_unmoved (by rw [answer]; exact hmv), answer]
    exact ⟨rfl, by simpa [afterTaking] using hr, prog, bumpPlan_advances (by simp [afterTaking]), by simp [afterTaking],
      by simp [afterTaking], by simp [afterTaking]⟩
  case remove =>
    refine changes_taken h hl (fun _ _ _ k => k) fun p o b x hr' => ⟨rfl, ?_, ?_⟩
    · simpa [decideLost_frame .., receptionRemoveBody_frame .., afterTaking] using hr'
    · have body := receptionRemoveBody_running (s := afterTaking s p o b x) hr hrem hst hsh hun
      refine ⟨?_, ?_, ?_⟩
      · rw [receptionAt_congr (decideLost_receptions _), body, receptionAt_compatRefresh,
          receptionAt_modReception _ _ _ _ (by intro _; rfl), show receptionAt (bumpPlan (afterTaking s p o b x)) _ = _ from hr]
        simp
      · rw [decideLost_plan, body]; simp [afterTaking]
      · rw [decideLost_set, body]; simp [afterTaking]
  case branchAdd =>
    refine leaves_taken h (fun _ _ _ k => k) fun p o b x => ?_
    rw [branchAddBody_idle (s := afterTaking s p o b x) hm]
    obtain ⟨c, branches, made⟩ := createBranch_appends (s := afterTaking s p o b x) hr (newBranchIndex s) false
    exact ⟨⟨c, branches, made⟩, bumpPlan_advances (by simp [afterTaking, createBranch_frame ..]), by simp [afterTaking],
      by simp [afterTaking, createBranch_frame ..], by simp [afterTaking, createBranch_frame ..]⟩
  case branchRemove =>
    refine changes_taken h hl (fun _ _ _ k => k) fun p o y x hr => ⟨rfl, ?_, ?_⟩
    · rw [branchRemoveBody_running (s := afterTaking s p o y x) hb hrem hst hsh]; exact hr
    · rw [branchRemoveBody_running (s := afterTaking s p o y x) hb hrem hst hsh]; exact ⟨rfl, rfl, rfl⟩
  case tapAdd =>
    refine leaves_taken h (fun _ _ _ k => k) fun p o b x => ?_
    rw [tapAddBody_idle (s := afterTaking s p o b x) hm]
    obtain ⟨t, prog, made⟩ := createTap_appends (newTapIndex s) false f.payload (afterTaking s p o b x)
    exact ⟨⟨t, prog, made⟩, rfl, rfl, rfl⟩
  case tapRemove =>
    refine changes_taken h hl (fun _ _ _ k => k) fun p o b y hr => ⟨rfl, ?_, ?_⟩
    · rw [tapRemoveBody_running (s := afterTaking s p o b y) hx hrem hst]; exact hr
    · rw [tapRemoveBody_running (s := afterTaking s p o b y) hx hrem hst]; exact ⟨rfl, rfl, rfl⟩
  case alert =>
    refine leaves_taken h (fun _ _ _ k => k) fun p o b x => ?_
    exact ⟨receptionAt_applyAlertSet (s := bumpPlan (afterTaking s p o b x)) hr _ _, by simp [alertSetBody, afterTaking],
      by simp [alertSetBody, afterTaking]⟩

end Sys2Proof.Machine
end

section
/-!
PROOF. Loading a user bank or a user curve, and binding an output to a ring (O19).
-/

namespace Sys2Proof.Machine

/-- A loaded user bank has the generation after its old one (R159, R332). -/
theorem bankGen_loadBank {s : State} {i : Nat} (hb : s.mix.banks.length = 32) (h32 : 32 ≤ i) (h64 : i < 64) (p : List Byte) :
    bankGen (loadBank i p s).1 i = nextGen (userBank s i).gen := by
  have hi : i - 32 < s.mix.banks.length := by omega
  unfold bankGen userBank loadBank; dsimp only
  rw [if_neg (by omega), modAt_getD, if_pos ⟨rfl, hi⟩]

/-- A loaded user curve has the generation after its old one (R282, R332). -/
theorem curveGen_loadCurve {s : State} {i : Nat} (hc : s.mix.curves.length = 12) (h4 : 4 ≤ i) (h16 : i < 16) (p : List Byte) :
    curveGen (loadCurve i p s) i = nextGen (curveGen s i) := by
  have hi : i - 4 < s.mix.curves.length := by omega
  unfold curveGen loadCurve; dsimp only
  rw [if_neg (by omega), if_neg (by omega), modAt_getD, if_pos ⟨rfl, hi⟩]

/-- BANK_LOAD of a user bank answers the bank's next generation and whether a value was clamped (R159, R330). -/
theorem bankLoadBody_reply {s : State} {f : CmdFrame} (hb : s.mix.banks.length = 32) (h32 : 32 ≤ f.target.index)
    (h64 : f.target.index < 64) : (bankLoadBody f s).2 = some {
      target := { index := f.target.index, gen := nextGen (userBank s f.target.index).gen }
      clamped := decide (4 < field f.payload 0 1) || (readTaps f.payload).2 } := by
  unfold bankLoadBody; dsimp only
  rw [bankGen_loadBank hb h32 h64]; rfl

/-- CURVE_LOAD of a user curve answers the curve's next generation (R282). -/
theorem curveLoadBody_reply {s : State} {f : CmdFrame} (hc : s.mix.curves.length = 12) (h4 : 4 ≤ f.target.index)
    (h16 : f.target.index < 16) : (curveLoadBody f s).2 = some {
      target := { index := f.target.index, gen := nextGen (curveGen s f.target.index) } } := by
  rw [← curveGen_loadCurve hc h4 h16 f.payload]; rfl

/-- An output that is not MOT is bound with no MOT object to abandon: only the bindings change (R244, R315). -/
theorem applyBind_plan {code : Nat} (h : code ≠ 8) (cls : Nat) (x : Handle) (ring : Nat) (s : State) :
    applyBind code cls x ring s = { s with plan := { s.plan with
      binds := s.plan.binds.filter (fun b => !(b.1 == code && b.2.1 == x && b.2.2.1 == cls)) ++
        (if ring = 0xFF then [] else [(code, x, cls, legalRing code ring)]) } } := by
  unfold applyBind; dsimp only
  rw [if_neg h]
  split <;> simp

/-- Settles O19: each load by the generation that its table takes, and the binding by what it does to the plan. -/
theorem banksCurvesAndBindings : Obligations.BanksCurvesAndBindings := by
  unfold Obligations.BanksCurvesAndBindings
  refine ⟨fun f s hl hb h32 h64 h => ?bank, fun f s hl hc h4 h16 h => ?curve,
    fun f s code cls ring hl h hcode hmot hcls hring => ?bind⟩
  case bank =>
    exact changes_taken h hl (fun _ _ _ k => k) fun p o b x hr =>
      ⟨bankLoadBody_reply (s := afterTaking s p o b x) hb h32 h64, hr, rfl, rfl, rfl, rfl, rfl⟩
  case curve =>
    exact changes_taken h hl (fun _ _ _ k => k) fun p o b x hr =>
      ⟨curveLoadBody_reply (s := afterTaking s p o b x) hc h4 h16, hr, rfl, rfl, rfl, rfl, rfl⟩
  case bind =>
    subst hcode hcls hring
    refine changes_taken h hl (fun _ _ _ k => k) fun p o b x hr => ⟨rfl, ?_⟩
    simp only [ringBindBody, bindFrame, applyBind_plan hmot]
    exact ⟨hr, rfl, rfl, rfl, rfl, rfl⟩

end Sys2Proof.Machine
end

section
/-!
PROOF. An RDS stream that the settings select and the demodulator does not decode yet (O27).
-/

namespace Sys2Proof.Machine

/-- An FM reception that RECEPTION_SET has told to decode RDS stream 0, before the chain block that puts the option in use (R179): the
stream's next 26 bits wait. -/
def rdsSetNotInUse : Reception :=
  { kind := .fm, rx := .acquired, ana := { streams := 1 }, chain := { kind := .fm, state := .running, covered := true }
    rds := [{ bits := List.replicate 26 {} }] }

/-- A device in SERVE with this reception. -/
def servingRdsSet : State :=
  { set := { mode := .serve }
    clk := { refOn := true, sysPll := .locked }
    prog := { receptions := [rdsSetNotInUse] } }

/-- The demodulator runs on the options in use, so the block changes nothing (R179). -/
theorem rdsBlock_optionNotInUse : exec (.rdsBlock 0 0) servingRdsSet = .next servingRdsSet := rfl

/-- A decoder of the stream drops its first bit, which begins no block (R199). -/
theorem rdsNext_dropsFirstBit : (rdsNext (rdsSetNotInUse.ana.rbds = 1) (rdsSetNotInUse.rds.getD 0 {})).1.bits.length = 25 := by
  decide +kernel

/-- Refutes O27 in its clause on an RDS block without a group: a stream selected by a setting that is not in use yet does not move
on (R179). -/
theorem not_analogueReceptionsFollowTheirSignals : ¬ Obligations.AnalogueReceptionsFollowTheirSignals := by
  rintro ⟨_, _, _, _, _, _, _, rdsMovesOn, _⟩
  obtain ⟨t, ht, moved, _⟩ := rdsMovesOn servingRdsSet 0 0 rdsSetNotInUse _ (by decide) (by decide) (by decide) rfl rfl rfl
    (by decide) rfl (by decide +kernel)
  cases rdsBlock_optionNotInUse.symm.trans ht
  have waiting := congrArg (Option.map fun r => r.rds.map (·.bits.length)) moved
  change some [26] = some [(rdsNext (rdsSetNotInUse.ana.rbds = 1) (rdsSetNotInUse.rds.getD 0 {})).1.bits.length] at waiting
  rw [rdsNext_dropsFirstBit] at waiting
  exact absurd waiting (by decide)

end Sys2Proof.Machine
end

section
/-!
PROOF. The measures that begin anew with a measurement interval (O28).
-/

namespace Sys2Proof.Machine

/-- An acquired FM reception whose RDS stream 0 has summed the magnitude of a symbol in this interval (R203). -/
def rdsLevelMeasured : Reception :=
  { kind := .fm, rx := .acquired, chain := { kind := .fm, state := .running, covered := true }, rds := [{ level := (1, 1) }] }

/-- A device in SERVE that measures this reception's programme. -/
def measuringRdsLevel : State :=
  { set := { mode := .serve }
    clk := { refOn := true, sysPll := .locked }
    prog := { receptions := [rdsLevelMeasured], programmes := [{ measured := true, intervalAt := some {} }] } }

/-- The level of RDS stream 0 is one of the measures that begin anew (R203). -/
theorem measurementIntervalEnd_restartsRdsLevel :
    ∃ t, exec (.measurementIntervalEnd 0) measuringRdsLevel = .next t ∧
      (receptionAt t 0).map (fun r => r.rds.map (·.level)) = some [(0, 0)] :=
  ⟨_, rfl, by decide +kernel⟩

/-- Refutes O28 in its clause on the end of an interval: with the measures of the demodulator the levels of the RDS streams begin
anew (R203). -/
theorem not_measurementsAndSilence : ¬ Obligations.MeasurementsAndSilence := by
  rintro ⟨restartsMeasuresOnly, _⟩
  obtain ⟨t, ht, _, kept, _⟩ :=
    restartsMeasuresOnly measuringRdsLevel 0 _ rdsLevelMeasured {} (by decide) (by decide) rfl rfl rfl rfl rfl
  obtain ⟨t', ht', restarted⟩ := measurementIntervalEnd_restartsRdsLevel
  cases ht.symm.trans ht'
  rw [show receptionAt t 0 = _ from kept] at restarted
  exact absurd restarted (by decide)

end Sys2Proof.Machine
end

section
/-!
PROOF. Programmes as commands select and measure them (O30).
-/

namespace Sys2Proof.Machine

/-! ### One programme changed -/

theorem programmeAt_idx {s : State} {i : Nat} {x : Programme} (h : programmeAt s i = some x) : x.idx = i := by
  have := List.find?_some h
  simpa using this

/-- The programme of an index after a change of that programme. -/
theorem programmeAt_modProgramme_self {s : State} {i : Nat} {x : Programme} (h : programmeAt s i = some x)
    (g : Programme → Programme) (hg : ∀ p, (g p).idx = p.idx) : programmeAt (modProgramme i g s) i = some (g x) := by
  rw [programmeAt_modProgramme _ _ _ _ hg, h]
  simp

/-- A change of a programme that sheds no decode leaves nothing shed (R538). -/
theorem anyShed_modProgramme {s : State} (h : anyShed s = false) (i : Nat) (g : Programme → Programme)
    (hg : ∀ p, p.shedStep = 0 → (g p).shedStep = 0) : anyShed (modProgramme i g s) = false := by
  unfold anyShed at h ⊢
  simp only [Bool.or_eq_false_iff, List.any_eq_false] at h ⊢
  obtain ⟨others, programmes⟩ := h
  refine ⟨others, fun q hq => ?_⟩
  obtain ⟨p, hp, rfl⟩ := List.mem_map.mp hq
  have kept : p.shedStep = 0 := by simpa using programmes p hp
  split
  next => simpa using hg p kept
  next => simpa using kept

/-- A command whose payload does not address by identity acts on the programme of its target (R374). -/
theorem askedProgramme_byHandle {f : CmdFrame} (h : byIdentity f = false) (s : State) :
    askedProgramme f s = programmeAt s f.target.index := by
  unfold askedProgramme
  rw [h]
  rfl

/-- Such a command makes no standing setting (R212). -/
theorem standingAsked_byHandle {f : CmdFrame} (h : byIdentity f = false) (s : State) : standingAsked f s = false := by
  unfold standingAsked
  rw [h]
  rfl

/-! ### Selecting (R212, R213, R374) -/

/-- What a selection reports changes no programme (R214). -/
theorem programmeAt_reportDecode (i : Nat) (before : Bool) (cause : Option Nat) (s : State) (j : Nat) :
    programmeAt (reportDecode i before cause s) j = programmeAt s j :=
  programmeAt_congr (by simp [reportDecode_frame ..]) j

theorem anyShed_reportDecode (i : Nat) (before : Bool) (cause : Option Nat) (s : State) :
    anyShed (reportDecode i before cause s) = anyShed s :=
  anyShed_congr (by simp [reportDecode_frame ..]) (by simp [reportDecode_frame ..])

/-- A selected programme has its reserve flag and its charge, and is neither suspended nor shed; a new selection takes the next
serial (R213, R538). -/
theorem programmeAt_selectOn {s : State} {i : Nat} {x : Programme} (h : programmeAt s i = some x) (res : Bool) (cause : Option Nat) :
    programmeAt (selectOn i res cause s) i = some { x with
      selected := true, reserve := res, suspended := false, shedStep := 0
      charge := selectionCharge (kindAt s x.reception) res x.decl.codec
      serial := if x.selected then x.serial else s.head.serial } := by
  unfold selectOn
  dsimp only
  rw [programmeAt_reportDecode]
  exact programmeAt_modProgramme_self (s := (takeSerial s).2) h _ (fun _ => rfl)

theorem anyShed_selectOn {s : State} (h : anyShed s = false) (i : Nat) (res : Bool) (cause : Option Nat) :
    anyShed (selectOn i res cause s) = false := by
  unfold selectOn
  dsimp only
  rw [anyShed_reportDecode]
  exact anyShed_modProgramme (s := (takeSerial s).2) h _ _ (fun _ _ => rfl)

/-- PROGRAMME_SELECT by handle selects the digital programme of its target (R374). -/
theorem applySelect_byHandle {f : CmdFrame} {s : State} {x : Programme} (hid : byIdentity f = false)
    (hx : programmeAt s f.target.index = some x) (hk : analogue (kindAt s x.reception) = false) (hon : field f.payload 0 1 ≠ 0) :
    applySelect f s = selectOn f.target.index (decide (field f.payload 1 1 ≠ 0)) (some f.tag) s := by
  unfold applySelect
  dsimp only
  rw [standingAsked_byHandle hid, if_neg Bool.false_ne_true, askedProgramme_byHandle hid, hx]
  dsimp only
  rw [hk, if_neg Bool.false_ne_true, if_pos (by simpa using hon), programmeAt_idx hx]

/-- With nothing shed, the body of PROGRAMME_SELECT by handle selects the programme and advances the plan sequence (R344). -/
theorem programmeSelectBody_byHandle {f : CmdFrame} {s : State} {x : Programme} (hid : byIdentity f = false)
    (hx : programmeAt s f.target.index = some x) (hk : analogue (kindAt s x.reception) = false) (hon : field f.payload 0 1 ≠ 0)
    (hs : anyShed s = false) :
    (programmeSelectBody f s).1 = bumpPlan (selectOn f.target.index (decide (field f.payload 1 1 ≠ 0)) (some f.tag) s) := by
  unfold programmeSelectBody
  dsimp only
  rw [applySelect_byHandle hid hx hk hon]
  exact resumeShed_none (s := bumpPlan _) (anyShed_selectOn hs _ _ _)

/-- The reply to a PROGRAMME_SELECT by handle: the handle and the charge of the programme that the body leaves (R374). -/
theorem programmeSelectBody_reply {f : CmdFrame} {s : State} {y : Programme} (hid : byIdentity f = false)
    (hy : programmeAt (programmeSelectBody f s).1 f.target.index = some y) :
    (programmeSelectBody f s).2 = some {
      target := f.target, clamped := selectClamped f
      payload := handleBytes (programmeHandle y) ++ leBytes 2 (decodeCharge y) ++ zeros 2 } := by
  unfold programmeSelectBody at hy ⊢
  dsimp only at hy ⊢
  rw [askedProgramme_byHandle hid, hy]

/-! ### Measuring (R202, R205, R375) -/

/-- New settings of a measured programme: its interval goes on, and the next one has the new length (R202). -/
theorem programmeAt_measureOn {s : State} {i : Nat} {x : Programme} (h : programmeAt s i = some x) (hm : x.measured = true)
    (iv st : Nat) (th : Int) :
    programmeAt (measureOn i iv st th s) i = some { x with nextInterval := iv, silenceS := st, threshold := th } := by
  unfold measureOn
  rw [h]
  dsimp only
  rw [if_pos hm, programmeAt_modProgramme_self h _ (fun p => by (repeat' split) <;> rfl), if_pos hm, ← hm]

/-- Nothing is shed by a change of settings, and no reception changes (R375). -/
theorem measureOn_keepsShedAndReceptions {s : State} {i : Nat} {x : Programme} (h : programmeAt s i = some x) (hm : x.measured = true)
    (hs : anyShed s = false) (iv st : Nat) (th : Int) :
    anyShed (measureOn i iv st th s) = false ∧ (measureOn i iv st th s).prog.receptions = s.prog.receptions := by
  unfold measureOn
  rw [h]
  dsimp only
  rw [if_pos hm]
  exact ⟨anyShed_modProgramme hs _ _ (fun p hp => by (repeat' split) <;> exact hp), rfl⟩

/-- With nothing shed, the body of PROGRAMME_MEASURE by handle sets the programme's measurement and advances the plan sequence
(R344, R375). -/
theorem programmeMeasureBody_byHandle {f : CmdFrame} {s : State} {x : Programme} (hid : byIdentity f = false)
    (hx : programmeAt s f.target.index = some x) (hm : x.measured = true) (hon : field f.payload 0 1 ≠ 0) (hs : anyShed s = false) :
    (programmeMeasureBody f s).1 = bumpPlan (measureOn f.target.index (clampNat 1 100 (field f.payload 12 2))
      (clampNat 1 600 (field f.payload 14 2)) (askedThreshold f x.threshold) s) := by
  unfold programmeMeasureBody applyMeasure
  dsimp only
  rw [standingAsked_byHandle hid, if_neg Bool.false_ne_true, askedProgramme_byHandle hid, hx]
  dsimp only
  rw [if_pos (by simpa using hon), programmeAt_idx hx]
  exact resumeShed_none (s := bumpPlan _) (measureOn_keepsShedAndReceptions hx hm hs _ _ _).1

/-- Settles O30: each command by what its body leaves of the programme of its target. -/
theorem programmesAreSelectedAndMeasured : Obligations.ProgrammesAreSelectedAndMeasured := by
  unfold Obligations.ProgrammesAreSelectedAndMeasured
  refine ⟨fun f s x res gu hl h hid hx hk hon hres hgu hs => ?select, fun f s x hl h hid hx hm hon hs => ?measure⟩
  case select =>
    subst hres hgu
    refine changes_taken h hl (fun _ _ _ k => k) fun p o b w hr => ?_
    have body := programmeSelectBody_byHandle (s := afterTaking s p o b w) hid hx hk hon hs
    have selected := programmeAt_selectOn (s := afterTaking s p o b w) hx (decide (field f.payload 1 1 ≠ 0)) (some f.tag)
    have reply := programmeSelectBody_reply (s := afterTaking s p o b w) hid (by rw [body]; exact selected)
    rw [reply, body]
    exact ⟨rfl, by simpa [selectOn_frame .., afterTaking] using hr, selected,
      bumpPlan_advances (by simp [selectOn_frame .., afterTaking]), by simp [afterTaking],
      by simp [selectOn_frame .., afterTaking], by simp [selectOn_frame .., afterTaking]⟩
  case measure =>
    refine changes_taken h hl (fun _ _ _ k => k) fun p o b w hr => ⟨rfl, ?_⟩
    rw [programmeMeasureBody_byHandle (s := afterTaking s p o b w) hid hx hm hon hs]
    exact ⟨by simpa [measureOn_frame .., afterTaking] using hr, programmeAt_measureOn (s := afterTaking s p o b w) hx hm _ _ _,
      bumpPlan_advances (by simp [measureOn_frame .., afterTaking]),
      (measureOn_keepsShedAndReceptions (s := afterTaking s p o b w) hx hm hs _ _ _).2,
      by simp [measureOn_frame .., afterTaking], by simp [measureOn_frame .., afterTaking]⟩

end Sys2Proof.Machine
end

section
/-!
PROOF. A DRM superframe of a reception for which a reconfiguration is announced (O29).
-/

namespace Sys2Proof.Machine

/-- An acquired DRM reception whose engine has reported a frame, and whose announced reconfiguration is one superframe away (R222). -/
def reconfigurationNear : Reception :=
  { kind := .drm30, rx := .acquired, chain := { kind := .drm30, state := .running, covered := true }
    ofdm := { past := [{}] }, announced := some { count := 1, left := 1 } }

/-- A device in SERVE with this reception. -/
def servingReconfigurationNear : State :=
  { set := { mode := .serve }
    clk := { refOn := true, sysPll := .locked }
    prog := { receptions := [reconfigurationNear] } }

/-- A superframe whose SDC block fails its CRC. -/
def failedSdc : DrmSuper := { crcOk := false }

/-- The superframe is one of those that the reconfiguration waits for, whether or not its SDC block passes: none is left (R222). -/
theorem drmSuperframe_nearsReconfiguration :
    ∃ t, exec (.drmSuperframe 0 failedSdc) servingReconfigurationNear = .next t ∧
      (receptionAt t 0).map (·.announced) = some (some { count := 1, left := 0 }) :=
  ⟨_, rfl, by decide +kernel⟩

/-- Refutes O29 in its clause on DRM_SUPERFRAME: where a reconfiguration is announced, the superframe counts towards it as well as
in the reception's control-channel counts (R222). -/
theorem not_digitalReceptionsAndTheirProgrammes : ¬ Obligations.DigitalReceptionsAndTheirProgrammes := by
  rintro ⟨_, _, _, countsControlOnly, _⟩
  obtain ⟨t, ht, counted, _⟩ :=
    countsControlOnly servingReconfigurationNear 0 reconfigurationNear failedSdc (by decide) (by decide) (by decide) rfl rfl rfl rfl
      (by decide) (.inl rfl)
  obtain ⟨t', ht', neared⟩ := drmSuperframe_nearsReconfiguration
  cases ht.symm.trans ht'
  rw [counted] at neared
  exact absurd neared (by decide)

end Sys2Proof.Machine
end

section
/-!
PROOF. The placements that open next, where a glance holds a tuner that they take (O26).
-/

namespace Sys2Proof.Machine

/-- A device in SURVEY whose placement on tuner T1 has its spectrum taken while another one waits, and whose tuner T0 a glance of
follow object 0 holds (R252, R264). -/
def sweepingBesideGlance : State :=
  { set := { mode := .survey }
    clk := { refOn := true, sysPll := .locked }
    front := { tuners := [{ role := .glance 0, state := .locked }, { role := .survey, state := .locked }, {}, {}, {}]
               windows := List.replicate 9 {} }
    prog := { follows := [{ glance := some (0, 100000000, .fm, 0) }] }
    survey := { running := true, spectrumAt := some 0, wins := [{ tuner := 1, stage := .up }, { stage := .waiting }] } }

/-- The spectrum gives no candidate, and the placement that waits takes T0, whose glance is abandoned (R252, R265). -/
theorem surveySpectrumDone_abandonsGlance :
    ∃ t, exec (.surveySpectrumDone []) sweepingBesideGlance = .next t ∧ t.prog.follows.map (·.glance) = [none] :=
  ⟨_, rfl, by decide +kernel⟩

/-- Refutes O26 in its clause on SURVEY_SPECTRUM_DONE that finds no candidate: the placements that open next leave the objects of the
plan as they are only where no glance holds a tuner that they take; its follow object loses the glance (R252, R265). -/
theorem not_surveyPassesFindStations : ¬ Obligations.SurveyPassesFindStations := by
  rintro ⟨_, nextKeepsProg, _⟩
  obtain ⟨t, ht, _, _, _, _, _, _, _, prog, _⟩ :=
    nextKeepsProg sweepingBesideGlance [] [] 0 (by decide) rfl rfl rfl rfl (by decide) rfl rfl rfl
  obtain ⟨t', ht', abandoned⟩ := surveySpectrumDone_abandonsGlance
  cases ht.symm.trans ht'
  rw [prog] at abandoned
  exact absurd abandoned (by decide)

end Sys2Proof.Machine
end

section
/-!
PROOF. PCM outputs and their ports (O31).
-/

namespace Sys2Proof.Machine

/-! ### What driving the ports leaves (R95, R288)

What an output has played goes out on its port: its list of played frames and its port's fade-in move on, and nothing else. -/

/-- An output apart from what its port has yet to send. -/
def withoutPlayed (x : PcmOut) : PcmOut := { x with played := [], portFade := (0, 0) }

/-- The objects, with every output apart from what its port has yet to send. -/
def unplayed (s : State) : ProgS := { s.prog with pcms := s.prog.pcms.map withoutPlayed }

theorem prog_of_unplayed {s t : State} (h : unplayed t = unplayed s) :
    t.prog = { s.prog with pcms := t.prog.pcms } ∧ t.prog.pcms.map withoutPlayed = s.prog.pcms.map withoutPlayed := by
  obtain ⟨others, pcms⟩ : { t.prog with pcms := [] } = { s.prog with pcms := [] } ∧
      t.prog.pcms.map withoutPlayed = s.prog.pcms.map withoutPlayed :=
    ⟨congrArg (fun g : ProgS => { g with pcms := [] }) h, congrArg ProgS.pcms h⟩
  exact ⟨congrArg (fun g : ProgS => { g with pcms := t.prog.pcms }) others, pcms⟩

theorem unplayed_modPcm (i : Nat) {g : PcmOut → PcmOut} (hg : ∀ x, withoutPlayed (g x) = withoutPlayed x) (s : State) :
    unplayed (modPcm i g s) = unplayed s := by
  refine congrArg (fun l => { s.prog with pcms := l }) ((List.map_map ..).trans (List.map_congr_left fun x _ => ?_))
  dsimp only [Function.comp_apply]
  split
  · exact hg x
  · rfl

theorem unplayed_drivePort (x : PcmOut) (l : List AudioFrame) (s : State) : unplayed (drivePort x l s) = unplayed s := by
  unfold drivePort
  split
  · rfl
  · refine Eq.trans rfl (unplayed_modPcm x.o.idx (g := fun x => { x with portFade := (x.portFade.1 - l.length, x.portFade.2) }) ?_ s)
    exact fun _ => rfl

theorem unplayed_drivePorts (s : State) : unplayed (drivePorts s) = unplayed s := by
  unfold drivePorts
  refine foldl_keeps unplayed (fun t x => ?_) _ _
  rw [unplayed_drivePort]
  refine unplayed_modPcm x.o.idx (g := fun x => { x with played := [] }) ?_ t
  exact fun _ => rfl

/-- Outputs that stop play their fade-out and nothing else of them changes (R289, R291). -/
theorem unplayed_stopPcms (n : Nat) (pick : PcmOut → Bool) (s : State) : unplayed (stopPcms n pick s) =
    unplayed { s with prog := { s.prog with pcms := s.prog.pcms.map (fun x =>
      if pick x && x.playing then { fadeOut n 0 x with playing := false } else x) } } := by
  unfold stopPcms
  dsimp only
  rw [foldl_keeps unplayed (fun _ _ => by rfl), unplayed_drivePorts]

/-! ### One output -/

/-- The output of an index after a change of that output. -/
theorem pcmAt_modPcm_self {s : State} {i : Nat} {x : PcmOut} (h : s.prog.pcms.find? (·.o.idx == i) = some x) {g : PcmOut → PcmOut}
    (hg : ∀ x, x.o.idx = i → (g x).o.idx = i) : (modPcm i g s).prog.pcms.find? (·.o.idx == i) = some (g x) := by
  have idx : x.o.idx = i := by simpa using List.find?_some h
  have same : (fun y : PcmOut => y.o.idx == i) ∘ (fun y => if y.o.idx = i then g y else y) = fun y => y.o.idx == i := by
    funext y
    by_cases k : y.o.idx = i <;> simp [k, hg]
  unfold modPcm
  rw [List.find?_map, same, h, Option.map_some, if_pos idx]

/-- An output is the same one apart from what its port has yet to send. -/
theorem pcmAt_of_unplayed {s t : State} {i : Nat} {x : PcmOut} (h : unplayed t = unplayed s)
    (hx : s.prog.pcms.find? (·.o.idx == i) = some x) :
    ∃ y, t.prog.pcms.find? (·.o.idx == i) = some y ∧ withoutPlayed y = withoutPlayed x := by
  have pcms := congrArg (List.find? (·.o.idx == i)) (prog_of_unplayed h).2
  rw [List.find?_map, List.find?_map] at pcms
  have found : (t.prog.pcms.find? (·.o.idx == i)).map withoutPlayed = some (withoutPlayed x) := by
    rw [← Option.map_some, ← hx]
    exact pcms
  exact Option.map_eq_some_iff.mp found

/-- Frames on its port move an output's fade-in of the port, nothing else (R95). -/
theorem pcmAt_drivePort {s : State} {i : Nat} {y : PcmOut} (h : s.prog.pcms.find? (·.o.idx == i) = some y) (x : PcmOut)
    (l : List AudioFrame) : ∃ k, (drivePort x l s).prog.pcms.find? (·.o.idx == i) = some { y with portFade := k } := by
  unfold drivePort
  split
  · exact ⟨y.portFade, h⟩
  · refine ⟨if x.o.idx = i then (y.portFade.1 - l.length, y.portFade.2) else y.portFade, ?_⟩
    have moved := find_mod s.prog.pcms (·.o.idx) x.o.idx i (fun x => { x with portFade := (x.portFade.1 - l.length, x.portFade.2) })
      fun _ => rfl
    rw [h, Option.map_some] at moved
    refine moved.trans (congrArg some ?_)
    split <;> rfl

/-- An output that runs does so in a mode other than HOLD (R38). -/
theorem pcmRuns_notHold {s : State} {x : PcmOut} (h : pcmRuns s x = true) : s.set.mode ≠ .hold := by
  intro m
  simp [pcmRuns, m, runsIn] at h

/-- The port of an output that runs carries audio where there is none, or where its clock runs and its frames are good (R283, R289). -/
theorem portRuns_of_pcmRuns {s : State} {x : PcmOut} (h : pcmRuns s x = true)
    (hp : 4 ≤ x.port ∨ (clockRuns s 9 = true ∧ s.mix.followerLost.getD x.port false = false)) : portRuns s x.port = true := by
  unfold portRuns portClocked
  rcases hp with none | ⟨clocked, good⟩
  · simp [none]
  · rw [clocked, good]
    simp [pcmRuns_notHold h]

/-! ### Routing and removing -/

/-- A new output has the settings asked for, and neither plays nor holds anything yet (R283, R285). -/
theorem setPcm_new (s : State) (a : PcmAsk) (o : SimpleObj) :
    (setPcm s a { o := o }).o = o ∧ (setPcm s a { o := o }).source = a.source ∧ (setPcm s a { o := o }).sourceCls = a.cls ∧
      (setPcm s a { o := o }).playing = false ∧ (setPcm s a { o := o }).fifo = [] := by
  unfold setPcm turnTo
  dsimp only
  split
  next same =>
    obtain ⟨source, cls⟩ : ({} : Handle) = a.source ∧ 3 = a.cls := by simpa using same
    exact ⟨rfl, source, cls, rfl, rfl⟩
  next =>
    split
    · exact ⟨rfl, rfl, rfl, rfl, rfl⟩
    · exact ⟨rfl, rfl, rfl, rfl, rfl⟩

/-- PCM_ROUTE to the new index creates an output, and answers its handle with the next generation of its index (R331, R332). -/
theorem pcmRouteBody_new {s : State} {f : CmdFrame} (h : f.target.index = 0xFFFF) (hi : newPcmIndex s < s.gens.pcm.length) :
    pcmRouteBody f s = (bumpPlan (createPcm (newPcmIndex s) (s.set.mode == .sentry) f.payload s).1,
      some { target := { index := newPcmIndex s, gen := nextGen (s.gens.pcm.getD (newPcmIndex s) 0) }
             clamped := (readPcm s f.payload).clamped }) := by
  have gen (mark : Bool) : (createPcm (newPcmIndex s) mark f.payload s).1.gens.pcm.getD (newPcmIndex s) 0 =
      nextGen (s.gens.pcm.getD (newPcmIndex s) 0) := by
    simp [createPcm, takeSerial, setAt, hi]
  unfold pcmRouteBody applyPcm
  simp only [h, if_true, gen]
  rfl

/-- The shut-down of an output that runs begins with its fade-out (R336). -/
theorem pcmRemoveBody_running {s : State} {f : CmdFrame} {x : PcmOut} (h : s.prog.pcms.find? (·.o.idx == f.target.index) = some x)
    (hrem : x.o.removing = false) (hruns : pcmRuns s x = true) : (pcmRemoveBody f s).1 =
      stopPcms 480 (fun y => y.o.idx == f.target.index)
        (modPcm f.target.index (fun y => { y with o := { y.o with removing := true } }) (bumpPlan s)) := by
  have runs : pcmRuns (bumpPlan s) x = true := hruns
  have there : (bumpPlan s).prog.pcms.find? (·.o.idx == f.target.index) = some x := h
  unfold pcmRemoveBody shutPcm pcmObj
  simp only [h, there, Option.map_some, Option.getD_some, hrem, runs, Bool.false_eq_true, if_false, if_true]

/-! ### Underruns and Shavings -/

/-- A FIFO that runs out is empty, and fades in again over 1 ms (R285). -/
theorem runOut_empties (x : PcmOut) : (runOut x).fifo = [] ∧ (runOut x).fade = (48, 48) := by
  refine ⟨?_, rfl⟩
  unfold runOut fadeOut
  dsimp only
  rw [List.drop_drop]
  exact List.drop_eq_nil_of_le (by omega)

theorem playFrames_length (s : State) (n : Nat) (x : PcmOut) : (playFrames s n x).2.length = min n x.fifo.length := by
  unfold playFrames fadeFrames
  dsimp only
  split <;> simp

/-- What an output with nothing played yet gives for a Shaving: its FIFO's next 240 frames while it plays, silence while it does
not (R285, R286). -/
theorem shavingFrames_unplayed (s : State) {x : PcmOut} (h : x.played = []) : shavingFrames s x =
    if !pcmRuns s x || x.o.removing then (x, [])
    else if x.playing then (if x.fifo.length < 240 then (x, []) else playFrames s 240 x)
    else (x, (List.range 240).map (fun (j : Nat) => silentFrame (x.nextAt.later (5120 * j)) x.lastProg)) := by
  cases x
  subst h
  rfl

/-- A Shaving that goes out leaves its output as its frames do, the next one after the last of them (R286). -/
theorem pcmShaving_leaves {s : State} {o ring : Nat} {x y : PcmOut} {l : List AudioFrame} {last : AudioFrame} (ho : o < 32)
    (hx : s.prog.pcms.find? (·.o.idx == o) = some x) (hb : boundRing s 2 5 { index := o, gen := x.o.gen } = some ring)
    (hy : shavingFrames s x = (y, l)) (hl : l.getLast? = some last) (hi : y.o.idx = o) :
    ∃ t, exec (.pcmShaving o) s = .next t ∧ (∃ k, t.prog.pcms.find? (·.o.idx == o) =
      some { y with nextAt := last.at'.later 5120, lastProg := last.prog, portFade := k }) ∧
      t.mix = s.mix ∧ t.plan = s.plan ∧ t.set = s.set := by
  have put := pcmAt_modPcm_self (g := fun _ => { y with nextAt := last.at'.later 5120, lastProg := last.prog }) hx fun _ _ => hi
  obtain ⟨k, sent⟩ := pcmAt_drivePort put y l
  show ∃ t, execPcmShaving o s = .next t ∧ _
  unfold execPcmShaving
  rw [within_next (by simpa using ho), hx]
  dsimp only
  rw [hb, hy]
  dsimp only
  rw [hl]
  dsimp only
  refine ⟨_, rfl, ⟨k, ?_⟩, ?_, ?_, ?_⟩
  · simpa [offerShaving_frame ..] using sent
  all_goals simp [offerShaving_frame .., modPcm_frame ..]

/-- Settles O31: each command and each event by what it leaves of its outputs, apart from what their ports have yet to send. -/
theorem pcmOutputsPlayTheirSources : Obligations.PcmOutputsPlayTheirSources := by
  unfold Obligations.PcmOutputsPlayTheirSources
  refine ⟨fun f s a hl h hnew hi ha => ?route, fun f s x hl h hx hrem hruns => ?remove, fun s port h4 hlen hm => ?apply,
    fun s o x ho hx hplay => ?underrun, fun s o x ho hx hruns hrem hport hplay => ?refilled,
    fun s o x ring ho hx hb hruns hrem hplay hnone hfull => ?shaving, fun s o x ring ho hx hb hruns hrem hplay hnone => ?silence,
    fun s port m h4 hrole hgood hbad => ?lost, fun s port good h4 h16 hlost => ?resume⟩
  case route =>
    subst ha
    refine changes_taken h hl (fun _ _ _ k => k) fun p o b w hr => ?_
    rw [pcmRouteBody_new (s := afterTaking s p o b w) hnew hi]
    obtain ⟨made, source, cls, stopped, empty⟩ := setPcm_new (afterTaking s p o b w) (readPcm s f.payload) {
      idx := newPcmIndex s, gen := nextGen (s.gens.pcm.getD (newPcmIndex s) 0), sentry := s.set.mode == .sentry, serial := s.head.serial }
    exact ⟨rfl, hr, ⟨_, rfl, made, source, cls, rfl, rfl, rfl, rfl, rfl, rfl, stopped, empty⟩, rfl, rfl, rfl⟩
  case remove =>
    refine changes_taken h hl (fun _ _ _ k => k) fun p o b w hr => ⟨rfl, ?_⟩
    rw [pcmRemoveBody_running (s := afterTaking s p o b w) hx hrem hruns]
    obtain ⟨others, pcms⟩ := prog_of_unplayed (unplayed_stopPcms 480 (fun y => y.o.idx == f.target.index)
      (modPcm f.target.index (fun y => { y with o := { y.o with removing := true } }) (bumpPlan (afterTaking s p o b w))))
    refine ⟨by simpa [stopPcms_frame .., modPcm_frame .., afterTaking] using hr, others, pcms.trans ?_,
      by simp [stopPcms_frame .., modPcm_frame .., bumpPlan, afterTaking],
      by simp [stopPcms_frame .., modPcm_frame .., afterTaking], by simp [stopPcms_frame .., modPcm_frame .., afterTaking]⟩
    refine (List.map_map ..).trans ((List.map_map ..).trans (List.map_congr_left fun y _ => ?_))
    by_cases hy : y.o.idx = f.target.index
    · cases hp : y.playing <;> simp [hy, hp, withoutPlayed]
    · simp [hy, withoutPlayed]
  case apply =>
    refine ⟨_, show execTdmConfigApply port s = _ from within_next (by simpa using h4) _ _, ?_⟩
    have applied (t : State) (ht : t.set = s.set) : tdmInUse t port = tdmOf s port := by
      unfold tdmInUse tdmOf
      rw [ht, if_neg (by simp [hm])]
    obtain ⟨others, pcms⟩ := prog_of_unplayed (unplayed_drivePorts { s with prog := { s.prog with pcms := s.prog.pcms.map (fun x =>
      if x.port = port && x.playing then fadeOut 48 48 x else x) } })
    refine ⟨?_, fun m hne => ?_, others, pcms.trans (List.map_map ..), ?_, ?_⟩
    · dsimp only
      rw [applied _ (by simp [drivePorts_frame ..])]
      simp [setAt, drivePorts_frame .., hlen]
    · simp [setAt, drivePorts_frame .., List.getElem?_set_ne (Ne.symm hne)]
    all_goals simp [drivePorts_frame ..]
  case underrun =>
    have put := pcmAt_modPcm_self (i := o) (g := fun x => if x.playing then
      { runOut x with playing := false, depth := satNat 400 (x.depth + 4), underruns := x.underruns + 1 } else x) hx
      (fun x k => by split <;> exact k)
    rw [if_pos hplay] at put
    obtain ⟨y, found, same⟩ := pcmAt_of_unplayed (unplayed_drivePorts _) put
    obtain ⟨empty, fade⟩ := runOut_empties x
    refine ⟨_, show execPcmUnderrun o s = _ from within_next (by simpa using ho) _ _, ⟨y, found, ?_⟩, ?_, ?_, ?_⟩
    · exact ⟨congrArg PcmOut.playing same, congrArg PcmOut.depth same, congrArg PcmOut.underruns same,
        (congrArg PcmOut.fifo same).trans empty, (congrArg PcmOut.fade same).trans fade⟩
    all_goals simp [drivePorts_frame .., modPcm_frame ..]
  case refilled =>
    have ports := portRuns_of_pcmRuns hruns hport
    refine ⟨_, show execPcmFifoRefilled o s = _ from within_next (by simpa using ho) _ _, ?_, ?_, ?_, ?_⟩
    · rw [pcmAt_modPcm_self hx (fun x k => by split <;> exact k)]
      by_cases full : 12 * x.depth ≤ x.fifo.length
      · simp [hruns, hrem, ports, full]
      · simp [full, ← hplay]
    all_goals simp [modPcm_frame ..]
  case shaving =>
    have frames : (playFrames s 240 x).2.length = 240 := by rw [playFrames_length]; omega
    obtain ⟨last, hlast⟩ : ∃ last, (playFrames s 240 x).2.getLast? = some last :=
      ⟨_, List.getLast?_eq_some_getLast (fun none => by rw [none] at frames; exact absurd frames (by decide))⟩
    have frames240 : shavingFrames s x = playFrames s 240 x := by
      rw [shavingFrames_unplayed s hnone, if_neg (by simp [hruns, hrem]), if_pos hplay, if_neg (by omega)]
    obtain ⟨t, next, ⟨k, found⟩, same⟩ := pcmShaving_leaves ho hx hb frames240 hlast (show x.o.idx = o by simpa using List.find?_some hx)
    exact ⟨t, next, ⟨_, found, rfl, hnone, hplay⟩, same⟩
  case silence =>
    have silent := shavingFrames_unplayed s hnone
    rw [if_neg (by simp [hruns, hrem]), if_neg (by simp [hplay])] at silent
    obtain ⟨t, next, ⟨k, found⟩, same⟩ := pcmShaving_leaves ho hx hb silent
      (last := silentFrame (x.nextAt.later (5120 * 239)) x.lastProg) (by simp [List.getLast?_range])
      (show x.o.idx = o by simpa using List.find?_some hx)
    exact ⟨t, next, ⟨_, found, rfl⟩, same⟩
  case lost =>
    refine ⟨_, show execFollowerPortLost port m s = _ from within_next (by simpa using h4) _ _, ?_⟩
    dsimp only
    rw [if_pos (by rw [hrole, hgood, hbad]; rfl)]
    exact ⟨by simp, by simp, by simp, by simp⟩
  case resume =>
    refine ⟨_, show execFollowerPortResume port good s = _ from within_next (by simp [h4, h16]) _ _, rfl, ?_, rfl, rfl⟩
    simp only [hlost, Bool.and_true]

end Sys2Proof.Machine
end

section
/-!
PROOF. A glance at a candidate that is rejected while the glance runs (O32).
-/

namespace Sys2Proof.Machine

/-- A candidate that carried another identity than its object's, and is not probed again for 300 s (R262). -/
def rejectedCandidate : Cand := { freq := 98000000, kind := .fm, state := .rejected }

/-- A device in SERVE whose follow object glances with tuner T0 at the candidate, from which its probe has gone since (R264, R268). -/
def glancingAtRejected : State :=
  { set := { mode := .serve }
    clk := { refOn := true, sysPll := .locked }
    front := { tuners := [{ role := .glance 0, state := .locked }, {}, {}, {}, {}], windows := List.replicate 9 {} }
    prog := { follows := [{ cands := [rejectedCandidate], glance := some (0, 98000000, .fm, 0) }] } }

/-- The glance ends, and the candidate is REJECTED still: that another identity was received on it stands (R262). -/
theorem glanceEnd_keepsRejected :
    ∃ t, exec (.glanceEnd 0) glancingAtRejected = .next t ∧ (followAt t 0).map (·.cands) = some [rejectedCandidate] :=
  ⟨_, rfl, by decide +kernel⟩

/-- Refutes O32 in its clause on GLANCE_END: a candidate that was rejected while the glance ran is not GLANCED at its end but stays
REJECTED (R262, R264). -/
theorem not_followObjectsAndProbesDoTheirWork : ¬ Obligations.FollowObjectsAndProbesDoTheirWork := by
  rintro ⟨_, _, _, _, _, _, _, _, glanceEnds, _⟩
  obtain ⟨t, ht, -, glanced, -⟩ :=
    glanceEnds glancingAtRejected 0 0 98000000 0 .fm _ rfl (by decide) rfl rfl (by decide)
  obtain ⟨t', ht', rejected⟩ := glanceEnd_keepsRejected
  cases ht.symm.trans ht'
  rw [glanced] at rejected
  exact absurd rejected (by decide)

end Sys2Proof.Machine
end

section
/-!
PROOF. Blend pairs: their commands, their alignment, their fades and the motions of their lines (O33).
-/

namespace Sys2Proof.Machine

/-! ### Commands (R275, R279, R379) -/

/-- BLEND_SET to the new index creates a pair, and answers its handle with the next generation of its index (R331, R332). -/
theorem blendSetBody_new {s : State} {f : CmdFrame} (h : f.target.index = 0xFFFF) (hi : newBlendIndex s < s.gens.blend.length) :
    blendSetBody f s = (bumpPlan (createBlend (newBlendIndex s) false f.payload s).1,
      some { target := { index := newBlendIndex s, gen := nextGen (s.gens.blend.getD (newBlendIndex s) 0) }
             clamped := (setBlend f.payload {}).2 }) := by
  have gen : (createBlend (newBlendIndex s) false f.payload s).1.gens.blend.getD (newBlendIndex s) 0 =
      nextGen (s.gens.blend.getD (newBlendIndex s) 0) := by
    simp [createBlend, takeSerial, setAt, hi]
  unfold blendSetBody
  simp only [h, if_true, gen]
  rfl

/-- Outside SERVE a pair is removed at once (R336). -/
theorem blendRemoveBody_idle {s : State} {f : CmdFrame} {x : Blend} (hm : s.set.mode = .idle) (h : blendAt s f.target.index = some x)
    (hrem : x.o.removing = false) :
    (blendRemoveBody f s).1 = finishBlend f.target.index (some f.tag) (bumpPlan s) := by
  have there : blendAt (bumpPlan s) f.target.index = some x := h
  have obj : blendObj s f.target.index = some x.o := by
    show (blendAt s f.target.index).map (·.o) = _
    rw [h]; rfl
  have mode : (bumpPlan s).set.mode ≠ .serve := by
    rw [show (bumpPlan s).set.mode = .idle from hm]
    decide
  unfold blendRemoveBody shutBlend
  simp only [obj, there, Option.map_some, Option.getD_some, hrem, mode, Bool.false_eq_true, if_false]

/-- A fade of an aligned pair to its earlier branch needs no line: it begins at once (R279). -/
theorem requestFade_earlier {s : State} {i br : Nat} {b : Blend} (h : blendAt s i = some b) (hst : b.state = .aligned)
    (hal : b.aligned = true) (hother : br ≠ b.playing) (he : br = earlier b) (cause : Option Nat) :
    requestFade i br false cause s = (startFade i br cause s, false) := by
  unfold requestFade
  rw [h]
  dsimp only
  rw [hst]
  dsimp only
  rw [if_neg hother, if_neg Bool.false_ne_true, if_neg (by simp [hal]), if_pos (by simp [he])]

theorem blendFadeBody_earlier {s : State} {f : CmdFrame} {b : Blend} (h : blendAt s f.target.index = some b) (hst : b.state = .aligned)
    (hal : b.aligned = true) (hother : b.playing ≠ satNat 1 (field f.payload 0 1)) (he : earlier b = satNat 1 (field f.payload 0 1)) :
    blendFadeBody f s = (startFade f.target.index (satNat 1 (field f.payload 0 1)) (some f.tag) s,
      some { target := f.target, clamped := 1 < field f.payload 0 1 }) := by
  unfold blendFadeBody
  rw [requestFade_earlier h hst hal (Ne.symm hother) he.symm]

theorem startFade_fadeAt {i br : Nat} {c : Option Nat} {s : State} {b y : Blend} (h : blendAt s i = some b) (hs : b.state ≠ .fading)
    (hy : blendAt (startFade i br c s) i = some y) : y.fadeAt = now s := by
  unfold startFade at hy
  rw [h] at hy
  have fades := hy.symm.trans (blendAt_blendGo (blendAt_modBlend_self h (by intro _; rfl)) (by exact hs))
  cases fades
  rfl

/-- A line that neither drains nor builds and follows no change of the offset has the delay that it had (R277, R280). -/
theorem lineNow_still {b : Blend} (hd : b.state ≠ .draining) (hb : b.state ≠ .building) (hs : b.slip = 0) (s : State) :
    lineNow s b = b.delay := by
  have slip : slipped s b = 0 := by
    unfold slipped clampInt
    dsimp only
    rw [hs, if_neg (by omega), if_neg (by omega)]
  unfold lineNow
  dsimp only
  rw [slip, if_neg hd, if_neg hb]
  simp

/-! ### Correlations (R276, R277) -/

theorem scarfAt_up {s : State} {i : Nat} {x : Blend} (hu : unitUp s 9 = true) (h : blendAt s i = some x) : scarfAt s i = some x := by
  unfold scarfAt
  rw [if_pos hu]
  exact h

/-- The state in which a pair's branches have been looked at. -/
def correlating (i : Nat) (s : State) : State :=
  modBlend i (fun b => { b with corrAt := some (now s), noAudio := !pairAudio s b }) s

/-- The state in which a pair is correlated: 500 ms after the correlation before, if there was one (R276). -/
def nextCorrelation (x : Blend) (s : State) : State := (x.corrAt.map (fun t => passTo (t + ms 500) s)).getD s

theorem nextCorrelation_keeps (x : Blend) (s : State) : (nextCorrelation x s).prog = s.prog ∧ (nextCorrelation x s).mix = s.mix ∧
    (nextCorrelation x s).set = s.set ∧ (nextCorrelation x s).plan = s.plan := by
  unfold nextCorrelation
  cases x.corrAt with
  | none => exact ⟨rfl, rfl, rfl, rfl⟩
  | some t => simp [passTo_frame ..]

theorem pairAudio_congr {s t : State} (h : t.prog = s.prog) (b : Blend) : pairAudio t b = pairAudio s b := by
  unfold pairAudio branchAudio hasAudio digitalProgramme kindAt receptionRuns programmeAt receptionAt
  rw [h]

theorem branchQuiet_congr {s t : State} (h : t.prog = s.prog) (a : Handle) : branchQuiet t a = branchQuiet s a := by
  unfold branchQuiet programmeAt
  rw [h]

section
variable {s : State} {b : Nat} {x : Blend} (h9 : clockRuns s 9 = true) (h6 : clockRuns s 6 = true) (hb : b < 8)
  (hu : unitUp s 9 = true) (hx : blendAt s b = some x) (hr : blendRuns s x = true) (ha : pairAudio s x = true)
include hx ha

/-- The pair once its branches have been looked at: the instant is remembered, and both have audio. -/
theorem blendAt_correlating : blendAt (correlating b (nextCorrelation x s)) b =
    some { x with corrAt := some (now (nextCorrelation x s)), noAudio := false } := by
  obtain ⟨prog, mix, -, -⟩ := nextCorrelation_keeps x s
  have there : blendAt (nextCorrelation x s) b = some x := (blendAt_congr (by rw [mix]) b).trans hx
  unfold correlating
  rw [blendAt_modBlend_self there (by intro _; rfl), pairAudio_congr prog, ha]
  rfl

include h9 h6 hb hu hr

/-- A pair whose branches both have audio is correlated, but not while one is silent or concealed, and Scarf makes of the
measurement what it gives (R276, R277). -/
theorem scarfCorrelation_measures {m : Option (Nat × Int)}
    (hm : (if branchQuiet s x.a || branchQuiet s x.b then none else correlation x) = m) : exec (.scarfCorrelation b) s =
      .next (m.elim (correlating b (nextCorrelation x s))
        (fun m => resumeSwitches b (correlate b m (correlating b (nextCorrelation x s))))) := by
  have looked (u : State) (hp : u.prog = s.prog) : pairAudio u x = true ∧ branchQuiet u x.a = branchQuiet s x.a ∧
      branchQuiet u x.b = branchQuiet s x.b :=
    ⟨(pairAudio_congr hp x).trans ha, branchQuiet_congr hp x.a, branchQuiet_congr hp x.b⟩
  show execScarfCorrelation b s = _
  unfold execScarfCorrelation nextCorrelation
  rw [within_next (by simp [hb, h9, h6]), scarfAt_up hu hx]
  dsimp only
  rw [if_neg (by simp [hr])]
  cases x.corrAt with
  | none =>
    obtain ⟨audio, quietA, quietB⟩ := looked (correlating b s) rfl
    unfold correlating at audio quietA quietB
    rw [audio, quietA, quietB, hm]
    cases m <;> rfl
  | some t =>
    obtain ⟨audio, quietA, quietB⟩ := looked (correlating b (passTo (t + ms 500) s)) (by simp [correlating, passTo_frame ..])
    unfold correlating at audio quietA quietB
    rw [audio, quietA, quietB, hm]
    cases m <;> rfl

/-- With no follow object that uses the pair, a measurement changes the pair and nothing else (R276, R277). -/
theorem scarfCorrelation_takes {m : Nat × Int} (hqa : branchQuiet s x.a = false) (hqb : branchQuiet s x.b = false)
    (hm : correlation x = some m) (hf : ∀ f ∈ s.prog.follows, f.blend ≠ some b) :
    ∃ t, exec (.scarfCorrelation b) s = .next t ∧ t = correlate b m (correlating b (nextCorrelation x s)) ∧
      t.prog = s.prog ∧ t.set = s.set ∧ t.plan = s.plan := by
  have measured := scarfCorrelation_measures h9 h6 hb hu hx hr ha ((if_neg (by simp [hqa, hqb])).trans hm)
  obtain ⟨prog, -, settings, plan⟩ := nextCorrelation_keeps x s
  have kept : (correlate b m (correlating b (nextCorrelation x s))).prog = s.prog := by
    simp [correlate_frame .., correlating, prog]
  have alone : resumeSwitches b (correlate b m (correlating b (nextCorrelation x s))) =
      correlate b m (correlating b (nextCorrelation x s)) := resumeSwitches_none (by rw [kept]; exact hf)
  rw [measured]
  refine ⟨_, congrArg _ alone, rfl, kept, ?_, ?_⟩
  · simp [correlate_frame .., correlating, settings]
  · simp [correlate_frame .., correlating, plan]

end

/-- A first good measurement of a pair that is not aligned is remembered (R277). -/
theorem correlate_first {s : State} {i k : Nat} {d : Int} {b : Blend} (h : blendAt s i = some b) (hk : 500 ≤ k)
    (hal : b.aligned = false) (hn : b.agree = []) :
    blendAt (correlate i (k, d) s) i = some { b with peak := k, agree := [d], misses := 0 } := by
  have few : threeAgree ((d :: b.agree).take 3) = false := by rw [hn]; rfl
  unfold correlate
  rw [h]
  dsimp only
  rw [if_neg (by omega), if_pos (by simp [hal]), few, if_neg Bool.false_ne_true]
  refine (blendAt_modBlend_self (blendAt_modBlend_self h (by intro _; rfl)) (by intro _; rfl)).trans ?_
  rw [hn]
  rfl

/-- The third measurement that agrees gains the alignment (R277). -/
theorem correlate_third {s : State} {i k : Nat} {d p q : Int} {b : Blend} (h : blendAt s i = some b) (hk : 500 ≤ k)
    (hal : b.aligned = false) (hn : b.agree = [p, q]) (h3 : threeAgree [d, p, q] = true) :
    correlate i (k, d) s = gainAlignment i d
      (modBlend i (fun b => { b with agree := [d, p, q], misses := 0 }) (modBlend i (fun b => { b with peak := k }) s)) := by
  have three : (d :: b.agree).take 3 = [d, p, q] := by rw [hn]; rfl
  unfold correlate
  rw [h]
  dsimp only
  rw [if_neg (by omega), if_pos (by simp [hal]), three, if_pos h3]

theorem followOffset_keeps (s : State) (d : Int) (b : Blend) : (followOffset s d b).o = b.o ∧ (followOffset s d b).state = b.state ∧
    (followOffset s d b).waiting = b.waiting ∧ (followOffset s d b).playing = b.playing ∧ (followOffset s d b).peak = b.peak ∧
    (followOffset s d b).offset = d := by
  unfold followOffset
  dsimp only
  split
  · exact ⟨rfl, rfl, rfl, rfl, rfl, rfl⟩
  · split <;> exact ⟨rfl, rfl, rfl, rfl, rfl, rfl⟩

theorem newOffset_o (s : State) (d : Int) (b : Blend) : (newOffset s d b).o = b.o := by
  have follows := (followOffset_keeps s d b).1
  unfold newOffset slipOffset stepOffset
  dsimp only
  split
  · exact follows
  · split
    · split
      · exact follows
      · rfl
    · split
      · exact follows
      · exact follows

/-- A pair that becomes aligned while no motion and no fade runs takes the offset and plays on (R277). -/
theorem blendAt_gainAlignment {s : State} {i : Nat} {d : Int} {b : Blend} (h : blendAt s i = some b) (hst : b.state = .unaligned)
    (hw : b.waiting = none) : ∃ y, blendAt (gainAlignment i d s) i = some y ∧ y.state = .aligned ∧ y.prev = .unaligned ∧
      y.aligned = true ∧ y.offset = d ∧ y.peak = b.peak ∧ y.playing = b.playing := by
  obtain ⟨-, state, waiting, playing, peak, offset⟩ := followOffset_keeps s d b
  have taken := blendAt_modBlend_self (g := fun b => { newOffset s d b with aligned := true }) h (fun b => congrArg (·.idx) (newOffset_o s d b))
  have follows : newOffset s d b = followOffset s d b := if_pos hst
  rw [follows] at taken
  have goes := blendAt_blendGo (st := .aligned) (c := none) taken (by dsimp only; rw [state, hst]; decide)
  unfold gainAlignment
  dsimp only
  rw [taken]
  dsimp only
  rw [if_pos (state.trans hst), waiting, hw]
  exact ⟨_, goes, rfl, state.trans hst, rfl, offset, peak, playing⟩

/-! ### Fades and motions (R278, R280) -/

theorem restState_ne {b : Blend} {st : BlendState} (ha : st ≠ .aligned) (hu : st ≠ .unaligned) : st ≠ restState b := by
  unfold restState
  split
  · exact ha
  · exact hu

theorem releaseDeferred_none {s : State} (h : ∀ a < 5, (adcAt s a).deferred = false) : releaseDeferred s = s := by
  unfold releaseDeferred
  simp [h]

/-- A fade that ends with nothing held, nothing asked and nothing in the line leaves the pair at rest (R278, R280). -/
theorem blendAt_endFade {s : State} {i : Nat} {b : Blend} (h : blendAt s i = some b) (hst : b.state = .fading)
    (hheld : b.heldBranch = none) (hd : b.delay = 0) (hq : b.request = none) (hc : ∀ a < 5, (adcAt s a).deferred = false) :
    ∃ y, blendAt (endFade i s) i = some y ∧ y.state = restState b ∧ y.prev = .fading ∧ y.playing = b.playing ∧ y.delay = 0 ∧
      y.unalignedFade = false ∧ (endFade i s).prog.follows = s.prog.follows := by
  obtain ⟨u, hu⟩ : ∃ u, u = blendGo i (restState b) none (modBlend i (fun b => { b with unalignedFade := false }) s) := ⟨_, rfl⟩
  have ended := blendAt_modBlend_self (g := fun b => { b with unalignedFade := false }) h (by intro _; rfl)
  have rests := blendAt_blendGo (st := restState b) (c := none) ended (by dsimp only; rw [hst]; exact restState_ne (by decide) (by decide))
  rw [← hu] at rests
  have released : blendAt (releaseFadeHolds u) i = blendAt u i := blendAt_congr (by simp [releaseFadeHolds_frame ..]) i
  have converters : releaseDeferred (releaseFadeHolds u) = releaseFadeHolds u := releaseDeferred_none fun a ha => by
    rw [adcAt_congr (s := s) (by simp [hu, releaseFadeHolds_frame .., blendGo_frame ..])]
    exact hc a ha
  have leaves : endFade i s = releaseFadeHolds u := by
    unfold endFade
    rw [h]
    dsimp only
    rw [hheld]
    dsimp only
    rw [if_neg (by simp [hd]), ← hu, converters, released, rests]
    dsimp only [Option.bind]
    rw [hq]
  rw [leaves, released]
  exact ⟨_, rests, rfl, hst, rfl, hd, rfl, by simp [hu, blendGo_frame ..]⟩

theorem blendAt_passTo (d : Nat) (s : State) (i : Nat) : blendAt (passTo d s) i = blendAt s i :=
  blendAt_congr (by simp [passTo_frame ..]) i

section
variable {s : State} {b : Nat} {x : Blend} (h6 : clockRuns s 6 = true) (hb : b < 8) (hu : unitUp s 9 = true)
  (hx : blendAt s b = some x)
include h6 hb hu hx

/-- FADE_END of a fade with nothing held, asked or in the line, of a pair that no follow object uses, ends the fade (R278, R280). -/
theorem fadeEnd_ends (h9 : clockRuns s 9 = true) (hst : x.state = .fading) (hheld : x.heldBranch = none) (hd : x.delay = 0)
    (hq : x.request = none) (hf : ∀ f ∈ s.prog.follows, f.blend ≠ some b) (hc : ∀ a < 5, (adcAt s a).deferred = false) :
    ∃ t, exec (.fadeEnd b) s = .next t ∧ t = endFade b (passTo (x.fadeAt + ms x.fadeNow) s) ∧
      ∃ y, blendAt t b = some y ∧ y.state = restState x ∧ y.prev = .fading ∧ y.playing = x.playing ∧ y.delay = 0 ∧
        y.unalignedFade = false := by
  obtain ⟨y, found, state, prev, playing, delay, aligned, follows⟩ := blendAt_endFade ((blendAt_passTo _ s b).trans hx) hst hheld hd hq
    (fun a ha => by rw [adcAt_passTo]; exact hc a ha)
  refine ⟨_, ?_, rfl, y, found, state, prev, playing, delay, aligned⟩
  show execFadeEnd b s = _
  unfold execFadeEnd
  rw [within_next (by simp [hb, h9, h6]), scarfAt_up hu hx]
  dsimp only
  rw [if_pos hst, resumeSwitches_none (by rw [follows]; simpa [passTo_frame ..] using hf)]

/-- DRAIN_DONE of a pair that no follow object uses leaves its line empty (R280). -/
theorem drainDone_empties (h9 : clockRuns s 9 = true) (hst : x.state = .draining) (hf : ∀ f ∈ s.prog.follows, f.blend ≠ some b) :
    exec (.drainDone b) s = .next (blendGo b (restState x) none (modBlend b (fun x => { x with delay := 0, slip := 0 })
      (passTo (x.motionAt + motionTicks x.drain x.delay) s))) := by
  show execDrainDone b s = _
  unfold execDrainDone
  rw [within_next (by simp [hb, h9, h6]), scarfAt_up hu hx]
  dsimp only
  rw [if_pos hst, resumeSwitches_none (by simpa [blendGo_frame .., passTo_frame ..] using hf)]

/-- BUILD_DONE begins the fade that waited for the line (R279, R280). -/
theorem buildDone_fades {br : Nat} (h9 : clockRuns s 9 = true) (hst : x.state = .building) (hq : x.request = some br) :
    exec (.buildDone b) s = .next (startFade b br none (passTo (x.motionAt + motionTicks x.drain (fullOffset x - x.delay)) s)) := by
  show execBuildDone b s = _
  unfold execBuildDone
  rw [within_next (by simp [hb, h9, h6]), scarfAt_up hu hx]
  dsimp only
  rw [if_pos hst, hq]
  rfl

/-- ALIGNMENT_WAIT_EXPIRY begins the fade that waited for alignment (R279). -/
theorem alignmentWaitExpiry_fades {br : Nat} (hw : x.waiting = some br) :
    exec (.alignmentWaitExpiry b) s = .next (startFade b br none (passTo (x.waitAt + ms (100 * x.wait)) s)) := by
  show execAlignmentWaitExpiry b s = _
  unfold execAlignmentWaitExpiry
  rw [within_next (by simp [hb, h6]), scarfAt_up hu hx]
  dsimp only
  rw [hw]

end

/-- Settles O33: each command by what its body does in the state once the frame was taken, each event by the state in which the
pair comes to be. -/
theorem blendPairsAlignAndFade : Obligations.BlendPairsAlignAndFade := by
  unfold Obligations.BlendPairsAlignAndFade
  refine ⟨fun f s hl h hnew hi => ?set, fun f s x hl h hm hx hrem hs => ?remove,
    fun f s b hl h hb hst hal hne he hslip => ?fade,
    fun s b k d x h9 h6 hb hu hx hr ha hqa hqb hal hn hc hm hk hf => ?first,
    fun s b k d p q x h9 h6 hb hu hx hr ha hqa hqb hal hn h3 hst hw hm hk hf => ?third,
    fun s b x h9 h6 hb hu hx hr ha hq hc => ?quiet, fun s b x h9 h6 hb hu hx hst hheld hd hq hf hadc => ?fadeEnd,
    fun s b x h9 h6 hb hu hx hst hf => ?drained, fun s b br x h9 h6 hb hu hx hst hq => ?built,
    fun s b br x h6 hb hu hx hw hst hal hslip => ?waited⟩
  case set =>
    refine changes_taken h hl (fun _ _ _ k => k) fun p o b w hr => ?_
    rw [blendSetBody_new (s := afterTaking s p o b w) hnew hi]
    exact ⟨rfl, hr, rfl, rfl, rfl, rfl, rfl⟩
  case remove =>
    refine changes_taken h hl (fun _ _ _ k => k) fun p o b w hr => ⟨rfl, ?_⟩
    rw [blendRemoveBody_idle (s := afterTaking s p o b w) hm hx hrem]
    have gone := finishBlend_gone (s := bumpPlan (afterTaking s p o b w)) hs f.target.index (some f.tag)
    refine ⟨by simpa [finishBlend_frame .., afterTaking] using hr, Option.map_eq_none_iff.mp gone, ?_, ?_⟩
    all_goals simp [finishBlend_frame .., afterTaking]
  case fade =>
    refine changes_taken h hl (fun _ _ _ k => k) fun p o u w hr => ?_
    have there : blendAt (afterTaking s p o u w) f.target.index = some b := hb
    have notFading : b.state ≠ .fading := by rw [hst]; decide
    have still := lineNow_still (b := b) (by rw [hst]; decide) (by rw [hst]; decide) hslip (afterTaking s p o u w)
    obtain ⟨y, found, state, prev, playing, -, -, length, curve, delay, -, -, -, -, -, unaligned⟩ :=
      blendAt_startFade (br := satNat 1 (field f.payload 0 1)) (c := some f.tag) there notFading
    have began := startFade_fadeAt there notFading found
    rw [blendFadeBody_earlier there hst hal hne he]
    refine ⟨rfl, by simpa [startFade_frame .., afterTaking] using hr,
      ⟨y, found, state, prev.trans hst, playing, length, curve, ?_, delay.trans still, began⟩, ?_, ?_, ?_⟩
    · rw [unaligned]
      simp [hal, he]
    all_goals simp [startFade_frame .., afterTaking]
  case first =>
    obtain ⟨t, run, rfl, kept⟩ := scarfCorrelation_takes h9 h6 hb hu hx hr ha hqa hqb hm hf
    have remembered := correlate_first (d := d) (blendAt_correlating hx ha) hk hal hn
    refine ⟨_, run, ?_, kept⟩
    rw [remembered, show nextCorrelation x s = s by unfold nextCorrelation; rw [hc]; rfl]
  case third =>
    obtain ⟨t, run, rfl, kept⟩ := scarfCorrelation_takes h9 h6 hb hu hx hr ha hqa hqb hm hf
    have gains := correlate_third (blendAt_correlating hx ha) hk hal hn h3
    have counted := blendAt_modBlend_self (g := fun b => { b with agree := [d, p, q], misses := 0 })
      (blendAt_modBlend_self (g := fun b => { b with peak := k }) (blendAt_correlating hx ha) (by intro _; rfl)) (by intro _; rfl)
    refine ⟨_, run, ?_, kept⟩
    rw [gains]
    exact blendAt_gainAlignment counted hst hw
  case quiet =>
    have run := scarfCorrelation_measures (m := none) h9 h6 hb hu hx hr ha (if_pos (by simpa using hq))
    have looked := blendAt_correlating hx ha
    rw [show nextCorrelation x s = s by unfold nextCorrelation; rw [hc]; rfl] at run looked
    exact ⟨_, run, looked, rfl, rfl, rfl⟩
  case fadeEnd =>
    obtain ⟨t, run, rfl, pair⟩ := fadeEnd_ends h6 hb hu hx h9 hst hheld hd hq hf hadc
    refine ⟨_, run, ?_, pair, ?_, ?_⟩
    · rw [← now_passTo]
      simp [now, endFade_frame ..]
    all_goals simp [endFade_frame .., passTo_frame ..]
  case drained =>
    have emptied := blendAt_modBlend_self (g := fun x => { x with delay := 0, slip := 0 })
      ((blendAt_passTo (x.motionAt + motionTicks x.drain x.delay) s b).trans hx) (by intro _; rfl)
    have rests := blendAt_blendGo (st := restState x) (c := none) emptied
      (by dsimp only; rw [hst]; exact restState_ne (by decide) (by decide))
    refine ⟨_, drainDone_empties h6 hb hu hx h9 hst hf, ?_, ⟨_, rests, rfl, hst, rfl, rfl⟩, ?_, ?_, ?_⟩
    · rw [← now_passTo]
      simp [now, blendGo_frame ..]
    all_goals simp [blendGo_frame .., passTo_frame ..]
  case built =>
    obtain ⟨y, found, state, prev, playing, request, -, length, -⟩ :=
      blendAt_startFade (br := br) (c := none) ((blendAt_passTo _ s b).trans hx) (by rw [hst]; decide)
    refine ⟨_, buildDone_fades h6 hb hu hx h9 hst hq, ?_, ⟨y, found, state, prev.trans hst, playing, request, length⟩, ?_, ?_, ?_⟩
    · rw [← now_passTo]
      simp [now, startFade_frame ..]
    all_goals simp [startFade_frame .., passTo_frame ..]
  case waited =>
    have still := lineNow_still (b := x) (by rw [hst]; decide) (by rw [hst]; decide) hslip (passTo (x.waitAt + ms (100 * x.wait)) s)
    obtain ⟨y, found, state, prev, playing, -, waiting, -, -, delay, -, -, -, -, -, unaligned⟩ :=
      blendAt_startFade (br := br) (c := none) ((blendAt_passTo _ s b).trans hx) (by rw [hst]; decide)
    refine ⟨_, alignmentWaitExpiry_fades h6 hb hu hx hw, ?_, ⟨y, found, state, prev.trans hst, playing, waiting, ?_, delay.trans still⟩,
      ?_, ?_, ?_⟩
    · rw [← now_passTo]
      simp [now, startFade_frame ..]
    · rw [unaligned, hal]
      rfl
    all_goals simp [startFade_frame .., passTo_frame ..]

end Sys2Proof.Machine
end

section
/-!
PROOF. Pops, pushes and status through the serial ports, and a transaction stuck on the two-wire bus (O11).
-/

namespace Sys2Proof.Machine

/-! ### Rings -/

/-- A ring that holds an entry is one of the file. -/
theorem lt_length_of_entries {s : State} {n : Nat} (h : (ringAt s n).entries ≠ []) : n < s.port.rings.length := by
  by_contra out
  exact h (by simp [ringAt, out])

/-- A change of one ring leaves the others (R303). -/
theorem ringAt_modRing_other {n m : Nat} (h : m ≠ n) (g : Ring → Ring) (s : State) : ringAt (modRing n g s) m = ringAt s m := by
  rw [ringAt_modRing, if_neg (fun k => h k.1.symm)]

/-- A popped ring holds what stood behind its front entry (R305). -/
theorem popFront_entries {s : State} {n : Nat} {e : Entry} {l : List Entry} (h : (ringAt s n).entries = e :: l) :
    (ringAt (popFront s n) n).entries = l := by
  unfold popFront
  rw [ringAt_modRing, if_pos ⟨rfl, lt_length_of_entries (by simp [h])⟩, h]

/-! ### Pops (R298, R388, R390) -/

/-- What a pop that clocks a number of data bytes returns of an entry: its length and its bytes, cut or filled with zeros (R298). -/
def popBytes (clocked : Nat) (e : Entry) : List Byte := padTo clocked (leBytes 4 (renderEntry e).length ++ renderEntry e)

/-- A pop of an empty ring returns a length of 0 and zeros (R298). -/
theorem popRing_empty {s : State} {n : Nat} (h : (ringAt s n).entries = []) (p clocked : Nat) :
    popRing p n clocked s = emit (.pop p n (padTo clocked (leBytes 4 0))) s := by
  unfold popRing
  rw [h]

section
variable {s : State} {p n clocked : Nat} {e : Entry} {l : List Entry} (hp : poppable s p n = true)
  (he : (ringAt s n).entries = e :: l)
include hp he

/-- A pop returns the front entry, and consumes it when all of it was clocked (R298, R390). -/
theorem popRing_entry (clocked : Nat) : popRing p n clocked s =
    if 4 + (renderEntry e).length ≤ clocked then flushResponses (popFront (emit (.pop p n (popBytes clocked e)) s) n)
    else emit (.pop p n (popBytes clocked e)) s := by
  unfold popRing
  rw [he]
  exact if_pos hp

/-- A pop that ends early leaves the entry in place (R298). -/
theorem popRing_part (hc : clocked < 4 + (renderEntry e).length) :
    popRing p n clocked s = emit (.pop p n (popBytes clocked e)) s :=
  (popRing_entry hp he clocked).trans (if_neg (by omega))

/-- A pop of the whole entry consumes it; with no response waiting for room nothing else moves (R298, R314). -/
theorem popRing_whole (hc : 4 + (renderEntry e).length ≤ clocked) (hw : s.port.respWait = []) :
    popRing p n clocked s = popFront (emit (.pop p n (popBytes clocked e)) s) n :=
  (popRing_entry hp he clocked).trans ((if_pos hc).trans (flushResponses_none hw))

/-- The popped entry is on the bus and out of its ring, and the other rings stand (R298). -/
theorem popRing_consumes (hc : 4 + (renderEntry e).length ≤ clocked) (hw : s.port.respWait = []) :
    (ringAt (popRing p n clocked s) n).entries = l ∧ (popRing p n clocked s).out = s.out ++ [.pop p n (popBytes clocked e)] ∧
    ∀ m, m ≠ n → ringAt (popRing p n clocked s) m = ringAt s m := by
  rw [popRing_whole hp he hc hw]
  exact ⟨popFront_entries he, rfl, fun m hm => ringAt_modRing_other hm _ _⟩

end

theorem ringPop_live {s : State} {n : Nat} (hn : n < 32) (hl : portLive s 1 = true) (clocked : Nat) :
    exec (.ringPop 1 n clocked) s = .next (popRing 1 n clocked s) :=
  (within_next (by simp [hn]) s _).trans (congrArg _ ((if_pos rfl).trans (if_pos hl)))

/-- A bare read pops ring 10 while it holds an entry (R388). -/
theorem bareRead_response {s : State} (hl : portLive s 2 = true) (h : (ringAt s 10).entries ≠ []) (clocked : Nat) :
    exec (.bareRead clocked) s = .next (popRing 2 10 clocked s) :=
  congrArg _ ((if_pos hl).trans (if_neg (by simpa using h)))

/-- While ring 10 is empty it pops ring 6 (R388). -/
theorem bareRead_event {s : State} (hl : portLive s 2 = true) (h : (ringAt s 10).entries = []) (clocked : Nat) :
    exec (.bareRead clocked) s = .next (popRing 2 6 clocked s) :=
  congrArg _ ((if_pos hl).trans (if_pos (by simp [h])))

/-- A bare read pops the first of rings 10 and 6 that holds an entry (R388). -/
theorem bareRead_pops {s : State} {n : Nat} (hl : portLive s 2 = true) (hn : n = 10 ∨ (n = 6 ∧ (ringAt s 10).entries = []))
    (he : (ringAt s n).entries ≠ []) (clocked : Nat) : exec (.bareRead clocked) s = .next (popRing 2 n clocked s) := by
  obtain rfl | ⟨rfl, h⟩ := hn
  · exact bareRead_response hl he clocked
  · exact bareRead_event hl h clocked

/-! ### Pushes (R299, R305) -/

/-- The device at the start of a push over SPI: the status byte may still show the result before it (R593). -/
def pushBegun (s : State) : State :=
  { s with port := { s.port with pushPast := some (now s, s.port.pushOk, s.port.pushBusy, s.port.pushBad) } }

theorem ringPush_live {s : State} {n : Nat} (hn : n < 32) (hl : portLive s 1 = true) (b : List Byte) (e : PushEnd) :
    exec (.ringPush 1 n b e) s = .next (judgePush n b (pushBegun s)) :=
  (within_next (by simp [hn]) s _).trans (congrArg _ ((if_neg (by simp [hl])).trans (if_pos rfl)))

/-- One whole entry for a ring that the host fills over SPI is offered to the ring (R299). -/
theorem judgePush_entry {s : State} {n : Nat} {b : List Byte} (hh : hostProduced n = true) (hp : ringPort s n = 1)
    (h16 : 16 ≤ b.length) (hb : b.length = declaredLength n b) : judgePush n b s = pushEntry n b s :=
  if_pos (by rw [← hb]; simp [hh, hp, h16])

/-- Bytes that are not one whole entry are PUSH_MALFORMED (R299). -/
theorem judgePush_malformed {n : Nat} {b : List Byte} (hb : b.length ≠ declaredLength n b) (s : State) :
    judgePush n b s = pushStatus false false true s :=
  if_neg (by simp [hb])

/-- A ring with an entry stored behind the others, TAIL past the bytes skipped before it and past its own (R305, R306). -/
def storedBehind (quota : Nat) (e : Entry) (r : Ring) : Ring :=
  { r with
    entries := r.entries ++ [e]
    tail := r.tail + BitVec.ofNat 32 (skipBefore r.tail (log2Floor quota) (entrySpace e)) + BitVec.ofNat 32 (entrySpace e) }

/-- An entry that fits an enabled ring is stored, with PUSH_OK (R299, R305). -/
theorem pushEntry_fits {s : State} {n : Nat} {b : List Byte} (hs : (ringSet s n).enable = true)
    (hf : fits s n (entrySpace { bytes := b }) = true) : pushEntry n b s =
      pushStatus true false false (modRing n (storedBehind (ringSet s n).quota { bytes := b }) s) :=
  if_pos (by rw [hs, hf]; rfl)

/-- An entry that does not fit is discarded, with BUSY in the status byte and the descriptor (R299, R303, R305). -/
theorem pushEntry_full {s : State} {n : Nat} {b : List Byte} (hf : fits s n (entrySpace { bytes := b }) = false) :
    pushEntry n b s =
      pushStatus false true false (modRing n (fun r => { r with busy := true, busyPending := true }) s) := by
  unfold pushEntry
  simp [hf]

/-! ### STATUS, and a stuck bus (R388, R392) -/

theorem status_twoWire {s : State} (hl : portLive s 2 = true) :
    exec (.status 2) s = .next (emit (.statusByte 2 (statusByte s)) s) :=
  (within_next rfl s _).trans (congrArg _ ((if_neg (by simp)).trans (if_pos (by simp [hl]))))

/-- Settles O11: each transaction by its row through a live port, a pop by the entry its ring holds and a push by its judgement. -/
theorem popsAndPushesThroughAPort : Obligations.PopsAndPushesThroughAPort := by
  unfold Obligations.PopsAndPushesThroughAPort
  refine ⟨fun s n clocked e l hn hl hp he hc hw => ⟨_, ringPop_live hn hl clocked, popRing_consumes hp he hc hw⟩,
    fun s n clocked e l hn hl hp he hc => ?part, fun s n clocked hn hl he => ?empty, fun s clocked hl h10 h6 => ?bareEmpty,
    fun s n clocked e l hn hl hp he hc hw => ⟨_, bareRead_pops hl hn (by simp [he]) clocked, popRing_consumes hp he hc hw⟩,
    fun s n b e hn hr hl hh hp h16 hb hs hf => ?stored, fun s n b e hn hl hh hp h16 hb hf => ?full,
    fun s n b e hn hl hb => ?malformed, fun s hl => status_twoWire hl,
    fun s => ⟨_, rfl, now_pass (ms 25) s, pass_only (ms 25) s⟩⟩
  case part => exact (ringPop_live hn hl clocked).trans (congrArg _ (popRing_part hp he hc))
  case empty => exact (ringPop_live hn hl clocked).trans (congrArg _ (popRing_empty he 1 clocked))
  case bareEmpty => exact (bareRead_event hl h10 clocked).trans (congrArg _ (popRing_empty h6 2 clocked))
  case stored =>
    have run := (ringPush_live hn hl b e).trans
      (congrArg _ ((judgePush_entry (s := pushBegun s) hh hp h16 hb).trans (pushEntry_fits hs hf)))
    refine ⟨_, run, ?_, rfl, rfl, rfl, fun m hm => ringAt_modRing_other hm _ (pushBegun s), rfl⟩
    have stored := ringAt_modRing n n (storedBehind (ringSet s n).quota { bytes := b }) (pushBegun s)
    exact congrArg Ring.entries (stored.trans (if_pos ⟨rfl, hn.trans_eq hr.symm⟩))
  case full =>
    exact (ringPush_live hn hl b e).trans
      (congrArg _ ((judgePush_entry (s := pushBegun s) hh hp h16 hb).trans (pushEntry_full hf)))
  case malformed => exact (ringPush_live hn hl b e).trans (congrArg _ (judgePush_malformed hb (pushBegun s)))

end Sys2Proof.Machine
end

section
/-!
PROOF. The checks of a command frame in the order of R327, the comparison of its plan sequence (O54) and the frames that fail one (O47).
-/

namespace Sys2Proof.Machine

/-- Of several failures of one check, where there is a failure one is answered (R328). -/
theorem lowest_some_ne_none (x : Fail) (l : List (Option Fail)) : lowest (some x :: l) ≠ none := by
  unfold lowest
  (repeat' split) <;> simp

/-- With a sound structure, no PLAN_CHECK, no stale or missing object and no lock, what the check of the mode finds is the answer (R327). -/
theorem earlyFail_mode {s : State} {op : Nat} {f : CmdFrame} {c : Checks} (hlen : c.lenOk = true)
    (hport : f.portField = f.port) (hflag : f.flags.getLsbD 0 = false) (hbad : lowest c.bad = none)
    (hstale : lowest c.stale = none) (hobj : lowest c.noObj = none) (hdenied : lowest c.denied = none) :
    earlyFail s op f c = (failIf (s.pwr.stage == .recovery && !recoveryOpcodes.contains op) 8 5 0xFFFF).or
      (failIf (!(c.modes.contains s.set.mode || s.pwr.stage == .recovery) || !c.modeOk) 8 s.set.mode.code 0xFFFF) := by
  unfold earlyFail
  rw [hflag, hobj, hdenied]
  simp [failIf, lowest, hlen, hport, hbad, hstale]

/-- Another plan sequence under PLAN_CHECK fails the check of staleness, at the lowest detail found there (R328, R345). -/
theorem earlyFail_planCheck {s : State} {op : Nat} {f : CmdFrame} {c : Checks} (hlen : c.lenOk = true)
    (hport : f.portField = f.port) (hbad : lowest c.bad = none) (hflag : f.flags.getLsbD 0 = true)
    (hseq : f.planSeq ≠ s.plan.seq) :
    earlyFail s op f c = lowest (some { status := 2, detail := 3, off := 0xFFFF } :: c.stale) := by
  have found := lowest_some_ne_none { status := 2, detail := 3, off := 0xFFFF } c.stale
  have ask : (f.flags.getLsbD 0 && f.planSeq != s.plan.seq) = true := by simp [hflag, hseq]
  unfold earlyFail
  rw [ask]
  obtain ⟨x, hx⟩ := Option.ne_none_iff_exists'.mp found
  simp [failIf, lowest, hlen, hport, hbad] at hx ⊢
  simp [hx]

/-- Of its flags and plan sequence, the checks of a frame read the comparison of PLAN_CHECK only (R345). -/
theorem earlyFail_congr_planCheck {s : State} {op : Nat} {f : CmdFrame} {c : Checks} {fl : Byte} {x : W32}
    (h : (f.flags.getLsbD 0 && f.planSeq != s.plan.seq) = (fl.getLsbD 0 && x != s.plan.seq)) :
    earlyFail s op f c = earlyFail s op { f with flags := fl, planSeq := x } c := by
  unfold earlyFail
  rw [h]

/-- Settles O54: the check of staleness finds the sequence, and the other checks read neither the flag nor the field. -/
theorem planCheckComparesTheSequence : Obligations.PlanCheckComparesTheSequence := by
  unfold Obligations.PlanCheckComparesTheSequence
  refine ⟨fun s op f c hlen hport hbad hflag hseq => ?other, fun s op f c hseq => ?active, fun s op f c x hflag => ?without⟩
  case other =>
    rw [earlyFail_planCheck hlen hport hbad hflag hseq]
    exact ⟨fun hstale => by simp [lowest, hstale], lowest_some_ne_none _ _⟩
  case active => exact earlyFail_congr_planCheck (by simp [hseq])
  case without => exact earlyFail_congr_planCheck (by rw [hflag, Bool.false_and, Bool.false_and])

/-- A command that fails a check after clamping answers the failure, and that a parameter was clamped; its body does not run (R327,
R330). -/
theorem command_lateRefused {op : Nat} {f : CmdFrame} {c : State → Checks} {s : State} {x : Fail} (htake : canTake s f = true)
    (hnext : frameNext s op f = true) (hholds : (c s).holds = false)
    (hearly : earlyFail (consume op f s) op f (c (consume op f s)) = none) (hfree : (c (consume op f s)).holds = false)
    (hlate : lateFail (c (consume op f s)) = some x) (body : State → State × Option Reply) :
    command op f c body s =
      refuse op { deferredOf op f false with clamped := (c (consume op f s)).clamps } x (consume op f s) := by
  unfold command handle
  simp [htake, hnext, hholds, hearly, hfree, hlate]

/-- The refusal of a frame just taken is its one answer, and says whether a parameter was clamped (R327, R330). -/
theorem refused_reads {op : Nat} {f : CmdFrame} {s : State} (hl : s.port.rings.length = 32) (k : Bool) (x : Fail) :
    Reads op f { status := x.status, target := f.target, clamped := k, payload := failPayload x } s
      (.next (refuse op { deferredOf op f false with clamped := k } x (consume op f s))) := by
  refine ⟨_, rfl, (consume_readsOnly op f s).trans (respond_portOut _ _ _ _).readsOnly, fun hp => ?_⟩
  unfold refuse
  rw [respond_answers _ _ _ _ hp (by simp [hl]), consume_answers]
  simp [deferredOf, responseFrame, responseFlags]

/-- Settles O47: the order is that of `earlyFail` and `lateFail`, and a frame that fails a check is taken and answered. -/
theorem refusedCommandsChangeNothing : Obligations.RefusedCommandsChangeNothing := by
  unfold Obligations.RefusedCommandsChangeNothing
  refine ⟨fun s op f c => ?order, fun c => ?late, fun op f c body s x hl h => rejected_reads h hl body,
    fun op f c body s x hl htake hnext hholds hearly hfree hlate => ?clamped⟩
  case order =>
    have recovery : ∀ b : Bool, failIf b 8 5 0xFFFF = if b then some { status := 8, detail := 5, off := 0xFFFF } else none :=
      fun _ => rfl
    unfold earlyFail
    rw [recovery]
    (repeat' split) <;> simp_all
  case late =>
    unfold lateFail
    split <;> simp_all
  case clamped =>
    rw [command_lateRefused htake hnext hholds hearly hfree hlate]
    exact refused_reads hl _ x

end Sys2Proof.Machine
end

section
/-!
PROOF. The resident loader of recovery boot (O53).
-/

namespace Sys2Proof.Machine

/-- The resident loader refuses a frame of another opcode that fails no check before that of the mode (R498). -/
theorem earlyFail_recovery_other {s : State} {op : Nat} {f : CmdFrame} {c : Checks} (hstage : s.pwr.stage = .recovery)
    (hlen : c.lenOk = true) (hport : f.portField = f.port) (hflag : f.flags.getLsbD 0 = false) (hbad : lowest c.bad = none)
    (hstale : lowest c.stale = none) (hobj : lowest c.noObj = none) (hdenied : lowest c.denied = none)
    (hop : op ∉ recoveryOpcodes) : earlyFail s op f c = some { status := 8, detail := 5, off := 0xFFFF } := by
  rw [earlyFail_mode hlen hport hflag hbad hstale hobj hdenied]
  simp [failIf, hstage, hop]

/-- The resident loader takes a frame of one of its six opcodes that fails no check before that of the mode (R498). -/
theorem earlyFail_recovery_loader {s : State} {op : Nat} {f : CmdFrame} {c : Checks} (hstage : s.pwr.stage = .recovery)
    (hlen : c.lenOk = true) (hport : f.portField = f.port) (hflag : f.flags.getLsbD 0 = false) (hbad : lowest c.bad = none)
    (hstale : lowest c.stale = none) (hobj : lowest c.noObj = none) (hdenied : lowest c.denied = none)
    (hmode : c.modeOk = true) (hop : op ∈ recoveryOpcodes) : earlyFail s op f c = none := by
  rw [earlyFail_mode hlen hport hflag hbad hstale hobj hdenied]
  simp [failIf, hstage, hop, hmode]

/-- Settles O53: the frames by the check of the mode, before and once they are taken, GET_SECURITY by its body. -/
theorem recoveryBootTakesSixCommands : Obligations.RecoveryBootTakesSixCommands := by
  unfold Obligations.RecoveryBootTakesSixCommands
  refine ⟨fun s op f c hstage hlen hport hflag hbad hstale hobj hdenied hop =>
      earlyFail_recovery_other hstage hlen hport hflag hbad hstale hobj hdenied hop,
    fun s op f c hstage hlen hport hflag hbad hstale hobj hdenied hmode hop =>
      earlyFail_recovery_loader hstage hlen hport hflag hbad hstale hobj hdenied hmode hop,
    fun op f c body s hl htake hnext hstage hport hflag hc hop => ?refused,
    fun f s hl htake hnext hstage hport hflag hlen => ?security⟩
  case refused =>
    have fails : ∀ u, u = s ∨ u = consume op f s → earlyFail u op f (c u) = some { status := 8, detail := 5, off := 0xFFFF } := by
      intro u hu
      obtain ⟨hlen, hbad, hstale, hobj, hdenied⟩ := hc u hu
      refine earlyFail_recovery_other ?_ hlen hport hflag hbad hstale hobj hdenied hop
      rcases hu with rfl | rfl
      · exact hstage
      · simp [hstage]
    exact rejected_reads ⟨htake, hnext, fails s (.inl rfl), fails _ (.inr rfl)⟩ hl body
  case security =>
    have checked : earlyFail (consume 0x0D07 f s) 0x0D07 f (getSecurityChecks f (consume 0x0D07 f s)) = none :=
      earlyFail_recovery_loader (by simp [hstage]) (by simp [getSecurityChecks, hlen]) hport hflag rfl rfl rfl rfl rfl
        (by decide)
    exact reads_independent ⟨htake, hnext, rfl, checked, rfl, rfl⟩ hl (fun _ => rfl) (fun _ _ _ _ => rfl) rfl

end Sys2Proof.Machine
end

section
/-!
PROOF. The commands that read identity, port declarations, the alarm and time settings (O1), and those that read calibration, ageing,
supply, link, statistics, security and the plan (O4).
-/

namespace Sys2Proof.Machine

/-- What an opcode that has no command is checked against: nothing but that it is unassigned (R325). -/
def unassignedChecks : Checks := { lenOk := true, bad := [failIf true 6 1 0xFFFF], modes := modesAll }

/-- An opcode that has no command is MALFORMED with detail 1, which comes before a wrong port field (R325, R328). -/
theorem earlyFail_unassigned (s : State) (op : Nat) (f : CmdFrame) :
    earlyFail s op f unassignedChecks = some { status := 6, detail := 1, off := 0xFFFF } := by
  unfold earlyFail unassignedChecks
  by_cases hport : (f.portField ≠ f.port && f.port < 3) = true
  · rw [hport]; rfl
  · rw [Bool.not_eq_true] at hport; rw [hport]; rfl

/-- Settles O1: each body only replies, and what it replies does not depend on what taking a frame may touch; an opcode without a
command fails the check of the structure. -/
theorem identityTimeAndPortsRead : Obligations.IdentityTimeAndPortsRead := by
  unfold Obligations.IdentityTimeAndPortsRead
  refine ⟨fun f s hl h => ?identity, fun f s hl h => ?ports, fun f s hl h => ?alarm, fun f s hl h => ?echo,
    fun f s hl h => ?time, fun op f s hop htake hnext hl => ?unassigned⟩
  case identity => exact reads_independent h hl (fun _ => rfl) (fun _ _ _ _ => rfl) rfl
  case ports => exact reads_independent h hl (fun _ => rfl) (fun _ _ _ _ => rfl) rfl
  case alarm => exact reads_independent h hl (fun _ => rfl) (fun _ _ _ _ => rfl) rfl
  case echo => exact reads_independent h hl (fun _ => rfl) (fun _ _ _ _ => rfl) rfl
  case time => exact reads_independent h hl (fun _ => rfl) (fun _ _ _ _ => rfl) rfl
  case unassigned =>
    have runs : exec (.unassignedOpcode op f) s =
        .next (command op f (fun _ => unassignedChecks) (fun s => (s, none)) s) := by
      show execUnassignedOpcode op f s = _
      unfold execUnassignedOpcode
      rw [if_neg (by simp [hop])]
      rfl
    rw [runs]
    exact rejected_reads ⟨htake, hnext, earlyFail_unassigned s op f, earlyFail_unassigned _ op f⟩ hl _

/-- Settles O4: each body only replies, and what it replies does not depend on what taking a frame may touch. -/
theorem supervisionRead : Obligations.SupervisionRead := by
  unfold Obligations.SupervisionRead
  refine ⟨fun f s hl h => ?cal, fun f s hl h => ?ageing, fun f s hl h => ?supply, fun f s hl h => ?link,
    fun f s hl h => ?gather, fun f s hl h => ?stats, fun f s hl h => ?security, fun f s hl h => ?plan⟩
  case cal => exact reads_independent h hl (fun _ => rfl) (fun _ _ _ _ => rfl) rfl
  case ageing => exact reads_independent h hl (fun _ => rfl) (fun _ _ _ _ => rfl) rfl
  case supply => exact reads_independent h hl (fun _ => rfl) (fun _ _ _ _ => rfl) rfl
  case link => exact reads_independent h hl (fun _ => rfl) (fun _ _ _ _ => rfl) rfl
  case gather => exact reads_independent h hl (fun _ => rfl) (fun _ _ _ _ => rfl) rfl
  case stats => exact reads_independent h hl (fun _ => rfl) (fun _ _ _ _ => rfl) rfl
  case security => exact reads_independent h hl (fun _ => rfl) (fun _ _ _ _ => rfl) rfl
  case plan => exact reads_independent h hl (fun _ => rfl) (fun _ _ _ _ => rfl) rfl

end Sys2Proof.Machine
end

section
/-!
PROOF. The rollback counter of the fuses (O49): no operation but that of FW_UPDATE_COMMIT writes it, and that one takes a maximum.
-/

namespace Sys2Proof.Machine

@[simp] theorem foldl_sec_rollback {α : Type} (h : State → α → State) (H : ∀ b a, (h b a).sec.rollback = b.sec.rollback)
    (l : List α) (b : State) : (l.foldl h b).sec.rollback = b.sec.rollback :=
  foldl_keeps (fun s : State => s.sec.rollback) H l b

@[simp] theorem ite_MortiseS_rollback (c : Prop) [Decidable c] (a b : MortiseS) :
    (if c then a else b).rollback = if c then a.rollback else b.rollback := by split <;> rfl

/-! ### Keys, images and challenges -/

@[simp] theorem beginZeroise_rollback (slots : List Nat) (s : State) :
    (beginZeroise slots s).sec.rollback = s.sec.rollback := by
  unfold beginZeroise; simp

@[simp] theorem slotZeroised_rollback (i : Nat) (s : State) : (slotZeroised i s).sec.rollback = s.sec.rollback := by
  unfold slotZeroised; simp [keyChanged_frame ..]

@[simp] theorem slotInstalled_rollback (j : WriteJob) (i : Nat) (k : Option (List Byte)) (s : State) :
    (slotInstalled j i k s).sec.rollback = s.sec.rollback := by
  unfold slotInstalled; simp [keyChanged_frame ..]

@[simp] theorem finishJob_rollback (j : WriteJob) (rest : List WriteJob) (s : State) :
    (finishJob j rest s).sec.rollback = s.sec.rollback := by
  unfold finishJob; split <;> simp

@[simp] theorem newChallenge_rollback (s : State) : (newChallenge s).sec.rollback = s.sec.rollback := by
  unfold newChallenge; simp [drawBytes_frame .., drbgRequest]

/-! ### Modes and the register file of COMPAT -/

@[simp] theorem beginTransition_rollback (m : Mode) (cause : Option Nat) (s : State) :
    (beginTransition m cause s).sec.rollback = s.sec.rollback := by
  unfold beginTransition; split <;> simp [holdWrites_frame .., leaveMode_frame ..]

@[simp] theorem wake_rollback (source : Nat) (s : State) : (wake source s).sec.rollback = s.sec.rollback := by
  unfold wake; simp [reduceDividers_frame ..]

@[simp] theorem wakeSource_rollback (source : Nat) (s : State) : (wakeSource source s).sec.rollback = s.sec.rollback := by
  unfold wakeSource; simp

@[simp] theorem finishHold_rollback (s : State) : (finishHold s).sec.rollback = s.sec.rollback := by
  unfold finishHold; dsimp only
  split <;> simp [tunersOff_frame .., reduceDividers_frame .., coast_frame .., refStops_frame .., rerunAll_frame ..]

/-- A command leaves the security state alone, or as its body leaves it on a state that has the same (R327, R338, R339). -/
theorem command_sec_body (op : Nat) (f : CmdFrame) (c : State → Checks) (body : State → State × Option Reply) (s : State) :
    (command op f c body s).sec = s.sec ∨ ∃ u, u.sec = s.sec ∧ (command op f c body s).sec = (body u).1.sec := by
  unfold command
  split
  · exact .inl rfl
  · split
    · exact .inl rfl
    · unfold handle refuse
      dsimp only
      split
      · exact .inl (by simp)
      · split
        · exact .inl (by simp)
        · split
          · exact .inl (by simp)
          · refine .inr ⟨consume op f s, by simp, ?_⟩
            split <;> rename_i e <;> simp [e]

theorem command_rollback {op : Nat} {f : CmdFrame} {c : State → Checks} {body : State → State × Option Reply} {s : State}
    (hb : ∀ u, (body u).1.sec.rollback = u.sec.rollback) : (command op f c body s).sec.rollback = s.sec.rollback := by
  obtain e | ⟨u, hu, e⟩ := command_sec_body op f c body s
  · rw [e]
  · rw [e, hb, hu]

@[simp] theorem setMode_rollback (f : CmdFrame) (s : State) : (setMode f s).sec.rollback = s.sec.rollback :=
  command_rollback fun u => by unfold setModeBody; dsimp only; (repeat' split) <;> simp

@[simp] theorem keyZeroise_rollback (f : CmdFrame) (s : State) : (keyZeroise f s).sec.rollback = s.sec.rollback :=
  command_rollback fun u => by unfold keyZeroiseBody; dsimp only; split <;> simp

@[simp] theorem compatPowerDown_rollback (s : State) : (compatPowerDown s).sec.rollback = s.sec.rollback := by
  unfold compatPowerDown; simp

@[simp] theorem compatControl_rollback (v : Byte) (s : State) : (compatControl v s).sec.rollback = s.sec.rollback := by
  unfold compatControl; dsimp only; (repeat' split) <;> simp [compatTuneNow_frame .., compatDefaults_frame ..]

@[simp] theorem keyWrite_rollback (b : Byte) (s : State) : (keyWrite b s).sec.rollback = s.sec.rollback := by
  unfold keyWrite; simp

@[simp] theorem compatReg_rollback (off : Nat) (v : List Byte) (s : State) :
    (compatReg off v s).sec.rollback = s.sec.rollback := by
  unfold compatReg; dsimp only
  simp [irqClear_frame .., compatGain_frame .., compatAudio_frame .., compatCtrl_frame ..]

@[simp] theorem compatWrites_rollback (fuel off : Nat) (bs : List Byte) (s : State) :
    (compatWrites fuel off bs s).sec.rollback = s.sec.rollback := by
  induction fuel generalizing off bs s with
  | zero => rfl
  | succ fuel ih => unfold compatWrites; dsimp only; (repeat' split) <;> simp [ih]

/-! ### The reset sequence -/

@[simp] theorem islandsReset_rollback (s : State) : (islandsReset s).sec.rollback = s.sec.rollback := by
  unfold islandsReset; simp [restorePlan_frame ..]

@[simp] theorem finishBoot_rollback (i : Nat) (s : State) : (finishBoot i s).sec.rollback = s.sec.rollback := by
  unfold finishBoot
  simp [shedToLimit_frame .., powerUpTriggers_frame .., markBudget_frame .., initRings_frame .., lockLoops_frame ..,
    startHeadstock_frame .., initUnits_frame .., writeFallback_frame .., postBoot_frame .., enterBootMode_frame ..,
    postCoasted_frame ..]

@[simp] theorem recoveryBoot_rollback (s : State) : (recoveryBoot s).sec.rollback = s.sec.rollback := by
  unfold recoveryBoot
  simp [initRings_frame .., lockLoops_frame .., initUnits_frame .., postBoot_frame .., startHeadstock_frame ..]

@[simp] theorem secureBoot_rollback (s : State) : (secureBoot s).sec.rollback = s.sec.rollback := by
  unfold secureBoot; simp [bootNote_frame ..]

@[simp] theorem selfTest_rollback (s : State) : (selfTest s).sec.rollback = s.sec.rollback := by
  unfold selfTest; dsimp only; split <;> simp

@[simp] theorem islandsDecided_rollback (s : State) : (islandsDecided s).sec.rollback = s.sec.rollback := by
  unfold islandsDecided; simp [bootNote_frame .., halt_frame ..]

@[simp] theorem gatesDone_rollback (s : State) : (gatesDone s).sec.rollback = s.sec.rollback := by
  unfold gatesDone; simp

@[simp] theorem reloadOnce_rollback (s : State) : (reloadOnce s).sec.rollback = s.sec.rollback := by
  unfold reloadOnce; simp

@[simp] theorem releaseIslands_rollback (s : State) : (releaseIslands s).sec.rollback = s.sec.rollback := by
  unfold releaseIslands; simp [lockLoops_frame .., recoverBus_frame ..]

@[simp] theorem timeReleased_rollback (s : State) : (timeReleased s).sec.rollback = s.sec.rollback := by
  unfold timeReleased; simp

@[simp] theorem releaseTime_rollback (s : State) : (releaseTime s).sec.rollback = s.sec.rollback := by
  unfold releaseTime; simp

@[simp] theorem powerOnWork_rollback (s : State) : (powerOnWork s).sec.rollback = s.sec.rollback := by
  unfold powerOnWork; simp [readStrap_frame .., waitRails_frame ..]

@[simp] theorem checkedSequence_rollback (b : BootInputs) (s : State) :
    (checkedSequence b s).sec.rollback = s.sec.rollback := by
  unfold checkedSequence; simp [loadCal_frame .., checkRegions_frame ..]

@[simp] theorem nresetWork_rollback (b : BootInputs) (s : State) : (nresetWork b s).sec.rollback = s.sec.rollback := by
  unfold nresetWork; simp [endResetWrite_frame ..]

/-! ### Every command -/

/-- Where an outcome is a next state, the rollback counter is as it was. -/
def KeepsRollback (s : State) (o : Host.Outcome State Fault Refusal) : Prop := ∀ t, o = .next t → t.sec.rollback = s.sec.rollback

@[simp] theorem keepsRollback_next {s t : State} : KeepsRollback s (.next t) ↔ t.sec.rollback = s.sec.rollback :=
  ⟨fun h => h _ rfl, by rintro h _ ⟨⟩; exact h⟩

@[simp] theorem keepsRollback_within {s t : State} {b : Bool} :
    KeepsRollback s (within s b t) ↔ (b = true → t.sec.rollback = s.sec.rollback) := by
  cases b <;> simp [within]

/-- The events of the reset sequence leave the rollback counter: it is a fuse (R496). -/
theorem resets_keepRollback (s : State) : KeepsRollback s (exec .powerOnReset s) ∧
    (∀ b, KeepsRollback s (exec (.porRelease b) s)) ∧ (∀ b, KeepsRollback s (exec (.nresetRelease b) s)) ∧
    (∀ w, KeepsRollback s (exec (.nresetAccepted w) s)) ∧ (∀ i, KeepsRollback s (exec (.islandClockGood i) s)) ∧
    (∀ i, KeepsRollback s (exec (.islandHeld i) s)) ∧ (∀ r, KeepsRollback s (exec (.railGood r) s)) ∧
    (∀ b, KeepsRollback s (exec (.sequenceRepeat b) s)) ∧ (∀ p b, KeepsRollback s (exec (.selfTestRerun p b) s)) := by
  refine ⟨?por, fun b => ?release, fun b => ?nreset, fun w => ?accepted, fun i => ?clock, fun i => ?held, fun r => ?rail,
    fun b => ?again, fun p b => ?test⟩
  case por => exact keepsRollback_next.2 (powerOff_rollback s)
  case release =>
    show KeepsRollback s (execPorRelease b s)
    unfold execPorRelease; simp [passTo_frame ..]
  case nreset =>
    show KeepsRollback s (execNresetRelease b s)
    unfold execNresetRelease; simp
  case accepted =>
    show KeepsRollback s (execNresetAccepted w s)
    unfold execNresetAccepted; simp [paOffNow_frame .., drawBool]
  case clock =>
    show KeepsRollback s (execIslandClockGood i s)
    unfold execIslandClockGood; simp
  case held =>
    show KeepsRollback s (execIslandHeld i s)
    unfold execIslandHeld; simp [passTo_frame ..]
  case rail =>
    show KeepsRollback s (execRailGood r s)
    unfold execRailGood; simp
  case again =>
    show KeepsRollback s (execSequenceRepeat b s)
    unfold execSequenceRepeat; simp [passTo_frame .., powerOff_rollback]
  case test =>
    show KeepsRollback s (execSelfTestRerun p b s)
    unfold execSelfTestRerun; simp [passTo_frame .., halt_frame ..]

/-- Modes, wake sources, the store's writes and the emulated registers leave the rollback counter (R496). -/
theorem modes_keepRollback (s : State) : (∀ us, KeepsRollback s (exec (.wakeHigh us) s)) ∧
    KeepsRollback s (exec .twoWireWake s) ∧ KeepsRollback s (exec .aonAlarm s) ∧
    KeepsRollback s (exec .modeTransitionDone s) ∧ KeepsRollback s (exec .recordWriteDone s) ∧
    KeepsRollback s (exec .controlPowerDown s) ∧ (∀ g, KeepsRollback s (exec (.updateKeyUpdate g) s)) ∧
    (∀ g, KeepsRollback s (exec (.updateKeyZeroise g) s)) ∧ (∀ off bs, KeepsRollback s (exec (.compatRegWrite off bs) s)) := by
  refine ⟨fun us => ?wake, ?twoWire, ?alarm, ?done, ?written, ?down, fun g => ?update, fun g => ?zeroise, fun off bs => ?regs⟩
  case wake =>
    show KeepsRollback s (execWakeHigh us s)
    unfold execWakeHigh drawBool; simp
  case twoWire =>
    show KeepsRollback s (execTwoWireWake s)
    unfold execTwoWireWake; simp
  case alarm =>
    show KeepsRollback s (execAonAlarm s)
    unfold execAonAlarm; simp [pass_frame ..]
  case done =>
    show KeepsRollback s (execModeTransitionDone s)
    unfold execModeTransitionDone; refine keepsRollback_within.2 fun _ => ?_
    split <;> simp [finishTransition_frame ..]
  case written =>
    show KeepsRollback s (execRecordWriteDone s)
    unfold execRecordWriteDone; refine keepsRollback_next.2 ?_
    split <;> simp [commitProgress_frame ..]
  case down =>
    show KeepsRollback s (execControlPowerDown s)
    unfold execControlPowerDown; simp
  case update =>
    show KeepsRollback s (execUpdateKeyUpdate g s)
    unfold execUpdateKeyUpdate; simp [pass_frame ..]
  case zeroise =>
    show KeepsRollback s (execUpdateKeyZeroise g s)
    unfold execUpdateKeyZeroise; simp [pass_frame ..]
  case regs => exact keepsRollback_next.2 (compatWrites_rollback _ _ _ s)

/-- The security commands other than FW_UPDATE_COMMIT, and the Mortise's events, leave the rollback counter (R496). -/
theorem mortise_keepsRollback (s : State) : (∀ f, KeepsRollback s (exec (.keyZeroise f) s)) ∧
    (∀ f, KeepsRollback s (exec (.fwUpdateBegin f) s)) ∧ (∀ f, KeepsRollback s (exec (.fwUpdatePart f) s)) ∧
    (∀ f, KeepsRollback s (exec (.regionProfileInstall f) s)) ∧ (∀ f, KeepsRollback s (exec (.testUnlock f) s)) ∧
    KeepsRollback s (exec .fallbackTransmit s) ∧ KeepsRollback s (exec .entropyTestFailure s) ∧
    KeepsRollback s (exec .drbgReseed s) := by
  refine ⟨fun f => keepsRollback_next.2 (keyZeroise_rollback f s), fun f => keepsRollback_next.2 (command_rollback fun _ => rfl),
    fun f => keepsRollback_next.2 (command_rollback fun _ => rfl),
    fun f => keepsRollback_next.2 (command_rollback fun u => ?profile),
    fun f => keepsRollback_next.2 (command_rollback fun u => newChallenge_rollback _), ?fallback, ?entropy, ?reseed⟩
  case profile => unfold regionProfileInstallBody; simp [reclampGain_frame ..]
  case fallback =>
    show KeepsRollback s (execFallbackTransmit s)
    unfold execFallbackTransmit; refine keepsRollback_next.2 ?_; dsimp only
    (repeat' split) <;> simp [pickFallback_frame .., drbgRequest, dueUplink_frame .., reach_frame ..]
  case entropy =>
    show KeepsRollback s (execEntropyTestFailure s)
    unfold execEntropyTestFailure; simp [beginStop_frame ..]
  case reseed =>
    show KeepsRollback s (execDrbgReseed s)
    unfold execDrbgReseed; simp

/-- Every command but FW_UPDATE_COMMIT leaves the rollback counter (R496). -/
theorem exec_keepsRollback {c : Instr} (h : ∀ f, c ≠ .fwUpdateCommit f) (s : State) : KeepsRollback s (exec c s) := by
  obtain ⟨por, porRelease, nresetRelease, nreset, clock, held, rail, again, test⟩ := resets_keepRollback s
  obtain ⟨wake, twoWire, alarm, done, written, down, update, zeroise, regs⟩ := modes_keepRollback s
  obtain ⟨keys, begins, part, profile, unlock, fallback, entropy, reseed⟩ := mortise_keepsRollback s
  cases c with
  | fwUpdateCommit f => exact absurd rfl (h f)
  | powerOnReset => exact por
  | porRelease b => exact porRelease b
  | nresetRelease b => exact nresetRelease b
  | nresetAccepted w => exact nreset w
  | islandClockGood i => exact clock i
  | islandHeld i => exact held i
  | railGood r => exact rail r
  | sequenceRepeat b => exact again b
  | selfTestRerun p b => exact test p b
  | wakeHigh us => exact wake us
  | twoWireWake => exact twoWire
  | aonAlarm => exact alarm
  | modeTransitionDone => exact done
  | recordWriteDone => exact written
  | controlPowerDown => exact down
  | updateKeyUpdate g => exact update g
  | updateKeyZeroise g => exact zeroise g
  | compatRegWrite off bs => exact regs off bs
  | setMode f => exact keepsRollback_next.2 (setMode_rollback f s)
  | keyZeroise f => exact keys f
  | fwUpdateBegin f => exact begins f
  | fwUpdatePart f => exact part f
  | regionProfileInstall f => exact profile f
  | testUnlock f => exact unlock f
  | fallbackTransmit => exact fallback
  | entropyTestFailure => exact entropy
  | drbgReseed => exact reseed
  | _ => exact fun t e => congrArg MortiseS.rollback (exec_changes _ s t e .sec (by simp [touches]))

/-- FW_UPDATE_COMMIT validates an image, or raises the counter to a maximum (R496, R497). -/
theorem fwUpdateCommitBody_rollback (f : CmdFrame) (s : State) : s.sec.rollback ≤ (fwUpdateCommitBody f s).1.sec.rollback := by
  unfold fwUpdateCommitBody
  dsimp only
  split
  · refine le_of_eq ?_
    unfold commitImage drawNat
    dsimp only
    (repeat' split) <;> rfl
  · exact le_max_left _ _

theorem fwUpdateCommit_rollback {f : CmdFrame} {s t : State} (h : exec (.fwUpdateCommit f) s = .next t) :
    s.sec.rollback ≤ t.sec.rollback := by
  injection h with e
  rw [← e]
  obtain e | ⟨u, hu, e⟩ := command_sec_body 0x0D04 f (fwUpdateCommitChecks f) (fwUpdateCommitBody f) s
  · rw [e]
  · rw [e, ← hu]
    exact fwUpdateCommitBody_rollback f u

/-- Settles O49: a step is a clock cycle, FW_UPDATE_COMMIT, or another command, and only the second can raise the counter. -/
theorem theRollbackCounterNeverFalls : Obligations.TheRollbackCounterNeverFalls := by
  intro s t h
  unfold step at h
  split at h
  case h_1 =>
    cases h
    have e : (idleCycle s).sec = s.sec := by simp [idleCycle_frame ..]
    exact ⟨by rw [e], fun k => absurd k (by rw [e]; exact lt_irrefl _)⟩
  case h_2 c rest hq =>
    by_cases commits : ∃ f, c = .fwUpdateCommit f
    · obtain ⟨f, rfl⟩ := commits
      exact ⟨fwUpdateCommit_rollback (s := { s with pending := rest }) h, fun _ => ⟨f, rest, hq⟩⟩
    · have e := exec_keepsRollback (fun f hf => commits ⟨f, hf⟩) _ t h
      exact ⟨le_of_eq e.symm, fun k => absurd k (by rw [e]; exact lt_irrefl _)⟩

end Sys2Proof.Machine
end

section
/-!
PROOF. Staging a plan, and the commit of the active plan as it stands (O22).
-/

namespace Sys2Proof.Machine

/-- With no shut-down running, a volatile commit of the active plan advances the sequence, empties the stage and touches no object (R344,
R346, R350, R351). -/
def CommittedAsItStands (s t : State) : Prop :=
  t.plan = { s.plan with seq := s.plan.seq + 1, staged := none, parts := [], volatile := true, committing := none, starting := false } ∧
  t.head.deferred = s.head.deferred.filter (fun x => x.key != .commit) ∧
  t.prog = s.prog ∧ t.front = s.front ∧ t.mix = s.mix ∧ t.set = s.set ∧ t.store = s.store

/-- Where nothing starts and no plan record waits to be written, who waits for a commit is answered (R350 step 8). -/
theorem commitProgress_releases {s : State} (hs : s.plan.starting = false)
    (hq : s.store.queue.any (fun j => j.kind == .plan) = false) : commitProgress s = release .commit plainReply s := by
  unfold commitProgress
  simp [hs, hq]

/-- The state that a volatile commit of the plan as it stands leaves in IDLE, before its response is sent (R350). -/
def planAdvanced (d : Deferred) (s : State) : State :=
  deferOn .commit { d with clamped := false, payload := leBytes 2 0 ++ zeros 2 } { s with plan := { s.plan with
    seq := s.plan.seq + 1, staged := none, parts := [], volatile := true, committing := none, starting := false } }

theorem applyCommit_idle {d : Deferred} {b : List Byte} {s : State} (hm : s.set.mode = .idle)
    (hq : s.store.queue.any (fun j => j.kind == .plan) = false) :
    applyCommit { resp := some d, bytes := b, asStands := true, keep := true } s =
      release .commit plainReply (planAdvanced d s) := by
  rw [← commitProgress_releases (s := planAdvanced d s) rfl hq]
  have still : (s.set.mode == .serve || s.set.mode == .sentry) = false := by rw [hm]; rfl
  unfold applyCommit
  simp [still, bumpPlan, deferOn, planAdvanced]

theorem planCommitBody_idle {f : CmdFrame} {s : State} (hn : field f.payload 4 2 = 0)
    (hk : (field f.payload 2 1).testBit 0 = true) (hm : s.set.mode = .idle) (hr : anyRemoving s = false)
    (hq : s.store.queue.any (fun j => j.kind == .plan) = false) : (planCommitBody f s).1 =
      release .commit plainReply (release .commit plainReply (planAdvanced (deferredOf 0x0E02 f false) s)) := by
  have settled : ∀ c, anyRemoving { s with plan := { s.plan with committing := c } } = false := fun _ => hr
  unfold planCommitBody commitContinue
  simp only [hn, hk, if_true, decide_true]
  rw [settled, if_neg (by simp), applyCommit_idle (by exact hm) (by exact hq), commitProgress_releases (by simp [planAdvanced]) (by simpa [planAdvanced] using hq)]
  rfl

theorem planCommitBody_asItStands {f : CmdFrame} {s : State} (hn : field f.payload 4 2 = 0)
    (hk : (field f.payload 2 1).testBit 0 = true) (hm : s.set.mode = .idle) (hr : anyRemoving s = false)
    (hq : s.store.queue.any (fun j => j.kind == .plan) = false) : CommittedAsItStands s (planCommitBody f s).1 := by
  rw [planCommitBody_idle hn hk hm hr hq]
  refine ⟨by simp [planAdvanced], ?_, by simp [planAdvanced], by simp [planAdvanced], by simp [planAdvanced],
    by simp [planAdvanced], by simp [planAdvanced]⟩
  rw [release_head, release_head]
  simp [planAdvanced, List.filter_filter]

/-- Settles O22: the staging commands by their bodies, the commit by the answers it releases on the plan it advances. -/
theorem plansAreStagedAndCommitted : Obligations.PlansAreStagedAndCommitted := by
  unfold Obligations.PlansAreStagedAndCommitted
  refine ⟨fun f s hl h => ?begin, fun f s hl h => ?part, fun f s hl h => ?discard, fun f s hl h hn hk hm hr _ hq => ?commit⟩
  case begin =>
    exact changes_direct h hl (fun t u k ht => by unfold PortOut at k; rw [k, ht]) (fun p o b x hr => ⟨rfl, hr, rfl⟩)
  case part =>
    exact changes_direct h hl (fun t u k ht => by unfold PortOut at k; rw [k, ht]) (fun p o b x hr => ⟨rfl, hr, rfl⟩)
  case discard =>
    exact changes_direct h hl (fun t u k ht => by unfold PortOut at k; rw [k, ht]) (fun p o b x hr => ⟨rfl, hr, rfl⟩)
  case commit =>
    refine defers_accepted h (P := CommittedAsItStands s) (fun t u k ht => ?_) (fun u hu _ => ?_)
    · unfold PortOut at k; rw [k]; exact ht
    · unfold ReadsOnly at hu
      rw [hu]
      exact planCommitBody_asItStands (s := { s with port := u.port, out := u.out, bus := u.bus
                                                     head := { s.head with blocked := u.head.blocked } }) hn hk hm hr hq

end Sys2Proof.Machine
end

section
/-!
PROOF. LINK_SEND, LINK_STOP and LINK_CONFIG (O7).
-/

namespace Sys2Proof.Machine

/-! ### LINK_SEND (R462) -/

/-- A frame taken for sending has the counter as it stood, which advances by one up to its last value (R462, R478). -/
theorem takeCounter_parts (s : State) : (takeCounter s).1 = s.link.counter ∧
    (takeCounter s).2.link.counter = min (s.link.counter + 1) 0xFFFFFFFF ∧ (takeCounter s).2.link.queue = s.link.queue ∧
    (takeCounter s).2 = { s with link := (takeCounter s).2.link, store := (takeCounter s).2.store } := by
  refine ⟨?_, ?_, ?_, by apply state_ext <;> simp [takeCounter_frame ..]⟩ <;>
    (unfold takeCounter; dsimp only; split <;> simp [writeCounters_frame ..])

/-- LINK_SEND replies the counter of the frame, which joins the queue (R462). -/
theorem linkSendBody_parts (f : CmdFrame) (s : State) :
    (linkSendBody f s).2 = some {
      target := f.target
      clamped := s.set.link.role = 2 && clampNat 1 262143 (field f.payload 0 4) != field f.payload 0 4
      payload := leBytes 4 s.link.counter } ∧
    (linkSendBody f s).1.link.queue = s.link.queue ++ [{
      counter := s.link.counter, payload := f.payload.drop 8
      dest := if s.set.link.role = 2 then clampNat 1 262143 (field f.payload 0 4) else 0 }] ∧
    (linkSendBody f s).1.link.counter = min (s.link.counter + 1) 0xFFFFFFFF ∧
    (linkSendBody f s).1 = { s with link := (linkSendBody f s).1.link, store := (linkSendBody f s).1.store } := by
  obtain ⟨taken, counter, queue, only⟩ := takeCounter_parts s
  have set : (takeCounter s).2.set = s.set := by simp [takeCounter_frame ..]
  unfold linkSendBody enqueueTx
  dsimp only
  rw [taken, queue, set]
  refine ⟨rfl, rfl, counter, ?_⟩
  conv_lhs => rw [only]

/-! ### LINK_STOP and the stop of a link on air (R336, R406, R433) -/

/-- A link that stops with a frame on the air: receptions and queued frames go, and the stop waits for the frame's end (R433). -/
theorem beginStop_onAir {cause : Option Nat} {s : State} (ha : s.link.air.isSome = true) : beginStop cause s =
    dropAllTx 3 cause { s with link := { s.link with rx := [], heldTx := none, stopping := true } } := by
  unfold beginStop
  simp [ha]

theorem linkStopBody_stopped {f : CmdFrame} {s : State} (h : (s.link.stopped || s.link.stopping) = true) :
    linkStopBody f s = (s, some (okReply f [])) := by
  unfold linkStopBody
  rw [if_pos h]
  rfl

theorem linkStopBody_onAir {f : CmdFrame} {s : State} (h : s.link.stopped = false) (k : s.link.stopping = false)
    (ha : s.link.air.isSome = true) : linkStopBody f s = (dropAllTx 3 (some f.tag)
      { s with link := { s.link with stopped := true, rx := [], heldTx := none, stopping := true } }, some (okReply f [])) := by
  unfold linkStopBody
  rw [if_neg (by simp [h, k]), beginStop_onAir (by exact ha)]
  rfl

/-! ### LINK_CONFIG (R405, R406) -/

/-- What LINK_CONFIG leaves that does not change the identity: the clamped settings in force, to be written, and the counters of a link
that keeps its role (R405, R406, R477). -/
def LinkConfigured (c : LinkConfig) (s t : State) : Prop :=
  t.set = { s.set with link := c } ∧ t.store.dirtyLast = some (now s) ∧ (s.set.link.role = c.role → t.stats.c = s.stats.c) ∧
  t.prog = s.prog ∧ t.front = s.front ∧ t.plan = s.plan ∧ t.sec = s.sec ∧ t.time = s.time

theorem linkConfigBody_inForce {f : CmdFrame} {s : State} (h : identityChange s.set.link (clampLink s (rawLink f.payload)) = false) :
    (linkConfigBody f false s).2 = some {
      target := f.target, clamped := appliedLink s (clampLink s (rawLink f.payload)) != rawLink f.payload } ∧
    LinkConfigured (clampLink s (rawLink f.payload)) s (linkConfigBody f false s).1 := by
  unfold linkConfigBody LinkConfigured
  simp only [h, Bool.false_and, Bool.false_eq_true, if_false]
  refine ⟨trivial, ?_, ?_, fun role => ?_, ?_, ?_, ?_, ?_, ?_⟩
  · simp
  · simp [now]
  · simp [role]
  all_goals simp

/-- What LINK_CONFIG leaves that changes the identity of a link on air: the settings wait for the stop, and so does the response (R406). -/
def LinkStopsFirst (f : CmdFrame) (c : LinkConfig) (clamped : Bool) (s t : State) : Prop :=
  t.set = s.set ∧ t.link = { s.link with newConfig := some c, stopping := true, rx := [], heldTx := none, queue := [] } ∧
  t.head.deferred = s.head.deferred ++ [{ key := .linkStop, resp := { deferredOf 0x0C00 f false with clamped := clamped } }]

theorem linkConfigBody_stopsFirst {f : CmdFrame} {s : State}
    (h : identityChange s.set.link (clampLink s (rawLink f.payload)) = true) (hr : s.set.link.role ≠ 0)
    (hs : s.link.stopped = false) (ha : s.link.air.isSome = true) : LinkStopsFirst f (clampLink s (rawLink f.payload))
      (appliedLink s (clampLink s (rawLink f.payload)) != rawLink f.payload) s (linkConfigBody f false s).1 := by
  unfold linkConfigBody LinkStopsFirst
  dsimp only
  rw [if_pos (by simp [h, hr, hs]), beginStop_onAir (by exact ha), if_pos (by simp)]
  refine ⟨by simp [dropAllTx_frame ..], by simp, by simp [dropAllTx_frame ..]⟩

/-- Settles O7: each command by what its body leaves on the state in which its frame is taken. -/
theorem linkCommandsQueueStopAndConfigure : Obligations.LinkCommandsQueueStopAndConfigure := by
  unfold Obligations.LinkCommandsQueueStopAndConfigure
  refine ⟨fun f s hl h => ?send, fun f s hl h hs hk ha => ?stops, fun f s hl h hs => ?still, fun f s hl h hi => ?config,
    fun f s h hi hr hs ha => ?identity⟩
  case send =>
    refine changes_direct h hl (fun t u k ht => ?_) (fun p o b x hr => ?_)
    · obtain ⟨queue, counter, only⟩ := ht
      unfold PortOut at k
      rw [k]
      exact ⟨queue, counter, by rw [only]⟩
    · obtain ⟨reply, queue, counter, only⟩ := linkSendBody_parts f
        { s with port := p, out := o, bus := b, head := { s.head with blocked := x } }
      exact ⟨reply, by rw [only]; exact hr, queue, counter, by rw [only]⟩
  case stops =>
    refine changes_direct h hl (fun t u k ht => ?_) (fun p o b x hr => ?_)
    · unfold PortOut at k; rw [k]; exact ht
    · rw [linkStopBody_onAir (s := { s with port := p, out := o, bus := b, head := { s.head with blocked := x } }) hs hk ha]
      refine ⟨rfl, by simpa [dropAllTx_frame ..] using hr, by simp, ?_⟩
      simp [dropAllTx_frame ..]
  case still =>
    refine reads_accepted h hl fun u hu => linkStopBody_stopped ?_
    rw [hu.same State.link fun _ _ _ _ => rfl]
    exact hs
  case config =>
    refine changes_direct h hl (P := LinkConfigured (clampLink s (rawLink f.payload)) s) (fun t u k ht => ?_) (fun p o b x hr => ?_)
    · unfold PortOut at k; rw [k]; exact ht
    · obtain ⟨reply, left⟩ := linkConfigBody_inForce (f := f)
        (s := { s with port := p, out := o, bus := b, head := { s.head with blocked := x } }) hi
      exact ⟨reply, by simpa [linkConfigBody_frame ..] using hr, left⟩
  case identity =>
    refine defers_accepted h (P := LinkStopsFirst f (clampLink s (rawLink f.payload))
      (appliedLink s (clampLink s (rawLink f.payload)) != rawLink f.payload) s) (fun t u k ht => ?_) (fun u hu _ => ?_)
    · unfold PortOut at k; rw [k]; exact ht
    · unfold ReadsOnly at hu
      rw [hu]
      exact linkConfigBody_stopsFirst (s := { s with port := u.port, out := u.out, bus := u.bus
                                                     head := { s.head with blocked := u.head.blocked } }) hi hr hs ha

end Sys2Proof.Machine
end

section
/-!
PROOF. Keys, firmware images, the regulatory profile, TEST unlock, and the Mortise's error state (O36).
-/

namespace Sys2Proof.Machine

/-- What taking a frame may touch is not read by the key that KEY_INSTALL offers. -/
theorem ReadsOnly.keyOffered {s u : State} (h : ReadsOnly s u) (slot : Nat) (plain : Bool) (data : List Byte) :
    Machine.keyOffered u slot plain data = Machine.keyOffered s slot plain data :=
  h.same (Machine.keyOffered · slot plain data) fun _ _ _ _ => rfl

/-! ### Keys (R485 to R488) -/

/-- KEY_INSTALL queues the write of the key that its data gives, to both copies, and leaves the keys as they are until it ends (R485,
R487). -/
theorem keyInstallBody_queues (f : CmdFrame) (s : State) :
    (keyInstallBody f s).1.store.queue = s.store.queue ++ [{
      id := s.store.nextJob, kind := .key (satNat 2 (field f.payload 0 1)), length := (f.payload.drop 8).length, bothCopies := true
      content := .key (keyOffered s (satNat 2 (field f.payload 0 1)) (field f.payload 1 1 % 2 == 1) (f.payload.drop 8)) }] ∧
    (keyInstallBody f s).1.sec = s.sec ∧ (keyInstallBody f s).1.set = s.set ∧ (keyInstallBody f s).1.plan = s.plan := by
  unfold keyInstallBody
  dsimp only
  exact ⟨(queueWrite_queue _ _ _ _ _).1, by simp, by simp, by simp⟩

/-- KEY_ZEROISE queues a blank write of each slot it names (R488). -/
theorem keyZeroiseBody_queues {f : CmdFrame} {s : State} (h : maskSlots (field f.payload 0 1) ≠ []) :
    (keyZeroiseBody f s).1.sec = { s.sec with zeroising := s.sec.zeroising ++ maskSlots (field f.payload 0 1) } ∧
    (keyZeroiseBody f s).1.store.queue.length = s.store.queue.length + (maskSlots (field f.payload 0 1)).length ∧
    (keyZeroiseBody f s).1.set = s.set ∧ (keyZeroiseBody f s).1.plan = s.plan := by
  obtain ⟨sec, queue⟩ := beginZeroise_parts (maskSlots (field f.payload 0 1)) s
  unfold keyZeroiseBody
  dsimp only
  rw [if_neg (by simpa using h)]
  exact ⟨sec, queue, by simp [beginZeroise_frame ..], by simp [beginZeroise_frame ..]⟩

/-- KEY_ZEROISE of no slot replies and does nothing (R488). -/
theorem keyZeroiseBody_none {f : CmdFrame} (h : maskSlots (field f.payload 0 1) = []) (s : State) :
    keyZeroiseBody f s = (s, some { target := f.target }) := by
  unfold keyZeroiseBody
  rw [h]
  rfl

/-! ### Firmware images (R494 to R497) -/

/-- While an image runs, an update goes to the other slot, which is no longer valid (R497). -/
theorem fwUpdateBeginBody_running {f : CmdFrame} {s : State} (h : s.pwr.stage = .running) : fwUpdateBeginBody f s =
    ({ s with
        store := { s.store with images := modAt s.store.images (1 - s.sec.running) (fun x => { x with control := 0, magic := 0 }) }
        sec := { s.sec with fwSlot := some (1 - s.sec.running, field f.payload 0 4), fwData := [] } },
      some { target := f.target, payload := leBytes 1 (1 - s.sec.running) ++ zeros 3 }) := by
  unfold fwUpdateBeginBody
  rw [h]
  rfl

/-- What FW_UPDATE_COMMIT makes of a whole image in slot `n`: it is validated if it verifies, and stays staged if it does not (R494,
R497). -/
def ImageJudged (n len : Nat) (ok : Bool) (s t : State) : Prop :=
  t.store.images = (if ok then setAt s.store.images n (validSlot (imageBytes len s.sec.fwData) ((s.store.images.getD (1 - n) {}).install + 1))
    else s.store.images) ∧
  t.sec = (if ok then { s.sec with fwSlot := none, fwData := [] } else s.sec) ∧ t.set = s.set ∧ t.plan = s.plan

theorem commitImage_whole {f : CmdFrame} {s : State} {n len : Nat} (hslot : s.sec.fwSlot = some (n, len))
    (hwhole : imageWhole len s.sec.fwData = true) :
    (commitImage f s).2 = some (if imageOk s.sec.rollback (imageBytes len s.sec.fwData) then { target := f.target }
      else { status := 5, target := f.target, payload := failPayload { status := 5, detail := 1 } }) ∧
    (commitImage f s).1.port = s.port ∧
    ImageJudged n len (imageOk s.sec.rollback (imageBytes len s.sec.fwData)) s (commitImage f s).1 := by
  unfold commitImage ImageJudged
  rw [hslot]
  dsimp only
  rw [if_neg (by simp [hwhole])]
  by_cases ok : imageOk s.sec.rollback (imageBytes len s.sec.fwData) = true
  · simp [ok, replyWith]
  · simp [ok, failReply]

/-- Operation 1 raises the rollback counter to the index of the image that runs (R496). -/
theorem fwUpdateCommitBody_raises {f : CmdFrame} {s : State} (hop : field f.payload 0 1 = 1) (h : s.pwr.stage = .running) :
    fwUpdateCommitBody f s = ({ s with sec := { s.sec with rollback := max s.sec.rollback (runningImage s).rollback } },
      some { target := f.target }) := by
  unfold fwUpdateCommitBody
  rw [hop, h]
  rfl

/-! ### The regulatory profile (R442, R499) -/

/-- Under a profile the front-end gain is at most 20 dB above its lowest power, and no other setting changes (R442). -/
theorem reclampGain_set (p : Profile) (s : State) : (reclampGain p s).set =
    { s.set with link := { s.set.link with feGain := min s.set.link.feGain (lowestPower p + 20).toNat } } := by
  unfold reclampGain
  dsimp only
  split
  case isTrue same => rw [same]
  case isFalse => rfl

theorem reclampGain_queue (p : Profile) (s : State) : (reclampGain p s).store.queue = s.store.queue := by
  unfold reclampGain
  dsimp only
  split <;> rfl

/-- What REGION_PROFILE_INSTALL leaves: the profile in use and on its way to the store, and the gain under it (R442, R499). -/
def ProfileInstalled (p : Profile) (s t : State) : Prop :=
  t.sec = { s.sec with profile := some p } ∧ t.store.queue.length = s.store.queue.length + 1 ∧
  t.set.link.feGain = min s.set.link.feGain (lowestPower p + 20).toNat ∧ t.set.mode = s.set.mode ∧ t.plan = s.plan

theorem regionProfileInstallBody_installs (f : CmdFrame) (s : State) :
    ProfileInstalled (parseProfile f.payload) s (regionProfileInstallBody f s).1 := by
  have queue := (queueWrite_queue .profile (.profile (some (parseProfile f.payload))) f.payload.length false s).1
  unfold ProfileInstalled regionProfileInstallBody
  simp [reclampGain_frame .., reclampGain_set, reclampGain_queue, queue]

/-! ### TEST unlock (R504) -/

/-- TEST_UNLOCK unlocks when its token verifies, and draws a challenge of 16 bytes either way (R504). -/
def UnlockJudged (ok : Bool) (s t : State) : Prop :=
  t.sec.unlocked = (s.sec.unlocked || ok) ∧ t.sec.challenge.length = 16 ∧ t.sec.keys = s.sec.keys ∧ t.set = s.set ∧ t.plan = s.plan

theorem testUnlockBody_judges (f : CmdFrame) (s : State) : UnlockJudged (tokenOk s f.payload) s (testUnlockBody f s).1 := by
  unfold UnlockJudged testUnlockBody newChallenge
  simp [drawBytes, drbgRequest]

theorem testUnlockBody_reply (f : CmdFrame) (s : State) : (testUnlockBody f s).2 = some (if tokenOk s f.payload then { target := f.target }
    else { status := 5, target := f.target, payload := failPayload { status := 5, detail := 1 } }) := by
  unfold testUnlockBody
  dsimp only
  split <;> rfl

/-! ### The error state and the DRBG (R500, R503) -/

/-- A failed entropy test of a device without a link puts the Mortise in its error state, which is noted (R503). -/
theorem entropyTestFailure_noLink {s : State} (hs : s.pwr.stage = .running) (hm : s.set.mode ≠ .hold) (hr : s.set.link.role = 0) :
    exec .entropyTestFailure s = .next (note 0x0703 0xFF 0 (satNat 65535 (s.sec.entropyFails + 1)) { s with
      sec := { s.sec with state := .error, entropyFails := satNat 65535 (s.sec.entropyFails + 1) } }) := by
  show execEntropyTestFailure s = _
  unfold execEntropyTestFailure
  simp [hs, hm, hr]

/-- After 2^20 requests a reseed clears their count (R500). -/
theorem drbgReseed_clears {s : State} (h : 1048576 ≤ s.sec.requests) :
    exec .drbgReseed s = .next { s with sec := { s.sec with requests := 0 } } := by
  show execDrbgReseed s = _
  unfold execDrbgReseed
  rw [if_pos h]

/-- Settles O36: each command by what its body leaves on the state in which its frame is taken. -/
theorem theMortiseKeepsKeysAndImages : Obligations.TheMortiseKeepsKeysAndImages := by
  unfold Obligations.TheMortiseKeepsKeysAndImages
  refine ⟨fun f s k h hk => ?install, fun f s h hm => ?zeroise, fun f s hl h hm => ?zeroiseNone, fun f s hl h hs => ?begin,
    fun f s hl h => ?part, fun f s n len ok hl h hop hslot hwhole hok => ?commit, fun f s hl h hop hs => ?counter,
    fun f s hl h => ?profile, fun f s ok hl h hok => ?unlock, fun s hs hm hr => ?entropy, fun s hn => ?reseed⟩
  case install =>
    subst hk
    refine defers_accepted h (fun t u k ht => by unfold PortOut at k; rw [k]; exact ht) (fun u hu _ => ?_)
    obtain ⟨queue, sec, set, plan⟩ := keyInstallBody_queues f u
    obtain ⟨-, -, ⟨eset, estore, -⟩, ⟨esec, -⟩, -, -, -, -, eplan, -⟩ := hu.parts
    rw [hu.keyOffered, estore] at queue
    exact ⟨queue, sec.trans esec, set.trans eset, plan.trans eplan⟩
  case zeroise =>
    refine defers_accepted h (fun t u k ht => by unfold PortOut at k; rw [k]; exact ht) (fun u hu _ => ?_)
    obtain ⟨sec, queue, set, plan⟩ := keyZeroiseBody_queues (s := u) hm
    obtain ⟨-, -, ⟨eset, estore, -⟩, ⟨esec, -⟩, -, -, -, -, eplan, -⟩ := hu.parts
    rw [esec] at sec
    rw [estore] at queue
    exact ⟨sec, queue, set.trans eset, plan.trans eplan⟩
  case zeroiseNone => exact reads_accepted h hl fun u _ => keyZeroiseBody_none hm u
  case begin =>
    refine changes_direct h hl (fun t u k ht => by unfold PortOut at k; rw [k]; exact ht) (fun p o b x hr => ?_)
    rw [fwUpdateBeginBody_running (by exact hs)]
    exact ⟨rfl, hr, rfl, rfl, rfl, rfl⟩
  case part =>
    exact changes_direct h hl (fun t u k ht => by unfold PortOut at k; rw [k]; exact ht)
      (fun p o b x hr => ⟨rfl, hr, rfl, rfl, rfl, rfl⟩)
  case commit =>
    subst hok
    refine changes_direct h hl (P := ImageJudged n len (imageOk s.sec.rollback (imageBytes len s.sec.fwData)) s)
      (fun t u k ht => by unfold PortOut at k; rw [k]; exact ht) (fun p o b x hr => ?_)
    obtain ⟨reply, port, judged⟩ := commitImage_whole (f := f)
      (s := { s with port := p, out := o, bus := b, head := { s.head with blocked := x } }) hslot hwhole
    unfold fwUpdateCommitBody
    rw [if_pos hop]
    exact ⟨reply, by rw [port]; exact hr, judged⟩
  case counter =>
    refine changes_direct h hl (fun t u k ht => by unfold PortOut at k; rw [k]; exact ht) (fun p o b x hr => ?_)
    rw [fwUpdateCommitBody_raises hop (by exact hs)]
    exact ⟨rfl, hr, rfl, rfl, rfl, rfl⟩
  case profile =>
    refine changes_direct h hl (P := ProfileInstalled (parseProfile f.payload) s)
      (fun t u k ht => by unfold PortOut at k; rw [k]; exact ht) (fun p o b x hr => ⟨rfl, ?_, ?_⟩)
    · simpa [regionProfileInstallBody_frame ..] using hr
    · exact regionProfileInstallBody_installs f { s with port := p, out := o, bus := b, head := { s.head with blocked := x } }
  case unlock =>
    subst hok
    refine changes_direct h hl (P := UnlockJudged (tokenOk s f.payload) s)
      (fun t u k ht => by unfold PortOut at k; rw [k]; exact ht)
      (fun p o b x hr => ⟨testUnlockBody_reply f _, ?_, testUnlockBody_judges f _⟩)
    simpa [testUnlockBody_frame ..] using hr
  case entropy =>
    refine ⟨_, entropyTestFailure_noLink hs hm hr, ?_⟩
    simp
  case reseed => exact ⟨_, drbgReseed_clears hn, rfl⟩

end Sys2Proof.Machine
end

section
/-!
PROOF. The adaptive supply and the ageing plan (O21).
-/

namespace Sys2Proof.Machine

/-! ### The supply (R526, R530) -/

/-- A new target of the core supply is queued for it, and of the calibration state only the target changes (R526). -/
theorem setVdd_cal {v : Nat} {s : State} (h : v ≠ s.cal.vdd) : (setVdd v s).cal = { s.cal with vdd := v } := by
  unfold setVdd
  rw [if_neg h]
  simp [queueSupply_frame ..]

theorem supplySettled_passes {s : State} (h : suppliesCore s = true) :
    supplySettled s = passTo (s.bus.supplyAt + ms s.set.supply.settleMs) s := by
  unfold supplySettled
  rw [if_pos h]

/-- The margins measured once the supply has settled after its last write (R530). -/
def marginsSettled (l : List Int) (s : State) : State :=
  setMargins l (passTo (s.bus.supplyAt + ms s.set.supply.settleMs) s)

theorem marginsSettled_parts (l : List Int) (s : State) : (marginsSettled l s).cal = { s.cal with margins := l } ∧
    (marginsSettled l s).set = s.set ∧ (marginsSettled l s).bus = s.bus ∧ (marginsSettled l s).prog = s.prog ∧
    (marginsSettled l s).front = s.front ∧
    now (marginsSettled l s) = max (now s) (s.bus.supplyAt + ms s.set.supply.settleMs) := by
  refine ⟨?_, ?_, ?_, ?_, ?_, now_passTo _ s⟩ <;> simp [marginsSettled, setMargins, passTo_frame ..]

/-- A raise falls due 1 ms after the one before, and the margin is not above 12 % then (R526). -/
def raiseDue (l : List Int) (s : State) : State :=
  passTo ((marginsSettled l s).cal.raisedAt + ms 1)
    { marginsSettled l s with cal := { (marginsSettled l s).cal with above12At := none } }

theorem raiseDue_parts (l : List Int) (s : State) : (raiseDue l s).cal = { s.cal with margins := l, above12At := none } ∧
    (raiseDue l s).set = s.set ∧ (raiseDue l s).prog = s.prog ∧ (raiseDue l s).front = s.front ∧
    now (raiseDue l s) = max (max (now s) (s.bus.supplyAt + ms s.set.supply.settleMs)) (s.cal.raisedAt + ms 1) := by
  obtain ⟨cal, set, -, prog, front, clock⟩ := marginsSettled_parts l s
  refine ⟨?_, ?_, ?_, ?_, (now_passTo _ _).trans ?_⟩
  · simp [raiseDue, passTo_frame .., cal]
  · simp [raiseDue, passTo_frame .., set]
  · simp [raiseDue, passTo_frame .., prog]
  · simp [raiseDue, passTo_frame .., front]
  · rw [← clock, cal]; rfl

theorem avsRaise_raises {l : List Int} {s : State} (hl : l.length = 17) (hw : (worstMargin l).2 < 80)
    (hs : suppliesCore s = true) : exec (.avsRaise l) s = .next (setVdd (min (ceiling s) (s.cal.vdd + 5))
      { raiseDue l s with cal := { (raiseDue l s).cal with raisedAt := now (raiseDue l s) } }) := by
  obtain ⟨-, set, bus, -⟩ := marginsSettled_parts l s
  obtain ⟨cal, eset, -⟩ := raiseDue_parts l s
  have limit : min (ceiling (raiseDue l s)) ((raiseDue l s).cal.vdd + 5) = min (ceiling s) (s.cal.vdd + 5) := by
    simp [ceiling, cal, eset]
  show execAvsRaise l s = _
  unfold execAvsRaise
  rw [within_next (by simp [hl]), supplySettled_passes hs, ← marginsSettled, ← limit]
  dsimp only
  rw [if_pos hw, if_pos (by simpa [suppliesCore, set, bus] using hs)]
  rfl

/-- A margin above 12 % has lasted 10 s, counted from when the margin rose above it (R526). -/
def lowerDue (l : List Int) (s : State) : State :=
  passTo (s.cal.above12At.getD (now (marginsSettled l s)) + 10 * ticksPerSecond) (marginsSettled l s)

theorem lowerDue_parts (l : List Int) (s : State) : (lowerDue l s).cal = { s.cal with margins := l } ∧
    (lowerDue l s).set = s.set ∧ (lowerDue l s).bus = s.bus ∧ (lowerDue l s).prog = s.prog ∧ (lowerDue l s).front = s.front ∧
    now (lowerDue l s) = max (now (marginsSettled l s))
      (s.cal.above12At.getD (now (marginsSettled l s)) + 10 * ticksPerSecond) := by
  obtain ⟨cal, set, bus, prog, front, -⟩ := marginsSettled_parts l s
  refine ⟨?_, ?_, ?_, ?_, ?_, now_passTo _ _⟩ <;> simp [lowerDue, passTo_frame .., cal, set, bus, prog, front]

theorem avsLower_lowers {l : List Int} {s : State} (hl : l.length = 17) (hw : 120 < (worstMargin l).2)
    (hs : suppliesCore s = true) (hb : s.bus.supplyStopped = false) (hf : avsFloor s ≤ s.cal.vdd - 5) :
    exec (.avsLower l) s = .next (setVdd (s.cal.vdd - 5)
      { lowerDue l s with cal := { (lowerDue l s).cal with above12At := some (now (lowerDue l s)) } }) := by
  obtain ⟨mcal, -⟩ := marginsSettled_parts l s
  obtain ⟨cal, set, bus, -⟩ := lowerDue_parts l s
  have since : (marginsSettled l s).cal.above12At = s.cal.above12At := by rw [mcal]
  have volts : (lowerDue l s).cal.vdd = s.cal.vdd := by rw [cal]
  have asks : (suppliesCore (lowerDue l s) && !(lowerDue l s).bus.supplyStopped &&
      avsFloor (lowerDue l s) ≤ (lowerDue l s).cal.vdd - 5) = true := by
    simp only [suppliesCore, avsFloor] at hs hf
    simp [suppliesCore, avsFloor, cal, set, bus, hs, hb, hf]
  show execAvsLower l s = _
  unfold execAvsLower
  rw [within_next (by simp [hl]), supplySettled_passes hs, ← marginsSettled, ← volts]
  dsimp only
  rw [if_pos hw, since]
  exact congrArg _ (if_pos asks)

/-! ### The ageing plan (R527, R528) -/

/-- What an assessment makes of the record: the worse degradation of each island, and the floor, step limit and clock plan of its row
(R527, R528). -/
def assessed (m : GrainMeas) (s : State) : CalRecord :=
  let deg := (s.cal.record.degradation.zip m.degradation).map (fun x => max x.1 x.2)
  let row := ageingRow (deg.foldl max 0)
  { s.cal.record with
    degradation := deg, avsFloor := max s.cal.record.avsFloor row.1, dtLimit := min s.cal.record.dtLimit row.2
    reduced := s.cal.record.reduced || decide (ceiling s < m.needMv) }

theorem assessmentDue_parts (s : State) : (assessmentDue s).cal.record = s.cal.record ∧ ceiling (assessmentDue s) = ceiling s := by
  unfold assessmentDue
  split <;> simp [ceiling, pass_frame ..]

theorem grainAssessment_record {m : GrainMeas} {s : State} (hm : m.degradation.length = 17) (hr : s.head.restarting = false)
    (hh : s.set.mode ≠ .hold) : ∃ t, exec (.grainAssessment m) s = .next t ∧ t.cal.record = assessed m s ∧
      t.set = s.set ∧ t.prog = s.prog ∧ t.front = s.front := by
  obtain ⟨record, limit⟩ := assessmentDue_parts s
  refine ⟨_, within_next (by simp [hm]) s _, ?_⟩
  rw [if_neg (by simp [hr, hh])]
  dsimp only
  refine ⟨?_, ?_, ?_, ?_⟩ <;>
    simp [apply_ite State.cal, apply_ite CalS.record, apply_ite State.set, apply_ite State.prog, apply_ite State.front, assessed,
      assessmentDue_frame .., calChanged_frame .., announceCapacity_frame .., setVdd_frame .., record, limit]

/-- The dividers become the reduced ones; of the calibration state nothing else changes, nor does the clock (R528). -/
theorem reduceDividers_reduces {s : State} (hr : s.cal.record.reduced = true) (hd : s.cal.dividersReduced = false) :
    (reduceDividers s).cal = { s.cal with dividersReduced := true } ∧ now (reduceDividers s) = now s := by
  unfold reduceDividers
  rw [if_pos (by simp [hr, hd])]
  simp [now, shedToLimit_frame ..]

end Sys2Proof.Machine

namespace Sys2Proof.Machine

/-- Settles O21: each step is taken when it falls due, and each of its parts is read off by its own rule. -/
theorem theAdaptiveSupplyFollowsAgeing : Obligations.TheAdaptiveSupplyFollowsAgeing := by
  refine ⟨fun s l hl hw hs hv => ?raise, fun s l n hn hl hw hs hb hf hv => ?lower, fun s m hm hr hh => ?assess,
    fun s hr hd hm => ?atOnce, fun s hr hd hi hh => ?later⟩
  case raise =>
    obtain ⟨cal, set, prog, front, clock⟩ := raiseDue_parts l s
    refine ⟨_, avsRaise_raises hl hw hs, ?_, ?_, ?_, ?_, ?_⟩
    · simpa [now, setVdd_frame ..] using clock
    · rw [setVdd_cal (by simpa [cal] using hv)]
      simp [now, setVdd_frame .., cal]
    · simpa [setVdd_frame ..] using set
    · simpa [setVdd_frame ..] using prog
    · simpa [setVdd_frame ..] using front
  case lower =>
    obtain ⟨cal, set, -, prog, front, clock⟩ := lowerDue_parts l s
    obtain ⟨-, -, -, -, -, settled⟩ := marginsSettled_parts l s
    rw [settled, ← hn] at clock
    refine ⟨_, avsLower_lowers hl hw hs hb hf, ?_, ?_, ?_, ?_, ?_⟩
    · simpa [now, setVdd_frame ..] using clock
    · rw [setVdd_cal (by simp [cal]; omega)]
      simp [now, setVdd_frame .., cal]
    · simpa [setVdd_frame ..] using set
    · simpa [setVdd_frame ..] using prog
    · simpa [setVdd_frame ..] using front
  case assess => exact grainAssessment_record hm hr hh
  case atOnce =>
    refine ⟨_, congrArg Host.Outcome.next ((if_pos (by simp [hr, hd])).trans
      (congrArg reduceDividers (if_pos (by simpa using hm)))), ?_⟩
    exact (reduceDividers_reduces hr hd).1
  case later =>
    obtain ⟨cal, clock⟩ := reduceDividers_reduces (s := passTo (s.cal.reducedAt.getD (now s) + 604800 * ticksPerSecond) s)
      (by simpa [passTo_frame ..] using hr) (by simpa [passTo_frame ..] using hd)
    refine ⟨_, congrArg Host.Outcome.next ((if_pos (by simp [hr, hd])).trans
      (congrArg reduceDividers (if_neg (by simp [hi, hh])))), clock.trans (now_passTo _ s), ?_⟩
    simpa [passTo_frame ..] using cal

end Sys2Proof.Machine
end

section
/-!
PROOF. The two-wire controller (O18).
-/

namespace Sys2Proof.Machine

/-! ### BUS_XFER (R399, R400) -/

/-- After the first command, what taking a frame leaves is known but for the port, the trace and the blocked flag (R83). -/
theorem consume_keeps {s : State} (h : s.bus.firstCommand = true) (op : Nat) (f : CmdFrame) : consume op f s =
    { s with port := (consume op f s).port, out := (consume op f s).out,
             head := { s.head with blocked := (consume op f s).head.blocked } } := by
  have reads : consume op f s = _ := consume_readsOnly op f s
  rw [consume_bus h] at reads
  exact reads

/-- The transfer that a BUS_XFER frame asks for (R399). -/
def askedXfer (f : CmdFrame) : XferKind :=
  .user (satNat 3 (field f.payload 0 1)) (clampNat 0x08 0x77 (field f.payload 1 1)) (satNat 2 (field f.payload 2 1))
    (f.payload.drop 8) (if satNat 3 (field f.payload 0 1) = 0 then 0 else satNat 256 (field f.payload 6 2))

theorem busXferBody_queues {f : CmdFrame} {s : State} (ho : satNat 3 (field f.payload 0 1) ≠ 3) (hs : s.bus.stuck = false) :
    (busXferBody f s).2 = none ∧ ∃ d, d.tag = f.tag ∧ d.port = f.port ∧
      (busXferBody f s).1 = deferOn (.transfer s.bus.next) d (queueXfer (askedXfer f) s) := by
  unfold busXferBody askedXfer
  simp only [ho, hs, if_false, decide_false, Bool.or_false, decide_eq_true_eq, Bool.false_eq_true, true_and]
  exact ⟨_, rfl, rfl, rfl⟩

theorem busXferBody_stuck {f : CmdFrame} {s : State} (ho : satNat 3 (field f.payload 0 1) = 0) (hs : s.bus.stuck = true) :
    busXferBody f s = (s, some { target := f.target, payload := xferPayload { result := 5 }
                                 clamped := 3 < field f.payload 0 1 || clampNat 0x08 0x77 (field f.payload 1 1) != field f.payload 1 1 ||
                                   2 < field f.payload 2 1 || field f.payload 6 2 != 0 }) := by
  unfold busXferBody
  simp [ho, hs, bne_comm (a := (0 : Nat))]

/-- The settings that a BUS_XFER of operation 3 asks for (R397). -/
def attentionAsked (f : CmdFrame) (s : State) : Settings :=
  { s.set with attnAddr := some (if field f.payload 8 1 = 0 then 0 else clampNat 0x08 0x77 (field f.payload 8 1))
               attnSpeed := satNat 2 (field f.payload 9 1) }

theorem busXferBody_attention {f : CmdFrame} {s : State} (ho : satNat 3 (field f.payload 0 1) = 3)
    (hn : field f.payload 4 2 = 4) : (busXferBody f s).1 = setSettings (attentionAsked f s) s := by
  unfold busXferBody attentionAsked
  simp [ho, hn]

/-! ### The bus (R395, R400, R403) -/

/-- A transfer sent leaves a trace on the bus, and no more. -/
theorem sendXfer_out (x : Xfer) (s : State) : sendXfer x s = { s with out := (sendXfer x s).out } := by
  unfold sendXfer
  (repeat' split) <;> rfl

theorem startBus_starts {s : State} {x : Xfer} (ha : s.bus.active = none) (hs : s.bus.stuck = false) (hx : nextXfer s = some x) :
    startBus s = sendXfer x { s with bus := { s.bus with active := some x.id } } := by
  unfold startBus
  rw [if_neg (by simp [ha, hs]), hx]

/-- A host's transfer that ends leaves the queue, and what waited for it is answered (R400). -/
theorem answerXfer_parts (id : Nat) (r : BusResult) (s : State) :
    (answerXfer id r s).bus = { s.bus with
      queue := s.bus.queue.filter (fun x => x.id != id), active := if s.bus.active = some id then none else s.bus.active } ∧
    (answerXfer id r s).head.deferred = s.head.deferred.filter (fun x => x.key != .transfer id) ∧
    now (answerXfer id r s) = now s := by
  unfold answerXfer
  refine ⟨?_, ?_, ?_⟩
  · simp [dropXfer]
  · simp [dropXfer_frame .., release_head]
  · simp [now, dropXfer_frame ..]

theorem controllerTransferEnd_active {r : BusResult} {s : State} {x : Xfer} (hr : r.result < 7) (ha : s.bus.active = some x.id)
    (hx : s.bus.queue.find? (fun y => y.id = x.id) = some x) : exec (.controllerTransferEnd r) s = .next (xferEnds x r s) := by
  show execControllerTransferEnd r s = _
  unfold execControllerTransferEnd
  rw [within_next (by simp [hr]), ha, Option.bind_some, hx]

/-- An attention message due at a time is queued then and sent at once on a free bus (R398). -/
theorem attention_resent {s : State} (due : Nat) (ha : (attention s).isSome = true) (hq : s.bus.queue = []) (hb : s.bus.active = none)
    (hs : s.bus.stuck = false) : (sendAttention (passTo due s)).bus.queue =
      [{ id := s.bus.next, kind := .attention, queuedAt := now (sendAttention (passTo due s)) }] ∧
    now (sendAttention (passTo due s)) = max (now s) due ∧ (sendAttention (passTo due s)).bus.active = some s.bus.next := by
  have sent := sendAttention_sends (s := passTo due s) (by simpa [attention, hostConfig, passTo_frame ..] using ha)
    (by simpa [passTo_frame ..] using hq) (by simpa [passTo_frame ..] using hb) (by simpa [passTo_frame ..] using hs)
  have clock : now (sendAttention (passTo due s)) = now (passTo due s) := by simp [now, sendAttention_frame ..]
  rw [sent, clock]
  exact ⟨by simp [passTo_frame ..], now_passTo _ _, by simp [passTo_frame ..]⟩

theorem attentionRetry_resends {s : State} {t : Nat} (ht : s.bus.attnAt = some t) (hk : s.bus.attnAcked = false) (hm : ringMask s ≠ 0) :
    exec .attentionRetry s = .next (sendAttention (passTo (t + ms 1) s)) := by
  show execAttentionRetry s = _
  unfold execAttentionRetry
  simp only [ht]
  rw [if_pos (by simpa [hk] using hm)]

theorem attentionRepeat_resends {s : State} {t : Nat} (ht : s.bus.attnAt = some t) (hk : s.bus.attnAcked = true) (hm : ringMask s ≠ 0) :
    exec .attentionRepeat s = .next (sendAttention (passTo (t + ms 100) s)) := by
  show execAttentionRepeat s = _
  unfold execAttentionRepeat
  simp only [ht]
  rw [if_pos (by simpa [hk] using hm)]

/-- The only transfer waits 100 ms and ends with result 6 (R395). -/
theorem busNotFreeTimeout_alone {s : State} {x : Xfer} {op a sp rd : Nat} {wr : List Byte} (hq : s.bus.queue = [x])
    (ha : s.bus.active = none) (hk : x.kind = .user op a sp wr rd) :
    exec .busNotFreeTimeout s = .next (answerXfer x.id { result := 6 } (passTo (x.queuedAt + ms 100) s)) := by
  show execBusNotFreeTimeout s = _
  unfold execBusNotFreeTimeout
  simp [hq, ha, hk]

/-- An acknowledged supply write leaves the queue and clears the count of failures (R396). -/
theorem supplyWrite_acknowledged {x : Xfer} {r : BusResult} {s : State} {n : Int} (hr : r.result = 0)
    (hx : s.bus.queue.find? (fun y => y.kind == .supply) = some x) (ha : s.bus.active = some x.id) (hk : x.kind = .supply)
    (hn : s.bus.voutExp = some n) : exec (.supplyWrite r) s = .next { s with bus := { s.bus with
      supplyAt := now s, supplyFails := 0, supplyStopped := false, queue := s.bus.queue.filter (fun y => y.id != x.id), active := none } } := by
  show execSupplyWrite r s = _
  unfold execSupplyWrite
  rw [within_next (by simp [hr])]
  simp [hx, ha, xferEnds, hk, supplyEnds, dropXfer, hr, hn, now]

/-- With nothing queued, a supply that stopped answering is written again a second after its last write (R396). -/
theorem supplyWriteRetry_queues {s : State} (hs : s.bus.supplyStopped = true) (ho : s.set.supply.output = 1)
    (hc : s.bus.firstCommand = true) (hq : s.bus.queue = []) :
    exec .supplyWriteRetry s = .next (queueXfer .supply (passTo (s.bus.supplyAt + ticksPerSecond) s)) := by
  show execSupplyWriteRetry s = _
  unfold execSupplyWriteRetry queueSupply
  simp [hs, passTo_frame .., ho, hc, hq]

end Sys2Proof.Machine

namespace Sys2Proof.Machine

/-- Settles O18: what each command and event leaves is read off by the rule of its own, once its guard is known to hold. -/
theorem theTwoWireControllerWorksItsQueue : Obligations.TheTwoWireControllerWorksItsQueue := by
  refine ⟨fun f s h ho hs hc => ?queued, fun f s hl h ho hs hc => ?stuck, fun f s hl h ho hn => ?attention,
    fun s x ha hs hx => ?free, fun s r x op a sp wr rd hr ha hx hk => ?ends, fun s r x op a sp wr rd hr ht ha hx hk => ?again,
    fun s x op a sp wr rd hq ha hk => ?late, fun s hm ha hq hb hs => ?message, fun s t0 ht hk hm ha hq hb hs => ?retry,
    fun s t0 ht hk hm ha hq hb hs => ?repeats, fun s r x n hr hx ha hk hn => ?supply, fun s hs ho hc hq => ?supplyAgain,
    fun s n hs => ?recovery⟩
  case queued =>
    have keeps := consume_keeps hc 0x0F00 f
    obtain ⟨silent, d, tag, port, body⟩ := busXferBody_queues (s := consume 0x0F00 f s) ho (by rw [consume_bus hc]; exact hs)
    refine ⟨_, congrArg Host.Outcome.next (deferred_accepted h silent), ?_⟩
    rw [body, keeps]
    exact ⟨rfl, ⟨d, rfl, tag, port⟩, rfl, rfl⟩
  case stuck =>
    have body := busXferBody_stuck (s := consume 0x0F00 f s) ho (by rw [consume_bus hc]; exact hs)
    refine ⟨_, rfl, last_accepted h (by rw [body]) (by rw [body]; simpa using hl), ?_⟩
    rw [command_accepted h, body]
    exact (consume_readsOnly _ _ _).trans (answered_portOut _ _ _).readsOnly
  case attention =>
    refine defers_accepted h (P := fun t => t.set = attentionAsked f s ∧ t.store.dirtyLast = some (now s) ∧
      t.head = { s.head with blocked := t.head.blocked }) (fun t u k ht => by unfold PortOut at k; rw [k]; exact ht) (fun u hu _ => ?_)
    rw [busXferBody_attention ho hn]
    unfold ReadsOnly at hu
    rw [hu]
    exact ⟨rfl, rfl, rfl⟩
  case free =>
    refine ⟨_, congrArg Host.Outcome.next (startBus_starts ha hs hx), ?_⟩
    rw [sendXfer_out]
    exact ⟨rfl, rfl⟩
  case ends =>
    refine ⟨_, controllerTransferEnd_active (by omega) ha hx, ?_⟩
    have body : xferEnds x r s = answerXfer x.id { r with read := r.read.take rd } s := by
      unfold xferEnds
      simp [hk, show r.result ≠ 3 by omega, show r.result ≠ 4 by omega, show r.result ≠ 5 by omega]
    obtain ⟨bus, deferred, -⟩ := answerXfer_parts x.id { r with read := r.read.take rd } s
    rw [body]
    exact ⟨by rw [bus, if_pos ha], deferred⟩
  case again =>
    refine (controllerTransferEnd_active (by omega) ha hx).trans (congrArg _ ?_)
    unfold xferEnds requeue
    simp [hk, hr, ht]
  case late =>
    obtain ⟨bus, deferred, clock⟩ := answerXfer_parts x.id { result := 6 } (passTo (x.queuedAt + ms 100) s)
    refine ⟨_, busNotFreeTimeout_alone hq ha hk, ?_, clock.trans (now_passTo _ _), ?_⟩
    · simp [bus, passTo_frame .., hq]
    · simpa [passTo_frame ..] using deferred
  case message =>
    have sent := sendAttention_sends (s := { s with bus := { s.bus with attnMask := ringMask s } }) ha hq hb hs
    refine ⟨_, congrArg Host.Outcome.next (if_pos hm), ?_⟩
    dsimp only
    rw [sent]
    exact ⟨rfl, rfl, rfl⟩
  case retry => exact ⟨_, attentionRetry_resends ht hk hm, attention_resent _ ha hq hb hs⟩
  case repeats => exact ⟨_, attentionRepeat_resends ht hk hm, attention_resent _ ha hq hb hs⟩
  case supply => exact ⟨_, supplyWrite_acknowledged hr hx ha hk hn, rfl, rfl⟩
  case supplyAgain =>
    refine ⟨_, supplyWriteRetry_queues hs ho hc hq, ?_, ?_⟩
    · exact now_passTo _ s
    · simp [queueXfer, passTo_frame .., hq, now]
  case recovery =>
    refine ⟨_, congrArg Host.Outcome.next (if_pos hs), ?_, now_passTo _ s⟩
    simp [passTo_frame .., now]

end Sys2Proof.Machine
end

section
/-!
PROOF. Jig's calibrations (O20).
-/

namespace Sys2Proof.Machine

/-! ### The hottest island (R302) -/

/-- The later of two readings replaces the earlier one only where it is higher (R302). -/
def hotter (a x : Int × Nat) : Int × Nat := if a.1 < x.1 then x else a

theorem foldl_hotter (l : List Int) (k : Nat) (a : Int × Nat) :
    a.1 ≤ ((l.zipIdx k).foldl hotter a).1 ∧ (∀ x ∈ l, x ≤ ((l.zipIdx k).foldl hotter a).1) ∧
    ((l.zipIdx k).foldl hotter a = a ∨ k ≤ ((l.zipIdx k).foldl hotter a).2 ∧
      l[((l.zipIdx k).foldl hotter a).2 - k]? = some ((l.zipIdx k).foldl hotter a).1) := by
  induction l generalizing k a with
  | nil => simp
  | cons y l ih =>
    obtain ⟨above, rest, place⟩ := ih (k + 1) (hotter a (y, k))
    have step : a.1 ≤ (hotter a (y, k)).1 ∧ y ≤ (hotter a (y, k)).1 := by unfold hotter; split <;> simp <;> omega
    rw [List.zipIdx_cons, List.foldl_cons]
    refine ⟨step.1.trans above, ?_, ?_⟩
    · simp only [List.mem_cons, forall_eq_or_imp]
      exact ⟨step.2.trans above, rest⟩
    · rcases place with same | ⟨later, value⟩
      · rw [same]
        by_cases h : a.1 < y
        · exact .inr (by simp [hotter, h])
        · exact .inl (by simp [hotter, h])
      · refine .inr ⟨by omega, ?_⟩
        rw [show ∀ n : Nat, k + 1 ≤ n → n - k = (n - (k + 1)) + 1 by omega, List.getElem?_cons_succ]
        · exact value
        · exact later

/-- The hottest island's reading is the highest of all, and that of the island named (R302). -/
theorem hottest_highest {l : List Int} (h : l ≠ []) : (∀ x ∈ l, x ≤ (hottest l).1) ∧ l[(hottest l).2]? = some (hottest l).1 := by
  obtain ⟨-, highest, place⟩ := foldl_hotter l 0 (l.headD 0, 0)
  refine ⟨highest, ?_⟩
  have fold : hottest l = l.zipIdx.foldl hotter (l.headD 0, 0) := rfl
  rw [fold]
  rcases place with none | ⟨-, value⟩
  · rw [none]
    cases l with
    | nil => exact absurd rfl h
    | cons x l => rfl
  · exact value

/-! ### The choice of elements (R517) -/

theorem bestSpares_least {l : List Int} {p q : Nat × Nat} (hp : p ∈ bestSpares l) (hq : q ∈ sparePairs) :
    residualError l p ≤ residualError l q := by
  have least := List.min?_eq_some_iff.mp (List.min?_cons' (x := residualError l (0, 1)) (xs := sparePairs.map (residualError l)))
  unfold bestSpares at hp
  rw [of_decide_eq_true (List.mem_filter.mp hp).2]
  exact least.2 _ (List.mem_cons_of_mem _ (List.mem_map_of_mem hq))

theorem bestSpares_ne_nil (l : List Int) : bestSpares l ≠ [] := by
  have least := List.min?_eq_some_iff.mp (List.min?_cons' (x := residualError l (0, 1)) (xs := sparePairs.map (residualError l)))
  obtain ⟨p, hp, value⟩ : ∃ p ∈ sparePairs, residualError l p = (sparePairs.map (residualError l)).foldl min (residualError l (0, 1)) := by
    rcases List.mem_cons.mp least.1 with first | other
    · exact ⟨(0, 1), by decide, first.symm⟩
    · exact List.mem_map.mp other
  exact List.ne_nil_of_mem (List.mem_filter.mpr ⟨hp, decide_eq_true value⟩)

/-- The pair chosen is one of those that cancel best (R517). -/
theorem chooseSpares_mem (l : List Int) (s : State) : (chooseSpares l s).1 ∈ bestSpares l := by
  have some := List.length_pos_iff.mpr (bestSpares_ne_nil l)
  unfold chooseSpares
  dsimp only
  split
  · rw [List.getD_eq_getElem _ _ some]
    exact List.getElem_mem _
  · rw [List.getD_eq_getElem _ _ (Nat.mod_lt _ some)]
    exact List.getElem_mem _

/-- A choice of elements draws from what is free, and from nothing else. -/
theorem computeChoice_fresh {s t : State} (h : s.fresh = t.fresh) (a : Nat) (m : ElemStats) :
    (computeChoice a m s).1 = (computeChoice a m t).1 := by
  have spares (l : List Int) {u v : State} (h : u.fresh = v.fresh) : (chooseSpares l u).1 = (chooseSpares l v).1 ∧
      (chooseSpares l u).2.fresh = (chooseSpares l v).2.fresh := by
    unfold chooseSpares drawNat
    dsimp only
    split <;> simp [h]
  obtain ⟨one, next⟩ := spares (m.mismatchI.take 18) h
  obtain ⟨two, -⟩ := spares (m.mismatchQ.take 18) next
  unfold computeChoice
  dsimp only
  split <;> simp [one, two]

theorem computeChoice_only (a : Nat) (m : ElemStats) (s : State) :
    (computeChoice a m s).2 = { s with fresh := (computeChoice a m s).2.fresh } := by
  have spares (l : List Int) (u : State) : (chooseSpares l u).2 = { u with fresh := (chooseSpares l u).2.fresh } := by
    unfold chooseSpares
    dsimp only
    split <;> rfl
  unfold computeChoice
  dsimp only
  split
  · exact spares _ _
  · dsimp only
    rw [spares, spares]

/-! ### The statistics of a run (R515 to R520) -/

/-- The statistics of a run are complete: 200 ms after they began (R515). -/
def statsDue (a : Nat) (s : State) : State := passTo ((adcAt s a).phaseAt + ms 200) s

theorem statsDue_now (a : Nat) (s : State) : now (statsDue a s) = max (now s) ((adcAt s a).phaseAt + ms 200) := now_passTo _ _

/-- The state in which a qualified run's choice is made (R517). -/
def chosen (a : Nat) (m : ElemStats) (s : State) : State :=
  modAdc a (fun x => { x with stats := false, activity := m.activity, elemBad := false, choice := some (computeChoice a m (statsDue a s)).1 })
    (computeChoice a m (statsDue a s)).2

theorem chosen_parts {a : Nat} (m : ElemStats) {s : State} (ha : a < 5) (hl : s.cal.adcs.length = 5) :
    adcAt (chosen a m s) a = { adcAt s a with
      stats := false, activity := m.activity, elemBad := false, choice := some (computeChoice a m s).1 } ∧
    (chosen a m s).cal.adcs.length = 5 ∧ now (chosen a m s) = max (now s) ((adcAt s a).phaseAt + ms 200) ∧
    adcFeedsFade (chosen a m s) a = adcFeedsFade s a ∧ adcSteady (chosen a m s) a = adcSteady s a := by
  have fresh := computeChoice_fresh (s := statsDue a s) (t := s) (by rw [statsDue, passTo_only]) a m
  unfold chosen
  rw [fresh, computeChoice_only, statsDue, passTo_only]
  refine ⟨?_, ?_, now_passTo _ _, rfl, rfl⟩
  · rw [adcAt_modAdc, if_pos ⟨rfl, by simpa [hl] using ha⟩]
    rfl
  · simpa using hl

theorem statisticsDone_qualified {a : Nat} {m : ElemStats} {s : State} (ha : a < 5) (hs : (adcAt s a).stats = true)
    (hg : m.gathered = true) (hm : 400 ≤ m.activity) : exec (.elementStatisticsDone a m) s = .next
      (if adcFeedsFade (chosen a m s) a then modAdc a (fun x => { x with deferred := true, phaseAt := now (chosen a m s) }) (chosen a m s)
       else beginInterruption a (chosen a m s)) := by
  show execElementStatisticsDone a m s = _
  unfold execElementStatisticsDone
  rw [within_next (by simp [ha])]
  simp only [hs, hg, Bool.not_true, Bool.false_eq_true, if_false, if_true]
  rw [if_neg (by omega)]
  rfl

/-- The state that an unqualified automatic run leaves, before it is noted (R514, R516). -/
def kept (a : Nat) (m : ElemStats) (s : State) : State :=
  modAdc a (fun x => { x with
    stats := false, pending := true, retry := true, retryAt := now (statsDue a s), elemResult := 1, activity := m.activity
    unqualified := x.unqualified + 1, elemBad := true, asked := false }) (statsDue a s)

theorem kept_adcAt {a : Nat} (m : ElemStats) {s : State} (ha : a < 5) (hl : s.cal.adcs.length = 5) : adcAt (kept a m s) a =
    { adcAt s a with
      stats := false, pending := true, retry := true, retryAt := now (statsDue a s), elemResult := 1, activity := m.activity
      unqualified := (adcAt s a).unqualified + 1, elemBad := true, asked := false } := by
  unfold kept
  rw [adcAt_modAdc, if_pos ⟨rfl, by simpa [statsDue, passTo_frame .., hl] using ha⟩, statsDue, adcAt_passTo]

theorem statisticsDone_unqualified {a : Nat} {m : ElemStats} {s : State} (ha : a < 5) (hs : (adcAt s a).stats = true)
    (hk : (adcAt s a).asked = false) (hg : m.gathered = true) (hm : m.activity < 400) :
    exec (.elementStatisticsDone a m) s = .next (rerunOpens (noteUnqualified a 0 3 m.activity false (kept a m s))) := by
  show execElementStatisticsDone a m s = _
  unfold execElementStatisticsDone
  rw [within_next (by simp [ha])]
  simp only [hs, hg, hk, Bool.not_true, Bool.false_eq_true, if_false, if_true, endAsked_automatic]
  rw [if_pos hm]
  rfl

theorem beginInterruption_now (a : Nat) (s : State) : now (beginInterruption a s) = now s := by
  simp [now, beginInterruption_frame ..]

/-- During a retune an interruption waits for its end (R123). -/
theorem beginInterruption_held {a : Nat} {s : State} (h : adcSteady s a = false) :
    beginInterruption a s = modAdc a (fun x => { x with stats := false, deferred := true }) s := by
  unfold beginInterruption
  rw [if_neg (by simp [h])]

/-! ### Starting runs (R513, R514, R518) -/

theorem beginStats_parts {a : Nat} {s : State} (ha : a < 5) (hl : s.cal.adcs.length = 5) :
    adcAt (beginStats a s) a = { adcAt s a with pending := false, retry := false, stats := true, phaseAt := now s, choice := none } ∧
    (∀ b, b ≠ a → adcAt (beginStats a s) b = adcAt s b) ∧ now (beginStats a s) = now s := by
  unfold beginStats
  refine ⟨?_, fun b hb => ?_, rfl⟩
  · rw [adcAt_modAdc, if_pos ⟨rfl, by omega⟩]
  · rw [adcAt_modAdc, if_neg (fun h => hb h.1.symm)]

/-- A retry falls due 60 s after its run failed (R514). -/
def retryDue (a : Nat) (s : State) : State := passTo ((adcAt s a).retryAt + 60 * ticksPerSecond) s

theorem calRetry_begins {a : Nat} {s : State} (ha : a < 5) (hp : (adcAt s a).pending = true) (hr : (adcAt s a).retry = true)
    (hh : s.head.restarting = false) (hs : statsFree s = true) (ho : adcOpen s a = true) :
    exec (.calRetry a) s = .next (beginStats a (retryDue a s)) := by
  have free : (statsFree (retryDue a s) && adcOpen (retryDue a s) a) = true := by
    rw [retryDue, passTo_only]
    exact (congrArg₂ (· && ·) hs ho).trans rfl
  show execCalRetry a s = _
  unfold execCalRetry
  rw [within_next (by simp [ha])]
  dsimp only
  rw [if_pos (by simp [hp, hr, hh])]
  exact congrArg _ (if_pos free)

/-! ### The end of an interruption (R517, R519) -/

/-- An interruption lasts a fixed count of ticks (R519). -/
def interruptionOver (a : Nat) (s : State) : State := passTo ((adcAt s a).phaseAt + (if a = 4 then 294912 else 442368)) s

/-- The choice of a run takes effect and enters the calibration record (R509, R517). -/
def choiceTaken (a : Nat) (c : ElemChoice) (s : State) : State :=
  modAdc a (fun x => { x with
      interrupted := false, choice := none, elemResult := 0, applied := x.applied + 1, reference := x.temp
      lastRun := second (interruptionOver a s) % 4294967296, asked := false })
    (calChanged (modRecordAdc a (fun r => { r with
      spareI := c.spareI, spareQ := c.spareQ, mismatchI := c.mismatchI, mismatchQ := c.mismatchQ }) (interruptionOver a s)))

theorem choiceTaken_adcAt {a : Nat} (c : ElemChoice) {s : State} (ha : a < 5) (hl : s.cal.adcs.length = 5) :
    adcAt (choiceTaken a c s) a = { adcAt s a with
      interrupted := false, choice := none, elemResult := 0, applied := (adcAt s a).applied + 1, reference := (adcAt s a).temp
      lastRun := second (interruptionOver a s) % 4294967296, asked := false } := by
  unfold choiceTaken
  rw [adcAt_modAdc, if_pos ⟨rfl, by simpa [interruptionOver, passTo_frame .., hl] using ha⟩]
  simp [interruptionOver]

theorem choiceTaken_record {a : Nat} (c : ElemChoice) {s : State} (ha : a < 5) (hl : s.cal.record.adcs.length = 5) :
    (choiceTaken a c s).cal.record.adcs.getD a {} = { s.cal.record.adcs.getD a {} with
      spareI := c.spareI, spareQ := c.spareQ, mismatchI := c.mismatchI, mismatchQ := c.mismatchQ } := by
  unfold choiceTaken
  rw [modAdc_record, calChanged_cal, recordAdc_getD, interruptionOver, passTo_only]
  rw [if_pos ⟨rfl, by simpa [hl] using ha⟩]

theorem interruptionEnd_idle {a : Nat} {c : ElemChoice} {s : State} (ha : a < 5) (hi : (adcAt s a).interrupted = true)
    (hk : (adcAt s a).asked = false) (hc : (adcAt s a).choice = some c) (hw : adcWindow s a = none) :
    exec (.elementInterruptionEnd a) s = .next (rerunOpens (choiceTaken a c s)) := by
  have window : adcWindow (choiceTaken a c s) a = none := by
    rw [choiceTaken, interruptionOver, passTo_only]
    exact hw
  show execElementInterruptionEnd a s = _
  unfold execElementInterruptionEnd
  rw [within_next (by simp [ha])]
  simp only [hi, hk, hc, Bool.not_true, Bool.false_eq_true, if_false, endAsked_automatic, Option.getD_some]
  change Host.Outcome.next (match adcWindow (choiceTaken a c s) a with
    | some (w, _) => rerunOpens (afterInterruption w (judgeWindow none w (choiceTaken a c s)))
    | none => rerunOpens (choiceTaken a c s)) = _
  rw [window]

/-! ### IQ correction (R521) and alignment (R523) -/

/-- A ramp towards an estimate begins from the correction reached (R521). -/
def rampBegun (a : Nat) (m : IqEst) (s : State) : State :=
  modAdc a (fun x => { x with
    gain := (iqNow s (adcAt s a)).1, phase := (iqNow s (adcAt s a)).2, gainTo := m.gain, phaseTo := m.phase, ramp := true, rampAt := now s
    taps := tapsNow s x, tapsTo := m.taps.take 7
    iqBad := if x.iqTriggered.isSome then false else x.iqBad }) s

theorem iqEstimate_ramps {a : Nat} {m : IqEst} {s : State} (ha : a < 4) (hg : m.gathered = true) (ho : adcOpen s a = true)
    (hh : s.head.restarting = false) (hq : iqFails (powerAt s a m.powerTenthDbm) m = none) :
    ∃ t, exec (.iqEstimate a m) s = .next t ∧ t.cal = (rampBegun a m s).cal := by
  refine ⟨_, within_next (by simp [ha]) s _, ?_⟩
  rw [if_neg (by simp [hg, ho, hh])]
  simp only [hq]
  split <;> rfl

/-- A ramp lasts 100 ms; then the correction is the target (R521). -/
def rampEnded (a : Nat) (s : State) : State :=
  modAdc a (fun x => { x with gain := x.gainTo, phase := x.phaseTo, taps := x.tapsTo, ramp := false, iqTriggered := none })
    (passTo ((adcAt s a).rampAt + ms 100) s)

theorem iqRampEnd_automatic {a : Nat} {s : State} (ha : a < 4) (hr : (adcAt s a).ramp = true)
    (hk : (adcAt s a).iqTriggered ≠ some true) : exec (.iqRampEnd a) s = .next (storePoint a (rampEnded a s)) := by
  show execIqRampEnd a s = _
  unfold execIqRampEnd
  rw [within_next (by simp [ha])]
  simp only [hr, hk, Bool.not_true, Bool.false_eq_true, if_false, decide_false, endAsked_automatic]
  rfl

/-- A line's step falls due 1 ms after the one before (R523). -/
def stepDue (a : Nat) (s : State) : State := passTo ((adcAt s a).alignAt + ms 1) s

theorem alignmentStep_moves {a : Nat} {m : AlignMeas} {asked : Bool} {s : State} (ha : a < 5) (hk : (adcAt s a).aligning = some asked)
    (hp : s.clk.sPll = .locked) (hw : adcWindow s a = none)
    (hv : (s.cal.record.adcs.getD a {}).align ≠ clampInt (-256) 256 m.target) :
    exec (.alignmentStep a m) s = .next (modAdc a (fun x => { x with alignAt := now (stepDue a s) })
      (modRecordAdc a (fun r => { r with align := if (s.cal.record.adcs.getD a {}).align < clampInt (-256) 256 m.target
        then (s.cal.record.adcs.getD a {}).align + 1 else (s.cal.record.adcs.getD a {}).align - 1 }) (stepDue a s))) := by
  show execAlignmentStep a m s = _
  unfold execAlignmentStep
  rw [within_next (by simp [ha])]
  simp only [hk, hp, hw, Bool.false_and, Bool.false_eq_true, if_false, hv, bne_self_eq_false]
  rfl

theorem alignmentStep_ends {a : Nat} {m : AlignMeas} {s : State} (ha : a < 5) (hk : (adcAt s a).aligning = some false)
    (hp : s.clk.sPll = .locked) (hw : adcWindow s a = none)
    (hv : (s.cal.record.adcs.getD a {}).align = clampInt (-256) 256 m.target) :
    ∃ t, exec (.alignmentStep a m) s = .next t ∧ t.cal = (modAdc a (fun x => { x with aligning := none }) s).cal := by
  refine ⟨_, within_next (by simp [ha]) s _, ?_⟩
  simp only [hk, hp, hw, Bool.false_and, Bool.false_eq_true, if_false, hv, bne_self_eq_false, Bool.not_false, Bool.true_or, if_true]
  split <;> rfl

/-! ### CAL_RUN (R524) -/

/-- A CAL_RUN with a run to wait for records its runs, starts them and waits (R380, R524). -/
theorem calRunBody_waits {f : CmdFrame} {s : State} (h : ∃ r ∈ calRuns s f.payload, r.result = none) :
    (calRunBody f s).1.cal.runs = calRuns s f.payload ∧
    (∃ d, (calRunBody f s).1.head.deferred = s.head.deferred ++ [{ key := .calRun, resp := d }] ∧ d.tag = f.tag ∧ d.port = f.port) ∧
    (calRunBody f s).1.cal.record = s.cal.record ∧ (calRunBody f s).1.set = s.set := by
  unfold calRunBody
  dsimp only
  rw [startRuns_only, calRunEnds_waits (by simpa [deferOn] using h)]
  exact ⟨rfl, ⟨_, rfl, rfl, rfl⟩, rfl, rfl⟩

end Sys2Proof.Machine

namespace Sys2Proof.Machine

/-- Settles O20: each event's own rule gives the state it leaves, and the change of one converter is read off there. -/
theorem calibrationRunsInOrder : Obligations.CalibrationRunsInOrder := by
  refine ⟨fun s l hl ha hx => ?temperature, fun s a ha hl hs hp hh => ?starts, fun s a ha hl hp hr hh hs ho => ?retry,
    fun s a m ha hl hs hk hg hm => ?unqualified, fun s a m ha hl hs hg hm hf => ?deferred, fun s a m ha hl hs hg hm hf hw => ?interrupts,
    fun s a m ha hl hs hg hm hf hw => ?waits, fun l s p hp => bestSpares_least (chooseSpares_mem l s) hp,
    fun s a ha hl hd hw => ?expiry, fun s a c ha hl hr hi hk hc hw => ?taken, fun s a m ha hl hg ho hh hq => ?ramps,
    fun s a ha hl hr hk => ?rampEnds, fun s a m asked ha hl hr hk hp hw hv => ?moves, fun s a m ha hl hk hp hw hv => ?lineEnds,
    fun f s h hr => ?asked⟩
  case temperature =>
    obtain ⟨high, island⟩ := hottest_highest (l := l) (by rintro rfl; simp at hl)
    obtain ⟨only, readings⟩ := compareTemperatures_within
      (s := { s with port := { s.port with junction := (hottest l).1, hotIsland := (hottest l).2 } }) (adcTemps l) 0
      { s with port := { s.port with junction := (hottest l).1, hotIsland := (hottest l).2 } } rfl
      (by simp [adcTemps, ha]) (fun i _ => rfl) (fun i hi => by rw [Nat.zero_add]; exact hx i (by simpa [adcTemps] using hi))
    refine ⟨_, within_next (by simp [hl]) s _, fun i hi => ?_, ?_, ?_, ?_⟩
    · rw [readings i, if_pos ⟨by omega, by simpa [adcTemps] using hi⟩]
      rfl
    · rw [only]; exact high
    · rw [only]; exact island
    · rw [only]
  case starts =>
    obtain ⟨this, others, -⟩ := beginStats_parts (s := s) ha hl
    refine ⟨_, (within_next (by simp [ha]) s _).trans (congrArg _ (if_pos (by simp [hs, hp, hh]))), this, others, rfl⟩
  case retry =>
    have due : now (retryDue a s) = max (now s) ((adcAt s a).retryAt + 60 * ticksPerSecond) := now_passTo _ _
    obtain ⟨this, others, clock⟩ := beginStats_parts (s := retryDue a s) ha (by simp [retryDue, passTo_frame .., hl])
    refine ⟨_, calRetry_begins ha hp hr hh hs ho, clock.trans due, ?_, fun b hb => ?_⟩
    · rw [this, clock, retryDue, adcAt_passTo]
    · rw [others b hb, retryDue, adcAt_passTo]
  case unqualified =>
    obtain ⟨n, noted⟩ := adcAt_noteUnqualified a 0 3 m.activity false (kept a m s) a
    have clock : now (rerunOpens (noteUnqualified a 0 3 m.activity false (kept a m s))) = now (statsDue a s) := by
      simp [now, rerunOpens_frame .., noteUnqualified_frame .., kept, modAdc]
    refine ⟨_, statisticsDone_unqualified ha hs hk hg hm, clock.trans (statsDue_now a s), n, ?_⟩
    rw [adcAt_congr (s := noteUnqualified a 0 3 m.activity false (kept a m s)) (by simp [rerunOpens_frame ..]), noted, kept_adcAt m ha hl, clock]
  case deferred =>
    obtain ⟨this, length, clock, fade, -⟩ := chosen_parts m ha hl
    refine ⟨_, (statisticsDone_qualified ha hs hg hm).trans (congrArg _ (if_pos (fade.trans hf))), clock, ?_⟩
    rw [adcAt_modAdc, if_pos ⟨rfl, by omega⟩, this]
    rfl
  case interrupts =>
    obtain ⟨this, length, clock, fade, steady⟩ := chosen_parts m ha hl
    have begun := beginInterruption_now a (chosen a m s)
    refine ⟨_, (statisticsDone_qualified ha hs hg hm).trans (congrArg _ (if_neg (by simp [fade, hf]))), begun.trans clock, ?_⟩
    rw [adcAt_beginInterruption a a (steady.trans hw), if_pos ⟨rfl, by omega⟩, this, begun]
  case waits =>
    obtain ⟨this, length, -, fade, steady⟩ := chosen_parts m ha hl
    refine ⟨_, (statisticsDone_qualified ha hs hg hm).trans (congrArg _ (if_neg (by simp [fade, hf]))), ?_⟩
    rw [beginInterruption_held (steady.trans hw), adcAt_modAdc, if_pos ⟨rfl, by omega⟩, this]
    exact ⟨rfl, rfl, rfl⟩
  case expiry =>
    have begun := beginInterruption_now a (passTo ((adcAt s a).phaseAt + 2 * ticksPerSecond) s)
    have steady : adcSteady (passTo ((adcAt s a).phaseAt + 2 * ticksPerSecond) s) a = true := by rw [passTo_only]; exact hw
    refine ⟨_, (within_next (by simp [ha]) s _).trans (congrArg _ (if_pos hd)), begun.trans (now_passTo _ _), ?_⟩
    rw [adcAt_beginInterruption a a steady, if_pos ⟨rfl, by simpa [passTo_frame .., hl] using ha⟩, begun, adcAt_passTo]
  case taken =>
    have cal : (rerunOpens (choiceTaken a c s)).cal = (choiceTaken a c s).cal := by simp [rerunOpens_frame ..]
    have record := choiceTaken_record c ha hr
    rw [← cal] at record
    refine ⟨_, interruptionEnd_idle ha hi hk hc hw, ?_, by rw [record], by rw [record], by rw [record], by rw [record], ?_, ?_⟩
    · simp only [now, rerunOpens_frame ..]
      exact now_passTo _ _
    · simp only [rerunOpens_frame ..]
      rfl
    · rw [adcAt_congr cal, choiceTaken_adcAt c ha hl]
      simp only [second, rerunOpens_frame ..]
      rfl
  case ramps =>
    obtain ⟨t, runs, cal⟩ := iqEstimate_ramps ha hg ho hh hq
    refine ⟨t, runs, ?_⟩
    rw [adcAt_congr cal, rampBegun, adcAt_modAdc, if_pos ⟨rfl, by omega⟩]
  case rampEnds =>
    refine ⟨_, iqRampEnd_automatic ha hr hk, (now_storePoint _ _).trans (now_passTo _ _), ?_⟩
    rw [adcAt_storePoint, rampEnded, adcAt_modAdc, if_pos ⟨rfl, by simp [passTo_frame .., hl]; omega⟩, adcAt_passTo]
  case moves =>
    refine ⟨_, alignmentStep_moves ha hk hp hw hv, now_passTo _ _, ?_, ?_⟩
    · rw [modAdc_record, recordAdc_getD, if_pos ⟨rfl, by simp [stepDue, passTo_frame .., hr, ha]⟩]
    · rw [adcAt_modAdc, if_pos ⟨rfl, by simp [stepDue, passTo_frame .., hl, ha]⟩, adcAt_modRecordAdc, stepDue, adcAt_passTo]
      rfl
  case lineEnds =>
    obtain ⟨t, runs, cal⟩ := alignmentStep_ends (m := m) ha hk hp hw hv
    refine ⟨t, runs, ?_, by rw [cal]; rfl⟩
    rw [adcAt_congr cal, adcAt_modAdc, if_pos ⟨rfl, by omega⟩]
  case asked =>
    have taken : consume 0x0B00 f s = _ := consume_readsOnly 0x0B00 f s
    have runs : calRuns (consume 0x0B00 f s) f.payload = calRuns s f.payload := by rw [taken]; rfl
    have body := calRunBody_waits (f := f) (s := consume 0x0B00 f s) (by rw [runs]; exact hr)
    refine ⟨_, congrArg Host.Outcome.next (deferred_accepted h rfl), ?_⟩
    rw [runs] at body
    rw [taken] at body ⊢
    exact body

end Sys2Proof.Machine
end

section
/-!
PROOF. The emulated registers in COMPAT (O37).
-/

namespace Sys2Proof.Machine

/-! ### Tuning keeps what was written since (R558, R559)

A retune may end receptions and alerts, which set flags of the emulation; the frequency and the bandwidth that wait to be applied are
not touched. -/

/-- What was written to TUNE_FREQ and BANDWIDTH and is not applied (R558). -/
def unapplied (s : State) : Option Nat × Option Nat := (s.compat.tuneFreq, s.compat.tuneBw)

theorem unapplied_congr {s t : State} (h : t.compat = s.compat) : unapplied t = unapplied s := by
  unfold unapplied
  rw [h]

theorem unapplied_foldl {α : Type} {h : State → α → State} (H : ∀ b a, unapplied (h b a) = unapplied b) (l : List α) (s : State) :
    unapplied (l.foldl h s) = unapplied s := foldl_keeps unapplied H l s

theorem reportAlert_unapplied (i : Nat) (a : Alert) (began : Bool) (reason : Nat) (at' : Instant) (cause : Option Nat) (s : State) :
    unapplied (reportAlert i a began reason at' cause s) = unapplied s := by
  unfold reportAlert
  split
  · rfl
  · dsimp only
    split_ifs <;> split <;> simp [unapplied, offerUnit_frame ..]

theorem endAlerts_unapplied (i reason : Nat) (pick : Alert → Bool) (at' : Instant) (cause : Option Nat) (s : State) :
    unapplied (endAlerts i reason pick at' cause s) = unapplied s := by
  unfold endAlerts
  split
  · rfl
  · rw [unapplied_congr (modReception_frame ..).2.2.2.2.2.1.2.2]
    exact unapplied_foldl (fun b a => reportAlert_unapplied _ _ _ _ _ _ _) _ _

theorem compatRefresh_unapplied (s : State) : unapplied (compatRefresh s) = unapplied s := by
  unfold compatRefresh
  split <;> rfl

theorem loseReception_unapplied (i cause : Nat) (at' : Instant) (by' : Option Nat) (s : State) :
    unapplied (loseReception i cause at' by' s) = unapplied s := by
  unfold loseReception
  split
  · rfl
  · dsimp only
    split
    · rw [endAlerts_unapplied]
      exact unapplied_congr (by simp)
    · rw [compatRefresh_unapplied, endAlerts_unapplied]
      exact unapplied_congr (by simp [postLost_frame .., restartLoudness_frame ..])

theorem judgeChain_unapplied (cause : Option Nat) (o : ChainOwner) (s : State) : unapplied (judgeChain cause o s) = unapplied s := by
  have lost (i : Nat) (u : State) (at' : Instant) (h : u.compat = s.compat) :
      unapplied (stopIntervals i (modReception i freshRds (loseReception i 3 at' cause u))) = unapplied s := by
    rw [unapplied_congr (s := loseReception i 3 at' cause u) (by simp [stopIntervals_frame ..]), loseReception_unapplied]
    exact unapplied_congr h
  unfold judgeChain
  split
  · rfl
  · split_ifs with started shed
    · rfl
    · exact unapplied_congr (by simp [judgeShed_frame ..])
    · dsimp only
      split
      · split
        · exact lost _ _ _ (by simp [dropChannel_frame ..])
        · exact unapplied_congr (by simp [dropChannel_frame ..])
      · refine unapplied_congr ?_
        (repeat' split) <;> simp [restartChain_frame .., oweSide_frame ..]

theorem gapNow_unapplied (o : ChainOwner) (s : State) : unapplied (gapNow o s) = unapplied s := by
  unfold gapNow
  dsimp only
  split
  · exact unapplied_congr (by simp [holdOver_frame .., closeBlock_frame ..])
  · rw [apply_ite unapplied, judgeChain_unapplied, ite_self]
    exact unapplied_congr (by simp [postBankChanged_frame .., holdOver_frame .., closeBlock_frame .., freshOnMove_frame ..])

theorem gapChain_unapplied (o : ChainOwner) (s : State) : unapplied (gapChain o s) = unapplied s := by
  unfold gapChain
  split
  · rfl
  · split_ifs
    · rfl
    · exact gapNow_unapplied o s
    · exact unapplied_congr (by simp)

theorem beginRetune_unapplied (w : Nat) (dest : Nat × Nat × Nat) (s : State) : unapplied (beginRetune w dest s) = unapplied s :=
  unapplied_foldl (fun b o => gapChain_unapplied o b) (ownersOn s w) s

@[simp] theorem beginRetune_tuneFreq (w : Nat) (dest : Nat × Nat × Nat) (s : State) :
    (beginRetune w dest s).compat.tuneFreq = s.compat.tuneFreq := congrArg Prod.fst (beginRetune_unapplied w dest s)

@[simp] theorem beginRetune_tuneBw (w : Nat) (dest : Nat × Nat × Nat) (s : State) :
    (beginRetune w dest s).compat.tuneBw = s.compat.tuneBw := congrArg Prod.snd (beginRetune_unapplied w dest s)

theorem retuneWindow_unapplied (w : Nat) (c : WinSettings) (s : State) : unapplied (retuneWindow w c s).1 = unapplied s := by
  unfold unapplied retuneWindow
  dsimp only
  (repeat' split) <;> simp

theorem compatRetune_unapplied (s : State) : unapplied (compatRetune s) = unapplied s := by
  unfold compatRetune
  dsimp only
  rw [retuneWindow_unapplied]
  split <;> rfl

theorem compatDone_unapplied (s : State) : unapplied (compatDone s) = unapplied s := by
  unfold compatDone
  split <;> rfl

/-! ### CONTROL.TUNE (R557 to R560) -/

/-- Placing the LO changes of the settings only where it stands (R559). -/
theorem compatRetune_set (s : State) :
    (compatRetune s).set = { s.set with compat := { s.set.compat with physKhz := (compatRetune s).set.compat.physKhz } } := by
  unfold compatRetune
  dsimp only
  split <;> simp [setSettings, settingsDirty]

theorem compatTune_applies {f b : Nat} (hb : b < 3) (s : State) : unapplied (compatTune f b s) = unapplied s ∧
    (compatTune f b s).set.compat.tuneKhz = compatLimit (compatPort f) (compatWidth b) f ∧
    (compatTune f b s).set.compat.bandwidth = b ∧ (compatTune f b s).set.mode = s.set.mode := by
  have code : min b 2 = b := by omega
  unfold compatTune
  dsimp only
  rw [compatDone_unapplied, compatRetune_unapplied, (compatDone_frame _).2.1.1, compatRetune_set, code]
  exact ⟨rfl, rfl, rfl, rfl⟩

/-- What CONTROL.TUNE takes is no longer waiting to be applied (R558). -/
def tuneTaken (s : State) : State := { s with compat := { s.compat with tuneFreq := none, tuneBw := none } }

theorem controlTune_waits {s : State} {f b : Nat} (h : compatLive s = true) (ht : compatTuning s = true)
    (hf : s.compat.tuneFreq = some f) (hb : s.compat.tuneBw = some b) : exec .controlTune s =
      .next { s with compat := { s.compat with tuneFreq := none, tuneBw := none, tuneAgain := some (f, b) } } := by
  have tuning : compatTuning (tuneTaken s) = true := ht
  show execControlTune s = _
  unfold execControlTune compatTuneNow
  rw [if_pos h, hf, hb]
  exact congrArg _ (if_pos tuning)

theorem controlTune_applies {s : State} {f b : Nat} (h : compatLive s = true) (ht : compatTuning s = false)
    (hf : s.compat.tuneFreq = some f) (hb : s.compat.tuneBw = some b) :
    exec .controlTune s = .next (compatTune f b (tuneTaken s)) := by
  have tuning : ¬ compatTuning (tuneTaken s) = true := by simpa using (show compatTuning (tuneTaken s) = false from ht)
  show execControlTune s = _
  unfold execControlTune compatTuneNow
  rw [if_pos h, hf, hb]
  exact congrArg _ (if_neg tuning)

theorem compatLive_mode {s : State} (h : compatLive s = true) : s.set.mode = .compat := by
  unfold compatLive at h
  simp only [Bool.and_eq_true, beq_iff_eq] at h
  exact h.1.1

/-! ### POWER_DOWN, DEFAULTS and the update keys (R552, R557) -/

/-- The records that HOLD writes carry the mode to come; the settings in use stay (R41). -/
theorem holdWrites_set (s : State) : (holdWrites s).set = s.set := by
  have settings : (writeSettingsFor .hold s).set = s.set := by simp [writeSettingsFor, writeSettings_frame ..]
  unfold holdWrites
  dsimp only
  split <;> simp [writeCal_frame .., writeCounters_frame .., settings]

theorem beginTransition_hold {cause : Option Nat} {s : State} (hm : s.set.mode = .compat) :
    (beginTransition .hold cause s).head.transition = some .hold ∧ (beginTransition .hold cause s).set = s.set ∧
    (beginTransition .hold cause s).compat.ready = false := by
  unfold beginTransition
  dsimp only
  rw [leaveMode_compat hm, holdWrites_set, (holdWrites_frame _).2.2.2.2.1.2.2]
  simp only [holdWrites_frame .., compatLeave_frame .., stopAll_frame ..]
  exact ⟨trivial, trivial, rfl⟩

/-- SET_MODE with HOLD in COMPAT: the emulation stops, and of the settings only the mode to resume changes (R36, R41). -/
theorem setModeBody_holds {f : CmdFrame} {s : State} (hf : f.payload = [7, 0, 0, 0]) (hm : s.set.mode = .compat) :
    (setModeBody f s).1.head.transition = some .hold ∧ (setModeBody f s).1.set = { s.set with resume := .idle } ∧
    (setModeBody f s).1.compat.ready = false := by
  have code : field f.payload 0 1 = 7 := by rw [hf]; rfl
  have asked : askedMode s f = .hold := by simp [askedMode, code, hm, Mode.ofCode]
  have resume : askedResume f = .idle := by unfold askedResume; rw [hf]; rfl
  unfold setModeBody
  dsimp only
  rw [asked, if_neg (by rw [hm]; decide), if_pos rfl, resume]
  exact beginTransition_hold hm

/-- SET_MODE with UPDATE in COMPAT stops the emulation (R36, R552). -/
theorem setModeBody_updates {f : CmdFrame} {s : State} (hf : f.payload = [5, 0, 0, 0]) (hm : s.set.mode = .compat) :
    (setModeBody f s).1.head.transition = some .update ∧ (setModeBody f s).1.set = s.set ∧
    (setModeBody f s).1.compat.ready = false ∧ now (setModeBody f s).1 = now s := by
  have code : field f.payload 0 1 = 5 := by rw [hf]; rfl
  have asked : askedMode s f = .update := by simp [askedMode, code, hm, Mode.ofCode]
  obtain ⟨transition, set, -⟩ := setModeBody_begins (f := f) (s := s) (by simp [asked, hm]) (by simp [asked]) (by simp [asked])
  refine ⟨by rw [transition, asked], set, ?_, by simp [now, setModeBody_frame ..]⟩
  unfold setModeBody
  dsimp only
  rw [asked, if_neg (by rw [hm]; decide), if_neg (by decide), beginTransition_leaves (by decide) (by decide),
    leaveMode_compat (by exact hm)]
  rfl

/-- The device with the shipped settings in force, whose write FACTORY_DEFAULTS waits for (R61). -/
def defaultsQueued (f : CmdFrame) (s : State) : State :=
  deferOn (.write (writeSettings (applyShipped f.tag (planShipped f.tag s))).1) (deferredOf 0x0102 f false)
    (writeSettings (applyShipped f.tag (planShipped f.tag s))).2

theorem defaultsQueued_set (f : CmdFrame) (s : State) :
    (defaultsQueued f s).set = (applyShipped f.tag (planShipped f.tag s)).set := by
  simp [defaultsQueued, writeSettings_frame ..]

/-- The emulation with nothing written that waits, and no reception (R557, R560). -/
def compatEmptied (s : State) : State := { s with compat := { s.compat with
  tuneFreq := none, tuneBw := none, tuneAgain := none, applyDone := false
  chFreq := [none, none, none, none], chService := [none, none, none, none], chRx := [none, none, none, none] } }

theorem factoryDefaultsBody_enters {f : CmdFrame} {s : State} (h : (defaultsQueued f s).set.mode = .compat) :
    (factoryDefaultsBody f s).1 = compatEnter (compatEmptied (defaultsQueued f s)) := if_pos h

/-- FACTORY_DEFAULTS in COMPAT enters it anew on the shipped settings, which enable no channel (R61, R557). -/
theorem factoryDefaultsBody_compat {f : CmdFrame} {s : State} (hm : s.set.mode = .compat) (hl : s.set.link.role = 0)
    (ht : s.set.time.ref = 0) : (factoryDefaultsBody f s).1.set.link = {} ∧ (factoryDefaultsBody f s).1.set.time = {} ∧
    (factoryDefaultsBody f s).1.set.mode = .compat ∧ (factoryDefaultsBody f s).1.sec = s.sec := by
  obtain ⟨pset, -⟩ := planShipped_parts f.tag s
  have shipped : (defaultsQueued f s).set = { shippedSettings (planShipped f.tag s) with rings := (defaultsQueued f s).set.rings } := by
    rw [defaultsQueued_set]
    exact applyShipped_set (by rw [pset]; exact hl) (by rw [pset]; exact ht)
  have mode : (defaultsQueued f s).set.mode = .compat := by rw [shipped]; simp [shippedSettings, pset, hm]
  have emulation : (defaultsQueued f s).set.compat = (shippedSettings (planShipped f.tag s)).compat := by rw [shipped]
  have set : (factoryDefaultsBody f s).1.set = (defaultsQueued f s).set := by
    rw [factoryDefaultsBody_enters mode, compatEnter_set]
    · rfl
    · intro c
      change ((defaultsQueued f s).set.compat.channels.getD c {}).enable = false
      rw [emulation]
      exact shippedSettings_channels _ c
  refine ⟨?_, ?_, by rw [set, mode], by simp [factoryDefaultsBody_frame ..]⟩ <;> rw [set, shipped] <;> rfl

/-- The first write of a sequence of UPDATE_KEY is remembered with its time (R552). -/
def keyBegun (first : Byte) (s : State) : State := { s with compat := { s.compat with key := some (first, now s) } }

theorem keyBegun_now (first : Byte) (gap : Nat) (s : State) : now (pass (ms gap) (keyBegun first s)) = now s + ms gap := now_pass _ _

/-- Within 100 ms the first write still counts (R552). -/
theorem keyBegun_counts (first : Byte) {gap : Nat} (h : gap ≤ 100) (s : State) :
    (pass (ms gap) (keyBegun first s)).compat.key = some (first, now s) ∧ now (pass (ms gap) (keyBegun first s)) ≤ now s + ms 100 := by
  rw [keyBegun_now]
  exact ⟨by simp [pass_frame .., keyBegun], by unfold ms; omega⟩

/-- The second write of a sequence of UPDATE_KEY ends it (R552). -/
def keyEnded (first : Byte) (gap : Nat) (s : State) : State :=
  { pass (ms gap) (keyBegun first s) with compat := { s.compat with key := none } }

theorem keyEnded_eq (first : Byte) (gap : Nat) (s : State) : keyEnded first gap s =
    { pass (ms gap) (keyBegun first s) with compat := { (pass (ms gap) (keyBegun first s)).compat with key := none } } := by
  have compat : (pass (ms gap) (keyBegun first s)).compat = (keyBegun first s).compat := by simp [pass_frame ..]
  rw [compat]
  rfl

theorem updateKeyUpdate_sets {s : State} {gap : Nat} (h : compatLive s = true) (hg : gap ≤ 100) :
    exec (.updateKeyUpdate gap) s = .next (setMode (compatFrame [5, 0, 0, 0]) (keyEnded 0x55 gap s)) := by
  obtain ⟨key, clock⟩ := keyBegun_counts 0x55 hg s
  have begins : keyWrite 0x55 s = keyBegun 0x55 s := by simp [keyWrite, keyBegun]
  show execUpdateKeyUpdate gap s = _
  unfold execUpdateKeyUpdate
  rw [if_pos h, begins, keyEnded_eq]
  unfold keyWrite
  exact congrArg _ (if_pos (by rw [key]; simpa using clock))

theorem updateKeyZeroise_zeroises {s : State} {gap : Nat} (h : compatLive s = true) (hg : gap ≤ 100) :
    exec (.updateKeyZeroise gap) s = .next (keyZeroise (compatFrame [0xFF, 0, 0, 0]) (keyEnded 0x5A gap s)) := by
  obtain ⟨key, clock⟩ := keyBegun_counts 0x5A hg s
  have begins : keyWrite 0x5A s = keyBegun 0x5A s := by simp [keyWrite, keyBegun]
  show execUpdateKeyZeroise gap s = _
  unfold execUpdateKeyZeroise
  rw [if_pos h, begins, keyEnded_eq]
  unfold keyWrite
  exact congrArg _ ((if_neg (by simp)).trans (if_pos (by rw [key]; simpa using clock)))

/-! ### CH_CTRL (R557, R558) -/

/-- CH_CTRL stores a channel's fields before the channel is brought to what they say (R558). -/
def channelStored (c : Nat) (x : CompatChannel) (s : State) : State :=
  setSettings { s.set with compat := { s.set.compat with channels := setAt s.set.compat.channels c x } }
    { s with compat := { s.compat with chFreq := setAt s.compat.chFreq c none, chService := setAt s.compat.chService c none } }

/-- A disabled channel without reception needs nothing more while W0 retunes (R560). -/
theorem compatApply_disabled {c : Nat} {s : State} (hr : compatRx s c = none) (he : (compatChannel s c).enable = false) :
    compatApply c s = s := by
  unfold compatApply
  simp [hr, he]

theorem channelStored_channel {c : Nat} (x : CompatChannel) {s : State} (hc : c < 4) (hl : s.set.compat.channels.length = 4) :
    (channelStored c x s).set.compat.channels[c]? = some x := by
  simp [channelStored, setSettings, settingsDirty, setAt, hl, hc]

theorem compatCtrl_stores {c k : Nat} {v : Byte} {s : State} (hc : c < 4) (hl : s.set.compat.channels.length = 4)
    (ht : compatTuning s = true) (hv : v.getLsbD 0 = false) (hr : compatRx s c = none) (hk : k = min ((v.toNat / 2) % 4) 2) :
    compatCtrl c v s = channelStored c {
      enable := false, standard := k, rds := v.getLsbD 3
      freqKhz := clampFreq (compatKind k) ((s.compat.chFreq.getD c none).getD (compatChannel s c).freqKhz * 1000) / 1000
      service := (s.compat.chService.getD c none).getD (compatChannel s c).service } s := by
  subst hk
  have rx (x : CompatChannel) : compatRx (channelStored c x s) c = none := hr
  have tuning (x : CompatChannel) : compatTuning (channelStored c x s) = true := ht
  have channel (x : CompatChannel) : compatChannel (channelStored c x s) c = x := by
    have stored := channelStored_channel x hc hl
    unfold compatChannel
    rw [List.getD_eq_getElem?_getD, stored]
    rfl
  unfold compatCtrl
  rw [hv]
  dsimp only
  rw [← channelStored, compatApply_disabled (rx _) (by rw [channel])]
  exact if_pos (tuning _)

/-! ### The flags, the FIFO and register writes (R555, R556, R561) -/

theorem fifoDataRead_takes {s : State} (h : compatLive s = true) : exec .fifoDataRead s = .next { s with
    out := s.out ++ [.compatByte 0x71 ((s.compat.fifo.headD []).getD s.compat.fifoPos 0)]
    compat := if s.compat.fifo = [] then s.compat
      else if 11 ≤ s.compat.fifoPos then { s.compat with fifo := s.compat.fifo.drop 1, fifoPos := 0 }
      else { s.compat with fifoPos := s.compat.fifoPos + 1 } } := by
  have byte : compatByte s 0x71 = (s.compat.fifo.headD []).getD s.compat.fifoPos 0 := by simp [compatByte]
  show execFifoDataRead s = _
  unfold execFifoDataRead
  rw [if_pos h, byte]
  cases hf : s.compat.fifo with
  | nil => simp [emit]
  | cons x l =>
    by_cases hp : 11 ≤ s.compat.fifoPos
    · simp [emit, hf, hp]
    · simp [emit, hf, hp]

theorem compatWrites_tuneFreq {s : State} (h : compatLive s = true) (a b c d : Byte) :
    compatWrites 4 8 [a, b, c, d] s = { s with compat := { s.compat with tuneFreq := some (ofLe [a, b, c, d]) } } := by
  unfold compatWrites
  simp [compatSize, h, compatReg]
  rfl

/-- A write transaction that ends before its register does writes nothing (R556). -/
theorem compatWrites_short (s : State) (a b c : Byte) : compatWrites 3 8 [a, b, c] s = s := by
  unfold compatWrites
  simp [compatSize]

end Sys2Proof.Machine

namespace Sys2Proof.Machine

/-- Settles O37: each register by what it does to the state it acts on; the two keys and CONTROL by the command they give. -/
theorem compatRegistersAct : Obligations.CompatRegistersAct := by
  refine ⟨fun s f b h ht hf hb => ?tuneWaits, fun s f b h ht hf hb hw => ?tune, fun s h ha => ?powerDown, fun s h ha hl ht => ?defaults,
    fun s u gap h hg hu ha => ?update, fun s u gap h hg hu ha => ?zeroise, fun s c k v hc h ht hl hv hr hk => ?channel,
    fun s v h => ⟨_, congrArg Host.Outcome.next (if_pos h), rfl⟩, fun s h => ?level, fun s h => ⟨_, fifoDataRead_takes h, rfl⟩,
    fun s a b c d h => ⟨_, congrArg Host.Outcome.next (compatWrites_tuneFreq h a b c d), rfl⟩,
    fun s a b c => congrArg Host.Outcome.next (compatWrites_short s a b c)⟩
  case tuneWaits => exact ⟨_, controlTune_waits h ht hf hb, rfl, rfl, rfl, rfl⟩
  case tune =>
    obtain ⟨none, freq, width, mode⟩ := compatTune_applies (f := f) hw (tuneTaken s)
    exact ⟨_, controlTune_applies h ht hf hb, congrArg Prod.fst none, congrArg Prod.snd none, freq, width,
      mode.trans (compatLive_mode h)⟩
  case powerDown =>
    have mode := compatLive_mode h
    obtain ⟨t, runs, left⟩ := defers_accepted ha (body := setModeBody (compatFrame [7, 0, 0, 0]))
      (P := fun t => t.head.transition = some .hold ∧ t.set = { s.set with resume := .idle } ∧ t.compat.ready = false)
      (fun t u k ht => by unfold PortOut at k; rw [k]; exact ht) (fun u hu _ => by
        unfold ReadsOnly at hu
        have set : u.set = s.set := by rw [hu]
        rw [← set]
        exact setModeBody_holds rfl (by rw [set]; exact mode))
    exact ⟨t, (congrArg Host.Outcome.next (if_pos h)).trans runs, left⟩
  case defaults =>
    have mode := compatLive_mode h
    obtain ⟨t, runs, left⟩ := defers_accepted ha (body := factoryDefaultsBody (compatFrame []))
      (P := fun t => t.set.link = {} ∧ t.set.time = {} ∧ t.set.mode = .compat ∧ t.sec = s.sec)
      (fun t u k ht => by unfold PortOut at k; rw [k]; exact ht) (fun u hu _ => by
        unfold ReadsOnly at hu
        have set : u.set = s.set := by rw [hu]
        have sec : u.sec = s.sec := by rw [hu]
        rw [← sec]
        exact factoryDefaultsBody_compat (by rw [set]; exact mode) (by rw [set]; exact hl) (by rw [set]; exact ht))
    exact ⟨t, (congrArg Host.Outcome.next (if_pos h)).trans runs, left⟩
  case update =>
    have mode := compatLive_mode h
    have ended : u = keyEnded 0x55 gap s := hu
    have uset : u.set = s.set := by rw [ended]; simp [keyEnded, pass_frame .., keyBegun]
    have clock : now u = now s + ms gap := by rw [ended]; exact keyBegun_now 0x55 gap s
    obtain ⟨t, runs, left⟩ := defers_accepted ha (body := setModeBody (compatFrame [5, 0, 0, 0]))
      (P := fun t => t.head.transition = some .update ∧ t.set = s.set ∧ t.compat.ready = false ∧ now t = now s + ms gap)
      (fun t u k ht => by unfold PortOut at k; rw [k]; exact ht) (fun x hx _ => by
        unfold ReadsOnly at hx
        have set : x.set = s.set := by rw [hx]; exact uset
        have same : now x = now s + ms gap := by rw [hx]; exact clock
        rw [← same, ← set]
        exact setModeBody_updates rfl (by rw [set]; exact mode))
    exact ⟨t, (updateKeyUpdate_sets h hg).trans (by rw [← ended]; exact runs), left⟩
  case zeroise =>
    have ended : u = keyEnded 0x5A gap s := hu
    obtain ⟨usec, uset, ucompat⟩ : u.sec = s.sec ∧ u.set = s.set ∧ u.compat = { s.compat with key := none } := by
      rw [ended]; simp [keyEnded, pass_frame .., keyBegun]
    have clock : now u = now s + ms gap := by rw [ended]; exact keyBegun_now 0x5A gap s
    obtain ⟨t, runs, left⟩ := defers_accepted ha (body := keyZeroiseBody (compatFrame [0xFF, 0, 0, 0]))
      (P := fun t => t.sec = { s.sec with zeroising := s.sec.zeroising ++ [0, 1, 2] } ∧ t.set = s.set ∧
        t.compat = { s.compat with key := none } ∧ now t = now s + ms gap)
      (fun t u k ht => by unfold PortOut at k; rw [k]; exact ht) (fun x hx _ => by
        obtain ⟨zeroising, -, set, -⟩ := keyZeroiseBody_queues (f := compatFrame [0xFF, 0, 0, 0]) (s := x) (by decide)
        have compat : (keyZeroiseBody (compatFrame [0xFF, 0, 0, 0]) x).1.compat = x.compat := by simp [keyZeroiseBody_frame ..]
        have same : now (keyZeroiseBody (compatFrame [0xFF, 0, 0, 0]) x).1 = now x := by simp [now, keyZeroiseBody_frame ..]
        rw [zeroising, set, compat, same]
        unfold ReadsOnly at hx
        rw [hx]
        exact ⟨by rw [usec]; rfl, uset, ucompat, clock⟩)
    exact ⟨t, (updateKeyZeroise_zeroises h hg).trans (by rw [← ended]; exact runs), left⟩
  case channel =>
    refine ⟨_, (within_next (by simp [hc]) s _).trans (congrArg _ ((if_pos h).trans (compatCtrl_stores hc hl ht hv hr hk))),
      channelStored_channel _ hc hl, rfl, rfl, rfl, rfl, rfl⟩
  case level =>
    have byte : compatByte s 0x70 = BitVec.ofNat 8 s.compat.fifo.length := by simp [compatByte]
    exact ⟨_, congrArg Host.Outcome.next (if_pos h), by rw [byte]; rfl⟩

end Sys2Proof.Machine
end

section
/-!
PROOF. The link's beacons and windows (first part of O9).
-/

namespace Sys2Proof.Machine

/-! ### The time of the link's network -/

/-- The radio reaches a gatherer time, and does not go back to one that is past. -/
theorem now_reach (t : Int) (s : State) : now (reach t s) = now s + (t - linkTime s).toNat := now_pass _ _

/-- Reaching a time changes the clock and device time only. -/
theorem reach_only (t : Int) (s : State) : reach t s = { s with clk := (reach t s).clk, time := (reach t s).time } := pass_only _ s

theorem linkTime_congr {s t : State} (ht : t.time = s.time) (hs : t.set = s.set) (ho : t.link.offset = s.link.offset) :
    linkTime t = linkTime s := by
  unfold linkTime gatherTime
  rw [ht, hs, ho]

theorem listenUntil_now (t : Int) (s : State) : now (listenUntil t s) = now s := by simp [now, listenUntil_frame ..]

/-- A window lasts until its end by the network's time (R408). -/
theorem listenUntil_lasts (t : Int) (s : State) :
    (listenUntil t s).link.listenTo = now (listenUntil t s) + (t - linkTime (listenUntil t s)).toNat := by
  rw [listenUntil_now, listenUntil_linkTime, listenUntil_link_listenTo]

/-! ### The gatherer's beacon (R448, R450) -/

/-- A beacon that passes every check goes on air (R437, R450, R467). -/
theorem sendBeacon_sends {s : State} {p : Profile} {c w sub : Nat} (hr : radioReady (beaconTaken s) = true)
    (h : MaySend (beaconNow s) { counter := s.link.counter } p c w sub (beaconTaken s)) :
    sendBeacon s = goOnAir { beaconNow s with centre := c, width := w } sub none false
      (countLink 18 (keepTags (linkTime s) (tagsTaken s).length (beaconTaken s))) := by
  have count : s.link.counter ≠ 0xFFFFFFFF := h.counter
  have budget : ¬ unitsLeft (beaconTaken s) sub * ticksPerSecond < 15 * askTicks { beaconNow s with centre := c, width := w } :=
    Nat.not_lt.mpr h.budget
  have place : (moveChannel p (beaconNow s).centre (beaconNow s).width).bind
      (fun x => (permittedBy p x.1 x.2).map (fun i => (x, i))) = some ((c, w), sub) := by rw [h.channel]; simp [h.permitted]
  unfold sendBeacon
  dsimp only
  rw [if_neg (by simp [h.counters, count]), if_neg (by simp [hr]), h.profile]
  dsimp only
  rw [place]
  exact if_neg budget

/-- A gatherer at the start of a superframe sends its beacon now (R448). -/
theorem beaconTransmit_atStart {s : State} (hr : s.set.link.role = 2) (hs : s.link.state = .gathering) (hm : mayTransmit s = true)
    (hg : s.link.gatherTo = none) (ht : superStart (linkNet s) (linkTime s) = linkTime s)
    (hb : s.link.beaconSfn ≠ some (sfnAt (linkNet s) (linkTime s))) : exec .beaconTransmit s = .next (sendBeacon s) := by
  have plain : applyGather s = s := by unfold applyGather; rw [hg]
  have starts : (if superStart (linkNet s) (linkTime s) == linkTime s && s.link.beaconSfn != some (sfnAt (linkNet s) (linkTime s)) then s
      else reach (nextBoundary s) s) = s := if_pos (by simp [ht, hb])
  show execBeaconTransmit s = _
  unfold execBeaconTransmit
  rw [if_pos (by simp [hr, hs, hm])]
  dsimp only
  rw [starts, plain]
  exact congrArg _ (congrArg _ (if_pos (by simp [ht])))

/-! ### A node's windows (R408, R454, R455, R466) -/

/-- T0 of the next beacon that no window has been opened for (R454). -/
def beaconDue (s : State) : Int :=
  if s.link.beaconSfn = some (sfnAt (linkNet s) (nextBoundary s)) then nextBoundary s + (superTicks (linkNet s) : Int) else nextBoundary s

/-- The guard about that beacon (R454). -/
def beaconGuard (s : State) : Nat := guardAt s (beaconDue s - s.link.offset.getD 0)

/-- The window's beacon is that at a T0. -/
def awaitBeacon (t0 : Int) (net : GatherConfig) (s : State) : State := { s with link := { s.link with beaconSfn := some (sfnAt net t0) } }

theorem beaconWindowOpen_listens {s : State} (hr : s.set.link.role = 1) (hs : s.link.state = .synced) (hl : linkRuns s = true)
    (hg : beaconGuard s ≤ ms 500) : exec .beaconWindowOpen s = .next (listenUntil (beaconDue s + (beaconGuard s + tenSymbols : Nat))
      (awaitBeacon (beaconDue s) (linkNet s) (reach (beaconDue s - (beaconGuard s : Int)) s))) := by
  show execBeaconWindowOpen s = _
  unfold execBeaconWindowOpen
  rw [if_pos (by simp [hr, hs, hl])]
  exact congrArg _ (if_neg (show ¬ ms 500 < beaconGuard s by omega))

/-- A node that is LOST searches in windows of a second at first (R454, R455). -/
def lostNow (s : State) : State := setLinkState .lost none { s with link := { s.link with window := 1, beaconSfn := none } }

theorem beaconWindowOpen_loses {s : State} (hr : s.set.link.role = 1) (hs : s.link.state = .synced) (hl : linkRuns s = true)
    (hg : ms 500 < beaconGuard s) :
    exec .beaconWindowOpen s = .next (radioRest (lostNow (reach (beaconDue s - (beaconGuard s : Int)) s))) := by
  show execBeaconWindowOpen s = _
  unfold execBeaconWindowOpen
  rw [if_pos (by simp [hr, hs, hl])]
  exact congrArg _ (if_pos hg)

theorem setLinkState_link (st : LinkState) (c : Option Nat) (s : State) :
    (setLinkState st c s).link = { s.link with state := st } := by
  unfold setLinkState
  split
  · next h => rw [← h]
  · simp

/-- Where the radio goes does not touch the state of the link or its windows (R444). -/
theorem radioRest_link (s : State) : (radioRest s).link = { s.link with
    radio := (radioRest s).link.radio, radioTo := (radioRest s).link.radioTo, radioAt := (radioRest s).link.radioAt
    rx := (radioRest s).link.rx } := by
  unfold radioRest radioGo
  dsimp only
  (repeat' split) <;> rfl

/-- With nothing queued a missed beacon judges no frame (R464). -/
theorem beaconMissed_counts {s : State} {n : Nat} (hb : s.link.beaconSfn = some n) (hr : s.set.link.role = 1)
    (hs : s.link.state = .synced) (hl : linkRuns s = true) (hx : s.link.rx = []) (hq : s.link.queue = []) :
    exec .beaconMissed s = .next (radioRest (countLink 19
      { passTo (s.link.listenTo + 1) s with link := { s.link with beaconSfn := none } })) := by
  have link : (passTo (s.link.listenTo + 1) s).link = s.link := by simp [passTo_frame ..]
  show execBeaconMissed s = _
  unfold execBeaconMissed
  simp only [hb]
  rw [if_pos (by simp [hr, hs, hl, hx])]
  unfold judgeTx
  simp [link, hq]

/-- The width of a LOST node's next window in seconds, doubled after each in vain (R455). -/
def searchWidth (s : State) : Nat := if s.link.beaconSfn.isSome then min (2 * s.link.window) (2 ^ (linkNet s).p) else s.link.window

/-- A search window is of a width in seconds about a T0 (R455). -/
def searchFor (w : Nat) (t0 : Int) (net : GatherConfig) (s : State) : State :=
  { s with link := { s.link with window := w, beaconSfn := some (sfnAt net t0) } }

theorem searchWindow_listens {s : State} (hr : s.set.link.role = 1) (hs : s.link.state = .lost) (hl : linkRuns s = true) :
    exec .searchWindow s = .next (listenUntil (beaconDue s + (searchWidth s * ticksPerSecond / 2 : Nat))
      (searchFor (searchWidth s) (beaconDue s) (linkNet s) (reach (beaconDue s - (searchWidth s * ticksPerSecond / 2 : Nat)) s))) := by
  show execSearchWindow s = _
  unfold execSearchWindow
  exact congrArg _ (if_pos (by simp [hr, hs, hl]))

theorem downlinkWindowOpen_listens {s : State} {r : Int} (hr : s.set.link.role = 1) (hs : s.link.state = .synced)
    (hl : linkRuns s = true) (hd : 0 < (linkNet s).downMs)
    (ht : linkTime s < superStart (linkNet s) (linkTime s) + (ms (linkNet s).startMs : Nat))
    (hr' : r = superStart (linkNet s) (linkTime s) + (ms (linkNet s).startMs : Nat)) :
    exec .downlinkWindowOpen s = .next (listenUntil r (reach (r - (ms (linkNet s).downMs : Nat)) s)) := by
  show execDownlinkWindowOpen s = _
  unfold execDownlinkWindowOpen
  dsimp only
  rw [if_pos (by simp [hr, hs, hl, hd]), if_pos ht, ← hr']

/-! ### A LOST node's frame (R459, R460) -/

theorem linkTime_pickFallback (sfn k : Nat) (s : State) : linkTime (pickFallback sfn k s).2 = linkTime s := by
  refine linkTime_congr ?_ ?_ (by rw [pickFallback_link]) <;> simp [pickFallback_frame ..]

/-- The channel of a hop slot (R459). -/
def hopChannel (net : GatherConfig) (hop : Nat) (s : State) : LinkChannel := net.channels.getD (hopHash s net hop) {}

/-- The offset within a hop slot that a draw gives a frame of an airtime (R460). -/
def hopOffset (drawn air : Nat) : Nat := drawn % (ticksPerSecond - air + 1)

theorem hopOffset_le (drawn air : Nat) : hopOffset drawn air ≤ ticksPerSecond := by
  have := Nat.mod_lt drawn (show 0 < ticksPerSecond - air + 1 by omega)
  unfold hopOffset
  omega

/-- The airtime of a fallback frame on the channel as applied (R460). -/
def fallbackAir (fr : TxFrame) (sfn hop : Nat) (c : LinkChannel) (s : State) : Nat :=
  symbolTicks (uplinkAsk s fr sfn (some hop) c).sl (appliedChannel s c.centre c.width).2
    (askSymbols (uplinkAsk s fr sfn (some hop) c))

/-- The frame chosen is due at an offset within its hop slot (R460). -/
theorem fallbackTransmit_due {s u : State} {fr : TxFrame} (hr : s.set.link.role = 1) (hs : s.link.state = .lost)
    (hm : mayTransmit s = true) (hq : s.link.queue ≠ [])
    (hp : pickFallback (sfnAt (linkNet s) (fallbackStart s)) (s.link.queue.length + 1) s = (some fr, u)) :
    ∃ (off : Nat) (c : LinkChannel), off ≤ ticksPerSecond ∧ exec .fallbackTransmit s = .next (dueUplink fr
      (sfnAt (linkNet s) (fallbackStart s)) (some (hopSlot (fallbackStart s))) c
      (reach (fallbackStart s + off) (drawNat (drbgRequest u)).2)) := by
  refine ⟨hopOffset (drawNat (drbgRequest u)).1 (fallbackAir fr (sfnAt (linkNet s) (fallbackStart s)) (hopSlot (fallbackStart s))
    (hopChannel (linkNet s) (hopSlot (fallbackStart s)) u) u), hopChannel (linkNet s) (hopSlot (fallbackStart s)) u,
    hopOffset_le _ _, ?_⟩
  show execFallbackTransmit s = _
  unfold execFallbackTransmit
  rw [if_pos (by simp [hr, hs, hm, hq])]
  dsimp only
  rw [hp]
  rfl

/-- Choosing the frame and drawing its offset takes no time (R460). -/
theorem fallbackDrawn_times {sfn k : Nat} {s u : State} {fr : Option TxFrame} (hp : pickFallback sfn k s = (fr, u)) :
    now (drawNat (drbgRequest u)).2 = now s ∧ linkTime (drawNat (drbgRequest u)).2 = linkTime s := by
  have chosen : u = (pickFallback sfn k s).2 := by rw [hp]
  have clock : now u = now s := by rw [chosen]; simp [now, pickFallback_frame ..]
  have time : linkTime u = linkTime s := by rw [chosen]; exact linkTime_pickFallback _ _ _
  exact ⟨clock, time⟩

end Sys2Proof.Machine
end

section
/-!
PROOF. The link's receptions, tables and supply (second part of O9).
-/

namespace Sys2Proof.Machine

/-! ### Detectors (R422 to R426) -/

theorem rxAt_freeRx (lane sl : Nat) (s : State) : rxAt (freeRx lane sl s) lane sl = none := by
  unfold rxAt freeRx
  rw [List.find?_eq_none]
  intro x hx
  simpa [imp_iff_not_or] using (List.mem_filter.mp hx).2

/-- A detector with no frame has none to lose. -/
theorem freeRx_none {lane sl : Nat} {s : State} (h : rxAt s lane sl = none) : freeRx lane sl s = s := by
  have all : s.link.rx.filter (fun x => !(x.lane == lane && x.sl == sl)) = s.link.rx := by
    rw [List.filter_eq_self]
    intro x hx
    simpa [imp_iff_not_or] using List.find?_eq_none.mp h x hx
  unfold freeRx
  rw [all]

/-- The frame that a detector begins to receive (R423). -/
def candidate (lane : Nat) (c : LinkCand) (s : State) : RxFrame :=
  { lane := lane, sl := c.sl, sync := instantAt s (syncStamp s c), offsetHz := c.offsetHz }

theorem rxAt_takeRx (lane : Nat) (c : LinkCand) (s : State) : rxAt (takeRx lane c s) lane c.sl = some (candidate lane c s) := by
  have gone := rxAt_freeRx lane c.sl s
  unfold rxAt at gone ⊢
  unfold takeRx
  rw [List.find?_append, gone]
  simp [candidate]
  rfl

section
variable {lane : Nat} {c : LinkCand} {s : State} (hl : lane < 8) (hr : receives s = true) (hd : detects s lane c.sl = true)
  (hq : qualifies s lane c = true)
include hl hr hd hq

/-- A free detector takes a candidate that qualifies (R422). -/
theorem frameQualified_taken (hx : rxAt s lane c.sl = none) : exec (.frameQualified lane c) s = .next (takeRx lane c s) := by
  show execFrameQualified lane c s = _
  unfold execFrameQualified
  rw [within_next (by simp [hl]), if_neg (by simp [hr, hd, hq]), hx]

variable {x : RxFrame} (hx : rxAt s lane c.sl = some x)
include hx

/-- Before its header a frame gives way to a later candidate (R425). -/
theorem frameQualified_replaces (hh : x.header = none) :
    exec (.frameQualified lane c) s = .next (takeRx lane c (countLink 3 s)) := by
  show execFrameQualified lane c s = _
  unfold execFrameQualified
  rw [within_next (by simp [hl]), if_neg (by simp [hr, hd, hq]), hx]
  dsimp only
  rw [hh]

/-- After its header a frame stays unless the candidate exceeds it by the capture margin (R425). -/
theorem frameQualified_ignored (hh : x.header.isSome)
    (hs : meanStrength ((qualifying s c).getD []) < meanStrength c.current + 10 * (s.set.link.capture : Int)) :
    exec (.frameQualified lane c) s = .next s := by
  obtain ⟨h, hh⟩ := Option.isSome_iff_exists.mp hh
  show execFrameQualified lane c s = _
  unfold execFrameQualified
  rw [within_next (by simp [hl]), if_neg (by simp [hr, hd, hq]), hx]
  dsimp only
  rw [hh]
  exact congrArg _ (if_pos hs)

end

/-- A header that passes its check is kept with its frame, and no other frame changes (R424, R426). -/
def headerKept (lane sl : Nat) (h : BitVec 24) (guarded : Bool) (s : State) : State :=
  { s with link := { s.link with rx := s.link.rx.map (fun x =>
      if x.lane == lane && x.sl == sl then { x with header := some h, guarded := guarded } else x) } }

theorem rxAt_headerKept {lane sl : Nat} (h : BitVec 24) (guarded : Bool) {s : State} {x : RxFrame} (hx : rxAt s lane sl = some x) :
    rxAt (headerKept lane sl h guarded s) lane sl = some { x with header := some h, guarded := guarded } := by
  have own := List.find?_some hx
  unfold rxAt at hx ⊢
  have same : ((fun y : RxFrame => y.lane == lane && y.sl == sl) ∘ fun y : RxFrame =>
      if y.lane == lane && y.sl == sl then { y with header := some h, guarded := guarded } else y) =
      fun y : RxFrame => y.lane == lane && y.sl == sl := by
    funext y
    simp only [Function.comp]
    split <;> rfl
  unfold headerKept
  rw [List.find?_map, same, hx, Option.map_some, if_pos own]

/-- Deciding a header's bits draws from what is free, and from nothing else (R424). -/
theorem decodeHeader_only (sl : Nat) (sent : List Bool) (s : State) :
    (decodeHeader sl sent s).2 = { s with fresh := (decodeHeader sl sent s).2.fresh } := by
  unfold decodeHeader
  dsimp only
  split <;> rfl

theorem headerCheck_fails {lane sl : Nat} {bits : List Bool} {s : State} {x : RxFrame} (hl : lane < 8) (hx : rxAt s lane sl = some x)
    (hh : x.header = none) (hb : headerOk (decodeHeader sl bits s).1 = false) :
    exec (.headerCheck lane sl bits) s = .next (freeRx lane sl (countLink 1 (decodeHeader sl bits s).2)) := by
  show execHeaderCheck lane sl bits s = _
  unfold execHeaderCheck
  rw [within_next (by simp [hl]), hx]
  dsimp only
  rw [if_neg (by simp [hh])]
  exact congrArg _ (if_neg (by simp [hb]))

theorem headerCheck_keeps {lane sl : Nat} {bits : List Bool} {s : State} {x : RxFrame} (hl : lane < 8) (hx : rxAt s lane sl = some x)
    (hh : x.header = none) (hb : headerOk (decodeHeader sl bits s).1 = true) :
    exec (.headerCheck lane sl bits) s = .next (headerKept lane sl (decodeHeader sl bits s).1
      (s.set.link.role == 1 && (headerFields (decodeHeader sl bits s).1).downlink) (decodeHeader sl bits s).2) := by
  have set : (decodeHeader sl bits s).2.set = s.set := by rw [decodeHeader_only]
  show execHeaderCheck lane sl bits s = _
  unfold execHeaderCheck
  rw [within_next (by simp [hl]), hx]
  dsimp only
  rw [if_neg (by simp [hh]), ← set]
  exact congrArg _ (if_pos hb)

/-! ### Received frames (R424, R471, R475) -/

/-- The body of the frame at a detector as decoded, and the state in which it is judged (R424). -/
def bodyHeard (lane sl : Nat) (h : HeaderBits) (m : LinkRx) (s : State) : List Byte × State :=
  decodeBody sl h.rate (bodyLength (payloadLength h) h.fallback) m.bits (freeRx lane sl s)

/-- The detector is free, and only free values may have been drawn besides. -/
theorem bodyHeard_only (lane sl : Nat) (h : HeaderBits) (m : LinkRx) (s : State) : (bodyHeard lane sl h m s).2 =
    { freeRx lane sl s with fresh := (bodyHeard lane sl h m s).2.fresh } := by
  unfold bodyHeard
  apply state_ext <;> simp [decodeBody_frame ..]

theorem frameReceived_crcFails {lane sl : Nat} {m : LinkRx} {s : State} {x : RxFrame} {hw : BitVec 24} (hl : lane < 8)
    (hx : rxAt s lane sl = some x) (hh : x.header = some hw) (hc : bodyCrcOk (bodyHeard lane sl (headerFields hw) m s).1 = false) :
    exec (.frameReceived lane sl m) s = .next (countLink 2 (bodyHeard lane sl (headerFields hw) m s).2) := by
  show execFrameReceived lane sl m s = _
  unfold execFrameReceived
  rw [within_next (by simp [hl]), hx]
  dsimp only
  rw [hh]
  exact congrArg _ (if_pos (by simpa [bodyHeard] using hc))

/-- The state in which a role judges a frame whose body is whole: the detector is free and the frame counted (R424, R477). -/
def judged (lane sl : Nat) (h : HeaderBits) (m : LinkRx) (s : State) : State := countLink 0 (bodyHeard lane sl h m s).2

/-- A frame whose CRC and form are right is judged by the role (R471, R475). -/
theorem frameReceived_judged {lane sl : Nat} {m : LinkRx} {s : State} {x : RxFrame} {hw : BitVec 24} (hl : lane < 8)
    (hx : rxAt s lane sl = some x) (hh : x.header = some hw) {body : List Byte} {b : BodyBits}
    (hd : body = (bodyHeard lane sl (headerFields hw) m s).1) (hc : bodyCrcOk body = true)
    (hb : b = bodyFields (headerFields hw).fallback body) (hm : bodyMalformed (headerFields hw) b = false) :
    exec (.frameReceived lane sl m) s = .next
      (if s.set.link.role = 1 then nodeFrame lane x m hw b body (judged lane sl (headerFields hw) m s)
       else gathererFrame lane x m hw b body (judged lane sl (headerFields hw) m s)) := by
  have role : (judged lane sl (headerFields hw) m s).set.link.role = s.set.link.role := by
    rw [judged, bodyHeard_only]; rfl
  subst hd hb
  rw [← role]
  show execFrameReceived lane sl m s = _
  unfold execFrameReceived
  rw [within_next (by simp [hl]), hx]
  dsimp only
  rw [hh]
  refine congrArg _ ((if_neg (by simpa [bodyHeard] using hc)).trans ?_)
  exact if_neg (by simpa [bodyHeard] using hm)

/-- Judging a frame frees its detector, and touches nothing that the checks of a role read. -/
theorem judged_only (lane sl : Nat) (h : HeaderBits) (m : LinkRx) (s : State) : judged lane sl h m s =
    { s with link := (freeRx lane sl s).link, stats := (countLink 0 s).stats, fresh := (judged lane sl h m s).fresh } := by
  unfold judged
  rw [bodyHeard_only]
  rfl

/-- While the table of recent frames has room an entry joins it (R472). -/
theorem enterRecent_room {s : State} (h : s.link.recent.length < 65536) (node counter : Nat) (sync : Tick) :
    enterRecent node counter sync s = { s with link := { s.link with
      recent := s.link.recent ++ [(node, counter, sfnAt (linkNet s) (gatherTime s sync.toNat))] } } := by
  unfold enterRecent
  simp [show ¬ 65536 ≤ s.link.recent.length by omega]

/-- What a judged frame that is new leaves: a free detector, its entry, its counts, and no tag or queued frame (R424, R472, R477). -/
theorem deliverRx_judged {s : State} (hr : s.link.recent.length < 65536) (lane sl node counter : Nat) (c : RxFrame) (m : LinkRx)
    (h : HeaderBits) (b : BodyBits) (p : List Byte) (sync : Tick) :
    (deliverRx lane c m h b p (enterRecent node counter sync (countLink 11 (judged lane sl h m s)))).link = { (freeRx lane sl s).link with
      recent := s.link.recent ++ [(node, counter, sfnAt (linkNet s) (gatherTime s sync.toNat))] } ∧
    (deliverRx lane c m h b p (enterRecent node counter sync (countLink 11 (judged lane sl h m s)))).stats.c =
      modAt (modAt s.stats.c 0 (· + 1)) 11 (· + 1) ∧
    (deliverRx lane c m h b p (enterRecent node counter sync (countLink 11 (judged lane sl h m s)))).set = s.set := by
  rw [judged_only, enterRecent_room (by exact hr)]
  refine ⟨?_, ?_, ?_⟩ <;> simp only [deliverRx_frame ..] <;> rfl

/-- Judging keeps the instant at which the frame's sync was heard (R471). -/
theorem syncNow_judged (lane sl : Nat) (h : HeaderBits) (m : LinkRx) (s : State) (c : RxFrame) :
    syncNow (judged lane sl h m s) c = syncNow s c := by
  rw [judged_only]
  rfl

theorem gathererFrame_enters {lane : Nat} {c : RxFrame} {m : LinkRx} {hw : BitVec 24} {b : BodyBits} {body p : List Byte} {s : State}
    (hd : (headerFields hw).downlink = false) (hn : b.net = s.set.link.net) (h1 : 1 ≤ b.node) (h2 : b.node ≤ 250000)
    (hf : fresh s (syncNow s c) b = true) (hk : (linkKey s).isEmpty = false) (ho : openBody (linkKey s) b.node hw b body = some p)
    (hs : seenRecent s b.node b.counter = false) : gathererFrame lane c m hw b body s =
      acknowledge b.node b.counter (syncNow s c) (deliverRx lane c m (headerFields hw) b p
        (enterRecent b.node b.counter (syncNow s c) (countLink 11 s))) := by
  unfold gathererFrame
  dsimp only
  rw [if_neg (by simp [hd, hn]), if_neg (by simp; omega), if_neg (by simp [hf]), ho]
  dsimp only
  rw [if_neg (by simp [hk]), if_neg (by simp [hs])]

/-- A well-formed frame of kind 3 is a downlink (R415). -/
theorem downlink_of_kind {h : HeaderBits} {b : BodyBits} (hm : bodyMalformed h b = false) (hk : b.kind = 3) : h.downlink = true := by
  unfold bodyMalformed at hm
  simp [hk] at hm
  exact hm.1

theorem nodeFrame_enters {lane : Nat} {c : RxFrame} {m : LinkRx} {hw : BitVec 24} {b : BodyBits} {body p : List Byte} {s : State}
    (hd : (headerFields hw).downlink = true) (hb : b.kind = 3) (hn : b.net = s.set.link.net)
    (ha : (nodeAddresses s).contains b.node = true) (hf : fresh s (syncNow s c) b = true) (hk : (linkKey s).isEmpty = false)
    (ho : openBody (linkKey s) (s.link.gatherer.getD 0) hw b body = some p)
    (hs : seenRecent s (s.link.gatherer.getD 0) b.counter = false) : nodeFrame lane c m hw b body s =
      deliverRx lane c m (headerFields hw) b p
        (enterRecent (s.link.gatherer.getD 0) b.counter (syncNow s c) (countLink 11 s)) := by
  unfold nodeFrame
  dsimp only
  rw [if_neg (by simp [hd, hb, hn]), if_neg (by omega), if_neg (by simpa using ha), if_neg (by simp [hf]), ho]
  dsimp only
  rw [if_neg (by simp [hk]), if_neg (by simp [hs])]

/-! ### Tables, ring 28 and VDD_PA (R447, R468, R472, R84) -/

theorem gatherConfigApply_applies {s : State} {c : GatherConfig} (h : s.link.gatherTo = some c) :
    exec .gatherConfigApply s = .next (noteHarmonics [0, 1, 2, 3, 4] none
      { reach (nextBoundary s) s with set := { s.set with gather := c }, link := { s.link with gatherTo := none } }) := by
  have parts : (reach (nextBoundary s) s).link = s.link ∧ (reach (nextBoundary s) s).set = s.set := by simp [reach_frame ..]
  have waits : (reach (nextBoundary s) s).link.gatherTo = some c := by rw [parts.1]; exact h
  rw [← parts.1, ← parts.2]
  show execGatherConfigApply s = _
  unfold execGatherConfigApply
  rw [if_neg (by simp [h])]
  unfold applyGather
  rw [waits]

/-- An entry of the table of recent frames that has not run out at a time (R472). -/
def staysRecent (net : GatherConfig) (t : Int) (x : Nat × Nat × Nat) : Bool := decide (sfnDiff (sfnAt net t) x.2.2 < net.w + 9)

/-- The entries that have run out leave, at a time that the link reaches first (R472). -/
theorem recentFrameExpiry_leaves {s : State} (h : s.link.recent ≠ []) :
    ∃ u : State, u = { s with clk := u.clk, time := u.time } ∧ exec .recentFrameExpiry s = .next { u with link := { u.link with
      recent := u.link.recent.filter (staysRecent (linkNet s) (linkTime u)) } } := by
  obtain ⟨x, l, hx⟩ := List.exists_cons_of_ne_nil h
  show ∃ u : State, _ ∧ execRecentFrameExpiry s = _
  unfold execRecentFrameExpiry
  rw [hx]
  dsimp only
  split
  · exact ⟨s, rfl, rfl⟩
  · exact ⟨_, reach_only _ _, rfl⟩

/-- A frame taken from the front of its ring leaves the entries behind it (R305). -/
theorem frameTaken_entries {s : State} {n : Nat} {e : Entry} {l : List Entry} (h : (ringAt s n).entries = e :: l) :
    (ringAt (frameTaken n s) n).entries = l := by
  unfold frameTaken
  rw [ringAt_headAdvanced]
  refine Eq.trans (ringAt_modRing_entries ?_ n n (popFront s n)) (popFront_entries h)
  intro r
  rfl

section
variable {s : State} {e : Entry} {l : List Entry} (he : (ringAt s 28).entries = e :: l) (hc : s.pwr.commands = true)
  (hr : s.pwr.stage ≠ .recovery) (hh : s.head.restarting = false) (hm : s.set.mode ≠ .hold) (hm' : s.set.mode ≠ .compat)
  (hp : s.clk.sysPll = .locked) (hq : s.link.queue.length < 64)
include he hc hr hh hm hm' hp hq

theorem ring28EntryTaken_counts (ho : hostFrameOk e.bytes = false) :
    exec .ring28EntryTaken s = .next (countLink 21 (frameTaken 28 s)) := by
  show execRing28EntryTaken s = _
  unfold execRing28EntryTaken
  rw [he]
  dsimp only
  rw [if_neg (by simp [hc, hr, hh, hm, hm', hp]; omega), if_neg (by simp [ho])]

theorem ring28EntryTaken_queues (hk : s.set.link.role ≠ 0) (ho : hostFrameOk e.bytes = true) : exec .ring28EntryTaken s =
    .next (enqueueTx (field e.bytes 36 4) ((e.bytes.drop 72).take (field e.bytes 68 2)) (frameTaken 28 s)).2 := by
  show execRing28EntryTaken s = _
  unfold execRing28EntryTaken
  rw [he]
  dsimp only
  rw [if_neg (by simp [hc, hr, hh, hm, hm', hp]; omega), if_pos (by simp [ho, hk])]

end

/-- A frame that joins the transmit queue takes the next counter (R462). -/
theorem enqueueTx_link (dest : Nat) (payload : List Byte) (s : State) :
    (enqueueTx dest payload s).2.link.counter = min (s.link.counter + 1) 0xFFFFFFFF ∧
    (enqueueTx dest payload s).2.link.queue = s.link.queue ++ [{
      counter := s.link.counter, dest := if s.set.link.role = 2 then clampNat 1 262143 dest else 0, payload := payload }] := by
  obtain ⟨taken, counter, queue, -⟩ := takeCounter_parts s
  have set : (takeCounter s).2.set = s.set := by simp [takeCounter_frame ..]
  unfold enqueueTx
  dsimp only
  rw [taken, queue, set]
  exact ⟨counter, rfl⟩

theorem vddPaLow_cuts {s : State} (h : s.pwr.railsGood.contains .vddPa = true) : exec .vddPaLow s = .next (cutAir
    (note 0x0201 0xFF 0 0 { s with pwr := { s.pwr with railsGood := s.pwr.railsGood.filter (· != .vddPa) } })) :=
  congrArg Host.Outcome.next (if_pos h)

theorem mayTransmit_rail {s : State} (h : s.pwr.railsGood.contains .vddPa = false) : mayTransmit s = false := by
  unfold mayTransmit
  rw [h]
  simp

/-- Settles O9: the windows by the time that the link reaches, the receptions by the detector's table, and each table and queue by
the operation that changes it. -/
theorem linkKeepsItsScheduleAndHearsFrames : Obligations.LinkKeepsItsScheduleAndHearsFrames := by
  refine ⟨fun s p c w sub hr hs hm hg ht hb hy h => ?beacon, fun s t0 g hr hs hl h0 hg hle => ?opens,
    fun s t0 hr hs hl h0 hg => ?loses, fun s n hb hr hs hl hx hq => ?missed, fun s t0 w hr hs hl h0 hw => ?search,
    fun s r hr hs hl hd ht hr' => ?downlink, fun s u fr start hr hs hm hq h0 hp => ?fallback,
    fun s lane c hl hr hd hq hx => ?taken, fun s lane c x hl hr hd hq hx hh hc => frameQualified_ignored hl hr hd hq hx hh hc,
    fun s lane c x hl hr hd hq hx hh => ?replaced, fun s lane sl bits x hl hx hh hb => ?headerBad,
    fun s lane sl bits x hl hx hh hb => ?headerGood, fun s lane sl m x hw hl hx hh hc => ?crc,
    fun s lane sl m x hw h body p b hl hr hx hh h0 hd hc hb hm hdl hn h1 h2 hf hk ho hs hroom => ?gatherer,
    fun s lane sl g m x hw h body p b hl hr hx hh h0 hd hc hb hm hkind hn ha hf hk hg ho hs hroom => ?node,
    fun s c h => ?gather, fun s h => ?expiry, fun s e l he _ hc hr hh hm hm' hp hq ho => ?counted,
    fun s e l he _ hc hr hh hm hm' hp hk hq ho => ?queued, fun s h => ?low, fun s h => ?good⟩
  case beacon =>
    obtain ⟨air, radio, rx⟩ := goOnAir_air { beaconNow s with centre := c, width := w } sub none false
      (countLink 18 (keepTags (linkTime s) (tagsTaken s).length (beaconTaken s)))
    refine ⟨_, (beaconTransmit_atStart hr hs hm hg ht hb).trans (congrArg _ (sendBeacon_sends hy h)), ?_, ?_, radio, rx, ?_⟩
    · simp [goOnAir_frame .., keepTags_frame .., beaconTaken_frame ..]
    · simp [goOnAir_frame .., keepTags_frame .., beaconTaken_frame ..]
    · rw [air]
      simp [now, keepTags_frame .., beaconTaken_frame ..]
  case opens =>
    subst h0 hg
    refine ⟨_, beaconWindowOpen_listens hr hs hl hle, ?_, ?_, listenUntil_lasts _ _⟩
    · rw [listenUntil_now]
      exact now_reach _ s
    · rw [listenUntil_link_beaconSfn]
      rfl
  case loses =>
    subst h0
    refine ⟨_, beaconWindowOpen_loses hr hs hl hg, ?_, ?_, ?_⟩ <;> rw [radioRest_link, lostNow, setLinkState_link]
  case missed =>
    refine ⟨_, beaconMissed_counts hb hr hs hl hx hq, ?_, ?_, ?_, ?_⟩
    · rw [radioRest_link]; rfl
    · rw [radioRest_link]; exact hs
    · simp [radioRest_frame .., countLink, passTo_frame ..]
    · simp only [now, radioRest_frame .., countLink_frame ..]
      exact now_passTo _ s
  case search =>
    subst h0 hw
    refine ⟨_, searchWindow_listens hr hs hl, ?_, ?_, ?_, listenUntil_lasts _ _⟩
    · rw [listenUntil_link_window]
      rfl
    · rw [listenUntil_link_beaconSfn]
      rfl
    · rw [listenUntil_now]
      exact now_reach _ s
  case downlink =>
    refine ⟨_, downlinkWindowOpen_listens hr hs hl hd ht hr', ?_, listenUntil_lasts _ _⟩
    rw [listenUntil_now]
    exact now_reach _ s
  case fallback =>
    subst h0
    obtain ⟨off, ch, bound, runs⟩ := fallbackTransmit_due hr hs hm hq hp
    obtain ⟨clock, time⟩ := fallbackDrawn_times hp
    refine ⟨_, runs, dueUplink_link_slotSfn _ _ _ _ _, off, bound, ?_⟩
    simp only [now, dueUplink_frame ..]
    refine (now_reach _ _).trans ?_
    rw [clock, time]
    rfl
  case taken =>
    rw [frameQualified_taken hl hr hd hq hx]
    unfold takeRx
    rw [freeRx_none hx]
  case replaced =>
    refine ⟨_, frameQualified_replaces hl hr hd hq hx hh, rxAt_takeRx lane c (countLink 3 s), rfl⟩
  case headerBad =>
    refine ⟨_, headerCheck_fails hl hx hh hb, rxAt_freeRx _ _ _, ?_⟩
    rw [decodeHeader_only]
    rfl
  case headerGood =>
    refine ⟨_, headerCheck_keeps hl hx hh hb, rxAt_headerKept _ _ ?_⟩
    rw [decodeHeader_only]
    exact hx
  case crc =>
    refine ⟨_, frameReceived_crcFails hl hx hh hc, ?_, ?_⟩ <;> rw [bodyHeard_only]
    · exact rxAt_freeRx lane sl s
    · rfl
  case gatherer =>
    subst h0
    have runs := frameReceived_judged hl hx hh hd hc hb hm
    rw [if_neg (by omega), gathererFrame_enters hdl (by rw [judged_only]; exact hn) h1 h2 (by rw [judged_only]; exact hf)
      (by rw [judged_only]; exact hk) (by rw [judged_only]; exact ho) (by rw [judged_only]; exact hs), syncNow_judged] at runs
    obtain ⟨link, stats, set⟩ := deliverRx_judged hroom lane sl b.node b.counter x m (headerFields hw) b p (syncNow s x)
    refine ⟨_, runs, ?_⟩
    unfold acknowledge
    rw [link]
    exact ⟨rxAt_freeRx lane sl s, stats, rfl, rfl, rfl, set⟩
  case node =>
    subst h0 hg
    have runs := frameReceived_judged hl hx hh hd hc hb hm
    rw [if_pos hr, nodeFrame_enters (downlink_of_kind hm hkind) hkind (by rw [judged_only]; exact hn) (by rw [judged_only]; exact ha)
      (by rw [judged_only]; exact hf) (by rw [judged_only]; exact hk) (by rw [judged_only]; exact ho) (by rw [judged_only]; exact hs),
      syncNow_judged] at runs
    have known : (judged lane sl (headerFields hw) m s).link.gatherer = s.link.gatherer := by rw [judged_only]; rfl
    rw [known] at runs
    obtain ⟨link, stats, set⟩ := deliverRx_judged hroom lane sl (s.link.gatherer.getD 0) b.counter x m (headerFields hw) b p (syncNow s x)
    refine ⟨_, runs, ?_⟩
    unfold rxAt
    rw [link]
    exact ⟨rxAt_freeRx lane sl s, stats, rfl, rfl, rfl, set⟩
  case gather =>
    refine ⟨_, gatherConfigApply_applies h, ?_⟩
    simp only [now, noteHarmonics_frame .., reach_frame ..]
    exact ⟨trivial, trivial, now_reach _ s, trivial, trivial, trivial⟩
  case expiry =>
    obtain ⟨u, only, runs⟩ := recentFrameExpiry_leaves h
    refine ⟨_, runs, ?_⟩
    rw [only]
    exact ⟨rfl, rfl, rfl, rfl, rfl⟩
  case counted =>
    refine ⟨_, ring28EntryTaken_counts he hc hr hh hm hm' hp hq ho, frameTaken_entries he, ?_, ?_⟩
    · simp [countLink, frameTaken_frame ..]
    · simp [frameTaken_frame ..]
  case queued =>
    obtain ⟨counter, queue⟩ := enqueueTx_link (field e.bytes 36 4) ((e.bytes.drop 72).take (field e.bytes 68 2)) (frameTaken 28 s)
    have link : (frameTaken 28 s).link = s.link := by simp [frameTaken_frame ..]
    have set : (frameTaken 28 s).set = s.set := by simp [frameTaken_frame ..]
    rw [link] at counter
    rw [link, set] at queue
    refine ⟨_, ring28EntryTaken_queues he hc hr hh hm hm' hp hq hk ho, ?_, counter, queue, ?_, ?_⟩
    · rw [ringAt_congr (s := frameTaken 28 s) (by simp [enqueueTx_frame ..])]
      exact frameTaken_entries he
    · simp [enqueueTx_frame .., frameTaken_frame ..]
    · simp [enqueueTx_frame .., frameTaken_frame ..]
  case low =>
    have pwr : (cutAir (note 0x0201 0xFF 0 0 { s with pwr := { s.pwr with railsGood := s.pwr.railsGood.filter (· != .vddPa) } })).pwr =
        { s.pwr with railsGood := s.pwr.railsGood.filter (· != .vddPa) } := by simp [cutAir_frame ..]
    exact ⟨_, vddPaLow_cuts h, cutAir_air _, pwr, mayTransmit_rail (by rw [pwr]; simp)⟩
  case good => exact congrArg Host.Outcome.next (if_neg (by simpa using h))

end Sys2Proof.Machine
end
